-- ==== Sys2Proof/Word.lean ====
section
/-! DEFINITION. The part's words: 48-bit data words (R8), stored words of 48 data bits and 8 check bits (R143), bytes,
and the sparse tables and the memory form that State is made of. -/

namespace Sys2Proof

/-- A word of the part, bits 47:0 (R8). -/
abbrev Word := BitVec 48

/-- A byte of a frame or of a slot. -/
abbrev Byte := BitVec 8

/-- A word as an SRAM stores it: the check byte in bits 55:48 over the data in bits 47:0 (R143). -/
abbrev Stored := BitVec 56

/-- A sparse table: rising keys, no entry equal to the default that an unlisted key reads as. -/
abbrev Tab (α : Type) := List (Nat × α)

namespace Tab
variable {α : Type}

/-- The value at a key; an unlisted key reads as the default `d`. -/
def get (d : α) : Tab α → Nat → α
  | [], _ => d
  | (k, v) :: t, n => if k = n then v else get d t n

/-- The table without any entry for the key. -/
def del (t : Tab α) (n : Nat) : Tab α := t.filter fun e => e.1 ≠ n

/-- The table with an entry put in at its place in the rising order. -/
def ins : Tab α → Nat → α → Tab α
  | [], n, v => [(n, v)]
  | (k, u) :: t, n, v => if n < k then (n, v) :: (k, u) :: t else (k, u) :: ins t n v

/-- Writing a value at a key; writing the default takes the entry out. -/
def set [DecidableEq α] (d : α) (t : Tab α) (n : Nat) (v : α) : Tab α :=
  if v = d then del t n else ins (del t n) n v

/-- The canonical form: keys strictly rising, and no entry equal to the default. -/
def wf [DecidableEq α] (d : α) : Tab α → Bool
  | [] => true
  | (k, v) :: t => decide (v ≠ d) && (t.all fun e => decide (k < e.1)) && wf d t

end Tab

/-- A memory of stored words, by word number; an unlisted word reads as zero with its check byte zero (R146). -/
abbrev Mem := Tab Stored

/-- The canonical form of a memory. -/
def Mem.wf (m : Mem) : Bool := Tab.wf (0 : Stored) m

end Sys2Proof
end

