-- ==== Sys2Proof/Syntax.lean ====
section
/-! DEFINITION. The commands: one constructor of `Instr` for each row of the spec's table of operations and events,
with the row's operands, and the operand types. An engine's row carries only the engine: what the instruction does is
read from the engine's own code store. -/

namespace Sys2Proof

/-- Who makes an access: a host port (the PCIe physical function, a PCIe virtual function r + 1, quad-SPI, management,
the JTAG debug port), the Farrier, or an engine (R57, R107, R136). -/
inductive Who
  | pf | vf (r : Fin 15) | qspi | mgmt | jtag | farrier | engine (e : Fin 128)
  deriving DecidableEq, Repr

/-- The blocks that have a COMMIT register (R40). -/
inductive Block
  | gc | fn | st (n : Fin 16) | mb | ic (t : Fin 19) | mg | ep (n : Fin 12) | yd | tm | pd | can (n : Fin 4) | pi (b : Fin 4)
  deriving DecidableEq, Repr

/-- One SRAM word of the part under the check code of R143. -/
inductive SramWord
  | loft (n : Fin 16) (a : Fin 65536) | code (n : Fin 16) (a : Fin 32768) | priv (e : Fin 128) (a : Fin 4096)
  | mg (a : Fin 131072) | stage (a : Fin 8192) | mbq (m : Fin 1024) (sd : Fin 2) (k : Fin 8) | cell (id lane : Nat)
  deriving DecidableEq, Repr

/-- What marks an mPacket as a part of a preemptable frame (R193): the first or a later fragment, the last one, and the
frame's and the fragment's count (0 in the first two fragments). -/
structure Frag where
  first : Bool
  last : Bool
  frameCount : Fin 4
  fragCount : Fin 4
  deriving DecidableEq, Repr

/-- An Ethernet frame on the wire, or one mPacket of a preemptable frame: its bytes from the destination address up to the
FCS (of a fragment: its share of them), whether the FCS or the fragment's mCRC is good, and the fragment that it is. -/
structure EthFrame where
  bytes : List Byte
  fcsOk : Bool
  frag : Option Frag := none
  deriving DecidableEq, Repr

/-- What a request at the interconnect brings beside its initiator and target: the function it acts for, its requester and,
at a loft target, the bank (R163, R164). -/
structure IcAsk where
  fn : Fin 512
  who : Who
  bank : Option (Fin 16) := none
  deriving DecidableEq, Repr

/-- How a transmission comes to run dry: from a poisoned word, and after how many bytes on the wire (R197). -/
structure Underrun where
  pois : Bool
  sent : Nat
  deriving DecidableEq, Repr

/-- How far a preemptable frame has gone out, and how many bytes of an express frame that still arrives are buffered (R194). -/
structure TxProgress where
  sent : Nat
  buffered : Nat
  deriving DecidableEq, Repr

/-- Sequences of 11 recessive bits that a CAN controller sees (R290). -/
structure CanQuiet where
  ctl : Fin 4
  seqs : Fin 129
  deriving DecidableEq, Repr

/-- What a port's PHY or SerDes and its link partner report of the link (R185 to R189). -/
structure LinkState where
  up : Bool
  /-- Codes of STAT.SPEED. -/
  speed : Fin 8
  /-- The link is half duplex. -/
  hdx : Bool
  /-- Both ends advertised the 2.4 V amplitude (P10, P11). -/
  t1la : Bool
  /-- The partner agreed to low-power idle. -/
  eee : Bool
  /-- This end is the 1000BASE-T master (R200). -/
  master : Bool := false
  deriving DecidableEq, Repr

/-- A transmit descriptor in host memory with the data it points to (R225, R229). -/
structure HostDesc where
  w0 : Word
  w1 : Word
  w2 : Word
  w3 : Word
  data : List Byte
  deriving DecidableEq, Repr

/-- What one channel of the Paddock bus brings in a slot's window (R261, R265): the bits on the line from the first lead-in
bit on, as they were sent, and how long before the end of the window the timing point passed, in 125 ps. -/
structure PdCopy where
  line : List Bool
  ago : Nat
  deriving DecidableEq, Repr

/-- What the two channels brought in one slot's window (R265): each channel's copy, and how many start patterns were found
outside every window since the slot before. -/
structure PdRx where
  a : Option PdCopy
  b : Option PdCopy
  strayA : Nat
  strayB : Nat
  deriving DecidableEq, Repr

/-- A frame received on a CAN line (R286). -/
structure CanFrame where
  ide : Bool
  rtr : Bool
  fdf : Bool
  brs : Bool
  esi : Bool
  dlc : Fin 16
  ident : Fin 536870912
  data : List Byte
  /-- The res bit of an FD frame came recessive, so that nothing of the frame after it can be read (R279). -/
  res : Bool := false
  deriving DecidableEq, Repr

/-- How a frame sent on a CAN line ended (R284): acknowledged, arbitration lost, or an error. -/
inductive CanEnd | success | lostArbitration | error
  deriving DecidableEq, Repr

/-- A bus error seen by a CAN controller (R290): as transmitter or receiver, in which phase, its code of STAT.LEC, and
whether the receiver saw a dominant bit after its error flag. -/
structure CanErr where
  tx : Bool
  dataPhase : Bool
  code : Fin 8
  dominantAfterFlag : Bool
  deriving DecidableEq, Repr

/-- The strap levels sampled at power-on (R372). -/
structure Straps where
  pdcls : Fin 8
  pdsel : Fin 2
  bootsrc : Fin 4
  mgpaddr : Fin 8
  deriving DecidableEq, Repr

/-- The bytes of a host memory read: the slot that holds BAR 0 offset `off`, and how many slots after it (R360). -/
structure HostSpan where
  off : Nat
  more : Fin 512 := 0
  deriving DecidableEq, Repr

/-- A powered-device detection: the class that the PSE allocates, and the PDCLS balls (R326, R372). -/
structure PdDetect where
  aclass : Fin 8
  pdcls : Fin 8
  deriving DecidableEq, Repr

/-- A host write of the MSI-X structures: a vector is unmasked or masked, or MSI-X Enable of a function is written (R363). -/
inductive MsixAct
  | unmask (v : Fin 2048) | mask (v : Fin 2048) | enable (r : Fin 16) (on : Bool)
  deriving DecidableEq, Repr

/-- The commands of the part: its operations and events, those without operands last. -/
inductive Instr
  /-- REGISTER_WRITE (R14) -/
  | registerWrite (w : Who) (off : Nat) (be : BitVec 8) (v : BitVec 64)
  /-- RESERVED_HOST_ACCESS (R22) -/
  | reservedHostAccess (w : Who) (off : Nat) (wr : Bool)
  /-- HOST_MEMORY_READ (R145) -/
  | hostMemoryRead (w : Who) (x : HostSpan)
  /-- HOST_MEMORY_WRITE (R147) -/
  | hostMemoryWrite (w : Who) (off : Nat) (be : BitVec 8) (v : BitVec 64)
  /-- COMMIT_GO (R40) -/
  | commitGo (w : Who) (b : Block)
  /-- COMMIT_ACTIVATE (R40) -/
  | commitActivate (b : Block)
  /-- GC_COMMIT_GO (R43) -/
  | gcCommitGo (w : Who) (inst : Bool)
  /-- DELTA_APPLY (R45) -/
  | deltaApply (w : Who)
  /-- KEY_PROGRAM (R48) -/
  | keyProgram (w : Who) (k : Fin 4)
  /-- KEY_REVOKE (R48) -/
  | keyRevoke (w : Who) (k : Fin 4)
  /-- FN_RESET (R57) -/
  | fnReset (w : Who) (f : Fin 512)
  /-- FN_RESET_HOLD_EXPIRE (R55) -/
  | fnResetHoldExpire (f : Fin 512)
  /-- FUNCTION_STOP (R58) -/
  | functionStop (e : Fin 128)
  /-- FN_RESET_DRAIN_END (R58) -/
  | fnResetDrainEnd (f : Fin 512)
  /-- FN_RELEASE (R59) -/
  | fnRelease (w : Who) (f : Fin 512)
  /-- NOP (R73) -/
  | nop (e : Fin 128)
  /-- LD (R73) -/
  | ld (e : Fin 128)
  /-- ST (R73) -/
  | st (e : Fin 128)
  /-- XCH (R73) -/
  | xch (e : Fin 128)
  /-- FADD (R73) -/
  | fadd (e : Fin 128)
  /-- ADD (R75) -/
  | add (e : Fin 128)
  /-- ADC (R75) -/
  | adc (e : Fin 128)
  /-- SUB (R75) -/
  | sub (e : Fin 128)
  /-- SBC (R75) -/
  | sbc (e : Fin 128)
  /-- AND (R73) -/
  | and_ (e : Fin 128)
  /-- OR (R73) -/
  | or_ (e : Fin 128)
  /-- XOR (R73) -/
  | xor_ (e : Fin 128)
  /-- MUL (R73) -/
  | mul (e : Fin 128)
  /-- SHL (R76) -/
  | shl (e : Fin 128)
  /-- SHR (R76) -/
  | shr (e : Fin 128)
  /-- SAR (R76) -/
  | sar (e : Fin 128)
  /-- ROL (R76) -/
  | rol (e : Fin 128)
  /-- BFX (R77) -/
  | bfx (e : Fin 128)
  /-- BFI (R77) -/
  | bfi (e : Fin 128)
  /-- BSW (R77) -/
  | bsw (e : Fin 128)
  /-- POPC (R73) -/
  | popc (e : Fin 128)
  /-- CMPEQ (R73) -/
  | cmpeq (e : Fin 128)
  /-- CMPNE (R73) -/
  | cmpne (e : Fin 128)
  /-- CMPLT (R73) -/
  | cmplt (e : Fin 128)
  /-- CMPLTU (R73) -/
  | cmpltu (e : Fin 128)
  /-- CMPGE (R73) -/
  | cmpge (e : Fin 128)
  /-- CMPGEU (R73) -/
  | cmpgeu (e : Fin 128)
  /-- CRC32B (R78) -/
  | crc32b (e : Fin 128)
  /-- CRC32W (R78) -/
  | crc32w (e : Fin 128)
  /-- CRC16B (R78) -/
  | crc16b (e : Fin 128)
  /-- CRC16W (R78) -/
  | crc16w (e : Fin 128)
  /-- BZ (R79) -/
  | bz (e : Fin 128)
  /-- BNZ (R79) -/
  | bnz (e : Fin 128)
  /-- BRA (R79) -/
  | bra (e : Fin 128)
  /-- JSR (R80) -/
  | jsr (e : Fin 128)
  /-- RTS (R80) -/
  | rts (e : Fin 128)
  /-- TRAP (R73) -/
  | trap (e : Fin 128)
  /-- RTE (R100) -/
  | rte (e : Fin 128)
  /-- LPB (R81) -/
  | lpb (e : Fin 128)
  /-- REP (R83) -/
  | rep (e : Fin 128)
  /-- REPI (R84) -/
  | repi (e : Fin 128)
  /-- WFE (R87) -/
  | wfe (e : Fin 128)
  /-- WFE_EVENT_MATCH (R87) -/
  | wfeEventMatch (e : Fin 128)
  /-- SEV (R88) -/
  | sev (e : Fin 128)
  /-- WUNT (R89) -/
  | wunt (e : Fin 128)
  /-- WUNT_EXPIRE (R89) -/
  | wuntExpire (e : Fin 128)
  /-- TKR (R89) -/
  | tkr (e : Fin 128)
  /-- TPUSH (R115) -/
  | tpush (e : Fin 128)
  /-- TNEXT (R91) -/
  | tnext (e : Fin 128)
  /-- TDONE (R92) -/
  | tdone (e : Fin 128)
  /-- MFSR (R64) -/
  | mfsr (e : Fin 128)
  /-- MTSR (R65) -/
  | mtsr (e : Fin 128)
  /-- INTERRUPT_ENTRY (R103) -/
  | interruptEntry (e : Fin 128)
  /-- QUANTUM_ENTRY (R122) -/
  | quantumEntry (e : Fin 128)
  /-- DBG_HALT (R108) -/
  | dbgHalt (w : Who) (e : Fin 128)
  /-- DEBUG_HALT_TAKEN (R108) -/
  | debugHaltTaken (e : Fin 128)
  /-- DBG_RUN (R108) -/
  | dbgRun (w : Who) (e : Fin 128)
  /-- DBG_STEP (R109) -/
  | dbgStep (w : Who) (e : Fin 128)
  /-- BREAKPOINT_HALT (R109) -/
  | breakpointHalt (e : Fin 128)
  /-- DBGDATA_WRITE (R108) -/
  | dbgdataWrite (w : Who) (e : Fin 128) (v : Word)
  /-- EIRQS_SET (R104) -/
  | eirqsSet (w : Who) (e : Fin 128) (v : BitVec 16)
  /-- CODE_STORE_WRITE (R111) -/
  | codeStoreWrite (w : Who) (n : Fin 16) (a : Fin 32768) (v : Word)
  /-- STABLE_RELEASE (R112) -/
  | stableRelease (w : Who) (n : Fin 16)
  /-- STABLE_WAKE (R126) -/
  | stableWake (w : Who) (n : Fin 16)
  /-- STABLE_ENGINES_RUN (R126) -/
  | stableEnginesRun (n : Fin 16)
  /-- STABLE_GATE (R125) -/
  | stableGate (n : Fin 16)
  /-- TASK_DISPATCH (R117) -/
  | taskDispatch (e : Fin 128)
  /-- OVERFLOW_MOVE (R116) -/
  | overflowMove (n : Fin 16)
  /-- U0_WITHDRAW (R121) -/
  | u0Withdraw (n : Fin 16)
  /-- LATE_RECORD_POP (R121) -/
  | lateRecordPop (w : Who) (n : Fin 16)
  /-- BANK_HANDOVER_REQUEST (R139) -/
  | bankHandoverRequest (w : Who) (n : Fin 16) (b : Fin 16) (g : Fin 512)
  /-- BANK_HANDOVER_COMPLETE (R140) -/
  | bankHandoverComplete (n : Fin 16) (b : Fin 16)
  /-- POISON_MARK (R149) -/
  | poisonMark (w : Who) (n : Fin 16) (a : Fin 65536)
  /-- POISON_MARK_APPLY (R149) -/
  | poisonMarkApply (n : Fin 16)
  /-- SCRUB_READ (R150) -/
  | scrubRead (a : SramWord)
  /-- SCRUB_WRITE_BACK (R150) -/
  | scrubWriteBack (a : SramWord)
  /-- MAILBOX_SEND (R157) -/
  | mailboxSend (w : Who) (m : Fin 1024) (sd : Fin 2) (v : Word)
  /-- MAILBOX_RECEIVE (R159) -/
  | mailboxReceive (w : Who) (m : Fin 1024) (sd : Fin 2)
  /-- MAILBOX_RESYNC (R159) -/
  | mailboxResync (w : Who) (m : Fin 1024) (sd : Fin 2)
  /-- DOORBELL_RING (R162) -/
  | doorbellRing (w : Who) (m : Fin 1024) (sd : Fin 2)
  /-- STANDOFF_DETECT (R161) -/
  | standoffDetect (m : Fin 1024)
  /-- IC_REQUEST (R164): for function `f`, at initiator I16 by host port `w`, at T0 to T15 to a loft bank -/
  | icRequest (t : Fin 19) (i : Fin 19) (f : IcAsk)
  /-- IC_GRANT (R165) -/
  | icGrant (t : Fin 19)
  /-- STARVATION_DETECT (R169) -/
  | starvationDetect (t : Fin 19) (i : Fin 19)
  /-- REGION_DONE (R177) -/
  | regionDone (w : Who) (k : Fin 64)
  /-- SUBSCRIPTION_RECEIVE (R181) -/
  | subscriptionReceive (fr : EthFrame)
  /-- LINK_CHANGE (R189) -/
  | linkChange (p : Fin 12) (l : LinkState)
  /-- MAC_RECEIVE_FRAME (R190) -/
  | macReceiveFrame (p : Fin 12) (fr : EthFrame) (ago : Nat)
  /-- PAUSE_RECEIVE (R195) -/
  | pauseReceive (p : Fin 12) (q : Fin 65536)
  /-- PAUSE_EXPIRE (R195) -/
  | pauseExpire (p : Fin 12)
  /-- MAC_TRANSMIT_START (R196) -/
  | macTransmitStart (p : Fin 12) (have_ : Nat)
  /-- MAC_TRANSMIT_END (R201) -/
  | macTransmitEnd (p : Fin 12) (sub : Fin 32)
  /-- TX_UNDERRUN (R197) -/
  | txUnderrun (p : Fin 12) (u : Underrun)
  /-- COLLISION (R191) -/
  | collision (p : Fin 12) (late : Bool)
  /-- BACKOFF_EXPIRE (R191) -/
  | backoffExpire (p : Fin 12)
  /-- PREEMPT_VERIFY_SEND (R193) -/
  | preemptVerifySend (p : Fin 12)
  /-- VERIFY_RESPONSE (R193) -/
  | verifyResponse (p : Fin 12)
  /-- PREEMPT_FRAGMENT_END (R194) -/
  | preemptFragmentEnd (p : Fin 12) (x : TxProgress)
  /-- LPI_ENTER (R198) -/
  | lpiEnter (p : Fin 12)
  /-- LPI_WAKE (R198) -/
  | lpiWake (p : Fin 12)
  /-- TX_TIMESTAMP_POP (R201) -/
  | txTimestampPop (w : Who) (p : Fin 12)
  /-- INPASS_SEGMENT_POST (R214) -/
  | inpassSegmentPost (k : Fin 4) (d : Fin 2) (ws : List Word) (sub : Fin 32)
  /-- INPASS_FRAME_END (R214) -/
  | inpassFrameEnd (k : Fin 4) (d : Fin 2) (len : Nat) (bad : Bool)
  /-- INPASS_EGRESS_START (R211) -/
  | inpassEgressStart (k : Fin 4) (d : Fin 2)
  /-- INPASS_WORD_LATCH (R212) -/
  | inpassWordLatch (k : Fin 4) (d : Fin 2) (i : Nat)
  /-- INPASS_WINDOW_WRITE (R217) -/
  | inpassWindowWrite (w : Who) (k : Fin 4) (o : Fin 4096) (v : Word)
  /-- INPASS_DESCRIPTOR_CLEAR (R215) -/
  | inpassDescriptorClear (w : Who) (k : Fin 4) (d : Fin 2) (j : Fin 8)
  /-- YARD_RECEIVE (R221) -/
  | yardReceive (p : Fin 12) (early : Option (EthFrame × Nat))
  /-- YARD_SUBMIT (R226) -/
  | yardSubmit (w : Who) (n : Fin 16) (a : Fin 65536)
  /-- HOST_TX_TAIL_WRITE (R229) -/
  | hostTxTailWrite (w : Who) (r : Fin 16) (tail : Fin 4096) (ds : List HostDesc)
  /-- HOST_RX_TAIL_WRITE (R229) -/
  | hostRxTailWrite (w : Who) (r : Fin 16) (tail : Fin 4096) (bufs : List Word)
  /-- DESCRIPTOR_COPY_COMPLETE (R227) -/
  | descriptorCopyComplete (id : Nat)
  /-- DESCRIPTOR_WRITEBACK (R227) -/
  | descriptorWriteback (id : Nat)
  /-- FRAME_DELIVER (R228) -/
  | frameDeliver (id : Nat) (f : Fin 512)
  /-- ADDRESS_AGE_OUT (R223) -/
  | addressAgeOut (mac : Word) (vid : Fin 4096)
  /-- AT_READ (R237) -/
  | atRead (w : Who)
  /-- AT_WRITE (R237) -/
  | atWrite (w : Who)
  /-- AT_DELETE (R237) -/
  | atDelete (w : Who)
  /-- AT_FLUSH (R237) -/
  | atFlush (w : Who)
  /-- GATE_ENTRY_CHANGE (R235) -/
  | gateEntryChange (p : Fin 17)
  /-- GATE_CYCLE_START (R235) -/
  | gateCycleStart (p : Fin 17)
  /-- TC_INC_WRITE (R240) -/
  | tcIncWrite (w : Who) (i : Fin 8) (v : BitVec 35)
  /-- TC_STEP (R242) -/
  | tcStep (w : Who) (i : Fin 8) (rel : Bool) (unlock : Bool)
  /-- TC_STEP_APPLY (R243) -/
  | tcStepApply (i : Fin 8)
  /-- TC_UNLOCK (R242) -/
  | tcUnlock (w : Who) (i : Fin 8)
  /-- CAPTURE_NOW (R246) -/
  | captureNow (w : Who)
  /-- REF_OFS_WRITE (R248) -/
  | refOfsWrite (w : Who) (r : Fin 8) (v : Word)
  /-- PPS_EDGE (R248) -/
  | ppsEdge (sub : Fin 32)
  /-- FREF_SAMPLE (R248) -/
  | frefSample (ferr : Int)
  /-- REF_TIMEOUT (R249) -/
  | refTimeout (r : Fin 8)
  /-- RAMP_END (R251) -/
  | rampEnd (j : Fin 2)
  /-- PULSE_RISE (R254) -/
  | pulseRise (g : Fin 8)
  /-- PULSE_FALL (R254) -/
  | pulseFall (g : Fin 8)
  /-- LAUNCH_ELIGIBLE (R256) -/
  | launchEligible (n : Fin 12)
  /-- PADDOCK_SLOT_SEND (R263) -/
  | paddockSlotSend (k : Fin 1024)
  /-- PADDOCK_SLOT_RECEIVE (R265) -/
  | paddockSlotReceive (k : Fin 1024) (rx : PdRx)
  /-- PADDOCK_BACKOFF_END (R271) -/
  | paddockBackoffEnd (k : Fin 1024)
  /-- CAN_TX_REQUEST (R284) -/
  | canTxRequest (w : Who) (n : Fin 4) (k : Fin 3)
  /-- CAN_TX_ABORT (R285) -/
  | canTxAbort (w : Who) (n : Fin 4) (k : Fin 3)
  /-- CAN_TX_BUFFER_WRITE (R285) -/
  | canTxBufferWrite (w : Who) (n : Fin 4) (k : Fin 3) (j : Fin 12) (v : Word)
  /-- CAN_FRAME_START (R284) -/
  | canFrameStart (n : Fin 4)
  /-- CAN_FRAME_END (R284) -/
  | canFrameEnd (n : Fin 4) (r : CanEnd)
  /-- CAN_RECEIVE_FRAME (R286) -/
  | canReceiveFrame (n : Fin 4) (fr : CanFrame)
  /-- CAN_FIFO_POP (R287) -/
  | canFifoPop (w : Who) (n : Fin 4)
  /-- CAN_ERROR (R290) -/
  | canError (n : Fin 4) (er : CanErr)
  /-- CAN_BUS_OFF_RECOVERY (R290) -/
  | canBusOffRecovery (q : CanQuiet)
  /-- CAN_INTEGRATE (R283) -/
  | canIntegrate (n : Fin 4)
  /-- PM_NOP (R301) -/
  | pmNop (b : Fin 4) (m : Fin 8)
  /-- PM_GOTO (R301) -/
  | pmGoto (b : Fin 4) (m : Fin 8)
  /-- PM_LOOP (R301) -/
  | pmLoop (b : Fin 4) (m : Fin 8)
  /-- PM_SKIP (R301) -/
  | pmSkip (b : Fin 4) (m : Fin 8)
  /-- PM_SETC (R301) -/
  | pmSetc (b : Fin 4) (m : Fin 8)
  /-- PM_EMIT (R301) -/
  | pmEmit (b : Fin 4) (m : Fin 8)
  /-- PM_TAKE (R301) -/
  | pmTake (b : Fin 4) (m : Fin 8)
  /-- PM_FETCH (R301) -/
  | pmFetch (b : Fin 4) (m : Fin 8)
  /-- PM_DELIVER (R301) -/
  | pmDeliver (b : Fin 4) (m : Fin 8)
  /-- PM_PINS (R301) -/
  | pmPins (b : Fin 4) (m : Fin 8)
  /-- PM_GMOV (R301) -/
  | pmGmov (b : Fin 4) (m : Fin 8)
  /-- PM_GPUT (R301) -/
  | pmGput (b : Fin 4) (m : Fin 8)
  /-- PM_WAITP (R301) -/
  | pmWaitp (b : Fin 4) (m : Fin 8)
  /-- PM_STAMP (R304) -/
  | pmStamp (b : Fin 4) (m : Fin 8)
  /-- PM_MARK (R302) -/
  | pmMark (b : Fin 4) (m : Fin 8)
  /-- PM_STALL_RELEASE (R298) -/
  | pmStallRelease (b : Fin 4) (m : Fin 8)
  /-- PM_PTX_WRITE (R303) -/
  | pmPtxWrite (w : Who) (b : Fin 4) (m : Fin 8) (v : Word)
  /-- PM_PRX_READ (R303) -/
  | pmPrxRead (w : Who) (b : Fin 4) (m : Fin 8)
  /-- PM_INJECT (R305) -/
  | pmInject (w : Who) (b : Fin 4) (m : Fin 8) (v : BitVec 24)
  /-- PM_RUN (R305) -/
  | pmRun (w : Who) (b : Fin 4) (m : Fin 8)
  /-- PM_STOP (R305) -/
  | pmStop (w : Who) (b : Fin 4) (m : Fin 8)
  /-- PM_RESTART (R297) -/
  | pmRestart (w : Who) (b : Fin 4) (m : Fin 8)
  /-- PM_FIFO_CLEAR (R297) -/
  | pmFifoClear (w : Who) (b : Fin 4) (m : Fin 8)
  /-- PM_FLAG_LOWER (R302) -/
  | pmFlagLower (w : Who) (b : Fin 4) (v : BitVec 8)
  /-- TWIN_LINK_CHANGE (R308) -/
  | twinLinkChange (up : Bool)
  /-- TWIN_STATUS_RECEIVE (R312) -/
  | twinStatusReceive (w0 w1 w2 : Word)
  /-- TWIN_SELFTEST_END (R313) -/
  | twinSelftestEnd (bist : Bool) (late : Bool)
  /-- TWIN_STEST (R314) -/
  | twinStest (w : Who)
  /-- DD_ENTRY_AGE_OUT (R321) -/
  | ddEntryAgeOut (src : Word)
  /-- PD_DETECTION (R326) -/
  | pdDetection (d : PdDetect)
  /-- SOURCE_FAIL (R328) -/
  | sourceFail (src : Fin 3)
  /-- SOURCE_GOOD (R329) -/
  | sourceGood (src : Fin 3)
  /-- VBAK_LOW (R330) -/
  | vbakLow (mv : Fin 4096)
  /-- POWER_STATE_REQUEST (R332) -/
  | powerStateRequest (w : Who) (t : Fin 8)
  /-- WAKE_EVENT (R333) -/
  | wakeEvent (src : Fin 6)
  /-- OSTLER_WAIT_TIMEOUT (R337) -/
  | ostlerWaitTimeout (id : Nat)
  /-- LEASE_REQUEST (R339) -/
  | leaseRequest (w : Who) (i : Fin 256) (cnt : Fin 16)
  /-- LEASE_RELEASE (R339) -/
  | leaseRelease (w : Who) (i : Fin 256)
  /-- POWER_MODEL_UPDATE (R338) -/
  | powerModelUpdate (base : Fin 4096) (calv : List Nat)
  /-- POWER_ON_RESET (R344) -/
  | powerOnReset (st : Straps)
  /-- RST_N_RESET (R344) -/
  | rstNReset (us : Nat)
  /-- FARRIER_WATCHDOG_RESET (R344) -/
  | farrierWatchdogReset (code : Byte)
  /-- SOFTWARE_RESET (R344) -/
  | softwareReset (w : Who) (key : Byte) (clr : Bool)
  /-- CLRTRY (R346) -/
  | clrtry (w : Who) (key : Byte)
  /-- HOST_IMAGE_WORD (R347) -/
  | hostImageWord (w : Who) (v : Word)
  /-- HOST_IMAGE_RESTART (R347) -/
  | hostImageRestart (w : Who)
  /-- BOOT_COMPLETE (R346) -/
  | bootComplete (w : Who)
  /-- BOOTCAUSE_CLEAR (R349) -/
  | bootcauseClear (w : Who)
  /-- FLASH_READ (R353) -/
  | flashRead (w : Who) (sec : Fin 8192) (unprot : Bool)
  /-- FLASH_ERASE_PROGRAM (R353) -/
  | flashEraseProgram (w : Who) (sec : Fin 8192) (unprot : Bool)
  /-- FLASH_ERASE (R353) -/
  | flashErase (w : Who) (sec : Fin 8192) (unprot : Bool)
  /-- CALIBRATION (R354) -/
  | calibration (p : Fin 12) (gap : Bool)
  /-- THERMAL_UPDATE (R355) -/
  | thermalUpdate (temp : BitVec 12) (vcore : Fin 4096) (age : List Nat) (freq : List Nat)
  /-- TELEMETRY_RECORD (R356) -/
  | telemetryRecord (vint pin : Fin 4096)
  /-- FUNCTION_LEVEL_RESET (R361) -/
  | functionLevelReset (r : Fin 16)
  /-- MSIX_UNMASK (R363) -/
  | msixUnmask (a : MsixAct)
  /-- RING_MESSAGE_HOLDOFF_END (R363) -/
  | ringMessageHoldoffEnd (v : Fin 2048)
  /-- QSPI_READ_SINGLE (R366) -/
  | qspiReadSingle (a : BitVec 32) (n : Fin 33)
  /-- QSPI_READ_QUAD_DATA (R366) -/
  | qspiReadQuadData (a : BitVec 32) (n : Fin 33)
  /-- QSPI_READ_QUAD (R366) -/
  | qspiReadQuad (a : BitVec 32) (n : Fin 33)
  /-- QSPI_WRITE_SINGLE (R366) -/
  | qspiWriteSingle (a : BitVec 32) (bs : List Byte)
  /-- QSPI_WRITE_QUAD_DATA (R366) -/
  | qspiWriteQuadData (a : BitVec 32) (bs : List Byte)
  /-- QSPI_WRITE_QUAD (R366) -/
  | qspiWriteQuad (a : BitVec 32) (bs : List Byte)
  /-- I2C_WRITE (R367) -/
  | i2cWrite (a : BitVec 7) (o : BitVec 32) (bs : List Byte)
  /-- I2C_READ (R367) -/
  | i2cRead (a : BitVec 7) (n : Fin 33)
  /-- JTAG_SAMPLE_PRELOAD (R368) -/
  | jtagSamplePreload (pins load : List Bool)
  /-- DBGACC (R368) -/
  | dbgacc (wr : Bool) (a : BitVec 24) (v : Word)
  /-- ILLEGAL_OPCODE (R74) -/
  | illegalOpcode (e : Fin 128)
  /-- RECEIVE_LOW_POWER_IDLE (R198) -/
  | receiveLowPowerIdle (p : Fin 12) (on : Bool)
  /-- PADDOCK_REFERENCE_SEARCH (R266) -/
  | paddockReferenceSearch (pos : Nat) (line : List Bool)
  /-- DELTA_APPLY_DONE (R45) -/
  | deltaApplyDone
  /-- KEY_OPERATION_END (R48) -/
  | keyOperationEnd
  /-- BUSY_ESTIMATE_UPDATE (R119) -/
  | busyEstimateUpdate
  /-- ACCOUNTING_PERIOD_START (R124) -/
  | accountingPeriodStart
  /-- COMMON_INSTANT (R178) -/
  | commonInstant
  /-- AT_COMMAND_COMPLETE (R237) -/
  | atCommandComplete
  /-- PADDOCK_LISTEN_TIMEOUT (R270) -/
  | paddockListenTimeout
  /-- TWIN_STATUS_SEND (R309) -/
  | twinStatusSend
  /-- TWIN_LISTEN_TIMEOUT (R311) -/
  | twinListenTimeout
  /-- TWIN_STATUS_TIMEOUT (R315) -/
  | twinStatusTimeout
  /-- TWIN_HOLDOFF_EXPIRE (R314) -/
  | twinHoldoffExpire
  /-- HANDOVER_END (R328) -/
  | handoverEnd
  /-- HANDBACK_START (R329) -/
  | handbackStart
  /-- HANDBACK_END (R329) -/
  | handbackEnd
  /-- OVERLOAD_DETECT (R326) -/
  | overloadDetect
  /-- RIDE_EXPIRE (R330) -/
  | rideExpire
  /-- KEEPDLY_EXPIRE (R330) -/
  | keepdlyExpire
  /-- POWER_TRANSITION_COMPLETE (R332) -/
  | powerTransitionComplete
  /-- DOZE_ENTRY_TIMEOUT (R331) -/
  | dozeEntryTimeout
  /-- KSEC_ALARM (R333) -/
  | ksecAlarm
  /-- OSTLER_RECONSIDER (R337) -/
  | ostlerReconsider
  /-- LOSS_OF_LOCK (R343) -/
  | lossOfLock
  /-- PLL_LOCK (R345) -/
  | pllLock
  /-- PLL_LOCK_TIMEOUT (R345) -/
  | pllLockTimeout
  /-- PLL_RETRY (R345) -/
  | pllRetry
  /-- HOST_IMAGE_TIMEOUT (R347) -/
  | hostImageTimeout
  /-- BOOT_WATCHDOG_EXPIRE (R346) -/
  | bootWatchdogExpire
  /-- FLASH_COMMAND_COMPLETE (R353) -/
  | flashCommandComplete
  /-- PCIE_LINK_DOWN (R361) -/
  | pcieLinkDown
  /-- QSPI_STATUS (R366) -/
  | qspiStatus
  /-- JTAG_BYPASS (R368) -/
  | jtagBypass
  /-- JTAG_IDCODE (R368) -/
  | jtagIdcode
  /-- JTAG_EXTEST (R368) -/
  | jtagExtest
  /-- PPD_OVERTEMP (R377) -/
  | ppdOvertemp
  /-- PPD_COOLED (R377) -/
  | ppdCooled
  /-- LPOSC_TRIM (R343) -/
  | lposcTrim
  /-- PCIE_LINK_UP (R359) -/
  | pcieLinkUp
  deriving DecidableEq, Repr

end Sys2Proof
end

