-- ==== Sys2Proof/Machine/Bits.lean ====
section
/-! DEFINITION. Bit fields (R8), flags, signed numbers and the wrapping compare of R245. -/

namespace Sys2Proof.Machine

/-- Bits `lo + w - 1 : lo` of a number. -/
def bits (v lo w : Nat) : Nat := v / 2 ^ lo % 2 ^ w

/-- Bit `n` of a number as a flag. -/
def bitOf (v n : Nat) : Bool := v.testBit n

/-- A flag as a one-bit number. -/
def b2n (b : Bool) : Nat := if b then 1 else 0

/-- A number read as a signed number of `w` bits. -/
def toSigned (w v : Nat) : Int :=
  if 2 ^ w ≤ 2 * (v % 2 ^ w) then (v % 2 ^ w : Nat) - (2 ^ w : Nat) else (v % 2 ^ w : Nat)

/-- A signed number cut to `w` bits of two's complement. -/
def ofSigned (w : Nat) (v : Int) : Nat := (v % (2 ^ w : Nat)).toNat

/-- The compare of R245: how far the count is past the target, signed, over `n` bits. -/
def sdiff (n c t : Nat) : Int := toSigned n (c % 2 ^ n + 2 ^ n - t % 2 ^ n)

/-- A number as a word. -/
def wd (v : Nat) : Word := BitVec.ofNat 48 v

/-- Byte `k` of a number, byte 0 the least significant. -/
def byteOf (v k : Nat) : Nat := v / 2 ^ (8 * k) % 256

/-- The six bytes of a word, bits 47:40 first (R385). -/
def wordBytes (w : Word) : List Byte := [40, 32, 24, 16, 8, 0].map fun lo => BitVec.ofNat 8 (bits w.toNat lo 8)

/-- The eight bytes of a stored slot, bits 63:48 zero, byte 0 first (R9, R385). -/
def slotBytes (w : Word) : List Byte := [0, 8, 16, 24, 32, 40, 48, 56].map fun lo => BitVec.ofNat 8 (bits w.toNat lo 8)

/-- The number that bytes spell, the first byte most significant. -/
def bytesNat (bs : List Byte) : Nat := bs.foldl (fun n b => 256 * n + b.toNat) 0

/-- The words that a string of bytes fills, six per word, the first byte in bits 47:40, the last word zero-filled. -/
def packWords (bs : List Byte) : List Word :=
  (List.range ((bs.length + 5) / 6)).map fun k =>
    wd (bytesNat ((List.range 6).map fun i => bs.getD (6 * k + i) 0))

/-- How many bits are set among the low `w` bits of a number. -/
def ones (w v : Nat) : Nat := ((List.range w).filter fun n => v.testBit n).length

end Sys2Proof.Machine
end

