-- ==== Sys2Proof/Machine/Crypto.lean ====
section
/-! DEFINITION. SHA-256 and the check of an ECDSA signature on P-256, as R32 uses them. The algorithms are those of FIPS
180-4 and FIPS 186-5 (PRESUMED, log entry 5): the spec names them and does not restate them. -/

namespace Sys2Proof.Machine

/-! ### SHA-256 -/

/-- The greatest number below 2 ^ n whose `k`-th power is at most `x`, a bit at a time from the top. -/
def rootBelow (k x : Nat) : Nat → Nat → Nat
  | 0, r => r
  | n + 1, r => rootBelow k x n (if (r + 2 ^ n) ^ k ≤ x then r + 2 ^ n else r)

/-- The first 32 bits after the point of the `k`-th root of a number below 2 ^ 12. -/
def rootBits (k p : Nat) : Nat := rootBelow k (p * 2 ^ (32 * k)) 44 0 % 2 ^ 32

/-- The first 64 primes, in order. -/
def shaPrimes : List Nat := (List.range 312).filter fun p => 2 ≤ p && (List.range 18).all fun d => d < 2 || p ≤ d || p % d != 0

/-- The exclusive or of the right rotations of a 32-bit number by the places given. -/
def rotations (ns : List Nat) (x : Nat) : Nat := ns.foldl (fun y n => y ^^^ (x * (2 ^ 32 + 1) / 2 ^ n) % 2 ^ 32) 0

/-- `n` more words of a block's schedule, the newest first. -/
def shaWords : Nat → List Nat → List Nat
  | 0, w => w
  | n + 1, w =>
    let old := fun k => w.getD (k - 1) 0
    let near := rotations [17, 19] (old 2) ^^^ old 2 / 2 ^ 10
    let far := rotations [7, 18] (old 15) ^^^ old 15 / 2 ^ 3
    shaWords n ((near + old 7 + far + old 16) % 2 ^ 32 :: w)

/-- The working variables as two histories, newest first: a, b, c, d are the last four values of one and e, f, g, h those of
the other. A round adds a value to each, for the sum of its constant and its word. -/
def shaRound (x : List Nat × List Nat) (kw : Nat) : List Nat × List Nat :=
  let a := fun k => x.1.getD k 0
  let e := fun k => x.2.getD k 0
  let chosen := e 2 ^^^ (e 0 &&& (e 1 ^^^ e 2))
  let most := (a 0 &&& a 1) ||| (a 2 &&& (a 0 ||| a 1))
  let t := e 3 + rotations [6, 11, 25] (e 0) + chosen + kw
  ((t + rotations [2, 13, 22] (a 0) + most) % 2 ^ 32 :: x.1, (a 3 + t) % 2 ^ 32 :: x.2)

/-- The two histories after one more block of sixteen words, cut to four values each. -/
def shaBlock (h : List Nat × List Nat) (b : List Nat) : List Nat × List Nat :=
  let kws := (shaWords 48 b.reverse).reverse.zipWith (· + ·) (shaPrimes.map (rootBits 3))
  let r := kws.foldl shaRound h
  let sum := List.zipWith fun p q => (p + q) % 2 ^ 32
  (sum h.1 r.1, sum h.2 r.2)

/-- The SHA-256 digest of a string of bytes, as a 256-bit number with its first byte most significant.
(PRESUMED, log entry 5) -/
def sha256 (bs : List Byte) : Nat :=
  let zeros := (119 - bs.length % 64) % 64
  let bits := (List.range 8).reverse.map fun k => BitVec.ofNat 8 (byteOf (8 * bs.length) k)
  let padded := bs ++ [0x80] ++ List.replicate zeros 0 ++ bits
  let word := fun i => bytesNat ((padded.drop (4 * i)).take 4)
  let start := (shaPrimes.take 8).map (rootBits 2)
  let h := (List.range (padded.length / 64)).foldl (fun h n => shaBlock h ((List.range 16).map fun i => word (16 * n + i)))
    (start.take 4, start.drop 4)
  (h.1 ++ h.2).foldl (fun n w => n * 2 ^ 32 + w) 0

/-! ### ECDSA on P-256 -/

def p256 : Nat := 0xffffffff00000001000000000000000000000000ffffffffffffffffffffffff
def n256 : Nat := 0xffffffff00000000ffffffffffffffffbce6faada7179e84f3b9cac2fc632551
def b256 : Nat := 0x5ac635d8aa3a93e7b3ebbd55769886bc651d06b0cc53b0f63bce3c3e27d2604b
def g256 : Nat × Nat :=
  (0x6b17d1f2e12c4247f8bce6e563a440f277037d812deb33a0f4a13945d898c296,
   0x4fe342e2fe1a7f9b8ee7eb4a7c0f9e162bce33576b315ececbb6406837bf51f5)

/-- `b ^ e` modulo `m`, over the low `k` bits of the exponent. -/
def powMod (m b e : Nat) : Nat → Nat
  | 0 => 1
  | k + 1 =>
    let h := powMod m b (e / 2) k
    if e % 2 = 1 then h * h % m * b % m else h * h % m

/-- The inverse modulo a prime. -/
def invMod (m x : Nat) : Nat := powMod m (x % m) (m - 2) 256

/-- A point of the curve as X, Y, Z, standing for x = X / Z^2 and y = Y / Z^3; none is the point at infinity. -/
abbrev CurvePt := Option (Nat × Nat × Nat)

/-- Twice a point. -/
def dblPt : CurvePt → CurvePt
  | none => none
  | some (x, y, z) =>
    let s := 4 * x * y * y % p256
    let m := 3 * (x + z * z) * (x + p256 * p256 - z * z) % p256
    let u := (m * m + 2 * (p256 - s)) % p256
    some (u, (m * (s + p256 - u) + 8 * (p256 - y * y % p256) * (y * y)) % p256, 2 * y * z % p256)

/-- The sum of two points. -/
def addPt : CurvePt → CurvePt → CurvePt
  | none, q => q
  | p, none => p
  | some (x, y, z), some (u, v, w) =>
    let a := x * w * w % p256
    let c := y * w * w * w % p256
    let h := (u * z * z + p256 - a) % p256
    let r := (v * z * z * z + p256 - c) % p256
    if h = 0 then (if r = 0 then dblPt (some (x, y, z)) else none)
    else
      let g := a * h * h % p256
      let k := (r * r + 2 * (p256 - g) + h * h * (p256 - h)) % p256
      some (k, (r * (g + p256 - k) + c * (h * h % p256) * (p256 - h)) % p256, h * z * w % p256)

/-- A multiple of a point, over the low `k` bits of the factor. -/
def mulPt (p : CurvePt) (e : Nat) : Nat → CurvePt
  | 0 => none
  | k + 1 =>
    let d := dblPt (mulPt p (e / 2) k)
    if e % 2 = 1 then addPt d p else d

/-- The point lies on the curve. -/
def onCurve (x y : Nat) : Bool :=
  x < p256 && y < p256 && y * y % p256 == (x * x * x + (p256 - 3) * x + b256) % p256

/-- The signature (r, s) of the digest verifies with the public key.
(PRESUMED, log entry 5) -/
def ecdsaOk (qx qy dig r s : Nat) : Bool :=
  onCurve qx qy && 0 < r && r < n256 && 0 < s && s < n256 &&
    (let w := invMod n256 s
     match addPt (mulPt (some (g256.1, g256.2, 1)) (dig * w % n256) 256) (mulPt (some (qx, qy, 1)) (r * w % n256) 256) with
     | none => false
     | some (x, _, z) => x * invMod p256 (z * z) % p256 % n256 == r)

/-- The 32 bytes of a number, the most significant first. -/
def bytes32 (v : Nat) : List Byte := (List.range 32).map fun k => BitVec.ofNat 8 (byteOf v (31 - k))

/-- The hash of a public key that a key slot holds (R32, R48).
(PRESUMED, log entry 5) -/
def keyHash (qx qy : Nat) : Nat := sha256 (bytes32 qx ++ bytes32 qy)

end Sys2Proof.Machine
end

