-- ==== Sys2Proof/Config.lean ====
section
/-! DEFINITION. The free values: what the manual leaves undefined or to each part. Nothing in the model can evaluate one;
each is applied to the count `State.fresh` (or to what it depends on), so a statement holds whatever it is. -/

namespace Sys2Proof.Config

/-- The value of a register field with reset mark U at its reset (R13), by draw.
(DESIGN CHOICE, log entry 3) -/
opaque undefinedWord : Nat → Word

/-- The state of a 32-bit generator of pseudo-random numbers at its seeding (R191, R271), by draw.
(DESIGN CHOICE, log entry 3) -/
opaque seed : Nat → BitVec 32

/-- A choice that the manual leaves to the part among `n` possibilities, by draw.
(DESIGN CHOICE, log entry 4) -/
opaque choice : Nat → BitVec 32

/-- The built-in latency of an integrated PHY in ps (R200), by port, direction, interface, speed and calibration.
(DESIGN CHOICE, log entry 3) -/
opaque phyLatency : Nat → BitVec 18

/-- What a word of a memory that nothing retains in REST holds after it (R146, R331), by the count at the return and the
word's number.
(DESIGN CHOICE, log entry 3) -/
opaque lostWord : Nat → Nat → BitVec 56

/-- What a slot of a flash sector holds whose program or erase was cut off (R358), by draw and slot.
(DESIGN CHOICE, log entry 3) -/
opaque cutSlot : Nat → Nat → BitVec 64

end Sys2Proof.Config
end

