-- ==== Sys2Proof/Machine/Regs.lean ====
section
/-! DEFINITION. The register map of the part: every register of the spec (its name, host offset, and its fields with
bit position, width, access type R14 and reset value R13), and the host address decoding of R12, R21. -/

namespace Sys2Proof.Machine

/-- The access types of R14 (RZ fields hold nothing and are left out). -/
inductive Acc | rw | ro | w1c | w1s | wo | rc | sh | lk
  deriving DecidableEq, Repr

/-- The registers, one name each; the docstring of its first field names the manual's register and rule. -/
inductive RegId
  | gcUnmap | gcLaystat | gcLdctl | gcLayver | gcKeyslot | gcKeydata | gcKeyprog | gcBootcause | gcBootctl
  | gcHimg | gcIntsum | gcIntctl | pwCfg0 | pwCfg1 | pwSrc | pwPsreq | pwPstat | pwEvt | pwCnt | pwOctl
  | pwOstat | pwOcnt | pwKsec | pwOcost | pwLease | faCfg0 | faTelda | faFlcmd | faFlstat | faHealth | faAge
  | faTelrec | faFlbuf | ckCfg0 | ckStat | ckRstctl | tmEvt | tmTknow | tmCapctl | tmCaptk | tmCapsec
  | tmCapns | tcCfg | tcInc | tcSecnow | tcNsnow | tcStepsec | tcStepns | tcCtl | tcStat | svCfg0 | svCfg1
  | svStat | svOfs | svYi | svYavg | svCnt | refCfg | refCtl | refOfs | refStat | pgCfg | pgSsec | pgSns
  | pgPer | pgStat | tmLq | ydCfg | ydStat | ydCnt | ydAtkey | ydAtdata | ydAtcmd | ydPcfg | ydPcpmap
  | ydGctl | ydGbase0 | ydGbase1 | ydGcyc | ydPcnt | ydQcfg | ydQstat | ydQcnt | ydGcl | ydVlan | ydFrx0
  | ydFrx1 | ydFrx2 | ydSub | ydHtxbase | ydHtxptr | ydHrxbase | ydHrxptr | epCfg0 | epCfg1 | epCfg2
  | epTxctl | epStat | epEvt | epTxts0 | epTxts1 | epTxts2 | epCnt0 | epCnt1 | epCnt2 | epCnt3 | epCnt4
  | epIpcfg0 | epIpcfg1 | epIpstat | epIpcnt | epIplog | canCfg0 | canNbt | canDbt | canStat | canEvt
  | canCnt | canTxHdr | canTxCtl | canTxData | canRxfHdr | canRxfTs | canRxfData | canRxfPop | canRxfStat
  | canRxbHdr | canRxbTs | canRxbData | canRxbStat | canFltA | canFltB | piFlags | piPinstat | piPin | pmCfg0
  | pmCfg1 | pmCfg2 | pmCtl | pmStat | pmPtx | pmPrx | pmInj | pmCnt | pmProg | pdCfg0 | pdCfg1 | pdCfg2
  | pdStat | pdEvt | pdCnt | pdCntAB | pdSeen | pdSlotA | pdSlotB | pdSlotst | twCfg0 | twCfg1 | twCfg2
  | twCfg3 | twCfg4 | twCfg5 | twCtl | twStat | twEvt | twCnt0 | twCnt1 | twDig | stCfg | stCtl | stSched
  | stDqstat | stLate0 | stLate1 | stCnt0 | stCnt1 | stCnt2 | stEngstat | stBank | stLconf | stLconf4
  | stMemerr | stMemlog | stPmark | dbgCtl | dbgStat | dbgSel | dbgData | dbgBp | eirq | eirqs | mgInst
  | mgPh | mgInstat | mgCnt | mgMemerr | mgCnt1 | mgCfg0 | mgCfg1 | mgCfg2 | mgCfg3 | mgCtl | mgStat | fnCfg
  | fnShare | fnQuota | fnBudget | fnName | fnStatus | fnCtl | fnUse0 | fnUse1 | fnCnt | mbEnd | mbCtl
  | mbPeer | mbStat | mbTx | mbRx | mbCnt | mbMemerr | icLvl | icUsef | icStarv | icSflag | icCnt | commit
  deriving DecidableEq, Repr

/-- A field of a register: its number in this list, its register, where it stands, its access type and its reset value (R13; mark L, S or U: 0, log entry 2). -/
structure Fld where
  id : Nat
  reg : RegId
  lo : Nat
  width : Nat
  acc : Acc
  reset : Nat
  deriving DecidableEq, Repr

namespace F
/-- `GC.UNMAP` (01 R22). -/ def gcUnmap_CNT : Fld := ⟨0, .gcUnmap, 32, 16, .rc, 0⟩
def gcUnmap_ADDR : Fld := ⟨1, .gcUnmap, 0, 26, .ro, 0⟩
/-- `GC.LAYSTAT` (02 R37/R47). -/ def gcLaystat_SECT : Fld := ⟨2, .gcLaystat, 16, 16, .ro, 0⟩
def gcLaystat_APPLIED : Fld := ⟨3, .gcLaystat, 15, 1, .ro, 0⟩
def gcLaystat_HALTER : Fld := ⟨4, .gcLaystat, 14, 1, .ro, 0⟩
def gcLaystat_APPLYING : Fld := ⟨5, .gcLaystat, 13, 1, .ro, 0⟩
def gcLaystat_DONE : Fld := ⟨6, .gcLaystat, 12, 1, .w1c, 0⟩
def gcLaystat_FAIL : Fld := ⟨7, .gcLaystat, 11, 1, .w1c, 0⟩
def gcLaystat_CLASH : Fld := ⟨8, .gcLaystat, 10, 1, .w1c, 0⟩
def gcLaystat_SRC : Fld := ⟨9, .gcLaystat, 8, 2, .ro, 0⟩
def gcLaystat_ERR : Fld := ⟨10, .gcLaystat, 0, 6, .ro, 0⟩
/-- `GC.LDCTL` (02 R45). -/ def gcLdctl_FAILIE : Fld := ⟨11, .gcLdctl, 9, 1, .rw, 0⟩
def gcLdctl_DONEIE : Fld := ⟨12, .gcLdctl, 8, 1, .rw, 0⟩
def gcLdctl_APPLY : Fld := ⟨13, .gcLdctl, 0, 1, .wo, 0⟩
/-- `GC.LAYVER` (02 R45). -/ def gcLayver_VER : Fld := ⟨14, .gcLayver, 0, 32, .ro, 0⟩
/-- `GC.KEYSLOT[k]` (02 R48). -/ def gcKeyslot_WRITTEN : Fld := ⟨15, .gcKeyslot, 0, 1, .ro, 0⟩
def gcKeyslot_REVOKED : Fld := ⟨16, .gcKeyslot, 1, 1, .ro, 0⟩
def gcKeyslot_BUSY : Fld := ⟨17, .gcKeyslot, 2, 1, .ro, 0⟩
def gcKeyslot_DISP : Fld := ⟨18, .gcKeyslot, 3, 4, .ro, 0⟩
/-- `GC.KEYDATA[i]` (02 R48). -/ def gcKeydata_DATA : Fld := ⟨19, .gcKeydata, 0, 48, .rw, 0⟩
/-- `GC.KEYPROG` (02 R48). -/ def gcKeyprog_SLOT : Fld := ⟨20, .gcKeyprog, 0, 2, .wo, 0⟩
def gcKeyprog_OP : Fld := ⟨21, .gcKeyprog, 4, 2, .wo, 0⟩
/-- `GC.BOOTCAUSE` (19 R349). -/ def gcBootcause_RSTSRC : Fld := ⟨22, .gcBootcause, 44, 4, .ro, 0⟩
def gcBootcause_TRIES : Fld := ⟨23, .gcBootcause, 42, 2, .ro, 0⟩
def gcBootcause_CODE : Fld := ⟨24, .gcBootcause, 38, 4, .ro, 0⟩
def gcBootcause_ERR : Fld := ⟨25, .gcBootcause, 32, 6, .ro, 0⟩
def gcBootcause_SECT : Fld := ⟨26, .gcBootcause, 16, 16, .ro, 0⟩
def gcBootcause_DETAIL : Fld := ⟨27, .gcBootcause, 8, 8, .ro, 0⟩
def gcBootcause_CLR : Fld := ⟨28, .gcBootcause, 0, 1, .wo, 0⟩
/-- `GC.BOOTCTL` (19 R346/R347). -/ def gcBootctl_HICNT : Fld := ⟨29, .gcBootctl, 2, 18, .ro, 0⟩
def gcBootctl_HIRST : Fld := ⟨30, .gcBootctl, 1, 1, .wo, 0⟩
def gcBootctl_BOOTCPL : Fld := ⟨31, .gcBootctl, 0, 1, .wo, 0⟩
/-- `GC.HIMG` (19 R347). -/ def gcHimg_DATA : Fld := ⟨32, .gcHimg, 0, 48, .wo, 0⟩
/-- `GC.INTSUM` (20 R364). -/ def gcIntsum_DB : Fld := ⟨33, .gcIntsum, 47, 1, .ro, 0⟩
def gcIntsum_SRC : Fld := ⟨34, .gcIntsum, 3, 40, .ro, 0⟩
/-- `GC.INTCTL` (20 R364). -/ def gcIntctl_PINEN : Fld := ⟨35, .gcIntctl, 0, 1, .rw, 0⟩
/-- `PW.CFG0` (18 R340). -/ def pwCfg0_REQCLS : Fld := ⟨36, .pwCfg0, 45, 3, .lk, 0⟩
def pwCfg0_SRCPRI : Fld := ⟨37, .pwCfg0, 43, 2, .lk, 0⟩
def pwCfg0_RIDE : Fld := ⟨38, .pwCfg0, 33, 10, .lk, 0⟩
def pwCfg0_KEEPDLY : Fld := ⟨39, .pwCfg0, 21, 12, .lk, 0⟩
def pwCfg0_VBAKLO : Fld := ⟨40, .pwCfg0, 9, 12, .lk, 0⟩
/-- `PW.CFG1` (18 R340). -/ def pwCfg1_WAKEMASK : Fld := ⟨41, .pwCfg1, 40, 8, .lk, 0⟩
def pwCfg1_PSINIT : Fld := ⟨42, .pwCfg1, 38, 2, .lk, 0⟩
/-- `PW.SRC` (18 R325-R329). -/ def pwSrc_VBAK : Fld := ⟨43, .pwSrc, 36, 12, .ro, 0⟩
def pwSrc_ON : Fld := ⟨44, .pwSrc, 28, 2, .ro, 0⟩
def pwSrc_HSM : Fld := ⟨45, .pwSrc, 27, 1, .ro, 0⟩
def pwSrc_DEB : Fld := ⟨46, .pwSrc, 26, 1, .ro, 0⟩
def pwSrc_PDG : Fld := ⟨47, .pwSrc, 25, 1, .ro, 0⟩
def pwSrc_AUXG : Fld := ⟨48, .pwSrc, 24, 1, .ro, 0⟩
def pwSrc_BAKG : Fld := ⟨49, .pwSrc, 23, 1, .ro, 0⟩
def pwSrc_SCLS : Fld := ⟨50, .pwSrc, 20, 3, .ro, 0⟩
def pwSrc_ACLS : Fld := ⟨51, .pwSrc, 17, 3, .ro, 0⟩
def pwSrc_PDPORT : Fld := ⟨52, .pwSrc, 16, 1, .ro, 0⟩
def pwSrc_PFAIL : Fld := ⟨53, .pwSrc, 15, 1, .ro, 0⟩
/-- `PW.PSREQ` (18 R332). -/ def pwPsreq_TARGET : Fld := ⟨54, .pwPsreq, 0, 3, .wo, 0⟩
/-- `PW.PSTAT` (18 R331-R333). -/ def pwPstat_STATE : Fld := ⟨55, .pwPstat, 45, 3, .ro, 0⟩
def pwPstat_TRANS : Fld := ⟨56, .pwPstat, 44, 1, .ro, 0⟩
def pwPstat_TO : Fld := ⟨57, .pwPstat, 41, 3, .ro, 0⟩
def pwPstat_HV : Fld := ⟨58, .pwPstat, 40, 1, .ro, 0⟩
def pwPstat_HELD : Fld := ⟨59, .pwPstat, 37, 3, .ro, 0⟩
def pwPstat_LDISP : Fld := ⟨60, .pwPstat, 33, 4, .ro, 0⟩
def pwPstat_HDISP : Fld := ⟨61, .pwPstat, 29, 4, .ro, 0⟩
def pwPstat_FORCED : Fld := ⟨62, .pwPstat, 28, 1, .ro, 0⟩
def pwPstat_PART : Fld := ⟨63, .pwPstat, 27, 1, .ro, 0⟩
def pwPstat_WCAUSE : Fld := ⟨64, .pwPstat, 21, 6, .ro, 0⟩
/-- `PW.EVT` (18 R326-R333). -/ def pwEvt_IE : Fld := ⟨65, .pwEvt, 16, 8, .rw, 0⟩
def pwEvt_OVLD : Fld := ⟨66, .pwEvt, 7, 1, .w1c, 0⟩
def pwEvt_WAKE : Fld := ⟨67, .pwEvt, 6, 1, .w1c, 0⟩
def pwEvt_PREEMPT : Fld := ⟨68, .pwEvt, 5, 1, .w1c, 0⟩
def pwEvt_PSDONE : Fld := ⟨69, .pwEvt, 4, 1, .w1c, 0⟩
def pwEvt_VBAKLOW : Fld := ⟨70, .pwEvt, 3, 1, .w1c, 0⟩
def pwEvt_BOUNCE : Fld := ⟨71, .pwEvt, 2, 1, .w1c, 0⟩
def pwEvt_HANDBACK : Fld := ⟨72, .pwEvt, 1, 1, .w1c, 0⟩
def pwEvt_ONBAK : Fld := ⟨73, .pwEvt, 0, 1, .w1c, 0⟩
/-- `PW.CNT` (18 R328-R333). -/ def pwCnt_BOUNCE : Fld := ⟨74, .pwCnt, 36, 12, .rc, 0⟩
def pwCnt_HANDOVER : Fld := ⟨75, .pwCnt, 24, 12, .rc, 0⟩
def pwCnt_PREEMPT : Fld := ⟨76, .pwCnt, 12, 12, .rc, 0⟩
def pwCnt_REPLAY : Fld := ⟨77, .pwCnt, 0, 12, .rc, 0⟩
/-- `PW.OCTL` (18 R338). -/ def pwOctl_CAP : Fld := ⟨78, .pwOctl, 36, 12, .rw, 0x4e2⟩
def pwOctl_RAMPINT : Fld := ⟨79, .pwOctl, 24, 12, .rw, 0x5dc⟩
def pwOctl_WAITMAX : Fld := ⟨80, .pwOctl, 8, 16, .rw, 0⟩
/-- `PW.OSTAT` (18 R336/R338). -/ def pwOstat_EST : Fld := ⟨81, .pwOstat, 36, 12, .ro, 0⟩
def pwOstat_BASE : Fld := ⟨82, .pwOstat, 24, 12, .ro, 0x1c2⟩
def pwOstat_QLEN : Fld := ⟨83, .pwOstat, 18, 6, .ro, 0⟩
def pwOstat_CAL : Fld := ⟨84, .pwOstat, 17, 1, .ro, 0⟩
/-- `PW.OCNT` (18 R337). -/ def pwOcnt_GRANT : Fld := ⟨85, .pwOcnt, 36, 12, .rc, 0⟩
def pwOcnt_DEFER : Fld := ⟨86, .pwOcnt, 24, 12, .rc, 0⟩
def pwOcnt_REFB : Fld := ⟨87, .pwOcnt, 12, 12, .rc, 0⟩
def pwOcnt_REFF : Fld := ⟨88, .pwOcnt, 0, 12, .rc, 0⟩
/-- `PW.KSEC` (18 R333). -/ def pwKsec_ALM : Fld := ⟨89, .pwKsec, 32, 16, .rw, 0⟩
def pwKsec_SEC : Fld := ⟨90, .pwKsec, 0, 32, .ro, 0⟩
/-- `PW.OCOST[k]` (18 R335/R338). -/ def pwOcost_WORST : Fld := ⟨91, .pwOcost, 36, 12, .ro, 0⟩
def pwOcost_CALV : Fld := ⟨92, .pwOcost, 24, 12, .ro, 0⟩
/-- `PW.LEASE[i]` (18 R339). -/ def pwLease_FN : Fld := ⟨93, .pwLease, 39, 9, .ro, 0⟩
def pwLease_INC : Fld := ⟨94, .pwLease, 31, 8, .ro, 0⟩
def pwLease_COUNT : Fld := ⟨95, .pwLease, 27, 4, .rw, 0⟩
def pwLease_DISP : Fld := ⟨96, .pwLease, 23, 4, .ro, 0⟩
def pwLease_STATE : Fld := ⟨97, .pwLease, 21, 2, .ro, 0⟩
def pwLease_CANC : Fld := ⟨98, .pwLease, 20, 1, .ro, 0⟩
def pwLease_REL : Fld := ⟨99, .pwLease, 1, 1, .wo, 0⟩
def pwLease_REQ : Fld := ⟨100, .pwLease, 0, 1, .wo, 0⟩
/-- `FA.CFG0` (19 R357). -/ def faCfg0_AVSEN : Fld := ⟨101, .faCfg0, 47, 1, .lk, 0⟩
def faCfg0_TELDST : Fld := ⟨102, .faCfg0, 45, 2, .lk, 0⟩
def faCfg0_BOOTWD : Fld := ⟨103, .faCfg0, 37, 8, .lk, 0⟩
def faCfg0_TELVID : Fld := ⟨104, .faCfg0, 25, 12, .lk, 0⟩
def faCfg0_TELPCP : Fld := ⟨105, .faCfg0, 22, 3, .lk, 0⟩
/-- `FA.TELDA` (19 R357). -/ def faTelda_DA : Fld := ⟨106, .faTelda, 0, 48, .lk, 0⟩
/-- `FA.FLCMD` (19 R353). -/ def faFlcmd_SECTOR : Fld := ⟨107, .faFlcmd, 35, 13, .wo, 0⟩
def faFlcmd_OP : Fld := ⟨108, .faFlcmd, 32, 3, .wo, 0⟩
def faFlcmd_UNPROT : Fld := ⟨109, .faFlcmd, 31, 1, .wo, 0⟩
def faFlcmd_TELIE : Fld := ⟨110, .faFlcmd, 1, 1, .rw, 0⟩
def faFlcmd_FLIE : Fld := ⟨111, .faFlcmd, 0, 1, .rw, 0⟩
/-- `FA.FLSTAT` (19 R353). -/ def faFlstat_ERCNT : Fld := ⟨112, .faFlstat, 16, 24, .ro, 0⟩
def faFlstat_DISP : Fld := ⟨113, .faFlstat, 4, 4, .ro, 0⟩
def faFlstat_BUSY : Fld := ⟨114, .faFlstat, 1, 1, .ro, 1⟩
def faFlstat_DONE : Fld := ⟨115, .faFlstat, 0, 1, .w1c, 0⟩
/-- `FA.HEALTH` (19 R352/R354/R355). -/ def faHealth_TEMP : Fld := ⟨116, .faHealth, 36, 12, .ro, 0⟩
def faHealth_VCORE : Fld := ⟨117, .faHealth, 24, 12, .ro, 0⟩
def faHealth_CALSKIP : Fld := ⟨118, .faHealth, 12, 12, .ro, 0⟩
def faHealth_LOGDROP : Fld := ⟨119, .faHealth, 4, 8, .rc, 0⟩
def faHealth_CALDONE : Fld := ⟨120, .faHealth, 0, 1, .ro, 0⟩
/-- `FA.AGE[n]` (19 R355). -/ def faAge_AGE : Fld := ⟨121, .faAge, 32, 16, .ro, 0⟩
def faAge_FREQ : Fld := ⟨122, .faAge, 16, 16, .ro, 0⟩
/-- `FA.TELREC[i]` (19 R356). -/ def faTelrec_WORD : Fld := ⟨123, .faTelrec, 0, 48, .ro, 0⟩
/-- `FA.FLBUF[i]` (19 R353). -/ def faFlbuf_DATA : Fld := ⟨124, .faFlbuf, 0, 48, .rw, 0⟩
/-- `CK.CFG0` (19 R343/R357). -/ def ckCfg0_LANEEN : Fld := ⟨125, .ckCfg0, 41, 7, .lk, 0⟩
def ckCfg0_CLKOUT : Fld := ⟨126, .ckCfg0, 39, 2, .lk, 0⟩
/-- `CK.STAT` (19 R343-R345). -/ def ckStat_LOLCNT : Fld := ⟨127, .ckStat, 32, 8, .rc, 0⟩
def ckStat_BOOTSRC : Fld := ⟨128, .ckStat, 24, 2, .ro, 0⟩
def ckStat_LOCK : Fld := ⟨129, .ckStat, 23, 1, .ro, 0⟩
/-- `CK.RSTCTL` (19 R344/R346). -/ def ckRstctl_KEY : Fld := ⟨130, .ckRstctl, 8, 8, .wo, 0⟩
def ckRstctl_CLRTRY : Fld := ⟨131, .ckRstctl, 1, 1, .wo, 0⟩
def ckRstctl_SWRST : Fld := ⟨132, .ckRstctl, 0, 1, .wo, 0⟩
/-- `TM.EVT` (13 R240-R256). -/ def tmEvt_IE : Fld := ⟨133, .tmEvt, 16, 8, .rw, 0⟩
def tmEvt_LQLATE : Fld := ⟨134, .tmEvt, 7, 1, .w1c, 0⟩
def tmEvt_PGMISS : Fld := ⟨135, .tmEvt, 6, 1, .w1c, 0⟩
def tmEvt_REVERSE : Fld := ⟨136, .tmEvt, 5, 1, .w1c, 0⟩
def tmEvt_HOLD : Fld := ⟨137, .tmEvt, 4, 1, .w1c, 0⟩
def tmEvt_LOCKCHG : Fld := ⟨138, .tmEvt, 3, 1, .w1c, 0⟩
def tmEvt_INCLIM : Fld := ⟨139, .tmEvt, 2, 1, .w1c, 0⟩
def tmEvt_SREF : Fld := ⟨140, .tmEvt, 1, 1, .w1c, 0⟩
def tmEvt_STEP : Fld := ⟨141, .tmEvt, 0, 1, .w1c, 0⟩
/-- `TM.TKNOW` (13 R244). -/ def tmTknow_TK : Fld := ⟨142, .tmTknow, 0, 32, .ro, 0⟩
/-- `TM.CAPCTL` (13 R246). -/ def tmCapctl_SEL : Fld := ⟨143, .tmCapctl, 2, 3, .rw, 0⟩
def tmCapctl_AUTO : Fld := ⟨144, .tmCapctl, 1, 1, .rw, 0⟩
def tmCapctl_NOW : Fld := ⟨145, .tmCapctl, 0, 1, .wo, 0⟩
/-- `TM.CAPTK` (13 R246). -/ def tmCaptk_SEQ : Fld := ⟨146, .tmCaptk, 32, 16, .ro, 0⟩
def tmCaptk_TK : Fld := ⟨147, .tmCaptk, 0, 32, .ro, 0⟩
/-- `TM.CAPSEC` (13 R246). -/ def tmCapsec_SEC : Fld := ⟨148, .tmCapsec, 0, 48, .ro, 0⟩
/-- `TM.CAPNS` (13 R246). -/ def tmCapns_NSF : Fld := ⟨149, .tmCapns, 0, 46, .ro, 0⟩
/-- `TC[i].CFG` (13 R258). -/ def tcCfg_OWNER : Fld := ⟨150, .tcCfg, 39, 9, .sh, 0⟩
/-- `TC[i].INC` (13 R240). -/ def tcInc_INT : Fld := ⟨151, .tcInc, 32, 3, .rw, 4⟩
def tcInc_FRAC : Fld := ⟨152, .tcInc, 0, 32, .rw, 0⟩
/-- `TC[i].SECNOW` (13 R241). -/ def tcSecnow_SEC : Fld := ⟨153, .tcSecnow, 0, 48, .ro, 0⟩
/-- `TC[i].NSNOW` (13 R241). -/ def tcNsnow_SECLO : Fld := ⟨154, .tcNsnow, 46, 2, .ro, 0⟩
def tcNsnow_NSF : Fld := ⟨155, .tcNsnow, 0, 46, .ro, 0⟩
/-- `TC[i].STEPSEC` (13 R242). -/ def tcStepsec_SEC : Fld := ⟨156, .tcStepsec, 0, 48, .rw, 0⟩
/-- `TC[i].STEPNS` (13 R242). -/ def tcStepns_NS : Fld := ⟨157, .tcStepns, 0, 30, .rw, 0⟩
/-- `TC[i].CTL` (13 R242). -/ def tcCtl_UNLOCK : Fld := ⟨158, .tcCtl, 2, 1, .wo, 0⟩
def tcCtl_REL : Fld := ⟨159, .tcCtl, 1, 1, .wo, 0⟩
def tcCtl_STEP : Fld := ⟨160, .tcCtl, 0, 1, .wo, 0⟩
/-- `TC[i].STAT` (13 R242/R247). -/ def tcStat_SCNT : Fld := ⟨161, .tcStat, 8, 8, .ro, 0⟩
def tcStat_SDISP : Fld := ⟨162, .tcStat, 4, 4, .ro, 0⟩
def tcStat_STATE : Fld := ⟨163, .tcStat, 0, 3, .ro, 0⟩
/-- `SV[j].CFG0` (13 R247/R250). -/ def svCfg0_EN : Fld := ⟨164, .svCfg0, 47, 1, .sh, 0⟩
def svCfg0_STEPEN : Fld := ⟨165, .svCfg0, 46, 1, .sh, 0⟩
def svCfg0_KPA : Fld := ⟨166, .svCfg0, 40, 6, .sh, 0⟩
def svCfg0_KIA : Fld := ⟨167, .svCfg0, 34, 6, .sh, 0⟩
def svCfg0_KP : Fld := ⟨168, .svCfg0, 28, 6, .sh, 0⟩
def svCfg0_KI : Fld := ⟨169, .svCfg0, 22, 6, .sh, 0⟩
def svCfg0_LOCKN : Fld := ⟨170, .svCfg0, 16, 6, .sh, 0⟩
/-- `SV[j].CFG1` (13 R250/R251). -/ def svCfg1_STEPTH : Fld := ⟨171, .svCfg1, 28, 20, .sh, 0⟩
def svCfg1_LOCKTH : Fld := ⟨172, .svCfg1, 16, 12, .sh, 0⟩
def svCfg1_RAMPW : Fld := ⟨173, .svCfg1, 4, 12, .sh, 0⟩
/-- `SV[j].STAT` (13 R249-R251). -/ def svStat_REMAIN : Fld := ⟨174, .svStat, 8, 12, .ro, 0⟩
def svStat_SELV : Fld := ⟨175, .svStat, 7, 1, .ro, 0⟩
def svStat_SEL : Fld := ⟨176, .svStat, 4, 3, .ro, 0⟩
def svStat_RAMP : Fld := ⟨177, .svStat, 3, 1, .ro, 0⟩
def svStat_FONLY : Fld := ⟨178, .svStat, 2, 1, .ro, 0⟩
def svStat_SEED : Fld := ⟨179, .svStat, 1, 1, .ro, 0⟩
/-- `SV[j].OFS` (13 R250). -/ def svOfs_NS : Fld := ⟨180, .svOfs, 16, 32, .ro, 0⟩
def svOfs_FRAC : Fld := ⟨181, .svOfs, 0, 16, .ro, 0⟩
/-- `SV[j].YI` (13 R250). -/ def svYi_PPB : Fld := ⟨182, .svYi, 0, 40, .ro, 0⟩
/-- `SV[j].YAVG` (13 R250). -/ def svYavg_PPB : Fld := ⟨183, .svYavg, 0, 40, .ro, 0⟩
/-- `SV[j].CNT` (13 R250-R252). -/ def svCnt_STEPS : Fld := ⟨184, .svCnt, 36, 12, .rc, 0⟩
def svCnt_SWITCH : Fld := ⟨185, .svCnt, 24, 12, .rc, 0⟩
def svCnt_REVERSE : Fld := ⟨186, .svCnt, 12, 12, .rc, 0⟩
def svCnt_LOCKLOSS : Fld := ⟨187, .svCnt, 0, 12, .rc, 0⟩
/-- `REF[r].CFG` (13 R248). -/ def refCfg_KIND : Fld := ⟨188, .refCfg, 45, 3, .sh, 0⟩
def refCfg_TGT : Fld := ⟨189, .refCfg, 44, 1, .sh, 0⟩
def refCfg_TIMEOUT : Fld := ⟨190, .refCfg, 28, 16, .sh, 0⟩
def refCfg_PARAM : Fld := ⟨191, .refCfg, 8, 20, .sh, 0⟩
/-- `REF[r].CTL` (13 R249). -/ def refCtl_DIS : Fld := ⟨192, .refCtl, 8, 1, .rw, 0⟩
def refCtl_RANK : Fld := ⟨193, .refCtl, 0, 8, .rw, 0xff⟩
/-- `REF[r].OFS` (13 R248). -/ def refOfs_NS : Fld := ⟨194, .refOfs, 16, 32, .wo, 0⟩
def refOfs_FRAC : Fld := ⟨195, .refOfs, 0, 16, .wo, 0⟩
/-- `REF[r].STAT` (13 R249). -/ def refStat_LAST : Fld := ⟨196, .refStat, 16, 32, .ro, 0⟩
def refStat_SELD : Fld := ⟨197, .refStat, 1, 1, .ro, 0⟩
def refStat_VALID : Fld := ⟨198, .refStat, 0, 1, .ro, 0⟩
/-- `PG[g].CFG` (13 R254). -/ def pgCfg_EN : Fld := ⟨199, .pgCfg, 47, 1, .sh, 0⟩
def pgCfg_TCSEL : Fld := ⟨200, .pgCfg, 44, 3, .sh, 0⟩
def pgCfg_PIN : Fld := ⟨201, .pgCfg, 38, 6, .sh, 0⟩
def pgCfg_POL : Fld := ⟨202, .pgCfg, 37, 1, .sh, 0⟩
def pgCfg_WID : Fld := ⟨203, .pgCfg, 7, 30, .sh, 0⟩
/-- `PG[g].SSEC` (13 R254). -/ def pgSsec_SEC : Fld := ⟨204, .pgSsec, 0, 48, .sh, 0⟩
/-- `PG[g].SNS` (13 R254). -/ def pgSns_NS : Fld := ⟨205, .pgSns, 0, 30, .sh, 0⟩
/-- `PG[g].PER` (13 R254). -/ def pgPer_PER : Fld := ⟨206, .pgPer, 0, 32, .sh, 0⟩
/-- `PG[g].STAT` (13 R254/R255). -/ def pgStat_MISS : Fld := ⟨207, .pgStat, 2, 8, .rc, 0⟩
def pgStat_LATEF : Fld := ⟨208, .pgStat, 1, 1, .w1c, 0⟩
def pgStat_DONE : Fld := ⟨209, .pgStat, 0, 1, .w1c, 0⟩
/-- `TM.LQ[n]` (13 R256). -/ def tmLq_DEPTH : Fld := ⟨210, .tmLq, 32, 6, .ro, 0⟩
def tmLq_LATE : Fld := ⟨211, .tmLq, 16, 16, .rc, 0⟩
def tmLq_IGN : Fld := ⟨212, .tmLq, 0, 16, .rc, 0⟩
/-- `YD.CFG` (12 R223). -/ def ydCfg_AGETIME : Fld := ⟨213, .ydCfg, 36, 12, .sh, 0⟩
/-- `YD.STAT` (12 R230). -/ def ydStat_FREE : Fld := ⟨214, .ydStat, 33, 15, .ro, 0x4000⟩
def ydStat_MINFREE : Fld := ⟨215, .ydStat, 18, 15, .rc, 0x4000⟩
/-- `YD.CNT` (12 R223/R230). -/ def ydCnt_LRNFAIL : Fld := ⟨216, .ydCnt, 32, 16, .rc, 0⟩
def ydCnt_MOVE : Fld := ⟨217, .ydCnt, 16, 16, .rc, 0⟩
def ydCnt_NOBUF : Fld := ⟨218, .ydCnt, 0, 16, .rc, 0⟩
/-- `YD.ATKEY` (12 R237). -/ def ydAtkey_MAC : Fld := ⟨219, .ydAtkey, 0, 48, .rw, 0⟩
/-- `YD.ATDATA` (12 R237). -/ def ydAtdata_VID : Fld := ⟨220, .ydAtdata, 36, 12, .rw, 0⟩
def ydAtdata_VALID : Fld := ⟨221, .ydAtdata, 35, 1, .rw, 0⟩
def ydAtdata_STATIC : Fld := ⟨222, .ydAtdata, 34, 1, .rw, 0⟩
def ydAtdata_DLV : Fld := ⟨223, .ydAtdata, 33, 1, .rw, 0⟩
def ydAtdata_FN : Fld := ⟨224, .ydAtdata, 24, 9, .rw, 0⟩
def ydAtdata_PMASK : Fld := ⟨225, .ydAtdata, 0, 12, .rw, 0⟩
/-- `YD.ATCMD` (12 R237). -/ def ydAtcmd_RES : Fld := ⟨226, .ydAtcmd, 8, 4, .ro, 0⟩
def ydAtcmd_BUSY : Fld := ⟨227, .ydAtcmd, 4, 1, .ro, 0⟩
def ydAtcmd_OP : Fld := ⟨228, .ydAtcmd, 0, 4, .wo, 0⟩
/-- `YD.PCFG[p]` (12 R221). -/ def ydPcfg_PVID : Fld := ⟨229, .ydPcfg, 36, 12, .sh, 0⟩
def ydPcfg_PPCP : Fld := ⟨230, .ydPcfg, 33, 3, .sh, 0⟩
def ydPcfg_LEARN : Fld := ⟨231, .ydPcfg, 32, 1, .sh, 0⟩
def ydPcfg_POUT : Fld := ⟨232, .ydPcfg, 31, 1, .sh, 0⟩
def ydPcfg_CTEN : Fld := ⟨233, .ydPcfg, 30, 1, .sh, 0⟩
def ydPcfg_CHGFN : Fld := ⟨234, .ydPcfg, 21, 9, .sh, 0⟩
def ydPcfg_ACCEPT : Fld := ⟨235, .ydPcfg, 19, 2, .sh, 0⟩
/-- `YD.PCPMAP[p]` (12 R221). -/ def ydPcpmap_MAP : Fld := ⟨236, .ydPcpmap, 0, 24, .sh, 0⟩
/-- `YD.GCTL[p]` (12 R235). -/ def ydGctl_EN : Fld := ⟨237, .ydGctl, 47, 1, .sh, 0⟩
def ydGctl_GDOM : Fld := ⟨238, .ydGctl, 44, 3, .sh, 0⟩
def ydGctl_LEN : Fld := ⟨239, .ydGctl, 35, 9, .sh, 0⟩
def ydGctl_IDX : Fld := ⟨240, .ydGctl, 27, 8, .ro, 0⟩
def ydGctl_OPER : Fld := ⟨241, .ydGctl, 26, 1, .ro, 0⟩
def ydGctl_PEND : Fld := ⟨242, .ydGctl, 25, 1, .ro, 0⟩
/-- `YD.GBASE0[p]` (12 R235). -/ def ydGbase0_SEC : Fld := ⟨243, .ydGbase0, 0, 48, .sh, 0⟩
/-- `YD.GBASE1[p]` (12 R235). -/ def ydGbase1_NS : Fld := ⟨244, .ydGbase1, 0, 30, .sh, 0⟩
/-- `YD.GCYC[p]` (12 R235). -/ def ydGcyc_CYC : Fld := ⟨245, .ydGcyc, 0, 30, .sh, 0⟩
/-- `YD.PCNT[p]` (12 R221-R236). -/ def ydPcnt_FILT : Fld := ⟨246, .ydPcnt, 36, 12, .rc, 0⟩
def ydPcnt_FLOOD : Fld := ⟨247, .ydPcnt, 24, 12, .rc, 0⟩
def ydPcnt_CTBAD : Fld := ⟨248, .ydPcnt, 16, 8, .rc, 0⟩
def ydPcnt_GDROP : Fld := ⟨249, .ydPcnt, 8, 8, .rc, 0⟩
def ydPcnt_UNMARK : Fld := ⟨250, .ydPcnt, 0, 8, .rc, 0⟩
/-- `YD.QCFG[p][c]` (12 R230/R233). -/ def ydQcfg_K : Fld := ⟨251, .ydQcfg, 44, 4, .sh, 0⟩
def ydQcfg_MARK : Fld := ⟨252, .ydQcfg, 29, 15, .sh, 0⟩
/-- `YD.QSTAT[p][c]` (12 R230/R235). -/ def ydQstat_LEN : Fld := ⟨253, .ydQstat, 33, 15, .ro, 0⟩
def ydQstat_FRAMES : Fld := ⟨254, .ydQstat, 18, 15, .ro, 0⟩
def ydQstat_GOPEN : Fld := ⟨255, .ydQstat, 17, 1, .ro, 0⟩
/-- `YD.QCNT[p][c]` (12 R230-R233). -/ def ydQcnt_REFUSE : Fld := ⟨256, .ydQcnt, 32, 16, .rc, 0⟩
def ydQcnt_PUSHOUT : Fld := ⟨257, .ydQcnt, 16, 16, .rc, 0⟩
def ydQcnt_MARK : Fld := ⟨258, .ydQcnt, 0, 16, .rc, 0⟩
/-- `YD.GCL[p][i]` (12 R235). -/ def ydGcl_GATES : Fld := ⟨259, .ydGcl, 40, 8, .sh, 0⟩
def ydGcl_OP : Fld := ⟨260, .ydGcl, 38, 2, .sh, 0⟩
def ydGcl_INTERVAL : Fld := ⟨261, .ydGcl, 0, 32, .sh, 0⟩
/-- `YD.VLAN[v]` (12 R221/R222). -/ def ydVlan_VALID : Fld := ⟨262, .ydVlan, 47, 1, .sh, 0⟩
def ydVlan_LEARN : Fld := ⟨263, .ydVlan, 46, 1, .sh, 0⟩
def ydVlan_FLOODFN : Fld := ⟨264, .ydVlan, 37, 9, .sh, 0⟩
def ydVlan_FLDLV : Fld := ⟨265, .ydVlan, 36, 1, .sh, 0⟩
def ydVlan_UNTAG : Fld := ⟨266, .ydVlan, 12, 12, .sh, 0⟩
def ydVlan_MEMBER : Fld := ⟨267, .ydVlan, 0, 12, .sh, 0⟩
/-- `YD.FRX0[f]` (12 R228). -/ def ydFrx0_KIND : Fld := ⟨268, .ydFrx0, 46, 2, .sh, 0⟩
def ydFrx0_STBL : Fld := ⟨269, .ydFrx0, 42, 4, .sh, 0⟩
def ydFrx0_BASE : Fld := ⟨270, .ydFrx0, 26, 16, .sh, 0⟩
def ydFrx0_SLOTW : Fld := ⟨271, .ydFrx0, 20, 6, .sh, 0⟩
def ydFrx0_NSLOT : Fld := ⟨272, .ydFrx0, 12, 8, .sh, 0⟩
/-- `YD.FRX1[f]` (12 R228). -/ def ydFrx1_U : Fld := ⟨273, .ydFrx1, 46, 2, .sh, 0⟩
def ydFrx1_MIG : Fld := ⟨274, .ydFrx1, 45, 1, .sh, 0⟩
def ydFrx1_EST : Fld := ⟨275, .ydFrx1, 34, 11, .sh, 0⟩
def ydFrx1_ENTRY : Fld := ⟨276, .ydFrx1, 18, 16, .sh, 0⟩
/-- `YD.FRX2[f]` (12 R228). -/ def ydFrx2_NOSLOT : Fld := ⟨277, .ydFrx2, 36, 12, .rc, 0⟩
def ydFrx2_TOOBIG : Fld := ⟨278, .ydFrx2, 24, 12, .rc, 0⟩
def ydFrx2_TASKREF : Fld := ⟨279, .ydFrx2, 12, 12, .rc, 0⟩
def ydFrx2_DENY : Fld := ⟨280, .ydFrx2, 0, 12, .rc, 0⟩
/-- `YD.SUB[n]` (12 R226). -/ def ydSub_ADDR : Fld := ⟨281, .ydSub, 0, 16, .wo, 0⟩
/-- `YD.HTXBASE[r]` (12 R229). -/ def ydHtxbase_BASE : Fld := ⟨282, .ydHtxbase, 0, 48, .rw, 0⟩
/-- `YD.HTXPTR[r]` (12 R229). -/ def ydHtxptr_LOGN : Fld := ⟨283, .ydHtxptr, 44, 4, .rw, 0⟩
def ydHtxptr_TAIL : Fld := ⟨284, .ydHtxptr, 16, 12, .rw, 0⟩
def ydHtxptr_HEAD : Fld := ⟨285, .ydHtxptr, 0, 12, .ro, 0⟩
/-- `YD.HRXBASE[r]` (12 R229). -/ def ydHrxbase_BASE : Fld := ⟨286, .ydHrxbase, 0, 48, .rw, 0⟩
/-- `YD.HRXPTR[r]` (12 R229). -/ def ydHrxptr_LOGN : Fld := ⟨287, .ydHrxptr, 44, 4, .rw, 0⟩
def ydHrxptr_TAIL : Fld := ⟨288, .ydHrxptr, 16, 12, .rw, 0⟩
def ydHrxptr_HEAD : Fld := ⟨289, .ydHrxptr, 0, 12, .ro, 0⟩
def ydHrxptr_BUFSZ : Fld := ⟨290, .ydHrxptr, 30, 14, .rw, 0⟩
/-- `EP[n].CFG0` (10 R185-R201). -/ def epCfg0_IF : Fld := ⟨291, .epCfg0, 44, 4, .sh, 0⟩
def epCfg0_HDX : Fld := ⟨292, .epCfg0, 43, 1, .sh, 0⟩
def epCfg0_EEE : Fld := ⟨293, .epCfg0, 42, 1, .sh, 0⟩
def epCfg0_PREEMPT : Fld := ⟨294, .epCfg0, 41, 1, .sh, 0⟩
def epCfg0_PAUSEEN : Fld := ⟨295, .epCfg0, 40, 1, .sh, 0⟩
def epCfg0_T1LHI : Fld := ⟨296, .epCfg0, 39, 1, .sh, 0⟩
def epCfg0_TSDOM : Fld := ⟨297, .epCfg0, 36, 3, .sh, 0⟩
def epCfg0_EXPMASK : Fld := ⟨298, .epCfg0, 28, 8, .sh, 0⟩
def epCfg0_ADDFRAG : Fld := ⟨299, .epCfg0, 26, 2, .sh, 0⟩
def epCfg0_ADV : Fld := ⟨300, .epCfg0, 23, 3, .sh, 0⟩
/-- `EP[n].CFG1` (10 R185-R201). -/ def epCfg1_RXLAT : Fld := ⟨301, .epCfg1, 18, 18, .sh, 0⟩
def epCfg1_TXLAT : Fld := ⟨302, .epCfg1, 0, 18, .sh, 0⟩
/-- `EP[n].CFG2` (10 R185-R201). -/ def epCfg2_MAXFRM : Fld := ⟨303, .epCfg2, 34, 14, .sh, 0⟩
def epCfg2_TXTH0 : Fld := ⟨304, .epCfg2, 27, 7, .sh, 0⟩
def epCfg2_LPIIDLE : Fld := ⟨305, .epCfg2, 15, 12, .sh, 0⟩
/-- `EP[n].TXCTL` (10 R185-R201). -/ def epTxctl_TXTH : Fld := ⟨306, .epTxctl, 0, 7, .rw, 0⟩
/-- `EP[n].STAT` (10 R185-R201). -/ def epStat_PD : Fld := ⟨307, .epStat, 15, 1, .ro, 0⟩
def epStat_MISMATCH : Fld := ⟨308, .epStat, 14, 1, .ro, 0⟩
def epStat_PAUSED : Fld := ⟨309, .epStat, 13, 1, .ro, 0⟩
def epStat_LPIRX : Fld := ⟨310, .epStat, 12, 1, .ro, 0⟩
def epStat_LPITX : Fld := ⟨311, .epStat, 11, 1, .ro, 0⟩
def epStat_PVS : Fld := ⟨312, .epStat, 9, 2, .ro, 0⟩
def epStat_HDXA : Fld := ⟨313, .epStat, 8, 1, .ro, 0⟩
def epStat_SPEED : Fld := ⟨314, .epStat, 5, 3, .ro, 0⟩
def epStat_T1LA : Fld := ⟨315, .epStat, 4, 1, .ro, 0⟩
def epStat_LINK : Fld := ⟨316, .epStat, 0, 1, .ro, 0⟩
/-- `EP[n].EVT` (10 R185-R201). -/ def epEvt_IE : Fld := ⟨317, .epEvt, 16, 8, .rw, 0⟩
def epEvt_PVFAIL : Fld := ⟨318, .epEvt, 6, 1, .w1c, 0⟩
def epEvt_TSOVF : Fld := ⟨319, .epEvt, 5, 1, .w1c, 0⟩
def epEvt_EXCOL : Fld := ⟨320, .epEvt, 4, 1, .w1c, 0⟩
def epEvt_LATECOL : Fld := ⟨321, .epEvt, 3, 1, .w1c, 0⟩
def epEvt_TXPOIS : Fld := ⟨322, .epEvt, 2, 1, .w1c, 0⟩
def epEvt_TXUND : Fld := ⟨323, .epEvt, 1, 1, .w1c, 0⟩
def epEvt_LINKCHG : Fld := ⟨324, .epEvt, 0, 1, .w1c, 0⟩
/-- `EP[n].TXTS0` (10 R185-R201). -/ def epTxts0_COUNT : Fld := ⟨325, .epTxts0, 19, 5, .ro, 0⟩
def epTxts0_VALID : Fld := ⟨326, .epTxts0, 18, 1, .ro, 0⟩
def epTxts0_ERR : Fld := ⟨327, .epTxts0, 17, 1, .ro, 0⟩
def epTxts0_WAKE : Fld := ⟨328, .epTxts0, 16, 1, .ro, 0⟩
def epTxts0_TAG : Fld := ⟨329, .epTxts0, 0, 16, .ro, 0⟩
/-- `EP[n].TXTS1` (10 R185-R201). -/ def epTxts1_SEC : Fld := ⟨330, .epTxts1, 0, 48, .ro, 0⟩
/-- `EP[n].TXTS2` (10 R185-R201). -/ def epTxts2_NSF : Fld := ⟨331, .epTxts2, 0, 46, .rc, 0⟩
/-- `EP[n].CNT0` (10 R185-R201). -/ def epCnt0_RXOK : Fld := ⟨332, .epCnt0, 24, 24, .rc, 0⟩
def epCnt0_TXOK : Fld := ⟨333, .epCnt0, 0, 24, .rc, 0⟩
/-- `EP[n].CNT1` (10 R185-R201). -/ def epCnt1_RXFCS : Fld := ⟨334, .epCnt1, 32, 16, .rc, 0⟩
def epCnt1_RXLEN : Fld := ⟨335, .epCnt1, 16, 16, .rc, 0⟩
def epCnt1_RXFRAG : Fld := ⟨336, .epCnt1, 0, 16, .rc, 0⟩
/-- `EP[n].CNT2` (10 R185-R201). -/ def epCnt2_TXUND : Fld := ⟨337, .epCnt2, 32, 16, .rc, 0⟩
def epCnt2_TXPOIS : Fld := ⟨338, .epCnt2, 16, 16, .rc, 0⟩
def epCnt2_TXLDN : Fld := ⟨339, .epCnt2, 0, 16, .rc, 0⟩
/-- `EP[n].CNT3` (10 R185-R201). -/ def epCnt3_COL : Fld := ⟨340, .epCnt3, 32, 16, .rc, 0⟩
def epCnt3_LATECOL : Fld := ⟨341, .epCnt3, 24, 8, .rc, 0⟩
def epCnt3_EXCOL : Fld := ⟨342, .epCnt3, 16, 8, .rc, 0⟩
def epCnt3_PAUSERX : Fld := ⟨343, .epCnt3, 0, 16, .rc, 0⟩
/-- `EP[n].CNT4` (10 R185-R201). -/ def epCnt4_TSOVF : Fld := ⟨344, .epCnt4, 32, 16, .rc, 0⟩
def epCnt4_CTLRX : Fld := ⟨345, .epCnt4, 16, 16, .rc, 0⟩
def epCnt4_PREEMPT : Fld := ⟨346, .epCnt4, 0, 16, .rc, 0⟩
/-- `EP[k].IPCFG0` (11 R206). -/ def epIpcfg0_EN : Fld := ⟨347, .epIpcfg0, 47, 1, .sh, 0⟩
def epIpcfg0_PA : Fld := ⟨348, .epIpcfg0, 43, 4, .sh, 0⟩
def epIpcfg0_PB : Fld := ⟨349, .epIpcfg0, 39, 4, .sh, 0⟩
def epIpcfg0_STBL : Fld := ⟨350, .epIpcfg0, 35, 4, .sh, 0⟩
def epIpcfg0_FN : Fld := ⟨351, .epIpcfg0, 26, 9, .sh, 0⟩
def epIpcfg0_M0 : Fld := ⟨352, .epIpcfg0, 25, 1, .sh, 0⟩
def epIpcfg0_M1 : Fld := ⟨353, .epIpcfg0, 24, 1, .sh, 0⟩
def epIpcfg0_COPY0 : Fld := ⟨354, .epIpcfg0, 23, 1, .sh, 0⟩
def epIpcfg0_COPY1 : Fld := ⟨355, .epIpcfg0, 22, 1, .sh, 0⟩
/-- `EP[k].IPCFG1` (11 R206). -/ def epIpcfg1_DLY : Fld := ⟨356, .epIpcfg1, 30, 18, .sh, 0⟩
def epIpcfg1_RG0 : Fld := ⟨357, .epIpcfg1, 22, 8, .sh, 0⟩
def epIpcfg1_RG1 : Fld := ⟨358, .epIpcfg1, 14, 8, .sh, 0⟩
/-- `EP[k].IPSTAT` (11 R211/R214/R217). -/ def epIpstat_LWIE : Fld := ⟨359, .epIpstat, 19, 1, .rw, 0⟩
def epIpstat_LWEV : Fld := ⟨360, .epIpstat, 17, 1, .w1c, 0⟩
def epIpstat_SLEV : Fld := ⟨361, .epIpstat, 16, 1, .w1c, 0⟩
def epIpstat_NEXT1 : Fld := ⟨362, .epIpstat, 11, 3, .ro, 0⟩
def epIpstat_NEXT0 : Fld := ⟨363, .epIpstat, 8, 3, .ro, 0⟩
def epIpstat_ACT1 : Fld := ⟨364, .epIpstat, 2, 1, .ro, 0⟩
def epIpstat_ACT0 : Fld := ⟨365, .epIpstat, 1, 1, .ro, 0⟩
def epIpstat_ON : Fld := ⟨366, .epIpstat, 0, 1, .ro, 0⟩
/-- `EP[k].IPCNT[d]` (11 R211-R217). -/ def epIpcnt_LATEW : Fld := ⟨367, .epIpcnt, 36, 12, .rc, 0⟩
def epIpcnt_EARLYW : Fld := ⟨368, .epIpcnt, 28, 8, .rc, 0⟩
def epIpcnt_MISS : Fld := ⟨369, .epIpcnt, 20, 8, .rc, 0⟩
def epIpcnt_BAD : Fld := ⟨370, .epIpcnt, 12, 8, .rc, 0⟩
def epIpcnt_DROP : Fld := ⟨371, .epIpcnt, 6, 6, .rc, 0⟩
def epIpcnt_SLIP : Fld := ⟨372, .epIpcnt, 0, 6, .rc, 0⟩
/-- `EP[k].IPLOG` (11 R217). -/ def epIplog_VALID : Fld := ⟨373, .epIplog, 47, 1, .w1c, 0⟩
def epIplog_DIR : Fld := ⟨374, .epIplog, 46, 1, .ro, 0⟩
def epIplog_SEQ : Fld := ⟨375, .epIplog, 38, 8, .ro, 0⟩
def epIplog_WORD : Fld := ⟨376, .epIplog, 27, 11, .ro, 0⟩
def epIplog_POS : Fld := ⟨377, .epIplog, 24, 3, .ro, 0⟩
/-- `CAN[n].CFG0` (15 R280). -/ def canCfg0_MODE : Fld := ⟨378, .canCfg0, 45, 3, .sh, 0⟩
def canCfg0_OWNER : Fld := ⟨379, .canCfg0, 36, 9, .sh, 0⟩
def canCfg0_FDOE : Fld := ⟨380, .canCfg0, 35, 1, .sh, 0⟩
def canCfg0_PXE : Fld := ⟨381, .canCfg0, 34, 1, .sh, 0⟩
def canCfg0_TXORD : Fld := ⟨382, .canCfg0, 33, 1, .sh, 0⟩
def canCfg0_NOMATCH : Fld := ⟨383, .canCfg0, 32, 1, .sh, 0⟩
def canCfg0_IRQENG : Fld := ⟨384, .canCfg0, 25, 7, .sh, 0⟩
def canCfg0_TDCEN : Fld := ⟨385, .canCfg0, 24, 1, .sh, 0⟩
def canCfg0_TDCO : Fld := ⟨386, .canCfg0, 17, 7, .sh, 0⟩
/-- `CAN[n].NBT` (15 R281). -/ def canNbt_NBRP : Fld := ⟨387, .canNbt, 40, 8, .sh, 0⟩
def canNbt_NTSEG1 : Fld := ⟨388, .canNbt, 32, 8, .sh, 0⟩
def canNbt_NTSEG2 : Fld := ⟨389, .canNbt, 25, 7, .sh, 0⟩
def canNbt_NSJW : Fld := ⟨390, .canNbt, 18, 7, .sh, 0⟩
/-- `CAN[n].DBT` (15 R281). -/ def canDbt_DBRP : Fld := ⟨391, .canDbt, 43, 5, .sh, 0⟩
def canDbt_DTSEG1 : Fld := ⟨392, .canDbt, 38, 5, .sh, 0⟩
def canDbt_DTSEG2 : Fld := ⟨393, .canDbt, 34, 4, .sh, 0⟩
def canDbt_DSJW : Fld := ⟨394, .canDbt, 30, 4, .sh, 0⟩
/-- `CAN[n].STAT` (15 R290/R291). -/ def canStat_TEC : Fld := ⟨395, .canStat, 40, 8, .ro, 0⟩
def canStat_REC : Fld := ⟨396, .canStat, 32, 8, .ro, 0⟩
def canStat_FCS : Fld := ⟨397, .canStat, 30, 2, .ro, 0⟩
def canStat_LONE : Fld := ⟨398, .canStat, 29, 1, .ro, 0⟩
def canStat_SYNCD : Fld := ⟨399, .canStat, 28, 1, .ro, 0⟩
def canStat_BOREC : Fld := ⟨400, .canStat, 20, 8, .ro, 0⟩
def canStat_LEC : Fld := ⟨401, .canStat, 17, 3, .ro, 0⟩
def canStat_DLEC : Fld := ⟨402, .canStat, 14, 3, .ro, 0⟩
/-- `CAN[n].EVT` (15 R284-R291). -/ def canEvt_IE : Fld := ⟨403, .canEvt, 16, 16, .rw, 0⟩
def canEvt_TXBUSY : Fld := ⟨404, .canEvt, 8, 1, .w1c, 0⟩
def canEvt_LONE : Fld := ⟨405, .canEvt, 7, 1, .w1c, 0⟩
def canEvt_BOREC : Fld := ⟨406, .canEvt, 6, 1, .w1c, 0⟩
def canEvt_BOFF : Fld := ⟨407, .canEvt, 5, 1, .w1c, 0⟩
def canEvt_EPASS : Fld := ⟨408, .canEvt, 4, 1, .w1c, 0⟩
def canEvt_RXOVR : Fld := ⟨409, .canEvt, 3, 1, .w1c, 0⟩
def canEvt_RXB : Fld := ⟨410, .canEvt, 2, 1, .w1c, 0⟩
def canEvt_RXF : Fld := ⟨411, .canEvt, 1, 1, .w1c, 0⟩
def canEvt_TXDONE : Fld := ⟨412, .canEvt, 0, 1, .w1c, 0⟩
/-- `CAN[n].CNT` (15 R286-R290). -/ def canCnt_BUSOFF : Fld := ⟨413, .canCnt, 36, 12, .rc, 0⟩
def canCnt_RXOVR : Fld := ⟨414, .canCnt, 24, 12, .rc, 0⟩
def canCnt_NOMATCH : Fld := ⟨415, .canCnt, 12, 12, .rc, 0⟩
def canCnt_ERRF : Fld := ⟨416, .canCnt, 0, 12, .rc, 0⟩
/-- `CAN[n].TXB[k].HDR` (15 R284/R285). -/ def canTxHdr_IDE : Fld := ⟨417, .canTxHdr, 47, 1, .rw, 0⟩
def canTxHdr_RTR : Fld := ⟨418, .canTxHdr, 46, 1, .rw, 0⟩
def canTxHdr_FDF : Fld := ⟨419, .canTxHdr, 45, 1, .rw, 0⟩
def canTxHdr_BRS : Fld := ⟨420, .canTxHdr, 44, 1, .rw, 0⟩
def canTxHdr_ESI : Fld := ⟨421, .canTxHdr, 43, 1, .ro, 0⟩
def canTxHdr_DLC : Fld := ⟨422, .canTxHdr, 39, 4, .rw, 0⟩
def canTxHdr_FIDX : Fld := ⟨423, .canTxHdr, 32, 7, .ro, 0⟩
def canTxHdr_ID : Fld := ⟨424, .canTxHdr, 0, 29, .rw, 0⟩
/-- `CAN[n].TXB[k].CTL` (15 R284/R285). -/ def canTxCtl_TXTS : Fld := ⟨425, .canTxCtl, 16, 32, .ro, 0⟩
def canTxCtl_ABTD : Fld := ⟨426, .canTxCtl, 3, 1, .ro, 0⟩
def canTxCtl_SENT : Fld := ⟨427, .canTxCtl, 2, 1, .ro, 0⟩
def canTxCtl_TXABT : Fld := ⟨428, .canTxCtl, 1, 1, .wo, 0⟩
def canTxCtl_TXREQ : Fld := ⟨429, .canTxCtl, 0, 1, .w1s, 0⟩
/-- `CAN[n].TXB[k].DATA[0-10]` (15 R289). -/ def canTxData_DATA : Fld := ⟨430, .canTxData, 0, 48, .rw, 0⟩
/-- `CAN[n].RXF.HDR` (15 R287). -/ def canRxfHdr_IDE : Fld := ⟨431, .canRxfHdr, 47, 1, .ro, 0⟩
def canRxfHdr_RTR : Fld := ⟨432, .canRxfHdr, 46, 1, .ro, 0⟩
def canRxfHdr_FDF : Fld := ⟨433, .canRxfHdr, 45, 1, .ro, 0⟩
def canRxfHdr_BRS : Fld := ⟨434, .canRxfHdr, 44, 1, .ro, 0⟩
def canRxfHdr_ESI : Fld := ⟨435, .canRxfHdr, 43, 1, .ro, 0⟩
def canRxfHdr_DLC : Fld := ⟨436, .canRxfHdr, 39, 4, .ro, 0⟩
def canRxfHdr_FIDX : Fld := ⟨437, .canRxfHdr, 32, 7, .ro, 0⟩
def canRxfHdr_ID : Fld := ⟨438, .canRxfHdr, 0, 29, .ro, 0⟩
/-- `CAN[n].RXF.TS` (15 R287). -/ def canRxfTs_TK : Fld := ⟨439, .canRxfTs, 16, 32, .ro, 0⟩
/-- `CAN[n].RXF.DATA[0-10]` (15 R287). -/ def canRxfData_DATA : Fld := ⟨440, .canRxfData, 0, 48, .ro, 0⟩
/-- `CAN[n].RXF.POP` (15 R287). -/ def canRxfPop_POP : Fld := ⟨441, .canRxfPop, 0, 1, .wo, 0⟩
/-- `CAN[n].RXF.STAT` (15 R287). -/ def canRxfStat_COUNT : Fld := ⟨442, .canRxfStat, 0, 7, .ro, 0⟩
/-- `CAN[n].RXB[j].HDR` (15 R288). -/ def canRxbHdr_IDE : Fld := ⟨443, .canRxbHdr, 47, 1, .ro, 0⟩
def canRxbHdr_RTR : Fld := ⟨444, .canRxbHdr, 46, 1, .ro, 0⟩
def canRxbHdr_FDF : Fld := ⟨445, .canRxbHdr, 45, 1, .ro, 0⟩
def canRxbHdr_BRS : Fld := ⟨446, .canRxbHdr, 44, 1, .ro, 0⟩
def canRxbHdr_ESI : Fld := ⟨447, .canRxbHdr, 43, 1, .ro, 0⟩
def canRxbHdr_DLC : Fld := ⟨448, .canRxbHdr, 39, 4, .ro, 0⟩
def canRxbHdr_FIDX : Fld := ⟨449, .canRxbHdr, 32, 7, .ro, 0⟩
def canRxbHdr_ID : Fld := ⟨450, .canRxbHdr, 0, 29, .ro, 0⟩
/-- `CAN[n].RXB[j].TS` (15 R288). -/ def canRxbTs_TK : Fld := ⟨451, .canRxbTs, 16, 32, .ro, 0⟩
/-- `CAN[n].RXB[j].DATA[0-10]` (15 R288). -/ def canRxbData_DATA : Fld := ⟨452, .canRxbData, 0, 48, .ro, 0⟩
/-- `CAN[n].RXB[j].STAT` (15 R288). -/ def canRxbStat_OVW : Fld := ⟨453, .canRxbStat, 1, 1, .w1c, 0⟩
def canRxbStat_ND : Fld := ⟨454, .canRxbStat, 0, 1, .w1c, 0⟩
/-- `CAN[n].FLT[i].A` (15 R286). -/ def canFltA_EN : Fld := ⟨455, .canFltA, 47, 1, .sh, 0⟩
def canFltA_IDE : Fld := ⟨456, .canFltA, 46, 1, .sh, 0⟩
def canFltA_DEST : Fld := ⟨457, .canFltA, 44, 2, .sh, 0⟩
def canFltA_RXB : Fld := ⟨458, .canFltA, 40, 4, .sh, 0⟩
def canFltA_ID : Fld := ⟨459, .canFltA, 0, 29, .sh, 0⟩
/-- `CAN[n].FLT[i].B` (15 R286). -/ def canFltB_MASK : Fld := ⟨460, .canFltB, 0, 29, .sh, 0⟩
/-- `PI[b].FLAGS` (16 R302). -/ def piFlags_FLAG : Fld := ⟨461, .piFlags, 0, 8, .w1c, 0⟩
/-- `PI[b].PINSTAT` (16 R294). -/ def piPinstat_DRV : Fld := ⟨462, .piPinstat, 32, 16, .ro, 0⟩
def piPinstat_OUTV : Fld := ⟨463, .piPinstat, 16, 16, .ro, 0⟩
def piPinstat_INV : Fld := ⟨464, .piPinstat, 0, 16, .ro, 0⟩
/-- `PI[b].PIN[j]` (16 R294). -/ def piPin_FUNC : Fld := ⟨465, .piPin, 46, 2, .sh, 0⟩
def piPin_MACH : Fld := ⟨466, .piPin, 43, 3, .sh, 0⟩
def piPin_SAFE : Fld := ⟨467, .piPin, 41, 2, .sh, 0⟩
def piPin_PULL : Fld := ⟨468, .piPin, 39, 2, .sh, 0⟩
def piPin_OE0 : Fld := ⟨469, .piPin, 38, 1, .sh, 0⟩
/-- `PI[b].m.CFG0` (16 R295-R298). -/ def pmCfg0_EN : Fld := ⟨470, .pmCfg0, 47, 1, .sh, 0⟩
def pmCfg0_OWNER : Fld := ⟨471, .pmCfg0, 38, 9, .sh, 0⟩
def pmCfg0_IRQENG : Fld := ⟨472, .pmCfg0, 31, 7, .sh, 0⟩
def pmCfg0_STEPI : Fld := ⟨473, .pmCfg0, 15, 16, .sh, 0⟩
def pmCfg0_STEPF : Fld := ⟨474, .pmCfg0, 7, 8, .sh, 0⟩
def pmCfg0_POOL : Fld := ⟨475, .pmCfg0, 5, 2, .sh, 0⟩
/-- `PI[b].m.CFG1` (16 R301). -/ def pmCfg1_DBASE : Fld := ⟨476, .pmCfg1, 44, 4, .sh, 0⟩
def pmCfg1_DN : Fld := ⟨477, .pmCfg1, 39, 5, .sh, 0⟩
def pmCfg1_CBASE : Fld := ⟨478, .pmCfg1, 35, 4, .sh, 0⟩
def pmCfg1_CN : Fld := ⟨479, .pmCfg1, 32, 3, .sh, 0⟩
def pmCfg1_AUXBASE : Fld := ⟨480, .pmCfg1, 28, 4, .sh, 0⟩
def pmCfg1_AUXN : Fld := ⟨481, .pmCfg1, 25, 3, .sh, 0⟩
def pmCfg1_SENSEB : Fld := ⟨482, .pmCfg1, 21, 4, .sh, 0⟩
/-- `PI[b].m.CFG2` (16 R297-R302). -/ def pmCfg2_LSBF : Fld := ⟨483, .pmCfg2, 47, 1, .sh, 0⟩
def pmCfg2_LSBT : Fld := ⟨484, .pmCfg2, 46, 1, .sh, 0⟩
def pmCfg2_REFILL : Fld := ⟨485, .pmCfg2, 45, 1, .sh, 0⟩
def pmCfg2_AUTODLV : Fld := ⟨486, .pmCfg2, 44, 1, .sh, 0⟩
def pmCfg2_TLEN : Fld := ⟨487, .pmCfg2, 38, 6, .sh, 0⟩
def pmCfg2_RTH : Fld := ⟨488, .pmCfg2, 32, 6, .sh, 0⟩
def pmCfg2_HEAD : Fld := ⟨489, .pmCfg2, 27, 5, .sh, 0⟩
def pmCfg2_START : Fld := ⟨490, .pmCfg2, 17, 5, .sh, 0⟩
def pmCfg2_FLAGMASK : Fld := ⟨491, .pmCfg2, 9, 8, .sh, 0⟩
/-- `PI[b].m.CTL` (16 R297/R305). -/ def pmCtl_FCLR : Fld := ⟨492, .pmCtl, 3, 1, .wo, 0⟩
def pmCtl_RESTART : Fld := ⟨493, .pmCtl, 2, 1, .wo, 0⟩
def pmCtl_RUN : Fld := ⟨494, .pmCtl, 1, 1, .rw, 0⟩
/-- `PI[b].m.STAT` (16 R297-R305). -/ def pmStat_PC : Fld := ⟨495, .pmStat, 43, 5, .ro, 0⟩
def pmStat_STALL : Fld := ⟨496, .pmStat, 40, 3, .ro, 0⟩
def pmStat_TXN : Fld := ⟨497, .pmStat, 36, 4, .ro, 0⟩
def pmStat_RXN : Fld := ⟨498, .pmStat, 32, 4, .ro, 0⟩
def pmStat_TDISP : Fld := ⟨499, .pmStat, 28, 4, .ro, 0⟩
def pmStat_IDISP : Fld := ⟨500, .pmStat, 24, 4, .ro, 0⟩
def pmStat_RXV : Fld := ⟨501, .pmStat, 7, 1, .ro, 0⟩
def pmStat_INJP : Fld := ⟨502, .pmStat, 6, 1, .ro, 0⟩
def pmStat_PINERR : Fld := ⟨503, .pmStat, 5, 1, .w1c, 0⟩
def pmStat_FAULT : Fld := ⟨504, .pmStat, 4, 1, .w1c, 0⟩
def pmStat_TKLATE : Fld := ⟨505, .pmStat, 3, 1, .w1c, 0⟩
/-- `PI[b].m.PTX` (16 R303). -/ def pmPtx_DATA : Fld := ⟨506, .pmPtx, 0, 48, .wo, 0⟩
/-- `PI[b].m.PRX` (16 R303). -/ def pmPrx_DATA : Fld := ⟨507, .pmPrx, 0, 48, .rc, 0⟩
/-- `PI[b].m.INJ` (16 R305). -/ def pmInj_INSTR : Fld := ⟨508, .pmInj, 0, 24, .wo, 0⟩
/-- `PI[b].m.CNT` (16 R301-R304). -/ def pmCnt_STALLS : Fld := ⟨509, .pmCnt, 32, 16, .rc, 0⟩
def pmCnt_LATE : Fld := ⟨510, .pmCnt, 16, 16, .rc, 0⟩
def pmCnt_TXDROP : Fld := ⟨511, .pmCnt, 0, 16, .rc, 0⟩
/-- `PI[b].m.PROG[i]` (16 R300). -/ def pmProg_IEVEN : Fld := ⟨512, .pmProg, 24, 24, .sh, 0⟩
def pmProg_IODD : Fld := ⟨513, .pmProg, 0, 24, .sh, 0⟩
/-- `PD.CFG0` (14 R262-R270). -/ def pdCfg0_ROLE : Fld := ⟨514, .pdCfg0, 45, 3, .sh, 0⟩
def pdCfg0_NODE : Fld := ⟨515, .pdCfg0, 39, 6, .sh, 0⟩
def pdCfg0_CYC : Fld := ⟨516, .pdCfg0, 16, 23, .sh, 0⟩
def pdCfg0_GUARD : Fld := ⟨517, .pdCfg0, 6, 10, .sh, 0⟩
def pdCfg0_WIN : Fld := ⟨518, .pdCfg0, 2, 4, .sh, 0⟩
/-- `PD.CFG1` (14 R262-R270). -/ def pdCfg1_INSTOFS : Fld := ⟨519, .pdCfg1, 27, 21, .sh, 0⟩
def pdCfg1_LISTEN : Fld := ⟨520, .pdCfg1, 19, 8, .sh, 0⟩
def pdCfg1_LOC : Fld := ⟨521, .pdCfg1, 1, 18, .sh, 0⟩
/-- `PD.CFG2` (14 R263). -/ def pdCfg2_NSLOT : Fld := ⟨522, .pdCfg2, 0, 11, .sh, 0⟩
/-- `PD.STAT` (14 R266-R272). -/ def pdStat_REFNODE : Fld := ⟨523, .pdStat, 42, 6, .ro, 0⟩
def pdStat_REFSLOT : Fld := ⟨524, .pdStat, 40, 2, .ro, 0⟩
def pdStat_MODE : Fld := ⟨525, .pdStat, 37, 3, .ro, 0⟩
def pdStat_ALONE : Fld := ⟨526, .pdStat, 36, 1, .ro, 0⟩
def pdStat_ALIGN : Fld := ⟨527, .pdStat, 35, 1, .ro, 0⟩
def pdStat_TXOK : Fld := ⟨528, .pdStat, 34, 1, .ro, 0⟩
def pdStat_CHB : Fld := ⟨529, .pdStat, 33, 1, .ro, 0⟩
def pdStat_CHA : Fld := ⟨530, .pdStat, 32, 1, .ro, 0⟩
def pdStat_BOFF : Fld := ⟨531, .pdStat, 27, 5, .ro, 0⟩
def pdStat_CNUM : Fld := ⟨532, .pdStat, 0, 21, .ro, 0⟩
/-- `PD.EVT` (14 R265-R275). -/ def pdEvt_IE : Fld := ⟨533, .pdEvt, 16, 8, .rw, 0⟩
def pdEvt_SLOTMISS : Fld := ⟨534, .pdEvt, 7, 1, .w1c, 0⟩
def pdEvt_DIFF : Fld := ⟨535, .pdEvt, 6, 1, .w1c, 0⟩
def pdEvt_CHDOWN : Fld := ⟨536, .pdEvt, 5, 1, .w1c, 0⟩
def pdEvt_COLL : Fld := ⟨537, .pdEvt, 4, 1, .w1c, 0⟩
def pdEvt_ALONE : Fld := ⟨538, .pdEvt, 3, 1, .w1c, 0⟩
def pdEvt_BACKUP : Fld := ⟨539, .pdEvt, 2, 1, .w1c, 0⟩
def pdEvt_REFMISS : Fld := ⟨540, .pdEvt, 1, 1, .w1c, 0⟩
def pdEvt_ALIGNCHG : Fld := ⟨541, .pdEvt, 0, 1, .w1c, 0⟩
/-- `PD.CNT` (14 R265-R272). -/ def pdCnt_REFMISS : Fld := ⟨542, .pdCnt, 36, 12, .rc, 0⟩
def pdCnt_BACKUP : Fld := ⟨543, .pdCnt, 24, 12, .rc, 0⟩
def pdCnt_COLL : Fld := ⟨544, .pdCnt, 16, 8, .rc, 0⟩
def pdCnt_DIFF : Fld := ⟨545, .pdCnt, 8, 8, .rc, 0⟩
def pdCnt_TXINH : Fld := ⟨546, .pdCnt, 0, 8, .rc, 0⟩
/-- `PD.CNTA, PD.CNTB` (14 R265). -/ def pdCntAB_CRC : Fld := ⟨547, .pdCntAB, 32, 16, .rc, 0⟩
def pdCntAB_MISS : Fld := ⟨548, .pdCntAB, 16, 16, .rc, 0⟩
def pdCntAB_WIN : Fld := ⟨549, .pdCntAB, 8, 8, .rc, 0⟩
def pdCntAB_CNUM : Fld := ⟨550, .pdCntAB, 0, 8, .rc, 0⟩
/-- `PD.SEEN0, PD.SEEN1` (14 R265). -/ def pdSeen_NODES : Fld := ⟨551, .pdSeen, 0, 32, .ro, 0⟩
/-- `PD.SLOTA[s]` (14 R263). -/ def pdSlotA_KIND : Fld := ⟨552, .pdSlotA, 45, 3, .sh, 0⟩
def pdSlotA_CLAIM : Fld := ⟨553, .pdSlotA, 44, 1, .sh, 0⟩
def pdSlotA_NODE : Fld := ⟨554, .pdSlotA, 38, 6, .sh, 0⟩
def pdSlotA_LEN : Fld := ⟨555, .pdSlotA, 30, 8, .sh, 0⟩
def pdSlotA_START : Fld := ⟨556, .pdSlotA, 0, 21, .sh, 0⟩
/-- `PD.SLOTB[s]` (14 R274/R275). -/ def pdSlotB_RGN : Fld := ⟨557, .pdSlotB, 18, 6, .sh, 0⟩
def pdSlotB_WOFS : Fld := ⟨558, .pdSlotB, 6, 12, .sh, 0⟩
def pdSlotB_MISSV : Fld := ⟨559, .pdSlotB, 4, 2, .sh, 0⟩
def pdSlotB_MAP : Fld := ⟨560, .pdSlotB, 3, 1, .sh, 0⟩
/-- `PD.SLOTST[s]` (14 R273/R275). -/ def pdSlotst_MISS : Fld := ⟨561, .pdSlotst, 40, 8, .rc, 0⟩
def pdSlotst_HOLDER : Fld := ⟨562, .pdSlotst, 34, 6, .ro, 0⟩
def pdSlotst_CHV : Fld := ⟨563, .pdSlotst, 32, 2, .ro, 0⟩
def pdSlotst_CLAIM : Fld := ⟨564, .pdSlotst, 30, 2, .ro, 0⟩
def pdSlotst_QUIET : Fld := ⟨565, .pdSlotst, 26, 4, .ro, 0⟩
/-- `TW.CFG0` (17 R308-R315). -/ def twCfg0_EN : Fld := ⟨566, .twCfg0, 47, 1, .lk, 0⟩
def twCfg0_UNIT : Fld := ⟨567, .twCfg0, 46, 1, .lk, 0⟩
def twCfg0_PREF : Fld := ⟨568, .twCfg0, 45, 1, .lk, 0⟩
def twCfg0_WITNESS : Fld := ⟨569, .twCfg0, 43, 2, .lk, 0⟩
def twCfg0_BGPD : Fld := ⟨570, .twCfg0, 42, 1, .lk, 0⟩
def twCfg0_HOLDOFF : Fld := ⟨571, .twCfg0, 30, 12, .lk, 0⟩
def twCfg0_MATCHN : Fld := ⟨572, .twCfg0, 22, 8, .lk, 0⟩
def twCfg0_LISTEN : Fld := ⟨573, .twCfg0, 12, 10, .lk, 0⟩
def twCfg0_CANMASK : Fld := ⟨574, .twCfg0, 8, 4, .lk, 0⟩
/-- `TW.CFG1` (17 R312). -/ def twCfg1_OUTLO : Fld := ⟨575, .twCfg1, 0, 48, .lk, 0⟩
/-- `TW.CFG2` (17 R312/R318). -/ def twCfg2_OUTHI : Fld := ⟨576, .twCfg2, 32, 16, .lk, 0⟩
def twCfg2_PIOMASK : Fld := ⟨577, .twCfg2, 0, 32, .lk, 0⟩
/-- `TW.CFG3` (17 R319). -/ def twCfg3_PAIRMAC : Fld := ⟨578, .twCfg3, 0, 48, .lk, 0⟩
/-- `TW.CFG4` (17 R319). -/ def twCfg4_ZGPER : Fld := ⟨579, .twCfg4, 38, 10, .lk, 0⟩
def twCfg4_ZGCLS : Fld := ⟨580, .twCfg4, 30, 8, .lk, 0⟩
/-- `TW.CFG5` (17 R320). -/ def twCfg5_MODE0 : Fld := ⟨581, .twCfg5, 10, 2, .lk, 0⟩
def twCfg5_PA0 : Fld := ⟨582, .twCfg5, 6, 4, .lk, 0⟩
def twCfg5_PB0 : Fld := ⟨583, .twCfg5, 2, 4, .lk, 0⟩
def twCfg5_MODE1 : Fld := ⟨584, .twCfg5, 22, 2, .lk, 0⟩
def twCfg5_PA1 : Fld := ⟨585, .twCfg5, 18, 4, .lk, 0⟩
def twCfg5_PB1 : Fld := ⟨586, .twCfg5, 14, 4, .lk, 0⟩
def twCfg5_MODE2 : Fld := ⟨587, .twCfg5, 34, 2, .lk, 0⟩
def twCfg5_PA2 : Fld := ⟨588, .twCfg5, 30, 4, .lk, 0⟩
def twCfg5_PB2 : Fld := ⟨589, .twCfg5, 26, 4, .lk, 0⟩
def twCfg5_MODE3 : Fld := ⟨590, .twCfg5, 46, 2, .lk, 0⟩
def twCfg5_PA3 : Fld := ⟨591, .twCfg5, 42, 4, .lk, 0⟩
def twCfg5_PB3 : Fld := ⟨592, .twCfg5, 38, 4, .lk, 0⟩
/-- `TW.CTL` (17 R314/R317). -/ def twCtl_NOREV : Fld := ⟨593, .twCtl, 10, 1, .rw, 0⟩
def twCtl_YMASK : Fld := ⟨594, .twCtl, 2, 8, .rw, 0xff⟩
def twCtl_STEST : Fld := ⟨595, .twCtl, 1, 1, .wo, 0⟩
def twCtl_HOLD : Fld := ⟨596, .twCtl, 0, 1, .rw, 0⟩
/-- `TW.STAT` (17 R309-R315). -/ def twStat_HEALTH : Fld := ⟨597, .twStat, 40, 8, .ro, 0⟩
def twStat_MATCH : Fld := ⟨598, .twStat, 32, 8, .ro, 0⟩
def twStat_ROLE : Fld := ⟨599, .twStat, 29, 3, .ro, 0⟩
def twStat_PROLE : Fld := ⟨600, .twStat, 26, 3, .ro, 0⟩
def twStat_CAUSE : Fld := ⟨601, .twStat, 23, 3, .ro, 0⟩
def twStat_TST : Fld := ⟨602, .twStat, 21, 2, .ro, 0⟩
def twStat_LINK : Fld := ⟨603, .twStat, 20, 1, .ro, 0⟩
def twStat_SUSP : Fld := ⟨604, .twStat, 19, 1, .ro, 0⟩
def twStat_SPLIT : Fld := ⟨605, .twStat, 18, 1, .ro, 0⟩
/-- `TW.EVT` (17 R310-R315). -/ def twEvt_IE : Fld := ⟨606, .twEvt, 16, 8, .rw, 0⟩
def twEvt_CFGDIFF : Fld := ⟨607, .twEvt, 6, 1, .w1c, 0⟩
def twEvt_SPLIT : Fld := ⟨608, .twEvt, 5, 1, .w1c, 0⟩
def twEvt_BOTHF : Fld := ⟨609, .twEvt, 4, 1, .w1c, 0⟩
def twEvt_UNRES : Fld := ⟨610, .twEvt, 3, 1, .w1c, 0⟩
def twEvt_YIELD : Fld := ⟨611, .twEvt, 2, 1, .w1c, 0⟩
def twEvt_TAKE : Fld := ⟨612, .twEvt, 1, 1, .w1c, 0⟩
def twEvt_LINKCHG : Fld := ⟨613, .twEvt, 0, 1, .w1c, 0⟩
/-- `TW.CNT0` (17 R313/R317). -/ def twCnt0_MISM : Fld := ⟨614, .twCnt0, 36, 12, .rc, 0⟩
def twCnt0_UNRES : Fld := ⟨615, .twCnt0, 24, 12, .rc, 0⟩
def twCnt0_TAKEN : Fld := ⟨616, .twCnt0, 12, 12, .rc, 0⟩
def twCnt0_SWREF : Fld := ⟨617, .twCnt0, 0, 12, .rc, 0⟩
/-- `TW.CNT1` (17 R319/R321). -/ def twCnt1_DUP : Fld := ⟨618, .twCnt1, 24, 24, .rc, 0⟩
def twCnt1_OOW : Fld := ⟨619, .twCnt1, 16, 8, .rc, 0⟩
def twCnt1_TBLF : Fld := ⟨620, .twCnt1, 8, 8, .rc, 0⟩
def twCnt1_SUPP : Fld := ⟨621, .twCnt1, 0, 8, .rc, 0⟩
/-- `TW.DIG` (17 R312). -/ def twDig_DIGEST : Fld := ⟨622, .twDig, 16, 32, .ro, 0⟩
def twDig_N : Fld := ⟨623, .twDig, 0, 16, .ro, 0⟩
/-- `ST[n].CFG` (06 R112/R127). -/ def stCfg_TACK : Fld := ⟨624, .stCfg, 40, 8, .ro, 0⟩
def stCfg_ENTRY : Fld := ⟨625, .stCfg, 24, 16, .lk, 0⟩
def stCfg_EN : Fld := ⟨626, .stCfg, 16, 1, .ro, 0⟩
/-- `ST[n].CTL` (06 R111/R112/R126). -/ def stCtl_RELD : Fld := ⟨627, .stCtl, 3, 1, .ro, 0⟩
def stCtl_WAKE : Fld := ⟨628, .stCtl, 2, 1, .wo, 0⟩
def stCtl_LOAD : Fld := ⟨629, .stCtl, 1, 1, .rw, 0⟩
def stCtl_RELEASE : Fld := ⟨630, .stCtl, 0, 1, .wo, 0⟩
/-- `ST[n].SCHED` (06 R118-R125). -/ def stSched_QUANT : Fld := ⟨631, .stSched, 36, 12, .sh, 0⟩
def stSched_XCOST : Fld := ⟨632, .stSched, 24, 12, .sh, 0⟩
def stSched_GATEIDLE : Fld := ⟨633, .stSched, 16, 8, .sh, 0⟩
def stSched_LATEDST : Fld := ⟨634, .stSched, 8, 8, .sh, 0⟩
/-- `ST[n].DQSTAT` (06 R116-R126). -/ def stDqstat_OVF : Fld := ⟨635, .stDqstat, 32, 9, .ro, 0⟩
def stDqstat_IDLE : Fld := ⟨636, .stDqstat, 24, 8, .ro, 0⟩
def stDqstat_RUNU0 : Fld := ⟨637, .stDqstat, 16, 8, .ro, 0⟩
def stDqstat_LATEN : Fld := ⟨638, .stDqstat, 6, 5, .ro, 0⟩
def stDqstat_HIST : Fld := ⟨639, .stDqstat, 5, 1, .ro, 0⟩
def stDqstat_GATED : Fld := ⟨640, .stDqstat, 4, 1, .ro, 0⟩
def stDqstat_WAKEP : Fld := ⟨641, .stDqstat, 3, 1, .ro, 0⟩
/-- `ST[n].LATE0` (06 R121). -/ def stLate0_W0 : Fld := ⟨642, .stLate0, 0, 48, .ro, 0⟩
/-- `ST[n].LATE1` (06 R121). -/ def stLate1_W1 : Fld := ⟨643, .stLate1, 0, 48, .rc, 0⟩
/-- `ST[n].CNT0` (06 R113-R118). -/ def stCnt0_DONE : Fld := ⟨644, .stCnt0, 32, 16, .rc, 0⟩
def stCnt0_STEALIN : Fld := ⟨645, .stCnt0, 16, 16, .rc, 0⟩
def stCnt0_STEALOUT : Fld := ⟨646, .stCnt0, 0, 16, .rc, 0⟩
/-- `ST[n].CNT1` (06 R121/R122). -/ def stCnt1_LATE : Fld := ⟨647, .stCnt1, 32, 16, .rc, 0⟩
def stCnt1_OVERRUN : Fld := ⟨648, .stCnt1, 16, 16, .rc, 0⟩
def stCnt1_PREEMPT : Fld := ⟨649, .stCnt1, 0, 16, .rc, 0⟩
/-- `ST[n].CNT2` (06 R115/R124). -/ def stCnt2_FULL : Fld := ⟨650, .stCnt2, 32, 16, .rc, 0⟩
def stCnt2_DEFER : Fld := ⟨651, .stCnt2, 16, 16, .rc, 0⟩
/-- `ST[n].ENGSTAT[e]` (06 R119). -/ def stEngstat_BUSY : Fld := ⟨652, .stEngstat, 36, 12, .ro, 0⟩
def stEngstat_RUNT : Fld := ⟨653, .stEngstat, 20, 16, .ro, 0⟩
def stEngstat_UC : Fld := ⟨654, .stEngstat, 18, 2, .ro, 0⟩
def stEngstat_TV : Fld := ⟨655, .stEngstat, 17, 1, .ro, 0⟩
def stEngstat_DEPTH : Fld := ⟨656, .stEngstat, 12, 5, .ro, 0⟩
/-- `ST[n].BANK[b]` (07 R139-R141). -/ def stBank_NEXT : Fld := ⟨657, .stBank, 32, 9, .sh, 0⟩
def stBank_XPEND : Fld := ⟨658, .stBank, 28, 1, .ro, 0⟩
def stBank_DISP : Fld := ⟨659, .stBank, 24, 4, .ro, 0⟩
def stBank_XTO : Fld := ⟨660, .stBank, 12, 9, .wo, 0⟩
def stBank_XGO : Fld := ⟨661, .stBank, 11, 1, .wo, 0⟩
def stBank_OWNER : Fld := ⟨662, .stBank, 0, 9, .ro, 0⟩
/-- `ST[n].LCONF0-LCONF3` (07 R135). -/ def stLconf_C0 : Fld := ⟨663, .stLconf, 32, 16, .rc, 0⟩
def stLconf_C1 : Fld := ⟨664, .stLconf, 16, 16, .rc, 0⟩
def stLconf_C2 : Fld := ⟨665, .stLconf, 0, 16, .rc, 0⟩
/-- `ST[n].LCONF4` (07 R134). -/ def stLconf4_DPCOL : Fld := ⟨666, .stLconf4, 0, 16, .rc, 0⟩
/-- `ST[n].MEMERR` (07 R137/R144/R147). -/ def stMemerr_CE : Fld := ⟨667, .stMemerr, 36, 12, .rc, 0⟩
def stMemerr_UE : Fld := ⟨668, .stMemerr, 24, 12, .rc, 0⟩
def stMemerr_PWPOIS : Fld := ⟨669, .stMemerr, 12, 12, .rc, 0⟩
def stMemerr_DENY : Fld := ⟨670, .stMemerr, 0, 12, .rc, 0⟩
/-- `ST[n].MEMLOG` (07 R144). -/ def stMemlog_WHERE : Fld := ⟨671, .stMemlog, 44, 4, .ro, 0⟩
def stMemlog_ENGINE : Fld := ⟨672, .stMemlog, 41, 3, .ro, 0⟩
def stMemlog_POIS : Fld := ⟨673, .stMemlog, 40, 1, .ro, 0⟩
def stMemlog_SYN : Fld := ⟨674, .stMemlog, 32, 8, .ro, 0⟩
def stMemlog_UEIE : Fld := ⟨675, .stMemlog, 31, 1, .rw, 0⟩
def stMemlog_VALID : Fld := ⟨676, .stMemlog, 30, 1, .w1c, 0⟩
def stMemlog_ADDR : Fld := ⟨677, .stMemlog, 0, 16, .ro, 0⟩
/-- `ST[n].PMARK` (07 R149). -/ def stPmark_GO : Fld := ⟨678, .stPmark, 16, 1, .wo, 0⟩
def stPmark_ADDR : Fld := ⟨679, .stPmark, 0, 16, .wo, 0⟩
/-- `ST[n].DBGCTL[e]` (05 R108). -/ def dbgCtl_DXIE : Fld := ⟨680, .dbgCtl, 5, 1, .rw, 0⟩
def dbgCtl_BPEN : Fld := ⟨681, .dbgCtl, 4, 1, .rw, 0⟩
def dbgCtl_STEP : Fld := ⟨682, .dbgCtl, 3, 1, .wo, 0⟩
def dbgCtl_RUN : Fld := ⟨683, .dbgCtl, 2, 1, .wo, 0⟩
def dbgCtl_HALT : Fld := ⟨684, .dbgCtl, 1, 1, .wo, 0⟩
/-- `ST[n].DBGSTAT[e]` (05 R99/R108). -/ def dbgStat_PC : Fld := ⟨685, .dbgStat, 16, 16, .ro, 0⟩
def dbgStat_XCLASS : Fld := ⟨686, .dbgStat, 12, 4, .ro, 0⟩
def dbgStat_HALTED : Fld := ⟨687, .dbgStat, 7, 1, .ro, 0⟩
def dbgStat_WHY : Fld := ⟨688, .dbgStat, 4, 3, .ro, 0⟩
def dbgStat_EXL : Fld := ⟨689, .dbgStat, 3, 1, .ro, 0⟩
def dbgStat_DX : Fld := ⟨690, .dbgStat, 2, 1, .w1c, 0⟩
/-- `ST[n].DBGSEL[e]` (05 R108). -/ def dbgSel_REG : Fld := ⟨691, .dbgSel, 0, 6, .rw, 0⟩
/-- `ST[n].DBGDATA[e]` (05 R108). -/ def dbgData_DATA : Fld := ⟨692, .dbgData, 0, 48, .rw, 0⟩
/-- `ST[n].DBGBP[e]` (05 R109). -/ def dbgBp_ADDR : Fld := ⟨693, .dbgBp, 0, 16, .rw, 0⟩
/-- `ST[n].EIRQ[e]` (05 R103/R104). -/ def eirq_EN : Fld := ⟨694, .eirq, 16, 16, .rw, 0⟩
def eirq_PEND : Fld := ⟨695, .eirq, 0, 16, .w1c, 0⟩
/-- `ST[n].EIRQS[e]` (05 R104). -/ def eirqs_SET : Fld := ⟨696, .eirqs, 0, 16, .w1s, 0⟩
/-- `MG.INST` (09 R171/R184). -/ def mgInst_ETYPE : Fld := ⟨697, .mgInst, 24, 16, .sh, 0⟩
def mgInst_CYC : Fld := ⟨698, .mgInst, 0, 23, .sh, 0⟩
/-- `MG.PH` (09 R171). -/ def mgPh_PH : Fld := ⟨699, .mgPh, 0, 23, .sh, 0⟩
/-- `MG.INSTAT` (09 R171-R173). -/ def mgInstat_N : Fld := ⟨700, .mgInstat, 8, 32, .ro, 0⟩
def mgInstat_SYNC : Fld := ⟨701, .mgInstat, 3, 2, .ro, 0⟩
def mgInstat_JUMP : Fld := ⟨702, .mgInstat, 2, 1, .w1c, 0⟩
def mgInstat_RUN : Fld := ⟨703, .mgInstat, 0, 1, .ro, 0⟩
/-- `MG.CNT` (09 R173-R182). -/ def mgCnt_SKIP : Fld := ⟨704, .mgCnt, 40, 8, .rc, 0⟩
def mgCnt_PSKIP : Fld := ⟨705, .mgCnt, 32, 8, .rc, 0⟩
def mgCnt_SDROP : Fld := ⟨706, .mgCnt, 24, 8, .rc, 0⟩
def mgCnt_SINC : Fld := ⟨707, .mgCnt, 16, 8, .rc, 0⟩
def mgCnt_LATE : Fld := ⟨708, .mgCnt, 8, 8, .rc, 0⟩
def mgCnt_OVWR : Fld := ⟨709, .mgCnt, 0, 8, .rc, 0⟩
/-- `MG.MEMERR` (09 R176-R180). -/ def mgMemerr_CE : Fld := ⟨710, .mgMemerr, 36, 12, .rc, 0⟩
def mgMemerr_UE : Fld := ⟨711, .mgMemerr, 24, 12, .rc, 0⟩
def mgMemerr_PWPOIS : Fld := ⟨712, .mgMemerr, 12, 12, .rc, 0⟩
def mgMemerr_DENY : Fld := ⟨713, .mgMemerr, 0, 12, .rc, 0⟩
/-- `MG.CNT1` (09 R182). -/ def mgCnt1_AGEDN : Fld := ⟨714, .mgCnt1, 0, 8, .rc, 0⟩
/-- `MG.RGN[k].CFG0` (09 R175-R179). -/ def mgCfg0_BASE : Fld := ⟨715, .mgCfg0, 31, 17, .sh, 0⟩
def mgCfg0_SIZE : Fld := ⟨716, .mgCfg0, 18, 13, .sh, 0⟩
def mgCfg0_OWNER : Fld := ⟨717, .mgCfg0, 9, 9, .sh, 0⟩
def mgCfg0_KIND : Fld := ⟨718, .mgCfg0, 7, 2, .sh, 0⟩
def mgCfg0_TRIPLE : Fld := ⟨719, .mgCfg0, 6, 1, .sh, 0⟩
def mgCfg0_ANYRD : Fld := ⟨720, .mgCfg0, 5, 1, .sh, 0⟩
def mgCfg0_FAILV : Fld := ⟨721, .mgCfg0, 3, 2, .sh, 0⟩
/-- `MG.RGN[k].CFG1` (09 R177-R181). -/ def mgCfg1_SRC : Fld := ⟨722, .mgCfg1, 46, 2, .sh, 0⟩
def mgCfg1_SSDN : Fld := ⟨723, .mgCfg1, 36, 10, .sh, 0⟩
def mgCfg1_SRGN : Fld := ⟨724, .mgCfg1, 30, 6, .sh, 0⟩
def mgCfg1_MAXAGE : Fld := ⟨725, .mgCfg1, 26, 4, .sh, 0⟩
def mgCfg1_NEN : Fld := ⟨726, .mgCfg1, 25, 1, .sh, 0⟩
def mgCfg1_NENG : Fld := ⟨727, .mgCfg1, 18, 7, .sh, 0⟩
/-- `MG.RGN[k].CFG2` (09 R180). -/ def mgCfg2_PUB : Fld := ⟨728, .mgCfg2, 46, 2, .sh, 0⟩
def mgCfg2_VID : Fld := ⟨729, .mgCfg2, 34, 12, .sh, 0⟩
def mgCfg2_PCP : Fld := ⟨730, .mgCfg2, 31, 3, .sh, 0⟩
/-- `MG.RGN[k].CFG3` (09 R180). -/ def mgCfg3_DA : Fld := ⟨731, .mgCfg3, 0, 48, .sh, 0⟩
/-- `MG.RGN[k].CTL` (09 R177). -/ def mgCtl_DONE : Fld := ⟨732, .mgCtl, 0, 1, .wo, 0⟩
/-- `MG.RGN[k].STAT` (09 R178-R182). -/ def mgStat_TAG : Fld := ⟨733, .mgStat, 16, 32, .ro, 0⟩
def mgStat_AGE : Fld := ⟨734, .mgStat, 12, 4, .ro, 0⟩
def mgStat_BDISP : Fld := ⟨735, .mgStat, 8, 4, .ro, 0⟩
def mgStat_TV : Fld := ⟨736, .mgStat, 6, 1, .ro, 0⟩
def mgStat_NEW : Fld := ⟨737, .mgStat, 5, 1, .ro, 0⟩
def mgStat_AGED : Fld := ⟨738, .mgStat, 4, 1, .ro, 0⟩
def mgStat_PSYNC : Fld := ⟨739, .mgStat, 3, 1, .ro, 0⟩
def mgStat_PAGED : Fld := ⟨740, .mgStat, 2, 1, .ro, 0⟩
def mgStat_PHELD : Fld := ⟨741, .mgStat, 1, 1, .ro, 0⟩
/-- `FN[f].CFG` (03 R61 (R35 word 0)). -/ def fnCfg_KEEPAWAKE : Fld := ⟨742, .fnCfg, 37, 1, .sh, 0⟩
def fnCfg_DRAIN : Fld := ⟨743, .fnCfg, 36, 1, .sh, 0⟩
def fnCfg_ICCLASS : Fld := ⟨744, .fnCfg, 34, 2, .sh, 0⟩
def fnCfg_VF : Fld := ⟨745, .fnCfg, 30, 4, .sh, 0⟩
def fnCfg_AFFINITY : Fld := ⟨746, .fnCfg, 14, 16, .sh, 0⟩
/-- `FN[f].SHARE` (03 R61 (R35 word 1)). -/ def fnShare_MINSHARE : Fld := ⟨747, .fnShare, 36, 12, .sh, 0⟩
def fnShare_MAXSHARE : Fld := ⟨748, .fnShare, 24, 12, .sh, 0⟩
def fnShare_TASKLIM : Fld := ⟨749, .fnShare, 11, 13, .sh, 0⟩
/-- `FN[f].QUOTA` (03 R61 (R35 word 2)). -/ def fnQuota_CELLS : Fld := ⟨750, .fnQuota, 33, 15, .sh, 0⟩
def fnQuota_BANKS : Fld := ⟨751, .fnQuota, 24, 9, .sh, 0⟩
def fnQuota_REGIONS : Fld := ⟨752, .fnQuota, 17, 7, .sh, 0⟩
def fnQuota_MBOXES : Fld := ⟨753, .fnQuota, 6, 11, .sh, 0⟩
/-- `FN[f].BUDGET` (03 R61 (R35 word 3)). -/ def fnBudget_BUDGET : Fld := ⟨754, .fnBudget, 36, 12, .sh, 0⟩
/-- `FN[f].NAME0, NAME1` (03 R61 (R35 words 4-5)). -/ def fnName_NAME : Fld := ⟨755, .fnName, 0, 48, .sh, 0⟩
/-- `FN[f].STATUS` (03 R51-R60). -/ def fnStatus_INC : Fld := ⟨756, .fnStatus, 32, 8, .ro, 0⟩
def fnStatus_OVERQ : Fld := ⟨757, .fnStatus, 16, 7, .ro, 0⟩
def fnStatus_RSTPEND : Fld := ⟨758, .fnStatus, 11, 1, .ro, 0⟩
def fnStatus_RSTDONE : Fld := ⟨759, .fnStatus, 10, 1, .w1c, 0⟩
def fnStatus_OVQEV : Fld := ⟨760, .fnStatus, 9, 1, .w1c, 0⟩
def fnStatus_STATE : Fld := ⟨761, .fnStatus, 0, 3, .ro, 0⟩
/-- `FN[f].CTL` (03 R57). -/ def fnCtl_RSTIE : Fld := ⟨762, .fnCtl, 9, 1, .rw, 0⟩
def fnCtl_OVQIE : Fld := ⟨763, .fnCtl, 8, 1, .rw, 0⟩
def fnCtl_RELEASE : Fld := ⟨764, .fnCtl, 1, 1, .wo, 0⟩
def fnCtl_RESET : Fld := ⟨765, .fnCtl, 0, 1, .wo, 0⟩
/-- `FN[f].USE0` (03 R50). -/ def fnUse0_TASKS : Fld := ⟨766, .fnUse0, 35, 13, .ro, 0⟩
def fnUse0_CELLS : Fld := ⟨767, .fnUse0, 20, 15, .ro, 0⟩
def fnUse0_TOKENS : Fld := ⟨768, .fnUse0, 8, 12, .ro, 0⟩
/-- `FN[f].USE1` (03 R50). -/ def fnUse1_BANKS : Fld := ⟨769, .fnUse1, 39, 9, .ro, 0⟩
def fnUse1_REGIONS : Fld := ⟨770, .fnUse1, 32, 7, .ro, 0⟩
def fnUse1_MBOXES : Fld := ⟨771, .fnUse1, 21, 11, .ro, 0⟩
/-- `FN[f].CNT` (03 R63). -/ def fnCnt_STALE : Fld := ⟨772, .fnCnt, 32, 16, .rc, 0⟩
def fnCnt_ABANDON : Fld := ⟨773, .fnCnt, 16, 16, .rc, 0⟩
def fnCnt_REFQ : Fld := ⟨774, .fnCnt, 0, 16, .rc, 0⟩
/-- `MB[m].ENDA, ENDB` (08 R153/R155). -/ def mbEnd_KIND : Fld := ⟨775, .mbEnd, 46, 2, .sh, 0⟩
def mbEnd_ID : Fld := ⟨776, .mbEnd, 37, 9, .sh, 0⟩
def mbEnd_AUTO : Fld := ⟨777, .mbEnd, 36, 1, .sh, 0⟩
def mbEnd_DBT : Fld := ⟨778, .mbEnd, 25, 11, .sh, 0⟩
/-- `MB[m].CTL` (08 R155/R161). -/ def mbCtl_BDISP : Fld := ⟨779, .mbCtl, 24, 4, .ro, 0⟩
def mbCtl_STO : Fld := ⟨780, .mbCtl, 0, 20, .rw, 0x3e8⟩
/-- `MB[m].PEER` (08 R160). -/ def mbPeer_INCA : Fld := ⟨781, .mbPeer, 40, 8, .ro, 0⟩
def mbPeer_STATEA : Fld := ⟨782, .mbPeer, 37, 3, .ro, 0⟩
def mbPeer_SLPA : Fld := ⟨783, .mbPeer, 36, 1, .ro, 0⟩
def mbPeer_INCB : Fld := ⟨784, .mbPeer, 16, 8, .ro, 0⟩
def mbPeer_STATEB : Fld := ⟨785, .mbPeer, 13, 3, .ro, 0⟩
def mbPeer_SLPB : Fld := ⟨786, .mbPeer, 12, 1, .ro, 0⟩
/-- `MB[m].STATA, STATB` (08 R157-R162). -/ def mbStat_WDISP : Fld := ⟨787, .mbStat, 44, 4, .ro, 0⟩
def mbStat_HV : Fld := ⟨788, .mbStat, 40, 1, .ro, 0⟩
def mbStat_HINC : Fld := ⟨789, .mbStat, 32, 8, .ro, 0⟩
def mbStat_TXN : Fld := ⟨790, .mbStat, 20, 4, .ro, 0⟩
def mbStat_RXN : Fld := ⟨791, .mbStat, 16, 4, .ro, 0⟩
def mbStat_RESYNC : Fld := ⟨792, .mbStat, 7, 1, .wo, 0⟩
def mbStat_RXV : Fld := ⟨793, .mbStat, 6, 1, .ro, 0⟩
def mbStat_SOFF : Fld := ⟨794, .mbStat, 5, 1, .w1c, 0⟩
def mbStat_DB : Fld := ⟨795, .mbStat, 4, 1, .w1c, 0⟩
def mbStat_COL : Fld := ⟨796, .mbStat, 3, 1, .w1c, 0⟩
def mbStat_FULL : Fld := ⟨797, .mbStat, 2, 1, .ro, 0⟩
def mbStat_EMPTY : Fld := ⟨798, .mbStat, 1, 1, .ro, 1⟩
def mbStat_RING : Fld := ⟨799, .mbStat, 0, 1, .wo, 0⟩
/-- `MB[m].TXA, TXB` (08 R157). -/ def mbTx_DATA : Fld := ⟨800, .mbTx, 0, 48, .wo, 0⟩
/-- `MB[m].RXA, RXB` (08 R159). -/ def mbRx_DATA : Fld := ⟨801, .mbRx, 0, 48, .rc, 0⟩
/-- `MB[m].CNT` (08 R158/R155). -/ def mbCnt_PREA : Fld := ⟨802, .mbCnt, 36, 12, .rc, 0⟩
def mbCnt_PREB : Fld := ⟨803, .mbCnt, 24, 12, .rc, 0⟩
def mbCnt_ABNA : Fld := ⟨804, .mbCnt, 12, 12, .rc, 0⟩
def mbCnt_ABNB : Fld := ⟨805, .mbCnt, 0, 12, .rc, 0⟩
/-- `MB.MEMERR` (08 R156/R159). -/ def mbMemerr_CE : Fld := ⟨806, .mbMemerr, 36, 12, .rc, 0⟩
def mbMemerr_UE : Fld := ⟨807, .mbMemerr, 24, 12, .rc, 0⟩
def mbMemerr_PWPOIS : Fld := ⟨808, .mbMemerr, 12, 12, .rc, 0⟩
def mbMemerr_DENY : Fld := ⟨809, .mbMemerr, 0, 12, .rc, 0⟩
/-- `IC[t].LVL` (08 R165/R166). -/ def icLvl_LVL : Fld := ⟨810, .icLvl, 0, 38, .sh, 0x200000000⟩
/-- `IC[t].USEF` (08 R165). -/ def icUsef_USEF : Fld := ⟨811, .icUsef, 0, 19, .sh, 0x7ffff⟩
/-- `IC[t].STARV` (08 R169). -/ def icStarv_SIE : Fld := ⟨812, .icStarv, 31, 1, .rw, 0⟩
def icStarv_LIMIT : Fld := ⟨813, .icStarv, 0, 16, .rw, 0x1000⟩
/-- `IC[t].SFLAG` (08 R169). -/ def icSflag_SFLAG : Fld := ⟨814, .icSflag, 0, 19, .w1c, 0⟩
/-- `IC[t].CNT` (08 R167/R169). -/ def icCnt_DEAD : Fld := ⟨815, .icCnt, 16, 16, .rc, 0⟩
def icCnt_STARVN : Fld := ⟨816, .icCnt, 0, 16, .rc, 0⟩
/-- `<block>.COMMIT` (02 R40-R43). -/ def commit_CSEQ : Fld := ⟨817, .commit, 16, 16, .ro, 0⟩
def commit_BOUND : Fld := ⟨818, .commit, 4, 4, .ro, 0⟩
def commit_DIRTY : Fld := ⟨819, .commit, 3, 1, .ro, 0⟩
def commit_INST : Fld := ⟨820, .commit, 2, 1, .rw, 0⟩
def commit_PEND : Fld := ⟨821, .commit, 1, 1, .ro, 0⟩
def commit_GO : Fld := ⟨822, .commit, 0, 1, .wo, 0⟩
end F

/-- The fields of each register. -/
def RegId.flds : RegId → List Fld
  | .gcUnmap => [F.gcUnmap_CNT, F.gcUnmap_ADDR]
  | .gcLaystat => [F.gcLaystat_SECT, F.gcLaystat_APPLIED, F.gcLaystat_HALTER, F.gcLaystat_APPLYING,
      F.gcLaystat_DONE, F.gcLaystat_FAIL, F.gcLaystat_CLASH, F.gcLaystat_SRC, F.gcLaystat_ERR]
  | .gcLdctl => [F.gcLdctl_FAILIE, F.gcLdctl_DONEIE, F.gcLdctl_APPLY]
  | .gcLayver => [F.gcLayver_VER]
  | .gcKeyslot => [F.gcKeyslot_WRITTEN, F.gcKeyslot_REVOKED, F.gcKeyslot_BUSY, F.gcKeyslot_DISP]
  | .gcKeydata => [F.gcKeydata_DATA]
  | .gcKeyprog => [F.gcKeyprog_SLOT, F.gcKeyprog_OP]
  | .gcBootcause => [F.gcBootcause_RSTSRC, F.gcBootcause_TRIES, F.gcBootcause_CODE, F.gcBootcause_ERR,
      F.gcBootcause_SECT, F.gcBootcause_DETAIL, F.gcBootcause_CLR]
  | .gcBootctl => [F.gcBootctl_HICNT, F.gcBootctl_HIRST, F.gcBootctl_BOOTCPL]
  | .gcHimg => [F.gcHimg_DATA]
  | .gcIntsum => [F.gcIntsum_DB, F.gcIntsum_SRC]
  | .gcIntctl => [F.gcIntctl_PINEN]
  | .pwCfg0 => [F.pwCfg0_REQCLS, F.pwCfg0_SRCPRI, F.pwCfg0_RIDE, F.pwCfg0_KEEPDLY, F.pwCfg0_VBAKLO]
  | .pwCfg1 => [F.pwCfg1_WAKEMASK, F.pwCfg1_PSINIT]
  | .pwSrc => [F.pwSrc_VBAK, F.pwSrc_ON, F.pwSrc_HSM, F.pwSrc_DEB, F.pwSrc_PDG, F.pwSrc_AUXG, F.pwSrc_BAKG,
      F.pwSrc_SCLS, F.pwSrc_ACLS, F.pwSrc_PDPORT, F.pwSrc_PFAIL]
  | .pwPsreq => [F.pwPsreq_TARGET]
  | .pwPstat => [F.pwPstat_STATE, F.pwPstat_TRANS, F.pwPstat_TO, F.pwPstat_HV, F.pwPstat_HELD, F.pwPstat_LDISP,
      F.pwPstat_HDISP, F.pwPstat_FORCED, F.pwPstat_PART, F.pwPstat_WCAUSE]
  | .pwEvt => [F.pwEvt_IE, F.pwEvt_OVLD, F.pwEvt_WAKE, F.pwEvt_PREEMPT, F.pwEvt_PSDONE, F.pwEvt_VBAKLOW,
      F.pwEvt_BOUNCE, F.pwEvt_HANDBACK, F.pwEvt_ONBAK]
  | .pwCnt => [F.pwCnt_BOUNCE, F.pwCnt_HANDOVER, F.pwCnt_PREEMPT, F.pwCnt_REPLAY]
  | .pwOctl => [F.pwOctl_CAP, F.pwOctl_RAMPINT, F.pwOctl_WAITMAX]
  | .pwOstat => [F.pwOstat_EST, F.pwOstat_BASE, F.pwOstat_QLEN, F.pwOstat_CAL]
  | .pwOcnt => [F.pwOcnt_GRANT, F.pwOcnt_DEFER, F.pwOcnt_REFB, F.pwOcnt_REFF]
  | .pwKsec => [F.pwKsec_ALM, F.pwKsec_SEC]
  | .pwOcost => [F.pwOcost_WORST, F.pwOcost_CALV]
  | .pwLease => [F.pwLease_FN, F.pwLease_INC, F.pwLease_COUNT, F.pwLease_DISP, F.pwLease_STATE, F.pwLease_CANC,
      F.pwLease_REL, F.pwLease_REQ]
  | .faCfg0 => [F.faCfg0_AVSEN, F.faCfg0_TELDST, F.faCfg0_BOOTWD, F.faCfg0_TELVID, F.faCfg0_TELPCP]
  | .faTelda => [F.faTelda_DA]
  | .faFlcmd => [F.faFlcmd_SECTOR, F.faFlcmd_OP, F.faFlcmd_UNPROT, F.faFlcmd_TELIE, F.faFlcmd_FLIE]
  | .faFlstat => [F.faFlstat_ERCNT, F.faFlstat_DISP, F.faFlstat_BUSY, F.faFlstat_DONE]
  | .faHealth => [F.faHealth_TEMP, F.faHealth_VCORE, F.faHealth_CALSKIP, F.faHealth_LOGDROP, F.faHealth_CALDONE]
  | .faAge => [F.faAge_AGE, F.faAge_FREQ]
  | .faTelrec => [F.faTelrec_WORD]
  | .faFlbuf => [F.faFlbuf_DATA]
  | .ckCfg0 => [F.ckCfg0_LANEEN, F.ckCfg0_CLKOUT]
  | .ckStat => [F.ckStat_LOLCNT, F.ckStat_BOOTSRC, F.ckStat_LOCK]
  | .ckRstctl => [F.ckRstctl_KEY, F.ckRstctl_CLRTRY, F.ckRstctl_SWRST]
  | .tmEvt => [F.tmEvt_IE, F.tmEvt_LQLATE, F.tmEvt_PGMISS, F.tmEvt_REVERSE, F.tmEvt_HOLD, F.tmEvt_LOCKCHG,
      F.tmEvt_INCLIM, F.tmEvt_SREF, F.tmEvt_STEP]
  | .tmTknow => [F.tmTknow_TK]
  | .tmCapctl => [F.tmCapctl_SEL, F.tmCapctl_AUTO, F.tmCapctl_NOW]
  | .tmCaptk => [F.tmCaptk_SEQ, F.tmCaptk_TK]
  | .tmCapsec => [F.tmCapsec_SEC]
  | .tmCapns => [F.tmCapns_NSF]
  | .tcCfg => [F.tcCfg_OWNER]
  | .tcInc => [F.tcInc_INT, F.tcInc_FRAC]
  | .tcSecnow => [F.tcSecnow_SEC]
  | .tcNsnow => [F.tcNsnow_SECLO, F.tcNsnow_NSF]
  | .tcStepsec => [F.tcStepsec_SEC]
  | .tcStepns => [F.tcStepns_NS]
  | .tcCtl => [F.tcCtl_UNLOCK, F.tcCtl_REL, F.tcCtl_STEP]
  | .tcStat => [F.tcStat_SCNT, F.tcStat_SDISP, F.tcStat_STATE]
  | .svCfg0 => [F.svCfg0_EN, F.svCfg0_STEPEN, F.svCfg0_KPA, F.svCfg0_KIA, F.svCfg0_KP, F.svCfg0_KI,
      F.svCfg0_LOCKN]
  | .svCfg1 => [F.svCfg1_STEPTH, F.svCfg1_LOCKTH, F.svCfg1_RAMPW]
  | .svStat => [F.svStat_REMAIN, F.svStat_SELV, F.svStat_SEL, F.svStat_RAMP, F.svStat_FONLY, F.svStat_SEED]
  | .svOfs => [F.svOfs_NS, F.svOfs_FRAC]
  | .svYi => [F.svYi_PPB]
  | .svYavg => [F.svYavg_PPB]
  | .svCnt => [F.svCnt_STEPS, F.svCnt_SWITCH, F.svCnt_REVERSE, F.svCnt_LOCKLOSS]
  | .refCfg => [F.refCfg_KIND, F.refCfg_TGT, F.refCfg_TIMEOUT, F.refCfg_PARAM]
  | .refCtl => [F.refCtl_DIS, F.refCtl_RANK]
  | .refOfs => [F.refOfs_NS, F.refOfs_FRAC]
  | .refStat => [F.refStat_LAST, F.refStat_SELD, F.refStat_VALID]
  | .pgCfg => [F.pgCfg_EN, F.pgCfg_TCSEL, F.pgCfg_PIN, F.pgCfg_POL, F.pgCfg_WID]
  | .pgSsec => [F.pgSsec_SEC]
  | .pgSns => [F.pgSns_NS]
  | .pgPer => [F.pgPer_PER]
  | .pgStat => [F.pgStat_MISS, F.pgStat_LATEF, F.pgStat_DONE]
  | .tmLq => [F.tmLq_DEPTH, F.tmLq_LATE, F.tmLq_IGN]
  | .ydCfg => [F.ydCfg_AGETIME]
  | .ydStat => [F.ydStat_FREE, F.ydStat_MINFREE]
  | .ydCnt => [F.ydCnt_LRNFAIL, F.ydCnt_MOVE, F.ydCnt_NOBUF]
  | .ydAtkey => [F.ydAtkey_MAC]
  | .ydAtdata => [F.ydAtdata_VID, F.ydAtdata_VALID, F.ydAtdata_STATIC, F.ydAtdata_DLV, F.ydAtdata_FN,
      F.ydAtdata_PMASK]
  | .ydAtcmd => [F.ydAtcmd_RES, F.ydAtcmd_BUSY, F.ydAtcmd_OP]
  | .ydPcfg => [F.ydPcfg_PVID, F.ydPcfg_PPCP, F.ydPcfg_LEARN, F.ydPcfg_POUT, F.ydPcfg_CTEN, F.ydPcfg_CHGFN,
      F.ydPcfg_ACCEPT]
  | .ydPcpmap => [F.ydPcpmap_MAP]
  | .ydGctl => [F.ydGctl_EN, F.ydGctl_GDOM, F.ydGctl_LEN, F.ydGctl_IDX, F.ydGctl_OPER, F.ydGctl_PEND]
  | .ydGbase0 => [F.ydGbase0_SEC]
  | .ydGbase1 => [F.ydGbase1_NS]
  | .ydGcyc => [F.ydGcyc_CYC]
  | .ydPcnt => [F.ydPcnt_FILT, F.ydPcnt_FLOOD, F.ydPcnt_CTBAD, F.ydPcnt_GDROP, F.ydPcnt_UNMARK]
  | .ydQcfg => [F.ydQcfg_K, F.ydQcfg_MARK]
  | .ydQstat => [F.ydQstat_LEN, F.ydQstat_FRAMES, F.ydQstat_GOPEN]
  | .ydQcnt => [F.ydQcnt_REFUSE, F.ydQcnt_PUSHOUT, F.ydQcnt_MARK]
  | .ydGcl => [F.ydGcl_GATES, F.ydGcl_OP, F.ydGcl_INTERVAL]
  | .ydVlan => [F.ydVlan_VALID, F.ydVlan_LEARN, F.ydVlan_FLOODFN, F.ydVlan_FLDLV, F.ydVlan_UNTAG,
      F.ydVlan_MEMBER]
  | .ydFrx0 => [F.ydFrx0_KIND, F.ydFrx0_STBL, F.ydFrx0_BASE, F.ydFrx0_SLOTW, F.ydFrx0_NSLOT]
  | .ydFrx1 => [F.ydFrx1_U, F.ydFrx1_MIG, F.ydFrx1_EST, F.ydFrx1_ENTRY]
  | .ydFrx2 => [F.ydFrx2_NOSLOT, F.ydFrx2_TOOBIG, F.ydFrx2_TASKREF, F.ydFrx2_DENY]
  | .ydSub => [F.ydSub_ADDR]
  | .ydHtxbase => [F.ydHtxbase_BASE]
  | .ydHtxptr => [F.ydHtxptr_LOGN, F.ydHtxptr_TAIL, F.ydHtxptr_HEAD]
  | .ydHrxbase => [F.ydHrxbase_BASE]
  | .ydHrxptr => [F.ydHrxptr_LOGN, F.ydHrxptr_TAIL, F.ydHrxptr_HEAD, F.ydHrxptr_BUFSZ]
  | .epCfg0 => [F.epCfg0_IF, F.epCfg0_HDX, F.epCfg0_EEE, F.epCfg0_PREEMPT, F.epCfg0_PAUSEEN, F.epCfg0_T1LHI,
      F.epCfg0_TSDOM, F.epCfg0_EXPMASK, F.epCfg0_ADDFRAG, F.epCfg0_ADV]
  | .epCfg1 => [F.epCfg1_RXLAT, F.epCfg1_TXLAT]
  | .epCfg2 => [F.epCfg2_MAXFRM, F.epCfg2_TXTH0, F.epCfg2_LPIIDLE]
  | .epTxctl => [F.epTxctl_TXTH]
  | .epStat => [F.epStat_PD, F.epStat_MISMATCH, F.epStat_PAUSED, F.epStat_LPIRX, F.epStat_LPITX, F.epStat_PVS,
      F.epStat_HDXA, F.epStat_SPEED, F.epStat_T1LA, F.epStat_LINK]
  | .epEvt => [F.epEvt_IE, F.epEvt_PVFAIL, F.epEvt_TSOVF, F.epEvt_EXCOL, F.epEvt_LATECOL, F.epEvt_TXPOIS,
      F.epEvt_TXUND, F.epEvt_LINKCHG]
  | .epTxts0 => [F.epTxts0_COUNT, F.epTxts0_VALID, F.epTxts0_ERR, F.epTxts0_WAKE, F.epTxts0_TAG]
  | .epTxts1 => [F.epTxts1_SEC]
  | .epTxts2 => [F.epTxts2_NSF]
  | .epCnt0 => [F.epCnt0_RXOK, F.epCnt0_TXOK]
  | .epCnt1 => [F.epCnt1_RXFCS, F.epCnt1_RXLEN, F.epCnt1_RXFRAG]
  | .epCnt2 => [F.epCnt2_TXUND, F.epCnt2_TXPOIS, F.epCnt2_TXLDN]
  | .epCnt3 => [F.epCnt3_COL, F.epCnt3_LATECOL, F.epCnt3_EXCOL, F.epCnt3_PAUSERX]
  | .epCnt4 => [F.epCnt4_TSOVF, F.epCnt4_CTLRX, F.epCnt4_PREEMPT]
  | .epIpcfg0 => [F.epIpcfg0_EN, F.epIpcfg0_PA, F.epIpcfg0_PB, F.epIpcfg0_STBL, F.epIpcfg0_FN, F.epIpcfg0_M0,
      F.epIpcfg0_M1, F.epIpcfg0_COPY0, F.epIpcfg0_COPY1]
  | .epIpcfg1 => [F.epIpcfg1_DLY, F.epIpcfg1_RG0, F.epIpcfg1_RG1]
  | .epIpstat => [F.epIpstat_LWIE, F.epIpstat_LWEV, F.epIpstat_SLEV, F.epIpstat_NEXT1, F.epIpstat_NEXT0,
      F.epIpstat_ACT1, F.epIpstat_ACT0, F.epIpstat_ON]
  | .epIpcnt => [F.epIpcnt_LATEW, F.epIpcnt_EARLYW, F.epIpcnt_MISS, F.epIpcnt_BAD, F.epIpcnt_DROP,
      F.epIpcnt_SLIP]
  | .epIplog => [F.epIplog_VALID, F.epIplog_DIR, F.epIplog_SEQ, F.epIplog_WORD, F.epIplog_POS]
  | .canCfg0 => [F.canCfg0_MODE, F.canCfg0_OWNER, F.canCfg0_FDOE, F.canCfg0_PXE, F.canCfg0_TXORD,
      F.canCfg0_NOMATCH, F.canCfg0_IRQENG, F.canCfg0_TDCEN, F.canCfg0_TDCO]
  | .canNbt => [F.canNbt_NBRP, F.canNbt_NTSEG1, F.canNbt_NTSEG2, F.canNbt_NSJW]
  | .canDbt => [F.canDbt_DBRP, F.canDbt_DTSEG1, F.canDbt_DTSEG2, F.canDbt_DSJW]
  | .canStat => [F.canStat_TEC, F.canStat_REC, F.canStat_FCS, F.canStat_LONE, F.canStat_SYNCD, F.canStat_BOREC,
      F.canStat_LEC, F.canStat_DLEC]
  | .canEvt => [F.canEvt_IE, F.canEvt_TXBUSY, F.canEvt_LONE, F.canEvt_BOREC, F.canEvt_BOFF, F.canEvt_EPASS,
      F.canEvt_RXOVR, F.canEvt_RXB, F.canEvt_RXF, F.canEvt_TXDONE]
  | .canCnt => [F.canCnt_BUSOFF, F.canCnt_RXOVR, F.canCnt_NOMATCH, F.canCnt_ERRF]
  | .canTxHdr => [F.canTxHdr_IDE, F.canTxHdr_RTR, F.canTxHdr_FDF, F.canTxHdr_BRS, F.canTxHdr_ESI,
      F.canTxHdr_DLC, F.canTxHdr_FIDX, F.canTxHdr_ID]
  | .canTxCtl => [F.canTxCtl_TXTS, F.canTxCtl_ABTD, F.canTxCtl_SENT, F.canTxCtl_TXABT, F.canTxCtl_TXREQ]
  | .canTxData => [F.canTxData_DATA]
  | .canRxfHdr => [F.canRxfHdr_IDE, F.canRxfHdr_RTR, F.canRxfHdr_FDF, F.canRxfHdr_BRS, F.canRxfHdr_ESI,
      F.canRxfHdr_DLC, F.canRxfHdr_FIDX, F.canRxfHdr_ID]
  | .canRxfTs => [F.canRxfTs_TK]
  | .canRxfData => [F.canRxfData_DATA]
  | .canRxfPop => [F.canRxfPop_POP]
  | .canRxfStat => [F.canRxfStat_COUNT]
  | .canRxbHdr => [F.canRxbHdr_IDE, F.canRxbHdr_RTR, F.canRxbHdr_FDF, F.canRxbHdr_BRS, F.canRxbHdr_ESI,
      F.canRxbHdr_DLC, F.canRxbHdr_FIDX, F.canRxbHdr_ID]
  | .canRxbTs => [F.canRxbTs_TK]
  | .canRxbData => [F.canRxbData_DATA]
  | .canRxbStat => [F.canRxbStat_OVW, F.canRxbStat_ND]
  | .canFltA => [F.canFltA_EN, F.canFltA_IDE, F.canFltA_DEST, F.canFltA_RXB, F.canFltA_ID]
  | .canFltB => [F.canFltB_MASK]
  | .piFlags => [F.piFlags_FLAG]
  | .piPinstat => [F.piPinstat_DRV, F.piPinstat_OUTV, F.piPinstat_INV]
  | .piPin => [F.piPin_FUNC, F.piPin_MACH, F.piPin_SAFE, F.piPin_PULL, F.piPin_OE0]
  | .pmCfg0 => [F.pmCfg0_EN, F.pmCfg0_OWNER, F.pmCfg0_IRQENG, F.pmCfg0_STEPI, F.pmCfg0_STEPF, F.pmCfg0_POOL]
  | .pmCfg1 => [F.pmCfg1_DBASE, F.pmCfg1_DN, F.pmCfg1_CBASE, F.pmCfg1_CN, F.pmCfg1_AUXBASE, F.pmCfg1_AUXN,
      F.pmCfg1_SENSEB]
  | .pmCfg2 => [F.pmCfg2_LSBF, F.pmCfg2_LSBT, F.pmCfg2_REFILL, F.pmCfg2_AUTODLV, F.pmCfg2_TLEN, F.pmCfg2_RTH,
      F.pmCfg2_HEAD, F.pmCfg2_START, F.pmCfg2_FLAGMASK]
  | .pmCtl => [F.pmCtl_FCLR, F.pmCtl_RESTART, F.pmCtl_RUN]
  | .pmStat => [F.pmStat_PC, F.pmStat_STALL, F.pmStat_TXN, F.pmStat_RXN, F.pmStat_TDISP, F.pmStat_IDISP,
      F.pmStat_RXV, F.pmStat_INJP, F.pmStat_PINERR, F.pmStat_FAULT, F.pmStat_TKLATE]
  | .pmPtx => [F.pmPtx_DATA]
  | .pmPrx => [F.pmPrx_DATA]
  | .pmInj => [F.pmInj_INSTR]
  | .pmCnt => [F.pmCnt_STALLS, F.pmCnt_LATE, F.pmCnt_TXDROP]
  | .pmProg => [F.pmProg_IEVEN, F.pmProg_IODD]
  | .pdCfg0 => [F.pdCfg0_ROLE, F.pdCfg0_NODE, F.pdCfg0_CYC, F.pdCfg0_GUARD, F.pdCfg0_WIN]
  | .pdCfg1 => [F.pdCfg1_INSTOFS, F.pdCfg1_LISTEN, F.pdCfg1_LOC]
  | .pdCfg2 => [F.pdCfg2_NSLOT]
  | .pdStat => [F.pdStat_REFNODE, F.pdStat_REFSLOT, F.pdStat_MODE, F.pdStat_ALONE, F.pdStat_ALIGN,
      F.pdStat_TXOK, F.pdStat_CHB, F.pdStat_CHA, F.pdStat_BOFF, F.pdStat_CNUM]
  | .pdEvt => [F.pdEvt_IE, F.pdEvt_SLOTMISS, F.pdEvt_DIFF, F.pdEvt_CHDOWN, F.pdEvt_COLL, F.pdEvt_ALONE,
      F.pdEvt_BACKUP, F.pdEvt_REFMISS, F.pdEvt_ALIGNCHG]
  | .pdCnt => [F.pdCnt_REFMISS, F.pdCnt_BACKUP, F.pdCnt_COLL, F.pdCnt_DIFF, F.pdCnt_TXINH]
  | .pdCntAB => [F.pdCntAB_CRC, F.pdCntAB_MISS, F.pdCntAB_WIN, F.pdCntAB_CNUM]
  | .pdSeen => [F.pdSeen_NODES]
  | .pdSlotA => [F.pdSlotA_KIND, F.pdSlotA_CLAIM, F.pdSlotA_NODE, F.pdSlotA_LEN, F.pdSlotA_START]
  | .pdSlotB => [F.pdSlotB_RGN, F.pdSlotB_WOFS, F.pdSlotB_MISSV, F.pdSlotB_MAP]
  | .pdSlotst => [F.pdSlotst_MISS, F.pdSlotst_HOLDER, F.pdSlotst_CHV, F.pdSlotst_CLAIM, F.pdSlotst_QUIET]
  | .twCfg0 => [F.twCfg0_EN, F.twCfg0_UNIT, F.twCfg0_PREF, F.twCfg0_WITNESS, F.twCfg0_BGPD, F.twCfg0_HOLDOFF,
      F.twCfg0_MATCHN, F.twCfg0_LISTEN, F.twCfg0_CANMASK]
  | .twCfg1 => [F.twCfg1_OUTLO]
  | .twCfg2 => [F.twCfg2_OUTHI, F.twCfg2_PIOMASK]
  | .twCfg3 => [F.twCfg3_PAIRMAC]
  | .twCfg4 => [F.twCfg4_ZGPER, F.twCfg4_ZGCLS]
  | .twCfg5 => [F.twCfg5_MODE0, F.twCfg5_PA0, F.twCfg5_PB0, F.twCfg5_MODE1, F.twCfg5_PA1, F.twCfg5_PB1,
      F.twCfg5_MODE2, F.twCfg5_PA2, F.twCfg5_PB2, F.twCfg5_MODE3, F.twCfg5_PA3, F.twCfg5_PB3]
  | .twCtl => [F.twCtl_NOREV, F.twCtl_YMASK, F.twCtl_STEST, F.twCtl_HOLD]
  | .twStat => [F.twStat_HEALTH, F.twStat_MATCH, F.twStat_ROLE, F.twStat_PROLE, F.twStat_CAUSE, F.twStat_TST,
      F.twStat_LINK, F.twStat_SUSP, F.twStat_SPLIT]
  | .twEvt => [F.twEvt_IE, F.twEvt_CFGDIFF, F.twEvt_SPLIT, F.twEvt_BOTHF, F.twEvt_UNRES, F.twEvt_YIELD,
      F.twEvt_TAKE, F.twEvt_LINKCHG]
  | .twCnt0 => [F.twCnt0_MISM, F.twCnt0_UNRES, F.twCnt0_TAKEN, F.twCnt0_SWREF]
  | .twCnt1 => [F.twCnt1_DUP, F.twCnt1_OOW, F.twCnt1_TBLF, F.twCnt1_SUPP]
  | .twDig => [F.twDig_DIGEST, F.twDig_N]
  | .stCfg => [F.stCfg_TACK, F.stCfg_ENTRY, F.stCfg_EN]
  | .stCtl => [F.stCtl_RELD, F.stCtl_WAKE, F.stCtl_LOAD, F.stCtl_RELEASE]
  | .stSched => [F.stSched_QUANT, F.stSched_XCOST, F.stSched_GATEIDLE, F.stSched_LATEDST]
  | .stDqstat => [F.stDqstat_OVF, F.stDqstat_IDLE, F.stDqstat_RUNU0, F.stDqstat_LATEN, F.stDqstat_HIST,
      F.stDqstat_GATED, F.stDqstat_WAKEP]
  | .stLate0 => [F.stLate0_W0]
  | .stLate1 => [F.stLate1_W1]
  | .stCnt0 => [F.stCnt0_DONE, F.stCnt0_STEALIN, F.stCnt0_STEALOUT]
  | .stCnt1 => [F.stCnt1_LATE, F.stCnt1_OVERRUN, F.stCnt1_PREEMPT]
  | .stCnt2 => [F.stCnt2_FULL, F.stCnt2_DEFER]
  | .stEngstat => [F.stEngstat_BUSY, F.stEngstat_RUNT, F.stEngstat_UC, F.stEngstat_TV, F.stEngstat_DEPTH]
  | .stBank => [F.stBank_NEXT, F.stBank_XPEND, F.stBank_DISP, F.stBank_XTO, F.stBank_XGO, F.stBank_OWNER]
  | .stLconf => [F.stLconf_C0, F.stLconf_C1, F.stLconf_C2]
  | .stLconf4 => [F.stLconf4_DPCOL]
  | .stMemerr => [F.stMemerr_CE, F.stMemerr_UE, F.stMemerr_PWPOIS, F.stMemerr_DENY]
  | .stMemlog => [F.stMemlog_WHERE, F.stMemlog_ENGINE, F.stMemlog_POIS, F.stMemlog_SYN, F.stMemlog_UEIE,
      F.stMemlog_VALID, F.stMemlog_ADDR]
  | .stPmark => [F.stPmark_GO, F.stPmark_ADDR]
  | .dbgCtl => [F.dbgCtl_DXIE, F.dbgCtl_BPEN, F.dbgCtl_STEP, F.dbgCtl_RUN, F.dbgCtl_HALT]
  | .dbgStat => [F.dbgStat_PC, F.dbgStat_XCLASS, F.dbgStat_HALTED, F.dbgStat_WHY, F.dbgStat_EXL, F.dbgStat_DX]
  | .dbgSel => [F.dbgSel_REG]
  | .dbgData => [F.dbgData_DATA]
  | .dbgBp => [F.dbgBp_ADDR]
  | .eirq => [F.eirq_EN, F.eirq_PEND]
  | .eirqs => [F.eirqs_SET]
  | .mgInst => [F.mgInst_ETYPE, F.mgInst_CYC]
  | .mgPh => [F.mgPh_PH]
  | .mgInstat => [F.mgInstat_N, F.mgInstat_SYNC, F.mgInstat_JUMP, F.mgInstat_RUN]
  | .mgCnt => [F.mgCnt_SKIP, F.mgCnt_PSKIP, F.mgCnt_SDROP, F.mgCnt_SINC, F.mgCnt_LATE, F.mgCnt_OVWR]
  | .mgMemerr => [F.mgMemerr_CE, F.mgMemerr_UE, F.mgMemerr_PWPOIS, F.mgMemerr_DENY]
  | .mgCnt1 => [F.mgCnt1_AGEDN]
  | .mgCfg0 => [F.mgCfg0_BASE, F.mgCfg0_SIZE, F.mgCfg0_OWNER, F.mgCfg0_KIND, F.mgCfg0_TRIPLE, F.mgCfg0_ANYRD,
      F.mgCfg0_FAILV]
  | .mgCfg1 => [F.mgCfg1_SRC, F.mgCfg1_SSDN, F.mgCfg1_SRGN, F.mgCfg1_MAXAGE, F.mgCfg1_NEN, F.mgCfg1_NENG]
  | .mgCfg2 => [F.mgCfg2_PUB, F.mgCfg2_VID, F.mgCfg2_PCP]
  | .mgCfg3 => [F.mgCfg3_DA]
  | .mgCtl => [F.mgCtl_DONE]
  | .mgStat => [F.mgStat_TAG, F.mgStat_AGE, F.mgStat_BDISP, F.mgStat_TV, F.mgStat_NEW, F.mgStat_AGED,
      F.mgStat_PSYNC, F.mgStat_PAGED, F.mgStat_PHELD]
  | .fnCfg => [F.fnCfg_KEEPAWAKE, F.fnCfg_DRAIN, F.fnCfg_ICCLASS, F.fnCfg_VF, F.fnCfg_AFFINITY]
  | .fnShare => [F.fnShare_MINSHARE, F.fnShare_MAXSHARE, F.fnShare_TASKLIM]
  | .fnQuota => [F.fnQuota_CELLS, F.fnQuota_BANKS, F.fnQuota_REGIONS, F.fnQuota_MBOXES]
  | .fnBudget => [F.fnBudget_BUDGET]
  | .fnName => [F.fnName_NAME]
  | .fnStatus => [F.fnStatus_INC, F.fnStatus_OVERQ, F.fnStatus_RSTPEND, F.fnStatus_RSTDONE, F.fnStatus_OVQEV,
      F.fnStatus_STATE]
  | .fnCtl => [F.fnCtl_RSTIE, F.fnCtl_OVQIE, F.fnCtl_RELEASE, F.fnCtl_RESET]
  | .fnUse0 => [F.fnUse0_TASKS, F.fnUse0_CELLS, F.fnUse0_TOKENS]
  | .fnUse1 => [F.fnUse1_BANKS, F.fnUse1_REGIONS, F.fnUse1_MBOXES]
  | .fnCnt => [F.fnCnt_STALE, F.fnCnt_ABANDON, F.fnCnt_REFQ]
  | .mbEnd => [F.mbEnd_KIND, F.mbEnd_ID, F.mbEnd_AUTO, F.mbEnd_DBT]
  | .mbCtl => [F.mbCtl_BDISP, F.mbCtl_STO]
  | .mbPeer => [F.mbPeer_INCA, F.mbPeer_STATEA, F.mbPeer_SLPA, F.mbPeer_INCB, F.mbPeer_STATEB, F.mbPeer_SLPB]
  | .mbStat => [F.mbStat_WDISP, F.mbStat_HV, F.mbStat_HINC, F.mbStat_TXN, F.mbStat_RXN, F.mbStat_RESYNC,
      F.mbStat_RXV, F.mbStat_SOFF, F.mbStat_DB, F.mbStat_COL, F.mbStat_FULL, F.mbStat_EMPTY, F.mbStat_RING]
  | .mbTx => [F.mbTx_DATA]
  | .mbRx => [F.mbRx_DATA]
  | .mbCnt => [F.mbCnt_PREA, F.mbCnt_PREB, F.mbCnt_ABNA, F.mbCnt_ABNB]
  | .mbMemerr => [F.mbMemerr_CE, F.mbMemerr_UE, F.mbMemerr_PWPOIS, F.mbMemerr_DENY]
  | .icLvl => [F.icLvl_LVL]
  | .icUsef => [F.icUsef_USEF]
  | .icStarv => [F.icStarv_SIE, F.icStarv_LIMIT]
  | .icSflag => [F.icSflag_SFLAG]
  | .icCnt => [F.icCnt_DEAD, F.icCnt_STARVN]
  | .commit => [F.commit_CSEQ, F.commit_BOUND, F.commit_DIRTY, F.commit_INST, F.commit_PEND, F.commit_GO]

/-- One row of the host map: instances i (count `n1`, stride `s1`) and j (`n2`, `s2`), numbered from `i0`, `j0`. -/
structure MapRow where
  reg : RegId
  base : Nat
  n1 : Nat
  s1 : Nat
  n2 : Nat
  s2 : Nat
  i0 : Nat
  j0 : Nat
  deriving Repr

/-- The registers of the block GC in the host map (R21). -/
def mapGc : List MapRow := [
  ⟨.gcUnmap, 0x120, 1, 0x4000000, 1, 0x8, 0, 0⟩,
  ⟨.gcLaystat, 0x100, 1, 0x4000000, 1, 0x8, 0, 0⟩,
  ⟨.gcLdctl, 0x108, 1, 0x4000000, 1, 0x8, 0, 0⟩,
  ⟨.gcLayver, 0x118, 1, 0x4000000, 1, 0x8, 0, 0⟩,
  ⟨.gcKeyslot, 0x180, 4, 0x8, 1, 0x8, 0, 0⟩,
  ⟨.gcKeydata, 0x1a0, 6, 0x8, 1, 0x8, 0, 0⟩,
  ⟨.gcKeyprog, 0x1d0, 1, 0x4000000, 1, 0x8, 0, 0⟩,
  ⟨.gcBootcause, 0x200, 1, 0x4000000, 1, 0x8, 0, 0⟩,
  ⟨.gcBootctl, 0x208, 1, 0x4000000, 1, 0x8, 0, 0⟩,
  ⟨.gcHimg, 0x210, 1, 0x4000000, 1, 0x8, 0, 0⟩,
  ⟨.gcIntsum, 0x300, 1, 0x4000000, 1, 0x8, 0, 0⟩,
  ⟨.gcIntctl, 0x308, 1, 0x4000000, 1, 0x8, 0, 0⟩,
  ⟨.commit, 0x110, 1, 0x4000000, 1, 0x8, 0, 0⟩]

/-- The registers of the block PW in the host map (R21). -/
def mapPw : List MapRow := [
  ⟨.pwCfg0, 0x100000, 1, 0x4000000, 1, 0x8, 0, 0⟩,
  ⟨.pwCfg1, 0x100008, 1, 0x4000000, 1, 0x8, 0, 0⟩,
  ⟨.pwSrc, 0x100010, 1, 0x4000000, 1, 0x8, 0, 0⟩,
  ⟨.pwPsreq, 0x100018, 1, 0x4000000, 1, 0x8, 0, 0⟩,
  ⟨.pwPstat, 0x100020, 1, 0x4000000, 1, 0x8, 0, 0⟩,
  ⟨.pwEvt, 0x100028, 1, 0x4000000, 1, 0x8, 0, 0⟩,
  ⟨.pwCnt, 0x100030, 1, 0x4000000, 1, 0x8, 0, 0⟩,
  ⟨.pwOctl, 0x100038, 1, 0x4000000, 1, 0x8, 0, 0⟩,
  ⟨.pwOstat, 0x100040, 1, 0x4000000, 1, 0x8, 0, 0⟩,
  ⟨.pwOcnt, 0x100048, 1, 0x4000000, 1, 0x8, 0, 0⟩,
  ⟨.pwKsec, 0x100050, 1, 0x4000000, 1, 0x8, 0, 0⟩,
  ⟨.pwOcost, 0x100080, 6, 0x8, 1, 0x8, 0, 0⟩,
  ⟨.pwLease, 0x101000, 256, 0x8, 1, 0x8, 0, 0⟩]

/-- The registers of the block FA in the host map (R21). -/
def mapFa : List MapRow := [
  ⟨.faCfg0, 0x180000, 1, 0x4000000, 1, 0x8, 0, 0⟩,
  ⟨.faTelda, 0x180008, 1, 0x4000000, 1, 0x8, 0, 0⟩,
  ⟨.faFlcmd, 0x180010, 1, 0x4000000, 1, 0x8, 0, 0⟩,
  ⟨.faFlstat, 0x180018, 1, 0x4000000, 1, 0x8, 0, 0⟩,
  ⟨.faHealth, 0x180020, 1, 0x4000000, 1, 0x8, 0, 0⟩,
  ⟨.faAge, 0x180100, 16, 0x8, 1, 0x8, 0, 0⟩,
  ⟨.faTelrec, 0x180200, 8, 0x8, 1, 0x8, 0, 0⟩,
  ⟨.faFlbuf, 0x181000, 512, 0x8, 1, 0x8, 0, 0⟩]

/-- The registers of the block CK in the host map (R21). -/
def mapCk : List MapRow := [
  ⟨.ckCfg0, 0x200000, 1, 0x4000000, 1, 0x8, 0, 0⟩,
  ⟨.ckStat, 0x200008, 1, 0x4000000, 1, 0x8, 0, 0⟩,
  ⟨.ckRstctl, 0x200010, 1, 0x4000000, 1, 0x8, 0, 0⟩]

/-- The registers of the block TM in the host map (R21). -/
def mapTm : List MapRow := [
  ⟨.tmEvt, 0x400008, 1, 0x4000000, 1, 0x8, 0, 0⟩,
  ⟨.tmTknow, 0x400010, 1, 0x4000000, 1, 0x8, 0, 0⟩,
  ⟨.tmCapctl, 0x400018, 1, 0x4000000, 1, 0x8, 0, 0⟩,
  ⟨.tmCaptk, 0x400020, 1, 0x4000000, 1, 0x8, 0, 0⟩,
  ⟨.tmCapsec, 0x400028, 1, 0x4000000, 1, 0x8, 0, 0⟩,
  ⟨.tmCapns, 0x400030, 1, 0x4000000, 1, 0x8, 0, 0⟩,
  ⟨.tcCfg, 0x401000, 8, 0x100, 1, 0x8, 0, 0⟩,
  ⟨.tcInc, 0x401008, 8, 0x100, 1, 0x8, 0, 0⟩,
  ⟨.tcSecnow, 0x401010, 8, 0x100, 1, 0x8, 0, 0⟩,
  ⟨.tcNsnow, 0x401018, 8, 0x100, 1, 0x8, 0, 0⟩,
  ⟨.tcStepsec, 0x401020, 8, 0x100, 1, 0x8, 0, 0⟩,
  ⟨.tcStepns, 0x401028, 8, 0x100, 1, 0x8, 0, 0⟩,
  ⟨.tcCtl, 0x401030, 8, 0x100, 1, 0x8, 0, 0⟩,
  ⟨.tcStat, 0x401038, 8, 0x100, 1, 0x8, 0, 0⟩,
  ⟨.svCfg0, 0x402000, 2, 0x100, 1, 0x8, 0, 0⟩,
  ⟨.svCfg1, 0x402008, 2, 0x100, 1, 0x8, 0, 0⟩,
  ⟨.svStat, 0x402010, 2, 0x100, 1, 0x8, 0, 0⟩,
  ⟨.svOfs, 0x402018, 2, 0x100, 1, 0x8, 0, 0⟩,
  ⟨.svYi, 0x402020, 2, 0x100, 1, 0x8, 0, 0⟩,
  ⟨.svYavg, 0x402028, 2, 0x100, 1, 0x8, 0, 0⟩,
  ⟨.svCnt, 0x402030, 2, 0x100, 1, 0x8, 0, 0⟩,
  ⟨.refCfg, 0x403000, 8, 0x40, 1, 0x8, 0, 0⟩,
  ⟨.refCtl, 0x403008, 8, 0x40, 1, 0x8, 0, 0⟩,
  ⟨.refOfs, 0x403010, 8, 0x40, 1, 0x8, 0, 0⟩,
  ⟨.refStat, 0x403018, 8, 0x40, 1, 0x8, 0, 0⟩,
  ⟨.pgCfg, 0x404000, 8, 0x40, 1, 0x8, 0, 0⟩,
  ⟨.pgSsec, 0x404008, 8, 0x40, 1, 0x8, 0, 0⟩,
  ⟨.pgSns, 0x404010, 8, 0x40, 1, 0x8, 0, 0⟩,
  ⟨.pgPer, 0x404018, 8, 0x40, 1, 0x8, 0, 0⟩,
  ⟨.pgStat, 0x404020, 8, 0x40, 1, 0x8, 0, 0⟩,
  ⟨.tmLq, 0x405000, 12, 0x8, 1, 0x8, 0, 0⟩,
  ⟨.commit, 0x400000, 1, 0x4000000, 1, 0x8, 8, 0⟩]

/-- The registers of the block YD in the host map (R21). -/
def mapYd : List MapRow := [
  ⟨.ydCfg, 0x800000, 1, 0x4000000, 1, 0x8, 0, 0⟩,
  ⟨.ydStat, 0x800010, 1, 0x4000000, 1, 0x8, 0, 0⟩,
  ⟨.ydCnt, 0x800018, 1, 0x4000000, 1, 0x8, 0, 0⟩,
  ⟨.ydAtkey, 0x800020, 1, 0x4000000, 1, 0x8, 0, 0⟩,
  ⟨.ydAtdata, 0x800028, 1, 0x4000000, 1, 0x8, 0, 0⟩,
  ⟨.ydAtcmd, 0x800030, 1, 0x4000000, 1, 0x8, 0, 0⟩,
  ⟨.ydPcfg, 0x810000, 17, 0x1000, 1, 0x8, 0, 0⟩,
  ⟨.ydPcpmap, 0x810008, 17, 0x1000, 1, 0x8, 0, 0⟩,
  ⟨.ydGctl, 0x810010, 17, 0x1000, 1, 0x8, 0, 0⟩,
  ⟨.ydGbase0, 0x810018, 17, 0x1000, 1, 0x8, 0, 0⟩,
  ⟨.ydGbase1, 0x810020, 17, 0x1000, 1, 0x8, 0, 0⟩,
  ⟨.ydGcyc, 0x810028, 17, 0x1000, 1, 0x8, 0, 0⟩,
  ⟨.ydPcnt, 0x810030, 17, 0x1000, 1, 0x8, 0, 0⟩,
  ⟨.ydQcfg, 0x810040, 17, 0x1000, 8, 0x8, 0, 0⟩,
  ⟨.ydQstat, 0x810080, 17, 0x1000, 8, 0x8, 0, 0⟩,
  ⟨.ydQcnt, 0x8100c0, 17, 0x1000, 8, 0x8, 0, 0⟩,
  ⟨.ydGcl, 0x810800, 17, 0x1000, 256, 0x8, 0, 0⟩,
  ⟨.ydVlan, 0x840000, 4096, 0x8, 1, 0x8, 0, 0⟩,
  ⟨.ydFrx0, 0x880000, 512, 0x20, 1, 0x8, 0, 0⟩,
  ⟨.ydFrx1, 0x880008, 512, 0x20, 1, 0x8, 0, 0⟩,
  ⟨.ydFrx2, 0x880010, 512, 0x20, 1, 0x8, 0, 0⟩,
  ⟨.ydSub, 0x890000, 16, 0x8, 1, 0x8, 0, 0⟩,
  ⟨.ydHtxbase, 0x8a0000, 16, 0x20, 1, 0x8, 0, 0⟩,
  ⟨.ydHtxptr, 0x8a0008, 16, 0x20, 1, 0x8, 0, 0⟩,
  ⟨.ydHrxbase, 0x8a0010, 16, 0x20, 1, 0x8, 0, 0⟩,
  ⟨.ydHrxptr, 0x8a0018, 16, 0x20, 1, 0x8, 0, 0⟩,
  ⟨.commit, 0x800008, 1, 0x4000000, 1, 0x8, 7, 0⟩]

/-- The registers of the block EP in the host map (R21). -/
def mapEp : List MapRow := [
  ⟨.epCfg0, 0xc00000, 12, 0x10000, 1, 0x8, 0, 0⟩,
  ⟨.epCfg1, 0xc00008, 12, 0x10000, 1, 0x8, 0, 0⟩,
  ⟨.epCfg2, 0xc00010, 12, 0x10000, 1, 0x8, 0, 0⟩,
  ⟨.epTxctl, 0xc00020, 12, 0x10000, 1, 0x8, 0, 0⟩,
  ⟨.epStat, 0xc00028, 12, 0x10000, 1, 0x8, 0, 0⟩,
  ⟨.epEvt, 0xc00030, 12, 0x10000, 1, 0x8, 0, 0⟩,
  ⟨.epTxts0, 0xc00040, 12, 0x10000, 1, 0x8, 0, 0⟩,
  ⟨.epTxts1, 0xc00048, 12, 0x10000, 1, 0x8, 0, 0⟩,
  ⟨.epTxts2, 0xc00050, 12, 0x10000, 1, 0x8, 0, 0⟩,
  ⟨.epCnt0, 0xc00060, 12, 0x10000, 1, 0x8, 0, 0⟩,
  ⟨.epCnt1, 0xc00068, 12, 0x10000, 1, 0x8, 0, 0⟩,
  ⟨.epCnt2, 0xc00070, 12, 0x10000, 1, 0x8, 0, 0⟩,
  ⟨.epCnt3, 0xc00078, 12, 0x10000, 1, 0x8, 0, 0⟩,
  ⟨.epCnt4, 0xc00080, 12, 0x10000, 1, 0x8, 0, 0⟩,
  ⟨.epIpcfg0, 0xc00200, 4, 0x10000, 1, 0x8, 0, 0⟩,
  ⟨.epIpcfg1, 0xc00208, 4, 0x10000, 1, 0x8, 0, 0⟩,
  ⟨.epIpstat, 0xc00210, 4, 0x10000, 1, 0x8, 0, 0⟩,
  ⟨.epIpcnt, 0xc00218, 4, 0x10000, 2, 0x8, 0, 0⟩,
  ⟨.epIplog, 0xc00228, 4, 0x10000, 1, 0x8, 0, 0⟩,
  ⟨.commit, 0xc00018, 1, 0x4000000, 12, 0x10000, 6, 0⟩]

/-- The registers of the block CAN in the host map (R21). -/
def mapCan : List MapRow := [
  ⟨.canCfg0, 0xe00000, 4, 0x4000, 1, 0x8, 0, 0⟩,
  ⟨.canNbt, 0xe00008, 4, 0x4000, 1, 0x8, 0, 0⟩,
  ⟨.canDbt, 0xe00010, 4, 0x4000, 1, 0x8, 0, 0⟩,
  ⟨.canStat, 0xe00020, 4, 0x4000, 1, 0x8, 0, 0⟩,
  ⟨.canEvt, 0xe00028, 4, 0x4000, 1, 0x8, 0, 0⟩,
  ⟨.canCnt, 0xe00030, 4, 0x4000, 1, 0x8, 0, 0⟩,
  ⟨.canTxHdr, 0xe00100, 4, 0x4000, 3, 0x80, 0, 0⟩,
  ⟨.canTxCtl, 0xe00108, 4, 0x4000, 3, 0x80, 0, 0⟩,
  ⟨.canTxData, 0xe00110, 4, 0x4000, 11, 0x8, 0, 0⟩,
  ⟨.canTxData, 0xe00190, 4, 0x4000, 11, 0x8, 0, 11⟩,
  ⟨.canTxData, 0xe00210, 4, 0x4000, 11, 0x8, 0, 22⟩,
  ⟨.canRxfHdr, 0xe00280, 4, 0x4000, 1, 0x8, 0, 0⟩,
  ⟨.canRxfTs, 0xe00288, 4, 0x4000, 1, 0x8, 0, 0⟩,
  ⟨.canRxfData, 0xe00290, 4, 0x4000, 11, 0x8, 0, 0⟩,
  ⟨.canRxfPop, 0xe002e8, 4, 0x4000, 1, 0x8, 0, 0⟩,
  ⟨.canRxfStat, 0xe002f0, 4, 0x4000, 1, 0x8, 0, 0⟩,
  ⟨.canRxbHdr, 0xe00400, 4, 0x4000, 16, 0x80, 0, 0⟩,
  ⟨.canRxbTs, 0xe00408, 4, 0x4000, 16, 0x80, 0, 0⟩,
  ⟨.canRxbData, 0xe00410, 4, 0x4000, 11, 0x8, 0, 0⟩,
  ⟨.canRxbData, 0xe00490, 4, 0x4000, 11, 0x8, 0, 11⟩,
  ⟨.canRxbData, 0xe00510, 4, 0x4000, 11, 0x8, 0, 22⟩,
  ⟨.canRxbData, 0xe00590, 4, 0x4000, 11, 0x8, 0, 33⟩,
  ⟨.canRxbData, 0xe00610, 4, 0x4000, 11, 0x8, 0, 44⟩,
  ⟨.canRxbData, 0xe00690, 4, 0x4000, 11, 0x8, 0, 55⟩,
  ⟨.canRxbData, 0xe00710, 4, 0x4000, 11, 0x8, 0, 66⟩,
  ⟨.canRxbData, 0xe00790, 4, 0x4000, 11, 0x8, 0, 77⟩,
  ⟨.canRxbData, 0xe00810, 4, 0x4000, 11, 0x8, 0, 88⟩,
  ⟨.canRxbData, 0xe00890, 4, 0x4000, 11, 0x8, 0, 99⟩,
  ⟨.canRxbData, 0xe00910, 4, 0x4000, 11, 0x8, 0, 110⟩,
  ⟨.canRxbData, 0xe00990, 4, 0x4000, 11, 0x8, 0, 121⟩,
  ⟨.canRxbData, 0xe00a10, 4, 0x4000, 11, 0x8, 0, 132⟩,
  ⟨.canRxbData, 0xe00a90, 4, 0x4000, 11, 0x8, 0, 143⟩,
  ⟨.canRxbData, 0xe00b10, 4, 0x4000, 11, 0x8, 0, 154⟩,
  ⟨.canRxbData, 0xe00b90, 4, 0x4000, 11, 0x8, 0, 165⟩,
  ⟨.canRxbStat, 0xe00470, 4, 0x4000, 16, 0x80, 0, 0⟩,
  ⟨.canFltA, 0xe01000, 4, 0x4000, 128, 0x10, 0, 0⟩,
  ⟨.canFltB, 0xe01008, 4, 0x4000, 128, 0x10, 0, 0⟩,
  ⟨.commit, 0xe00018, 1, 0x4000000, 4, 0x4000, 10, 0⟩]

/-- The registers of the block PI in the host map (R21). -/
def mapPi : List MapRow := [
  ⟨.piFlags, 0xe40008, 4, 0x4000, 1, 0x8, 0, 0⟩,
  ⟨.piPinstat, 0xe40010, 4, 0x4000, 1, 0x8, 0, 0⟩,
  ⟨.piPin, 0xe40080, 4, 0x4000, 16, 0x8, 0, 0⟩,
  ⟨.pmCfg0, 0xe40400, 4, 0x4000, 8, 0x100, 0, 0⟩,
  ⟨.pmCfg1, 0xe40408, 4, 0x4000, 8, 0x100, 0, 0⟩,
  ⟨.pmCfg2, 0xe40410, 4, 0x4000, 8, 0x100, 0, 0⟩,
  ⟨.pmCtl, 0xe40418, 4, 0x4000, 8, 0x100, 0, 0⟩,
  ⟨.pmStat, 0xe40420, 4, 0x4000, 8, 0x100, 0, 0⟩,
  ⟨.pmPtx, 0xe40428, 4, 0x4000, 8, 0x100, 0, 0⟩,
  ⟨.pmPrx, 0xe40430, 4, 0x4000, 8, 0x100, 0, 0⟩,
  ⟨.pmInj, 0xe40438, 4, 0x4000, 8, 0x100, 0, 0⟩,
  ⟨.pmCnt, 0xe40440, 4, 0x4000, 8, 0x100, 0, 0⟩,
  ⟨.pmProg, 0xe40480, 4, 0x4000, 16, 0x8, 0, 0⟩,
  ⟨.pmProg, 0xe40580, 4, 0x4000, 16, 0x8, 0, 16⟩,
  ⟨.pmProg, 0xe40680, 4, 0x4000, 16, 0x8, 0, 32⟩,
  ⟨.pmProg, 0xe40780, 4, 0x4000, 16, 0x8, 0, 48⟩,
  ⟨.pmProg, 0xe40880, 4, 0x4000, 16, 0x8, 0, 64⟩,
  ⟨.pmProg, 0xe40980, 4, 0x4000, 16, 0x8, 0, 80⟩,
  ⟨.pmProg, 0xe40a80, 4, 0x4000, 16, 0x8, 0, 96⟩,
  ⟨.pmProg, 0xe40b80, 4, 0x4000, 16, 0x8, 0, 112⟩,
  ⟨.commit, 0xe40000, 1, 0x4000000, 4, 0x4000, 11, 0⟩]

/-- The registers of the block PD in the host map (R21). -/
def mapPd : List MapRow := [
  ⟨.pdCfg0, 0xe80000, 1, 0x4000000, 1, 0x8, 0, 0⟩,
  ⟨.pdCfg1, 0xe80008, 1, 0x4000000, 1, 0x8, 0, 0⟩,
  ⟨.pdCfg2, 0xe80010, 1, 0x4000000, 1, 0x8, 0, 0⟩,
  ⟨.pdStat, 0xe80020, 1, 0x4000000, 1, 0x8, 0, 0⟩,
  ⟨.pdEvt, 0xe80028, 1, 0x4000000, 1, 0x8, 0, 0⟩,
  ⟨.pdCnt, 0xe80030, 1, 0x4000000, 1, 0x8, 0, 0⟩,
  ⟨.pdCntAB, 0xe80038, 2, 0x8, 1, 0x8, 0, 0⟩,
  ⟨.pdSeen, 0xe80048, 2, 0x8, 1, 0x8, 0, 0⟩,
  ⟨.pdSlotA, 0xe90000, 1024, 0x10, 1, 0x8, 0, 0⟩,
  ⟨.pdSlotB, 0xe90008, 1024, 0x10, 1, 0x8, 0, 0⟩,
  ⟨.pdSlotst, 0xea0000, 1024, 0x8, 1, 0x8, 0, 0⟩,
  ⟨.commit, 0xe80018, 1, 0x4000000, 1, 0x8, 9, 0⟩]

/-- The registers of the block TW in the host map (R21). -/
def mapTw : List MapRow := [
  ⟨.twCfg0, 0xf00000, 1, 0x4000000, 1, 0x8, 0, 0⟩,
  ⟨.twCfg1, 0xf00008, 1, 0x4000000, 1, 0x8, 0, 0⟩,
  ⟨.twCfg2, 0xf00010, 1, 0x4000000, 1, 0x8, 0, 0⟩,
  ⟨.twCfg3, 0xf00018, 1, 0x4000000, 1, 0x8, 0, 0⟩,
  ⟨.twCfg4, 0xf00020, 1, 0x4000000, 1, 0x8, 0, 0⟩,
  ⟨.twCfg5, 0xf00028, 1, 0x4000000, 1, 0x8, 0, 0⟩,
  ⟨.twCtl, 0xf00030, 1, 0x4000000, 1, 0x8, 0, 0⟩,
  ⟨.twStat, 0xf00038, 1, 0x4000000, 1, 0x8, 0, 0⟩,
  ⟨.twEvt, 0xf00040, 1, 0x4000000, 1, 0x8, 0, 0⟩,
  ⟨.twCnt0, 0xf00048, 1, 0x4000000, 1, 0x8, 0, 0⟩,
  ⟨.twCnt1, 0xf00050, 1, 0x4000000, 1, 0x8, 0, 0⟩,
  ⟨.twDig, 0xf00058, 1, 0x4000000, 1, 0x8, 0, 0⟩]

/-- The registers of the block ST in the host map (R21). -/
def mapSt : List MapRow := [
  ⟨.stCfg, 0x1000000, 16, 0x100000, 1, 0x8, 0, 0⟩,
  ⟨.stCtl, 0x1000008, 16, 0x100000, 1, 0x8, 0, 0⟩,
  ⟨.stSched, 0x1000010, 16, 0x100000, 1, 0x8, 0, 0⟩,
  ⟨.stDqstat, 0x1000020, 16, 0x100000, 1, 0x8, 0, 0⟩,
  ⟨.stLate0, 0x1000040, 16, 0x100000, 1, 0x8, 0, 0⟩,
  ⟨.stLate1, 0x1000048, 16, 0x100000, 1, 0x8, 0, 0⟩,
  ⟨.stCnt0, 0x1000060, 16, 0x100000, 1, 0x8, 0, 0⟩,
  ⟨.stCnt1, 0x1000068, 16, 0x100000, 1, 0x8, 0, 0⟩,
  ⟨.stCnt2, 0x1000070, 16, 0x100000, 1, 0x8, 0, 0⟩,
  ⟨.stEngstat, 0x1000100, 16, 0x100000, 8, 0x8, 0, 0⟩,
  ⟨.stBank, 0x1000200, 16, 0x100000, 16, 0x8, 0, 0⟩,
  ⟨.stLconf, 0x1000280, 16, 0x100000, 4, 0x8, 0, 0⟩,
  ⟨.stLconf4, 0x10002a0, 16, 0x100000, 1, 0x8, 0, 0⟩,
  ⟨.stMemerr, 0x10002a8, 16, 0x100000, 1, 0x8, 0, 0⟩,
  ⟨.stMemlog, 0x10002b0, 16, 0x100000, 1, 0x8, 0, 0⟩,
  ⟨.stPmark, 0x10002b8, 16, 0x100000, 1, 0x8, 0, 0⟩,
  ⟨.dbgCtl, 0x1040000, 16, 0x100000, 8, 0x100, 0, 0⟩,
  ⟨.dbgStat, 0x1040008, 16, 0x100000, 8, 0x100, 0, 0⟩,
  ⟨.dbgSel, 0x1040010, 16, 0x100000, 8, 0x100, 0, 0⟩,
  ⟨.dbgData, 0x1040018, 16, 0x100000, 8, 0x100, 0, 0⟩,
  ⟨.dbgBp, 0x1040020, 16, 0x100000, 8, 0x100, 0, 0⟩,
  ⟨.eirq, 0x1040028, 16, 0x100000, 8, 0x100, 0, 0⟩,
  ⟨.eirqs, 0x1040030, 16, 0x100000, 8, 0x100, 0, 0⟩,
  ⟨.commit, 0x1000018, 1, 0x4000000, 16, 0x100000, 2, 0⟩]

/-- The registers of the block MG in the host map (R21). -/
def mapMg : List MapRow := [
  ⟨.mgInst, 0x2100000, 1, 0x4000000, 1, 0x8, 0, 0⟩,
  ⟨.mgPh, 0x2100008, 1, 0x4000000, 1, 0x8, 0, 0⟩,
  ⟨.mgInstat, 0x2100018, 1, 0x4000000, 1, 0x8, 0, 0⟩,
  ⟨.mgCnt, 0x2100020, 1, 0x4000000, 1, 0x8, 0, 0⟩,
  ⟨.mgMemerr, 0x2100028, 1, 0x4000000, 1, 0x8, 0, 0⟩,
  ⟨.mgCnt1, 0x2100030, 1, 0x4000000, 1, 0x8, 0, 0⟩,
  ⟨.mgCfg0, 0x2101000, 64, 0x40, 1, 0x8, 0, 0⟩,
  ⟨.mgCfg1, 0x2101008, 64, 0x40, 1, 0x8, 0, 0⟩,
  ⟨.mgCfg2, 0x2101010, 64, 0x40, 1, 0x8, 0, 0⟩,
  ⟨.mgCfg3, 0x2101018, 64, 0x40, 1, 0x8, 0, 0⟩,
  ⟨.mgCtl, 0x2101020, 64, 0x40, 1, 0x8, 0, 0⟩,
  ⟨.mgStat, 0x2101028, 64, 0x40, 1, 0x8, 0, 0⟩,
  ⟨.commit, 0x2100010, 1, 0x4000000, 1, 0x8, 5, 0⟩]

/-- The registers of the block FN in the host map (R21). -/
def mapFn : List MapRow := [
  ⟨.fnCfg, 0x2200000, 512, 0x100, 1, 0x8, 0, 0⟩,
  ⟨.fnShare, 0x2200008, 512, 0x100, 1, 0x8, 0, 0⟩,
  ⟨.fnQuota, 0x2200010, 512, 0x100, 1, 0x8, 0, 0⟩,
  ⟨.fnBudget, 0x2200018, 512, 0x100, 1, 0x8, 0, 0⟩,
  ⟨.fnName, 0x2200020, 512, 0x100, 2, 0x8, 0, 0⟩,
  ⟨.fnStatus, 0x2200030, 512, 0x100, 1, 0x8, 0, 0⟩,
  ⟨.fnCtl, 0x2200038, 512, 0x100, 1, 0x8, 0, 0⟩,
  ⟨.fnUse0, 0x2200040, 512, 0x100, 1, 0x8, 0, 0⟩,
  ⟨.fnUse1, 0x2200048, 512, 0x100, 1, 0x8, 0, 0⟩,
  ⟨.fnCnt, 0x2200050, 512, 0x100, 1, 0x8, 0, 0⟩,
  ⟨.commit, 0x2220000, 1, 0x4000000, 1, 0x8, 1, 0⟩]

/-- The registers of the block MB in the host map (R21). -/
def mapMb : List MapRow := [
  ⟨.mbEnd, 0x2400000, 1024, 0x100, 2, 0x8, 0, 0⟩,
  ⟨.mbCtl, 0x2400010, 1024, 0x100, 1, 0x8, 0, 0⟩,
  ⟨.mbPeer, 0x2400018, 1024, 0x100, 1, 0x8, 0, 0⟩,
  ⟨.mbStat, 0x2400020, 1024, 0x100, 2, 0x18, 0, 0⟩,
  ⟨.mbTx, 0x2400028, 1024, 0x100, 2, 0x18, 0, 0⟩,
  ⟨.mbRx, 0x2400030, 1024, 0x100, 2, 0x18, 0, 0⟩,
  ⟨.mbCnt, 0x2400050, 1024, 0x100, 1, 0x8, 0, 0⟩,
  ⟨.mbMemerr, 0x2440008, 1, 0x4000000, 1, 0x8, 0, 0⟩,
  ⟨.commit, 0x2440000, 1, 0x4000000, 1, 0x8, 3, 0⟩]

/-- The registers of the block IC in the host map (R21). -/
def mapIc : List MapRow := [
  ⟨.icLvl, 0x2800000, 19, 0x1000, 1, 0x8, 0, 0⟩,
  ⟨.icUsef, 0x2800008, 19, 0x1000, 1, 0x8, 0, 0⟩,
  ⟨.icStarv, 0x2800018, 19, 0x1000, 1, 0x8, 0, 0⟩,
  ⟨.icSflag, 0x2800020, 19, 0x1000, 1, 0x8, 0, 0⟩,
  ⟨.icCnt, 0x2800028, 19, 0x1000, 1, 0x8, 0, 0⟩,
  ⟨.commit, 0x2800010, 1, 0x4000000, 19, 0x1000, 4, 0⟩]

/-- The rows of the host map that can hold the host offset, by the block ranges of R21. -/
def mapRowsAt (off : Nat) : List MapRow :=
  if off < 0x100000 then mapGc else if off < 0x180000 then mapPw else if off < 0x200000 then mapFa
  else if off < 0x400000 then mapCk else if off < 0x800000 then mapTm else if off < 0xC00000 then mapYd
  else if off < 0xE00000 then mapEp else if off < 0xE40000 then mapCan else if off < 0xE80000 then mapPi
  else if off < 0xF00000 then mapPd else if off < 0x1000000 then mapTw else if off < 0x2000000 then mapSt
  else if off < 0x2200000 then mapMg else if off < 0x2400000 then mapFn else if off < 0x2800000 then mapMb
  else if off < 0x3000000 then mapIc else []

/-- The instance that a row gives the slot at `off`, if it lies in the row. -/
def MapRow.at (r : MapRow) (off : Nat) : Option (Nat × Nat) :=
  let d := off - r.base
  let i := d / r.s1
  let j := d % r.s1 / r.s2
  if r.base ≤ off ∧ i < r.n1 ∧ j < r.n2 ∧ d % r.s1 % r.s2 = 0 then some (r.i0 + i, r.j0 + j) else none

/-- The manual's alias of the MG registers, 0x000A_0000 + o for 0x0210_0000 + o (chapter 09, Registers). -/
def unalias (off : Nat) : Nat := if 0xA0000 ≤ off ∧ off < 0xA2000 then off - 0xA0000 + 0x2100000 else off

/-- The register (and its instance) in the slot at host offset `off`, a multiple of 8 (R12, R21). -/
def regAt (off : Nat) : Option (RegId × Nat × Nat) :=
  let o := unalias off
  (mapRowsAt o).findSome? fun r => (r.at o).map fun ij => (r.reg, ij)

/-- The numbers of the shadowed (SH) fields of each kind of block: GC, FN, ST, MB, IC, MG, EP, YD, TM, PD, CAN, PI (R40). -/
def shIds : Nat → List Nat
  | 1 => [742, 743, 744, 745, 746, 747, 748, 749, 750, 751, 752, 753, 754, 755]
  | 2 => [631, 632, 633, 634, 657]
  | 3 => [775, 776, 777, 778]
  | 4 => [810, 811]
  | 5 => [697, 698, 699, 715, 716, 717, 718, 719, 720, 721, 722, 723, 724, 725, 726, 727, 728, 729, 730, 731]
  | 6 => [291, 292, 293, 294, 295, 296, 297, 298, 299, 300, 301, 302, 303, 304, 305, 347, 348, 349, 350, 351,
      352, 353, 354, 355, 356, 357, 358]
  | 7 => [213, 229, 230, 231, 232, 233, 234, 235, 236, 237, 238, 239, 243, 244, 245, 251, 252, 259, 260, 261,
      262, 263, 264, 265, 266, 267, 268, 269, 270, 271, 272, 273, 274, 275, 276]
  | 8 => [150, 164, 165, 166, 167, 168, 169, 170, 171, 172, 173, 188, 189, 190, 191, 199, 200, 201, 202, 203,
      204, 205, 206]
  | 9 => [514, 515, 516, 517, 518, 519, 520, 521, 522, 552, 553, 554, 555, 556, 557, 558, 559, 560]
  | 10 => [378, 379, 380, 381, 382, 383, 384, 385, 386, 387, 388, 389, 390, 391, 392, 393, 394, 455, 456, 457,
      458, 459, 460]
  | 11 => [465, 466, 467, 468, 469, 470, 471, 472, 473, 474, 475, 476, 477, 478, 479, 480, 481, 482, 483, 484,
      485, 486, 487, 488, 489, 490, 491, 512, 513]
  | _ => []

/-- The key of one instance (i, j) of a field in the register tables. -/
def Fld.key (f : Fld) (i j : Nat) : Nat := (f.id * 8192 + i % 8192) * 512 + j % 512

/-- The number of the field that a key of the register tables stands for, and its instances i and j. -/
def keyFld (k : Nat) : Nat := k / 4194304
def keyI (k : Nat) : Nat := k / 512 % 8192
def keyJ (k : Nat) : Nat := k % 512

end Sys2Proof.Machine
end

