-- ==== Sys2Proof/Machine/State.lean ====
section
/-! DEFINITION. The state of the part as plain data, its fault and refusal reasons, and the state after a power-on
reset. Every register field of the manual lives in the three register tables (`act`, `shd`, `cap`) under its name of
`Regs.lean`; the structures below hold the state that the chapters give the blocks beside their registers. -/

namespace Sys2Proof.Machine

/-- No command of the part stops it with a fault: every error the manual describes is reported in State and the part
goes on. The one reason is kept for a state outside the model's reach; nothing raises it, so it is safe. -/
inductive Fault
  /-- Raised by nothing (safe). -/
  | unreachable
  deriving DecidableEq, Repr

/-- Why a command is refused. -/
inductive Refusal
  /-- A row of the table that has no meaning yet; raised only by the dispatch (safe). -/
  | notModelled (mnemonic : String)
  deriving DecidableEq, Repr

/-- A time of a counter: seconds, nanoseconds and fraction in 2^-32 ns (R239). -/
structure TCnt where
  sec : Nat := 0
  ns : Nat := 0
  frac : Nat := 0
  deriving DecidableEq, Repr

/-- A time stamp as the part hands it over: seconds, and nanoseconds with 16 fraction bits (R239). -/
structure Stamp where
  sec : Nat := 0
  nsf : Nat := 0
  deriving DecidableEq, Repr

/-- A task descriptor (R113). -/
structure Task where
  w0 : Word
  w1 : Word
  deriving DecidableEq, Repr

/-- What a waiting engine waits for (R87, R89, R91). -/
inductive Wait
  | wfe (mask : BitVec 16) (tgt : Nat) | wunt (t : Nat) (tgt : Nat) | tnext
  deriving DecidableEq, Repr

/-- An engine: the registers of R64, the flags of R94 to R109 that no register table holds, its deque (R116, newest
task first) and its current task. -/
structure Eng where
  a : Word := 0
  x : Word := 0
  y : Word := 0
  bk : BitVec 12 := 0
  sp : BitVec 12 := 0
  ev : BitVec 16 := 0
  pc : BitVec 16 := 0
  psw : BitVec 6 := 8
  lc : BitVec 24 := 0
  ls : BitVec 16 := 0
  le : BitVec 16 := 0
  splim : BitVec 12 := 0
  epc : BitVec 16 := 0
  enpc : BitVec 16 := 0
  ecause : BitVec 12 := 0
  ebk : BitVec 12 := 0
  epsw : BitVec 6 := 0
  crcp : BitVec 17 := 0x01021
  /-- EID.TV, EID.INC, EID.FN. -/
  tv : Bool := false
  inc : Nat := 0
  fn : Nat := 0
  /-- The exception level EXL (R98). -/
  exl : Bool := false
  /-- Where control passes after the next instruction, when that is not the following one (R79, R100). -/
  nxt : Option (BitVec 16) := none
  /-- The next instruction is a delay slot (R79, R103), and where its branch stands (R109). -/
  slot : Option (BitVec 16) := none
  wait : Option Wait := none
  /-- The current task's descriptor and its run time in ECLK. -/
  cur : Option Task := none
  runt : Nat := 0
  /-- The quantum exception of this run of the current task was taken (R122). -/
  qTaken : Bool := false
  deque : List Task := []
  /-- The busy estimate B (R119). -/
  busy : Nat := 0
  /-- A function stop, a debug halt or the end of a debug step waits for the next interrupt point. -/
  stopPend : Bool := false
  haltReq : Bool := false
  stepReq : Bool := false
  /-- The instruction at PC was passed by a breakpoint halt once (R109). -/
  bpPass : Bool := false
  deriving DecidableEq, Repr

/-- A stable beside its registers (chapters 06 and 07). -/
structure Stb where
  /-- The overflow queue, oldest task first (R116). -/
  ovf : List Task := []
  /-- The late FIFO, oldest record first (R121). -/
  late : List Task := []
  /-- The round-robin pointer of the thieves (R118): the engine number after the last victim. -/
  rr : Nat := 0
  /-- Tasks completed since the layout was applied, up to 256 (R119). -/
  doneN : Nat := 0
  /-- The engines and the code store are clocked. -/
  clocked : Bool := false
  /-- Leave for a wake is SERVED and the engines run 1 µs later; `some true`: the wake is the stable's release (R126). -/
  starting : Option Bool := none
  /-- Tick at which leave for the wake was SERVED. -/
  startAt : Nat := 0
  /-- A wake waits for leave; `some true`: the stable's release. -/
  waking : Option Bool := none
  /-- Power-gated in DOZE (R331). -/
  powerGated : Bool := false
  /-- Since which tick every gating condition of R125 has held. -/
  idleFrom : Option Nat := none
  /-- Hand-overs that drain, by bank: the receiving function plus 1 (R140). -/
  xfer : Tab Nat := []
  /-- Hand-overs of a commit that wait for a drain to end, by bank: the function plus 1 (R151). -/
  xnext : Tab Nat := []
  /-- Accepted poison marks not yet placed (R149). -/
  pmarks : List Nat := []
  deriving DecidableEq, Repr

/-- A function beside its registers (chapter 03, R124). -/
structure FnS where
  /-- Tick at which its last reset completed (R55). -/
  lastDone : Option Nat := none
  /-- A delta deletes it once its reset ends (R60). -/
  delPend : Bool := false
  /-- It has been defined since boot (R46). -/
  wasDef : Bool := false
  /-- ECLK of engine time in the current accounting period, and the shares that govern the period (R124). -/
  used : Nat := 0
  maxP : Nat := 0
  minP : Nat := 0
  /-- A release waits for its banks to pass, and which these are, as 16 n + b (R59). -/
  releasing : Bool := false
  awaits : List Nat := []
  /-- Tick at which step 2 of a reset ended (R58). -/
  stepAt : Nat := 0
  /-- Under reset: the owners of the banks that its withdrawn requests were for, one entry a request (R60). -/
  cut : List Nat := []
  deriving DecidableEq, Repr

/-- An entry of a mailbox queue (R152): the stored word, the sender (none: a host end), its incarnation, and the
incarnation of the receiver that the sender held. -/
structure MEntry where
  w : Stored
  sFn : Option Nat
  sInc : Nat
  rInc : Nat
  deriving DecidableEq, Repr

/-- A mailbox pair beside its registers: the queues A→B and B→A, oldest first, and the tick of the last read while
both held entries (R161). -/
structure PairS where
  qa : List MEntry := []
  qb : List MEntry := []
  since : Option Nat := none
  deriving DecidableEq, Repr

/-- A request at an interconnect target (R164): initiator, function, who makes it, the loft bank it addresses at T0 to T15,
arrival tick, and whether it was flagged as starved. -/
structure IcReq where
  i : Nat
  f : Nat
  w : Who
  bank : Option Nat := none
  t0 : Nat
  flagged : Bool := false
  deriving DecidableEq, Repr

/-- An interconnect target: its queue, the requests that wait at their initiators, the burst granted last and the tick of its
grant, and the initiator granted last at each level, plus 1. -/
structure IcS where
  q : List IcReq := []
  wait : List IcReq := []
  granted : Option IcReq := none
  grantedAt : Nat := 0
  last : Tab Nat := []
  deriving DecidableEq, Repr

/-- A subscription set as its fragments arrive (R181): its TAG, the fragments received, the sum of their lengths, and the
flags HELD, AGED and SYNC seen last. -/
structure SubSet where
  tag : Nat
  got : List Nat
  len : Nat
  held : Bool
  aged : Bool
  sync : Bool
  deriving DecidableEq, Repr

/-- A Manger region beside its registers: which of its buffers is front, ready and write, the tag of the ready set, a
subscription under way, and the Paddock slots that have arrived in the current cycle. -/
structure RgnS where
  front : Nat := 0
  ready : Nat := 1
  write : Nat := 2
  rtag : Nat := 0
  sub : Option SubSet := none
  slots : List Nat := []
  deriving DecidableEq, Repr

/-- A frame that a port sends: its number in the yard, its class, whether it is preemptable and carries a congestion
mark, the counter time at its start in 2^-16 ns, the bytes of its fragments sent before, and its WAKE flag. -/
structure TxSt where
  id : Nat
  cls : Nat
  pre : Bool
  mark : Bool
  t0 : Nat
  sent : Nat
  wake : Bool
  deriving DecidableEq, Repr

/-- A record of a transmit timestamp FIFO (R201). -/
structure TxStamp where
  err : Bool
  wake : Bool
  tag : Nat
  ts : Stamp
  deriving DecidableEq, Repr

/-- A preemptable frame under reassembly (R193): its frame count, the fragment count that comes next, what has arrived of
it, and its timestamp with the WAKE flag. -/
structure Parts where
  frameCount : Nat
  next : Nat
  bytes : List Byte
  ts : Stamp
  wake : Bool
  deriving DecidableEq, Repr

/-- A port beside its registers (chapter 10). -/
structure PortS where
  tx : Option TxSt := none
  held : Option TxSt := none
  attempts : Nat := 0
  backoff : Option Nat := none
  lfsr : BitVec 32 := 1
  /-- Pause: the ticks of a stop that waits for the frame boundary, and the tick at which the stop ends (R195). -/
  pauseWait : Option Nat := none
  pauseEnd : Option Nat := none
  /-- Verify mPackets sent, and the tick of the last (R193). -/
  verifies : Nat := 0
  verAt : Nat := 0
  rxWakeAt : Option Nat := none
  txWakeAt : Option Nat := none
  idleFrom : Nat := 0
  eee : Bool := false
  stamps : List TxStamp := []
  /-- The start of a frame was taken before its end (R234): its number, and whether it is a preemptable frame. -/
  arriving : Option (Nat × Bool) := none
  /-- The preemptable frame whose fragments are being reassembled (R193). -/
  parts : Option Parts := none
  /-- The link runs as 1000BASE-T master (R200). -/
  master : Bool := false
  /-- How often the Farrier has calibrated the port (R200, R354). -/
  cals : Nat := 0
  deriving DecidableEq, Repr

/-- A frame in passing (chapter 11): its number, ingress stamp, T_in in ps of the tick count, XRES in 125 ps and whether a
slip is in it (R211), the ring slot and the relay position, if it was posted, of each segment, the words of the segments and
how many have arrived, its length and whether it ended bad, what egress has taken, whether egress is done with it, and whether
that was for an uncorrectable word. -/
structure RFrame where
  seq : Nat
  ts : Stamp
  tin : Nat
  xres : Nat
  slip : Bool
  slots : List Nat := []
  poss : List (Option Nat) := []
  words : List Word := []
  arrived : Nat := 0
  fin : Option (Nat × Bool) := none
  started : Bool := false
  egress : List Word := []
  gone : Bool := false
  ue : Bool := false
  deriving DecidableEq, Repr

/-- One direction of an in-passing pair: its frames, oldest first, the next ring slot and frame number, and the time in ps
at which the last frame ends at egress. -/
structure DirS where
  frames : List RFrame := []
  slot : Nat := 0
  seq : Nat := 0
  endPs : Nat := 0
  deriving DecidableEq, Repr

/-- An entry of the address table (R222). -/
structure AtEnt where
  mac : Nat
  vid : Nat
  static : Bool
  dlv : Bool
  fn : Nat
  pmask : Nat
  /-- Tick of its last refresh. -/
  fresh : Nat
  deriving DecidableEq, Repr

/-- Where a frame of the yard came from: a port, an engine's descriptor (stable, own-loft word, function,
incarnation), a host ring's descriptor (ring, index, function), a Manger publication (region) or telemetry. -/
inductive FSrc
  | port (p : Nat) | eng (n a f inc : Nat) | ring (r k f : Nat) | pub (k : Nat) | tel
  deriving DecidableEq, Repr

/-- A frame that a port has received and handed to the yard (R190, R199). -/
structure RxItem where
  p : Nat
  bytes : List Byte
  ts : Stamp
  wake : Bool
  deriving DecidableEq, Repr

/-- A frame in the yard's buffer: its cell lanes (R220), what it is charged to, and what its descriptor asked for. -/
structure YFrame where
  bytes : List Byte
  cells : Nat
  chg : Nat
  cls : Nat
  src : FSrc
  vid : Nat
  tagged : Bool
  ts : Stamp
  wake : Bool
  /-- Copies not yet handed over, and whether one was sent, was pushed out, or was discarded. -/
  left : Nat
  sent : Bool := false
  pushed : Bool := false
  gone : Bool := false
  copied : Bool := false
  pois : Bool := false
  tsr : Bool := false
  tstag : Nat := 0
  ltime : Nat := 0
  seqNr : Option Nat := none
  /-- The path nibble of the HSR tag it came with. -/
  lan : Option Nat := none
  ct : Bool := false
  ctBad : Bool := false
  arriving : Bool := false
  /-- The descriptor's word 0 as the yard holds it, and whether nothing more is written back to it (R227, R238). -/
  w0 : Word := 0
  closed : Bool := false
  /-- A disposition that a delivery decided (R227, R228). -/
  disp : Option Nat := none
  /-- Check errors injected into its lanes: lane numbers whose stored word is damaged, with the stored word. -/
  lanes : Tab Stored := []
  deriving DecidableEq, Repr

/-- A place in an egress queue: the frame and, on ports 12 to 16, the function it is delivered to. -/
structure QEnt where
  id : Nat
  f : Option Nat := none
  /-- It was admitted above the marking depth (R233). -/
  mark : Bool := false
  deriving DecidableEq, Repr

/-- A port's operating gate list (R235): its entries (gates, operation, interval), the base of its cycles in ns, its
cycle in ns, its counter, the entry that operates, the gates open now, and whether preemptable traffic is held. -/
structure GateS where
  oper : List (Nat × Nat × Nat) := []
  base : Nat := 0
  cyc : Nat := 0
  dom : Nat := 0
  idx : Nat := 0
  gates : Nat := 0xff
  hold : Bool := false
  deriving DecidableEq, Repr

/-- A duplicate-discard entry (R321): source, highest SeqNr, the record of the last 256, the tick of its last use. -/
structure DdEnt where
  src : Nat
  high : Nat
  seenRec : BitVec 256
  used : Nat
  deriving DecidableEq, Repr

/-- A descriptor that waits in the queue of YD.SUB (R226): its own-loft word, and the function and incarnation that it acts
for. -/
structure SubEnt where
  a : Nat
  f : Nat
  inc : Nat
  deriving DecidableEq, Repr

/-- The yard beside its registers (chapter 12). -/
structure YardS where
  /-- The switch ports with a PORT record in the layout (R237). -/
  known : List Nat := []
  table : List AtEnt := []
  inbox : List RxItem := []
  /-- The queues of YD.SUB by stable, and the stable that each stable port serves next (R219, R226). -/
  subQ : Tab (List SubEnt) := []
  subNext : Tab Nat := []
  frames : Tab (Option YFrame) := []
  nextId : Nat := 0
  /-- Egress queues, by 8·port + class, oldest first; launch queues by port. -/
  queues : Tab (List QEnt) := []
  launch : Tab (List QEnt) := []
  /-- A launch frame whose time has come, by port: its number plus 1. -/
  due : Tab Nat := []
  poolNext : Tab Nat := []
  /-- The next descriptor of each host transmit ring that the yard takes. -/
  htxNext : Tab Nat := []
  hrx : Tab (List Word) := []
  gate : Tab GateS := []
  /-- The running table command: its OP and the outcome that RES will show (R237). -/
  cmd : Option (Nat × Nat) := none
  /-- Ring vectors that must not be sent before a tick, and those with write-backs to cover (R363). -/
  holdoff : Tab Nat := []
  owed : List Nat := []
  deriving DecidableEq, Repr

/-- A ramp of a servo (R251): its start offset in 2^-16 ns, start tick and length in ticks. -/
structure Ramp where
  h0 : Int
  t0 : Nat
  w : Nat
  deriving DecidableEq, Repr

/-- A servo beside its registers (R250 to R252); offsets in 2^-16 ns, rates in 2^-16 ppb. -/
structure SvS where
  lockN : Nat := 0
  offN : Nat := 0
  prev : Option (Int × Nat) := none
  ramp : Option Ramp := none
  /-- A newly selected reference has not yet delivered its first sample. -/
  await : Bool := false
  /-- The reference selected before the ramp under way began. -/
  before : Option Nat := none
  y : Int := 0
  deriving DecidableEq, Repr

/-- A pulse generator (R254): the output is in its pulse, when that pulse falls (ns of the counter that it began by, or the
tick that a step set) and on which pin and polarity, the next edge's number, whether its one pulse is spent, whether the
pulse that is high is a one-shot's, and whether its
START was past when it began. -/
structure PgS where
  high : Bool := false
  fallAt : Nat := 0
  dom : Nat := 0
  endTick : Option Nat := none
  pin : Nat := 0
  pol : Bool := false
  k : Nat := 0
  spent : Bool := false
  last : Bool := false
  late : Bool := false
  deriving DecidableEq, Repr

/-- A candidate position of the Paddock receiver (R266): the bit count of its last frame and how many were found. -/
structure Cand where
  pos : Nat
  n : Nat
  deriving DecidableEq, Repr

/-- The Paddock bit engine beside its registers (chapter 14). -/
structure PdS where
  cands : List Cand := []
  lastRef : Option Nat := none
  enabledAt : Nat := 0
  /-- The node runs its schedule: LISTEN passed (master) or alignment or lone mastership reached. -/
  started : Bool := false
  lfsr : BitVec 32 := 1
  theta : Int := 0
  cycle : Nat := 0
  /-- The current cycle: reference accepted; a reference sent; valid frames per node on each channel; slots sent. -/
  refSeen : Bool := false
  refSent : Bool := false
  seen : BitVec 64 := 0
  chA : Bool := false
  chB : Bool := false
  sentSlots : List Nat := []
  /-- The tick at which the back-off in each contended slot ends. -/
  boff : Tab Nat := []
  /-- The last 58 bits that the scrambler sent, the latest in bit 0 (R261). -/
  scr : BitVec 58 := 0
  /-- TC0 in ns as its last step left it, and the tick of that step (R278). -/
  cutNs : Nat := 0
  cutTick : Nat := 0
  /-- A step has cut the cycle under way (R278). -/
  cut : Bool := false
  /-- The first cycle in which a unit that starts to drive sends reference messages (R318). -/
  refFrom : Option Nat := none
  /-- The cycle timing taken from the reference messages: the start of a cycle in 125 ps of the tick count, and its number. -/
  anchor : Int := 0
  anchorK : Nat := 0
  deriving DecidableEq, Repr

/-- A stored CAN frame (R287). -/
structure CanRx where
  hdr : Word
  ts : Nat
  data : List Word
  deriving DecidableEq, Repr

/-- A CAN controller beside its registers (chapter 15): the receive FIFO, the buffer on the bus with the tick count of
its start and whether its request was withdrawn, whether anything was heard since it became error passive, and its own
count of TEC above the register's range. -/
structure CanS where
  fifo : List CanRx := []
  bus : Option Nat := none
  sof : Nat := 0
  abort : Bool := false
  heard : Bool := true
  /-- LONE was reported in this passive period (R291); monitoring until the next frame start point (R318). -/
  lone : Bool := false
  mon : Bool := false
  deriving DecidableEq, Repr

/-- A pin machine (R297) with the state of its step: the stall code of STAT, a pending injection, whether the
instruction under way is the injected one, a stamp's target, and the level a change wait began with. -/
structure PmS where
  pc : Nat := 0
  c0 : BitVec 16 := 0
  c1 : BitVec 16 := 0
  g : Word := 0
  th : Word := 0
  tn : Nat := 0
  rg : Word := 0
  rn : Nat := 0
  lst : BitVec 32 := 0
  txf : List Word := []
  rxf : List Word := []
  stall : Nat := 0
  inj : Option (BitVec 24) := none
  tgt : Option (BitVec 32) := none
  chg : Option Bool := none
  /-- MOP 2 has raised its flag. -/
  marked : Bool := false
  /-- It has run since the layout image was applied or its owner was reset (R294). -/
  live : Bool := false
  /-- The tick, plus one, of the last word written to the empty transmit FIFO (R303). -/
  txAt : Nat := 0
  /-- The instruction in which it stalls. -/
  cur : Option (BitVec 24) := none
  /-- The tick of the pending injection, and whether the injected instruction was abandoned and waits for RUN (R305). -/
  injAt : Nat := 0
  held : Bool := false
  /-- RUN was written 0 within a step, whose instruction still completes; and, in 1/256 ticks, where a stop within idle steps
  takes effect (R305). -/
  halting : Bool := false
  haltAt : Nat := 0
  /-- Where its next step begins, in 1/256 ticks (R298). -/
  at256 : Nat := 0
  deriving DecidableEq, Repr

/-- A PIO pin: the level and direction its driver holds (R294), and how long before its tick the last edge stood, in 125 ps
(R254). -/
structure PinS where
  lvl : Bool := false
  dir : Bool := false
  trim : Nat := 0
  deriving DecidableEq, Repr

/-- The partner's last STATUS message (R309). -/
structure TwMsg where
  n : Nat
  health : Nat
  role : Nat
  unit : Nat
  yreq : Bool
  swreq : Bool
  tst : Nat
  digest : Nat
  cfgd : Nat
  sdn : Nat
  deriving DecidableEq, Repr

/-- The twin unit beside its registers (chapter 17). -/
structure TwS where
  msg : Option TwMsg := none
  /-- Listening until this tick after the layout was applied. -/
  listen : Option Nat := none
  /-- The role that the next instant brings, with its CAUSE. -/
  next : Option (Nat × Nat) := none
  /-- This unit's flags for its next STATUS: YREQ, SWREQ; and the instant at which a return takes place. -/
  yreq : Bool := false
  swreq : Bool := false
  swAt : Option Nat := none
  /-- The instant at which the return that the partner requested takes place; the latest STATUS sent: its instant and TST; the
  HEALTH that the STATUS of an instant carries; a STATUS has come since the latest instant. -/
  giveAt : Option Nat := none
  sent : Option (Nat × Nat) := none
  healthAt : Option (Nat × Nat) := none
  fresh : Bool := false
  /-- A targeted self-test is to start, or runs alone under STEST. -/
  testDue : Bool := false
  alone : Bool := false
  /-- Tick at which the test started; the last test failed (HEALTH bit 5); a STATUS has carried the test's outcome. -/
  testFrom : Nat := 0
  failed : Bool := false
  tstSent : Bool := false
  /-- The partner is a STANDBY suspected after a test that both passed (R313). -/
  herSusp : Bool := false
  /-- The role that `next` brings is a take-over from a failed partner. -/
  take : Bool := false
  /-- Tick since which the unit has been healthy, and since which it has been STANDBY. -/
  healthyFrom : Option Nat := none
  standbyFrom : Option Nat := none
  holdoff : Bool := false
  /-- Instants in a row with SYNC not 1, and for each owner of an output region those in which it was not RUNNING. -/
  nosync : Nat := 0
  notrun : Tab Nat := []
  ueSeen : Bool := false
  hot : Bool := false
  /-- PAIRMAC frames submitted since the latest instant (R319), and duplicate discard (R321). -/
  subs : Nat := 0
  seqNo : Nat := 0
  dd : List DdEnt := []
  /-- What the witnesses have shown since the latest instant (R315). -/
  ownNode : Bool := false
  ownMac : Bool := false
  deriving DecidableEq, Repr

/-- What an Ostler grant or request is for: training of a link (0 to 11 the ports, 12 the twin link, 13 PCIe), a self-test, the
key slots, the flash service, the flash log, the wake of a stable, or a lease. -/
inductive OUse
  | train (link : Nat) | bist | key | flash | log | wake (n : Nat) | lease (i : Nat) (eng : Option Nat)
  deriving DecidableEq, Repr

/-- A request or grant of the Ostler (R336): its number, use, function, incarnation, tokens, whether hardware is charged
to F0, its tick, and whether the cap (not only the ramp) holds it back. -/
structure OReq where
  id : Nat
  use : OUse
  fn : Nat
  inc : Nat
  cost : Nat
  hw : Bool
  t0 : Nat
  byCap : Bool := false
  deriving DecidableEq, Repr

/-- The power path and the Ostler beside their registers (chapter 18). -/
structure PwS where
  grants : List OReq := []
  queue : List OReq := []
  nextId : Nat := 0
  lastWake : Option Nat := none
  /-- Tick at which VBAK took VINT over. -/
  bakFrom : Option Nat := none
  /-- Tick since which each source is good (0 VIN_PD, 1 VAUX, 2 VBAK), and of the end of the last hand-over (R329). -/
  goodAt : Tab Nat := []
  hsmEnd : Nat := 0
  /-- The source that the running hand-over or hand-back moves to. -/
  moveTo : Nat := 0
  handback : Bool := false
  forcedRun : Bool := false
  forcedHeld : Bool := false
  /-- Wake sources latched during entry or for want of a source (R333). -/
  latched : BitVec 6 := 0
  overtemp : Bool := false
  /-- A powered-device detection has sampled PDCLS since the power-path die was last unpowered (R372). -/
  detected : Bool := false
  /-- Tick at which the alarm of KSEC.ALM elapses. -/
  alarmAt : Option Nat := none
  /-- Tick at which the transition under way began, and of power-on. -/
  transFrom : Nat := 0
  onAt : Nat := 0
  deriving DecidableEq, Repr

/-- Where the boot of R345 stands. -/
inductive Phase
  | pll | retry | hostWait | halter | running | rest | keep | off
  deriving DecidableEq, Repr

/-- Boot, configuration and upkeep beside their registers (chapters 02 and 19). -/
structure BootS where
  phase : Phase := .pll
  straps : Straps := ⟨0, 0, 0, 0⟩
  /-- Validation of a host image has started; its words stand in the lofts of ST14 and ST15. -/
  himgBusy : Bool := false
  hostFrom : Nat := 0
  /-- Tick at which the boot watchdog expires. -/
  wdEnd : Option Nat := none
  bootCpl : Bool := false
  /-- From the applied image: SDN, SEC word, the sections present (bit per TYPE) and the CRC-32C of R309. -/
  sdn : Nat := 0
  sec : Nat := 0
  present : Nat := 0
  cfgd : Nat := 0
  stblMask : Nat := 0
  /-- Start tasks of STBL (R128): function and descriptor word. -/
  starts : List (Nat × Word) := []
  /-- A delta under way: its IMGVER, its blocks; and the blocks that GC.COMMIT has triggered. -/
  delta : Option Nat := none
  deltaBlocks : List Block := []
  /-- The delta waits for the resets of the functions that it deletes (R45). -/
  deltaWait : Bool := false
  /-- The functions that the delta defines, and whether their entries are in the FN set that is held behind a captured one
  (R41, R46). -/
  news : List Nat := []
  newsHeld : Bool := false
  gcTrig : List Block := []
  gcInst : Bool := false
  /-- The running key operation: slot, and the hash to store (none: revoke). -/
  keyOp : Option (Nat × Option Nat) := none
  keyHash : Tab Nat := []
  /-- The running flash command: OP and sector. -/
  flOp : Option (Nat × Nat) := none
  erCnt : Tab Nat := []
  logAt : Nat := 0
  logTokens : Nat := 16
  /-- The records that wait for the Ostler's leave: word 0 and the words after it (R335, R352). -/
  logWait : List (Word × List Nat) := []
  /-- A telemetry record stands that nobody has read (R356); the stress that each stable has borne (R355, R383). -/
  telNew : Bool := false
  ageAcc : Tab Nat := []
  telN : Nat := 0
  /-- Corrected and uncorrectable words since the last telemetry record (R356). -/
  telCe : Nat := 0
  telUe : Nat := 0
  idleGap : Tab Nat := []
  farCode : Nat := 0
  deriving DecidableEq, Repr

/-- The host ports beside their registers (chapter 20). -/
structure HostS where
  /-- Disposition of the last write on the quad-SPI and on the management port. -/
  qspiDisp : Nat := 0
  i2cDisp : Nat := 0
  i2cOff : Nat := 0
  pcieUp : Bool := false
  /-- MSI-X Enable of each PCIe function, the vectors unmasked, and the vectors pending in the PBA. -/
  msixEn : BitVec 16 := 0
  unmasked : List Nat := []
  pba : List Nat := []
  /-- JTAG: the instruction, the boundary cells, and of the last access of DBGACC the data, the disposition and the WR and
  offset bits. -/
  jtagIr : Nat := 2
  cells : List Bool := []
  preload : List Bool := []
  drive : Bool := false
  dbgData : Word := 0
  dbgDisp : Nat := 0
  dbgReq : Nat := 0
  /-- The last write on the quad-SPI, on the management port, and the last access of DBGACC may still be carried out (R366 to
  R368). -/
  qspiPend : Bool := false
  i2cPend : Bool := false
  dbgPend : Bool := false
  deriving DecidableEq, Repr

/-- What leaves the part: a response on a host port (status byte and the slots read), an MSI-X message, a frame on a
port (with its FCS right or inverted), a write-back to host memory, a STATUS message, a Paddock frame, a CAN frame, a
verify mPacket, a JTAG response. -/
inductive Out
  | resp (w : Who) (disp : Nat) (data : List Word) (pois : Bool)
  | status (b : Byte)
  | msix (v : Nat)
  | frame (p : Nat) (bytes : List Byte) (fcsGood : Bool)
  | dma (r k : Nat) (ws : List Word)
  | twin (w0 w1 w2 : Word)
  | paddock (edge : Nat) (line : List Bool)
  | can (n k : Nat) (fr : CanFrame)
  | canAck (n : Nat)
  | canFlag (n : Nat) (active : Bool)
  | mpacket (p : Nat)
  | jtag (v : Nat)
  | i2cNack
  deriving DecidableEq, Repr

/-- The state of the part. -/
structure State where
  /-- The commands that wait, first in, first out. -/
  pending : List Instr := []
  /-- TCLK ticks since power-on (the model's own count), and its value at which TK was 0 and a period last began. -/
  tick : Nat := 0
  tkBase : Nat := 0
  period : Nat := 0
  /-- The count that free values are drawn by (the model's own). -/
  fresh : Nat := 0
  /-- The register fields: active copies and fields without a shadow; shadow copies; captured copies (R40). -/
  act : Tab Nat := []
  shd : Tab Nat := []
  cap : Tab Nat := []
  /-- The values that the applied layout image gave the fields with reset mark L (R13, R16). -/
  lay : Tab Nat := []
  /-- Blocks with a GO held one deep (R41). -/
  heldGo : List Block := []
  /-- The memories of R143: lofts (65,536 n + w), code stores (32,768 n + w), the engines' own memories (4,096 e + w),
  the Manger and GC.STAGE; and the scrub write-backs that are due (R150). -/
  loft : Mem := []
  code : Mem := []
  priv : Mem := []
  mg : Mem := []
  stage : Mem := []
  scrub : List SramWord := []
  /-- Code stores, engines' memories and GC.STAGE came back from REST, which does not retain them: the count of that
  return, else 0 (the model's own; their tables hold the words XORed with what was left there). -/
  lost : Nat := 0
  /-- The flash die by 8-byte slot; an unlisted slot is erased. -/
  flash : Tab (BitVec 64) := []
  eng : Tab Eng := []
  stb : Tab Stb := []
  fns : Tab FnS := []
  pairs : Tab PairS := []
  ic : Tab IcS := []
  rgn : Tab RgnS := []
  /-- Tick of the last common instant, and whether TC0 was stepped since (R173). -/
  lastInst : Option Nat := none
  /-- The tick of the last instant, skipped or not. -/
  seenInst : Option Nat := none
  jumpDue : Bool := false
  ports : Tab PortS := []
  dirs : Tab DirS := []
  yard : YardS := {}
  tc : Tab TCnt := []
  /-- Steps that wait for their tick, by counter (R242): the tick, and the time to set or the ns to add. -/
  steps : Tab (Option (Nat × Bool × TCnt × Int)) := []
  /-- The tick of each counter's last step, plus 1 (R245). -/
  steppedAt : Tab Nat := []
  sv : Tab SvS := []
  /-- Tick of each reference's last sample, plus 1. -/
  refs : Tab Nat := []
  pg : Tab PgS := []
  pd : PdS := {}
  can : Tab CanS := []
  pm : Tab PmS := []
  pins : Tab PinS := []
  /-- What stood on each PIO pin before its changes, with the tick of each change, the latest first (R299). -/
  pinPast : Tab (List (Nat × Bool × Bool)) := []
  /-- The tick of the last raise of each block flag, plus 1 (R302). -/
  flagAt : Tab Nat := []
  tw : TwS := {}
  pw : PwS := {}
  boot : BootS := {}
  host : HostS := {}
  out : List Out := []
  deriving DecidableEq, Repr

/-- The part at the end of a power-on reset (R344, R345 step 2): every register at its reset value, every memory
reading zero, the root PLL not yet locked, no command waiting.
(DESIGN CHOICE, log entry 2) -/
def State.reset : State := {}

end Sys2Proof.Machine
end

