-- ==== Sys2Proof/Machine/Ops.lean ====
section
/-! DEFINITION. The named operations over State that every family uses: register fields and counters, hidden tables,
who an access acts for, the commit convention, the check code and the memories. -/

namespace Sys2Proof.Machine

/-! ### Register fields -/

/-- The value of a register field (R13): what was last stored, else its reset value. -/
def State.fld (s : State) (f : Fld) (i : Nat := 0) (j : Nat := 0) : Nat := Tab.get f.reset s.act (f.key i j)

/-- A register field as a flag. -/
def State.on (s : State) (f : Fld) (i : Nat := 0) (j : Nat := 0) : Bool := s.fld f i j != 0

/-- Store a register field; a value keeps the low bits that fit (R64). -/
def State.put (s : State) (f : Fld) (v : Nat) (i : Nat := 0) (j : Nat := 0) : State :=
  { s with act := Tab.set f.reset s.act (f.key i j) (v % 2 ^ f.width) }

/-- A field stored from a signed number. -/
def State.putInt (s : State) (f : Fld) (v : Int) (i : Nat := 0) (j : Nat := 0) : State :=
  s.put f (ofSigned f.width v) i j

/-- Count `n` events in a saturating counter (R15). -/
def State.bump (s : State) (f : Fld) (i : Nat := 0) (j : Nat := 0) (n : Nat := 1) : State :=
  s.put f (min (s.fld f i j + n) (2 ^ f.width - 1)) i j

/-- A register's word as its fields hold it. -/
def State.word (s : State) (r : RegId) (i : Nat := 0) (j : Nat := 0) : Nat :=
  (r.flds.map fun f => s.fld f i j * 2 ^ f.lo).sum

/-- The shadow copy of an SH field (R14). -/
def State.shadow (s : State) (f : Fld) (i : Nat := 0) (j : Nat := 0) : Nat := Tab.get f.reset s.shd (f.key i j)

/-- Store the shadow copy of an SH field. -/
def State.putShadow (s : State) (f : Fld) (v : Nat) (i : Nat := 0) (j : Nat := 0) : State :=
  { s with shd := Tab.set f.reset s.shd (f.key i j) (v % 2 ^ f.width) }

/-- Store a field in its shadow and its active copy, as the application of an image does (R39). -/
def State.putBoth (s : State) (f : Fld) (v : Nat) (i : Nat := 0) (j : Nat := 0) : State :=
  let t := (s.put f v i j).putShadow f v i j
  { t with lay := Tab.set f.reset t.lay (f.key i j) (v % 2 ^ f.width) }

/-- The value a field acts with: a value that its table reserves acts as the reset value, which for mark L is what the
applied image gave (R16).
(DEDUCED, log entry 14) -/
def State.eff (s : State) (f : Fld) (reserved : Nat → Bool) (i : Nat := 0) (j : Nat := 0) : Nat :=
  if reserved (s.fld f i j) then Tab.get f.reset s.lay (f.key i j) else s.fld f i j

/-! ### Hidden tables -/

def State.e (s : State) (n : Nat) : Eng := Tab.get {} s.eng n
def State.setE (s : State) (n : Nat) (x : Eng) : State := { s with eng := Tab.set {} s.eng n x }
def State.st (s : State) (n : Nat) : Stb := Tab.get {} s.stb n
def State.setSt (s : State) (n : Nat) (x : Stb) : State := { s with stb := Tab.set {} s.stb n x }
def State.fn (s : State) (f : Nat) : FnS := Tab.get {} s.fns f
def State.setFn (s : State) (f : Nat) (x : FnS) : State := { s with fns := Tab.set {} s.fns f x }
def State.pair (s : State) (m : Nat) : PairS := Tab.get {} s.pairs m
def State.setPair (s : State) (m : Nat) (x : PairS) : State := { s with pairs := Tab.set {} s.pairs m x }
def State.icT (s : State) (t : Nat) : IcS := Tab.get {} s.ic t
def State.setIc (s : State) (t : Nat) (x : IcS) : State := { s with ic := Tab.set {} s.ic t x }
def State.rg (s : State) (k : Nat) : RgnS := Tab.get {} s.rgn k
def State.setRg (s : State) (k : Nat) (x : RgnS) : State := { s with rgn := Tab.set {} s.rgn k x }
def State.port (s : State) (p : Nat) : PortS := Tab.get {} s.ports p
def State.setPort (s : State) (p : Nat) (x : PortS) : State := { s with ports := Tab.set {} s.ports p x }
def State.dir (s : State) (k d : Nat) : DirS := Tab.get {} s.dirs (2 * k + d)
def State.setDir (s : State) (k d : Nat) (x : DirS) : State := { s with dirs := Tab.set {} s.dirs (2 * k + d) x }
def State.ctr (s : State) (i : Nat) : TCnt := Tab.get {} s.tc i
def State.setCtr (s : State) (i : Nat) (x : TCnt) : State := { s with tc := Tab.set {} s.tc i x }
def State.servo (s : State) (j : Nat) : SvS := Tab.get {} s.sv j
def State.setServo (s : State) (j : Nat) (x : SvS) : State := { s with sv := Tab.set {} s.sv j x }
def State.pulse (s : State) (g : Nat) : PgS := Tab.get {} s.pg g
def State.setPulse (s : State) (g : Nat) (x : PgS) : State := { s with pg := Tab.set {} s.pg g x }
def State.cn (s : State) (n : Nat) : CanS := Tab.get {} s.can n
def State.setCn (s : State) (n : Nat) (x : CanS) : State := { s with can := Tab.set {} s.can n x }
/-- Machine `m` of block `b`. -/
def State.mach (s : State) (b m : Nat) : PmS := Tab.get {} s.pm (8 * b + m)
def State.setMach (s : State) (b m : Nat) (x : PmS) : State := { s with pm := Tab.set {} s.pm (8 * b + m) x }
def State.pin (s : State) (p : Nat) : PinS := Tab.get {} s.pins p
def State.setPin (s : State) (p : Nat) (x : PinS) : State := { s with pins := Tab.set {} s.pins p x }

/-- Draw the next free value's number.
(DESIGN CHOICE, log entry 3) -/
def State.draw (s : State) : Nat × State := (s.fresh, { s with fresh := s.fresh + 1 })

/-- Something leaves the part. -/
def State.emit (s : State) (o : Out) : State := { s with out := s.out ++ [o] }

/-! ### Time -/

/-- TK, the 32-bit tick count (R244). -/
def State.tk (s : State) : Nat := (s.tick - s.tkBase) % 2 ^ 32

/-- Ticks of 4 ns in a microsecond. -/
def tickUs : Nat := 250

/-! ### Layout and functions -/

/-- A layout is applied. -/
def State.applied (s : State) : Bool := s.on F.gcLaystat_APPLIED

/-- The root PLL is locked and the logic die's clocks run. -/
def State.clocksOn (s : State) : Bool :=
  match s.boot.phase with
  | .hostWait => true
  | .halter => true
  | .running => true
  | _ => false

/-- The columns of R373. -/
inductive Column
  | unpowered | reset | beforeLayout | halter | running
  deriving DecidableEq, Repr

/-- The column of R373 that the balls of the logic die are in; REST and KEEP power the die off (R28, R330, R345).
(DEDUCED, log entry 109) -/
def State.column (s : State) : Column :=
  match s.boot.phase with
  | .off => .unpowered
  | .rest => .unpowered
  | .keep => .unpowered
  | .pll => .reset
  | .retry => .reset
  | .halter => .halter
  | .hostWait => if s.applied then .running else .beforeLayout
  | .running => if s.applied then .running else .beforeLayout

/-- STATE of FN[f].STATUS; F0 is always RUNNING (R386). -/
def State.fnState (s : State) (f : Nat) : Nat := if f = 0 then 2 else s.fld F.fnStatus_STATE f

/-- The current incarnation of a function (R53). -/
def State.inc (s : State) (f : Nat) : Nat := s.fld F.fnStatus_INC f

/-- The access comes over the JTAG debug port, which reaches the registers of R107 alone (R107, R368). -/
def isJtag : Who → Bool
  | .jtag => true
  | _ => false

/-- An access of a host port or an engine reaches the part: the logic die's clocks run, and a PCIe function's link is up (R26,
R28, R361). -/
def State.heard (s : State) (w : Who) : Bool :=
  s.clocksOn && match w with
    | .pf => s.host.pcieUp
    | .vf _ => s.host.pcieUp
    | _ => true

/-- The PCIe virtual function bound to function `f`, as its number; 0 for none. An undefined function's entry reads zero
(R57, R60). -/
def State.vfOf (s : State) (f : Nat) : Nat := if s.fnState f = 0 then 0 else s.fld F.fnCfg_VF f

/-- The stable's code store and engines run: enabled, released, clocked and not power-gated. -/
def State.awake (s : State) (n : Nat) : Bool := (s.st n).clocked && !(s.st n).powerGated

/-- The function an engine acts for (R71). -/
def State.engFn (s : State) (e : Nat) : Nat := if (s.e e).tv then (s.e e).fn else 0

/-- The engine is in supervisor mode (R94). -/
def State.engSup (s : State) (e : Nat) : Bool := (s.e e).psw.getLsbD 3

/-- A supervisor access (R136). -/
def State.supervisor (s : State) : Who → Bool
  | .pf => true
  | .qspi => true
  | .mgmt => true
  | .farrier => true
  | .engine e => s.engFn e == 0 && s.engSup e
  | .vf _ => false
  | .jtag => false

/-- The access acts for function `f` (R136). -/
def State.actsFor (s : State) (w : Who) (f : Nat) : Bool :=
  match w with
  | .engine e => s.engFn e == f
  | .vf r => s.vfOf f == r.val + 1
  | .pf => f == 0
  | .qspi => f == 0
  | .mgmt => f == 0
  | .farrier => f == 0
  | .jtag => false

/-- The one function that a request of the access is charged to: an engine's function, else F0 (R339). -/
def State.reqFn (s : State) : Who → Nat
  | .engine e => s.engFn e
  | _ => 0

/-- The incarnation carried with it. -/
def State.reqInc (s : State) : Who → Nat
  | .engine e => if (s.e e).tv then (s.e e).inc else 0
  | _ => 0

/-! ### The commit convention (R40 to R43) -/

/-- The kind of a block, and which one of its kind it is, as the register tables number them. -/
def blkKind : Block → Nat × Nat
  | .gc => (0, 0)
  | .fn => (1, 0)
  | .st n => (2, n)
  | .mb => (3, 0)
  | .ic t => (4, t)
  | .mg => (5, 0)
  | .ep n => (6, n)
  | .yd => (7, 0)
  | .tm => (8, 0)
  | .pd => (9, 0)
  | .can n => (10, n)
  | .pi b => (11, b)

/-- The kinds of block of which the part has more than one. -/
def blkMany (k : Nat) : Bool := k == 2 || k == 4 || k == 6 || k == 10 || k == 11

/-- BOUND of the block's COMMIT register: 0 next cycle, 1 end of frame, 2 end of schedule cycle, 3 arbitration point,
4 common instant (R40). -/
def blkBound : Block → Nat
  | .ep _ => 1
  | .can _ => 1
  | .pd => 2
  | .ic _ => 3
  | .mg => 4
  | _ => 0

/-- A key of the register tables belongs to the block's shadow set. -/
def inBlk (b : Block) (k : Nat) : Bool :=
  (shIds (blkKind b).1).contains (keyFld k) && (!blkMany (blkKind b).1 || keyI k == (blkKind b).2)

/-- The table `dst` with the block's set replaced by that of `src`. -/
def copyBlk (b : Block) (src dst : Tab Nat) : Tab Nat :=
  (src.filter fun e => inBlk b e.1).foldl (fun d e => Tab.ins d e.1 e.2) (dst.filter fun e => !inBlk b e.1)

/-- A field of the block's COMMIT register. -/
def State.cfld (s : State) (f : Fld) (b : Block) : Nat := s.fld f (blkKind b).1 (blkKind b).2
def State.cput (s : State) (f : Fld) (v : Nat) (b : Block) : State := s.put f v (blkKind b).1 (blkKind b).2

/-- Capture the block's shadow set: DIRTY clears and PEND sets (R40). -/
def capture (b : Block) (s : State) : State :=
  ({ s with cap := copyBlk b s.shd s.cap }.cput F.commit_DIRTY 0 b).cput F.commit_PEND 1 b

/-- A write of GO to the block's COMMIT register: capture, or hold the commit one deep while PEND is 1 (R40, R41). -/
def commitGo (b : Block) (s : State) : State :=
  if s.cfld F.commit_PEND b = 1 then
    if s.heldGo.contains b then s else { s with heldGo := b :: s.heldGo }
  else capture b s

/-- Block `b` has cleared PEND: it is no longer one that GC.COMMIT waits for, and GC.COMMIT is complete with the last of
them (R43). -/
def gcSettle (b : Block) (s : State) : State :=
  if !s.boot.gcTrig.contains b || s.cfld F.commit_PEND b = 1 then s
  else
    let l := s.boot.gcTrig.filter (· ≠ b)
    let s := { s with boot := { s.boot with gcTrig := l } }
    if l = [] ∧ !s.boot.gcInst then s.put F.commit_CSEQ (s.fld F.commit_CSEQ + 1) else s

/-- The captured set becomes active: PEND clears, CSEQ counts, and a held commit captures (R40, R41). -/
def activate (b : Block) (s : State) : State :=
  let s := { s with act := copyBlk b s.cap s.act }
  let s := (s.cput F.commit_PEND 0 b).cput F.commit_CSEQ (s.cfld F.commit_CSEQ b + 1) b
  gcSettle b (if s.heldGo.contains b then capture b { s with heldGo := s.heldGo.filter (· ≠ b) } else s)

/-- Restore the block's shadows from its active copy (R45). -/
def restoreShadow (b : Block) (s : State) : State :=
  { s with shd := copyBlk b s.act s.shd }.cput F.commit_DIRTY 0 b

/-- Every block with a COMMIT register but GC. -/
def allBlocks : List Block :=
  [.fn] ++ (List.finRange 16).map .st ++ [.mb] ++ (List.finRange 19).map .ic ++ [.mg] ++ (List.finRange 12).map .ep
    ++ [.yd, .tm, .pd] ++ (List.finRange 4).map .can ++ (List.finRange 4).map .pi

/-- Write GO to every block whose DIRTY reads 1 and note the blocks triggered; with none to wait for the commit is complete
at once (R43).
(DEDUCED, log entry 69) -/
def commitAllDirty (s : State) : State :=
  let bs := allBlocks.filter fun b => s.cfld F.commit_DIRTY b = 1
  let s := bs.foldl (fun s b => commitGo b s)
    { s with boot := { s.boot with gcTrig := (s.boot.gcTrig ++ bs).eraseDups, gcInst := false } }
  if s.boot.gcTrig = [] then s.put F.commit_CSEQ (s.fld F.commit_CSEQ + 1) else s

/-- A write of GO to GC.COMMIT: at once, or with INST set at the next common instant (R43). -/
def gcCommit (inst : Bool) (s : State) : State :=
  if inst then { s with boot := { s.boot with gcInst := true } } else commitAllDirty s

/-- GC.COMMIT.PEND (R43). -/
def State.gcPend (s : State) : Bool := s.boot.gcInst || s.boot.gcTrig ≠ []

/-- A write of an SH field by anyone but the Farrier: the shadow takes it and the block is DIRTY, or it is ignored with
CLASH while a delta that names the block is applied (R14, R47). -/
def writeShadow (b : Block) (f : Fld) (v i j : Nat) (s : State) : State :=
  if s.on F.gcLaystat_APPLYING && s.boot.deltaBlocks.contains b then s.put F.gcLaystat_CLASH 1
  else (s.putShadow f v i j).cput F.commit_DIRTY 1 b

/-! ### The check code (R143, R144) -/

/-- The columns of data bits 0 to 47: the 8-bit values with exactly three bits set, in rising order (R143). -/
def eccColumns : List Nat :=
  [0x07, 0x0B, 0x0D, 0x0E, 0x13, 0x15, 0x16, 0x19, 0x1A, 0x1C, 0x23, 0x25, 0x26, 0x29, 0x2A, 0x2C,
   0x31, 0x32, 0x34, 0x38, 0x43, 0x45, 0x46, 0x49, 0x4A, 0x4C, 0x51, 0x52, 0x54, 0x58, 0x61, 0x62,
   0x64, 0x68, 0x70, 0x83, 0x85, 0x86, 0x89, 0x8A, 0x8C, 0x91, 0x92, 0x94, 0x98, 0xA1, 0xA2, 0xA4]

/-- The check byte of a data word: the exclusive OR of the columns of its bits that are 1 (R143). -/
def checkByte (w : Word) : BitVec 8 :=
  (eccColumns.zipIdx).foldl (fun c e => if w.getLsbD e.2 then c ^^^ BitVec.ofNat 8 e.1 else c) 0

/-- A word with a fresh check byte. -/
def sealW (w : Word) : Stored := checkByte w ++ w

/-- The data bits and the check bits of a stored word. -/
def Stored.data (x : Stored) : Word := x.extractLsb' 0 48
def Stored.check (x : Stored) : BitVec 8 := x.extractLsb' 48 8

/-- The syndrome of a stored word (R144). -/
def syndrome (x : Stored) : BitVec 8 := Stored.check x ^^^ checkByte (Stored.data x)

/-- The stored word with the poison mark: its check byte XOR 0xFF (R149). -/
def poison (x : Stored) : Stored := (checkByte (Stored.data x) ^^^ 0xFF) ++ Stored.data x

/-- A word written with its data and the poison mark, as an uncorrectable transfer leaves it (R145). -/
def poisonW (w : Word) : Stored := poison (sealW w)

/-- What a read of a stored word finds (R144). -/
inductive Rd
  | ok (w : Word)
  | ce (w : Word)
  | ue (w : Word) (syn : BitVec 8)
  deriving DecidableEq, Repr

/-- Read a stored word by its syndrome (R144). -/
def readCode (x : Stored) : Rd :=
  let d := Stored.data x
  let y := syndrome x
  if y = 0 then .ok d
  else if y = 0xFF then .ue d y
  else if [1, 2, 4, 8, 16, 32, 64, 128].contains y.toNat then .ce d
  else match eccColumns.findIdx? (· == y.toNat) with
    | some i => .ce (d ^^^ BitVec.ofNat 48 (2 ^ i))
    | none => .ue d y

/-- The word a reader takes: corrected where that is possible, else the stored data bits. -/
def Rd.word : Rd → Word
  | .ok w => w
  | .ce w => w
  | .ue w _ => w

def Rd.bad : Rd → Bool
  | .ue _ _ => true
  | _ => false

/-! ### CRC-32C (R385) and the flash log (R352) -/

/-- One bit of a 32-bit CRC, bits least significant first, by the bit-reversed polynomial. -/
def crcLsbBit (poly c : Nat) : Nat := if c % 2 = 1 then (c / 2) ^^^ poly else c / 2

/-- A step of it over one byte. -/
def crcLsbByte (poly c b : Nat) : Nat := (List.range 8).foldl (fun c _ => crcLsbBit poly c) (c ^^^ b)

/-- A 32-bit CRC over a string of bytes, initial value and final exclusive OR all ones. -/
def crcLsb (poly : Nat) (bs : List Byte) : Nat := (bs.foldl (fun c b => crcLsbByte poly c b.toNat) 0xFFFFFFFF) ^^^ 0xFFFFFFFF

/-- The CRC-32C of a string of bytes (R385). -/
def crc32c (bs : List Byte) : Nat := crcLsb 0x82F63B78 bs

/-- The four FCS bytes that follow a frame's bytes. -/
def fcsBytes (bs : List Byte) : List Byte := [0, 8, 16, 24].map fun lo => BitVec.ofNat 8 (bits (crcLsb 0xEDB88320 bs) lo 8)

/-- Lane `l` of the cells of a frame: six bytes of the cell, or the last two with zero in the rest (R220).
(DEDUCED, log entry 46) -/
def cellLane (bytes : List Byte) (l : Nat) : Word :=
  let cell := ((bytes ++ fcsBytes bytes).drop (128 * (l / 22))).take 128
  wd (bytesNat ((List.range 6).map fun i => cell.getD (6 * (l % 22) + i) 0))

/-- A lane of a stored frame. -/
def YFrame.lane (x : YFrame) (l : Nat) : Stored := Tab.get (sealW (cellLane x.bytes l)) x.lanes l

/-- The lane that holds byte `b` of a frame. -/
def laneOf (b : Nat) : Nat := b / 128 * 22 + b % 128 / 6

/-- The flash die's word at a slot index; an erased slot is all ones.
(DESIGN CHOICE, log entry 6) -/
def State.flashAt (s : State) (k : Nat) : BitVec 64 := Tab.get (BitVec.allOnes 64) s.flash k

/-- Program a slot of the flash die. -/
def State.setFlash (s : State) (k : Nat) (v : BitVec 64) : State :=
  { s with flash := Tab.set (BitVec.allOnes 64) s.flash k v }

/-- Erase a sector of 512 slots, counting its erasures.
(DESIGN CHOICE, log entry 6) -/
def eraseSector (sec : Nat) (s : State) : State :=
  { s with flash := s.flash.filter fun e => !(512 * sec ≤ e.1 && e.1 < 512 * sec + 512)
           boot := { s.boot with erCnt := Tab.set 0 s.boot.erCnt sec (Tab.get 0 s.boot.erCnt sec + 1) } }

/-- The operation number k of R335 of a use.
(DESIGN CHOICE, log entry 89) -/
def OUse.k : OUse → Nat
  | .train _ => 1
  | .bist => 2
  | .key => 3
  | .flash => 3
  | .log => 3
  | .wake _ => 4
  | .lease _ _ => 5

/-- Worst-case tokens of operation k (R335). -/
def worstTokens (k : Nat) : Nat := [30, 40, 100, 25, 50, 15].getD k 0

/-- The cost of one unit of operation k: worst case until the first calibration, then calibrated (R338). -/
def State.unitCost (s : State) (k : Nat) : Nat :=
  if s.on F.pwOstat_CAL then s.fld F.pwOcost_CALV k else worstTokens k

/-- The estimate EST: BASE and the tokens of all grants (R336). -/
def State.est (s : State) : Nat := s.fld F.pwOstat_BASE + (s.pw.grants.map (·.cost)).sum

/-- An earlier request waits that CAP holds back: since it was last considered, or as the estimate stands now (R336, R337).
(DEDUCED, log entry 78) -/
def State.capWaits (s : State) : Bool := s.pw.queue.any fun r => r.byCap || s.est + r.cost > s.fld F.pwOctl_CAP

/-- Program a record into the log's next place (R352): word 0 and the words after it. The sector ahead of the one being filled
is erased when a sector is begun, and word 6 of a sector's first record keeps its erase count. -/
def writeRecord (w0 : Word) (ws : List Nat) (s : State) : State :=
  let r := s.boot.logAt
  let sec := 7680 + r / 64
  let nxt := 7680 + (r / 64 + 1) % 512
  let s := if r % 64 = 0 then eraseSector nxt (if r = 0 && (s.flash.any fun e => 512 * sec ≤ e.1 && e.1 < 512 * sec + 8) then eraseSector sec s else s) else s
  let body := w0 :: (List.range 6).map fun i =>
    wd (if i = 5 ∧ r % 64 = 0 then Tab.get 0 s.boot.erCnt sec else ws.getD i 0)
  let all := body ++ [wd (crc32c (body.flatMap slotBytes))]
  let s := (List.range 8).foldl (fun s i => s.setFlash (512 * sec + 8 * (r % 64) + i) (BitVec.ofNat 64 (all.getD i 0).toNat)) s
  { s with boot := { s.boot with logAt := (r + 1) % 32768 } }

/-- A log record of an event (R352): its TYPE and the registers that report it; dropped above the rate limit. Its flash program
has the Ostler's leave at once, and ends, or waits with the other records for it (R335).
(DEDUCED, log entry 86) -/
def logRecord (typ : Nat) (ws : List Nat) (s : State) : State :=
  if s.boot.logTokens = 0 then s.bump F.faHealth_LOGDROP
  else
    let w0 := wd (typ * 2 ^ 40 + s.fld F.pwKsec_SEC * 2 ^ 8)
    let c := s.unitCost OUse.log.k
    let s := { s with boot := { s.boot with logTokens := s.boot.logTokens - 1 } }
    if s.boot.logWait = [] && s.est + c ≤ s.fld F.pwOctl_CAP && !s.capWaits then writeRecord w0 ws (s.bump F.pwOcnt_GRANT)
    else
      let t := { s with boot := { s.boot with logWait := s.boot.logWait ++ [(w0, ws)] } }
      if s.pw.queue.any (·.use == .log) then t
      else
        let r : OReq := { id := s.pw.nextId, use := .log, fn := 0, inc := 0, cost := c, hw := true, t0 := s.tick
                          byCap := s.est + c > s.fld F.pwOctl_CAP }
        { t with pw := { t.pw with nextId := s.pw.nextId + 1, queue := t.pw.queue ++ [r] } }.bump F.pwOcnt_DEFER

/-! ### The memories -/

/-- What REST left in word `k` of the code stores (0), the engines' memories (1) or GC.STAGE (2): free after a return from
REST, zero once the memories have been cleared (R146, R331).
(DESIGN CHOICE, log entry 3) -/
def State.lostAt (s : State) (m k : Nat) : Stored := if s.lost = 0 then 0 else Config.lostWord s.lost (4 * k + m)

/-- The stored word of an SRAM, by the number of the word in its memory: lofts 65,536 n + a, code stores 32,768 n + a, engines' memories 4,096 e + a. -/
def State.raw (s : State) : SramWord → Stored
  | .loft n a => Tab.get 0 s.loft (65536 * n + a)
  | .code n a => Tab.get 0 s.code (32768 * n + a) ^^^ s.lostAt 0 (32768 * n + a)
  | .priv e a => Tab.get 0 s.priv (4096 * e + a) ^^^ s.lostAt 1 (4096 * e + a)
  | .mg a => Tab.get 0 s.mg a
  | .stage a => Tab.get 0 s.stage a ^^^ s.lostAt 2 a
  | .mbq m sd k => ((if sd = 0 then (s.pair m).qa else (s.pair m).qb)[k.val]?.map (·.w)).getD 0
  | .cell id l => match Tab.get none s.yard.frames id with
    | some f => f.lane l
    | none => 0

/-- Store a word of a memory whole; a scrub write-back due to it is dropped (R150). -/
def State.setRaw (s : State) (a : SramWord) (v : Stored) : State :=
  let s := { s with scrub := s.scrub.filter (· ≠ a) }
  match a with
  | .loft n k => { s with loft := Tab.set 0 s.loft (65536 * n + k) v }
  | .code n k => { s with code := Tab.set 0 s.code (32768 * n + k) (v ^^^ s.lostAt 0 (32768 * n + k)) }
  | .priv e k => { s with priv := Tab.set 0 s.priv (4096 * e + k) (v ^^^ s.lostAt 1 (4096 * e + k)) }
  | .mg k => { s with mg := Tab.set 0 s.mg k v }
  | .stage k => { s with stage := Tab.set 0 s.stage k (v ^^^ s.lostAt 2 k) }
  | .mbq m sd k =>
    let p := s.pair m
    let upd := fun (q : List MEntry) => q.modify k.val fun x => { x with w := v }
    s.setPair m (if sd = 0 then { p with qa := upd p.qa } else { p with qb := upd p.qb })
  | .cell id l => match Tab.get none s.yard.frames id with
    | some f =>
      let d := sealW (cellLane f.bytes l)
      { s with yard := { s.yard with frames := Tab.set none s.yard.frames id (some { f with lanes := Tab.set d f.lanes l v }) } }
    | none => s

/-- The stable whose MEMERR counts a word's errors, with the code of MEMLOG.WHERE, the engine and the word's address. -/
def memPlace : SramWord → Option (Nat × Nat × Nat × Nat)
  | .loft n a => some (n, 0, 0, a)
  | .code n a => some (n, 1, 0, a)
  | .priv e a => some (e / 8, 2, e % 8, a)
  | _ => none

/-- Record an uncorrectable event in ST[n].MEMLOG (MEMLOG holds the most recent one). -/
def memLog (n wh eng a : Nat) (syn : BitVec 8) (s : State) : State :=
  ((((((s.put F.stMemlog_WHERE wh n).put F.stMemlog_ENGINE eng n).put F.stMemlog_POIS (b2n (syn == 0xFF)) n).put
    F.stMemlog_SYN syn.toNat n).put F.stMemlog_VALID 1 n).put F.stMemlog_ADDR a n)

/-- Count a corrected word where its memory counts it. -/
def countCE (a : SramWord) (s : State) : State :=
  let s := { s with boot := { s.boot with telCe := s.boot.telCe + 1 } }
  match memPlace a with
  | some (n, _) => s.bump F.stMemerr_CE n
  | none => match a with
    | .mg _ => s.bump F.mgMemerr_CE
    | .mbq _ _ _ => s.bump F.mbMemerr_CE
    | _ => s

/-- The output regions of a redundant pair: those that OUTLO and OUTHI name (R312). -/
def State.outRegions (s : State) : List Nat :=
  (List.range 64).filter fun k => (s.fld F.twCfg1_OUTLO + s.fld F.twCfg2_OUTHI * 2 ^ 48).testBit k

/-- The word lies in a code store or in an output region (R314). -/
def State.outWord (s : State) : SramWord → Bool
  | .code _ _ => true
  | .mg k => s.outRegions.any fun r =>
      s.fld F.mgCfg0_BASE r ≤ k && k < s.fld F.mgCfg0_BASE r + s.fld F.mgCfg0_SIZE r * (if s.on F.mgCfg0_TRIPLE r then 3 else 1)
  | _ => false

/-- An uncorrectable mailbox entry is counted and logged (R352). -/
def mbLoss (s : State) : State := let s := s.bump F.mbMemerr_UE; logRecord 5 [s.word .mbMemerr] s

/-- Count an uncorrectable word where its memory does, and log it with the register that reports it; the yard's cells and GC.STAGE
have none (R144, R352). -/
def countUE (a : SramWord) (syn : BitVec 8) (s : State) : State :=
  let s := { s with boot := { s.boot with telUe := s.boot.telUe + 1 }
                    tw := { s.tw with ueSeen := s.tw.ueSeen || s.outWord a } }
  match memPlace a with
  | some (n, wh, eng, k) =>
    logRecord 5 [wh * 2 ^ 44 + eng * 2 ^ 41 + b2n (syn == 0xFF) * 2 ^ 40 + syn.toNat * 2 ^ 32 + 2 ^ 30 + k, n]
      (memLog n wh eng k syn (s.bump F.stMemerr_UE n))
  | none => match a with
    | .mg _ => let s := s.bump F.mgMemerr_UE; logRecord 5 [s.word .mgMemerr] s
    | .mbq _ _ _ => mbLoss s
    | _ => logRecord 5 [] s

/-- Read a word of a memory, counting what the read finds (R144). -/
def memRead (a : SramWord) (s : State) : Rd × State :=
  match readCode (s.raw a) with
  | .ok w => (.ok w, s)
  | .ce w => (.ce w, countCE a s)
  | .ue w y => (.ue w y, countUE a y s)

/-- Write all 48 bits of a word with a fresh check byte (R148).
(DEDUCED, log entry 85) -/
def memWrite (a : SramWord) (w : Word) (s : State) : State := s.setRaw a (sealW w)

/-- The slot's bytes that `be` enables replaced by those of `v`; bits 63:48 are ignored (R9).
(DEDUCED, log entry 13) -/
def mergeBytes (old : Word) (be : BitVec 8) (v : BitVec 64) : Word :=
  wd ((List.range 6).foldl (fun n k => n + (if be.getLsbD k then byteOf v.toNat k else byteOf old.toNat k) * 2 ^ (8 * k)) 0)

/-- The byte enables cover all 48 data bits. -/
def beFull (be : BitVec 8) : Bool := be.toNat % 64 == 63

/-- Count a partial write refused for poison. -/
def countPW (a : SramWord) (s : State) : State :=
  match memPlace a with
  | some (n, _) => s.bump F.stMemerr_PWPOIS n
  | none => match a with
    | .mg _ => s.bump F.mgMemerr_PWPOIS
    | .mbq _ _ _ => s.bump F.mbMemerr_PWPOIS
    | _ => s

/-- A part of a word is replaced, as `f` gives from the word read, with its disposition: 0 SERVED, or 8 POISONED where the word
is uncorrectable, which stays as it was (R147). -/
def memUpdate (a : SramWord) (f : Word → Word) (s : State) : Nat × State :=
  match memRead a s with
  | (.ok w, s) => (0, memWrite a (f w) s)
  | (.ce w, s) => (0, memWrite a (f w) s)
  | (.ue _ _, s) => (8, countPW a s)

/-- A write of the enabled bytes of a word (R147, R148), with its disposition: 0 SERVED, 8 POISONED.
(DEDUCED, log entry 85) -/
def memMerge (a : SramWord) (be : BitVec 8) (v : BitVec 64) (s : State) : Nat × State :=
  if beFull be then (0, memWrite a (mergeBytes 0 be v) s)
  else if be.toNat % 64 = 0 then (0, s)
  else memUpdate a (fun w => mergeBytes w be v) s

/-! ### Quotas (R50, R51) -/

/-- Tasks of a function in deques, overflow queues or running. -/
def State.useTasks (s : State) (f : Nat) : Nat :=
  let is := fun (t : Task) => bits t.w0.toNat 39 9 == f
  (s.eng.map fun e => (e.2.deque.filter is).length + b2n (e.2.tv && e.2.fn == f)).sum
    + (s.stb.map fun n => (n.2.ovf.filter is).length).sum

/-- Yard cells charged to a function. -/
def State.useCells (s : State) (f : Nat) : Nat :=
  (s.yard.frames.map fun e => match e.2 with
    | some x => if x.chg = f then x.cells else 0
    | none => 0).sum

/-- Ostler tokens held by a function's grants. -/
def State.useTokens (s : State) (f : Nat) : Nat := ((s.pw.grants.filter (·.fn == f)).map (·.cost)).sum

/-- Loft banks owned: F0 owns every bank that no other function owns (chapter 03). -/
def State.useBanks (s : State) (f : Nat) : Nat :=
  ((List.range 256).filter fun b => s.fld F.stBank_OWNER (b / 16) (b % 16) == f).length

/-- Manger regions owned: regions in use whose OWNER is the function. -/
def State.useRegions (s : State) (f : Nat) : Nat :=
  ((List.range 64).filter fun k => s.fld F.mgCfg0_SIZE k != 0 && s.fld F.mgCfg0_OWNER k == f).length

/-- KIND of an end: 0 unbound, 1 function, 2 host; a reserved value acts as the layout's (R16, R153). -/
def State.endKind (s : State) (m sd : Nat) : Nat := s.eff F.mbEnd_KIND (· == 3) m sd

/-- Mailbox pairs bound: pairs with an end of the function. -/
def State.useMboxes (s : State) (f : Nat) : Nat :=
  ((List.range 1024).filter fun m => [0, 1].any fun sd => s.endKind m sd == 1 && s.fld F.mbEnd_ID m sd == f).length

/-- The OVERQ bits of a function: TASKLIM, CELLS, BANKS, REGIONS, MBOXES, BUDGET while use is above the quota, and the
stored MAXSHARE bit (R51, R124). F0's own quotas count alike. -/
def State.overq (s : State) (f : Nat) : Nat :=
  b2n (s.useTasks f > s.fld F.fnShare_TASKLIM f) + 2 * b2n (s.useCells f > s.fld F.fnQuota_CELLS f)
    + 4 * b2n (s.useBanks f > s.fld F.fnQuota_BANKS f) + 8 * b2n (s.useRegions f > s.fld F.fnQuota_REGIONS f)
    + 16 * b2n (s.useMboxes f > s.fld F.fnQuota_MBOXES f) + 32 * b2n (s.useTokens f > s.fld F.fnBudget_BUDGET f)
    + 64 * (s.fld F.fnStatus_OVERQ f / 64)

/-- OVQEV is set when OVERQ of a function becomes nonzero between two states. -/
def noteOverq (f : Nat) (old new : State) : State :=
  if old.overq f = 0 ∧ new.overq f ≠ 0 then new.put F.fnStatus_OVQEV 1 f else new

/-- Set the EVT bit of an engine's event register; an event that arrives leaves the bit set (R86). -/
def setEv (e b : Nat) (s : State) : State :=
  s.setE e { s.e e with ev := (s.e e).ev ||| BitVec.ofNat 16 (2 ^ b) }

/-- Set PEND of an IRQ of an engine (R104). -/
def setIrq (e n : Nat) (s : State) : State :=
  s.put F.eirq_PEND (s.fld F.eirq_PEND (e / 8) (e % 8) ||| 2 ^ n) (e / 8) (e % 8)

/-- Send an MSI-X message at once, provided the link is up and the function's MSI-X Enable is 1; a masked vector sets its
PBA bit (R363). -/
def sendMsix (v : Nat) (s : State) : State :=
  if !s.host.pcieUp || !s.host.msixEn.getLsbD (v / 128) then s
  else if s.host.unmasked.contains v then s.emit (.msix v)
  else if s.host.pba.contains v then s else { s with host := { s.host with pba := s.host.pba ++ [v] } }

/-- Record a reserved host access (R22). -/
def unmapped (off : Nat) (s : State) : State := (s.bump F.gcUnmap_CNT).put F.gcUnmap_ADDR off

end Sys2Proof.Machine
end

