-- ==== Sys2Proof/Machine/Ostler.lean ====
section
/-! DEFINITION. The Ostler: leave for heavy operations, its estimate, its waiting requests, and the leases (R335 to R339). -/

namespace Sys2Proof.Machine

/-- The ramp interval since the last wake grant has passed (R336).
(DEDUCED, log entry 78) -/
def State.rampPassed (s : State) : Bool :=
  match s.pw.lastWake with
  | none => true
  | some t => s.fld F.pwOctl_RAMPINT ≤ 3 * (s.tick - t)

/-- The use is a stable's wake. -/
def OUse.isWake : OUse → Bool
  | .wake _ => true
  | _ => false

/-- What a grant does for its use: a stable's engines run 1 µs later (R126), a lease is held and its engine gets IRQ6
(R339), the log's records are programmed and their tokens return (R335, R352).
(DEDUCED, log entry 67) -/
def grantEffect (u : OUse) (s : State) : State :=
  match u with
  | .wake n =>
    let s := s.put F.stDqstat_WAKEP 0 n
    s.setSt n { s.st n with starting := some ((s.st n).waking.getD false), startAt := s.tick, waking := none }
  | .lease i eng =>
    let s := (s.put F.pwLease_STATE 2 i).put F.pwLease_DISP 0 i
    match eng with
    | some e => setIrq e 6 s
    | none => s
  | .log =>
    let t := s.boot.logWait.foldl (fun s e => writeRecord e.1 e.2 s) s
    { t with boot := { t.boot with logWait := [] }, pw := { t.pw with grants := t.pw.grants.filter fun r => r.use != .log } }
  | _ => s

/-- What a deferral shows (R48, R126, R339, R353). -/
def deferEffect (u : OUse) (s : State) : State :=
  match u with
  | .wake n => s.put F.stDqstat_WAKEP 1 n
  | .lease i _ => (s.put F.pwLease_STATE 1 i).put F.pwLease_DISP 1 i
  | .key => match s.boot.keyOp with
    | some (k, _) => s.put F.gcKeyslot_DISP 1 k
    | none => s
  | .flash => s.put F.faFlstat_DISP 1
  | _ => s

/-- Take the request into the grants. -/
def grant (r : OReq) (s : State) : State :=
  let s := { s with pw := { s.pw with grants := s.pw.grants ++ [r], lastWake := if r.use.isWake then some s.tick else s.pw.lastWake } }
  grantEffect r.use (s.bump F.pwOcnt_GRANT)

/-- The request can be served now, no earlier one being held back by CAP (R336). -/
def State.fits (s : State) (r : OReq) : Bool :=
  s.est + r.cost ≤ s.fld F.pwOctl_CAP && (!r.use.isWake || s.rampPassed)

/-- A request for leave, checked in the order of R336: its disposition and the state.
(DEDUCED, log entry 78) -/
def ostlerRequest (u : OUse) (units f inc : Nat) (hw : Bool) (s : State) : Nat × State :=
  let c := s.unitCost u.k * units
  if s.fnState f = 0 ∨ s.fnState f = 1 then (9, s)
  else if inc ≠ s.inc f then (7, s)
  else if !hw && (s.useTokens f + c > s.fld F.fnBudget_BUDGET f || s.fld F.pwOstat_BASE + c > s.fld F.pwOctl_CAP) then
    (3, s.bump F.pwOcnt_REFB)
  else if !hw && (s.pw.queue.filter fun r => !r.hw).length ≥ 32 then (5, s.bump F.pwOcnt_REFF)
  else
    let r : OReq := { id := s.pw.nextId, use := u, fn := f, inc := inc, cost := c, hw := hw, t0 := s.tick }
    let s1 := { s with pw := { s.pw with nextId := s.pw.nextId + 1 } }
    if s.fits r && !s.capWaits then (0, noteOverq f s (grant r s1))
    else
      let r := { r with byCap := s.est + c > s.fld F.pwOctl_CAP }
      (1, deferEffect u ({ s1 with pw := { s1.pw with queue := s1.pw.queue ++ [r] } }.bump F.pwOcnt_DEFER))

/-- A request charged to F0 by hardware: never refused (R336). -/
def hwRequest (u : OUse) (s : State) : State := (ostlerRequest u 1 0 0 true s).2

/-- Go through the waiting requests in order of arrival: serve each that fits, until one is held back by CAP (R337).
(DEDUCED, log entry 78) -/
def reconsider : List OReq → State → State
  | [], s => s
  | r :: rest, s =>
    if s.est + r.cost > s.fld F.pwOctl_CAP then
      { s with pw := { s.pw with queue := s.pw.queue ++ { r with byCap := true } :: rest } }
    else if s.fits r then reconsider rest (noteOverq r.fn s (grant r s))
    else reconsider rest { s with pw := { s.pw with queue := s.pw.queue ++ [{ r with byCap := false }] } }

/-- Tokens of the grants with the given use return, and waiting requests with that use are withdrawn. -/
def returnUse (u : OUse → Bool) (s : State) : State :=
  { s with pw := { s.pw with grants := s.pw.grants.filter fun r => !u r.use, queue := s.pw.queue.filter fun r => !u r.use } }

/-- A link is to train: whether the Ostler's leave is SERVED. The tokens of a training that completes return; one whose leave
is DEFERRED keeps its request, and completes once it is SERVED (R335).
(DESIGN CHOICE, log entry 89) -/
def trainLeave (link : Nat) (s : State) : Bool × State :=
  let u : OUse := .train link
  let t := if (s.pw.grants ++ s.pw.queue).any (·.use == u) then s else hwRequest u s
  if t.pw.grants.any (·.use == u) then (true, returnUse (· == u) t) else (false, t)

/-- A wake or a release asks the Ostler for leave unless one is on its way already (R126). -/
def askWake (n : Nat) (rel : Bool) (s : State) : State :=
  if (s.st n).waking.isSome || (s.st n).starting.isSome then s
  else hwRequest (.wake n) (s.setSt n { s.st n with waking := some rel })

/-- A gated stable wakes when something addresses it (R126). A stable power-gated in DOZE keeps its tasks waiting (R331). -/
def wakeStable (n : Nat) (s : State) : State :=
  if s.on F.stCtl_RELD n && s.on F.stDqstat_GATED n && !(s.st n).powerGated then askWake n false s else s

/-- A hardware source raises an IRQ in an engine, which wakes its stable (R104, R126).
(DEDUCED, log entry 82) -/
def hwIrq (e n : Nat) (s : State) : State := wakeStable (e / 8) (setIrq e n s)

/-- Deferred requests are reconsidered (R337); a lease that is SERVED to an engine of a gated stable wakes it (R126).
(DEDUCED, log entry 78) -/
def ostlerReconsider (s : State) : State :=
  let asked := s.pw.queue.filterMap fun r => match r.use with
    | .lease i (some e) => some (i, e)
    | _ => none
  let t := reconsider s.pw.queue { s with pw := { s.pw with queue := [] } }
  (asked.filter fun x => t.fld F.pwLease_STATE x.1 = 2).foldl (fun t x => wakeStable (x.2 / 8) t) t

/-- The tokens of a lease return, or its request is withdrawn; its STATE goes to 0. -/
def dropLease (i : Nat) (s : State) : State :=
  (returnUse (fun u => match u with
    | .lease k _ => k == i
    | _ => false) s).put F.pwLease_STATE 0 i

/-- Writing REQ to a lease: the holder's second request is refused for want of room, a stranger's with DENIED (R339). The
answer is the disposition that the access itself meets, with the state. -/
def leaseRequest (w : Who) (i cnt : Nat) (s : State) : Nat × State :=
  match w with
  | .vf _ => (0, s)
  | .jtag => (9, s)
  | _ =>
    let f := s.reqFn w
    let inc := s.reqInc w
    if s.fld F.pwLease_STATE i ≠ 0 then
      if s.fld F.pwLease_FN i = f then (0, (s.bump F.pwOcnt_REFF).put F.pwLease_DISP 5 i) else (9, s)
    else
      let s := (((s.put F.pwLease_FN f i).put F.pwLease_INC inc i).put F.pwLease_COUNT cnt i).put F.pwLease_CANC 0 i
      if s.fnState f = 3 then (0, s.put F.pwLease_CANC 1 i)
      else
        let eng := match w with
          | .engine e => some e.val
          | _ => none
        let r := ostlerRequest (.lease i eng) (if cnt = 0 then 16 else cnt) f inc false s
        (0, r.2.put F.pwLease_DISP r.1 i)

/-- Writing REL to a lease: by its holder, or by a supervisor access while STATE is 1 or 2 (R339). -/
def leaseRelease (w : Who) (i : Nat) (s : State) : Nat × State :=
  match w with
  | .vf _ => (0, s)
  | .jtag => (9, s)
  | _ =>
    if s.fld F.pwLease_STATE i = 0 then (0, s)
    else if s.supervisor w || s.fld F.pwLease_FN i = s.reqFn w then (0, dropLease i s)
    else (9, s)

/-- A function reset returns the tokens of its leases and cancels its requests, with CANC and no disposition (R339).
(DEDUCED, log entry 78) -/
def cancelLeases (f : Nat) (s : State) : State :=
  ((List.range 256).filter fun i => s.fld F.pwLease_STATE i ≠ 0 && s.fld F.pwLease_FN i = f).foldl
    (fun s i => (dropLease i s).put F.pwLease_CANC 1 i) s

/-- A queued request that has waited WAITMAX µs becomes REFUSED_BUDGET (R337). -/
def waitTimeout (id : Nat) (s : State) : State :=
  match s.pw.queue.find? (·.id == id) with
  | none => s
  | some r =>
    if r.hw || s.fld F.pwOctl_WAITMAX = 0 then s
    else
      let s := ({ s with pw := { s.pw with queue := s.pw.queue.filter (·.id ≠ id) } }).bump F.pwOcnt_REFB
      match r.use with
      | .lease i _ => (s.put F.pwLease_STATE 0 i).put F.pwLease_DISP 3 i
      | _ => s

/-- Every grant and every waiting request goes without a disposition, on entry to REST or KEEP (R339). -/
def dropAllLeave (s : State) : State :=
  let s := (List.range 256).foldl (fun s i => if s.fld F.pwLease_STATE i = 0 then s else s.put F.pwLease_STATE 0 i) s
  { s with pw := { s.pw with grants := [], queue := [] } }

/-- The Farrier writes BASE and the calibrated costs (R338).
(DESIGN CHOICE, log entry 75) -/
def powerModel (base : Nat) (calv : List Nat) (s : State) : State :=
  let s := ((s.put F.pwOstat_BASE base).put F.pwOstat_CAL 1).put F.faHealth_CALDONE 1
  (List.range 6).foldl (fun s k => s.put F.pwOcost_CALV (calv.getD k 0) k) s

end Sys2Proof.Machine
end

