-- ==== Sys2Proof/Machine/Stables.lean ====
section
/-! DEFINITION. The deque unit: pushes, overflow queues, dispatch and stealing, deadlines, shares, gating and wake
(chapter 06). -/

namespace Sys2Proof.Machine

/-! ### Task descriptors (R113) -/

def Task.fn (t : Task) : Nat := bits t.w0.toNat 39 9
def Task.inc (t : Task) : Nat := bits t.w0.toNat 31 8
def Task.u (t : Task) : Nat := bits t.w0.toNat 29 2
def Task.mig (t : Task) : Bool := t.w0.getLsbD 28
def Task.rs (t : Task) : Bool := t.w0.getLsbD 27
def Task.est (t : Task) : Nat := bits t.w0.toNat 16 11
def Task.dl (t : Task) : Nat := bits t.w1.toNat 16 32

/-- The signed difference of R245 over 32 bits: at or after the deadline when it is not negative. -/
def past32 (c t : Nat) : Int := sdiff 32 c t

/-- Stable `n` lies in the affinity of function `f`.
(DEDUCED, log entry 30) -/
def State.inAffinity (s : State) (f n : Nat) : Bool := (s.fld F.fnCfg_AFFINITY f).testBit n

/-- The lowest-numbered stable in the affinity of a function. -/
def State.firstStable (s : State) (f : Nat) : Option Nat := (List.range 16).find? fun n => s.inAffinity f n

/-- The function has reached its MAXSHARE cap of the period (R124).
(DEDUCED, log entry 31) -/
def State.capped (s : State) (f : Nat) : Bool := (s.fn f).used ≥ (s.fn f).maxP * 6000

/-- The function's use of engine time is below its MINSHARE of the period (R117). -/
def State.belowMin (s : State) (f : Nat) : Bool := (s.fn f).used < (s.fn f).minP * 6000

/-- A task is dispatchable (R117). -/
def State.dispatchable (s : State) (t : Task) : Bool :=
  t.inc == s.inc t.fn && s.fnState t.fn == 2 && !s.capped t.fn

/-- The function whose tasks alone an engine of a relay group receives (R215). -/
def State.relayFn (s : State) (e : Nat) : Option Nat :=
  (List.range 4).findSome? fun k =>
    if s.on F.epIpcfg0_EN k && s.fld F.epIpcfg0_STBL k == e / 8
        && ((s.on F.epIpcfg0_M0 k && (s.fld F.epIpcfg1_RG0 k).testBit (e % 8))
          || (s.on F.epIpcfg0_M1 k && (s.fld F.epIpcfg1_RG1 k).testBit (e % 8))) then some (s.fld F.epIpcfg0_FN k) else none

/-- The engine may receive the task (R215). -/
def State.relayOk (s : State) (e : Nat) (t : Task) : Bool :=
  match s.relayFn e with
  | some f => t.fn == f
  | none => true

/-- The engine waits in TNEXT with no task, its stable awake and not in load mode. -/
def State.idle (s : State) (e : Nat) : Bool :=
  (s.e e).wait == some .tnext && s.awake (e / 8) && !s.on F.stCtl_LOAD (e / 8) && !s.on F.dbgStat_HALTED (e / 8) (e % 8)

/-- EV.TASK follows the deque: set while it holds a task, cleared when it becomes empty (R86). -/
def syncTask (e : Nat) (s : State) : State :=
  let x := s.e e
  s.setE e { x with ev := if x.deque.isEmpty then x.ev &&& 0x7FFF else x.ev ||| 0x8000 }

/-- The gating conditions of a stable no longer hold without a break (R125). -/
def clearIdle (n : Nat) (s : State) : State := s.setSt n { s.st n with idleFrom := none }

/-! ### Pushing (R114 to R116) -/

/-- The engine among `es` with the lowest busy estimate, the lowest-numbered on a tie. -/
def State.leastBusy (s : State) (es : List Nat) : Option Nat :=
  es.foldl (fun b e => match b with
    | none => some e
    | some b => if (s.e e).busy < (s.e b).busy then some e else some b) none

/-- The engines of a stable. -/
def enginesOf (n : Nat) : List Nat := (List.range 8).map (8 * n + ·)

/-- The engine whose deque a push goes to (R114): the pusher's own where its stable is in the affinity, else the least
busy one among the awake stables in the affinity, else the least busy of the lowest-numbered stable in it; a disabled
stable never (R129).
(DEDUCED, log entry 30) -/
def State.pushTarget (s : State) (src : Option Nat) (t : Task) : Option Nat :=
  match src with
  | some e => if t.rs || s.inAffinity t.fn (e / 8) then some e else far
  | none => far
where
  far : Option Nat :=
    let ns := (List.range 16).filter fun n => s.inAffinity t.fn n && s.on F.stCfg_EN n
    match ns.filter s.awake with
    | [] => ns.head?.bind fun n => s.leastBusy (enginesOf n)
    | aw => s.leastBusy (aw.flatMap enginesOf)

/-- The candidate engines of a U0 task pushed to stable `n` (R120). -/
def State.candidates (s : State) (t : Task) (n : Nat) : List Nat :=
  if t.mig then
    ((List.range 16).filter fun m => s.inAffinity t.fn m && s.fld F.stCfg_TACK m == s.fld F.stCfg_TACK n).flatMap enginesOf
  else enginesOf n

/-- ECLK left of the Ostler's ramp interval. -/
def State.rampLeft (s : State) : Nat :=
  match s.pw.lastWake with
  | none => 0
  | some t => s.fld F.pwOctl_RAMPINT - 3 * (s.tick - t)

/-- The start estimate S of a U0 task pushed to stable `n`, in ECLK; none where no candidate gives a value (R120). -/
def State.startEstimate (s : State) (t : Task) (n : Nat) : Option Nat :=
  let cs := s.candidates t n
  if cs.any (fun e => (s.e e).wait == some .tnext && s.awake (e / 8)) then some 40
  else
    let run := (cs.filter fun e => (s.e e).cur.any fun c => (s.e e).tv && c.u ≠ 0).map fun e =>
      (s.fld F.stSched_QUANT (e / 8) - (s.e e).runt) + 400
    let gated := if cs.any fun e => s.on F.stDqstat_GATED (e / 8) then [750 + s.rampLeft] else []
    (run ++ gated).min?

/-- The U0 task cannot meet its deadline by the start estimate (R120).
(DESIGN CHOICE, log entry 110) -/
def State.tooLate (s : State) (t : Task) (n : Nat) : Bool :=
  t.u == 0 && match s.startEstimate t n with
    | none => true
    | some x => past32 (s.tk + (x + 32 * t.est) / 3) t.dl > 0

/-- A resume push is accepted only for the engine's current task (R122). -/
def State.resumeOk (s : State) (src : Option Nat) (t : Task) : Bool :=
  match src with
  | some e => (s.e e).tv && (s.e e).fn == t.fn && (s.e e).inc == t.inc
  | none => false

/-- A further task of a capped function is deferred: OVERQ bit 22 and CNT2.DEFER (R124).
(DEDUCED, log entry 31) -/
def deferTask (f n : Nat) (s : State) : State :=
  if s.capped f then
    let t := (s.bump F.stCnt2_DEFER n).put F.fnStatus_OVERQ (s.fld F.fnStatus_OVERQ f % 64 + 64) f
    noteOverq f s t
  else s

/-- The engine's current task is complete: it ended by TDONE, TNEXT or function stop (R113, R119, R121). -/
def countDone (e : Nat) (s : State) : State :=
  let n := e / 8
  let s := s.bump F.stCnt0_DONE n
  let s := match (s.e e).cur with
    | some t => if t.u = 0 ∧ past32 s.tk t.dl > 0 then s.bump F.stCnt1_OVERRUN n else s
    | none => s
  let d := min 256 ((s.st n).doneN + 1)
  let s := s.setSt n { s.st n with doneN := d }
  if d = 256 then s.put F.stDqstat_HIST 1 n else s

/-- The engine has no current task any more. FN of EID is kept when `keep` (R92, R101), and INC always.
(DESIGN CHOICE, log entry 95) -/
def leaveTask (e : Nat) (keep : Bool) (s : State) : State :=
  s.setE e { s.e e with tv := false, fn := if keep then (s.e e).fn else 0, cur := none, runt := 0, qTaken := false, stopPend := false }

/-- End the current task of an engine, if any, as complete. -/
def endTask (e : Nat) (keep : Bool) (s : State) : State :=
  if (s.e e).tv then leaveTask e keep (countDone e s) else s

/-- Put a task at the bottom of an engine's deque, or at the tail of its stable's overflow queue when `room` entries are
taken (R116).
(DESIGN CHOICE, log entry 93) -/
def placeIn (room e : Nat) (t : Task) (s : State) : State :=
  let n := e / 8
  deferTask t.fn n (if (s.e e).deque.length < room then syncTask e (s.setE e { s.e e with deque := t :: (s.e e).deque })
    else s.setSt n { s.st n with ovf := (s.st n).ovf ++ [t] })

/-- Put a task at the bottom of an engine's deque, or at the tail of the overflow queue when 15 entries are taken (R116). -/
def place (e : Nat) (t : Task) (s : State) : State :=
  let n := e / 8
  wakeStable n (placeIn 15 e t (clearIdle n s))

/-- A push by an engine or by hardware, checked in the order of R115: the final disposition and the state. A resume push takes
the entry of the deque that R116 keeps free; where a resumed task holds it already, the push goes to the overflow queue.
(DEDUCED, log entry 30; DESIGN CHOICE, log entry 93) -/
def pushTask (src : Option Nat) (t : Task) (s : State) : Nat × State :=
  let f := t.fn
  let st := s.fnState f
  if st = 3 then (6, s.bump F.fnCnt_ABANDON f)
  else if st = 0 ∨ st = 1 then (9, s)
  else if (match src with
      | some e => !s.engSup e && (s.e e).fn != f
      | none => false) then (9, s)
  else if t.rs && !s.resumeOk src t then (9, s)
  else if t.inc ≠ s.inc f then (7, s.bump F.fnCnt_STALE f)
  else if !t.rs && s.useTasks f + 1 > s.fld F.fnShare_TASKLIM f then (2, s.bump F.fnCnt_REFQ f)
  else match s.pushTarget src t with
    | none => (5, s)
    | some e =>
      let n := e / 8
      if (s.e e).deque.length ≥ (if t.rs then 16 else 15) && (s.st n).ovf.length ≥ 256 then (5, s.bump F.stCnt2_FULL n)
      else if s.tooLate t n then (4, s.bump F.stCnt1_LATE n)
      else if t.rs then (0, placeIn 16 e t ((leaveTask e false s).bump F.stCnt1_PREEMPT n))
      else (0, place e t s)

/-- A push by hardware to the engine that a chapter names: the checks of R115 with that engine's deque as the target. -/
def pushTo (e : Nat) (t : Task) (s : State) : Nat × State :=
  let f := t.fn
  let st := s.fnState f
  let n := e / 8
  if st = 3 then (6, s.bump F.fnCnt_ABANDON f)
  else if st = 0 ∨ st = 1 then (9, s)
  else if t.inc ≠ s.inc f then (7, s.bump F.fnCnt_STALE f)
  else if s.useTasks f + 1 > s.fld F.fnShare_TASKLIM f then (2, s.bump F.fnCnt_REFQ f)
  else if (s.e e).deque.length ≥ 15 && (s.st n).ovf.length ≥ 256 then (5, s.bump F.stCnt2_FULL n)
  else if s.tooLate t n then (4, s.bump F.stCnt1_LATE n)
  else (0, place e t s)

/-- The most urgent task of a list, the first on a tie, as a place in the list. -/
def urgentFirst (ts : List (Nat × Task)) : Option (Nat × Task) :=
  ts.foldl (fun b x => match b with
    | none => some x
    | some b => if x.2.u < b.2.u then some x else some b) none

/-- One move from the overflow queue into the deque of the stable that holds the fewest tasks (R116), at its bottom.
(DESIGN CHOICE, log entry 93) -/
def overflowMove (n : Nat) (s : State) : State :=
  let short := (enginesOf n).filter fun e => (s.e e).deque.length < 8
  if short = [] then s
  else
    let dst := (enginesOf n).foldl (fun b e => match b with
      | none => some e
      | some b => if (s.e e).deque.length < (s.e b).deque.length then some e else some b) none
    match urgentFirst ((s.st n).ovf.zipIdx.map fun p => (p.2, p.1)), dst with
    | some (k, t), some e =>
      let s := s.setSt n { s.st n with ovf := (s.st n).ovf.eraseIdx k }
      syncTask e (s.setE e { s.e e with deque := t :: (s.e e).deque })
    | _, _ => s

/-! ### Dispatch and stealing (R117, R118) -/

/-- Purge every task whose incarnation is not current, each counted as STALE (R54, R117). -/
def purgeStale (s : State) : State :=
  let bad := fun (t : Task) => t.inc ≠ s.inc t.fn
  let gone := (s.eng.flatMap fun e => e.2.deque.filter fun t => bad t) ++ (s.stb.flatMap fun n => n.2.ovf.filter fun t => bad t)
  if gone = [] then s
  else
    let es := s.eng.map (·.1)
    let s1 := es.foldl (fun s e =>
      if (s.e e).deque.any fun t => bad t then syncTask e (s.setE e { s.e e with deque := (s.e e).deque.filter fun t => !bad t }) else s) s
    let s2 := (s.stb.map (·.1)).foldl (fun s n => s.setSt n { s.st n with ovf := (s.st n).ovf.filter fun t => !bad t }) s1
    gone.foldl (fun s t => s.bump F.fnCnt_STALE t.fn) s2

/-- Where a task is taken from: the deque of an engine or the overflow queue of a stable, and its place there. -/
inductive Src
  | deque (e k : Nat)
  | ovf (n k : Nat)
  deriving DecidableEq, Repr

/-- A task that the dispatch may give to an engine, with its place. -/
abbrev Found := Src × Task

/-- The deque of an engine, newest task first, as places. -/
def State.dequeAt (s : State) (e : Nat) : List Found := (s.e e).deque.zipIdx.map fun p => (.deque e p.2, p.1)

/-- The overflow queue of a stable, oldest task first, as places. -/
def State.ovfAt (s : State) (n : Nat) : List Found := (s.st n).ovf.zipIdx.map fun p => (.ovf n p.2, p.1)

/-- The best task of a list in its order: lower `key` first, the first on a tie. -/
def bestBy (key : Task → Nat) (xs : List Found) : Option Found :=
  xs.foldl (fun b x => match b with
    | none => some x
    | some b => if key x.2 < key b.2 then some x else some b) none

/-- Urgency, and within a class the tasks of functions below their MINSHARE first (R117). -/
def State.classKey (s : State) (t : Task) : Nat := 2 * t.u + b2n (!s.belowMin t.fn)

/-- The U0 task with the earliest deadline, the first on a tie. -/
def earliest (xs : List Found) : Option Found :=
  xs.foldl (fun b x => match b with
    | none => some x
    | some b => if past32 x.2.dl b.2.dl < 0 then some x else some b) none

/-- Steps 1 to 3 of R117 for engine `e`. -/
def State.ownTask (s : State) (e : Nat) : Option Found :=
  let n := e / 8
  let ok := fun (x : Found) => s.dispatchable x.2 && s.relayOk e x.2
  let all := (s.dequeAt e ++ ((enginesOf n).filter (· ≠ e)).flatMap s.dequeAt).filter fun x => ok x && x.2.u == 0
  (earliest all).orElse fun _ =>
    (bestBy s.classKey ((s.dequeAt e).filter ok)).orElse fun _ => bestBy s.classKey ((s.ovfAt n).filter ok)

/-- `stealable` of R118: engine of stable `n` may take `t` from a victim of stable `v`, with `loc` for the LOCAL pass. -/
def State.stealable (s : State) (n v : Nat) (loc : Bool) (t : Task) : Bool :=
  let cost := if loc then 12 else s.fld F.stSched_XCOST n
  s.dispatchable t && s.inAffinity t.fn n
    && (loc || (t.mig && s.fld F.stCfg_TACK n == s.fld F.stCfg_TACK v))
    && (t.u != 0 || past32 t.dl (s.tk + (cost + 32 * t.est) / 3) ≥ 0)

/-- Ring distance of two stables. -/
def ringDist (a b : Nat) : Nat := min ((a + 16 - b) % 16) ((b + 16 - a) % 16)

/-- Insert into a list ordered by a key, after its equals. -/
def insertBy (key : Nat → Nat) (x : Nat) : List Nat → List Nat
  | [] => [x]
  | y :: ys => if key x < key y then x :: y :: ys else y :: insertBy key x ys

/-- Order a list by a key, keeping the order of equals. -/
def orderBy (key : Nat → Nat) (xs : List Nat) : List Nat := xs.foldl (fun a x => insertBy key x a) []

/-- Engines as victims in the thief stable's order (R118): from its round-robin pointer, or busiest first. -/
def State.victimOrder (s : State) (n : Nat) (es : List Nat) : List Nat :=
  if s.on F.stDqstat_HIST n then orderBy (fun e => 100000 - (s.e e).busy) es
  else orderBy (fun e => (e + 128 - (s.st n).rr) % 128) es

/-- Stables as victims for their overflow queues: by ascending ring distance, then number.
(DEDUCED, log entry 32) -/
def ovfOrder (n : Nat) (ns : List Nat) : List Nat := orderBy (fun v => 16 * ringDist n v + v) ns

/-- One pass of the search of R118 over engine victims `es` and overflow victims `ns`. -/
def State.searchPass (s : State) (e : Nat) (loc : Bool) (es ns : List Nat) : Option Found :=
  let n := e / 8
  let may := fun v (x : Found) => s.stealable n v loc x.2 && s.relayOk e x.2
  let fromE := (s.victimOrder n es).findSome? fun v =>
    bestBy (·.u) ((s.dequeAt v).reverse.filter (may (v / 8)))
  fromE.orElse fun _ => (ovfOrder n ns).findSome? fun v =>
    bestBy (·.u) ((s.ovfAt v).filter (may v))

/-- The search of R118 for thief engine `e`. -/
def State.stealSearch (s : State) (e : Nat) : Option Found :=
  let n := e / 8
  let en := fun v => s.on F.stCfg_EN v
  let ring := [(n + 15) % 16, (n + 1) % 16].filter en
  let any := (orderBy (ringDist n) ((List.range 16).filter (· ≠ n))).filter en
  (s.searchPass e true ((enginesOf n).filter (· ≠ e)) []).orElse fun _ =>
    (s.searchPass e false (ring.flatMap enginesOf) ring).orElse fun _ =>
      s.searchPass e false (any.flatMap enginesOf) any

/-- Take a found task out of its queue.
(DEDUCED, log entry 32) -/
def takeOut (x : Src) (s : State) : State :=
  match x with
  | .deque e k => syncTask e (s.setE e { s.e e with deque := (s.e e).deque.eraseIdx k })
  | .ovf n k => s.setSt n { s.st n with ovf := (s.st n).ovf.eraseIdx k }

/-- The stable a task is taken from. -/
def Src.stable : Src → Nat
  | .deque e _ => e / 8
  | .ovf n _ => n

/-- Make a found task the engine's current task: A and X take the descriptor, EID its function and incarnation. -/
def giveTask (e : Nat) (x : Found) (s : State) : State :=
  let n := e / 8
  let own := s.ownTask e == some x
  let s := takeOut x.1 s
  let v := x.1.stable
  let s := if own || v = n then s else (s.bump F.stCnt0_STEALIN n).bump F.stCnt0_STEALOUT v
  let s := if own then s else match x.1 with
    | .deque ve _ => s.setSt n { s.st n with rr := (ve + 1) % 128 }
    | .ovf _ _ => s
  let t := x.2
  clearIdle n (s.setE e { s.e e with a := t.w0, x := t.w1, tv := true, fn := t.fn, inc := t.inc, cur := some t, runt := 0, qTaken := false })

/-- The next task for engine `e` through all four steps of R117; none in load mode (R111). -/
def State.findTask (s : State) (e : Nat) : Option Found :=
  if s.on F.stCtl_LOAD (e / 8) then none else (s.ownTask e).orElse fun _ => s.stealSearch e

/-- The order in which engine `e` is served with a found task: an engine whose own deque holds it, one that finds it by steps
1 to 3 of R117, then the thieves by stable distance and number (R118, R129). -/
def State.serveRank (s : State) (e : Nat) (x : Found) : Nat :=
  let own := s.ownTask e == some x
  if own && (match x.1 with
    | .deque v _ => v == e
    | .ovf _ _ => false) then 0
  else if own then 1 + e % 8
  else 16 + 128 * ringDist x.1.stable (e / 8) + e

/-- Another idle engine that finds the same task is served before engine `e` (R118).
(DEDUCED, log entry 29) -/
def State.servedBefore (s : State) (e : Nat) (x : Found) : Bool :=
  ((s.eng.map (·.1)).filter fun o => o != e && s.idle o).any fun o =>
    s.findTask o == some x && s.serveRank o x < s.serveRank e x

/-! ### Deadlines, quantum, shares (R119 to R124) -/

/-- A waiting U0 task is hopeless (R121).
(DESIGN CHOICE, log entry 110) -/
def State.hopeless (s : State) (t : Task) : Bool := t.u == 0 && past32 (s.tk + (40 + 32 * t.est) / 3) t.dl > 0

/-- Withdraw one task: late record, count and IRQ1 (R121). -/
def lateRecord (n : Nat) (t : Task) (s : State) : State :=
  let s := if (s.st n).late.length < 16 then s.setSt n { s.st n with late := (s.st n).late ++ [t] } else s
  let s := s.bump F.stCnt1_LATE n
  ((List.range 8).filter fun k => (s.fld F.stSched_LATEDST n).testBit k).foldl (fun s k => hwIrq (8 * n + k) 1 s) s

/-- Withdraw the hopeless U0 tasks of a stable (R121).
(DESIGN CHOICE, log entry 110) -/
def withdrawLate (n : Nat) (s : State) : State :=
  let s := (enginesOf n).foldl (fun s e =>
    let gone := (s.e e).deque.reverse.filter s.hopeless
    if gone = [] then s
    else gone.foldl (fun s t => lateRecord n t s)
      (syncTask e (s.setE e { s.e e with deque := (s.e e).deque.filter fun t => !s.hopeless t }))) s
  let gone := (s.st n).ovf.filter s.hopeless
  gone.foldl (fun s t => lateRecord n t s) (s.setSt n { s.st n with ovf := (s.st n).ovf.filter fun t => !s.hopeless t })

/-- A read of LATE1 removes the oldest record (chapter 06, Registers). -/
def latePop (n : Nat) (s : State) : State := s.setSt n { s.st n with late := (s.st n).late.drop 1 }

/-- The update of the busy estimates, every 1 µs (R119). -/
def busyUpdate (s : State) : State :=
  { s with eng := (s.eng.map fun p =>
      let q : Int := p.2.deque.length + b2n p.2.tv
      (p.1, { p.2 with busy := ((p.2.busy : Int) + Int.tdiv (256 * q - p.2.busy) 8).toNat })).filter fun p => p.2 ≠ {} }

/-- Tasks that wait for engine `e`: dispatchable there under R117 or R118. -/
def State.waitingFor (s : State) (e : Nat) : List Task :=
  let n := e / 8
  let own := ((enginesOf n).flatMap s.dequeAt).filter (fun x => s.dispatchable x.2 && (x.2.u == 0 || match x.1 with
    | .deque v _ => v == e || s.stealable n n true x.2
    | .ovf _ _ => true)) ++ (s.ovfAt n).filter fun x => s.dispatchable x.2
  let far := ((List.range 16).filter fun v => v ≠ n && s.on F.stCfg_EN v).flatMap fun v =>
    (((enginesOf v).flatMap s.dequeAt) ++ s.ovfAt v).filter fun x => s.stealable n v false x.2
  ((own ++ far).map (·.2)).filter (s.relayOk e)

/-- Some idle engine could take the task. -/
def State.someoneFree (s : State) (t : Task) : Bool :=
  ((s.eng.map (·.1)).filter s.idle).any fun e => (s.waitingFor e).contains t

/-- The deque unit raises the quantum cause in engine `e`, once in each run of a task (R97, R122). A committed QUANT
governs as it was written.
(DEDUCED, log entry 20; DESIGN CHOICE, log entry 97) -/
def State.quantumDue (s : State) (e : Nat) : Bool :=
  match (s.e e).cur with
  | some c => (s.e e).tv && !(s.e e).qTaken && (s.e e).runt ≥ s.fld F.stSched_QUANT (e / 8) && c.u != 0
      && (s.waitingFor e).any fun t => (if c.u = 3 then t.u < 3 else t.u == 0) && !s.someoneFree t
  | none => false

/-- Further tasks of a function that has reached its cap are held: one DEFER per task, and OVERQ bit 22 (R124).
(DEDUCED, log entry 31) -/
def holdCapped (f : Nat) (s : State) : State :=
  let held := (s.eng.flatMap fun p => (p.2.deque.filter fun t => t.fn == f).map fun _ => p.1 / 8)
    ++ (s.stb.flatMap fun p => (p.2.ovf.filter fun t => t.fn == f).map fun _ => p.1)
  held.foldl (fun s n => deferTask f n s) s

/-- Functions that the tables know, F0 among them. -/
def State.knownFns (s : State) : List Nat :=
  (List.range 512).filter fun f => s.fnState f ≠ 0

/-- The next accounting period begins: counts restart, the active shares govern it, and OVERQ bit 22 clears (R124).
(DEDUCED, log entry 31) -/
def periodStart (s : State) : State :=
  let s := { s with period := s.period + 32000 }
  s.knownFns.foldl (fun s f =>
    let s := s.setFn f { s.fn f with used := 0, maxP := s.fld F.fnShare_MAXSHARE f, minP := s.fld F.fnShare_MINSHARE f }
    holdCapped f (s.put F.fnStatus_OVERQ 0 f)) s

/-! ### Release, gating and wake (R112, R125, R126, R128) -/

/-- Engine registers at their reset values, at the stable's start address; A, X and Y hold undefined values (R64). The deque
unit's busy estimate is not theirs: it goes on over a power gating (R119, R331). -/
def startEngine (e : Nat) (s : State) : State :=
  let (k, s) := s.draw
  let (m, s) := s.draw
  let (j, s) := s.draw
  s.setE e { a := Config.undefinedWord k, x := Config.undefinedWord m, y := Config.undefinedWord j
             pc := BitVec.ofNat 16 (s.fld F.stCfg_ENTRY (e / 8)), deque := (s.e e).deque
             ev := if (s.e e).deque.isEmpty then 0 else 0x8000, busy := (s.e e).busy }

/-- The function's start task of STBL, with its current incarnation, as U1 (R128). -/
def pushStart (f : Nat) (s : State) : State :=
  match s.boot.starts.find? (·.1 == f) with
  | none => s
  | some (_, w) =>
    let w0 := wd (bits w.toNat 39 9 * 2 ^ 39 + s.inc f * 2 ^ 31 + 1 * 2 ^ 29 + bits w.toNat 28 1 * 2 ^ 28
      + bits w.toNat 0 27)
    (pushTask none ⟨w0, 0⟩ s).2

/-- A stable is released: its busy estimates begin at 0, leave of the Ostler is asked for, and its engines start once it is
SERVED (R112, R119, R126). -/
def releaseStable (n : Nat) (s : State) : State :=
  if s.on F.stCfg_EN n && !s.on F.stCtl_RELD n then
    askWake n true ((enginesOf n).foldl (fun s e => s.setE e { s.e e with busy := 0 }) (s.put F.stCtl_RELD 1 n))
  else s

/-- The engines run, 1 µs after leave was SERVED: from ENTRY with the start tasks after a release, as they stood after
gating (R112, R126). -/
def enginesRun (n : Nat) (s : State) : State :=
  match (s.st n).starting with
  | none => s
  | some rel =>
    let lost := rel || (s.st n).powerGated
    let s := (s.setSt n { s.st n with starting := none, clocked := true, powerGated := false, idleFrom := none }).put
      F.stDqstat_GATED 0 n
    let s := if lost then (enginesOf n).foldl (fun s e => startEngine e s) s else s
    if rel then
      (s.boot.starts.filter fun p => s.firstStable p.1 == some n).foldl (fun s p => pushStart p.1 s) s
    else s

/-- The conditions of R125 under which a stable gates. -/
def State.gateable (s : State) (n : Nat) : Bool :=
  (enginesOf n).all (fun e => ((s.e e).wait == some .tnext || s.on F.dbgStat_HALTED n (e % 8)) && (s.e e).deque.isEmpty)
    && (s.st n).ovf.isEmpty && !s.on F.stCtl_LOAD n
    && !((List.range 4).any fun k => s.on F.epIpcfg0_EN k && s.fld F.epIpcfg0_STBL k == n)

/-- The stable's engine and code-store clocks stop, and its wake grant returns (R125, R126).
(DEDUCED, log entry 82) -/
def gateStable (n : Nat) (s : State) : State :=
  let s := (s.setSt n { s.st n with clocked := false, idleFrom := none }).put F.stDqstat_GATED 1 n
  returnUse (fun u => u == .wake n) s

/-- A stable gates once the conditions have held for GATEIDLE µs (R125).
(DEDUCED, log entry 82) -/
def gateIfIdle (n : Nat) (s : State) : State :=
  if s.awake n && s.fld F.stSched_GATEIDLE n ≠ 0 && s.gateable n then gateStable n s else s

/-- The tick at which an idle stable gates: GATEIDLE µs after its conditions began to hold, from now if they just do. -/
def State.gateTick (s : State) (n : Nat) : Nat :=
  if s.awake n && s.fld F.stSched_GATEIDLE n ≠ 0 && s.gateable n then
    (s.st n).idleFrom.getD s.tick + s.fld F.stSched_GATEIDLE n * tickUs
  else s.tick

/-! ### Function stops (R58, R98, R108) -/

/-- The engines that run a task of function `f`. -/
def State.running (s : State) (f : Nat) : List Nat := (s.eng.filter fun p => p.2.tv && p.2.fn == f).map (·.1)

/-- Step 2 of every function whose last running task has ended. -/
def noteStopped (f : Nat) (s : State) : State :=
  if s.fnState f = 3 && s.running f == [] then s.setFn f { s.fn f with stepAt := s.tick } else s

/-- The current task of an engine ends by a function stop; its descriptor is kept for A and X (R98, R113).
(DEDUCED, log entry 23) -/
def discardTask (e : Nat) (s : State) : State :=
  let c := (s.e e).cur
  let f := (s.e e).fn
  let s := endTask e true s
  noteStopped f (s.setE e { s.e e with cur := c, stopPend := true })

end Sys2Proof.Machine
end

