-- ==== Sys2Proof/Machine/Except.lean ====
section
/-! DEFINITION. An engine's exceptions: fetch of an instruction, taking an exception (R96 to R99), return from one (R100),
debug halt (R108), and how a refused access ends for the one that made it. -/

namespace Sys2Proof.Machine

/-- Word `a / 2` of the code store of an engine's stable, which holds instruction `a`. -/
def codePlace (e a : Nat) : SramWord := .code (Fin.ofNat 16 (e / 8)) (Fin.ofNat 32768 (a % 65536 / 2))

/-- The 24-bit slot of a code word that holds instruction address `a`: the even slot in bits 47:24 (R66). -/
def slotOf (w : Word) (a : Nat) : Nat := if a % 2 = 0 then bits w.toNat 24 24 else bits w.toNat 0 24

/-- The slot at an instruction address as a fetch would see it, nothing counted. -/
def State.peek (s : State) (e a : Nat) : Nat := slotOf (readCode (s.raw (codePlace e a))).word a

/-- Addressing mode of an instruction (R66). -/
def insnMode (i : Nat) : Nat := bits i 15 3
def insnOp (i : Nat) : Nat := bits i 18 6
def insnTgt (i : Nat) : Nat := bits i 12 3
def insnOpnd (i : Nat) : Nat := bits i 0 12

/-- How many slots an instruction takes: a mode-7 instruction brings its value slot (R67). -/
def insnLen (i : Nat) : Nat := if insnMode i = 7 then 2 else 1

/-- The address that runs after the instruction at PC (R98): behind a branch that is not taken, the one after its delay slot,
whatever stands there. The mode of an instruction whose code word is uncorrectable is read from the word's stored bits.
(DEDUCED, log entry 19; DESIGN CHOICE, log entry 92) -/
def State.afterPc (s : State) (e : Nat) : BitVec 16 :=
  match (s.e e).nxt with
  | some a => a
  | none => (s.e e).pc + (if (s.e e).slot.isSome then 1 else BitVec.ofNat 16 (insnLen (s.peek e (s.e e).pc.toNat)))

/-- An engine halts, with the reason of DBGSTAT.WHY; a function stop that pends for its task discards the task at once
(R108, R109).
(DEDUCED, log entry 23) -/
def haltEngine (e why : Nat) (s : State) : State :=
  let x := s.e e
  let s := ((s.setE e { x with haltReq := false, stepReq := false }).put F.dbgStat_HALTED 1 (e / 8) (e % 8)).put
    F.dbgStat_WHY why (e / 8) (e % 8)
  if x.stopPend && x.tv then discardTask e s else s

/-- A double exception: the engine halts and DBGSTAT records the second class (R99). -/
def doubleException (e cls : Nat) (s : State) : State :=
  let s := (s.put F.dbgStat_XCLASS cls (e / 8) (e % 8)).put F.dbgStat_DX 1 (e / 8) (e % 8)
  haltEngine e 4 s

/-- The vector word of a cause (R97). -/
def vectorOf (cls det : Nat) : Nat := if cls = 10 then 16 + det % 16 else cls

/-- Word `a` of an engine's private memory. -/
def privPlace (e a : Nat) : SramWord := .priv (Fin.ofNat 128 e) (Fin.ofNat 4096 a)

/-- Taking an exception (R98): the saved registers, the status, EXL, and PC from the vector word. A synchronous cause at
EXL = 1, or an uncorrectable vector word, halts the engine instead (R99).
(DEDUCED, log entry 19; DESIGN CHOICE, log entry 111) -/
def takeException (e cls det : Nat) (sync : Bool) (epc enpc : BitVec 16) (s : State) : State :=
  let x := s.e e
  if sync && x.exl then doubleException e cls s
  else
    let y := { x with epc := epc, enpc := enpc, ebk := x.bk, epsw := x.psw, ecause := BitVec.ofNat 12 (256 * cls + det % 256)
                      psw := (x.psw &&& 3) ||| 8, exl := true, nxt := none, slot := none, wait := none, bpPass := false }
    let s := s.setE e y
    match memRead (privPlace e (vectorOf cls det)) s with
    | (.ue _ _, s) => doubleException e 1 s
    | (.ok w, s) => s.setE e { s.e e with pc := BitVec.ofNat 16 w.toNat }
    | (.ce w, s) => s.setE e { s.e e with pc := BitVec.ofNat 16 w.toNat }

/-- An exception raised by the instruction at PC (R97: EPC is the faulting instruction).
(DEDUCED, log entry 26) -/
def faultAt (e cls det : Nat) (s : State) : State := takeException e cls det true (s.e e).pc (s.afterPc e) s

/-- Return from an exception (R100). -/
def returnFrom (e : Nat) (s : State) : State :=
  let x := s.e e
  s.setE e { x with psw := x.epsw, bk := x.ebk, exl := false, pc := x.epc, nxt := some x.enpc, slot := none, bpPass := false }

/-- An access of one register or word as its target answers it: the disposition (R17), the DETAIL of the exception that
an engine takes where it is refused (R97), and the state. -/
structure Ans where
  disp : Nat := 0
  det : Nat := 2
  /-- The class of that exception: 5 access-denied, 6 bus-error. -/
  cls : Nat := 5
  st : State

/-- The end of a write access: an engine that was refused takes the access-denied exception, and a host port shows the
disposition. -/
def finish (w : Who) (a : Ans) : State :=
  match w with
  | .engine e => if a.disp = 9 then faultAt e a.cls a.det a.st else a.st
  | _ => a.st.emit (.resp w a.disp [] false)

/-- The end of a read access of one word. -/
def finishRead (w : Who) (a : Ans) (v : Word) (pois : Bool) : State :=
  match w with
  | .engine e => if a.disp = 9 then faultAt e a.cls a.det a.st else if pois then faultAt e 1 0 a.st else a.st
  | _ => a.st.emit (.resp w a.disp [if a.disp = 9 then 0 else v] pois)

/-- An access that is refused: nothing changes (R24). -/
def denied (s : State) (det : Nat := 2) : Ans := { disp := 9, det := det, st := s }

/-- Carry an access out when it is permitted, else refuse it. -/
def allow (ok : Bool) (s : State) (f : State → State) (det : Nat := 2) : Ans :=
  if ok then { st := f s } else denied s det

/-- Before a layout is applied, only GC, PW, FA and CK act: an access to any other block reads zero and has no effect
(R27). -/
def open_ (s : State) (a : Ans) : Ans := if s.applied then a else { st := s }

/-- An access that reaches the part and a block that lives only under an applied layout. -/
def blockAccess (w : Who) (a : Ans) (s : State) : State := if s.heard w then finish w (open_ s a) else s

/-- A write to a block that lives only under an applied layout, by one who may make it. -/
def blockWrite (w : Who) (ok : State → Bool) (f : State → State) (s : State) : State :=
  blockAccess w (allow (ok s) s f) s

/-- A write to GC, PW, FA or CK, which act from the end of reset (R27), by one who may make it. -/
def sysWrite (w : Who) (ok : State → Bool) (f : State → State) (s : State) : State :=
  if s.heard w then finish w (allow (ok s) s f) else s

/-- A register that ignores a write of anyone else without refusing it; JTAG reaches the registers of R107 alone. -/
def quiet (w : Who) (ok : Bool) (f : State → State) (s : State) : Ans :=
  if w = .jtag then denied s else if ok then { st := f s } else { st := s }

/-- As `blockWrite`, where the register ignores other writers. -/
def blockWriteQuiet (w : Who) (ok : State → Bool) (f : State → State) (s : State) : State :=
  if s.heard w then finish w (open_ s (quiet w (ok s) f s)) else s

/-- As `sysWrite`, where the register ignores other writers. -/
def sysWriteQuiet (w : Who) (ok : State → Bool) (f : State → State) (s : State) : State :=
  if s.heard w then finish w (quiet w (ok s) f s) else s

/-- A writer of GC, CK and FA, which name no writers: every port and engine but a PCIe virtual function (R360). -/
def notVf : Who → Bool
  | .vf _ => false
  | _ => true

end Sys2Proof.Machine
end

