-- ==== Sys2Proof/Machine/Notify.lean ====
section
/-! DEFINITION. Interrupt conditions of the blocks and the MSI-X messages they send (R362 to R364), and the end of every
command. -/

namespace Sys2Proof.Machine

/-- Some event bit of the list is set with its enable bit in `ie` (R363). -/
def State.anyEv (s : State) (ie : Fld) (fs : List Fld) (i : Nat := 0) : Bool :=
  s.act.any fun e => fs.any fun f => e.1 == f.key i 0 && e.2 != 0 && (s.fld ie i).testBit f.lo

def pwEvs : List Fld :=
  [F.pwEvt_OVLD, F.pwEvt_WAKE, F.pwEvt_PREEMPT, F.pwEvt_PSDONE, F.pwEvt_VBAKLOW, F.pwEvt_BOUNCE, F.pwEvt_HANDBACK, F.pwEvt_ONBAK]
def tmEvs : List Fld :=
  [F.tmEvt_LQLATE, F.tmEvt_PGMISS, F.tmEvt_REVERSE, F.tmEvt_HOLD, F.tmEvt_LOCKCHG, F.tmEvt_INCLIM, F.tmEvt_SREF, F.tmEvt_STEP]
def pdEvs : List Fld :=
  [F.pdEvt_SLOTMISS, F.pdEvt_DIFF, F.pdEvt_CHDOWN, F.pdEvt_COLL, F.pdEvt_ALONE, F.pdEvt_BACKUP, F.pdEvt_REFMISS, F.pdEvt_ALIGNCHG]
def twEvs : List Fld :=
  [F.twEvt_CFGDIFF, F.twEvt_SPLIT, F.twEvt_BOTHF, F.twEvt_UNRES, F.twEvt_YIELD, F.twEvt_TAKE, F.twEvt_LINKCHG]
def canEvs : List Fld :=
  [F.canEvt_TXBUSY, F.canEvt_LONE, F.canEvt_BOREC, F.canEvt_BOFF, F.canEvt_EPASS, F.canEvt_RXOVR, F.canEvt_RXB, F.canEvt_RXF, F.canEvt_TXDONE]
def epEvs : List Fld :=
  [F.epEvt_PVFAIL, F.epEvt_TSOVF, F.epEvt_EXCOL, F.epEvt_LATECOL, F.epEvt_TXPOIS, F.epEvt_TXUND, F.epEvt_LINKCHG]

/-- FN events of the functions that `p` names: RSTDONE and OVQEV with their enable bits. -/
def State.fnEvents (s : State) (p : Nat → Bool) : Bool :=
  s.act.any fun e => e.2 != 0 &&
    ((keyFld e.1 == F.fnStatus_RSTDONE.id && s.on F.fnCtl_RSTIE (keyI e.1) && p (keyI e.1))
      || (keyFld e.1 == F.fnStatus_OVQEV.id && s.on F.fnCtl_OVQIE (keyI e.1) && p (keyI e.1)))

/-- The condition of local vector `v` of PCIe function `r` (R362). -/
def State.vecPending (s : State) (r v : Nat) : Bool :=
  if r ≠ 0 then v = 0 && s.fnEvents fun f => s.vfOf f == r
  else if v = 3 then (s.on F.gcLaystat_DONE && s.on F.gcLdctl_DONEIE) || (s.on F.gcLaystat_FAIL && s.on F.gcLdctl_FAILIE)
  else if v = 4 then s.anyEv F.pwEvt_IE pwEvs
  else if v = 5 then (s.on F.faFlstat_DONE && s.on F.faFlcmd_FLIE) || (s.boot.telNew && s.on F.faFlcmd_TELIE)
  else if v = 6 then s.anyEv F.tmEvt_IE tmEvs
  else if v = 7 then s.anyEv F.pdEvt_IE pdEvs
  else if v = 8 then s.anyEv F.twEvt_IE twEvs
  else if v = 9 then s.act.any fun e => keyFld e.1 == F.icSflag_SFLAG.id && e.2 != 0 && s.on F.icStarv_SIE (keyI e.1)
  else if 10 ≤ v ∧ v < 14 then s.anyEv F.canEvt_IE canEvs (v - 10)
  else if 14 ≤ v ∧ v < 26 then
    s.anyEv F.epEvt_IE epEvs (v - 14)
      || (v < 18 && s.on F.epIpstat_LWEV (v - 14) && s.on F.epIpstat_LWIE (v - 14))
  else if 26 ≤ v ∧ v < 42 then
    s.act.any fun e => e.2 != 0 && keyI e.1 == v - 26 &&
      ((keyFld e.1 == F.dbgStat_DX.id && s.on F.dbgCtl_DXIE (v - 26) (keyJ e.1))
        || (keyFld e.1 == F.stMemlog_VALID.id && s.on F.stMemlog_UEIE (v - 26)))
  else if v = 42 then s.fnEvents fun _ => true
  else false

/-- The global vectors that stand for conditions: those of the physical function, and vector 0 of each virtual one.
(DEDUCED, log entry 53) -/
def levelVectors : List Nat := (List.range 40).map (· + 3) ++ (List.range 15).map fun r => 128 * (r + 1)

/-- A global vector's condition. -/
def State.condition (s : State) (v : Nat) : Bool := s.vecPending (v / 128) (v % 128)

/-- The function's MSI-X Enable is 1 and the link is up. -/
def State.msixOn (s : State) (v : Nat) : Bool := s.host.pcieUp && s.host.msixEn.getLsbD (v / 128)

/-- The vectors whose condition became pending between two states (R363). -/
def risen (old new : State) : List Nat :=
  if old.act = new.act && old.boot.telNew = new.boot.telNew then [] else levelVectors.filter fun v => new.msixOn v && new.condition v && !old.condition v

/-- The end of every command: vectors whose condition became pending are sent, or set their PBA bit while masked (R363). No
command changes the queue of the commands that wait.
(DEDUCED, log entry 87) -/
def notify (old new : State) : State :=
  { new with
    pending := old.pending
    out := new.out ++ ((risen old new).filter new.host.unmasked.contains).map .msix
    host := { new.host with
      pba := new.host.pba ++ (risen old new).filter fun v => !new.host.unmasked.contains v && !new.host.pba.contains v } }

/-- The outcome of a command that goes on.
(DEDUCED, log entry 87; DESIGN CHOICE, log entry 7) -/
def done (old new : State) : Host.Outcome State Fault Refusal := .next (notify old new)

end Sys2Proof.Machine
end

