-- ==== Sys2Proof/Machine/Lofts.lean ====
section
/-! DEFINITION. The lofts: who may use a word, bank hand-over, the poison mark and scrubbing (chapter 07). -/

namespace Sys2Proof.Machine

/-- The words of the overflow queue, which the deque unit alone reaches (R116, R137). -/
def loftReserved (a : Nat) : Bool := 0xDE00 ≤ a && a < 0xE000

/-- The word is an in-passing word of its stable: the lower half of banks 14 and 15 while a pair that names the stable has
EN set (R210).
(DESIGN CHOICE, log entry 34) -/
def State.inpassWord (s : State) (n a : Nat) : Bool :=
  (a / 4096 == 14 || a / 4096 == 15) && a % 4096 < 0x800 &&
    (List.range 4).any fun k => s.on F.epIpcfg0_EN k && s.fld F.epIpcfg0_STBL k == n

/-- The current owner of the bank that holds a word. -/
def State.bankOwner (s : State) (n a : Nat) : Nat := s.fld F.stBank_OWNER n (a / 4096)

/-- Start the drain of a hand-over to `g` (R140). -/
def startDrain (n b g : Nat) (s : State) : State :=
  ((s.setSt n { s.st n with xfer := Tab.set 0 (s.st n).xfer b (g + 1) }).put F.stBank_XPEND 1 n b).put F.stBank_DISP 1 n b

/-- Some bank that the release of function `g` hands back still drains towards it (R59). -/
def State.receiving (s : State) (g : Nat) : Bool :=
  (s.fn g).awaits.any fun k => Tab.get 0 (s.st (k / 16)).xfer (k % 16) == g + 1

/-- A released function runs once every bank handed back has passed, and its start task is pushed (R59). -/
def finishRelease (g : Nat) (s : State) : State :=
  if (s.fn g).releasing && !s.receiving g then
    pushStart g ((s.setFn g { s.fn g with releasing := false, awaits := [] }).put F.fnStatus_STATE 2 g)
  else s

/-- A drain ends: the bank's owner becomes the receiving function; a commit's hand-over that waited starts (R140, R151).
(DEDUCED, log entry 33) -/
def endDrain (n b : Nat) (s : State) : State :=
  match Tab.get 0 (s.st n).xfer b with
  | 0 => s
  | g + 1 =>
    let old := s.fld F.stBank_OWNER n b
    let t := s.setSt n { s.st n with xfer := Tab.set 0 (s.st n).xfer b 0 }
    let t := (t.put F.stBank_OWNER g n b).put F.stBank_NEXT g n b
    let t := ((t.putShadow F.stBank_NEXT g n b).put F.stBank_XPEND 0 n b).put F.stBank_DISP 0 n b
    let t := finishRelease g (noteOverq old s (noteOverq g s t))
    match Tab.get 0 (t.st n).xnext b with
    | 0 => t
    | h + 1 => startDrain n b h (t.setSt n { t.st n with xnext := Tab.set 0 (t.st n).xnext b 0 })

/-- An access that acts for the receiving function of a draining bank waits at the bank until the drain ends (R140).
(DEDUCED, log entry 33) -/
def awaitDrain (w : Who) (n a : Nat) (s : State) : State :=
  match Tab.get 0 (s.st n).xfer (a / 4096) with
  | 0 => s
  | g + 1 => if !s.supervisor w && s.actsFor w g then endDrain n (a / 4096) s else s

/-- The access to a loft word is permitted (R137, R140): the old owner of a draining bank is refused.
(DEDUCED, log entry 33) -/
def State.mayLoft (s : State) (w : Who) (n a : Nat) : Bool :=
  !loftReserved a &&
    (s.supervisor w || (match w with
      | .farrier => true
      | _ => false)
    || (s.actsFor w (s.bankOwner n a) && Tab.get 0 (s.st n).xfer (a / 4096) == 0))

/-- A loft word as a place. -/
def loftPlace (n a : Nat) : SramWord := .loft (Fin.ofNat 16 n) (Fin.ofNat 65536 a)

/-- Count an access refused with DENIED (R137). -/
def countDeny (n : Nat) (s : State) : State := s.bump F.stMemerr_DENY n

/-- A read of a loft word: its disposition, what it finds, and the state.
(DESIGN CHOICE, log entry 88) -/
def loftRead (w : Who) (n a : Nat) (s : State) : Nat × Rd × State :=
  let s := awaitDrain w n a s
  if s.mayLoft w n a then
    let (r, s) := memRead (loftPlace n a) s
    (0, r, s)
  else (9, .ok 0, countDeny n s)

/-- A write of the enabled bytes of a loft word, with its disposition (R137, R147, R148, R210). -/
def loftWrite (w : Who) (n a : Nat) (be : BitVec 8) (v : BitVec 64) (s : State) : Nat × State :=
  let s := awaitDrain w n a s
  if s.mayLoft w n a && !s.inpassWord n a then memMerge (loftPlace n a) be v s
  else (9, countDeny n s)

/-- Writing BANK with XGO: DISP shows the request's disposition; a writer that check 1 refuses is refused as an access too
(R139). -/
def handoverRequest (w : Who) (n b g : Nat) (s : State) : Ans :=
  let disp := fun (d : Nat) (s : State) => s.put F.stBank_DISP d n b
  let o := s.fld F.stBank_OWNER n b
  if !(s.supervisor w || s.actsFor w o) then { disp := 9, det := 1, st := disp 9 s }
  else if s.fnState g = 0 ∨ s.fnState g = 3 then { st := disp 9 s }
  else if g ≠ o && s.useBanks g ≥ s.fld F.fnQuota_BANKS g then { st := (disp 2 s).bump F.fnCnt_REFQ g }
  else if s.on F.stBank_XPEND n b then { st := disp 5 s }
  else if g = o then { st := disp 0 s }
  else { st := startDrain n b g s }

/-- The captured set of ST[n] becomes active: every bank whose NEXT differs from its owner is handed over (R141). -/
def activateSt (n : Fin 16) (s : State) : State :=
  (List.range 16).foldl (fun s b =>
    let g := s.fld F.stBank_NEXT n b
    if g = s.fld F.stBank_OWNER n b then s
    else if s.fnState g = 0 then s.put F.stBank_DISP 9 n b
    else if s.on F.stBank_XPEND n b then s.setSt n { s.st n with xnext := Tab.set 0 (s.st n).xnext b (g + 1) }
    else startDrain n b g s) (activate (.st n) s)

/-- A request for the poison mark (R149).
(DESIGN CHOICE, log entry 34) -/
def poisonRequest (w : Who) (n a : Nat) (s : State) : Ans :=
  let s := awaitDrain w n a s
  if s.mayLoft w n a && !s.inpassWord n a then { st := s.setSt n { s.st n with pmarks := (s.st n).pmarks ++ [a] } }
  else { disp := 9, det := 1, st := countDeny n s }

/-- The oldest accepted mark is placed: the check byte is inverted and the data bits are kept (R149).
(DESIGN CHOICE, log entry 34) -/
def placeMark (n : Nat) (s : State) : State :=
  match (s.st n).pmarks with
  | [] => s
  | a :: rest =>
    let s := s.setSt n { s.st n with pmarks := rest }
    s.setRaw (loftPlace n a) (poison (s.raw (loftPlace n a)))

/-- A scrub read: a correctable word is due for write-back (R150). -/
def scrubRead (a : SramWord) (s : State) : State :=
  let (r, s) := memRead a s
  match r with
  | .ce _ => if s.scrub.contains a then s else { s with scrub := s.scrub ++ [a] }
  | _ => s

/-- A scrub write-back, unless a write came in between (R150). -/
def scrubWriteBack (a : SramWord) (s : State) : State :=
  if s.scrub.contains a then
    match readCode (s.raw a) with
    | .ce w => memWrite a w s
    | _ => { s with scrub := s.scrub.filter (· ≠ a) }
  else s

/-! ### Commands -/

/-- BANK_HANDOVER_REQUEST: ST[n].BANK[b] written with XGO = 1 and XTO = g (R139). -/
def execBankHandoverRequest (w : Who) (n b : Fin 16) (g : Fin 512) (s : State) : Host.Outcome State Fault Refusal :=
  done s (blockAccess w (handoverRequest w n b g s) s)

/-- BANK_HANDOVER_COMPLETE: the drain of a hand-over ends (R140). -/
def execBankHandoverComplete (n b : Fin 16) (s : State) : Host.Outcome State Fault Refusal := done s (endDrain n b s)

/-- POISON_MARK: ST[n].PMARK written with GO = 1 (R149). -/
def execPoisonMark (w : Who) (n : Fin 16) (a : Fin 65536) (s : State) : Host.Outcome State Fault Refusal :=
  done s (blockAccess w (poisonRequest w n a s) s)

/-- POISON_MARK_APPLY: the accepted mark takes the bank's shared position (R149). -/
def execPoisonMarkApply (n : Fin 16) (s : State) : Host.Outcome State Fault Refusal := done s (placeMark n s)

/-- SCRUB_READ: the Farrier reads a word (R150). -/
def execScrubRead (a : SramWord) (s : State) : Host.Outcome State Fault Refusal := done s (scrubRead a s)

/-- SCRUB_WRITE_BACK: a corrected word goes back (R150). -/
def execScrubWriteBack (a : SramWord) (s : State) : Host.Outcome State Fault Refusal := done s (scrubWriteBack a s)

end Sys2Proof.Machine
end

