-- ==== Sys2Proof/Machine/Mailbox.lean ====
section
/-! DEFINITION. Mailbox pairs, doorbells, and the interconnect's arbiters (chapter 08). -/

namespace Sys2Proof.Machine

/-- The function at an end, if it is a function end. -/
def State.endFn (s : State) (m sd : Nat) : Option Nat :=
  if s.endKind m sd = 1 then some (s.fld F.mbEnd_ID m sd) else none

/-- The incarnation of the end: a function's current one, 0 for a host end. -/
def State.endInc (s : State) (m sd : Nat) : Nat := match s.endFn m sd with
  | some f => s.inc f
  | none => 0

/-- The access may use the side's registers (R156). -/
def State.mbSide (s : State) (w : Who) (m sd : Nat) : Bool :=
  s.supervisor w || match w with
    | .engine e => s.endFn m sd == some (s.engFn e)
    | .vf r => s.endKind m sd == 2 && s.fld F.mbEnd_ID m sd == r.val + 1
    | _ => false

/-- The access may read the pair's common registers (R156). -/
def State.mbRead (s : State) (w : Who) (m : Nat) : Bool := s.supervisor w || s.mbSide w m 0 || s.mbSide w m 1

/-- The queue that side `sd` sends into. -/
def PairS.queue (p : PairS) (sd : Nat) : List MEntry := if sd = 0 then p.qa else p.qb
def PairS.setQueue (p : PairS) (sd : Nat) (q : List MEntry) : PairS := if sd = 0 then { p with qa := q } else { p with qb := q }

/-- Ring the doorbell of end `sd`: DB, and EV bit 14 of the engine or stable that DBT names, or the MSI-X message (R162). -/
def ring (m sd : Nat) (s : State) : State :=
  let s := s.put F.mbStat_DB 1 m sd
  let t := s.fld F.mbEnd_DBT m sd
  match s.endKind m sd with
  | 1 =>
    let e := t % 128
    if t.testBit 7 then wakeStable (e / 8) ((enginesOf (e / 8)).foldl (fun s e => setEv e 14 s) s)
    else wakeStable (e / 8) (setEv e 14 s)
  | 2 => sendMsix t s
  | _ => s

/-- Keep the standoff time of a pair: it runs while both queues hold an entry, from the last read (R161). -/
def touchPair (m : Nat) (read : Bool) (s : State) : State :=
  let p := s.pair m
  if p.qa.isEmpty || p.qb.isEmpty then s.setPair m { p with since := none }
  else if read || p.since.isNone then s.setPair m { p with since := some s.tick }
  else s

/-- Writing TX of a side (R157, R158).
(DEDUCED, log entry 35; DESIGN CHOICE, log entry 101) -/
def mbSend (m sd : Nat) (v : Word) (s : State) : State :=
  let o := 1 - sd
  let disp := fun (d : Nat) (s : State) => s.put F.mbStat_WDISP d m sd
  if s.endKind m sd = 0 ∨ s.endKind m o = 0 then disp 9 s
  else
    let rf := s.endFn m o
    match (match rf with
      | some f => if s.fld F.mbStat_HV m sd = 0 ∨ s.inc f ≠ s.fld F.mbStat_HINC m sd then some (7, s.bump F.fnCnt_STALE f)
          else if s.fnState f = 3 then some (6, s.bump F.fnCnt_ABANDON f) else none
      | none => none) with
    | some (d, s) => disp d s
    | none =>
      let x : MEntry := { w := sealW v, sFn := s.endFn m sd, sInc := s.endInc m sd
                          rInc := if rf.isSome then s.fld F.mbStat_HINC m sd else 0 }
      let p := s.pair m
      let q := p.queue sd
      let s := if q.length < 8 then s.setPair m (p.setQueue sd (q ++ [x]))
        else ((s.setPair m (p.setQueue sd (q.dropLast ++ [x]))).put F.mbStat_COL 1 m sd).bump
          (if sd = 0 then F.mbCnt_PREA else F.mbCnt_PREB) m
      let s := touchPair m false (disp 1 s)
      if s.on F.mbEnd_AUTO m o then ring m o s else s

/-- The newest entry of side `sd`'s sending queue got its final disposition: WDISP shows it if that write was the side's
most recent one. -/
def finalDisp (m sd d : Nat) (s : State) : State :=
  if ((s.pair m).queue sd).isEmpty && s.fld F.mbStat_WDISP m sd == 1 then s.put F.mbStat_WDISP d m sd else s

/-- Take the oldest entry out of side `sd`'s sending queue.
(DEDUCED, log entry 35) -/
def popEntry (m sd : Nat) (s : State) : State :=
  let s := { s with scrub := s.scrub.filter fun a => match a with
    | .mbq m' sd' _ => !(m'.val == m && sd'.val == sd)
    | _ => true }
  s.setPair m ((s.pair m).setQueue sd (((s.pair m).queue sd).drop 1))

/-- Reading RX of side `sd` (R159): at most `n` stale entries are passed. Answers the word read and whether it was
uncorrectable.
(DEDUCED, log entry 35) -/
def mbTake (m sd : Nat) : Nat → State → Word × Bool × State
  | 0, s => (0, false, s.put F.mbStat_RXV 0 m sd)
  | n + 1, s =>
    let o := 1 - sd
    match (s.pair m).queue o with
    | [] => (0, false, s.put F.mbStat_RXV 0 m sd)
    | x :: _ =>
      let stale := match x.sFn with
        | some f => if x.sInc ≠ s.inc f then some f else none
        | none => none
      let stale := stale.orElse fun _ => match s.endFn m sd with
        | some f => if x.rInc ≠ s.inc f then some f else none
        | none => none
      match stale with
      | some f => mbTake m sd n (touchPair m true (finalDisp m o 7 (popEntry m o (s.bump F.fnCnt_STALE f))))
      | none =>
        match readCode x.w with
        | .ue w _ =>
          let s := mbLoss { s with boot := { s.boot with telUe := s.boot.telUe + 1 } }
          (w, true, (touchPair m true (finalDisp m o 8 (popEntry m o s))).put F.mbStat_RXV 1 m sd)
        | .ok w => (w, false, good x o (touchPair m true (finalDisp m o 0 (popEntry m o s))))
        | .ce w =>
          let s := { s.bump F.mbMemerr_CE with boot := { s.boot with telCe := s.boot.telCe + 1 } }
          (w, false, good x o (touchPair m true (finalDisp m o 0 (popEntry m o s))))
where
  good (x : MEntry) (_o : Nat) (s : State) : State :=
    ((s.put F.mbStat_RXV 1 m sd).put F.mbStat_HINC x.sInc m sd).put F.mbStat_HV 1 m sd

/-- Writing STATx.RESYNC: HINC takes the peer's current incarnation (R159). -/
def mbResync (m sd : Nat) (s : State) : State :=
  (s.put F.mbStat_HINC (s.endInc m (1 - sd)) m sd).put F.mbStat_HV 1 m sd

/-- The receiving function of a queue is RESETTING. -/
def State.under (s : State) (g : Option Nat) : Bool := g.any fun g => s.fnState g = 3

/-- Empty one queue: `f` none, a rebinding: every entry's sender receives ABANDONED; `f` some, a reset of that function:
the senders of entries addressed to a function under reset do, counted in its ABANDON (R58, R60, R63, R155). -/
def emptyQueue (m sd : Nat) (f : Option Nat) (s : State) : State :=
  let q := (s.pair m).queue sd
  let hit := match f with
    | none => true
    | some _ => s.under (s.endFn m (1 - sd))
  let s := s.setPair m ((s.pair m).setQueue sd [])
  let s := { s with scrub := s.scrub.filter fun a => match a with
    | .mbq m' sd' _ => !(m'.val == m && sd'.val == sd)
    | _ => true }
  if q.isEmpty || !hit then touchPair m false s
  else
    let s := s.bump (if sd = 0 then F.mbCnt_ABNA else F.mbCnt_ABNB) m 0 q.length
    let s := match f, s.endFn m (1 - sd) with
      | some _, some g => s.bump F.fnCnt_ABANDON g 0 q.length
      | _, _ => s
    touchPair m false (finalDisp m sd 6 s)

/-- Both queues of a pair are emptied. -/
def emptyPair (m : Nat) (f : Option Nat) (s : State) : State := emptyQueue m 1 f (emptyQueue m 0 f s)

/-- Pairs with an entry in the register tables. -/
def pairsIn (t : Tab Nat) : List Nat :=
  (t.filter fun e => inBlk .mb e.1).foldl (fun a e => if a.contains (keyI e.1) then a else a ++ [keyI e.1]) []

/-- Pairs bound to a function. -/
def State.pairsOf (s : State) (f : Nat) : List Nat :=
  (pairsIn s.act).filter fun m => s.endFn m 0 == some f || s.endFn m 1 == some f

/-- Step 5 of a function reset: the pairs bound to the function are emptied (R58). -/
def mbResetEmpty (f : Nat) (s : State) : State := (s.pairsOf f).foldl (fun s m => emptyPair m (some f) s) s

/-- Step 6 of a function reset: HV clears on every side whose peer is the function (R56). -/
def mbClearHeld (f : Nat) (s : State) : State :=
  (s.pairsOf f).foldl (fun s m => [0, 1].foldl (fun s sd =>
    if s.endFn m (1 - sd) == some f then s.put F.mbStat_HV 0 m sd else s) s) s

/-- The four fields of an end. -/
def endFlds : List Fld := [F.mbEnd_KIND, F.mbEnd_ID, F.mbEnd_AUTO, F.mbEnd_DBT]

/-- Rebind one pair to the captured binding `c`, or refuse it for quota (R155).
(DESIGN CHOICE, log entry 112) -/
def rebindPair (c : Tab Nat) (m : Nat) (s : State) : State :=
  let val := fun (f : Fld) (sd : Nat) => Tab.get f.reset c (f.key m sd)
  let kind := fun sd => if val F.mbEnd_KIND sd = 3 then Tab.get F.mbEnd_KIND.reset s.lay (F.mbEnd_KIND.key m sd) else val F.mbEnd_KIND sd
  if [0, 1].all (fun sd => kind sd == s.endKind m sd && (endFlds.drop 1).all fun f => val f sd == s.fld f m sd) then
    [0, 1].foldl (fun s sd => s.put F.mbEnd_KIND (val F.mbEnd_KIND sd) m sd) s
  else
    let isOld := fun g => s.endFn m 0 == some g || s.endFn m 1 == some g
    let news := [0, 1].filterMap fun sd => if kind sd = 1 then some (val F.mbEnd_ID sd) else none
    match news.find? fun g => !isOld g && s.useMboxes g + 1 > s.fld F.fnQuota_MBOXES g with
    | some g => (s.put F.mbCtl_BDISP 2 m).bump F.fnCnt_REFQ g
    | none =>
      let s := emptyPair m none s
      let s := [0, 1].foldl (fun s sd => endFlds.foldl (fun s f => s.put f (val f sd) m sd) s) s
      (mbResync m 0 (mbResync m 1 s)).put F.mbCtl_BDISP 0 m

/-- The captured set of MB becomes active: every changed pair is rebound in ascending order (R155). -/
def activateMb (s : State) : State :=
  let ms := orderBy id ((pairsIn s.cap) ++ (pairsIn s.act).filter fun m => !(pairsIn s.cap).contains m)
  let c := s.cap
  let kept := ms.foldl (fun s m => rebindPair c m s) s
  activate .mb { kept with cap := copyBlk .mb kept.act kept.cap }

/-- Every stable in the function's affinity is gated or powered down (MB[m].PEER.SLPx). -/
def State.asleep (s : State) (m sd : Nat) : Bool :=
  match s.endFn m sd with
  | some f => (List.range 16).all fun n => !s.inAffinity f n || !s.awake n
  | none => false

/-- The standoff detector fires (R161). -/
def standoff (m : Nat) (s : State) : State :=
  match (s.pair m).since with
  | none => s
  | some _ =>
    if s.fld F.mbCtl_STO m = 0 then s
    else
      let s := ((s.setPair m { s.pair m with since := some s.tick }).put F.mbStat_SOFF 1 m 0).put F.mbStat_SOFF 1 m 1
      ring m 1 (ring m 0 s)

/-! ### The interconnect (R163 to R169) -/

/-- The level of a request at a target (R165). -/
def State.icLevel (s : State) (t : Nat) (r : IcReq) : Nat :=
  if r.i ≠ 16 && r.i ≠ 18 && (s.fld F.icUsef_USEF t).testBit r.i then s.fld F.fnCfg_ICCLASS r.f
  else bits (s.fld F.icLvl_LVL t) (2 * r.i) 2

/-- Requests of an initiator outstanding at all targets; a granted one until its burst, of 4 YCLK at most, has ended (R164,
R165). -/
def State.icOut (s : State) (i : Nat) : Nat :=
  (s.ic.map fun p => let busy := if s.tick < p.2.grantedAt + 2 then p.2.granted.toList else []
    ((p.2.q ++ p.2.wait ++ busy).filter fun r => r.i == i).length).sum

/-- The function that a request acts for: a host port other than a virtual function and the Farrier act for F0 (R136, R165). -/
def icActs (i f : Nat) (w : Who) : Nat :=
  if i = 18 then 0
  else if i = 16 then (match w with
    | .vf _ => f
    | _ => 0)
  else f

/-- A request reaches its target: into the queue of 16, or it waits at its initiator (R164).
(DEDUCED, log entry 36) -/
def icRequest (t i f : Nat) (w : Who) (bank : Option Nat) (s : State) : State :=
  if s.icOut i ≥ 8 then s
  else
    let x := s.icT t
    let r : IcReq := { i := i, f := icActs i f w, w := w, bank := if t < 16 then bank else none, t0 := s.tick }
    s.setIc t (if x.q.length < 16 then { x with q := x.q ++ [r] } else { x with wait := x.wait ++ [r] })

/-- The request granted next: the highest waiting level, and round-robin within it (R165). -/
def State.icPick (s : State) (t : Nat) : Option (Nat × IcReq) :=
  let x := s.icT t
  (x.q.zipIdx.map fun p => (p.2, p.1)).foldl (fun b c => match b with
    | none => some c
    | some b =>
      let lb := s.icLevel t b.2
      let lc := s.icLevel t c.2
      let d := fun (i l : Nat) => (i + 19 - Tab.get 0 x.last l) % 19
      if lc > lb || (lc = lb && d c.2.i lc < d b.2.i lb) then some c else some b) none

/-- The arbitration point of a target: the burst under way ends, a captured set becomes active, and the next request is
granted (R165, R166).
(DEDUCED, log entry 36; DESIGN CHOICE, log entry 88) -/
def icGrant (t : Nat) (b : Block) (s : State) : State :=
  let s := s.setIc t { s.icT t with granted := none }
  let s := if s.cfld F.commit_PEND b = 1 then activate b s else s
  match s.icPick t with
  | none => s
  | some (k, r) =>
    let x := s.icT t
    let q := x.q.eraseIdx k
    s.setIc t { x with q := q ++ x.wait.take 1, wait := x.wait.drop 1, granted := some r, grantedAt := s.tick
                       last := Tab.set 0 x.last (s.icLevel t r) (r.i + 1) }

/-- Withdraw the requests that `p` names; one whose granted burst, of 4 YCLK at most, is still under way costs a dead cycle
(R165, R167).
(DEDUCED, log entry 36) -/
def icWithdraw (p : IcReq → Bool) (s : State) : State :=
  (s.ic.map (·.1)).foldl (fun s t =>
    let x := s.icT t
    let dead := x.granted.any p && s.tick < x.grantedAt + 2
    let q := x.q.filter fun r => !p r
    let w := x.wait.filter fun r => !p r
    let n := 16 - q.length
    let s := s.setIc t { x with q := q ++ w.take n, wait := w.drop n, granted := if x.granted.any p then none else x.granted }
    if dead then s.bump F.icCnt_DEAD t else s) s

/-- The owners of the banks for which function `f` has requests waiting at the interconnect. -/
def State.icOwners (s : State) (f : Nat) : List Nat :=
  (List.range 16).flatMap fun t => ((s.icT t).q ++ (s.icT t).wait).filterMap fun r =>
    if r.f = f then (r.bank.map fun b => s.fld F.stBank_OWNER t b).filter (· ≠ f) else none

/-- Step 7 of a function's reset: the requests of others that wait for a bank it owned, `banks` as 16 n + b, complete
ABANDONED (R58, R63). -/
def icAbandon (f : Nat) (banks : List Nat) (s : State) : State :=
  (List.range 16).foldl (fun s t =>
    let x := s.icT t
    let hit := fun (r : IcReq) => r.f != f && r.bank.any fun b => banks.contains (16 * t + b)
    let gone := ((x.q ++ x.wait).filter hit).length
    if gone = 0 then s
    else
      let q := x.q.filter fun r => !hit r
      let w := x.wait.filter fun r => !hit r
      let n := 16 - q.length
      (s.setIc t { x with q := q ++ w.take n, wait := w.drop n }).bump F.fnCnt_ABANDON f 0 gone) s

/-- A request that has waited past LIMIT, in its target's queue or at its initiator (R169); a YCLK cycle is half a tick.
(DEDUCED, log entry 36) -/
def starvation (t i : Nat) (s : State) : State :=
  let lim := s.fld F.icStarv_LIMIT t
  let x := s.icT t
  let hit := fun (r : IcReq) => r.i == i && !r.flagged && lim != 0
  let flag := fun (r : IcReq) => ({ r with flagged := true } : IcReq)
  let note := fun (s : State) => (s.put F.icSflag_SFLAG (s.fld F.icSflag_SFLAG t ||| 2 ^ i) t).bump F.icCnt_STARVN t
  match x.q.findIdx? hit, x.wait.findIdx? hit with
  | some k, _ => note (s.setIc t { x with q := x.q.modify k flag })
  | none, some k => note (s.setIc t { x with wait := x.wait.modify k flag })
  | none, none => s

end Sys2Proof.Machine
end

