-- ==== Sys2Proof/Machine/Manger.lean ====
section
/-! DEFINITION. The Manger: regions and their buffers, access, completion, the flip, subscriptions (chapter 09). -/

namespace Sys2Proof.Machine

def State.rgTriple (s : State) (k : Nat) : Bool := s.on F.mgCfg0_TRIPLE k
def State.rgBase (s : State) (k : Nat) : Nat := s.fld F.mgCfg0_BASE k
def State.rgSize (s : State) (k : Nat) : Nat := s.fld F.mgCfg0_SIZE k
def State.rgOwner (s : State) (k : Nat) : Nat := s.fld F.mgCfg0_OWNER k

/-- SRC, FAILV and MAXAGE as they act. -/
def State.rgSrc (s : State) (k : Nat) : Nat := s.eff F.mgCfg1_SRC (· == 3) k
def State.rgFailv (s : State) (k : Nat) : Nat := s.eff F.mgCfg0_FAILV (· ≥ 2) k

/-- The region whose view holds a Manger word, and the word's number in the view (R175). -/
def State.viewOf (s : State) (a : Nat) : Option (Nat × Nat) :=
  ((List.range 64).find? fun k => s.rgSize k ≠ 0 && s.rgBase k ≤ a && a < s.rgBase k + s.rgSize k).map fun k =>
    (k, a - s.rgBase k)

/-- Word `i` of the buffer `b` of a region. -/
def State.bufWord (s : State) (k b i : Nat) : Nat :=
  (if s.rgTriple k then s.rgBase k + b * s.rgSize k + i else s.rgBase k + i) % 131072

/-- A Manger word as a place in SRAM. -/
def mgPlace (a : Nat) : SramWord := .mg (Fin.ofNat 131072 a)

/-- The region's consumers take zero for every word (R179). -/
def State.rgZero (s : State) (k : Nat) : Bool := s.on F.mgStat_AGED k && s.rgFailv k == 1

/-- May the access read a Manger word; write one (R176)? -/
def State.mgMayRead (s : State) (w : Who) (a : Nat) : Bool :=
  s.supervisor w || match s.viewOf a with
    | some (k, _) => s.actsFor w (s.rgOwner k) || s.on F.mgCfg0_ANYRD k
    | none => false
def State.mgMayWrite (s : State) (w : Who) (a : Nat) : Bool :=
  match s.viewOf a with
  | some (k, _) => (s.supervisor w || s.actsFor w (s.rgOwner k)) && s.rgSrc k == 0
  | none => s.supervisor w

/-- The stored word that a permitted read, and a permitted write, of Manger word `a` reaches (R175). -/
def State.mgReadWord (s : State) (a : Nat) : Nat := match s.viewOf a with
  | some (k, i) => s.bufWord k (s.rg k).front i
  | none => a
def State.mgWriteWord (s : State) (a : Nat) : Nat := match s.viewOf a with
  | some (k, i) => s.bufWord k (s.rg k).write i
  | none => a

/-- Read word `i` of a region's front as a consumer does: zero while R179 says so (R175, R179). -/
def frontRead (k i : Nat) (s : State) : Rd × State :=
  if s.rgZero k then (.ok 0, s) else memRead (mgPlace (s.bufWord k (s.rg k).front i)) s

/-- A permitted read of Manger word `a`. -/
def mgRead (a : Nat) (s : State) : Rd × State :=
  match s.viewOf a with
  | some (k, i) => frontRead k i s
  | none => memRead (mgPlace a) s

/-- The set of a region is complete: write and ready swap, the ready set is new and tagged (R177, R182).
(DEDUCED, log entry 37) -/
def completeSet (k tag : Nat) (s : State) : State :=
  let x := s.rg k
  let s := if s.on F.mgStat_NEW k then s.bump F.mgCnt_OVWR else s
  let s := s.setRg k (if s.rgTriple k then { x with ready := x.write, write := x.ready, rtag := tag }
    else { x with rtag := tag })
  s.put F.mgStat_NEW 1 k

/-- The number of the most recent instant. -/
def State.instN (s : State) : Nat := s.fld F.mgInstat_N

/-- Writing DONE to a region (R177): refused with DENIED and counted unless the owner or a supervisor access writes it, its
producer is firmware, and the owner is neither RESETTING nor HELD. -/
def regionDone (w : Who) (k : Nat) (s : State) : Bool × State :=
  let o := s.rgOwner k
  let st := s.fnState o
  if !(s.supervisor w || s.actsFor w o) || st == 3 || st == 1 then (false, s.bump F.mgMemerr_DENY)
  else if s.rgSize k = 0 ∨ s.rgSrc k ≠ 0 then (true, s)
  else (true, completeSet k s.instN s)

/-- Steps 2 to 4 of R178 for one region at instant `n`. A set counts as late (R182) when it flips with AGE 1 or more, or when
the instant before it passed with AGE 1 or more for want of it; a TAG ahead of N - 1 shows AGE 0.
(DEDUCED, log entries 37 and 40) -/
def flipRegion (n k : Nat) (s : State) : State :=
  if s.rgSize k = 0 then s
  else
    let x := s.rg k
    let flip := s.on F.mgStat_NEW k
    let missed := s.on F.mgStat_TV k && s.fld F.mgStat_AGE k ≥ 1
    let s := if flip then
        (((if s.rgTriple k then s.setRg k { x with front := x.ready, ready := x.front } else s).put F.mgStat_TAG x.rtag k).put
          F.mgStat_TV 1 k).put F.mgStat_NEW 0 k
      else s
    let d := sdiff 32 (n + 2 ^ 32 - 1) (s.fld F.mgStat_TAG k)
    let age := if d < 0 then 0 else min 15 d.toNat
    let s := s.put F.mgStat_AGE age k
    let s := if flip && (missed || age ≥ 1) then s.bump F.mgCnt_LATE else s
    let mx := s.fld F.mgCfg1_MAXAGE k
    let aged := mx ≠ 0 && age > mx
    let s := if aged && !s.on F.mgStat_AGED k then s.bump F.mgCnt1_AGEDN else s
    s.put F.mgStat_AGED (b2n aged) k

/-- Step 6 of R178: IRQ2 in engine NENG of each region with NEN set.
(DEDUCED, log entry 37) -/
def regionIrqs (s : State) : State :=
  ((List.range 64).filter fun k => s.rgSize k ≠ 0 && s.on F.mgCfg1_NEN k).foldl (fun s k => hwIrq (s.fld F.mgCfg1_NENG k) 2 s) s

/-- The regions with an entry in a register table. -/
def regionsIn (t : Tab Nat) : List Nat :=
  (t.filter fun e => inBlk .mg e.1 && keyI e.1 < 64).foldl (fun a e => if a.contains (keyI e.1) then a else a ++ [keyI e.1]) []

/-- The captured MG set becomes active (R178 step 1): an assignment that would take its owner above REGIONS is refused, the
region keeping its owner, or staying out of use where it was, and a region whose BASE, SIZE, TRIPLE or OWNER changes restarts
empty (R50, R51, R182). -/
def activateMg (s : State) : State :=
  let ks := (List.range 64).filter fun k => (regionsIn s.cap).contains k || (regionsIn s.act).contains k
  let val := fun (f : Fld) (k : Nat) => Tab.get f.reset s.cap (f.key k 0)
  let keep := fun (t : State) (f : Fld) (k : Nat) => ({ t with cap := Tab.set f.reset t.cap (f.key k 0) (t.fld f k) } : State)
  let kept := ks.foldl (fun t k =>
    let o := val F.mgCfg0_OWNER k
    let had := t.rgSize k ≠ 0 && t.rgOwner k = o
    if val F.mgCfg0_SIZE k ≠ 0 && !had && t.useRegions o + 1 > t.fld F.fnQuota_REGIONS o then
      let t := keep ((t.put F.mgStat_BDISP 2 k).bump F.fnCnt_REFQ o) F.mgCfg0_OWNER k
      if t.rgSize k = 0 then keep t F.mgCfg0_SIZE k else t
    else
      let t := if o = t.rgOwner k then t else t.put F.mgStat_BDISP 0 k
      (t.put F.mgCfg0_OWNER o k).put F.mgCfg0_SIZE (val F.mgCfg0_SIZE k) k) s
  let ch := ks.filter fun k =>
    [F.mgCfg0_BASE, F.mgCfg0_SIZE, F.mgCfg0_TRIPLE, F.mgCfg0_OWNER].any fun f =>
      Tab.get f.reset kept.cap (f.key k 0) ≠ Tab.get f.reset s.act (f.key k 0)
  let t := activate .mg kept
  let t := ch.foldl (fun s k => (((s.setRg k {}).put F.mgStat_TV 0 k).put F.mgStat_NEW 0 k)) t
  (ch.map t.rgOwner).eraseDups.foldl (fun t o => noteOverq o s t) t

/-- Step 6 of a reset clears the new marks of the owner's regions (R182). -/
def clearNewMarks (f : Nat) (s : State) : State :=
  ((List.range 64).filter fun k => s.rgSize k ≠ 0 && s.rgOwner k == f && s.on F.mgStat_NEW k).foldl
    (fun s k => s.put F.mgStat_NEW 0 k) s

/-- EtherType of publications and subscriptions (R184). -/
def State.etype (s : State) : Nat := if s.fld F.mgInst_ETYPE = 0 then 0x88B5 else s.fld F.mgInst_ETYPE

/-- The words of a publication's fragment, without its CRC: the data of words 240·frag onward of the front; an
uncorrectable word is sent as zero (R180).
(DEDUCED, log entry 38) -/
def fragment (k frag : Nat) (s : State) : List Word × State :=
  let size := s.rgSize k
  let nf := (size + 239) / 240
  let len := min 240 (size - 240 * frag)
  let o := s.rgOwner k
  let w0 := wd (s.boot.sdn * 2 ^ 38 + k * 2 ^ 32 + frag * 2 ^ 28 + (nf - 1) * 2 ^ 24 + s.fld F.mgStat_AGED k * 2 ^ 18
    + b2n (s.fnState o ≠ 2) * 2 ^ 17 + b2n (s.fld F.mgInstat_SYNC == 1) * 2 ^ 16 + len)
  let w1 := wd (s.fld F.mgStat_TAG k * 2 ^ 16)
  (List.range len).foldl (fun (p : List Word × State) i =>
    let r := frontRead k (240 * frag + i) p.2
    (p.1 ++ [if r.1.bad then 0 else r.1.word], r.2)) ([w0, w1], s)

/-- The bytes of words as a frame carries them, six per word. -/
def carryWords (ws : List Word) : List Byte := ws.flatMap wordBytes

/-- A fragment with its CRC word (R180). -/
def withCrc (ws : List Word) : List Word := ws ++ [wd (crc32c (carryWords ws))]

/-- The words that a frame's bytes carry, six bytes per word. -/
def wordsOf (bs : List Byte) : List Word :=
  (List.range (bs.length / 6)).map fun k => wd (bytesNat ((bs.drop (6 * k)).take 6))

/-- The EtherType of a frame and where its payload begins; one tag of EtherType 0x8100 is passed. -/
def etherType (bs : List Byte) : Nat × Nat :=
  let at2 := fun k => bytesNat ((bs.drop k).take 2)
  if at2 12 = 0x8100 then (at2 16, 18) else (at2 12, 14)

/-- A publication frame reaches region `k`, which subscribes to it, with its words `ws` (R181). Its TAG must be newer
than STAT.TAG while the front holds a set, and not older than that of the incomplete set; the completed set is tagged with the
most recent instant (R177).
(DEDUCED, log entry 38) -/
def subscribeRegion (ws : List Word) (s : State) (k : Nat) : State :=
  let w := fun i => (ws.getD i 0).toNat
  let frag := bits (w 0) 28 4
  let nf := bits (w 0) 24 4
  let len := bits (w 0) 0 16
  let tag := bits (w 1) 16 32
  let body := ws.take (len + 2)
  let size := s.rgSize k
  let good := ws.length ≥ len + 3 && w (len + 2) == crc32c (carryWords body) && 1 ≤ len && len ≤ 240 && frag ≤ nf
    && 240 * nf < size && size ≤ 240 * (nf + 1) && len == min 240 (size - 240 * frag)
    && (!s.on F.mgStat_TV k || sdiff 32 tag (s.fld F.mgStat_TAG k) > 0)
  let old := (s.rg k).sub
  let stale := old.any fun u => sdiff 32 tag u.tag < 0
  if !good || stale then s.bump F.mgCnt_SDROP
  else
    let s := if old.any fun u => u.tag ≠ tag then s.bump F.mgCnt_SINC else s
    let cur := (old.filter fun u => u.tag == tag).getD ⟨tag, [], 0, false, false, false⟩
    let s := (List.range len).foldl (fun s i =>
      memWrite (mgPlace (s.bufWord k (s.rg k).write (240 * frag + i))) (ws.getD (i + 2) 0) s) s
    let cur := { cur with got := if cur.got.contains frag then cur.got else frag :: cur.got
                          len := if cur.got.contains frag then cur.len else cur.len + len
                          held := (w 0).testBit 17, aged := (w 0).testBit 18, sync := (w 0).testBit 16 }
    if cur.len = size then
      let s := s.setRg k { s.rg k with sub := none }
      let s := ((s.put F.mgStat_PHELD (b2n cur.held) k).put F.mgStat_PAGED (b2n cur.aged) k).put F.mgStat_PSYNC (b2n cur.sync) k
      completeSet k s.instN s
    else s.setRg k { s.rg k with sub := some cur }

/-- A publication frame reaches every region that subscribes to its source (R181). -/
def subscribe (bs : List Byte) (s : State) : State :=
  let (et, at0) := etherType bs
  if et ≠ s.etype then s
  else
    let ws := wordsOf (bs.drop at0)
    let w0 := (ws.getD 0 0).toNat
    let ks := (List.range 64).filter fun k =>
      s.rgSize k ≠ 0 && s.rgSrc k == 2 && s.fld F.mgCfg1_SSDN k == bits w0 38 10 && s.fld F.mgCfg1_SRGN k == bits w0 32 6
    ks.foldl (subscribeRegion ws) s

end Sys2Proof.Machine
end

