-- ==== Sys2Proof/Machine/Relay.lean ====
section
/-! DEFINITION. The ring of an in-passing direction (chapter 11): which ports and bank it uses, and the arrival of words. -/

namespace Sys2Proof.Machine

/-- Megabits per second of a code of STAT.SPEED. -/
def speedMb (c : Nat) : Nat := [10, 100, 1000, 2500, 5000, 10000].getD c 10

/-- The ingress and the egress port of direction `d` of pair `k` (R206). -/
def State.ingress (s : State) (k d : Nat) : Nat := if d = 0 then s.fld F.epIpcfg0_PA k else s.fld F.epIpcfg0_PB k
def State.egress (s : State) (k d : Nat) : Nat := if d = 0 then s.fld F.epIpcfg0_PB k else s.fld F.epIpcfg0_PA k

/-- The direction is in passing (R206). -/
def State.inPassing (s : State) (k d : Nat) : Bool :=
  s.on F.epIpcfg0_EN k && s.on (if d = 0 then F.epIpcfg0_M0 else F.epIpcfg0_M1) k

/-- The four pairs with their two directions. -/
def allDirs : List (Nat × Nat) := (List.range 4).flatMap fun k => [(k, 0), (k, 1)]

/-- The port receives for an in-passing direction; the direction that it sends for (R208). -/
def State.relayIn (s : State) (p : Nat) : Bool := allDirs.any fun x => s.inPassing x.1 x.2 && s.ingress x.1 x.2 == p
def State.relayOut (s : State) (p : Nat) : Option (Nat × Nat) :=
  allDirs.find? fun x => s.inPassing x.1 x.2 && s.egress x.1 x.2 == p

/-- The byte time of a pair in ps. -/
def State.bytePs (s : State) (k : Nat) : Nat := 8000000 / speedMb (s.fld F.epStat_SPEED (s.fld F.epIpcfg0_PA k))

/-- The member of a relay group at or after position `j`, in ascending order around the stable (R214); 0 for an empty group. -/
def nextMember (g j : Nat) : Nat := (((List.range 8).map fun i => (j + i) % 8).find? g.testBit).getD 0

/-- Word `o` of a direction's half bank (R210). -/
def State.ringPlace (s : State) (k d o : Nat) : SramWord :=
  .loft (Fin.ofNat 16 (s.fld F.epIpcfg0_STBL k)) (Fin.ofNat 65536 ((14 + d) * 4096 + o))

/-- Where word 0 of the descriptor of position `j` stands. -/
def descOff (j : Nat) : Nat := 0x7C0 + 4 * j

/-- Change descriptor word 0 of a posted segment in part, while its position still holds it (R147, R214). -/
def onDesc (k d : Nat) (x : RFrame) (g : Nat) (f : Nat → Nat) (s : State) : State :=
  match x.poss.getD g none with
  | none => s
  | some j =>
    let a := s.ringPlace k d (descOff j)
    let w := (readCode (s.raw a)).word.toNat
    if bits w 30 8 = x.seq ∧ bits w 22 8 = g then (memUpdate a (fun w => wd (f w.toNat)) s).2 else s

/-- A field of a word replaced. -/
def setBits (w lo n v : Nat) : Nat := w - bits w lo n * 2 ^ lo + v % 2 ^ n * 2 ^ lo

/-- Word `i` of a frame arrives in the ring, and its descriptor's ARR counts it (R212, R214). -/
def arriveWord (k d : Nat) (x : RFrame) (i : Nat) (s : State) : State :=
  let s := memWrite (s.ringPlace k d (64 * x.slots.getD (i / 64) 0 + i % 64)) (x.words.getD i 0) s
  onDesc k d x (i / 64) (fun w => setBits w 15 7 (i % 64 + 1)) s

/-- How many words of a frame have arrived by now (R212); all of them once it has ended. -/
def State.arrivedBy (s : State) (k : Nat) (x : RFrame) : Nat :=
  if x.fin.isSome then x.words.length else min x.words.length ((s.tick * 4000 - x.tin - 8000) / (6 * s.bytePs k))

/-- The words that have arrived in the meantime are written to the ring. -/
def settleDir (k d : Nat) (s : State) : State :=
  (List.range (s.dir k d).frames.length).foldl (fun s n =>
    match (s.dir k d).frames[n]? with
    | none => s
    | some x =>
      let m := s.arrivedBy k x
      if m ≤ x.arrived then s
      else
        let s := (List.range (m - x.arrived)).foldl (fun s i => arriveWord k d x (x.arrived + i) s) s
        s.setDir k d { s.dir k d with frames := (s.dir k d).frames.set n { x with arrived := m } }) s

/-- The same for every direction. -/
def settleAll (s : State) : State := if s.dirs = [] then s else allDirs.foldl (fun s x => settleDir x.1 x.2 s) s

end Sys2Proof.Machine
end

