-- ==== Sys2Proof/Machine/Clock.lean ====
section
/-! DEFINITION. The passage of time: what counts as TCLK ticks pass (R124, R239, R244), and the tick at which a timed
event falls. -/

namespace Sys2Proof.Machine

/-- INC of a counter in 2^-32 ns per tick (R240). -/
def State.incOf (s : State) (i : Nat) : Nat := s.fld F.tcInc_INT i * 2 ^ 32 + s.fld F.tcInc_FRAC i

/-- A counter's time in 2^-32 ns. -/
def TCnt.total (x : TCnt) : Nat := (x.sec * 1000000000 + x.ns) * 2 ^ 32 + x.frac

/-- The counter that shows a time in 2^-32 ns; the seconds wrap at 48 bits (R239). -/
def tcntOf (v : Nat) : TCnt :=
  { sec := v / 2 ^ 32 / 1000000000 % 2 ^ 48, ns := v / 2 ^ 32 % 1000000000, frac := v % 2 ^ 32 }

/-- A counter's time in 2^-32 ns; in ns. -/
def State.total (s : State) (i : Nat) : Nat := (s.ctr i).total
def State.nsNow (s : State) (i : Nat) : Nat := s.total i / 2 ^ 32

/-- Engine time of the functions of the running tasks goes on for `n` ticks (R124). -/
def engineTime (n : Nat) (s : State) : State :=
  let busy := (s.eng.filter fun p => p.2.tv).map (·.1)
  busy.foldl (fun s e =>
    let x := s.e e
    let was := s.capped x.fn
    let s := (s.setE e { x with runt := min 65535 (x.runt + 3 * n) }).setFn x.fn { s.fn x.fn with used := (s.fn x.fn).used + 3 * n }
    if !was && s.capped x.fn then holdCapped x.fn s else s) s

/-- The conditions of R125 hold from now on, or no longer. -/
def noteIdle (s : State) : State :=
  (List.range 16).foldl (fun s n =>
    if s.awake n && s.gateable n then
      if (s.st n).idleFrom.isNone then s.setSt n { s.st n with idleFrom := some s.tick } else s
    else if (s.st n).idleFrom.isSome then clearIdle n s else s) s

/-- `n` ticks of TCLK pass: the time counters, the second count of the always-on domain with the log's allowance (R352),
the engine times, and words in passing.
(DESIGN CHOICE, log entries 1 and 88) -/
def passTicks (n : Nat) (s : State) : State :=
  if n = 0 then s
  else
    let s := if s.clocksOn then noteIdle s else s
    let secs := (s.tick + n - s.pw.onAt) / 250000000 - (s.tick - s.pw.onAt) / 250000000
    let s := { s with tick := s.tick + n, boot := { s.boot with logTokens := min 16 (s.boot.logTokens + secs) } }
    let s := if secs = 0 then s else s.bump F.pwKsec_SEC 0 0 secs
    if s.clocksOn then
      settleAll (engineTime n ((List.range 8).foldl (fun s i => s.setCtr i (tcntOf (s.total i + n * s.incOf i))) s))
    else s

/-- Time passes up to a tick; an event whose tick is past falls now. -/
def passTo (t : Nat) (s : State) : State := passTicks (t - s.tick) s

/-- Ticks until counter `i` reads at least `v` (in 2^-32 ns); a target that a step has moved into the past falls in the tick
after the step (R245). -/
def State.ticksTo (s : State) (i v : Nat) : Nat :=
  if v < s.total i then Tab.get 0 s.steppedAt i - s.tick else (v - s.total i + s.incOf i - 1) / s.incOf i

/-- Time passes until then. -/
def passUntil (i v : Nat) (s : State) : State := passTicks (s.ticksTo i v) s

end Sys2Proof.Machine
end

