-- ==== Sys2Proof/Machine/Time.lean ====
section
/-! DEFINITION. System time: the counters, steps and rates, captures, the servos and their references, pulse outputs
(chapter 13). -/

namespace Sys2Proof.Machine

/-! ### Access (R258) -/

/-- The function of the access may steer counter `i`. -/
def State.mayTc (s : State) (w : Who) (i : Nat) : Bool := s.supervisor w || s.actsFor w (s.fld F.tcCfg_OWNER i)

/-- It may write the reference's own registers. -/
def State.mayRef (s : State) (w : Who) (r : Nat) : Bool := s.mayTc w (s.fld F.refCfg_TGT r)

/-- The TM block acts under an applied layout and in Halter mode (R27, R348). -/
def openTm (s : State) (a : Ans) : Ans := if s.applied || s.on F.gcLaystat_HALTER then a else { st := s }

/-- A write to the TM block. -/
def tmWrite (w : Who) (ok : State → Bool) (f : State → State) (s : State) : State :=
  if s.heard w then finish w (openTm s (allow (ok s) s f)) else s

/-! ### Rate (R240) -/

/-- The limits of INC: 3.996 ns and 4.004 ns in 2^-32 ns. -/
def incLow : Nat := 17162689315
def incHigh : Nat := 17197049053

/-- Store INC of a counter, whole. -/
def putInc (i v : Nat) (s : State) : State := (s.put F.tcInc_INT (v / 2 ^ 32) i).put F.tcInc_FRAC (v % 2 ^ 32) i

/-- The servo of a counter is enabled; only TC0 and TC1 have one. -/
def State.servoOn (s : State) (i : Nat) : Bool := i < 2 && s.on F.svCfg0_EN i

/-- The nearest value of INC within 4 ns ± 1,000 ppm, with EVT.INCLIM where that is another (R240). -/
def holdInc (i v : Nat) (s : State) : State :=
  let w := min incHigh (max incLow v)
  let s := putInc i w s
  if w = v then s else s.put F.tmEvt_INCLIM 1

/-- A write of INC: ignored while the servo runs, clamped to its limits otherwise (R240). -/
def writeInc (i v : Nat) (s : State) : State := if s.servoOn i then s else holdInc i v s

/-! ### Pulse generators (R254, R255) -/

/-- START of a generator in ns. -/
def State.pgStart (s : State) (g : Nat) : Nat := s.fld F.pgSsec_SEC g * 1000000000 + s.fld F.pgSns_NS g

/-- The number of the first rising edge at or after `t` ns.
(DEDUCED, log entry 58) -/
def State.pgEdge (s : State) (g t : Nat) : Nat :=
  let p := s.fld F.pgPer_PER g
  if p = 0 then 0 else (t - s.pgStart g + p - 1) / p

/-- The unit drives its outputs (R311). -/
def State.driving (s : State) : Bool := s.fld F.twStat_ROLE == 1 || s.fld F.twStat_ROLE == 4

/-- FUNC of a PIO pin as it acts (R16). -/
def State.pinFunc (s : State) (p : Nat) : Nat := s.eff F.piPin_FUNC (· == 3) (p / 16) (p % 16)

/-- The driver of a PIO pin: whether it drives, and the level (R294). A machine's pins in a standby unit of a pair are high
impedance where PIOMASK names the machine (R318).
(DESIGN CHOICE, log entry 90) -/
def State.pinOut (s : State) (p : Nat) : Bool × Bool :=
  let b := p / 16
  let j := p % 16
  let x := s.pin p
  if s.column ≠ .running then (false, false)
  else match s.pinFunc p with
    | 1 =>
      let m := s.fld F.piPin_MACH b j
      if s.on F.twCfg0_EN && (s.fld F.twCfg2_PIOMASK).testBit (8 * b + m) && !s.driving then (false, x.lvl)
      else if (s.mach b m).live then (x.dir, x.lvl)
      else match s.eff F.piPin_SAFE (· == 3) b j with
        | 0 => (true, false)
        | 1 => (true, true)
        | _ => (false, false)
    | 2 => (x.dir, x.lvl)
    | _ => (false, false)

/-- Note what stands on a PIO pin before it changes; the longest step of a machine is 65,536 ticks (R298, R299).
(DEDUCED, log entry 63) -/
def keepPin (p : Nat) (s : State) : State :=
  { s with pinPast := Tab.set [] s.pinPast p ((s.tick, s.pinOut p) :: (Tab.get [] s.pinPast p).filter fun e => s.tick < e.1 + 65540) }

/-- The pulse-generator pin takes a level, where the pin's entry gives it to the time unit (R254, R294); `trim`: how long
before this tick the edge stood, in 125 ps. -/
def driveTimePin (p : Nat) (lvl : Bool) (trim : Nat) (s : State) : State :=
  if s.pinFunc p = 2 then (keepPin p s).setPin p { lvl := lvl, dir := true, trim := trim } else s

/-- The level of pin `p` as the generators stand: active where a pulse on it is high, one that a commit lets complete before
any other; inactive of the enabled generator that names it, else of a disabled one (R254, R255).
(DEDUCED, log entry 58) -/
def State.timeLevel (s : State) (p : Nat) : Option Bool :=
  let gs := List.range 8
  let onIt := fun g => (s.pulse g).high && (s.pulse g).pin == p
  let names := fun g => s.fld F.pgCfg_PIN g == p
  match gs.find? (fun g => onIt g && !(names g && s.on F.pgCfg_EN g)), gs.find? onIt with
  | some g, _ => some (!(s.pulse g).pol)
  | none, some g => some (!(s.pulse g).pol)
  | none, none => ((gs.find? fun g => names g && s.on F.pgCfg_EN g) <|> gs.find? names).map fun g => s.on F.pgCfg_POL g

/-- Pin `p` takes the level at which its generators stand, where that is another (R254, R294).
(DEDUCED, log entries 58 and 63) -/
def restPin (p trim : Nat) (s : State) : State :=
  match s.timeLevel p with
  | some l => if (s.pin p).dir && (s.pin p).lvl == l then s else driveTimePin p l trim s
  | none => s

/-- How long before the present tick counter `i` read `v` (in 2^-32 ns), in 125 ps and less than a tick (R254). -/
def State.trimOf (s : State) (i v : Nat) : Nat := min 31 ((s.total i - v) * 32 / s.incOf i)

/-- The generators timed by a counter continue after it is stepped from `old` ns: a high pulse ends at the tick after (R255).
(DEDUCED, log entry 58) -/
def stepPulses (i old : Nat) (s : State) : State :=
  (List.range 8).foldl (fun s g =>
    let x := s.pulse g
    let cut := x.high && x.dom == i
    let s := if cut then (s.setPulse g { x with endTick := some (s.tick + 1) }).put F.tmEvt_PGMISS 1 else s
    if !s.on F.pgCfg_EN g || s.fld F.pgCfg_TCSEL g ≠ i then s
    else
      let now := s.nsNow i
      let k := if s.fld F.pgPer_PER g = 0 then x.k else s.pgEdge g now
      let miss := k - x.k
      let s := s.bump F.pgStat_MISS g 0 miss
      let s := if miss ≠ 0 then s.put F.tmEvt_PGMISS 1 else s
      s.setPulse g { s.pulse g with
        k := k, late := x.late || (s.fld F.pgPer_PER g = 0 && !x.spent && !x.high && old ≤ s.pgStart g && s.pgStart g < now) }) s

/-- A rising edge: the pin goes active and its fall is WID ns later (R254).
(DEDUCED, log entry 58) -/
def pulseRise (g : Nat) (s : State) : State :=
  let x := s.pulse g
  let per := s.fld F.pgPer_PER g
  if !s.on F.pgCfg_EN g || x.high || (per = 0 && x.spent) then s
  else
    let i := s.fld F.pgCfg_TCSEL g
    let edge := s.pgStart g + x.k * per
    let s := passUntil i (edge * 2 ^ 32) s
    let at_ := if per = 0 && x.late then s.nsNow i else edge
    let s := if per = 0 && x.late then s.put F.pgStat_LATEF 1 g else s
    let pin := s.fld F.pgCfg_PIN g
    let pol := s.on F.pgCfg_POL g
    let s := s.setPulse g { high := true, fallAt := at_ + s.fld F.pgCfg_WID g, dom := i, pin := pin, pol := pol, k := x.k + 1
                            spent := per = 0, last := per = 0, late := false }
    restPin pin (s.trimOf i (at_ * 2 ^ 32)) s

/-- A falling edge: the pulse ends, and a one-shot is complete; where a commit has changed the pin or the polarity meanwhile,
the new pin takes its inactive level (R254, R255).
(DEDUCED, log entry 58) -/
def pulseFall (g : Nat) (s : State) : State :=
  let x := s.pulse g
  if !x.high then s
  else
    let s := match x.endTick with
      | some t => passTo t s
      | none => passUntil x.dom (x.fallAt * 2 ^ 32) s
    let trim := if x.endTick.isSome then 0 else s.trimOf x.dom (x.fallAt * 2 ^ 32)
    let s := s.setPulse g { s.pulse g with high := false, endTick := none }
    let s := driveTimePin x.pin ((s.timeLevel x.pin).getD x.pol) trim s
    let s := restPin (s.fld F.pgCfg_PIN g) trim s
    if x.last then s.put F.pgStat_DONE 1 g else s

/-- A generator whose registers a commit changes begins anew: at the first edge at or after the commit, a one-shot whose
START is past at once; a pulse that is high completes its old width (R254, R255).
(DEDUCED, log entry 58) -/
def restartPulse (g : Nat) (s : State) : State :=
  let now := s.nsNow (s.fld F.pgCfg_TCSEL g)
  s.setPulse g { s.pulse g with k := s.pgEdge g now, spent := false, late := s.fld F.pgPer_PER g = 0 && s.pgStart g < now }

/-- The generators `gs` begin anew, then the pins that they name take their levels (R254). -/
def restartPulses (gs : List Nat) (s : State) : State :=
  let s := gs.foldl (fun s g => restartPulse g s) s
  gs.foldl (fun s g => restPin (s.fld F.pgCfg_PIN g) 0 s) s

/-! ### Gate lists on their counter (R235) -/

/-- The entry that a list's cycle position falls in, the last one to the end of the cycle. -/
def gateIdx : List (Nat × Nat × Nat) → Nat → Nat → Nat
  | [], _, k => k
  | [_], _, k => k
  | (_, _, iv) :: t, pos, k =>
    let iv := (iv + 3) / 4 * 4
    if pos < iv then k else gateIdx t (pos - iv) (k + 1)

/-- An entry of the operating list takes effect: its gates, and hold or release; GCTL.IDX shows it (R235). A port whose open
classes had something to send is idle from now at the earliest (R198). -/
def gateEnter (p k : Nat) (s : State) : State :=
  let x := Tab.get {} s.yard.gate p
  let had := p < 12 && (List.range 8).any fun c => x.gates.testBit c && Tab.get [] s.yard.queues (8 * p + c) != []
  let s := s.put F.ydGctl_IDX k p
  let s := if had then s.setPort p { s.port p with idleFrom := s.tick } else s
  let e := x.oper.getD k (0, 0, 0)
  let x := { x with idx := k, gates := e.1, hold := if e.2.1 = 1 then true else if e.2.1 = 2 then false else x.hold }
  { s with yard := { s.yard with gate := Tab.set {} s.yard.gate p x } }

/-- Where the list's counter stands in the list's cycle, in ns. -/
def State.gatePos (s : State) (x : GateS) : Nat := ofSigned 64 (((s.nsNow x.dom : Int) - x.base) % (x.cyc : Int))

/-- The lists timed by a stepped counter continue from the cycle position of the new time (R243). -/
def stepGates (i : Nat) (s : State) : State :=
  (List.range 17).foldl (fun s p =>
    let x := Tab.get {} s.yard.gate p
    if x.oper = [] || x.dom ≠ i || x.cyc = 0 then s else gateEnter p (gateIdx x.oper (s.gatePos x) 0) s) s

/-! ### Steps (R242, R243) -/

/-- A counter takes a new time for every user in one tick (R243). -/
def stepCounter (i : Nat) (x : TCnt) (s : State) : State :=
  let old := s.nsNow i
  let s := { s.setCtr i x with steppedAt := Tab.set 0 s.steppedAt i (s.tick + 1) }
  let s := (s.put F.tcStat_SCNT (s.fld F.tcStat_SCNT i + 1) i).put F.tmEvt_STEP 1
  let s := if i = 0 then { s with jumpDue := true, pd := { s.pd with cutNs := s.nsNow 0, cutTick := s.tick, cut := true } } else s
  stepGates i (stepPulses i old s)

/-- A step waits for its tick. -/
def State.stepWaits (s : State) (i : Nat) : Bool := (Tab.get none s.steps i).isSome

/-- STATE of a counter. -/
def State.tcState (s : State) (i : Nat) : Nat := s.fld F.tcStat_STATE i

/-- CTL.UNLOCK (R242). -/
def unlockTc (i : Nat) (s : State) : State :=
  if s.tcState i = 1 && !s.stepWaits i then s.put F.tcStat_STATE 0 i else s

/-- CTL.STEP: accepted and scheduled for the second tick after the write, or refused (R242). -/
def stepTc (i : Nat) (rel : Bool) (s : State) : State :=
  let sec := s.fld F.tcStepsec_SEC i
  let ns := s.fld F.tcStepns_NS i
  let amount : Int := toSigned 48 sec * 1000000000 + ns
  let res : Int := if rel then s.total i + amount * 2 ^ 32 else ((sec * 1000000000 + ns : Nat) : Int) * 2 ^ 32
  if s.tcState i = 0 && !s.stepWaits i && !s.servoOn i && ns ≤ 999999999 && 0 ≤ res
      && res ≤ ((2 ^ 48 - 1) * 1000000000 : Nat) * 2 ^ 32 then
    let s := { s with steps := Tab.set none s.steps i (some (s.tick + 2, rel, ⟨sec, ns, 0⟩, amount)) }
    (s.put F.tcStat_STATE 1 i).put F.tcStat_SDISP 0 i
  else (s.put F.tcStat_SDISP 9 i).put F.tmEvt_SREF 1

/-- A write of TC[i].CTL: UNLOCK, then STEP (R242). -/
def writeTcCtl (i : Nat) (step rel unlock : Bool) (s : State) : State :=
  let s := if unlock then unlockTc i s else s
  if step then stepTc i rel s else s

/-- The second tick after the write: the step takes effect (R242, R243). -/
def applyStep (i : Nat) (s : State) : State :=
  match Tab.get none s.steps i with
  | none => s
  | some (t, rel, x, amount) =>
    let s := passTo t s
    let s := { s with steps := Tab.set none s.steps i none }
    stepCounter i (if rel then tcntOf ((s.total i : Int) + amount * 2 ^ 32).toNat else x) s

/-! ### Captures (R246) -/

/-- TK and the counter that SEL names are captured in one tick. -/
def captureTime (s : State) : State :=
  let x := s.ctr (s.fld F.tmCapctl_SEL)
  let s := (s.put F.tmCaptk_SEQ (s.fld F.tmCaptk_SEQ + 1)).put F.tmCaptk_TK s.tk
  (s.put F.tmCapsec_SEC x.sec).put F.tmCapns_NSF (x.ns * 2 ^ 16 + x.frac / 2 ^ 16)

/-! ### Servos and references (R247 to R252) -/

/-- SYNC of MG.INSTAT as TC0's state gives it (R247).
(DEDUCED, log entry 55) -/
def showSync (s : State) : State :=
  s.put F.mgInstat_SYNC (match s.tcState 0 with
    | 3 => if s.on F.svStat_FONLY then 2 else 1
    | 4 => 2
    | _ => 0)

/-- A counter's STATE changes, with LOCKCHG, HOLD and the count of departures from LOCKED.
(DEDUCED, log entry 55) -/
def putTcState (j v : Nat) (s : State) : State :=
  let o := s.tcState j
  let s := s.put F.tcStat_STATE v j
  let s := if o ≠ v && (o = 3 || v = 3) then s.put F.tmEvt_LOCKCHG 1 else s
  let s := if o = 3 && v ≠ 3 then s.bump F.svCnt_LOCKLOSS j else s
  let s := if o ≠ v && v = 4 then s.put F.tmEvt_HOLD 1 else s
  showSync s

/-- A reference is valid (R249). -/
def State.refValid (s : State) (r : Nat) : Bool := s.on F.refStat_VALID r && !s.on F.refCtl_DIS r

/-- KIND as it acts: reserved values act as the layout's (R16). -/
def State.refKind (s : State) (r : Nat) : Nat := s.eff F.refCfg_KIND (· ≥ 5) r

/-- The reference that servo `j` selects (R249).
(DEDUCED, log entry 57) -/
def State.bestRef (s : State) (j : Nat) : Option Nat :=
  let mine := (List.range 8).filter fun r => s.refKind r ≠ 0 && s.fld F.refCfg_TGT r == j && s.refValid r
  let phase := mine.filter fun r => s.refKind r ≠ 4
  let pool := (if phase = [] then mine else phase).filter fun r => s.fld F.refCtl_RANK r ≠ 255
  pool.foldl (fun b r => match b with
    | none => some r
    | some b => if s.fld F.refCtl_RANK r < s.fld F.refCtl_RANK b then some r else some b) none

/-- The reference selected now.
(DEDUCED, log entry 57) -/
def State.selRef (s : State) (j : Nat) : Option Nat := if s.on F.svStat_SELV j then some (s.fld F.svStat_SEL j) else none

/-- Show the selected reference. -/
def putSel (j : Nat) (r : Option Nat) (s : State) : State :=
  let s := match s.selRef j with
    | some o => s.put F.refStat_SELD 0 o
    | none => s
  match r with
  | some r => ((s.put F.svStat_SELV 1 j).put F.svStat_SEL r j).put F.refStat_SELD 1 r
  | none => (s.put F.svStat_SELV 0 j).put F.svStat_SEL 0 j

/-- YI and YAVG of a servo in 2^-16 ppb. -/
def State.yi (s : State) (j : Nat) : Int := toSigned 40 (s.fld F.svYi_PPB j)
def State.yavg (s : State) (j : Nat) : Int := toSigned 40 (s.fld F.svYavg_PPB j)

/-- INC of TCj from a rate in 2^-16 ppb: 4 ns · (1 + Y · 10^-9), within the limits of INC (R240, R250). -/
def setRate (j : Nat) (y : Int) (s : State) : State := holdInc j (2 ^ 34 + Int.fdiv (y * 2 ^ 18) 1000000000).toNat s

/-- The servo enters ACQUIRE with a reference newly selected in FREE or HOLDOVER (R247, R250). -/
def enterAcquire (j r : Nat) (s : State) : State :=
  let hold := s.tcState j = 4
  let s := if hold then (s.put F.svYi_PPB (s.fld F.svYavg_PPB j) j).put F.svStat_SEED 0 j
    else (s.put F.svYi_PPB 0 j).put F.svStat_SEED 1 j
  let s := s.setServo j { s.servo j with lockN := 0, offN := 0, prev := none, ramp := none, await := false, before := none }
  putTcState j 2 (putSel j (some r) s)

/-- Selection changes while a reference is followed: STATE is kept and a ramp is to come (R251, R252). -/
def switchRef (j o r : Nat) (s : State) : State :=
  let s := s.bump F.svCnt_SWITCH j
  let s := if s.on F.svStat_RAMP j && (s.servo j).before == some r then (s.bump F.svCnt_REVERSE j).put F.tmEvt_REVERSE 1 else s
  let s := s.setServo j { s.servo j with ramp := none, await := true, before := some o }
  putSel j (some r) (s.put F.svStat_RAMP 1 j)

/-- The selected reference is lost and no other is valid (R250, R252). -/
def loseRef (j : Nat) (s : State) : State :=
  let s := (s.setServo j { s.servo j with ramp := none, await := false, before := none, prev := none }).put F.svStat_RAMP 0 j
  let s := putSel j none s
  if s.tcState j = 3 then putTcState j 4 (setRate j (s.yavg j) s)
  else if s.tcState j = 2 then putTcState j 0 s
  else s

/-- Selection is re-evaluated (R249).
(DEDUCED, log entry 57) -/
def reselect (j : Nat) (s : State) : State :=
  if !s.servoOn j then s
  else match s.selRef j, s.bestRef j with
    | none, some r => enterAcquire j r s
    | some o, some r => if o = r then s else switchRef j o r s
    | some _, none => loseRef j s
    | none, none => s

/-- Each servo selects anew at every sample and every timeout (R249).
(DEDUCED, log entry 57) -/
def reselectAll (s : State) : State := reselect 1 (reselect 0 s)

/-- The ramp term H now, in 2^-16 ns (R251).
(DEDUCED, log entry 56) -/
def State.rampH (s : State) (j : Nat) : Int :=
  match (s.servo j).ramp with
  | some r => if s.tick < r.t0 + r.w then Int.fdiv (r.h0 * ((r.t0 + r.w : Nat) - s.tick : Int)) r.w else 0
  | none => 0

/-- Clamp a rate to ±500,000 ppb.
(DEDUCED, log entry 56) -/
def clampRate (y : Int) : Int := max (-500000 * 65536) (min (500000 * 65536) y)

/-- The end of a sample's processing: Y and INC, and YAVG while LOCKED (R250).
(DEDUCED, log entry 56) -/
def applyRate (j : Nat) (y : Int) (s : State) : State :=
  let y := clampRate y
  let s := setRate j y (s.setServo j { s.servo j with y := y })
  if s.tcState j = 3 then s.putInt F.svYavg_PPB (s.yavg j + Int.fdiv (y - s.yavg j) 64) j else s

/-- A sample of the other kind, of frequency or of phase, ends a row of samples of the kind before it; FONLY shows the kind
(R250).
(DEDUCED, log entry 56) -/
def kindTurn (j : Nat) (freq : Bool) (s : State) : State :=
  let s := if s.on F.svStat_FONLY j = freq then s else s.setServo j { s.servo j with lockN := 0, offN := 0 }
  s.put F.svStat_FONLY (if freq then 1 else 0) j

/-- A frequency sample, in 2^-16 ppb (R250). -/
def freqSample (j : Nat) (ferr : Int) (s : State) : State :=
  let s := kindTurn j true s
  let s := s.putInt F.svYi_PPB (s.yi j - Int.fdiv ferr 4) j
  let n := if ferr.natAbs ≤ 65536 then (s.servo j).lockN + 1 else 0
  let s := s.setServo j { s.servo j with lockN := n }
  let s := if n ≠ 0 && n ≥ s.fld F.svCfg0_LOCKN j then putTcState j 3 s else showSync s
  applyRate j (s.yi j) s

/-- The rate that a first pair of samples teaches: (θ − PREV) / dt, in 2^-16 ppb; two samples in one tick leave it open.
(DESIGN CHOICE, log entry 4) -/
def seedRate (d : Int) (dt : Nat) (s : State) : Int × State :=
  if dt = 0 then
    let (k, s) := s.draw
    (toSigned 48 (Config.undefinedWord k).toNat, s)
  else (Int.fdiv (d * 250000000) dt, s)

/-- A phase sample of the selected reference, θ in 2^-16 ns (R250).
(DEDUCED, log entry 56) -/
def phaseSample (j : Nat) (theta0 : Int) (s : State) : State :=
  let s := showSync (kindTurn j false s)
  let theta := theta0 - s.rampH j
  let s := s.putInt F.svOfs_FRAC theta j
  let s := s.putInt F.svOfs_NS (Int.fdiv theta 65536) j
  let acq := s.tcState j = 2
  if acq && s.on F.svCfg0_STEPEN j && theta.natAbs > s.fld F.svCfg1_STEPTH j * 65536 then
    let s := (stepCounter j (tcntOf ((s.total j : Int) - theta * 65536).toNat) s).bump F.svCnt_STEPS j
    (s.put F.svStat_SEED 1 j).setServo j { s.servo j with
      prev := none, lockN := if theta.natAbs > s.fld F.svCfg1_LOCKTH j * 65536 then 0 else (s.servo j).lockN }
  else
    let s := match s.on F.svStat_SEED j, (s.servo j).prev with
      | true, some (p, t) =>
        let (d, s) := seedRate (theta - p) (s.tick - t) s
        (s.putInt F.svYi_PPB (s.yi j - d) j).put F.svStat_SEED 0 j
      | _, _ => s
    let kp := if acq then s.fld F.svCfg0_KPA j else s.fld F.svCfg0_KP j
    let ki := if acq then s.fld F.svCfg0_KIA j else s.fld F.svCfg0_KI j
    let s := s.putInt F.svYi_PPB (s.yi j - Int.fdiv theta (2 ^ ki : Nat)) j
    let y := s.yi j - Int.fdiv theta (2 ^ kp : Nat)
    let th := s.fld F.svCfg1_LOCKTH j * 65536
    let n := if acq && theta.natAbs ≤ th then (s.servo j).lockN + 1 else 0
    let f := if s.tcState j = 3 && theta.natAbs > 4 * th then (s.servo j).offN + 1 else 0
    let s := s.setServo j { s.servo j with lockN := n, offN := f, prev := some (theta, s.tick) }
    let s := if acq && n ≠ 0 && n ≥ s.fld F.svCfg0_LOCKN j then
        (putTcState j 3 (s.setServo j { s.servo j with offN := 0 })).put F.svYavg_PPB (s.fld F.svYi_PPB j) j
      else if f ≥ 4 then
        putTcState j 2 (s.setServo j { s.servo j with lockN := 0, offN := 0 })
      else s
    applyRate j y s

/-- The length W of a ramp in ticks: RAMPW × 0.1 s, lengthened so that |θ0| ÷ W is at most 100 ppm (R251).
(DEDUCED, log entry 56) -/
def State.rampTicks (s : State) (j : Nat) (h0 : Int) : Nat :=
  max (s.fld F.svCfg1_RAMPW j * 25000000) ((h0.natAbs * 2500 + 65535) / 65536)

/-- A sample of the selected reference reaches its servo; the first one of a newly selected reference starts the ramp
(R251).
(DEDUCED, log entry 56) -/
def servoSample (j kind : Nat) (v : Int) (s : State) : State :=
  if kind = 4 then
    let s := if (s.servo j).await then
        (s.setServo j { s.servo j with await := false, before := none }).put F.svStat_RAMP 0 j else s
    freqSample j v s
  else
    let s := if (s.servo j).await then
        s.setServo j { s.servo j with await := false, ramp := some ⟨v, s.tick, s.rampTicks j v⟩ } else s
    phaseSample j v s

/-- A sample of reference `r` arrives, in 2^-16 ns or 2^-16 ppb: kept in LAST, selection re-evaluated, and passed to the
servo if its reference is selected (R248, R249). -/
def refSample (r : Nat) (v : Int) (s : State) : State :=
  let j := s.fld F.refCfg_TGT r
  let s := (s.putInt F.refStat_LAST (Int.fdiv v 65536) r).put F.refStat_VALID 1 r
  let s := { s with refs := Tab.set 0 s.refs r (s.tick + 1) }
  let s := reselectAll s
  if s.servoOn j && s.selRef j == some r && s.refValid r then servoSample j (s.refKind r) v s else s

/-- A write of REF[r].OFS delivers a firmware sample (R248).
(DEDUCED, log entry 57) -/
def writeRefOfs (r : Nat) (v : Word) (s : State) : State :=
  if s.refKind r = 1 then refSample r (toSigned 48 v.toNat) s else s

/-- θ of an edge on PPS_IN: the counter time less the cable delay and the nearest whole second, in 2^-16 ns (R248). -/
def ppsTheta (e : Nat) (param : Nat) : Int :=
  let x : Int := (e : Int) - Int.fdiv (param * 65536) 1000
  let sec : Int := 1000000000 * 65536
  let m := x % sec
  if 2 * m ≥ sec then m - sec else m

/-- A counter's time at a sub-tick of 125 ps, in 2^-16 ns (R199). -/
def State.timeAt (s : State) (i sub : Nat) : Nat := (s.total i + s.incOf i * sub / 32) / 2 ^ 16

/-- An edge on PPS_IN is a sample of the KIND 3 reference. -/
def ppsEdge (sub : Nat) (s : State) : State :=
  match (List.range 8).find? fun r => s.refKind r == 3 with
  | some r => refSample r (ppsTheta (s.timeAt (s.fld F.refCfg_TGT r) sub) (s.fld F.refCfg_PARAM r)) s
  | none => s

/-- A frequency comparison over a second of TCj is a sample of the KIND 4 reference, in 2^-16 ppb. -/
def frefSample (ferr : Int) (s : State) : State :=
  match (List.range 8).find? fun r => s.refKind r == 4 with
  | some r => refSample r ferr s
  | none => s

/-- A reference has no sample for TIMEOUT ms: it is invalid and selection is re-evaluated (R249). -/
def refTimeout (r : Nat) (s : State) : State :=
  let t := Tab.get 0 s.refs r
  if !s.on F.refStat_VALID r || t = 0 then s
  else
    let s := passTo (t - 1 + s.fld F.refCfg_TIMEOUT r * 250000 + 1) s
    reselectAll ({ s with refs := Tab.set 0 s.refs r 0 }.put F.refStat_VALID 0 r)

/-- A ramp ends at t0 + W (R251). -/
def rampEnd (j : Nat) (s : State) : State :=
  match (s.servo j).ramp with
  | none => s
  | some r =>
    let s := passTo (r.t0 + r.w) s
    (s.setServo j { s.servo j with ramp := none, before := none }).put F.svStat_RAMP 0 j

/-- EN of a servo changed to `on` (R247). -/
def servoSwitch (j : Nat) (on : Bool) (s : State) : State :=
  let s := (putSel j none (s.setServo j {})).put F.svStat_RAMP 0 j
  let s := putTcState j 0 ((s.put F.svStat_SEED 0 j).put F.svStat_FONLY 0 j)
  if on then reselect j s else s

/-- The captured TM set becomes active (R258): servos switch on or off and changed generators begin anew. -/
def activateTm (s : State) : State :=
  let was := [0, 1].map fun j => s.on F.svCfg0_EN j
  let pgf := [F.pgCfg_EN, F.pgCfg_TCSEL, F.pgCfg_PIN, F.pgCfg_POL, F.pgCfg_WID, F.pgSsec_SEC, F.pgSns_NS, F.pgPer_PER]
  let old := s
  let s := activate .tm s
  let s := [0, 1].foldl (fun s j =>
    if s.on F.svCfg0_EN j = was.getD j false then s else servoSwitch j (s.on F.svCfg0_EN j) s) s
  restartPulses ((List.range 8).filter fun g => pgf.any fun f => s.fld f g ≠ old.fld f g) s

/-- A time in 2^-16 ns as a stamp; the seconds wrap at 48 bits. -/
def stampOf (v : Int) : Stamp :=
  let sec : Int := 1000000000 * 65536
  { sec := ofSigned 48 (Int.fdiv v sec), nsf := (v % sec).toNat }

end Sys2Proof.Machine
end

