-- ==== Sys2Proof/Machine/Yard.lean ====
section
/-! DEFINITION. The yard's state and buffer: ports as they act, queues, cells, admission and push-out, congestion marks,
gate lists (chapters 10 and 12). -/

namespace Sys2Proof.Machine

/-! ### Ports as they act (R185, R204) -/

/-- (DEDUCED, log entry 52) -/
def State.halter (s : State) : Bool := s.on F.gcLaystat_HALTER

/-- The interface may run on the port (R185). -/
def ifOk (p i : Nat) : Bool :=
  i = 0 || (p < 4 && 1 ≤ i && i ≤ 4) || (4 ≤ p && p < 10 && i = 5) || (4 ≤ p && p < 8 && (i = 6 || i = 7))
    || (8 ≤ p && p < 10 && 8 ≤ i && i ≤ 10) || (10 ≤ p && p < 12 && i = 11)

/-- The lane PLL of P4 + `i`, or of the twin link (6), runs (R343).
(DEDUCED, log entry 41) -/
def State.laneOn (s : State) (i : Nat) : Bool := (s.fld F.ckCfg0_LANEEN).testBit i

/-- The interface of a port: IF 0 where CFG0.IF names none that the port has, or one of P4 to P9 whose lane PLL does not run
(R343); IF 1 on P0 and P1 in Halter mode.
(DEDUCED, log entry 41) -/
def State.epIf (s : State) (p : Nat) : Nat :=
  let c := s.fld F.epCfg0_IF p
  if s.halter then (if p < 2 then 1 else 0)
  else if ifOk p c && (c < 5 || 10 < c || s.laneOn (p - 4)) then c else 0

/-- A CFG field of a port, zero in Halter mode. -/
def State.epFld (s : State) (f : Fld) (p : Nat) : Nat := if s.halter then 0 else s.fld f p
def State.epOn (s : State) (f : Fld) (p : Nat) : Bool := s.epFld f p != 0

def State.maxFrm (s : State) (p : Nat) : Nat := if s.halter then 1522 else s.fld F.epCfg2_MAXFRM p
def State.txTh (s : State) (p : Nat) : Nat := s.epFld F.epTxctl_TXTH p

/-- The rate of a switch port in Mb/s (R219). -/
def State.rate (s : State) (p : Nat) : Nat :=
  if p < 12 then speedMb (s.fld F.epStat_SPEED p) else if p < 16 then 10000 else 13000

/-- Nanoseconds that `n` bytes take on a port.
(PRESUMED, log entry 44) -/
def State.wireNs (s : State) (p n : Nat) : Nat := (n * 8000 + s.rate p - 1) / s.rate p

/-- Preemption is active on the port (R193). -/
def State.preemptive (s : State) (p : Nat) : Bool := s.fld F.epStat_PVS p == 2

/-- Class `c` is preemptable on the port (R193). -/
def State.preemptable (s : State) (p c : Nat) : Bool := s.preemptive p && !(s.fld F.epCfg0_EXPMASK p).testBit c

/-! ### Frames and queues -/

def State.frame (s : State) (id : Nat) : Option YFrame := Tab.get none s.yard.frames id
def State.setFrame (s : State) (id : Nat) (f : Option YFrame) : State :=
  { s with yard := { s.yard with frames := Tab.set none s.yard.frames id f } }
def State.queue (s : State) (p c : Nat) : List QEnt := Tab.get [] s.yard.queues (8 * p + c)
def State.setQueue (s : State) (p c : Nat) (q : List QEnt) : State :=
  { s with yard := { s.yard with queues := Tab.set [] s.yard.queues (8 * p + c) q } }
def State.launchQ (s : State) (p : Nat) : List QEnt := Tab.get [] s.yard.launch p
def State.setLaunch (s : State) (p : Nat) (q : List QEnt) : State :=
  { s with yard := { s.yard with launch := Tab.set [] s.yard.launch p q } }

/-- Cells of a frame of `n` bytes without its FCS (R220). -/
def cellsOf (n : Nat) : Nat := (n + 4 + 127) / 128

/-- Cells queued on an egress queue (R230). -/
def State.qLen (s : State) (p c : Nat) : Nat :=
  ((s.queue p c).map fun x => match s.frame x.id with
    | some f => f.cells
    | none => 0).sum

/-- Take and free cells of the buffer (R220). -/
def takeCells (n : Nat) (s : State) : State :=
  let s := s.put F.ydStat_FREE (s.fld F.ydStat_FREE - n)
  s.put F.ydStat_MINFREE (min (s.fld F.ydStat_MINFREE) (s.fld F.ydStat_FREE))
def freeCells (n : Nat) (s : State) : State := s.put F.ydStat_FREE (s.fld F.ydStat_FREE + n)

/-- The source holds a descriptor that the yard writes back. -/
def FSrc.described : FSrc → Bool
  | .eng _ _ _ _ => true
  | .ring _ _ _ => true
  | _ => false

/-- A final disposition is still to be written to the frame's descriptor (R227, R238). -/
def YFrame.owes (x : YFrame) : Bool := x.src.described && !x.closed

/-- How a copy of a frame ends. -/
inductive CopyEnd | sent | pushed | gone
  deriving DecidableEq, Repr

/-- A copy ends; with the last one the frame's cells are freed, and a frame without a descriptor is forgotten (R224). -/
def copyDone (id : Nat) (how : CopyEnd) (s : State) : State :=
  match s.frame id with
  | none => s
  | some f =>
    let f := { f with left := f.left - 1, sent := f.sent || how == .sent, pushed := f.pushed || how == .pushed
                      gone := f.gone || how == .gone }
    if f.left ≠ 0 then s.setFrame id (some f)
    else
      let s := freeCells f.cells s
      if f.owes then s.setFrame id (some { f with cells := 0 }) else s.setFrame id none

/-! ### A frame's bytes and its length at egress -/

/-- Two bytes of a frame as a number. -/
def at16 (bs : List Byte) (k : Nat) : Nat := bytesNat ((bs.drop k).take 2)

/-- The frame has a VLAN tag.
(PRESUMED, log entry 45) -/
def hasTag (bs : List Byte) : Bool := at16 bs 12 == 0x8100

/-- Where the payload's EtherType stands.
(PRESUMED, log entry 45) -/
def typeAt (bs : List Byte) : Nat := if hasTag bs then 16 else 12

/-- The redundancy port pairs: MODE (1 PRP, 2 HSR), PA, PB. -/
def State.rpps (s : State) : List (Nat × Nat × Nat) :=
  [(s.fld F.twCfg5_MODE0, s.fld F.twCfg5_PA0, s.fld F.twCfg5_PB0), (s.fld F.twCfg5_MODE1, s.fld F.twCfg5_PA1, s.fld F.twCfg5_PB1),
   (s.fld F.twCfg5_MODE2, s.fld F.twCfg5_PA2, s.fld F.twCfg5_PB2), (s.fld F.twCfg5_MODE3, s.fld F.twCfg5_PA3, s.fld F.twCfg5_PB3)].filter
    fun x => x.1 == 1 || x.1 == 2

/-- The redundancy pair of a port. -/
def State.rppOf (s : State) (p : Nat) : Option (Nat × Nat × Nat) := s.rpps.find? fun x => x.2.1 == p || x.2.2 == p

/-- Port `p` removes the tag of the frame (R222).
(PRESUMED, log entry 45) -/
def State.untags (s : State) (p : Nat) (x : YFrame) : Bool :=
  p < 12 && (s.fld F.ydVlan_UNTAG x.vid).testBit p && !s.halter && hasTag x.bytes

/-- A frame's length on port `p` without its FCS: less a tag removed, with the trailer or tag of its redundancy pair, and
padded by a MAC (R222, R225, R320). -/
def State.egressLen (s : State) (p : Nat) (x : YFrame) : Nat :=
  let n := if s.untags p x then x.bytes.length - 4 else x.bytes.length
  if 12 ≤ p then n
  else match s.rppOf p, x.seqNr with
    | some (1, _, _), some _ => max 60 n + 6
    | some _, some _ => max 60 (n + 6)
    | _, _ => max 60 n

/-- The copy's port has no link, or sends for an in-passing direction only: the copy is taken and discarded, counted (R189,
R208). -/
def State.deadCount (s : State) (p : Nat) : Option (State → State) :=
  match s.relayOut p with
  | some (k, d) => some fun s => s.bump F.epIpcnt_DROP k d
  | none => if p < 12 && !s.on F.epStat_LINK p then some fun s => s.bump F.epCnt2_TXLDN p else none

/-! ### Gate lists (R235, R236) -/

def State.gateS (s : State) (p : Nat) : GateS := Tab.get {} s.yard.gate p
def State.setGate (s : State) (p : Nat) (x : GateS) : State :=
  { s with yard := { s.yard with gate := Tab.set {} s.yard.gate p x } }

/-- The segments of a list's cycle: start, end and gates; the last entry reaches to the end, a longer list is cut. -/
def gateSegs : List (Nat × Nat × Nat) → Nat → Nat → List (Nat × Nat × Nat)
  | [], _, _ => []
  | [e], at_, cyc => if at_ < cyc then [(at_, cyc, e.1)] else []
  | e :: t, at_, cyc =>
    let iv := (e.2.2 + 3) / 4 * 4
    if at_ < cyc then (at_, min cyc (at_ + iv), e.1) :: gateSegs t (at_ + iv) cyc else []

/-- The class's gate is open on the port now. -/
def State.gateOpen (s : State) (p c : Nat) : Bool := (s.gateS p).gates.testBit c

/-- Longest run of open time of class `c` in a list of segments. -/
def openRun (c : Nat) (segs : List (Nat × Nat × Nat)) : Nat :=
  (segs.foldl (fun (b : Nat × Nat) e =>
    let r := if e.2.2.testBit c then b.2 + (e.2.1 - e.1) else 0
    (max b.1 r, r)) (0, 0)).1

/-- The longest unbroken open time of a class in the operating list; none where its gate never closes. -/
def State.longestOpen (s : State) (p c : Nat) : Option Nat :=
  let x := s.gateS p
  let segs := gateSegs x.oper 0 x.cyc
  if x.oper = [] || segs.all fun e => e.2.2.testBit c then none else some (openRun c (segs ++ segs))

/-- The committed list of a port: its entries from GCL. -/
def State.gclOf (s : State) (p : Nat) : List (Nat × Nat × Nat) :=
  (List.range (s.fld F.ydGctl_LEN p)).map fun i =>
    (s.fld F.ydGcl_GATES p i, s.eff F.ydGcl_OP (· == 3) p i, s.fld F.ydGcl_INTERVAL p i)

/-- The next cycle start at or after now of a schedule, in ns. -/
def nextCycle (base cyc now : Nat) : Nat := if now ≤ base then base else base + (now - base + cyc - 1) / cyc * cyc

/-- The first cycle start of a port's committed schedule at or after now, in ns of its counter. -/
def State.firstCycle (s : State) (p : Nat) : Nat :=
  let base := s.fld F.ydGbase0_SEC p * 1000000000 + s.fld F.ydGbase1_NS p
  let cyc := s.fld F.ydGcyc_CYC p
  if cyc = 0 then base else nextCycle base cyc (s.nsNow (s.fld F.ydGctl_GDOM p))

/-- From position `pos` of a list's cycle, the nanoseconds until the gate of class `c` is closed; none where it never is. -/
def closedAfter (c : Nat) (list : List (Nat × Nat × Nat)) (cyc pos : Nat) : Option Nat :=
  let segs := gateSegs list 0 cyc
  let two := segs ++ segs.map fun e => (e.1 + cyc, e.2.1 + cyc, e.2.2)
  (two.find? fun e => e.2.1 > pos && !e.2.2.testBit c).map fun e => e.1 - pos

/-- Nanoseconds until the open gate of a class next closes; none where it never does. A committed list that waits takes the place
of the operating one at its first cycle start (R235, R236). -/
def State.closesIn (s : State) (p c : Nat) : Option Nat :=
  let x := s.gateS p
  let old := if x.oper = [] then none else closedAfter c x.oper x.cyc (s.gatePos x)
  if !s.on F.ydGctl_PEND p then old
  else
    let wait := s.firstCycle p - s.nsNow (s.fld F.ydGctl_GDOM p)
    if old.any (· < wait) then old else (closedAfter c (s.gclOf p) (s.fld F.ydGcyc_CYC p) 0).map (wait + ·)

/-- Bytes that must fit before the gate closes, `len` the frame's length at egress: preamble and frame, or the first
fragment of a preemptable one (R236).
(PRESUMED, log entry 44) -/
def State.fitBytes (s : State) (p c len : Nat) : Nat :=
  8 + if s.preemptable p c then min (len + 4) (64 * (s.fld F.epCfg0_ADDFRAG p + 1)) else len + 4

/-- The frame is longer than the longest unbroken open time of its class (R236). -/
def State.neverFits (s : State) (p c len : Nat) : Bool :=
  match s.longestOpen p c with
  | some t => s.wireNs p (s.fitBytes p c len) > t
  | none => false

/-- A frame of the class may start on the port now (R236).
(PRESUMED, log entry 44) -/
def State.gateFits (s : State) (p c len : Nat) : Bool :=
  s.gateOpen p c && match s.closesIn p c with
    | some t => s.wireNs p (s.fitBytes p c len) ≤ t
    | none => true

/-! ### Congestion marks (R233) -/

/-- The ECN field of an IPv4 or IPv6 frame, if it is one. -/
def ecnOf (bs : List Byte) : Option Nat :=
  let t := typeAt bs
  if at16 bs t = 0x0800 then some ((bs.getD (t + 3) 0).toNat % 4)
  else if at16 bs t = 0x86DD then some ((bs.getD (t + 3) 0).toNat / 16 % 4)
  else none

/-- The frame can take CE or DEI. -/
def markable (bs : List Byte) : Bool :=
  (match ecnOf bs with
    | some e => e == 1 || e == 2
    | none => false) || hasTag bs

/-- The Internet checksum of a list of bytes. -/
def inetSum (bs : List Byte) : Nat :=
  let v := (List.range ((bs.length + 1) / 2)).foldl (fun n k => n + at16 bs (2 * k)) 0
  let f := fun n => n % 65536 + n / 65536
  65535 - f (f v)

/-- The frame as a mark leaves it: CE with a corrected IPv4 header checksum, or DEI. -/
def markFrame (bs : List Byte) : List Byte :=
  let t := typeAt bs
  match ecnOf bs with
  | some e =>
    if e = 1 ∨ e = 2 then
      if at16 bs t = 0x0800 then
        let b := bs.set (t + 3) (bs.getD (t + 3) 0 ||| 3)
        let h := t + 2
        let z := (b.set (h + 10) 0).set (h + 11) 0
        let c := inetSum ((z.drop h).take (4 * ((bs.getD h 0).toNat % 16)))
        (b.set (h + 10) (BitVec.ofNat 8 (c / 256))).set (h + 11) (BitVec.ofNat 8 c)
      else bs.set (t + 3) (bs.getD (t + 3) 0 ||| 0x30)
    else dei bs
  | none => dei bs
where
  dei (bs : List Byte) : List Byte := if hasTag bs then bs.set 14 (bs.getD 14 0 ||| 0x10) else bs

/-! ### Admission (R230, R231) -/

/-- α(q) × F: 2^K with K from −4 to +3, rounded down. -/
def State.alpha (s : State) (p c f : Nat) : Nat :=
  let k := s.eff F.ydQcfg_K (fun v => 4 ≤ v && v < 12) p c
  if k < 8 then f * 2 ^ k else f / 2 ^ (16 - k)

/-- The copies of a frame that ports are sending, preempted ones included. -/
def State.sendingCopies (s : State) (id : Nat) : Nat :=
  ((List.range 12).filter fun p => (s.port p).tx.any (·.id == id) || (s.port p).held.any (·.id == id)).length

/-- The cells that pushing one copy out of a queue frees: the frame's, where it is the last copy (R224, R230). -/
def State.freed (s : State) (id : Nat) : Nat := match s.frame id with
  | some f => if f.left = 1 then f.cells else 0
  | none => 0

/-- `fits` of R230 for function `f`, `n` cells, with `V` pushed out: 0, or 2 for the quota, 5 for the limit, 6 for the
buffer. -/
def State.fitsIn (s : State) (p c f n : Nat) (v : List Nat) : Nat :=
  let f2 := s.fld F.ydStat_FREE + (v.map s.freed).sum
  let own := (v.filter fun id => (s.frame id).any fun x => x.chg == f).map s.freed
  let u := s.useCells f - own.sum
  if !s.halter && u + n > s.fld F.fnQuota_CELLS f then 2
  else if s.qLen p c + n > s.alpha p c f2 then 5
  else if n > f2 then 6
  else 0

/-- The port has had something to send until now: its idle time begins again (R198). -/
def touchIdle (p : Nat) (s : State) : State := s.setPort p { s.port p with idleFrom := s.tick }

/-- Push one frame's copy out of the queues of a port; its cells are free at once where no other copy is left (R224, R231).
(DEDUCED, log entry 46) -/
def pushOut (p id : Nat) (s : State) : State :=
  match (List.range 3).find? fun c => (s.queue p c).any fun x => x.id == id with
  | some c =>
    copyDone id .pushed (touchIdle p ((s.setQueue p c ((s.queue p c).filter fun x => x.id ≠ id)).bump F.ydQcnt_PUSHOUT p c))
  | none => s

/-- The candidates for push-out, in the order of R230; a frame of which a copy is being sent, or has been sent or delivered,
is none (R231).
(DEDUCED, log entry 46) -/
def State.victims (s : State) (p f n : Nat) : List Nat :=
  let cand := ((List.range 3).flatMap fun c => (s.queue p c).map (·.id)).filter fun id =>
    s.sendingCopies id = 0 && !(s.frame id).any (·.sent)
  let cand := if s.useCells f + n > s.fld F.fnQuota_CELLS f then
      cand.filter fun id => (s.frame id).any fun x => x.chg == f else cand
  let rich := fun id => match s.frame id with
    | some x => s.useCells x.chg > s.fld F.fnQuota_CELLS x.chg
    | none => false
  let desc := fun ids => orderBy (fun id => s.yard.nextId - id) ids
  desc (cand.filter rich) ++ desc (cand.filter fun id => !rich id)

/-- Extend V victim by victim until the frame fits.
(DEDUCED, log entry 46) -/
def State.choose (s : State) (p c f n : Nat) : List Nat → List Nat → Option (List Nat)
  | _, [] => none
  | v, x :: rest =>
    if s.fitsIn p c f n (v ++ [x]) = 0 then some (v ++ [x]) else s.choose p c f n (v ++ [x]) rest

/-- Admission of one copy of a frame to queue (p, c), or to the launch queue of port p, which must not be full and ignores
the gate list: 0, or the refusal's code, with the state after any push-out (R230, R236, R256). -/
def mayTake (p c : Nat) (x : YFrame) (single launch : Bool) (s : State) : Nat × State :=
  let f := x.chg
  let n := cellsOf x.bytes.length
  let r := s.fitsIn p c f n []
  let no := fun (d : Nat) (s : State) => (d, s.bump F.ydQcnt_REFUSE p c)
  if launch && (s.launchQ p).length ≥ 32 then no (if r = 2 then 2 else 5) s
  else if !launch && s.neverFits p c (s.egressLen p x) then no (if r = 2 then 2 else 5) (s.bump F.ydPcnt_GDROP p)
  else if r = 0 then (0, s)
  else if !s.on F.ydPcfg_POUT p || c < 6 || !single then no r s
  else match s.choose p c f n [] (s.victims p f n) with
    | some v => (0, v.foldl (fun s id => pushOut p id s) s)
    | none => no r s

/-- Queue an admitted copy, marked where its queue is above the marking depth (R233), or put it into the launch queue (R256);
a port that cannot send it takes and discards it (R189, R208). -/
def enqueue (id p c : Nat) (f : Option Nat) (launch : Bool) (s : State) : State :=
  match s.deadCount p with
  | some count => copyDone id .sent (count s)
  | none =>
    let m := s.fld F.ydQcfg_MARK p c
    let deep := m ≠ 0 && s.qLen p c > m
    let can := match s.frame id with
      | some x => markable x.bytes
      | none => false
    let s := if deep then (if can then s.bump F.ydQcnt_MARK p c else s.bump F.ydPcnt_UNMARK p) else s
    let q : QEnt := { id := id, f := f, mark := deep && can }
    if launch then s.setLaunch p (s.launchQ p ++ [q]) else s.setQueue p c (s.queue p c ++ [q])

/-- One egress of a frame: switch port, class, and the function it is delivered to. -/
abbrev Want := Nat × Nat × Option Nat

/-- Admit the copies of a frame, store it once and queue them, the copy for port `launch` in its launch queue: the first
refusal's code when none is admitted, and the frame's number (R224, R230, R256). -/
def storeFrame (x : YFrame) (wants : List Want) (launch : Option Nat) (s : State) : Nat × Nat × State :=
  let single := wants.length == 1
  let (ok, code, s) := wants.foldl (fun (a : List Want × Nat × State) w =>
    let r := mayTake w.1 w.2.1 x single (launch == some w.1) a.2.2
    if r.1 = 0 then (a.1 ++ [w], a.2.1, r.2) else (a.1, if a.2.1 = 0 then r.1 else a.2.1, r.2)) ([], 0, s)
  if ok = [] then (code, 0, s)
  else
    let id := s.yard.nextId
    let n := cellsOf x.bytes.length
    let t := { s with yard := { s.yard with nextId := id + 1 } }
    let t := takeCells n (t.setFrame id (some { x with cells := n, left := ok.length }))
    let t := noteOverq x.chg s t
    (0, id, ok.foldl (fun t w => enqueue id w.1 w.2.1 w.2.2 (launch == some w.1) t) t)

end Sys2Proof.Machine
end

