-- ==== Sys2Proof/Machine/Switch.lean ====
section
/-! DEFINITION. The switch: classification, the address table, redundant pairs' frames, receiving, submitting and
delivering frames, address table commands, gate cycles and launch queues (chapters 12, 13 and 17). -/

namespace Sys2Proof.Machine

/-! ### Redundancy port pairs (R319 to R321) -/

/-- The source address of a frame; its destination address. -/
def srcOf (bs : List Byte) : Nat := bytesNat ((bs.drop 6).take 6)
def dstOf (bs : List Byte) : Nat := bytesNat (bs.take 6)

/-- Two bytes of a number, most significant first. -/
def two (v : Nat) : List Byte := [BitVec.ofNat 8 (v / 256), BitVec.ofNat 8 v]

/-- The redundancy check trailer of a PRP frame (IEC 62439-3): its SeqNr, if there is one.
(PRESUMED, log entry 48) -/
def rctOf (bs : List Byte) : Option Nat :=
  let n := bs.length
  if n ≥ 20 && at16 bs (n - 2) = 0x88FB then some (at16 bs (n - 6)) else none

/-- The HSR tag of a frame (IEC 62439-3) at its EtherType: path nibble and SeqNr.
(PRESUMED, log entry 48) -/
def hsrOf (bs : List Byte) : Option (Nat × Nat) :=
  let t := typeAt bs
  if at16 bs t = 0x892F then some (at16 bs (t + 2) / 4096, at16 bs (t + 4)) else none

/-- The frame without its HSR tag.
(PRESUMED, log entry 48) -/
def stripHsr (bs : List Byte) : List Byte := let t := typeAt bs; bs.take t ++ bs.drop (t + 6)

/-- A frame as it leaves a port of a redundancy pair: with its RCT, or with its HSR tag (R320).
(PRESUMED, log entry 48) -/
def addRedundancy (mode seq path : Nat) (bs : List Byte) : List Byte :=
  if mode = 1 then
    let b := bs ++ List.replicate (60 - bs.length) 0
    b ++ two seq ++ two (path * 4096 + (b.length - typeAt b + 4) % 4096) ++ two 0x88FB
  else
    let t := typeAt bs
    bs.take t ++ two 0x892F ++ two (path * 4096 + (bs.length - t + 4) % 4096) ++ two seq ++ bs.drop t

/-- Duplicate discard by source and SeqNr: accepted or not (R321).
(PRESUMED, log entry 48) -/
def ddAccept (src seq : Nat) (s : State) : Bool × State :=
  let put := fun (l : List DdEnt) (s : State) => { s with tw := { s.tw with dd := l } }
  match s.tw.dd.find? (·.src == src) with
  | none =>
    if s.tw.dd.length ≥ 1024 then (true, s.bump F.twCnt1_TBLF)
    else (true, put (s.tw.dd ++ [⟨src, seq, 1, s.tick⟩]) s)
  | some e =>
    let d := sdiff 16 seq e.high
    let upd := fun (x : DdEnt) => put (s.tw.dd.map fun y => if y.src = src then x else y) s
    if d > 0 then (true, upd ⟨src, seq, (e.seenRec <<< d.toNat) ||| 1, s.tick⟩)
    else if d > -256 then
      let k := (-d).toNat
      if e.seenRec.getLsbD k then (false, (upd { e with used := s.tick }).bump F.twCnt1_DUP)
      else (true, upd { e with seenRec := e.seenRec ||| BitVec.ofNat 256 (2 ^ k), used := s.tick })
    else (true, (upd ⟨src, seq, 1, s.tick⟩).bump F.twCnt1_OOW)

/-- An entry unused for 400 ms is freed (R321). -/
def ddAge (src : Nat) (s : State) : State :=
  match s.tw.dd.find? (·.src == src) with
  | none => s
  | some e =>
    let s := passTo (e.used + 100000000) s
    { s with tw := { s.tw with dd := s.tw.dd.filter (·.src ≠ src) } }

/-! ### The address table (R222, R223) -/

/-- The six bytes of an address. -/
def macBytes (m : Nat) : List Byte := [40, 32, 24, 16, 8, 0].map fun lo => BitVec.ofNat 8 (bits m lo 8)

/-- The set of a key: bits 11:0 of the CRC-32C over the address and the VID (R222). -/
def atSet (mac vid : Nat) : Nat := crc32c (macBytes mac ++ two vid) % 4096

def State.atFind (s : State) (mac vid : Nat) : Option AtEnt := s.yard.table.find? fun e => e.mac == mac && e.vid == vid

def State.setTable (s : State) (t : List AtEnt) : State := { s with yard := { s.yard with table := t } }

/-- Remove a key. -/
def atDrop (mac vid : Nat) (s : State) : State := s.setTable (s.yard.table.filter fun e => !(e.mac == mac && e.vid == vid))

/-- Make room in a full set: its dynamic entry that has gone longest unrefreshed goes; false where there is none. -/
def atRoom (mac vid : Nat) (s : State) : Bool × State :=
  let k := atSet mac vid
  let inSet := s.yard.table.filter fun e => atSet e.mac e.vid == k
  if inSet.length < 4 then (true, s)
  else match (inSet.filter fun e => !e.static).foldl (fun (b : Option AtEnt) e => match b with
      | none => some e
      | some b => if e.fresh < b.fresh then some e else some b) none with
    | some v => (true, atDrop v.mac v.vid s)
    | none => (false, s)

/-- Learn a source address (R223). -/
def learn (p mac vid : Nat) (s : State) : State :=
  if !s.on F.ydPcfg_LEARN p || !s.on F.ydVlan_LEARN vid || mac.testBit 40 then s
  else match s.atFind mac vid with
    | some e =>
      if e.static then s
      else
        let moved := e.pmask ≠ 2 ^ p
        let s := s.setTable (s.yard.table.map fun x => if x.mac = mac ∧ x.vid = vid then
          { x with fresh := s.tick, pmask := 2 ^ p } else x)
        if moved then s.bump F.ydCnt_MOVE else s
    | none =>
      let (ok, s) := atRoom mac vid s
      if ok then s.setTable (s.yard.table ++ [⟨mac, vid, false, false, 0, 2 ^ p, s.tick⟩]) else s.bump F.ydCnt_LRNFAIL

/-- A dynamic entry grows too old (R223). -/
def ageOut (mac vid : Nat) (s : State) : State :=
  match s.atFind mac vid with
  | none => s
  | some e =>
    let a := s.fld F.ydCfg_AGETIME
    if e.static || a = 0 then s else atDrop mac vid (passTo (e.fresh + a * 250000000) s)

/-- Start an address table command; it is ignored while one runs.
(DEDUCED, log entry 51) -/
def atStart (op : Nat) (s : State) : State :=
  if s.on F.ydAtcmd_BUSY then s
  else { s.put F.ydAtcmd_BUSY 1 with yard := { s.yard with cmd := some (op, 0) } }

/-- Carry an address table command out: its RES and the state (R237, registers of chapter 12).
(DEDUCED, log entry 51) -/
def atRun (op : Nat) (s : State) : Nat × State :=
  let mac := s.fld F.ydAtkey_MAC
  let vid := s.fld F.ydAtdata_VID
  if op = 1 then
    match s.atFind mac vid with
    | some e =>
      let s := ((s.put F.ydAtdata_VALID 1).put F.ydAtdata_STATIC (b2n e.static)).put F.ydAtdata_DLV (b2n e.dlv)
      (0, (s.put F.ydAtdata_FN e.fn).put F.ydAtdata_PMASK e.pmask)
    | none =>
      let s := ((s.put F.ydAtdata_VALID 0).put F.ydAtdata_STATIC 0).put F.ydAtdata_DLV 0
      (0, (s.put F.ydAtdata_FN 0).put F.ydAtdata_PMASK 0)
  else if op = 2 then
    if !s.on F.ydAtdata_VALID then (0, atDrop mac vid s)
    else
      let e : AtEnt := ⟨mac, vid, s.on F.ydAtdata_STATIC, s.on F.ydAtdata_DLV, s.fld F.ydAtdata_FN, s.fld F.ydAtdata_PMASK, s.tick⟩
      let (ok, t) := atRoom mac vid (atDrop mac vid s)
      if ok then (0, t.setTable (t.yard.table ++ [e])) else (5, s)
  else if op = 3 then (0, atDrop mac vid s)
  else if op = 4 then
    (0, s.setTable (s.yard.table.filter fun e => e.static || e.pmask &&& s.fld F.ydAtdata_PMASK = 0))
  else (0, s)

/-- The running address table command ends.
(DEDUCED, log entry 51) -/
def atComplete (s : State) : State :=
  match s.yard.cmd with
  | none => s
  | some (op, _) =>
    let r := atRun op { s with yard := { s.yard with cmd := none } }
    (r.2.put F.ydAtcmd_BUSY 0).put F.ydAtcmd_RES r.1

/-! ### Classification (R221, R222) -/

/-- The VLAN and class field of a frame at a switch port, with whether it carries a nonzero VID; none: dropped (R221).
(DEDUCED, log entry 47) -/
def State.classify (s : State) (p : Nat) (bs : List Byte) : Option (Nat × Nat × Bool) :=
  let tci := at16 bs 14
  let tagged := hasTag bs && tci % 4096 ≠ 0
  let vid := if tagged then tci % 4096 else s.fld F.ydPcfg_PVID p
  let pcp := if tagged then tci / 8192 else s.fld F.ydPcfg_PPCP p
  let acc := s.eff F.ydPcfg_ACCEPT (· == 3) p
  if !s.yard.known.contains p || (acc = 1 && !tagged) || (acc = 2 && tagged) || vid = 4095 || !s.on F.ydVlan_VALID vid
      || (p < 12 && !(s.fld F.ydVlan_MEMBER vid).testBit p) then none
  else some (vid, pcp, tagged)

/-- The class of a PCP on a port. -/
def State.classOf (s : State) (p pcp : Nat) : Nat := bits (s.fld F.ydPcpmap_MAP p) (3 * pcp) 3

/-- KIND of a function's receive pool as it acts. -/
def State.poolKind (s : State) (f : Nat) : Nat := s.eff F.ydFrx0_KIND (· == 3) f

/-- The switch port that reaches a function's receive pool (R228, R229). -/
def State.poolPort (s : State) (f : Nat) : Nat := if s.poolKind f = 1 then 12 + s.fld F.ydFrx0_STBL f / 4 else 16

/-- The ports of a mask as egresses of class `c`. -/
def wantsOf (mask c : Nat) : List Want := ((List.range 12).filter mask.testBit).map fun q => (q, c, none)

/-- A delivery to a function as an egress; without a receive pool it is not made and is counted (R222). -/
def deliverWant (f c : Nat) (s : State) : List Want × State :=
  if s.poolKind f = 0 then ([], s.bump F.ydFrx2_NOSLOT f) else ([(s.poolPort f, c, some f)], s)

/-- The egresses that the address table gives a frame (R222).
(DEDUCED, log entry 47) -/
def lookup (p da vid c : Nat) (s : State) : List Want × State :=
  let (mask, fns, s) := match s.atFind da vid with
    | some e => (e.pmask, if e.dlv then [e.fn] else [], s)
    | none => (s.fld F.ydVlan_MEMBER vid, if s.on F.ydVlan_FLDLV vid then [s.fld F.ydVlan_FLOODFN vid] else [],
        s.bump F.ydPcnt_FLOOD p)
  let ports := (wantsOf mask c).filter fun w => w.1 ≠ p
  fns.foldl (fun (a : List Want × State) f => let r := deliverWant f c a.2; (a.1 ++ r.1, r.2)) (ports, s)

/-- A frame sent to one port of a redundancy pair goes to both (R320).
(DEDUCED, log entry 47) -/
def State.bothPorts (s : State) (ws : List Want) : List Want :=
  s.rpps.foldl (fun ws x =>
    match ws.find? fun w => w.1 == x.2.1 || w.1 == x.2.2 with
    | some w => (ws.filter fun v => v.1 ≠ x.2.1 && v.1 ≠ x.2.2) ++ [(x.2.1, w.2.1, none), (x.2.2, w.2.1, none)]
    | none => ws) ws

/-! ### Frames from the ports (R221 to R224, R234) -/

/-- A frame of `len` bytes may be cut through to its one egress: it is longer than the start threshold there, and
not longer than the ingress MAC takes (R190, R196, R234). -/
def State.mayCut (s : State) (p q c len : Nat) : Bool :=
  s.on F.ydPcfg_CTEN q && 64 ≤ len + 4 && len + 4 ≤ s.maxFrm p && (q ≥ 12 || (s.txTh q ≠ 0 && 128 * s.txTh q < len + 4)) && ((List.range 8).all fun k => s.queue q k == []) && s.launchQ q == []
    && s.gateOpen q c && s.rate q ≤ s.rate p
    && (q ≥ 12 || ((s.port q).tx.isNone && (s.port q).held.isNone && !s.on F.epStat_PAUSED q && !s.on F.epStat_LPITX q
      && s.on F.epStat_LINK q))

/-- A frame that port `p` received, given its class and egresses, is stored and queued.
(DEDUCED, log entry 47) -/
def forward (p : Nat) (x : YFrame) (ws : List Want) (s : State) : State :=
  if ws = [] then s.bump F.ydPcnt_FILT p
  else
    let r := storeFrame x ws none s
    if r.1 = 6 then r.2.2.bump F.ydCnt_NOBUF else r.2.2

/-- Source address of a region's publications (R180). -/
def State.pubSource (s : State) (k : Nat) : Nat := 0x02544B000000 + s.boot.sdn * 2 ^ 14 + k * 2 ^ 8

/-- A frame on a port of a redundancy pair: duplicates are discarded, the trailer or tag is removed and ring frames go on
(R320, R321). Answers the frame, its SeqNr and path, whether it is new, and whether this unit sent it.
(DEDUCED, log entry 52) -/
def ringReceive (p : Nat) (bs : List Byte) (s : State) : (List Byte × Option Nat × Option Nat × Bool × Bool) × State :=
  match s.rppOf p with
  | none => ((bs, none, none, true, false), s)
  | some (mode, _, _) =>
    let src := srcOf bs
    let own := src == s.fld F.twCfg3_PAIRMAC || (s.yard.table.any fun e => e.mac == src && e.dlv)
      || (List.range 64).any fun k => src == s.pubSource k
    if mode = 1 then
      match rctOf bs with
      | some seq => let (ok, s) := ddAccept src seq s; ((bs.take (bs.length - 6), none, none, ok, false), s)
      | none => ((bs, none, none, true, false), s)
    else
      match hsrOf bs with
      | some (path, seq) =>
        if own then ((stripHsr bs, some seq, some path, false, true), s)
        else let (ok, s) := ddAccept src seq s; ((stripHsr bs, some seq, some path, ok, false), s)
      | none => ((bs, none, none, true, false), s)

/-- The yard takes a frame from port `p`: classified, looked up, learned, admitted and queued (R221 to R224, R230).
`early`: its start only, to be cut through where R234 allows, else left alone; whether it was taken comes first, and a
refused admission is final (R230).
(DEDUCED, log entry 83) -/
def yardTake (p : Nat) (it : RxItem) (early ctBad : Bool) (s : State) : Bool × State :=
  if s.halter then
    let x : YFrame := { bytes := it.bytes, cells := 0, chg := 0, cls := 0, src := .port p, vid := 0, tagged := false, ts := {},
                        wake := false, left := 0, copied := true }
    if p < 2 && !early then (true, (storeFrame x [(1 - p, 0, none)] none s).2.2) else (false, s)
  else
    let ((bs, seq, lan, fresh, own), s1) := ringReceive p it.bytes s
    match s1.classify p bs with
    | none => (false, s1.bump F.ydPcnt_FILT p)
    | some (vid, pcp, _) =>
      let c := s1.classOf p pcp
      let da := dstOf bs
      let r := lookup p da vid c s1
      let ring := match s1.rppOf p, seq with
        | some (2, a, b), some _ =>
          if own || (!da.testBit 40 && (s1.atFind da vid).any (·.dlv)) then [] else [((if p = a then b else a : Nat), c, (none : Option Nat))]
        | _, _ => []
      let off := match s1.rppOf p with
        | some (_, a, b) => r.1.filter fun w => w.1 ≠ a && w.1 ≠ b
        | none => r.1
      let ws := ring ++ (if fresh then s1.bothPorts off else [])
      let x : YFrame := { bytes := bs, cells := 0, chg := s1.fld F.ydPcfg_CHGFN p, cls := c, src := .port p, vid := vid
                          tagged := hasTag bs, ts := it.ts, wake := it.wake, left := 0, copied := !early, seqNr := seq, lan := lan
                          ct := early, ctBad := early && ctBad, arriving := early }
      let take := fun (_ : Unit) => forward p x ws (learn p (srcOf bs) vid r.2)
      if early then
        match ws with
        | [w] => if s1.mayCut p w.1 w.2.1 bs.length then (true, take ()) else (false, s)
        | _ => (false, s)
      else if !fresh && ring = [] then (true, s1)
      else (true, take ())

/-- The first frame that port `p` has handed over, taken out of the inbox. -/
def takeInbox (p : Nat) (s : State) : Option (RxItem × State) :=
  match s.yard.inbox.findIdx? (·.p == p) with
  | none => none
  | some k => (s.yard.inbox[k]?).map fun it => (it, { s with yard := { s.yard with inbox := s.yard.inbox.eraseIdx k } })

/-! ### Ring messages (R363) -/

/-- A write-back to a host ring sends its vector, at most once every 8 µs.
(DEDUCED, log entry 53) -/
def ringMessage (v : Nat) (s : State) : State :=
  if s.tick < Tab.get 0 s.yard.holdoff v then
    if s.yard.owed.contains v then s else { s with yard := { s.yard with owed := s.yard.owed ++ [v] } }
  else sendMsix v { s with yard := { s.yard with holdoff := Tab.set 0 s.yard.holdoff v (s.tick + 2000) } }

/-- The 8 µs of a ring vector end: a message covers the write-backs in between.
(DEDUCED, log entry 53) -/
def ringHoldoffEnd (v : Nat) (s : State) : State :=
  let s := passTo (Tab.get 0 s.yard.holdoff v) s
  let s1 := { s with yard := { s.yard with holdoff := Tab.set 0 s.yard.holdoff v 0 } }
  if s.yard.owed.contains v then
    ringMessage v { s1 with yard := { s1.yard with owed := s1.yard.owed.filter (· ≠ v) } }
  else s1

/-! ### Frames from functions (R225 to R229, R319) -/

/-- Word 0 of a descriptor with its FIN, DISP and CPY (R225). -/
def setW0 (w0 : Word) (fin disp cpy : Nat) : Word :=
  wd (w0.toNat % 2 ^ 42 + fin * 2 ^ 47 + disp * 2 ^ 43 + cpy * 2 ^ 42)

/-- HEAD of a host transmit ring moves to the oldest descriptor that is not final (R229).
(DEDUCED, log entry 50) -/
def moveHead (r : Nat) (s : State) : State :=
  let size := 2 ^ s.fld F.ydHtxptr_LOGN r
  let h := s.fld F.ydHtxptr_HEAD r
  let open_ := s.yard.frames.filterMap fun e => match e.2 with
    | some x => match x.src with
      | .ring r' k _ => if r' = r && x.owes then some ((k + size - h) % size) else none
      | _ => none
    | none => none
  let d := (Tab.get 0 s.yard.htxNext r + size - h) % size
  s.put F.ydHtxptr_HEAD ((h + (open_.foldl min d)) % size) r

/-- The yard writes word 0 of a descriptor back, as a supervisor access (R225); to host memory only over a PCIe link that is
up (R26). -/
def writeW0 (src : FSrc) (w : Word) (s : State) : State :=
  match src with
  | .eng n a _ _ => if loftReserved a || s.inpassWord n a then s else memWrite (loftPlace n a) w s
  | .ring r k _ => if s.host.pcieUp then ringMessage (128 * r + 1) (s.emit (.dma r k [w])) else s
  | _ => s

/-- A final disposition is written back. -/
def finalW0 (src : FSrc) (w0 : Word) (disp cpy : Nat) (s : State) : State :=
  let s := writeW0 src (setW0 w0 1 disp cpy) s
  match src with
  | .ring r _ _ => moveHead r s
  | _ => s

/-- The switch port that a source's frames come in by. -/
def FSrc.ingress : FSrc → Nat
  | .port p => p
  | .eng n _ _ _ => 12 + n / 4
  | _ => 16

/-- A frame that a function, the Manger or the Farrier submits, as its descriptor asks (R225 to R230, R256, R319): its
final disposition, or 1 while it is under way.
(DEDUCED, log entry 59) -/
def submitFrame (x : YFrame) (route dfn pmask : Nat) (launch : Bool) (s : State) : Nat × State :=
  let p := x.src.ingress
  match s.classify p x.bytes with
  | none => (0, s.bump F.ydPcnt_FILT p)
  | some (vid, _, _) =>
    let (ws, s) := if route = 1 then (wantsOf pmask x.cls, s)
      else if route = 2 then deliverWant dfn x.cls s
      else lookup p (dstOf x.bytes) vid x.cls s
    let ws := s.bothPorts ws
    let single := route = 1 && ones 12 pmask = 1
    let lq := launch && single
    let s := if launch && !single then s.bump F.tmLq_IGN (((ws.map (·.1)).find? (· < 12)).getD 0) else s
    if ws = [] then (0, s.bump F.ydPcnt_FILT p)
    else
      let onRing := ws.any fun w => (s.rppOf w.1).isSome
      let pair := s.on F.twCfg0_EN && onRing && srcOf x.bytes = s.fld F.twCfg3_PAIRMAC
      let i := s.tw.subs
      let x := { x with vid := vid, tagged := hasTag x.bytes, seqNr := if onRing then some 0 else none }
      let port := if lq then (List.range 12).find? pmask.testBit else none
      if pair && i ≥ s.fld F.twCfg4_ZGPER then
        let r := storeFrame x ws port s
        if r.1 = 2 then (2, r.2.2.bump F.fnCnt_REFQ x.chg) else (5, s)
      else
        let seq := if pair then (s.instN * s.fld F.twCfg4_ZGPER + i) % 65536 else s.tw.seqNo
        let s := if pair then { s with tw := { s.tw with subs := i + 1 } }
          else if onRing then { s with tw := { s.tw with seqNo := (seq + 1) % 65536 } } else s
        if pair && !(s.fld F.twCfg4_ZGCLS).testBit x.cls && !s.driving then (0, s.bump F.twCnt1_SUPP)
        else
          let r := storeFrame { x with seqNr := if onRing then some seq else none } ws port s
          if r.1 = 0 then (1, r.2.2)
          else if r.1 = 2 then (2, r.2.2.bump F.fnCnt_REFQ x.chg)
          else (5, r.2.2)

/-- The lanes of a frame that the copies of its uncorrectable words fill, with the poison mark (R145). -/
def poisonLanes (bytes : List Byte) (bad : List Nat) : Tab Stored :=
  (bad.flatMap fun i => (List.range 6).map (6 * i + ·)).foldl (fun t b =>
    let w := cellLane bytes (laneOf b)
    if b < bytes.length then Tab.set (sealW w) t (laneOf b) (poisonW w) else t) []

/-- The frame that a descriptor's words and data describe (R225).
(DEDUCED, log entry 49) -/
def descFrame (src : FSrc) (chg : Nat) (w0 w2 : Word) (bytes : List Byte) (bad : List Nat) : YFrame :=
  { bytes := bytes, lanes := poisonLanes bytes bad, cells := 0, chg := chg, cls := bits w0.toNat 39 3, src := src, vid := 0, tagged := false, ts := {}, wake := false
    left := 0, pois := bad ≠ [], tsr := w0.getLsbD 36, tstag := bits w0.toNat 5 16, ltime := w2.toNat, w0 := w0, copied := !src.described, arriving := src.described }

/-- Checks 1 to 3 of R227 for the receiver of ROUTE 2: a final disposition, or 0. -/
def State.dfnCheck (s : State) (w0 w1 : Word) (denied stale : Bool) : Nat :=
  let two := bits w0.toNat 37 2 = 2
  let dfn := bits w1.toNat 22 9
  if two && s.fnState dfn = 3 then 6
  else if denied || (two && (s.fnState dfn = 0 || s.fnState dfn = 1)) then 9
  else if stale || (two && bits w1.toNat 14 8 ≠ s.inc dfn) then 7
  else 0

/-- Submit a checked descriptor: a refusal is written back at once, an accepted frame shows DEFERRED (R227). Where the
submitter's and the receiver's incarnation are both stale, the submitter's drop alone is counted. `bad`: the data words that
read uncorrectable. Nothing is written back to a descriptor of a function under reset (R238).
(DEDUCED, log entry 49; DESIGN CHOICE, log entry 100) -/
def submitDesc (src : FSrc) (chg : Nat) (w0 w1 w2 : Word) (bytes : List Byte) (denied stale : Bool) (bad : List Nat) (s : State) :
    State :=
  let d := s.dfnCheck w0 w1 denied stale
  let dfn := bits w1.toNat 22 9
  if !denied && s.fnState chg = 3 then
    (match src with
      | .ring r _ _ => moveHead r s
      | _ => s)
  else if d ≠ 0 then
    finalW0 src w0 d 0 (if d = 6 then s.bump F.fnCnt_ABANDON dfn
      else if d = 7 then s.bump F.fnCnt_STALE (if stale then chg else dfn) else s)
  else
    let s := writeW0 src (setW0 w0 0 1 0) s
    let r := submitFrame (descFrame src chg w0 w2 bytes bad) (bits w0.toNat 37 2) (bits w1.toNat 22 9) (bits w1.toNat 0 12)
      (w0.getLsbD 35) s
    if r.1 = 1 then r.2 else finalW0 src w0 r.1 0 r.2

/-- Read words of a loft as the yard does: the words, the numbers of those that were uncorrectable, and the state. -/
def readLoft (n a : Nat) (len : Nat) (s : State) : List Word × List Nat × State :=
  (List.range len).foldl (fun (x : List Word × List Nat × State) k =>
    let r := memRead (loftPlace n (a + k)) x.2.2
    (x.1 ++ [r.1.word], if r.1.bad then x.2.1 ++ [k] else x.2.1, r.2)) ([], [], s)

/-- Words `a` to `a + len - 1` of a loft lie in banks that function `f` owns and that are not being handed over (R140,
R227). -/
def State.ownsLoft (s : State) (f n a len : Nat) : Bool :=
  a + len ≤ 65536 && (List.range len).all fun k =>
    s.bankOwner n (a + k) == f && Tab.get 0 (s.st n).xfer ((a + k) / 4096) == 0 && !loftReserved (a + k)

/-- A transfer of function `f` waits at the banks that drain towards it (R140).
(DEDUCED, log entry 33) -/
def awaitBanks (f n a len : Nat) (s : State) : State :=
  (List.range 16).foldl (fun s b =>
    if 4096 * b < a + len && a < 4096 * (b + 1) && Tab.get 0 (s.st n).xfer b == f + 1 then endDrain n b s else s) s

/-- The stable port takes the descriptor at own-loft word `a` of stable `n`, for function `f`; a refused transfer is counted
and reads nothing (R137, R226, R227). Of several causes the first of R18 shows: an uncorrectable word is POISONED where the
words that can be read show no refusal before it. -/
def stableSubmit (n a f inc : Nat) (s : State) : State :=
  if inc ≠ s.inc f then s.bump F.fnCnt_STALE f
  else if s.fnState f = 3 then s
  else
    let s := awaitBanks f n a 4 s
    let src := FSrc.eng n a f inc
    let refuse := fun (w : Nat → Word) (s : State) => submitDesc src f (w 0) (w 1) (w 2) [] true false [] (countDeny n s)
    if !s.ownsLoft f n a 4 then refuse (fun k => Stored.data (s.raw (loftPlace n (a + k)))) s
    else
      let (ws, bad, s) := readLoft n a 4 s
      let w := fun k => if bad.contains k then 0 else ws.getD k 0
      let len := bits (w 0).toNat 21 14
      let buf := bits (w 3).toNat 0 16
      let words := (len + 5) / 6
      let named := !bad.contains 0 && !bad.contains 3
      let s := if named then awaitBanks f n buf words s else s
      if named && !s.ownsLoft f n buf words then refuse w s
      else if bad ≠ [] then
        if bad.contains 0 || bad.contains 1 || s.dfnCheck (w 0) (w 1) false false = 0 then finalW0 src (ws.getD 0 0) 8 0 s
        else submitDesc src f (w 0) (w 1) (w 2) [] false false [] s
      else
        let (ds, bad, s) := readLoft n buf words s
        submitDesc src f (w 0) (w 1) (w 2) ((ds.flatMap wordBytes).take len) false false bad s

/-! ### The queues of YD.SUB (R219, R226) -/

def State.subs (s : State) (n : Nat) : List SubEnt := Tab.get [] s.yard.subQ n
def State.setSubs (s : State) (n : Nat) (q : List SubEnt) : State :=
  { s with yard := { s.yard with subQ := Tab.set [] s.yard.subQ n q } }

/-- The frame that stable port 12 + `j` carries now: one whose copy into the buffer has not ended (R219, R227). -/
def State.subFrame (s : State) (j : Nat) : Option Nat :=
  (s.yard.frames.find? fun e => e.2.any fun x => !x.copied && match x.src with
    | .eng n _ _ _ => n / 4 == j
    | _ => false).map (·.1)

/-- A stable port without a frame under way serves its four stables in turn, one descriptor at a time (R219, R226).
(DEDUCED, log entry 49) -/
def serveSub (j : Nat) : Nat → State → State
  | 0, s => s
  | k + 1, s =>
    if (s.subFrame j).isSome then s
    else match ((List.range 4).map fun i => 4 * j + (Tab.get 0 s.yard.subNext j + i) % 4).find? fun n => s.subs n != [] with
      | none => s
      | some n => match s.subs n with
        | [] => s
        | e :: rest =>
          let s := s.setSubs n rest
          serveSub j k (stableSubmit n e.a e.f e.inc { s with yard := { s.yard with subNext := Tab.set 0 s.yard.subNext j ((n + 1) % 4) } })

/-- Every stable port goes on with the descriptors that wait. -/
def serveSubs (s : State) : State :=
  (List.range 4).foldl (fun s j => serveSub j ((List.range 4).map fun i => (s.subs (4 * j + i)).length).sum s) s

/-- Take a frame out of every queue that holds it. -/
def unqueue (id : Nat) (s : State) : State :=
  let y := s.yard
  let had := (List.range 12).filter fun p => (List.range 8).any (fun c => (s.queue p c).any (·.id == id)) || (s.launchQ p).any (·.id == id)
  let cut := fun (t : Tab (List QEnt)) => t.foldl (fun t e => Tab.set [] t e.1 (e.2.filter fun x => x.id ≠ id)) t
  let due := y.due.foldl (fun t e => if e.2 = id + 1 then Tab.set 0 t e.1 0 else t) y.due
  had.foldl (fun s p => touchIdle p s) { s with yard := { y with queues := cut y.queues, launch := cut y.launch, due := due } }

/-- A frame's cells are freed and its queued copies are gone; the frame is forgotten but for the copies that ports are
sending, whose next byte is never in the buffer (R197, R227). -/
def dropCopies (id : Nat) (x : YFrame) (s : State) : State :=
  let s := unqueue id (freeCells x.cells s)
  let k := s.sendingCopies id
  s.setFrame id (if k = 0 then none else some { x with cells := 0, left := k, copied := true, arriving := true, closed := true })

/-- The copy of a submitted frame into the buffer ends: CPY is set, or the frame is POISONED (R227); the stable port goes on.
A frame of a function that has been reset is written back nowhere (R238). -/
def copyComplete (id : Nat) (s : State) : State :=
  match s.frame id with
  | none => serveSubs s
  | some f =>
    if f.copied || !f.src.described then s
    else if f.pois then
      serveSubs (dropCopies id f (if f.owes then finalW0 f.src f.w0 8 0 s else s))
    else
      let s := s.setFrame id (some { f with copied := true, arriving := false })
      serveSubs (if f.owes then writeW0 f.src (setW0 f.w0 0 1 1) s else s)

/-- A write to a full queue waits at the interconnect until the stable port has taken an entry from it (R226).
(DESIGN CHOICE, log entry 88) -/
def subRoom (n : Nat) : Nat → State → State
  | 0, s => s
  | k + 1, s => if (s.subs n).length < 32 then s
    else match s.subFrame (n / 4) with
      | some id => subRoom n k (copyComplete id s)
      | none => subRoom n k (serveSubs s)

/-- Writing YD.SUB[n] (R226): open to the engines of stable `n`. -/
def writeSub (w : Who) (n a : Nat) (s : State) : Ans :=
  match w with
  | .engine e =>
    if e.val / 8 = n then
      let s := subRoom n 128 s
      { st := serveSubs (s.setSubs n (s.subs n ++ [⟨a, s.engFn e, if (s.e e).tv then (s.e e).inc else s.inc 0⟩])) }
    else denied s 1
  | _ => denied s 1

/-- A descriptor that the host ring r brings (R227, R229).
(DEDUCED, log entry 50) -/
def ringSubmit (r k : Nat) (d : HostDesc) (s : State) : State :=
  let f := bits d.w1.toNat 39 9
  let len := bits d.w0.toNat 21 14
  let bound := s.fnState f ≠ 0 && s.vfOf f == r
  submitDesc (.ring r k f) f d.w0 d.w1 d.w2 (d.data.take len ++ List.replicate (len - d.data.length) 0) (!bound)
    (bits d.w1.toNat 31 8 ≠ s.inc f) [] s

/-- The access comes from PCIe function `r`. -/
def isPcie (w : Who) (r : Nat) : Bool :=
  match w with
  | .pf => r == 0
  | .vf k => k.val + 1 == r
  | _ => false

/-- Software advances TAIL of host transmit ring `r`, and the yard takes the descriptors up to it (R229).
(DEDUCED, log entry 50) -/
def writeHtxTail (r tail : Nat) (ds : List HostDesc) (s : State) : State :=
  let logn := s.fld F.ydHtxptr_LOGN r
  if logn = 0 then s.put F.ydHtxptr_TAIL tail r
  else
    let size := 2 ^ logn
    let s := s.put F.ydHtxptr_TAIL tail r
    let first := Tab.get 0 s.yard.htxNext r
    let n := min ds.length ((tail + size - first % size) % size)
    (List.range n).foldl (fun s i =>
      let k := (first + i) % size
      let s := { s with yard := { s.yard with htxNext := Tab.set 0 s.yard.htxNext r ((k + 1) % size) } }
      match ds[i]? with
      | some d => ringSubmit r k d s
      | none => s) s

/-- Software advances TAIL of host receive ring `r`, with the buffers it supplies (R229).
(DEDUCED, log entry 50) -/
def writeHrxTail (r tail : Nat) (bufs : List Word) (s : State) : State :=
  let s := s.put F.ydHrxptr_TAIL tail r
  { s with yard := { s.yard with hrx := Tab.set [] s.yard.hrx r (Tab.get [] s.yard.hrx r ++ bufs) } }

/-- The final disposition of a frame none of whose copies is left (R227). -/
def YFrame.final (f : YFrame) : Nat :=
  match f.disp with
  | some d => d
  | none => if f.sent then 0 else if f.gone then 5 else if f.pushed then 10 else 0

/-- The yard writes the final disposition back (R227).
(DEDUCED, log entry 49) -/
def writeback (id : Nat) (s : State) : State :=
  match s.frame id with
  | none => s
  | some f => if f.left ≠ 0 || !f.owes then s
      else finalW0 f.src f.w0 f.final (b2n f.copied) (s.setFrame id none)

/-! ### Delivery (R228, R229) -/

/-- The entry that a stable port or the host port gives next: strict priority among the heads that fit their open gate (R232,
R236). -/
def State.nextOf (s : State) (p : Nat) : Option (Nat × QEnt) :=
  (List.range 8).reverse.findSome? fun c => match (s.queue p c).head? with
    | some q => match s.frame q.id with
      | some x => if s.gateFits p c (s.egressLen p x) then some (c, q) else none
      | none => none
    | none => none

/-- Discard the heads of a port's queues that no longer fit their list (R236). -/
def dropUnfit (p : Nat) (s : State) : State :=
  (List.range 8).foldl (fun s c =>
    match (s.queue p c).head? with
    | some q => match s.frame q.id with
      | some x => if s.neverFits p c (s.egressLen p x) then
          copyDone q.id .gone (touchIdle p ((s.setQueue p c ((s.queue p c).drop 1)).bump F.ydPcnt_GDROP p)) else s
      | none => s
    | none => s) s

/-- A frame's bytes as its lanes read (R144, R220). -/
def YFrame.read (x : YFrame) : List Byte :=
  if x.lanes = [] then x.bytes
  else (List.range x.bytes.length).map fun b => BitVec.ofNat 8 (bits (readCode (x.lane (laneOf b))).word.toNat (40 - 8 * (b % 128 % 6)) 8)

/-- The lanes of a stored frame are read: what they show is counted (R144). -/
def readCells (id : Nat) (x : YFrame) (s : State) : State :=
  x.lanes.foldl (fun s e => (memRead (.cell id e.1) s).2) s

/-- Word `i` of a delivered frame comes from a lane that is uncorrectable (R145). -/
def YFrame.badWord (x : YFrame) (i : Nat) : Bool :=
  (List.range 6).any fun k => 6 * i + k < x.bytes.length && (readCode (x.lane (laneOf (6 * i + k)))).bad

/-- The slot of a loft pool that a frame takes, round-robin past those that firmware still owns; a slot whose word 0 is
uncorrectable counts as owned, and one whose bank is not the function's is not read: the delivery to it is DENIED (R137, R144,
R228).
(DEDUCED, log entry 33; DESIGN CHOICE, log entry 102) -/
def freeSlot (f : Nat) (s : State) : Option Nat × State :=
  let n := s.fld F.ydFrx0_NSLOT f
  let k0 := Tab.get 0 s.yard.poolNext f
  (List.range n).foldl (fun (r : Option Nat × State) i => match r.1 with
    | some _ => r
    | none =>
      let k := (k0 + i) % n
      let m := r.2.fld F.ydFrx0_STBL f
      let a := r.2.fld F.ydFrx0_BASE f + 64 * r.2.fld F.ydFrx0_SLOTW f * k
      let s := awaitBanks f m a 1 r.2
      if !s.ownsLoft f m a 1 then (some k, s)
      else
        let x := memRead (loftPlace m a) s
        (if x.1.bad || x.1.word.getLsbD 47 then none else some k, x.2)) (none, s)

/-- The header of a slot (R228). -/
def slotHeader (x : YFrame) (bytes : List Byte) (own : Nat) : List Word :=
  [wd (own * 2 ^ 47 + bytes.length * 2 ^ 33 + x.src.ingress * 2 ^ 28 + x.cls * 2 ^ 25 + x.vid * 2 ^ 13 + b2n (hasTag x.bytes) * 2 ^ 12
    + b2n x.wake * 2 ^ 11), wd x.ts.sec, wd x.ts.nsf]

/-- The task that a delivered frame brings its function (R228). -/
def State.deliverTask (s : State) (f : Nat) (x : YFrame) (len word : Nat) : Task :=
  { w0 := wd (f * 2 ^ 39 + s.inc f * 2 ^ 31 + s.fld F.ydFrx1_U f * 2 ^ 29 + s.fld F.ydFrx1_MIG f * 2 ^ 28 + s.fld F.ydFrx1_EST f * 2 ^ 16
      + s.fld F.ydFrx1_ENTRY f)
    w1 := wd (x.cls * 2 ^ 35 + x.src.ingress * 2 ^ 30 + len * 2 ^ 16 + word % 2 ^ 16) }

/-- Write frame word `i` of a delivered frame, with the write's disposition: poisoned where its lanes are (R145), the last word
in part where the frame ends within it (R147).
(DEDUCED, log entry 104) -/
def writeFrameWord (n base : Nat) (x : YFrame) (bytes : List Byte) (i : Nat) (s : State) : Nat × State :=
  let a := loftPlace n (base + 3 + i)
  let w := (packWords bytes).getD i 0
  let have_ := bytes.length - 6 * i
  if x.badWord i then (0, s.setRaw a (poisonW w))
  else if have_ ≥ 6 then (0, memWrite a w s)
  else memMerge a (BitVec.ofNat 8 (2 ^ 6 - 2 ^ (6 - have_))) (w.setWidth 64) s

/-- Delivery into a loft pool (R228), with the disposition that its writes met (R137, R147): 0, 8 POISONED or 9 DENIED.
(DEDUCED, log entry 104; DESIGN CHOICE, log entry 102) -/
def deliverLoft (f : Nat) (x : YFrame) (bytes : List Byte) (s : State) : Nat × State :=
  let n := s.fld F.ydFrx0_STBL f
  let size := 64 * s.fld F.ydFrx0_SLOTW f
  let words := (packWords bytes).length
  let (slot, s) := freeSlot f s
  match slot with
  | none => (0, s.bump F.ydFrx2_NOSLOT f)
  | some k =>
    let base := s.fld F.ydFrx0_BASE f + size * k
    let deny := fun (s : State) => (9, countDeny n (s.bump F.ydFrx2_DENY f))
    if !s.ownsLoft f n base 1 then deny s
    else if 3 + words > size then (0, s.bump F.ydFrx2_TOOBIG f)
    else
      let s := awaitBanks f n base (3 + words) s
      if !(s.ownsLoft f n base (3 + words) && (List.range (3 + words)).all fun i => !s.inpassWord n (base + i)) then deny s
      else
        let s := { s with yard := { s.yard with poolNext := Tab.set 0 s.yard.poolNext f ((k + 1) % s.fld F.ydFrx0_NSLOT f) } }
        let (d, s) := (List.range words).foldl (fun r i =>
          let y := writeFrameWord n base x bytes i r.2
          (max r.1 y.1, y.2)) ((0, s) : Nat × State)
        let s := (List.range 3).foldl (fun s i => memWrite (loftPlace n (base + i)) ((slotHeader x bytes 1).getD i 0) s) s
        match s.leastBusy (enginesOf n) with
        | none => (d, s)
        | some e =>
          let r := pushTo e (s.deliverTask f x bytes.length (base + 3)) s
          if r.1 = 0 then (d, r.2)
          else (d, memWrite (loftPlace n base) ((slotHeader x bytes 0).getD 0 0) (r.2.bump F.ydFrx2_TASKREF f))

/-- Delivery into a host receive ring (R229). -/
def deliverHost (f : Nat) (x : YFrame) (bytes : List Byte) (s : State) : State :=
  let r := s.fld F.ydFrx0_STBL f
  let logn := s.fld F.ydHrxptr_LOGN r
  let h := s.fld F.ydHrxptr_HEAD r
  if !s.host.pcieUp || logn = 0 || h = s.fld F.ydHrxptr_TAIL r then s.bump F.ydFrx2_NOSLOT f
  else if bytes.length > s.fld F.ydHrxptr_BUFSZ r then s.bump F.ydFrx2_TOOBIG f
  else
    let bufs := Tab.get [] s.yard.hrx r
    let s := { s with yard := { s.yard with hrx := Tab.set [] s.yard.hrx r (bufs.drop 1) } }
    let s := s.emit (.dma r h (slotHeader x bytes 1 ++ [bufs.headD 0] ++ packWords bytes))
    ringMessage (128 * r + 2) (s.put F.ydHrxptr_HEAD ((h + 1) % 2 ^ logn) r)

/-- A frame for function `f` has arrived whole: it is written to the function's pool, or dropped (R228); the disposition that
this means for a sender that waits. -/
def deliver (f : Nat) (mark : Bool) (x : YFrame) (s : State) : Nat × State :=
  if x.ctBad then (0, s)
  else if s.fnState f ≠ 2 then (0, s.bump F.ydFrx2_TASKREF f)
  else
    let bytes := if mark then markFrame x.read else x.read
    match s.poolKind f with
    | 1 => deliverLoft f x bytes s
    | 2 => (0, deliverHost f x bytes s)
    | _ => (0, s.bump F.ydFrx2_NOSLOT f)

/-- A descriptor that asks for delivery to one function (ROUTE 2) waits for that delivery's disposition (R225). -/
def YFrame.awaits (x : YFrame) : Bool := x.src.described && bits x.w0.toNat 37 2 == 2

/-- The first disposition that a frame's delivery met is kept for its sender. -/
def noteDisp (id d : Nat) (s : State) : State :=
  match s.frame id with
  | some x => if x.disp.isSome then s else s.setFrame id (some { x with disp := some d })
  | none => s

/-- The next frame of a stable port or of the host port is delivered (R228, R232).
(DESIGN CHOICE, log entry 102) -/
def frameDeliver (id f : Nat) (s : State) : State :=
  let s := [12, 13, 14, 15, 16].foldl (fun s p => dropUnfit p s) s
  match [12, 13, 14, 15, 16].findSome? fun p => match s.nextOf p with
      | some (c, q) => if q.id = id && q.f == some f then some (p, c, q) else none
      | none => none with
  | none => s
  | some (p, c, q) =>
    match s.frame id with
    | none => s
    | some x =>
      if x.arriving then s
      else
        let s := s.setQueue p c ((s.queue p c).drop 1)
        let st := s.fnState f
        let s := if st = 3 then (if x.src.described then s.bump F.fnCnt_ABANDON f else s).setFrame id (some { x with disp := some 6 })
          else if st = 0 || st = 1 then s.setFrame id (some { x with disp := some 9 })
          else if x.lanes.any fun e => (readCode e.2).bad then s.setFrame id (some { x with disp := some 8 }) else s
        let r := deliver f q.mark x (readCells id x s)
        copyDone id .sent (if r.1 ≠ 0 && x.awaits then noteDisp id r.1 r.2 else r.2)

/-! ### Gate cycles (R235) -/

/-- A gate cycle begins: a pending list starts at the first cycle start of its own schedule, unless a cycle of the operating
list starts before; the operating list begins again (R235). -/
def gateCycle (p : Nat) (s : State) : State :=
  let x := s.gateS p
  let again := nextCycle x.base x.cyc (s.nsNow x.dom + 1) * 2 ^ 32
  let runs := x.oper != [] && x.cyc != 0
  let dom := s.fld F.ydGctl_GDOM p
  let first := s.firstCycle p * 2 ^ 32
  if s.on F.ydGctl_PEND p && !(runs && s.ticksTo x.dom again < s.ticksTo dom first) then
    let s := passUntil dom first s
    gateEnter p 0 (((s.put F.ydGctl_PEND 0 p).put F.ydGctl_OPER 1 p).setGate p
      { s.gateS p with oper := s.gclOf p, base := s.fld F.ydGbase0_SEC p * 1000000000 + s.fld F.ydGbase1_NS p
                       cyc := s.fld F.ydGcyc_CYC p, dom := dom })
  else if runs then gateEnter p 0 (passUntil x.dom again s)
  else s

/-- An entry's interval ends and the next takes effect; the last one holds to the end of the cycle. -/
def gateChange (p : Nat) (s : State) : State :=
  let x := s.gateS p
  let segs := gateSegs x.oper 0 x.cyc
  if x.idx + 1 ≥ segs.length then s
  else
    let s := passUntil x.dom ((s.nsNow x.dom + ((segs.getD x.idx (0, 0, 0)).2.1 - s.gatePos x)) * 2 ^ 32) s
    gateEnter p (x.idx + 1) s

/-- The fields of a port's gate list. -/
def gateFlds : List Fld := [F.ydGctl_EN, F.ydGctl_GDOM, F.ydGctl_LEN, F.ydGbase0_SEC, F.ydGbase1_NS, F.ydGcyc_CYC]

/-- A committed list waits for its first cycle; with EN 0 every gate is open (R235). -/
def commitGates (old : State) (p : Nat) (s : State) : State :=
  let ch := gateFlds.any (fun f => s.fld f p ≠ old.fld f p) || s.gclOf p ≠ old.gclOf p
  if !ch then s
  else if s.on F.ydGctl_EN p then s.put F.ydGctl_PEND 1 p
  else ((s.put F.ydGctl_PEND 0 p).put F.ydGctl_OPER 0 p).setGate p {}

/-- The captured YD set becomes active. -/
def activateYd (s : State) : State :=
  let t := activate .yd s
  (List.range 17).foldl (fun t p => commitGates s p t) t

/-! ### Launch queues (R256) -/

/-- A counter's time as a launch time: nanoseconds modulo 2^48.
(DEDUCED, log entry 59) -/
def State.launchNow (s : State) (n : Nat) : Nat := s.nsNow (s.fld F.epCfg0_TSDOM n) % 2 ^ 48

/-- The head of a launch queue becomes eligible at LTIME, or is late (R256).
(DEDUCED, log entry 59) -/
def launchEligible (n : Nat) (s : State) : State :=
  match s.launchQ n with
  | [] => s
  | q :: _ =>
    match s.frame q.id with
    | none => s
    | some x =>
      if Tab.get 0 s.yard.due n ≠ 0 then s
      else
        let d := sdiff 48 (s.launchNow n) x.ltime
        let dom := s.fld F.epCfg0_TSDOM n
        let s := passUntil dom (((s.nsNow dom : Int) - d).toNat * 2 ^ 32) s
        let s := if d > 0 then (s.bump F.tmLq_LATE n).put F.tmEvt_LQLATE 1 else s
        { s with yard := { s.yard with due := Tab.set 0 s.yard.due n (q.id + 1) } }

end Sys2Proof.Machine
end

