-- ==== Sys2Proof/Machine/Can.lean ====
section
/-! DEFINITION. The CAN FD controllers: buffers, frames, filters, fault confinement (chapter 15). -/

namespace Sys2Proof.Machine

/-- CFG0.MODE as it stands for the controller's own frames: a reserved code acts as the applied image's (R16). -/
def State.canCfgMode (s : State) (n : Nat) : Nat := s.eff F.canCfg0_MODE (· ≥ 5) n

/-- MODE of a controller as it acts: bus monitoring in a unit of a pair that does not drive, once a frame already on the
bus has ended, and until the next frame start point of one that has begun to drive (R280, R318).
(DEDUCED, log entry 62) -/
def State.canMode (s : State) (n : Nat) : Nat :=
  if (s.cn n).mon || (s.on F.twCfg0_EN && (s.fld F.twCfg0_CANMASK).testBit n && !s.driving && (s.cn n).bus.isNone) then 2
  else s.canCfgMode n

/-- A frame start point, or what the end of a frame brings next: the mode of CFG0 applies (R318).
(DEDUCED, log entry 62) -/
def canMonEnd (n : Nat) (s : State) : State := if (s.cn n).mon then s.setCn n { s.cn n with mon := false } else s

/-- TXD of a controller: undriven, held recessive, or carrying what the controller sends. -/
inductive CanTxd
  | undriven | recessive | driven
  deriving DecidableEq, Repr

/-- TXD of controller `n` (R29, R280, R373). -/
def State.canTxd (s : State) (n : Nat) : CanTxd :=
  if s.column ≠ .running then .undriven
  else if s.canMode n = 1 ∨ s.canMode n = 3 then .driven else .recessive

/-- Send on TXD, where the controller drives it. -/
def canSend (n : Nat) (o : Out) (s : State) : State := if s.canTxd n = .driven then s.emit o else s

/-- The controller takes part on the bus: integrated and not bus-off. -/
def State.canOn (s : State) (n : Nat) : Bool :=
  s.applied && s.canMode n != 0 && s.on F.canStat_SYNCD n && s.fld F.canStat_FCS n != 2

/-- Who may use a controller's registers (R292). -/
def State.mayCan (s : State) (w : Who) (n : Nat) : Bool := s.supervisor w || s.actsFor w (s.fld F.canCfg0_OWNER n)

/-- TK at the sample point of a start-of-frame bit that begins now: 1 + TSEG1 quanta of BRP × 5 ns later (R281, R284). -/
def State.sofTk (s : State) (n : Nat) : Nat :=
  (s.tk + (s.fld F.canNbt_NBRP n + 1) * (s.fld F.canNbt_NTSEG1 n + 2) * 5 / 4) % 2 ^ 32

/-- Bytes of data that a DLC stands for. -/
def dlcBytes (fdf : Bool) (dlc : Nat) : Nat :=
  if fdf then [0, 1, 2, 3, 4, 5, 6, 7, 8, 12, 16, 20, 24, 32, 48, 64].getD dlc 64 else min dlc 8

/-- A buffer's place in bus arbitration: its arbitration field, recessive bits last (R284). -/
def State.canKey (s : State) (n k : Nat) : Nat :=
  let id := s.fld F.canTxHdr_ID n k
  let rtr := if s.on F.canTxHdr_FDF n k then 0 else s.fld F.canTxHdr_RTR n k
  let base := id / 2 ^ 18
  if s.on F.canTxHdr_IDE n k then base * 2 ^ 21 + 2 ^ 20 + 2 ^ 19 + id % 2 ^ 18 * 2 + rtr else base * 2 ^ 21 + rtr * 2 ^ 20

/-- The buffer that a start point chooses (R284). -/
def State.canChoice (s : State) (n : Nat) : Option Nat :=
  let ks := (List.range 3).filter fun k => s.on F.canTxCtl_TXREQ n k
  if s.on F.canCfg0_TXORD n then ks.head?
  else ks.foldl (fun b k => match b with
    | none => some k
    | some b => if s.canKey n k < s.canKey n b then some k else some b) none

/-- Raise IRQ4 in the controller's engine (R292). -/
def canIrq (n : Nat) (s : State) : State := hwIrq (s.fld F.canCfg0_IRQENG n) 4 s

/-- Set TXREQ of a buffer (R284). -/
def canRequest (n k : Nat) (s : State) : State :=
  if s.on F.canTxCtl_TXREQ n k then s
  else ((s.put F.canTxCtl_TXREQ 1 n k).put F.canTxCtl_SENT 0 n k).put F.canTxCtl_ABTD 0 n k

/-- Withdraw a buffer's request (R285).
(DEDUCED, log entry 62) -/
def canAbort (n k : Nat) (s : State) : State :=
  if !s.on F.canTxCtl_TXREQ n k then s
  else
    let s := s.put F.canTxCtl_ABTD 1 n k
    if (s.cn n).bus = some k then s.setCn n { s.cn n with abort := true } else s.put F.canTxCtl_TXREQ 0 n k

/-- Write a buffer's HDR (`j` 0) or DATA[j − 1]; ignored with TXBUSY while its TXREQ reads 1 (R285). -/
def canBufWrite (n k j : Nat) (v : Word) (s : State) : State :=
  if s.on F.canTxCtl_TXREQ n k then s.put F.canEvt_TXBUSY 1 n
  else if j = 0 then
    [F.canTxHdr_IDE, F.canTxHdr_RTR, F.canTxHdr_FDF, F.canTxHdr_BRS, F.canTxHdr_DLC, F.canTxHdr_ID].foldl
      (fun s f => s.put f (bits v.toNat f.lo f.width) n k) s
  else s.put F.canTxData_DATA v.toNat n (11 * k + (j - 1))

/-- A start point: the controller chooses a buffer and its frame starts (R284). -/
def canStart (n : Nat) (s : State) : State :=
  let s := canMonEnd n s
  let m := s.canMode n
  if !s.canOn n || !(m == 1 || m == 3 || m == 4) || (s.cn n).bus.isSome then s
  else match s.canChoice n with
    | none => s
    | some k => s.setCn n { s.cn n with bus := some k, sof := s.sofTk n, abort := false }

/-- The six-byte words of a frame's data, zero beyond its length (R289). -/
def canWords (bs : List Byte) : List Word := let w := packWords bs; w ++ List.replicate (11 - w.length) 0

/-- Filter `i` matches the frame (R286). -/
def State.canMatch (s : State) (n : Nat) (fr : CanFrame) (ident i : Nat) : Bool :=
  s.on F.canFltA_EN n i && s.on F.canFltA_IDE n i == fr.ide
    && (ident ^^^ s.fld F.canFltA_ID n i) &&& s.fld F.canFltB_MASK n i == 0

/-- Store a frame in the FIFO (R287). -/
def canFifo (n : Nat) (x : CanRx) (s : State) : State :=
  if (s.cn n).fifo.length ≥ 64 then (s.bump F.canCnt_RXOVR n).put F.canEvt_RXOVR 1 n
  else canIrq n ((s.setCn n { s.cn n with fifo := (s.cn n).fifo ++ [x] }).put F.canEvt_RXF 1 n)

/-- Store a frame in receive buffer `j` (R288). -/
def canBuf (n j : Nat) (x : CanRx) (s : State) : State :=
  let s := [F.canRxbHdr_IDE, F.canRxbHdr_RTR, F.canRxbHdr_FDF, F.canRxbHdr_BRS, F.canRxbHdr_ESI, F.canRxbHdr_DLC, F.canRxbHdr_FIDX,
    F.canRxbHdr_ID].foldl (fun s f => s.put f (bits x.hdr.toNat f.lo f.width) n j) s
  let s := (List.range 11).foldl (fun s i => s.put F.canRxbData_DATA (x.data.getD i 0).toNat n (11 * j + i)) (s.put F.canRxbTs_TK x.ts n j)
  let s := if s.on F.canRxbStat_ND n j then s.put F.canRxbStat_OVW 1 n j else s
  canIrq n ((s.put F.canRxbStat_ND 1 n j).put F.canEvt_RXB 1 n)

/-- A valid frame meets the filters in ascending index (R286). -/
def canSort (n ts : Nat) (fr : CanFrame) (s : State) : State :=
  let ident := if fr.ide then fr.ident.val else fr.ident.val / 2 ^ 18 * 2 ^ 18
  let len := if fr.rtr && !fr.fdf then 0 else dlcBytes fr.fdf fr.dlc
  let entry := fun (i : Nat) => CanRx.mk
    (wd (b2n fr.ide * 2 ^ 47 + b2n (fr.rtr && !fr.fdf) * 2 ^ 46 + b2n fr.fdf * 2 ^ 45 + b2n (fr.brs && fr.fdf) * 2 ^ 44
      + b2n (fr.esi && fr.fdf) * 2 ^ 43 + fr.dlc * 2 ^ 39 + i * 2 ^ 32 + ident)) ts
    (canWords (fr.data.take len ++ List.replicate (len - fr.data.length) 0))
  match (List.range 128).find? fun i => s.canMatch n fr ident i with
  | none => if s.on F.canCfg0_NOMATCH n then canFifo n (entry 127) s else s.bump F.canCnt_NOMATCH n
  | some i =>
    match s.eff F.canFltA_DEST (· == 3) n i with
    | 0 => canFifo n (entry i) s
    | 1 => canBuf n (s.fld F.canFltA_RXB n i) (entry i) s
    | _ => s

/-- A frame is acknowledged or received: LONE clears (R291).
(PRESUMED, log entry 61) -/
def canHeard (n : Nat) (s : State) : State :=
  (s.setCn n { s.cn n with heard := true }).put F.canStat_LONE 0 n

/-- The frame on the bus has failed: its buffer is tried again at a later start point, unless its request was withdrawn
(R284, R285). -/
def canDrop (n : Nat) (s : State) : State :=
  let x := s.cn n
  match x.bus with
  | none => s
  | some k =>
    let t := s.setCn n { x with bus := none, abort := false }
    if x.abort then t.put F.canTxCtl_TXREQ 0 n k else t

/-- The fault confinement state follows the counters (R290).
(PRESUMED, log entry 61) -/
def canState (n tec : Nat) (s : State) : State :=
  let old := s.fld F.canStat_FCS n
  let new := if tec > 255 then 2 else if tec ≥ 128 ∨ s.fld F.canStat_REC n ≥ 128 then 1 else 0
  let s := (s.put F.canStat_TEC (min tec 255) n).put F.canStat_FCS new n
  let s := if (old = 1) ≠ (new = 1) then s.put F.canEvt_EPASS 1 n else s
  let s := if old ≠ 1 ∧ new = 1 then s.setCn n { s.cn n with heard := false, lone := false } else s
  if old ≠ 2 ∧ new = 2 then
    let s := ((s.put F.canEvt_BOFF 1 n).bump F.canCnt_BUSOFF n).put F.canStat_BOREC 0 n
    canDrop n s
  else s

/-- A frame was received without error: REC falls (ISO 11898-1); from above 127 it falls to a value from 119 to 127.
(PRESUMED, log entry 61) -/
def canGoodRx (n : Nat) (s : State) : State :=
  let rec_ := s.fld F.canStat_REC n
  let (k, s) := s.draw
  let v := if rec_ > 127 then 119 + (Config.choice k).toNat % 9 else rec_ - 1
  canState n (s.fld F.canStat_TEC n) (s.put F.canStat_REC v n)

/-- The frame in a buffer, as the bus carries it: FDF 1 makes it an FD data frame whatever RTR says, a base identifier
is bits 28:18, and the data words count up to the frame's length (R279, R289).
(DEDUCED, log entry 62) -/
def State.canFrameOf (s : State) (n k : Nat) : CanFrame :=
  let fdf := s.on F.canTxHdr_FDF n k
  let ide := s.on F.canTxHdr_IDE n k
  let rtr := s.on F.canTxHdr_RTR n k && !fdf
  let id := s.fld F.canTxHdr_ID n k
  let dlc := s.fld F.canTxHdr_DLC n k
  { ide := ide, rtr := rtr, fdf := fdf, brs := s.on F.canTxHdr_BRS n k && fdf
    esi := fdf && s.fld F.canStat_FCS n == 1, dlc := Fin.ofNat 16 dlc
    ident := Fin.ofNat 536870912 (if ide then id else id / 2 ^ 18 * 2 ^ 18)
    data := ((List.range 11).flatMap fun i => wordBytes (wd (s.fld F.canTxData_DATA n (11 * k + i)))).take
      (if rtr then 0 else dlcBytes fdf dlc) }

/-- The frame on the bus ends (R284, R285).
(DEDUCED, log entry 62) -/
def canEnd (n : Nat) (r : CanEnd) (s : State) : State :=
  let x := s.cn n
  match x.bus with
  | none => s
  | some k =>
    match r with
    | .success =>
      let fr := s.canFrameOf n k
      let t := (canSend n (.can n k fr) s).setCn n { x with bus := none, abort := false }
      let t := ((t.put F.canTxCtl_TXREQ 0 n k).put F.canTxCtl_SENT 1 n k).put F.canTxCtl_TXTS x.sof n k
      let t := canIrq n (canHeard n (t.put F.canEvt_TXDONE 1 n))
      let t := if s.canMode n = 3 then t else canState n (t.fld F.canStat_TEC n - 1) t
      if s.canMode n = 4 then canSort n x.sof fr t else t
    | _ => canDrop n s

/-- An error-passive transmitter's acknowledgement error: LONE at the first one with no frame acknowledged or received since
the controller became error passive (R291). -/
def canLone (n : Nat) (s : State) : State :=
  if (s.cn n).heard || (s.cn n).lone then s
  else ((s.setCn n { s.cn n with lone := true }).put F.canStat_LONE 1 n).put F.canEvt_LONE 1 n

/-- The counters after an error: a transmitter's adds 8 to TEC, but for an acknowledgement error while error passive and a stuff
error, which it meets in arbitration alone; a receiver's adds 1 to REC, and 8 more where a dominant bit follows its flag; in
MODE 3 they are frozen (R280, R290, R291). -/
def canCount (n m : Nat) (er : CanErr) (s : State) : State :=
  let tec := s.fld F.canStat_TEC n
  if er.tx && er.code.val = 3 && s.fld F.canStat_FCS n = 1 then canLone n s
  else if m = 3 || (er.tx && er.code.val = 1) then s
  else if er.tx then canState n (tec + 8) s
  else canState n tec (s.bump F.canStat_REC n 0 (if er.dominantAfterFlag then 9 else 1))

/-- A bus error (R290, R291).
(DESIGN CHOICE, log entry 4; PRESUMED, log entry 61) -/
def canErr (n : Nat) (er : CanErr) (s : State) : State :=
  let m := s.canMode n
  if !s.canOn n || m = 4 || er.code.val = 0 || er.code.val = 7 then s
  else
    let s := s.put (if er.dataPhase then F.canStat_DLEC else F.canStat_LEC) er.code n
    let s := if m = 1 then (canSend n (.canFlag n (s.fld F.canStat_FCS n == 0)) s).bump F.canCnt_ERRF n else s
    canMonEnd n (canCount n m er s)

/-- A recessive res bit: with PXE 1 the protocol exception event, after which the controller integrates again without an
error; with PXE 0 a form error (R279).
(DEDUCED, log entry 62) -/
def canRes (n : Nat) (s : State) : State :=
  if s.on F.canCfg0_PXE n then s.put F.canStat_SYNCD 0 n
  else canErr n { tx := false, dataPhase := false, code := 2, dominantAfterFlag := false } s

/-- A frame is received from the bus (R286).
(DEDUCED, log entry 62) -/
def canReceive (n : Nat) (fr : CanFrame) (s : State) : State :=
  let m := s.canMode n
  if !s.canOn n || m = 4 || (s.cn n).bus.isSome || (fr.fdf && !s.on F.canCfg0_FDOE n) then s
  else if fr.fdf && fr.res then canRes n s
  else
    let s := canSend n (.canAck n) (canHeard n s)
    let s := if m = 3 then s else canGoodRx n s
    canMonEnd n (canSort n (s.sofTk n) fr s)

/-- RXF.POP (R287). -/
def canPop (n : Nat) (s : State) : State := s.setCn n { s.cn n with fifo := (s.cn n).fifo.drop 1 }

/-- `k` more sequences of 11 recessive bits in bus-off; the 128th ends it (R290).
(PRESUMED, log entry 61) -/
def canRecover (n k : Nat) (s : State) : State :=
  let c := s.fld F.canStat_BOREC n + k
  if s.fld F.canStat_FCS n ≠ 2 || !s.on F.canStat_SYNCD n || s.canMode n = 0 then s
  else if c < 128 then s.put F.canStat_BOREC c n
  else
    let s := ((s.put F.canStat_FCS 0 n).put F.canStat_TEC 0 n).put F.canStat_REC 0 n
    (s.put F.canStat_BOREC 0 n).put F.canEvt_BOREC 1 n

/-- Eleven recessive bits: the controller takes part (R283). -/
def canIntegrate (n : Nat) (s : State) : State :=
  if s.applied && s.canMode n ≠ 0 then s.put F.canStat_SYNCD 1 n else s

/-- The captured set of CAN[n] becomes active at the end of a frame; a change of MODE, NBT or DBT ends participation
(R283). -/
def activateCan (n : Fin 4) (s : State) : State :=
  if (s.cn n).bus.isSome then s
  else
    let t := activate (.can n) s
    if t.canCfgMode n ≠ s.canCfgMode n || [F.canNbt_NBRP, F.canNbt_NTSEG1, F.canNbt_NTSEG2, F.canNbt_NSJW, F.canDbt_DBRP, F.canDbt_DTSEG1, F.canDbt_DTSEG2,
        F.canDbt_DSJW].any fun f => t.fld f n ≠ s.fld f n then
      (t.put F.canStat_SYNCD 0 n).put F.canStat_BOREC 0 n
    else t

/-- Withdraw every request of a controller (R292, R318). -/
def canWithdraw (n : Nat) (s : State) : State := (List.range 3).foldl (fun s k => canAbort n k s) s

/-- Step 5 of a reset of the owner (R292). -/
def canOwnerReset (f : Nat) (s : State) : State :=
  ((List.range 4).filter fun n => s.fld F.canCfg0_OWNER n == f).foldl (fun s n =>
    let s := canWithdraw n s
    let s := s.setCn n { s.cn n with fifo := [] }
    (List.range 16).foldl (fun s j => (s.put F.canRxbStat_ND 0 n j).put F.canRxbStat_OVW 0 n j) s) s

/-! ### Commands -/

/-- CAN_TX_REQUEST: TXB[k].CTL written with TXREQ. -/
def execCanTxRequest (w : Who) (n : Fin 4) (k : Fin 3) (s : State) : Host.Outcome State Fault Refusal :=
  done s (blockWrite w (·.mayCan w n) (canRequest n k) s)
/-- CAN_TX_ABORT: TXB[k].CTL written with TXABT. -/
def execCanTxAbort (w : Who) (n : Fin 4) (k : Fin 3) (s : State) : Host.Outcome State Fault Refusal :=
  done s (blockWrite w (·.mayCan w n) (canAbort n k) s)
/-- CAN_TX_BUFFER_WRITE. -/
def execCanTxBufferWrite (w : Who) (n : Fin 4) (k : Fin 3) (j : Fin 12) (v : Word) (s : State) : Host.Outcome State Fault Refusal :=
  done s (blockWrite w (·.mayCan w n) (canBufWrite n k j v) s)
/-- CAN_FRAME_START. -/
def execCanFrameStart (n : Fin 4) (s : State) : Host.Outcome State Fault Refusal := done s (canStart n s)
/-- CAN_FRAME_END. -/
def execCanFrameEnd (n : Fin 4) (r : CanEnd) (s : State) : Host.Outcome State Fault Refusal := done s (canEnd n r s)
/-- CAN_RECEIVE_FRAME. -/
def execCanReceiveFrame (n : Fin 4) (fr : CanFrame) (s : State) : Host.Outcome State Fault Refusal := done s (canReceive n fr s)
/-- CAN_FIFO_POP: RXF.POP written with POP 1. -/
def execCanFifoPop (w : Who) (n : Fin 4) (s : State) : Host.Outcome State Fault Refusal :=
  done s (blockWrite w (·.mayCan w n) (canPop n) s)
/-- CAN_ERROR. -/
def execCanError (n : Fin 4) (er : CanErr) (s : State) : Host.Outcome State Fault Refusal := done s (canErr n er s)
/-- CAN_BUS_OFF_RECOVERY. -/
def execCanBusOffRecovery (q : CanQuiet) (s : State) : Host.Outcome State Fault Refusal :=
  done s (canRecover q.ctl q.seqs s)
/-- CAN_INTEGRATE. -/
def execCanIntegrate (n : Fin 4) (s : State) : Host.Outcome State Fault Refusal := done s (canIntegrate n s)

end Sys2Proof.Machine
end

