-- ==== Sys2Proof/Machine/Paddock.lean ====
section
/-! DEFINITION. The Paddock bus: the schedule, reference messages, time masters, reception, spare slots (chapter 14). -/

namespace Sys2Proof.Machine

def State.pdRole (s : State) : Nat := if s.applied then s.eff F.pdCfg0_ROLE (· ≥ 6) else 0
def State.pdKind (s : State) (k : Nat) : Nat := s.eff F.pdSlotA_KIND (· ≥ 5) k

/-- The unit's Paddock slots are silent: a unit of a pair that does not drive them (R318). -/
def State.pdMuted (s : State) : Bool := s.on F.twCfg0_EN && s.on F.twCfg0_BGPD && !s.driving

/-- ROLE as the node acts: a follower while its slots are silent. -/
def State.pdActs (s : State) : Nat := if s.pdRole ≠ 0 && s.pdMuted then 1 else s.pdRole

/-- The node times its schedule by its own TC0: a master, or a lone master (R263, R270). -/
def State.pdOwnTime (s : State) : Bool := s.pdActs == 5 || s.on F.pdStat_ALONE

/-- The node has a schedule to work to. -/
def State.pdTimed (s : State) : Bool := s.pdRole != 0 && (s.pdOwnTime || s.on F.pdStat_ALIGN)

/-- The cycle number in which the next moment `ofs` ns after a cycle's start falls, and that moment: in TC0 ns, or in 125 ps
of the tick count for a node that follows reference messages (R262, R266). After a step of TC0 the schedule goes on with the
first cycle that starts after it (R278). -/
def State.pdNext (s : State) (ofs : Nat) : Nat × Int :=
  let cyc : Int := s.fld F.pdCfg0_CYC
  if s.pdOwnTime then
    let base : Int := (s.fld F.mgPh_PH : Int) - 5 * (s.fld F.pdCfg1_INSTOFS : Int)
    let k := max (-Int.fdiv (base + ofs - s.nsNow 0) cyc) (-Int.fdiv (base - s.pd.cutNs) cyc)
    ((k % 2 ^ 21).toNat, base + ofs + k * cyc)
  else
    let base := s.pd.anchor
    let n := max (max 0 (-Int.fdiv (base + 8 * ofs - (s.tick * 32 : Nat)) (8 * cyc)))
      (-Int.fdiv (base - (s.pd.cutTick * 32 : Nat)) (8 * cyc))
    (((s.pd.anchorK + n) % 2 ^ 21).toNat, base + 8 * ofs + n * 8 * cyc)

/-- Back-off cycles left in a slot (R271). -/
def State.pdLeft (s : State) (k : Nat) : Nat :=
  let cyc := s.fld F.pdCfg0_CYC / 4
  (Tab.get 0 s.pd.boff k - s.tick + cyc - 1) / cyc

/-- MODE of a node that is not backing off (R269, R270). -/
def State.pdMode (s : State) : Nat :=
  if s.pdRole = 0 then 0
  else if s.on F.pdStat_ALONE then 5
  else if s.pdActs = 5 then (if s.pd.started then 4 else 1)
  else if s.on F.pdStat_ALIGN then (if s.fld F.pdStat_MODE = 3 then 3 else 2) else 1

/-- Show MODE and BOFF: MODE reads 6 while a back-off lasts (R271).
(DESIGN CHOICE, log entry 107) -/
def pdShowMode (s : State) : State :=
  let left := (s.pd.boff.map fun e => s.pdLeft e.1).foldl max 0
  (s.put F.pdStat_BOFF left).put F.pdStat_MODE (if s.pd.boff = [] then s.pdMode else 6)

/-- The end of a cycle: what it brought is shown, and the next one begins (R268, registers of chapter 14). -/
def pdCycle (k : Nat) (s : State) : State :=
  if k = s.pd.cycle && !s.pd.cut then s
  else
    let d := s.pd
    let s := if d.refSeen then s else (s.bump F.pdCnt_REFMISS).put F.pdEvt_REFMISS 1
    let s := (s.put F.pdSeen_NODES (d.seen.toNat % 2 ^ 32) 0).put F.pdSeen_NODES (d.seen.toNat / 2 ^ 32) 1
    let s := (s.put F.pdStat_CHA (b2n d.chA)).put F.pdStat_CHB (b2n d.chB)
    let s := if d.chA != d.chB then s.put F.pdEvt_CHDOWN 1 else s
    let s := { s with rgn := (s.rgn.map fun (e : Nat × RgnS) => (e.1, { e.2 with slots := [] })).filter fun e => e.2 ≠ ({} : RgnS) }
    let s := { s with pd := { d with
      cycle := k, cut := false, refSeen := false, refSent := false, seen := 0, chA := false, chB := false, sentSlots := []
      refFrom := d.refFrom.filter fun n => decide (2 ^ 20 ≤ (k + 2 ^ 21 - n) % 2 ^ 21) } }
    pdShowMode (s.put F.pdStat_CNUM k)

/-- Time passes to the next moment `ofs` ns after a cycle's start; how long before the present tick it was, in 125 ps. -/
def pdPass (ofs : Nat) (s : State) : Nat × State :=
  let (k, t) := s.pdNext ofs
  if s.pdOwnTime then
    let u := passUntil 0 (t.toNat * 2 ^ 32) s
    (u.trimOf 0 (t.toNat * 2 ^ 32), pdCycle k u)
  else
    let u := passTo ((t.toNat + 31) / 32) s
    (u.tick * 32 - t.toNat, pdCycle k u)

/-- Time passes to the lead-in of slot `k`: the BCLK edge nearest the slot's start, which is answered, edge n lying 5 n ns
from the tick count's start (R263).
(DESIGN CHOICE, log entry 106) -/
def pdLead (k : Nat) (s : State) : Nat × State :=
  let (lag, u) := pdPass (5 * s.fld F.pdSlotA_START k) s
  let e := (u.tick * 32 + 20 - lag) / 40
  (e, passTo ((40 * e + 31) / 32) u)

/-- Show ALIGN.
(DEDUCED, log entry 60) -/
def pdAlign (on : Bool) (s : State) : State :=
  if s.on F.pdStat_ALIGN = on then s else (s.put F.pdStat_ALIGN (b2n on)).put F.pdEvt_ALIGNCHG 1

/-- The node may send data frames (R272). -/
def State.pdTxOk (s : State) : Bool :=
  s.pdOwnTime || (s.on F.pdStat_ALIGN && s.pd.theta.natAbs ≤ 100 * 65536)

/-- Show TXOK.
(DEDUCED, log entry 60) -/
def pdShow (s : State) : State := s.put F.pdStat_TXOK (b2n (s.pdRole != 0 && s.pdTxOk))

/-- Length of a slot's frame in bits (R261). -/
def State.pdBits (s : State) (k : Nat) : Nat := 176 + 48 * s.fld F.pdSlotA_LEN k

/-! ### Frames on the line (R261) -/

/-- A number's bits, the most significant first; and the number that such bits spell. -/
def natBits (w v : Nat) : List Bool := (List.range w).map fun i => v.testBit (w - 1 - i)
def bitsNat (bs : List Bool) : Nat := bs.foldl (fun n b => 2 * n + b2n b) 0

/-- The scrambler: out(n) = in(n) xor out(n − 39) xor out(n − 58); what has gone out comes with its last 58 bits.
(DESIGN CHOICE, log entry 106) -/
def scramble : List Bool → BitVec 58 → List Bool × BitVec 58
  | [], st => ([], st)
  | b :: rest, st =>
    let o := (b ^^ st.getLsbD 38) ^^ st.getLsbD 57
    let r := scramble rest ((st <<< 1) ||| BitVec.ofNat 58 (b2n o))
    (o :: r.1, r.2)

/-- The descrambler, right from the 59th bit on. -/
def descramble : List Bool → BitVec 58 → List Bool
  | [], _ => []
  | b :: rest, st => ((b ^^ st.getLsbD 38) ^^ st.getLsbD 57) :: descramble rest ((st <<< 1) ||| BitVec.ofNat 58 (b2n b))

/-- A frame's header and payload as received, and whether its CRC is good. -/
structure PdFrame where
  typ : Nat
  node : Nat
  slot : Nat
  len : Nat
  cnum : Nat
  payload : List Word
  crcOk : Bool
  deriving DecidableEq, Repr

/-- The CRC over the header and payload bytes (R261, R385). -/
def pdCrc (hdr : Nat) (ws : List Word) : Nat := crc32c ((wd hdr :: ws).flatMap wordBytes)

/-- The bits of a frame: lead-in, start pattern, header, payload and CRC. -/
def frameBits (typ node slot cnum : Nat) (ws : List Word) : List Bool :=
  let h := typ * 2 ^ 45 + node * 2 ^ 39 + slot * 2 ^ 29 + ws.length * 2 ^ 21 + cnum
  List.replicate 64 false ++ natBits 32 0xB4E21D6F ++ natBits 48 h ++ (ws.flatMap fun w => natBits 48 w.toNat) ++ natBits 32 (pdCrc h ws)

/-- The frame that the bits on a line carry, where its start pattern follows the lead-in. -/
def readFrame (line : List Bool) : Option PdFrame :=
  let d := descramble line 0
  let at_ := fun i n => bitsNat ((d.drop i).take n)
  if at_ 64 32 ≠ 0xB4E21D6F then none
  else
    let h := at_ 96 48
    let len := bits h 21 8
    let ws := (List.range len).map fun i => wd (at_ (144 + 48 * i) 48)
    some { typ := bits h 45 3, node := bits h 39 6, slot := bits h 29 10, len := len, cnum := bits h 0 21, payload := ws
           crcOk := d.length ≥ 176 + 48 * len && at_ (144 + 48 * len) 32 == pdCrc h ws }

/-! ### Sending (R263, R267, R269, R270, R273, R274) -/

/-- The reference message of the node: its payload at the timing point of a frame whose lead-in begins at BCLK edge `e`, 64
BCLK cycles later (R267). -/
def State.refPayload (s : State) (e rankf : Nat) : List Word :=
  let ahead : Int := (40 * (e + 64) : Nat) - (s.tick * 32 : Nat)
  let t := stampOf (Int.fdiv (s.total 0 * 32 + s.incOf 0 * ahead) (2 ^ 21))
  [wd t.sec, wd t.nsf, wd (s.fld F.pdCfg1_LOC * 2 ^ 30 + rankf * 2 ^ 27 + b2n (s.fld F.mgInstat_SYNC == 1) * 2 ^ 26)]

/-- The words that a slot carries from the front of its region; one that reads uncorrectable is sent as zero (R182, R274). -/
def slotWords (k : Nat) (s : State) : List Word × State :=
  let r := s.fld F.pdSlotB_RGN k
  (List.range (s.fld F.pdSlotA_LEN k)).foldl (fun (a : List Word × State) i =>
    let x := frontRead r (s.fld F.pdSlotB_WOFS k + i) a.2
    (a.1 ++ [if x.1.bad then 0 else x.1.word], x.2)) ([], s)

/-- Send a frame in a slot from BCLK edge `e` on, through the scrambler (R261, R263). -/
def pdEmit (k e typ : Nat) (ws : List Word) (s : State) : State :=
  let r := scramble (frameBits typ (s.fld F.pdCfg0_NODE) k s.pd.cycle ws) s.pd.scr
  { s.emit (.paddock e r.1) with
    pd := { s.pd with scr := r.2, sentSlots := k :: s.pd.sentSlots, refSent := s.pd.refSent || typ == 0 } }

/-- The node sends its reference message in slot `k` of KIND 1, or not (R263, R269, R270); a unit that has started to drive
from the next cycle on (R318). -/
def sendRef (k e : Nat) (s : State) : State :=
  let role := s.pdActs
  if s.pd.refFrom.isSome then s
  else if s.on F.pdStat_ALONE then
    if k = 0 && Tab.get 0 s.pd.boff 0 = 0 then pdEmit 0 e 0 (s.refPayload e 7) s else s
  else if role = 5 then
    if k = 0 && s.pd.started then pdEmit 0 e 0 (s.refPayload e 0) s else s
  else if 2 ≤ role && role ≤ 4 && k = role - 1 && s.on F.pdStat_ALIGN then
    if s.pd.refSeen then pdShowMode (s.put F.pdStat_MODE 2)
    else pdShowMode (pdEmit k e 0 (s.refPayload e (role - 1)) (s.put F.pdStat_MODE 3))
  else s

/-- A data frame, unless permission is wanting (R272). -/
def sendData (k e : Nat) (s : State) : State :=
  if !s.pdTxOk then s.bump F.pdCnt_TXINH
  else let (ws, s) := slotWords k s; pdEmit k e 1 ws s

/-- A claimant's spare slot (R273). -/
def sendClaim (k e : Nat) (s : State) : State :=
  if !s.on F.pdSlotA_CLAIM k then s
  else match s.fld F.pdSlotst_CLAIM k with
    | 0 => if s.pdTimed then s.put F.pdSlotst_CLAIM 1 k else s
    | 1 => if s.fld F.pdSlotst_QUIET k ≥ 2 then sendData k e s else s
    | 3 => sendData k e s
    | _ => s

/-- The slot carries a data frame of the node's each cycle: one of KIND 2, or a spare one whose claim is held (R272, R273). -/
def State.pdData (s : State) (k : Nat) : Bool :=
  s.pdKind k == 2 || (s.pdKind k == 4 && s.on F.pdSlotA_CLAIM k && s.fld F.pdSlotst_CLAIM k == 3)

/-- PADDOCK_SLOT_SEND: the start of slot `k` (R263). A node that is not aligned withholds its data frame (R272). -/
def pdSend (k : Nat) (s : State) : State :=
  if s.pdRole = 0 || s.pdMuted || s.fld F.pdCfg2_NSLOT ≤ k then s
  else if !s.pdTimed then (if s.pdData k then s.bump F.pdCnt_TXINH else s)
  else
    let (e, s) := pdLead k s
    if s.pd.sentSlots.contains k then s
    else match s.pdKind k with
      | 1 => sendRef k e s
      | 2 => sendData k e s
      | 4 => sendClaim k e s
      | _ => s

/-! ### Reception (R265, R266, R268, R271, R275) -/

/-- A frame is valid in a slot (R265). -/
def State.pdValid (s : State) (k : Nat) (c : PdFrame) : Bool :=
  c.crcOk && c.typ == (if s.pdKind k = 1 then 0 else 1) && c.slot == k && c.len == s.fld F.pdSlotA_LEN k && c.cnum == s.pd.cycle

/-- A copy's start pattern lies in the slot's window: within ±WIN bits of START + 64, the window's end being WIN bits after
the frame's (R265). -/
def State.inWindow (s : State) (k : Nat) (c : PdCopy) : Bool :=
  let due : Int := 40 * (s.pdBits k + s.fld F.pdCfg0_WIN - 64 : Nat)
  (due - c.ago).natAbs ≤ 40 * s.fld F.pdCfg0_WIN

/-- The frame that one channel brought in the window, and how many start patterns it brought outside every window. -/
def State.pdHeard (s : State) (k stray : Nat) (c : Option PdCopy) : Option PdFrame × Nat :=
  match c with
  | none => (none, stray)
  | some c => match readFrame c.line with
    | none => (none, stray)
    | some f => if s.inWindow k c then (some f, stray) else (none, stray + 1)

/-- Count what one channel brought. -/
def pdChannel (ch k : Nat) (x : Option PdFrame × Nat) (s : State) : State :=
  let s := s.bump F.pdCntAB_WIN ch 0 x.2
  match x.1 with
  | none => s.bump F.pdCntAB_MISS ch
  | some c =>
    let s := if !c.crcOk then s.bump F.pdCntAB_CRC ch else if c.cnum ≠ s.pd.cycle then s.bump F.pdCntAB_CNUM ch else s
    if s.pdValid k c then s else s.bump F.pdCntAB_MISS ch

/-- A back-off of 1 to 16 cycles in a slot begins (R271). -/
def pdBackoff (k : Nat) (s : State) : State :=
  let (n, s) := s.draw
  let g := Config.seed n
  let r := 1 + g.toNat % 16
  pdShowMode { s with pd := { s.pd with lfsr := g, boff := Tab.set 0 s.pd.boff k (s.tick + r * s.fld F.pdCfg0_CYC / 4) } }

/-- The node's own frame in slot `k` has no valid copy: a lone master and a claimant back off (R271, R273). -/
def pdCollide (k : Nat) (s : State) : State :=
  let s := (s.bump F.pdCnt_COLL).put F.pdEvt_COLL 1
  if k = 0 && s.on F.pdStat_ALONE then pdBackoff 0 s
  else if s.pdKind k = 4 then (pdBackoff k s).put F.pdSlotst_CLAIM 2 k
  else s

/-- The node is no longer lone, and acts by its ROLE (R271). -/
def endLone (s : State) : State :=
  if s.on F.pdStat_ALONE then
    let s := s.put F.pdStat_ALONE 0
    pdShowMode (pdAlign true { s with pd := { s.pd with boff := Tab.set 0 s.pd.boff 0 0 } })
  else s

/-- The accepted reference message of a cycle (R267, R268): the timing point passed `ago` 125 ps before now. The node's own
message gives it no time; one that comes from another node ends its lone mastership, and gives θ, which is no sample in a
cycle in which the node has sent one itself (R268, R271, R272). -/
def acceptRef (k ago : Nat) (c : PdFrame) (s : State) : State :=
  let own := s.pd.sentSlots.contains k && c.node == s.fld F.pdCfg0_NODE
  let s := (s.put F.pdStat_REFSLOT k).put F.pdStat_REFNODE c.node
  let s := if k = 0 then s else (s.bump F.pdCnt_BACKUP).put F.pdEvt_BACKUP 1
  let sent := s.pd.refSent
  let s := { s with pd := { s.pd with refSeen := true } }
  if own then s
  else
    let w := fun i => (c.payload.getD i 0).toNat
    let dist := ((s.fld F.pdCfg1_LOC : Int) - bits (w 2) 30 18).natAbs
    let anchor := ((s.tick * 32 : Nat) : Int) - ago - (dist / 125 : Nat) - (40 * (s.fld F.pdSlotA_START k + 64) : Nat)
    let s := endLone { s with pd := { s.pd with lastRef := some s.tick, anchor := anchor, anchorK := s.pd.cycle } }
    let trx : Int := Int.fdiv (s.total 0 - Int.fdiv (s.incOf 0 * ago) 32) 65536
    let t : Int := ((w 0 * 1000000000 * 65536 + bits (w 1) 0 46 : Nat) : Int) + Int.fdiv (dist * 65536) 1000
    let theta := trx - t
    let s := pdShow { s with pd := { s.pd with theta := theta } }
    if sent then s
    else ((List.range 8).filter fun r => s.refKind r == 2).foldl (fun s r => refSample r theta s) s

/-- A region's word `i` in the write buffer takes a stored word.
(DEDUCED, log entry 60) -/
def regionPut (r i : Nat) (v : Stored) (s : State) : State := s.setRaw (mgPlace (s.bufWord r (s.rg r).write i)) v

/-- A mapped receive slot arrives, with the payload of its valid copy or without one (R274, R275). -/
def mappedSlot (k : Nat) (c : Option PdFrame) (s : State) : State :=
  let r := s.fld F.pdSlotB_RGN k
  let o := s.fld F.pdSlotB_WOFS k
  let n := s.fld F.pdSlotA_LEN k
  let each := fun (f : Nat → State → State) (s : State) => (List.range n).foldl (fun s i => f i s) s
  let (s, arrived) := match c with
    | some c => (each (fun i s => regionPut r (o + i) (sealW (c.payload.getD i 0)) s) s, true)
    | none =>
      let s := (s.bump F.pdSlotst_MISS k).put F.pdEvt_SLOTMISS 1
      match s.eff F.pdSlotB_MISSV (· == 3) k with
      | 0 => (s, false)
      | 1 => (each (fun i s =>
          let x := memRead (mgPlace (s.bufWord r (s.rg r).front (o + i))) s
          regionPut r (o + i) (if x.1.bad then poisonW x.1.word else sealW x.1.word) x.2) s, true)
      | _ => (each (fun i s => regionPut r (o + i) (sealW 0) s) s, true)
  let s := if arrived then s.setRg r { s.rg r with slots := k :: (s.rg r).slots } else s
  let all := (List.range (s.fld F.pdCfg2_NSLOT)).filter fun j =>
    (s.pdKind j == 3 || s.pdKind j == 4) && s.on F.pdSlotB_MAP j && s.fld F.pdSlotB_RGN j == r
  if s.rgSrc r = 1 && s.rgSize r ≠ 0 && arrived && all.all fun j => (s.rg r).slots.contains j then
    completeSet r s.instN (s.setRg r { s.rg r with slots := [] })
  else s

/-- A spare slot that has held no valid frame for 8 consecutive cycles counts as free again (R273). -/
def State.slotFree (s : State) (k : Nat) : Bool := 8 ≤ s.fld F.pdSlotst_QUIET k

/-- A slot's valid copy, or its lack, is recorded, `new` where the slot began since the latest instant (R315); a held claim to a slot that is free again begins anew (R273, registers of
chapter 14). -/
def pdRecord (k : Nat) (va vb new : Bool) (c : Option PdFrame) (s : State) : State :=
  let s := s.put F.pdSlotst_CHV (b2n va + 2 * b2n vb) k
  let s := { s with pd := { s.pd with chA := s.pd.chA || va, chB := s.pd.chB || vb } }
  match c with
  | none =>
    let s := s.put F.pdSlotst_QUIET (min 15 (s.fld F.pdSlotst_QUIET k + 1)) k
    if s.slotFree k && s.fld F.pdSlotst_CLAIM k = 3 then s.put F.pdSlotst_CLAIM 1 k else s
  | some c =>
    let s := (s.put F.pdSlotst_QUIET 0 k).put F.pdSlotst_HOLDER c.node k
    let s := { s with pd := { s.pd with seen := s.pd.seen ||| BitVec.ofNat 64 (2 ^ c.node) } }
    if new && c.node = s.fld F.pdCfg0_NODE && !s.pd.sentSlots.contains k then { s with tw := { s.tw with ownNode := true } } else s

/-- PADDOCK_SLOT_RECEIVE: the end of slot `k`'s window (R265).
(DEDUCED, log entry 60) -/
def pdReceive (k : Nat) (rx : PdRx) (s : State) : State :=
  let kind := s.pdKind k
  if !s.pdTimed || s.fld F.pdCfg2_NSLOT ≤ k || kind = 0 then s
  else
    let (lag, s) := pdPass (5 * (s.fld F.pdSlotA_START k + s.pdBits k + s.fld F.pdCfg0_WIN)) s
    let ha := s.pdHeard k rx.strayA rx.a
    let hb := s.pdHeard k rx.strayB rx.b
    let s := pdChannel 1 k hb (pdChannel 0 k ha s)
    let agoOf := fun (c : Option PdCopy) => (c.map (·.ago)).getD 0
    let va := ha.1.any (s.pdValid k)
    let vb := hb.1.any (s.pdValid k)
    let s := if va && vb && ha.1 ≠ hb.1 then (s.bump F.pdCnt_DIFF).put F.pdEvt_DIFF 1 else s
    let useA := va && (!vb || agoOf rx.b ≤ agoOf rx.a)
    let c := if useA then ha.1 else if vb then hb.1 else none
    let begun : Int := ((s.tick * 32 : Nat) : Int) - lag - (40 * (s.pdBits k + s.fld F.pdCfg0_WIN) : Nat)
    let s := pdRecord k va vb (s.lastInst.all fun t => decide (((t * 32 : Nat) : Int) ≤ begun)) c s
    let sent := s.pd.sentSlots.contains k
    let own := fun (v : Bool) (c : Option PdFrame) => v && c.any fun c => c.node == s.fld F.pdCfg0_NODE
    let mine := own va ha.1 || own vb hb.1
    let s := if sent && !mine then pdCollide k s else s
    let s := if kind = 4 && s.on F.pdSlotA_CLAIM k then
        (if sent && mine then s.put F.pdSlotst_CLAIM 3 k
        else if !sent && c.isSome && s.fld F.pdSlotst_CLAIM k = 3 then s.put F.pdSlotst_CLAIM 1 k else s) else s
    let s := match kind, c with
      | 1, some c => if s.pd.refSeen || k > 3 then s else acceptRef k (agoOf (if useA then rx.a else rx.b) + lag) c s
      | _, _ => s
    if (kind = 3 || kind = 4) && s.on F.pdSlotB_MAP k then mappedSlot k c s else s

/-- PADDOCK_BACKOFF_END: the back-off in a slot ends once its cycles have passed (R271). -/
def pdBackoffEnd (k : Nat) (s : State) : State :=
  let t := Tab.get 0 s.pd.boff k
  if t = 0 then s
  else
    let s := passTo t s
    let s := pdShowMode { s with pd := { s.pd with boff := Tab.set 0 s.pd.boff k 0 } }
    if k = 0 && s.on F.pdStat_ALONE then s else s.put F.pdSlotst_CLAIM 1 k

/-- PADDOCK_LISTEN_TIMEOUT: LISTEN ms from enabling for a master, LISTEN ms without a valid reference message for another node
or an aligned one (R266, R269, R270).
(DEDUCED, log entry 60) -/
def pdListen (s : State) : State :=
  let role := s.pdActs
  let ms := s.fld F.pdCfg1_LISTEN * 250000
  let since := max s.pd.enabledAt (s.pd.lastRef.getD 0)
  if role = 0 || s.on F.pdStat_ALONE then s
  else if role = 5 then
    if !s.pd.started then
      let s := passTo (s.pd.enabledAt + ms) s
      pdShow (pdShowMode { s with pd := { s.pd with started := true } })
    else if s.on F.pdStat_ALIGN then pdAlign false (passTo (since + ms) s) else s
  else
    let s := passTo (since + ms) s
    let s := pdAlign false { s with pd := { s.pd with started := true, cands := [], boff := Tab.set 0 s.pd.boff 0 0 } }
    pdShow (pdShowMode ((s.put F.pdStat_ALONE 1).put F.pdEvt_ALONE 1))

/-- Alignment is confirmed by the message at BCLK cycle `pos`: a node that follows takes its cycle timing from it (R266). -/
def pdConfirm (pos : Nat) (c : PdFrame) (s : State) : State :=
  let anchor : Int := (pos * 40 : Nat) - (40 * (s.fld F.pdSlotA_START c.slot + 64) : Nat)
  let s := { s with pd := { s.pd with cands := [], anchor := anchor, anchorK := c.cnum, lastRef := some s.tick } }
  let s := if s.pdActs = 5 then s else { s with pd := { s.pd with started := true, cycle := c.cnum, theta := 1000 * 65536 } }
  pdShow (pdShowMode (pdAlign true (endLone s)))

/-- PADDOCK_REFERENCE_SEARCH: a start pattern at BCLK cycle `pos` with a header of TYPE 0 and SLOT 0 to 3 (R266).
(DEDUCED, log entry 60) -/
def pdSearch (pos : Nat) (line : List Bool) (s : State) : State :=
  match readFrame line with
  | none => s
  | some c =>
    if s.pdActs = 0 || s.on F.pdStat_ALIGN || c.typ ≠ 0 || c.slot > 3 then s
    else
      let s := passTo ((pos + 256) * 5 / 4) s
      let cyc := s.fld F.pdCfg0_CYC / 5
      let win := s.fld F.pdCfg0_WIN
      let near := fun (x : Cand) => x.pos + cyc ≤ pos + win && pos ≤ x.pos + cyc + win
      let put := fun (l : List Cand) (s : State) => { s with pd := { s.pd with cands := l } }
      match s.pd.cands.find? near with
      | some x =>
        if !c.crcOk then put (s.pd.cands.map fun y => if y = x then ⟨pos, 0⟩ else y) s
        else if x.n + 1 < 4 then put (s.pd.cands.map fun y => if y = x then ⟨pos, x.n + 1⟩ else y) s
        else pdConfirm pos c s
      | none =>
        let x : Cand := ⟨pos, b2n c.crcOk⟩
        put ((if s.pd.cands.length ≥ 4 then s.pd.cands.drop 1 else s.pd.cands) ++ [x]) s

/-- The node listens afresh, and claims no slot (R273, R277).
(DESIGN CHOICE, log entry 106) -/
def pdRestart (s : State) : State :=
  let s := pdAlign false { s with pd := { lfsr := s.pd.lfsr, scr := s.pd.scr, enabledAt := s.tick } }
  let s := (List.range 1024).foldl (fun s k => (s.put F.pdSlotst_CLAIM 0 k).put F.pdSlotst_QUIET 0 k) (s.put F.pdStat_ALONE 0)
  pdShow (pdShowMode (s.put F.pdStat_MODE 0))

/-- A claim that a commit takes from a slot's entry ends, and its back-off (R273). -/
def endClaims (old s : State) : State :=
  let has := fun (s : State) k => s.pdKind k == 4 && s.on F.pdSlotA_CLAIM k
  ((List.range 1024).filter fun k => has old k && !has s k).foldl (fun s k =>
    { s with pd := { s.pd with boff := Tab.set 0 s.pd.boff k 0 } }.put F.pdSlotst_CLAIM 0 k) s

/-- The captured PD set becomes active at the end of a schedule cycle (R42, R277). -/
def activatePd (s : State) : State :=
  let s := if s.pdTimed then (pdPass 0 s).2 else s
  let t := endClaims s (activate .pd s)
  if t.pdRole ≠ s.pdRole || [F.pdCfg0_NODE, F.pdCfg0_CYC, F.pdCfg1_INSTOFS].any fun f => t.fld f ≠ s.fld f then pdRestart t
  else pdShowMode t

/-! ### Commands -/

/-- PADDOCK_SLOT_SEND. -/
def execPaddockSlotSend (k : Fin 1024) (s : State) : Host.Outcome State Fault Refusal := done s (pdSend k s)
/-- PADDOCK_SLOT_RECEIVE. -/
def execPaddockSlotReceive (k : Fin 1024) (rx : PdRx) (s : State) : Host.Outcome State Fault Refusal := done s (pdReceive k rx s)
/-- PADDOCK_BACKOFF_END. -/
def execPaddockBackoffEnd (k : Fin 1024) (s : State) : Host.Outcome State Fault Refusal := done s (pdBackoffEnd k s)
/-- PADDOCK_LISTEN_TIMEOUT. -/
def execPaddockListenTimeout (s : State) : Host.Outcome State Fault Refusal := done s (pdListen s)
/-- PADDOCK_REFERENCE_SEARCH. -/
def execPaddockReferenceSearch (pos : Nat) (line : List Bool) (s : State) : Host.Outcome State Fault Refusal :=
  done s (pdSearch pos line s)

end Sys2Proof.Machine
end

