-- ==== Sys2Proof/Machine/Pins.lean ====
section
/-! DEFINITION. The pin machines: pins, steps, the fifteen instructions, stalls, FIFOs, injection and control (chapter 16). -/

namespace Sys2Proof.Machine

/-! ### Pins (R294, R299) -/

/-- What a step that begins at tick `beg` sees of a pin: a level at the ball before an edge is seen two edges later, and a
change at an edge is at the ball before the next one (R299). -/
def State.pinSeen (s : State) (beg p : Nat) : Bool × Bool :=
  (((Tab.get [] s.pinPast p).filter fun e => beg < e.1 + 3).getLast?.map (·.2)).getD (s.pinOut p)

/-- The input levels of a block that a step which begins at tick `beg` sees, bit j for pin j: the part's own level where it
drives, a free value elsewhere (R299).
(DESIGN CHOICE, log entry 4) -/
def readPins (b beg : Nat) (s : State) : Nat × State :=
  let (k, s) := s.draw
  let ext := (Config.choice k).toNat
  (((List.range 16).foldl (fun n j =>
    let o := s.pinSeen beg (16 * b + j)
    n + b2n (if o.1 then o.2 else ext.testBit j) * 2 ^ j) 0), s)

/-- The pin belongs to the machine. -/
def State.ownsPin (s : State) (b m j : Nat) : Bool :=
  s.pinFunc (16 * b + j) == 1 && s.fld F.piPin_MACH b j == m

/-- Change one pin's level or direction for a machine; a pin that is not its own drops the write with PINERR (R301). -/
def pinSet (b m : Nat) (f : PinS → PinS) (j : Nat) (s : State) : State :=
  let j := j % 16
  if s.ownsPin b m j then (keepPin (16 * b + j) s).setPin (16 * b + j) { f (s.pin (16 * b + j)) with trim := 0 } else s.put F.pmStat_PINERR 1 b m

/-- Pin `j` of its block begins to belong to a machine that runs: its direction is OE0 and its level what SAFE gave; a pin
that was high impedance has a free level until it is written (R294).
(DEDUCED, log entry 63; DESIGN CHOICE, log entry 4) -/
def startPin (b j : Nat) (s : State) : State :=
  let (k, s) := s.draw
  let lvl := match s.eff F.piPin_SAFE (· == 3) b j with
    | 0 => false
    | 1 => true
    | _ => (Config.choice k).toNat.testBit j
  (keepPin (16 * b + j) s).setPin (16 * b + j) { lvl := lvl, dir := s.on F.piPin_OE0 b j }

/-- The machine begins to run: its pins start (R294). -/
def takePins (b m : Nat) (s : State) : State :=
  if (s.mach b m).live then s
  else
    let s := ((List.range 16).filter fun j => s.ownsPin b m j).foldl (fun s j => startPin b j s) s
    s.setMach b m { s.mach b m with live := true }

/-! ### The machine (R297, R298) -/

def State.pool (s : State) (b m : Nat) : Nat := s.eff F.pmCfg0_POOL (· == 3) b m
def State.txCap (s : State) (b m : Nat) : Nat := [4, 8, 0].getD (s.pool b m) 4
def State.rxCap (s : State) (b m : Nat) : Nat := [4, 0, 8].getD (s.pool b m) 4
/-- TLEN and RTH, 0 meaning 48. -/
def State.tlen (s : State) (b m : Nat) : Nat := if s.fld F.pmCfg2_TLEN b m = 0 then 48 else min 48 (s.fld F.pmCfg2_TLEN b m)
def State.rth (s : State) (b m : Nat) : Nat := if s.fld F.pmCfg2_RTH b m = 0 then 48 else s.fld F.pmCfg2_RTH b m

/-- Instruction `a` of a machine's program. -/
def State.pmFetch (s : State) (b m a : Nat) : Nat :=
  if a % 2 = 0 then s.fld F.pmProg_IEVEN b (m * 16 + a / 2) else s.fld F.pmProg_IODD b (m * 16 + a / 2)

/-- Ticks of a step in 1/256. -/
def State.stepLen (s : State) (b m : Nat) : Nat := 256 * s.fld F.pmCfg0_STEPI b m + s.fld F.pmCfg0_STEPF b m

/-- The end of the first step of the machine's divider at or after the present tick, in 1/256 ticks (R298). -/
def State.pmStop (s : State) (b m : Nat) : Nat :=
  let a := (s.mach b m).at256
  let l := s.stepLen b m
  a + max 1 ((s.tick * 256 + l - 1 - a) / l) * l

/-- The injected instruction, where the next step to end begins at or after its write (R305). -/
def State.pmInj (s : State) (b m : Nat) : Option (BitVec 24) :=
  let x := s.mach b m
  if !x.held && x.injAt * 256 + s.stepLen b m ≤ s.pmStop b m then x.inj else none

/-- The instruction that the machine's next step executes: an injected one, or the one at PC. -/
def State.pmInsn (s : State) (b m : Nat) : Nat := match s.pmInj b m with
  | some i => i.toNat
  | none => s.pmFetch b m (s.mach b m).pc

/-- The machine takes steps, completes its last one, or has an injected instruction to run (R305). -/
def State.pmActive (s : State) (b m : Nat) : Bool :=
  let x := s.mach b m
  s.applied && s.on F.pmCfg0_EN b m && (s.on F.pmCtl_RUN b m || x.halting || (x.inj.isSome && !x.held))

/-- The machine is stalled in an instruction. -/
def PmS.stalled (x : PmS) : Bool := 1 ≤ x.stall && x.stall ≤ 5

/-- STALL as STAT shows it: a stop within idle steps takes effect at the end of the one in progress (R305). -/
def State.pmStall (s : State) (b m : Nat) : Nat :=
  let x := s.mach b m
  if x.stall = 6 && s.tick * 256 < x.haltAt then 0 else x.stall

/-- The instruction is legal (R301). -/
def State.pmLegal (s : State) (b m i : Nat) : Bool :=
  let n := bits i 0 6
  bits i 17 2 ≠ 3 && match bits i 20 4 with
    | 0 => bits i 0 7 == 0
    | 1 => bits i 5 2 == 0
    | 2 => bits i 5 1 == 0
    | 3 => bits i 5 2 == 0 && bits i 0 4 ≤ 8
    | 4 => true
    | 5 => 1 ≤ n && n ≤ 48 && (bits i 6 1 == 1 || n ≤ s.fld F.pmCfg1_DN b m)
    | 6 => 1 ≤ n && n ≤ 48 && (bits i 6 1 == 1 || n ≤ 16)
    | 7 => bits i 1 6 == 0
    | 8 => bits i 1 6 == 0
    | 9 => bits i 4 1 == 0
    | 10 => bits i 0 2 == 0 && bits i 4 3 ≠ 7
    | 11 => bits i 0 5 == 0 && bits i 5 2 ≠ 3
    | 12 => bits i 4 2 ≠ 2 || bits i 0 4 ≤ 7
    | 13 => bits i 0 5 == 0 && bits i 5 2 ≠ 3
    | 14 => bits i 3 2 == 0
    | _ => false

/-- How an instruction's step ends: it completes, with where PC goes when it transfers control, or it stalls. -/
inductive PmEnd
  | go (s : State)
  | jump (pc : Nat) (s : State)
  | skip (s : State)
  | stall (code : Nat) (s : State)

/-- Enter bits into a 48-bit register, the first bit of the list first (R301). -/
def enterBits (lsbt : Bool) (g : Nat) (bs : List Bool) : Nat :=
  bs.foldl (fun g b => if lsbt then g / 2 + b2n b * 2 ^ 47 else (2 * g + b2n b) % 2 ^ 48) g

/-- Reverse the 48 bits of a word. -/
def reverse48 (v : Nat) : Nat := (List.range 48).foldl (fun n k => 2 * n + v / 2 ^ k % 2) 0

/-- FETCH: the next transmit word into TH. -/
def loadTh (b m : Nat) (s : State) : State :=
  let x := s.mach b m
  s.setMach b m { x with th := x.txf.headD 0, tn := s.tlen b m, txf := x.txf.drop 1 }

/-- DELIVER: RG into the receive FIFO. -/
def deliverRg (b m : Nat) (s : State) : State :=
  let x := s.mach b m
  s.setMach b m { x with rxf := x.rxf ++ [x.rg], rg := 0, rn := 0 }

/-- The receive FIFO is full; the transmit FIFO is empty. -/
def State.rxFull (s : State) (b m : Nat) : Bool := (s.mach b m).rxf.length ≥ s.rxCap b m
def State.txEmpty (s : State) (b m : Nat) : Bool := s.pool b m == 2 || (s.mach b m).txf == []

/-- A pull finds no word: the transmit FIFO is empty, or was until this tick (R303). -/
def State.txNone (s : State) (b m : Nat) : Bool := s.txEmpty b m || (s.mach b m).txAt == s.tick + 1

/-- LOOP. -/
def pmLoopOp (b m i : Nat) (s : State) : PmEnd :=
  let x := s.mach b m
  let c := if i.testBit 6 then x.c1 else x.c0
  if c = 0 then .go s
  else .jump (bits i 0 5) (s.setMach b m (if i.testBit 6 then { x with c1 := c - 1 } else { x with c0 := c - 1 }))

/-- SKIP. -/
def pmSkipOp (b m i beg : Nat) (s : State) : PmEnd :=
  let x := s.mach b m
  let (pins, s) := readPins b beg s
  let c := match bits i 0 4 with
    | 0 => s.txEmpty b m
    | 1 => s.rxFull b m
    | 2 => pins.testBit (s.fld F.pmCfg1_SENSEB b m)
    | 3 => x.tn == 0
    | 4 => x.rn ≥ s.rth b m
    | 5 => x.g == 0
    | 6 => x.g.getLsbD 0
    | 7 => x.c0 == 0
    | _ => x.c1 == 0
  if c != i.testBit 4 then .skip s else .go s

/-- SETC. -/
def pmSetcOp (b m i : Nat) (s : State) : PmEnd :=
  let x := s.mach b m
  let v := BitVec.ofNat 16 (if i.testBit 5 then x.g.toNat else bits i 0 5)
  .go (s.setMach b m (if i.testBit 6 then { x with c1 := v } else { x with c0 := v }))

/-- EMIT. -/
def pmEmitOp (b m i : Nat) (s : State) : PmEnd :=
  let n := bits i 0 6
  let refill := s.on F.pmCfg2_REFILL b m && (s.mach b m).tn < n
  if refill && s.txNone b m then .stall 1 s
  else
    let s := if refill then loadTh b m s else s
    let x := s.mach b m
    let lsb := s.on F.pmCfg2_LSBF b m
    let bs := (List.range n).map fun k => k < x.tn && x.th.getLsbD (if lsb then k else 47 - k)
    let s := s.setMach b m { x with th := if lsb then x.th >>> n else x.th <<< n, tn := x.tn - n }
    if i.testBit 6 then
      .go (s.setMach b m { s.mach b m with g := wd (enterBits (s.on F.pmCfg2_LSBT b m) x.g.toNat bs) })
    else .go (bs.zipIdx.foldl (fun s e => pinSet b m (fun p => { p with lvl := e.1 }) (s.fld F.pmCfg1_DBASE b m + e.2) s) s)

/-- TAKE. -/
def pmTakeOp (b m i beg : Nat) (s : State) : PmEnd :=
  let n := bits i 0 6
  let x := s.mach b m
  let rn := min (x.rn + n) 48
  let dlv := s.on F.pmCfg2_AUTODLV b m && rn ≥ s.rth b m
  if dlv && s.rxFull b m then .stall 2 s
  else
    let (pins, s) := readPins b beg s
    let bs := (List.range n).map fun k =>
      if i.testBit 6 then x.g.getLsbD k else pins.testBit ((s.fld F.pmCfg1_SENSEB b m + k) % 16)
    let s := s.setMach b m { x with rg := wd (enterBits (s.on F.pmCfg2_LSBT b m) x.rg.toNat bs), rn := rn }
    .go (if dlv then deliverRg b m s else s)

/-- FETCH. -/
def pmFetchOp (b m i : Nat) (s : State) : PmEnd :=
  if i.testBit 0 && (s.mach b m).tn ≠ 0 then .go s
  else if s.txNone b m then .stall 1 s
  else .go (loadTh b m s)

/-- DELIVER. -/
def pmDeliverOp (b m i : Nat) (s : State) : PmEnd :=
  if i.testBit 0 && (s.mach b m).rn < s.rth b m then .go s
  else if s.rxFull b m then .stall 2 s
  else .go (deliverRg b m s)

/-- PINS. -/
def pmPinsOp (b m i : Nat) (s : State) : PmEnd :=
  let mode := bits i 5 2
  if mode = 3 then
    .go ((List.range (s.fld F.pmCfg1_DN b m)).foldl (fun s k =>
      pinSet b m (fun p => { p with dir := i.testBit 0 }) (s.fld F.pmCfg1_DBASE b m + k) s) s)
  else
    .go ((List.range (s.fld F.pmCfg1_CN b m)).foldl (fun s k =>
      let v := k < 4 && i.testBit k
      if mode = 2 && !v then s
      else pinSet b m (fun p => if mode = 0 then { p with lvl := v } else if mode = 1 then { p with dir := v } else { p with lvl := !p.lvl })
        (s.fld F.pmCfg1_CBASE b m + k) s) s)

/-- GMOV; `beg`: the tick in which the step began, whose TK is a source. -/
def pmGmovOp (b m i beg : Nat) (s : State) : PmEnd :=
  let x := s.mach b m
  let (pins, s) := readPins b beg s
  let sb := s.fld F.pmCfg1_SENSEB b m
  let v := match bits i 4 3 with
    | 0 => (pins / 2 ^ sb + pins * 2 ^ (16 - sb)) % 2 ^ 16
    | 1 => x.c0.toNat
    | 2 => x.c1.toNat
    | 3 => x.th.toNat
    | 4 => x.rg.toNat
    | 5 => (beg + 2 ^ 32 - s.tkBase % 2 ^ 32) % 2 ^ 32
    | _ => 0
  let r := match bits i 2 2 with
    | 0 => v
    | 1 => 2 ^ 48 - 1 - v
    | 2 => reverse48 v
    | _ => v + 1
  .go (s.setMach b m { x with g := wd r })

/-- GPUT. -/
def pmGputOp (b m i : Nat) (s : State) : PmEnd :=
  let x := s.mach b m
  match bits i 5 2 with
  | 0 => .go (s.setMach b m { x with th := x.g, tn := s.tlen b m })
  | 1 => .go (s.setMach b m { x with rg := x.g, rn := 0 })
  | _ => .go ((List.range (s.fld F.pmCfg1_DN b m)).foldl (fun s k =>
      pinSet b m (fun p => { p with lvl := x.g.getLsbD k }) (s.fld F.pmCfg1_DBASE b m + k) s) s)

/-- WAITP. -/
def pmWaitpOp (b m i beg : Nat) (s : State) : PmEnd :=
  let x := s.mach b m
  let (pins, s) := readPins b beg s
  let sense := pins.testBit ((s.fld F.pmCfg1_SENSEB b m + bits i 0 4) % 16)
  let lvl := i.testBit 6
  let hold := fun c => if c then PmEnd.go (s.setMach b m { s.mach b m with chg := none }) else .stall 3 s
  match bits i 4 2 with
  | 0 => hold (sense == lvl)
  | 1 => hold (pins.testBit (bits i 0 4) == lvl)
  | 2 => hold ((s.fld F.piFlags_FLAG b).testBit (bits i 0 3) == lvl)
  | _ => match x.chg with
    | none => .stall 3 (s.setMach b m { x with chg := some sense })
    | some c => hold (sense != c)

/-- STAMP (R304): the target, found when the step begins, and the wait until TK reaches it by the compare of R245; its
completion restarts the divider at that edge. -/
def pmStampOp (b m i : Nat) (s : State) : PmEnd :=
  let x := s.mach b m
  let fin := fun (t : BitVec 32) (ago : Nat) (s : State) =>
    s.setMach b m { s.mach b m with tgt := none, lst := t, at256 := (s.tick - ago) * 256 }
  match x.tgt with
  | some t =>
    let d := past32 s.tk t.toNat
    if 0 ≤ d then .go (fin t d.toNat s) else .go (fin t 0 (passTicks (-d).toNat s))
  | none =>
    let src := bits i 5 2
    if src = 1 && s.txNone b m then .stall 1 s
    else
      let t : BitVec 32 := match src with
        | 0 => x.g.setWidth 32
        | 1 => (x.txf.headD 0).setWidth 32
        | _ => x.lst + x.g.setWidth 32
      let s := if src = 1 then s.setMach b m { x with txf := x.txf.drop 1 } else s
      if past32 s.tk t.toNat ≥ 0 then
        let s := ((passTicks 1 s).put F.pmStat_TKLATE 1 b m).bump F.pmCnt_LATE b m
        .go (fin t 0 s)
      else .stall 5 (s.setMach b m { s.mach b m with tgt := some t })

/-- Raise a block flag, with IRQ5 where the machine's FLAGMASK has it (R302).
(DEDUCED, log entry 63) -/
def raiseFlag (b m f : Nat) (s : State) : State :=
  let s := (s.put F.piFlags_FLAG (s.fld F.piFlags_FLAG b ||| 2 ^ f) b)
  let s := { s with flagAt := Tab.set 0 s.flagAt (8 * b + f) (s.tick + 1) }
  if (s.fld F.pmCfg2_FLAGMASK b m).testBit f then hwIrq (s.fld F.pmCfg0_IRQENG b m) 5 s else s

/-- Lower a block flag; one raised in this tick stays raised (R302). -/
def lowerFlag (b f : Nat) (s : State) : State :=
  if Tab.get 0 s.flagAt (8 * b + f) = s.tick + 1 then s
  else s.put F.piFlags_FLAG (s.fld F.piFlags_FLAG b - bits (s.fld F.piFlags_FLAG b) f 1 * 2 ^ f) b

/-- MARK. -/
def pmMarkOp (b m i : Nat) (s : State) : PmEnd :=
  let f := bits i 0 3
  let x := s.mach b m
  let up := (s.fld F.piFlags_FLAG b).testBit f
  match bits i 5 2 with
  | 0 => .go (raiseFlag b m f s)
  | 1 => .go (lowerFlag b f s)
  | 2 =>
    if !x.marked then .stall 4 (raiseFlag b m f (s.setMach b m { x with marked := true }))
    else if up then .stall 4 s else .go (s.setMach b m { x with marked := false })
  | _ => if up then .go (lowerFlag b f s) else .stall 4 s

/-- What an instruction does in its step, which began at tick `beg`, or in a later one in which its stall ends (R301). -/
def pmOp (b m i beg : Nat) (s : State) : PmEnd :=
  match bits i 20 4 with
  | 1 => .jump (bits i 0 5) s
  | 2 => pmLoopOp b m i s
  | 3 => pmSkipOp b m i beg s
  | 4 => pmSetcOp b m i s
  | 5 => pmEmitOp b m i s
  | 6 => pmTakeOp b m i beg s
  | 7 => pmFetchOp b m i s
  | 8 => pmDeliverOp b m i s
  | 9 => pmPinsOp b m i s
  | 10 => pmGmovOp b m i beg s
  | 11 => pmGputOp b m i s
  | 12 => pmWaitpOp b m i beg s
  | 13 => pmStampOp b m i s
  | 14 => pmMarkOp b m i s
  | _ => .go s

/-- The side action of a completed instruction (R300). -/
def sideAction (b m i : Nat) (s : State) : State :=
  let mode := bits i 17 2
  if mode = 0 then s
  else (List.range (s.fld F.pmCfg1_AUXN b m)).foldl (fun s k =>
    let v := k < 4 && i.testBit (13 + k)
    if mode = 1 then pinSet b m (fun p => { p with lvl := v }) (s.fld F.pmCfg1_AUXBASE b m + k) s
    else if v then pinSet b m (fun p => { p with lvl := !p.lvl }) (s.fld F.pmCfg1_AUXBASE b m + k) s else s) s

/-- What a stalled instruction holds is given up; it starts afresh (R305). -/
def pmAfresh (b m : Nat) (s : State) : State :=
  let x := s.mach b m
  s.setMach b m { x with tgt := none, chg := none, marked := false, cur := none, stall := if x.stalled then 0 else x.stall }

/-- An instruction, injected or not, completes: its side action, PC, and HOLD idle steps, which a machine that stops discards
(R298, R300, R305). -/
def pmComplete (b m i : Nat) (injd : Bool) (s : State) (jump : Option Nat) (skip : Bool) : State :=
  let s := sideAction b m i s
  let x := s.mach b m
  let run := s.on F.pmCtl_RUN b m
  let pc := match jump with
    | some a => a
    | none => if skip then (if injd then x.pc + 1 else x.pc + 2)
        else if i.testBit 19 then s.fld F.pmCfg2_HEAD b m
        else if injd then x.pc else x.pc + 1
  s.setMach b m { x with pc := pc % 32, inj := if injd then none else x.inj, cur := none, halting := false
                         stall := if run then 0 else 6
                         at256 := x.at256 + (if run then bits i 7 6 else 0) * s.stepLen b m }

/-- An instruction stalls: with code `c`, an entry into a FIFO stall counting; a machine that stops abandons it, and a pending
injection sets it aside (R303, R305). -/
def pmEnterStall (b m i c was : Nat) (injd : Bool) (s : State) : State :=
  let s := s.setMach b m { s.mach b m with stall := c, cur := some (BitVec.ofNat 24 i) }
  let s := if (c = 1 || c = 2) && was ≠ c then s.bump F.pmCnt_STALLS b m else s
  let x := s.mach b m
  if x.halting then
    let s := pmAfresh b m s
    s.setMach b m { s.mach b m with stall := 6, halting := false, held := injd }
  else if x.inj.isSome && !injd then pmAfresh b m s
  else s

/-- The outcome of an instruction's step or release, given whether it was injected and how it was stalled before. -/
def pmFinish (b m i : Nat) (injd : Bool) (was : Nat) (r : PmEnd) : State :=
  match r with
  | .go s => pmComplete b m i injd s none false
  | .jump a s => pmComplete b m i injd s (some a) false
  | .skip s => pmComplete b m i injd s none true
  | .stall c s => pmEnterStall b m i c was injd s

/-- An illegal instruction stops the machine (R301).
(DEDUCED, log entry 63) -/
def pmIllegal (b m : Nat) (s : State) : State :=
  ((s.put F.pmCtl_RUN 0 b m).put F.pmStat_FAULT 1 b m).setMach b m
    { s.mach b m with stall := 7, inj := none, tgt := none, chg := none, marked := false, cur := none, halting := false }

/-- The tick at which an instruction of opcode `op` acts: its step's end, or for a STAMP, which is evaluated on every tick, the
first tick of its step (R298, R304). -/
def State.pmTick (s : State) (b m op : Nat) : Nat :=
  if op = 13 then max ((s.mach b m).at256 / 256 + 1) s.tick else s.pmStop b m / 256

/-- The end of the step in which a stalled machine tries its instruction again: the first one from now on, or the next where
the word that it waits for arrives in that very tick (R298, R303). -/
def State.pmRetry (s : State) (b m : Nat) : Nat :=
  let e := s.pmStop b m
  if (s.mach b m).stall = 1 && (s.mach b m).txAt = e / 256 + 1 then e + s.stepLen b m else e

/-- A machine's step executes an instruction of opcode `op` (R298): the machine is not stalled in one, and the instruction
that it comes to has that opcode, or the illegal one 0xF.
(DEDUCED, log entry 63) -/
def pmStep (b m op : Nat) (s : State) : State :=
  let i := s.pmInsn b m
  if !s.pmActive b m || (s.mach b m).stalled || !(bits i 20 4 == op || bits i 20 4 == 15) then s
  else
    let stop := s.pmStop b m
    let injd := (s.pmInj b m).isSome
    let s := passTo (s.pmTick b m op) s
    if !s.pmLegal b m i then pmIllegal b m s
    else
      let s := takePins b m s
      let s := s.setMach b m { s.mach b m with at256 := stop }
      pmFinish b m i injd 0 (pmOp b m i ((stop - s.stepLen b m) / 256) s)

/-- A stalled machine at the end of the step in which it tries its instruction again; a STAMP is tried on every tick, and one
that waits for a word that arrives in this tick in the next (R298, R303, R304). -/
def pmTry (b m i e : Nat) (s : State) : State :=
  if bits i 20 4 = 13 then (if (s.mach b m).stall = 1 && (s.mach b m).txAt = s.tick + 1 then passTicks 1 s else s)
  else
    let s := passTo (e / 256) s
    s.setMach b m { s.mach b m with at256 := e }

/-- The condition that a stalled instruction waits for holds, and it completes (R298, R299, R304).
(DEDUCED, log entry 63) -/
def pmRelease (b m : Nat) (s : State) : State :=
  let x := s.mach b m
  if !s.pmActive b m || !x.stalled then s
  else
    let i := (x.cur.map BitVec.toNat).getD (s.pmInsn b m)
    let e := s.pmRetry b m
    let u := pmTry b m i e s
    if !s.pmLegal b m i then pmIllegal b m u
    else match pmOp b m i ((e - s.stepLen b m) / 256) u with
      | .stall c t => if c = x.stall then s else pmEnterStall b m i c x.stall x.inj.isSome t
      | r => pmFinish b m i x.inj.isSome x.stall r

/-! ### FIFOs, injection, control (R303, R305) -/

/-- Who may use a machine's registers (R295). -/
def State.mayPm (s : State) (w : Who) (b m : Nat) : Bool := s.supervisor w || s.actsFor w (s.fld F.pmCfg0_OWNER b m)

/-- A write to PTX. -/
def ptxWrite (b m : Nat) (v : Word) (s : State) : State :=
  let x := s.mach b m
  if x.txf.length ≥ s.txCap b m then (s.put F.pmStat_TDISP 5 b m).bump F.pmCnt_TXDROP b m
  else (s.setMach b m { x with txf := x.txf ++ [v], txAt := if x.txf = [] then s.tick + 1 else x.txAt }).put F.pmStat_TDISP 0 b m

/-- A read of PRX. -/
def prxRead (b m : Nat) (s : State) : Word × State :=
  let x := s.mach b m
  match x.rxf with
  | [] => (0, s.put F.pmStat_RXV 0 b m)
  | v :: rest => (v, (s.setMach b m { x with rxf := rest }).put F.pmStat_RXV 1 b m)

/-- A write to INJ: the instruction executes at the machine's next step, which in a stalled machine is the one at the
divider's next edge; a stopped machine begins a step (R305).
(DEDUCED, log entry 63) -/
def injWrite (b m : Nat) (v : BitVec 24) (s : State) : State :=
  let x := s.mach b m
  if x.inj.isSome then s.put F.pmStat_IDISP 5 b m
  else
    let edge := if x.stalled then (if x.at256 < s.tick * 256 then s.pmStop b m else x.at256)
      else if s.on F.pmCtl_RUN b m || x.halting then x.at256
      else s.tick * 256
    let s := pmAfresh b m s
    (s.setMach b m { s.mach b m with inj := some v, injAt := s.tick, held := false, at256 := edge }).put F.pmStat_IDISP 0 b m

/-- RUN written 1: a stopped machine begins a step; a step in which RUN was written 0 goes on (R305). -/
def pmStart (b m : Nat) (s : State) : State :=
  if s.on F.pmCtl_RUN b m then s
  else
    let s := pmAfresh b m s
    let x := s.mach b m
    (s.setMach b m { x with stall := 0, held := false, halting := false, haltAt := 0
                            at256 := if x.halting then x.at256 else s.tick * 256 }).put F.pmCtl_RUN 1 b m

/-- RUN written 0: the machine stops at its next step. A stalled instruction is abandoned, idle steps that are left are
discarded, and the instruction of a step in progress completes (R305).
(DEDUCED, log entry 63) -/
def pmHalt (b m : Nat) (s : State) : State :=
  if !s.on F.pmCtl_RUN b m then s
  else
    let x := s.mach b m
    let l := s.stepLen b m
    let now := s.tick * 256
    let s := (pmAfresh b m s).put F.pmCtl_RUN 0 b m
    let y := s.mach b m
    s.setMach b m (if x.stalled then { y with stall := 6, held := x.inj.isSome }
      else if now < x.at256 then { y with stall := 6, at256 := now, haltAt := x.at256 - (x.at256 - now) / l * l }
      else if (now - x.at256) % l = 0 then { y with stall := 6 }
      else { y with halting := true })

/-- RESTART. -/
def pmReload (b m : Nat) (s : State) : State :=
  let s := pmAfresh b m s
  s.setMach b m { s.mach b m with pc := s.fld F.pmCfg2_START b m, c0 := 0, c1 := 0, g := 0, th := 0, tn := 0, rg := 0, rn := 0, lst := 0 }

/-- FCLR. -/
def pmClear (b m : Nat) (s : State) : State := s.setMach b m { s.mach b m with txf := [], rxf := [] }

/-- A write of CTL: FCLR, RESTART and RUN. -/
def writePmCtl (b m : Nat) (run restart fclr : Bool) (s : State) : State :=
  let s := if fclr then pmClear b m s else s
  let s := if restart then pmReload b m s else s
  if run then pmStart b m s else pmHalt b m s

/-- Step 5 of a reset: the owner's machines stop and their pins take SAFE (R296). -/
def pmOwnerReset (f : Nat) (s : State) : State :=
  ((List.range 32).filter fun k => s.fld F.pmCfg0_OWNER (k / 8) (k % 8) == f).foldl (fun s k =>
    let b := k / 8
    let m := k % 8
    let s := ((List.range 16).filter fun j => s.ownsPin b m j).foldl (fun s j => keepPin (16 * b + j) s) s
    let s := pmAfresh b m (s.put F.pmCtl_RUN 0 b m)
    s.setMach b m { s.mach b m with
      pc := s.fld F.pmCfg2_START b m, txf := [], rxf := [], inj := none, live := false, held := false, halting := false
      stall := 6 }) s

/-- The captured set of PI[b] becomes active: a changed divider restarts, the idle steps that are due going on; a pin that
comes to a running machine starts, and one that comes to the time unit takes the level of the generator that names it (R254,
R294, R306). -/
def activatePi (b : Fin 4) (s : State) : State :=
  let old := (List.range 16).foldl (fun s j => keepPin (16 * b.val + j) s) s
  let t := activate (.pi b) old
  let t := (List.range 8).foldl (fun t m =>
    let l := s.stepLen b m
    let x := t.mach b m
    if t.stepLen b m = l then t
    else t.setMach b m { x with at256 := t.tick * 256 + (x.at256 - t.tick * 256 + l - 1) / l * t.stepLen b m }) t
  (List.range 16).foldl (fun t j =>
    let p := 16 * b.val + j
    let m := t.fld F.piPin_MACH b j
    if t.ownsPin b m j && !s.ownsPin b m j && (t.mach b m).live then startPin b j t
    else if t.pinFunc p = 2 && s.pinFunc p ≠ 2 then restPin p 0 (t.setPin p {}) else t) t

/-! ### Commands -/

/-- PM_NOP. -/
def execPmNop (b : Fin 4) (m : Fin 8) (s : State) : Host.Outcome State Fault Refusal := done s (pmStep b m 0 s)
/-- PM_GOTO. -/
def execPmGoto (b : Fin 4) (m : Fin 8) (s : State) : Host.Outcome State Fault Refusal := done s (pmStep b m 1 s)
/-- PM_LOOP. -/
def execPmLoop (b : Fin 4) (m : Fin 8) (s : State) : Host.Outcome State Fault Refusal := done s (pmStep b m 2 s)
/-- PM_SKIP. -/
def execPmSkip (b : Fin 4) (m : Fin 8) (s : State) : Host.Outcome State Fault Refusal := done s (pmStep b m 3 s)
/-- PM_SETC. -/
def execPmSetc (b : Fin 4) (m : Fin 8) (s : State) : Host.Outcome State Fault Refusal := done s (pmStep b m 4 s)
/-- PM_EMIT. -/
def execPmEmit (b : Fin 4) (m : Fin 8) (s : State) : Host.Outcome State Fault Refusal := done s (pmStep b m 5 s)
/-- PM_TAKE. -/
def execPmTake (b : Fin 4) (m : Fin 8) (s : State) : Host.Outcome State Fault Refusal := done s (pmStep b m 6 s)
/-- PM_FETCH. -/
def execPmFetch (b : Fin 4) (m : Fin 8) (s : State) : Host.Outcome State Fault Refusal := done s (pmStep b m 7 s)
/-- PM_DELIVER. -/
def execPmDeliver (b : Fin 4) (m : Fin 8) (s : State) : Host.Outcome State Fault Refusal := done s (pmStep b m 8 s)
/-- PM_PINS. -/
def execPmPins (b : Fin 4) (m : Fin 8) (s : State) : Host.Outcome State Fault Refusal := done s (pmStep b m 9 s)
/-- PM_GMOV. -/
def execPmGmov (b : Fin 4) (m : Fin 8) (s : State) : Host.Outcome State Fault Refusal := done s (pmStep b m 10 s)
/-- PM_GPUT. -/
def execPmGput (b : Fin 4) (m : Fin 8) (s : State) : Host.Outcome State Fault Refusal := done s (pmStep b m 11 s)
/-- PM_WAITP. -/
def execPmWaitp (b : Fin 4) (m : Fin 8) (s : State) : Host.Outcome State Fault Refusal := done s (pmStep b m 12 s)
/-- PM_STAMP. -/
def execPmStamp (b : Fin 4) (m : Fin 8) (s : State) : Host.Outcome State Fault Refusal := done s (pmStep b m 13 s)
/-- PM_MARK. -/
def execPmMark (b : Fin 4) (m : Fin 8) (s : State) : Host.Outcome State Fault Refusal := done s (pmStep b m 14 s)
/-- PM_STALL_RELEASE. -/
def execPmStallRelease (b : Fin 4) (m : Fin 8) (s : State) : Host.Outcome State Fault Refusal := done s (pmRelease b m s)

/-- PM_PTX_WRITE.
(DESIGN CHOICE, log entry 9) -/
def execPmPtxWrite (w : Who) (b : Fin 4) (m : Fin 8) (v : Word) (s : State) : Host.Outcome State Fault Refusal :=
  done s (blockWrite w (·.mayPm w b m) (ptxWrite b m v) s)
/-- PM_PRX_READ. -/
def execPmPrxRead (w : Who) (b : Fin 4) (m : Fin 8) (s : State) : Host.Outcome State Fault Refusal :=
  let r := prxRead b m s
  done s (if !s.heard w then s
    else if !s.applied then finishRead w { st := s } 0 false
    else if s.mayPm w b m then finishRead w { st := r.2 } r.1 false else finishRead w (denied s) 0 false)
/-- PM_INJECT. -/
def execPmInject (w : Who) (b : Fin 4) (m : Fin 8) (v : BitVec 24) (s : State) : Host.Outcome State Fault Refusal :=
  done s (blockWrite w (·.mayPm w b m) (injWrite b m v) s)
/-- PM_RUN: CTL written with RUN 1. -/
def execPmRun (w : Who) (b : Fin 4) (m : Fin 8) (s : State) : Host.Outcome State Fault Refusal :=
  done s (blockWrite w (·.mayPm w b m) (pmStart b m) s)
/-- PM_STOP: CTL written with RUN 0. -/
def execPmStop (w : Who) (b : Fin 4) (m : Fin 8) (s : State) : Host.Outcome State Fault Refusal :=
  done s (blockWrite w (·.mayPm w b m) (pmHalt b m) s)
/-- PM_RESTART: CTL written with RESTART, RUN as it stands. -/
def execPmRestart (w : Who) (b : Fin 4) (m : Fin 8) (s : State) : Host.Outcome State Fault Refusal :=
  done s (blockWrite w (·.mayPm w b m) (pmReload b m) s)
/-- PM_FIFO_CLEAR: CTL written with FCLR, RUN as it stands. -/
def execPmFifoClear (w : Who) (b : Fin 4) (m : Fin 8) (s : State) : Host.Outcome State Fault Refusal :=
  done s (blockWrite w (·.mayPm w b m) (pmClear b m) s)
/-- PM_FLAG_LOWER: a write of PI[b].FLAGS; block registers are written by supervisor accesses (R295, R302). -/
def execPmFlagLower (w : Who) (b : Fin 4) (v : BitVec 8) (s : State) : Host.Outcome State Fault Refusal :=
  done s (blockWrite w (·.supervisor w) (fun s => (List.range 8).foldl (fun s f => if v.getLsbD f then lowerFlag b f s else s) s) s)

end Sys2Proof.Machine
end

