-- ==== Sys2Proof/Machine/Twin.lean ====
section
/-! DEFINITION. Redundant pairs: roles, STATUS, digests, self-tests, health, loss of the partner, return (chapter 17). -/

namespace Sys2Proof.Machine

def State.twOn (s : State) : Bool := s.applied && s.on F.twCfg0_EN
def State.twRole (s : State) : Nat := s.fld F.twStat_ROLE

/-- HEALTH (R314). -/
def State.twHealth (s : State) : Nat :=
  b2n (s.tw.nosync > 16) + 2 * b2n s.tw.ueSeen + 4 * b2n (s.tw.notrun.any fun e => decide (2 < e.2)) + 8 * b2n (s.on F.twCfg0_BGPD && !s.on F.pdStat_ALIGN)
    + 16 * b2n (s.outRegions.any fun k => s.on F.mgStat_AGED k) + 32 * b2n s.tw.failed + 64 * b2n s.tw.hot
    + 128 * b2n (s.on F.twCtl_HOLD)

/-- HEALTH bits that count are all clear (R314). -/
def State.countsHealthy (s : State) (h : Nat) : Bool := h &&& (s.fld F.twCtl_YMASK ||| 0xA0) == 0
def State.twHealthy (s : State) : Bool := s.countsHealthy s.twHealth

/-- The witness shows the partner driving (R315). -/
def State.witness (s : State) : Bool :=
  match s.eff F.twCfg0_WITNESS (· == 3) with
  | 1 => s.tw.ownNode
  | 2 => s.tw.ownMac
  | _ => false

/-- What the partner reported shows another image or another SDN (R310). -/
def State.cfgDiffers (s : State) : Bool := s.tw.msg.any fun m => m.cfgd != s.boot.cfgd || m.sdn != s.boot.sdn

/-- The partner is a STANDBY that may take over from this unit (R310, R313). -/
def State.standbyThere (s : State) : Bool := s.tw.msg.any (fun m => m.role == 2) && !(s.on F.twCfg0_PREF && s.cfgDiffers)

/-- HEALTH of the instant as STATUS carries it and as the choice between two listening units takes it (R309, R311).
(DEDUCED, log entry 64) -/
def latchHealth (s : State) : Nat × State :=
  match s.tw.healthAt.filter fun e => e.1 == s.instN with
  | some e => (e.2, s)
  | none => (s.twHealth, { s with tw := { s.tw with healthAt := some (s.instN, s.twHealth) } })

/-- What a unit that begins to drive changes on the outputs that its TWIN section names: CAN requests are withdrawn and the
modes of CFG0 apply from the next frame start point; reference messages follow from the next cycle (R318). -/
def startDriving (s : State) : State :=
  let s := ((List.range 4).filter fun n => (s.fld F.twCfg0_CANMASK).testBit n).foldl (fun s n =>
    canWithdraw n (s.setCn n { s.cn n with mon := (s.cn n).bus.isNone })) s
  if s.on F.twCfg0_BGPD then { s with pd := { s.pd with started := true, refFrom := some (s.pdNext 0).1 } } else s

/-- The unit takes a role at an instant; what it drives changes with it (R311, R318). A role that it has already is no
change, and a unit YIELDED for CONFIG keeps that role until a new image is applied (R310). -/
def setRole (r cause : Nat) (take : Bool) (s : State) : State :=
  let was := s.driving
  if s.twRole = 3 && s.fld F.twStat_CAUSE = 1 then { s with tw := { s.tw with take := false } }
  else if s.twRole = r then { s.put F.twStat_CAUSE (if r = 3 then cause else 0) with tw := { s.tw with take := false } }
  else
  let s := if s.fld F.twCfg2_PIOMASK = 0 then s else (List.range 64).foldl (fun s p => keepPin p s) s
  let s := (s.put F.twStat_ROLE r).put F.twStat_CAUSE (if r = 3 then cause else 0)
  let s := logRecord 4 [s.word .twStat] s
  let s := { s with tw := { s.tw with standbyFrom := if r = 2 then some s.tick else none, holdoff := false, take := false, herSusp := false } }
  let s := if r = 3 then s.put F.twEvt_YIELD 1 else s
  if s.driving && !was then
    let s := (s.put F.twEvt_TAKE 1).put F.twStat_SPLIT 0
    startDriving (if take then s.bump F.twCnt0_TAKEN else s)
  else s

/-- A role that the next instant brings; the first decision stands unless the new one is a yield. -/
def nextRole (r cause : Nat) (take : Bool) (s : State) : State :=
  if s.tw.next.isSome && r ≠ 3 then s else { s with tw := { s.tw with next := some (r, cause), take := take } }

/-- DIGEST over the front buffers of the output regions (R312). -/
def digestOf (s : State) : Nat × State :=
  let (bs, s) := s.outRegions.foldl (fun (a : List Byte × State) k =>
    (List.range (a.2.rgSize k)).foldl (fun (a : List Byte × State) i =>
      let r := memRead (mgPlace (a.2.bufWord k (a.2.rg k).front i)) a.2
      (a.1 ++ wordBytes r.1.word, r.2)) a) ([], s)
  (crc32c bs, s)

/-- A targeted self-test starts, with leave asked of the Ostler as a built-in self-test (R313, R314). -/
def startTest (alone : Bool) (s : State) : State :=
  hwRequest .bist ({ s with tw := { s.tw with testDue := false, alone := alone, testFrom := s.tick, tstSent := false } }.put F.twStat_TST 1)

/-- The outcome of a test that both units ran, at the first instant after both reported it (R313). -/
def testOutcome (s : State) : State :=
  match s.tw.msg with
  | none => s
  | some m =>
    let own := s.fld F.twStat_TST
    if own < 2 || m.tst < 2 || s.tw.alone || !s.tw.tstSent then s
    else
      let ownOk := own = 2
      let herOk := m.tst = 2
      let drv := s.driving
      let s := s.put F.twStat_TST 0
      if ownOk && herOk then
        let s := (s.put F.twEvt_UNRES 1).bump F.twCnt0_UNRES
        if drv then { s with tw := { s.tw with herSusp := true } } else s.put F.twStat_SUSP 1
      else if !ownOk && !herOk then
        let s := s.put F.twEvt_BOTHF 1
        if drv then s else setRole 3 2 false s
      else if drv then (if ownOk then s.put F.twEvt_YIELD 1 else if s.standbyThere then setRole 3 2 false s else s)
      else if !ownOk then setRole 3 2 false s
      else if s.twRole = 2 then setRole 1 0 true (s.put F.twEvt_YIELD 1) else s

/-- HEALTH as a decision of an instant takes it: bit 5 not while the outcome of the test is to come (R313, R314).
(DEDUCED, log entry 64) -/
def State.healthNow (s : State) : Nat := if 2 ≤ s.fld F.twStat_TST && !s.tw.alone then s.twHealth &&& 0xDF else s.twHealth

/-- Instants in a row with SYNC not 1, and with an owner of an output region not RUNNING (R314). -/
def countHealth (s : State) : State :=
  let down := ((s.outRegions.filter fun k => s.rgSize k ≠ 0).map s.rgOwner).filter fun f => s.fnState f ≠ 2
  { s with tw := { s.tw with
    nosync := if s.fld F.mgInstat_SYNC = 1 then 0 else s.tw.nosync + 1
    notrun := down.foldl (fun t f => Tab.set 0 t f (Tab.get 0 s.tw.notrun f + 1)) [] } }

/-- Health as it stands at an instant: YREQ, a standby that yields, and since when the unit has been healthy (R314).
(DEDUCED, log entry 64) -/
def healthStep (s : State) : State :=
  let s := countHealth s
  let s := { s with tw := { s.tw with healthyFrom := if s.twHealthy then s.tw.healthyFrom.orElse fun _ => some s.tick else none } }
  if s.countsHealthy s.healthNow then s
  else if s.driving && s.on F.twStat_LINK && s.tw.fresh && s.standbyThere && s.tw.msg.any (fun m => s.countsHealthy m.health) then
    nextRole 3 4 false { s with tw := { s.tw with yreq := true } }
  else if s.twRole = 2 && s.tw.listen.isNone then setRole 3 4 false s
  else s

/-- Instant `n` is instant `k`, or one after it. -/
def instDue (n k : Nat) : Bool := (n + 2 ^ 32 - k) % 2 ^ 32 < 2 ^ 31

/-- The return of the preferred unit at its instant: the unit that asked becomes ACTIVE, the one that gave its leave STANDBY
where the partner is a STANDBY that it hears (R317). -/
def returnStep (n : Nat) (s : State) : State :=
  let s := if s.tw.swAt.any (instDue n) then
      let s := { s with tw := { s.tw with swAt := none } }
      if s.twRole = 2 then setRole 1 0 false s else s
    else s
  if s.tw.giveAt.any (instDue n) then
    let s := { s with tw := { s.tw with giveAt := none } }
    if s.driving && s.on F.twStat_LINK && s.tw.fresh && s.standbyThere then setRole 2 0 false s else s
  else s

/-- The request for the return of the preferred unit (R317). -/
def returnAsk (n : Nat) (s : State) : State :=
  if s.twRole = 2 && s.on F.twCfg0_PREF && s.twHealthy && !s.on F.twStat_SUSP && s.fld F.twStat_MATCH ≥ s.fld F.twCfg0_MATCHN
      && s.tw.holdoff && !s.on F.twCtl_NOREV && s.tw.swAt.isNone && s.on F.twStat_LINK && s.tw.listen.isNone then
    { s with tw := { s.tw with swreq := true, swAt := some ((n + 2) % 2 ^ 32) } }
  else s

/-- Compare digests for the same instant. A mismatch starts no test while a test runs or while its outcome waits for the
partner, nor while the standby is suspected, which yields instead (R312, R313).
(DEDUCED, log entry 64) -/
def compareDigest (m : TwMsg) (s : State) : State :=
  if m.n ≠ s.instN then s
  else if m.digest = s.fld F.twDig_DIGEST then
    let s := s.bump F.twStat_MATCH
    if s.fld F.twStat_MATCH ≥ s.fld F.twCfg0_MATCHN then
      { s.put F.twStat_SUSP 0 with tw := { s.tw with herSusp := false } }
    else s
  else
    let s := (s.put F.twStat_MATCH 0).bump F.twCnt0_MISM
    let t := s.fld F.twStat_TST
    if t = 1 || (t ≥ 2 && !s.tw.alone && m.tst ≠ 0) then s
    else if s.on F.twStat_SUSP then (if s.twRole = 2 then nextRole 3 3 false s else s)
    else if s.tw.herSusp && s.driving then s
    else { s with tw := { s.tw with testDue := true } }

/-- What a pair does at instant `n`, after the flip (R311 to R318).
(DEDUCED, log entry 64) -/
def twinInstant (n : Nat) (s : State) : State :=
  if !s.twOn then { s with tw := { s.tw with subs := 0 } }
  else
    let nx := s.tw.next
    let tk := s.tw.take
    let s := { s with tw := { s.tw with next := none, yreq := false, swreq := false, subs := 0, ownNode := false, ownMac := false } }
    let s := match nx with
      | some (r, c) => setRole r c tk s
      | none => s
    let s := testOutcome (returnStep n s)
    let (d, s) := digestOf s
    let s := (s.put F.twDig_DIGEST d).put F.twDig_N n
    let s := s.tw.msg.elim s fun m => compareDigest m s
    let s := if s.tw.testDue && s.fld F.twStat_TST ≠ 1 then startTest false s else s
    let s := returnAsk n (healthStep s)
    { s with tw := { s.tw with fresh := false } }

/-- STATUS of this unit; one that shows a test running refuses the partner's request (R309, R317). -/
def twinSend (s : State) : State :=
  if !s.twOn || !s.on F.twStat_LINK then s
  else
    let t := s.fld F.twStat_TST
    let (h, s) := latchHealth s
    let w0 := s.instN * 2 ^ 16 + h * 2 ^ 8 + s.twRole * 2 ^ 5 + s.fld F.twCfg0_UNIT * 2 ^ 4 + b2n s.tw.yreq * 8 + b2n s.tw.swreq * 4 + t
    { s.emit (.twin (wd w0) (wd (s.fld F.twDig_DIGEST * 2 ^ 16)) (wd (s.boot.cfgd * 2 ^ 16 + s.boot.sdn * 2 ^ 6))) with
      tw := { s.tw with tstSent := s.tw.tstSent || t ≥ 2, sent := some (s.instN, t), giveAt := if t = 1 then none else s.tw.giveAt } }

/-- A configuration that differs: the preferred unit drives (R310). -/
def configDiffers (s : State) : State :=
  let s := s.put F.twEvt_CFGDIFF 1
  if s.on F.twCfg0_PREF then (if s.twRole = 1 then s else nextRole 1 0 false s)
  else if s.twRole = 3 && s.fld F.twStat_CAUSE = 1 then s else nextRole 3 1 false s

/-- A listening unit hears its partner: one that drives keeps it STANDBY; of two that listen the preferred one drives where
the HEALTH of its STATUS passes, and otherwise its partner (R311). -/
def hearPartner (m : TwMsg) (s : State) : State :=
  let pref := s.on F.twCfg0_PREF
  if m.role = 1 || m.role = 4 then { s with tw := { s.tw with listen := none } }
  else if m.role = 2 then
    let (h, s) := latchHealth { s with tw := { s.tw with listen := none } }
    if s.countsHealthy (if pref then h else m.health) = pref then nextRole 1 0 false s else s
  else s

/-- The roles that a partner's message leads to (R311, R315, R317, R323). -/
def roleFrom (m : TwMsg) (s : State) : State :=
  if s.twRole = 4 then nextRole 1 0 false s
  else if s.twRole = 1 && (m.role = 4 || (m.role = 1 && !s.on F.twCfg0_PREF)) then nextRole 2 0 false s
  else if s.twRole = 2 then
    let s := if s.tw.listen.isSome then hearPartner m s else s
    if m.yreq && s.tw.listen.isNone then
      let s := if s.tw.swAt.isSome then { s.bump F.twCnt0_SWREF with tw := { s.tw with swAt := none, swreq := false } } else s
      nextRole 1 0 true s
    else s
  else s

/-- A partner's SWREQ, which a unit refuses whose STATUS shows its own test running; and the answer to this unit's own (R317).
(DEDUCED, log entry 64) -/
def swFrom (m : TwMsg) (s : State) : State :=
  if m.swreq && s.driving && s.tw.sent ≠ some (m.n, 1) && !s.tw.yreq then { s with tw := { s.tw with giveAt := some ((m.n + 2) % 2 ^ 32) } }
  else if s.tw.swAt.isSome && s.twRole = 2 && m.tst = 1 then { s.bump F.twCnt0_SWREF with tw := { s.tw with swAt := none } }
  else s

/-- The partner's STATUS arrives; one of a part with the same UNIT is none of a pair (R308, R309, R310, R312).
(DEDUCED, log entry 64) -/
def twinReceive (w0 w1 w2 : Word) (s : State) : State :=
  if !s.twOn || !s.on F.twStat_LINK then s
  else
    let a := w0.toNat
    let m : TwMsg := { n := bits a 16 32, health := bits a 8 8, role := bits a 5 3, unit := bits a 4 1, yreq := a.testBit 3
                       swreq := a.testBit 2, tst := bits a 0 2, digest := bits w1.toNat 16 32, cfgd := bits w2.toNat 16 32
                       sdn := bits w2.toNat 6 10 }
    if m.unit = s.fld F.twCfg0_UNIT then s else
    let yielded := m.role = 3 && s.fld F.twStat_PROLE ≠ 3
    let s := ({ s with tw := { s.tw with msg := some m, fresh := true } }.put F.twStat_PROLE m.role).put F.twStat_SPLIT 0
    let s := if yielded then s.put F.twEvt_YIELD 1 else s
    let s := compareDigest m s
    if m.cfgd ≠ s.boot.cfgd ∨ m.sdn ≠ s.boot.sdn then
      configDiffers { s with tw := { s.tw with listen := none } }
    else swFrom m (roleFrom m s)

/-- The partner is no longer heard: a driving unit goes on as LONE, a standby takes over or splits (R315).
(DEDUCED, log entry 64) -/
def partnerLost (s : State) : State :=
  let s := { s with tw := { s.tw with swAt := none, giveAt := none } }
  if s.driving then nextRole 4 0 false s
  else if s.twRole = 2 && s.tw.listen.isNone then
    if s.witness then (s.put F.twStat_SPLIT 1).put F.twEvt_SPLIT 1 else nextRole 4 0 true s
  else s

/-- TWIN_LINK_CHANGE: the link comes up where its lane PLL runs and its training has the Ostler's leave (R308, R315, R335, R343).
(DESIGN CHOICE, log entry 89) -/
def twinLink (up : Bool) (s : State) : State :=
  if !s.twOn || s.on F.twStat_LINK = up || (up && !s.laneOn 6) then s
  else
    let (ok, s) := if up then trainLeave 12 s else (true, s)
    if !ok then s
    else
      let s := { (s.put F.twStat_LINK (b2n up)).put F.twEvt_LINKCHG 1 with tw := { s.tw with msg := none, fresh := false } }
      if up then s else partnerLost s

/-- TWIN_STATUS_TIMEOUT: the partner's STATUS for N is missing at N + CYC ÷ 2 (R315). -/
def twinTimeout (s : State) : State :=
  if !s.twOn || s.tw.msg.any (fun m => m.n == s.instN) || s.driving then s
  else
    let s := passTo (s.lastInst.getD s.tick + s.fld F.mgInst_CYC / 8) s
    partnerLost s

/-- TWIN_LISTEN_TIMEOUT: no STATUS within LISTEN ms (R311).
(DEDUCED, log entry 64) -/
def twinListen (s : State) : State :=
  match s.tw.listen with
  | none => s
  | some t =>
    let s := passTo t s
    if s.tw.msg.isSome then { s with tw := { s.tw with listen := none } }
    else if s.witness then s
    else nextRole 4 0 false { s with tw := { s.tw with listen := none } }

/-- TWIN_HOLDOFF_EXPIRE (R314, R317). -/
def twinHoldoff (s : State) : State :=
  let wait := s.fld F.twCfg0_HOLDOFF * 250000000
  let cause := s.fld F.twStat_CAUSE
  if s.twRole = 3 && (cause = 2 || cause = 4) then
    match s.tw.healthyFrom with
    | some t => nextRole 2 0 false (passTo (t + wait) s)
    | none => s
  else if s.twRole = 2 then
    match s.tw.standbyFrom with
    | some t => let s := passTo (t + wait) s; { s with tw := { s.tw with holdoff := true } }
    | none => s
  else s

/-- The stables in the output owners' affinity, whose code stores and spare banks a test covers (R313). -/
def State.testStables (s : State) : List Nat :=
  (List.range 16).filter fun n => s.outRegions.any fun k => s.inAffinity (s.rgOwner k) n

/-- A test reads back the code stores, counting what it finds (R144, R313). -/
def readStores (s : State) : State :=
  (s.code.filter fun e => s.testStables.contains (e.1 / 32768)).foldl
    (fun s e => (memRead (.code (Fin.ofNat 16 (e.1 / 32768)) (Fin.ofNat 32768 e.1)) s).2) s

/-- A code store of the stables in the output owners' affinity, or an output region, holds an uncorrectable word (R313). -/
def State.testFinds (s : State) : Bool :=
  let ns := s.testStables
  (if s.lost = 0 then s.code.any fun e => ns.contains (e.1 / 32768) && (readCode e.2).bad
    else ns.any fun n => (List.range 32768).any fun a => (readCode (s.raw (.code (Fin.ofNat 16 n) (Fin.ofNat 32768 a)))).bad)
    || s.mg.any fun e => s.outWord (.mg (Fin.ofNat 131072 e.1)) && (readCode e.2).bad

/-- TWIN_SELFTEST_END: `bist`: the memory BIST passed; `late`: the test has not finished within 20 ms, after which it fails; it
does not finish without the Ostler's leave (R313, R314, R335).
(DEDUCED, log entry 64) -/
def selftestEnd (bist late : Bool) (s : State) : State :=
  let limit := s.tw.testFrom + 5000000
  let tooLong := late || limit < s.tick
  if s.fld F.twStat_TST ≠ 1 || !(tooLong || s.pw.grants.any (·.use == .bist)) then s
  else
    let s := if tooLong then passTo limit s else s
    let (d, s) := digestOf (readStores s)
    let ok := bist && !tooLong && !s.testFinds && d == s.fld F.twDig_DIGEST
    let s := returnUse (fun u => u == .bist) s
    let s := s.put F.twStat_TST (if ok then 2 else 3)
    { s with tw := { s.tw with failed := !ok, ueSeen := false } }

/-- TWIN_STEST: CTL written with STEST; nothing while a test runs (R314). -/
def stest (s : State) : State := if s.twOn && s.fld F.twStat_TST ≠ 1 then startTest true s else s

/-! ### Commands -/

/-- TWIN_LINK_CHANGE. -/
def execTwinLinkChange (up : Bool) (s : State) : Host.Outcome State Fault Refusal := done s (twinLink up s)
/-- TWIN_STATUS_SEND. -/
def execTwinStatusSend (s : State) : Host.Outcome State Fault Refusal := done s (twinSend s)
/-- TWIN_STATUS_RECEIVE. -/
def execTwinStatusReceive (w0 w1 w2 : Word) (s : State) : Host.Outcome State Fault Refusal := done s (twinReceive w0 w1 w2 s)
/-- TWIN_SELFTEST_END. -/
def execTwinSelftestEnd (bist late : Bool) (s : State) : Host.Outcome State Fault Refusal := done s (selftestEnd bist late s)
/-- TWIN_STEST. -/
def execTwinStest (w : Who) (s : State) : Host.Outcome State Fault Refusal := done s (blockWriteQuiet w (·.supervisor w) stest s)
/-- TWIN_LISTEN_TIMEOUT. -/
def execTwinListenTimeout (s : State) : Host.Outcome State Fault Refusal := done s (twinListen s)
/-- TWIN_STATUS_TIMEOUT. -/
def execTwinStatusTimeout (s : State) : Host.Outcome State Fault Refusal := done s (twinTimeout s)
/-- TWIN_HOLDOFF_EXPIRE. -/
def execTwinHoldoffExpire (s : State) : Host.Outcome State Fault Refusal := done s (twinHoldoff s)
/-- DD_ENTRY_AGE_OUT. -/
def execDdEntryAgeOut (src : Word) (s : State) : Host.Outcome State Fault Refusal := done s (ddAge src.toNat s)

end Sys2Proof.Machine
end

