-- ==== Sys2Proof/Machine/Functions.lean ====
section
/-! DEFINITION. Functions: the reset sequence, function stops, release, and the commit of the function table (chapter 03). -/

namespace Sys2Proof.Machine

/-! ### The reset sequence (R55 to R58) -/

/-- Step 2 begins: the engines that run the function are to take the function-stop exception; a halted one loses its task
at once (R58, R108).
(DEDUCED, log entry 23) -/
def requestStops (f : Nat) (s : State) : State :=
  (s.running f).foldl (fun s e =>
    if s.on F.dbgStat_HALTED (e / 8) (e % 8) then discardTask e s else s.setE e { s.e e with stopPend := true }) s

/-- Nothing is written back to the descriptors of a function under reset (R238). -/
def closeFrames (f : Nat) (s : State) : State :=
  (s.yard.frames.filter fun e => e.2.any fun x => x.owes && x.chg == f).foldl (fun s e =>
    match e.2 with
    | some x => s.setFrame e.1 (if x.left = 0 then none else some { x with closed := true })
    | none => s) s

/-- A reset begins: STATE is RESETTING, and what the function had outstanding with others is cancelled (R58, R167, R339).
Where its partner is RESETTING too, the requests of each with the other count in the other's ABANDON (R60).
(DEDUCED, log entry 65) -/
def startReset (f : Nat) (s : State) : State :=
  let s := (s.put F.fnStatus_STATE 3 f).put F.fnStatus_RSTPEND 0 f
  let s := s.setFn f { s.fn f with releasing := false, awaits := [], stepAt := s.tick, cut := s.icOwners f }
  let both := s.knownFns.filter fun g => g ≠ f && s.fnState g = 3
  let s := both.foldl (fun s g => (s.bump F.fnCnt_ABANDON f 0 ((s.fn g).cut.filter (· == f)).length).bump
    F.fnCnt_ABANDON g 0 ((s.fn f).cut.filter (· == g)).length) s
  requestStops f (closeFrames f (icWithdraw (fun r => r.f == f) (cancelLeases f s)))

/-- FN[f].CTL written with RESET by one who may write it (R55, R57, R60).
(DEDUCED, log entry 65) -/
def requestReset (f : Nat) (s : State) : State :=
  let st := s.fnState f
  if f = 0 ∨ st = 0 ∨ st = 3 ∨ s.on F.fnStatus_RSTPEND f then s
  else match (s.fn f).lastDone with
    | some t => if s.tick < t + 16000 then s.put F.fnStatus_RSTPEND 1 f else startReset f s
    | none => startReset f s

/-- The 64 µs mark of a held reset (R55). -/
def holdExpire (f : Nat) (s : State) : State :=
  if !s.on F.fnStatus_RSTPEND f then s
  else match (s.fn f).lastDone with
    | some t => startReset f (passTo (t + 16000) s)
    | none => startReset f s

/-- The function-stop exception at an interrupt point (R58, R97, R98): the task is discarded, A and X take its descriptor.
(DEDUCED, log entries 23 and 65) -/
def functionStop (e : Nat) (s : State) : State :=
  let x := s.e e
  if !x.stopPend || x.exl || (x.slot.isSome && x.wait.isNone) || x.haltReq || s.on F.dbgStat_HALTED (e / 8) (e % 8) || !s.awake (e / 8) then s
  else
    let next := s.afterPc e
    let s := endTask e true (match x.cur with
      | some t => s.setE e { x with a := t.w0, x := t.w1 }
      | none => s)
    let s := s.setE e { s.e e with stopPend := false, cur := none }
    noteStopped x.fn (takeException e 8 0 false x.pc next s)

/-- The yard's frames of a function that have not begun to leave. -/
def State.framesOf (s : State) (f : Nat) : List Nat :=
  (s.yard.frames.filter fun p => p.2.any fun x => x.chg == f).map (·.1)

/-- The functions to which a frame still is to be delivered. -/
def State.receiversOf (s : State) (id : Nat) : List Nat :=
  ((List.range 40).map (· + 96)).flatMap fun k => (s.queue (k / 8) (k % 8)).filterMap fun q => if q.id = id then q.f else none

/-- Step 3: a frame of the function is dropped, without a disposition; one on the wire still ends (R58). A delivery to a
function that is RESETTING too counts there (R60). -/
def dropFrame (s : State) (id : Nat) : State :=
  match s.frame id with
  | none => s
  | some x =>
    let recv := if x.src.described then (s.receiversOf id).filter fun g => g ≠ x.chg && s.fnState g = 3 else []
    let s := recv.foldl (fun s g => s.bump F.fnCnt_ABANDON g) (unqueue id s)
    let k := s.sendingCopies id
    if k = 0 then (freeCells x.cells s).setFrame id none else s.setFrame id (some { x with left := k, closed := true })

/-- Step 4: a bank of the function passes to F0 once the hand-overs in flight are through (R58, R141).
(DEDUCED, log entry 65) -/
def returnBank (f : Nat) (s : State) (k : Nat) : State :=
  let n := k / 16
  let b := k % 16
  let s := (List.range 3).foldl (fun s _ => if Tab.get 0 (s.st n).xfer b ≠ 0 ∧
      (Tab.get 0 (s.st n).xfer b = f + 1 ∨ s.fld F.stBank_OWNER n b = f) then endDrain n b s else s) s
  if s.fld F.stBank_OWNER n b = f then
    noteOverq 0 s (((s.put F.stBank_OWNER 0 n b).put F.stBank_NEXT 0 n b).putShadow F.stBank_NEXT 0 n b)
  else s

/-- Step 7: a frame that another function sent to this one is dropped, its sender answered ABANDONED (R58, R63). -/
def abandonDelivery (f p c : Nat) (s : State) (q : QEnt) : State :=
  if q.f ≠ some f then s
  else
    let s := (s.setQueue p c ((s.queue p c).filter (· ≠ q))).bump F.ydFrx2_TASKREF f
    match s.frame q.id with
    | some x => copyDone q.id .sent (if x.src.described then (s.setFrame q.id (some { x with disp := some 6 })).bump F.fnCnt_ABANDON f else s)
    | none => s

/-- The deliveries to a function, over every class of the stable ports and the host port. -/
def abandonDeliveries (f : Nat) (s : State) : State :=
  ((List.range 40).map (· + 96)).foldl (fun s k => (s.queue (k / 8) (k % 8)).foldl (abandonDelivery f (k / 8) (k % 8)) s) s

/-- Steps 3 to 8 of a reset, once step 2 has ended and the drain is over (R58): with DRAIN set, frames are still sent for
up to 500 µs.
(DEDUCED, log entry 65) -/
def drainEnd (f : Nat) (s : State) : State :=
  if f = 0 ∨ s.fnState f ≠ 3 ∨ s.running f ≠ [] then s
  else
    let s := if s.on F.fnCfg_DRAIN f && s.framesOf f ≠ [] then passTo ((s.fn f).stepAt + 125000) s else s
    let s := (s.framesOf f).foldl dropFrame s
    let mine := (List.range 256).filter fun k => s.fld F.stBank_OWNER (k / 16) (k % 16) == f
    let s := (List.range 256).foldl (returnBank f) s
    let s := canOwnerReset f (pmOwnerReset f (mbResetEmpty f s))
    let s := clearNewMarks f (mbClearHeld f (purgeStale (s.put F.fnStatus_INC (s.inc f + 1) f)))
    let s := abandonDeliveries f (icAbandon f mine s)
    let x := s.fn f
    let s := (s.setFn f { x with lastDone := some s.tick, delPend := false, cut := [] }).put F.fnStatus_RSTDONE 1 f
    s.put F.fnStatus_STATE (if x.delPend then 0 else 1) f

/-- FN[f].CTL written with RELEASE by one who may write it (R59); a bank that drains to the function already is awaited too.
(DEDUCED, log entry 65) -/
def release (f : Nat) (s : State) : State :=
  if f = 0 ∨ s.fnState f ≠ 1 ∨ (s.fn f).releasing then s
  else
    let xfer := fun k => Tab.get 0 (s.st (k / 16)).xfer (k % 16)
    let mine := (List.range 256).filter fun k =>
      Tab.get 0 s.lay (F.stBank_NEXT.key (k / 16) (k % 16)) == f && s.fld F.stBank_OWNER (k / 16) (k % 16) == 0
        && (xfer k == 0 || xfer k == f + 1)
    let s := s.setFn f { s.fn f with releasing := true, awaits := mine }
    finishRelease f ((mine.filter fun k => xfer k == 0).foldl (fun s k => startDrain (k / 16) (k % 16) f s) s)

/-- Who may write FN[f].CTL (R57). -/
def State.mayFnCtl (s : State) (w : Who) (f : Nat) : Bool :=
  s.supervisor w || match w with
    | .vf r => s.vfOf f == r.val + 1
    | _ => false

/-- A write of FN[f].CTL: a virtual function that is not bound to the entry is ignored, others that may not are refused (R24,
R57). -/
def fnCtlWrite (w : Who) (f : Nat) (g : State → State) (s : State) : State :=
  if s.heard w then
    finish w (open_ s (match w with
      | .vf _ => quiet w (s.mayFnCtl w f) g s
      | _ => allow (s.mayFnCtl w f) s g))
  else s

/-! ### The function table's commit (R46, R62) -/

/-- A function that a delta defines becomes RUNNING as the FN set becomes active, and its start task is pushed (R46); its
shares govern at once.
(DEDUCED, log entry 65; DESIGN CHOICE, log entry 98) -/
def defineFn (s : State) (f : Nat) : State :=
  let x := s.fn f
  let s := s.setFn f { x with wasDef := true, maxP := s.fld F.fnShare_MAXSHARE f, minP := s.fld F.fnShare_MINSHARE f }
  let s := s.put F.fnStatus_INC (if x.wasDef then s.inc f + 1 else 0) f
  pushStart f (s.put F.fnStatus_STATE 2 f)

/-- The captured FN set becomes active: quotas govern at once, OVERQ is judged anew, and the functions whose entries a delta
brought with it become RUNNING (R46, R51, R62). -/
def activateFn (s : State) : State :=
  let t := activate .fn s
  let t :=
    if s.boot.newsHeld then { t with boot := { t.boot with newsHeld := false } }
    else (s.boot.news.filter fun f => t.fnState f = 0).foldl defineFn { t with boot := { t.boot with news := [] } }
  (List.range 512).foldl (fun t f => if t.fnState f = 0 then t else noteOverq f s t) t

/-! ### Commands -/

/-- FN_RESET: FN[f].CTL written with RESET.
(DESIGN CHOICE, log entry 9) -/
def execFnReset (w : Who) (f : Fin 512) (s : State) : Host.Outcome State Fault Refusal :=
  done s (fnCtlWrite w f (requestReset f) s)

/-- FN_RESET_HOLD_EXPIRE. -/
def execFnResetHoldExpire (f : Fin 512) (s : State) : Host.Outcome State Fault Refusal := done s (holdExpire f s)

/-- FUNCTION_STOP. -/
def execFunctionStop (e : Fin 128) (s : State) : Host.Outcome State Fault Refusal := done s (functionStop e s)

/-- FN_RELEASE: FN[f].CTL written with RELEASE. -/
def execFnRelease (w : Who) (f : Fin 512) (s : State) : Host.Outcome State Fault Refusal :=
  done s (fnCtlWrite w f (release f) s)

end Sys2Proof.Machine
end

