-- ==== Sys2Proof/Machine/Reset.lean ====
section
/-! DEFINITION. Resets of the logic die (R344): what each keeps, loss of power (R328, R377), and the commands that cause
them. The boot that follows is in `Boot.lean`. -/

namespace Sys2Proof.Machine

/-- The registers that a reset of the logic die leaves alone: those of the always-on domain (BOOTTRY and GC.BOOTCAUSE,
PW.CNT, PW.KSEC, CK.STAT.LOLCNT), the straps, the state of the power-path die in PW.SRC, and the key slots (R48, R344). -/
def keptFlds : List Fld :=
  [F.gcBootcause_RSTSRC, F.gcBootcause_TRIES, F.gcBootcause_CODE, F.gcBootcause_ERR, F.gcBootcause_SECT,
   F.gcBootcause_DETAIL, F.pwCnt_BOUNCE, F.pwCnt_HANDOVER, F.pwCnt_PREEMPT, F.pwCnt_REPLAY, F.pwKsec_ALM, F.pwKsec_SEC,
   F.ckStat_LOLCNT, F.ckStat_BOOTSRC, F.pwSrc_VBAK, F.pwSrc_ON, F.pwSrc_HSM, F.pwSrc_DEB, F.pwSrc_PDG, F.pwSrc_AUXG,
   F.pwSrc_BAKG, F.pwSrc_SCLS, F.pwSrc_ACLS, F.pwSrc_PDPORT, F.pwSrc_PFAIL, F.gcKeyslot_WRITTEN, F.gcKeyslot_REVOKED]

/-- Of these, the ones that a new power-on keeps: what the power-path die shows, and the key slots. -/
def ppdFlds : List Fld :=
  [F.pwSrc_VBAK, F.pwSrc_ON, F.pwSrc_HSM, F.pwSrc_DEB, F.pwSrc_PDG, F.pwSrc_AUXG, F.pwSrc_BAKG, F.pwSrc_ACLS,
   F.pwSrc_SCLS, F.pwSrc_PFAIL, F.gcKeyslot_WRITTEN, F.gcKeyslot_REVOKED]

/-- The register table with only the given fields left. -/
def keepOnly (fs : List Fld) (t : Tab Nat) : Tab Nat := t.filter fun e => fs.any fun f => f.id == keyFld e.1

/-- A program or erase that runs is cut off: its sector must be rewritten, and what it holds is open (R358).
(DEDUCED, log entry 67) -/
def cutFlash (s : State) : State :=
  match s.boot.flOp with
  | some (_, sec) =>
    if s.pw.grants.any (·.use == .flash) then
      let (k, s) := s.draw
      (List.range 512).foldl (fun s i => s.setFlash (512 * sec + i) (Config.cutSlot k (512 * sec + i))) s
    else s
  | none => s

/-- The state of the logic die goes, but for the given registers and what the memories hold.
(DESIGN CHOICE, log entry 66) -/
def wipe (keep : List Fld) (s : State) : State :=
  let s := cutFlash s
  { pending := s.pending, tick := s.tick, tkBase := s.tick, period := s.tick, fresh := s.fresh
    act := keepOnly keep s.act
    loft := s.loft, code := s.code, priv := s.priv, mg := s.mg, stage := s.stage, lost := s.lost, flash := s.flash
    pw := { bakFrom := s.pw.bakFrom, goodAt := s.pw.goodAt, hsmEnd := s.pw.hsmEnd, moveTo := s.pw.moveTo, handback := s.pw.handback
            latched := s.pw.latched, overtemp := s.pw.overtemp, alarmAt := s.pw.alarmAt
            onAt := s.pw.onAt, detected := s.pw.detected }
    boot := { straps := s.boot.straps, keyHash := s.boot.keyHash, erCnt := s.boot.erCnt, logAt := s.boot.logAt
              logTokens := s.boot.logTokens }
    out := s.out }

/-- A reset of the logic die from source `src` of R344. The memories are cleared, or not, once the root PLL locks (R146). -/
def logicReset (src : Nat) (s : State) : State := (wipe keptFlds s).put F.gcBootcause_RSTSRC src

/-- BOOTCAUSE records a boot event (R349). -/
def bootEvent (code err sect detail : Nat) (s : State) : State :=
  (((s.put F.gcBootcause_CODE code).put F.gcBootcause_ERR err).put F.gcBootcause_SECT sect).put F.gcBootcause_DETAIL detail

/-- A log record of GC.BOOTCAUSE: TYPE 1 a boot event, 2 a reset (R352).
(DEDUCED, log entry 86) -/
def logBoot (typ : Nat) (s : State) : State := logRecord typ [s.word .gcBootcause] s

/-- An attempt ends as a boot failure with its code, and the logic die is reset (R344, R346). -/
def bootFail (code err sect detail : Nat) (s : State) : State :=
  logicReset 4 (logBoot 1 (bootEvent code err sect detail s))

/-- VINT is lost: the part stops as at power-off. What survives is the flash die, the key slots, and what the power-path
die knows of its sources (R328, R377).
(DESIGN CHOICE, log entry 90) -/
def powerOff (s : State) : State :=
  let s := cutFlash s
  { pending := s.pending, tick := s.tick, tkBase := s.tick, period := s.tick, fresh := s.fresh
    act := keepOnly ppdFlds (((s.put F.pwSrc_ON 0).put F.pwSrc_HSM 0).put F.pwSrc_DEB 0).act
    flash := s.flash
    pw := { overtemp := s.pw.overtemp, goodAt := s.pw.goodAt, hsmEnd := s.pw.hsmEnd }
    boot := { phase := .off, straps := s.boot.straps, keyHash := s.boot.keyHash, erCnt := s.boot.erCnt
              logAt := s.boot.logAt }
    out := s.out }

/-- The flag of PW.SRC of a source: 0 VIN_PD, 1 VAUX, 2 VBAK.
(DEDUCED, log entry 77) -/
def srcFlag (k : Nat) : Fld := if k = 0 then F.pwSrc_PDG else if k = 1 then F.pwSrc_AUXG else F.pwSrc_BAKG

/-- The sources in the order in which VINT is taken from them (R325): 1 VIN_PD, 2 VAUX, 3 VBAK. -/
def State.srcOrder (s : State) : List Nat := if s.eff F.pwCfg0_SRCPRI (· ≥ 2) = 1 then [2, 1, 3] else [1, 2, 3]

/-- The source from which the PPD carries VINT (R325), 0 none.
(DEDUCED, log entry 77) -/
def State.bestSource (s : State) : Nat :=
  if s.pw.overtemp then 0 else (s.srcOrder.filter fun c => s.on (srcFlag (c - 1))).headD 0

/-- The good sources that R325 puts before the one in use, or before the one that a hand-back moves to, the best first (R329). -/
def State.better (s : State) : List Nat :=
  let on := if s.on F.pwSrc_HSM && s.pw.handback then s.pw.moveTo else s.fld F.pwSrc_ON
  (s.srcOrder.takeWhile (· ≠ on)).filter fun c => s.on (srcFlag (c - 1))

/-- The tick at which a source has been good for the 20 ms that a hand-back to it needs (R329). -/
def State.countEnd (s : State) (c : Nat) : Nat := max (Tab.get 0 s.pw.goodAt (c - 1)) s.pw.hsmEnd + 5000000

/-- DEB shows that a hand-back count runs: a better source is good and no hand-over runs (R329). -/
def showCount (s : State) : State := s.put F.pwSrc_DEB (b2n (!(s.on F.pwSrc_HSM && !s.pw.handback) && !s.better.isEmpty))

/-- SCLS shows the class that PDCLS straps, class 3 for a code that names none (R372). -/
def showClass (pdcls : Fin 8) (s : State) : State := s.put F.pwSrc_SCLS (if 1 ≤ pdcls.val ∧ pdcls.val ≤ 4 then pdcls else 1)

/-- PD_DETECTION: the PPD samples PDCLS at a detection, and the PSE allocates a class (R326, R372).
(DEDUCED, log entry 77) -/
def pdDetect (aclass pdcls : Fin 8) (s : State) : State :=
  let s := showClass pdcls (s.put F.pwSrc_ACLS aclass)
  { s with pw := { s.pw with detected := true } }

/-- Power-on: the always-on domain starts, the straps are sampled (PDCLS where no detection has), and the root PLL is to lock (R344, R345 step 1).
(DEDUCED, log entry 77) -/
def powerOn (st : Straps) (s : State) : State :=
  let src := s.bestSource
  let t : State :=
    { pending := s.pending, tick := s.tick, tkBase := s.tick, period := s.tick, fresh := s.fresh
      act := keepOnly ppdFlds s.act, flash := s.flash
      pw := { overtemp := s.pw.overtemp, goodAt := s.pw.goodAt, hsmEnd := s.pw.hsmEnd, onAt := s.tick, detected := s.pw.detected,
              bakFrom := if src = 3 then some s.tick else none }
      boot := { straps := st, keyHash := s.boot.keyHash, erCnt := s.boot.erCnt, logAt := s.boot.logAt }
      out := s.out }
  let t := ((t.put F.pwSrc_ON src).put F.pwSrc_PFAIL (b2n (src == 3))).put F.pwEvt_ONBAK (b2n (src == 3))
  let t := if s.pw.detected then t else showClass st.pdcls t
  (t.put F.pwSrc_PDPORT st.pdsel).put F.ckStat_BOOTSRC st.bootsrc

/-- Power-good after every source had failed, unless the power-path die is too hot to carry VINT (R344, R377). -/
def powerOnReset (st : Straps) (s : State) : State :=
  if !s.pw.overtemp && (s.boot.phase = .off || s.fld F.pwSrc_ON = 0) then powerOn st s else s

/-- RST_N low for `us` µs: shorter pulses than 10 µs are ignored (R344). -/
def rstN (us : Nat) (s : State) : State := if us < 10 ∨ s.boot.phase = .off then s else logicReset 1 s

/-- Out of lock for 1 µs or more (R343). -/
def lossOfLock (s : State) : State := if s.on F.ckStat_LOCK then logicReset 2 (s.bump F.ckStat_LOLCNT) else s

/-- The Farrier's firmware has been silent for 100 ms (R344). -/
def farrierWatchdog (code : Nat) (s : State) : State :=
  if s.clocksOn then logicReset 3 (bootEvent 7 0 0 code s) else s

/-- CK.RSTCTL written with KEY, CLRTRY and SWRST (R344, R346): CLRTRY acts before the reset of the same write. -/
def rstctl (key : Nat) (clr rst : Bool) (s : State) : State :=
  if key ≠ 0xA5 then s
  else
    let s := if clr then s.put F.gcBootcause_TRIES 0 else s
    if rst then logicReset 5 s else s

/-- The PPD's own die has passed 150 °C: it carries VINT from no source (R377). -/
def overtemp (s : State) : State := powerOff { s with pw := { s.pw with overtemp := true } }

/-- The PPD has cooled by 20 K and carries VINT again; the power-on reset that this brings samples the straps (R372, R377).
(DEDUCED, log entry 77) -/
def cooled (s : State) : State := { s with pw := { s.pw with overtemp := false } }

/-! ### Commands -/

/-- POWER_ON_RESET. -/
def execPowerOnReset (st : Straps) (s : State) : Host.Outcome State Fault Refusal := done s (powerOnReset st s)

/-- RST_N_RESET. -/
def execRstNReset (us : Nat) (s : State) : Host.Outcome State Fault Refusal := done s (rstN us s)

/-- LOSS_OF_LOCK. -/
def execLossOfLock (s : State) : Host.Outcome State Fault Refusal := done s (lossOfLock s)

/-- FARRIER_WATCHDOG_RESET. -/
def execFarrierWatchdogReset (code : Byte) (s : State) : Host.Outcome State Fault Refusal :=
  done s (farrierWatchdog code.toNat s)

/-- SOFTWARE_RESET: CK.RSTCTL written with SWRST, and with CLRTRY or without.
(DEDUCED, log entry 12) -/
def execSoftwareReset (w : Who) (key : Byte) (clr : Bool) (s : State) : Host.Outcome State Fault Refusal :=
  done s (sysWriteQuiet w (fun _ => notVf w) (rstctl key.toNat clr true) s)

/-- CLRTRY: CK.RSTCTL written with CLRTRY alone.
(DEDUCED, log entry 12) -/
def execClrtry (w : Who) (key : Byte) (s : State) : Host.Outcome State Fault Refusal :=
  done s (sysWriteQuiet w (fun _ => notVf w) (rstctl key.toNat true false) s)

/-- PPD_OVERTEMP. -/
def execPpdOvertemp (s : State) : Host.Outcome State Fault Refusal := done s (overtemp s)

/-- PPD_COOLED. -/
def execPpdCooled (s : State) : Host.Outcome State Fault Refusal := done s (cooled s)

end Sys2Proof.Machine
end

