-- ==== Sys2Proof/Machine/Image.lean ====
section
/-! DEFINITION. Layout images: their framing and signature (R30 to R34), the registers that each section fills, and the
order of validation (R37) with the range checks and cross-checks of every chapter. -/

namespace Sys2Proof.Machine

/-! ### Framing (R30 to R33) -/

/-- A section as it stands in an image: its place (1 for the first), its header, and its body. -/
structure Sec where
  idx : Nat
  typ : Nat
  live : Bool
  /-- The zero fields of its header are zero, and its whole body lies in the image. -/
  zeroOk : Bool
  whole : Bool
  sver : Nat
  scrc : Nat
  body : List Nat
  deriving DecidableEq, Repr

/-- The sections of an image, at most `n` of them, from the words that follow its header. -/
def parseSecs : Nat → Nat → List Nat → List Sec
  | n + 1, i, w0 :: w1 :: rest =>
    let len := bits w0 18 18
    { idx := i, typ := bits w0 40 8, live := w0.testBit 39, zeroOk := bits w0 36 3 == 0 && bits w0 0 18 == 0
      whole := len ≤ rest.length, sver := bits w1 32 16, scrc := bits w1 0 32, body := rest.take len }
      :: parseSecs n (i + 1) (rest.drop len)
  | _, _, _ => []

/-- An image as it was read: its stored slots, TOTALLEN of them or as many as its store holds, and its sections. -/
structure Img where
  slots : List Nat
  secs : List Sec
  deriving DecidableEq, Repr

/-- Read an image of at most `lim` slots through `get`. -/
def readImg (get : Nat → Nat) (lim : Nat) : Img :=
  let n := max 31 (min lim (bits (get 5) 0 18))
  let ws := (List.range n).map get
  { slots := ws, secs := parseSecs (bits (get 1) 0 16) 1 (ws.drop 31) }

/-- Word `k` of the header. -/
def Img.hd (m : Img) (k : Nat) : Nat := m.slots.getD k 0 % 2 ^ 48
def Img.kind (m : Img) : Nat := bits (m.hd 1) 36 4
def Img.inst (m : Img) : Bool := (m.hd 1).testBit 35
def Img.ver (m : Img) : Nat := bits (m.hd 2) 16 32
def Img.base (m : Img) : Nat := bits (m.hd 3) 16 32
def Img.sdn (m : Img) : Nat := bits (m.hd 4) 0 10
def Img.total (m : Img) : Nat := bits (m.hd 5) 0 18

/-- The 288-bit number in six words from word `k`, least significant word first (R31). -/
def wide (ws : List Nat) (k : Nat) : Nat := ((List.range 6).map fun i => (ws.getD (k + i) 0 % 2 ^ 48) * 2 ^ (48 * i)).sum

/-- The section of a type, and its body. -/
def Img.sec (m : Img) (t : Nat) : Option Sec := m.secs.find? (·.typ == t)
def Img.body (m : Img) (t : Nat) : List Nat := ((m.sec t).map (·.body)).getD []
def Img.has (m : Img) (t : Nat) : Bool := (m.sec t).isSome
/-- The place of the section of a type, 0 when it is absent. -/
def Img.at (m : Img) (t : Nat) : Nat := ((m.sec t).map (·.idx)).getD 0

/-- The word at which a section's header stands. -/
def Img.posOf (m : Img) (x : Sec) : Nat := 31 + ((m.secs.filter fun y => y.idx < x.idx).map fun y => 2 + y.body.length).sum

/-- The section that word `k` of the image lies in, 0 for the header (R37). -/
def Img.sectAt (m : Img) (k : Nat) : Nat :=
  ((m.secs.find? fun x => m.posOf x ≤ k && k < m.posOf x + 2 + x.body.length).map (·.idx)).getD 0

/-- The eight bytes of a stored slot, all 64 bits (R385). -/
def rawBytes (v : Nat) : List Byte := (List.range 8).map fun k => BitVec.ofNat 8 (byteOf v k)

/-- The digest that the signature covers: the stored bytes with words `a` to `b - 1` counted as zero (R32, R351). -/
def signedDigest (ws : List Nat) (a b : Nat) : Nat :=
  sha256 ((ws.zipIdx.map fun p => if a ≤ p.2 ∧ p.2 < b then 0 else p.1).flatMap rawBytes)

/-- The key of slot `k` is known: written, not revoked, and its hash right (R32). -/
def State.keyKnown (s : State) (k qx qy : Nat) : Bool :=
  s.on F.gcKeyslot_WRITTEN k && !s.on F.gcKeyslot_REVOKED k && qx < 2 ^ 256 && qy < 2 ^ 256
    && keyHash qx qy == Tab.get 0 s.boot.keyHash k

/-! ### What a section fills -/

/-- A field that an image writes: its instances i and j, and the value. -/
abbrev Wr := Fld × Nat × Nat × Nat

/-- A body word that has the layout of a register (i, j). -/
abbrev RegWord := RegId × Nat × Nat × Nat

/-- The fields of a register that an image may write: SH, LK and RW. -/
def RegId.imgFlds (r : RegId) : List Fld := r.flds.filter fun f => f.acc == .sh || f.acc == .lk || f.acc == .rw

/-- The field writes of a register word. -/
def RegWord.wrs (x : RegWord) : List Wr := x.1.imgFlds.map fun f => (f, x.2.1, x.2.2.1, bits x.2.2.2 f.lo f.width)

/-- Every bit outside the fields is zero. -/
def RegWord.zeroOk (x : RegWord) : Bool :=
  x.2.2.2 == (x.1.imgFlds.map fun f => bits x.2.2.2 f.lo f.width * 2 ^ f.lo).sum

/-- Word `k` of a body. -/
def wat (b : List Nat) (k : Nat) : Nat := b.getD k 0

/-- The FUNC entries: function number and six words (R35). -/
def funcEntries (b : List Nat) : List (Nat × List Nat) :=
  (List.range (bits (wat b 0) 0 10)).map fun e => (bits (wat b (1 + 6 * e)) 39 9, (List.range 6).map fun k => wat b (1 + 6 * e + k))

/-- DEL of a FUNC entry. -/
def entryDel (e : Nat × List Nat) : Bool := (wat e.2 0).testBit 38

/-- A YARD record (R237): its type, index and words. -/
structure YRec where
  rtype : Nat
  index : Nat
  words : List Nat
  zeroOk : Bool
  whole : Bool
  deriving DecidableEq, Repr

/-- The records of a YARD body; the fuel bounds their number. -/
def yardRecs : Nat → List Nat → List YRec
  | n + 1, h :: rest =>
    let k := bits h 0 16
    { rtype := bits h 40 8, index := bits h 24 16, words := rest.take k, zeroOk := bits h 16 8 == 0, whole := k ≤ rest.length }
      :: yardRecs n (rest.drop k)
  | _, _ => []

def recsOf (b : List Nat) : List YRec := yardRecs b.length b

/-- The registers that a YARD record's words fill (R237); a STATIC record fills none. -/
def YRec.regs (r : YRec) : List RegWord :=
  let w := fun k => wat r.words k
  match r.rtype with
  | 1 => [(.ydCfg, 0, 0, w 0)]
  | 2 =>
    let p := r.index
    [(.ydPcfg, p, 0, w 0), (.ydPcpmap, p, 0, w 1)] ++ ((List.range 8).map fun c => (.ydQcfg, p, c, w (2 + c)))
      ++ [(.ydGctl, p, 0, w 10), (.ydGbase0, p, 0, w 11), (.ydGbase1, p, 0, w 12), (.ydGcyc, p, 0, w 13)]
      ++ (List.range (r.words.length - 14)).map fun i => (.ydGcl, p, i, w (14 + i))
  | 3 => (List.range r.words.length).map fun i => (.ydVlan, r.index + i, 0, w i)
  | 5 => (List.range (r.words.length / 2)).flatMap fun i => [(.ydFrx0, r.index + i, 0, w (2 * i)), (.ydFrx1, r.index + i, 0, w (2 * i + 1))]
  | _ => []

/-- The static entries of a STATIC record: key and data. -/
def YRec.statics (r : YRec) : List (Nat × Nat) :=
  if r.rtype = 4 then (List.range (r.words.length / 2)).map fun i => (wat r.words (2 * i), wat r.words (2 * i + 1)) else []

/-- The number of words that a record of its type must have is right, and its index exists. -/
def YRec.countOk (r : YRec) : Bool :=
  let n := r.words.length
  match r.rtype with
  | 1 => r.index == 0 && n == 1
  | 2 => r.index ≤ 16 && n == 14 + (if (wat r.words 10).testBit 47 then bits (wat r.words 10) 35 9 else 0)
  | 3 => 0 < n && r.index + n ≤ 4096
  | 4 => r.index == 0 && n % 2 == 0
  | 5 => 0 < n && n % 2 == 0 && r.index + n / 2 ≤ 512
  | _ => false

/-- The registers that a section's body fills word by word: CLK (R357), PWR (R340), FUNC (R35), PORT (R187, R206), YARD,
TIME (R257), PADK (R277), CAN (R282), PIO (R306), the bindings and regions of MEM (R153, R184), and TWIN (R322). -/
def secRegs (typ : Nat) (b : List Nat) : List RegWord :=
  match typ with
  | 1 => [(.ckCfg0, 0, 0, wat b 0), (.faCfg0, 0, 0, wat b 1), (.faTelda, 0, 0, wat b 2)]
  | 2 => [(.pwCfg0, 0, 0, wat b 0), (.pwCfg1, 0, 0, wat b 1), (.pwOctl, 0, 0, wat b 2)]
  | 3 => (funcEntries b).flatMap fun e =>
      [(.fnCfg, e.1, 0, wat e.2 0 % 2 ^ 38), (.fnShare, e.1, 0, wat e.2 1), (.fnQuota, e.1, 0, wat e.2 2),
       (.fnBudget, e.1, 0, wat e.2 3), (.fnName, e.1, 0, wat e.2 4), (.fnName, e.1, 1, wat e.2 5)]
  | 5 => ((List.range 12).flatMap fun n =>
        [(.epCfg0, n, 0, wat b (3 * n)), (.epCfg1, n, 0, wat b (3 * n + 1)), (.epCfg2, n, 0, wat b (3 * n + 2))])
      ++ (List.range 4).flatMap fun k => [(.epIpcfg0, k, 0, wat b (36 + 2 * k)), (.epIpcfg1, k, 0, wat b (37 + 2 * k))]
  | 6 => (recsOf b).flatMap YRec.regs
  | 7 => ((List.range 8).map fun i => (.tcCfg, i, 0, wat b i))
      ++ ((List.range 2).flatMap fun j => [(.svCfg0, j, 0, wat b (8 + 2 * j)), (.svCfg1, j, 0, wat b (9 + 2 * j))])
      ++ ((List.range 8).map fun r => (.refCfg, r, 0, wat b (12 + r)))
      ++ (List.range 8).flatMap fun g =>
        [(.pgCfg, g, 0, wat b (20 + 4 * g)), (.pgSsec, g, 0, wat b (21 + 4 * g)), (.pgSns, g, 0, wat b (22 + 4 * g)),
         (.pgPer, g, 0, wat b (23 + 4 * g))]
  | 8 => [(.pdCfg0, 0, 0, wat b 0), (.pdCfg1, 0, 0, wat b 1), (.pdCfg2, 0, 0, wat b 2)]
      ++ (List.range ((b.length - 3) / 2)).flatMap fun k => [(.pdSlotA, k, 0, wat b (3 + 2 * k)), (.pdSlotB, k, 0, wat b (4 + 2 * k))]
  | 9 => (List.range 4).flatMap fun n =>
      [(.canCfg0, n, 0, wat b (259 * n)), (.canNbt, n, 0, wat b (259 * n + 1)), (.canDbt, n, 0, wat b (259 * n + 2))]
        ++ (List.range 128).flatMap fun i => [(.canFltA, n, i, wat b (259 * n + 3 + 2 * i)), (.canFltB, n, i, wat b (259 * n + 4 + 2 * i))]
  | 10 => ((List.range 64).map fun j => (.piPin, j / 16, j % 16, wat b j))
      ++ (List.range 32).flatMap fun k =>
        [(.pmCfg0, k / 8, k % 8, wat b (64 + 19 * k)), (.pmCfg1, k / 8, k % 8, wat b (65 + 19 * k)),
         (.pmCfg2, k / 8, k % 8, wat b (66 + 19 * k))]
          ++ (List.range 16).map fun i => (.pmProg, k / 8, 16 * (k % 8) + i, wat b (67 + 19 * k + i))
  | 11 => ((List.range 2048).map fun k => (.mbEnd, k / 2, k % 2, wat b (64 + k)))
      ++ [(.mgInst, 0, 0, wat b 2112 + bits (wat b 2113) 24 16 * 2 ^ 24), (.mgPh, 0, 0, wat b 2113 % 2 ^ 24)]
      ++ (List.range 64).flatMap fun k =>
        [(.mgCfg0, k, 0, wat b (2114 + 4 * k)), (.mgCfg1, k, 0, wat b (2115 + 4 * k)), (.mgCfg2, k, 0, wat b (2116 + 4 * k)),
         (.mgCfg3, k, 0, wat b (2117 + 4 * k))]
  | 12 => [(.twCfg0, 0, 0, wat b 0), (.twCfg1, 0, 0, wat b 1), (.twCfg2, 0, 0, wat b 2), (.twCfg3, 0, 0, wat b 3),
      (.twCfg4, 0, 0, wat b 4), (.twCfg5, 0, 0, wat b 5)]
  | _ => []

/-- The bank owners of MEM (R142). -/
def bankOwners (b : List Nat) : List Wr :=
  (List.range 256).map fun k => (F.stBank_NEXT, k / 16, k % 16, bits (wat b (k / 4)) (12 * (k % 4)) 9)

/-- The stables of STBL (R127). -/
def stblWrs (b : List Nat) : List Wr :=
  (List.range 16).flatMap fun n =>
    let w := wat b (1 + n)
    [(F.stCfg_EN, n, 0, bits (wat b 0) n 1), (F.stCfg_TACK, n, 0, bits w 40 8), (F.stCfg_ENTRY, n, 0, bits w 24 16),
     (F.stSched_QUANT, n, 0, bits w 12 12), (F.stSched_GATEIDLE, n, 0, bits w 4 8), (F.stSched_XCOST, n, 0, bits (wat b 0) 16 12)]

/-- The start tasks of STBL (R128). -/
def stblStarts (b : List Nat) : List (Nat × Word) := (b.drop 18).map fun w => (bits w 39 9, wd w)

/-- Every field that a section writes. A deleted function's entry writes none. -/
def secWrs (typ : Nat) (b : List Nat) : List Wr :=
  let dels := if typ = 3 then (funcEntries b).filterMap fun e => if entryDel e then some e.1 else none else []
  ((secRegs typ b).filter fun x => !(typ == 3 && dels.contains x.2.1)).flatMap RegWord.wrs
    ++ (if typ = 11 then bankOwners b else if typ = 4 then stblWrs b else [])

/-! ### Ranges and reserved values (code 10) -/

/-- The value of a register word's field. -/
def fv (f : Fld) (w : Nat) : Nat := bits w f.lo f.width

/-- IF is a code that the table of R185 allows on the port. -/
def ifAllowed (p i : Nat) : Bool := i == 0 || ifOk p i

/-- No field of the register word is reserved or out of range. Ranges of a part that is not in use (an interface off, a
servo, generator, controller, machine or slot not enabled) are not judged. -/
def rangeOk (x : RegWord) : Bool :=
  let w := x.2.2.2
  match x.1 with
  | .ckCfg0 => fv F.ckCfg0_CLKOUT w ≤ 2
  | .faCfg0 => fv F.faCfg0_TELDST w ≤ 2
  | .pwCfg0 => fv F.pwCfg0_REQCLS w ≤ 4 && fv F.pwCfg0_SRCPRI w ≤ 1 && 2500 ≤ fv F.pwCfg0_VBAKLO w
  | .pwCfg1 => fv F.pwCfg1_WAKEMASK w < 64 && fv F.pwCfg1_PSINIT w ≤ 1
  | .pwOctl => 100 ≤ fv F.pwOctl_CAP w && 750 ≤ fv F.pwOctl_RAMPINT w
  | .fnShare => fv F.fnShare_MINSHARE w ≤ 2048 && fv F.fnShare_MAXSHARE w ≤ 2048 && fv F.fnShare_TASKLIM w ≤ 4096
  | .fnQuota => fv F.fnQuota_CELLS w ≤ 16384 && fv F.fnQuota_BANKS w ≤ 256 && fv F.fnQuota_REGIONS w ≤ 64 && fv F.fnQuota_MBOXES w ≤ 1024
  | .fnName => (List.range 6).all fun k => byteOf w k < 128
  | .epCfg0 => ifAllowed x.2.1 (fv F.epCfg0_IF w) && (fv F.epCfg0_IF w != 1 || fv F.epCfg0_ADV w != 0)
  | .ydPcfg => fv F.ydPcfg_ACCEPT w ≤ 2
  | .ydQcfg => fv F.ydQcfg_K w ≤ 3 || 12 ≤ fv F.ydQcfg_K w
  | .ydGctl => fv F.ydGctl_EN w == 0 || (1 ≤ fv F.ydGctl_LEN w && fv F.ydGctl_LEN w ≤ 256)
  | .ydGcyc => 1000 ≤ fv F.ydGcyc_CYC w && fv F.ydGcyc_CYC w ≤ 999999996
  | .ydGcl => fv F.ydGcl_OP w ≤ 2 && 1 ≤ fv F.ydGcl_INTERVAL w
  | .ydFrx0 => fv F.ydFrx0_KIND w ≤ 2 && (fv F.ydFrx0_KIND w == 0 || (1 ≤ fv F.ydFrx0_SLOTW w && 1 ≤ fv F.ydFrx0_NSLOT w))
  | .svCfg0 => [F.svCfg0_KPA, F.svCfg0_KIA, F.svCfg0_KP, F.svCfg0_KI].all (fun f => fv f w ≤ 40)
      && 1 ≤ fv F.svCfg0_LOCKN w
  | .svCfg1 => 1 ≤ fv F.svCfg1_LOCKTH w && 1 ≤ fv F.svCfg1_RAMPW w
  | .refCfg => fv F.refCfg_KIND w ≤ 4 && 1 ≤ fv F.refCfg_TIMEOUT w
      && (fv F.refCfg_KIND w != 4 || (1000 ≤ fv F.refCfg_PARAM w && fv F.refCfg_PARAM w ≤ 25000))
  | .pgCfg => 8 ≤ fv F.pgCfg_WID w
  | .pgSns => fv F.pgSns_NS w < 1000000000
  | .pdCfg0 => fv F.pdCfg0_ROLE w ≤ 5 && 16 ≤ fv F.pdCfg0_GUARD w && 2 ≤ fv F.pdCfg0_WIN w &&
      (fv F.pdCfg0_CYC w == 62500 || (63000 ≤ fv F.pdCfg0_CYC w && fv F.pdCfg0_CYC w ≤ 8000000 && fv F.pdCfg0_CYC w % 1000 == 0))
  | .pdCfg1 => 1 ≤ fv F.pdCfg1_LISTEN w
  | .pdCfg2 => fv F.pdCfg2_NSLOT w ≤ 1024
  | .pdSlotA => fv F.pdSlotA_KIND w ≤ 4 && (fv F.pdSlotA_KIND w == 0 || (1 ≤ fv F.pdSlotA_LEN w && fv F.pdSlotA_LEN w ≤ 240))
      && (fv F.pdSlotA_KIND w != 1 || fv F.pdSlotA_LEN w == 3)
  | .pdSlotB => fv F.pdSlotB_MISSV w ≤ 2
  | .canCfg0 => fv F.canCfg0_MODE w ≤ 4
  | .canNbt => 1 ≤ fv F.canNbt_NTSEG1 w
  | .canFltA => fv F.canFltA_DEST w ≤ 2
  | .piPin => fv F.piPin_FUNC w ≤ 2 && fv F.piPin_SAFE w ≤ 2 && fv F.piPin_PULL w ≤ 2
  | .pmCfg0 => fv F.pmCfg0_POOL w ≤ 2 && (fv F.pmCfg0_EN w == 0 || 1 ≤ fv F.pmCfg0_STEPI w)
  | .pmCfg1 => fv F.pmCfg1_DN w ≤ 16 && fv F.pmCfg1_CN w ≤ 4 && fv F.pmCfg1_AUXN w ≤ 4
  | .pmCfg2 => fv F.pmCfg2_TLEN w ≤ 48 && fv F.pmCfg2_RTH w ≤ 48
  | .mbEnd => fv F.mbEnd_KIND w ≤ 2 && (fv F.mbEnd_KIND w != 2 || fv F.mbEnd_ID w ≤ 15)
      && (fv F.mbEnd_KIND w != 1 || bits (fv F.mbEnd_DBT w) 8 3 == 0)
  | .mgInst => 62500 ≤ fv F.mgInst_CYC w && fv F.mgInst_CYC w ≤ 8000000 && fv F.mgInst_CYC w % 4 == 0
  | .mgCfg0 => fv F.mgCfg0_SIZE w ≤ 4096 && fv F.mgCfg0_KIND w ≤ 2 && fv F.mgCfg0_FAILV w ≤ 1
  | .mgCfg1 => fv F.mgCfg1_SRC w ≤ 2
  | .twCfg0 => fv F.twCfg0_WITNESS w ≤ 2 && 1 ≤ fv F.twCfg0_HOLDOFF w && 1 ≤ fv F.twCfg0_MATCHN w && 1 ≤ fv F.twCfg0_LISTEN w
  | .twCfg4 => 1 ≤ fv F.twCfg4_ZGPER w
  | .twCfg5 => [F.twCfg5_MODE0, F.twCfg5_MODE1, F.twCfg5_MODE2, F.twCfg5_MODE3].all fun f => fv f w ≤ 2
  | _ => true

/-- The length that a section's body must have. -/
def lengthOk (typ : Nat) (b : List Nat) : Bool :=
  match typ with
  | 1 => b.length == 3
  | 2 => b.length == 3
  | 3 => b.length == 1 + 6 * bits (wat b 0) 0 10 && wat b 0 < 1024
  | 4 => b.length == 18 + bits (wat b 17) 0 10
  | 5 => b.length == 44
  | 7 => b.length == 52
  | 8 => b.length == 3 + 2 * bits (wat b 2) 0 11
  | 9 => b.length == 1036
  | 10 => b.length == 672
  | 11 => b.length == 2370
  | 12 => b.length == 6
  | 13 => b.length == 1
  | _ => true

/-- The numbers rise strictly. -/
def rising (xs : List Nat) : Bool := (xs.zip (xs.drop 1)).all fun p => p.1 < p.2

/-- Checks of code 10 that look at more than one word of a section.
(DEDUCED, log entry 68) -/
def sectionOk (full : Bool) (typ : Nat) (b : List Nat) : Bool :=
  match typ with
  | 3 =>
    let es := funcEntries b
    rising (es.map (·.1)) && (!full || (es.head?.map (·.1)) == some 0)
      && es.all fun e => !(entryDel e && (full || e.1 == 0)) && bits (wat e.2 0) 0 14 == 0
  | 4 => bits (wat b 0) 28 20 == 0 && 12 ≤ bits (wat b 0) 16 12 && wat b 17 < 512
      && ((List.range 16).all fun n => bits (wat b (1 + n)) 0 4 == 0 && 200 ≤ bits (wat b (1 + n)) 12 12)
      && (let fns := (b.drop 18).map fun w => bits w 39 9
          (fns.zip (fns.drop 1)).all fun p => p.1 ≤ p.2)
      && (b.drop 18).all fun w => bits w 29 10 == 0 && bits w 27 1 == 0
  | 5 => ((List.range 12).all fun n =>
        let c := wat b (3 * n)
        let d := wat b (3 * n + 2)
        1518 ≤ fv F.epCfg2_MAXFRM d && fv F.epCfg2_MAXFRM d ≤ 9728
          && (fv F.epCfg2_TXTH0 d == 0 || 128 * fv F.epCfg2_TXTH0 d < fv F.epCfg2_MAXFRM d)
          && (fv F.epCfg0_EEE c == 0 || fv F.epCfg2_LPIIDLE d != 0))
      && (List.range 4).all fun k =>
        let c := wat b (36 + 2 * k)
        fv F.epIpcfg0_EN c == 0 || (fv F.epIpcfg0_PA c < fv F.epIpcfg0_PB c && fv F.epIpcfg0_PB c ≤ 11)
  | 6 => (recsOf b).all fun r => r.zeroOk && r.whole && r.countOk
      && r.statics.all fun e => bits e.2 12 12 == 0
  | 7 => (List.range 8).all fun g => wat b (23 + 4 * g) == 0 || fv F.pgCfg_WID (wat b (20 + 4 * g)) < wat b (23 + 4 * g)
  | 8 => 5 * fv F.pdCfg1_INSTOFS (wat b 1) < fv F.pdCfg0_CYC (wat b 0)
  | 10 => (List.range 32).all fun k => fv F.pmCfg0_EN (wat b (64 + 19 * k)) == 0 || 1 ≤ fv F.pmCfg1_DN (wat b (65 + 19 * k))
  | 11 => ((List.range 64).all fun k => (List.range 4).all fun i => bits (wat b k) (12 * i + 9) 3 == 0)
      && wat b 2112 < 2 ^ 23 && bits (wat b 2113) 23 1 == 0 && bits (wat b 2113) 40 8 == 0
      && bits (wat b 2113) 0 23 < bits (wat b 2112) 0 23
  | 13 => wat b 0 < 32
  | _ => true

/-- A section's fields pass the checks of code 10.
(DEDUCED, log entry 68) -/
def fieldsOk (full : Bool) (x : Sec) : Bool :=
  x.zeroOk && lengthOk x.typ x.body && sectionOk full x.typ x.body
    && (secRegs x.typ x.body).all fun r =>
      rangeOk r && (r.zeroOk || ((r.1 == .epIpcfg0 || r.1 == .epIpcfg1) && fv F.epIpcfg0_EN (wat x.body (36 + 2 * r.2.1)) == 0))

/-- The header passes the checks of code 10 (R31). -/
def headerOk (m : Img) : Bool :=
  bits (m.hd 1) 24 11 == 0 && bits (m.hd 1) 0 16 != 0 && bits (m.hd 2) 0 16 == 0 && bits (m.hd 3) 0 16 == 0
    && bits (m.hd 4) 10 14 == 0 && bits (m.hd 5) 18 30 == 0 && bits (m.hd 6) 2 46 == 0
    && (m.kind == 1 || (!m.inst && m.base == 0))

end Sys2Proof.Machine
end

