-- ==== Sys2Proof/Machine/Check.lean ====
section
/-! DEFINITION. The cross-checks of a layout image (code 11 of R37), each judged on the state as it would stand after the
image, and the order of validation (R37). -/

namespace Sys2Proof.Machine

/-! ### The flash directory (R351) -/

/-- Word `k` of directory copy `c`, without bits 63:48. -/
def State.dirWord (s : State) (c k : Nat) : Nat := (s.flashAt (512 * c + k)).toNat % 2 ^ 48

/-- A directory copy is valid when its magic and CRC are right (R351). -/
def State.dirValid (s : State) (c : Nat) : Bool :=
  s.dirWord c 0 == 0x54534B444952 && (s.flashAt (512 * c)).toNat < 2 ^ 48
    && s.dirWord c 511 == crc32c ((List.range 511).flatMap fun k => rawBytes (s.flashAt (512 * c + k)).toNat)

/-- The copy that is used: the valid one with the newer DSEQ, copy 0 where both are equal (R351).
(DEDUCED, log entry 70) -/
def State.dirCopy (s : State) : Option Nat :=
  match s.dirValid 0, s.dirValid 1 with
  | true, true => if sdiff 32 (bits (s.dirWord 1 1) 16 32) (bits (s.dirWord 0 1) 16 32) > 0 then some 1 else some 0
  | true, false => some 0
  | false, true => some 1
  | false, false => none

/-- A tack as the directory describes it. -/
structure Tack where
  start : Nat
  len : Nat
  valid : Bool
  key : Nat
  deriving DecidableEq, Repr

def State.tackAt (s : State) (c t : Nat) : Tack :=
  let a := s.dirWord c (2 + 2 * t)
  let b := s.dirWord c (3 + 2 * t)
  ⟨bits a 24 24, bits a 0 24, b.testBit 2, bits b 0 2⟩

/-- The directory has an entry for the tack: its LEN is nonzero.
(DEDUCED, log entry 70) -/
def State.tackNamed (s : State) (c t : Nat) : Bool := t ≤ 253 && (s.tackAt c t).len != 0

/-! ### The state as it would stand -/

/-- A field writes, every section of an image. -/
def Img.wrs (m : Img) : List Wr := m.secs.flatMap fun x => secWrs x.typ x.body

/-- The functions that a delta deletes. -/
def Img.dels (m : Img) : List Nat := ((funcEntries (m.body 3)).filter entryDel).map (·.1)

/-- The registers after an image (R37, R45): a full image fills an empty set; a delta adds to what is committed with it,
the shadows of every live section, and the banks of the functions that it deletes are F0's (R58, R141).
(DEDUCED, log entry 70) -/
def candidate (full : Bool) (m : Img) (s : State) : State :=
  let s := if full then s else { s with act := allBlocks.foldl (fun a b => copyBlk b s.shd a) s.act }
  let gone := if full then [] else m.dels
  let s := (List.range 256).foldl (fun s k =>
    if gone.contains (s.fld F.stBank_OWNER (k / 16) (k % 16)) then s.put F.stBank_NEXT 0 (k / 16) (k % 16) else s) s
  m.wrs.foldl (fun s w => s.put w.1 w.2.2.2 w.2.1 w.2.2.1) s

/-- The functions defined after the image. -/
def Img.defs (m : Img) (full : Bool) (s : State) : List Nat :=
  let es := funcEntries (m.body 3)
  let old := if full then [] else (List.range 512).filter fun f =>
    s.fnState f ≠ 0 && !es.any fun e => e.1 == f && entryDel e
  old ++ (es.filter fun e => !entryDel e && !old.contains e.1).map (·.1)

/-- Every value of the list occurs once. -/
def distinct (xs : List Nat) : Bool := xs.eraseDups.length == xs.length

/-! ### Cross-checks, each with the sections it involves -/

/-- A cross-check: the section types it involves and whether it holds. -/
abbrev Check := List Nat × Bool

/-- How many stables a function's affinity names. -/
def State.affN (t : State) (f : Nat) : Nat := ones 16 (t.fld F.fnCfg_AFFINITY f)

/-- A stable is enabled. -/
def State.stEn (t : State) (n : Nat) : Bool := t.on F.stCfg_EN n

/-- The function table (R36). -/
def fnChecks (defs : List Nat) (t : State) : List Check :=
  [([3], defs.all fun f => t.fld F.fnShare_MINSHARE f ≤ t.fld F.fnShare_MAXSHARE f
      && t.fld F.fnShare_MAXSHARE f ≤ 128 * t.affN f),
   ([3], (defs.map fun f => t.fld F.fnShare_MINSHARE f).sum ≤ 2048),
   ([3], defs.all fun f => t.affN f != 0),
   ([3, 4], defs.all fun f => (List.range 16).all fun n => !t.inAffinity f n || t.stEn n)]

/-- Clocks and power (R340, R357). -/
def clkChecks (t : State) : List Check :=
  [([1, 5], (List.range 6).all fun i => let c := t.fld F.epCfg0_IF (4 + i)
      !(5 ≤ c && c ≤ 10) || (t.fld F.ckCfg0_LANEEN).testBit i),
   ([1, 12], !t.on F.twCfg0_EN || (t.fld F.ckCfg0_LANEEN).testBit 6),
   ([1, 4], (List.range 16).all fun n => t.fld F.stCfg_TACK n ≤ 253 || t.fld F.stCfg_TACK n == 255),
   ([2], t.fld F.pwCfg0_REQCLS ≤ t.fld F.pwSrc_SCLS),
   ([2], t.fld F.pwCfg1_WAKEMASK != 0 || t.fld F.pwCfg0_RIDE == 0)]

/-- The stables and start tasks (R128); `dir` is the directory copy in use.
(DEDUCED, log entry 68) -/
def stChecks (defs : List Nat) (dir : Option Nat) (starts : List (Nat × Word)) (t : State) : List Check :=
  let tack := fun n => t.fld F.stCfg_TACK n
  [([4], (List.range 16).all fun n => if tack n = 255 then !t.stEn n else dir.all fun c => t.tackNamed c (tack n)),
   ([4], distinct (starts.map (·.1))),
   ([3, 4], starts.all fun x => x.2.getLsbD 28 || !defs.contains x.1 ||
      (((List.range 16).filter fun n => t.inAffinity x.1 n).map tack).eraseDups.length ≤ 1)]

/-- The rate in Mb/s of an interface that may run in passing (R207). -/
def inpassRate (i : Nat) : Nat := ([(3, 100), (4, 1000), (6, 1000), (7, 100), (8, 2500), (10, 10000)].lookup i).getD 0

/-- DLY lies in the range of R213. -/
def dlyOk (rate d : Nat) : Bool :=
  if rate = 100 then 240 ≤ d && d ≤ 40320
  else if rate = 1000 then 40 ≤ d && d ≤ 4032
  else if rate = 2500 then 40 ≤ d && d ≤ 1612
  else 40 ≤ d && d ≤ 403

/-- The ports and pairs (R187, R207). -/
def portChecks (t : State) : List Check :=
  let ks := (List.range 4).filter fun k => t.on F.epIpcfg0_EN k
  let st := fun k => t.fld F.epIpcfg0_STBL k
  let fn := fun k => t.fld F.epIpcfg0_FN k
  let ps := fun k => [t.fld F.epIpcfg0_PA k, t.fld F.epIpcfg0_PB k]
  [([5], (List.range 12).all fun p => !t.on F.epCfg0_HDX p || !(t.on F.epCfg0_PREEMPT p || t.on F.epCfg0_EEE p)),
   ([5], ks.all fun k => let r := (ps k).map fun p => inpassRate (t.fld F.epCfg0_IF p)
      r.all (· != 0) && r.eraseDups.length == 1 && dlyOk (r.headD 0) (t.fld F.epIpcfg1_DLY k)),
   ([5], ks.all fun k => (ps k).all fun p => [F.epCfg0_HDX, F.epCfg0_EEE, F.epCfg0_PREEMPT, F.epCfg0_PAUSEEN].all fun f => !t.on f p),
   ([5], distinct (ks.flatMap ps) && distinct (ks.map st)),
   ([4, 5], ks.all fun k => t.stEn (st k)),
   ([3, 5], ks.all fun k => t.inAffinity (fn k) (st k)),
   ([5, 11], ks.all fun k => t.fld F.stBank_NEXT (st k) 14 == fn k && t.fld F.stBank_NEXT (st k) 15 == fn k),
   ([5], ks.all fun k => !(t.on F.epIpcfg0_M0 k && t.fld F.epIpcfg1_RG0 k == 0) && !(t.on F.epIpcfg0_M1 k && t.fld F.epIpcfg1_RG1 k == 0))]

/-- Bank owners and their quota (R36, R142). -/
def bankChecks (defs : List Nat) (t : State) : List Check :=
  let own := (List.range 256).map fun k => (k / 16, t.fld F.stBank_NEXT (k / 16) (k % 16))
  [([3, 11], own.all fun x => x.2 == 0 || defs.contains x.2),
   ([4, 11], own.all fun x => x.2 == 0 || t.stEn x.1),
   ([3, 11], defs.all fun f => (own.filter (·.2 == f)).length ≤ t.fld F.fnQuota_BANKS f)]

/-- Mailbox bindings (R36, R154, R362). -/
def mbChecks (defs : List Nat) (t : State) : List Check :=
  let kind := t.endKind
  let id := fun m sd => t.fld F.mbEnd_ID m sd
  let ms := (List.range 1024).filter fun m => kind m 0 != 0 || kind m 1 != 0
  let ends := ms.flatMap fun m => [(m, 0), (m, 1)]
  let fns := ends.filter fun e => kind e.1 e.2 == 1
  [([11], ms.all fun m => kind m 0 != 0 && kind m 1 != 0 && !(kind m 0 == 2 && kind m 1 == 2)
      && !(kind m 0 == 1 && kind m 1 == 1 && id m 0 == id m 1)),
   ([11], ends.all fun e => kind e.1 e.2 != 2 || t.fld F.mbEnd_DBT e.1 e.2 / 128 == id e.1 e.2),
   ([3, 11], fns.all fun e => (id e.1 e.2 == 0 || defs.contains (id e.1 e.2))
      && t.inAffinity (id e.1 e.2) (t.fld F.mbEnd_DBT e.1 e.2 % 128 / 8)),
   ([3, 11], defs.all fun f => (ms.filter fun m => [0, 1].any fun sd => kind m sd == 1 && id m sd == f).length ≤ t.fld F.fnQuota_MBOXES f)]

/-- The words that a region takes. -/
def State.rgWords (t : State) (k : Nat) : Nat := t.fld F.mgCfg0_SIZE k * (if t.on F.mgCfg0_TRIPLE k then 3 else 1)

/-- Manger regions (R36, R172, R184); CYC is compared once a PADK section has given the bus its cycle. -/
def mgChecks (given : Bool) (defs : List Nat) (t : State) : List Check :=
  let ks := (List.range 64).filter fun k => t.fld F.mgCfg0_SIZE k != 0
  let base := fun k => t.fld F.mgCfg0_BASE k
  let pub := fun k => t.fld F.mgCfg2_PUB k
  [([11], ks.all fun k => base k + t.rgWords k ≤ 131072 && ks.all fun j => j == k || base k + t.rgWords k ≤ base j || base j + t.rgWords j ≤ base k),
   ([11], ks.all fun k => t.on F.mgCfg0_TRIPLE k || (t.rgSrc k == 0 && pub k == 0)),
   ([11], ((ks.filter fun k => pub k != 0).map fun k => t.fld F.mgCfg0_SIZE k).sum ≤ 4096),
   ([11], ks.all fun k => !(pub k == 1 || pub k == 3) || t.fld F.mgCfg0_SIZE k ≤ 3840),
   ([3, 11], ks.all fun k => t.fld F.mgCfg0_OWNER k == 0 || defs.contains (t.fld F.mgCfg0_OWNER k)),
   ([3, 11], defs.all fun f => (ks.filter fun k => t.fld F.mgCfg0_OWNER k == f).length ≤ t.fld F.fnQuota_REGIONS f),
   ([8, 11], !given || t.fld F.mgInst_CYC == t.fld F.pdCfg0_CYC)]

/-- Records in order, each once, and GLOBAL in a full image (R237). -/
def recordsOk (full : Bool) (rs : List YRec) : Bool :=
  rising (rs.map fun r => r.rtype * 65536 + r.index) && (!full || rs.any (·.rtype == 1))

/-- The static entries of a YARD body with those that the table holds (R237): key, VID. -/
def staticKeys (b : List Nat) (s : State) : List (Nat × Nat) :=
  let recs := ((recsOf b).flatMap YRec.statics).map fun e => (e.1 % 2 ^ 48, bits e.2 36 12, e.2.testBit 35)
  let keep := ((s.yard.table.filter (·.static)).map fun e => (e.mac, e.vid)).filter fun e => !recs.any fun r => r.1 == e.1 && r.2.1 == e.2
  keep ++ (recs.filter (·.2.2)).map fun r => (r.1, r.2.1)

/-- The loft words of function `f`'s pool: the first, and the one after the last. -/
def State.poolWords (t : State) (f : Nat) : Nat × Nat :=
  let a := t.fld F.ydFrx0_BASE f
  (a, a + 64 * t.fld F.ydFrx0_SLOTW f * t.fld F.ydFrx0_NSLOT f)

/-- The pool lies in the loft, within banks that are the function's (R237). -/
def State.poolOwned (t : State) (f : Nat) : Bool :=
  let (a, z) := t.poolWords f
  z ≤ 65536 && (List.range 16).all fun b => z ≤ 4096 * b || 4096 * (b + 1) ≤ a || t.fld F.stBank_NEXT (t.fld F.ydFrx0_STBL f) b == f

/-- No in-passing word of a stable that an enabled pair names lies in the pool (R237). -/
def State.poolClear (t : State) (f : Nat) : Bool :=
  let (a, z) := t.poolWords f
  let pair := (List.range 4).any fun k => t.on F.epIpcfg0_EN k && t.fld F.epIpcfg0_STBL k == t.fld F.ydFrx0_STBL f
  !pair || [0xE000, 0xF000].all fun w => z ≤ w || w + 0x800 ≤ a

/-- The yard (R237); records and order are judged where the image holds a YARD section. -/
def ydChecks (full : Bool) (defs : List Nat) (m : Img) (t : State) : List Check :=
  let b := m.body 6
  let rs := recsOf b
  let keys := (staticKeys b t).eraseDups.map fun e => atSet e.1 e.2
  let news := (rs.flatMap YRec.statics).map fun e => (e.1 % 2 ^ 48, bits e.2 36 12)
  let stay := if full then [] else t.yard.table.filter fun e => !news.contains (e.mac, e.vid)
  let dfn := fun f => f == 0 || defs.contains f
  let fs := (List.range 512).filter fun f => t.poolKind f != 0
  [([6], !m.has 6 || recordsOk full rs),
   ([6], keys.all fun k => (keys.filter (· == k)).length ≤ 4),
   ([3, 6], ((rs.flatMap YRec.statics).all fun e => !e.2.testBit 33 || !e.2.testBit 35 || dfn (bits e.2 24 9))
      && (stay.all fun e => !e.dlv || dfn e.fn)
      && (List.range 4096).all fun v => !t.on F.ydVlan_FLDLV v || dfn (t.fld F.ydVlan_FLOODFN v)),
   ([6], fs.all fun f => t.poolKind f != 1 || t.fld F.ydFrx1_U f != 0),
   ([6, 11], fs.all fun f => t.poolKind f != 1 || t.poolOwned f),
   ([5, 6], fs.all fun f => t.poolKind f != 1 || t.poolClear f),
   ([3, 6], fs.all fun f => t.poolKind f != 2 || t.fld F.ydFrx0_STBL f == t.fld F.fnCfg_VF f)]

/-- The time unit (R257). -/
def tmChecks (defs : List Nat) (t : State) : List Check :=
  let gs := (List.range 8).filter fun g => t.on F.pgCfg_EN g
  let pinOf := fun g => t.fld F.pgCfg_PIN g
  let kinds := (List.range 8).map t.refKind
  [([3, 7], (List.range 8).all fun i => t.fld F.tcCfg_OWNER i == 0 || defs.contains (t.fld F.tcCfg_OWNER i)),
   ([7, 10], gs.all fun g => t.pinFunc (pinOf g) == 2),
   ([7], distinct (gs.map pinOf)),
   ([7], (kinds.filter (· == 3)).length ≤ 1 && (kinds.filter (· == 4)).length ≤ 1)]

/-- The Paddock's schedule, once a PADK section has given one, whatever ROLE holds (R277). -/
def pdChecks (given : Bool) (t : State) : List Check :=
  let role := t.eff F.pdCfg0_ROLE (· ≥ 6)
  if !given then []
  else
    let n := t.fld F.pdCfg2_NSLOT
    let kind := t.pdKind
    let start := fun k => t.fld F.pdSlotA_START k
    let cycle := t.fld F.pdCfg0_CYC / 5
    let used := (List.range n).filter fun k => kind k != 0
    let fin := fun k => start k + 176 + 48 * t.fld F.pdSlotA_LEN k + t.fld F.pdCfg0_GUARD
    let rgn := fun k => t.fld F.pdSlotB_RGN k
    let fits := fun k => t.fld F.pdSlotB_WOFS k + t.fld F.pdSlotA_LEN k ≤ t.fld F.mgCfg0_SIZE (rgn k)
    let pub := fun k => t.fld F.mgCfg2_PUB (rgn k) == 2 || t.fld F.mgCfg2_PUB (rgn k) == 3
    [([8], rising ((List.range n).map start) && used.all fun k => fin k ≤ (if k + 1 < n then start (k + 1) else cycle)),
     ([8], n != 0 && kind 0 == 1 && start 0 == 0 && used.all fun k => kind k != 1 || k < 4),
     ([8], !(2 ≤ role && role ≤ 4) || (role - 1 < n && kind (role - 1) == 1)),
     ([8], used.all fun k => !(kind k == 4 && t.on F.pdSlotA_CLAIM k && t.on F.pdSlotB_MAP k)),
     ([8], used.all fun k => kind k != 2 || (t.fld F.pdSlotA_NODE k == t.fld F.pdCfg0_NODE && t.on F.pdSlotB_MAP k)),
     ([8, 11], used.all fun k => !t.on F.pdSlotB_MAP k || fits k),
     ([8, 11], used.all fun k => !(kind k == 2 || (kind k == 4 && t.on F.pdSlotA_CLAIM k)) || pub k),
     ([8, 11], used.all fun k => !((kind k == 3 || kind k == 4) && t.on F.pdSlotB_MAP k) || t.rgSrc (rgn k) == 1)]

/-- The rates of a CAN controller keep R281, in units of quanta of 5 ns. -/
def State.canRatesOk (t : State) (n : Nat) : Bool :=
  let nom := (t.fld F.canNbt_NBRP n + 1) * (t.fld F.canNbt_NTSEG1 n + t.fld F.canNbt_NTSEG2 n + 3)
  let dat := (t.fld F.canDbt_DBRP n + 1) * (t.fld F.canDbt_DTSEG1 n + t.fld F.canDbt_DTSEG2 n + 3)
  t.fld F.canNbt_NSJW n ≤ t.fld F.canNbt_NTSEG2 n && t.fld F.canDbt_DSJW n ≤ t.fld F.canDbt_DTSEG2 n
    && 200 ≤ nom && dat ≤ nom && 25 ≤ dat

/-- The CAN controllers, once a CAN section has set them up, whatever MODE and EN hold (R282). -/
def canChecks (given : Bool) (defs : List Nat) (t : State) : List Check :=
  let ns := if given then List.range 4 else []
  let own := fun n => t.fld F.canCfg0_OWNER n
  let buf := fun n i => t.eff F.canFltA_DEST (· == 3) n i == 1
  [([9], ns.all fun n => t.canRatesOk n),
   ([3, 9], (List.range 4).all fun n => own n == 0 || defs.contains (own n)),
   ([3, 9], ns.all fun n => t.inAffinity (own n) (t.fld F.canCfg0_IRQENG n / 8)),
   ([9], ns.all fun n => (List.range 128).all fun i => !buf n i || (List.range i).all fun j => !buf n j
      || t.fld F.canFltA_RXB n i != t.fld F.canFltA_RXB n j || t.fld F.canFltA_IDE n i == t.fld F.canFltA_IDE n j)]

/-- The pins that a machine's three ranges name. -/
def State.rangePins (t : State) (b m : Nat) : List Nat :=
  [(F.pmCfg1_DBASE, F.pmCfg1_DN), (F.pmCfg1_CBASE, F.pmCfg1_CN), (F.pmCfg1_AUXBASE, F.pmCfg1_AUXN)].flatMap fun r =>
    (List.range (t.fld r.2 b m)).map fun i => (t.fld r.1 b m + i) % 16

/-- The pin machines, once a PIO section has set them up, whatever EN holds (R306). -/
def pioChecks (given : Bool) (defs : List Nat) (t : State) : List Check :=
  let ms := if given then (List.range 32).map fun k => (k / 8, k % 8) else []
  let own := fun (x : Nat × Nat) => t.fld F.pmCfg0_OWNER x.1 x.2
  [([3, 10], (List.range 32).all fun k => own (k / 8, k % 8) == 0 || defs.contains (own (k / 8, k % 8))),
   ([3, 10], ms.all fun x => t.inAffinity (own x) (t.fld F.pmCfg0_IRQENG x.1 x.2 / 8)),
   ([10], ms.all fun x => (t.rangePins x.1 x.2).all fun j => t.ownsPin x.1 x.2 j),
   ([10], (List.range 64).all fun j => t.pinFunc j != 1
      || t.on F.pmCfg0_EN (j / 16) (t.fld F.piPin_MACH (j / 16) (j % 16)))]

/-- The redundant pair (R322). The first KIND 2 slot is counted from the common instant (R316). -/
def twChecks (given : Bool) (t : State) : List Check :=
  if !given then []
  else
    let cyc := t.fld F.pdCfg0_CYC
    let outs := (List.range 64).filter fun k => if k < 48 then (t.fld F.twCfg1_OUTLO).testBit k else (t.fld F.twCfg2_OUTHI).testBit (k - 48)
    let kind2 := (List.range (t.fld F.pdCfg2_NSLOT)).filter fun k => t.pdKind k == 2
    let after := fun k => (5 * t.fld F.pdSlotA_START k + cyc - 5 * t.fld F.pdCfg1_INSTOFS) % cyc
    let wit := t.eff F.twCfg0_WITNESS (· == 3)
    let ports := t.rpps.flatMap fun x => [x.2.1, x.2.2]
    [([11, 12], outs.all fun k => t.eff F.mgCfg0_KIND (· == 3) k == 2),
     ([12], distinct ports && t.rpps.all fun x => x.2.1 < x.2.2 && x.2.2 ≤ 11),
     ([5, 12], ports.all fun p => let i := t.fld F.epCfg0_IF p; i == 1 || (3 ≤ i && i ≤ 10)),
     ([12], wit != 1 || t.on F.twCfg0_BGPD),
     ([8, 12], wit != 1 || kind2 == [] || kind2.any fun k => 2 * after k < cyc),
     ([12], wit != 2 || t.rpps != [])]

/-- Every cross-check of an image.
(DEDUCED, log entry 68) -/
def crossChecks (full : Bool) (dir : Option Nat) (m : Img) (s : State) : List Check :=
  let t := candidate full m s
  let defs := m.defs full s
  let given := fun typ => m.has typ || (!full && s.boot.present.testBit typ)
  fnChecks defs t ++ clkChecks t ++ stChecks defs dir (if full then stblStarts (m.body 4) else s.boot.starts) t ++ portChecks t
    ++ bankChecks defs t ++ mbChecks defs t ++ mgChecks (given 8) defs t ++ ydChecks full defs m t
    ++ tmChecks defs t ++ pdChecks (given 8) t ++ canChecks (given 9) defs t ++ pioChecks (given 10) defs t ++ twChecks (given 12) t

/-- The section of the failing cross-check that stands first in the image: each counts at the later of its sections.
(DEDUCED, log entry 68) -/
def resourceFail (full : Bool) (dir : Option Nat) (m : Img) (s : State) : Option Nat :=
  (((crossChecks full dir m s).filter fun c => !c.2).map fun c => (c.1.map m.at).foldl max 0).min?

/-- Every program word of the PIO section holds legal instructions (R306). -/
def programsOk (full : Bool) (m : Img) (s : State) : Bool :=
  !m.has 10 ||
    let t := candidate full m s
    (List.range 32).all fun k => (List.range 32).all fun a => t.pmLegal (k / 8) (k % 8) (t.pmFetch (k / 8) (k % 8) a)

/-! ### The order of validation (R37) -/

/-- The types that may be carried by a delta, and the mandatory ones (R34). -/
def liveTypes : List Nat := [3, 5, 6, 7, 8, 9, 10, 11]
def mandatoryTypes : List Nat := [1, 2, 3, 4, 11, 13]

/-- The first section that fails a test. -/
def Img.firstBad (m : Img) (ok : Sec → Bool) : Option Nat := (m.secs.find? fun x => !ok x).map (·.idx)

/-- A check of R37: its code, the words of the image that it reads first, and the section at fault where it fails. -/
structure ImgCheck where
  code : Nat
  reads : List Nat
  fail : Unit → Option Nat

/-- The first failing check. A word that cannot be read fails the check that comes to it with code 17 (R37, R49).
(DEDUCED, log entries 68 and 69) -/
def firstFail (bad : Nat → Bool) (sectAt : Nat → Nat) : List ImgCheck → Nat × Nat
  | [] => (0, 0)
  | c :: rest => match c.reads.find? bad with
    | some k => (17, sectAt k)
    | none => match c.fail () with
      | some sect => (c.code, sect)
      | none => firstFail bad sectAt rest

/-- A check of the header. -/
def hdr (ok : Bool) : Option Nat := if ok then none else some 0

/-- The first stored slot of an image with a bit of 63:48 set, by its section. -/
def Img.highBits (m : Img) : Option Nat := (m.slots.findIdx? (2 ^ 48 ≤ ·)).map m.sectAt

/-- Validation of an image, full at boot or a delta staged: the code and section of R37, code 0 where it passes; `bad` tells
which words are uncorrectable. -/
def validate (full : Bool) (dir : Option Nat) (bad : Nat → Bool) (m : Img) (s : State) : Nat × Nat :=
  let qx := wide m.slots 7
  let qy := wide m.slots 13
  let r := wide m.slots 19
  let q := wide m.slots 25
  let heads := m.secs.flatMap fun x => [m.posOf x, m.posOf x + 1]
  let whole := List.range m.slots.length
  firstFail bad m.sectAt
    [⟨1, [0], fun _ => if m.hd 0 = 0x4C41594F5554 then m.highBits else some 0⟩,
     ⟨2, [1], fun _ => hdr (bits (m.hd 1) 40 8 == 1 && bits (m.hd 1) 16 8 == 31 && m.kind == (if full then 0 else 1))⟩,
     ⟨2, heads, fun _ => m.firstBad (·.sver == 1)⟩,
     ⟨3, [4], fun _ => hdr (bits (m.hd 4) 32 16 == 0x4812 && bits (m.hd 4) 24 8 == 0xB1)⟩,
     ⟨4, [5], fun _ => hdr (m.total ≤ (if full then 131072 else 8192) && m.secs.length == bits (m.hd 1) 0 16 && m.secs.all (·.whole)
        && m.total == 31 + (m.secs.map fun x => 2 + x.body.length).sum)⟩,
     ⟨5, (List.range 13).map (· + 6), fun _ => hdr (s.keyKnown (bits (m.hd 6) 0 2) qx qy)⟩,
     ⟨6, whole, fun _ => hdr (r < 2 ^ 256 && q < 2 ^ 256 && ecdsaOk qx qy (signedDigest m.slots 19 31) r q)⟩,
     ⟨7, [], fun _ => m.firstBad fun x => x.scrc == crc32c (x.body.flatMap rawBytes)⟩,
     ⟨8, [], fun _ => m.firstBad fun x => 1 ≤ x.typ && x.typ ≤ 13 && x.live == liveTypes.contains x.typ
        && (m.secs.all fun y => x.idx ≤ y.idx || y.typ < x.typ)⟩,
     ⟨9, [], fun _ => hdr (!full || mandatoryTypes.all m.has)⟩,
     ⟨10, [], fun _ => hdr (headerOk m)⟩,
     ⟨10, [], fun _ => m.firstBad fun x => fieldsOk full x && (x.typ != 10 || programsOk full m s)⟩,
     ⟨11, [], fun _ => resourceFail full dir m s⟩,
     ⟨12, [], fun _ => hdr (m.sdn < 1000)⟩,
     ⟨13, [], fun _ => if full then none else m.firstBad fun x => liveTypes.contains x.typ⟩,
     ⟨14, [], fun _ => hdr (full || (m.base == s.fld F.gcLayver_VER && m.base < m.ver))⟩]

end Sys2Proof.Machine
end

