-- ==== Sys2Proof/Machine/Ports.lean ====
section
/-! DEFINITION. The Ethernet ports: links, receiving, transmitting, half duplex, preemption, pause, low-power idle and
transmit timestamps (chapter 10). -/

namespace Sys2Proof.Machine

/-! ### Timestamps (R199 to R201) -/

/-- Picoseconds in 2^-16 ns. -/
def psUnits (ps : Nat) : Int := Int.fdiv (ps * 65536) 1000

/-- The built-in latency of an integrated PHY, by direction, mode, speed and role (R200); none on P4 to P9.
(DEDUCED, log entry 42) -/
def State.phyPs (s : State) (p dir : Nat) : Nat :=
  if 4 ≤ p ∧ p < 10 then 0
  else (Config.phyLatency ((((p * 2 + dir) * 16 + s.epIf p) * 8 + s.fld F.epStat_SPEED p) * 2 + b2n (s.port p).master
    + 8192 * (s.port p).cals)).toNat

/-- The receive timestamp of a frame whose first bit passed `ago` 125 ps before this tick (R199).
(DEDUCED, log entry 42) -/
def State.rxStamp (s : State) (p : Nat) (ago : Int) : Stamp :=
  let i := s.fld F.epCfg0_TSDOM p
  if s.halter then {}
  else stampOf (Int.fdiv (s.total i - Int.fdiv (s.incOf i * ago) 32) 65536 - psUnits (s.phyPs p 0 + s.fld F.epCfg1_RXLAT p))

/-- The counter at the first bit after the SFD, or SMD-S, of a frame whose preamble begins at this tick (R199). -/
def State.sfdTime (s : State) (p : Nat) : Nat := s.timeAt (s.epFld F.epCfg0_TSDOM p) (512000 / s.rate p)

/-- The transmit timestamp, from the counter time at the first bit after the SFD (R199).
(DEDUCED, log entry 42) -/
def State.txStamp (s : State) (p t0 sub : Nat) : Stamp :=
  stampOf (t0 + (s.incOf (s.fld F.epCfg0_TSDOM p) * sub / 32 / 2 ^ 16 : Nat) + psUnits (s.phyPs p 1 + s.fld F.epCfg1_TXLAT p))

/-- A record for the transmit timestamp FIFO, lost when 16 are held (R201). -/
def pushStamp (p : Nat) (r : TxStamp) (s : State) : State :=
  if (s.port p).stamps.length ≥ 16 then (s.bump F.epCnt4_TSOVF p).put F.epEvt_TSOVF 1 p
  else s.setPort p { s.port p with stamps := (s.port p).stamps ++ [r] }

/-- A read of TXTS2 returns and removes the oldest record. -/
def popStamp (p : Nat) (s : State) : Word × State :=
  match (s.port p).stamps with
  | [] => (0, s)
  | r :: rest => (wd r.ts.nsf, s.setPort p { s.port p with stamps := rest })

/-! ### Leaving the port -/

/-- Padding of a frame shorter than 60 bytes (R225). -/
def pad60 (bs : List Byte) : List Byte := bs ++ List.replicate (60 - bs.length) 0

/-- A frame's bytes as port `p` sends them: marked, untagged where the VLAN says so, with the trailer or tag of its
redundancy pair, and padded (R222, R233, R320). -/
def State.egressBytes (s : State) (p : Nat) (mark : Bool) (x : YFrame) : List Byte :=
  let b := if mark then markFrame x.read else x.read
  let b := if s.untags p x then b.take 12 ++ b.drop 16 else b
  let b := match s.rppOf p, x.seqNr with
    | some (mode, pa, _), some seq =>
      let side := if p = pa then 0 else 1
      addRedundancy mode seq (if mode = 1 then 10 + side else x.lan.getD side) b
    | _, _ => b
  pad60 b

/-- A frame boundary: a pause stop that waits for it starts (R195). -/
def atBoundary (p : Nat) (s : State) : State :=
  let x := s.port p
  match x.pauseWait with
  | some d =>
    if x.tx.isNone && x.held.isNone then
      (s.setPort p { x with pauseWait := none, pauseEnd := some (s.tick + d) }).put F.epStat_PAUSED 1 p
    else s
  | none => s

/-- The port has ended a frame: it is idle from now, and a pause stop may start (R195, R198). -/
def txIdle (p : Nat) (s : State) : State :=
  atBoundary p (s.setPort p { s.port p with tx := none, attempts := 0, backoff := none, idleFrom := s.tick })

/-! ### Links (R185, R186, R189) -/

/-- The copies that wait at a port are discarded, each counted. -/
def dropOffered (p : Nat) (count : State → State) (s : State) : State :=
  let ids := (s.launchQ p ++ (List.range 8).flatMap fun c => s.queue p c).map (·.id)
  let s := (List.range 8).foldl (fun s c => s.setQueue p c []) (s.setLaunch p [])
  let s := { s with yard := { s.yard with due := Tab.set 0 s.yard.due p 0 } }
  ids.foldl (fun s id => copyDone id .sent (count s)) s

/-- A frame whose start was taken ends before its last byte came: it is bad (R189, R193, R234). -/
def cutShort (p : Nat) (good : Bool) (s : State) : State :=
  match (s.port p).arriving with
  | none => s
  | some (id, _) =>
    let s := s.setPort p { s.port p with arriving := none }
    match s.frame id with
    | some x => s.setFrame id (some { x with arriving := false, copied := true, ctBad := !good })
    | none => s

/-- An interface's speeds, by code of STAT.SPEED (R185). -/
def State.ifSpeed (s : State) (p c : Nat) : Bool :=
  match s.epIf p with
  | 1 => c < 3 && (s.halter || (s.fld F.epCfg0_ADV p).testBit c)
  | 2 => c == 0
  | 3 => c == 1
  | 4 => c == 2
  | 5 => c < 3
  | 6 => c == 2
  | 7 => c == 1
  | 8 => c == 3
  | 9 => 1 ≤ c && c ≤ 5
  | 10 => c == 5
  | 11 => c == 0
  | _ => false

/-- The interface may run half duplex at a speed (R185).
(DEDUCED, log entry 41) -/
def State.ifHalf (s : State) (p c : Nat) : Bool :=
  match s.epIf p with
  | 1 => c < 2
  | 2 => true
  | 3 => true
  | 5 => p < 8 && c < 2
  | 7 => true
  | _ => false

/-- Start verification of the MAC merge sublayer (R193). -/
def startVerify (p : Nat) (s : State) : State :=
  let on := s.epOn F.epCfg0_PREEMPT p && s.on F.epStat_LINK p && !s.on F.epStat_HDXA p
  (s.put F.epStat_PVS (b2n on) p).setPort p { s.port p with verifies := 0, verAt := s.tick }

/-- The link comes up as the PHY or SerDes reports it; a forced interface runs half duplex where HDX says so (R186).
(DEDUCED, log entry 41) -/
def linkUp (p : Nat) (l : LinkState) (s : State) : State :=
  let hdx := s.epOn F.epCfg0_HDX p
  let half := if [2, 3, 7].contains (s.epIf p) then hdx else l.hdx
  let bad := s.epIf p = 5 && half && (!hdx || p ≥ 8)
  let s := if s.epIf p = 5 then s.put F.epStat_MISMATCH (b2n bad) p else s
  if bad || !s.ifSpeed p l.speed || (half && !(hdx && s.ifHalf p l.speed)) then s
  else
    let (k, s) := s.draw
    let s := ((s.put F.epStat_LINK 1 p).put F.epStat_SPEED l.speed p).put F.epStat_HDXA (b2n half) p
    let s := s.put F.epStat_T1LA (b2n (p ≥ 10 && l.t1la && s.epOn F.epCfg0_T1LHI p)) p
    let s := (s.setPort p { lfsr := Config.seed k, stamps := (s.port p).stamps, cals := (s.port p).cals, eee := l.eee
                            master := l.master, idleFrom := s.tick }).put F.epEvt_LINKCHG 1 p
    startVerify p s

/-- A relayed frame is arriving at the port, or egress is sending one there (R206). -/
def State.relayBusy (s : State) (p : Nat) : Bool := allDirs.any fun x =>
  s.inPassing x.1 x.2 && ((s.ingress x.1 x.2 == p && (s.dir x.1 x.2).frames.any (·.fin.isNone))
    || (s.egress x.1 x.2 == p && (s.dir x.1 x.2).frames.any fun y => y.started && !y.gone))

/-- A port is not inside a frame in either direction, relayed frames included; a port without a link never is (R188,
R209). -/
def State.portFree (s : State) (p : Nat) : Bool :=
  !s.on F.epStat_LINK p || ((s.port p).tx.isNone && (s.port p).held.isNone && (s.port p).arriving.isNone
    && (s.port p).parts.isNone && !s.relayBusy p)

/-- The fields of a pair entry (R206). -/
def ipFlds : List Fld :=
  [F.epIpcfg0_EN, F.epIpcfg0_PA, F.epIpcfg0_PB, F.epIpcfg0_STBL, F.epIpcfg0_FN, F.epIpcfg0_M0, F.epIpcfg0_M1, F.epIpcfg0_COPY0,
   F.epIpcfg0_COPY1, F.epIpcfg1_DLY, F.epIpcfg1_RG0, F.epIpcfg1_RG1]

/-- Frames queued at the egress of a direction that is now in passing are discarded and counted (R208). -/
def clearEgress (k d : Nat) (s : State) : State :=
  if s.inPassing k d then dropOffered (s.egress k d) (·.bump F.epIpcnt_DROP k d) s else s

/-- Show a pair's entry as it acts, its rings empty, and nothing queued at the egress of a direction in passing (R208,
R209). -/
def restartPair (k : Nat) (s : State) : State :=
  let en := s.on F.epIpcfg0_EN k
  let s := clearEgress k 1 (clearEgress k 0 ((s.setDir k 0 {}).setDir k 1 {}))
  let s := ((s.put F.epIpstat_ON (b2n en) k).put F.epIpstat_ACT0 (b2n (en && s.on F.epIpcfg0_M0 k)) k).put F.epIpstat_ACT1
    (b2n (en && s.on F.epIpcfg0_M1 k)) k
  (s.put F.epIpstat_NEXT0 (nextMember (s.fld F.epIpcfg1_RG0 k) 0) k).put F.epIpstat_NEXT1 (nextMember (s.fld F.epIpcfg1_RG1 k) 0) k

/-! ### Receiving (R190, R195, R198) -/

/-- Ticks of a pause of `q` quanta (R195). -/
def State.pauseTicks (s : State) (p q : Nat) : Nat := (q * 128000 + s.rate p - 1) / s.rate p

/-- A PAUSE frame is counted and, with PAUSEEN in full duplex, obeyed (R190, R195). -/
def pauseReceive (p q : Nat) (s : State) : State :=
  let s := s.bump F.epCnt3_PAUSERX p
  if !s.epOn F.epCfg0_PAUSEEN p || s.on F.epStat_HDXA p then s
  else if q = 0 then (s.setPort p { s.port p with pauseWait := none, pauseEnd := none }).put F.epStat_PAUSED 0 p
  else if s.on F.epStat_PAUSED p then s.setPort p { s.port p with pauseEnd := some (s.tick + s.pauseTicks p q) }
  else atBoundary p (s.setPort p { s.port p with pauseWait := some (s.pauseTicks p q) })

/-- The pause time ends (R195). -/
def pauseExpire (p : Nat) (s : State) : State :=
  match (s.port p).pauseEnd with
  | some t => let s := passTo t s; (s.setPort p { s.port p with pauseEnd := none }).put F.epStat_PAUSED 0 p
  | none => s

/-- The receive direction had left low-power idle within the 20 µs before the frame arrived, `ago` 125 ps before this tick
(R198). -/
def State.rxWake (s : State) (p : Nat) (ago : Int) : Bool := match (s.port p).rxWakeAt with
  | some t => s.tick * 32 - ago ≤ (t + 5000 : Nat) * 32
  | none => false

/-- A frame's checks of R190: 0 passes, 1 bad FCS, 2 bad length, 3 PAUSE, 4 other MAC control. -/
def State.rxCheck (s : State) (p : Nat) (fr : EthFrame) : Nat :=
  let len := fr.bytes.length + 4
  if !fr.fcsOk then 1
  else if len < 64 || s.maxFrm p < len then 2
  else if at16 fr.bytes 12 = 0x8808 then (if at16 fr.bytes 14 = 1 then 3 else 4)
  else 0

/-- Count a received frame and obey a PAUSE (R190). -/
def rxCount (p : Nat) (fr : EthFrame) (s : State) : State :=
  match s.rxCheck p fr with
  | 0 => s.bump F.epCnt0_RXOK p
  | 1 => s.bump F.epCnt1_RXFCS p
  | 2 => s.bump F.epCnt1_RXLEN p
  | 3 => if dstOf fr.bytes = 0x0180C2000001 then pauseReceive p (at16 fr.bytes 16) s else s.bump F.epCnt3_PAUSERX p
  | _ => s.bump F.epCnt4_CTLRX p

/-- The MAC has received a frame whole: checked, counted, and handed to the yard with its timestamp, or dropped (R190, R199).
The start of a frame that was cut through has gone before; its end says whether it was good (R234). -/
def macFrame (p : Nat) (fr : EthFrame) (ts : Stamp) (wake : Bool) (s : State) : State :=
  let good := s.rxCheck p fr = 0
  let s := rxCount p fr s
  let ours := good && s.on F.twCfg0_EN && (s.rppOf p).isSome && srcOf fr.bytes == s.fld F.twCfg3_PAIRMAC
  let s := if ours then { s with tw := { s.tw with ownMac := true } } else s
  if (s.port p).arriving.any (·.2 == fr.frag.isSome) then cutShort p good s
  else if !good || s.relayIn p then s
  else { s with yard := { s.yard with inbox := s.yard.inbox ++ [{ p := p, bytes := fr.bytes, ts := ts, wake := wake }] } }

/-- A preemptable frame under reassembly is discarded and counted (R193). -/
def partsLost (p : Nat) (s : State) : State :=
  let s := (s.setPort p { s.port p with parts := none }).bump F.epCnt1_RXFRAG p
  if (s.port p).arriving.any (·.2) then cutShort p false s else s

/-- A fragment arrives: it begins a frame or goes on with the one under reassembly, and the last one hands the whole frame to
the MAC. A bad mCRC, or a count out of sequence, discards the frame (R193).
(PRESUMED, log entry 103) -/
def fragmentReceive (p : Nat) (fr : EthFrame) (ago : Nat) (g : Frag) (s : State) : State :=
  let hand := fun (bs : List Byte) (ts : Stamp) (wake : Bool) (s : State) =>
    macFrame p { fr with bytes := bs } ts wake (s.setPort p { s.port p with parts := none })
  if g.first then
    let s := if (s.port p).parts.isSome then partsLost p s else s
    let ts := s.rxStamp p ago
    if g.last then hand fr.bytes ts (s.rxWake p ago) s
    else if !fr.fcsOk then partsLost p s
    else s.setPort p { s.port p with parts := some ⟨g.frameCount, 0, fr.bytes, ts, s.rxWake p ago⟩ }
  else match (s.port p).parts with
    | none => s
    | some x =>
      if x.frameCount ≠ g.frameCount || x.next ≠ g.fragCount || (!g.last && !fr.fcsOk) then partsLost p s
      else if g.last then hand (x.bytes ++ fr.bytes) x.ts x.wake s
      else s.setPort p { s.port p with parts := some { x with next := (x.next + 1) % 4, bytes := x.bytes ++ fr.bytes } }

/-- The MAC receives a frame or, with PREEMPT, a fragment (R190, R193), whose first bit after the SFD passed `ago` 125 ps
before this tick (R199).
(DEDUCED, log entry 83) -/
def macReceive (p : Nat) (fr : EthFrame) (ago : Nat) (s : State) : State :=
  if !s.on F.epStat_LINK p then s
  else match fr.frag with
    | none => macFrame p fr (s.rxStamp p ago) (s.rxWake p ago) s
    | some g => if s.epOn F.epCfg0_PREEMPT p then fragmentReceive p fr ago g s else s

/-- The yard takes the oldest frame of a port, or the start of one that is cut through; nothing of a MAC control frame goes
on (R190, R221, R234).
(DEDUCED, log entry 83) -/
def yardReceive (p : Nat) (early : Option (EthFrame × Nat)) (s : State) : State :=
  match early with
  | none => match takeInbox p s with
    | some (it, s) => (yardTake p it false false s).2
    | none => s
  | some (fr, ago) =>
    if !s.on F.epStat_LINK p || (s.port p).arriving.isSome || s.relayIn p || at16 fr.bytes 12 = 0x8808
        || (fr.frag.isSome && !s.epOn F.epCfg0_PREEMPT p) then s
    else
      let it : RxItem := { p := p, bytes := fr.bytes, ts := s.rxStamp p ago, wake := s.rxWake p ago }
      let n := s.yard.nextId
      let r := yardTake p it true (!fr.fcsOk) s
      if !r.1 then s
      else
        let t := { r.2 with yard := { r.2.yard with nextId := max r.2.yard.nextId (n + 1) } }
        t.setPort p { t.port p with arriving := some (n, fr.frag.isSome) }

/-! ### Transmitting (R194, R196, R197, R232) -/

/-- Enough of a frame is in the buffer for it to start (R196); `have_`: the bytes of one still arriving. -/
def State.buffered (s : State) (p : Nat) (x : YFrame) (have_ : Nat) : Bool :=
  !x.arriving || (s.txTh p ≠ 0 && have_ ≥ 128 * s.txTh p)

/-- The entry that the port sends next (R232, R236): the due launch frame, else the highest open class whose head fits;
a preempted frame comes back after the express ones, and before another preemptable one (R194, R256). -/
def State.pick (s : State) (p have_ : Nat) : Option (Nat × QEnt × Bool) :=
  let due := Tab.get 0 s.yard.due p
  let held := (s.port p).held.isSome
  let ok := fun (q : QEnt) (c : Nat) (gated : Bool) => match s.frame q.id with
    | some x => s.buffered p x have_ && (!gated || s.gateFits p c (s.egressLen p x))
    | none => false
  if due ≠ 0 then
    match (s.launchQ p).head? with
    | some q => match s.frame q.id with
      | some x => if ok q x.cls false && !(held && s.preemptable p x.cls) then some (x.cls, q, true) else none
      | none => none
    | none => none
  else
    ((List.range 8).reverse.filter fun c => !(s.preemptable p c && (held || (s.gateS p).hold))).findSome? fun c =>
      match (s.queue p c).head? with
      | some q => if ok q c true then some (c, q, false) else none
      | none => none

/-- The transmit WAKE flag: within 20 µs of leaving low-power idle. -/
def State.txWake (s : State) (p : Nat) : Bool := match (s.port p).txWakeAt with
  | some t => s.tick ≤ t + 5000
  | none => false

/-- A frame starts on the wire with its preamble, a launch frame with the bit after its SFD (R256), or a preempted frame goes on while no gate list holds it (R194, R196, R232, R235).
(DEDUCED, log entry 42) -/
def txStart (p have_ : Nat) (s : State) : State :=
  let s := if s.on F.epStat_LINK p then dropUnfit p s else s
  let x := s.port p
  if !s.on F.epStat_LINK p || x.tx.isSome || s.on F.epStat_PAUSED p || s.on F.epStat_LPITX p || x.backoff.isSome then s
  else
    let next := if x.pauseWait.isSome then none else s.pick p have_
    match next with
    | some (c, q, launch) =>
      let s := if launch then
          { s.setLaunch p ((s.launchQ p).drop 1) with yard := { (s.setLaunch p ((s.launchQ p).drop 1)).yard with due := Tab.set 0 s.yard.due p 0 } }
        else s.setQueue p c ((s.queue p c).drop 1)
      s.setPort p { s.port p with attempts := 0, tx := some { id := q.id, cls := c, pre := s.preemptable p c, mark := q.mark
                                                              t0 := if launch then s.timeAt (s.epFld F.epCfg0_TSDOM p) 0 else s.sfdTime p, sent := 0, wake := s.txWake p } }
    | none => match x.held with
      | some h => if (s.gateS p).hold then s else s.setPort p { s.port p with tx := some h, held := none }
      | none => s

/-- A frame leaves the port, whole or ended, with these bytes; its copy is done (R197, R201, R224). -/
def txOut (p : Nat) (t : TxSt) (bytes : List Byte) (good err : Bool) (sub : Nat) (s : State) : State :=
  match s.frame t.id with
  | none => txIdle p s
  | some x =>
    let s := (readCells t.id x s).emit (.frame p bytes good)
    let s := if x.tsr then pushStamp p { err := err, wake := t.wake, tag := x.tstag, ts := s.txStamp p t.t0 sub } s else s
    copyDone t.id .sent (txIdle p s)

/-- The byte of a stored frame that its first uncorrectable lane begins at; none where every lane can be read.
(DESIGN CHOICE, log entry 105) -/
def YFrame.badFrom (x : YFrame) : Option Nat :=
  match x.lanes.filter fun e => (readCode e.2).bad with
  | [] => none
  | e :: rest => let l := rest.foldl (fun m e => min m e.1) e.1; some (l / 22 * 128 + l % 22 * 6)

/-- A frame with an uncorrectable cell word ends where that word would be sent, with its FCS inverted, and is counted in
TXPOIS (R197).
(DESIGN CHOICE, log entry 105) -/
def txPoisoned (p : Nat) (t : TxSt) (x : YFrame) (from_ : Nat) (s : State) : State :=
  let cut := s.untags p x
  let k := if cut && 16 ≤ from_ then from_ - 4 else from_
  let k := match s.rppOf p, x.seqNr with
    | some (2, _, _), some _ => if (if cut then 12 else typeAt x.read) ≤ k then k + 6 else k
    | _, _ => k
  txOut p t ((s.egressBytes p t.mark x).take k) false true 0 ((s.bump F.epCnt2_TXPOIS p).put F.epEvt_TXPOIS 1 p)

/-- The last FCS byte of the frame is sent (R201, R234). -/
def txEnd (p sub : Nat) (s : State) : State :=
  match (s.port p).tx with
  | none => s
  | some t =>
    if (s.port p).backoff.isSome then s
    else match s.frame t.id with
    | none => txIdle p s
    | some x =>
      if x.arriving then s
      else match x.badFrom with
        | some k => txPoisoned p t x k s
        | none =>
          let bs := s.egressBytes p t.mark x
          if x.ctBad then txOut p t bs false false sub (s.bump F.ydPcnt_CTBAD p) else txOut p t bs true false sub (s.bump F.epCnt0_TXOK p)

/-- TXTH after an underrun (R197). -/
def raiseTxTh (p : Nat) (s : State) : State :=
  let v := s.txTh p + 1
  s.put F.epTxctl_TXTH (if 128 * v ≥ s.maxFrm p then 0 else v) p

/-- The frame ends at once with its FCS inverted, after the `n` bytes already sent: its next byte is not in the buffer, or a
cell word is uncorrectable (R197). -/
def txUnderrun (p : Nat) (pois : Bool) (n : Nat) (s : State) : State :=
  match (s.port p).tx with
  | none => s
  | some t =>
    match s.frame t.id with
    | none => s
    | some x =>
      match pois, x.badFrom with
      | true, some k => txPoisoned p t x k s
      | true, none => s
      | false, _ =>
        if x.arriving then
          txOut p t ((s.egressBytes p t.mark x).take n) false true 0
            (raiseTxTh p ((s.bump F.epCnt2_TXUND p).put F.epEvt_TXUND 1 p))
        else s

/-- A frame is discarded at the MAC. -/
def txDiscard (p : Nat) (t : TxSt) (s : State) : State := copyDone t.id .sent (txIdle p s)

/-- A collision (R191, R192): a late one discards the frame, the sixteenth too; any other backs off for r slots of 512 bit
times, r drawn from the port's generator.
(PRESUMED, log entry 43) -/
def collide (p : Nat) (late : Bool) (s : State) : State :=
  match (s.port p).tx with
  | none => s
  | some t =>
    if !s.on F.epStat_HDXA p || (s.port p).backoff.isSome then s
    else
      let s := s.bump F.epCnt3_COL p
      let n := (s.port p).attempts + 1
      if late then txDiscard p t ((s.bump F.epCnt3_LATECOL p).put F.epEvt_LATECOL 1 p)
      else if n ≥ 16 then txDiscard p t ((s.bump F.epCnt3_EXCOL p).put F.epEvt_EXCOL 1 p)
      else
        let (k, s) := s.draw
        let g := Config.seed k
        let r := g.toNat % 2 ^ min n 10
        s.setPort p { s.port p with attempts := n, lfsr := g, backoff := some (s.tick + s.pauseTicks p r) }

/-- The back-off ends and the frame is retried; its timestamp is that of this attempt (R191, R192).
(PRESUMED, log entry 43) -/
def backoffEnd (p : Nat) (s : State) : State :=
  match (s.port p).backoff, (s.port p).tx with
  | some t, some x =>
    let s := passTo t s
    s.setPort p { s.port p with backoff := none, tx := some { x with t0 := s.sfdTime p } }
  | _, _ => s

/-! ### Preemption (R193, R194) -/

/-- A verify mPacket is sent every 10 ms, up to three times; then verification has failed. -/
def verifySend (p : Nat) (s : State) : State :=
  if s.fld F.epStat_PVS p ≠ 1 then s
  else
    let x := s.port p
    let s := if x.verifies = 0 then s else passTo (x.verAt + 2500000) s
    if x.verifies < 3 then (s.setPort p { s.port p with verifies := x.verifies + 1, verAt := s.tick }).emit (.mpacket p)
    else (s.put F.epStat_PVS 3 p).put F.epEvt_PVFAIL 1 p

/-- A verify response arrives. -/
def verifyResponse (p : Nat) (s : State) : State := if s.fld F.epStat_PVS p = 1 then s.put F.epStat_PVS 2 p else s

/-- Something stops preemptable traffic: an express frame that may start, or the hold of a gate list (R194, R235). -/
def State.expressWaits (s : State) (p have_ : Nat) : Bool :=
  (s.gateS p).hold || (match s.pick p have_ with
    | some (c, _, _) => !s.preemptable p c
    | none => false)

/-- A preemptable fragment ends when `sent` bytes of its frame have been sent (R194); `have_`: the bytes in the buffer of an
express frame still arriving. -/
def fragmentEnd (p sent have_ : Nat) (s : State) : State :=
  match (s.port p).tx with
  | none => s
  | some t =>
    match s.frame t.id with
    | none => s
    | some x =>
      let a := s.fld F.epCfg0_ADDFRAG p
      let hidden := s.setPort p { s.port p with held := some t, tx := none }
      if t.pre && t.sent + 64 * (a + 1) - 4 ≤ sent && sent + 64 ≤ s.egressLen p x + 4 && hidden.expressWaits p have_ then
        (s.setPort p { s.port p with tx := none, held := some { t with sent := sent } }).bump F.epCnt4_PREEMPT p
      else s

/-! ### Low-power idle (R198) -/

/-- Low-power idle is in use on the link. -/
def State.lpiUse (s : State) (p : Nat) : Bool :=
  s.epOn F.epCfg0_EEE p && [1, 3, 4, 9, 10, 11].contains (s.epIf p) && (s.port p).eee && s.on F.epStat_LINK p && !s.on F.epStat_HDXA p

/-- The port has something to send. -/
def State.hasWork (s : State) (p : Nat) : Bool :=
  (s.port p).tx.isSome || (s.port p).held.isSome || Tab.get 0 s.yard.due p ≠ 0
    || (List.range 8).any fun c => s.gateOpen p c && s.queue p c != []

/-- The transmitter enters low-power idle after LPIIDLE µs with nothing eligible; at once in DOZE (R198). -/
def lpiEnter (p : Nat) (s : State) : State :=
  if !s.lpiUse p || s.hasWork p || s.on F.epStat_LPITX p then s
  else
    let s := if s.fld F.pwPstat_STATE = 2 then s
      else passTo ((s.port p).idleFrom + s.fld F.epCfg2_LPIIDLE p * tickUs) s
    s.put F.epStat_LPITX 1 p

/-- A frame becomes eligible and the transmitter leaves low-power idle (R198). -/
def lpiWake (p : Nat) (s : State) : State :=
  if s.on F.epStat_LPITX p && s.hasWork p then
    (s.put F.epStat_LPITX 0 p).setPort p { s.port p with txWakeAt := some s.tick }
  else s

/-- The link partner puts the receive direction into or out of low-power idle (R198). -/
def receiveLpi (p : Nat) (on : Bool) (s : State) : State :=
  if !s.lpiUse p then s
  else if on then s.put F.epStat_LPIRX 1 p
  else if s.on F.epStat_LPIRX p then (s.put F.epStat_LPIRX 0 p).setPort p { s.port p with rxWakeAt := some s.tick }
  else s

end Sys2Proof.Machine
end

