-- ==== Sys2Proof/Machine/Boot.lean ====
section
/-! DEFINITION. The boot (R345 to R349): applying an image (R39), loading tack (R351), the host image (R347), the boot
watchdog, and the commands of each. -/

namespace Sys2Proof.Machine

/-! ### Applying a full image (R39) -/

/-- A field that an image fills: its active copy, its shadow where it has one, and the value it falls back to (R16, R39). -/
def load (s : State) (w : Wr) : State :=
  if w.1.acc == .sh then s.putBoth w.1 w.2.2.2 w.2.1 w.2.2.1
  else
    let t := s.put w.1 w.2.2.2 w.2.1 w.2.2.1
    { t with lay := Tab.set w.1.reset t.lay (w.1.key w.2.1 w.2.2.1) (w.2.2.2 % 2 ^ w.1.width) }

/-- A static entry as a STATIC record gives it (R237): VALID 0 deletes its key. -/
def loadStatic (s : State) (e : Nat × Nat) : State :=
  let mac := e.1 % 2 ^ 48
  let vid := bits e.2 36 12
  let s := atDrop mac vid s
  if e.2.testBit 35 then
    let (_, s) := atRoom mac vid s
    s.setTable (s.yard.table ++ [⟨mac, vid, e.2.testBit 34, e.2.testBit 33, bits e.2 24 9, bits e.2 0 12, s.tick⟩])
  else s

/-- What a YARD body gives beside registers: its static entries, and the ports it knows (R237). -/
def loadYard (b : List Nat) (s : State) : State :=
  let rs := recsOf b
  let s := (rs.flatMap YRec.statics).foldl loadStatic s
  let ps := (rs.filter (·.rtype == 2)).map (·.index)
  { s with yard := { s.yard with known := s.yard.known ++ ps.filter fun p => !s.yard.known.contains p } }

/-- A function that a full image defines is HELD until the Farrier releases it (R386), with incarnation 0 (R39). -/
def defineHeld (s : State) (f : Nat) : State :=
  let x := s.fn f
  let s := s.setFn f { x with wasDef := true, maxP := s.fld F.fnShare_MAXSHARE f, minP := s.fld F.fnShare_MINSHARE f }
  s.put F.fnStatus_STATE (if f = 0 then 2 else 1) f

/-- An enabled pin machine starts at START (R297, R305). -/
def startMachine (s : State) (k : Nat) : State :=
  let b := k / 8
  let m := k % 8
  if s.on F.pmCfg0_EN b m then pmStart b m (pmReload b m s) else s

/-- Blocks begin work with the layout: ports' thresholds and relays, servos and generators, gates, pin machines, the
Paddock, the pair (R196, R209, R235, R254, R277, R311). -/
def startBlocks (old s : State) : State :=
  let s := showCount s
  let s := (List.range 12).foldl (fun s p => s.put F.epTxctl_TXTH (s.fld F.epCfg2_TXTH0 p) p) s
  let s := ((List.range 4).filter fun k => s.on F.epIpcfg0_EN k).foldl (fun s k => restartPair k s) s
  let s := ([0, 1].filter fun j => s.on F.svCfg0_EN j).foldl (fun s j => servoSwitch j true s) s
  let s := restartPulses (List.range 8) s
  let s := (List.range 17).foldl (fun s p => commitGates old p s) s
  let s := (List.range 32).foldl startMachine s
  let s := if s.fld F.pdCfg0_ROLE = 0 then s else pdRestart s
  if s.on F.twCfg0_EN then
    { s.put F.twStat_ROLE 2 with
      tw := { s.tw with listen := some (s.tick + s.fld F.twCfg0_LISTEN * 250000), standbyFrom := some s.tick } }
  else s

/-- The mailbox sides of every bound pair take their peers' incarnations (R155). -/
def syncPairs (s : State) : State :=
  (pairsIn s.act).foldl (fun s m => if s.fld F.mbEnd_KIND m 0 = 0 then s else mbResync m 1 (mbResync m 0 s)) s

/-- The applied image's CRC of R309: every section but TWIN. -/
def imageCrc (m : Img) : Nat :=
  crc32c (((m.secs.filter (·.typ != 12)).flatMap fun x =>
    (m.slots.drop (m.posOf x)).take (2 + x.body.length)).flatMap rawBytes)

/-- Apply a full image that passed, from source `src` of LAYSTAT.SRC (R39). -/
def applyFull (m : Img) (src : Nat) (s : State) : State :=
  let t := m.wrs.foldl load s
  let t := (List.range 256).foldl (fun t k => t.put F.stBank_OWNER (t.fld F.stBank_NEXT (k / 16) (k % 16)) (k / 16) (k % 16)) t
  let t := (m.defs true s).foldl defineHeld t
  let t := { t with boot := { t.boot with
    sdn := m.sdn, sec := wat (m.body 13) 0, starts := stblStarts (m.body 4), stblMask := bits (wat (m.body 4) 0) 0 16
    present := (m.secs.map fun x => 2 ^ x.typ).sum, cfgd := imageCrc m } }
  let t := syncPairs (loadYard (m.body 6) t)
  let t := t.put F.pwPstat_STATE (t.fld F.pwCfg1_PSINIT)
  let t := ((t.put F.gcLaystat_APPLIED 1).put F.gcLaystat_SRC src).put F.gcLayver_VER m.ver
  logRecord 6 [t.word .gcLaystat, m.ver] (startBlocks s t)

/-! ### Tack (R351) -/

/-- The tacks that the enabled stables name. -/
def State.tacks (s : State) : List Nat :=
  (List.range 254).filter fun t => (List.range 16).any fun n => s.stEn n && s.fld F.stCfg_TACK n == t

/-- The stored slots of a tack. -/
def State.tackSlots (s : State) (x : Tack) : List Nat := (List.range x.len).map fun i => (s.flashAt (x.start + i)).toNat

/-- A tack verifies (R32, R351).
(DEDUCED, log entry 70) -/
def State.tackOk (s : State) (x : Tack) : Bool :=
  x.valid && 24 ≤ x.len && x.len ≤ 32792 && s.boot.sec.testBit x.key &&
    (let ws := s.tackSlots x
     let qx := wide ws 0
     let qy := wide ws 6
     let r := wide ws 12
     let q := wide ws 18
     s.keyKnown x.key qx qy && r < 2 ^ 256 && q < 2 ^ 256 && ecdsaOk qx qy (signedDigest ws 12 24) r q)

/-- Load a tack into the code store of a stable. -/
def loadCode (n : Nat) (ws : List Nat) (s : State) : State :=
  ws.zipIdx.foldl (fun s p => memWrite (codePlace (8 * n) (2 * p.2)) (wd p.1) s) s

/-- Load the tack of every enabled stable from directory copy `c`. -/
def loadTacks (c : Nat) (s : State) : State :=
  ((List.range 16).filter s.stEn).foldl (fun s n =>
    loadCode n ((s.tackSlots (s.tackAt c (s.fld F.stCfg_TACK n))).drop 24) s) s

/-- Step 8 of R345: the functions and the stables are released, and the boot watchdog starts (R39, R112, R346). -/
def releaseAll (s : State) : State :=
  let s := ((List.range 512).filter fun f => s.fld F.fnStatus_STATE f = 1).foldl (fun s f => s.put F.fnStatus_STATE 2 f) s
  let s := (List.range 16).foldl (fun s n => releaseStable n s) s
  let wd := s.fld F.faCfg0_BOOTWD
  let s := { s with boot := { s.boot with phase := .running, wdEnd := if wd = 0 then none else some (s.tick + wd * 250000000) } }
  s.put F.faFlstat_BUSY 0

/-- Steps 6 to 8 with an image that passed and directory copy `c`.
(DEDUCED, log entry 71) -/
def bootWith (c : Nat) (m : Img) (src : Nat) (s : State) : State :=
  let s := applyFull m src s
  match s.tacks.find? fun t => !s.tackOk (s.tackAt c t) with
  | some t => bootFail 4 0 0 t s
  | none => releaseAll (loadTacks c s)

/-! ### Finding the image (R38, R345) -/

/-- An image fails validation: GC.LAYSTAT takes code and section (R37).
(DEDUCED, log entry 71) -/
def layFail (err sect : Nat) (s : State) : State :=
  ((s.put F.gcLaystat_ERR err).put F.gcLaystat_SECT sect).put F.gcLaystat_FAIL 1

/-- The slot index in flash of the images: slot A, slot B, the golden image (R350). -/
def imageSlot (src : Nat) : Nat := [0x2000, 0x22000, 0x42000].getD src 0

/-- The image of a source of LAYSTAT.SRC in flash. -/
def State.flashImg (s : State) (src : Nat) : Img := readImg (fun k => (s.flashAt (imageSlot src + k)).toNat) 131072

/-- Try the candidates in order; `first` is the failure of the preferred slot. When none passes, GC.LAYSTAT holds the failure
of the last one through the reset that follows (R38).
(DEDUCED, log entry 71) -/
def tryImages (c : Nat) (first : Option (Nat × Nat)) : List Nat → State → State
  | [], s =>
    let err := s.fld F.gcLaystat_ERR
    let sect := s.fld F.gcLaystat_SECT
    layFail err sect (bootFail 2 err sect 0 s)
  | src :: rest, s =>
    let m := s.flashImg src
    let r := validate true (some c) (fun _ => false) m s
    if r.1 = 0 then
      bootWith c m src (match first with
        | some e => logBoot 1 (bootEvent 1 e.1 e.2 (if src = 2 then 2 else 1) s)
        | none => s)
    else tryImages c (first.or (some r)) rest (layFail r.1 r.2 s)

/-- Step 5 of a boot from flash.
(DEDUCED, log entry 71) -/
def flashBoot (s : State) : State :=
  match s.dirCopy with
  | none => bootFail 3 0 0 0 s
  | some c => tryImages c none (if (s.dirWord c 1).testBit 0 then [1, 0, 2] else [0, 1, 2]) s

/-- Halter mode (R348). -/
def enterHalter (s : State) : State :=
  let s := { s with boot := { s.boot with phase := .halter } }
  (s.put F.gcLaystat_HALTER 1).put F.faFlstat_BUSY 0

/-- The memories are cleared, or after REST keep what REST retains and hold open values elsewhere (R146, R331, R344).
(DESIGN CHOICE, log entry 66) -/
def clearSram (s : State) : State :=
  if s.fld F.gcBootcause_RSTSRC = 6 then
    let (k, s) := s.draw
    { s with code := [], priv := [], stage := [], lost := k + 1 }
  else { s with loft := [], mg := [], code := [], priv := [], stage := [], lost := 0 }

/-- The root PLL locks: steps 2 to 4, and on from there (R345, R346).
(DEDUCED, log entry 71) -/
def pllLock (s : State) : State :=
  if s.boot.phase ≠ .pll then s
  else
    let s := clearSram { s.put F.ckStat_LOCK 1 with tkBase := s.tick, period := s.tick }
    let s := logBoot 2 s
    if s.fld F.gcBootcause_TRIES = 3 then enterHalter s
    else
      let s := s.put F.gcBootcause_TRIES (s.fld F.gcBootcause_TRIES + 1)
      let s := ((s.put F.gcLaystat_ERR 0).put F.gcLaystat_SECT 0).put F.gcLaystat_FAIL 0
      let src := s.fld F.ckStat_BOOTSRC
      if src = 1 ∨ src = 2 then { s with boot := { s.boot with phase := .hostWait, hostFrom := s.tick } }
      else flashBoot { s with boot := { s.boot with phase := .running } }

/-- The root PLL is not locked within 1 ms: the try fails, and the next follows 10 ms later (R345). -/
def pllTimeout (s : State) : State :=
  if s.boot.phase ≠ .pll then s
  else
    let s := bootEvent 8 0 0 0 (passTo (s.tkBase + 250000) s)
    let s := logicReset 4 (s.put F.gcBootcause_TRIES (min 3 (s.fld F.gcBootcause_TRIES + 1)))
    { s with boot := { s.boot with phase := .retry } }

/-- The next try begins. -/
def pllRetry (s : State) : State :=
  if s.boot.phase ≠ .retry then s
  else
    let s := passTo (s.tkBase + 2500000) s
    { s with tkBase := s.tick, boot := { s.boot with phase := .pll } }

/-! ### The host image (R347) -/

/-- The port that the host image is taken from. -/
def State.himgPort (s : State) (w : Who) : Bool :=
  match w with
  | .pf => s.fld F.ckStat_BOOTSRC == 1
  | .qspi => s.fld F.ckStat_BOOTSRC == 2
  | _ => false

/-- Where word `k` of the host image stands. -/
def himgPlace (k : Nat) : SramWord := .loft (Fin.ofNat 16 (14 + k / 65536)) (Fin.ofNat 65536 (k % 65536))

/-- (DEDUCED, log entry 72) -/
def State.himgWord (s : State) (k : Nat) : Nat := (readCode (s.raw (himgPlace k))).word.toNat

/-- The Farrier reads `n` words of the host image, counted as reads are (R144). -/
def readHimg (n : Nat) (s : State) : State := (List.range n).foldl (fun s k => (memRead (himgPlace k) s).2) s

/-- A word of the host image arrives.
(DEDUCED, log entry 72) -/
def hostImageWord (w : Who) (v : Word) (s : State) : State :=
  if s.boot.phase ≠ .hostWait ∨ !s.himgPort w then s
  else
    let k := s.fld F.gcBootctl_HICNT
    let s := (memWrite (himgPlace k) v s).put F.gcBootctl_HICNT (k + 1)
    let total := bits (s.himgWord 5) 0 18
    if k < 5 then s
    else if total > 131072 then layFail 4 0 (bootFail 2 4 0 0 s)
    else if k + 1 < total then s
    else match s.dirCopy with
      | none => bootFail 3 0 0 0 s
      | some c =>
        let s := readHimg (k + 1) s
        let m := readImg s.himgWord 131072
        let r := validate true (some c) (fun _ => false) m s
        if r.1 = 0 then bootWith c m 3 { s with boot := { s.boot with phase := .running } }
        else layFail r.1 r.2 (bootFail 2 r.1 r.2 0 s)

/-- HIRST: the host image begins again. -/
def hostImageRestart (s : State) : State := if s.boot.phase = .hostWait then s.put F.gcBootctl_HICNT 0 else s

/-- The host image is not complete 10 s after step 3. -/
def hostImageTimeout (s : State) : State :=
  if s.boot.phase ≠ .hostWait then s
  else
    let s := passTo (s.boot.hostFrom + 2500000000) s
    bootFail 5 0 0 (s.fld F.gcBootctl_HICNT % 256) s

/-! ### The end of the boot (R346, R349) -/

/-- BOOTCPL: BOOTTRY returns to 0 and the boot watchdog stops; before step 8 and in Halter mode it is ignored. -/
def bootComplete (s : State) : State :=
  if s.boot.phase ≠ .running ∨ !s.applied then s
  else { s with boot := { s.boot with wdEnd := none } }.put F.gcBootcause_TRIES 0

/-- BOOTCPL was not written in time. -/
def bootWatchdog (s : State) : State :=
  match s.boot.wdEnd with
  | some t => bootFail 6 0 0 0 (passTo t s)
  | none => s

/-! ### Commands -/

/-- PLL_LOCK. -/
def execPllLock (s : State) : Host.Outcome State Fault Refusal := done s (pllLock s)
/-- PLL_LOCK_TIMEOUT. -/
def execPllLockTimeout (s : State) : Host.Outcome State Fault Refusal := done s (pllTimeout s)
/-- PLL_RETRY. -/
def execPllRetry (s : State) : Host.Outcome State Fault Refusal := done s (pllRetry s)
/-- HOST_IMAGE_WORD: GC.HIMG written; other ports than the one the image is taken from are ignored. -/
def execHostImageWord (w : Who) (v : Word) (s : State) : Host.Outcome State Fault Refusal :=
  done s (sysWrite w (fun _ => w ≠ .jtag) (hostImageWord w v) s)
/-- HOST_IMAGE_RESTART: GC.BOOTCTL written with HIRST. -/
def execHostImageRestart (w : Who) (s : State) : Host.Outcome State Fault Refusal :=
  done s (sysWriteQuiet w (fun _ => notVf w) hostImageRestart s)
/-- HOST_IMAGE_TIMEOUT. -/
def execHostImageTimeout (s : State) : Host.Outcome State Fault Refusal := done s (hostImageTimeout s)
/-- BOOT_COMPLETE: GC.BOOTCTL written with BOOTCPL. -/
def execBootComplete (w : Who) (s : State) : Host.Outcome State Fault Refusal :=
  done s (sysWriteQuiet w (·.supervisor w) bootComplete s)
/-- BOOT_WATCHDOG_EXPIRE. -/
def execBootWatchdogExpire (s : State) : Host.Outcome State Fault Refusal := done s (bootWatchdog s)
/-- BOOTCAUSE_CLEAR: GC.BOOTCAUSE written with CLR. -/
def execBootcauseClear (w : Who) (s : State) : Host.Outcome State Fault Refusal :=
  done s (sysWriteQuiet w (fun _ => notVf w) (bootEvent 0 0 0 0) s)

end Sys2Proof.Machine
end

