-- ==== Sys2Proof/Machine/InPass.lean ====
section
/-! DEFINITION. Forwarding in passing: segments, the fixed delay, the window, late and early writes (chapter 11). -/

namespace Sys2Proof.Machine

/-- RG of a direction. -/
def State.relayGroup (s : State) (k d : Nat) : Nat := s.fld (if d = 0 then F.epIpcfg1_RG0 else F.epIpcfg1_RG1) k
def nextFld (d : Nat) : Fld := if d = 0 then F.epIpstat_NEXT0 else F.epIpstat_NEXT1

/-- T_out of a frame without the slip, in ps (R211).
(DEDUCED, log entry 54) -/
def State.tOut (s : State) (k : Nat) (x : RFrame) : Nat := x.tin + 4000 * s.fld F.epIpcfg1_DLY k + 125 * x.xres

/-- The start in ps of the latch cycle of word `i`: 8 ECLK before T_out + 6i·b − 16 ns (R212). -/
def State.latchPs (s : State) (k : Nat) (x : RFrame) (i : Nat) : Nat := s.tOut k x + 6 * i * s.bytePs k - 16000 - 10667

/-- DUE of a segment: TK of the tick that contains the latch cycle of its first word. -/
def State.dueOf (s : State) (k : Nat) (x : RFrame) (g : Nat) : Nat :=
  (s.latchPs k x (64 * g) / 4000 + 2 ^ 32 - s.tkBase % 2 ^ 32) % 2 ^ 32

/-- Raise EV bit 13, INPASS, in the engine of a position, which wakes its stable (R126, R214). -/
def inpassEvent (k j : Nat) (s : State) : State :=
  let n := s.fld F.epIpcfg0_STBL k
  wakeStable n (setEv (8 * n + j) 13 s)

/-- A new frame begins to arrive: T_in is now plus `sub`, XRES a free value up to a symbol time, with the slip that 8 byte times of gap after the
previous frame and its own preamble need (R211).
(DEDUCED, log entry 54; DESIGN CHOICE, log entry 4) -/
def newFrame (k d sub : Nat) (s : State) : RFrame × State :=
  let (n, s) := s.draw
  let x : RFrame := { seq := (s.dir k d).seq, ts := s.rxStamp (s.ingress k d) (-(sub : Int)), tin := s.tick * 4000 + sub * 125
                      xres := (Config.choice n).toNat % (s.bytePs k / 125 + 1), slip := false }
  let ends := (s.dir k d).frames.filterMap fun y => if y.gone then none else y.fin.map fun e => s.tOut k y + e.1 * s.bytePs k
  let first := ends.foldl max (s.dir k d).endPs + 16 * s.bytePs k
  let late := first - s.tOut k x
  let x := if late = 0 then x else { x with xres := x.xres + (late + 124) / 125, slip := true }
  (x, s.setDir k d { s.dir k d with seq := (x.seq + 1) % 256 })

/-- Write a segment's descriptor at the position of the next relay engine and raise its event (R214, R215). Whether an
uncorrectable D0 held VALID is a free value.
(DESIGN CHOICE, log entry 4) -/
def postDesc (k d : Nat) (x : RFrame) (g slot j : Nat) (s : State) : State :=
  let a := fun o => s.ringPlace k d (descOff j + o)
  let (old, s) := memRead (a 0) s
  let (n, s) := s.draw
  let missed := if old.bad then (Config.choice n).toNat % 2 else bits old.word.toNat 47 1
  let s := if missed = 1 then s.bump F.epIpcnt_MISS k d else s
  let s := memWrite (a 0) (wd (2 ^ 47 + b2n (g = 0) * 2 ^ 46 + missed * 2 ^ 43 + slot * 2 ^ 38 + x.seq * 2 ^ 30 + g % 256 * 2 ^ 22)) s
  let s := memWrite (a 1) (wd (s.dueOf k x g * 2 ^ 16 + x.xres % 2 ^ 16)) s
  inpassEvent k j (memWrite (a 3) (wd x.ts.nsf) (memWrite (a 2) (wd x.ts.sec) s))

/-- The function of a pair runs: descriptors are posted (R209). -/
def State.pairRuns (s : State) (k : Nat) : Bool := s.fnState (s.fld F.epIpcfg0_FN k) == 2

/-- The first word of a segment arrives: segment 0 of a new frame when no frame is arriving, else the next one of the frame
that is (R212, R214).
(DEDUCED, log entry 54) -/
def segmentPost (k d : Nat) (ws : List Word) (sub : Nat) (s : State) : State :=
  if !s.inPassing k d || ws = [] || ws.length > 64 || !s.on F.epStat_LINK (s.ingress k d) then s
  else
    let open? := (s.dir k d).frames.findIdx? (·.fin.isNone)
    let (x, s) := match open? with
      | some n => ((s.dir k d).frames.getD n { seq := 0, ts := {}, tin := 0, xres := 0, slip := false }, s)
      | none => newFrame k d sub s
    let g := x.slots.length
    if x.words.length ≠ 64 * g then s
    else
      let arr := x.tin + (6 * 64 * g + 6) * s.bytePs k + 8000
      let slot := (s.dir k d).slot
      let j := nextMember (s.relayGroup k d) (s.fld (nextFld d) k)
      let run := s.pairRuns k
      let y := { x with slots := x.slots ++ [slot], poss := x.poss ++ [if run then some j else none], words := x.words ++ ws }
      let ds := s.dir k d
      let ds := { ds with slot := (slot + 1) % 31, frames := match open? with
        | some n => ds.frames.set n y
        | none => ds.frames ++ [y] }
      let s := s.setDir k d ds
      let s := if run then postDesc k d x g slot j (s.put (nextFld d) (nextMember (s.relayGroup k d) (j + 1)) k) else s
      settleDir k d (passTo ((arr + 3999) / 4000) s)

/-- The words that egress sends of a frame: bytes 0 to LEN − 5 (R211). -/
def egressWords (len : Nat) : Nat := (len - 4 + 5) / 6

/-- A relayed frame has been sent, good or with its FCS inverted; with COPY it is handed to the yard too (R208, R216). -/
def relaySent (k d : Nat) (x : RFrame) (len : Nat) (good : Bool) (s : State) : State :=
  let bytes := (x.egress.flatMap wordBytes).take (len - 4)
  let p := s.ingress k d
  let s := s.setDir k d { s.dir k d with endPs := s.tOut k x + len * s.bytePs k }
  let s := (s.emit (.frame (s.egress k d) bytes good)).bump F.epCnt0_TXOK (s.egress k d)
  if !s.on (if d = 0 then F.epIpcfg0_COPY0 else F.epIpcfg0_COPY1) k then s
  else if !good then s.bump F.epCnt1_RXFCS p
  else
    let fr : EthFrame := { bytes := bytes, fcsOk := true }
    if s.rxCheck p fr ≠ 0 then rxCount p fr s
    else { s with yard := { s.yard with inbox := s.yard.inbox ++ [{ p := p, bytes := bytes, ts := x.ts, wake := s.rxWake p (((s.tick * 4000 : Nat) - x.tin : Int) / 125) }] } }

/-- Egress is done with the frame at place `n`; it leaves the ring once it has ended too. -/
def relayDone (k d n : Nat) (x : RFrame) (s : State) : State :=
  let ds := s.dir k d
  s.setDir k d { ds with frames := if x.fin.isSome then ds.frames.eraseIdx n else ds.frames.set n { x with gone := true } }

/-- A frame whose words egress has all taken ends on the wire.
(DEDUCED, log entry 54) -/
def relayFinish (k d n : Nat) (s : State) : State :=
  match (s.dir k d).frames[n]? with
  | none => s
  | some x =>
    match x.fin with
    | none => s
    | some (len, bad) =>
      if x.gone then relayDone k d n x s
      else if x.started && x.egress.length ≥ egressWords len then relayDone k d n x (relaySent k d x len (!bad) s)
      else s

/-- A frame ends at the ingress: LAST, LEN and BAD in the descriptor of its last segment, and its event again, while FN is
RUNNING (R209, R214, R216).
`bad`: its FCS was wrong or the link dropped inside it.
(DEDUCED, log entry 54) -/
def relayEnd (k d len : Nat) (bad : Bool) (s : State) : State :=
  match (s.dir k d).frames.findIdx? (·.fin.isNone) with
  | none => s
  | some n =>
    match (s.dir k d).frames[n]? with
    | none => s
    | some x =>
      let mx := s.maxFrm (s.ingress k d)
      let l := min (min len mx) (6 * x.words.length)
      let isBad := bad || len > mx
      let y := { x with fin := some (l, isBad) }
      let ds := s.dir k d
      let s := settleDir k d (s.setDir k d { ds with frames := ds.frames.set n y })
      let g := x.slots.length - 1
      let s := if !s.pairRuns k then s
        else
          let s := onDesc k d x g (fun w => setBits (setBits (setBits w 45 1 1) 44 1 (b2n (isBad || x.ue))) 0 15 l) s
          match x.poss.getD g none with
          | some j => inpassEvent k j s
          | none => s
      let s := if isBad && !x.ue then s.bump F.epIpcnt_BAD k d else s
      relayFinish k d n (s.bump F.epCnt0_RXOK (s.ingress k d))

/-- The frame whose turn it is at the egress. -/
def State.egressNext (s : State) (k d : Nat) : Option (Nat × RFrame) :=
  ((s.dir k d).frames.zipIdx.find? fun e => !e.1.gone).map fun e => (e.2, e.1)

/-- Egress begins a frame at T_out, a slipped one counted; one whose words it has all latched by then is sent. With the egress
link down the frame is discarded (R211, R216).
(DEDUCED, log entry 54) -/
def egressStart (k d : Nat) (s : State) : State :=
  match s.egressNext k d with
  | none => s
  | some (n, x) =>
    if x.started then s
    else
      let s := passTo ((s.tOut k x + 3999) / 4000) s
      let x := (s.dir k d).frames.getD n x
      let s := if x.slip then (s.bump F.epIpcnt_SLIP k d).put F.epIpstat_SLEV 1 k else s
      if !s.on F.epStat_LINK (s.egress k d) then relayDone k d n x (s.bump F.epIpcnt_DROP k d)
      else
        let ds := s.dir k d
        relayFinish k d n (s.setDir k d { ds with frames := ds.frames.set n { x with started := true } })

/-- Egress latches word `i` of the frame whose turn it is, in its latch cycle (R212); an uncorrectable word ends the frame
bad (R216). -/
def wordLatch (k d i : Nat) (s : State) : State :=
  match s.egressNext k d with
  | none => s
  | some (n, x) =>
    let lim := match x.fin with
      | some (len, _) => egressWords len
      | none => x.words.length
    if i ≠ x.egress.length || i ≥ lim || !s.on F.epStat_LINK (s.egress k d) then s
    else
      let s := passTo (s.latchPs k x i / 4000) s
      let x := (s.dir k d).frames.getD n x
      let r := memRead (s.ringPlace k d (64 * x.slots.getD (i / 64) 0 + i % 64)) s
      let y := { x with egress := x.egress ++ [r.1.word] }
      let s := r.2.setDir k d { r.2.dir k d with frames := (r.2.dir k d).frames.set n y }
      if r.1.bad then
        let s := if x.fin.any (·.2) then s else s.bump F.epIpcnt_BAD k d
        let s := onDesc k d x (i / 64) (fun w => setBits w 44 1 1) s
        relayDone k d n { y with ue := true } (relaySent k d x (6 * x.egress.length + 4) false s)
      else relayFinish k d n s

/-! ### The window (R210, R215, R217) -/

/-- The loft word behind a window word (R210). -/
def windowBank (o : Nat) : Nat := (14 + o / 0x800) * 4096 + o % 0x800

/-- An access through window `k` that acts for the function that its bank drains to waits at the bank (R140). -/
def windowWait (w : Who) (k o : Nat) (s : State) : State :=
  if s.on F.epIpcfg0_EN k then awaitDrain w (s.fld F.epIpcfg0_STBL k) (windowBank o) s else s

/-- The access may use word `o` of window `k`, and else how it is refused: the bank's owner counts as for every other access to
it (R137, R140, R210). -/
def windowDenied (w : Who) (k o : Nat) (s : State) : Option Ans :=
  let n := s.fld F.epIpcfg0_STBL k
  if !s.on F.epIpcfg0_EN k then some { disp := 9, det := 1, cls := 6, st := s }
  else if s.supervisor w then none
  else match w with
    | .engine e => if e.val / 8 = n ∧ s.engFn e = s.fld F.epIpcfg0_FN k then
        (if s.mayLoft w n (windowBank o) then none else some (denied (countDeny n s) 1)) else some (denied s 1)
    | _ => some (denied s 1)

/-- A read of a window word: reserved words read zero.
(DEDUCED, log entry 33) -/
def windowRead (w : Who) (k o : Nat) (s : State) : Ans × Rd :=
  let s := windowWait w k o s
  match windowDenied w k o s with
  | some a => (a, .ok 0)
  | none =>
    if o % 0x800 ≥ 0x7E0 then ({ st := s }, .ok 0)
    else
      let r := memRead (s.ringPlace k (o / 0x800) (o % 0x800)) s
      ({ st := r.2 }, r.1)

/-- The frame whose posted segment holds a ring slot, with the segment; one relayed while FN did not run was never posted
(R209, R217). -/
def State.slotHolder (s : State) (k d slot : Nat) : Option (RFrame × Nat) :=
  (s.dir k d).frames.findSome? fun x => (x.slots.findIdx? (· == slot)).bind fun g =>
    if x.gone || (x.poss.getD g none).isNone then none else some (x, g)

/-- A write that came too late, or to a slot that holds no posted segment (R217).
(DESIGN CHOICE, log entry 113) -/
def lateWrite (w : Who) (k d seq i : Nat) (s : State) : State :=
  let s := (s.bump F.epIpcnt_LATEW k d).put F.epIpstat_LWEV 1 k
  if s.on F.epIplog_VALID k then s
  else
    let pos := match w with
      | .engine e => e.val % 8
      | _ => 0
    let s := ((s.put F.epIplog_VALID 1 k).put F.epIplog_DIR d k).put F.epIplog_SEQ seq k
    (s.put F.epIplog_WORD i k).put F.epIplog_POS pos k

/-- A write of a ring word (R217).
(DESIGN CHOICE, log entry 113) -/
def ringWrite (w : Who) (k d r : Nat) (v : Word) (s : State) : State :=
  match s.slotHolder k d (r / 64) with
  | none => lateWrite w k d 0 (r % 64) s
  | some (x, g) =>
    let i := 64 * g + r % 64
    if i < x.egress.length || i ≥ x.words.length then lateWrite w k d x.seq i s
    else
      let s := if i ≥ x.arrived then s.bump F.epIpcnt_EARLYW k d else s
      memWrite (s.ringPlace k d r) v s

/-- A write of a window word: ring words, and VALID of a descriptor; while FN is not RUNNING it is refused (R209, R210).
(DEDUCED, log entry 33) -/
def windowWrite (w : Who) (k o : Nat) (v : Word) (s : State) : Ans :=
  let s := windowWait w k o s
  match windowDenied w k o s with
  | some a => a
  | none =>
    if s.fnState (s.fld F.epIpcfg0_FN k) ≠ 2 then denied s 1
    else
      let d := o / 0x800
      let r := o % 0x800
      if r < 0x7C0 then { st := ringWrite w k d r v s }
      else if r < 0x7E0 ∧ r % 4 = 0 then
        let x := memUpdate (s.ringPlace k d r) (fun u => wd (setBits u.toNat 47 1 (bits v.toNat 47 1))) s
        { disp := x.1, det := 1, st := x.2 }
      else { st := s }

/-! ### Commands -/

/-- INPASS_SEGMENT_POST. -/
def execInpassSegmentPost (k : Fin 4) (d : Fin 2) (ws : List Word) (sub : Fin 32) (s : State) : Host.Outcome State Fault Refusal :=
  done s (segmentPost k d ws sub s)

/-- INPASS_FRAME_END. -/
def execInpassFrameEnd (k : Fin 4) (d : Fin 2) (len : Nat) (bad : Bool) (s : State) : Host.Outcome State Fault Refusal :=
  done s (relayEnd k d len bad s)

/-- INPASS_EGRESS_START. -/
def execInpassEgressStart (k : Fin 4) (d : Fin 2) (s : State) : Host.Outcome State Fault Refusal := done s (egressStart k d s)

/-- INPASS_WORD_LATCH. -/
def execInpassWordLatch (k : Fin 4) (d : Fin 2) (i : Nat) (s : State) : Host.Outcome State Fault Refusal :=
  done s (wordLatch k d i s)

/-- INPASS_WINDOW_WRITE. -/
def execInpassWindowWrite (w : Who) (k : Fin 4) (o : Fin 4096) (v : Word) (s : State) : Host.Outcome State Fault Refusal :=
  done s (blockAccess w (windowWrite w k o v s) s)

/-- INPASS_DESCRIPTOR_CLEAR: a window write of zero to D0 of position `j` (R215). -/
def execInpassDescriptorClear (w : Who) (k : Fin 4) (d : Fin 2) (j : Fin 8) (s : State) : Host.Outcome State Fault Refusal :=
  done s (blockAccess w (windowWrite w k (0x800 * d + descOff j) 0 s) s)

end Sys2Proof.Machine
end

