-- ==== Sys2Proof/Machine/Link.lean ====
section
/-! DEFINITION. A port's link goes down or changes, with the relayed frames that this cuts, and its captured registers become
active (chapters 10 and 11). -/

namespace Sys2Proof.Machine

/-- The ingress link of a direction drops inside a frame: the frame ends bad where the ring runs out (R216, R218). -/
def cutRelay (k d : Nat) (s : State) : State :=
  match (s.dir k d).frames.findIdx? (·.fin.isNone) with
  | none => s
  | some n =>
    match (s.dir k d).frames[n]? with
    | none => s
    | some x =>
      let m := s.arrivedBy k x
      relayEnd k d (6 * m) true
        (s.setDir k d { s.dir k d with frames := (s.dir k d).frames.set n { x with words := x.words.take m } })

/-- Frames under way or queued on a dead link are lost; each queued one is counted (R189). A relayed frame that egress has
started is discarded and counted (R216). -/
def flushPort (p : Nat) (s : State) : State :=
  let x := s.port p
  let s := s.setPort p { x with tx := none, held := none, pauseWait := none, pauseEnd := none, backoff := none, attempts := 0
                                parts := none }
  let s := (x.tx.toList ++ x.held.toList).foldl (fun s t => copyDone t.id .sent s) (cutShort p false s)
  let s := match s.relayOut p with
    | some (k, d) =>
      let n := ((s.dir k d).frames.filter fun y => y.started && !y.gone).length
      let fs := (s.dir k d).frames.filterMap fun y =>
        if !y.started then some y else if y.fin.isSome then none else some { y with gone := true }
      (s.setDir k d { s.dir k d with frames := fs }).bump F.epIpcnt_DROP k d n
    | none => s
  dropOffered p (·.bump F.epCnt2_TXLDN p) s

/-- The link goes down (R189, R195, R218).
(DEDUCED, log entry 41) -/
def linkDown (p : Nat) (s : State) : State :=
  if !s.on F.epStat_LINK p then s
  else
    let s := (allDirs.filter fun x => s.inPassing x.1 x.2 && s.ingress x.1 x.2 == p).foldl (fun s x => cutRelay x.1 x.2 s) s
    let s := ((s.put F.epStat_LINK 0 p).put F.epStat_PAUSED 0 p).put F.epStat_LPIRX 0 p
    let s := ((s.put F.epStat_LPITX 0 p).put F.epStat_PVS 0 p).put F.epStat_T1LA 0 p
    flushPort p ((s.put F.epStat_HDXA 0 p).put F.epEvt_LINKCHG 1 p)

/-- LINK_CHANGE: a link that comes up has trained with the Ostler's leave (R189, R335).
(DEDUCED, log entry 41; DESIGN CHOICE, log entry 89) -/
def linkChange (p : Nat) (l : LinkState) (s : State) : State :=
  let s := linkDown p s
  if l.up && s.epIf p ≠ 0 then
    let (ok, s) := trainLeave p s
    if ok then linkUp p l s else s
  else s

/-- The captured set of EP[n] becomes active at its boundary, when neither direction is inside a frame (R188, R209). -/
def activateEp (n : Fin 12) (s : State) : State :=
  let capd := fun (f : Fld) => Tab.get f.reset s.cap (f.key n 0)
  let pair := n.val < 4 && ipFlds.any fun f => capd f ≠ s.fld f n
  if !s.portFree n || (pair && ([s.ingress n 0, s.ingress n 1, capd F.epIpcfg0_PA, capd F.epIpcfg0_PB].any fun p => !s.portFree p)) then s
  else
    let t := activate (.ep n) s
    let ch := fun (fs : List Fld) => fs.any fun f => t.fld f n ≠ s.fld f n
    let t := if pair then restartPair n t else t
    if t.epIf n ≠ s.epIf n || ch [F.epCfg0_HDX, F.epCfg0_ADV, F.epCfg0_T1LHI, F.epCfg0_EEE] then
      (linkDown n t).put F.epStat_MISMATCH 0 n
    else if ch [F.epCfg0_PREEMPT, F.epCfg0_ADDFRAG] then startVerify n t
    else t

end Sys2Proof.Machine
end

