-- ==== Sys2Proof/Machine/Delta.lean ====
section
/-! DEFINITION. Commits at their boundaries (R40 to R43), delta images (R44 to R47, R49), the key slots (R48), and the
commands of each. -/

namespace Sys2Proof.Machine

/-! ### Commits -/

/-- The block of a kind of the register tables. -/
def blockOfKind (k i : Nat) : Block :=
  match k with
  | 0 => .gc
  | 1 => .fn
  | 2 => .st (Fin.ofNat 16 i)
  | 3 => .mb
  | 4 => .ic (Fin.ofNat 19 i)
  | 5 => .mg
  | 6 => .ep (Fin.ofNat 12 i)
  | 7 => .yd
  | 8 => .tm
  | 9 => .pd
  | 10 => .can (Fin.ofNat 4 i)
  | _ => .pi (Fin.ofNat 4 i)

/-- The block whose shadow set holds an SH field. -/
def blockOf (f : Fld) (i : Nat) : Option Block :=
  ((List.range 12).find? fun k => (shIds k).contains f.id).map fun k => blockOfKind k i

/-- GO written to GC.COMMIT (R43): with INST set it acts at the next common instant, at once while no instants run (R42). -/
def gcGo (inst : Bool) (s : State) : State :=
  let s := s.put F.commit_INST (b2n inst)
  gcCommit (inst && s.on F.mgInstat_RUN) s

/-- A block reaches its boundary and its captured set becomes active (R40, R42). The Manger's set waits for the common
instant while instants run. -/
def activateBlock (b : Block) (s : State) : State :=
  if s.cfld F.commit_PEND b = 0 then s
  else match b with
    | .fn => activateFn s
    | .st n => activateSt n s
    | .mb => activateMb s
    | .mg => if s.on F.mgInstat_RUN then s else activateMg s
    | .ep n => activateEp n s
    | .yd => activateYd s
    | .tm => activateTm s
    | .pd => activatePd s
    | .can n => activateCan n s
    | .pi n => activatePi n s
    | b => activate b s

/-! ### Delta images -/

/-- The delta in GC.STAGE. -/
def State.stageWord (s : State) (k : Nat) : Rd := readCode (s.raw (.stage (Fin.ofNat 8192 k)))
/-- (DEDUCED, log entry 69) -/
def State.staged (s : State) : Img := readImg (fun k => if k < 8192 then (s.stageWord k).word.toNat else 0) 8192

/-- The staged image is read word by word, counted as reads are (R144). -/
def readStage (n : Nat) (s : State) : State :=
  (List.range n).foldl (fun s k => (memRead (.stage (Fin.ofNat 8192 k)) s).2) s

/-- The functions that the delta defines anew (R46). -/
def Img.news (m : Img) (s : State) : List Nat :=
  (((funcEntries (m.body 3)).filter fun e => !entryDel e).map (·.1)).filter fun f => s.fnState f = 0

/-- The field writes of a delta: SH fields only. -/
def Img.shWrs (m : Img) : List Wr := m.wrs.filter fun w => w.1.acc == .sh

/-- The blocks that the delta names (R47): those of its sections' fields, and the blocks of a FUNC or YARD section whose
entries write no field. -/
def Img.blocks (m : Img) : List Block :=
  let named := m.shWrs.filterMap fun w => blockOf w.1 w.2.1
  (named ++ (if m.has 3 then [Block.fn] else []) ++ (if m.has 6 then [Block.yd] else [])).eraseDups

/-- A function that the delta deletes is reset first (R45). -/
def deleteFn (s : State) (f : Nat) : State :=
  if s.fnState f = 0 ∨ f = 0 then s
  else requestReset f (s.setFn f { s.fn f with delPend := true })

/-- The shadows of every section are written and GC.COMMIT is triggered (R45); address entries change with it. The functions
that the delta defines become RUNNING with the FN set that holds their entries: while PEND reads 1, that is the set held
behind the captured one (R41, R46). -/
def deltaCommit (s : State) : State :=
  let m := s.staged
  let s := { s with boot := { s.boot with news := m.news s, newsHeld := s.cfld F.commit_PEND .fn == 1 } }
  let s := m.shWrs.foldl (fun s w =>
    let t := s.putShadow w.1 w.2.2.2 w.2.1 w.2.2.1
    match blockOf w.1 w.2.1 with
    | some b => t.cput F.commit_DIRTY 1 b
    | none => t) s
  let s := if m.has 6 then loadYard (m.body 6) s else s
  gcGo m.inst { s with boot := { s.boot with deltaWait := false } }

/-- Once every function that the delta deletes is reset, the delta goes on (R45).
(DEDUCED, log entry 69) -/
def deltaGo (s : State) : State :=
  if s.boot.deltaWait && !(s.fns.any fun p => p.2.delPend) then deltaCommit s else s

/-- GC.LDCTL.APPLY: codes 15 and 16, then the checks of R37 in their order (R45, R49).
(DEDUCED, log entry 69) -/
def deltaApply (s : State) : State :=
  if s.on F.gcLaystat_APPLYING then layFail 15 0 s
  else if !s.applied || s.on F.gcLaystat_HALTER then layFail 16 0 s
  else
    let m := s.staged
    let r := validate false s.dirCopy (fun k => (s.stageWord k).bad) m s
    let s := readStage m.slots.length s
    if r.1 ≠ 0 then layFail r.1 r.2 s
    else
      let s := { s.put F.gcLaystat_APPLYING 1 with
        boot := { s.boot with delta := some m.ver, deltaBlocks := m.blocks, deltaWait := true } }
      deltaGo (m.dels.foldl deleteFn s)

/-- GC.COMMIT.PEND has cleared: the delta is applied (R45).
(DEDUCED, log entry 69) -/
def deltaDone (s : State) : State :=
  match s.boot.delta with
  | none => s
  | some v =>
    if s.boot.deltaWait || s.gcPend then s
    else
      let lay := s.staged.shWrs.foldl (fun t w => Tab.set w.1.reset t (w.1.key w.2.1 w.2.2.1) (w.2.2.2 % 2 ^ w.1.width)) s.lay
      let s := { s with lay := lay, boot := { s.boot with delta := none, deltaBlocks := [] } }
      let s := ((s.put F.gcLayver_VER v).put F.gcLaystat_APPLYING 0).put F.gcLaystat_DONE 1
      logRecord 6 [s.word .gcLaystat, v] s

/-! ### Key slots (R48) -/

/-- The hash in GC.KEYDATA. -/
def State.keyData (s : State) : Nat := ((List.range 6).map fun i => s.fld F.gcKeydata_DATA i * 2 ^ (48 * i)).sum

/-- A write of GC.KEYPROG that is heard: OP 1 programs, 2 revokes.
(DEDUCED, log entry 67) -/
def keyRequest (k op : Nat) (s : State) : State :=
  if [0, 1, 2, 3].any fun j => s.on F.gcKeyslot_BUSY j then s.put F.gcKeyslot_DISP 5 k
  else if op ≠ 1 ∧ op ≠ 2 then s
  else if (op = 1 ∧ (s.keyData ≥ 2 ^ 256 ∨ s.on F.gcKeyslot_WRITTEN k)) ∨ (op = 2 ∧ s.on F.gcKeyslot_REVOKED k) then
    s.put F.gcKeyslot_DISP 9 k
  else
    let s := { s with boot := { s.boot with keyOp := some (k, if op = 1 then some s.keyData else none) } }
    hwRequest .key (s.put F.gcKeyslot_BUSY 1 k)

/-- GC.KEYPROG is heard from the physical function, the quad-SPI port and the management port alone. -/
def keyprog (w : Who) (k op : Nat) (s : State) : State :=
  match w with
  | .pf => keyRequest k op s
  | .qspi => keyRequest k op s
  | .mgmt => keyRequest k op s
  | _ => s

/-- The operation, for which leave was SERVED, ends: the hash or the revocation is stored.
(DEDUCED, log entry 67) -/
def keyEnd (s : State) : State :=
  match s.boot.keyOp with
  | none => s
  | some (k, h) =>
    if !s.pw.grants.any (·.use == .key) then s
    else
      let s := { s with boot := { s.boot with keyOp := none } }
      let s := match h with
        | some v => { s.put F.gcKeyslot_WRITTEN 1 k with boot := { s.boot with keyHash := Tab.set 0 s.boot.keyHash k v } }
        | none => s.put F.gcKeyslot_REVOKED 1 k
      returnUse (· == .key) ((s.put F.gcKeyslot_BUSY 0 k).put F.gcKeyslot_DISP 0 k)

/-! ### Commands -/

/-- COMMIT_ACTIVATE. -/
def execCommitActivate (b : Block) (s : State) : Host.Outcome State Fault Refusal := done s (activateBlock b s)
/-- GC_COMMIT_GO: GC.COMMIT written with GO. -/
def execGcCommitGo (w : Who) (inst : Bool) (s : State) : Host.Outcome State Fault Refusal :=
  done s (sysWriteQuiet w (fun _ => notVf w) (gcGo inst) s)
/-- DELTA_APPLY: GC.LDCTL written with APPLY. -/
def execDeltaApply (w : Who) (s : State) : Host.Outcome State Fault Refusal :=
  done s (sysWriteQuiet w (fun _ => notVf w) deltaApply s)
/-- DELTA_APPLY_DONE. -/
def execDeltaApplyDone (s : State) : Host.Outcome State Fault Refusal := done s (deltaDone s)
/-- FN_RESET_DRAIN_END; a delta that waited for the reset goes on. -/
def execFnResetDrainEnd (f : Fin 512) (s : State) : Host.Outcome State Fault Refusal := done s (deltaGo (drainEnd f s))
/-- KEY_PROGRAM: GC.KEYPROG written with OP 1. -/
def execKeyProgram (w : Who) (k : Fin 4) (s : State) : Host.Outcome State Fault Refusal :=
  done s (sysWrite w (fun _ => w ≠ .jtag) (keyprog w k 1) s)
/-- KEY_REVOKE: GC.KEYPROG written with OP 2. -/
def execKeyRevoke (w : Who) (k : Fin 4) (s : State) : Host.Outcome State Fault Refusal :=
  done s (sysWrite w (fun _ => w ≠ .jtag) (keyprog w k 2) s)
/-- KEY_OPERATION_END. -/
def execKeyOperationEnd (s : State) : Host.Outcome State Fault Refusal := done s (keyEnd s)

end Sys2Proof.Machine
end

