-- ==== Sys2Proof/Machine/Farrier.lean ====
section
/-! DEFINITION. The Farrier's upkeep (R350 to R356, R377): the flash service, calibration, thermal and ageing readings,
telemetry and the power model, with their commands. -/

namespace Sys2Proof.Machine

/-! ### Flash service (R350, R353) -/

/-- A sector that may be programmed or erased (R350): slots A and B and the tack always, the directory and the golden
image only with UNPROT.
(DEDUCED, log entry 73) -/
def flashAllowed (sec : Nat) (unprot : Bool) : Bool :=
  (16 ≤ sec && sec ≤ 527) || (784 ≤ sec && sec ≤ 7679) || (unprot && (sec ≤ 1 || (528 ≤ sec && sec ≤ 783)))

/-- UNPROT counts from the physical function, the quad-SPI port and the management port only (R353). -/
def unprotFrom : Who → Bool
  | .pf => true
  | .qspi => true
  | .mgmt => true
  | _ => false

/-- A command written to FA.FLCMD: OP 1 read, 2 erase and program, 3 erase; other codes do nothing (R353). Leave for a
program or erase is charged to F0 by hardware (R336).
(DEDUCED, log entry 73) -/
def flashCommand (w : Who) (op sec : Nat) (unprot : Bool) (s : State) : State :=
  if op = 0 ∨ op > 3 then s
  else if op ≠ 1 ∧ !flashAllowed sec (unprot && unprotFrom w) then s.put F.faFlstat_DISP 9
  else if s.on F.faFlstat_BUSY then s.put F.faFlstat_DISP 5
  else
    let t := ({ s with boot := { s.boot with flOp := some (op, sec) } }.put F.faFlstat_BUSY 1).put F.faFlstat_DISP 0
    if op = 1 then t else hwRequest .flash t

/-- A program stores the sector buffer, each word in the slot's bits 47:0.
(DEDUCED, log entry 73) -/
def programSector (sec : Nat) (s : State) : State :=
  (List.range 512).foldl (fun s i => s.setFlash (512 * sec + i) (BitVec.ofNat 64 (s.fld F.faFlbuf_DATA i))) s

/-- A sector is copied to the buffer. -/
def readSector (sec : Nat) (s : State) : State :=
  (List.range 512).foldl (fun s i => s.put F.faFlbuf_DATA (s.flashAt (512 * sec + i)).toNat i) s

/-- The running command ends SERVED; a program or erase only once the Ostler's leave is SERVED (R353).
(DEDUCED, log entry 73) -/
def flashComplete (s : State) : State :=
  match s.boot.flOp with
  | none => s
  | some (op, sec) =>
    if op ≠ 1 ∧ !s.pw.grants.any (·.use == .flash) then s
    else
      let s := { s with boot := { s.boot with flOp := none } }
      let s :=
        if op = 1 then readSector sec s
        else
          let t := eraseSector sec s
          let t := if op = 2 then programSector sec t else t
          returnUse (· == .flash) (t.put F.faFlstat_ERCNT (min (2 ^ 24 - 1) (Tab.get 0 t.boot.erCnt sec)))
      ((s.put F.faFlstat_BUSY 0).put F.faFlstat_DISP 0).put F.faFlstat_DONE 1

/-! ### Readings -/

/-- A port is calibrated in a gap between frames or in low-power idle, or has had none for 10 s and keeps its trims (R198,
R354).
(DEDUCED, log entry 42; DESIGN CHOICE, log entry 75) -/
def calibrate (p : Nat) (gap : Bool) (s : State) : State :=
  if !s.clocksOn then s
  else
    let old := s.fld F.faHealth_CALSKIP
    let clear := old - old / 2 ^ p % 2 * 2 ^ p
    let idle := s.on F.epStat_LPITX p || s.portFree p
    if gap && !idle then s
    else if gap then
      let s := s.setPort p { s.port p with cals := (s.port p).cals + 1 }
      { s.put F.faHealth_CALSKIP clear with boot := { s.boot with idleGap := Tab.set 0 s.boot.idleGap p s.tick } }
    else
      (passTo (Tab.get 0 s.boot.idleGap p + 2500000000) s).put F.faHealth_CALSKIP (clear + 2 ^ p)

/-- The core voltage that follows a target: 5 mV a second at most, 850 mV with AVSEN 0 (R354, R355).
(DESIGN CHOICE, log entry 75) -/
def State.vcore (s : State) (target : Nat) : Nat :=
  let old := s.fld F.faHealth_VCORE
  let goal := if s.on F.faCfg0_AVSEN then max 700 (min 850 target) else 850
  if old = 0 then goal else max (old - 5) (min (old + 5) goal)

/-- 2^(k / 100) in 2^-64, for k below 100, from the factors of k's bits. -/
def pow2Frac (k : Nat) : Nat :=
  [18575051325497719438, 18704251024798339886, 18965352638966644117, 19498541275529725874, 20610309892865629209,
    23027634154981401370, 28746099184593439228].zipIdx.foldl (fun a e => if k.testBit e.2 then a * e.1 / 2 ^ 64 else a) (2 ^ 64)

/-- The stress factor F at `t` tenths of a degree, in 2^-64: 2^((Tj - 100) ÷ 10), 1 at or below 100 °C, doubled with AVSEN 0
(R383).
(DESIGN CHOICE, log entry 75) -/
def stressF (avs : Bool) (t : Int) : Nat :=
  let k := (t - 1000).toNat
  pow2Frac (k % 100) * 2 ^ (k / 100) * (if avs then 1 else 2)

/-- A stable bears a second at `t` tenths of a degree: AGE accrues 256 × F a year of 31,557,600 s (R355, R383).
(DESIGN CHOICE, log entry 75) -/
def ageSecond (n : Nat) (t : Int) (s : State) : State :=
  let a := Tab.get 0 s.boot.ageAcc n + 256 * stressF (s.on F.faCfg0_AVSEN) t
  { s with boot := { s.boot with ageAcc := Tab.set 0 s.boot.ageAcc n a } }.put F.faAge_AGE (min 65535 (a / (31557600 * 2 ^ 64))) n

/-- The sensors and ageing monitors are read, once a second: the hottest sensor, the voltage target, each stable's junction
temperature where its own monitor gives one, and its oscillator's count (R354, R355, R377, R383).
(DESIGN CHOICE, log entry 75) -/
def thermal (temp : BitVec 12) (vcore : Nat) (tj freq : List Nat) (s : State) : State :=
  if !s.clocksOn then s
  else
    let s := (s.put F.faHealth_VCORE (s.vcore vcore)).put F.faHealth_TEMP temp.toNat
    let s := (List.range 16).foldl (fun s n =>
      (ageSecond n (BitVec.ofNat 12 (tj.getD n temp.toNat)).toInt s).put F.faAge_FREQ (freq.getD n 0) n) s
    { s with tw := { s.tw with hot := 1100 < temp.toInt || (s.tw.hot && 1050 ≤ temp.toInt) } }

/-- The words of a telemetry record (R356). -/
def State.telWords (s : State) (vint pin : Nat) : List Word :=
  let t := stampOf (s.total 0 / 2 ^ 16)
  let age := ((List.range 16).map fun n => s.fld F.faAge_AGE n).foldl max 0
  withCrc
    [wd (s.boot.sdn * 2 ^ 38 + s.boot.telN % 2 ^ 32), wd t.sec, wd t.nsf,
     wd (s.fld F.faHealth_TEMP * 2 ^ 36 + s.fld F.faHealth_VCORE * 2 ^ 24 + vint * 2 ^ 12 + pin),
     wd (min 4095 s.est * 2 ^ 36 + s.fld F.pwPstat_STATE * 2 ^ 33 + s.fld F.pwSrc_ON * 2 ^ 30),
     wd (min (2 ^ 24 - 1) s.boot.telCe * 2 ^ 24 + min (2 ^ 24 - 1) s.boot.telUe), wd (age * 2 ^ 32)]

/-- The telemetry frame (R356); its source address is not stated.
(DESIGN CHOICE, log entry 74) -/
def telFrame (ws : List Word) (s : State) : State :=
  let (k, s) := s.draw
  let pcp := s.fld F.faCfg0_TELPCP
  let bytes := macBytes (s.fld F.faTelda_DA) ++ wordBytes (Config.undefinedWord k) ++ two 0x8100
    ++ two (pcp * 8192 + s.fld F.faCfg0_TELVID) ++ two 0x88B6 ++ carryWords ws
  (submitFrame { descFrame .tel 0 0 0 bytes [] with cls := s.classOf 16 pcp } 0 0 0 false s).2

/-- A telemetry record, every 100 ms while TELDST is 1 or 2 (R356).
(DESIGN CHOICE, log entry 74) -/
def telemetry (vint pin : Nat) (s : State) : State :=
  let dst := s.eff F.faCfg0_TELDST (· == 3)
  if !s.clocksOn || dst = 0 then s
  else
    let ws := s.telWords vint pin
    let s := ws.zipIdx.foldl (fun s p => s.put F.faTelrec_WORD p.1.toNat p.2) s
    let s := { s with boot := { s.boot with telN := (s.boot.telN + 1) % 2 ^ 32, telCe := 0, telUe := 0 } }
    let s := if s.on F.faFlcmd_TELIE && s.vecPending 0 5 then sendMsix 5 s else s
    let s := { s with boot := { s.boot with telNew := true } }
    if dst = 2 && s.applied then telFrame ws s else s

/-! ### Commands -/

/-- FLASH_READ: FA.FLCMD written with OP 1. -/
def execFlashRead (w : Who) (sec : Fin 8192) (unprot : Bool) (s : State) : Host.Outcome State Fault Refusal :=
  done s (sysWriteQuiet w (·.supervisor w) (flashCommand w 1 sec unprot) s)
/-- FLASH_ERASE_PROGRAM: FA.FLCMD written with OP 2. -/
def execFlashEraseProgram (w : Who) (sec : Fin 8192) (unprot : Bool) (s : State) : Host.Outcome State Fault Refusal :=
  done s (sysWriteQuiet w (·.supervisor w) (flashCommand w 2 sec unprot) s)
/-- FLASH_ERASE: FA.FLCMD written with OP 3. -/
def execFlashErase (w : Who) (sec : Fin 8192) (unprot : Bool) (s : State) : Host.Outcome State Fault Refusal :=
  done s (sysWriteQuiet w (·.supervisor w) (flashCommand w 3 sec unprot) s)
/-- FLASH_COMMAND_COMPLETE. -/
def execFlashCommandComplete (s : State) : Host.Outcome State Fault Refusal := done s (flashComplete s)
/-- CALIBRATION. -/
def execCalibration (p : Fin 12) (gap : Bool) (s : State) : Host.Outcome State Fault Refusal := done s (calibrate p gap s)
/-- THERMAL_UPDATE. -/
def execThermalUpdate (temp : BitVec 12) (vcore : Fin 4096) (age freq : List Nat) (s : State) :
    Host.Outcome State Fault Refusal := done s (thermal temp vcore age freq s)
/-- TELEMETRY_RECORD. -/
def execTelemetryRecord (vint pin : Fin 4096) (s : State) : Host.Outcome State Fault Refusal :=
  done s (telemetry vint pin s)
/-- POWER_MODEL_UPDATE. -/
def execPowerModelUpdate (base : Fin 4096) (calv : List Nat) (s : State) : Host.Outcome State Fault Refusal :=
  done s (if s.clocksOn then powerModel base calv s else s)
/-- LPOSC_TRIM: the oscillator of the always-on domain is trimmed while the root PLL is locked; no register shows it
(R343). -/
def execLposcTrim (s : State) : Host.Outcome State Fault Refusal := done s s

end Sys2Proof.Machine
end

