-- ==== Sys2Proof/Machine/Operands.lean ====
section
/-! DEFINITION. An engine's registers by their codes (R64, R65), and an instruction's fields and operand forms (R66 to R68,
R73, R74). -/

namespace Sys2Proof.Machine

/-! ### Registers (R64) -/

/-- The register that a TGT code names, zero-extended; code 7 reads as zero. -/
def Eng.reg (x : Eng) (t : Nat) : Word :=
  match t with
  | 0 => x.a
  | 1 => x.x
  | 2 => x.y
  | 3 => x.bk.setWidth 48
  | 4 => x.sp.setWidth 48
  | 5 => x.ev.setWidth 48
  | _ => 0

/-- Write the register that a TGT code names; a narrower one keeps the low bits, and EV keeps TASK as the deque stands
(R64, R86). -/
def Eng.setReg (x : Eng) (t : Nat) (v : Word) : Eng :=
  match t with
  | 0 => { x with a := v }
  | 1 => { x with x := v }
  | 2 => { x with y := v }
  | 3 => { x with bk := v.setWidth 12 }
  | 4 => { x with sp := v.setWidth 12 }
  | 5 => { x with ev := if x.deque.isEmpty then v.setWidth 16 &&& 0x7FFF else v.setWidth 16 ||| 0x8000 }
  | _ => x

/-- The carry of PSW, and PSW with another carry. -/
def Eng.carry (x : Eng) : Bool := x.psw.getLsbD 0
def Eng.setCarry (x : Eng) (c : Bool) : Eng := { x with psw := (x.psw &&& 0x3E) ||| (if c then 1 else 0) }

/-- LA and RA of PSW. -/
def Eng.la (x : Eng) : Bool := x.psw.getLsbD 4
def Eng.ra (x : Eng) : Bool := x.psw.getLsbD 5

/-- Special register `n` of engine `e` (R64). -/
def Eng.special (x : Eng) (e n : Nat) : Option Word :=
  match n with
  | 0 => some (x.psw.setWidth 48)
  | 1 => some (x.lc.setWidth 48)
  | 2 => some (x.ls.setWidth 48)
  | 3 => some (x.le.setWidth 48)
  | 4 => some (x.splim.setWidth 48)
  | 5 => some (x.epc.setWidth 48)
  | 6 => some (x.enpc.setWidth 48)
  | 7 => some (x.ecause.setWidth 48)
  | 8 => some (x.ebk.setWidth 48)
  | 9 => some (x.epsw.setWidth 48)
  | 10 => some (x.crcp.setWidth 48)
  | 11 => some (wd (b2n x.tv * 2 ^ 33 + x.inc * 2 ^ 25 + x.fn * 2 ^ 16 + e % 128))
  | _ => none

/-- Write special register `n` in supervisor mode: RA and EID are read-only, and IE = 1 clears EXL (R65, R95). -/
def Eng.setSpecial (x : Eng) (n : Nat) (v : Word) : Eng :=
  match n with
  | 0 => { x with psw := (x.psw &&& 0x20) ||| (v.setWidth 6 &&& 0x1F), exl := x.exl && !v.getLsbD 2 }
  | 1 => { x with lc := v.setWidth 24 }
  | 2 => { x with ls := v.setWidth 16 }
  | 3 => { x with le := v.setWidth 16 }
  | 4 => { x with splim := v.setWidth 12 }
  | 5 => { x with epc := v.setWidth 16 }
  | 6 => { x with enpc := v.setWidth 16 }
  | 7 => { x with ecause := v.setWidth 12 }
  | 8 => { x with ebk := v.setWidth 12 }
  | 9 => { x with epsw := v.setWidth 6 }
  | 10 => { x with crcp := v.setWidth 17 }
  | _ => x

/-- PSW as an MTSR in task mode writes it: C and LT alone (R65). -/
def Eng.setPswTask (x : Eng) (v : Word) : Eng := { x with psw := (x.psw &&& 0x3C) ||| (v.setWidth 6 &&& 3) }

/-- The register that DBGSEL selects (R108, registers of chapter 05); reserved selections act as 0 (R16).
(DEDUCED, log entry 22) -/
def Eng.debugRead (x : Eng) (e sel : Nat) : Word :=
  if sel = 6 then x.pc.setWidth 48
  else if sel = 7 then (if x.exl then 1 else 0)
  else if 8 ≤ sel ∧ sel < 20 then (x.special e (sel - 8)).getD 0
  else x.reg (if sel < 6 then sel else 0)

/-- A write of the register that DBGSEL selects. A write of PC leaves whatever the engine was doing there. -/
def Eng.debugWrite (x : Eng) (sel : Nat) (v : Word) : Eng :=
  if sel = 6 then { x with pc := v.setWidth 16, nxt := none, slot := none, wait := none, bpPass := false }
  else if sel = 7 then { x with exl := v.getLsbD 0 }
  else if 8 ≤ sel ∧ sel < 20 then x.setSpecial (sel - 8) v
  else x.setReg (if sel < 6 then sel else 0) v

/-! ### Instructions (R66 to R68) -/

/-- An instruction with the value slot of mode 7. -/
structure Insn where
  op : Nat
  mode : Nat
  tgt : Nat
  opnd : Nat
  val : Nat
  deriving DecidableEq, Repr

/-- The fields of a slot (R66), with the value slot `v`. -/
def insnOf (i v : Nat) : Insn := ⟨insnOp i, insnMode i, insnTgt i, insnOpnd i, v⟩

/-- How many addresses the instruction takes (R67). -/
def Insn.len (i : Insn) : Nat := if i.mode = 7 then 2 else 1

/-- The operand of modes 0, 6 and 7 (R68). -/
def Insn.plain (i : Insn) (x : Eng) : Word :=
  if i.mode = 0 then BitVec.ofInt 48 (toSigned 12 i.opnd)
  else if i.mode = 6 then x.reg (i.opnd % 8)
  else BitVec.ofInt 48 (toSigned 24 i.val)

/-- The word address of modes 1 to 5 (R68): zero-page ones lie in private memory. -/
def Insn.addr (i : Insn) (x : Eng) : Nat :=
  match i.mode with
  | 1 => i.opnd
  | 2 => x.bk.toNat * 4096 + i.opnd
  | 3 => (x.bk.toNat * 4096 + i.opnd + x.x.toNat) % 2 ^ 24
  | 4 => (x.bk.toNat * 4096 + i.opnd + x.y.toNat) % 2 ^ 24
  | _ => (i.opnd + x.x.toNat) % 4096

/-- The modes and the targets that the table of R73 allows an opcode, a bit each, and whether OPND must be zero. -/
structure Form where
  modes : BitVec 8
  tgts : BitVec 8
  opnd0 : Bool
  deriving DecidableEq, Repr

/-- The form of an opcode; none for an opcode that is not in the table (R73). -/
def formOf (op : Nat) : Option Form :=
  if op = 0x02 then some ⟨0x3E, 0x3F, false⟩
  else if op = 0x03 ∨ op = 0x04 then some ⟨0x1C, 0x07, false⟩
  else if op = 0x0F then some ⟨0xFF, 0x07, false⟩
  else if op ≤ 0x01 ∨ (0x08 ≤ op ∧ op ≤ 0x1D) ∨ (0x20 ≤ op ∧ op ≤ 0x23) ∨ op = 0x36 then some ⟨0xFF, 0xBF, false⟩
  else if op = 0x28 ∨ op = 0x29 then some ⟨0xFF, 0x3F, false⟩
  else if op = 0x2A ∨ op = 0x2B then some ⟨0xFF, 0x80, false⟩
  else if op = 0x2C ∨ op = 0x2E ∨ op = 0x3A then some ⟨0x01, 0x80, true⟩
  else if op = 0x2D ∨ op = 0x39 then some ⟨0x01, 0x80, false⟩
  else if op = 0x30 ∨ op = 0x3D then some ⟨0x01, 0x07, false⟩
  else if op = 0x31 ∨ op = 0x35 then some ⟨0x41, 0x80, false⟩
  else if op = 0x32 then some ⟨0xC1, 0x80, false⟩
  else if op = 0x34 then some ⟨0xC1, 0xBF, false⟩
  else if op = 0x37 ∨ op = 0x38 then some ⟨0x01, 0xBF, true⟩
  else if op = 0x3C then some ⟨0x01, 0xBF, false⟩
  else none

/-- The instruction has a form that the table allows (R68, R74): a register operand has OPND bits 11:3 zero and is not code
6; TNEXT has OPND bits 11:1 zero (R91); NOP ignores OPND. -/
def Insn.formOk (i : Insn) : Bool :=
  match formOf i.op with
  | none => false
  | some f => f.modes.getLsbD i.mode && f.tgts.getLsbD i.tgt && (!f.opnd0 || i.opnd == 0) && (i.op != 0x39 || i.opnd < 2)
      && (i.op == 0 || i.mode != 6 || (i.opnd < 8 && i.opnd != 6))

/-- A branch, JSR or RTS, which has a delay slot (R79, R80). -/
def Insn.hasSlot (i : Insn) : Bool := 0x28 ≤ i.op && i.op ≤ 0x2C

/-- Branch, JSR, RTS, TRAP, RTE, LPB, REP or REPI: not allowed in a delay slot, at LE or under a repeat (R79, R82, R83). -/
def Insn.control (i : Insn) : Bool := (0x28 ≤ i.op && i.op ≤ 0x2E) || (0x30 ≤ i.op && i.op ≤ 0x32)

/-- An instruction that no repeat may hold (R83). -/
def Insn.noRepeat (i : Insn) : Bool := i.control || [0x34, 0x36, 0x39, 0x38, 0x3A, 0x3C, 0x3D].contains i.op

end Sys2Proof.Machine
end

