-- ==== Sys2Proof/Machine/Power.lean ====
section
/-! DEFINITION. The power path (R325 to R330), the power states and wakes (R331 to R334), and the commands of chapter 18. -/

namespace Sys2Proof.Machine

/-! ### Sources -/

/-- The source in use is good. -/
def State.onGood (s : State) : Bool := s.on (srcFlag (s.fld F.pwSrc_ON - 1))

/-- The Farrier logs the state of the power path, when it runs (R352).
(DEDUCED, log entry 86) -/
def logPower (s : State) : State := if s.clocksOn then logRecord 3 [s.word .pwSrc] s else s

/-- VINT is carried from source `c` from now on. -/
def carry (c : Nat) (s : State) : State :=
  let s := (s.put F.pwSrc_ON c).put F.pwSrc_PFAIL (b2n (c == 3))
  { s with pw := { s.pw with bakFrom := if c = 3 then some s.tick else none } }

/-- The source in use has failed: the hand-over state machine starts (R328). -/
def handOver (s : State) : State :=
  let c := s.bestSource
  if c = 0 then powerOff s
  else
    let s := ((carry c s).put F.pwSrc_HSM 1).put F.pwSrc_DEB 0
    let s := if c = 3 then s.put F.pwEvt_ONBAK 1 else s
    logPower { s.bump F.pwCnt_HANDOVER with pw := { s.pw with moveTo := c, handback := false } }

/-- A source fails (R328, R329): the one in use is left at once, one whose count for a hand-back runs counts a bounce. -/
def sourceFail (k : Nat) (s : State) : State :=
  let counted := s.on F.pwSrc_DEB && s.better.contains (k + 1)
  let moving := s.on F.pwSrc_HSM
  let s := s.put (srcFlag k) 0
  if s.boot.phase = .off ∨ s.pw.overtemp then s
  else if s.fld F.pwSrc_ON = k + 1 && !moving then handOver s
  else if counted then showCount ((s.bump F.pwCnt_BOUNCE).put F.pwEvt_BOUNCE 1)
  else s

/-- The state machine of the PPD ends, at tick `t` where it was a hand-over; a source that failed meanwhile is left at once (R328,
R329, R341). -/
def hsmDone (t : Nat) (s : State) : State :=
  let s := { s.put F.pwSrc_HSM 0 with pw := { s.pw with hsmEnd := t } }
  if s.onGood then showCount s else handOver s

/-- The hand-over ends (R328, R329). -/
def handoverEnd (s : State) : State := if !s.on F.pwSrc_HSM || s.pw.handback then s else hsmDone s.tick s

/-- Hand-back starts once a better source has been good for 20 ms (R329). -/
def handbackStart (s : State) : State :=
  if !s.on F.pwSrc_DEB || s.on F.pwSrc_HSM then s
  else
    match (s.better.map s.countEnd).min? with
    | none => s
    | some t =>
      let s := passTo t s
      let c := (s.better.filter fun c => s.countEnd c ≤ s.tick).headD (s.fld F.pwSrc_ON)
      showCount { s.put F.pwSrc_HSM 1 with pw := { s.pw with moveTo := c, handback := true } }

/-- The hand-back ends (R329, R341). -/
def handbackEnd (s : State) : State :=
  if !s.on F.pwSrc_HSM || !s.pw.handback then s
  else
    hsmDone s.pw.hsmEnd (logPower ((carry s.pw.moveTo { s with pw := { s.pw with handback := false } }).put F.pwEvt_HANDBACK 1))

/-! ### Power states (R331, R332) -/

/-- A stable that DOZE power-gates: no defined function with KEEPAWAKE has it in its affinity. -/
def State.dozeGates (s : State) (n : Nat) : Bool :=
  s.on F.stCtl_RELD n && !((List.range 512).any fun f => s.fnState f ≠ 0 && s.on F.fnCfg_KEEPAWAKE f && s.inAffinity f n)

/-- Every engine of it waits in TNEXT, or it is not clocked. -/
def State.dozeReady (s : State) (n : Nat) : Bool :=
  (s.st n).starting.isNone && (s.st n).waking.isNone &&
    (!(s.st n).clocked || (enginesOf n).all fun e => (s.e e).wait == some .tnext)

/-- A stable is power-gated. -/
def powerGate (n : Nat) (s : State) : State :=
  let s := gateStable n s
  s.setSt n { s.st n with powerGated := true }

/-- Power-gate the stables that are ready; PART shows whether one is still awake (R331). -/
def dozeGate (s : State) : State :=
  let ns := (List.range 16).filter fun n => s.dozeGates n && !(s.st n).powerGated
  let s := (ns.filter s.dozeReady).foldl (fun s n => powerGate n s) s
  s.put F.pwPstat_PART (b2n (ns.any fun n => !(s.st n).powerGated))

/-- DOZE ends: its stables ask for leave to wake (R331). -/
def dozeEnd (s : State) : State :=
  ((List.range 16).filter fun n => (s.st n).powerGated).foldl (fun s n => askWake n false s) (s.put F.pwPstat_PART 0)

/-- A transition begins.
(DEDUCED, log entry 76) -/
def startTrans (t : Nat) (s : State) : State :=
  { (s.put F.pwPstat_TRANS 1).put F.pwPstat_TO t with pw := { s.pw with transFrom := s.tick } }

/-- The held request is displaced: it is final as PREEMPTED (R332).
(DEDUCED, log entry 76) -/
def preempt (s : State) : State :=
  if s.on F.pwPstat_HV then
    let s := ((s.put F.pwPstat_HDISP 10).bump F.pwCnt_PREEMPT).put F.pwEvt_PREEMPT 1
    { (s.put F.pwPstat_HV 0).put F.pwPstat_HELD 0 with pw := { s.pw with forcedHeld := false } }
  else s

/-- A request is held. -/
def hold (t : Nat) (s : State) : State := ((preempt s).put F.pwPstat_HV 1).put F.pwPstat_HELD t

/-- A written request (R332); a reserved TARGET acts as 0 (R16).
(DEDUCED, log entry 76) -/
def psRequest (t : Nat) (s : State) : State :=
  let t := if t ≥ 5 then 0 else t
  if s.pw.forcedRun || s.pw.forcedHeld then s.put F.pwPstat_LDISP 3
  else if s.on F.pwPstat_TRANS then (hold t s).put F.pwPstat_LDISP 1
  else if s.fld F.pwPstat_STATE = t then s.put F.pwPstat_LDISP 0
  else (startTrans t s).put F.pwPstat_LDISP 0

/-- A forced request (R330, R332); one for a state that a forced request brings already changes nothing. -/
def forceRequest (t : Nat) (s : State) : State :=
  if (s.pw.forcedHeld && s.fld F.pwPstat_HELD = t) || (s.pw.forcedRun && !s.pw.forcedHeld && s.fld F.pwPstat_TO = t) then s
  else if s.on F.pwPstat_TRANS then
    let s := (hold t s).put F.pwPstat_FORCED 1
    { s with pw := { s.pw with forcedHeld := true } }
  else if s.fld F.pwPstat_STATE = t then s
  else { (startTrans t s).put F.pwPstat_FORCED 1 with pw := { s.pw with transFrom := s.tick, forcedRun := true } }

/-- What REST and KEEP keep beside the always-on domain: PW.CFG0, CFG1 and PSTAT, by which the always-on domain works. -/
def restFlds : List Fld :=
  keptFlds ++ RegId.pwCfg0.flds ++ RegId.pwCfg1.flds ++ RegId.pwPstat.flds

/-- Entry to REST or KEEP: the logic die stops, and in KEEP nothing is retained (R331, R339).
(DEDUCED, log entry 76; DESIGN CHOICE, log entry 66) -/
def enterRest (t : Nat) (s : State) : State :=
  let s' := wipe restFlds (dropAllLeave s)
  let s' := if t = 4 then { s' with loft := [], mg := [] } else s'
  { s' with pw := { s'.pw with forcedRun := s.pw.forcedRun, forcedHeld := s.pw.forcedHeld }
            boot := { s'.boot with phase := if t = 3 then .rest else .keep } }

/-- Exit from REST or KEEP: the boot follows (R331, R333, R344).
(DEDUCED, log entry 76) -/
def leaveRest (ws : BitVec 6) (s : State) : State :=
  let t := logicReset (if s.fld F.pwPstat_STATE = 3 then 6 else 7) s
  let t := { t with pw := { t.pw with latched := 0 } }
  let t := (t.put F.pwPstat_WCAUSE ws.toNat).put F.pwEvt_PSDONE 1
  if ws = 0 then t else t.put F.pwEvt_WAKE 1

/-- A wake from REST or KEEP while VBAK is the only good source needs VBAKLO + 0.3 V (R333). -/
def State.wakeOk (s : State) : Bool :=
  s.on (srcFlag 0) || s.on (srcFlag 1) || s.fld F.pwCfg0_VBAKLO + 300 ≤ s.fld F.pwSrc_VBAK

/-- The sources `ws` end DOZE, REST or KEEP; short of VBAK they stay latched (R333). -/
def wakeNow (ws : BitVec 6) (s : State) : State :=
  if s.fld F.pwPstat_STATE = 2 then
    let s := (startTrans 0 s).put F.pwPstat_WCAUSE ws.toNat
    { s.put F.pwEvt_WAKE 1 with pw := { s.pw with latched := 0, transFrom := s.tick } }
  else if s.wakeOk then leaveRest ws s
  else { s with pw := { s.pw with latched := s.pw.latched ||| ws } }

/-- Source 5 can wake: a U0 task waits for a power-gated stable (R333). -/
def State.u0Waits (s : State) : Bool :=
  (List.range 16).any fun n => (s.st n).powerGated &&
    ((s.st n).ovf.any (·.u == 0) || (enginesOf n).any fun e => (s.e e).deque.any (·.u == 0))

/-- A wake source (R333): it ends DOZE, REST or KEEP, and is latched while one is being entered.
(DEDUCED, log entry 82) -/
def wake (k : Nat) (s : State) : State :=
  if !(s.fld F.pwCfg1_WAKEMASK).testBit k || (k == 5 && !s.u0Waits) then s
  else
    let ws := BitVec.ofNat 6 (2 ^ k)
    if s.on F.pwPstat_TRANS then
      if 2 ≤ s.fld F.pwPstat_TO then { s with pw := { s.pw with latched := s.pw.latched ||| ws } } else s
    else if 2 ≤ s.fld F.pwPstat_STATE then wakeNow ws s
    else s

/-- What the state entered brings. -/
def enterState (t : Nat) (s : State) : State :=
  if t = 2 then dozeGate s
  else if t ≥ 3 then enterRest t s
  else if s.fld F.pwPstat_STATE = 2 then dozeEnd s
  else s

/-- The request held starts next (R332); from REST and KEEP every other state is reached by the boot. -/
def startHeld (s : State) : State :=
  if !s.on F.pwPstat_HV then s
  else
    let t := s.fld F.pwPstat_HELD
    let forced := s.pw.forcedHeld
    let s := (s.put F.pwPstat_HV 0).put F.pwPstat_HELD 0
    let s := { s.put F.pwPstat_FORCED (b2n forced) with pw := { s.pw with forcedHeld := false, forcedRun := forced } }
    let s := if forced then s else s.put F.pwPstat_LDISP 0
    if s.fld F.pwPstat_STATE = t then { s.put F.pwPstat_FORCED 0 with pw := { s.pw with forcedRun := false } }
    else if s.fld F.pwPstat_STATE ≥ 3 && t < 3 then leaveRest 0 s
    else startTrans t s

/-- The transition completes (R331 to R333).
(DEDUCED, log entry 76) -/
def completeTrans (s : State) : State :=
  let t := s.fld F.pwPstat_TO
  let s := (s.put F.pwPstat_TRANS 0).put F.pwPstat_FORCED (b2n s.pw.forcedHeld)
  let s := (enterState t { s with pw := { s.pw with forcedRun := false } }).put F.pwPstat_STATE t
  let s := s.put F.pwEvt_PSDONE 1
  if s.pw.latched ≠ 0 && (t = 2 || (3 ≤ t && s.wakeOk)) then wakeNow s.pw.latched ((preempt s).bump F.pwCnt_REPLAY) else startHeld s

/-- Ticks that a transition takes (R331).
(DEDUCED, log entry 76) -/
def transTicks (from_ to_ : Nat) : Nat :=
  if from_ = 2 ∧ to_ < 2 then 12500
  else if to_ = 3 then 50000
  else if to_ = 4 then 12500
  else 2500

/-- The transition under way completes; entry to DOZE only once every stable that it gates is ready (R331). -/
def transComplete (s : State) : State :=
  if !s.on F.pwPstat_TRANS then s
  else if s.fld F.pwPstat_TO = 2 then
    if (List.range 16).all fun n => !s.dozeGates n || (s.st n).powerGated || s.dozeReady n then completeTrans s else s
  else completeTrans (passTo (s.pw.transFrom + transTicks (s.fld F.pwPstat_STATE) (s.fld F.pwPstat_TO)) s)

/-- Entry to DOZE completes 1 ms after it began, with the stables that still run awake (R331). -/
def dozeTimeout (s : State) : State :=
  if s.on F.pwPstat_TRANS && s.fld F.pwPstat_TO = 2 then completeTrans (passTo (s.pw.transFrom + 250000) s) else s

/-- A stable left awake in DOZE is gated when it becomes idle (R331); else the rule of R125. -/
def gateEvent (n : Nat) (s : State) : State :=
  if s.fld F.pwPstat_STATE = 2 && s.on F.pwPstat_PART && s.dozeGates n && !(s.st n).powerGated && s.dozeReady n then dozeGate s
  else gateIfIdle n (passTo (s.gateTick n) s)

/-- A source becomes good (R325, R329, R333). -/
def sourceGood (k : Nat) (s : State) : State :=
  let s := if s.on (srcFlag k) then s
    else { s.put (srcFlag k) 1 with pw := { s.pw with goodAt := Tab.set 0 s.pw.goodAt k s.tick } }
  if s.boot.phase = .off ∨ s.pw.overtemp then s
  else
    let s := showCount s
    let s := if s.pw.latched ≠ 0 && !s.on F.pwPstat_TRANS && 3 ≤ s.fld F.pwPstat_STATE && k < 2 then leaveRest s.pw.latched s else s
    if k < 2 then wake 4 s else s

/-- RIDE ms on VBAK have passed (R330). -/
def rideExpire (s : State) : State :=
  match s.pw.bakFrom with
  | none => s
  | some t =>
    let r := s.fld F.pwCfg0_RIDE
    if r = 0 || s.pw.forcedRun || s.pw.forcedHeld || 3 ≤ s.fld F.pwPstat_STATE then s
    else forceRequest 3 (passTo (t + r * 250000) s)

/-- A further KEEPDLY s on VBAK have passed (R330). -/
def keepdlyExpire (s : State) : State :=
  match s.pw.bakFrom with
  | none => s
  | some t =>
    let k := s.fld F.pwCfg0_KEEPDLY
    if k = 0 || s.fld F.pwPstat_STATE = 4 then s
    else forceRequest 4 (passTo (t + s.fld F.pwCfg0_RIDE * 250000 + k * 250000000) s)

/-- VBAK reads `mv`; below VBAKLO while it carries VINT, KEEP is forced at once (R330).
(DEDUCED, log entry 77) -/
def vbakLow (mv : Nat) (s : State) : State :=
  let s := s.put F.pwSrc_VBAK mv
  if s.fld F.pwSrc_ON = 3 ∧ mv < s.fld F.pwCfg0_VBAKLO ∧ s.fld F.pwPstat_STATE ≠ 4 then
    forceRequest 4 (s.put F.pwEvt_VBAKLOW 1)
  else s

/-- The alarm of KSEC.ALM elapses; it is one-shot (R333). -/
def ksecAlarm (s : State) : State :=
  match s.pw.alarmAt with
  | none => s
  | some t => wake 3 { passTo t s with pw := { (passTo t s).pw with alarmAt := none } }

/-- A write of KSEC.ALM: seconds from now to the alarm, 0 none. -/
def writeAlarm (a : Nat) (s : State) : State :=
  { s.put F.pwKsec_ALM a with pw := { s.pw with alarmAt := if a = 0 then none else some (s.tick + a * 250000000) } }

/-- A request has waited WAITMAX µs (R337). -/
def waitExpire (id : Nat) (s : State) : State :=
  match s.pw.queue.find? (·.id == id) with
  | none => s
  | some r => if r.hw || s.fld F.pwOctl_WAITMAX = 0 then s else waitTimeout id (passTo (r.t0 + s.fld F.pwOctl_WAITMAX * tickUs) s)

/-- An access to a lease with the disposition it meets (R339).
(DEDUCED, log entry 78) -/
def leaseAccess (w : Who) (f : State → Nat × State) (s : State) : State :=
  if s.heard w then finish w { disp := if (f s).1 = 9 then 9 else 0, st := (f s).2 } else s

/-! ### Commands -/

/-- PD_DETECTION: the PSE has allocated a class (R326). -/
def execPdDetection (d : PdDetect) (s : State) : Host.Outcome State Fault Refusal := done s (pdDetect d.aclass d.pdcls s)
/-- SOURCE_FAIL. -/
def execSourceFail (src : Fin 3) (s : State) : Host.Outcome State Fault Refusal := done s (sourceFail src s)
/-- HANDOVER_END. -/
def execHandoverEnd (s : State) : Host.Outcome State Fault Refusal := done s (handoverEnd s)
/-- SOURCE_GOOD. -/
def execSourceGood (src : Fin 3) (s : State) : Host.Outcome State Fault Refusal := done s (sourceGood src s)
/-- HANDBACK_START. -/
def execHandbackStart (s : State) : Host.Outcome State Fault Refusal := done s (handbackStart s)
/-- HANDBACK_END. -/
def execHandbackEnd (s : State) : Host.Outcome State Fault Refusal := done s (handbackEnd s)
/-- OVERLOAD_DETECT: the input power has exceeded the allocation for more than 10 ms (R326). -/
def execOverloadDetect (s : State) : Host.Outcome State Fault Refusal :=
  done s (if s.clocksOn then s.put F.pwEvt_OVLD 1 else s)
/-- RIDE_EXPIRE. -/
def execRideExpire (s : State) : Host.Outcome State Fault Refusal := done s (rideExpire s)
/-- KEEPDLY_EXPIRE. -/
def execKeepdlyExpire (s : State) : Host.Outcome State Fault Refusal := done s (keepdlyExpire s)
/-- VBAK_LOW. -/
def execVbakLow (mv : Fin 4096) (s : State) : Host.Outcome State Fault Refusal := done s (vbakLow mv s)
/-- POWER_STATE_REQUEST: PW.PSREQ written. -/
def execPowerStateRequest (w : Who) (t : Fin 8) (s : State) : Host.Outcome State Fault Refusal :=
  done s (sysWriteQuiet w (·.supervisor w) (psRequest t) s)
/-- POWER_TRANSITION_COMPLETE. -/
def execPowerTransitionComplete (s : State) : Host.Outcome State Fault Refusal := done s (transComplete s)
/-- DOZE_ENTRY_TIMEOUT. -/
def execDozeEntryTimeout (s : State) : Host.Outcome State Fault Refusal := done s (dozeTimeout s)
/-- WAKE_EVENT. -/
def execWakeEvent (src : Fin 6) (s : State) : Host.Outcome State Fault Refusal := done s (wake src s)
/-- KSEC_ALARM. -/
def execKsecAlarm (s : State) : Host.Outcome State Fault Refusal := done s (ksecAlarm s)
/-- OSTLER_RECONSIDER. -/
def execOstlerReconsider (s : State) : Host.Outcome State Fault Refusal := done s (ostlerReconsider s)
/-- OSTLER_WAIT_TIMEOUT. -/
def execOstlerWaitTimeout (id : Nat) (s : State) : Host.Outcome State Fault Refusal := done s (waitExpire id s)
/-- LEASE_REQUEST: PW.LEASE[i] written with REQ and COUNT. -/
def execLeaseRequest (w : Who) (i : Fin 256) (cnt : Fin 16) (s : State) : Host.Outcome State Fault Refusal :=
  done s (leaseAccess w (leaseRequest w i cnt) s)
/-- LEASE_RELEASE: PW.LEASE[i] written with REL. -/
def execLeaseRelease (w : Who) (i : Fin 256) (s : State) : Host.Outcome State Fault Refusal :=
  done s (leaseAccess w (leaseRelease w i) s)
/-- STABLE_GATE. -/
def execStableGate (n : Fin 16) (s : State) : Host.Outcome State Fault Refusal := done s (gateEvent n s)

end Sys2Proof.Machine
end

