-- ==== Sys2Proof/Machine/Rows.lean ====
section
/-! DEFINITION. The commands of the stables, the mailboxes, the interconnect, the ports and the yard (chapters 06, 08, 10
and 12). -/

namespace Sys2Proof.Machine

/-- An event of a block that lives under an applied layout.
(DESIGN CHOICE, log entry 7) -/
def whenApplied (f : State → State) (s : State) : State := if s.clocksOn && s.applied then f s else s

/-- An event of a port or the yard, which also run in Halter mode (R348).
(DESIGN CHOICE, log entry 7) -/
def whenLinked (f : State → State) (s : State) : State := if s.clocksOn && (s.applied || s.halter) then f s else s

/-- The next tick that is a multiple of `n` after logic-die reset. -/
def State.nextMul (s : State) (n : Nat) : Nat := s.tkBase + ((s.tick - s.tkBase) / n + 1) * n

/-! ### Stables (chapter 06) -/

/-- STABLE_RELEASE: by the Farrier, or ST[n].CTL written with RELEASE (R112). -/
def execStableRelease (w : Who) (n : Fin 16) (s : State) : Host.Outcome State Fault Refusal :=
  done s (blockWrite w (fun _ => w ≠ .jtag) (releaseStable n) s)
/-- STABLE_WAKE: ST[n].CTL written with WAKE (R126). -/
def execStableWake (w : Who) (n : Fin 16) (s : State) : Host.Outcome State Fault Refusal :=
  done s (blockWrite w (fun _ => w ≠ .jtag) (wakeStable n) s)
/-- STABLE_ENGINES_RUN: 1 µs after leave was SERVED (R126). -/
def execStableEnginesRun (n : Fin 16) (s : State) : Host.Outcome State Fault Refusal :=
  done s (whenApplied (fun s => if (s.st n).starting.isSome then enginesRun n (passTo ((s.st n).startAt + tickUs) s) else s) s)
/-- OVERFLOW_MOVE (R116). -/
def execOverflowMove (n : Fin 16) (s : State) : Host.Outcome State Fault Refusal := done s (whenApplied (overflowMove n) s)
/-- BUSY_ESTIMATE_UPDATE: the next microsecond of TK begins (R119). -/
def execBusyEstimateUpdate (s : State) : Host.Outcome State Fault Refusal :=
  done s (whenApplied (fun s => busyUpdate (passTo (s.nextMul tickUs) s)) s)
/-- U0_WITHDRAW (R121). -/
def execU0Withdraw (n : Fin 16) (s : State) : Host.Outcome State Fault Refusal := done s (whenApplied (withdrawLate n) s)
/-- LATE_RECORD_POP: a read of ST[n].LATE1 (R121), which JTAG does not reach (R368).
(DEDUCED, log entry 11) -/
def execLateRecordPop (w : Who) (n : Fin 16) (s : State) : Host.Outcome State Fault Refusal :=
  done s (if !s.heard w then s
    else if isJtag w then finishRead w (denied s 2) 0 false
    else if !s.applied then finishRead w { st := s } 0 false
    else finishRead w { st := latePop n s } (((s.st n).late.head?.map Task.w1).getD 0) false)
/-- ACCOUNTING_PERIOD_START: 128 µs after the last (R124). -/
def execAccountingPeriodStart (s : State) : Host.Outcome State Fault Refusal :=
  done s (if s.clocksOn then periodStart (passTo (s.period + 32000) s) else s)

/-! ### Mailboxes (chapter 08) -/

/-- An access to the side registers of a mailbox pair: refused with DENIED and counted unless R156 allows it. -/
def mbAccess (ok : Bool) (f : State → State) (s : State) : Ans :=
  if ok then { st := f s } else { disp := 9, det := 1, st := s.bump F.mbMemerr_DENY }

/-- A write to a side's registers. -/
def sideWrite (w : Who) (m sd : Nat) (f : State → State) (s : State) : State :=
  blockAccess w (mbAccess (s.mbSide w m sd) f s) s

/-- MAILBOX_SEND: TX written (R157).
(DESIGN CHOICE, log entry 9) -/
def execMailboxSend (w : Who) (m : Fin 1024) (sd : Fin 2) (v : Word) (s : State) : Host.Outcome State Fault Refusal :=
  done s (sideWrite w m sd (mbSend m sd v) s)
/-- MAILBOX_RECEIVE: RX read (R159). -/
def execMailboxReceive (w : Who) (m : Fin 1024) (sd : Fin 2) (s : State) : Host.Outcome State Fault Refusal :=
  done s (if !s.heard w then s
    else if !s.applied then finishRead w { st := s } 0 false
    else if s.mbSide w m sd then
      let r := mbTake m sd 8 s
      finishRead w { disp := if r.2.1 then 8 else 0, st := r.2.2 } r.1 r.2.1
    else finishRead w (mbAccess false id s) 0 false)
/-- MAILBOX_RESYNC: STAT written with RESYNC (R159). -/
def execMailboxResync (w : Who) (m : Fin 1024) (sd : Fin 2) (s : State) : Host.Outcome State Fault Refusal :=
  done s (sideWrite w m sd (mbResync m sd) s)
/-- DOORBELL_RING: STAT written with RING, which rings the other end (R162). -/
def execDoorbellRing (w : Who) (m : Fin 1024) (sd : Fin 2) (s : State) : Host.Outcome State Fault Refusal :=
  done s (sideWrite w m sd (ring m (1 - sd)) s)
/-- STANDOFF_DETECT: STO µs after the last read with both queues holding entries (R161). -/
def execStandoffDetect (m : Fin 1024) (s : State) : Host.Outcome State Fault Refusal :=
  done s (whenApplied (fun s => match (s.pair m).since with
    | none => s
    | some t => if s.fld F.mbCtl_STO m = 0 then s else standoff m (passTo (t + s.fld F.mbCtl_STO m * tickUs) s)) s)

/-! ### The interconnect (chapter 08) -/

/-- IC_REQUEST (R164). -/
def execIcRequest (t : Fin 19) (i : Fin 19) (f : IcAsk) (s : State) : Host.Outcome State Fault Refusal :=
  done s (if s.clocksOn then icRequest t i f.fn f.who (f.bank.map (·.val)) s else s)
/-- IC_GRANT: the arbitration point of a target, where a pending commit takes effect (R165, R166). -/
def execIcGrant (t : Fin 19) (s : State) : Host.Outcome State Fault Refusal :=
  done s (if s.clocksOn then icGrant t (.ic t) s else s)
/-- STARVATION_DETECT: a request has waited more than LIMIT cycles of YCLK, two to a tick (R169). -/
def execStarvationDetect (t : Fin 19) (i : Fin 19) (s : State) : Host.Outcome State Fault Refusal :=
  done s (if !s.clocksOn || s.fld F.icStarv_LIMIT t = 0 then s
    else match ((s.icT t).q ++ (s.icT t).wait).find? fun r => r.i == i.val && !r.flagged with
    | none => s
    | some r => starvation t i (passTo (r.t0 + s.fld F.icStarv_LIMIT t / 2 + 1) s))

/-! ### Ports (chapter 10) -/

/-- LINK_CHANGE (R189). -/
def execLinkChange (p : Fin 12) (l : LinkState) (s : State) : Host.Outcome State Fault Refusal := done s (whenLinked (linkChange p l) s)
/-- MAC_RECEIVE_FRAME (R190). -/
def execMacReceiveFrame (p : Fin 12) (fr : EthFrame) (ago : Nat) (s : State) : Host.Outcome State Fault Refusal :=
  done s (whenLinked (macReceive p fr ago) s)
/-- PAUSE_RECEIVE (R195). -/
def execPauseReceive (p : Fin 12) (q : Fin 65536) (s : State) : Host.Outcome State Fault Refusal :=
  done s (whenLinked (fun s => if s.on F.epStat_LINK p then pauseReceive p q s else s) s)
/-- PAUSE_EXPIRE (R195). -/
def execPauseExpire (p : Fin 12) (s : State) : Host.Outcome State Fault Refusal := done s (whenLinked (pauseExpire p) s)
/-- MAC_TRANSMIT_START (R196). -/
def execMacTransmitStart (p : Fin 12) (have_ : Nat) (s : State) : Host.Outcome State Fault Refusal :=
  done s (whenLinked (txStart p have_) s)
/-- MAC_TRANSMIT_END (R201). -/
def execMacTransmitEnd (p : Fin 12) (sub : Fin 32) (s : State) : Host.Outcome State Fault Refusal := done s (whenLinked (txEnd p sub) s)
/-- TX_UNDERRUN (R197). -/
def execTxUnderrun (p : Fin 12) (u : Underrun) (s : State) : Host.Outcome State Fault Refusal :=
  done s (whenLinked (txUnderrun p u.pois u.sent) s)
/-- COLLISION (R191, R192). -/
def execCollision (p : Fin 12) (late : Bool) (s : State) : Host.Outcome State Fault Refusal := done s (whenLinked (collide p late) s)
/-- BACKOFF_EXPIRE (R191). -/
def execBackoffExpire (p : Fin 12) (s : State) : Host.Outcome State Fault Refusal := done s (whenLinked (backoffEnd p) s)
/-- PREEMPT_VERIFY_SEND (R193). -/
def execPreemptVerifySend (p : Fin 12) (s : State) : Host.Outcome State Fault Refusal := done s (whenLinked (verifySend p) s)
/-- VERIFY_RESPONSE (R193). -/
def execVerifyResponse (p : Fin 12) (s : State) : Host.Outcome State Fault Refusal := done s (whenLinked (verifyResponse p) s)
/-- PREEMPT_FRAGMENT_END (R194). -/
def execPreemptFragmentEnd (p : Fin 12) (x : TxProgress) (s : State) : Host.Outcome State Fault Refusal :=
  done s (whenLinked (fragmentEnd p x.sent x.buffered) s)
/-- LPI_ENTER (R198). -/
def execLpiEnter (p : Fin 12) (s : State) : Host.Outcome State Fault Refusal := done s (whenLinked (lpiEnter p) s)
/-- LPI_WAKE (R198). -/
def execLpiWake (p : Fin 12) (s : State) : Host.Outcome State Fault Refusal := done s (whenLinked (lpiWake p) s)
/-- RECEIVE_LOW_POWER_IDLE (R198). -/
def execReceiveLowPowerIdle (p : Fin 12) (on : Bool) (s : State) : Host.Outcome State Fault Refusal :=
  done s (whenLinked (receiveLpi p on) s)
/-- TX_TIMESTAMP_POP: a read of EP[p].TXTS2 (R201), which JTAG does not reach (R368).
(DEDUCED, log entry 11) -/
def execTxTimestampPop (w : Who) (p : Fin 12) (s : State) : Host.Outcome State Fault Refusal :=
  done s (if !s.heard w then s
    else if isJtag w then finishRead w (denied s 2) 0 false
    else if !(s.applied || s.halter) then finishRead w { st := s } 0 false
    else finishRead w { st := (popStamp p s).2 } (popStamp p s).1 false)

/-! ### The yard (chapter 12) -/

/-- YARD_RECEIVE (R221). -/
def execYardReceive (p : Fin 12) (early : Option (EthFrame × Nat)) (s : State) : Host.Outcome State Fault Refusal :=
  done s (whenLinked (yardReceive p early) s)
/-- YARD_SUBMIT: YD.SUB[n] written (R226). -/
def execYardSubmit (w : Who) (n : Fin 16) (a : Fin 65536) (s : State) : Host.Outcome State Fault Refusal :=
  done s (if s.heard w then finish w (if s.applied then writeSub w n a s else { st := s }) else s)
/-- HOST_TX_TAIL_WRITE: YD.HTXPTR[r] written by PCIe function r (R229). -/
def execHostTxTailWrite (w : Who) (r : Fin 16) (tail : Fin 4096) (ds : List HostDesc) (s : State) : Host.Outcome State Fault Refusal :=
  done s (blockWriteQuiet w (fun _ => isPcie w r) (writeHtxTail r tail ds) s)
/-- HOST_RX_TAIL_WRITE: YD.HRXPTR[r] written by PCIe function r (R229). -/
def execHostRxTailWrite (w : Who) (r : Fin 16) (tail : Fin 4096) (bufs : List Word) (s : State) : Host.Outcome State Fault Refusal :=
  done s (blockWriteQuiet w (fun _ => isPcie w r) (writeHrxTail r tail bufs) s)
/-- DESCRIPTOR_COPY_COMPLETE (R227). -/
def execDescriptorCopyComplete (id : Nat) (s : State) : Host.Outcome State Fault Refusal := done s (whenApplied (copyComplete id) s)
/-- DESCRIPTOR_WRITEBACK (R227). -/
def execDescriptorWriteback (id : Nat) (s : State) : Host.Outcome State Fault Refusal := done s (whenApplied (writeback id) s)
/-- FRAME_DELIVER (R228, R229). -/
def execFrameDeliver (id : Nat) (f : Fin 512) (s : State) : Host.Outcome State Fault Refusal := done s (whenApplied (frameDeliver id f) s)
/-- ADDRESS_AGE_OUT (R223). -/
def execAddressAgeOut (mac : Word) (vid : Fin 4096) (s : State) : Host.Outcome State Fault Refusal :=
  done s (whenApplied (ageOut mac.toNat vid) s)
/-- AT_READ: YD.ATCMD written with OP 1 (R237). -/
def execAtRead (w : Who) (s : State) : Host.Outcome State Fault Refusal := done s (blockWriteQuiet w (·.supervisor w) (atStart 1) s)
/-- AT_WRITE: OP 2. -/
def execAtWrite (w : Who) (s : State) : Host.Outcome State Fault Refusal := done s (blockWriteQuiet w (·.supervisor w) (atStart 2) s)
/-- AT_DELETE: OP 3. -/
def execAtDelete (w : Who) (s : State) : Host.Outcome State Fault Refusal := done s (blockWriteQuiet w (·.supervisor w) (atStart 3) s)
/-- AT_FLUSH: OP 4. -/
def execAtFlush (w : Who) (s : State) : Host.Outcome State Fault Refusal := done s (blockWriteQuiet w (·.supervisor w) (atStart 4) s)
/-- AT_COMMAND_COMPLETE (R237). -/
def execAtCommandComplete (s : State) : Host.Outcome State Fault Refusal := done s (whenApplied atComplete s)
/-- GATE_ENTRY_CHANGE (R235). -/
def execGateEntryChange (p : Fin 17) (s : State) : Host.Outcome State Fault Refusal := done s (whenApplied (gateChange p) s)
/-- GATE_CYCLE_START (R235). -/
def execGateCycleStart (p : Fin 17) (s : State) : Host.Outcome State Fault Refusal := done s (whenApplied (gateCycle p) s)
/-- LAUNCH_ELIGIBLE (R256). -/
def execLaunchEligible (n : Fin 12) (s : State) : Host.Outcome State Fault Refusal := done s (whenApplied (launchEligible n) s)
/-- RING_MESSAGE_HOLDOFF_END (R363). -/
def execRingMessageHoldoffEnd (v : Fin 2048) (s : State) : Host.Outcome State Fault Refusal := done s (whenApplied (ringHoldoffEnd v) s)

end Sys2Proof.Machine
end

