-- ==== Sys2Proof/Machine/Access.lean ====
section
/-! DEFINITION. Register accesses: who may read and write each register, what a read of it shows and does, and what a write
of it does (R10, R14, R24, R27, R107, R348, R353, R360 and the Registers section of each chapter). -/

namespace Sys2Proof.Machine

/-! ### Who may -/

/-- What an access to a register needs: the blocks GC, CK and most of FA, open to every port and engine but a PCIe virtual
function (`sys`; `sysOwn` where the register itself judges the writer; `sysSup` where writes of others than supervisor
accesses are ignored), blocks open to every writer (`any`), blocks that ignore other writes than supervisor accesses (`sup`),
a writer that the register itself judges (`own`), the debug registers (R107), the function table (R24, R57), the arbiters
(R24), a mailbox pair and its sides (R156), the time unit, a counter and a reference (R258), a CAN controller (R292), a pin
block and a pin machine (R295), a host ring. -/
inductive Need
  | sys | sysOwn | sysSup | any | sup | own | dbg | fn | fnCtl | ic | pair | side | tm | ctr | ref | can | pib | pm | ring
  deriving DecidableEq, Repr

/-- The blocks GC, PW, FA and CK. -/
def RegId.isSys (r : RegId) : Bool :=
  [.gcUnmap, .gcLaystat, .gcLdctl, .gcLayver, .gcKeyslot, .gcKeydata, .gcBootcause, .gcBootctl, .gcIntsum, .gcIntctl, .pwCfg0,
   .pwCfg1, .pwSrc, .pwPsreq, .pwPstat, .pwEvt, .pwCnt, .pwOctl, .pwOstat, .pwOcnt, .pwKsec, .pwOcost, .faCfg0, .faTelda, .faFlcmd,
   .faFlstat, .faHealth, .faAge, .faTelrec, .faFlbuf, .ckCfg0, .ckStat, .ckRstctl].contains r

/-- The block TM. -/
def RegId.isTm (r : RegId) : Bool :=
  [.tmEvt, .tmTknow, .tmCapctl, .tmCaptk, .tmCapsec, .tmCapns, .tcCfg, .tcInc, .tcSecnow, .tcNsnow, .tcStepsec, .tcStepns, .tcCtl,
   .tcStat, .svCfg0, .svCfg1, .svStat, .svOfs, .svYi, .svYavg, .svCnt, .refCfg, .refCtl, .refOfs, .refStat, .pgCfg, .pgSsec, .pgSns,
   .pgPer, .pgStat, .tmLq].contains r

/-- The status registers and counters of a port. -/
def RegId.isPortStatus (r : RegId) : Bool :=
  [.epStat, .epEvt, .epTxts0, .epTxts1, .epTxts2, .epCnt0, .epCnt1, .epCnt2, .epCnt3, .epCnt4].contains r

/-- The registers of GC, PW, FA and CK that only supervisor accesses write: PW (registers of chapter 18) and the flash
service (R353). -/
def RegId.isSysSup (r : RegId) : Bool :=
  [.pwCfg0, .pwCfg1, .pwSrc, .pwPsreq, .pwPstat, .pwEvt, .pwCnt, .pwOctl, .pwOstat, .pwOcnt, .pwKsec, .pwOcost, .faFlcmd,
   .faFlbuf].contains r

/-- The registers of ports and stables, whose chapters name no writers. -/
def RegId.isAny (r : RegId) : Bool :=
  r.isPortStatus || [.epCfg0, .epCfg1, .epCfg2, .epTxctl, .epIpcfg0, .epIpcfg1, .epIpstat, .epIpcnt, .epIplog, .stCfg, .stCtl,
   .stSched, .stDqstat, .stLate0, .stLate1, .stCnt0, .stCnt1, .stCnt2, .stEngstat, .stLconf, .stLconf4, .stMemerr, .stMemlog,
   .mbMemerr].contains r

/-- What an access to instance (i, j) of a register needs.
(DEDUCED, log entry 11) -/
def RegId.need (r : RegId) (i : Nat) : Need :=
  if r.isSysSup then .sysSup
  else if r.isSys then .sys
  else if r.isAny then .any
  else match r with
  | .gcHimg => .sysOwn
  | .gcKeyprog => .sysOwn
  | .pwLease => .sysOwn
  | .piFlags => .pib
  | .piPinstat => .pib
  | .piPin => .pib
  | .dbgCtl => .dbg
  | .dbgStat => .dbg
  | .dbgSel => .dbg
  | .dbgData => .dbg
  | .dbgBp => .dbg
  | .eirq => .dbg
  | .eirqs => .dbg
  | .fnCfg => .fn
  | .fnShare => .fn
  | .fnQuota => .fn
  | .fnBudget => .fn
  | .fnName => .fn
  | .fnStatus => .fn
  | .fnCtl => .fnCtl
  | .fnUse0 => .fn
  | .fnUse1 => .fn
  | .fnCnt => .fn
  | .icLvl => .ic
  | .icUsef => .ic
  | .icStarv => .ic
  | .icSflag => .ic
  | .icCnt => .ic
  | .mbEnd => .pair
  | .mbCtl => .pair
  | .mbPeer => .pair
  | .mbCnt => .pair
  | .mbStat => .side
  | .mbTx => .side
  | .mbRx => .side
  | .tcInc => .ctr
  | .tcStepsec => .ctr
  | .tcStepns => .ctr
  | .tcCtl => .ctr
  | .refCtl => .ref
  | .refOfs => .ref
  | .ydSub => .own
  | .stBank => .own
  | .stPmark => .own
  | .mgCtl => .own
  | .ydHtxbase => .ring
  | .ydHtxptr => .ring
  | .ydHrxbase => .ring
  | .ydHrxptr => .ring
  | .canCfg0 => .can
  | .canNbt => .can
  | .canDbt => .can
  | .canStat => .can
  | .canEvt => .can
  | .canCnt => .can
  | .canTxHdr => .can
  | .canTxCtl => .can
  | .canTxData => .can
  | .canRxfHdr => .can
  | .canRxfTs => .can
  | .canRxfData => .can
  | .canRxfPop => .can
  | .canRxfStat => .can
  | .canRxbHdr => .can
  | .canRxbTs => .can
  | .canRxbData => .can
  | .canRxbStat => .can
  | .canFltA => .can
  | .canFltB => .can
  | .pmCfg0 => .pm
  | .pmCfg1 => .pm
  | .pmCfg2 => .pm
  | .pmCtl => .pm
  | .pmStat => .pm
  | .pmPtx => .pm
  | .pmPrx => .pm
  | .pmInj => .pm
  | .pmCnt => .pm
  | .pmProg => .pm
  | .commit => (match i with
    | 0 => .sys
    | 1 => .fn
    | 2 => .any
    | 3 => .any
    | 4 => .ic
    | 6 => .any
    | 8 => .tm
    | 10 => .can
    | 11 => .pib
    | _ => .sup)
  | _ => if r.isTm then .tm else .sup

/-- The registers that act now (R27, R348): all under a layout, before that GC, PW, FA and CK, and in Halter mode the time
unit and the status of P0 and P1.
(DEDUCED, log entry 11) -/
def State.openReg (s : State) (r : RegId) (i : Nat) : Bool :=
  s.applied || r.need i == .sys || r.need i == .sysOwn || r.need i == .sysSup || (s.halter && (r.isTm || (r == .commit && i == 8) || (r.isPortStatus && i < 2)))

/-- The access to the debug registers is one of R107. -/
def State.mayDebug (s : State) : Who → Bool
  | .jtag => s.boot.sec.testBit 4
  | w => s.supervisor w

/-- An access is carried out, or reads zero and has no effect, or is refused with DENIED and the DETAIL of an engine's
exception. -/
inductive Verdict
  | ok | silent | deny (det : Nat)
  deriving DecidableEq, Repr

/-- Carried out or refused. -/
def okOr (b : Bool) (det : Nat) : Verdict := if b then .ok else .deny det

/-- The controller or machine that a register belongs to. -/
def canOf (r : RegId) (i j : Nat) : Nat := if r = .commit then j else i
def machOf (r : RegId) (j : Nat) : Nat := if r = .pmProg then j / 16 else j

/-- The function's PCIe virtual function makes the access. -/
def State.boundVf (s : State) (w : Who) (f : Nat) : Bool :=
  match w with
  | .vf r => s.vfOf f == r.val + 1
  | _ => false

/-- The shadow registers of an undefined function read zero and ignore writes (R60). -/
def State.absent (s : State) (r : RegId) (i : Nat) : Bool :=
  (r == .fnCfg || r == .fnShare || r == .fnQuota || r == .fnBudget || r == .fnName) && s.fnState i == 0

/-- A read of a register. -/
def State.readVerdict (s : State) (w : Who) (r : RegId) (i j : Nat) : Verdict :=
  if s.absent r i && s.supervisor w then .silent
  else match w, r.need i with
  | _, .dbg => if s.mayDebug w then .ok else .silent
  | .jtag, _ => .deny 2
  | .vf _, .sys => .silent
  | .vf _, .sysOwn => .silent
  | .vf _, .sysSup => .silent
  | .vf _, .ic => .silent
  | .vf _, .fn => if r ≠ .commit ∧ s.boundVf w i ∧ s.absent r i = false then .ok else .silent
  | .vf _, .fnCtl => if s.boundVf w i then .ok else .silent
  | .engine _, .fn => okOr (s.supervisor w) 2
  | .engine _, .fnCtl => okOr (s.supervisor w) 2
  | .engine _, .ic => okOr (s.supervisor w) 2
  | _, .pair => okOr (s.mbRead w i) 1
  | _, .side => okOr (s.mbSide w i j) 1
  | _, .can => okOr (s.mayCan w (canOf r i j)) 2
  | _, .pm => okOr (s.mayPm w i (machOf r j)) 2
  | _, _ => .ok

/-- A write of a register. EIRQS is also heard from engines of the same stable in supervisor mode, and refused to engines in
task mode (R104).
(DEDUCED, log entry 11) -/
def State.writeVerdict (s : State) (w : Who) (r : RegId) (i j : Nat) : Verdict :=
  if s.absent r i && s.supervisor w then .silent
  else match w, r.need i with
  | .engine e, .dbg =>
    if r = .eirqs then (if !s.engSup e then .deny 2 else if s.mayDebug w || e.val / 8 == i then .ok else .silent)
    else if s.mayDebug w then .ok else .silent
  | _, .dbg => if s.mayDebug w then .ok else .silent
  | .jtag, _ => .deny 2
  | .vf _, .fn => if r = .fnStatus ∧ s.boundVf w i then .ok else .silent
  | .vf _, .fnCtl => if s.boundVf w i then .ok else .silent
  | .vf _, .ic => .silent
  | .vf _, .sys => .silent
  | _, .sys => .ok
  | _, .sysOwn => .ok
  | _, .sysSup => if s.supervisor w then .ok else .silent
  | _, .any => .ok
  | _, .sup => if s.supervisor w then .ok else .silent
  | _, .own => .ok
  | _, .ring => if isPcie w i then .ok else .silent
  | _, .pair => okOr (s.supervisor w) 1
  | _, .side => okOr (s.mbSide w i j) 1
  | _, .ctr => okOr (s.mayTc w i) 2
  | _, .ref => okOr (s.mayRef w i) 2
  | _, .can => okOr (s.mayCan w (canOf r i j)) 2
  | _, .pm => okOr (s.mayPm w i (machOf r j)) 2
  | _, _ => okOr (s.supervisor w) 2

/-- An access that is refused; mailbox pairs count it (R156).
(DEDUCED, log entry 11) -/
def refuse (r : RegId) (i det : Nat) (s : State) : Ans :=
  if r.need i = .pair ∨ r.need i = .side then { disp := 9, det := det, st := s.bump F.mbMemerr_DENY } else denied s det

/-! ### What a read shows -/

/-- A value in the bits of a field. -/
def fw (f : Fld) (v : Nat) : Nat := v % 2 ^ f.width * 2 ^ f.lo

/-- One bit per engine of a stable. -/
def engMask (n : Nat) (p : Nat → Bool) : Nat := ((List.range 8).map fun k => b2n (p (8 * n + k)) * 2 ^ k).sum

/-- GC.INTSUM (R364): the conditions of the physical function's vectors 3 to 42, and a doorbell of one of its ends. -/
def State.intsum (s : State) : Nat :=
  fw F.gcIntsum_SRC ((List.range 40).map fun k => b2n (s.condition (k + 3)) * 2 ^ k).sum
    + fw F.gcIntsum_DB (b2n ((pairsIn s.act).any fun m => [0, 1].any fun sd =>
        s.endKind m sd == 2 && s.fld F.mbEnd_ID m sd == 0 && s.on F.mbStat_DB m sd))

/-- INT_N, an open-drain output, is driven low; the board's pull-up holds it high otherwise (R162, R169, R364). -/
def State.intN (s : State) : Bool := s.on F.gcIntctl_PINEN && s.intsum != 0

/-- Ramp time left in 0.1 s, a part counting as one (registers of chapter 13). -/
def State.rampRemain (s : State) (j : Nat) : Nat :=
  match (s.servo j).ramp with
  | none => 0
  | some r => (r.t0 + r.w - s.tick + 24999999) / 25000000

/-- The bits of a register that no field stores: what it shows of the rest of the state. -/
def State.live (s : State) (r : RegId) (i j : Nat) : Nat :=
  match r with
  | .gcIntsum => s.intsum
  | .pwOstat => fw F.pwOstat_EST (min 4095 s.est) + fw F.pwOstat_QLEN (s.pw.queue.filter fun r => !r.hw).length
  | .pwOcost => fw F.pwOcost_WORST (worstTokens i)
  | .tmTknow => s.tk
  | .tcSecnow => (s.ctr i).sec
  | .tcNsnow => fw F.tcNsnow_SECLO ((s.ctr i).sec % 4) + (s.ctr i).ns * 2 ^ 16 + (s.ctr i).frac / 2 ^ 16
  | .refStat => fw F.refStat_VALID (b2n (s.refValid i))
  | .svStat => fw F.svStat_REMAIN (min 4095 (s.rampRemain i))
  | .tmLq => fw F.tmLq_DEPTH (s.launchQ i).length
  | .ydQstat => fw F.ydQstat_LEN (s.qLen i j) + fw F.ydQstat_FRAMES (s.queue i j).length + fw F.ydQstat_GOPEN (b2n (s.gateOpen i j))
  | .epStat => fw F.epStat_PD (b2n (s.fld F.pwSrc_PDPORT == i))
  | .epTxts0 => fw F.epTxts0_COUNT (s.port i).stamps.length + (match (s.port i).stamps with
    | [] => 0
    | t :: _ => fw F.epTxts0_VALID 1 + fw F.epTxts0_ERR (b2n t.err) + fw F.epTxts0_WAKE (b2n t.wake) + t.tag)
  | .epTxts1 => (match (s.port i).stamps with
    | [] => 0
    | t :: _ => t.ts.sec)
  | .canRxfHdr => (((s.cn i).fifo.head?.map CanRx.hdr).getD 0).toNat
  | .canRxfTs => ((s.cn i).fifo.head?.map CanRx.ts).getD 0 * 2 ^ 16
  | .canRxfData => (((s.cn i).fifo.head?.map CanRx.data).getD []).getD j 0 |>.toNat
  | .canRxfStat => (s.cn i).fifo.length
  | .pmStat => fw F.pmStat_PC (s.mach i j).pc + fw F.pmStat_STALL (s.pmStall i j) + fw F.pmStat_TXN (s.mach i j).txf.length
      + fw F.pmStat_RXN (s.mach i j).rxf.length + fw F.pmStat_INJP (b2n (s.mach i j).inj.isSome)
  | .twStat => fw F.twStat_HEALTH s.twHealth
  | .stDqstat => fw F.stDqstat_OVF (s.st i).ovf.length + fw F.stDqstat_IDLE (engMask i fun e => (s.e e).wait == some .tnext)
      + fw F.stDqstat_RUNU0 (engMask i fun e => (s.e e).tv && (s.e e).cur.any fun t => t.u == 0)
      + fw F.stDqstat_LATEN (s.st i).late.length
  | .stLate0 => (((s.st i).late.head?.map Task.w0).getD 0).toNat
  | .stEngstat =>
    let x := s.e (8 * i + j)
    fw F.stEngstat_BUSY (min 4095 x.busy) + fw F.stEngstat_RUNT x.runt
      + fw F.stEngstat_UC ((x.cur.map Task.u).getD 0) + fw F.stEngstat_TV (b2n x.tv) + fw F.stEngstat_DEPTH x.deque.length
  | .dbgStat => fw F.dbgStat_PC (s.e (8 * i + j)).pc.toNat + fw F.dbgStat_EXL (b2n (s.e (8 * i + j)).exl)
  | .dbgData =>
    if s.on F.dbgStat_HALTED i j then ((s.e (8 * i + j)).debugRead (8 * i + j) (s.eff F.dbgSel_REG (· ≥ 20) i j)).toNat else 0
  | .eirqs => s.fld F.eirq_PEND i j
  | .fnStatus => fw F.fnStatus_STATE (s.fnState i) + fw F.fnStatus_OVERQ (s.overq i)
  | .fnUse0 => fw F.fnUse0_TASKS (s.useTasks i) + fw F.fnUse0_CELLS (s.useCells i) + fw F.fnUse0_TOKENS (s.useTokens i)
  | .fnUse1 => fw F.fnUse1_BANKS (s.useBanks i) + fw F.fnUse1_REGIONS (s.useRegions i) + fw F.fnUse1_MBOXES (s.useMboxes i)
  | .mbPeer =>
    let st := fun sd => match s.endKind i sd with
      | 1 => s.fnState (s.fld F.mbEnd_ID i sd)
      | 2 => 2
      | _ => 0
    fw F.mbPeer_INCA (s.endInc i 0) + fw F.mbPeer_STATEA (st 0) + fw F.mbPeer_SLPA (b2n (s.asleep i 0))
      + fw F.mbPeer_INCB (s.endInc i 1) + fw F.mbPeer_STATEB (st 1) + fw F.mbPeer_SLPB (b2n (s.asleep i 1))
  | .mbStat =>
    let q := ((s.pair i).queue j).length
    let p := ((s.pair i).queue (1 - j)).length
    fw F.mbStat_TXN q + fw F.mbStat_RXN p + fw F.mbStat_FULL (b2n (q == 8)) + fw F.mbStat_EMPTY (b2n (p == 0))
  | .commit => fw F.commit_BOUND (blkBound (blockOfKind i j)) + (if i = 0 then fw F.commit_PEND (b2n s.gcPend) else 0)
  | _ => 0

/-- Fields that `live` shows in place of their stored value. -/
def Fld.computed (f : Fld) : Bool :=
  f == F.mbStat_EMPTY || f == F.fnStatus_STATE || f == F.fnStatus_OVERQ || f == F.dbgData_DATA || f == F.eirqs_SET || f == F.refStat_VALID

/-- What a field reads as (R14). -/
def State.shown (s : State) (f : Fld) (i j : Nat) : Nat :=
  if f.computed || f.acc = .wo then 0
  else if f.acc = .sh then s.shadow f i j
  else s.fld f i j

/-- The word that a read of a register shows. -/
def State.regWord (s : State) (r : RegId) (i j : Nat) : Word :=
  wd ((r.flds.map fun f => fw f (s.shown f i j)).sum + s.live r i j)

/-- Reading clears the RC fields; MINFREE begins again from FREE (R14, registers of chapter 12). -/
def clearRc (r : RegId) (i j : Nat) (s : State) : State :=
  if r = .ydStat then s.put F.ydStat_MINFREE (s.fld F.ydStat_FREE)
  else (r.flds.filter fun f => f.acc == .rc).foldl (fun s f => s.put f 0 i j) s

/-- A permitted read of a register, with what it does. -/
def regRead (r : RegId) (i j : Nat) (s : State) : Rd × State :=
  match r with
  | .mbRx =>
    let x := mbTake i j 8 s
    (if x.2.1 then .ue x.1 0 else .ok x.1, x.2.2)
  | .faTelrec => (.ok (s.regWord r i j), { s with boot := { s.boot with telNew := false } })
  | .pmPrx => let x := prxRead i j s; (.ok x.1, x.2)
  | .epTxts2 => let x := popStamp i s; (.ok x.1, x.2)
  | .stLate1 => (.ok (((s.st i).late.head?.map Task.w1).getD 0), latePop i s)
  | .piPinstat =>
    let (inv, t) := readPins i s.tick s
    let drv := ((List.range 16).map fun k => b2n (s.pinOut (16 * i + k)).1 * 2 ^ k).sum
    let outv := ((List.range 16).map fun k => b2n ((s.pinOut (16 * i + k)).1 && (s.pinOut (16 * i + k)).2) * 2 ^ k).sum
    (.ok (wd (fw F.piPinstat_DRV drv + fw F.piPinstat_OUTV outv + fw F.piPinstat_INV inv)), t)
  | _ => (.ok (s.regWord r i j), clearRc r i j s)

/-! ### What a write does -/

/-- A write of one field by its access type (R14). -/
def writeFld (f : Fld) (v i j : Nat) (s : State) : State :=
  match f.acc with
  | .rw => s.put f v i j
  | .w1c => s.put f (s.fld f i j &&& (2 ^ f.width - 1 - v)) i j
  | .w1s => s.put f (s.fld f i j ||| v) i j
  | .sh => (match blockOf f i with
    | some b => writeShadow b f v i j s
    | none => s)
  | .lk => if s.applied then s else s.put f v i j
  | _ => s

/-- A write of every field of a register but those that `skip` names. -/
def writeFlds (r : RegId) (skip : List Fld) (i j v : Nat) (s : State) : State :=
  (r.flds.filter fun f => !skip.contains f).foldl (fun s f => writeFld f (bits v f.lo f.width) i j s) s

/-- The current value that the unwritten bytes of a partial write keep: fields of type W1C, W1S and WO count as zero (R10), and
DBGDATA is the register that DBGSEL selects (R108). -/
def State.mergeBase (s : State) (r : RegId) (i j : Nat) : Word :=
  if r = .dbgData then wd (s.live r i j)
  else wd ((r.flds.filter fun f => f.acc == .rw || f.acc == .sh || f.acc == .lk).map fun f => fw f (s.shown f i j)).sum

/-- DBGCTL written with RUN: a halted engine resumes; the instruction that a breakpoint halted issues now, any other
at an enabled breakpoint halts again (R108, R109).
(DEDUCED, log entry 22; DESIGN CHOICE, log entry 96) -/
def dbgRun (e : Nat) (step : Bool) (s : State) : State :=
  let n := e / 8
  let k := e % 8
  if !s.on F.dbgStat_HALTED n k then s
  else
    let x := s.e e
    ((s.setE e { x with haltReq := false, stepReq := step, bpPass := s.fld F.dbgStat_WHY n k == 3 }).put F.dbgStat_HALTED 0 n k).put
      F.dbgStat_WHY 0 n k

/-- DBGCTL written with HALT.
(DEDUCED, log entry 22) -/
def dbgHalt (e : Nat) (s : State) : State :=
  if s.on F.dbgStat_HALTED (e / 8) (e % 8) then s else s.setE e { s.e e with haltReq := true }

/-- A write of DBGDATA (R108).
(DEDUCED, log entry 22) -/
def dbgWrite (e : Nat) (v : Word) (s : State) : State :=
  if s.on F.dbgStat_HALTED (e / 8) (e % 8) then
    s.setE e ((s.e e).debugWrite (s.eff F.dbgSel_REG (· ≥ 20) (e / 8) (e % 8)) v)
  else s

/-- A write of EIRQS (R104). -/
def eirqsWrite (e v : Nat) (s : State) : State :=
  s.put F.eirq_PEND (s.fld F.eirq_PEND (e / 8) (e % 8) ||| v) (e / 8) (e % 8)

/-- Do `f` when the bit is set. -/
def onBit (v k : Nat) (f : State → State) (s : State) : State := if v.testBit k then f s else s

/-- GO written to a block's COMMIT register (R40, R43). -/
def writeCommit (b : Block) (v : Nat) (s : State) : State :=
  if b = .gc then
    if v.testBit 0 then gcGo (v.testBit 2) s else s.put F.commit_INST (bits v 2 1)
  else onBit v 0 (commitGo b) s

/-- A write of LEASE: REL and REQ (R339), or COUNT alone by a supervisor access. -/
def writeLease (w : Who) (i v : Nat) (s : State) : Ans :=
  if v.testBit 1 then { disp := if (leaseRelease w i s).1 = 9 then 9 else 0, st := (leaseRelease w i s).2 }
  else if v.testBit 0 then
    { disp := if (leaseRequest w i (bits v 27 4) s).1 = 9 then 9 else 0, st := (leaseRequest w i (bits v 27 4) s).2 }
  else { st := if s.supervisor w then s.put F.pwLease_COUNT (bits v 27 4) i else s }

/-- A permitted write of the whole word `v` to a register.
(DEDUCED, log entry 13) -/
def regAct (w : Who) (r : RegId) (i j v : Nat) (s : State) : Ans :=
  let plain := writeFlds r [] i j v
  match r with
  | .gcLdctl => { st := onBit v 0 deltaApply (plain s) }
  | .gcKeyprog => { st := keyprog w (bits v 0 2) (bits v 4 2) s }
  | .gcBootcause => { st := onBit v 0 (bootEvent 0 0 0 0) s }
  | .gcBootctl => { st := (if s.supervisor w then onBit v 0 bootComplete else id) (onBit v 1 hostImageRestart s) }
  | .gcHimg => { st := hostImageWord w (wd v) s }
  | .pwCfg0 => { st := showCount (plain s) }
  | .pwPsreq => { st := psRequest (bits v 0 3) s }
  | .pwKsec => { st := writeAlarm (bits v 32 16) s }
  | .pwLease => writeLease w i v s
  | .faFlcmd => { st := flashCommand w (bits v 32 3) (bits v 35 13) (v.testBit 31) (plain s) }
  | .ckRstctl => { st := rstctl (bits v 8 8) (v.testBit 1) (v.testBit 0) s }
  | .tmCapctl => { st := onBit v 0 captureTime (plain s) }
  | .tcInc => { st := writeInc i (v % 2 ^ 35) s }
  | .tcCtl => { st := writeTcCtl i (v.testBit 0) (v.testBit 1) (v.testBit 2) s }
  | .refOfs => { st := writeRefOfs i (wd v) s }
  | .ydAtcmd => { st := if 1 ≤ v % 16 ∧ v % 16 ≤ 4 then atStart (v % 16) s else s }
  | .ydSub => writeSub w i (v % 65536) s
  | .ydHtxptr => { st := writeHtxTail i (bits v 16 12) [] (s.put F.ydHtxptr_LOGN (bits v 44 4) i) }
  | .ydHrxptr => { st := writeHrxTail i (bits v 16 12) [] ((s.put F.ydHrxptr_LOGN (bits v 44 4) i).put F.ydHrxptr_BUFSZ (bits v 30 14) i) }
  | .canTxHdr => { st := canBufWrite i j 0 (wd v) s }
  | .canTxData => { st := canBufWrite i (j / 11) (j % 11 + 1) (wd v) s }
  | .canTxCtl => { st := onBit v 1 (canAbort i j) (onBit v 0 (canRequest i j) s) }
  | .canRxfPop => { st := onBit v 0 (canPop i) s }
  | .piFlags => { st := (List.range 8).foldl (fun s f => onBit v f (lowerFlag i f) s) s }
  | .pmCfg0 => { st := writeFlds r (if s.supervisor w then [] else [F.pmCfg0_OWNER]) i j v s }
  | .pmCtl => { st := writePmCtl i j (v.testBit 1) (v.testBit 2) (v.testBit 3) s }
  | .pmPtx => { st := ptxWrite i j (wd v) s }
  | .pmInj => { st := injWrite i j (BitVec.ofNat 24 v) s }
  | .twCtl => { st := onBit v 1 stest (plain s) }
  | .stCtl => { st := onBit v 2 (wakeStable i) (onBit v 0 (releaseStable i) (plain s)) }
  | .stBank =>
    let s := if s.supervisor w then plain s else s
    if v.testBit 11 then handoverRequest w i j (bits v 12 9) s else { st := s }
  | .stPmark => if v.testBit 16 then poisonRequest w i (v % 65536) s else { st := s }
  | .dbgCtl =>
    let e := 8 * i + j
    { st := onBit v 1 (dbgHalt e) (if v.testBit 2 || v.testBit 3 then dbgRun e (v.testBit 3) (plain s) else plain s) }
  | .dbgData => { st := dbgWrite (8 * i + j) (wd v) s }
  | .eirqs => { st := eirqsWrite (8 * i + j) (v % 65536) s }
  | .mgCtl => if v.testBit 0 then { disp := if (regionDone w i s).1 then 0 else 9, det := 1, st := (regionDone w i s).2 } else { st := s }
  | .fnCtl => { st := onBit v 0 (requestReset i) (onBit v 1 (release i) (plain s)) }
  | .mbStat => { st := onBit v 0 (ring i (1 - j)) (onBit v 7 (mbResync i j) (plain s)) }
  | .mbTx => { st := mbSend i j (wd v) s }
  | .commit => { st := writeCommit (blockOfKind i j) v s }
  | _ => { st := plain s }

/-- A read access to a register. -/
def readReg (w : Who) (r : RegId) (i j : Nat) (s : State) : Ans × Rd :=
  if !s.openReg r i then ({ st := s }, .ok 0)
  else match s.readVerdict w r i j with
    | .silent => ({ st := s }, .ok 0)
    | .deny d => (refuse r i d s, .ok 0)
    | .ok =>
      let x := regRead r i j s
      ({ disp := if x.1.bad then 8 else 0, st := x.2 }, x.1)

/-- A write access to a register: the bytes that `be` enables are merged into its current value (R10). -/
def writeReg (w : Who) (r : RegId) (i j : Nat) (be : BitVec 8) (v : BitVec 64) (s : State) : Ans :=
  if !s.openReg r i then { st := s }
  else match s.writeVerdict w r i j with
    | .silent => { st := s }
    | .deny d => refuse r i d s
    | .ok => regAct w r i j (mergeBytes (s.mergeBase r i j) be v).toNat s

end Sys2Proof.Machine
end

