-- ==== Sys2Proof/Machine/Instant.lean ====
section
/-! DEFINITION. The common instant (R171, R173, R178): the flip of the regions, the pair, publications (R180), interrupts,
and what other blocks do with it. -/

namespace Sys2Proof.Machine

/-- A position of TC0 in the cycle of common instants, in 2^-32 ns (R171). -/
def State.instPos (s : State) : Nat :=
  let cyc := s.fld F.mgInst_CYC * 2 ^ 32
  (s.total 0 + cyc - s.fld F.mgPh_PH * 2 ^ 32 % cyc) % cyc

/-- Time passes to the next common instant, which may be the present tick. After a step of TC0 an instant time that the step
has passed is over, be it by less than a tick (R173).
(DEDUCED, log entry 40) -/
def toInstant (s : State) : State :=
  let here := if Tab.get 0 s.steppedAt 0 = s.tick + 1 then s.instPos = 0 else s.instPos < s.incOf 0
  if here ∧ s.seenInst ≠ some s.tick then s
  else passUntil 0 (s.total 0 + s.fld F.mgInst_CYC * 2 ^ 32 - s.instPos) s

/-- The number of the instant at or before now (R171).
(DEDUCED, log entry 40) -/
def State.instNow (s : State) : Nat :=
  ofSigned 32 (Int.fdiv ((s.nsNow 0 : Int) - s.fld F.mgPh_PH) (s.fld F.mgInst_CYC))

/-- Send the fragments of a region's publication from number `i` on; a refused one ends it, counted in PSKIP (R180).
(DEDUCED, log entry 39) -/
def publishFrom (k : Nat) : Nat → Nat → State → State
  | 0, _, s => s
  | n + 1, i, s =>
    let r := fragment k i s
    let s := r.2
    let pcp := s.fld F.mgCfg2_PCP k
    let bytes := macBytes (s.fld F.mgCfg3_DA k) ++ macBytes (s.pubSource k) ++ two 0x8100
      ++ two (pcp * 8192 + s.fld F.mgCfg2_VID k) ++ two s.etype ++ carryWords (withCrc r.1)
    let q := submitFrame { descFrame (.pub k) (s.rgOwner k) 0 0 bytes [] with cls := s.classOf 16 pcp } 0 0 0 false s
    if q.1 = 2 ∨ q.1 = 5 then q.2.bump F.mgCnt_PSKIP else publishFrom k n (i + 1) q.2

/-- A region's publication after an instant (R180).
(DEDUCED, log entry 39) -/
def publish (s : State) (k : Nat) : State :=
  let p := s.fld F.mgCfg2_PUB k
  if s.rgSize k ≠ 0 ∧ (p = 1 ∨ p = 3) then publishFrom k ((s.rgSize k + 239) / 240) 0 s else s

/-- What the part does at an instant (R173, R178, R43, R246). -/
def instantWork (s : State) : State :=
  let n := s.instNow
  let s := if s.jumpDue then { s.put F.mgInstat_JUMP 1 with jumpDue := false } else s
  let s := if s.cfld F.commit_PEND .mg = 1 then activateMg s else s
  let s := { (s.put F.mgInstat_RUN 1).put F.mgInstat_N n with lastInst := some s.tick }
  let s := (List.range 64).foldl (fun s k => flipRegion n k s) s
  let s := (List.range 64).foldl publish (twinInstant n s)
  let s := regionIrqs s
  let s := if s.on F.tmCapctl_AUTO then captureTime s else s
  if s.boot.gcInst then commitAllDirty s else s

/-- COMMON_INSTANT: one that would fall less than CYC ÷ 2 after the last is skipped (R173).
(DEDUCED, log entry 40) -/
def commonInstant (s : State) : State :=
  if !s.clocksOn || !s.applied || s.fld F.mgInst_CYC = 0 then s
  else
    let s := toInstant s
    let s := { s with seenInst := some s.tick }
    match s.lastInst with
    | some t => if (s.tick - t) * 8 < s.fld F.mgInst_CYC then s.bump F.mgCnt_SKIP else instantWork s
    | none => instantWork s

/-! ### Commands -/

/-- COMMON_INSTANT. -/
def execCommonInstant (s : State) : Host.Outcome State Fault Refusal := done s (commonInstant s)

/-- REGION_DONE: MG.RGN[k].CTL written with DONE. -/
def execRegionDone (w : Who) (k : Fin 64) (s : State) : Host.Outcome State Fault Refusal :=
  let r := regionDone w k s
  done s (blockAccess w { disp := if r.1 then 0 else 9, det := 1, st := r.2 } s)

/-- SUBSCRIPTION_RECEIVE. -/
def execSubscriptionReceive (fr : EthFrame) (s : State) : Host.Outcome State Fault Refusal :=
  done s (if s.clocksOn && s.applied && fr.fcsOk then subscribe fr.bytes s else s)

end Sys2Proof.Machine
end

