-- ==== Sys2Proof/Machine/Bus.lean ====
section
/-! DEFINITION. Accesses by address: the host byte map (R21, R22), the engine word map (R23, R24), the words of the lofts, the
Manger, the code stores, the staging memory and the in-passing windows behind them, and the commands that are accesses. -/

namespace Sys2Proof.Machine

/-! ### Maps -/

/-- What an address reaches: a word of the engine's private memory, a loft, the Manger, a code store (through the engine's own
words, or through the stable's window), the staging memory, an in-passing window, a register, or nothing: a reserved
address. -/
inductive Place
  | priv (a : Nat)
  | loft (n a : Nat)
  | mg (a : Nat)
  | code (n a : Nat) (own : Bool)
  | stage (a : Nat)
  | window (k o : Nat)
  | reg (r : RegId) (i j : Nat)
  | hole
  /-- A reserved address among the words of the function table or of the arbiters, as an engine reaches them (R24). -/
  | f0Hole
  deriving DecidableEq, Repr

/-- What the slot at a BAR 0 byte offset is (R21). -/
def hostPlace (off : Nat) : Place :=
  let o := off / 8 * 8
  if 0x03800000 ≤ o then .hole
  else if 0x03000000 ≤ o then .loft ((o - 0x03000000) / 0x80000) ((o - 0x03000000) % 0x80000 / 8)
  else if 0x02000000 ≤ o ∧ o < 0x02100000 then .mg ((o - 0x02000000) / 8)
  else if 0x80000 ≤ o ∧ o < 0x90000 then .stage ((o - 0x80000) / 8)
  else if 0x01000000 ≤ o ∧ o < 0x02000000 ∧ 0x80000 ≤ o % 0x100000 ∧ o % 0x100000 < 0xC0000 then
    .code ((o - 0x01000000) / 0x100000) (o % 0x100000 / 8 - 0x10000) false
  else match regAt o with
    | some (r, i, j) => .reg r i j
    | none => .hole

/-- A slot of the function table or of the arbiters as an engine reaches it (R23, R24). -/
def f0Place (off : Nat) : Place := if hostPlace off = .hole then .f0Hole else hostPlace off

/-- An engine has a word address for a BAR 0 offset of register space (R12, R23). -/
def engReach (off : Nat) : Bool :=
  off < 0x02000000 || (0x02200000 ≤ off && off < 0x02220000) || (0x02400000 ≤ off && off < 0x02440000) || (0x02800000 ≤ off && off < 0x03000000)

/-- What an engine word address is to engine `e` (R23). -/
def engPlace (e w : Nat) : Place :=
  if w < 0x1000 then .priv w
  else if w < 0x10000 then .hole
  else if w < 0x20000 then .loft (e / 8) (w - 0x10000)
  else if w < 0x120000 then .loft ((w - 0x20000) / 0x10000) (w % 0x10000)
  else if w < 0x200000 then .hole
  else if w < 0x220000 then .mg (w - 0x200000)
  else if w < 0x224000 then f0Place (0x02200000 + 8 * (w - 0x220000))
  else if w < 0x228000 then .hole
  else if w < 0x230000 then hostPlace (0x02400000 + 8 * (w - 0x228000))
  else if w < 0x300000 then .hole
  else if w < 0x400000 then f0Place (0x02800000 + 8 * (w - 0x300000))
  else if w < 0x800000 then hostPlace (8 * (w - 0x400000))
  else if w < 0x808000 then .code (e / 8) (w - 0x800000) true
  else if 0x900000 ≤ w ∧ w < 0x904000 then .window ((w - 0x900000) / 0x1000) (w % 0x1000)
  else .hole

/-! ### Accesses -/

/-- The host ports (R57). -/
def isHost : Who → Bool
  | .engine _ => false
  | .farrier => false
  | _ => true

/-- The bus-error exception of an engine (R24, R97).
(DESIGN CHOICE, log entry 10) -/
def busError (det : Nat) (s : State) : Ans := { disp := 9, det := det, cls := 6, st := s }

/-- What an access to a reserved address does: an engine takes the bus error, the JTAG port is refused (R368), another host
port counts it (R22).
(DEDUCED, log entry 91) -/
def holeAccess (w : Who) (off : Nat) (s : State) : Ans :=
  match w with
  | .engine _ => busError 1 s
  | .jtag => denied s
  | _ => { st := if isHost w then unmapped off s else s }

/-- An access to a reserved address of the function table or the arbiters: only F0 in supervisor mode comes as far as the bus
error (R24, R97). -/
def f0HoleAccess (w : Who) (off : Nat) (s : State) : Ans := if s.supervisor w then holeAccess w off s else denied s

/-- Count a refused access to the Manger (R176). -/
def mgDeny (s : State) : Ans := { disp := 9, det := 1, st := s.bump F.mgMemerr_DENY }

/-- What a word read found, as an answer. -/
def served (x : Rd × State) : Ans × Rd := ({ disp := if x.1.bad then 8 else 0, st := x.2 }, x.1)

/-- The access comes from a PCIe virtual function. -/
def isVf : Who → Bool
  | .vf _ => true
  | _ => false

/-- A read access (R22, R24, R27, R72, R111, R137, R176). -/
def busRead (w : Who) (off : Nat) (p : Place) (s : State) : Ans × Rd :=
  match p with
  | .reg r i j => readReg w r i j s
  | .hole => (holeAccess w off s, .ok 0)
  | .f0Hole => (f0HoleAccess w off s, .ok 0)
  | .priv a => (match w with
    | .engine e => served (memRead (privPlace e a) s)
    | _ => (denied s, .ok 0))
  | .window k o => if s.applied then windowRead w k o s else ({ st := s }, .ok 0)
  | .stage a =>
    if isJtag w then (denied s, .ok 0)
    else if isVf w then ({ st := s }, .ok 0)
    else served (memRead (.stage (Fin.ofNat 8192 a)) s)
  | .loft n a =>
    if isJtag w then (denied s, .ok 0)
    else if !s.applied then ({ st := s }, .ok 0)
    else
      let x := loftRead w n a s
      ({ disp := if x.1 = 0 ∧ x.2.1.bad = true then 8 else x.1, det := 1, st := x.2.2 }, x.2.1)
  | .mg a =>
    if isJtag w then (denied s, .ok 0)
    else if !s.applied then ({ st := s }, .ok 0)
    else if s.mgMayRead w a then served (mgRead a s)
    else (mgDeny s, .ok 0)
  | .code n a _ =>
    if isJtag w then (denied s, .ok 0)
    else if !s.applied then ({ st := s }, .ok 0)
    else served (memRead (.code (Fin.ofNat 16 n) (Fin.ofNat 32768 a)) s)

/-- A write to a code store (R24, R111): through the stable's window by a supervisor access, or through the engine's own
words. -/
def codeWrite (w : Who) (n a : Nat) (own : Bool) (be : BitVec 8) (v : BitVec 64) (s : State) : Ans :=
  let x := fun s => memMerge (.code (Fin.ofNat 16 n) (Fin.ofNat 32768 a)) be v s
  match w with
  | .engine e =>
    if !s.on F.stCtl_LOAD n then busError 2 s
    else if (if own then s.engSup e else s.supervisor w) then { disp := (x s).1, st := (x s).2 }
    else denied s
  | _ =>
    if s.on F.stCtl_LOAD n && s.supervisor w then { disp := (x s).1, st := (x s).2 } else { st := s }

/-- A write access of the bytes that `be` enables (R10, R22, R24, R27, R47, R72, R147, R148, R176). -/
def busWrite (w : Who) (off : Nat) (p : Place) (be : BitVec 8) (v : BitVec 64) (s : State) : Ans :=
  match p with
  | .reg r i j => writeReg w r i j be v s
  | .hole => holeAccess w off s
  | .f0Hole => f0HoleAccess w off s
  | .priv a => (match w with
    | .engine e => if !s.engSup e && a < 0x40 then denied s 3 else { st := memWrite (privPlace e a) (v.setWidth 48) s }
    | _ => denied s)
  | .window k o => if s.applied then windowWrite w k o (v.setWidth 48) s else { st := s }
  | .stage a =>
    let s := if s.on F.gcLaystat_APPLYING then s.put F.gcLaystat_CLASH 1 else s
    if isJtag w then denied s
    else if isVf w || s.on F.gcLaystat_APPLYING then { st := s }
    else
      let x := memMerge (.stage (Fin.ofNat 8192 a)) be v s
      { disp := x.1, st := x.2 }
  | .loft n a =>
    if isJtag w then denied s
    else if !s.applied then { st := s }
    else
      let x := loftWrite w n a be v s
      { disp := x.1, det := 1, st := x.2 }
  | .mg a =>
    if isJtag w then denied s
    else if !s.applied then { st := s }
    else if s.mgMayWrite w a then
      let x := memMerge (mgPlace (s.mgWriteWord a)) be v s
      { disp := x.1, st := x.2 }
    else mgDeny s
  | .code n a own =>
    if isJtag w then denied s else if !s.applied then { st := s } else codeWrite w n a own be v s

/-! ### Commands -/

/-- REGISTER_WRITE: a write of the bytes that `be` enables to the register at a BAR 0 offset; an engine writes the whole word
(R10, R14).
(DESIGN CHOICE, log entries 9 and 10) -/
def execRegisterWrite (w : Who) (off : Nat) (be : BitVec 8) (v : BitVec 64) (s : State) : Host.Outcome State Fault Refusal :=
  done s (if !s.heard w then s
    else match hostPlace off with
      | .reg r i j =>
        if isHost w then (if be = 0 then finish w { st := s } else finish w (writeReg w r i j be v s))
        else if engReach off then finish w (writeReg w r i j 0xFF v s)
        else s
      | _ => s)

/-- RESERVED_HOST_ACCESS (R22).
(DEDUCED, log entry 81) -/
def execReservedHostAccess (w : Who) (off : Nat) (wr : Bool) (s : State) : Host.Outcome State Fault Refusal :=
  done s (if !s.heard w || !isHost w then s
    else match hostPlace off with
      | .hole => if wr then finish w (holeAccess w off s) else finishRead w (holeAccess w off s) 0 false
      | _ => s)

/-- A host port reads the slot that holds `off` and `n` slots after it, in ascending order (R9, R145, R360). -/
def readSpan (w : Who) : Nat → Nat → State → State
  | off, n, s =>
    let x := busRead w off (hostPlace off) s
    let t := finishRead w x.1 x.2.word x.2.bad
    match n with
    | 0 => t
    | n + 1 => readSpan w (off / 8 * 8 + 8) n t

/-- HOST_MEMORY_READ: a host port reads a slot, or several (R9, R145, R360).
(DEDUCED, log entry 81) -/
def execHostMemoryRead (w : Who) (x : HostSpan) (s : State) : Host.Outcome State Fault Refusal :=
  done s (if !s.heard w || !isHost w then s else readSpan w x.off x.more s)

/-- HOST_MEMORY_WRITE: a host port writes the bytes that `be` enables of a slot (R10, R147, R148).
(DEDUCED, log entry 81) -/
def execHostMemoryWrite (w : Who) (off : Nat) (be : BitVec 8) (v : BitVec 64) (s : State) : Host.Outcome State Fault Refusal :=
  done s (if !s.heard w || !isHost w then s
    else if be = 0 then finish w { st := s }
    else finish w (busWrite w off (hostPlace off) be v s))

/-- The block's COMMIT register in the register tables. -/
def commitIx (b : Block) : Nat × Nat := blkKind b

/-- The COMMIT registers that no engine address reaches (R12, chapters 03 and 08). -/
def commitHidden (w : Who) (b : Block) : Bool :=
  match w with
  | .engine _ => b == .fn || b == .mb
  | _ => false

/-- GO written to a block's COMMIT register. -/
def commitWrite (w : Who) (b : Block) (v : Nat) (s : State) : State :=
  if !s.heard w || commitHidden w b then s
  else finish w (writeReg w .commit (commitIx b).1 (commitIx b).2 0xFF (BitVec.ofNat 64 v) s)

/-- COMMIT_GO (R40). GC's keeps its INST bit.
(DESIGN CHOICE, log entry 9) -/
def execCommitGo (w : Who) (b : Block) (s : State) : Host.Outcome State Fault Refusal :=
  done s (commitWrite w b (if b = .gc then 1 + 4 * s.fld F.commit_INST else 1) s)

/-- CODE_STORE_WRITE: an engine writes through its own code store words, a host through the stable's window (R111). -/
def execCodeStoreWrite (w : Who) (n : Fin 16) (a : Fin 32768) (v : Word) (s : State) : Host.Outcome State Fault Refusal :=
  done s (if s.heard w then
      finish w (busWrite w (0x01080000 + 0x100000 * n.val + 8 * a.val) (.code n a (match w with
        | .engine e => e.val / 8 == n.val
        | _ => false)) 0xFF (v.setWidth 64) s)
    else s)

/-- A write of one debug register of engine `e` of the part (R107). -/
def debugRegWrite (w : Who) (r : RegId) (e v : Nat) (s : State) : State :=
  if s.heard w then finish w (writeReg w r (e / 8) (e % 8) 0xFF (BitVec.ofNat 64 v) s) else s

/-- The kept bits of DBGCTL: DXIE and BPEN. -/
def State.dbgKept (s : State) (e : Nat) : Nat :=
  fw F.dbgCtl_DXIE (s.fld F.dbgCtl_DXIE (e / 8) (e % 8)) + fw F.dbgCtl_BPEN (s.fld F.dbgCtl_BPEN (e / 8) (e % 8))

/-- DBG_HALT: DBGCTL written with HALT (R108). -/
def execDbgHalt (w : Who) (e : Fin 128) (s : State) : Host.Outcome State Fault Refusal :=
  done s (debugRegWrite w .dbgCtl e (2 + s.dbgKept e) s)
/-- DBG_RUN: DBGCTL written with RUN (R108). -/
def execDbgRun (w : Who) (e : Fin 128) (s : State) : Host.Outcome State Fault Refusal :=
  done s (debugRegWrite w .dbgCtl e (4 + s.dbgKept e) s)
/-- DBG_STEP: DBGCTL written with STEP (R109). -/
def execDbgStep (w : Who) (e : Fin 128) (s : State) : Host.Outcome State Fault Refusal :=
  done s (debugRegWrite w .dbgCtl e (8 + s.dbgKept e) s)
/-- DBGDATA_WRITE (R108). -/
def execDbgdataWrite (w : Who) (e : Fin 128) (v : Word) (s : State) : Host.Outcome State Fault Refusal :=
  done s (debugRegWrite w .dbgData e v.toNat s)
/-- EIRQS_SET: ones written to EIRQS (R104). -/
def execEirqsSet (w : Who) (e : Fin 128) (v : BitVec 16) (s : State) : Host.Outcome State Fault Refusal :=
  done s (debugRegWrite w .eirqs e v.toNat s)

end Sys2Proof.Machine
end

