-- ==== Sys2Proof/Machine/HostPorts.lean ====
section
/-! DEFINITION. The host ports (chapter 20): PCIe link and MSI-X, quad-SPI, the management port, JTAG. -/

namespace Sys2Proof.Machine

/-! ### PCIe (R359 to R363) -/

/-- A frame that host ring `r` brought loses its descriptor: one still being copied is dropped, where its sending has begun by the underrun of
its port (R197); another is sent without a write-back (R361, R369).
(DEDUCED, log entry 84) -/
def orphanFrame (r : Nat) (s : State) (id : Nat) : State :=
  match s.frame id with
  | some x => (match x.src with
    | .ring q _ _ =>
      if q ≠ r then s
      else if x.copied then s.setFrame id (some { x with src := .tel })
      else
        let s := unqueue id s
        let k := s.sendingCopies id
        if k = 0 then (freeCells x.cells s).setFrame id none else s.setFrame id (some { x with left := k, closed := true, src := .tel })
    | _ => s)
  | none => s

/-- The rings of PCIe function `r` end, empty, and its MSI-X table is cleared (R361).
(DEDUCED, log entry 84) -/
def resetPcieFn (r : Nat) (s : State) : State :=
  let s := (s.yard.frames.map (·.1)).foldl (orphanFrame r) s
  let s := ((s.put F.ydHtxptr_LOGN 0 r).put F.ydHtxptr_HEAD 0 r).put F.ydHtxptr_TAIL 0 r
  let s := ((s.put F.ydHrxptr_LOGN 0 r).put F.ydHrxptr_HEAD 0 r).put F.ydHrxptr_TAIL 0 r
  let other := fun v => v / 128 != r
  { s with
    yard := { s.yard with
      htxNext := Tab.set 0 s.yard.htxNext r 0, hrx := Tab.set [] s.yard.hrx r [], owed := s.yard.owed.filter other }
    host := { s.host with
      msixEn := s.host.msixEn &&& ~~~(BitVec.ofNat 16 (2 ^ r))
      unmasked := s.host.unmasked.filter other, pba := s.host.pba.filter other } }

/-- The link goes down: every function's rings and table, and what the host still waits for (R167, R361).
(DEDUCED, log entry 84) -/
def pcieDown (s : State) : State :=
  let s := (List.range 16).foldl (fun s r => resetPcieFn r s) (icWithdraw (fun r => r.i == 16 && (r.w == .pf || isVf r.w)) s)
  { s with host := { s.host with pcieUp := false } }

/-- The link trains, with the Ostler's leave, while the logic die's clocks run, and comes up (R26, R28, R335, R359). -/
def pcieTrain (s : State) : State :=
  if !s.clocksOn || s.host.pcieUp then s
  else
    let (ok, s) := trainLeave 13 s
    if ok then { s with host := { s.host with pcieUp := true } } else s

/-- A vector that stands for a condition; a doorbell or ring message is pending by its PBA bit alone. -/
def State.stillHolds (s : State) (v : Nat) : Bool := !levelVectors.contains v || s.condition v

/-- A vector is unmasked: it is sent where it is due and the function's MSI-X Enable is 1 (R363).
(DEDUCED, log entry 53) -/
def unmask (v : Nat) (s : State) : State :=
  if !s.host.pcieUp then s
  else
    let due := s.host.pba.contains v && s.stillHolds v && s.host.msixEn.getLsbD (v / 128)
    let s := { s with host := { s.host with
      unmasked := if s.host.unmasked.contains v then s.host.unmasked else s.host.unmasked ++ [v]
      pba := s.host.pba.filter (· ≠ v) } }
    if due then s.emit (.msix v) else s

/-- What the host writes to the MSI-X structures: a vector unmasked or masked, or the Enable of a function (R363).
(DEDUCED, log entry 53) -/
def msixAct (a : MsixAct) (s : State) : State :=
  match a with
  | .unmask v => unmask v s
  | .mask v =>
    if !s.host.pcieUp then s else { s with host := { s.host with unmasked := s.host.unmasked.filter (· ≠ v.val) } }
  | .enable r on =>
    let b := BitVec.ofNat 16 (2 ^ r.val)
    if !s.host.pcieUp then s
    else { s with host := { s.host with msixEn := if on then s.host.msixEn ||| b else s.host.msixEn &&& ~~~b } }

/-! ### The endpoint (R359) -/

/-- Device ID of the physical function and of the virtual ones; Revision ID; class code. -/
def pcieDevice (vf : Bool) : Nat := if vf then 0x4813 else 0x4812
def pcieRevision : Nat := 0xB1
def pcieClass : Nat := 0x0280
/-- Functions beyond the physical one, the bytes of BAR 2, the payload sizes, and the longest read request of the part. -/
def pcieVfs : Nat := 15
def bar2Bytes : Nat := 0x80000
def pciePayloads : List Nat := [128, 256]
def pcieReadMax : Nat := 512

/-- What lies at a byte of BAR 2, in every function alike: byte `b` of the page of pair `m`, of an entry of the MSI-X table or of
the PBA. -/
inductive Bar2Place
  | pairPage (m b : Nat) | table (v b : Nat) | pba (b : Nat) | hole
  deriving DecidableEq, Repr

/-- The layout of BAR 2; an entry of the table has 16 bytes and the PBA a bit per vector, as PCI Express gives.
(DEDUCED, log entry 53; DESIGN CHOICE, log entry 114) -/
def bar2Place (a : Nat) : Bar2Place :=
  if a < 0x40000 then .pairPage (a / 0x100) (a % 0x100)
  else if a < 0x40800 then .table ((a - 0x40000) / 16) (a % 16)
  else if 0x48000 ≤ a && a < 0x48010 then .pba (a - 0x48000)
  else .hole

/-- How a request of the host completes. -/
inductive PcieDone
  | successful | unsupportedRequest
  deriving DecidableEq, Repr

/-- The part takes memory requests alone; an AtomicOp completes with Unsupported Request. -/
def pcieCompletion (atomicOp : Bool) : PcieDone := if atomicOp then .unsupportedRequest else .successful

/-! ### Transfers of bytes (R366) -/

/-- What a transfer reads from the slot that holds `a` on: `n` slots with the disposition of the first.
(DESIGN CHOICE, log entry 99) -/
def readSlots (w : Who) : Nat → Nat → State → List (Nat × Word) × State
  | _, 0, s => ([], s)
  | a, n + 1, s =>
    let x := busRead w a (hostPlace a) s
    let r := readSlots w (a / 8 * 8 + 8) n x.1.st
    ((x.1.disp, if x.1.disp = 9 then 0 else x.2.word) :: r.1, r.2)

/-- The bytes of a transfer that fall into one slot: its byte enables and its value. -/
def slotBytesAt (a : Nat) (bs : List Byte) (slot : Nat) : BitVec 8 × BitVec 64 :=
  let at_ := fun k => 8 * slot + k - a
  let on := fun k => a ≤ 8 * slot + k && 8 * slot + k < a + bs.length
  (BitVec.ofNat 8 (((List.range 8).map fun k => b2n (on k) * 2 ^ k).sum),
    BitVec.ofNat 64 (((List.range 8).map fun k => if on k then ((bs.getD (at_ k) 0).toNat) * 2 ^ (8 * k) else 0).sum))

/-- Of two dispositions the one that R18 reports.
(DEDUCED, log entry 79) -/
def worse (a b : Nat) : Nat := if a = 9 ∨ b = 9 then 9 else if a = 8 ∨ b = 8 then 8 else 0

/-- Write the bytes `bs` from byte address `a` on, slot by slot; the disposition of the whole.
(DEDUCED, log entry 79; DESIGN CHOICE, log entry 99) -/
def writeBytes (w : Who) (a : Nat) (bs : List Byte) (s : State) : Nat × State :=
  (List.range ((a % 8 + bs.length + 7) / 8)).foldl (fun (p : Nat × State) i =>
    let slot := a / 8 + i
    let x := slotBytesAt a bs slot
    let r := busWrite w (8 * slot) (hostPlace (8 * slot)) x.1 x.2 p.2
    (worse p.1 r.disp, r.st)) (0, s)

/-! ### Quad-SPI (R365, R366) -/

/-- Whether an access of a port that may still be carried out is: a free value; one that is no longer stays done.
(DEDUCED, log entry 79) -/
def stillRuns (pend : Bool) (s : State) : Bool × State :=
  if !pend then (false, s)
  else let (k, s) := s.draw; ((Config.choice k).getLsbD 0, s)

/-- The last write of the quad-SPI port is still being carried out.
(DEDUCED, log entry 79) -/
def qspiBusy (s : State) : Bool × State :=
  let (b, s) := stillRuns s.host.qspiPend s
  (b, { s with host := { s.host with qspiPend := b } })

/-- The status byte: the last write's disposition, DEFERRED while it is being carried out, and this read's.
(DEDUCED, log entry 79) -/
def statusByte (busy : Bool) (wr rd : Nat) : Byte := BitVec.ofNat 8 (16 * (if busy then 1 else wr) + rd)

/-- A read of the quad-SPI port: one access at least, even when CS_N rises while it is pending (R369).
(DEDUCED, log entry 79) -/
def qspiRead (a n : Nat) (s : State) : State :=
  let (b, s) := qspiBusy s
  let r := readSlots .qspi a (max n 1) s
  let d := (r.1.head?.map (·.1)).getD 0
  (r.2.emit (.status (statusByte b s.host.qspiDisp d))).emit (.resp .qspi d ((r.1.take n).map (·.2)) false)

/-- A write of the quad-SPI port, carried out after CS_N rises; without data bytes nothing is carried out, and one that comes
while the last is being carried out is ignored.
(DEDUCED, log entry 79) -/
def qspiWrite (a : Nat) (bs : List Byte) (s : State) : State :=
  if bs.isEmpty then s
  else
    let (b, s) := qspiBusy s
    if b then s
    else
      let r := writeBytes .qspi a (bs.take 256) s
      { r.2 with host := { r.2.host with qspiDisp := r.1, qspiPend := r.2.clocksOn } }

/-- The status command. -/
def qspiStatus (s : State) : State :=
  let (b, s) := qspiBusy s
  s.emit (.status (statusByte b s.host.qspiDisp 0))

/-- What a command byte asks for. -/
inductive QspiOp
  | read | write | status
  deriving DecidableEq, Repr

/-- The operation of a command byte, with the widths of its address and of its data (R365); other bytes name none. -/
def qspiOp (c : Nat) : Option (QspiOp × Nat × Nat) :=
  match c with
  | 0x0B => some (.read, 1, 1)
  | 0x6B => some (.read, 1, 4)
  | 0xEB => some (.read, 4, 4)
  | 0x02 => some (.write, 1, 1)
  | 0x32 => some (.write, 1, 4)
  | 0x38 => some (.write, 4, 4)
  | 0x05 => some (.status, 0, 1)
  | _ => none

/-- A transaction of the quad-SPI port: its command byte, address, slots to read and bytes written; a byte that names no command
is ignored until CS_N rises (R365). -/
def qspi (c a n : Nat) (bs : List Byte) (s : State) : State :=
  if !s.clocksOn then s
  else match qspiOp c with
    | some (.read, _) => qspiRead a n s
    | some (.write, _) => qspiWrite a bs s
    | some (.status, _) => qspiStatus s
    | none => s

/-! ### The management port (R334, R367) -/

/-- The 7-bit address of the port: 0b1100 and the straps. -/
def State.i2cAddr (s : State) : Nat := 0b1100000 + s.boot.straps.mgpaddr.val

/-- An address byte that matches: it wakes a part in DOZE, REST or KEEP, or on its way there; in REST and KEEP, and while the last
write is being carried out, it is not acknowledged (R333, R334, R367). -/
def i2cStart (a : BitVec 7) (f : State → State) (s : State) : State :=
  if a.toNat ≠ s.i2cAddr then s
  else if s.boot.phase = .rest ∨ s.boot.phase = .keep then (wake 0 s).emit .i2cNack
  else if s.clocksOn then
    let s := wake 0 s
    let (b, s) := stillRuns s.host.i2cPend s
    let s := { s with host := { s.host with i2cPend := b } }
    if b then s.emit .i2cNack else f s
  else s

/-- A write transaction; one without data sets the offset.
(DEDUCED, log entry 79) -/
def i2cWriteTo (o : Nat) (bs : List Byte) (s : State) : State :=
  let bs := bs.take 256
  let n := if bs.isEmpty then o else o / 8 * 8 + 8 * ((o % 8 + bs.length + 7) / 8)
  let r := if bs.isEmpty then (s.host.i2cDisp, s) else writeBytes .mgmt o bs s
  { r.2 with host := { r.2.host with i2cOff := n, i2cDisp := r.1, i2cPend := !bs.isEmpty && r.2.clocksOn } }

/-- A read transaction.
(DEDUCED, log entry 79) -/
def i2cReadFrom (n : Nat) (s : State) : State :=
  let o := s.host.i2cOff
  let r := readSlots .mgmt o (max n 1) s
  let d := (r.1.head?.map (·.1)).getD 0
  let t := (r.2.emit (.status (statusByte false s.host.i2cDisp d))).emit (.resp .mgmt d ((r.1.take n).map (·.2)) false)
  { t with host := { t.host with i2cOff := o / 8 * 8 + 8 * n } }

/-! ### JTAG (R368) -/

/-- The logic die is powered, so that its test port runs.
(DESIGN CHOICE, log entry 80) -/
def State.tapOn (s : State) : Bool := !(s.boot.phase == .rest || s.boot.phase == .keep || s.boot.phase == .off)

/-- Select a JTAG instruction: 0 EXTEST, 1 SAMPLE/PRELOAD, 2 IDCODE, 22 DBGACC, 31 BYPASS; only EXTEST drives the cells.
(DESIGN CHOICE, log entry 80) -/
def jtagSelect (ir : Nat) (f : State → State) (s : State) : State :=
  if !s.tapOn then s else f { s with host := { s.host with jtagIr := ir, drive := ir == 0 } }

/-- Send on TDO, which is high impedance while the part is in reset (R373). -/
def tdo (v : Nat) (s : State) : State := if s.column = .reset then s else s.emit (.jtag v)

/-- The 78-bit register of DBGACC as Capture-DR fills it: data and disposition of the last access, its WR and offset bits, and BUSY
(R368).
(DESIGN CHOICE, log entry 80) -/
def State.dbgWord (s : State) (busy : Bool) : Nat :=
  b2n busy * 2 ^ 77 + s.host.dbgDisp * 2 ^ 73 + s.host.dbgData.toNat * 2 ^ 25 + s.host.dbgReq

/-- An access of DBGACC: the registers of R107 alone, while SEC bit 4 is 1.
(DESIGN CHOICE, log entry 80) -/
def dbgaccess (wr : Bool) (off : Nat) (v : Word) (s : State) : State :=
  let fin := fun (d : Nat) (x : Word) (s : State) => { s with host := { s.host with dbgData := x, dbgDisp := d } }
  match hostPlace off with
  | .reg r i j =>
    if r.need i = .dbg ∧ s.mayDebug .jtag = true ∧ s.clocksOn = true then
      if wr then fin 0 v (writeReg .jtag r i j 0xFF (v.setWidth 64) s).st
      else
        let x := readReg .jtag r i j s
        fin 0 x.2.word x.1.st
    else fin 9 0 s
  | _ => fin 9 0 s

/-- A scan of DBGACC: Capture-DR shows the last access, and Update-DR starts one unless the last is still BUSY (R368).
(DESIGN CHOICE, log entry 80) -/
def dbgScan (wr : Bool) (a : BitVec 24) (v : Word) (s : State) : State :=
  let (b, s) := stillRuns s.host.dbgPend s
  let s := tdo (s.dbgWord b) { s with host := { s.host with dbgPend := b } }
  if b then s
  else
    let t := dbgaccess wr (8 * a.toNat) v s
    { t with host := { t.host with dbgPend := t.clocksOn, dbgReq := b2n wr + 2 * a.toNat } }

/-! ### Commands -/

/-- FUNCTION_LEVEL_RESET. -/
def execFunctionLevelReset (r : Fin 16) (s : State) : Host.Outcome State Fault Refusal :=
  done s (if s.host.pcieUp then resetPcieFn r s else s)
/-- PCIE_LINK_DOWN. -/
def execPcieLinkDown (s : State) : Host.Outcome State Fault Refusal := done s (pcieDown s)
/-- PCIE_LINK_UP.
(DESIGN CHOICE, log entries 89 and 114) -/
def execPcieLinkUp (s : State) : Host.Outcome State Fault Refusal := done s (pcieTrain s)
/-- MSIX_UNMASK.
(DEDUCED, log entry 53) -/
def execMsixUnmask (a : MsixAct) (s : State) : Host.Outcome State Fault Refusal := done s (msixAct a s)
/-- QSPI_READ_SINGLE: command 0x0B. -/
def execQspiReadSingle (a : BitVec 32) (n : Fin 33) (s : State) : Host.Outcome State Fault Refusal := done s (qspi 0x0B a.toNat n [] s)
/-- QSPI_READ_QUAD_DATA: command 0x6B. -/
def execQspiReadQuadData (a : BitVec 32) (n : Fin 33) (s : State) : Host.Outcome State Fault Refusal := done s (qspi 0x6B a.toNat n [] s)
/-- QSPI_READ_QUAD: command 0xEB. -/
def execQspiReadQuad (a : BitVec 32) (n : Fin 33) (s : State) : Host.Outcome State Fault Refusal := done s (qspi 0xEB a.toNat n [] s)
/-- QSPI_WRITE_SINGLE: command 0x02. -/
def execQspiWriteSingle (a : BitVec 32) (bs : List Byte) (s : State) : Host.Outcome State Fault Refusal := done s (qspi 0x02 a.toNat 0 bs s)
/-- QSPI_WRITE_QUAD_DATA: command 0x32. -/
def execQspiWriteQuadData (a : BitVec 32) (bs : List Byte) (s : State) : Host.Outcome State Fault Refusal := done s (qspi 0x32 a.toNat 0 bs s)
/-- QSPI_WRITE_QUAD: command 0x38. -/
def execQspiWriteQuad (a : BitVec 32) (bs : List Byte) (s : State) : Host.Outcome State Fault Refusal := done s (qspi 0x38 a.toNat 0 bs s)
/-- QSPI_STATUS: command 0x05, the status byte with bits 3:0 zero. -/
def execQspiStatus (s : State) : Host.Outcome State Fault Refusal :=
  done s (qspi 0x05 0 0 [] s)
/-- I2C_WRITE. -/
def execI2cWrite (a : BitVec 7) (o : BitVec 32) (bs : List Byte) (s : State) : Host.Outcome State Fault Refusal :=
  done s (i2cStart a (i2cWriteTo o.toNat bs) s)
/-- I2C_READ. -/
def execI2cRead (a : BitVec 7) (n : Fin 33) (s : State) : Host.Outcome State Fault Refusal := done s (i2cStart a (i2cReadFrom n) s)
/-- JTAG_BYPASS: the bypass register captures 0. -/
def execJtagBypass (s : State) : Host.Outcome State Fault Refusal := done s (jtagSelect 31 (tdo 0) s)
/-- JTAG_IDCODE. -/
def execJtagIdcode (s : State) : Host.Outcome State Fault Refusal := done s (jtagSelect 2 (tdo 0x14812C6D) s)
/-- JTAG_SAMPLE_PRELOAD: the cells sample the pins, and the update latches take what is shifted in. -/
def execJtagSamplePreload (pins load : List Bool) (s : State) : Host.Outcome State Fault Refusal :=
  done s (jtagSelect 1 (fun s => { s with host := { s.host with cells := pins, preload := load } }) s)
/-- JTAG_EXTEST: the preloaded cells drive. -/
def execJtagExtest (s : State) : Host.Outcome State Fault Refusal := done s (jtagSelect 0 id s)
/-- DBGACC. -/
def execDbgacc (wr : Bool) (a : BitVec 24) (v : Word) (s : State) : Host.Outcome State Fault Refusal :=
  done s (jtagSelect 22 (dbgScan wr a v) s)

end Sys2Proof.Machine
end

