-- ==== Sys2Proof/Machine/Flags.lean ====
section
/-! DEFINITION. The arithmetic of the engines' instructions and the carry they leave: sums, differences, shifts (R75, R76),
bit fields (R77) and CRC steps (R78). All of it works on 48 bits. -/

namespace Sys2Proof.Machine

/-- A result with the carry that the instruction writes. -/
abbrev Res := Word × Bool

/-- t + s + c, and the carry out (R75). -/
def addC (t s : Word) (c : Bool) : Res :=
  let r := t.toNat + s.toNat + c.toNat
  (BitVec.ofNat 48 r, decide (2 ^ 48 ≤ r))

/-- t − s − c, and the borrow (R75). -/
def subC (t s : Word) (c : Bool) : Res :=
  (t - s - (if c then 1 else 0), decide (t.toNat < s.toNat + c.toNat))

/-- SHL by c = 0 to 63 (R76). -/
def shlC (t : Word) (c : Nat) (cy : Bool) : Res :=
  if c = 0 then (t, cy) else if c ≤ 48 then (t <<< c, t.getLsbD (48 - c)) else (0, false)

/-- SHR (R76). -/
def shrC (t : Word) (c : Nat) (cy : Bool) : Res :=
  if c = 0 then (t, cy) else if c ≤ 48 then (t >>> c, t.getLsbD (c - 1)) else (0, false)

/-- SAR (R76). -/
def sarC (t : Word) (c : Nat) (cy : Bool) : Res :=
  if c = 0 then (t, cy) else if c ≤ 48 then (t.sshiftRight c, t.getLsbD (c - 1)) else (t.sshiftRight 48, t.msb)

/-- ROL (R76). -/
def rolC (t : Word) (c : Nat) (cy : Bool) : Res :=
  let k := c % 48
  let r := t <<< k ||| t >>> (48 - k)
  if k = 0 then (t, cy) else (r, r.getLsbD 0)

/-- Field position and width of BFX and BFI: s[5:0] and s[11:6]; illegal values have none (R77). -/
def fieldOf (s : Word) : Option (Nat × Nat) :=
  let p := s.toNat % 64
  let w := s.toNat / 64 % 64
  if p ≥ 48 ∨ w = 0 ∨ w > 48 then none else some (p, w)

/-- BFX (R77). -/
def bfx (t : Word) (p w : Nat) : Word := BitVec.ofNat 48 (t.toNat / 2 ^ p % 2 ^ w)

/-- BFI (R77). -/
def bfi (t x : Word) (p w : Nat) : Word :=
  let m : Word := BitVec.ofNat 48 ((2 ^ w - 1) * 2 ^ p)
  (t &&& ~~~m) ||| (BitVec.ofNat 48 (x.toNat * 2 ^ p) &&& m)

/-- Byte `k` of a word. -/
def wbyte (t : Word) (k : Nat) : Nat := t.toNat / 2 ^ (8 * k) % 256

/-- A word from its bytes, the first in bits 7:0. -/
def ofBytes (bs : List Nat) : Word := BitVec.ofNat 48 (bs.foldr (fun b n => b + 256 * n) 0)

/-- BSW by s[2:0]; 3 to 7 are illegal (R77). -/
def bsw (t : Word) (k : Nat) : Option Word :=
  let b := wbyte t
  match k with
  | 0 => some (ofBytes [b 5, b 4, b 3, b 2, b 1, b 0])
  | 1 => some (ofBytes [b 1, b 0, b 3, b 2, b 5, b 4])
  | 2 => some (ofBytes [b 3, b 2, b 1, b 0])
  | _ => none

/-- The number of ones in a word. -/
def popc (t : Word) : Nat := ((List.range 48).filter t.getLsbD).length

/-- One bit of a reflected CRC step with polynomial `p`, bits least significant first (R78). -/
def crcBitR (p c b : Nat) : Nat := if (c ^^^ b) % 2 = 1 then c / 2 ^^^ p else c / 2

/-- One bit of a CRC-16 step, REFL = 0 (R78). -/
def crc16Bit (p c b : Nat) : Nat :=
  if (c / 2 ^ 15 ^^^ b) % 2 = 1 then c * 2 % 2 ^ 16 ^^^ p else c * 2 % 2 ^ 16

/-- A CRC-32C step over one byte. -/
def crc32Byte (c b : Nat) : Nat := (List.range 8).foldl (fun c k => crcBitR 0x82F63B78 c (b / 2 ^ k % 2)) c

/-- The bits of a 16-bit number reversed. -/
def rev16 (p : Nat) : Nat := ((List.range 16).map fun k => p / 2 ^ k % 2 * 2 ^ (15 - k)).sum

/-- A CRC-16 step over one byte under CRCP (R78). -/
def crc16Byte (crcp : BitVec 17) (c b : Nat) : Nat :=
  let p := crcp.toNat % 2 ^ 16
  if crcp.msb then (List.range 8).foldl (fun c k => crcBitR (rev16 p) c (b / 2 ^ k % 2)) c
  else (List.range 8).foldl (fun c k => crc16Bit p c (b / 2 ^ (7 - k) % 2)) c

/-- CRC32B and CRC32W over the first `n` bytes of s. -/
def crc32Step (t s : Word) (n : Nat) : Word :=
  BitVec.ofNat 48 ((List.range n).foldl (fun c k => crc32Byte c (wbyte s k)) (t.toNat % 2 ^ 32))

/-- CRC16B and CRC16W. -/
def crc16Step (crcp : BitVec 17) (t s : Word) (n : Nat) : Word :=
  BitVec.ofNat 48 ((List.range n).foldl (fun c k => crc16Byte crcp c (wbyte s k)) (t.toNat % 2 ^ 16))

end Sys2Proof.Machine
end

