-- ==== Sys2Proof/Machine/Engine.lean ====
section
/-! DEFINITION. Running an engine (chapters 04 and 05): when an instruction issues, how it completes or faults, the operations
that the instructions share, interrupt points, and the waits. The effect of each instruction stands in Insns.lean. -/

namespace Sys2Proof.Machine

/-! ### Interrupt points (R97, R103) -/

/-- The engine's clocks run and no debugger holds it. -/
def State.engRuns (s : State) (e : Nat) : Bool := s.clocksOn && s.awake (e / 8) && !s.on F.dbgStat_HALTED (e / 8) (e % 8)

/-- The pending and enabled interrupts of an engine. -/
def State.irqs (s : State) (e : Nat) : Nat := s.fld F.eirq_PEND (e / 8) (e % 8) &&& s.fld F.eirq_EN (e / 8) (e % 8)

/-- The asynchronous causes in the order of R97. -/
inductive Async
  | halt | stop | quantum | irq (n : Nat)
  deriving DecidableEq, Repr

/-- The asynchronous cause that is taken at this point; none between a branch and its delay slot (R103).
(DEDUCED, log entry 21) -/
def State.asyncDue (s : State) (e : Nat) : Option Async :=
  let x := s.e e
  if x.slot.isSome && x.wait.isNone then none
  else if x.haltReq then some .halt
  else if x.exl then none
  else if x.stopPend then some .stop
  else if s.quantumDue e then some .quantum
  else if x.psw.getLsbD 2 then ((List.range 16).find? (s.irqs e).testBit).map .irq
  else none

/-- An unpassed breakpoint holds the instruction at PC: it matches PC, the delay slot of the branch at PC, or the instruction
that the REP at PC repeats (R109).
(DEDUCED, log entry 21) -/
def State.atBreak (s : State) (e : Nat) : Bool :=
  let x := s.e e
  let i := insnOf (s.peek e x.pc.toNat) 0
  s.on F.dbgCtl_BPEN (e / 8) (e % 8) && !x.bpPass && x.slot.isNone && x.wait.isNone
    && (s.fld F.dbgBp_ADDR (e / 8) (e % 8) == x.pc.toNat
      || ((i.hasSlot || i.op == 0x31) && s.fld F.dbgBp_ADDR (e / 8) (e % 8) == (x.pc.toNat + i.len) % 65536))

/-- The instruction at PC issues now.
(DESIGN CHOICE, log entry 8) -/
def State.mayIssue (s : State) (e : Nat) : Bool :=
  s.engRuns e && (s.e e).wait.isNone && (s.asyncDue e).isNone && !s.atBreak e

/-! ### Issue and completion -/

/-- What an instruction comes to: it completes and control goes on, or it goes to an address; it faults with class and
detail; or it has settled everything itself. -/
inductive Eff
  | next (s : State)
  | goto (a : BitVec 16) (s : State)
  | trap (cls det : Nat) (s : State)
  | hold (s : State)

/-- The effect of an instruction on its engine and the part. -/
abbrev Body := Insn → Fin 128 → State → Eff

/-- An instruction of `len` slots at PC occupies LE (R81).
(DEDUCED, log entry 16) -/
def Eng.occupiesLE (x : Eng) (len : Nat) : Bool := x.pc == x.le || (len == 2 && x.pc + 1 == x.le)

/-- The index of the mode goes on by one word after an iteration of a repeat (R85).
(DEDUCED, log entry 17) -/
def Eng.stepIndex (x : Eng) (mode : Nat) : Eng :=
  if mode = 3 ∨ mode = 5 then { x with x := x.x + 1 } else if mode = 4 then { x with y := x.y + 1 } else x

/-- An iteration of a REPI completes (R84, R85): at LC = 0 control goes on to `next`.
(DEDUCED, log entry 16) -/
def Eng.endIteration (x : Eng) (mode : Nat) (next : BitVec 16) : Eng :=
  let y := x.stepIndex mode
  if y.lc - 1 = 0 then { y with lc := 0, psw := y.psw &&& 0x1F, pc := next, nxt := none, slot := none, wait := none }
  else { y with lc := y.lc - 1, wait := none }

/-- An instruction of `len` slots completes outside a repeat: the loop decision of R81, else control goes on to `next`. -/
def Eng.endInsn (x : Eng) (len : Nat) (next : BitVec 16) : Eng :=
  let y := { x with slot := none, nxt := none, wait := none }
  if x.la && x.occupiesLE len then
    if x.lc - 1 ≠ 0 then { y with lc := x.lc - 1, pc := x.ls }
    else { y with lc := 0, psw := x.psw &&& 0x2F, pc := x.pc + BitVec.ofNat 16 len }
  else { y with pc := next }

/-- The instruction at PC completes (R81, R84, R85, R100). An MTSR to PSW at LE is judged by the LA it wrote.
(DEDUCED, log entries 15 and 16; DESIGN CHOICE, log entry 94) -/
def finishInsn (e : Nat) (i : Insn) (s : State) : State :=
  if !(s.clocksOn && s.awake (e / 8)) then s
  else
    let x := s.e e
    let next := x.nxt.getD (x.pc + BitVec.ofNat 16 i.len)
    s.setE e (if x.ra then x.endIteration i.mode next else x.endInsn i.len next)

/-- A debug step ends: the engine halts again (R109).
(DEDUCED, log entry 15) -/
def endStep (e : Nat) (s : State) : State :=
  let x := s.e e
  if x.stepReq && x.slot.isNone && x.wait.isNone && s.engRuns e then haltEngine e 2 s else s

/-- What an effect leaves. -/
def settle (i : Insn) (e : Fin 128) (r : Eff) : State :=
  endStep e (match r with
    | .next s => finishInsn e i s
    | .goto a s => s.setE e { s.e e with pc := a, nxt := none, slot := none }
    | .trap cls det s => faultAt e cls det s
    | .hold s => s)

/-- Fetch the slot at an instruction address (R110); none where its word is uncorrectable. -/
def fetchSlot (e a : Nat) (s : State) : Option Nat × State :=
  let r := memRead (codePlace e a) s
  (if r.1.bad then none else some (slotOf r.1.word a), r.2)

/-- The instruction at PC may not run where it stands: its form (R74), a delay slot (R79), the end of a loop (R82), a repeat
(R83, R84). -/
def State.misplaced (s : State) (e : Nat) (i : Insn) : Bool :=
  let x := s.e e
  !i.formOk || (x.slot.isSome && (i.control || i.mode == 7))
    || (x.la && x.occupiesLE i.len && (i.control || x.slot.isSome))
    || (x.ra && (i.noRepeat || i.mode == 7))

/-- Fetch the instruction at PC with its value slot (R67, R110); none where a word is uncorrectable.
(DESIGN CHOICE, log entry 8) -/
def fetchInsn (e : Nat) (s : State) : Option Insn × State :=
  let f := fetchSlot e (s.e e).pc.toNat s
  match f.1 with
  | none => (none, f.2)
  | some w =>
    if insnMode w = 7 then
      let v := fetchSlot e ((s.e e).pc.toNat + 1) f.2
      (v.1.map (insnOf w), v.2)
    else (some (insnOf w 0), f.2)

/-- The breakpoint at PC, if any, is passed (R109). -/
def passBreak (e : Nat) (s : State) : State := s.setE e { s.e e with bpPass := false }

/-- A REPI whose LC is 0 runs no iteration: RA clears and control goes on (R84). -/
def skipRepeat (e : Nat) (s : State) : State :=
  s.setE e { s.e e with psw := (s.e e).psw &&& 0x1F, pc := (s.e e).nxt.getD ((s.e e).pc + 1), nxt := none }

/-- Fetch and run the instruction at PC with the effect `b`, its breakpoint passed. -/
def runFetched (e : Fin 128) (b : Body) (s : State) : State :=
  match fetchInsn e s with
  | (none, s) => endStep e (faultAt e 1 1 s)
  | (some i, s) => if s.misplaced e i then endStep e (faultAt e 2 0 s) else settle i e (b i e s)

/-- The instruction at PC runs with the effect `b`.
(DESIGN CHOICE, log entries 8 and 88) -/
def runInsn (e : Fin 128) (b : Body) (s : State) : State :=
  let s := passBreak e s
  if (s.e e).ra && (s.e e).lc == 0 then endStep e (skipRepeat e s) else runFetched e b s

/-- The row of opcode `op`: it acts where the engine issues an instruction and PC holds that opcode. -/
def issue (e : Fin 128) (op : Nat) (b : Body) (s : State) : State :=
  if s.mayIssue e && insnOp (s.peek e (s.e e).pc.toNat) == op then runInsn e b s else s

/-! ### Shared operations of the instructions -/

/-- Read the word at an engine word address (R68, R72).
(DEDUCED, log entry 26) -/
def loadThen (e : Fin 128) (a : Nat) (s : State) (k : Word → State → Eff) : Eff :=
  let r := busRead (.engine e) 0 (engPlace e a) s
  if r.1.disp = 9 then .trap r.1.cls r.1.det r.1.st
  else if r.2.bad then .trap 1 0 r.1.st
  else k r.2.word r.1.st

/-- Form the operand (R68) and go on with it.
(DEDUCED, log entry 26) -/
def withOperand (i : Insn) (e : Fin 128) (s : State) (k : Word → State → Eff) : Eff :=
  if i.mode = 0 ∨ i.mode = 6 ∨ i.mode = 7 then k (i.plain (s.e e)) s else loadThen e (i.addr (s.e e)) s k

/-- Write the target register (R73). -/
def putT (i : Insn) (e : Nat) (v : Word) (s : State) : State := s.setE e ((s.e e).setReg i.tgt v)

/-- t := f t s, C unchanged. -/
def valueOp (f : Word → Word → Word) (i : Insn) (e : Fin 128) (s : State) : Eff :=
  withOperand i e s fun v s => .next (putT i e (f ((s.e e).reg i.tgt) v) s)

/-- t := f t s C, with the carry it leaves (R75, R76). -/
def carryOp (f : Word → Word → Bool → Res) (i : Insn) (e : Fin 128) (s : State) : Eff :=
  withOperand i e s fun v s =>
    let r := f ((s.e e).reg i.tgt) v (s.e e).carry
    .next (s.setE e (((s.e e).setReg i.tgt r.1).setCarry r.2))

/-- t := f t s, or illegal, with nothing changed, where `f` gives none (R74, R77). -/
def partOp (f : Eng → Word → Word → Option Word) (i : Insn) (e : Fin 128) (s : State) : Eff :=
  withOperand i e s fun v t =>
    match f (t.e e) ((t.e e).reg i.tgt) v with
    | some r => .next (putT i e r t)
    | none => .trap 2 0 s

/-- A comparison: 1 or 0. -/
def cmpOp (f : Word → Word → Bool) : Insn → Fin 128 → State → Eff := valueOp fun t v => if f t v then 1 else 0

/-- Store a word at an engine word address (R72). -/
def storeThen (e : Fin 128) (a : Nat) (v : Word) (s : State) (k : State → Eff) : Eff :=
  let r := busWrite (.engine e) 0 (engPlace e a) 0xFF (v.setWidth 64) s
  if r.disp = 9 then .trap r.cls r.det r.st else k r.st

/-- XCH and FADD on a word that is not in a loft (R72, R73, R97): access-denied comes before the bus error.
(DEDUCED, log entry 24) -/
def notLoft (e : Fin 128) (a : Nat) (s : State) : Eff :=
  let p := engPlace e a
  let r := (busRead (.engine e) 0 p s).1
  let w := busWrite (.engine e) 0 p 0xFF 0 s
  if r.disp = 9 ∧ r.cls = 5 then .trap 5 r.det r.st
  else if w.disp = 9 ∧ w.cls = 5 then .trap 5 w.det w.st
  else if r.disp = 9 then .trap 6 1 s
  else .trap 6 3 s

/-- XCH and FADD: the word becomes f old t, and t the old word, indivisibly (R72, R73); a word that the engine may not write is
refused before it is read (R97).
(DEDUCED, log entry 24) -/
def atomicOp (f : Word → Word → Word) (i : Insn) (e : Fin 128) (s : State) : Eff :=
  let a := i.addr (s.e e)
  match engPlace e a with
  | .loft n b =>
    let u := awaitDrain (.engine e) n b s
    if !u.mayLoft (.engine e) n b || u.inpassWord n b then .trap 5 1 (countDeny n u)
    else
      let r := memRead (loftPlace n b) u
      if r.1.bad then .trap 1 0 r.2
      else .next (putT i e r.1.word (memWrite (loftPlace n b) (f r.1.word ((r.2.e e).reg i.tgt)) r.2))
  | _ => notLoft e a s

/-- The destination of a branch or JSR whose delay slot stands at `slot` (R79). -/
def withDest (i : Insn) (e : Fin 128) (s : State) (k : BitVec 16 → State → Eff) : Eff :=
  if i.mode = 0 then k ((s.e e).pc + 1 + BitVec.ofInt 16 (toSigned 12 i.opnd)) s
  else withOperand i e s fun v s => k (v.setWidth 16) s

/-- The destination lies outside LS–LE (R82).
(DEDUCED, log entry 15) -/
def Eng.leavesLoop (x : Eng) (dest : BitVec 16) : Bool := x.le - x.ls < dest - x.ls

/-- Control passes to the delay slot, and from there to the destination where the branch is taken (R79); a taken BZ, BNZ or
BRA out of the loop ends it (R82). -/
def toSlot (i : Insn) (e : Nat) (taken : Bool) (dest : BitVec 16) (s : State) : State :=
  let x := s.e e
  let ends := taken && x.la && i.op != 0x2B && i.op != 0x2C && x.leavesLoop dest
  s.setE e { x with pc := x.pc + BitVec.ofNat 16 i.len, slot := some x.pc, nxt := if taken then some dest else none
                    psw := if ends then x.psw &&& 0x2F else x.psw }

/-- BZ, BNZ and BRA: branch where the target register meets `p`. -/
def branchOp (p : Word → Bool) (i : Insn) (e : Fin 128) (s : State) : Eff :=
  withDest i e s fun d s => .hold (toSlot i e (p ((s.e e).reg i.tgt)) d s)

/-- What a current task's end brings for a function that is being reset (R58). Without a current task nothing ends (R92). -/
def endCurrent (e : Nat) (s : State) : State :=
  if (s.e e).tv then noteStopped (s.e e).fn (endTask e false s) else s

/-- The next task for an engine in TNEXT (R91, R117, R118), stale ones purged. -/
def nextTask (e : Nat) (s : State) : Option Found × State :=
  let s := purgeStale s
  (s.findTask e, s)

/-- The engine waits; PC stays at the waiting instruction (R87, R89, R91). -/
def waitIn (e : Nat) (w : Wait) (s : State) : State := s.setE e { s.e e with wait := some w }

/-- The shared bits of EV and a mask are written to the target and cleared in EV; TASK stays while the deque holds a task
(R86, R87). -/
def consume (mask : BitVec 16) (tgt e : Nat) (s : State) : State :=
  let x := s.e e
  let sh := x.ev &&& mask
  let y := x.setReg tgt (sh.setWidth 48)
  s.setE e { y with ev := if y.deque.isEmpty then y.ev &&& ~~~sh else (y.ev &&& ~~~sh) ||| 0x8000 }

/-- A wait ends: the waiting instruction, still at PC, completes. -/
def endWait (e : Nat) (s : State) : State :=
  endStep e (finishInsn e (insnOf (s.peek e (s.e e).pc.toNat) 0) (s.setE e { s.e e with wait := none }))

/-- The engines that a SEV operand names: one, or a whole stable (R88); none for an illegal one. -/
def sevTargets (v : Nat) : Option (List Nat) :=
  if v % 16 ≥ 13 then none
  else if v / 2048 % 2 = 0 then some [v / 16 % 128]
  else if v / 16 % 8 ≠ 0 then none
  else some (enginesOf (v / 128 % 16))

/-- The instruction that a REP or REPI at PC repeats: its address, and its fields.
(DEDUCED, log entry 85) -/
def State.repeated (s : State) (e : Nat) (len : Nat) : BitVec 16 × Insn :=
  let a := (s.e e).nxt.getD ((s.e e).pc + BitVec.ofNat 16 len)
  (a, insnOf (s.peek e a.toNat) 0)

/-- The code word that holds an address is uncorrectable. -/
def State.codeBad (s : State) (e a : Nat) : Bool := (readCode (s.raw (codePlace e a))).bad

/-- An instruction that a REP may repeat (R83): a mode of 0, 1, 5 and 6, at most 3 cycles, not one of the listed. MUL takes 4,
and SEV takes 2 to the own stable alone.
(DEDUCED, log entry 18) -/
def State.repOk (s : State) (e : Nat) (i : Insn) : Bool :=
  (formOf i.op).isSome && !i.noRepeat && [0, 1, 5, 6].contains i.mode && i.op != 0x0F
    && (i.op != 0x35 || match sevTargets (i.plain (s.e e)).toNat with
      | some es => es.all (· / 8 == e / 8)
      | none => true)

/-- An instruction that a REPI may repeat (R84).
(DEDUCED, log entry 18) -/
def Insn.repiOk (i : Insn) : Bool := (formOf i.op).isSome && !i.noRepeat && i.mode != 7

/-- `n` iterations of a REP (R83, R85).
(DEDUCED, log entry 18) -/
def repLoop (i : Insn) (b : Body) (e : Fin 128) : Nat → State → Eff
  | 0, s => .next s
  | n + 1, s => match b i e s with
    | .next t => repLoop i b e n (t.setE e ((t.e e).stepIndex i.mode))
    | r => r

end Sys2Proof.Machine
end

