-- ==== Sys2Proof/Machine/Insns.lean ====
section
/-! DEFINITION. The engines' instructions (R73) and what happens at their interrupt points: one effect for each row. -/

namespace Sys2Proof.Machine

/-! ### Effects -/

/-- NOP: none.
(DEDUCED, log entry 17) -/
def effNop : Body := fun _ _ s => .next s
/-- LD: t := s. -/
def effLd : Body := valueOp fun _ v => v
/-- ST: word := t. -/
def effSt : Body := fun i e s => storeThen e (i.addr (s.e e)) ((s.e e).reg i.tgt) s .next
/-- XCH: t and the word exchanged. -/
def effXch : Body := atomicOp fun _ t => t
/-- FADD: word := old + t; t := old. -/
def effFadd : Body := atomicOp fun old t => old + t
/-- ADD. -/
def effAdd : Body := carryOp fun t v _ => addC t v false
/-- ADC. -/
def effAdc : Body := carryOp addC
/-- SUB. -/
def effSub : Body := carryOp fun t v _ => subC t v false
/-- SBC. -/
def effSbc : Body := carryOp subC
/-- AND. -/
def effAnd : Body := valueOp fun t v => t &&& v
/-- OR. -/
def effOr : Body := valueOp fun t v => t ||| v
/-- XOR. -/
def effXor : Body := valueOp fun t v => t ^^^ v
/-- MUL: A:X := t × s, unsigned, A high. -/
def effMul : Body := fun i e s => withOperand i e s fun v s =>
  let p := ((s.e e).reg i.tgt).toNat * v.toNat
  .next (s.setE e { s.e e with a := BitVec.ofNat 48 (p / 2 ^ 48), x := BitVec.ofNat 48 p })
/-- SHL. -/
def effShl : Body := carryOp fun t v c => shlC t (v.toNat % 64) c
/-- SHR. -/
def effShr : Body := carryOp fun t v c => shrC t (v.toNat % 64) c
/-- SAR. -/
def effSar : Body := carryOp fun t v c => sarC t (v.toNat % 64) c
/-- ROL. -/
def effRol : Body := carryOp fun t v c => rolC t (v.toNat % 64) c
/-- BFX (R77). -/
def effBfx : Body := partOp fun _ t v => (fieldOf v).map fun pw => bfx t pw.1 pw.2
/-- BFI (R77). -/
def effBfi : Body := partOp fun x t v => (fieldOf v).map fun pw => bfi t x.x pw.1 pw.2
/-- BSW (R77). -/
def effBsw : Body := partOp fun _ t v => bsw t (v.toNat % 8)
/-- POPC. -/
def effPopc : Body := valueOp fun _ v => BitVec.ofNat 48 (popc v)
/-- CMPEQ. -/
def effCmpeq : Body := cmpOp (· == ·)
/-- CMPNE. -/
def effCmpne : Body := cmpOp (· != ·)
/-- CMPLT. -/
def effCmplt : Body := cmpOp BitVec.slt
/-- CMPLTU. -/
def effCmpltu : Body := cmpOp BitVec.ult
/-- CMPGE. -/
def effCmpge : Body := cmpOp fun t v => !t.slt v
/-- CMPGEU. -/
def effCmpgeu : Body := cmpOp fun t v => !t.ult v
/-- CRC32B (R78). -/
def effCrc32b : Body := valueOp fun t v => crc32Step t v 1
/-- CRC32W. -/
def effCrc32w : Body := valueOp fun t v => crc32Step t v 6
/-- CRC16B, under CRCP. -/
def effCrc16b : Body := fun i e s => withOperand i e s fun v s =>
  .next (putT i e (crc16Step (s.e e).crcp ((s.e e).reg i.tgt) v 1) s)
/-- CRC16W. -/
def effCrc16w : Body := fun i e s => withOperand i e s fun v s =>
  .next (putT i e (crc16Step (s.e e).crcp ((s.e e).reg i.tgt) v 6) s)
/-- BZ. -/
def effBz : Body := branchOp (· == 0)
/-- BNZ. -/
def effBnz : Body := branchOp (· != 0)
/-- BRA. -/
def effBra : Body := branchOp fun _ => true
/-- JSR: the stack check, then the push and the branch (R80).
(DEDUCED, log entry 25) -/
def effJsr : Body := fun i e s =>
  let sp := (s.e e).sp
  if sp = 0 ∨ sp - 1 < (s.e e).splim then .trap 4 0 s
  else withDest i e s fun d s =>
    let ret := (s.e e).pc + BitVec.ofNat 16 i.len + 1
    let s := memWrite (privPlace e (sp - 1).toNat) (ret.setWidth 48) s
    .hold (toSlot i e true d (s.setE e { s.e e with sp := sp - 1 }))
/-- RTS: the pop and the jump (R80).
(DEDUCED, log entry 25) -/
def effRts : Body := fun i e s =>
  let r := memRead (privPlace e (s.e e).sp.toNat) s
  if r.1.bad then .trap 1 2 r.2
  else .hold (toSlot i e true (r.1.word.setWidth 16) (r.2.setE e { r.2.e e with sp := (r.2.e e).sp + 1 }))
/-- TRAP: the trap exception with code s[7:0]; EPC is the next instruction (R97, R98). -/
def effTrap : Body := fun i e s =>
  let epc := s.afterPc e
  .hold (takeException e 7 (i.plain (s.e e)).toNat true epc (epc + BitVec.ofNat 16 (insnLen (s.peek e epc.toNat))) s)
/-- RTE, privileged (R94, R100). -/
def effRte : Body := fun _ e s => if s.engSup e then .hold (returnFrom e s) else .trap 3 0 s
/-- LPB (R81, R82). -/
def effLpb : Body := fun i e s =>
  let x := s.e e
  let len := toSigned 12 i.opnd
  if x.la ∨ len < 1 then .trap 2 0 s
  else
    let ls := x.pc + 1
    let le := ls + BitVec.ofNat 16 len.toNat - 1
    let lc : BitVec 24 := (x.reg i.tgt).setWidth 24
    let y := { x with ls := ls, le := le, lc := lc }
    if lc = 0 then .goto (le + 1) (s.setE e y) else .goto (x.nxt.getD ls) (s.setE e { y with psw := y.psw ||| 0x10 })
/-- SEV (R88). -/
def effSev : Body := fun i e s =>
  let v := (i.plain (s.e e)).toNat
  match sevTargets v with
  | none => .trap 2 0 s
  | some es =>
    if !s.engSup e && !(es.all fun k => s.inAffinity (s.engFn e) (k / 8)) then .trap 5 4 s
    else .next (es.foldl (fun s k => setEv k (v % 16) s) s)
/-- TKR (R89). -/
def effTkr : Body := fun i e s => .next (putT i e (BitVec.ofNat 48 s.tk) s)
/-- The effects that a REP may repeat (R83).
(DEDUCED, log entry 18) -/
def repeatable (op : Nat) : Body :=
  match op with
  | 0x01 => effLd
  | 0x02 => effSt
  | 0x08 => effAdd
  | 0x09 => effAdc
  | 0x0A => effSub
  | 0x0B => effSbc
  | 0x0C => effAnd
  | 0x0D => effOr
  | 0x0E => effXor
  | 0x10 => effShl
  | 0x11 => effShr
  | 0x12 => effSar
  | 0x13 => effRol
  | 0x14 => effBfx
  | 0x15 => effBfi
  | 0x16 => effBsw
  | 0x17 => effPopc
  | 0x18 => effCmpeq
  | 0x19 => effCmpne
  | 0x1A => effCmplt
  | 0x1B => effCmpltu
  | 0x1C => effCmpge
  | 0x1D => effCmpgeu
  | 0x20 => effCrc32b
  | 0x21 => effCrc32w
  | 0x22 => effCrc16b
  | 0x23 => effCrc16w
  | 0x35 => effSev
  | 0x37 => effTkr
  | _ => effNop
/-- REP: the next instruction, s times, in one (R83, R85); the loop decision once.
(DEDUCED, log entry 18) -/
def effRep : Body := fun i e s =>
  let n := (i.plain (s.e e)).toNat
  let r := s.repeated e 1
  let t := s.setE e { s.e e with pc := r.1, nxt := none }
  if n > 64 then .trap 2 0 s
  else if s.codeBad e r.1.toNat then
    (if n = 0 then .hold (finishInsn e (insnOf 0 0) t) else .trap 1 1 (fetchSlot e r.1.toNat t).2)
  else if !s.repOk e r.2 then .trap 2 0 s
  else if n = 0 then .hold (finishInsn e r.2 t)
  else if !r.2.formOk then .trap 2 0 t
  else match repLoop r.2 (repeatable r.2.op) e n (fetchSlot e r.1.toNat t).2 with
    | .next u => .hold (finishInsn e r.2 u)
    | r => r
/-- REPI: LC := s and RA; the iterations are the commands that follow (R84). -/
def effRepi : Body := fun i e s =>
  let v := i.plain (s.e e)
  let r := s.repeated e i.len
  if (s.e e).la ∨ v.toNat ≥ 2 ^ 24 then .trap 2 0 s
  else if !s.codeBad e r.1.toNat && !r.2.repiOk then .trap 2 0 s
  else
    let x := { s.e e with lc := v.setWidth 24 }
    if v = 0 then .goto (r.1 + 1) (s.setE e x) else .goto r.1 (s.setE e { x with psw := x.psw ||| 0x20 })
/-- WFE (R87).
(DEDUCED, log entry 27) -/
def effWfe : Body := fun i e s =>
  let mask : BitVec 16 := (i.plain (s.e e)).setWidth 16
  if mask = 0 then .trap 2 0 s
  else if (s.e e).ev &&& mask = 0 then .hold (waitIn e (.wfe mask i.tgt) s)
  else .next (consume mask i.tgt e s)
/-- WUNT (R89).
(DEDUCED, log entry 28) -/
def effWunt : Body := fun i e s => withOperand i e s fun v s =>
  let d := sdiff 32 s.tk (v.toNat % 2 ^ 32)
  if d < 0 then .hold (waitIn e (.wunt (v.toNat % 2 ^ 32) i.tgt) s)
  else
    let s := putT i e (BitVec.ofInt 48 d) s
    .next (if d > 0 then s.setE e { s.e e with psw := (s.e e).psw ||| 2 } else s)
/-- TPUSH: t := the disposition (R90, R115).
(DEDUCED, log entry 29) -/
def effTpush : Body := fun i e s =>
  let r := pushTask (some e) { w0 := (s.e e).a, w1 := (s.e e).x } s
  .next (putT i e (BitVec.ofNat 48 r.1) r.2)
/-- TNEXT (R91).
(DEDUCED, log entry 29) -/
def effTnext : Body := fun i e s =>
  let r := nextTask e (endCurrent e s)
  match r.1 with
  | some x => .next (giveTask e x r.2)
  | none =>
    let t := r.2.setE e { r.2.e e with tv := false, fn := 0 }
    if i.opnd = 1 then .next (t.setE e { t.e e with a := 0, x := 0 }) else .hold (waitIn e .tnext t)
/-- TDONE (R92).
(DEDUCED, log entry 29) -/
def effTdone : Body := fun _ e s => .next (endCurrent e s)
/-- MFSR: t := special register s[4:0]; 12 to 31 are reserved (R64, R65). -/
def effMfsr : Body := fun i e s =>
  match (s.e e).special e (i.opnd % 32) with
  | some v => .next (putT i e v s)
  | none => .trap 2 0 s
/-- MTSR: special register s[4:0] := t (R65). -/
def effMtsr : Body := fun i e s =>
  let n := i.opnd % 32
  let v := (s.e e).reg i.tgt
  if n ≥ 11 then .trap 2 0 s
  else if s.engSup e then .next (s.setE e ((s.e e).setSpecial n v))
  else if n = 0 then .next (s.setE e ((s.e e).setPswTask v))
  else if 4 ≤ n ∧ n ≤ 9 then .trap 3 0 s
  else .next (s.setE e ((s.e e).setSpecial n v))

/-! ### Commands: the instructions -/

/-- NOP (opcode 0x00).
(DESIGN CHOICE, log entry 8) -/
def execNop (e : Fin 128) (s : State) : Host.Outcome State Fault Refusal := done s (issue e 0x00 effNop s)
/-- LD (opcode 0x01). -/
def execLd (e : Fin 128) (s : State) : Host.Outcome State Fault Refusal := done s (issue e 0x01 effLd s)
/-- ST (opcode 0x02). -/
def execSt (e : Fin 128) (s : State) : Host.Outcome State Fault Refusal := done s (issue e 0x02 effSt s)
/-- XCH (opcode 0x03). -/
def execXch (e : Fin 128) (s : State) : Host.Outcome State Fault Refusal := done s (issue e 0x03 effXch s)
/-- FADD (opcode 0x04). -/
def execFadd (e : Fin 128) (s : State) : Host.Outcome State Fault Refusal := done s (issue e 0x04 effFadd s)
/-- ADD (opcode 0x08). -/
def execAdd (e : Fin 128) (s : State) : Host.Outcome State Fault Refusal := done s (issue e 0x08 effAdd s)
/-- ADC (opcode 0x09). -/
def execAdc (e : Fin 128) (s : State) : Host.Outcome State Fault Refusal := done s (issue e 0x09 effAdc s)
/-- SUB (opcode 0x0A). -/
def execSub (e : Fin 128) (s : State) : Host.Outcome State Fault Refusal := done s (issue e 0x0A effSub s)
/-- SBC (opcode 0x0B). -/
def execSbc (e : Fin 128) (s : State) : Host.Outcome State Fault Refusal := done s (issue e 0x0B effSbc s)
/-- AND (opcode 0x0C). -/
def execAnd_ (e : Fin 128) (s : State) : Host.Outcome State Fault Refusal := done s (issue e 0x0C effAnd s)
/-- OR (opcode 0x0D). -/
def execOr_ (e : Fin 128) (s : State) : Host.Outcome State Fault Refusal := done s (issue e 0x0D effOr s)
/-- XOR (opcode 0x0E). -/
def execXor_ (e : Fin 128) (s : State) : Host.Outcome State Fault Refusal := done s (issue e 0x0E effXor s)
/-- MUL (opcode 0x0F). -/
def execMul (e : Fin 128) (s : State) : Host.Outcome State Fault Refusal := done s (issue e 0x0F effMul s)
/-- SHL (opcode 0x10). -/
def execShl (e : Fin 128) (s : State) : Host.Outcome State Fault Refusal := done s (issue e 0x10 effShl s)
/-- SHR (opcode 0x11). -/
def execShr (e : Fin 128) (s : State) : Host.Outcome State Fault Refusal := done s (issue e 0x11 effShr s)
/-- SAR (opcode 0x12). -/
def execSar (e : Fin 128) (s : State) : Host.Outcome State Fault Refusal := done s (issue e 0x12 effSar s)
/-- ROL (opcode 0x13). -/
def execRol (e : Fin 128) (s : State) : Host.Outcome State Fault Refusal := done s (issue e 0x13 effRol s)
/-- BFX (opcode 0x14). -/
def execBfx (e : Fin 128) (s : State) : Host.Outcome State Fault Refusal := done s (issue e 0x14 effBfx s)
/-- BFI (opcode 0x15). -/
def execBfi (e : Fin 128) (s : State) : Host.Outcome State Fault Refusal := done s (issue e 0x15 effBfi s)
/-- BSW (opcode 0x16). -/
def execBsw (e : Fin 128) (s : State) : Host.Outcome State Fault Refusal := done s (issue e 0x16 effBsw s)
/-- POPC (opcode 0x17). -/
def execPopc (e : Fin 128) (s : State) : Host.Outcome State Fault Refusal := done s (issue e 0x17 effPopc s)
/-- CMPEQ (opcode 0x18). -/
def execCmpeq (e : Fin 128) (s : State) : Host.Outcome State Fault Refusal := done s (issue e 0x18 effCmpeq s)
/-- CMPNE (opcode 0x19). -/
def execCmpne (e : Fin 128) (s : State) : Host.Outcome State Fault Refusal := done s (issue e 0x19 effCmpne s)
/-- CMPLT (opcode 0x1A). -/
def execCmplt (e : Fin 128) (s : State) : Host.Outcome State Fault Refusal := done s (issue e 0x1A effCmplt s)
/-- CMPLTU (opcode 0x1B). -/
def execCmpltu (e : Fin 128) (s : State) : Host.Outcome State Fault Refusal := done s (issue e 0x1B effCmpltu s)
/-- CMPGE (opcode 0x1C). -/
def execCmpge (e : Fin 128) (s : State) : Host.Outcome State Fault Refusal := done s (issue e 0x1C effCmpge s)
/-- CMPGEU (opcode 0x1D). -/
def execCmpgeu (e : Fin 128) (s : State) : Host.Outcome State Fault Refusal := done s (issue e 0x1D effCmpgeu s)
/-- CRC32B (opcode 0x20). -/
def execCrc32b (e : Fin 128) (s : State) : Host.Outcome State Fault Refusal := done s (issue e 0x20 effCrc32b s)
/-- CRC32W (opcode 0x21). -/
def execCrc32w (e : Fin 128) (s : State) : Host.Outcome State Fault Refusal := done s (issue e 0x21 effCrc32w s)
/-- CRC16B (opcode 0x22). -/
def execCrc16b (e : Fin 128) (s : State) : Host.Outcome State Fault Refusal := done s (issue e 0x22 effCrc16b s)
/-- CRC16W (opcode 0x23). -/
def execCrc16w (e : Fin 128) (s : State) : Host.Outcome State Fault Refusal := done s (issue e 0x23 effCrc16w s)
/-- BZ (opcode 0x28). -/
def execBz (e : Fin 128) (s : State) : Host.Outcome State Fault Refusal := done s (issue e 0x28 effBz s)
/-- BNZ (opcode 0x29). -/
def execBnz (e : Fin 128) (s : State) : Host.Outcome State Fault Refusal := done s (issue e 0x29 effBnz s)
/-- BRA (opcode 0x2A). -/
def execBra (e : Fin 128) (s : State) : Host.Outcome State Fault Refusal := done s (issue e 0x2A effBra s)
/-- JSR (opcode 0x2B). -/
def execJsr (e : Fin 128) (s : State) : Host.Outcome State Fault Refusal := done s (issue e 0x2B effJsr s)
/-- RTS (opcode 0x2C). -/
def execRts (e : Fin 128) (s : State) : Host.Outcome State Fault Refusal := done s (issue e 0x2C effRts s)
/-- TRAP (opcode 0x2D). -/
def execTrap (e : Fin 128) (s : State) : Host.Outcome State Fault Refusal := done s (issue e 0x2D effTrap s)
/-- RTE (opcode 0x2E). -/
def execRte (e : Fin 128) (s : State) : Host.Outcome State Fault Refusal := done s (issue e 0x2E effRte s)
/-- LPB (opcode 0x30). -/
def execLpb (e : Fin 128) (s : State) : Host.Outcome State Fault Refusal := done s (issue e 0x30 effLpb s)
/-- REP (opcode 0x31). -/
def execRep (e : Fin 128) (s : State) : Host.Outcome State Fault Refusal := done s (issue e 0x31 effRep s)
/-- REPI (opcode 0x32). -/
def execRepi (e : Fin 128) (s : State) : Host.Outcome State Fault Refusal := done s (issue e 0x32 effRepi s)
/-- WFE (opcode 0x34). -/
def execWfe (e : Fin 128) (s : State) : Host.Outcome State Fault Refusal := done s (issue e 0x34 effWfe s)
/-- SEV (opcode 0x35). -/
def execSev (e : Fin 128) (s : State) : Host.Outcome State Fault Refusal := done s (issue e 0x35 effSev s)
/-- WUNT (opcode 0x36). -/
def execWunt (e : Fin 128) (s : State) : Host.Outcome State Fault Refusal := done s (issue e 0x36 effWunt s)
/-- TKR (opcode 0x37). -/
def execTkr (e : Fin 128) (s : State) : Host.Outcome State Fault Refusal := done s (issue e 0x37 effTkr s)
/-- TPUSH (opcode 0x38). -/
def execTpush (e : Fin 128) (s : State) : Host.Outcome State Fault Refusal := done s (issue e 0x38 effTpush s)
/-- TNEXT (opcode 0x39). -/
def execTnext (e : Fin 128) (s : State) : Host.Outcome State Fault Refusal := done s (issue e 0x39 effTnext s)
/-- TDONE (opcode 0x3A). -/
def execTdone (e : Fin 128) (s : State) : Host.Outcome State Fault Refusal := done s (issue e 0x3A effTdone s)
/-- MFSR (opcode 0x3C). -/
def execMfsr (e : Fin 128) (s : State) : Host.Outcome State Fault Refusal := done s (issue e 0x3C effMfsr s)
/-- MTSR (opcode 0x3D). -/
def execMtsr (e : Fin 128) (s : State) : Host.Outcome State Fault Refusal := done s (issue e 0x3D effMtsr s)

/-! ### Commands: interrupt points and waits -/

/-- ILLEGAL_OPCODE: an opcode that the table of R73 does not hold (R74). -/
def execIllegalOpcode (e : Fin 128) (s : State) : Host.Outcome State Fault Refusal :=
  done s (if s.mayIssue e && (formOf (insnOp (s.peek e (s.e e).pc.toNat))).isNone then runInsn e effNop s else s)

/-- INTERRUPT_ENTRY: an IRQ is taken (R97, R98, R103). -/
def execInterruptEntry (e : Fin 128) (s : State) : Host.Outcome State Fault Refusal :=
  done s (if !s.engRuns e then s
    else match s.asyncDue e with
      | some (.irq n) => takeException e 10 n false (s.e e).pc (s.afterPc e) s
      | _ => s)

/-- QUANTUM_ENTRY: the quantum cause is taken (R97, R122).
(DEDUCED, log entry 20) -/
def execQuantumEntry (e : Fin 128) (s : State) : Host.Outcome State Fault Refusal :=
  done s (if s.engRuns e && s.asyncDue e == some .quantum then
      takeException e 9 0 false (s.e e).pc (s.afterPc e) (s.setE e { s.e e with qTaken := true })
    else s)

/-- DEBUG_HALT_TAKEN: a HALT takes effect at an interrupt point (R108).
(DEDUCED, log entry 22) -/
def execDebugHaltTaken (e : Fin 128) (s : State) : Host.Outcome State Fault Refusal :=
  done s (if s.engRuns e && s.asyncDue e == some .halt then haltEngine e 1 s else s)

/-- BREAKPOINT_HALT (R109).
(DEDUCED, log entry 21) -/
def execBreakpointHalt (e : Fin 128) (s : State) : Host.Outcome State Fault Refusal :=
  done s (if s.engRuns e && (s.asyncDue e).isNone && s.atBreak e then haltEngine e 3 s else s)

/-- The engine waits as `w` says and nothing else is taken first.
(DEDUCED, log entry 27) -/
def State.mayWake (s : State) (e : Nat) : Bool := s.engRuns e && (s.asyncDue e).isNone

/-- WFE_EVENT_MATCH: an event that a waiting WFE names has come (R87).
(DEDUCED, log entry 27) -/
def execWfeEventMatch (e : Fin 128) (s : State) : Host.Outcome State Fault Refusal :=
  done s (if !s.mayWake e then s
    else match (s.e e).wait with
      | some (.wfe mask t) => if (s.e e).ev &&& mask = 0 then s else endWait e (consume mask t e s)
      | _ => s)

/-- WUNT_EXPIRE: TK reaches T in a waiting WUNT (R89).
(DEDUCED, log entry 28) -/
def execWuntExpire (e : Fin 128) (s : State) : Host.Outcome State Fault Refusal :=
  done s (if !s.mayWake e then s
    else match (s.e e).wait with
      | some (.wunt v t) =>
        let d := sdiff 32 s.tk v
        let s := if d < 0 then passTicks (-d).toNat s else s
        endWait e (s.setE e ((s.e e).setReg t 0))
      | _ => s)

/-- TASK_DISPATCH: an engine that waits in TNEXT is given its next task, unless another waiting engine is served with it first
(R117, R118).
(DEDUCED, log entry 29) -/
def execTaskDispatch (e : Fin 128) (s : State) : Host.Outcome State Fault Refusal :=
  done s (if !s.mayWake e || !s.idle e then s
    else
      let r := nextTask e s
      match r.1 with
      | some x => if r.2.servedBefore e x then r.2 else endWait e (giveTask e x r.2)
      | none => r.2)

end Sys2Proof.Machine
end

