-- ==== Sys2Proof/Machine/TimeRows.lean ====
section
/-! DEFINITION. The commands of the time unit (chapter 13). -/

namespace Sys2Proof.Machine

/-- TC_INC_WRITE: the rate of a counter (R240). -/
def execTcIncWrite (w : Who) (i : Fin 8) (v : BitVec 35) (s : State) : Host.Outcome State Fault Refusal :=
  done s (tmWrite w (·.mayTc w i) (writeInc i v.toNat) s)

/-- TC_STEP: CTL written with STEP (R242). -/
def execTcStep (w : Who) (i : Fin 8) (rel unlock : Bool) (s : State) : Host.Outcome State Fault Refusal :=
  done s (tmWrite w (·.mayTc w i) (writeTcCtl i true rel unlock) s)

/-- TC_STEP_APPLY: the second tick after the write of a step (R243). -/
def execTcStepApply (i : Fin 8) (s : State) : Host.Outcome State Fault Refusal := done s (applyStep i s)

/-- TC_UNLOCK: CTL written with UNLOCK (R242). -/
def execTcUnlock (w : Who) (i : Fin 8) (s : State) : Host.Outcome State Fault Refusal :=
  done s (tmWrite w (·.mayTc w i) (writeTcCtl i false false true) s)

/-- CAPTURE_NOW: CAPCTL written with NOW (R246). -/
def execCaptureNow (w : Who) (s : State) : Host.Outcome State Fault Refusal :=
  done s (tmWrite w (·.supervisor w) captureTime s)

/-- REF_OFS_WRITE: a firmware sample (R248). -/
def execRefOfsWrite (w : Who) (r : Fin 8) (v : Word) (s : State) : Host.Outcome State Fault Refusal :=
  done s (tmWrite w (·.mayRef w r) (writeRefOfs r v) s)

/-- PPS_EDGE: a rising edge on PPS_IN (R248). -/
def execPpsEdge (sub : Fin 32) (s : State) : Host.Outcome State Fault Refusal := done s (ppsEdge sub s)

/-- FREF_SAMPLE: a frequency comparison (R248). -/
def execFrefSample (ferr : Int) (s : State) : Host.Outcome State Fault Refusal := done s (frefSample ferr s)

/-- REF_TIMEOUT: a reference grows too old (R249). -/
def execRefTimeout (r : Fin 8) (s : State) : Host.Outcome State Fault Refusal := done s (refTimeout r s)

/-- RAMP_END: a ramp ends (R251). -/
def execRampEnd (j : Fin 2) (s : State) : Host.Outcome State Fault Refusal := done s (rampEnd j s)

/-- PULSE_RISE: a generator's rising edge (R254). -/
def execPulseRise (g : Fin 8) (s : State) : Host.Outcome State Fault Refusal := done s (pulseRise g s)

/-- PULSE_FALL: a generator's falling edge (R254). -/
def execPulseFall (g : Fin 8) (s : State) : Host.Outcome State Fault Refusal := done s (pulseFall g s)

end Sys2Proof.Machine
end

