-- ==== Sys2Proof/Machine/Dispatch.lean ====
section
/-! DEFINITION. The dispatch: every command of the table to its meaning, one arm per constructor. -/

namespace Sys2Proof.Machine

/-- The effect of a command on everything but the queue. -/
def exec (i : Instr) (s : State) : Host.Outcome State Fault Refusal :=
  match i with
  | .registerWrite w off be v => Sys2Proof.Machine.execRegisterWrite w off be v s
  | .reservedHostAccess w off wr => Sys2Proof.Machine.execReservedHostAccess w off wr s
  | .hostMemoryRead w x => Sys2Proof.Machine.execHostMemoryRead w x s
  | .hostMemoryWrite w off be v => Sys2Proof.Machine.execHostMemoryWrite w off be v s
  | .commitGo w b => Sys2Proof.Machine.execCommitGo w b s
  | .commitActivate b => Sys2Proof.Machine.execCommitActivate b s
  | .gcCommitGo w inst => Sys2Proof.Machine.execGcCommitGo w inst s
  | .deltaApply w => Sys2Proof.Machine.execDeltaApply w s
  | .keyProgram w k => Sys2Proof.Machine.execKeyProgram w k s
  | .keyRevoke w k => Sys2Proof.Machine.execKeyRevoke w k s
  | .fnReset w f => Sys2Proof.Machine.execFnReset w f s
  | .fnResetHoldExpire f => Sys2Proof.Machine.execFnResetHoldExpire f s
  | .functionStop e => Sys2Proof.Machine.execFunctionStop e s
  | .fnResetDrainEnd f => Sys2Proof.Machine.execFnResetDrainEnd f s
  | .fnRelease w f => Sys2Proof.Machine.execFnRelease w f s
  | .nop e => Sys2Proof.Machine.execNop e s
  | .ld e => Sys2Proof.Machine.execLd e s
  | .st e => Sys2Proof.Machine.execSt e s
  | .xch e => Sys2Proof.Machine.execXch e s
  | .fadd e => Sys2Proof.Machine.execFadd e s
  | .add e => Sys2Proof.Machine.execAdd e s
  | .adc e => Sys2Proof.Machine.execAdc e s
  | .sub e => Sys2Proof.Machine.execSub e s
  | .sbc e => Sys2Proof.Machine.execSbc e s
  | .and_ e => Sys2Proof.Machine.execAnd_ e s
  | .or_ e => Sys2Proof.Machine.execOr_ e s
  | .xor_ e => Sys2Proof.Machine.execXor_ e s
  | .mul e => Sys2Proof.Machine.execMul e s
  | .shl e => Sys2Proof.Machine.execShl e s
  | .shr e => Sys2Proof.Machine.execShr e s
  | .sar e => Sys2Proof.Machine.execSar e s
  | .rol e => Sys2Proof.Machine.execRol e s
  | .bfx e => Sys2Proof.Machine.execBfx e s
  | .bfi e => Sys2Proof.Machine.execBfi e s
  | .bsw e => Sys2Proof.Machine.execBsw e s
  | .popc e => Sys2Proof.Machine.execPopc e s
  | .cmpeq e => Sys2Proof.Machine.execCmpeq e s
  | .cmpne e => Sys2Proof.Machine.execCmpne e s
  | .cmplt e => Sys2Proof.Machine.execCmplt e s
  | .cmpltu e => Sys2Proof.Machine.execCmpltu e s
  | .cmpge e => Sys2Proof.Machine.execCmpge e s
  | .cmpgeu e => Sys2Proof.Machine.execCmpgeu e s
  | .crc32b e => Sys2Proof.Machine.execCrc32b e s
  | .crc32w e => Sys2Proof.Machine.execCrc32w e s
  | .crc16b e => Sys2Proof.Machine.execCrc16b e s
  | .crc16w e => Sys2Proof.Machine.execCrc16w e s
  | .bz e => Sys2Proof.Machine.execBz e s
  | .bnz e => Sys2Proof.Machine.execBnz e s
  | .bra e => Sys2Proof.Machine.execBra e s
  | .jsr e => Sys2Proof.Machine.execJsr e s
  | .rts e => Sys2Proof.Machine.execRts e s
  | .trap e => Sys2Proof.Machine.execTrap e s
  | .rte e => Sys2Proof.Machine.execRte e s
  | .lpb e => Sys2Proof.Machine.execLpb e s
  | .rep e => Sys2Proof.Machine.execRep e s
  | .repi e => Sys2Proof.Machine.execRepi e s
  | .wfe e => Sys2Proof.Machine.execWfe e s
  | .wfeEventMatch e => Sys2Proof.Machine.execWfeEventMatch e s
  | .sev e => Sys2Proof.Machine.execSev e s
  | .wunt e => Sys2Proof.Machine.execWunt e s
  | .wuntExpire e => Sys2Proof.Machine.execWuntExpire e s
  | .tkr e => Sys2Proof.Machine.execTkr e s
  | .tpush e => Sys2Proof.Machine.execTpush e s
  | .tnext e => Sys2Proof.Machine.execTnext e s
  | .tdone e => Sys2Proof.Machine.execTdone e s
  | .mfsr e => Sys2Proof.Machine.execMfsr e s
  | .mtsr e => Sys2Proof.Machine.execMtsr e s
  | .interruptEntry e => Sys2Proof.Machine.execInterruptEntry e s
  | .quantumEntry e => Sys2Proof.Machine.execQuantumEntry e s
  | .dbgHalt w e => Sys2Proof.Machine.execDbgHalt w e s
  | .debugHaltTaken e => Sys2Proof.Machine.execDebugHaltTaken e s
  | .dbgRun w e => Sys2Proof.Machine.execDbgRun w e s
  | .dbgStep w e => Sys2Proof.Machine.execDbgStep w e s
  | .breakpointHalt e => Sys2Proof.Machine.execBreakpointHalt e s
  | .dbgdataWrite w e v => Sys2Proof.Machine.execDbgdataWrite w e v s
  | .eirqsSet w e v => Sys2Proof.Machine.execEirqsSet w e v s
  | .codeStoreWrite w n a v => Sys2Proof.Machine.execCodeStoreWrite w n a v s
  | .stableRelease w n => Sys2Proof.Machine.execStableRelease w n s
  | .stableWake w n => Sys2Proof.Machine.execStableWake w n s
  | .stableEnginesRun n => Sys2Proof.Machine.execStableEnginesRun n s
  | .stableGate n => Sys2Proof.Machine.execStableGate n s
  | .taskDispatch e => Sys2Proof.Machine.execTaskDispatch e s
  | .overflowMove n => Sys2Proof.Machine.execOverflowMove n s
  | .u0Withdraw n => Sys2Proof.Machine.execU0Withdraw n s
  | .lateRecordPop w n => Sys2Proof.Machine.execLateRecordPop w n s
  | .bankHandoverRequest w n b g => Sys2Proof.Machine.execBankHandoverRequest w n b g s
  | .bankHandoverComplete n b => Sys2Proof.Machine.execBankHandoverComplete n b s
  | .poisonMark w n a => Sys2Proof.Machine.execPoisonMark w n a s
  | .poisonMarkApply n => Sys2Proof.Machine.execPoisonMarkApply n s
  | .scrubRead a => Sys2Proof.Machine.execScrubRead a s
  | .scrubWriteBack a => Sys2Proof.Machine.execScrubWriteBack a s
  | .mailboxSend w m sd v => Sys2Proof.Machine.execMailboxSend w m sd v s
  | .mailboxReceive w m sd => Sys2Proof.Machine.execMailboxReceive w m sd s
  | .mailboxResync w m sd => Sys2Proof.Machine.execMailboxResync w m sd s
  | .doorbellRing w m sd => Sys2Proof.Machine.execDoorbellRing w m sd s
  | .standoffDetect m => Sys2Proof.Machine.execStandoffDetect m s
  | .icRequest t xi f => Sys2Proof.Machine.execIcRequest t xi f s
  | .icGrant t => Sys2Proof.Machine.execIcGrant t s
  | .starvationDetect t xi => Sys2Proof.Machine.execStarvationDetect t xi s
  | .regionDone w k => Sys2Proof.Machine.execRegionDone w k s
  | .subscriptionReceive fr => Sys2Proof.Machine.execSubscriptionReceive fr s
  | .linkChange p l => Sys2Proof.Machine.execLinkChange p l s
  | .macReceiveFrame p fr ago => Sys2Proof.Machine.execMacReceiveFrame p fr ago s
  | .pauseReceive p q => Sys2Proof.Machine.execPauseReceive p q s
  | .pauseExpire p => Sys2Proof.Machine.execPauseExpire p s
  | .macTransmitStart p have_ => Sys2Proof.Machine.execMacTransmitStart p have_ s
  | .macTransmitEnd p sub => Sys2Proof.Machine.execMacTransmitEnd p sub s
  | .txUnderrun p u => Sys2Proof.Machine.execTxUnderrun p u s
  | .collision p late => Sys2Proof.Machine.execCollision p late s
  | .backoffExpire p => Sys2Proof.Machine.execBackoffExpire p s
  | .preemptVerifySend p => Sys2Proof.Machine.execPreemptVerifySend p s
  | .verifyResponse p => Sys2Proof.Machine.execVerifyResponse p s
  | .preemptFragmentEnd p x => Sys2Proof.Machine.execPreemptFragmentEnd p x s
  | .lpiEnter p => Sys2Proof.Machine.execLpiEnter p s
  | .lpiWake p => Sys2Proof.Machine.execLpiWake p s
  | .txTimestampPop w p => Sys2Proof.Machine.execTxTimestampPop w p s
  | .inpassSegmentPost k d ws sub => Sys2Proof.Machine.execInpassSegmentPost k d ws sub s
  | .inpassFrameEnd k d len bad => Sys2Proof.Machine.execInpassFrameEnd k d len bad s
  | .inpassEgressStart k d => Sys2Proof.Machine.execInpassEgressStart k d s
  | .inpassWordLatch k d xi => Sys2Proof.Machine.execInpassWordLatch k d xi s
  | .inpassWindowWrite w k o v => Sys2Proof.Machine.execInpassWindowWrite w k o v s
  | .inpassDescriptorClear w k d j => Sys2Proof.Machine.execInpassDescriptorClear w k d j s
  | .yardReceive p early => Sys2Proof.Machine.execYardReceive p early s
  | .yardSubmit w n a => Sys2Proof.Machine.execYardSubmit w n a s
  | .hostTxTailWrite w r tail ds => Sys2Proof.Machine.execHostTxTailWrite w r tail ds s
  | .hostRxTailWrite w r tail bufs => Sys2Proof.Machine.execHostRxTailWrite w r tail bufs s
  | .descriptorCopyComplete id => Sys2Proof.Machine.execDescriptorCopyComplete id s
  | .descriptorWriteback id => Sys2Proof.Machine.execDescriptorWriteback id s
  | .frameDeliver id f => Sys2Proof.Machine.execFrameDeliver id f s
  | .addressAgeOut mac vid => Sys2Proof.Machine.execAddressAgeOut mac vid s
  | .atRead w => Sys2Proof.Machine.execAtRead w s
  | .atWrite w => Sys2Proof.Machine.execAtWrite w s
  | .atDelete w => Sys2Proof.Machine.execAtDelete w s
  | .atFlush w => Sys2Proof.Machine.execAtFlush w s
  | .gateEntryChange p => Sys2Proof.Machine.execGateEntryChange p s
  | .gateCycleStart p => Sys2Proof.Machine.execGateCycleStart p s
  | .tcIncWrite w xi v => Sys2Proof.Machine.execTcIncWrite w xi v s
  | .tcStep w xi rel unlock => Sys2Proof.Machine.execTcStep w xi rel unlock s
  | .tcStepApply xi => Sys2Proof.Machine.execTcStepApply xi s
  | .tcUnlock w xi => Sys2Proof.Machine.execTcUnlock w xi s
  | .captureNow w => Sys2Proof.Machine.execCaptureNow w s
  | .refOfsWrite w r v => Sys2Proof.Machine.execRefOfsWrite w r v s
  | .ppsEdge sub => Sys2Proof.Machine.execPpsEdge sub s
  | .frefSample ferr => Sys2Proof.Machine.execFrefSample ferr s
  | .refTimeout r => Sys2Proof.Machine.execRefTimeout r s
  | .rampEnd j => Sys2Proof.Machine.execRampEnd j s
  | .pulseRise g => Sys2Proof.Machine.execPulseRise g s
  | .pulseFall g => Sys2Proof.Machine.execPulseFall g s
  | .launchEligible n => Sys2Proof.Machine.execLaunchEligible n s
  | .paddockSlotSend k => Sys2Proof.Machine.execPaddockSlotSend k s
  | .paddockSlotReceive k rx => Sys2Proof.Machine.execPaddockSlotReceive k rx s
  | .paddockBackoffEnd k => Sys2Proof.Machine.execPaddockBackoffEnd k s
  | .canTxRequest w n k => Sys2Proof.Machine.execCanTxRequest w n k s
  | .canTxAbort w n k => Sys2Proof.Machine.execCanTxAbort w n k s
  | .canTxBufferWrite w n k j v => Sys2Proof.Machine.execCanTxBufferWrite w n k j v s
  | .canFrameStart n => Sys2Proof.Machine.execCanFrameStart n s
  | .canFrameEnd n r => Sys2Proof.Machine.execCanFrameEnd n r s
  | .canReceiveFrame n fr => Sys2Proof.Machine.execCanReceiveFrame n fr s
  | .canFifoPop w n => Sys2Proof.Machine.execCanFifoPop w n s
  | .canError n er => Sys2Proof.Machine.execCanError n er s
  | .canBusOffRecovery q => Sys2Proof.Machine.execCanBusOffRecovery q s
  | .canIntegrate n => Sys2Proof.Machine.execCanIntegrate n s
  | .pmNop b m => Sys2Proof.Machine.execPmNop b m s
  | .pmGoto b m => Sys2Proof.Machine.execPmGoto b m s
  | .pmLoop b m => Sys2Proof.Machine.execPmLoop b m s
  | .pmSkip b m => Sys2Proof.Machine.execPmSkip b m s
  | .pmSetc b m => Sys2Proof.Machine.execPmSetc b m s
  | .pmEmit b m => Sys2Proof.Machine.execPmEmit b m s
  | .pmTake b m => Sys2Proof.Machine.execPmTake b m s
  | .pmFetch b m => Sys2Proof.Machine.execPmFetch b m s
  | .pmDeliver b m => Sys2Proof.Machine.execPmDeliver b m s
  | .pmPins b m => Sys2Proof.Machine.execPmPins b m s
  | .pmGmov b m => Sys2Proof.Machine.execPmGmov b m s
  | .pmGput b m => Sys2Proof.Machine.execPmGput b m s
  | .pmWaitp b m => Sys2Proof.Machine.execPmWaitp b m s
  | .pmStamp b m => Sys2Proof.Machine.execPmStamp b m s
  | .pmMark b m => Sys2Proof.Machine.execPmMark b m s
  | .pmStallRelease b m => Sys2Proof.Machine.execPmStallRelease b m s
  | .pmPtxWrite w b m v => Sys2Proof.Machine.execPmPtxWrite w b m v s
  | .pmPrxRead w b m => Sys2Proof.Machine.execPmPrxRead w b m s
  | .pmInject w b m v => Sys2Proof.Machine.execPmInject w b m v s
  | .pmRun w b m => Sys2Proof.Machine.execPmRun w b m s
  | .pmStop w b m => Sys2Proof.Machine.execPmStop w b m s
  | .pmRestart w b m => Sys2Proof.Machine.execPmRestart w b m s
  | .pmFifoClear w b m => Sys2Proof.Machine.execPmFifoClear w b m s
  | .pmFlagLower w b v => Sys2Proof.Machine.execPmFlagLower w b v s
  | .twinLinkChange up => Sys2Proof.Machine.execTwinLinkChange up s
  | .twinStatusReceive w0 w1 w2 => Sys2Proof.Machine.execTwinStatusReceive w0 w1 w2 s
  | .twinSelftestEnd bist late => Sys2Proof.Machine.execTwinSelftestEnd bist late s
  | .twinStest w => Sys2Proof.Machine.execTwinStest w s
  | .ddEntryAgeOut src => Sys2Proof.Machine.execDdEntryAgeOut src s
  | .pdDetection d => Sys2Proof.Machine.execPdDetection d s
  | .sourceFail src => Sys2Proof.Machine.execSourceFail src s
  | .sourceGood src => Sys2Proof.Machine.execSourceGood src s
  | .vbakLow mv => Sys2Proof.Machine.execVbakLow mv s
  | .powerStateRequest w t => Sys2Proof.Machine.execPowerStateRequest w t s
  | .wakeEvent src => Sys2Proof.Machine.execWakeEvent src s
  | .ostlerWaitTimeout id => Sys2Proof.Machine.execOstlerWaitTimeout id s
  | .leaseRequest w xi cnt => Sys2Proof.Machine.execLeaseRequest w xi cnt s
  | .leaseRelease w xi => Sys2Proof.Machine.execLeaseRelease w xi s
  | .powerModelUpdate base calv => Sys2Proof.Machine.execPowerModelUpdate base calv s
  | .powerOnReset st => Sys2Proof.Machine.execPowerOnReset st s
  | .rstNReset us => Sys2Proof.Machine.execRstNReset us s
  | .farrierWatchdogReset code => Sys2Proof.Machine.execFarrierWatchdogReset code s
  | .softwareReset w key clr => Sys2Proof.Machine.execSoftwareReset w key clr s
  | .clrtry w key => Sys2Proof.Machine.execClrtry w key s
  | .hostImageWord w v => Sys2Proof.Machine.execHostImageWord w v s
  | .hostImageRestart w => Sys2Proof.Machine.execHostImageRestart w s
  | .bootComplete w => Sys2Proof.Machine.execBootComplete w s
  | .bootcauseClear w => Sys2Proof.Machine.execBootcauseClear w s
  | .flashRead w sec unprot => Sys2Proof.Machine.execFlashRead w sec unprot s
  | .flashEraseProgram w sec unprot => Sys2Proof.Machine.execFlashEraseProgram w sec unprot s
  | .flashErase w sec unprot => Sys2Proof.Machine.execFlashErase w sec unprot s
  | .calibration p gap => Sys2Proof.Machine.execCalibration p gap s
  | .thermalUpdate temp vcore age freq => Sys2Proof.Machine.execThermalUpdate temp vcore age freq s
  | .telemetryRecord vint pin => Sys2Proof.Machine.execTelemetryRecord vint pin s
  | .functionLevelReset r => Sys2Proof.Machine.execFunctionLevelReset r s
  | .msixUnmask a => Sys2Proof.Machine.execMsixUnmask a s
  | .ringMessageHoldoffEnd v => Sys2Proof.Machine.execRingMessageHoldoffEnd v s
  | .qspiReadSingle a n => Sys2Proof.Machine.execQspiReadSingle a n s
  | .qspiReadQuadData a n => Sys2Proof.Machine.execQspiReadQuadData a n s
  | .qspiReadQuad a n => Sys2Proof.Machine.execQspiReadQuad a n s
  | .qspiWriteSingle a bs => Sys2Proof.Machine.execQspiWriteSingle a bs s
  | .qspiWriteQuadData a bs => Sys2Proof.Machine.execQspiWriteQuadData a bs s
  | .qspiWriteQuad a bs => Sys2Proof.Machine.execQspiWriteQuad a bs s
  | .i2cWrite a o bs => Sys2Proof.Machine.execI2cWrite a o bs s
  | .i2cRead a n => Sys2Proof.Machine.execI2cRead a n s
  | .jtagSamplePreload pins load => Sys2Proof.Machine.execJtagSamplePreload pins load s
  | .dbgacc wr a v => Sys2Proof.Machine.execDbgacc wr a v s
  | .illegalOpcode e => Sys2Proof.Machine.execIllegalOpcode e s
  | .receiveLowPowerIdle p on => Sys2Proof.Machine.execReceiveLowPowerIdle p on s
  | .paddockReferenceSearch pos line => Sys2Proof.Machine.execPaddockReferenceSearch pos line s
  | .deltaApplyDone => Sys2Proof.Machine.execDeltaApplyDone s
  | .keyOperationEnd => Sys2Proof.Machine.execKeyOperationEnd s
  | .busyEstimateUpdate => Sys2Proof.Machine.execBusyEstimateUpdate s
  | .accountingPeriodStart => Sys2Proof.Machine.execAccountingPeriodStart s
  | .commonInstant => Sys2Proof.Machine.execCommonInstant s
  | .atCommandComplete => Sys2Proof.Machine.execAtCommandComplete s
  | .paddockListenTimeout => Sys2Proof.Machine.execPaddockListenTimeout s
  | .twinStatusSend => Sys2Proof.Machine.execTwinStatusSend s
  | .twinListenTimeout => Sys2Proof.Machine.execTwinListenTimeout s
  | .twinStatusTimeout => Sys2Proof.Machine.execTwinStatusTimeout s
  | .twinHoldoffExpire => Sys2Proof.Machine.execTwinHoldoffExpire s
  | .handoverEnd => Sys2Proof.Machine.execHandoverEnd s
  | .handbackStart => Sys2Proof.Machine.execHandbackStart s
  | .handbackEnd => Sys2Proof.Machine.execHandbackEnd s
  | .overloadDetect => Sys2Proof.Machine.execOverloadDetect s
  | .rideExpire => Sys2Proof.Machine.execRideExpire s
  | .keepdlyExpire => Sys2Proof.Machine.execKeepdlyExpire s
  | .powerTransitionComplete => Sys2Proof.Machine.execPowerTransitionComplete s
  | .dozeEntryTimeout => Sys2Proof.Machine.execDozeEntryTimeout s
  | .ksecAlarm => Sys2Proof.Machine.execKsecAlarm s
  | .ostlerReconsider => Sys2Proof.Machine.execOstlerReconsider s
  | .lossOfLock => Sys2Proof.Machine.execLossOfLock s
  | .pllLock => Sys2Proof.Machine.execPllLock s
  | .pllLockTimeout => Sys2Proof.Machine.execPllLockTimeout s
  | .pllRetry => Sys2Proof.Machine.execPllRetry s
  | .hostImageTimeout => Sys2Proof.Machine.execHostImageTimeout s
  | .bootWatchdogExpire => Sys2Proof.Machine.execBootWatchdogExpire s
  | .flashCommandComplete => Sys2Proof.Machine.execFlashCommandComplete s
  | .pcieLinkDown => Sys2Proof.Machine.execPcieLinkDown s
  | .qspiStatus => Sys2Proof.Machine.execQspiStatus s
  | .jtagBypass => Sys2Proof.Machine.execJtagBypass s
  | .jtagIdcode => Sys2Proof.Machine.execJtagIdcode s
  | .jtagExtest => Sys2Proof.Machine.execJtagExtest s
  | .ppdOvertemp => Sys2Proof.Machine.execPpdOvertemp s
  | .ppdCooled => Sys2Proof.Machine.execPpdCooled s
  | .lposcTrim => Sys2Proof.Machine.execLposcTrim s
  | .pcieLinkUp => Sys2Proof.Machine.execPcieLinkUp s

end Sys2Proof.Machine
end

