-- ==== Sys2Proof/Machine/Tick.lean ====
section
/-! DEFINITION. What a step does when no command waits. -/

namespace Sys2Proof.Machine

/-- One TCLK tick passes.
(DESIGN CHOICE, log entry 1) -/
def clockTick (s : State) : Host.Outcome State Fault Refusal := done s (passTicks 1 s)

end Sys2Proof.Machine
end

