-- ==== Sys2Proof/Machine/Balls.lean ====
section
/-! DEFINITION. What the balls of the part show of its state (R28, R29, R373). -/

namespace Sys2Proof.Machine

/-- A pull at a ball. -/
inductive Pull
  | none | down | up
  deriving DecidableEq, Repr

/-- The pull at PIO pin `p`: a weak pull-down while a powered part does not run, else PULL (R294). -/
def State.pioPull (s : State) (p : Nat) : Pull :=
  match s.column with
  | .unpowered => .none
  | .running =>
    match s.eff F.piPin_PULL (· == 3) (p / 16) (p % 16) with
    | 1 => .down
    | 2 => .up
    | _ => .none
  | _ => .down

/-- The PHY or SerDes of port `p` is powered and drives its balls: by IF, and on P0 and P1 alone in Halter mode (R204). -/
def State.phyOn (s : State) (p : Nat) : Bool :=
  match s.column with
  | .running => s.epIf p != 0
  | .halter => p < 2
  | _ => false

/-- The transmit lane of the twin link is driven (R308). -/
def State.twinOn (s : State) : Bool := s.column == .running && s.on F.twCfg0_EN && s.laneOn 6

/-- The bit engine may enable the Paddock drivers, for its own frames alone (R263). -/
def State.paddockOn (s : State) : Bool := s.column == .running && s.pdRole != 0

/-- The PCIe transmit lanes are driven: by the link's state, once the logic die is out of reset. -/
def State.pcieOn (s : State) : Bool := s.clocksOn && s.host.pcieUp

/-- PFAIL_N is driven low by the PPD; unpowered it is released (R328). -/
def State.pfailN (s : State) : Bool := s.boot.phase != .off && s.on F.pwSrc_PFAIL

/-- What CLKOUT carries. -/
inductive ClkOut
  | undriven | low | refclk | pclk
  deriving DecidableEq, Repr

/-- CLKOUT (CK.CFG0.CLKOUT).
(DESIGN CHOICE, log entry 108) -/
def State.clkOut (s : State) : ClkOut :=
  match s.column with
  | .unpowered => .undriven
  | .running =>
    match s.eff F.ckCfg0_CLKOUT (· == 3) with
    | 1 => .refclk
    | 2 => .pclk
    | _ => .low
  | _ => .low

end Sys2Proof.Machine
end

