-- ==== Sys2Proof/Safety.lean ====
section
/-! DEFINITION. What a safe step is, and the terms in which the statements speak of commands and of engines. -/

namespace Sys2Proof

/-- The step stops neither with a fault nor with a refusal. -/
def Safety.stepsOn (s : Machine.State) : Prop := ∃ t, Machine.step s = .next t

namespace Machine

/-- Command `i` at state `s` answers a next state, and `P` holds of it. -/
def Does (i : Instr) (s : State) (P : State → Prop) : Prop := ∃ t, exec i s = .next t ∧ P t

/-- The 24 bits of an instruction, its value slot apart (R66). -/
def Insn.slotWord (i : Insn) : Nat := i.op * 2 ^ 18 + i.mode * 2 ^ 15 + i.tgt * 2 ^ 12 + i.opnd

/-- Every field of the instruction fits its bits (R66, R67). -/
abbrev Insn.fits (i : Insn) : Prop := i.op < 64 ∧ i.mode < 8 ∧ i.tgt < 8 ∧ i.opnd < 4096 ∧ i.val < 2 ^ 24

/-- Engine `e` fetches instruction `i` and runs it: nothing is taken first (R103), its code words read without error (R110,
R144), and it may stand where it does (R74, R79, R82 to R84). -/
abbrev Fetches (s : State) (e : Fin 128) (i : Insn) : Prop :=
  s.mayIssue e = true
    ∧ (readCode (s.raw (codePlace e (s.e e).pc.toNat)) = .ok (readCode (s.raw (codePlace e (s.e e).pc.toNat))).word)
    ∧ (i.mode = 7 → readCode (s.raw (codePlace e ((s.e e).pc.toNat + 1)))
        = .ok (readCode (s.raw (codePlace e ((s.e e).pc.toNat + 1)))).word)
    ∧ i = insnOf (s.peek e (s.e e).pc.toNat) (if i.mode = 7 then s.peek e ((s.e e).pc.toNat + 1) else 0)
    ∧ s.misplaced e i = false

/-- Engine `e` issues instruction `i` outside a repeat. -/
abbrev Issues (s : State) (e : Fin 128) (i : Insn) : Prop := Fetches s e i ∧ (s.e e).ra = false

/-- The operand of `i` is `v`, and forming it leaves the part in `u` (R68): modes 0, 6 and 7 touch nothing, the others read
the engine word at their address. -/
abbrev Operand (s : State) (e : Fin 128) (i : Insn) (v : Word) (u : State) : Prop :=
  if i.mode = 0 ∨ i.mode = 6 ∨ i.mode = 7 then v = i.plain (s.e e) ∧ u = s
  else
    let r := busRead (.engine e) 0 (engPlace e (i.addr (s.e e))) s
    r.1.disp ≠ 9 ∧ r.2.bad = false ∧ v = r.2.word ∧ u = r.1.st

/-- The destination of a branch or JSR (R79), and the state once it is formed. -/
abbrev Target (s : State) (e : Fin 128) (i : Insn) (d : BitVec 16) (u : State) : Prop :=
  if i.mode = 0 then d = (s.e e).pc + 1 + BitVec.ofInt 16 (toSigned 12 i.opnd) ∧ u = s
  else ∃ v, Operand s e i v u ∧ d = v.setWidth 16

/-- The instruction that stands after a REP or REPI whose words read without error: `r`, at address `a`. -/
abbrev Repeats (s : State) (e : Fin 128) (i : Insn) (a : BitVec 16) (r : Insn) : Prop :=
  a = (s.e e).nxt.getD ((s.e e).pc + BitVec.ofNat 16 i.len) ∧ r = insnOf (s.peek e a.toNat) 0
    ∧ readCode (s.raw (codePlace e a.toNat)) = .ok (readCode (s.raw (codePlace e a.toNat))).word

/-- The state once instruction `i` of engine `e` has completed in `u`: PC goes on (R81), and a debug step ends (R109). -/
def completed (e : Fin 128) (i : Insn) (u : State) : State := endStep e (finishInsn e i u)

/-- Where control passes when an instruction ends outside a repeat: by the loop decision at LE of an active loop (R81), else to
the destination of the branch whose delay slot it was, or to the following address. -/
def Eng.goesOn (x : Eng) (i : Insn) : BitVec 16 :=
  let past := x.pc + if i.mode = 7 then 2 else 1
  if x.psw.getLsbD 4 = true ∧ (x.pc = x.le ∨ (i.mode = 7 ∧ x.pc + 1 = x.le)) then (if x.lc = 1 then past else x.ls) else x.nxt.getD past

/-- Instruction `i` of engine `e` has its effect in `u` and completes in `t`: the registers are those of `u`, control passes as
R81 says, and no other engine and no memory changes with it. -/
abbrev Completes (s t : State) (e : Fin 128) (i : Insn) (u : State) : Prop :=
  t = notify s (completed e i u) ∧ (∀ k, k ≠ e.val → t.e k = u.e k) ∧ (∀ a, t.raw a = u.raw a)
    ∧ ((u.e e).ra = false → u.clocksOn = true → u.awake (e / 8) = true →
        (t.e e).pc = (u.e e).goesOn i ∧ (t.e e).nxt = none ∧ (t.e e).slot = none ∧ (t.e e).wait = none
          ∧ ∀ k, (t.e e).reg k = (u.e e).reg k)

/-- The vector word of a cause reads as `w` without error (R96, R97). -/
abbrev VectorWord (s : State) (e : Fin 128) (cls det : Nat) (w : Word) : Prop :=
  readCode (s.raw (privPlace e (if cls = 10 then 16 + det % 16 else cls))) = .ok w

/-- The state once engine `e` has entered the handler at `w` for a cause (R98). -/
def entered (e : Fin 128) (cls det : Nat) (epc enpc : BitVec 16) (w : Word) (s : State) : State :=
  let x := s.e e
  s.setE e { x with
    epc := epc, enpc := enpc, ebk := x.bk, epsw := x.psw, ecause := BitVec.ofNat 12 (256 * cls + det % 256)
    psw := (x.psw &&& 3) ||| 8, exl := true, pc := w.setWidth 16
    nxt := none, slot := none, wait := none, bpPass := false }

/-- The state at the end of the machine's step, in which an instruction of opcode `op` acts, or in the first tick of a
STAMP's step (R298, R304). -/
def pmAt (b m op : Nat) (s : State) : State :=
  let u := takePins b m (passTo (s.pmTick b m op) s)
  u.setMach b m { u.mach b m with at256 := s.pmStop b m }

/-- The state at the end of the step in which a stalled machine tries its instruction again (R298). -/
def pmAgain (b m : Nat) (s : State) : State :=
  let u := passTo (s.pmRetry b m / 256) s
  u.setMach b m { u.mach b m with at256 := s.pmRetry b m }

/-- Machine `m` of block `b` comes to instruction `i` of opcode `op`, which is legal (R298, R301). -/
abbrev PmSteps (s : State) (b m op i : Nat) : Prop :=
  s.pmActive b m = true ∧ ((s.mach b m).stall = 0 ∨ 5 < (s.mach b m).stall) ∧ i = s.pmInsn b m ∧ bits i 20 4 = op
    ∧ (passTo (s.pmTick b m op) s).pmLegal b m i = true

/-- The instruction, injected or not, completes in `u` and the program goes on (R298). -/
def pmDone (b m i : Nat) (injd : Bool) (u : State) : State := pmComplete b m i injd u none false

/-- The instruction, injected or not, stalls in `u`: waiting for a FIFO is counted; a machine that stops abandons it, and a
pending injection sets it aside (R298, R303, R305). -/
def pmStalled (b m i c : Nat) (injd : Bool) (u : State) : State :=
  let v := u.setMach b m { u.mach b m with stall := c, cur := some (BitVec.ofNat 24 i) }
  let v := if c = 1 ∨ c = 2 then v.bump F.pmCnt_STALLS b m else v
  let y := v.mach b m
  if y.halting then v.setMach b m { y with stall := 6, tgt := none, chg := none, marked := false, cur := none, halting := false, held := injd }
  else if y.inj.isSome && !injd then
    v.setMach b m { y with stall := if y.stalled then 0 else y.stall, tgt := none, chg := none, marked := false, cur := none }
  else v

/-- The ports and the yard run: the clocks do, and a layout is applied or the part is in Halter mode (R348). -/
abbrev State.linked (s : State) : Prop := s.clocksOn = true ∧ (s.applied = true ∨ s.halter = true)

/-- A frame of VLAN `vid` with these bytes, as far as its length on an egress goes (R222). -/
def plainFrame (vid : Nat) (bytes : List Byte) : YFrame :=
  { bytes := bytes, cells := 0, chg := 0, cls := 0, src := .port 0, vid := vid, tagged := hasTag bytes, ts := {}, wake := false, left := 0 }

/-- A frame of VLAN `vid` charged to `f` is admitted to queue `c` of switch port `q` as it stands, and will be held there
unmarked (R230, R233, R236). -/
abbrev State.admits (s : State) (q c f vid : Nat) (bytes : List Byte) : Prop :=
  s.neverFits q c (s.egressLen q (plainFrame vid bytes)) = false ∧ s.fitsIn q c f (cellsOf bytes.length) [] = 0
    ∧ s.fld F.ydQcfg_MARK q c = 0 ∧ s.relayOut q = none ∧ (q < 12 → s.fld F.epStat_LINK q ≠ 0)

/-- No descriptor waits in a SUB queue, and stable port 12 + `j` carries no frame (R219, R226). -/
abbrev State.subIdle (s : State) (j : Nat) : Prop := (∀ m < 16, s.subs m = []) ∧ s.subFrame j = none

/-- Leave for one unit of operation `k` of R335, asked for by hardware, is served at once (R336). -/
abbrev State.leaveFree (s : State) (k : Nat) : Prop :=
  s.fnState 0 = 2 ∧ s.inc 0 = 0 ∧ s.est + s.unitCost k ≤ s.fld F.pwOctl_CAP ∧ (k = 4 → s.rampPassed = true)
    ∧ s.capWaits = false

/-- A loft word that the yard writes a descriptor's disposition to: neither reserved nor in passing (R225). -/
abbrev State.descWord (s : State) (n a : Nat) : Prop := n < 16 ∧ a < 65536 ∧ loftReserved a = false ∧ s.inpassWord n a = false

/-- The loft words of stable `n` from `a` on hold `ws`, without error. -/
abbrev State.holds (s : State) (n a : Nat) (ws : List Word) : Prop :=
  ∀ i < ws.length, readCode (s.raw (loftPlace n (a + i))) = .ok (ws.getD i 0)

/-- No deque and no overflow queue holds a task of a past incarnation (R54, R117). -/
abbrev State.purged (s : State) : Prop :=
  (∀ p ∈ s.eng, ∀ t ∈ p.2.deque, t.inc = s.inc t.fn) ∧ ∀ p ∈ s.stb, ∀ t ∈ p.2.ovf, t.inc = s.inc t.fn

/-- The word lies in one of the memories that State lists: a loft, a code store, an engine's memory, the Manger or the staging
memory. -/
def inMemory : SramWord → Bool
  | .mbq _ _ _ => false
  | .cell _ _ => false
  | _ => true

/-- Every memory of the part is in canonical form. -/
def State.memOk (s : State) : Bool := s.loft.wf && s.code.wf && s.priv.wf && s.mg.wf && s.stage.wf

end Machine

end Sys2Proof
end

