-- ==== Sys2Proof/Certificates/Slice0/Obligations.lean ====
section
/-! DEFINITION. The statements about the part: the pieces of the longer ones first, then the obligations. -/

namespace Sys2Proof
open Sys2Proof.Machine

/-! ### The queue, reset and the memories -/

/-- Counting adds to a counter field up to its all-ones value and changes no other field (R15). -/
def Stated.CountersSaturate : Prop :=
  ∀ (s : State) (f : Fld) (i j n : Nat),
    (s.bump f i j n).fld f i j = min (s.fld f i j + n) (2 ^ f.width - 1)
      ∧ (∀ g i' j', g.key i' j' ≠ f.key i j → (s.bump f i j n).fld g i' j' = s.fld g i' j')
      ∧ (∀ m, ((s.bump f i j n).bump f i j m).fld f i j = (s.bump f i j (n + m)).fld f i j)

/-! ### Engines: instructions (chapter 04) -/

/-- A row of an instruction that takes an operand: the command, the opcode, and what it does to t, s and C. -/
structure OpRow (α : Type) where
  cmd : Fin 128 → Instr
  op : Nat
  f : Word → Word → Bool → α

/-- The rows that write C (R75, R76): the result and the C they leave. -/
def carryRows : List (OpRow (Word × Bool)) :=
  [⟨.add, 0x08, fun t v _ => (t + v, decide (2 ^ 48 ≤ t.toNat + v.toNat))⟩,
   ⟨.adc, 0x09, fun t v c => (t + v + (if c then 1 else 0), decide (2 ^ 48 ≤ t.toNat + v.toNat + c.toNat))⟩,
   ⟨.sub, 0x0A, fun t v _ => (t - v, decide (t.toNat < v.toNat))⟩,
   ⟨.sbc, 0x0B, fun t v c => (t - v - (if c then 1 else 0), decide (t.toNat < v.toNat + c.toNat))⟩,
   ⟨.shl, 0x10, fun t v c => let n := v.toNat % 64
      (t <<< n, if n = 0 then c else decide (n ≤ 48) && t.getLsbD (48 - n))⟩,
   ⟨.shr, 0x11, fun t v c => let n := v.toNat % 64
      (t >>> n, if n = 0 then c else decide (n ≤ 48) && t.getLsbD (n - 1))⟩,
   ⟨.sar, 0x12, fun t v c => let n := v.toNat % 64
      (t.sshiftRight n, if n = 0 then c else if n ≤ 48 then t.getLsbD (n - 1) else t.msb)⟩,
   ⟨.rol, 0x13, fun t v c => let n := v.toNat % 64
      (t.rotateLeft n, if n % 48 = 0 then c else (t.rotateLeft n).getLsbD 0)⟩]

/-- The rows that write t alone (R73): what it becomes. CRCP, where it governs, is the engine's. -/
def valueRows : List (OpRow (Eng → Word)) :=
  [⟨.ld, 0x01, fun _ v _ _ => v⟩,
   ⟨.and_, 0x0C, fun t v _ _ => t &&& v⟩,
   ⟨.or_, 0x0D, fun t v _ _ => t ||| v⟩,
   ⟨.xor_, 0x0E, fun t v _ _ => t ^^^ v⟩,
   ⟨.popc, 0x17, fun _ v _ _ => BitVec.ofNat 48 ((List.range 48).map fun k => (v.getLsbD k).toNat).sum⟩,
   ⟨.cmpeq, 0x18, fun t v _ _ => if t = v then 1 else 0⟩,
   ⟨.cmpne, 0x19, fun t v _ _ => if t = v then 0 else 1⟩,
   ⟨.cmplt, 0x1A, fun t v _ _ => if t.toInt < v.toInt then 1 else 0⟩,
   ⟨.cmpltu, 0x1B, fun t v _ _ => if t.toNat < v.toNat then 1 else 0⟩,
   ⟨.cmpge, 0x1C, fun t v _ _ => if v.toInt ≤ t.toInt then 1 else 0⟩,
   ⟨.cmpgeu, 0x1D, fun t v _ _ => if v.toNat ≤ t.toNat then 1 else 0⟩,
   ⟨.crc32b, 0x20, fun t v _ _ => crc32Step t v 1⟩,
   ⟨.crc32w, 0x21, fun t v _ _ => crc32Step t v 6⟩,
   ⟨.crc16b, 0x22, fun t v _ x => crc16Step x.crcp t v 1⟩,
   ⟨.crc16w, 0x23, fun t v _ x => crc16Step x.crcp t v 6⟩]

/-- Loads, logic, comparisons, POPC and CRC steps: t is what R73 gives, and C and everything else stay. -/
def Stated.ValueInstructionsWriteTheTarget : Prop :=
  ∀ row ∈ valueRows, ∀ (s : State) (e : Fin 128) (i : Insn) (v : Word) (u : State),
    Issues s e i → i.op = row.op → Operand (passBreak e s) e i v u →
      Does (row.cmd e) s fun t =>
        Completes s t e i (u.setE e ((u.e e).setReg i.tgt (row.f ((u.e e).reg i.tgt) v false (u.e e))))

/-- The rows of R77 that some operand values make illegal. -/
def partRows : List (OpRow (Eng → Option Word)) :=
  [⟨.bfx, 0x14, fun t v _ _ => let p := v.toNat % 64
      let w := v.toNat / 64 % 64
      if p ≥ 48 ∨ w = 0 ∨ w > 48 then none else some (BitVec.ofNat 48 (t.toNat / 2 ^ p % 2 ^ w))⟩,
   ⟨.bfi, 0x15, fun t v _ x => let p := v.toNat % 64
      let w := v.toNat / 64 % 64
      if p ≥ 48 ∨ w = 0 ∨ w > 48 then none
      else some (BitVec.ofNat 48 ((List.range 48).map fun k =>
        (if p ≤ k ∧ k < p + w then x.x.getLsbD (k - p) else t.getLsbD k).toNat * 2 ^ k).sum)⟩,
   ⟨.bsw, 0x16, fun t v _ _ =>
      let byte := fun (k : Nat) => t.extractLsb' (8 * k) 8
      match v.toNat % 8 with
      | 0 => some (byte 0 ++ byte 1 ++ byte 2 ++ byte 3 ++ byte 4 ++ byte 5)
      | 1 => some (byte 4 ++ byte 5 ++ byte 2 ++ byte 3 ++ byte 0 ++ byte 1)
      | 2 => some ((0 : BitVec 16) ++ byte 0 ++ byte 1 ++ byte 2 ++ byte 3)
      | _ => none⟩]

/-- BFX, BFI and BSW: the field or byte order that R77 gives, and for an illegal operand the illegal-instruction exception
with everything as before the operand was read. -/
def Stated.FieldAndByteInstructions : Prop :=
  ∀ row ∈ partRows, ∀ (s : State) (e : Fin 128) (i : Insn) (v : Word) (u : State),
    Issues s e i → i.op = row.op → Operand (passBreak e s) e i v u →
      Does (row.cmd e) s fun t =>
        match row.f ((u.e e).reg i.tgt) v false (u.e e) with
        | some r => Completes s t e i (u.setE e ((u.e e).setReg i.tgt r))
        | none => t = notify s (endStep e (faultAt e 2 0 (passBreak e s)))

/-- MUL: A:X is the unsigned product of t and s, high word in A (R73). -/
def Stated.MulWritesTheProduct : Prop :=
  ∀ (s : State) (e : Fin 128) (i : Insn) (v : Word) (u : State),
    Issues s e i → i.op = 0x0F → Operand (passBreak e s) e i v u →
      Does (.mul e) s fun t =>
        ∃ a x : Word, a.toNat * 2 ^ 48 + x.toNat = ((u.e e).reg i.tgt).toNat * v.toNat
          ∧ Completes s t e i (u.setE e { u.e e with a := a, x := x })

/-- NOP changes nothing but what going on to the next instruction does (R73). -/
def Stated.NopOnlyGoesOn : Prop :=
  ∀ (s : State) (e : Fin 128) (i : Insn), Issues s e i → i.op = 0 →
    Does (.nop e) s fun t => Completes s t e i (passBreak e s)

/-! ### Engines: stores and exchanges -/

/-- ST: the word t goes to the operand's address. In private memory, and in a loft word that the engine may write and whose
bank is not draining, that word alone changes and reads back as t. -/
def Stated.StoreWritesItsWord : Prop :=
  ∀ (s : State) (e : Fin 128) (i : Insn), Issues s e i → i.op = 0x02 →
    let p := passBreak e s
    let place := engPlace e (i.addr (p.e e))
    let w := busWrite (.engine e) 0 place 0xFF (((p.e e).reg i.tgt).setWidth 64) p
    w.disp ≠ 9 → Does (.st e) s fun t =>
      Completes s t e i w.st
        ∧ (∀ a, place = .priv a →
            readCode (t.raw (privPlace e a)) = .ok ((s.e e).reg i.tgt) ∧ ∀ b, b ≠ privPlace e a → t.raw b = s.raw b)
        ∧ (∀ n a, place = .loft n a → s.applied = true → Tab.get 0 (s.st n).xfer (a / 4096) = 0 →
            readCode (t.raw (loftPlace n a)) = .ok ((s.e e).reg i.tgt) ∧ ∀ b, b ≠ loftPlace n a → t.raw b = s.raw b)

/-- XCH and FADD on a loft word that the engine may read and write: t takes the word, the word takes t or the sum, and no other
word changes; a refused word, the old owner's in a draining bank too, raises access-denied; one of a bank that drains to the engine's function is
exchanged once the drain has ended; and a word outside the lofts raises the bus error and is not exchanged. -/
def Stated.ExchangesSwapALoftWord : Prop :=
  ∀ row ∈ ([(.xch, 0x03, fun _ t => t), (.fadd, 0x04, fun w t => w + t)] : List ((Fin 128 → Instr) × Nat × (Word → Word → Word))),
    ∀ (s : State) (e : Fin 128) (i : Insn), Issues s e i → i.op = row.2.1 →
      let p := passBreak e s
      (∀ (n a : Nat) (w : Word), engPlace e (i.addr (s.e e)) = .loft n a → Tab.get 0 (s.st n).xfer (a / 4096) = 0 →
        readCode (s.raw (loftPlace n a)) = .ok w →
        if s.mayLoft (.engine e) n a = true ∧ s.inpassWord n a = false then
          Does (row.1 e) s fun t =>
            Completes s t e i
              (let u := memWrite (loftPlace n a) (row.2.2 w ((s.e e).reg i.tgt)) p
               u.setE e ((u.e e).setReg i.tgt w))
            ∧ readCode (t.raw (loftPlace n a)) = .ok (row.2.2 w ((s.e e).reg i.tgt))
            ∧ ∀ b, b ≠ loftPlace n a → t.raw b = s.raw b
        else Does (row.1 e) s fun t =>
          t = notify s (endStep e (faultAt e 5 1 (p.bump F.stMemerr_DENY n))))
      ∧ (∀ (n a : Nat), engPlace e (i.addr (s.e e)) = .loft n a → Tab.get 0 (s.st n).xfer (a / 4096) ≠ 0 →
        let u := awaitDrain (.engine e) n a p
        (u.mayLoft (.engine e) n a = false ∨ u.inpassWord n a = true → Does (row.1 e) s fun t =>
          t = notify s (endStep e (faultAt e 5 1 (u.bump F.stMemerr_DENY n))))
        ∧ (∀ w, u.mayLoft (.engine e) n a = true → u.inpassWord n a = false → readCode (u.raw (loftPlace n a)) = .ok w →
          Does (row.1 e) s fun t =>
            Completes s t e i
              (let v := memWrite (loftPlace n a) (row.2.2 w ((u.e e).reg i.tgt)) u
               v.setE e ((v.e e).setReg i.tgt w))
            ∧ readCode (t.raw (loftPlace n a)) = .ok (row.2.2 w ((u.e e).reg i.tgt))))
      ∧ (∀ a, engPlace e (i.addr (s.e e)) = .priv a → (s.e e).psw.getLsbD 3 = true ∨ 0x40 ≤ a → Does (row.1 e) s fun t =>
          t = notify s (endStep e (faultAt e 6 3 p)) ∧ ∀ b, t.raw b = s.raw b)
      ∧ (engPlace e (i.addr (s.e e)) = .hole → Does (row.1 e) s fun t =>
          t = notify s (endStep e (faultAt e 6 1 p)) ∧ ∀ b, t.raw b = s.raw b)

/-! ### Engines: branches, calls, loops and repeats -/

/-- BZ, BNZ and BRA: the delay slot runs next, and control then passes to the destination where the branch is taken; a taken
one whose destination lies outside LS–LE ends the loop. -/
def Stated.BranchesRunTheirDelaySlot : Prop :=
  ∀ row ∈ ([(.bz, 0x28, fun w => w == 0), (.bnz, 0x29, fun w => w != 0), (.bra, 0x2A, fun _ => true)] :
      List ((Fin 128 → Instr) × Nat × (Word → Bool))),
    ∀ (s : State) (e : Fin 128) (i : Insn) (d : BitVec 16) (u : State),
      Issues s e i → i.op = row.2.1 → Target (passBreak e s) e i d u →
        Does (row.1 e) s fun t =>
          let x := u.e e
          let taken := row.2.2 (x.reg i.tgt)
          t = notify s (u.setE e { x with
            pc := x.pc + BitVec.ofNat 16 i.len
            slot := some x.pc
            nxt := if taken then some d else none
            psw := if taken ∧ x.psw.getLsbD 4 = true ∧ ¬ d - x.ls ≤ x.le - x.ls then x.psw &&& 0x2F else x.psw })

/-- JSR: with SP 0 or SP − 1 below SPLIM the stack-limit exception; else the address after the delay slot goes to the zero-page
word SP − 1 and the delay slot runs next. -/
def Stated.JsrPushesTheReturnAddress : Prop :=
  ∀ (s : State) (e : Fin 128) (i : Insn), Issues s e i → i.op = 0x2B →
    let sp := (s.e e).sp
    if sp = 0 ∨ sp - 1 < (s.e e).splim then
      Does (.jsr e) s fun t => t = notify s (endStep e (faultAt e 4 0 (passBreak e s)))
    else ∀ (d : BitVec 16) (u : State), Target (passBreak e s) e i d u →
      Does (.jsr e) s fun t =>
        let x := u.e e
        t = notify s ((memWrite (privPlace e (sp - 1).toNat) ((x.pc + BitVec.ofNat 16 i.len + 1).setWidth 48) u).setE e
          { x with sp := sp - 1, pc := x.pc + BitVec.ofNat 16 i.len, slot := some x.pc, nxt := some d })

/-- RTS: the destination is bits 15:0 of the zero-page word SP, SP goes up, and the delay slot runs next; an uncorrectable word
raises uncorrectable-data with DETAIL 2. -/
def Stated.RtsPopsTheReturnAddress : Prop :=
  ∀ (s : State) (e : Fin 128) (i : Insn), Issues s e i → i.op = 0x2C →
    let a := privPlace e (s.e e).sp.toNat
    (∀ w, readCode (s.raw a) = .ok w → Does (.rts e) s fun t =>
      t = notify s (s.setE e { s.e e with
        sp := (s.e e).sp + 1, pc := (s.e e).pc + 1, slot := some (s.e e).pc, nxt := some (w.setWidth 16), bpPass := false }))
    ∧ (∀ w y, readCode (s.raw a) = .ue w y → Does (.rts e) s fun t =>
      t = notify s (endStep e (faultAt e 1 2 (countUE a y (passBreak e s)))))

/-- LPB: LS, LE and LC are set, and control passes to LS with LA set, or past LE where LC is 0; under LA, or with a length below
1, it is illegal. -/
def Stated.LpbBeginsALoop : Prop :=
  ∀ (s : State) (e : Fin 128) (i : Insn), Issues s e i → i.op = 0x30 → i.opnd < 4096 →
    let x := s.e e
    let lc : BitVec 24 := (x.reg i.tgt).setWidth 24
    let le := x.pc + BitVec.ofNat 16 i.opnd
    if x.psw.getLsbD 4 = true ∨ i.opnd = 0 ∨ 2048 ≤ i.opnd then
      Does (.lpb e) s fun t => t = notify s (endStep e (faultAt e 2 0 (passBreak e s)))
    else Does (.lpb e) s fun t =>
      t = notify s (endStep e (s.setE e { x with
        ls := x.pc + 1, le := le, lc := lc, nxt := none, slot := none, bpPass := false
        psw := if lc = 0 then x.psw else x.psw ||| 0x10
        pc := if lc = 0 then le + 1 else x.nxt.getD (x.pc + 1) }))

/-- The end of an instruction outside a repeat: control passes to the following address, or to the destination of the branch
whose delay slot it was; at LE of an active loop LC goes down, and control passes to LS, or past LE with LA cleared. Stated of
NOP. -/
def Stated.LoopDecisionAtLoopEnd : Prop :=
  ∀ (s : State) (e : Fin 128) (i : Insn), Issues s e i → i.op = 0 → (s.e e).stepReq = false →
    let x := s.e e
    let y := { x with slot := none, nxt := none, bpPass := false }
    let atEnd : Prop := x.pc = x.le ∨ (i.mode = 7 ∧ x.pc + 1 = x.le)
    ((x.psw.getLsbD 4 = true ∧ atEnd) → Does (.nop e) s fun t => t = notify s (s.setE e
        (if x.lc = 1 then { y with lc := 0, psw := x.psw &&& 0x2F, pc := x.pc + if i.mode = 7 then 2 else 1 } else { y with lc := x.lc - 1, pc := x.ls })))
    ∧ (¬(x.psw.getLsbD 4 = true ∧ atEnd) → Does (.nop e) s fun t => t = notify s (s.setE e
        { y with pc := x.nxt.getD (x.pc + if i.mode = 7 then 2 else 1) }))

/-- REP: a count above 64 is illegal, a count of 0 passes over the repeated instruction, and REP n of ADD A, #k adds k to A n
times, leaves the carry of the last sum, and goes on after it. -/
def Stated.RepRunsTheNextInstruction : Prop :=
  ∀ (s : State) (e : Fin 128) (i r : Insn) (a : BitVec 16), Issues s e i → i.op = 0x31 → Repeats s e i a r →
    let n := (i.plain (s.e e)).toNat
    let u := s.setE e { s.e e with pc := a, nxt := none, bpPass := false }
    (64 < n → Does (.rep e) s fun t => t = notify s (endStep e (faultAt e 2 0 (passBreak e s))))
    ∧ (n = 0 → s.repOk e r = true → Does (.rep e) s fun t => Completes s t e r u)
    ∧ (1 ≤ n → n ≤ 64 → r.op = 0x08 → r.mode = 0 → r.tgt = 0 → Does (.rep e) s fun t =>
        let k := BitVec.ofInt 48 (toSigned 12 r.opnd)
        let b := (s.e e).a + BitVec.ofNat 48 (n - 1) * k
        Completes s t e r (u.setE e (({ u.e e with a := b + k } : Eng).setCarry
          (decide (2 ^ 48 ≤ b.toNat + k.toNat)))))

/-- REPI: LC := s and RA, and the repeated instruction runs next; 0 passes over it; a negative operand, one of 2^24 or more, or
a REPI under LA is illegal. -/
def Stated.RepiBeginsARepeat : Prop :=
  ∀ (s : State) (e : Fin 128) (i r : Insn) (a : BitVec 16), Issues s e i → i.op = 0x32 → Repeats s e i a r → r.repiOk = true →
    let v := i.plain (s.e e)
    if (s.e e).psw.getLsbD 4 = true ∨ 2 ^ 24 ≤ v.toNat then
      Does (.repi e) s fun t => t = notify s (endStep e (faultAt e 2 0 (passBreak e s)))
    else Does (.repi e) s fun t =>
      t = notify s (endStep e (s.setE e { s.e e with
        lc := v.setWidth 24, nxt := none, slot := none, bpPass := false
        psw := if v = 0 then (s.e e).psw else (s.e e).psw ||| 0x20
        pc := if v = 0 then a + 1 else a }))

/-- An iteration of a repeat: with LC above 1 the instruction at PC runs, LC goes down and PC stays; with LC 1 RA clears and
control goes on. Stated of ADD A, #k, which touches no index register. -/
def Stated.RepeatedIterationCountsDown : Prop :=
  ∀ (s : State) (e : Fin 128) (i : Insn), Fetches s e i → (s.e e).psw.getLsbD 5 = true → (s.e e).lc ≠ 0 → (s.e e).stepReq = false →
    i.op = 0x08 → i.mode = 0 → i.tgt = 0 →
    Does (.add e) s fun t =>
      let x := s.e e
      let k := BitVec.ofInt 48 (toSigned 12 i.opnd)
      let y := (({ x with a := x.a + k, bpPass := false, wait := none } : Eng).setCarry (decide (2 ^ 48 ≤ x.a.toNat + k.toNat)))
      t = notify s (s.setE e (if x.lc = 1 then
          { y with lc := 0, psw := y.psw &&& 0x1F, pc := x.nxt.getD (x.pc + 1), nxt := none, slot := none }
        else { y with lc := x.lc - 1 }))

/-! ### Engines: exceptions and debug (chapter 05) -/

/-- TRAP enters its handler with class 7 and code s[7:0], EPC at the next instruction; while EXL is 1 the engine halts instead,
with the second class in DBGSTAT and the saved registers as they were. -/
def Stated.TrapEntersOrHalts : Prop :=
  ∀ (s : State) (e : Fin 128) (i : Insn), Issues s e i → i.op = 0x2D →
    let next := (s.e e).nxt.getD ((s.e e).pc + 1)
    let after := next + if insnMode (s.peek e next.toNat) = 7 then 2 else 1
    ((s.e e).exl = false → ∀ w, VectorWord s e 7 0 w → Does (.trap e) s fun t =>
      t = notify s (endStep e (entered e 7 ((i.plain (s.e e)).toNat % 256) next after w (passBreak e s))))
    ∧ ((s.e e).exl = true → Does (.trap e) s fun t =>
      t.fld F.dbgStat_HALTED (e / 8) (e % 8) = 1 ∧ t.fld F.dbgStat_WHY (e / 8) (e % 8) = 4
        ∧ t.fld F.dbgStat_XCLASS (e / 8) (e % 8) = 7 ∧ t.fld F.dbgStat_DX (e / 8) (e % 8) = 1
        ∧ t.e e = { s.e e with haltReq := false, stepReq := false, bpPass := false })

/-- An opcode that the table of R73 does not hold, read where nothing is taken first, raises illegal-instruction. -/
def Stated.IllegalOpcodeIsTrapped : Prop :=
  ∀ (s : State) (e : Fin 128) (w : Word), s.mayIssue e = true → (s.e e).ra = false → (s.e e).exl = false →
    readCode (s.raw (codePlace e (s.e e).pc.toNat)) = .ok (readCode (s.raw (codePlace e (s.e e).pc.toNat))).word →
    (insnMode (s.peek e (s.e e).pc.toNat) = 7 →
      readCode (s.raw (codePlace e ((s.e e).pc.toNat + 1))) = .ok (readCode (s.raw (codePlace e ((s.e e).pc.toNat + 1)))).word) →
    insnOp (s.peek e (s.e e).pc.toNat) ∈ [0x05, 0x06, 0x07, 0x1E, 0x1F, 0x24, 0x25, 0x26, 0x27, 0x2F, 0x33, 0x3B, 0x3E, 0x3F] →
    VectorWord s e 2 0 w →
    Does (.illegalOpcode e) s fun t =>
      t = notify s (endStep e (entered e 2 0 (s.e e).pc
        ((s.e e).nxt.getD ((s.e e).pc + if (s.e e).slot = none ∧ insnMode (s.peek e (s.e e).pc.toNat) = 7 then 2 else 1)) w s))

/-- The interrupt point of R103 where nothing of a higher order than the asynchronous cause `c` is due: no delay slot is
about to run, and neither a halt nor EXL holds it off. -/
abbrev Samples (s : State) (e : Fin 128) : Prop :=
  s.engRuns e = true ∧ ((s.e e).slot = none ∨ (s.e e).wait.isSome = true) ∧ (s.e e).haltReq = false ∧ (s.e e).exl = false

/-- The debugger's requests: HALT asks for a halt at the next interrupt point, where it is taken; a breakpoint halts the engine
before its instruction; RUN and STEP let a halted engine go on. -/
def Stated.DebugHaltAndRun : Prop :=
  ∀ (s : State) (e : Fin 128),
    (s.engRuns e = true → ((s.e e).slot = none ∨ (s.e e).wait.isSome = true) → (s.e e).haltReq = true →
      Does (.debugHaltTaken e) s fun t =>
        t = notify s (((s.setE e { s.e e with haltReq := false, stepReq := false }).put F.dbgStat_HALTED 1 (e / 8) (e % 8)).put
          F.dbgStat_WHY 1 (e / 8) (e % 8)))
    ∧ (s.engRuns e = true → s.asyncDue e = none → (s.e e).wait = none → (s.e e).slot = none → (s.e e).bpPass = false →
        s.fld F.dbgCtl_BPEN (e / 8) (e % 8) ≠ 0 → s.fld F.dbgBp_ADDR (e / 8) (e % 8) = (s.e e).pc.toNat →
      Does (.breakpointHalt e) s fun t =>
        t = notify s (((s.setE e { s.e e with haltReq := false, stepReq := false }).put F.dbgStat_HALTED 1 (e / 8) (e % 8)).put
          F.dbgStat_WHY 3 (e / 8) (e % 8)))
    ∧ ∀ w, s.heard w = true → s.applied = true → s.mayDebug w = true →
      (s.fld F.dbgStat_HALTED (e / 8) (e % 8) = 0 → Does (.dbgHalt w e) s fun t =>
        t.e e = { s.e e with haltReq := true } ∧ t.fld F.dbgStat_HALTED (e / 8) (e % 8) = 0)
      ∧ (s.fld F.dbgStat_HALTED (e / 8) (e % 8) ≠ 0 → s.fld F.dbgStat_WHY (e / 8) (e % 8) ≠ 3 →
        (Does (.dbgRun w e) s fun t =>
          t.e e = { s.e e with haltReq := false, stepReq := false, bpPass := false }
            ∧ t.fld F.dbgStat_HALTED (e / 8) (e % 8) = 0 ∧ t.fld F.dbgStat_WHY (e / 8) (e % 8) = 0)
        ∧ (Does (.dbgStep w e) s fun t =>
          t.e e = { s.e e with haltReq := false, stepReq := true, bpPass := false }
            ∧ t.fld F.dbgStat_HALTED (e / 8) (e % 8) = 0 ∧ t.fld F.dbgStat_WHY (e / 8) (e % 8) = 0))

/-- DBGDATA reaches the registers of a halted engine alone: A, X, Y, PC and EXL by DBGSEL 0, 1, 2, 6 and 7; ones written to EIRQS
set pending bits. Everything else stays. -/
def Stated.DebugDataAndSoftInterrupts : Prop :=
  ∀ (s : State) (w : Who) (e : Fin 128), s.heard w = true → s.applied = true → s.mayDebug w = true → (∀ k, w ≠ .engine k) →
    (∀ v, s.fld F.dbgStat_HALTED (e / 8) (e % 8) = 0 → Does (.dbgdataWrite w e v) s fun t => t = notify s (s.emit (.resp w 0 [] false)))
    ∧ (∀ v, s.fld F.dbgStat_HALTED (e / 8) (e % 8) ≠ 0 → Does (.dbgdataWrite w e v) s fun t =>
        let x := s.e e
        let sel := s.fld F.dbgSel_REG (e / 8) (e % 8)
        (sel = 0 → t = notify s ((s.setE e { x with a := v }).emit (.resp w 0 [] false)))
        ∧ (sel = 1 → t = notify s ((s.setE e { x with x := v }).emit (.resp w 0 [] false)))
        ∧ (sel = 2 → t = notify s ((s.setE e { x with y := v }).emit (.resp w 0 [] false)))
        ∧ (sel = 6 → t = notify s ((s.setE e { x with pc := v.setWidth 16, nxt := none, slot := none, wait := none, bpPass := false }).emit (.resp w 0 [] false)))
        ∧ (sel = 7 → t = notify s ((s.setE e { x with exl := v.getLsbD 0 }).emit (.resp w 0 [] false))))
    ∧ (∀ v : BitVec 16, Does (.eirqsSet w e v) s fun t =>
        t = notify s ((s.put F.eirq_PEND (s.fld F.eirq_PEND (e / 8) (e % 8) ||| v.toNat) (e / 8) (e % 8)).emit (.resp w 0 [] false)))

/-! ### Engines: special registers, events, time and tasks -/

/-- The special registers by number (R64). -/
def specials (x : Eng) (e : Fin 128) : List Word :=
  [x.psw.setWidth 48, x.lc.setWidth 48, x.ls.setWidth 48, x.le.setWidth 48, x.splim.setWidth 48, x.epc.setWidth 48,
    x.enpc.setWidth 48, x.ecause.setWidth 48, x.ebk.setWidth 48, x.epsw.setWidth 48, x.crcp.setWidth 48,
    wd (b2n x.tv * 2 ^ 33 + x.inc * 2 ^ 25 + x.fn * 2 ^ 16 + e.val)]

/-- MFSR reads the special register that OPND names; numbers from 12 on are illegal. -/
def Stated.MfsrReadsSpecialRegisters : Prop :=
  ∀ (s : State) (e : Fin 128) (i : Insn), Issues s e i → i.op = 0x3C →
    Does (.mfsr e) s fun t => match (specials (s.e e) e)[i.opnd % 32]? with
      | some v => Completes s t e i ((passBreak e s).setE e (((passBreak e s).e e).setReg i.tgt v))
      | none => t = notify s (endStep e (faultAt e 2 0 (passBreak e s)))

/-- MTSR: in supervisor mode the low bits go to the register, RA of PSW stays, and IE = 1 clears EXL; in task mode only C and LT
of PSW, LC, LS, LE and CRCP can be written; EID and the reserved numbers are illegal. -/
def Stated.MtsrWritesSpecialRegisters : Prop :=
  ∀ (s : State) (e : Fin 128) (i : Insn), Issues s e i → i.op = 0x3D →
    let p := passBreak e s
    let x := p.e e
    let v := x.reg i.tgt
    let n := i.opnd % 32
    Does (.mtsr e) s fun t =>
      if 11 ≤ n then t = notify s (endStep e (faultAt e 2 0 p))
      else if x.psw.getLsbD 3 = false ∧ 4 ≤ n ∧ n ≤ 9 then t = notify s (endStep e (faultAt e 3 0 p))
      else if n = 0 then
        (if x.psw.getLsbD 3 = true then
          Completes s t e i (p.setE e { x with psw := (x.psw &&& 0x20) ||| (v.setWidth 6 &&& 0x1F), exl := x.exl && !v.getLsbD 2 })
        else Completes s t e i (p.setE e { x with psw := (x.psw &&& 0x3C) ||| (v.setWidth 6 &&& 3) }))
      else ∃ y, Completes s t e i (p.setE e y) ∧ y ∈ [
        { x with lc := v.setWidth 24 }, { x with ls := v.setWidth 16 }, { x with le := v.setWidth 16 }, { x with splim := v.setWidth 12 },
        { x with epc := v.setWidth 16 }, { x with enpc := v.setWidth 16 }, { x with ecause := v.setWidth 12 },
        { x with ebk := v.setWidth 12 }, { x with epsw := v.setWidth 6 }, { x with crcp := v.setWidth 17 }][n - 1]?

/-- SEV sets one event bit in one engine, or in the eight engines of a stable; an operand that R88 does not allow is illegal, and
in task mode a stable outside the function's affinity is refused. -/
def Stated.SevSetsEvents : Prop :=
  ∀ (s : State) (e : Fin 128) (i : Insn), Issues s e i → i.op = 0x35 →
    let p := passBreak e s
    let v := (i.plain (s.e e)).toNat
    let engines := if v.testBit 11 then (List.range 8).map (fun k => 8 * (v / 128 % 16) + k) else [v / 16 % 128]
    Does (.sev e) s fun t =>
      if 13 ≤ v % 16 ∨ (v.testBit 11 = true ∧ v / 16 % 8 ≠ 0) then t = notify s (endStep e (faultAt e 2 0 p))
      else if (s.e e).psw.getLsbD 3 = false ∧ (s.fld F.fnCfg_AFFINITY (s.engFn e)).testBit (v / 128 % 16) = false then
        t = notify s (endStep e (faultAt e 5 4 p))
      else Completes s t e i (engines.foldl (fun u k =>
        u.setE k { u.e k with ev := (u.e k).ev ||| BitVec.ofNat 16 (2 ^ (v % 16)) }) p)

/-- TKR puts TK into t. WUNT waits while TK is before T, by the signed difference; at or past T it puts the difference into t and
sets LT where it is positive. A waiting WUNT ends when TK is T, with t = 0. -/
def Stated.TickReadsAndWaits : Prop :=
  (∀ (s : State) (e : Fin 128) (i : Insn), Issues s e i → i.op = 0x37 →
    Does (.tkr e) s fun t =>
      let p := passBreak e s
      Completes s t e i (p.setE e ((p.e e).setReg i.tgt (BitVec.ofNat 48 ((s.tick - s.tkBase) % 2 ^ 32)))))
  ∧ (∀ (s : State) (e : Fin 128) (i : Insn) (v : Word) (u : State), Issues s e i → i.op = 0x36 → Operand (passBreak e s) e i v u →
    let d : BitVec 32 := BitVec.ofNat 32 (u.tick - u.tkBase) - v.setWidth 32
    Does (.wunt e) s fun t =>
      if d.msb = true then t = notify s (u.setE e { u.e e with wait := some (.wunt (v.setWidth 32).toNat i.tgt) })
      else
        let x := (u.e e).setReg i.tgt (d.setWidth 48)
        Completes s t e i (u.setE e { x with psw := if d = 0 then x.psw else x.psw ||| 2 }))
  ∧ ∀ (s : State) (e : Fin 128) (v tgt : Nat), s.engRuns e = true → s.asyncDue e = none → (s.e e).wait = some (.wunt v tgt) →
    s.tk = v → Does (.wuntExpire e) s fun t =>
      Completes s t e (insnOf (s.peek e (s.e e).pc.toNat) 0)
        (s.setE e { (s.e e).setReg tgt 0 with wait := none })

/-- TPUSH puts the disposition of the push of A:X into t: ABANDONED while the function is being reset, DENIED where it is
undefined or not running, or where a task-mode engine pushes for another function, STALE for another incarnation; each refusal
counts where R115 says so and changes nothing else. A task that is accepted for the own deque goes on top of it, and t is 0. -/
def Stated.TpushReportsRefusals : Prop :=
  ∀ (s : State) (e : Fin 128) (i : Insn), Issues s e i → i.op = 0x38 → s.fnState (s.e e).fn ≠ 3 →
    let p := passBreak e s
    let d : Task := ⟨(s.e e).a, (s.e e).x⟩
    let f := bits (s.e e).a.toNat 39 9
    let ends := fun (disp : Word) (u t : State) => Completes s t e i (u.setE e ((u.e e).setReg i.tgt disp))
    (s.fnState f = 3 → Does (.tpush e) s fun t => ends 6 (p.bump F.fnCnt_ABANDON f) t)
    ∧ ((s.fnState f = 0 ∨ s.fnState f = 1) → Does (.tpush e) s fun t => ends 9 p t)
    ∧ (s.fnState f = 2 → (s.e e).psw.getLsbD 3 = false → (s.e e).fn ≠ f →
        Does (.tpush e) s fun t => ends 9 p t)
    ∧ (s.fnState f = 2 → (s.e e).psw.getLsbD 3 = true → d.rs = false → bits (s.e e).a.toNat 31 8 ≠ s.inc f →
        Does (.tpush e) s fun t => ends 7 (p.bump F.fnCnt_STALE f) t)
    ∧ (s.fnState f = 2 → (s.e e).psw.getLsbD 3 = true → d.rs = false → bits (s.e e).a.toNat 31 8 = s.inc f →
        s.fld F.fnShare_TASKLIM f < p.useTasks f + 1 →
        Does (.tpush e) s fun t => ends 2 (p.bump F.fnCnt_REFQ f) t)
    ∧ (s.fnState f = 2 → (s.e e).psw.getLsbD 3 = true → d.rs = false → bits (s.e e).a.toNat 31 8 = s.inc f →
        p.useTasks f + 1 ≤ s.fld F.fnShare_TASKLIM f → (s.fld F.fnCfg_AFFINITY f).testBit (e / 8) = true → d.u ≠ 0 →
        (s.e e).deque.length < 15 → s.fld F.stDqstat_GATED (e / 8) = 0 → i.tgt = 0 →
        Does (.tpush e) s fun t => (t.e e).a = 0 ∧ (t.e e).x = (s.e e).x ∧ (t.e e).deque = d :: (s.e e).deque
          ∧ (t.e e).ev = (s.e e).ev ||| 0x8000)

/-- A task that the dispatch gives to an engine: A and X take the descriptor, EID its function and incarnation; nothing but that,
the queue it was taken from and the counts of R118 changes in the engine. Of the engines that wait, the one that R118 serves first takes it. -/
def Stated.EnginesReceiveTasks : Prop :=
  let given := fun (x : Eng) (t : Task) => { x with
    a := t.w0, x := t.w1, tv := true, fn := bits t.w0.toNat 39 9, inc := bits t.w0.toNat 31 8, cur := some t, runt := 0, qTaken := false }
  (∀ (s : State) (e : Fin 128) (i : Insn), Issues s e i → i.op = 0x39 → (s.e e).tv = false → s.fnState (s.e e).fn ≠ 3 →
    let p := passBreak e s
    p.purged →
    (∀ x, p.findTask e = some x →
      (Does (.tnext e) s fun t => Completes s t e i (giveTask e x p))
        ∧ { (giveTask e x p).e e with deque := [], ev := 0 } = { given (p.e e) x.2 with deque := [], ev := 0 })
    ∧ (p.findTask e = none → i.opnd = 0 → Does (.tnext e) s fun t =>
        t = notify s (p.setE e { p.e e with tv := false, fn := 0, wait := some .tnext }))
    ∧ (p.findTask e = none → i.opnd = 1 → Does (.tnext e) s fun t =>
        Completes s t e i (p.setE e { p.e e with tv := false, fn := 0, a := 0, x := 0 })))
  ∧ ∀ (s : State) (e : Fin 128) (x : Found), s.engRuns e = true → s.asyncDue e = none → s.idle e = true →
    (s.e e).psw.getLsbD 5 = false → s.purged → s.findTask e = some x → s.servedBefore e x = false → Does (.taskDispatch e) s fun t =>
      (t.e e).a = x.2.w0 ∧ (t.e e).x = x.2.w1 ∧ (t.e e).tv = true ∧ (t.e e).fn = bits x.2.w0.toNat 39 9
        ∧ (t.e e).inc = bits x.2.w0.toNat 31 8 ∧ (t.e e).wait = none

/-- TDONE ends the current task: EID.TV clears and STCNT0.DONE counts once; without a current task it has no effect. -/
def Stated.TdoneEndsTheTask : Prop :=
  ∀ (s : State) (e : Fin 128) (i : Insn), Issues s e i → i.op = 0x3A →
    ((s.e e).tv = false → Does (.tdone e) s fun t => Completes s t e i (passBreak e s))
    ∧ ((s.e e).tv = true → Does (.tdone e) s fun t =>
        (t.e e).tv = false ∧ (t.e e).cur = none ∧ (t.e e).a = (s.e e).a ∧ (t.e e).x = (s.e e).x
          ∧ t.fld F.stCnt0_DONE (e / 8) = min (s.fld F.stCnt0_DONE (e / 8) + 1) (2 ^ F.stCnt0_DONE.width - 1))

/-! ### Registers, commits, deltas and keys (chapter 02) -/

/-- Registers that hold only what is written to them, one or more of every block. -/
def plainRegs : List RegId :=
  [.ckCfg0, .faCfg0, .pwEvt, .stSched, .stCfg, .mgCfg0, .epCfg0, .epEvt, .ydQcfg, .tmEvt, .svCfg0, .pgCfg, .pdEvt, .canNbt, .piPin,
    .twCfg0, .twEvt, .fnQuota, .icLvl, .mbEnd]

/-- A write to a register acts on each field by its access type: RW takes the value, W1C clears the bits written 1, SH goes to the
shadow copy with DIRTY set and leaves the active value, and the others keep theirs; no other field changes. -/
def Stated.PlainFieldsFollowTheirAccess : Prop :=
  ∀ (s : State) (w : Who) (off : Nat) (v : BitVec 64) (r : RegId) (i j : Nat), r ∈ plainRegs → hostPlace off = .reg r i j →
    s.heard w = true → isHost w = true ∨ engReach off = true → s.applied = true → s.fld F.gcLaystat_APPLYING = 0 → s.supervisor w = true →
    s.fnState i ≠ 0 →
    Does (.registerWrite w off 0xFF v) s fun t =>
      (∀ f ∈ r.flds,
        (f.acc = .rw → t.fld f i j = bits v.toNat f.lo f.width)
        ∧ (f.acc = .w1c → t.fld f i j = s.fld f i j &&& (2 ^ f.width - 1 - bits v.toNat f.lo f.width))
        ∧ (f.acc = .ro ∨ f.acc = .rc ∨ f.acc = .lk ∨ f.acc = .wo → t.fld f i j = s.fld f i j)
        ∧ (f.acc = .sh → t.shadow f i j = bits v.toNat f.lo f.width ∧ t.fld f i j = s.fld f i j
            ∧ ∀ b, blockOf f i = some b → t.cfld F.commit_DIRTY b = 1))
      ∧ (∀ (g : Fld) a b, g.id ∉ r.flds.map (·.id) → g.id ≠ F.commit_DIRTY.id → t.fld g a b = s.fld g a b)
      ∧ t.eng = s.eng ∧ t.lay = s.lay ∧ ∀ a, t.raw a = s.raw a

/-- Registers with fields that a layout locks, and that are written before one. -/
def lockedRegs : List RegId := [.ckCfg0, .faCfg0, .faTelda, .pwCfg1]

/-- Registers of counters that reading clears. -/
def countRegs : List RegId :=
  [.gcUnmap, .pwCnt, .pwOcnt, .svCnt, .ydPcnt, .ydQcnt, .epCnt0, .epCnt1, .epCnt2, .canCnt, .pdCnt, .twCnt0, .stCnt0, .stMemerr, .mgCnt, .fnCnt,
    .mbCnt, .icCnt]

/-- LK fields take a write until the layout is applied; a write of 1 to a W1S field sets it and one of 0 does nothing; a WO field acts on the value
written, as the command of its name, and reads zero; reading an RC field answers its value and clears it. -/
def Stated.LockedWriteOnlyAndReadClearFields : Prop :=
  ∀ (s : State) (w : Who) (off : Nat) (v : BitVec 64) (r : RegId) (i j : Nat), hostPlace off = .reg r i j → s.heard w = true →
    w ∈ [Who.pf, .qspi, .mgmt] →
    (r ∈ lockedRegs → s.applied = false → Does (.registerWrite w off 0xFF v) s fun t =>
      ∀ f ∈ r.flds, f.acc = .lk ∨ f.acc = .rw → t.fld f i j = bits v.toNat f.lo f.width)
    ∧ (s.applied = true → (r = .fnCtl → ∀ k : Fin 512, i = k.val →
        exec (.registerWrite w off 0xFF 1) s = exec (.fnReset w k) s ∧ exec (.registerWrite w off 0xFF 2) s = exec (.fnRelease w k) s)
      ∧ (r = .canTxCtl → ∀ (n : Fin 4) (k : Fin 3), i = n.val → j = k.val →
        exec (.registerWrite w off 0xFF 1) s = exec (.canTxRequest w n k) s ∧ exec (.registerWrite w off 0xFF 2) s = exec (.canTxAbort w n k) s
          ∧ Does (.registerWrite w off 0xFF 0) s fun t => t = notify s (finish w { st := s }))
      ∧ (r ∈ countRegs → off % 8 = 0 → (r = .fnCnt → s.fnState i ≠ 0) → Does (.hostMemoryRead w ⟨off, 0⟩) s fun t =>
        Out.resp w 0 [s.regWord r i j] false ∈ t.out
          ∧ (∀ f ∈ r.flds, f.acc = .rc → t.fld f i j = 0 ∧ (s.fld f i j < 2 ^ f.width → bits (s.regWord r i j).toNat f.lo f.width = s.fld f i j))
          ∧ (∀ g a b, g.id ∉ r.flds.map (·.id) → t.fld g a b = s.fld g a b) ∧ t.eng = s.eng ∧ ∀ a, t.raw a = s.raw a))
    ∧ ∀ f ∈ r.flds, f.acc = .wo → s.shown f i j = 0

/-- A host access to a reserved address is counted with its address; a read answers zero and nothing else changes. -/
def Stated.ReservedAccessesAreCounted : Prop :=
  ∀ (s : State) (w : Who) (off : Nat) (wr : Bool), s.heard w = true → isHost w = true → hostPlace off = .hole →
    Does (.reservedHostAccess w off wr) s fun t =>
      t = notify s (((s.bump F.gcUnmap_CNT).put F.gcUnmap_ADDR off).emit (.resp w 0 (if wr then [] else [0]) false))

/-- A supervisor host reads a loft word, or two slots in turn: without error its data; an uncorrectable one answers POISONED with the stored data bits and is
counted. -/
def Stated.HostReadsLoftWords : Prop :=
  ∀ (s : State) (w : Who) (off n a : Nat), s.heard w = true → s.applied = true → w ∈ [Who.pf, .qspi, .mgmt] →
    hostPlace off = .loft n a → loftReserved a = false →
    (∀ x, readCode (s.raw (loftPlace n a)) = .ok x → Does (.hostMemoryRead w ⟨off, 0⟩) s fun t =>
      t = notify s (s.emit (.resp w 0 [x] false)))
    ∧ (∀ x y, readCode (s.raw (loftPlace n a)) = .ue x y → Does (.hostMemoryRead w ⟨off, 0⟩) s fun t =>
      t = notify s ((countUE (loftPlace n a) y s).emit (.resp w 8 [x] true)))
    ∧ (∀ x x', off % 8 = 0 → hostPlace (off + 8) = .loft n (a + 1) → loftReserved (a + 1) = false →
      readCode (s.raw (loftPlace n a)) = .ok x → readCode (s.raw (loftPlace n (a + 1))) = .ok x' → Does (.hostMemoryRead w ⟨off, 1⟩) s fun t =>
        t = notify s ((s.emit (.resp w 0 [x] false)).emit (.resp w 0 [x'] false)))

/-- A supervisor host writes a loft word that is no in-passing word: a full write replaces it; a partial write keeps the other bytes of a
good word, and on an uncorrectable word it is refused as POISONED and counted. No other word changes. -/
def Stated.HostWritesMergeBytes : Prop :=
  ∀ (s : State) (w : Who) (off n a : Nat) (be : BitVec 8) (v : BitVec 64), s.heard w = true → s.applied = true →
    w ∈ [Who.pf, .qspi, .mgmt] → hostPlace off = .loft n a → loftReserved a = false → s.inpassWord n a = false →
    let place := loftPlace n a
    (be.toNat % 64 = 63 → Does (.hostMemoryWrite w off be v) s fun t =>
      t = notify s ((memWrite place (v.setWidth 48) s).emit (.resp w 0 [] false)) ∧ ∀ b, b ≠ place → t.raw b = s.raw b)
    ∧ (∀ x, be.toNat % 64 ≠ 63 → be.toNat % 64 ≠ 0 → readCode (s.raw place) = .ok x → Does (.hostMemoryWrite w off be v) s fun t =>
      (∃ y, readCode (t.raw place) = .ok y ∧ ∀ k < 6, y.extractLsb' (8 * k) 8 =
          if be.getLsbD k then (v.extractLsb' (8 * k) 8) else x.extractLsb' (8 * k) 8)
        ∧ ∀ b, b ≠ place → t.raw b = s.raw b)
    ∧ (∀ x y, be.toNat % 64 ≠ 63 → be.toNat % 64 ≠ 0 → readCode (s.raw place) = .ue x y → Does (.hostMemoryWrite w off be v) s fun t =>
      t = notify s (((countUE place y s).bump F.stMemerr_PWPOIS (Fin.ofNat 16 n)).emit (.resp w 8 [] false)) ∧ ∀ b, t.raw b = s.raw b)

/-- GO to a block's COMMIT register: with PEND 0 its shadow set is captured, DIRTY clears and PEND sets; with PEND 1 the commit is held, one
deep. At the boundary of an arbiter its captured set becomes active, PEND clears and CSEQ counts. No other block's set changes. -/
def Stated.CommitCapturesThenActivates : Prop :=
  (∀ (s : State) (w : Who) (b : Block), b ≠ .gc → s.heard w = true → s.applied = true → s.supervisor w = true → commitHidden w b = false →
    (s.cfld F.commit_PEND b = 0 → Does (.commitGo w b) s fun t =>
      t.cfld F.commit_PEND b = 1 ∧ t.cfld F.commit_DIRTY b = 0 ∧ t.shd = s.shd ∧ t.heldGo = s.heldGo
        ∧ ∀ d k, Tab.get d t.cap k = if inBlk b k then Tab.get d s.shd k else Tab.get d s.cap k)
    ∧ (s.cfld F.commit_PEND b = 1 → Does (.commitGo w b) s fun t =>
        t = notify s (finish w { st := if s.heldGo.contains b then s else { s with heldGo := b :: s.heldGo } })))
  ∧ ∀ (s : State) (x : Fin 19), s.cfld F.commit_PEND (.ic x) = 1 → s.heldGo.contains (.ic x) = false → s.boot.gcTrig = [] →
    Does (.commitActivate (.ic x)) s fun t =>
      t.cfld F.commit_PEND (.ic x) = 0
        ∧ t.cfld F.commit_CSEQ (.ic x) = (s.cfld F.commit_CSEQ (.ic x) + 1) % 2 ^ F.commit_CSEQ.width
        ∧ (∀ f i j, inBlk (.ic x) (f.key i j) = true → t.fld f i j = Tab.get f.reset s.cap (f.key i j))
        ∧ t.cap = s.cap ∧ t.shd = s.shd

/-- GO to GC.COMMIT: with INST set it waits for the next common instant while instants run; else every block whose DIRTY reads 1 is
captured, and with none CSEQ counts at once. -/
def Stated.GcCommitTriggersDirtyBlocks : Prop :=
  ∀ (s : State) (w : Who), s.heard w = true → notVf w = true → w ≠ .jtag →
    (s.fld F.mgInstat_RUN ≠ 0 → Does (.gcCommitGo w true) s fun t =>
      t = notify s (finish w { st := { s.put F.commit_INST 1 with boot := { s.boot with gcInst := true } } }))
    ∧ (Does (.gcCommitGo w false) s fun t => ∀ b ∈ allBlocks, s.cfld F.commit_DIRTY b = 1 → s.cfld F.commit_PEND b = 0 →
        t.cfld F.commit_DIRTY b = 0 ∧ t.cfld F.commit_PEND b = 1)
    ∧ ((∀ b ∈ allBlocks, s.cfld F.commit_DIRTY b ≠ 1) → s.boot.gcTrig = [] → Does (.gcCommitGo w false) s fun t =>
        t.fld F.commit_CSEQ = (s.fld F.commit_CSEQ + 1) % 2 ^ F.commit_CSEQ.width ∧ t.cap = s.cap)

/-- A delta is refused with code 15 while another is applied, with code 16 where no layout is, and with the code of its first failed check; one
that passes them and deletes no function has its shadows written, and its blocks are committed; the functions that another deletes are reset
first. Once the commit is through, the delta's version stands and DONE sets. -/
def Stated.DeltasAreCheckedAndApplied : Prop :=
  (∀ (s : State) (w : Who), s.heard w = true → notVf w = true → w ≠ .jtag →
    let m := s.staged
    let check := validate false s.dirCopy (fun k => (s.stageWord k).bad) m s
    let failed := fun (code sect : Nat) (t : State) =>
      t = notify s (finish w { st := ((s.put F.gcLaystat_ERR code).put F.gcLaystat_SECT sect).put F.gcLaystat_FAIL 1 })
    (s.fld F.gcLaystat_APPLYING ≠ 0 → Does (.deltaApply w) s (failed 15 0))
    ∧ (s.fld F.gcLaystat_APPLYING = 0 → s.applied = false ∨ s.fld F.gcLaystat_HALTER ≠ 0 → Does (.deltaApply w) s (failed 16 0))
    ∧ (s.fld F.gcLaystat_APPLYING = 0 → s.applied = true → s.fld F.gcLaystat_HALTER = 0 →
        (∀ k < m.slots.length, s.stageWord k = .ok (s.stageWord k).word) →
        (check.1 ≠ 0 → Does (.deltaApply w) s (failed check.1 check.2))
        ∧ (check.1 = 0 →
          (m.dels = [] → s.fns.any (fun p => p.2.delPend) = false → Does (.deltaApply w) s fun t =>
            t.fld F.gcLaystat_APPLYING = 1 ∧ t.boot.delta = some m.ver ∧ t.boot.deltaBlocks = m.blocks ∧ t.boot.deltaWait = false
              ∧ t.boot.news = m.news s ∧ t.lay = s.lay
              ∧ (∀ x ∈ m.shWrs, (∀ y ∈ m.shWrs, y.1.key y.2.1 y.2.2.1 = x.1.key x.2.1 x.2.2.1 → y = x) →
                  t.shadow x.1 x.2.1 x.2.2.1 = x.2.2.2 % 2 ^ x.1.width)
              ∧ (m.inst = false → ∀ x ∈ m.shWrs, ∀ b ∈ allBlocks, blockOf x.1 x.2.1 = some b → t.cfld F.commit_PEND b = 1))
          ∧ ∀ f ∈ m.dels, f ≠ 0 → f < 512 → s.fnState f ≠ 0 → Does (.deltaApply w) s fun t =>
            t.fld F.gcLaystat_APPLYING = 1 ∧ t.boot.delta = some m.ver ∧ t.boot.deltaWait = true ∧ (t.fn f).delPend = true
              ∧ (t.fnState f = 3 ∨ t.fld F.fnStatus_RSTPEND f ≠ 0) ∧ t.shd = s.shd ∧ t.lay = s.lay)))
  ∧ ∀ (s : State) (v : Nat), s.boot.delta = some v → s.boot.deltaWait = false → s.gcPend = false →
    Does .deltaApplyDone s fun t =>
      t.fld F.gcLaystat_APPLYING = 0 ∧ t.fld F.gcLaystat_DONE = 1 ∧ t.fld F.gcLayver_VER = v % 2 ^ F.gcLayver_VER.width
        ∧ t.boot.delta = none ∧ t.boot.deltaBlocks = [] ∧ t.shd = s.shd ∧ t.eng = s.eng

/-- A key slot is programmed once and revoked once: a request is refused while another runs, and a second one of its kind is denied; an
accepted one shows BUSY, and runs at once where the Ostler has leave for it; its end marks the slot and releases it. -/
def Stated.KeySlotsAreWrittenOnce : Prop :=
  (∀ (s : State) (w : Who) (k : Fin 4), s.heard w = true → w ∈ [Who.pf, .qspi, .mgmt] →
    let shown := fun (d : Nat) (t : State) => t = notify s (finish w { st := s.put F.gcKeyslot_DISP d k })
    let runs := fun (h : Option Nat) (t : State) =>
      t.fld F.gcKeyslot_BUSY k = 1 ∧ t.boot.keyOp = some (k.val, h) ∧ t.boot.keyHash = s.boot.keyHash
        ∧ (∀ j, t.fld F.gcKeyslot_WRITTEN j = s.fld F.gcKeyslot_WRITTEN j ∧ t.fld F.gcKeyslot_REVOKED j = s.fld F.gcKeyslot_REVOKED j)
        ∧ (s.leaveFree (OUse.key).k → (t.pw.grants.any fun g => g.use == .key) = true ∧ t.pw.queue = s.pw.queue)
    ((∃ j < 4, s.fld F.gcKeyslot_BUSY j ≠ 0) → Does (.keyProgram w k) s (shown 5) ∧ Does (.keyRevoke w k) s (shown 5))
    ∧ ((∀ j < 4, s.fld F.gcKeyslot_BUSY j = 0) →
      (s.fld F.gcKeyslot_WRITTEN k ≠ 0 ∨ 2 ^ 256 ≤ s.keyData → Does (.keyProgram w k) s (shown 9))
      ∧ (s.fld F.gcKeyslot_WRITTEN k = 0 → s.keyData < 2 ^ 256 → Does (.keyProgram w k) s (runs (some s.keyData)))
      ∧ (s.fld F.gcKeyslot_REVOKED k ≠ 0 → Does (.keyRevoke w k) s (shown 9))
      ∧ (s.fld F.gcKeyslot_REVOKED k = 0 → Does (.keyRevoke w k) s (runs none))))
  ∧ ∀ (s : State) (k : Nat) (h : Option Nat), s.boot.keyOp = some (k, h) →
    (s.pw.grants.any (fun g => g.use == .key) = false → Does .keyOperationEnd s fun t => t = notify s s)
    ∧ (s.pw.grants.any (fun g => g.use == .key) = true → Does .keyOperationEnd s fun t =>
      t.fld F.gcKeyslot_BUSY k = 0 ∧ t.fld F.gcKeyslot_DISP k = 0 ∧ t.boot.keyOp = none ∧ t.eng = s.eng
        ∧ (t.pw.grants.any fun g => g.use == .key) = false
        ∧ (∀ v, h = some v → t.fld F.gcKeyslot_WRITTEN k = 1 ∧ Tab.get 0 t.boot.keyHash k = v)
        ∧ (h = none → t.fld F.gcKeyslot_REVOKED k = 1 ∧ t.boot.keyHash = s.boot.keyHash))

/-! ### Functions (chapter 03) -/

/-- A reset of a function within 64 µs of its last is held; else, and when the hold ends, it begins: STATE is RESETTING, the engines that run
the function are to take its stop, and it waits for no bank. F0, an undefined function and one that is being reset are left alone, and a
virtual function that is not bound to the entry is ignored. -/
def Stated.FunctionResetsBegin : Prop :=
  let begun := fun (f : Fin 512) (s t : State) =>
    t.fld F.fnStatus_STATE f = 3 ∧ t.fld F.fnStatus_RSTPEND f = 0 ∧ t.inc f = s.inc f ∧ (t.fn f).releasing = false ∧ (t.fn f).stepAt = s.tick
      ∧ (∀ e : Fin 128, (s.e e).tv = true → (s.e e).fn = f.val → (t.e e).stopPend = true)
      ∧ (∀ i < 256, s.fld F.pwLease_STATE i = 2 → s.fld F.pwLease_FN i = f.val → t.fld F.pwLease_STATE i = 0) ∧ t.loft = s.loft
  (∀ (s : State) (w : Who) (f : Fin 512), s.heard w = true → s.applied = true →
    (∀ r, w = .vf r → s.vfOf f ≠ r.val + 1 → Does (.fnReset w f) s fun t => t = notify s (finish w { st := s }))
    ∧ (s.supervisor w = true ∨ (∃ r, w = .vf r ∧ s.vfOf f = r.val + 1) → w ≠ .jtag →
      ((f = 0 ∨ s.fnState f = 0 ∨ s.fnState f = 3 ∨ s.fld F.fnStatus_RSTPEND f ≠ 0) →
        Does (.fnReset w f) s fun t => t = notify s (finish w { st := s }))
      ∧ (f ≠ 0 → s.fnState f ∈ [1, 2] → s.fld F.fnStatus_RSTPEND f = 0 →
        (∀ x, (s.fn f).lastDone = some x → s.tick < x + 16000 →
          Does (.fnReset w f) s fun t => t = notify s (finish w { st := s.put F.fnStatus_RSTPEND 1 f }))
        ∧ (((s.fn f).lastDone = none ∨ ∃ x, (s.fn f).lastDone = some x ∧ x + 16000 ≤ s.tick) → Does (.fnReset w f) s (begun f s)))))
  ∧ ∀ (s : State) (f : Fin 512),
    (s.fld F.fnStatus_RSTPEND f = 0 → Does (.fnResetHoldExpire f) s fun t => t = notify s s)
    ∧ ∀ x, s.fld F.fnStatus_RSTPEND f ≠ 0 → (s.fn f).lastDone = some x → x + 16000 ≤ s.tick → Does (.fnResetHoldExpire f) s (begun f s)

/-- The end of a reset counts the incarnation, returns the function's banks to F0, sets RSTDONE, and leaves the function STOPPED, or UNDEFINED
where a delta deletes it; a released function runs at once where no bank is to pass to it, and waits for those that are handed
back or already drain to it. -/
def Stated.FunctionResetsEndAndRelease : Prop :=
  (∀ (s : State) (f : Fin 512),
    (f = 0 ∨ s.fnState f ≠ 3 ∨ s.running f ≠ [] → s.boot.deltaWait = false → Does (.fnResetDrainEnd f) s fun t => t = notify s s)
    ∧ (f ≠ 0 → s.fnState f = 3 → s.running f = [] → s.boot.deltaWait = false → Does (.fnResetDrainEnd f) s fun t =>
      t.fld F.fnStatus_RSTDONE f = 1 ∧ t.fld F.fnStatus_STATE f = (if (s.fn f).delPend then 0 else 1)
        ∧ t.inc f = (s.inc f + 1) % 2 ^ F.fnStatus_INC.width ∧ (t.fn f).lastDone = some t.tick ∧ (t.fn f).delPend = false
        ∧ ∀ n < 16, ∀ b < 16, t.fld F.stBank_OWNER n b ≠ f.val))
  ∧ ∀ (s : State) (w : Who) (f : Fin 512), s.heard w = true → s.applied = true → s.supervisor w = true →
    (f = 0 ∨ s.fnState f ≠ 1 ∨ (s.fn f).releasing = true → Does (.fnRelease w f) s fun t => t = notify s (finish w { st := s }))
    ∧ (f ≠ 0 → s.fnState f = 1 → (s.fn f).releasing = false →
      let home := fun (k : Nat) => Tab.get 0 s.lay (F.stBank_NEXT.key (k / 16) (k % 16)) = f.val ∧ s.fld F.stBank_OWNER (k / 16) (k % 16) = 0
        ∧ Tab.get 0 (s.st (k / 16)).xfer (k % 16) ∈ [0, f.val + 1]
      ((∀ k < 256, ¬home k) → Does (.fnRelease w f) s fun t => t.fld F.fnStatus_STATE f = 2 ∧ (t.fn f).releasing = false ∧ t.inc f = s.inc f)
      ∧ ∀ k < 256, home k → Does (.fnRelease w f) s fun t =>
        t.fld F.fnStatus_STATE f = 1 ∧ (t.fn f).releasing = true ∧ k ∈ (t.fn f).awaits ∧ Tab.get 0 (t.st (k / 16)).xfer (k % 16) = f.val + 1
          ∧ (Tab.get 0 (s.st (k / 16)).xfer (k % 16) = 0 → t.fld F.stBank_XPEND (k / 16) (k % 16) = 1 ∧ t.fld F.stBank_DISP (k / 16) (k % 16) = 1))

/-! ### Stables, tasks and memory (chapters 06 and 07) -/

/-- A stable's code store takes writes while LOAD is 1; else a host's write is ignored and an engine takes the bus error. No other word
changes. -/
def Stated.CodeStoresAreWrittenUnderLoad : Prop :=
  ∀ (s : State) (n : Fin 16) (a : Fin 32768) (v : Word), s.clocksOn = true → s.applied = true →
    (s.fld F.stCtl_LOAD n ≠ 0 → ∀ w, w ≠ .jtag → s.heard w = true → s.supervisor w = true → Does (.codeStoreWrite w n a v) s fun t =>
      t = notify s (finish w { st := memWrite (.code n a) v s })
        ∧ readCode (t.raw (.code n a)) = .ok v ∧ ∀ b, b ≠ .code n a → t.raw b = s.raw b)
    ∧ (s.fld F.stCtl_LOAD n = 0 →
      (∀ w ∈ [Who.pf, .qspi, .mgmt], s.heard w = true → Does (.codeStoreWrite w n a v) s fun t => t = notify s (finish w { st := s }))
      ∧ ∀ e, Does (.codeStoreWrite (.engine e) n a v) s fun t => t = notify s (faultAt e 6 2 s))

/-- A stable is released once, and a gated one is woken, by asking the Ostler for leave; where leave is free it is served at once, and the
stable's engines run 1 µs later. Any other wake has no effect. -/
def Stated.StablesAskForLeave : Prop :=
  ∀ (s : State) (w : Who) (n : Fin 16), s.heard w = true → s.applied = true → w ≠ .jtag →
    ((s.fld F.stCfg_EN n ≠ 0 ∧ s.fld F.stCtl_RELD n = 0) → Does (.stableRelease w n) s fun t =>
      t = notify s (finish w { st := askWake n true ((enginesOf n).foldl (fun s e => s.setE e { s.e e with busy := 0 }) (s.put F.stCtl_RELD 1 n)) })
        ∧ t.fld F.stCtl_RELD n = 1 ∧ (∀ k < 8, (t.e (8 * n + k)).busy = 0)
        ∧ ((s.st n).waking = none → (s.st n).starting = none → s.leaveFree 4 →
            (t.st n).starting = some true ∧ (t.st n).startAt = s.tick ∧ t.fld F.pwOcnt_GRANT = min (s.fld F.pwOcnt_GRANT + 1) (2 ^ F.pwOcnt_GRANT.width - 1)))
    ∧ ((s.fld F.stCfg_EN n = 0 ∨ s.fld F.stCtl_RELD n ≠ 0) → Does (.stableRelease w n) s fun t => t = notify s (finish w { st := s }))
    ∧ ((s.fld F.stCtl_RELD n ≠ 0 ∧ s.fld F.stDqstat_GATED n ≠ 0 ∧ (s.st n).powerGated = false ∧ (s.st n).waking = none ∧ (s.st n).starting = none) →
        Does (.stableWake w n) s fun t => t = notify s (finish w { st := hwRequest (.wake n) (s.setSt n { s.st n with waking := some false }) })
          ∧ (s.leaveFree 4 → (t.st n).starting = some false ∧ (t.st n).startAt = s.tick ∧ t.fld F.stDqstat_WAKEP n = 0)
          ∧ (s.capWaits = true → s.fnState 0 = 2 → s.inc 0 = 0 → (t.st n).waking = some false ∧ t.fld F.stDqstat_WAKEP n = 1))
    ∧ (s.fld F.stDqstat_GATED n = 0 → Does (.stableWake w n) s fun t => t = notify s (finish w { st := s }))

/-- 1 µs after its leave was SERVED a woken stable's engines go on as they stood; a released one's start at ENTRY in supervisor mode with
their other registers at reset. A stable whose gating conditions have held for GATEIDLE is gated, and its grant returns. -/
def Stated.StablesRunAndGate : Prop :=
  ∀ (s : State) (n : Fin 16), s.clocksOn = true → s.applied = true →
    ((s.st n).starting = some false → (s.st n).powerGated = false → (s.st n).startAt + 250 ≤ s.tick → Does (.stableEnginesRun n) s fun t =>
      t = notify s ((s.setSt n { s.st n with starting := none, clocked := true, powerGated := false, idleFrom := none }).put F.stDqstat_GATED 0 n))
    ∧ ((s.st n).starting = some true → (s.st n).startAt + 250 ≤ s.tick → s.boot.starts = [] → Does (.stableEnginesRun n) s fun t =>
      (t.st n).clocked = true ∧ t.fld F.stDqstat_GATED n = 0 ∧ ∀ k < 8, ∃ a x y, t.e (8 * n + k) =
        { a := a, x := x, y := y, pc := BitVec.ofNat 16 (s.fld F.stCfg_ENTRY n), deque := (s.e (8 * n + k)).deque
          ev := if (s.e (8 * n + k)).deque = [] then 0 else 0x8000 })
    ∧ (s.fld F.pwPstat_STATE ≠ 2 → s.awake n = true → s.fld F.stSched_GATEIDLE n ≠ 0 → s.gateable n = true →
      (∃ x, (s.st n).idleFrom = some x ∧ x + s.fld F.stSched_GATEIDLE n * 250 ≤ s.tick) →
      Does (.stableGate n) s fun t => t = notify s (returnUse (fun u => u == .wake n.val)
        ((s.setSt n { s.st n with clocked := false, idleFrom := none }).put F.stDqstat_GATED 1 n))
        ∧ (t.st n).clocked = false ∧ t.fld F.stDqstat_GATED n = 1 ∧ (t.pw.grants.any fun r => r.use == .wake n.val) = false ∧ t.eng = s.eng)

/-- The most urgent task of an overflow queue, the oldest of those, moves to the deque of the stable that holds the fewest tasks, the lowest-numbered
engine's on a tie; while every deque holds eight or more, or none waits, nothing moves. -/
def Stated.OverflowTasksMoveToDeques : Prop :=
  ∀ (s : State) (n : Fin 16), s.clocksOn = true → s.applied = true →
    (∀ (k e : Nat) (x : Task), (s.st n).ovf[k]? = some x →
      (∀ j < (s.st n).ovf.length, x.u < ((s.st n).ovf.getD j x).u ∨ (x.u = ((s.st n).ovf.getD j x).u ∧ k ≤ j)) →
      8 * n.val ≤ e → e < 8 * n.val + 8 → (s.e e).deque.length < 8 →
      (∀ g, 8 * n.val ≤ g → g < 8 * n.val + 8 → (s.e e).deque.length < (s.e g).deque.length ∨ ((s.e e).deque.length = (s.e g).deque.length ∧ e ≤ g)) →
      Does (.overflowMove n) s fun t =>
        (t.st n).ovf = (s.st n).ovf.eraseIdx k ∧ (t.e e).deque = x :: (s.e e).deque ∧ (t.e e).ev = (s.e e).ev ||| 0x8000
          ∧ (∀ g, g ≠ e → t.e g = s.e g) ∧ t.act = s.act)
    ∧ ((s.st n).ovf = [] → Does (.overflowMove n) s fun t => t = notify s s)
    ∧ ((∀ k < 8, 8 ≤ (s.e (8 * n + k)).deque.length) → Does (.overflowMove n) s fun t => t = notify s s)

/-- The waiting U0 tasks that cannot meet their deadlines are withdrawn from every deque and the overflow queue of a stable, counted, and recorded
while the late FIFO has room (R121; the cut of the quotient: the model's choice, log entry 110); reading LATE1 takes the oldest record. -/
def Stated.HopelessTasksAreWithdrawn : Prop :=
  (∀ (s : State) (n : Fin 16) (x : Task), s.clocksOn = true → s.applied = true → (s.st n).ovf = [] →
    (s.e (8 * n)).deque = [x] → (∀ k, 1 ≤ k → k < 8 → (s.e (8 * n + k)).deque = []) →
    bits x.w0.toNat 29 2 = 0 →
    0 < toSigned 32 (s.tk + (40 + 32 * bits x.w0.toNat 16 11) / 3 + 2 ^ 32 - bits x.w1.toNat 16 32) →
    (s.st n).late.length < 16 → s.fld F.stSched_LATEDST n = 0 →
    Does (.u0Withdraw n) s fun t => (t.e (8 * n)).deque = [] ∧ (t.st n).late = (s.st n).late ++ [x]
      ∧ t.fld F.stCnt1_LATE n = min (s.fld F.stCnt1_LATE n + 1) (2 ^ F.stCnt1_LATE.width - 1))
  ∧ (∀ (s : State) (n : Fin 16), s.clocksOn = true → s.applied = true → (s.st n).late.length ≤ 16 →
    let hopeless := fun (x : Task) => decide (bits x.w0.toNat 29 2 = 0
      ∧ 0 < toSigned 32 (s.tk + (40 + 32 * bits x.w0.toNat 16 11) / 3 + 2 ^ 32 - bits x.w1.toNat 16 32))
    let gone := ((List.range 8).flatMap fun k => (s.e (8 * n + k)).deque.reverse.filter hopeless) ++ (s.st n).ovf.filter hopeless
    Does (.u0Withdraw n) s fun t =>
      (∀ e, (t.e e).deque = if e / 8 = n.val then (s.e e).deque.filter (fun x => !hopeless x) else (s.e e).deque)
        ∧ (t.st n).ovf = (s.st n).ovf.filter (fun x => !hopeless x) ∧ (t.st n).late = ((s.st n).late ++ gone).take 16
        ∧ t.fld F.stCnt1_LATE n = min (s.fld F.stCnt1_LATE n + gone.length) (max (s.fld F.stCnt1_LATE n) (2 ^ F.stCnt1_LATE.width - 1)))
  ∧ ∀ (s : State) (w : Who) (n : Fin 16), s.heard w = true → s.applied = true →
    (w ≠ .jtag → Does (.lateRecordPop w n) s fun t =>
      t = notify s (finishRead w { st := s.setSt n { s.st n with late := (s.st n).late.drop 1 } }
        (match (s.st n).late with | [] => 0 | x :: _ => x.w1) false))
    ∧ (w = .jtag → Does (.lateRecordPop w n) s fun t => t = notify s (finishRead w { disp := 9, det := 2, st := s } 0 false))

/-- Every microsecond each busy estimate goes an eighth of the way, cut towards zero, to 256 times the tasks of its engine; every 128 µs
the functions' uses of engine time restart under the shares that stand. -/
def Stated.EstimatesAndPeriods : Prop :=
  (∀ s : State, s.clocksOn = true → s.applied = true →
    let u := passTo (s.tkBase + ((s.tick - s.tkBase) / 250 + 1) * 250) s
    Does .busyEstimateUpdate s fun t => Tab.wf ({} : Eng) u.eng = true → ∀ k, t.e k =
      { u.e k with busy := ((u.e k).busy + Int.tdiv (256 * ((u.e k).deque.length + b2n (u.e k).tv) - (u.e k).busy) 8).toNat })
  ∧ ∀ s : State, s.clocksOn = true → let u := passTo (s.period + 32000) s
    Does .accountingPeriodStart s fun t => t.period = u.period + 32000 ∧ ∀ f < 512, u.fnState f ≠ 0 →
      (t.fn f).used = 0 ∧ (t.fn f).maxP = u.fld F.fnShare_MAXSHARE f ∧ (t.fn f).minP = u.fld F.fnShare_MINSHARE f

/-- A request to hand a bank over is checked in the order of R139, and an accepted one drains; at the drain's end the bank is the
receiver's. -/
def Stated.BanksAreHandedOver : Prop :=
  (∀ (s : State) (w : Who) (n b : Fin 16) (g : Fin 512), s.heard w = true → s.applied = true →
    let o := s.fld F.stBank_OWNER n b
    let disp := fun (d : Nat) => s.put F.stBank_DISP d n b
    let drain := ((s.setSt n { s.st n with xfer := Tab.set 0 (s.st n).xfer b (g + 1) }).put F.stBank_XPEND 1 n b).put F.stBank_DISP 1 n b
    Does (.bankHandoverRequest w n b g) s fun t =>
      if s.supervisor w = false ∧ s.actsFor w o = false then t = notify s (finish w { disp := 9, det := 1, st := disp 9 })
      else if s.fnState g = 0 ∨ s.fnState g = 3 then t = notify s (finish w { st := disp 9 })
      else if g.val ≠ o ∧ s.fld F.fnQuota_BANKS g ≤ s.useBanks g then
        t = notify s (finish w { st := (disp 2).bump F.fnCnt_REFQ g })
      else if s.fld F.stBank_XPEND n b ≠ 0 then t = notify s (finish w { st := disp 5 })
      else if g.val = o then t = notify s (finish w { st := disp 0 })
      else t = notify s (finish w { st := drain }))
  ∧ ∀ (s : State) (n b : Fin 16) (g : Fin 512), Tab.get 0 (s.st n).xfer b = g + 1 → Tab.get 0 (s.st n).xnext b = 0 →
    (s.fn g).releasing = false → Does (.bankHandoverComplete n b) s fun t =>
      t.fld F.stBank_OWNER n b = g ∧ t.fld F.stBank_NEXT n b = g ∧ t.fld F.stBank_XPEND n b = 0 ∧ t.fld F.stBank_DISP n b = 0
        ∧ Tab.get 0 (t.st n).xfer b = 0 ∧ (∀ a, t.raw a = s.raw a) ∧ t.eng = s.eng

/-- A poison mark that the writer may place waits, and a refused one is counted; placed, it makes its word uncorrectable with syndrome
0xFF and leaves its data bits and every other word alone. -/
def Stated.PoisonMarksInvertTheCheckByte : Prop :=
  (∀ (s : State) (w : Who) (n : Fin 16) (a : Fin 65536), s.heard w = true → s.applied = true → Tab.get 0 (s.st n).xfer (a / 4096) = 0 →
    Does (.poisonMark w n a) s fun t =>
      if s.mayLoft w n a = true ∧ s.inpassWord n a = false then
        t = notify s (finish w { st := s.setSt n { s.st n with pmarks := (s.st n).pmarks ++ [a.val] } })
      else t = notify s (finish w { disp := 9, det := 1, st := s.bump F.stMemerr_DENY n }))
  ∧ ∀ (s : State) (n : Fin 16) (a : Nat) (rest : List Nat), (s.st n).pmarks = a :: rest → Does (.poisonMarkApply n) s fun t =>
    readCode (t.raw (loftPlace n a)) = .ue (Stored.data (s.raw (loftPlace n a))) 0xFF
      ∧ (∀ b, b ≠ loftPlace n a → t.raw b = s.raw b) ∧ (t.st n).pmarks = rest

/-- A scrub read counts what it finds and notes a correctable word, which goes back corrected unless a write came between. -/
def Stated.ScrubbingCorrectsWords : Prop :=
  ∀ (s : State) (a : SramWord),
    (∀ x, readCode (s.raw a) = .ok x → Does (.scrubRead a) s fun t => t = notify s s)
    ∧ (∀ x, readCode (s.raw a) = .ce x → a ∉ s.scrub → Does (.scrubRead a) s fun t =>
        t = notify s { countCE a s with scrub := s.scrub ++ [a] })
    ∧ (∀ x y, readCode (s.raw a) = .ue x y → Does (.scrubRead a) s fun t => t = notify s (countUE a y s))
    ∧ (a ∉ s.scrub → Does (.scrubWriteBack a) s fun t => t = notify s s)
    ∧ (∀ x, readCode (s.raw a) = .ce x → a ∈ s.scrub → inMemory a = true → Does (.scrubWriteBack a) s fun t =>
        readCode (t.raw a) = .ok x ∧ (∀ b, b ≠ a → t.raw b = s.raw b) ∧ a ∉ t.scrub ∧ t.act = s.act)

/-- A word that is written reads back as it was written, and no other word of any memory changes. -/
def Stated.WordsReadBackAsWritten : Prop :=
  ∀ (s : State) (a : SramWord) (w : Word), inMemory a = true →
    memRead a (memWrite a w s) = (.ok w, memWrite a w s) ∧ ∀ b, b ≠ a → (memRead b (memWrite a w s)).1 = (memRead b s).1

/-! ### Mailboxes and the interconnect (chapter 08) -/

/-- A send is refused where an end is unbound, where the sender does not hold the receiver's incarnation, and while the receiver is being
reset; else the word goes behind the others, or in the place of the newest of eight, and the other queue stays. -/
def Stated.MailboxSendsQueueWords : Prop :=
  ∀ (s : State) (w : Who) (m : Fin 1024) (sd : Fin 2) (v : Word), s.heard w = true → s.applied = true → s.supervisor w = true →
    let o := 1 - sd.val
    let disp := fun (d : Nat) (u : State) => notify s (finish w { st := u.put F.mbStat_WDISP d m sd })
    ((s.endKind m sd = 0 ∨ s.endKind m o = 0) → Does (.mailboxSend w m sd v) s fun t => t = disp 9 s)
    ∧ (∀ f, s.endKind m sd ≠ 0 → s.endFn m o = some f →
      ((s.fld F.mbStat_HV m sd = 0 ∨ s.inc f ≠ s.fld F.mbStat_HINC m sd) → Does (.mailboxSend w m sd v) s fun t =>
        t = disp 7 (s.bump F.fnCnt_STALE f))
      ∧ (s.fld F.mbStat_HV m sd ≠ 0 → s.inc f = s.fld F.mbStat_HINC m sd → s.fnState f = 3 → Does (.mailboxSend w m sd v) s fun t =>
        t = disp 6 (s.bump F.fnCnt_ABANDON f)))
    ∧ (s.endKind m sd ≠ 0 → s.endKind m o ≠ 0 →
      (∀ f, s.endFn m o = some f → s.fld F.mbStat_HV m sd ≠ 0 ∧ s.inc f = s.fld F.mbStat_HINC m sd ∧ s.fnState f ≠ 3) →
      s.fld F.mbEnd_AUTO m o = 0 →
      ∃ x : MEntry, readCode x.w = .ok v ∧ Does (.mailboxSend w m sd v) s fun t =>
        ((t.pair m).queue sd = (if ((s.pair m).queue sd).length < 8 then (s.pair m).queue sd ++ [x] else ((s.pair m).queue sd).dropLast ++ [x]))
          ∧ (t.pair m).queue o = (s.pair m).queue o ∧ t.fld F.mbStat_WDISP m sd = 1
          ∧ (8 ≤ ((s.pair m).queue sd).length → t.fld F.mbStat_COL m sd = 1) ∧ t.eng = s.eng ∧ ∀ k, k ≠ m.val → t.pair k = s.pair k)

/-- A read takes the oldest word that the other side sent, and holds its sender's incarnation; an empty queue reads zero with RXV 0, and an
uncorrectable word is answered as POISONED and counted. -/
def Stated.MailboxReadsTakeTheOldest : Prop :=
  ∀ (s : State) (w : Who) (m : Fin 1024) (sd : Fin 2), s.heard w = true → s.applied = true → s.supervisor w = true → (∀ e, w ≠ .engine e) →
    let o := 1 - sd.val
    ((s.pair m).queue o = [] → Does (.mailboxReceive w m sd) s fun t =>
      t = notify s ((s.put F.mbStat_RXV 0 m sd).emit (.resp w 0 [0] false)))
    ∧ (∀ x rest v, (s.pair m).queue o = x :: rest → (∀ f, x.sFn = some f → x.sInc = s.inc f) →
      (∀ f, s.endFn m sd = some f → x.rInc = s.inc f) →
      (readCode x.w = .ok v → Does (.mailboxReceive w m sd) s fun t =>
        (t.pair m).queue o = rest ∧ (t.pair m).queue sd = (s.pair m).queue sd ∧ t.fld F.mbStat_RXV m sd = 1
          ∧ t.fld F.mbStat_HINC m sd = x.sInc % 2 ^ F.mbStat_HINC.width ∧ t.fld F.mbStat_HV m sd = 1
          ∧ Out.resp w 0 [v] false ∈ t.out ∧ t.eng = s.eng)
      ∧ (∀ y, readCode x.w = .ue v y → Does (.mailboxReceive w m sd) s fun t =>
        (t.pair m).queue o = rest ∧ t.fld F.mbStat_RXV m sd = 1 ∧ Out.resp w 8 [v] true ∈ t.out
          ∧ t.fld F.mbMemerr_UE = min (s.fld F.mbMemerr_UE + 1) (2 ^ F.mbMemerr_UE.width - 1)))

/-- RESYNC holds the peer's present incarnation; RING sets DB of the other end and event 14 of the engine that its DBT names, or sends the
message of a host end; a pair that stands off tells both ends. -/
def Stated.MailboxSidesSignal : Prop :=
  (∀ (s : State) (w : Who) (m : Fin 1024) (sd : Fin 2), s.heard w = true → s.applied = true → s.supervisor w = true →
    let o := 1 - sd.val
    (Does (.mailboxResync w m sd) s fun t =>
      t = notify s (finish w { st := (s.put F.mbStat_HINC (match s.endFn m o with | some f => s.inc f | none => 0) m sd).put F.mbStat_HV 1 m sd }))
    ∧ (s.endKind m o = 1 → (s.fld F.mbEnd_DBT m o).testBit 7 = false → Does (.doorbellRing w m sd) s fun t =>
      let e := s.fld F.mbEnd_DBT m o % 128
      let u := s.put F.mbStat_DB 1 m o
      t = notify s (finish w { st := wakeStable (e / 8) (u.setE e { u.e e with ev := (u.e e).ev ||| 0x4000 }) }))
    ∧ (s.endKind m o = 2 → Does (.doorbellRing w m sd) s fun t =>
      t = notify s (finish w { st := sendMsix (s.fld F.mbEnd_DBT m o) (s.put F.mbStat_DB 1 m o) })))
  ∧ ∀ (s : State) (m : Fin 1024) (x : Nat), s.clocksOn = true → s.applied = true → (s.pair m).since = some x → s.fld F.mbCtl_STO m ≠ 0 →
    x + s.fld F.mbCtl_STO m * 250 ≤ s.tick → Does (.standoffDetect m) s fun t =>
      t.fld F.mbStat_SOFF m 0 = 1 ∧ t.fld F.mbStat_SOFF m 1 = 1 ∧ t.fld F.mbStat_DB m 0 = 1 ∧ t.fld F.mbStat_DB m 1 = 1

/-! ### The Manger (chapter 09) -/

/-- DONE by the owner of a region that firmware produces completes its set: it is new, tagged with the instant's number, and with TRIPLE the
write buffer becomes the ready one. Anyone else is refused and counted. -/
def Stated.RegionDoneCompletesTheSet : Prop :=
  ∀ (s : State) (w : Who) (k : Fin 64), s.heard w = true → s.applied = true →
    let o := s.fld F.mgCfg0_OWNER k
    ((s.supervisor w = false ∧ s.actsFor w o = false) ∨ s.fnState o = 3 ∨ s.fnState o = 1 → Does (.regionDone w k) s fun t =>
      t = notify s (finish w { disp := 9, det := 1, st := s.bump F.mgMemerr_DENY }))
    ∧ ((s.supervisor w = true ∨ s.actsFor w o = true) → s.fnState o ≠ 3 → s.fnState o ≠ 1 → s.fld F.mgCfg0_SIZE k ≠ 0 →
      s.rgSrc k = 0 → s.fld F.mgStat_NEW k = 0 → Does (.regionDone w k) s fun t =>
        t = notify s (finish w { st := (s.setRg k { s.rg k with
          rtag := s.fld F.mgInstat_N
          ready := if s.fld F.mgCfg0_TRIPLE k = 0 then (s.rg k).ready else (s.rg k).write
          write := if s.fld F.mgCfg0_TRIPLE k = 0 then (s.rg k).write else (s.rg k).ready }).put F.mgStat_NEW 1 k }))

/-- An instant that is not skipped does its work once; each region with a new set flips: its ready buffer becomes the front, TAG takes the
set's tag, AGE is N - 1 - TAG up to 15 (0 where that is negative: the model's choice, log entry 40), and AGED and the counters follow; a
common instant of a part without a pair leaves every region so. -/
def Stated.InstantsFlipRegions : Prop :=
  (∀ s : State, s.clocksOn = true → s.applied = true → s.fld F.mgInst_CYC ≠ 0 → s.lastInst = none →
    let u := toInstant s
    u.lastInst = none →
    Does .commonInstant s fun t => t = notify s (instantWork { u with seenInst := some u.tick })
      ∧ t.fld F.mgInstat_RUN = 1 ∧ t.fld F.mgInstat_N = u.instNow % 2 ^ F.mgInstat_N.width ∧ t.lastInst = some u.tick)
  ∧ (∀ s : State, s.clocksOn = true → s.applied = true → s.fld F.mgInst_CYC ≠ 0 →
    let u := toInstant s
    ∀ x, u.lastInst = some x → u.fld F.mgInst_CYC ≤ (u.tick - x) * 8 →
    Does .commonInstant s fun t =>
      t.fld F.mgInstat_N = u.instNow % 2 ^ F.mgInstat_N.width ∧ t.lastInst = some u.tick ∧ t.fld F.mgCnt_SKIP = s.fld F.mgCnt_SKIP)
  ∧ (∀ s : State, s.clocksOn = true → s.applied = true → s.fld F.mgInst_CYC ≠ 0 →
    let u := toInstant s
    ∀ x, u.lastInst = some x → (u.tick - x) * 8 < u.fld F.mgInst_CYC →
    Does .commonInstant s fun t => t = notify s ({ u with seenInst := some u.tick }.bump F.mgCnt_SKIP))
  ∧ (∀ s : State, s.clocksOn = true → s.applied = true → s.fld F.mgInst_CYC ≠ 0 →
    let u := toInstant s
    u.lastInst = none → u.cfld F.commit_PEND .mg = 0 → u.boot.gcInst = false → u.twOn = false →
    Does .commonInstant s fun t => ∀ k : Fin 64, u.fld F.mgCfg0_SIZE k ≠ 0 →
      (u.fld F.mgStat_NEW k ≠ 0 → t.fld F.mgStat_TAG k = (u.rg k).rtag % 2 ^ F.mgStat_TAG.width ∧ t.fld F.mgStat_TV k = 1
        ∧ t.fld F.mgStat_NEW k = 0 ∧ (t.rg k).front = if u.fld F.mgCfg0_TRIPLE k = 0 then (u.rg k).front else (u.rg k).ready)
      ∧ (u.fld F.mgStat_NEW k = 0 → t.fld F.mgStat_TAG k = u.fld F.mgStat_TAG k ∧ t.rg k = u.rg k)
      ∧ t.fld F.mgStat_AGE k = min 15 (sdiff 32 (u.instNow + 2 ^ 32 - 1) (t.fld F.mgStat_TAG k)).toNat)
  ∧ ∀ (s : State) (n k : Nat), s.fld F.mgCfg0_SIZE k ≠ 0 →
    let t := flipRegion n k s
    (s.fld F.mgStat_NEW k ≠ 0 → t.fld F.mgStat_NEW k = 0 ∧ t.fld F.mgStat_TV k = 1
        ∧ t.fld F.mgStat_TAG k = (s.rg k).rtag % 2 ^ F.mgStat_TAG.width
        ∧ t.rg k = { s.rg k with
            front := if s.fld F.mgCfg0_TRIPLE k = 0 then (s.rg k).front else (s.rg k).ready
            ready := if s.fld F.mgCfg0_TRIPLE k = 0 then (s.rg k).ready else (s.rg k).front })
    ∧ (s.fld F.mgStat_NEW k = 0 → t.rg k = s.rg k ∧ t.fld F.mgStat_TAG k = s.fld F.mgStat_TAG k)
    ∧ (0 ≤ sdiff 32 (n + 2 ^ 32 - 1) (t.fld F.mgStat_TAG k) →
        t.fld F.mgStat_AGE k = min 15 (sdiff 32 (n + 2 ^ 32 - 1) (t.fld F.mgStat_TAG k)).toNat)
    ∧ (sdiff 32 (n + 2 ^ 32 - 1) (t.fld F.mgStat_TAG k) < 0 → t.fld F.mgStat_AGE k = 0)
    ∧ t.fld F.mgCnt_LATE = (if s.fld F.mgStat_NEW k ≠ 0 ∧ ((s.fld F.mgStat_TV k ≠ 0 ∧ 1 ≤ s.fld F.mgStat_AGE k) ∨ 1 ≤ t.fld F.mgStat_AGE k)
        then min (s.fld F.mgCnt_LATE + 1) (2 ^ F.mgCnt_LATE.width - 1) else s.fld F.mgCnt_LATE)
    ∧ t.fld F.mgCnt1_AGEDN = (if t.fld F.mgStat_AGED k ≠ 0 ∧ s.fld F.mgStat_AGED k = 0
        then min (s.fld F.mgCnt1_AGEDN + 1) (2 ^ F.mgCnt1_AGEDN.width - 1) else s.fld F.mgCnt1_AGEDN)
    ∧ (t.fld F.mgStat_AGED k = 1 ↔ s.fld F.mgCfg1_MAXAGE k ≠ 0 ∧ s.fld F.mgCfg1_MAXAGE k < t.fld F.mgStat_AGE k)
    ∧ t.loft = s.loft ∧ t.mg = s.mg ∧ t.eng = s.eng

/-- A frame that carries one whole set of a region that alone subscribes to it: its words fill the write buffer, and the set completes with the
number of the most recent instant. A frame of another EtherType changes nothing. -/
def Stated.SubscriptionsFillTheWriteBuffer : Prop :=
  ∀ (s : State), s.clocksOn = true → s.applied = true →
    (∀ bs, (etherType bs).1 ≠ s.etype → Does (.subscriptionReceive { bytes := bs, fcsOk := true }) s fun t => t = notify s s)
    ∧ ∀ (k : Fin 64) (head : List Byte) (sdn rgn tag : Nat) (data : List Word), s.etype ≠ 0x8100 → s.etype < 65536 → head.length = 12 → sdn < 1024 → rgn < 64 →
      tag < 2 ^ 32 → data.length = s.fld F.mgCfg0_SIZE k → 1 ≤ data.length → data.length ≤ 240 →
      s.fld F.mgCfg0_BASE k + 3 * data.length ≤ 131072 → s.fld F.mgCfg0_TRIPLE k ≠ 0 → s.rgSrc k = 2 →
      s.fld F.mgCfg1_SSDN k = sdn → s.fld F.mgCfg1_SRGN k = rgn →
      (∀ j < 64, j ≠ k.val → s.rgSrc j ≠ 2 ∨ s.fld F.mgCfg1_SSDN j ≠ sdn ∨ s.fld F.mgCfg1_SRGN j ≠ rgn) →
      (s.fld F.mgStat_TV k ≠ 0 → 0 < sdiff 32 tag (s.fld F.mgStat_TAG k)) → (s.rg k).sub = none → (s.rg k).write < 3 → (s.rg k).write ≠ (s.rg k).ready →
      let ws := [wd (sdn * 2 ^ 38 + rgn * 2 ^ 32 + data.length), wd (tag * 2 ^ 16)] ++ data
      Does (.subscriptionReceive
        { bytes := head ++ [BitVec.ofNat 8 (s.etype / 256), BitVec.ofNat 8 s.etype] ++ carryWords (withCrc ws), fcsOk := true }) s fun t =>
        t.fld F.mgStat_NEW k = 1 ∧ (t.rg k).rtag = s.fld F.mgInstat_N ∧ (t.rg k).ready = (s.rg k).write ∧ (t.rg k).write = (s.rg k).ready
          ∧ (∀ i < data.length, readCode (t.raw (mgPlace (s.fld F.mgCfg0_BASE k + (s.rg k).write * data.length + i))) = .ok (data.getD i 0))
          ∧ t.loft = s.loft ∧ t.eng = s.eng

/-! ### Ports (chapter 10) -/

/-- A link that goes down loses the frames under way and the queued ones, which it counts; one that comes up trains with leave, stays down without
it, shows its speed and duplex, and
starts verification where CFG0.PREEMPT is 1; a forced interface runs half duplex where HDX is 1, and half duplex where it is not allowed is a
mismatch. -/
def Stated.LinksComeAndGo : Prop :=
  ∀ (s : State) (p : Fin 12) (l : LinkState), s.linked →
    (l.up = false → s.fld F.epStat_LINK p = 0 → Does (.linkChange p l) s fun t => t = notify s s)
    ∧ (l.up = false → s.fld F.epStat_LINK p ≠ 0 → Does (.linkChange p l) s fun t =>
        let n := (s.launchQ p).length + ((List.range 8).map fun c => (s.queue p c).length).sum
        (∀ f ∈ [F.epStat_LINK, F.epStat_PAUSED, F.epStat_LPIRX, F.epStat_LPITX, F.epStat_PVS, F.epStat_T1LA, F.epStat_HDXA], t.fld f p = 0)
          ∧ t.fld F.epEvt_LINKCHG p = 1 ∧ (t.port p).tx = none ∧ (t.port p).held = none ∧ t.launchQ p = [] ∧ (∀ c < 8, t.queue p c = [])
          ∧ (s.fld F.epCnt2_TXLDN p + n < 2 ^ F.epCnt2_TXLDN.width → t.fld F.epCnt2_TXLDN p = s.fld F.epCnt2_TXLDN p + n)
          ∧ (∀ q, q ≠ p.val → t.port q = s.port q) ∧ (s.relayIn p = false → t.eng = s.eng ∧ t.loft = s.loft))
    ∧ (l.up = true → s.fld F.epStat_LINK p = 0 → s.epIf p = 0 → Does (.linkChange p l) s fun t => t = notify s s)
    ∧ (l.up = true → s.fld F.epStat_LINK p = 0 → s.epIf p ≠ 0 → (trainLeave p s).1 = false → Does (.linkChange p l) s fun t =>
        t = notify s (trainLeave p s).2 ∧ t.fld F.epStat_LINK p = 0)
    ∧ (l.up = true → s.fld F.epStat_LINK p = 0 → s.epIf p ≠ 0 → (trainLeave p s).1 = true → s.ifSpeed p l.speed = true →
        let half := if s.epIf p ∈ [2, 3, 7] then s.epOn F.epCfg0_HDX p else l.hdx
        (half = true → s.epOn F.epCfg0_HDX p = true ∧ s.ifHalf p l.speed = true) → (s.epIf p = 5 → half = true → p < 8) →
        Does (.linkChange p l) s fun t =>
        t.fld F.epStat_LINK p = 1 ∧ t.fld F.epStat_SPEED p = l.speed ∧ t.fld F.epStat_HDXA p = (if half then 1 else 0)
          ∧ t.fld F.epEvt_LINKCHG p = 1 ∧ (t.port p).eee = l.eee ∧ (t.port p).master = l.master ∧ (t.port p).tx = none
          ∧ t.fld F.epStat_PVS p = (if s.epOn F.epCfg0_PREEMPT p && !half then 1 else 0)
          ∧ (∀ q, q ≠ p.val → t.port q = s.port q) ∧ t.eng = s.eng ∧ t.loft = s.loft)
    ∧ (l.up = true → s.fld F.epStat_LINK p = 0 → s.epIf p = 5 → (trainLeave p s).1 = true → l.hdx = true → s.epOn F.epCfg0_HDX p = false → Does (.linkChange p l) s fun t =>
        t = notify s ((trainLeave p s).2.put F.epStat_MISMATCH 1 p))

/-- A received frame is checked in the order FCS, length, MAC control: a bad one is counted and dropped, a good one is counted and handed to
the yard with its timestamp, and a control frame is counted only. With PREEMPT a first fragment waits for the next, which joins it, and the last
one makes a frame of them; a fragment out of sequence discards the frame and counts it. With PREEMPT 0 a fragment changes nothing. -/
def Stated.ReceivedFramesAreCheckedAndCounted : Prop :=
  ∀ (s : State) (p : Fin 12) (fr : EthFrame) (ago : Nat), s.linked →
    let len := fr.bytes.length + 4
    (s.fld F.epStat_LINK p = 0 → Does (.macReceiveFrame p fr ago) s fun t => t = notify s s)
    ∧ (s.fld F.epStat_LINK p ≠ 0 → fr.frag = none → (s.port p).arriving = none →
      (fr.fcsOk = false → Does (.macReceiveFrame p fr ago) s fun t => t = notify s (s.bump F.epCnt1_RXFCS p))
      ∧ (fr.fcsOk = true → len < 64 ∨ s.maxFrm p < len → Does (.macReceiveFrame p fr ago) s fun t => t = notify s (s.bump F.epCnt1_RXLEN p))
      ∧ (fr.fcsOk = true → 64 ≤ len → len ≤ s.maxFrm p → at16 fr.bytes 12 = 0x8808 → at16 fr.bytes 14 ≠ 1 →
        Does (.macReceiveFrame p fr ago) s fun t => t = notify s (s.bump F.epCnt4_CTLRX p))
      ∧ (fr.fcsOk = true → 64 ≤ len → len ≤ s.maxFrm p → at16 fr.bytes 12 ≠ 0x8808 → s.relayIn p = false → s.fld F.twCfg0_EN = 0 →
        Does (.macReceiveFrame p fr ago) s fun t =>
          let u := s.bump F.epCnt0_RXOK p
          t = notify s { u with yard := { u.yard with
            inbox := u.yard.inbox ++ [{ p := p, bytes := fr.bytes, ts := s.rxStamp p ago, wake := s.rxWake p ago }] } }))
    ∧ ∀ g, s.fld F.epStat_LINK p ≠ 0 → fr.frag = some g →
      (s.epOn F.epCfg0_PREEMPT p = false → Does (.macReceiveFrame p fr ago) s fun t => t = notify s s)
      ∧ (s.epOn F.epCfg0_PREEMPT p = true → g.first = true → g.last = false → fr.fcsOk = true → (s.port p).parts = none →
        Does (.macReceiveFrame p fr ago) s fun t => t = notify s (s.setPort p { s.port p with
          parts := some { frameCount := g.frameCount, next := 0, bytes := fr.bytes, ts := s.rxStamp p ago, wake := s.rxWake p ago } }))
      ∧ ∀ x, s.epOn F.epCfg0_PREEMPT p = true → g.first = false → (s.port p).parts = some x → (s.port p).arriving = none →
        ((x.frameCount ≠ g.frameCount ∨ x.next ≠ g.fragCount) → Does (.macReceiveFrame p fr ago) s fun t =>
          t = notify s ((s.setPort p { s.port p with parts := none }).bump F.epCnt1_RXFRAG p))
        ∧ (x.frameCount = g.frameCount → x.next = g.fragCount → g.last = false → fr.fcsOk = true → Does (.macReceiveFrame p fr ago) s fun t =>
          t = notify s (s.setPort p { s.port p with parts := some { x with next := (x.next + 1) % 4, bytes := x.bytes ++ fr.bytes } }))
        ∧ (let all := x.bytes ++ fr.bytes
           x.frameCount = g.frameCount → x.next = g.fragCount → g.last = true → fr.fcsOk = true → 60 ≤ all.length → all.length + 4 ≤ s.maxFrm p →
            at16 all 12 ≠ 0x8808 → s.relayIn p = false → s.fld F.twCfg0_EN = 0 → Does (.macReceiveFrame p fr ago) s fun t =>
              t.fld F.epCnt0_RXOK p = min (s.fld F.epCnt0_RXOK p + 1) (2 ^ F.epCnt0_RXOK.width - 1) ∧ (t.port p).parts = none
                ∧ t.yard.inbox = s.yard.inbox ++ [{ p := p, bytes := all, ts := x.ts, wake := x.wake }])

/-- A PAUSE frame is counted; with PAUSEEN, in full duplex, transmission stops for its quanta of 512 bit times, at once when the port is
idle and else at the frame boundary; zero quanta end the stop, and so does the end of the time. -/
def Stated.PauseStopsTransmission : Prop :=
  ∀ (s : State) (p : Fin 12), s.linked →
    (∀ (q : Fin 65536), s.fld F.epStat_LINK p ≠ 0 →
      let c := s.bump F.epCnt3_PAUSERX p
      let ticks := (q.val * 128000 + s.rate p - 1) / s.rate p
      (s.epFld F.epCfg0_PAUSEEN p = 0 ∨ s.fld F.epStat_HDXA p ≠ 0 → Does (.pauseReceive p q) s fun t => t = notify s c)
      ∧ (s.epFld F.epCfg0_PAUSEEN p ≠ 0 → s.fld F.epStat_HDXA p = 0 →
        (q.val = 0 → Does (.pauseReceive p q) s fun t =>
          t = notify s ((c.setPort p { s.port p with pauseWait := none, pauseEnd := none }).put F.epStat_PAUSED 0 p))
        ∧ (q.val ≠ 0 → s.fld F.epStat_PAUSED p ≠ 0 → Does (.pauseReceive p q) s fun t =>
          t = notify s (c.setPort p { s.port p with pauseEnd := some (s.tick + ticks) }))
        ∧ (q.val ≠ 0 → s.fld F.epStat_PAUSED p = 0 → (s.port p).tx = none → (s.port p).held = none → Does (.pauseReceive p q) s fun t =>
          t.fld F.epStat_PAUSED p = 1 ∧ (t.port p).pauseEnd = some (s.tick + ticks) ∧ t.yard = s.yard ∧ t.eng = s.eng)
        ∧ (q.val ≠ 0 → s.fld F.epStat_PAUSED p = 0 → (s.port p).tx ≠ none → Does (.pauseReceive p q) s fun t =>
          t.fld F.epStat_PAUSED p = 0 ∧ (t.port p).pauseWait = some ticks ∧ (t.port p).tx = (s.port p).tx ∧ t.yard = s.yard ∧ t.eng = s.eng)))
    ∧ ∀ x, (s.port p).pauseEnd = some x → x ≤ s.tick → Does (.pauseExpire p) s fun t =>
        t = notify s ((s.setPort p { s.port p with pauseEnd := none }).put F.epStat_PAUSED 0 p)

/-- The entry that `pick` gives leaves its queue and starts: the launch frame that is due, else the head of the highest class whose head may start
(R232); nothing starts on a port that is busy, paused, asleep or without a link. The
end of the frame counts TXOK, sends its bytes with a good FCS and takes its copy away; one with an uncorrectable cell word ends where that word
would be sent, and one whose next byte is not there ends after those sent, each with its FCS inverted. -/
def Stated.FramesAreSentWhole : Prop :=
  ∀ (s : State) (p : Fin 12), s.linked →
    (∀ n, s.fld F.epStat_LINK p = 0 → Does (.macTransmitStart p n) s fun t => t = notify s s)
    ∧ (∀ n, s.fld F.epStat_LINK p ≠ 0 → dropUnfit p s = s →
      ((s.port p).tx ≠ none ∨ s.fld F.epStat_PAUSED p ≠ 0 ∨ s.fld F.epStat_LPITX p ≠ 0 ∨ (s.port p).backoff ≠ none →
        Does (.macTransmitStart p n) s fun t => t = notify s s)
      ∧ (∀ c q, (s.port p).tx = none → s.fld F.epStat_PAUSED p = 0 → s.fld F.epStat_LPITX p = 0 → (s.port p).backoff = none →
        (s.port p).pauseWait = none → s.pick p n = some (c, q, false) → Does (.macTransmitStart p n) s fun t =>
          (t.port p).tx.map (fun x => (x.id, x.cls, x.mark)) = some (q.id, c, q.mark) ∧ t.queue p c = (s.queue p c).drop 1
            ∧ (∀ p' c', (p', c') ≠ (p.val, c) → c' < 8 → c < 8 → t.queue p' c' = s.queue p' c') ∧ t.act = s.act ∧ t.eng = s.eng)
      ∧ (∀ c q, (s.port p).tx = none → s.fld F.epStat_PAUSED p = 0 → s.fld F.epStat_LPITX p = 0 → (s.port p).backoff = none →
        (s.port p).pauseWait = none → s.pick p n = some (c, q, true) → Does (.macTransmitStart p n) s fun t =>
          (t.port p).tx.map (fun x => (x.id, x.cls, x.mark)) = some (q.id, c, q.mark) ∧ t.launchQ p = (s.launchQ p).drop 1
            ∧ t.act = s.act ∧ t.eng = s.eng))
    ∧ (let fits := fun (n c : Nat) (q : QEnt) => ∃ f, s.frame q.id = some f ∧ s.buffered p f n = true ∧ s.gateFits p c (s.egressLen p f) = true
          ∧ ¬(s.preemptable p c = true ∧ ((s.port p).held ≠ none ∨ (s.gateS p).hold = true))
       ∀ (n c : Nat) (q : QEnt),
        (Tab.get 0 s.yard.due p = 0 → (s.pick p n = some (c, q, false) ↔ c < 8 ∧ (s.queue p c).head? = some q ∧ fits n c q
          ∧ ∀ c' q', c < c' → c' < 8 → (s.queue p c').head? = some q' → ¬fits n c' q'))
        ∧ (Tab.get 0 s.yard.due p ≠ 0 → (s.pick p n = some (c, q, true) ↔ (s.launchQ p).head? = some q
          ∧ ∃ f, s.frame q.id = some f ∧ f.cls = c ∧ s.buffered p f n = true ∧ ¬((s.port p).held ≠ none ∧ s.preemptable p c = true))))
    ∧ (∀ (sub : Fin 32) (x : TxSt) (f : YFrame), (s.port p).tx = some x → (s.port p).backoff = none →
      s.frame x.id = some f → f.arriving = false → f.tsr = false → 2 ≤ f.left →
      (f.ctBad = false → f.badFrom = none → Does (.macTransmitEnd p sub) s fun t =>
        (s.out ++ [.frame p (s.egressBytes p x.mark f) true]) <+: t.out
          ∧ t.fld F.epCnt0_TXOK p = min (s.fld F.epCnt0_TXOK p + 1) (2 ^ F.epCnt0_TXOK.width - 1)
          ∧ (t.port p).tx = none ∧ t.frame x.id = some { f with left := f.left - 1, sent := true } ∧ t.eng = s.eng ∧ t.loft = s.loft)
      ∧ (∀ k j, f.badFrom = some k → s.untags p f = false →
        (s.rppOf p = none ∨ f.seqNr = none) ∧ j = k
          ∨ (∃ a b q, s.rppOf p = some (2, a, b) ∧ f.seqNr = some q ∧ typeAt f.read ≤ k ∧ j = k + 6) → Does (.macTransmitEnd p sub) s fun t =>
        (s.out ++ [.frame p ((s.egressBytes p x.mark f).take j) false]) <+: t.out ∧ (t.port p).tx = none
          ∧ t.fld F.epCnt2_TXPOIS p = min (s.fld F.epCnt2_TXPOIS p + 1) (2 ^ F.epCnt2_TXPOIS.width - 1) ∧ t.fld F.epEvt_TXPOIS p = 1
          ∧ t.fld F.epCnt0_TXOK p = s.fld F.epCnt0_TXOK p))
    ∧ (∀ (n : Nat) (x : TxSt) (f : YFrame), (s.port p).tx = some x → s.frame x.id = some f → f.arriving = true → f.tsr = false →
      2 ≤ f.left → Does (.txUnderrun p ⟨false, n⟩) s fun t =>
        (s.out ++ [.frame p ((s.egressBytes p x.mark f).take n) false]) <+: t.out
          ∧ t.fld F.epTxctl_TXTH p = (if s.maxFrm p ≤ 128 * (s.txTh p + 1) then 0 else (s.txTh p + 1) % 2 ^ F.epTxctl_TXTH.width)
          ∧ t.fld F.epEvt_TXUND p = 1 ∧ t.fld F.epCnt2_TXUND p = min (s.fld F.epCnt2_TXUND p + 1) (2 ^ F.epCnt2_TXUND.width - 1)
          ∧ (t.port p).tx = none)
    ∧ ∀ (w : Who) (r : TxStamp) (rest : List TxStamp), s.heard w = true → s.supervisor w = true → (∀ e, w ≠ .engine e) → (s.port p).stamps = r :: rest →
        Does (.txTimestampPop w p) s fun t =>
          t = notify s ((s.setPort p { s.port p with stamps := rest }).emit (.resp w 0 [wd r.ts.nsf] false))

/-- A collision in half duplex is counted and backs the frame off for r slots of 512 bit times with r < 2^min(n, 10), n the attempt; the
sixteenth and a late one discard the frame; the end of the back-off lets it start again. -/
def Stated.CollisionsBackOff : Prop :=
  ∀ (s : State) (p : Fin 12) (x : TxSt), s.linked → (s.port p).tx = some x →
    (s.fld F.epStat_HDXA p = 0 → ∀ late, Does (.collision p late) s fun t => t = notify s s)
    ∧ (s.fld F.epStat_HDXA p ≠ 0 → (s.port p).backoff = none →
      (∀ late, Does (.collision p late) s fun t => t.fld F.epCnt3_COL p = min (s.fld F.epCnt3_COL p + 1) (2 ^ F.epCnt3_COL.width - 1))
      ∧ ((s.port p).attempts < 15 → Does (.collision p false) s fun t =>
          ∃ r < 2 ^ min ((s.port p).attempts + 1) 10,
            (t.port p).backoff = some (s.tick + (r * 128000 + s.rate p - 1) / s.rate p)
              ∧ (t.port p).attempts = (s.port p).attempts + 1 ∧ (t.port p).tx = some x ∧ t.yard = s.yard ∧ t.eng = s.eng)
      ∧ (15 ≤ (s.port p).attempts → Does (.collision p false) s fun t =>
          (t.port p).tx = none ∧ t.fld F.epEvt_EXCOL p = 1 ∧ (t.port p).attempts = 0)
      ∧ (Does (.collision p true) s fun t => (t.port p).tx = none ∧ t.fld F.epEvt_LATECOL p = 1))
    ∧ ∀ y, (s.port p).backoff = some y → y ≤ s.tick → Does (.backoffExpire p) s fun t =>
        t = notify s (s.setPort p { s.port p with backoff := none, tx := some { x with t0 := s.sfdTime p } })

/-- Verification sends a verify mPacket at most three times, fails after them and ends with a response; a preemptable fragment ends where
R194 lets it, for a frame that may start or a hold, and is kept back. -/
def Stated.PreemptionIsVerified : Prop :=
  ∀ (s : State) (p : Fin 12), s.linked →
    (s.fld F.epStat_PVS p ≠ 1 → Does (.preemptVerifySend p) s (fun t => t = notify s s) ∧ Does (.verifyResponse p) s fun t => t = notify s s)
    ∧ (s.fld F.epStat_PVS p = 1 → Does (.verifyResponse p) s (fun t => t = notify s (s.put F.epStat_PVS 2 p))
      ∧ ((s.port p).verifies = 0 ∨ (s.port p).verAt + 2500000 ≤ s.tick →
        ((s.port p).verifies < 3 → Does (.preemptVerifySend p) s fun t =>
          t = notify s ((s.setPort p { s.port p with verifies := (s.port p).verifies + 1, verAt := s.tick }).emit (.mpacket p)))
        ∧ (3 ≤ (s.port p).verifies → Does (.preemptVerifySend p) s fun t =>
          t = notify s ((s.put F.epStat_PVS 3 p).put F.epEvt_PVFAIL 1 p))))
    ∧ ∀ (n have_ : Nat) (x : TxSt) (f : YFrame), (s.port p).tx = some x → s.frame x.id = some f →
      (x.pre = false ∨ n < x.sent + 64 * (s.fld F.epCfg0_ADDFRAG p + 1) - 4 ∨ s.egressLen p f + 4 < n + 64 →
        Does (.preemptFragmentEnd p ⟨n, have_⟩) s fun t => t = notify s s)
      ∧ (x.pre = true → x.sent + 64 * (s.fld F.epCfg0_ADDFRAG p + 1) - 4 ≤ n → n + 64 ≤ s.egressLen p f + 4 →
        (s.setPort p { s.port p with held := some x, tx := none }).expressWaits p have_ = true → Does (.preemptFragmentEnd p ⟨n, have_⟩) s fun t =>
          t = notify s ((s.setPort p { s.port p with tx := none, held := some { x with sent := n } }).bump F.epCnt4_PREEMPT p))

/-- Low-power idle: the transmitter enters it when nothing is eligible, a frame wakes it, and STAT.LPIRX follows the partner. -/
def Stated.LowPowerIdleFollowsTheWork : Prop :=
  ∀ (s : State) (p : Fin 12), s.linked →
    (s.lpiUse p = false → Does (.lpiEnter p) s (fun t => t = notify s s) ∧ ∀ on, Does (.receiveLowPowerIdle p on) s fun t => t = notify s s)
    ∧ (s.lpiUse p = true → s.hasWork p = false → s.fld F.epStat_LPITX p = 0 →
        s.fld F.pwPstat_STATE = 2 ∨ (s.port p).idleFrom + s.fld F.epCfg2_LPIIDLE p * 250 ≤ s.tick →
        Does (.lpiEnter p) s fun t => t = notify s (s.put F.epStat_LPITX 1 p))
    ∧ (s.hasWork p = true → Does (.lpiEnter p) s fun t => t = notify s s)
    ∧ (s.hasWork p = true → s.fld F.epStat_LPITX p ≠ 0 → Does (.lpiWake p) s fun t =>
        t = notify s ((s.put F.epStat_LPITX 0 p).setPort p { s.port p with txWakeAt := some s.tick }))
    ∧ (s.hasWork p = false → Does (.lpiWake p) s fun t => t = notify s s)
    ∧ (s.lpiUse p = true → Does (.receiveLowPowerIdle p true) s (fun t => t = notify s (s.put F.epStat_LPIRX 1 p))
      ∧ (s.fld F.epStat_LPIRX p ≠ 0 → Does (.receiveLowPowerIdle p false) s fun t =>
        t = notify s ((s.put F.epStat_LPIRX 0 p).setPort p { s.port p with rxWakeAt := some s.tick })))

/-! ### The yard (chapter 12) -/

/-- A frame that its port's checks of R221 reject is filtered; one whose address the table maps to one port joins that port's queue, and its
cells leave the free count. -/
def Stated.YardFiltersAndForwards : Prop :=
  ∀ (s : State) (p : Fin 12) (it : RxItem) (rest : List RxItem), s.linked → s.halter = false → s.rpps = [] →
    (s.yard.inbox = [] → Does (.yardReceive p none) s fun t => t = notify s s)
    ∧ (s.yard.inbox = it :: rest → it.p = p →
      let u : State := { s with yard := { s.yard with inbox := rest } }
      (s.classify p it.bytes = none → Does (.yardReceive p none) s fun t => t = notify s (u.bump F.ydPcnt_FILT p))
      ∧ ∀ vid pcp tagged e q, s.classify p it.bytes = some (vid, pcp, tagged) → s.fld F.ydPcfg_LEARN p = 0 →
        s.atFind (dstOf it.bytes) vid = some e → e.dlv = false → q < 12 → e.pmask = 2 ^ q →
        (q = p.val → Does (.yardReceive p none) s fun t => t = notify s (u.bump F.ydPcnt_FILT p))
        ∧ (q ≠ p.val → s.admits q (s.classOf p pcp) (s.fld F.ydPcfg_CHGFN p) vid it.bytes → Does (.yardReceive p none) s fun t =>
          let c := s.classOf p pcp
          let id := s.yard.nextId
          t.queue q c = s.queue q c ++ [{ id := id }] ∧ t.yard.inbox = rest ∧ t.yard.nextId = id + 1
            ∧ (t.frame id).map (fun x => (x.bytes, x.cls, x.vid, x.src, x.left)) = some (it.bytes, c, vid, .port p, 1)
            ∧ t.fld F.ydStat_FREE = (s.fld F.ydStat_FREE - cellsOf it.bytes.length) % 2 ^ F.ydStat_FREE.width
            ∧ t.yard.table = s.yard.table ∧ t.loft = s.loft ∧ t.eng = s.eng))

/-- A whole frame for a running function with a loft pool is written to the pool's free slot, past the header of three words, its last word in
part, and nothing else of the lofts changes; without a pool it is dropped and counted, a frame for a function in reset is
abandoned, counted where a descriptor submitted it, and one with
an uncorrectable lane ends POISONED. -/
def Stated.FramesAreDelivered : Prop :=
  ∀ (s : State) (id : Nat) (f : Fin 512) (p c : Nat) (x : YFrame), s.clocksOn = true → s.applied = true → 12 ≤ p → p ≤ 16 →
    (∀ p', 12 ≤ p' → p' ≤ 16 → dropUnfit p' s = s) → s.nextOf p = some (c, { id := id, f := some f }) →
    (∀ p', 12 ≤ p' → p' < p → ∀ c' y, s.nextOf p' = some (c', y) → y.id ≠ id) →
    s.frame id = some x → x.arriving = false → x.ctBad = false → 2 ≤ x.left →
    (s.fnState f = 2 → x.lanes.any (fun e => (readCode e.2).bad) = true → Does (.frameDeliver id f) s fun t =>
      t.queue p c = (s.queue p c).drop 1 ∧ (t.frame id).map YFrame.disp = some (some 8))
    ∧ (s.fnState f = 3 → Does (.frameDeliver id f) s fun t =>
      t.queue p c = (s.queue p c).drop 1
        ∧ t.fld F.fnCnt_ABANDON f = (if x.src.described then min (s.fld F.fnCnt_ABANDON f + 1) (2 ^ F.fnCnt_ABANDON.width - 1) else s.fld F.fnCnt_ABANDON f)
        ∧ (t.frame id).map YFrame.disp = some (some 6) ∧ t.loft = s.loft ∧ t.eng = s.eng)
    ∧ (s.fnState f = 2 → s.poolKind f = 0 → x.lanes = [] → Does (.frameDeliver id f) s fun t =>
      t.queue p c = (s.queue p c).drop 1 ∧ t.fld F.ydFrx2_NOSLOT f = min (s.fld F.ydFrx2_NOSLOT f + 1) (2 ^ F.ydFrx2_NOSLOT.width - 1)
        ∧ t.frame id = some { x with left := x.left - 1, sent := true } ∧ t.loft = s.loft ∧ t.eng = s.eng)
    ∧ ∀ k, s.fnState f = 2 → s.poolKind f = 1 → x.lanes = [] → freeSlot f s = (some k, s) →
      let n := s.fld F.ydFrx0_STBL f
      let data := packWords x.bytes
      let base := s.fld F.ydFrx0_BASE f + 64 * s.fld F.ydFrx0_SLOTW f * k
      n < 16 → 3 + data.length ≤ 64 * s.fld F.ydFrx0_SLOTW f → s.ownsLoft f n base (3 + data.length) = true →
      (∀ i < 3 + data.length, s.inpassWord n (base + i) = false) →
      (∀ i < data.length, (readCode (s.raw (loftPlace n (base + 3 + i)))).bad = false) → Does (.frameDeliver id f) s fun t =>
        t.queue p c = (s.queue p c).drop 1
          ∧ (∀ i < data.length, ∃ y, readCode (t.raw (loftPlace n (base + 3 + i))) = .ok y
              ∧ ∀ j < 6, 6 * i + j < x.bytes.length → y.extractLsb' (40 - 8 * j) 8 = x.bytes.getD (6 * i + j) 0)
          ∧ Tab.get 0 t.yard.poolNext f = (k + 1) % s.fld F.ydFrx0_NSLOT f
          ∧ (∀ m a, m < 16 → a < 65536 → m ≠ n ∨ a < base ∨ base + 3 + data.length ≤ a → t.raw (loftPlace m a) = s.raw (loftPlace m a))
          ∧ t.frame id = some { x with left := x.left - 1, sent := true }

/-- A write of SUB by another stable's engine is refused, a task of a past incarnation is counted, a descriptor of a
function under reset has no effect, and one in words that its function
owns submits its frame, where its stable port is idle: its word 0 shows DEFERRED and the frame joins the queue of the port that ROUTE 1 names. -/
def Stated.EnginesSubmitDescriptors : Prop :=
  ∀ (s : State) (n : Fin 16) (a : Fin 65536) (e : Fin 128), s.clocksOn = true → s.applied = true →
    let f := s.engFn e
    (e.val / 8 ≠ n.val → Does (.yardSubmit (.engine e) n a) s fun t => t = notify s (faultAt e 5 1 s))
    ∧ (e.val / 8 = n.val → (s.e e).tv = true → (s.e e).inc ≠ s.inc f → s.subIdle (n / 4) → Does (.yardSubmit (.engine e) n a) s fun t =>
        t.fld F.fnCnt_STALE f = min (s.fld F.fnCnt_STALE f + 1) (2 ^ F.fnCnt_STALE.width - 1) ∧ t.yard.frames = s.yard.frames
          ∧ t.loft = s.loft ∧ t.eng = s.eng)
    ∧ (e.val / 8 = n.val → ((s.e e).tv = true → (s.e e).inc = s.inc f) → s.subIdle (n / 4) → s.fnState f = 3 → Does (.yardSubmit (.engine e) n a) s fun t =>
        t.yard.frames = s.yard.frames ∧ t.loft = s.loft ∧ t.eng = s.eng)
    ∧ (e.val / 8 = n.val → ((s.e e).tv = true → (s.e e).inc = s.inc f) → s.subIdle (n / 4) → s.fnState f ≠ 3 →
      ∀ (w0 w1 w2 w3 : Word) (data : List Word) (q : Nat) (vid pcp : Nat) (tagged : Bool), s.holds n a [w0, w1, w2, w3] →
        let len := bits w0.toNat 21 14
        let buf := bits w3.toNat 0 16
        let bytes := (data.flatMap wordBytes).take len
        let c := bits w0.toNat 39 3
        data.length = (len + 5) / 6 → s.holds n buf data → s.ownsLoft f n a 4 = true → s.ownsLoft f n buf data.length = true →
        s.descWord n a → bits w0.toNat 37 2 = 1 → w0.getLsbD 35 = false → bits w1.toNat 0 12 = 2 ^ q → q < 12 →
        s.rpps = [] → s.classify (12 + n.val / 4) bytes = some (vid, pcp, tagged) → s.admits q c f vid bytes →
        Does (.yardSubmit (.engine e) n a) s fun t =>
          t.queue q c = s.queue q c ++ [{ id := s.yard.nextId }] ∧ t.holds n a [setW0 w0 0 1 0]
            ∧ (t.frame s.yard.nextId).map (fun x => (x.bytes, x.cls, x.chg, x.src)) = some (bytes, c, f, .eng n a f (if (s.e e).tv then (s.e e).inc else s.inc 0))
            ∧ (∀ b : Fin 65536, b ≠ a → t.raw (.loft n b) = s.raw (.loft n b)) ∧ t.eng = s.eng)

/-- PCIe function r moves the tails of its rings: a transmit descriptor for a function that is not bound to r is written back DENIED, one of a
function under reset is passed over, one for a function bound to it is shown DEFERRED and its frame joins the queue of the port that ROUTE 1
names, and a receive tail brings its buffers; anyone else's write is ignored. -/
def Stated.HostRingsTakeTails : Prop :=
  ∀ (s : State) (w : Who) (r : Fin 16) (tail : Fin 4096), s.heard w = true → s.applied = true →
    (isPcie w r = false → w ≠ .jtag → ∀ ds bs, Does (.hostTxTailWrite w r tail ds) s (fun t => t = notify s (finish w { st := s }))
      ∧ Does (.hostRxTailWrite w r tail bs) s fun t => t = notify s (finish w { st := s }))
    ∧ (isPcie w r = true →
      (Does (.hostTxTailWrite w r tail []) s fun t => t = notify s (finish w { st := s.put F.ydHtxptr_TAIL tail r }))
      ∧ (∀ d : HostDesc, let size := 2 ^ s.fld F.ydHtxptr_LOGN r
          let k := Tab.get 0 s.yard.htxNext r
          s.fld F.ydHtxptr_LOGN r ≠ 0 → k < size → tail.val < size → tail.val = (k + 1) % size → bits d.w0.toNat 37 2 ≠ 2 →
          (s.fnState (bits d.w1.toNat 39 9) = 0 ∨ s.vfOf (bits d.w1.toNat 39 9) ≠ r.val) → Does (.hostTxTailWrite w r tail [d]) s fun t =>
            .dma r k [setW0 d.w0 1 9 0] ∈ t.out ∧ t.fld F.ydHtxptr_TAIL r = tail ∧ Tab.get 0 t.yard.htxNext r = (k + 1) % size
              ∧ t.yard.frames = s.yard.frames ∧ t.eng = s.eng ∧ t.loft = s.loft)
      ∧ (∀ d : HostDesc, let size := 2 ^ s.fld F.ydHtxptr_LOGN r
          let k := Tab.get 0 s.yard.htxNext r
          s.fld F.ydHtxptr_LOGN r ≠ 0 → k < size → tail.val < size → tail.val = (k + 1) % size →
          s.fnState (bits d.w1.toNat 39 9) = 3 → s.vfOf (bits d.w1.toNat 39 9) = r.val → Does (.hostTxTailWrite w r tail [d]) s fun t =>
            Tab.get 0 t.yard.htxNext r = (k + 1) % size ∧ t.yard.frames = s.yard.frames ∧ t.eng = s.eng ∧ t.loft = s.loft)
      ∧ (∀ (d : HostDesc) (q vid pcp : Nat) (tagged : Bool), let size := 2 ^ s.fld F.ydHtxptr_LOGN r
          let k := Tab.get 0 s.yard.htxNext r
          let f := bits d.w1.toNat 39 9
          let len := bits d.w0.toNat 21 14
          let c := bits d.w0.toNat 39 3
          let bytes := d.data.take len ++ List.replicate (len - d.data.length) 0
          s.fld F.ydHtxptr_LOGN r ≠ 0 → k < size → tail.val < size → tail.val = (k + 1) % size → s.fnState f ≠ 0 → s.fnState f ≠ 3 → s.vfOf f = r.val →
          bits d.w1.toNat 31 8 = s.inc f → bits d.w0.toNat 37 2 = 1 → d.w0.getLsbD 35 = false → bits d.w1.toNat 0 12 = 2 ^ q → q < 12 →
          s.rpps = [] → s.classify 16 bytes = some (vid, pcp, tagged) → s.admits q c f vid bytes →
          Does (.hostTxTailWrite w r tail [d]) s fun t =>
            .dma r k [setW0 d.w0 0 1 0] ∈ t.out ∧ t.queue q c = s.queue q c ++ [{ id := s.yard.nextId }]
              ∧ (t.frame s.yard.nextId).map (fun x => (x.bytes, x.cls, x.chg, x.src)) = some (bytes, c, f, .ring r k f)
              ∧ Tab.get 0 t.yard.htxNext r = (k + 1) % size ∧ t.eng = s.eng ∧ t.loft = s.loft)
      ∧ ∀ bs, Does (.hostRxTailWrite w r tail bs) s fun t =>
          let u := s.put F.ydHrxptr_TAIL tail r
          t = notify s (finish w { st := { u with yard := { u.yard with hrx := Tab.set [] u.yard.hrx r (Tab.get [] u.yard.hrx r ++ bs) } } }))

/-- The end of a descriptor's copy sets CPY, or gives a poisoned frame up as POISONED; the final disposition is written when no copy of the
frame is left: SERVED where one was sent. -/
def Stated.DescriptorsAreWrittenBack : Prop :=
  ∀ (s : State) (id n a f inc : Nat) (x : YFrame), s.clocksOn = true → s.applied = true → s.frame id = some x → x.src = .eng n a f inc → x.closed = false →
    s.descWord n a → (∀ m < 16, s.subs m = []) →
    (x.copied = false → x.pois = false → Does (.descriptorCopyComplete id) s fun t =>
      t.frame id = some { x with copied := true, arriving := false } ∧ t.holds n a [setW0 x.w0 0 1 1] ∧ t.eng = s.eng ∧ t.act = s.act)
    ∧ (x.copied = false → x.pois = true → s.sendingCopies id = 0 → Does (.descriptorCopyComplete id) s fun t =>
      t.frame id = none ∧ t.holds n a [setW0 x.w0 1 8 0] ∧ t.fld F.ydStat_FREE = (s.fld F.ydStat_FREE + x.cells) % 2 ^ F.ydStat_FREE.width
        ∧ (∀ p c, ∀ y ∈ t.queue p c, y.id ≠ id) ∧ t.eng = s.eng)
    ∧ (x.left ≠ 0 → Does (.descriptorWriteback id) s fun t => t = notify s s)
    ∧ (x.left = 0 → x.disp = none → Does (.descriptorWriteback id) s fun t =>
      t.frame id = none ∧ t.holds n a [setW0 x.w0 1 (if x.sent then 0 else if x.gone then 5 else if x.pushed then 10 else 0) (if x.copied then 1 else 0)]
        ∧ (∀ b : Nat, b < 65536 → b ≠ a → t.raw (loftPlace n b) = s.raw (loftPlace n b)) ∧ t.act = s.act ∧ t.eng = s.eng)

/-- When the 8 µs of a ring vector are over, one message covers the write-backs in between, and the next 8 µs begin. -/
def Stated.RingMessagesAreHeldOff : Prop :=
  ∀ (s : State) (v : Fin 2048), s.clocksOn = true → s.applied = true → Tab.get 0 s.yard.holdoff v ≤ s.tick →
    (s.yard.owed.contains v.val = false → Does (.ringMessageHoldoffEnd v) s fun t =>
      t = notify s { s with yard := { s.yard with holdoff := Tab.set 0 s.yard.holdoff v 0 } })
    ∧ (s.yard.owed.contains v.val = true → s.host.pcieUp = true → s.host.msixEn.getLsbD (v.val / 128) = true → s.host.unmasked.contains v.val = true →
      Does (.ringMessageHoldoffEnd v) s fun t =>
        t = notify s ({ s with yard := { s.yard with
          owed := s.yard.owed.filter (· ≠ v.val), holdoff := Tab.set 0 (Tab.set 0 s.yard.holdoff v 0) v (s.tick + 2000) } }.emit (.msix v)))

/-! ### Forwarding in passing (chapter 11) -/

/-- In an in-passing direction with nothing in its rings, the first segment of a frame takes a slot and the next relay position, whose
descriptor and event tell its engine while the pair's function runs; the end of the frame writes all its words into the slot; egress starts at T_out and latches the words in
order, and a frame that has ended with all its words latched is sent; a direction that is not in passing posts nothing. -/
def Stated.FramesPassThroughTheRing : Prop :=
  ∀ (s : State) (k : Fin 4) (d : Fin 2),
    (∀ ws sub, s.inPassing k d = false → Does (.inpassSegmentPost k d ws sub) s fun t => t = notify s s)
    ∧ (∀ (ws : List Word) (sub : Fin 32), s.inPassing k d = true → s.fld F.epStat_LINK (s.ingress k d) ≠ 0 → 1 ≤ ws.length → ws.length ≤ 64 →
        (∀ x ∈ allDirs, (s.dir x.1 x.2).frames = []) → (s.dir k d).slot < 31 → (s.dir k d).seq < 256 →
        Does (.inpassSegmentPost k d ws sub) s fun t =>
          let j := nextMember (s.relayGroup k d) (s.fld (nextFld d) k)
          let e := 8 * s.fld F.epIpcfg0_STBL k + j
          let d0 := (readCode (t.raw (s.ringPlace k d (descOff j)))).word.toNat
          (t.dir k d).frames.map (·.words) = [ws] ∧ (t.dir k d).slot = ((s.dir k d).slot + 1) % 31 ∧ (t.dir k d).seq = ((s.dir k d).seq + 1) % 256
            ∧ (s.fnState (s.fld F.epIpcfg0_FN k) = 2 →
                bits d0 46 2 = 3 ∧ bits d0 38 5 = (s.dir k d).slot ∧ bits d0 30 8 = (s.dir k d).seq ∧ (t.e e).ev.getLsbD 13 = true)
            ∧ (s.fnState (s.fld F.epIpcfg0_FN k) ≠ 2 →
                t.fld (nextFld d) k = s.fld (nextFld d) k ∧ (t.e e).ev.getLsbD 13 = (s.e e).ev.getLsbD 13))
    ∧ (∀ (len : Nat), (s.dir k d).frames.all (·.fin.isSome) = true → ∀ bad, Does (.inpassFrameEnd k d len bad) s fun t => t = notify s s)
    ∧ (∀ (len g j : Nat) (x : RFrame), (s.dir k d).frames = [x] → x.fin = none → x.gone = false → x.started = false → x.slots = [g] → g < 31 →
        x.poss = [some j] → j < 8 → x.ue = false → s.fnState (s.fld F.epIpcfg0_FN k) = 2 → x.arrived = 0 → x.words.length ≤ 64 → len ≤ s.maxFrm (s.ingress k d) → Does (.inpassFrameEnd k d len false) s fun t =>
          (t.dir k d).frames = [{ x with arrived := x.words.length, fin := some (min len (6 * x.words.length), false) }]
            ∧ (∀ i < x.words.length, readCode (t.raw (s.ringPlace k d (64 * g + i))) = .ok (x.words.getD i 0))
            ∧ (t.e (8 * s.fld F.epIpcfg0_STBL k + j)).ev.getLsbD 13 = true)
    ∧ ∀ (n : Nat) (x : RFrame), s.egressNext k d = some (n, x) →
      (x.started = false → s.tOut k x ≤ 4000 * s.tick → (∀ e, x.fin = some e → x.egress.length < egressWords e.1) →
        (s.fld F.epStat_LINK (s.egress k d) = 0 → Does (.inpassEgressStart k d) s fun t =>
          t.fld F.epIpcnt_DROP k d = min (s.fld F.epIpcnt_DROP k d + 1) (2 ^ F.epIpcnt_DROP.width - 1) ∧ t.eng = s.eng ∧ t.loft = s.loft)
        ∧ (s.fld F.epStat_LINK (s.egress k d) ≠ 0 → x.slip = false → Does (.inpassEgressStart k d) s fun t =>
          t = notify s (s.setDir k d { s.dir k d with frames := (s.dir k d).frames.set n { x with started := true } }))
        ∧ (s.fld F.epStat_LINK (s.egress k d) ≠ 0 → x.slip = true → Does (.inpassEgressStart k d) s fun t =>
          t.fld F.epIpcnt_SLIP k d = min (s.fld F.epIpcnt_SLIP k d + 1) (2 ^ F.epIpcnt_SLIP.width - 1) ∧ t.fld F.epIpstat_SLEV k = 1
            ∧ (t.dir k d).frames = (s.dir k d).frames.set n { x with started := true }))
      ∧ (∀ len, x.started = false → s.tOut k x ≤ 4000 * s.tick → s.fld F.epStat_LINK (s.egress k d) ≠ 0 → x.slip = false → x.fin = some (len, false) →
        egressWords len ≤ x.egress.length → (s.dir k d).frames = [x] → Does (.inpassEgressStart k d) s fun t =>
          (s.out ++ [.frame (s.egress k d) ((x.egress.flatMap wordBytes).take (len - 4)) true]) <+: t.out ∧ (t.dir k d).frames = []
            ∧ t.eng = s.eng ∧ t.loft = s.loft)
      ∧ (x.started = true → Does (.inpassEgressStart k d) s fun t => t = notify s s)
      ∧ ∀ i : Nat, (i ≠ x.egress.length → Does (.inpassWordLatch k d i) s fun t => t = notify s s)
        ∧ ∀ v, i = x.egress.length → i < x.words.length → x.fin = none → s.fld F.epStat_LINK (s.egress k d) ≠ 0 → s.latchPs k x i / 4000 ≤ s.tick →
          readCode (s.raw (s.ringPlace k d (64 * x.slots.getD (i / 64) 0 + i % 64))) = .ok v → Does (.inpassWordLatch k d i) s fun t =>
            t = notify s (s.setDir k d { s.dir k d with frames := (s.dir k d).frames.set n { x with egress := x.egress ++ [v] } })

/-- The window of a pair is refused where the pair is off, to others than its engines and supervisors, to an engine whose function does not own
the bank or loses it (R140), and while its function does not run; a word of a posted segment is written as long as egress has not latched it, a
later one is counted, and a descriptor's VALID is cleared alone, a partial write that an uncorrectable word refuses. -/
def Stated.WindowWritesReachTheRing : Prop :=
  ∀ (s : State) (w : Who) (k : Fin 4) (o : Fin 4096) (v : Word), s.heard w = true → s.applied = true →
    let u := windowWait w k o s
    let n := s.fld F.epIpcfg0_STBL k
    (s.fld F.epIpcfg0_EN k = 0 → Does (.inpassWindowWrite w k o v) s fun t => t = notify s (finish w { disp := 9, det := 1, cls := 6, st := s }))
    ∧ (∀ e, w = .engine e → u.fld F.epIpcfg0_EN k ≠ 0 → u.supervisor w = false →
      (e.val / 8 ≠ u.fld F.epIpcfg0_STBL k ∨ u.engFn e ≠ u.fld F.epIpcfg0_FN k → Does (.inpassWindowWrite w k o v) s fun t =>
        t = notify s (finish w (denied u 1)))
      ∧ (e.val / 8 = n → u.fld F.epIpcfg0_STBL k = n → u.engFn e = u.fld F.epIpcfg0_FN k → u.mayLoft w n (windowBank o) = false →
        Does (.inpassWindowWrite w k o v) s fun t => t = notify s (finish w (denied (countDeny n u) 1))))
    ∧ (windowDenied w k o u = none → u.fnState (u.fld F.epIpcfg0_FN k) ≠ 2 → Does (.inpassWindowWrite w k o v) s fun t =>
        t = notify s (finish w (denied u 1)))
    ∧ (windowDenied w k o u = none → u.fnState (u.fld F.epIpcfg0_FN k) = 2 → ∀ (d : Fin 2) (r : Nat), o.val = 2048 * d.val + r →
      (r < 0x7C0 →
        (∀ x g, u.slotHolder k d (r / 64) = some (x, g) → x.egress.length ≤ 64 * g + r % 64 → 64 * g + r % 64 < x.arrived → x.arrived ≤ x.words.length →
          Does (.inpassWindowWrite w k o v) s fun t => t = notify s (finish w { st := memWrite (u.ringPlace k d r) v u }))
        ∧ (u.slotHolder k d (r / 64) = none → Does (.inpassWindowWrite w k o v) s fun t =>
          t.fld F.epIpcnt_LATEW k d = min (u.fld F.epIpcnt_LATEW k d + 1) (2 ^ F.epIpcnt_LATEW.width - 1) ∧ t.fld F.epIpstat_LWEV k = 1
            ∧ t.loft = u.loft ∧ t.eng = u.eng))
      ∧ ∀ (j : Fin 8), r = descOff j →
        let a := u.ringPlace k d r
        (∀ x, readCode (u.raw a) = .ok x →
          (Does (.inpassWindowWrite w k o v) s fun t =>
            t = notify s (finish w { st := memWrite a (wd (setBits x.toNat 47 1 (bits v.toNat 47 1))) u }))
          ∧ Does (.inpassDescriptorClear w k d j) s fun t =>
            t = notify s (finish w { st := memWrite a (wd (setBits x.toNat 47 1 0)) u }))
        ∧ ∀ x y, readCode (u.raw a) = .ue x y → Does (.inpassDescriptorClear w k d j) s fun t =>
            t.raw a = u.raw a ∧ t.eng = u.eng)

/-! ### System time (chapter 13) -/

/-- A sample of a reference is kept and makes it valid; the selected reference's phase steers the servo by the law of R250, which moves
between ACQUIRE and LOCKED after samples of one kind in a row; a reference without samples for TIMEOUT ms is invalid; a ramp ends at its time. -/
def Stated.ReferencesSteerTheServos : Prop :=
  ∀ (s : State), s.applied = true ∨ s.halter = true →
    let kept := fun (r : Nat) (v : Int) =>
      let u := (s.putInt F.refStat_LAST (Int.fdiv v 65536) r).put F.refStat_VALID 1 r
      ({ u with refs := Tab.set 0 u.refs r (s.tick + 1) } : State)
    let quiet := fun (u : State) => ∀ j < 2, u.servoOn j = true → u.bestRef j = u.selRef j
    (∀ (w : Who) (r : Fin 8) (v : Word), s.heard w = true → s.mayRef w r = true →
      let θ := toSigned 48 v.toNat
      let j := s.fld F.refCfg_TGT r
      (s.refKind r ≠ 1 → Does (.refOfsWrite w r v) s fun t => t = notify s (finish w { st := s }))
      ∧ (s.refKind r = 1 → s.servoOn j = false → quiet (kept r θ) → Does (.refOfsWrite w r v) s fun t => t = notify s (finish w { st := kept r θ }))
      ∧ (s.refKind r = 1 → s.servoOn j = true → s.selRef j = some r.val → (kept r θ).bestRef j = some r.val → (s.servo j).await = false → (s.servo j).ramp = none →
        s.tcState j = 2 ∨ s.tcState j = 3 → s.fld F.svStat_SEED j = 0 → s.fld F.svCfg0_STEPEN j = 0 → Does (.refOfsWrite w r v) s fun t =>
          let aq := s.tcState j = 2
          let th := s.fld F.svCfg1_LOCKTH j * 65536
          let inRow := fun (n : Nat) => if s.fld F.svStat_FONLY j = 0 then n + 1 else 1
          let yi := s.yi j - Int.fdiv θ (2 ^ (if aq then s.fld F.svCfg0_KIA j else s.fld F.svCfg0_KI j) : Nat)
          let y := toSigned 40 (ofSigned 40 yi) - Int.fdiv θ (2 ^ (if aq then s.fld F.svCfg0_KPA j else s.fld F.svCfg0_KP j) : Nat)
          t.fld F.svYi_PPB j = ofSigned 40 yi
            ∧ t.incOf j = (2 ^ 34 + Int.fdiv (max (-500000 * 65536) (min (500000 * 65536) y) * 2 ^ 18) 1000000000).toNat
            ∧ t.tcState j = (if aq then (if θ.natAbs ≤ th ∧ s.fld F.svCfg0_LOCKN j ≤ inRow (s.servo j).lockN then 3 else 2)
                else if 4 * th < θ.natAbs ∧ 4 ≤ inRow (s.servo j).offN then 2 else 3)))
    ∧ (∀ sub : Fin 32, ((List.range 8).find? fun r => s.refKind r == 3) = none → Does (.ppsEdge sub) s fun t => t = notify s s)
    ∧ (∀ (sub : Fin 32) r, ((List.range 8).find? fun r => s.refKind r == 3) = some r → s.servoOn (s.fld F.refCfg_TGT r) = false →
        let θ := ppsTheta (s.timeAt (s.fld F.refCfg_TGT r) sub) (s.fld F.refCfg_PARAM r)
        quiet (kept r θ) → Does (.ppsEdge sub) s fun t => t = notify s (kept r θ))
    ∧ (∀ ferr, ((List.range 8).find? fun r => s.refKind r == 4) = none → Does (.frefSample ferr) s fun t => t = notify s s)
    ∧ (∀ ferr r, ((List.range 8).find? fun r => s.refKind r == 4) = some r → s.servoOn (s.fld F.refCfg_TGT r) = false → quiet (kept r ferr) → Does (.frefSample ferr) s fun t =>
        t = notify s (kept r ferr))
    ∧ (∀ (r : Fin 8) x, s.fld F.refStat_VALID r ≠ 0 → Tab.get 0 s.refs r = x + 1 → x + s.fld F.refCfg_TIMEOUT r * 250000 < s.tick →
        Does (.refTimeout r) s fun t => t.fld F.refStat_VALID r = 0 ∧ Tab.get 0 t.refs r = 0 ∧ t.loft = s.loft)
    ∧ (∀ (r : Fin 8), s.fld F.refStat_VALID r = 0 → Does (.refTimeout r) s fun t => t = notify s s)
    ∧ (∀ (j : Fin 2) x, (s.servo j).ramp = some x → x.t0 + x.w ≤ s.tick → Does (.rampEnd j) s fun t =>
        t = notify s ((s.setServo j { s.servo j with ramp := none, before := none }).put F.svStat_RAMP 0 j))
    ∧ ∀ (j : Fin 2), (s.servo j).ramp = none → Does (.rampEnd j) s fun t => t = notify s s

/-- A pulse generator's pin goes active at each edge START + k·PER, and back WID ns later; a one-shot whose START was past begins at once with
LATEF; the one pulse of a one-shot sets DONE when it ends. A pulse that a step cuts ends at the tick after it. -/
def Stated.PulsesRiseAndFall : Prop :=
  ∀ (s : State) (g : Fin 8),
    let x := s.pulse g
    let i := s.fld F.pgCfg_TCSEL g
    let edge := s.pgStart g + x.k * s.fld F.pgPer_PER g
    let ours := fun (p : Nat) => s.eff F.piPin_FUNC (· == 3) (p / 16) (p % 16) = 2 ∧ ∀ g' < 8, g' ≠ g.val → (s.pulse g').high = true → (s.pulse g').pin ≠ p
    (s.fld F.pgCfg_EN g = 0 ∨ x.high = true ∨ (s.fld F.pgPer_PER g = 0 ∧ x.spent = true) → Does (.pulseRise g) s fun t => t = notify s s)
    ∧ (s.fld F.pgCfg_EN g ≠ 0 → x.high = false → (s.fld F.pgPer_PER g = 0 → x.spent = false ∧ x.late = false) → edge * 2 ^ 32 ≤ s.total i →
        Does (.pulseRise g) s fun t =>
          let p := s.fld F.pgCfg_PIN g
          let pol := s.on F.pgCfg_POL g
          (t.pulse g) = { high := true, fallAt := edge + s.fld F.pgCfg_WID g, dom := i, pin := p, pol := pol, k := x.k + 1
                          spent := s.fld F.pgPer_PER g = 0, last := s.fld F.pgPer_PER g = 0, late := false }
            ∧ (ours p → (t.pin p).lvl = !pol ∧ (t.pin p).dir = true)
            ∧ (ours p → (s.pin p).lvl = pol → t.pin p = { lvl := !pol, dir := true, trim := min 31 ((s.total i - edge * 2 ^ 32) * 32 / s.incOf i) })
            ∧ (∀ g', g' ≠ g.val → t.pulse g' = s.pulse g') ∧ t.act = s.act ∧ t.eng = s.eng)
    ∧ (s.fld F.pgCfg_EN g ≠ 0 → x.high = false → s.fld F.pgPer_PER g = 0 → x.spent = false → x.late = true → edge * 2 ^ 32 ≤ s.total i →
        Does (.pulseRise g) s fun t =>
          t.fld F.pgStat_LATEF g = 1 ∧ (t.pulse g).high = true ∧ (t.pulse g).fallAt = s.nsNow i + s.fld F.pgCfg_WID g
            ∧ (ours (s.fld F.pgCfg_PIN g) → (t.pin (s.fld F.pgCfg_PIN g)).lvl = !s.on F.pgCfg_POL g))
    ∧ (x.high = false → Does (.pulseFall g) s fun t => t = notify s s)
    ∧ (x.high = true → (x.endTick = none ∧ x.fallAt * 2 ^ 32 ≤ s.total x.dom) ∨ (∃ y ≤ s.tick, x.endTick = some y) →
        (s.fld F.pgCfg_PIN g = x.pin → s.on F.pgCfg_POL g = x.pol) → Does (.pulseFall g) s fun t =>
        (t.pulse g) = { x with high := false, endTick := none } ∧ (x.last = true → t.fld F.pgStat_DONE g = 1)
          ∧ (ours x.pin → (∀ g' < 8, g' ≠ g.val → s.fld F.pgCfg_PIN g' ≠ x.pin) → (t.pin x.pin).lvl = x.pol ∧ (t.pin x.pin).dir = true)
          ∧ (∀ g', g' ≠ g.val → t.pulse g' = s.pulse g') ∧ t.eng = s.eng)

/-! ### The Paddock bus and the CAN controllers (chapters 14 and 15) -/

/-- At the start of a slot, at the BCLK edge nearest it, the master sends its reference message, a backup sends its own where none has come, and a node with permission its
data, through the scrambler; a unit that has begun to drive sends no reference message before the next cycle; without permission the slot is counted as inhibited; a claimant sends in a spare slot it holds or has found quiet;
a node without a schedule sends nothing. -/
def Stated.PaddockSlotsAreSent : Prop :=
  ∀ (s : State) (k : Fin 1024),
    (s.pdRole = 0 ∨ s.pdMuted = true ∨ s.fld F.pdCfg2_NSLOT ≤ k → Does (.paddockSlotSend k) s fun t => t = notify s s)
    ∧ (s.pdRole ≠ 0 → s.pdMuted = false → k.val < s.fld F.pdCfg2_NSLOT →
      let e := (pdLead k s).1
      let u := (pdLead k s).2
      let inhibited := fun (t : State) => t.fld F.pdCnt_TXINH = min (s.fld F.pdCnt_TXINH + 1) (2 ^ F.pdCnt_TXINH.width - 1)
        ∧ ∀ b l, Out.paddock b l ∈ t.out → Out.paddock b l ∈ s.out
      let sent := fun (typ : Nat) (ws : List Word) (t : State) => t.pd.sentSlots.contains k.val = true
        ∧ Out.paddock e (scramble (frameBits typ (s.fld F.pdCfg0_NODE) k t.pd.cycle ws) s.pd.scr).1 ∈ t.out
      (s.pdTimed = false → s.pdData k = true → Does (.paddockSlotSend k) s inhibited)
      ∧ (s.pdTimed = false → s.pdData k = false → Does (.paddockSlotSend k) s fun t => t = notify s s)
      ∧ (s.pdTimed = true → u.pd.sentSlots.contains k.val = false →
        (s.pdKind k = 1 → u.pd.refFrom ≠ none → Does (.paddockSlotSend k) s fun t =>
          (∀ b l, Out.paddock b l ∈ t.out → Out.paddock b l ∈ s.out) ∧ t.pd.sentSlots.contains k.val = false)
        ∧ (u.pd.refFrom = none → k.val = 0 → s.pdActs = 5 → s.fld F.pdStat_ALONE = 0 → s.pd.started = true → s.pdKind k = 1 → Does (.paddockSlotSend k) s fun t =>
          sent 0 (t.refPayload e 0) t ∧ t.pd.refSent = true ∧ (s.pd.boff = [] → s.fld F.pdStat_MODE = 4 → t.fld F.pdStat_MODE = 4))
        ∧ (u.pd.refFrom = none → k.val = 0 → s.fld F.pdStat_ALONE ≠ 0 → Tab.get 0 s.pd.boff 0 = 0 → s.pdKind k = 1 → Does (.paddockSlotSend k) s fun t =>
          sent 0 (t.refPayload e 7) t ∧ t.pd.refSent = true)
        ∧ (u.pd.refFrom = none → 2 ≤ s.pdActs → s.pdActs ≤ 4 → k.val + 1 = s.pdActs → s.fld F.pdStat_ALONE = 0 → s.pdKind k = 1 →
          (u.pd.refSeen = false → s.pd.boff = [] → Does (.paddockSlotSend k) s fun t =>
            sent 0 (t.refPayload e k) t ∧ t.pd.refSent = true ∧ t.fld F.pdStat_MODE = 3)
          ∧ (u.pd.refSeen = true → s.pd.boff = [] → Does (.paddockSlotSend k) s fun t => t.fld F.pdStat_MODE = 2))
        ∧ (s.pdKind k = 2 → s.pdTxOk = false → Does (.paddockSlotSend k) s fun t => inhibited t ∧ t.pd.sentSlots.contains k.val = false)
        ∧ (s.pdKind k = 2 → s.pdTxOk = true → Does (.paddockSlotSend k) s fun t =>
          sent 1 (slotWords k u).1 t ∧ (slotWords k u).1.length = s.fld F.pdSlotA_LEN k)
        ∧ (s.pdKind k = 4 → s.fld F.pdSlotA_CLAIM k ≠ 0 →
          (s.fld F.pdSlotst_CLAIM k = 3 → s.pdTxOk = false → Does (.paddockSlotSend k) s fun t =>
            inhibited t ∧ t.pd.sentSlots.contains k.val = false)
          ∧ (s.fld F.pdSlotst_CLAIM k = 0 → Does (.paddockSlotSend k) s fun t => t.fld F.pdSlotst_CLAIM k = 1)
          ∧ (s.pdTxOk = true → s.fld F.pdSlotst_CLAIM k = 3 ∨ (s.fld F.pdSlotst_CLAIM k = 1 ∧ 2 ≤ s.fld F.pdSlotst_QUIET k) →
            Does (.paddockSlotSend k) s (sent 1 (slotWords k u).1)))))

/-- At the end of a slot's window the frames that its channels brought are shown, its silence is counted, a mapped frame goes to its region, a
frame of the node's own of which neither channel brings a valid copy is a collision, and the reference message of a cycle is taken. -/
def Stated.PaddockWindowsAreRecorded : Prop :=
  ∀ (s : State) (k : Fin 1024) (rx : PdRx),
    let u := (pdPass (5 * (s.fld F.pdSlotA_START k + s.pdBits k + s.fld F.pdCfg0_WIN)) s).2
    (s.pdTimed = false ∨ s.fld F.pdCfg2_NSLOT ≤ k ∨ s.pdKind k = 0 → Does (.paddockSlotReceive k rx) s fun t => t = notify s s)
    ∧ (s.pdTimed = true → k.val < s.fld F.pdCfg2_NSLOT →
      (∀ f, s.pdKind k ≠ 0 → (u.pdHeard k rx.strayA rx.a).1 = some f ∨ (u.pdHeard k rx.strayB rx.b).1 = some f → u.pdValid k f = true →
        f.node = s.fld F.pdCfg0_NODE → Does (.paddockSlotReceive k rx) s fun t =>
          t.fld F.pdCnt_COLL = s.fld F.pdCnt_COLL ∧ t.fld F.pdEvt_COLL = s.fld F.pdEvt_COLL)
      ∧ (rx.a = none → rx.b = none →
        (s.pdKind k = 3 → s.fld F.pdSlotB_MAP k = 0 → Does (.paddockSlotReceive k rx) s fun t =>
          t.fld F.pdSlotst_CHV k = 0 ∧ t.fld F.pdSlotst_QUIET k = min 15 (s.fld F.pdSlotst_QUIET k + 1) % 2 ^ F.pdSlotst_QUIET.width
            ∧ ∀ ch < 2, t.fld F.pdCntAB_MISS ch = min (s.fld F.pdCntAB_MISS ch + 1) (2 ^ F.pdCntAB_MISS.width - 1)
              ∧ t.fld F.pdCntAB_WIN ch = min (s.fld F.pdCntAB_WIN ch + (if ch = 0 then rx.strayA else rx.strayB)) (2 ^ F.pdCntAB_WIN.width - 1))
        ∧ (s.pdKind k = 4 → s.fld F.pdSlotA_CLAIM k ≠ 0 → s.fld F.pdSlotB_MAP k = 0 → (k.val = 0 → s.fld F.pdStat_ALONE = 0) →
          u.pd.sentSlots.contains k.val = true → 0 < s.tick → Does (.paddockSlotReceive k rx) s fun t =>
            t.fld F.pdSlotst_CLAIM k = 2 ∧ t.fld F.pdEvt_COLL = 1 ∧ t.fld F.pdStat_MODE = 6
              ∧ (∃ r, 1 ≤ r ∧ r ≤ 16 ∧ Tab.get 0 t.pd.boff k = t.tick + r * s.fld F.pdCfg0_CYC / 4)
              ∧ t.fld F.pdCnt_COLL = min (s.fld F.pdCnt_COLL + 1) (2 ^ F.pdCnt_COLL.width - 1)))
      ∧ ∀ (c : PdCopy) (f : PdFrame), rx.a = some c → rx.b = none → readFrame c.line = some f → s.inWindow k c = true → f.crcOk = true →
        f.slot = k.val → f.len = s.fld F.pdSlotA_LEN k → f.cnum = u.pd.cycle →
        (s.pdKind k = 3 → s.fld F.pdSlotB_MAP k = 0 → f.typ = 1 → Does (.paddockSlotReceive k rx) s fun t =>
          t.fld F.pdSlotst_CHV k = 1 ∧ t.fld F.pdSlotst_QUIET k = 0 ∧ t.fld F.pdSlotst_HOLDER k = f.node ∧ t.pd.seen.getLsbD f.node = true)
        ∧ (s.pdKind k = 3 → s.fld F.pdSlotB_MAP k ≠ 0 → f.typ = 1 → f.len = 1 → s.rgSrc (s.fld F.pdSlotB_RGN k) ≠ 1 →
          Does (.paddockSlotReceive k rx) s fun t =>
            let r := s.fld F.pdSlotB_RGN k
            t.raw (mgPlace (s.bufWord r (s.rg r).write (s.fld F.pdSlotB_WOFS k))) = sealW (f.payload.headD 0) ∧ k.val ∈ (t.rg r).slots)
        ∧ (s.pdKind k = 1 → k.val ≤ 3 → f.typ = 0 → u.pd.refSeen = false → u.pd.sentSlots.contains k.val = false →
          Does (.paddockSlotReceive k rx) s fun t =>
            t.fld F.pdStat_REFSLOT = k.val ∧ t.fld F.pdStat_REFNODE = f.node ∧ t.pd.refSeen = true ∧ t.pd.lastRef = some t.tick
              ∧ t.fld F.pdStat_ALONE = 0))

/-- A back-off ends in a new claim, or lets the lone master send again; LISTEN without a reference message makes a node a lone master, starts a
master, or ends its alignment; the fourth good reference message in a row aligns a node. -/
def Stated.PaddockListensAndAligns : Prop :=
  ∀ (s : State),
    (∀ k : Fin 1024,
      let x := Tab.get 0 s.pd.boff k
      (x = 0 → Does (.paddockBackoffEnd k) s fun t => t = notify s s)
      ∧ (x ≠ 0 → x ≤ s.tick →
        (k.val = 0 ∧ s.fld F.pdStat_ALONE ≠ 0 → Does (.paddockBackoffEnd k) s fun t =>
          Tab.get 0 t.pd.boff k = 0 ∧ (s.pd.boff = [(0, x)] → t.fld F.pdStat_MODE = 5 ∧ t.fld F.pdStat_BOFF = 0) ∧ t.eng = s.eng)
        ∧ (¬(k.val = 0 ∧ s.fld F.pdStat_ALONE ≠ 0) → Does (.paddockBackoffEnd k) s fun t =>
          Tab.get 0 t.pd.boff k = 0 ∧ t.fld F.pdSlotst_CLAIM k = 1 ∧ t.eng = s.eng)))
    ∧ (let since := max s.pd.enabledAt (s.pd.lastRef.getD 0)
      let ms := s.fld F.pdCfg1_LISTEN * 250000
      (s.pdActs = 0 ∨ s.fld F.pdStat_ALONE ≠ 0 ∨ (s.pdActs = 5 ∧ s.pd.started = true ∧ s.fld F.pdStat_ALIGN = 0) →
        Does .paddockListenTimeout s fun t => t = notify s s)
      ∧ (s.pdActs = 5 → s.fld F.pdStat_ALONE = 0 → s.pd.started = false → s.pd.boff = [] → s.pd.enabledAt + ms ≤ s.tick →
        Does .paddockListenTimeout s fun t => t.pd.started = true ∧ t.fld F.pdStat_MODE = 4 ∧ t.fld F.pdStat_ALONE = 0 ∧ t.fld F.pdStat_TXOK = 1)
      ∧ (s.pdActs = 5 → s.fld F.pdStat_ALONE = 0 → s.pd.started = true → s.fld F.pdStat_ALIGN ≠ 0 → since + ms ≤ s.tick →
        Does .paddockListenTimeout s fun t => t.fld F.pdStat_ALIGN = 0 ∧ t.fld F.pdEvt_ALIGNCHG = 1 ∧ t.fld F.pdStat_ALONE = 0)
      ∧ (s.pdActs ≠ 0 → s.pdActs ≠ 5 → s.fld F.pdStat_ALONE = 0 → s.pd.boff = [] → since + ms ≤ s.tick → Does .paddockListenTimeout s fun t =>
        t.pd.started = true ∧ t.fld F.pdStat_MODE = 5 ∧ t.fld F.pdStat_ALONE = 1 ∧ t.fld F.pdEvt_ALONE = 1 ∧ t.fld F.pdStat_ALIGN = 0))
    ∧ ∀ (pos : Nat) (line : List Bool),
      (readFrame line = none → Does (.paddockReferenceSearch pos line) s fun t => t = notify s s)
      ∧ ∀ c : PdFrame, readFrame line = some c →
        (s.pdActs = 0 ∨ s.fld F.pdStat_ALIGN ≠ 0 ∨ c.typ ≠ 0 ∨ 3 < c.slot → Does (.paddockReferenceSearch pos line) s fun t => t = notify s s)
        ∧ (s.pdActs ≠ 0 → s.fld F.pdStat_ALIGN = 0 → c.typ = 0 → c.slot ≤ 3 → (pos + 256) * 5 / 4 ≤ s.tick →
          (s.pd.cands = [] → Does (.paddockReferenceSearch pos line) s fun t =>
            t = notify s { s with pd := { s.pd with cands := [⟨pos, if c.crcOk then 1 else 0⟩] } })
          ∧ ∀ p, s.pd.cands = [⟨p, 3⟩] → pos = p + s.fld F.pdCfg0_CYC / 5 → c.crcOk = true → s.pd.boff = [] →
            Does (.paddockReferenceSearch pos line) s fun t =>
              t.fld F.pdStat_ALIGN = 1 ∧ t.fld F.pdEvt_ALIGNCHG = 1 ∧ t.pd.lastRef = some s.tick ∧ t.pd.cands = [] ∧ t.pd.anchorK = c.cnum
                ∧ (s.pdActs ≠ 5 → t.pd.cycle = c.cnum ∧ (s.fld F.pdStat_MODE ≠ 3 → t.fld F.pdStat_MODE = 2)))

/-- A CAN transmit buffer is written while it has no request, requested, and withdrawn, at once or when its frame on the bus ends. -/
def Stated.CanBuffersAreRequestedAndWithdrawn : Prop :=
  ∀ (s : State) (w : Who) (n : Fin 4) (k : Fin 3), s.heard w = true → s.applied = true →
    (s.mayCan w n = false → ∀ j v, Does (.canTxRequest w n k) s (fun t => t = notify s (finish w (denied s)))
      ∧ Does (.canTxAbort w n k) s (fun t => t = notify s (finish w (denied s))) ∧ Does (.canTxBufferWrite w n k j v) s (fun t => t = notify s (finish w (denied s)))
      ∧ Does (.canFifoPop w n) s fun t => t = notify s (finish w (denied s)))
    ∧ (s.mayCan w n = true →
      (Does (.canFifoPop w n) s fun t => t = notify s (finish w { st := s.setCn n { s.cn n with fifo := (s.cn n).fifo.drop 1 } }))
      ∧ (s.fld F.canTxCtl_TXREQ n k ≠ 0 →
        (∀ j v, Does (.canTxBufferWrite w n k j v) s fun t => t = notify s (finish w { st := s.put F.canEvt_TXBUSY 1 n }))
        ∧ (Does (.canTxRequest w n k) s fun t => t = notify s (finish w { st := s }))
        ∧ ((s.cn n).bus = some k.val → Does (.canTxAbort w n k) s fun t =>
          t = notify s (finish w { st := (s.put F.canTxCtl_ABTD 1 n k).setCn n { s.cn n with abort := true } }))
        ∧ ((s.cn n).bus ≠ some k.val → Does (.canTxAbort w n k) s fun t =>
          t = notify s (finish w { st := (s.put F.canTxCtl_ABTD 1 n k).put F.canTxCtl_TXREQ 0 n k })))
      ∧ (s.fld F.canTxCtl_TXREQ n k = 0 →
        (∀ (j : Fin 11) (j' : Fin 12) (v : Word), j'.val = j.val + 1 → Does (.canTxBufferWrite w n k j' v) s fun t =>
          t = notify s (finish w { st := s.put F.canTxData_DATA v.toNat n (11 * k.val + j.val) }))
        ∧ (∀ v : Word, Does (.canTxBufferWrite w n k 0 v) s fun t =>
          (∀ f ∈ [F.canTxHdr_IDE, F.canTxHdr_RTR, F.canTxHdr_FDF, F.canTxHdr_BRS, F.canTxHdr_DLC, F.canTxHdr_ID], t.fld f n k = bits v.toNat f.lo f.width)
            ∧ t.can = s.can ∧ t.eng = s.eng)
        ∧ (Does (.canTxAbort w n k) s fun t => t = notify s (finish w { st := s }))
        ∧ Does (.canTxRequest w n k) s fun t =>
          t = notify s (finish w { st := ((s.put F.canTxCtl_TXREQ 1 n k).put F.canTxCtl_SENT 0 n k).put F.canTxCtl_ABTD 0 n k })))

/-- A start point ends the listening of a unit of a pair that has begun to drive (the instant of it: the model's choice, log entry 62), and takes the requested buffer whose arbitration field wins; the end of its frame clears the request and sets SENT, or leaves it
for another try unless it was withdrawn. -/
def Stated.CanFramesAreSent : Prop :=
  ∀ (s : State) (n : Fin 4),
    ((s.cn n).mon = false → s.canOn n = false ∨ (s.cn n).bus ≠ none → Does (.canFrameStart n) s fun t => t = notify s s)
    ∧ ((s.cn n).mon = true → s.canMode n = 2 ∧ Does (.canFrameStart n) s fun t =>
        (t.cn n).mon = false ∧ (t.cn n).fifo = (s.cn n).fifo ∧ t.eng = s.eng)
    ∧ (s.canOn n = true → s.canMode n = 1 → (s.cn n).bus = none →
      ((∀ k < 3, s.fld F.canTxCtl_TXREQ n k = 0) → Does (.canFrameStart n) s fun t => t = notify s s)
      ∧ (s.fld F.canCfg0_TXORD n = 0 → (∃ k < 3, s.fld F.canTxCtl_TXREQ n k ≠ 0) → Does (.canFrameStart n) s fun t =>
        ∃ k < 3, s.fld F.canTxCtl_TXREQ n k ≠ 0 ∧ (∀ k' < 3, s.fld F.canTxCtl_TXREQ n k' ≠ 0 → s.canKey n k ≤ s.canKey n k')
          ∧ t = notify s (s.setCn n { s.cn n with bus := some k, sof := s.sofTk n, abort := false })))
    ∧ ((s.cn n).bus = none → ∀ r, Does (.canFrameEnd n r) s fun t => t = notify s s)
    ∧ ∀ k < 3, (s.cn n).bus = some k →
      (Does (.canFrameEnd n .success) s fun t =>
        t.fld F.canTxCtl_TXREQ n k = 0 ∧ t.fld F.canTxCtl_SENT n k = 1 ∧ t.fld F.canTxCtl_TXTS n k = (s.cn n).sof % 2 ^ F.canTxCtl_TXTS.width
          ∧ t.fld F.canEvt_TXDONE n = 1 ∧ t.fld F.canStat_LONE n = 0 ∧ (t.cn n).bus = none
          ∧ (s.column = .running → s.canMode n = 1 ∨ s.canMode n = 3 → Out.can n k (s.canFrameOf n k) ∈ t.out)
          ∧ (s.canMode n = 4 → ∀ fr, Out.can n k fr ∈ t.out → Out.can n k fr ∈ s.out)
          ∧ (s.canMode n ≠ 3 → t.fld F.canStat_TEC n = min (s.fld F.canStat_TEC n - 1) 255 % 2 ^ F.canStat_TEC.width))
      ∧ ∀ r ∈ [CanEnd.lostArbitration, CanEnd.error],
        let u := s.setCn n { s.cn n with bus := none, abort := false }
        ((s.cn n).abort = false → Does (.canFrameEnd n r) s fun t => t = notify s u)
        ∧ ((s.cn n).abort = true → Does (.canFrameEnd n r) s fun t => t = notify s (u.put F.canTxCtl_TXREQ 0 n k))

/-- A received frame goes where its first matching filter says, with its identifier and time; one that no filter matches is counted. An error
shows its code and raises the error counters, which are frozen in MODE 3; a recessive res bit is a protocol exception, or a form error; bus-off ends at the 128th sequence of
recessive bits with the counters zero; eleven recessive bits let the controller take part. -/
def Stated.CanFramesAndErrorsAreReceived : Prop :=
  ∀ (s : State) (n : Fin 4),
    (∀ fr : CanFrame, s.canOn n = false ∨ s.canMode n = 4 ∨ (s.cn n).bus ≠ none ∨ (fr.fdf = true ∧ s.fld F.canCfg0_FDOE n = 0) →
      Does (.canReceiveFrame n fr) s fun t => t = notify s s)
    ∧ (∀ fr : CanFrame, s.canOn n = true → s.canMode n ≠ 4 → (s.cn n).bus = none → fr.fdf = true → fr.res = true → s.fld F.canCfg0_FDOE n ≠ 0 →
      (s.fld F.canCfg0_PXE n ≠ 0 → Does (.canReceiveFrame n fr) s fun t => t = notify s (s.put F.canStat_SYNCD 0 n))
      ∧ (s.fld F.canCfg0_PXE n = 0 → s.canMode n = 1 → s.fld F.canStat_FCS n = 0 → s.fld F.canStat_TEC n < 120 → s.fld F.canStat_REC n < 119 →
        Does (.canReceiveFrame n fr) s fun t =>
          t.fld F.canStat_LEC n = 2 ∧ t.fld F.canStat_REC n = s.fld F.canStat_REC n + 1 ∧ (t.cn n).fifo = (s.cn n).fifo
            ∧ (s.column = .running → Out.canFlag n true ∈ t.out)))
    ∧ (∀ fr : CanFrame, s.canOn n = true → s.canMode n ≠ 4 → (s.cn n).bus = none →
      (fr.fdf = true → s.fld F.canCfg0_FDOE n ≠ 0 ∧ fr.res = false) →
      let ident := if fr.ide then fr.ident.val else fr.ident.val / 2 ^ 18 * 2 ^ 18
      ((∀ i < 128, s.canMatch n fr ident i = false) → s.fld F.canCfg0_NOMATCH n = 0 → Does (.canReceiveFrame n fr) s fun t =>
        t.fld F.canCnt_NOMATCH n = min (s.fld F.canCnt_NOMATCH n + 1) (2 ^ F.canCnt_NOMATCH.width - 1) ∧ (t.cn n).fifo = (s.cn n).fifo
          ∧ (s.column = .running → s.canMode n = 1 ∨ s.canMode n = 3 → Out.canAck n ∈ t.out)
          ∧ (s.canMode n = 2 → Out.canAck n ∈ t.out → Out.canAck n ∈ s.out))
      ∧ ∀ i < 128, s.canMatch n fr ident i = true → (∀ j < i, s.canMatch n fr ident j = false) → s.eff F.canFltA_DEST (· == 3) n i = 0 →
        ((s.cn n).fifo.length < 64 → Does (.canReceiveFrame n fr) s fun t =>
          ∃ x : CanRx, (t.cn n).fifo = (s.cn n).fifo ++ [x] ∧ x.ts = s.sofTk n ∧ bits x.hdr.toNat 0 29 = ident ∧ bits x.hdr.toNat 32 7 = i
            ∧ bits x.hdr.toNat 39 4 = fr.dlc ∧ x.data.length = 11 ∧ t.fld F.canEvt_RXF n = 1 ∧ t.fld F.canStat_LONE n = 0)
        ∧ (64 ≤ (s.cn n).fifo.length → Does (.canReceiveFrame n fr) s fun t =>
          (t.cn n).fifo = (s.cn n).fifo ∧ t.fld F.canEvt_RXOVR n = 1
            ∧ t.fld F.canCnt_RXOVR n = min (s.fld F.canCnt_RXOVR n + 1) (2 ^ F.canCnt_RXOVR.width - 1)))
    ∧ (∀ er, s.canOn n = false → Does (.canError n er) s fun t => t = notify s s)
    ∧ (∀ er : CanErr, s.canOn n = true → s.canMode n = 1 → 1 ≤ er.code.val → er.code.val ≤ 6 → s.fld F.canStat_FCS n = 0 → s.fld F.canStat_TEC n < 120 →
      s.fld F.canStat_REC n < 119 → Does (.canError n er) s fun t =>
        t.fld (if er.dataPhase then F.canStat_DLEC else F.canStat_LEC) n = er.code ∧ t.fld F.canStat_FCS n = 0
          ∧ t.fld F.canStat_TEC n = s.fld F.canStat_TEC n + (if er.tx && er.code.val ≠ 1 then 8 else 0)
          ∧ t.fld F.canStat_REC n = s.fld F.canStat_REC n + (if er.tx then 0 else if er.dominantAfterFlag then 9 else 1))
    ∧ (∀ er : CanErr, s.canOn n = true → s.canMode n = 3 → 1 ≤ er.code.val → er.code.val ≤ 6 → Does (.canError n er) s fun t =>
        t.fld F.canStat_TEC n = s.fld F.canStat_TEC n ∧ t.fld F.canStat_REC n = s.fld F.canStat_REC n ∧ t.fld F.canStat_FCS n = s.fld F.canStat_FCS n
          ∧ (er.tx = true → er.code.val = 3 → s.fld F.canStat_FCS n = 1 → (s.cn n).heard = false → (s.cn n).lone = false →
              t.fld F.canStat_LONE n = 1 ∧ t.fld F.canEvt_LONE n = 1))
    ∧ (∀ er : CanErr, s.canOn n = true → s.canMode n = 1 → 1 ≤ er.code.val → er.code.val ≤ 6 → er.tx = true → er.code.val ≠ 1 → s.fld F.canStat_FCS n = 0 → 248 ≤ s.fld F.canStat_TEC n →
      Does (.canError n er) s fun t => t.fld F.canStat_FCS n = 2 ∧ t.fld F.canEvt_BOFF n = 1 ∧ (t.cn n).bus = none
        ∧ ∀ k < 3, (s.cn n).bus = some k → t.fld F.canTxCtl_TXREQ n k = (if (s.cn n).abort then 0 else s.fld F.canTxCtl_TXREQ n k))
    ∧ (∀ k : Fin 129,
      let c := s.fld F.canStat_BOREC n + k.val
      (s.fld F.canStat_FCS n ≠ 2 ∨ s.fld F.canStat_SYNCD n = 0 ∨ s.canMode n = 0 → Does (.canBusOffRecovery ⟨n, k⟩) s fun t => t = notify s s)
      ∧ (s.fld F.canStat_FCS n = 2 → s.fld F.canStat_SYNCD n ≠ 0 → s.canMode n ≠ 0 →
        (c < 128 → Does (.canBusOffRecovery ⟨n, k⟩) s fun t => t = notify s (s.put F.canStat_BOREC c n))
        ∧ (128 ≤ c → Does (.canBusOffRecovery ⟨n, k⟩) s fun t =>
          t = notify s (((((s.put F.canStat_FCS 0 n).put F.canStat_TEC 0 n).put F.canStat_REC 0 n).put F.canStat_BOREC 0 n).put F.canEvt_BOREC 1 n))))
    ∧ (s.applied = false ∨ s.canMode n = 0 → Does (.canIntegrate n) s fun t => t = notify s s)
    ∧ (s.applied = true → s.canMode n ≠ 0 → Does (.canIntegrate n) s fun t => t = notify s (s.put F.canStat_SYNCD 1 n))

/-! ### Pin machines (chapter 16) -/

/-- The instructions of a pin machine with their opcodes (R301). -/
def pmRows : List ((Fin 4 → Fin 8 → Instr) × Nat) :=
  [(.pmNop, 0), (.pmGoto, 1), (.pmLoop, 2), (.pmSkip, 3), (.pmSetc, 4), (.pmEmit, 5), (.pmTake, 6), (.pmFetch, 7), (.pmDeliver, 8),
   (.pmPins, 9), (.pmGmov, 10), (.pmGput, 11), (.pmWaitp, 12), (.pmStamp, 13), (.pmMark, 14)]

/-- An instruction of another opcode is not this row's, a stalled machine takes no step, and an illegal instruction stops the machine with
FAULT. -/
def Stated.IllegalPinInstructionsStop : Prop :=
  ∀ row ∈ pmRows, ∀ (s : State) (b : Fin 4) (m : Fin 8),
    let i := s.pmInsn b m
    (s.pmActive b m = false ∨ (1 ≤ (s.mach b m).stall ∧ (s.mach b m).stall ≤ 5) ∨ (bits i 20 4 ≠ row.2 ∧ bits i 20 4 ≠ 15) →
      Does (row.1 b m) s fun t => t = notify s s)
    ∧ (s.pmActive b m = true → (s.mach b m).stall = 0 ∨ 5 < (s.mach b m).stall → bits i 20 4 = row.2 ∨ bits i 20 4 = 15 →
      (passTo (s.pmTick b m row.2) s).pmLegal b m i = false → Does (row.1 b m) s fun t =>
        t.fld F.pmCtl_RUN b m = 0 ∧ t.fld F.pmStat_FAULT b m = 1 ∧ (t.mach b m).stall = 7 ∧ (t.mach b m).inj = none
          ∧ (t.mach b m).pc = (s.mach b m).pc)

/-- NOP, GOTO, LOOP, SETC and SKIP move the program and its counters; GMOV and GPUT move words through G, and GPUT and PINS set the levels and
directions of the machine's own pins. -/
def Stated.PinMachinesMoveWordsAndPins : Prop :=
  ∀ (s : State) (b : Fin 4) (m : Fin 8) (op i : Nat), PmSteps s b m op i →
    let u := pmAt b m op s
    let q := (s.pmInj b m).isSome
    let x := u.mach b m
    let r := readPins b ((s.pmStop b m - u.stepLen b m) / 256) u
    (op = 0 → Does (.pmNop b m) s fun t => t = notify s (pmDone b m i q u))
    ∧ (op = 1 → Does (.pmGoto b m) s fun t => t = notify s (pmComplete b m i q u (some (i % 32)) false))
    ∧ (op = 2 → i.testBit 6 = false → x.c0 = 0 → Does (.pmLoop b m) s fun t => t = notify s (pmDone b m i q u))
    ∧ (op = 2 → i.testBit 6 = false → x.c0 ≠ 0 → Does (.pmLoop b m) s fun t =>
        t = notify s (pmComplete b m i q (u.setMach b m { x with c0 := x.c0 - 1 }) (some (i % 32)) false))
    ∧ (op = 2 → i.testBit 6 = true → x.c1 = 0 → Does (.pmLoop b m) s fun t => t = notify s (pmDone b m i q u))
    ∧ (op = 2 → i.testBit 6 = true → x.c1 ≠ 0 → Does (.pmLoop b m) s fun t =>
        t = notify s (pmComplete b m i q (u.setMach b m { x with c1 := x.c1 - 1 }) (some (i % 32)) false))
    ∧ (op = 3 → ∀ c, (c = match i % 16 with
          | 0 => u.pool b m == 2 || x.txf == [] | 1 => decide (u.rxCap b m ≤ x.rxf.length) | 2 => r.1.testBit (u.fld F.pmCfg1_SENSEB b m) | 3 => x.tn == 0
          | 4 => decide (u.rth b m ≤ x.rn) | 5 => x.g == 0 | 6 => x.g.getLsbD 0 | 7 => x.c0 == 0 | _ => x.c1 == 0) →
        Does (.pmSkip b m) s fun t => t = notify s (pmComplete b m i q r.2 none (c != i.testBit 4)))
    ∧ (op = 4 → Does (.pmSetc b m) s fun t =>
        let v := if i.testBit 5 then x.g.setWidth 16 else BitVec.ofNat 16 (i % 32)
        t = notify s (pmDone b m i q (u.setMach b m (if i.testBit 6 then { x with c1 := v } else { x with c0 := v }))))
    ∧ (op = 10 → ∀ v : Word, (bits i 4 3, v) ∈ [
          (0, BitVec.ofNat 48 ((r.1 / 2 ^ u.fld F.pmCfg1_SENSEB b m + r.1 * 2 ^ (16 - u.fld F.pmCfg1_SENSEB b m)) % 2 ^ 16)),
          (1, x.c0.setWidth 48), (2, x.c1.setWidth 48), (3, x.th), (4, x.rg),
          (5, BitVec.ofNat 48 (((s.pmStop b m - u.stepLen b m) / 256 + 2 ^ 32 - u.tkBase % 2 ^ 32) % 2 ^ 32))] → Does (.pmGmov b m) s fun t =>
        ∃ g : Word, t = notify s (pmDone b m i q (r.2.setMach b m { x with g := g }))
          ∧ (bits i 2 2 = 0 → g = v) ∧ (bits i 2 2 = 1 → g = ~~~v) ∧ (bits i 2 2 = 2 → ∀ k < 48, g.getLsbD k = v.getLsbD (47 - k))
          ∧ (bits i 2 2 = 3 → g = v + 1))
    ∧ (op = 11 → bits i 5 2 = 0 → Does (.pmGput b m) s fun t =>
        t = notify s (pmDone b m i q (u.setMach b m { x with th := x.g, tn := u.tlen b m })))
    ∧ (op = 11 → bits i 5 2 = 1 → Does (.pmGput b m) s fun t => t = notify s (pmDone b m i q (u.setMach b m { x with rg := x.g, rn := 0 })))
    ∧ (op = 11 → bits i 5 2 = 2 → bits i 17 2 = 0 → u.fld F.pmCfg1_DN b m ≤ 16 → Does (.pmGput b m) s fun t =>
        ∀ k < u.fld F.pmCfg1_DN b m,
          let j := (u.fld F.pmCfg1_DBASE b m + k) % 16
          (u.ownsPin b m j = true → (t.pin (16 * b.val + j)).lvl = x.g.getLsbD k ∧ (t.pin (16 * b.val + j)).dir = (u.pin (16 * b.val + j)).dir)
            ∧ (u.ownsPin b m j = false → t.pin (16 * b.val + j) = u.pin (16 * b.val + j) ∧ t.fld F.pmStat_PINERR b m = 1))
    ∧ (op = 9 → bits i 17 2 = 0 → u.fld F.pmCfg1_CN b m ≤ 16 → bits i 5 2 ≠ 3 → Does (.pmPins b m) s fun t =>
        ∀ k < u.fld F.pmCfg1_CN b m,
          let j := (u.fld F.pmCfg1_CBASE b m + k) % 16
          let p := u.pin (16 * b.val + j)
          let v := decide (k < 4) && i.testBit k
          (u.ownsPin b m j = true → t.pin (16 * b.val + j) =
              match bits i 5 2 with | 0 => { p with lvl := v, trim := 0 } | 1 => { p with dir := v, trim := 0 } | _ => if v then { p with lvl := !p.lvl, trim := 0 } else p)
            ∧ (u.ownsPin b m j = false → t.pin (16 * b.val + j) = p ∧ ((bits i 5 2 = 2 → v = true) → t.fld F.pmStat_PINERR b m = 1)))
    ∧ (op = 9 → bits i 17 2 = 0 → u.fld F.pmCfg1_DN b m ≤ 16 → bits i 5 2 = 3 → Does (.pmPins b m) s fun t =>
        ∀ k < u.fld F.pmCfg1_DN b m,
          let j := (u.fld F.pmCfg1_DBASE b m + k) % 16
          u.ownsPin b m j = true → t.pin (16 * b.val + j) = { u.pin (16 * b.val + j) with dir := i.testBit 0, trim := 0 })

/-- EMIT shifts bits out of TH, TAKE shifts bits into RG, FETCH and DELIVER move words between the registers and the FIFOs; each waits, and
counts the stall, where its FIFO is empty or full. -/
def Stated.PinMachinesShiftWords : Prop :=
  ∀ (s : State) (b : Fin 4) (m : Fin 8) (op i : Nat), PmSteps s b m op i →
    let u := pmAt b m op s
    let q := (s.pmInj b m).isSome
    let x := u.mach b m
    let n := bits i 0 6
    let full := u.rxCap b m ≤ x.rxf.length
    (op = 5 → u.fld F.pmCfg2_REFILL b m ≠ 0 → x.tn < n → u.txNone b m = true → Does (.pmEmit b m) s fun t => t = notify s (pmStalled b m i 1 q u))
    ∧ (op = 5 → ¬(u.fld F.pmCfg2_REFILL b m ≠ 0 ∧ x.tn < n ∧ u.txNone b m = true) →
        let lsb := u.on F.pmCfg2_LSBF b m
        let y := if u.fld F.pmCfg2_REFILL b m ≠ 0 ∧ x.tn < n then { x with th := x.txf.headD 0, tn := u.tlen b m, txf := x.txf.drop 1 } else x
        Does (.pmEmit b m) s fun t =>
          (t.mach b m).th = (if lsb then y.th >>> n else y.th <<< n) ∧ (t.mach b m).tn = y.tn - n ∧ (t.mach b m).txf = y.txf
            ∧ (i.testBit 6 = false → bits i 17 2 = 0 → n ≤ 16 → ∀ k < n,
                let j := (u.fld F.pmCfg1_DBASE b m + k) % 16
                u.ownsPin b m j = true → (t.pin (16 * b.val + j)).lvl = (decide (k < y.tn) && y.th.getLsbD (if lsb then k else 47 - k))))
    ∧ (op = 6 → u.fld F.pmCfg2_AUTODLV b m ≠ 0 → u.rth b m ≤ min (x.rn + n) 48 → full → Does (.pmTake b m) s fun t =>
        t = notify s (pmStalled b m i 2 q u))
    ∧ (op = 6 → ¬(u.fld F.pmCfg2_AUTODLV b m ≠ 0 ∧ u.rth b m ≤ min (x.rn + n) 48 ∧ full) → Does (.pmTake b m) s fun t =>
        let r := readPins b ((s.pmStop b m - u.stepLen b m) / 256) u
        let g := wd (enterBits (u.on F.pmCfg2_LSBT b m) x.rg.toNat ((List.range n).map fun k =>
          if i.testBit 6 then x.g.getLsbD k else r.1.testBit ((u.fld F.pmCfg1_SENSEB b m + k) % 16)))
        t = notify s (pmDone b m i q (r.2.setMach b m (
          if u.fld F.pmCfg2_AUTODLV b m ≠ 0 ∧ u.rth b m ≤ min (x.rn + n) 48 then { x with rxf := x.rxf ++ [g], rg := 0, rn := 0 }
          else { x with rg := g, rn := min (x.rn + n) 48 }))))
    ∧ (op = 7 → i.testBit 0 = true → x.tn ≠ 0 → Does (.pmFetch b m) s fun t => t = notify s (pmDone b m i q u))
    ∧ (op = 7 → i.testBit 0 = false ∨ x.tn = 0 → u.txNone b m = true → Does (.pmFetch b m) s fun t => t = notify s (pmStalled b m i 1 q u))
    ∧ (∀ v rest, op = 7 → i.testBit 0 = false ∨ x.tn = 0 → u.txNone b m = false → x.txf = v :: rest → Does (.pmFetch b m) s fun t =>
        t = notify s (pmDone b m i q (u.setMach b m { x with th := v, tn := u.tlen b m, txf := rest })))
    ∧ (op = 8 → i.testBit 0 = true → x.rn < u.rth b m → Does (.pmDeliver b m) s fun t => t = notify s (pmDone b m i q u))
    ∧ (op = 8 → i.testBit 0 = false ∨ u.rth b m ≤ x.rn → full → Does (.pmDeliver b m) s fun t => t = notify s (pmStalled b m i 2 q u))
    ∧ (op = 8 → i.testBit 0 = false ∨ u.rth b m ≤ x.rn → ¬full → Does (.pmDeliver b m) s fun t =>
        t = notify s (pmDone b m i q (u.setMach b m { x with rxf := x.rxf ++ [x.rg], rg := 0, rn := 0 })))

/-- A machine whose instruction does not stall goes on: its registers and FIFOs are as the instruction leaves them, and PC passes to the next
instruction, to HEAD behind the last one, to a destination or past one that is skipped; an injected instruction leaves PC but for a jump. -/
def Stated.PinProgramsGoOn : Prop :=
  ∀ (s : State) (b : Fin 4) (m : Fin 8) (op i : Nat), PmSteps s b m op i →
    let u := pmAt b m op s
    let q := (s.pmInj b m).isSome
    let x := u.mach b m
    let n := bits i 0 6
    let goes := fun (y : PmS) (pc : Nat) (t : State) => t.mach b m =
      { y with pc := pc % 32, inj := if q then none else x.inj, cur := none, halting := false, stall := if s.fld F.pmCtl_RUN b m = 0 then 6 else 0, at256 := (t.mach b m).at256 }
    let next := if i.testBit 19 then s.fld F.pmCfg2_HEAD b m else if q then x.pc else x.pc + 1
    (op = 0 → Does (.pmNop b m) s (goes x next))
    ∧ (op = 1 → Does (.pmGoto b m) s (goes x (i % 32)))
    ∧ (op = 2 → i.testBit 6 = false → Does (.pmLoop b m) s (if x.c0 = 0 then goes x next else goes { x with c0 := x.c0 - 1 } (i % 32)))
    ∧ (op = 2 → i.testBit 6 = true → Does (.pmLoop b m) s (if x.c1 = 0 then goes x next else goes { x with c1 := x.c1 - 1 } (i % 32)))
    ∧ (op = 3 → i % 16 = 5 → Does (.pmSkip b m) s (goes x
        (if (x.g = 0 ∧ i.testBit 4 = false) ∨ (x.g ≠ 0 ∧ i.testBit 4 = true) then (if q then x.pc + 1 else x.pc + 2) else next)))
    ∧ (op = 4 → i.testBit 5 = false → Does (.pmSetc b m) s (goes
        (if i.testBit 6 then { x with c1 := BitVec.ofNat 16 (i % 32) } else { x with c0 := BitVec.ofNat 16 (i % 32) }) next))
    ∧ (op = 5 → u.fld F.pmCfg2_REFILL b m = 0 ∨ n ≤ x.tn → Does (.pmEmit b m) s (goes
        { x with th := if u.on F.pmCfg2_LSBF b m then x.th >>> n else x.th <<< n, tn := x.tn - n } next))
    ∧ (op = 6 → u.fld F.pmCfg2_AUTODLV b m = 0 → Does (.pmTake b m) s fun t => ∃ g, goes { x with rg := g, rn := min (x.rn + n) 48 } next t)
    ∧ (∀ v rest, op = 7 → i.testBit 0 = false ∨ x.tn = 0 → u.txNone b m = false → x.txf = v :: rest → Does (.pmFetch b m) s
        (goes { x with th := v, tn := u.tlen b m, txf := rest } next))
    ∧ (op = 8 → i.testBit 0 = false ∨ u.rth b m ≤ x.rn → x.rxf.length < u.rxCap b m → Does (.pmDeliver b m) s
        (goes { x with rxf := x.rxf ++ [x.rg], rg := 0, rn := 0 } next))
    ∧ (op = 9 → Does (.pmPins b m) s (goes x next))
    ∧ (op = 10 → bits i 2 2 = 0 → bits i 4 3 = 1 → Does (.pmGmov b m) s (goes { x with g := x.c0.setWidth 48 } next))
    ∧ (op = 11 → bits i 5 2 = 0 → Does (.pmGput b m) s (goes { x with th := x.g, tn := u.tlen b m } next))
    ∧ (op = 12 → bits i 4 2 = 2 → (u.fld F.piFlags_FLAG b).testBit (i % 8) = i.testBit 6 → Does (.pmWaitp b m) s
        (goes { x with chg := none } next))
    ∧ (∀ t0 : BitVec 32, op = 13 → bits i 5 2 = 0 → x.tgt = none → t0 = x.g.setWidth 32 → 0 ≤ past32 u.tk t0.toNat → Does (.pmStamp b m) s
        (goes { x with lst := t0 } next))
    ∧ (op = 14 → bits i 5 2 ≤ 1 → Does (.pmMark b m) s (goes x next))

/-! ### Redundant pairs (chapter 17) -/

/-- The units of a pair exchange STATUS over a link that trains with leave: the words sent carry the instant, health, role and digest; a partner with another configuration, a
lost link and a silent partner each bring the role that chapter 17 gives, at the next
instant; one with the same UNIT is none of the pair. -/
def Stated.PairsAgreeOnRoles : Prop :=
  ∀ (s : State),
    let brings := fun (r c : Nat) (take : Bool) (u : State) => ({ u with tw := { u.tw with next := some (r, c), take := take } } : State)
    (∀ up, s.twOn = false ∨ s.on F.twStat_LINK = up ∨ (up = true ∧ s.laneOn 6 = false) → Does (.twinLinkChange up) s fun t => t = notify s s)
    ∧ (s.twOn = true → s.fld F.twStat_LINK = 0 → s.laneOn 6 = true →
        let v := (trainLeave 12 s).2
        ((trainLeave 12 s).1 = false → Does (.twinLinkChange true) s fun t => t = notify s v ∧ t.fld F.twStat_LINK = 0)
        ∧ ((trainLeave 12 s).1 = true → Does (.twinLinkChange true) s fun t =>
          t = notify s { (v.put F.twStat_LINK 1).put F.twEvt_LINKCHG 1 with tw := { s.tw with msg := none, fresh := false } }))
    ∧ (s.twOn = true → s.fld F.twStat_LINK ≠ 0 → s.tw.next = none →
        let u : State := { (s.put F.twStat_LINK 0).put F.twEvt_LINKCHG 1 with
          tw := { s.tw with msg := none, fresh := false, swAt := none, giveAt := none } }
        (s.driving = true → Does (.twinLinkChange false) s fun t => t = notify s (brings 4 0 false u))
        ∧ (s.twRole = 2 → s.tw.listen = none → s.witness = false → Does (.twinLinkChange false) s fun t => t = notify s (brings 4 0 true u))
        ∧ (s.twRole = 2 → s.tw.listen = none → s.witness = true → Does (.twinLinkChange false) s fun t =>
          t = notify s ((u.put F.twStat_SPLIT 1).put F.twEvt_SPLIT 1)))
    ∧ (s.twOn = false ∨ s.fld F.twStat_LINK = 0 → Does .twinStatusSend s fun t => t = notify s s)
    ∧ (s.twOn = true → s.fld F.twStat_LINK ≠ 0 → Does .twinStatusSend s fun t =>
        let h := (latchHealth s).1
        ((∀ x, s.tw.healthAt ≠ some (s.instN, x)) → h = s.twHealth) ∧ (∀ x, s.tw.healthAt = some (s.instN, x) → h = x)
          ∧ ∃ w0 w1 w2, .twin w0 w1 w2 ∈ t.out ∧ (h < 256 → s.twRole < 8 → s.fld F.twCfg0_UNIT < 2 → s.fld F.twStat_TST < 4 →
            bits w0.toNat 16 32 = s.instN % 2 ^ 32 ∧ bits w0.toNat 8 8 = h ∧ bits w0.toNat 5 3 = s.twRole ∧ bits w0.toNat 4 1 = s.fld F.twCfg0_UNIT ∧ bits w0.toNat 0 2 = s.fld F.twStat_TST)
          ∧ bits w1.toNat 16 32 = s.fld F.twDig_DIGEST % 2 ^ 32 ∧ t.act = s.act ∧ t.eng = s.eng)
    ∧ (s.twOn = true → s.fld F.twStat_LINK ≠ 0 → ∀ w0 w1 w2 : Word,
        let n := bits w0.toNat 16 32
        let digest := bits w1.toNat 16 32
        (bits w0.toNat 4 1 = s.fld F.twCfg0_UNIT → Does (.twinStatusReceive w0 w1 w2) s fun t => t = notify s s)
        ∧ (bits w0.toNat 4 1 ≠ s.fld F.twCfg0_UNIT →
        (bits w2.toNat 16 32 ≠ s.boot.cfgd ∨ bits w2.toNat 6 10 ≠ s.boot.sdn → Does (.twinStatusReceive w0 w1 w2) s fun t =>
          t.fld F.twEvt_CFGDIFF = 1 ∧ t.tw.msg.map TwMsg.n = some n ∧ t.fld F.twStat_PROLE = bits w0.toNat 5 3
            ∧ (s.fld F.twCfg0_PREF = 0 → s.twRole ≠ 3 ∨ s.fld F.twStat_CAUSE ≠ 1 → t.tw.next = some (3, 1))
            ∧ (s.fld F.twCfg0_PREF ≠ 0 → s.fld F.twStat_SUSP = 0 → s.tw.next = none → t.tw.next = if s.twRole = 1 then none else some (1, 0)))
        ∧ (bits w2.toNat 16 32 = s.boot.cfgd → bits w2.toNat 6 10 = s.boot.sdn → n = s.instN →
          (digest = s.fld F.twDig_DIGEST → Does (.twinStatusReceive w0 w1 w2) s fun t =>
            t.fld F.twStat_MATCH = min (s.fld F.twStat_MATCH + 1) (2 ^ F.twStat_MATCH.width - 1) ∧ t.fld F.twStat_PROLE = bits w0.toNat 5 3
              ∧ (s.fld F.twCfg0_MATCHN ≤ t.fld F.twStat_MATCH → t.fld F.twStat_SUSP = 0)
              ∧ (s.twRole = 1 → bits w0.toNat 5 3 = 1 → s.fld F.twCfg0_PREF = 0 → s.tw.next = none → t.tw.next = some (2, 0))
              ∧ (s.twRole = 1 → bits w0.toNat 5 3 = 4 → s.tw.next = none → t.tw.next = some (2, 0)))
          ∧ (digest ≠ s.fld F.twDig_DIGEST → Does (.twinStatusReceive w0 w1 w2) s fun t =>
            t.fld F.twStat_MATCH = 0 ∧ t.fld F.twCnt0_MISM = min (s.fld F.twCnt0_MISM + 1) (2 ^ F.twCnt0_MISM.width - 1)
              ∧ (s.fld F.twStat_TST = 1 ∨ s.fld F.twStat_TST ≠ 0 ∧ s.tw.alone = false ∧ bits w0.toNat 0 2 ≠ 0 → t.tw.testDue = s.tw.testDue)
              ∧ (s.fld F.twStat_TST ≠ 1 → s.fld F.twStat_TST = 0 ∨ s.tw.alone = true ∨ bits w0.toNat 0 2 = 0 →
                (s.fld F.twStat_SUSP = 0 → s.tw.herSusp = false ∨ s.driving = false → t.tw.testDue = true)
                ∧ (s.fld F.twStat_SUSP ≠ 0 → t.tw.testDue = s.tw.testDue)
                ∧ (s.fld F.twStat_SUSP ≠ 0 → s.twRole = 2 → t.tw.next = some (3, 3)))))))
    ∧ (s.twOn = false ∨ s.driving = true → Does .twinStatusTimeout s fun t => t = notify s s)
    ∧ (s.twOn = true → s.twRole = 2 → s.tw.msg.any (fun m => m.n == s.instN) = false → s.tw.listen = none → s.tw.next = none → s.lastInst.getD s.tick + s.fld F.mgInst_CYC / 8 ≤ s.tick →
        let u : State := { s with tw := { s.tw with swAt := none, giveAt := none } }
        Does .twinStatusTimeout s fun t =>
          t = notify s (if s.witness then (u.put F.twStat_SPLIT 1).put F.twEvt_SPLIT 1 else brings 4 0 true u))
    ∧ (s.tw.listen = none → Does .twinListenTimeout s fun t => t = notify s s)
    ∧ (∀ x, s.tw.listen = some x → x ≤ s.tick → s.tw.msg ≠ none → Does .twinListenTimeout s fun t =>
        t = notify s { s with tw := { s.tw with listen := none } })
    ∧ (∀ x, s.tw.listen = some x → x ≤ s.tick → s.tw.msg = none → s.tw.next = none → Does .twinListenTimeout s fun t =>
        t = notify s (if s.witness then s else brings 4 0 false { s with tw := { s.tw with listen := none } }))
    ∧ (∀ x, s.twRole = 3 → s.fld F.twStat_CAUSE = 4 → s.tw.healthyFrom = some x → x + s.fld F.twCfg0_HOLDOFF * 250000000 ≤ s.tick → s.tw.next = none →
        Does .twinHoldoffExpire s fun t => t = notify s (brings 2 0 false s))
    ∧ (∀ x, s.twRole = 2 → s.tw.standbyFrom = some x → x + s.fld F.twCfg0_HOLDOFF * 250000000 ≤ s.tick → Does .twinHoldoffExpire s fun t =>
        t = notify s { s with tw := { s.tw with holdoff := true } })

/-- A supervisor starts a self-test, which ends as passed where the BIST, the code stores, the output regions and the digest are right in time,
else as failed, and not without leave before its 20 ms have passed; an entry of the duplicate discard that is unused for 400 ms is freed. -/
def Stated.SelfTestsAndDuplicateEntriesEnd : Prop :=
  ∀ (s : State), s.clocksOn = true → s.applied = true →
    (∀ w, s.heard w = true → s.supervisor w = true → s.twOn = true → s.fld F.twStat_TST ≠ 1 → Does (.twinStest w) s fun t =>
        t.fld F.twStat_TST = 1 ∧ t.tw.alone = true ∧ t.tw.testFrom = s.tick ∧ t.tw.tstSent = false ∧ t.loft = s.loft)
    ∧ (∀ w, s.heard w = true → w ≠ .jtag → s.supervisor w = false ∨ s.twOn = false ∨ s.fld F.twStat_TST = 1 → Does (.twinStest w) s fun t =>
        t = notify s (finish w { st := s }))
    ∧ (∀ a b, s.fld F.twStat_TST ≠ 1 → Does (.twinSelftestEnd a b) s fun t => t = notify s s)
    ∧ (s.fld F.twStat_TST = 1 →
        let leave := s.pw.grants.any (·.use == .bist)
        (∀ bist, leave = false → s.tick ≤ s.tw.testFrom + 5000000 → Does (.twinSelftestEnd bist false) s fun t => t = notify s s)
        ∧ (∀ bist late, late = true ∨ s.tw.testFrom + 5000000 < s.tick ∨ (bist = false ∧ leave = true) → Does (.twinSelftestEnd bist late) s fun t =>
          t.fld F.twStat_TST = 3 ∧ t.tw.failed = true ∧ t.tw.ueSeen = false)
        ∧ (leave = true → s.tick ≤ s.tw.testFrom + 5000000 → (digestOf (readStores s)).1 = s.fld F.twDig_DIGEST → (digestOf (readStores s)).2.testFinds = false → Does (.twinSelftestEnd true false) s fun t =>
          t.fld F.twStat_TST = 2 ∧ t.tw.failed = false ∧ t.tw.ueSeen = false))
    ∧ ∀ src : Word, ((∀ e ∈ s.tw.dd, e.src ≠ src.toNat) → Does (.ddEntryAgeOut src) s fun t => t = notify s s)
        ∧ ∀ e, s.tw.dd.find? (·.src == src.toNat) = some e → e.used + 100000000 ≤ s.tick → Does (.ddEntryAgeOut src) s fun t =>
          t = notify s { s with tw := { s.tw with dd := s.tw.dd.filter (·.src ≠ src.toNat) } }

/-! ### Power (chapter 18) -/

/-! ### Upkeep, resets and the boot (chapters 02 and 19) -/

/-- What a reset of the logic die leaves (R344): the always-on domain (BOOTTRY, GC.BOOTCAUSE, PW.CNT, PW.KSEC, CK.STAT.LOLCNT), the straps, the
power-path die's state and the key slots. -/
def survivors : List Fld :=
  [F.gcBootcause_RSTSRC, F.gcBootcause_TRIES, F.gcBootcause_CODE, F.gcBootcause_ERR, F.gcBootcause_SECT, F.gcBootcause_DETAIL,
   F.pwCnt_BOUNCE, F.pwCnt_HANDOVER, F.pwCnt_PREEMPT, F.pwCnt_REPLAY, F.pwKsec_ALM, F.pwKsec_SEC, F.ckStat_LOLCNT, F.ckStat_BOOTSRC,
   F.pwSrc_VBAK, F.pwSrc_ON, F.pwSrc_HSM, F.pwSrc_DEB, F.pwSrc_PDG, F.pwSrc_AUXG, F.pwSrc_BAKG, F.pwSrc_SCLS, F.pwSrc_ACLS,
   F.pwSrc_PDPORT, F.pwSrc_PFAIL, F.gcKeyslot_WRITTEN, F.gcKeyslot_REVOKED]

/-! ### The host ports (chapter 20) -/

/-- A function-level reset empties the function's rings and its MSI-X table, the end of the link does so for all; the link
comes up with leave to train; the host masks and enables vectors, and an unmasked one that was pending is sent. -/
def Stated.PcieFunctionsAndVectors : Prop :=
  ∀ (s : State),
    let cleared := fun (r : Nat) (t : State) =>
      (∀ f ∈ [F.ydHtxptr_LOGN, F.ydHtxptr_HEAD, F.ydHtxptr_TAIL, F.ydHrxptr_LOGN, F.ydHrxptr_HEAD, F.ydHrxptr_TAIL], t.fld f r = 0)
        ∧ t.host.msixEn.getLsbD r = false ∧ (∀ v ∈ t.host.unmasked, v / 128 ≠ r) ∧ (∀ v ∈ t.host.pba, v / 128 ≠ r)
    (s.host.pcieUp = false → ∀ r : Fin 16, Does (.functionLevelReset r) s fun t => t = notify s s)
    ∧ (s.host.pcieUp = true → ∀ r : Fin 16, Does (.functionLevelReset r) s fun t => cleared r t ∧ t.eng = s.eng ∧ t.loft = s.loft ∧ t.host.pcieUp = s.host.pcieUp
        ∧ ∀ q, q ≠ r.val → t.host.msixEn.getLsbD q = s.host.msixEn.getLsbD q)
    ∧ (Does .pcieLinkDown s fun t => (∀ r < 16, cleared r t) ∧ t.host.pcieUp = false)
    ∧ (s.clocksOn = false ∨ s.host.pcieUp = true → Does .pcieLinkUp s fun t => t = notify s s)
    ∧ (s.clocksOn = true → s.host.pcieUp = false →
      ((trainLeave 13 s).1 = true → Does .pcieLinkUp s fun t => t.host.pcieUp = true ∧ t.host.msixEn = s.host.msixEn ∧ t.eng = s.eng)
      ∧ ((trainLeave 13 s).1 = false → Does .pcieLinkUp s fun t => t = notify s (trainLeave 13 s).2))
    ∧ (∀ (a : MsixAct), s.host.pcieUp = false → Does (.msixUnmask a) s fun t => t = notify s s)
    ∧ (s.host.pcieUp = true → ∀ (r : Fin 16) (b : Bool), Does (.msixUnmask (.enable r b)) s fun t =>
        t.host.msixEn.getLsbD r = b ∧ (∀ q, q ≠ r.val → t.host.msixEn.getLsbD q = s.host.msixEn.getLsbD q) ∧ t.host.unmasked = s.host.unmasked ∧ t.act = s.act)
    ∧ ∀ v : Fin 2048, s.host.pcieUp = true →
      (Does (.msixUnmask (.mask v)) s fun t =>
        t = notify s { s with host := { s.host with unmasked := s.host.unmasked.filter (· ≠ v.val) } })
      ∧ (Does (.msixUnmask (.unmask v)) s fun t =>
        let u : State := { s with host := { s.host with
          unmasked := if s.host.unmasked.contains v.val then s.host.unmasked else s.host.unmasked ++ [v.val]
          pba := s.host.pba.filter (· ≠ v.val) } }
        t = notify s (if s.host.pba.contains v.val && (!levelVectors.contains v.val || s.condition v) && s.host.msixEn.getLsbD (v.val / 128) then u.emit (.msix v) else u))

/-- The three read commands of the quad-SPI port answer the status byte and the slots from the address on, the three write commands write their
bytes and keep the disposition, and the status command shows it, DEFERRED while a write is being carried out, in which another is ignored; the
management port does the same at its strapped address, which ends DOZE and is not acknowledged while a write is being carried out. -/
def Stated.SerialPortsReadAndWrite : Prop :=
  ∀ (s : State), s.clocksOn = true →
    (∀ c ∈ [Instr.qspiReadSingle, Instr.qspiReadQuadData, Instr.qspiReadQuad], ∀ (a : BitVec 32) (n : Fin 33), Does (c a n) s fun t =>
      let r := busRead .qspi a.toNat (hostPlace a.toNat) (qspiBusy s).2
      ∃ ws : List Word, ws.length = n.val ∧ Out.status (statusByte (qspiBusy s).1 s.host.qspiDisp r.1.disp) ∈ t.out ∧ Out.resp .qspi r.1.disp ws false ∈ t.out
        ∧ (n.val = 1 → ws = [if r.1.disp = 9 then 0 else r.2.word])
        ∧ ∀ m k v, s.applied = true → hostPlace a.toNat = .loft m k → loftReserved k = false → n.val = 1 →
          readCode (s.raw (loftPlace m k)) = .ok v → Out.resp .qspi 0 [v] false ∈ t.out ∧ ∀ x, t.raw x = s.raw x)
    ∧ (∀ c ∈ [Instr.qspiWriteSingle, Instr.qspiWriteQuadData, Instr.qspiWriteQuad], ∀ (a : BitVec 32) (bs : List Byte),
      (bs = [] → Does (c a bs) s fun t => t = notify s s)
      ∧ (bs ≠ [] → a.toNat % 8 + bs.length ≤ 8 → Does (c a bs) s fun t =>
        let slot := a.toNat / 8
        let x := slotBytesAt a.toNat bs slot
        let u := (qspiBusy s).2
        let r := busWrite .qspi (8 * slot) (hostPlace (8 * slot)) x.1 x.2 u
        t = notify s (if (qspiBusy s).1 then u
          else { r.st with host := { r.st.host with qspiDisp := worse 0 r.disp, qspiPend := r.st.clocksOn } }))
      ∧ ∀ m k, s.host.qspiPend = false → s.applied = true → a.toNat % 8 = 0 → bs.length = 6 → hostPlace a.toNat = .loft m k → loftReserved k = false →
        s.inpassWord m k = false → Does (c a bs) s fun t =>
          readCode (t.raw (loftPlace m k)) = .ok (wd (((List.range 6).map fun i => (bs.getD i 0).toNat * 2 ^ (8 * i)).sum))
            ∧ (∀ x, x ≠ loftPlace m k → t.raw x = s.raw x) ∧ t.host.qspiDisp = 0)
    ∧ (Does .qspiStatus s fun t => t = notify s ((qspiBusy s).2.emit (.status (statusByte (qspiBusy s).1 s.host.qspiDisp 0))))
    ∧ (s.host.qspiPend = false → qspiBusy s = (false, s)) ∧ statusByte true s.host.qspiDisp 0 = 16
    ∧ (∀ (a : BitVec 7) (o : BitVec 32) (bs : List Byte) (n : Fin 33),
      (a.toNat ≠ s.i2cAddr → Does (.i2cWrite a o bs) s (fun t => t = notify s s) ∧ Does (.i2cRead a n) s fun t => t = notify s s)
      ∧ (a.toNat = s.i2cAddr → s.fld F.pwPstat_STATE = 2 → s.fld F.pwPstat_TRANS = 0 → (s.fld F.pwCfg1_WAKEMASK).testBit 0 = true → bs = [] →
        s.host.i2cPend = false → Does (.i2cWrite a o bs) s fun t => t.fld F.pwPstat_TRANS = 1 ∧ t.fld F.pwPstat_TO = 0 ∧ t.host.i2cOff = o.toNat)
      ∧ (a.toNat = s.i2cAddr → s.fld F.pwPstat_STATE < 2 → s.fld F.pwPstat_TRANS = 0 → s.host.i2cPend = true →
        let u := (stillRuns true s).2
        (Does (.i2cRead a n) s fun t => (stillRuns true s).1 = true → t = notify s (u.emit .i2cNack))
        ∧ Does (.i2cWrite a o bs) s fun t => (stillRuns true s).1 = true → t = notify s (u.emit .i2cNack))
      ∧ (a.toNat = s.i2cAddr → s.fld F.pwPstat_STATE < 2 → s.fld F.pwPstat_TRANS = 0 → s.host.i2cPend = false →
        (bs = [] → Does (.i2cWrite a o bs) s fun t => t = notify s { s with host := { s.host with i2cOff := o.toNat } })
        ∧ (bs ≠ [] → o.toNat % 8 + bs.length ≤ 8 → Does (.i2cWrite a o bs) s fun t =>
          let slot := o.toNat / 8
          let x := slotBytesAt o.toNat bs slot
          let r := busWrite .mgmt (8 * slot) (hostPlace (8 * slot)) x.1 x.2 s
          t = notify s { r.st with host := { r.st.host with i2cDisp := worse 0 r.disp, i2cOff := 8 * slot + 8, i2cPend := r.st.clocksOn } })
        ∧ (∀ m k, s.applied = true → o.toNat % 8 = 0 → bs.length = 6 → hostPlace o.toNat = .loft m k → loftReserved k = false →
          s.inpassWord m k = false → Does (.i2cWrite a o bs) s fun t =>
            readCode (t.raw (loftPlace m k)) = .ok (wd (((List.range 6).map fun i => (bs.getD i 0).toNat * 2 ^ (8 * i)).sum))
              ∧ (∀ x, x ≠ loftPlace m k → t.raw x = s.raw x) ∧ t.host.i2cDisp = 0 ∧ t.host.i2cOff = o.toNat + 8)
        ∧ (∀ m k v, s.applied = true → hostPlace s.host.i2cOff = .loft m k → loftReserved k = false → n.val = 1 →
          readCode (s.raw (loftPlace m k)) = .ok v → Does (.i2cRead a n) s fun t =>
            Out.resp .mgmt 0 [v] false ∈ t.out ∧ ∀ x, t.raw x = s.raw x)
        ∧ Does (.i2cRead a n) s fun t =>
          let r := busRead .mgmt s.host.i2cOff (hostPlace s.host.i2cOff) s
          Out.status (statusByte false s.host.i2cDisp r.1.disp) ∈ t.out ∧ t.host.i2cOff = s.host.i2cOff / 8 * 8 + 8 * n.val))

/-- The JTAG port selects its instruction while the logic die is powered: BYPASS captures 0, IDCODE 0x14812C6D, SAMPLE/PRELOAD takes the cells,
EXTEST alone drives them, and TDO shows nothing in reset; DBGACC captures the last access, starts none while it is BUSY, reaches the registers of R107 while SEC lets it, and is refused elsewhere. -/
def Stated.JtagInstructions : Prop :=
  ∀ (s : State) (pins load : List Bool) (wr : Bool) (a : BitVec 24) (v : Word),
    (s.tapOn = false → ∀ c ∈ [Instr.jtagBypass, .jtagIdcode, .jtagExtest, .jtagSamplePreload pins load, .dbgacc wr a v], Does c s fun t => t = notify s s)
    ∧ (s.tapOn = true →
      let sel := fun (ir : Nat) (d : Bool) => ({ s with host := { s.host with jtagIr := ir, drive := d } } : State)
      let shows := fun (v : Nat) (u : State) => if s.column = .reset then u else u.emit (.jtag v)
      (Does .jtagBypass s fun t => t = notify s (shows 0 (sel 31 false)))
      ∧ (Does .jtagIdcode s fun t => t = notify s (shows 0x14812C6D (sel 2 false)))
      ∧ (Does .jtagExtest s fun t => t = notify s (sel 0 true))
      ∧ (Does (.jtagSamplePreload pins load) s fun t =>
        t = notify s { s with host := { s.host with jtagIr := 1, drive := false, cells := pins, preload := load } })
      ∧ (s.host.dbgPend = true → Does (.dbgacc wr a v) s fun t =>
        ((stillRuns true s).1 = true → t.host.dbgData = s.host.dbgData ∧ t.host.dbgDisp = s.host.dbgDisp ∧ t.host.dbgPend = true ∧ t.act = s.act)
          ∧ (s.column ≠ .reset → Out.jtag (s.dbgWord (stillRuns true s).1) ∈ t.out))
      ∧ (∀ r i j, s.host.dbgPend = false → hostPlace (8 * a.toNat) = .reg r i j →
        (r.need i ≠ .dbg ∨ s.mayDebug .jtag = false → Does (.dbgacc wr a v) s fun t =>
          t.host.dbgDisp = 9 ∧ t.host.dbgData = 0 ∧ (s.column ≠ .reset → Out.jtag (s.dbgWord false) ∈ t.out) ∧ t.act = s.act ∧ t.eng = s.eng)
        ∧ (r.need i = .dbg → s.mayDebug .jtag = true → s.clocksOn = true → Does (.dbgacc false a v) s fun t =>
          let x := (readReg .jtag r i j (tdo (s.dbgWord false) (sel 22 false))).2.word
          t.host.dbgDisp = 0 ∧ t.host.dbgData = x))
      ∧ ∀ e : Fin 128, s.host.dbgPend = false → s.mayDebug .jtag = true → s.clocksOn = true → s.applied = true → s.fld F.dbgStat_HALTED (e / 8) (e % 8) ≠ 0 →
        s.fld F.dbgSel_REG (e / 8) (e % 8) = 0 → hostPlace (8 * a.toNat) = .reg .dbgData (e / 8) (e % 8) →
        (Does (.dbgacc true a v) s fun t => (t.e e).a = v ∧ t.host.dbgData = v ∧ t.host.dbgDisp = 0 ∧ t.act = s.act)
        ∧ Does (.dbgacc false a v) s fun t => t.host.dbgData = (s.e e).a ∧ t.host.dbgDisp = 0)

/-! ### The balls (R28, R29, R373) -/

/-! ### Reads of the memories (R144) -/

end Sys2Proof

section
open Sys2Proof Sys2Proof.Machine

/-- Every command is taken from the front of the queue and answered with a next state, which leaves the rest of the queue. -/
def Obligations.StepRunsTheFrontCommand : Prop :=
  ∀ (s : State) (c : Instr) (rest : List Instr), s.pending = c :: rest →
    step s = exec c { s with pending := rest } ∧ ∃ t, step s = .next t ∧ t.pending = rest

/-- With no command waiting one TCLK tick passes (the model's choice, log entry 1).
Rests on the model's choices of log entry 1. -/
def Obligations.EmptyQueuePassesATick : Prop :=
  ∀ s : State, s.pending = [] → step s = .next (notify s (passTicks 1 s))

/-- After reset every register field holds its reset value (entry 2 names those that the spec leaves open), every memory reads zero without
error, its tables in canonical form, no command waits and no layout is applied.
Rests on the model's choices of log entries 2, 6. -/
def Obligations.ResetLeavesResetValues : Prop :=
  (∀ (f : Fld) (i j : Nat), State.reset.fld f i j = f.reset ∧ State.reset.shadow f i j = f.reset)
    ∧ (∀ a, inMemory a = true → readCode (State.reset.raw a) = .ok 0)
    ∧ State.reset.memOk = true ∧ State.reset.pending = [] ∧ State.reset.applied = false
    ∧ ∀ e f, (State.reset.e e).psw = 8 ∧ State.reset.fnState f = if f = 0 then 2 else 0

/-- Every step of the part keeps every memory in canonical form: addresses rising, no word listed that reads as an unlisted one. -/
def Obligations.MemoriesStayCanonical : Prop :=
  ∀ s t : State, s.memOk = true → step s = .next t → t.memOk = true

/-- An instruction that is stored in a code store under LOAD, in an even or an odd slot and with its value slot where its mode is 7, is the
instruction that an engine of the stable reads there, whatever stands in the other slots.
Completion is stated of: codeStoreWrite. -/
def Obligations.StoredInstructionsReadBack : Prop :=
  ∀ (s : State) (w : Who) (n : Fin 16) (e : Fin 128) (i : Insn) (a : Fin 32768) (other : Nat), i.fits → other < 2 ^ 24 → e.val / 8 = n.val →
    s.heard w = true → s.applied = true → s.fld F.stCtl_LOAD n ≠ 0 → w ∈ [Who.pf, .qspi, .mgmt] →
    (i.mode ≠ 7 →
      Does (.codeStoreWrite w n a (wd (i.slotWord * 2 ^ 24 + other))) s (fun t => insnOf (t.peek e (2 * a)) 0 = { i with val := 0 })
      ∧ Does (.codeStoreWrite w n a (wd (other * 2 ^ 24 + i.slotWord))) s fun t => insnOf (t.peek e (2 * a + 1)) 0 = { i with val := 0 })
    ∧ (i.mode = 7 →
      (Does (.codeStoreWrite w n a (wd (i.slotWord * 2 ^ 24 + i.val))) s fun t => insnOf (t.peek e (2 * a)) (t.peek e (2 * a + 1)) = i)
      ∧ ∀ b : Fin 32768, b.val = a.val + 1 → Does (.codeStoreWrite w n a (wd (other * 2 ^ 24 + i.slotWord))) s fun u =>
          Does (.codeStoreWrite w n b (wd (i.val * 2 ^ 24 + other))) u fun t => insnOf (t.peek e (2 * a + 1)) (t.peek e (2 * b)) = i)

/-- Words read back as written (R144, R148), and counters saturate (R15). -/
def Obligations.WordsAndCountersKeepWhatTheyTake : Prop :=
  Stated.WordsReadBackAsWritten ∧ Stated.CountersSaturate

/-- In task mode ST, XCH and FADD to the zero-page words 0x000–0x03F raise the access-denied exception and leave the word unchanged (R72); a
refused load raises access-denied, one of an uncorrectable word uncorrectable-data and one of a reserved address the bus error, the target
register unchanged; an XCH or FADD of an uncorrectable word raises uncorrectable-data and writes nothing, and one of an in-passing word access-denied
whatever the word holds; a full-word store clears what was poisoned.
Completion is stated of: st. -/
def Obligations.MemoryExceptionsChangeNothing : Prop :=
  ∀ (s : State) (e : Fin 128) (i : Insn), Issues s e i →
    let p := passBreak e s
    let raises := fun (cls det : Nat) (u t : State) =>
      (∀ a, t.raw a = s.raw a) ∧ (t.e e).reg i.tgt = (s.e e).reg i.tgt
        ∧ ((s.e e).exl = false → ∀ w, VectorWord s e cls det w →
            t = notify s (endStep e (entered e cls det (s.e e).pc (s.afterPc e) w u)))
    (∀ row ∈ ([(.st, 2), (.xch, 3), (.fadd, 4)] : List ((Fin 128 → Instr) × Nat)), i.op = row.2 → (s.e e).psw.getLsbD 3 = false →
      i.addr (s.e e) < 0x40 → Does (row.1 e) s (raises 5 3 p))
    ∧ (i.op = 1 → i.mode ∈ [1, 2, 3, 4, 5] →
      (∀ n a, engPlace e (i.addr (s.e e)) = .loft n a → Tab.get 0 (s.st n).xfer (a / 4096) = 0 → s.applied = true → s.mayLoft (.engine e) n a = false →
        Does (.ld e) s (raises 5 1 (p.bump F.stMemerr_DENY n)))
      ∧ (engPlace e (i.addr (s.e e)) = .hole → Does (.ld e) s (raises 6 1 p))
      ∧ (∀ a w y, engPlace e (i.addr (s.e e)) = .priv a → readCode (s.raw (privPlace e a)) = .ue w y →
          Does (.ld e) s (raises 1 0 (countUE (privPlace e a) y p)))
      ∧ (∀ n a w y, engPlace e (i.addr (s.e e)) = .loft n a → Tab.get 0 (s.st n).xfer (a / 4096) = 0 → s.applied = true →
          s.mayLoft (.engine e) n a = true → readCode (s.raw (loftPlace n a)) = .ue w y →
          Does (.ld e) s (raises 1 0 (countUE (loftPlace n a) y p))))
    ∧ (i.op = 1 → i.mode ∈ [1, 2, 3, 4, 5] →
      let r := (busRead (.engine e) 0 (engPlace e (i.addr (s.e e))) p).1
      r.disp = 9 → Does (.ld e) s fun t => (t.e e).reg i.tgt = (r.st.e e).reg i.tgt
        ∧ ((r.st.e e).exl = false → ∀ w, VectorWord r.st e r.cls r.det w →
            t = notify s (endStep e (entered e r.cls r.det (r.st.e e).pc (r.st.afterPc e) w r.st))))
    ∧ (i.op = 2 →
      (∀ a, engPlace e (i.addr (s.e e)) = .priv a → (s.e e).psw.getLsbD 3 = true ∨ 0x40 ≤ i.addr (s.e e) →
        Does (.st e) s fun t => readCode (t.raw (privPlace e a)) = .ok ((s.e e).reg i.tgt))
      ∧ ∀ n a, engPlace e (i.addr (s.e e)) = .loft n a → Tab.get 0 (s.st n).xfer (a / 4096) = 0 → s.applied = true →
          s.mayLoft (.engine e) n a = true → s.inpassWord n a = false →
          Does (.st e) s fun t => readCode (t.raw (loftPlace n a)) = .ok ((s.e e).reg i.tgt))
    ∧ ∀ row ∈ ([(.xch, 3), (.fadd, 4)] : List ((Fin 128 → Instr) × Nat)), i.op = row.2 →
      ∀ n a w y, engPlace e (i.addr (s.e e)) = .loft n a → Tab.get 0 (s.st n).xfer (a / 4096) = 0 →
        s.mayLoft (.engine e) n a = true → readCode (s.raw (loftPlace n a)) = .ue w y →
        (s.inpassWord n a = false → Does (row.1 e) s (raises 1 0 (countUE (loftPlace n a) y p)))
        ∧ (s.inpassWord n a = true → Does (row.1 e) s (raises 5 1 (p.bump F.stMemerr_DENY n)))

/-- Sums, differences, shifts and rotates: for every form of operand, t and C are what R75 and R76 give, and nothing else
changes but what reading the operand and going on to the next instruction do.
Completion is stated of: add, adc, sub, sbc, shl, shr, sar, rol. -/
def Obligations.SumsAndShiftsWriteResultAndCarry : Prop :=
  ∀ row ∈ carryRows, ∀ (s : State) (e : Fin 128) (i : Insn) (v : Word) (u : State),
    Issues s e i → i.op = row.op → Operand (passBreak e s) e i v u →
      Does (row.cmd e) s fun t =>
        let r := row.f ((u.e e).reg i.tgt) v (u.e e).carry
        Completes s t e i (u.setE e (((u.e e).setReg i.tgt r.1).setCarry r.2))

/-- Loads, logic, comparisons, POPC and CRC steps write t alone (R73, R78), BFX, BFI and BSW follow R77, MUL leaves the whole product in A and X, and NOP writes
nothing (R73).
Rests on the model's choices of log entry 26.
Completion is stated of: ld, and_, or_, xor_, popc, cmpeq, cmpne, cmplt, cmpltu, cmpge, cmpgeu, crc32b, crc32w, crc16b, crc16w, bfx, bfi,
bsw, mul, nop. -/
def Obligations.OperandInstructionsWriteTheirResult : Prop :=
  Stated.ValueInstructionsWriteTheTarget ∧ Stated.FieldAndByteInstructions ∧ Stated.MulWritesTheProduct ∧ Stated.NopOnlyGoesOn

/-- ST writes t to its word alone; XCH and FADD exchange a loft word, or are refused (R72, R73, R137).
Rests on the model's choices of log entry 24.
Completion is stated of: st, xch, fadd. -/
def Obligations.StoresAndExchangesWriteOneWord : Prop :=
  Stated.StoreWritesItsWord ∧ Stated.ExchangesSwapALoftWord

/-- BZ, BNZ, BRA, JSR and RTS with their delay slots and the stack limit (R79, R80).
Rests on the model's choices of log entries 15, 25.
Completion is stated of: bz, bnz, bra, jsr, rts. -/
def Obligations.BranchesAndSubroutines : Prop :=
  Stated.BranchesRunTheirDelaySlot ∧ Stated.JsrPushesTheReturnAddress ∧ Stated.RtsPopsTheReturnAddress

/-- LPB begins a loop and its end decides where control passes (R81, R82).
Rests on the model's choices of log entries 16, 94.
Completion is stated of: lpb, nop. -/
def Obligations.LoopsRunTheirCount : Prop :=
  Stated.LpbBeginsALoop ∧ Stated.LoopDecisionAtLoopEnd

/-- REP, REPI and the iterations of a repeat (R83, R84).
Rests on the model's choices of log entry 18.
Completion is stated of: rep, repi, add. -/
def Obligations.RepeatsRunTheirCount : Prop :=
  Stated.RepRunsTheNextInstruction ∧ Stated.RepiBeginsARepeat ∧ Stated.RepeatedIterationCountsDown

/-- TRAP and an opcode outside the table enter their handlers, or halt the engine at EXL = 1 (R74, R97 to R99).
Completion is stated of: trap, illegalOpcode. -/
def Obligations.TrapsAndIllegalOpcodesEnterTheirHandlers : Prop :=
  Stated.TrapEntersOrHalts ∧ Stated.IllegalOpcodeIsTrapped

/-- Function stop, quantum and interrupts are taken at an interrupt point, in that order and the lowest-numbered enabled
interrupt first, with EPC at the instruction that waits or was about to run.
Rests on the model's choices of log entries 20, 21, 92, 97.
Completion is stated of: interruptEntry, quantumEntry, functionStop. -/
def Obligations.AsynchronousCausesAreTaken : Prop :=
  ∀ (s : State) (e : Fin 128) (w : Word), Samples s e →
    (∀ n : Fin 16, VectorWord s e 10 n w → (s.e e).stopPend = false → s.quantumDue e = false → (s.e e).psw.getLsbD 2 = true →
      (s.fld F.eirq_PEND (e / 8) (e % 8) &&& s.fld F.eirq_EN (e / 8) (e % 8)).testBit n = true →
      (∀ m < n.val, (s.fld F.eirq_PEND (e / 8) (e % 8) &&& s.fld F.eirq_EN (e / 8) (e % 8)).testBit m = false) →
      Does (.interruptEntry e) s fun t => t = notify s (entered e 10 n (s.e e).pc (s.afterPc e) w s))
    ∧ (VectorWord s e 9 0 w → (s.e e).stopPend = false → s.quantumDue e = true →
      Does (.quantumEntry e) s fun t =>
        t = notify s (entered e 9 0 (s.e e).pc (s.afterPc e) w (s.setE e { s.e e with qTaken := true })))
    ∧ (VectorWord s e 8 0 w → (s.e e).stopPend = true → (s.e e).tv = false → (s.e e).cur = none →
      s.fnState (s.e e).fn ≠ 3 →
      Does (.functionStop e) s fun t =>
        t = notify s (entered e 8 0 (s.e e).pc (s.afterPc e) w (s.setE e { s.e e with stopPend := false })))
    ∧ (∀ c, VectorWord s e 8 0 w → (s.e e).stopPend = true → (s.e e).tv = true → (s.e e).cur = some c →
      Does (.functionStop e) s fun t =>
        t.e e = { s.e e with
          a := c.w0, x := c.w1, tv := false, cur := none, runt := 0, qTaken := false, stopPend := false
          epc := (s.e e).pc, enpc := s.afterPc e, ebk := (s.e e).bk, epsw := (s.e e).psw, ecause := 0x800
          psw := ((s.e e).psw &&& 3) ||| 8, exl := true, pc := w.setWidth 16
          nxt := none, slot := none, wait := none, bpPass := false }
        ∧ t.fld F.stCnt0_DONE (e / 8) = min (s.fld F.stCnt0_DONE (e / 8) + 1) (2 ^ F.stCnt0_DONE.width - 1))

/-- RTE in supervisor mode restores PSW and BK, clears EXL and goes to EPC with ENPC after it (R100): the interrupt point that follows is
sampled under the restored PSW, and an interrupt taken there saves what RTE restored; else the instruction at EPC runs, and control then passes
to ENPC subject to the loop decision (stated of NOP), or where a branch goes (stated of BRA). In task mode it raises the privilege exception.
Completion is stated of: rte, interruptEntry, nop, bra. -/
def Obligations.RteRestoresTheSavedState : Prop :=
  ∀ (s : State) (e : Fin 128) (i : Insn), Issues s e i → i.op = 0x2E →
    if (s.e e).psw.getLsbD 3 = true then
      Does (.rte e) s fun t => t = notify s (endStep e (s.setE e { s.e e with
        psw := (s.e e).epsw, bk := (s.e e).ebk, exl := false, pc := (s.e e).epc, nxt := some (s.e e).enpc, slot := none
        bpPass := false }))
        ∧ (∀ (n : Fin 16) (w : Word), Samples t e → VectorWord t e 10 n w → (t.e e).stopPend = false → t.quantumDue e = false →
            (s.e e).epsw.getLsbD 2 = true → (t.fld F.eirq_PEND (e / 8) (e % 8) &&& t.fld F.eirq_EN (e / 8) (e % 8)).testBit n = true →
            (∀ m < n.val, (t.fld F.eirq_PEND (e / 8) (e % 8) &&& t.fld F.eirq_EN (e / 8) (e % 8)).testBit m = false) →
            Does (.interruptEntry e) t fun v => (v.e e).epc = (s.e e).epc ∧ (v.e e).enpc = (s.e e).enpc ∧ (v.e e).ebk = (s.e e).ebk
              ∧ (v.e e).epsw = (s.e e).epsw)
        ∧ (∀ j, Issues t e j → (t.e e).stepReq = false → j.op = 0 →
            Does (.nop e) t fun v => (v.e e).pc =
              if (s.e e).epsw.getLsbD 4 = true ∧ ((s.e e).epc = (s.e e).le ∨ (j.mode = 7 ∧ (s.e e).epc + 1 = (s.e e).le)) then
                (if (s.e e).lc = 1 then (s.e e).epc + (if j.mode = 7 then 2 else 1) else (s.e e).ls)
              else (s.e e).enpc)
        ∧ (∀ j, Issues t e j → j.op = 0x2A → j.mode = 0 →
            Does (.bra e) t fun v => (v.e e).nxt = some ((s.e e).epc + 1 + BitVec.ofInt 16 (toSigned 12 j.opnd)))
    else Does (.rte e) s fun t => t = notify s (endStep e (faultAt e 3 0 (passBreak e s)))

/-- Halts, breakpoints, steps, DBGDATA and soft interrupts (R107 to R109).
Rests on the model's choices of log entries 13, 22, 96.
Completion is stated of: debugHaltTaken, breakpointHalt, dbgHalt, dbgRun, dbgStep, dbgdataWrite, eirqsSet. -/
def Obligations.DebuggerReachesTheEngines : Prop :=
  Stated.DebugHaltAndRun ∧ Stated.DebugDataAndSoftInterrupts

/-- MFSR and MTSR (R64, R65).
Rests on the model's choices of log entry 13.
Completion is stated of: mfsr, mtsr. -/
def Obligations.SpecialRegistersReadAndWrite : Prop :=
  Stated.MfsrReadsSpecialRegisters ∧ Stated.MtsrWritesSpecialRegisters

/-- WFE with a zero mask is illegal; where no named event is set the engine waits at the WFE; else, at once or when a waiting WFE meets its
event, the shared bits go to t and clear in EV, TASK staying while the deque holds a task (R86). An interrupt is taken while it waits, with EPC
at the WFE.
Rests on the model's choices of log entry 27.
Completion is stated of: wfe, wfeEventMatch, interruptEntry. -/
def Obligations.WfeConsumesEvents : Prop :=
  let consumed := fun (x : Eng) (mask : BitVec 16) (tgt : Nat) =>
    let y := x.setReg tgt ((x.ev &&& mask).setWidth 48)
    { y with ev := (y.ev &&& ~~~(x.ev &&& mask)) ||| if x.deque = [] then 0 else 0x8000 }
  (∀ (s : State) (e : Fin 128) (i : Insn), Issues s e i → i.op = 0x34 →
    let p := passBreak e s
    let mask : BitVec 16 := (i.plain (s.e e)).setWidth 16
    Does (.wfe e) s fun t =>
      if mask = 0 then t = notify s (endStep e (faultAt e 2 0 p))
      else if (s.e e).ev &&& mask = 0 then t = notify s (p.setE e { p.e e with wait := some (.wfe mask i.tgt) })
      else Completes s t e i (p.setE e (consumed (p.e e) mask i.tgt)))
  ∧ (∀ (s : State) (e : Fin 128) (mask : BitVec 16) (tgt : Nat), s.engRuns e = true → s.asyncDue e = none →
    (s.e e).wait = some (.wfe mask tgt) → (s.e e).ev &&& mask ≠ 0 →
    Does (.wfeEventMatch e) s fun t =>
      Completes s t e (insnOf (s.peek e (s.e e).pc.toNat) 0)
        (s.setE e { consumed (s.e e) mask tgt with wait := none }))
  ∧ ∀ (s : State) (e : Fin 128) (mask : BitVec 16) (tgt : Nat) (n : Fin 16) (w : Word), Samples s e → (s.e e).wait = some (.wfe mask tgt) →
    VectorWord s e 10 n w → (s.e e).stopPend = false → s.quantumDue e = false → (s.e e).psw.getLsbD 2 = true →
    (s.fld F.eirq_PEND (e / 8) (e % 8) &&& s.fld F.eirq_EN (e / 8) (e % 8)).testBit n = true →
    (∀ m < n.val, (s.fld F.eirq_PEND (e / 8) (e % 8) &&& s.fld F.eirq_EN (e / 8) (e % 8)).testBit m = false) →
    Does (.interruptEntry e) s fun t => (t.e e).epc = (s.e e).pc ∧ (t.e e).pc = w.setWidth 16 ∧ (t.e e).wait = none

/-- SEV, TKR and WUNT (R88, R89).
Rests on the model's choices of log entry 28.
Completion is stated of: sev, tkr, wunt, wuntExpire. -/
def Obligations.EventsAreSentAndTimeIsAwaited : Prop :=
  Stated.SevSetsEvents ∧ Stated.TickReadsAndWaits

/-- TPUSH, the dispatch to TNEXT and to waiting engines, and TDONE (R90 to R92, R113 to R118).
Rests on the model's choices of log entries 29, 30, 93, 95.
Completion is stated of: tpush, tnext, taskDispatch, tdone. -/
def Obligations.TasksArePushedTakenAndEnded : Prop :=
  Stated.TpushReportsRefusals ∧ Stated.EnginesReceiveTasks ∧ Stated.TdoneEndsTheTask

/-- A register write acts on each field by its access type (R10, R14): plain, locked, write-one, write-only and read-clear fields.
Rests on the model's choices of log entries 9, 11.
Completion is stated of: registerWrite, fnReset, fnRelease, canTxRequest, canTxAbort, hostMemoryRead. -/
def Obligations.RegisterWritesFollowTheAccessType : Prop :=
  Stated.PlainFieldsFollowTheirAccess ∧ Stated.LockedWriteOnlyAndReadClearFields

/-- Host accesses to reserved addresses and to loft words (R10, R22, R145, R147).
Rests on the model's choices of log entries 9, 81, 91.
Completion is stated of: reservedHostAccess, hostMemoryRead, hostMemoryWrite. -/
def Obligations.HostAccessesReachWords : Prop :=
  Stated.ReservedAccessesAreCounted ∧ Stated.HostReadsLoftWords ∧ Stated.HostWritesMergeBytes

/-- COMMIT of a block and GC.COMMIT (R40 to R43).
Rests on the model's choices of log entries 36, 69.
Completion is stated of: commitGo, commitActivate, gcCommitGo. -/
def Obligations.CommitsCaptureAndActivate : Prop :=
  Stated.CommitCapturesThenActivates ∧ Stated.GcCommitTriggersDirtyBlocks

/-- Delta images (R44 to R47) and key slots (R48).
Rests on the model's choices of log entries 67, 69, 98.
Completion is stated of: deltaApply, deltaApplyDone, keyProgram, keyRevoke, keyOperationEnd. -/
def Obligations.DeltasAndKeySlots : Prop :=
  Stated.DeltasAreCheckedAndApplied ∧ Stated.KeySlotsAreWrittenOnce

/-- The reset of a function from its request to its release (R55, R58, R59).
Rests on the model's choices of log entry 65.
Completion is stated of: fnReset, fnResetHoldExpire, fnResetDrainEnd, fnRelease. -/
def Obligations.FunctionResetsRunToTheirEnd : Prop :=
  Stated.FunctionResetsBegin ∧ Stated.FunctionResetsEndAndRelease

/-- Code stores under LOAD (R111) and the hand-over of banks (R139, R140).
Rests on the model's choices of log entry 33.
Completion is stated of: codeStoreWrite, bankHandoverRequest, bankHandoverComplete. -/
def Obligations.CodeStoresAndBanksChangeHands : Prop :=
  Stated.CodeStoresAreWrittenUnderLoad ∧ Stated.BanksAreHandedOver

/-- Release, wake, run and gating of a stable (R112, R125, R126).
Rests on the model's choices of log entries 78, 82.
Completion is stated of: stableRelease, stableWake, stableEnginesRun, stableGate. -/
def Obligations.StablesReleaseGateAndWake : Prop :=
  Stated.StablesAskForLeave ∧ Stated.StablesRunAndGate

/-- Overflow queues, withdrawn tasks, the busy estimates and the accounting period (R116, R119, R121, R124).
Rests on the model's choices of log entries 31, 32, 93, 110.
Completion is stated of: overflowMove, u0Withdraw, lateRecordPop, busyEstimateUpdate, accountingPeriodStart. -/
def Obligations.WaitingTasksMoveOrAreWithdrawn : Prop :=
  Stated.OverflowTasksMoveToDeques ∧ Stated.HopelessTasksAreWithdrawn ∧ Stated.EstimatesAndPeriods

/-- Poison marks and scrubbing (R149, R150).
Rests on the model's choices of log entry 34.
Completion is stated of: poisonMark, poisonMarkApply, scrubRead, scrubWriteBack. -/
def Obligations.PoisonAndScrubbing : Prop :=
  Stated.PoisonMarksInvertTheCheckByte ∧ Stated.ScrubbingCorrectsWords

/-- The check code corrects every single error of the 56 stored bits, and takes every double error and the poison mark as uncorrectable. -/
def Obligations.CheckCodeCorrectsOneErrorDetectsTwo : Prop :=
  ∀ w : Word, readCode (sealW w) = .ok w
    ∧ (∀ i < 56, readCode (sealW w ^^^ BitVec.twoPow 56 i) = .ce w)
    ∧ (∀ i < 56, ∀ j < i, ∃ x y, readCode (sealW w ^^^ BitVec.twoPow 56 i ^^^ BitVec.twoPow 56 j) = .ue x y ∧ y ≠ 0xFF)
    ∧ readCode (poison (sealW w)) = .ue w 0xFF

/-- Sends, reads, RESYNC, doorbells and standoff of a mailbox pair (R157 to R162).
Rests on the model's choices of log entries 35, 101.
Completion is stated of: mailboxSend, mailboxReceive, mailboxResync, doorbellRing, standoffDetect. -/
def Obligations.MailboxesCarryWords : Prop :=
  Stated.MailboxSendsQueueWords ∧ Stated.MailboxReadsTakeTheOldest ∧ Stated.MailboxSidesSignal

/-- A request goes into its target's queue of 16 or waits at its initiator, eight in all; the grant takes the higher of two levels, and the
requests that wait move up; a request past LIMIT is flagged once.
Rests on the model's choices of log entries 36, 88.
Completion is stated of: icRequest, icGrant, starvationDetect. -/
def Obligations.InterconnectGrantsByLevel : Prop :=
  ∀ (s : State) (x : Fin 19), s.clocksOn = true →
    (∀ (i : Fin 19) (f : Fin 512) (w : Who) (bank : Option (Fin 16)),
      (8 ≤ s.icOut i → Does (.icRequest x i ⟨f, w, bank⟩) s fun t => t = notify s s)
      ∧ (s.icOut i < 8 → Does (.icRequest x i ⟨f, w, bank⟩) s fun t =>
          let acts := if i = 18 ∨ (i = 16 ∧ ∀ k, w ≠ .vf k) then 0 else f.val
          let r : IcReq := { i := i, f := acts, w := w, bank := if x < 16 then bank.map (·.val) else none, t0 := s.tick }
          t = notify s (s.setIc x (if (s.icT x).q.length < 16 then { s.icT x with q := (s.icT x).q ++ [r] }
            else { s.icT x with wait := (s.icT x).wait ++ [r] }))))
    ∧ (s.cfld F.commit_PEND (.ic x) = 0 → s.boot.gcTrig = [] →
      ((s.icT x).q = [] → Does (.icGrant x) s fun t => (t.icT x).granted = none ∧ (t.icT x).q = [] ∧ t.act = s.act)
      ∧ (∀ r, (s.icT x).q = [r] → Does (.icGrant x) s fun t => (t.icT x).granted = some r ∧ (t.icT x).q = (s.icT x).wait.take 1
          ∧ (t.icT x).wait = (s.icT x).wait.drop 1)
      ∧ ((s.icT x).q ≠ [] → Does (.icGrant x) s fun t =>
          let turn := fun (r : IcReq) => (r.i + 19 - Tab.get 0 (s.icT x).last (s.icLevel x r)) % 19
          ∃ k r, (s.icT x).q[k]? = some r
            ∧ (∀ j y, (s.icT x).q[j]? = some y → s.icLevel x y < s.icLevel x r
                ∨ (s.icLevel x y = s.icLevel x r ∧ (turn r < turn y ∨ (turn r = turn y ∧ k ≤ j))))
            ∧ (t.icT x).granted = some r ∧ (t.icT x).q = (s.icT x).q.eraseIdx k ++ (s.icT x).wait.take 1
            ∧ (t.icT x).wait = (s.icT x).wait.drop 1 ∧ Tab.get 0 (t.icT x).last (s.icLevel x r) = r.i + 1))
    ∧ ∀ (i : Fin 19) (r : IcReq), (s.icT x).q = [r] → r.i = i.val → r.flagged = false → s.fld F.icStarv_LIMIT x ≠ 0 →
      r.t0 + s.fld F.icStarv_LIMIT x / 2 + 1 ≤ s.tick → (Does (.starvationDetect x i) s fun t =>
        t = notify s (((s.setIc x { s.icT x with q := [{ r with flagged := true }] }).put F.icSflag_SFLAG
          (s.fld F.icSflag_SFLAG x ||| 2 ^ i.val) x).bump F.icCnt_STARVN x)
          ∧ t.fld F.icCnt_STARVN x = min (s.fld F.icCnt_STARVN x + 1) (2 ^ F.icCnt_STARVN.width - 1))

/-- DONE, the common instant and subscriptions of the Manger (R173 to R181).
Rests on the model's choices of log entries 37, 38, 40.
Completion is stated of: regionDone, commonInstant, subscriptionReceive. -/
def Obligations.RegionsCompleteAndFlip : Prop :=
  Stated.RegionDoneCompletesTheSet ∧ Stated.InstantsFlipRegions ∧ Stated.SubscriptionsFillTheWriteBuffer

/-- Links (R188, R189), the verification and use of preemption (R193, R194) and low-power idle (R198).
Rests on the model's choices of log entries 41, 89.
Completion is stated of: linkChange, preemptVerifySend, verifyResponse, preemptFragmentEnd, lpiEnter, receiveLowPowerIdle, lpiWake. -/
def Obligations.LinksComeGoAndRest : Prop :=
  Stated.LinksComeAndGo ∧ Stated.PreemptionIsVerified ∧ Stated.LowPowerIdleFollowsTheWork

/-- The checks of a received frame (R190) and PAUSE (R195).
Rests on the model's choices of log entries 42, 83, 103.
Completion is stated of: macReceiveFrame, pauseReceive, pauseExpire. -/
def Obligations.ReceivedFramesAreCheckedAndPausesObeyed : Prop :=
  Stated.ReceivedFramesAreCheckedAndCounted ∧ Stated.PauseStopsTransmission

/-- Transmission, its end and its timestamps, and collisions (R191, R192, R197, R203).
Rests on the model's choices of log entries 42, 43, 105.
Completion is stated of: macTransmitStart, macTransmitEnd, txUnderrun, txTimestampPop, collision, backoffExpire. -/
def Obligations.FramesAreSentAndRetried : Prop :=
  Stated.FramesAreSentWhole ∧ Stated.CollisionsBackOff

/-- Filtering and forwarding in the yard, and delivery into a function's pool (R221, R222, R230).
Rests on the model's choices of log entries 46, 47, 102, 104.
Completion is stated of: yardReceive, frameDeliver. -/
def Obligations.FramesAreForwardedAndDelivered : Prop :=
  Stated.YardFiltersAndForwards ∧ Stated.FramesAreDelivered

/-- Submission by descriptor, and the disposition that returns (R225 to R227).
Rests on the model's choices of log entries 49, 88, 100.
Completion is stated of: yardSubmit, descriptorCopyComplete, descriptorWriteback. -/
def Obligations.DescriptorsSubmitAndReturn : Prop :=
  Stated.EnginesSubmitDescriptors ∧ Stated.DescriptorsAreWrittenBack

/-- The host rings and the hold-off of their messages (R228, R229).
Rests on the model's choices of log entries 50, 53.
Completion is stated of: hostTxTailWrite, hostRxTailWrite, ringMessageHoldoffEnd. -/
def Obligations.HostRingsAndTheirMessages : Prop :=
  Stated.HostRingsTakeTails ∧ Stated.RingMessagesAreHeldOff

/-- A command to the address table starts it and shows BUSY; its end carries it out: a read gives the key's entry, a write stores or removes
it, a delete removes it and a flush removes the dynamic entries of the ports that PMASK names.
Rests on the model's choices of log entry 51.
Completion is stated of: atRead, atWrite, atDelete, atFlush, atCommandComplete, addressAgeOut. -/
def Obligations.AddressTableCommands : Prop :=
  ∀ (s : State), s.clocksOn = true → s.applied = true →
    let mac := s.fld F.ydAtkey_MAC
    let vid := s.fld F.ydAtdata_VID
    (∀ (w : Who) (c : Who → Instr) (op : Nat), (c, op) ∈ [(Instr.atRead, 1), (Instr.atWrite, 2), (Instr.atDelete, 3), (Instr.atFlush, 4)] →
      (s.heard w = true → s.supervisor w = true → s.fld F.ydAtcmd_BUSY = 0 → Does (c w) s fun t =>
        let u := s.put F.ydAtcmd_BUSY 1
        t = notify s (finish w { st := { u with yard := { u.yard with cmd := some (op, 0) } } }))
      ∧ (s.heard w = true → w ≠ .jtag → s.supervisor w = false ∨ s.fld F.ydAtcmd_BUSY ≠ 0 → Does (c w) s fun t => t = notify s (finish w { st := s })))
    ∧ (s.yard.cmd = none → Does .atCommandComplete s fun t => t = notify s s)
    ∧ (∀ e, s.yard.cmd = some (1, 0) → s.atFind mac vid = some e → Does .atCommandComplete s fun t =>
        t.fld F.ydAtdata_VALID = 1 ∧ t.fld F.ydAtdata_STATIC = (if e.static then 1 else 0) ∧ t.fld F.ydAtdata_DLV = (if e.dlv then 1 else 0)
          ∧ t.fld F.ydAtdata_FN = e.fn % 2 ^ F.ydAtdata_FN.width ∧ t.fld F.ydAtdata_PMASK = e.pmask % 2 ^ F.ydAtdata_PMASK.width
          ∧ t.fld F.ydAtcmd_RES = 0 ∧ t.fld F.ydAtcmd_BUSY = 0 ∧ t.yard.table = s.yard.table)
    ∧ (s.yard.cmd = some (1, 0) → s.atFind mac vid = none → Does .atCommandComplete s fun t =>
        t.fld F.ydAtdata_VALID = 0 ∧ t.fld F.ydAtcmd_BUSY = 0 ∧ t.yard.table = s.yard.table)
    ∧ (s.yard.cmd = some (2, 0) → s.fld F.ydAtdata_VALID ≠ 0 →
        ((s.yard.table.filter fun e => !(e.mac == mac && e.vid == vid)).filter fun e => atSet e.mac e.vid == atSet mac vid).length < 4 →
        Does .atCommandComplete s fun t =>
          t.yard.table = (s.yard.table.filter fun e => !(e.mac == mac && e.vid == vid)) ++
            [{ mac := mac, vid := vid, static := s.on F.ydAtdata_STATIC, dlv := s.on F.ydAtdata_DLV, fn := s.fld F.ydAtdata_FN
               pmask := s.fld F.ydAtdata_PMASK, fresh := s.tick }]
            ∧ t.fld F.ydAtcmd_RES = 0 ∧ t.fld F.ydAtcmd_BUSY = 0)
    ∧ (s.yard.cmd = some (3, 0) ∨ s.yard.cmd = some (2, 0) ∧ s.fld F.ydAtdata_VALID = 0 → Does .atCommandComplete s fun t =>
        t.yard.table = (s.yard.table.filter fun e => !(e.mac == mac && e.vid == vid)) ∧ t.fld F.ydAtcmd_BUSY = 0)
    ∧ (s.yard.cmd = some (4, 0) → Does .atCommandComplete s fun t =>
        t.yard.table = (s.yard.table.filter fun e => e.static || e.pmask &&& s.fld F.ydAtdata_PMASK = 0) ∧ t.fld F.ydAtcmd_BUSY = 0)
    ∧ ∀ (m : Word) (v : Fin 4096) (e : AtEnt), s.atFind m.toNat v = some e →
        (e.static = true ∨ s.fld F.ydCfg_AGETIME = 0 → Does (.addressAgeOut m v) s fun t => t = notify s s)
        ∧ (e.static = false → s.fld F.ydCfg_AGETIME ≠ 0 → e.fresh + s.fld F.ydCfg_AGETIME * 250000000 ≤ s.tick → Does (.addressAgeOut m v) s fun t =>
          t = notify s { s with yard := { s.yard with table := s.yard.table.filter fun x => !(x.mac == m.toNat && x.vid == v.val) } })

/-- The cycle start of a pending gate list, where none operates, makes it the operating list from its first entry; a cycle of the operating list
begins it again; each entry of the operating list follows the one
before it; the head of a launch queue whose time has come, or is past and then counted late, may be sent.
Rests on the model's choices of log entries 44, 59.
Completion is stated of: gateCycleStart, gateEntryChange, launchEligible. -/
def Obligations.GatesAndLaunchQueuesFollowTheirCounter : Prop :=
  ∀ (s : State), s.clocksOn = true → s.applied = true →
    (∀ (p : Fin 17), s.fld F.ydGctl_PEND p ≠ 0 → (s.gateS p).oper = [] ∨ (s.gateS p).cyc = 0 → Does (.gateCycleStart p) s fun t =>
      t.fld F.ydGctl_PEND p = 0 ∧ t.fld F.ydGctl_OPER p = 1 ∧ t.fld F.ydGctl_IDX p = 0 ∧ (t.gateS p).oper = t.gclOf p
        ∧ (t.gateS p).gates = ((t.gclOf p).headD (0, 0, 0)).1 ∧ (t.gateS p).idx = 0 ∧ (t.gateS p).cyc = s.fld F.ydGcyc_CYC p)
    ∧ (∀ (p : Fin 17), s.fld F.ydGctl_PEND p = 0 → (s.gateS p).oper ≠ [] → (s.gateS p).cyc ≠ 0 → Does (.gateCycleStart p) s fun t =>
      let x := s.gateS p
      (t.gateS p).idx = 0 ∧ t.fld F.ydGctl_IDX p = 0 ∧ (t.gateS p).oper = x.oper ∧ (t.gateS p).gates = (x.oper.headD (0, 0, 0)).1
        ∧ (t.gateS p).hold = (match (x.oper.headD (0, 0, 0)).2.1 with | 1 => true | 2 => false | _ => x.hold))
    ∧ (∀ (p : Fin 17), s.fld F.ydGctl_PEND p = 0 → (s.gateS p).oper = [] → Does (.gateCycleStart p) s fun t => t = notify s s)
    ∧ (∀ (p : Fin 17), let x := s.gateS p
        (x.idx + 1 < (gateSegs x.oper 0 x.cyc).length → Does (.gateEntryChange p) s fun t =>
          (t.gateS p).idx = x.idx + 1 ∧ (t.gateS p).gates = (x.oper.getD (x.idx + 1) (0, 0, 0)).1
            ∧ t.fld F.ydGctl_IDX p = (x.idx + 1) % 2 ^ F.ydGctl_IDX.width ∧ (t.gateS p).oper = x.oper
            ∧ (t.gateS p).hold = (match (x.oper.getD (x.idx + 1) (0, 0, 0)).2.1 with | 1 => true | 2 => false | _ => x.hold))
        ∧ ((gateSegs x.oper 0 x.cyc).length ≤ x.idx + 1 → Does (.gateEntryChange p) s fun t => t = notify s s))
    ∧ ∀ (p : Fin 12) (q : QEnt) (rest : List QEnt) (x : YFrame), s.launchQ p = q :: rest → s.frame q.id = some x → Tab.get 0 s.yard.due p = 0 →
        let d := sdiff 48 (s.launchNow p) x.ltime
        (0 < d → Does (.launchEligible p) s fun t =>
          t.fld F.tmLq_LATE p = min (s.fld F.tmLq_LATE p + 1) (2 ^ F.tmLq_LATE.width - 1) ∧ t.fld F.tmEvt_LQLATE = 1
            ∧ Tab.get 0 t.yard.due p = q.id + 1 ∧ t.launchQ p = s.launchQ p)
        ∧ (d ≤ 0 → Does (.launchEligible p) s fun t =>
          Tab.get 0 t.yard.due p = q.id + 1 ∧ t.launchQ p = s.launchQ p ∧ t.fld F.tmLq_LATE p = s.fld F.tmLq_LATE p)

/-- Forwarding in passing and the window of a pair (R208 to R217).
Rests on the model's choices of log entry 54.
Completion is stated of: inpassSegmentPost, inpassFrameEnd, inpassEgressStart, inpassWordLatch, inpassWindowWrite, inpassDescriptorClear. -/
def Obligations.PassingFramesAndTheirWindow : Prop :=
  Stated.FramesPassThroughTheRing ∧ Stated.WindowWritesReachTheRing

/-- A counter's rate is clamped to its limits and ignored while its servo runs; a step is scheduled for the second tick after an accepted
write, else refused with SREF; it takes effect in one tick; a capture takes TK and the counter together.
Completion is stated of: tcIncWrite, tcStep, tcUnlock, tcStepApply, captureNow. -/
def Obligations.CountersAreSteered : Prop :=
  ∀ (s : State) (w : Who) (i : Fin 8), s.heard w = true → s.applied = true ∨ s.halter = true →
    (s.mayTc w i = false → ∀ v a b, Does (.tcIncWrite w i v) s (fun t => t = notify s (finish w (denied s)))
      ∧ Does (.tcStep w i a b) s (fun t => t = notify s (finish w (denied s))) ∧ Does (.tcUnlock w i) s fun t => t = notify s (finish w (denied s)))
    ∧ (s.mayTc w i = true →
      (∀ v : BitVec 35, Does (.tcIncWrite w i v) s fun t =>
        let u := if s.servoOn i then s
          else if v.toNat < 17162689315 then (putInc i 17162689315 s).put F.tmEvt_INCLIM 1
          else if 17197049053 < v.toNat then (putInc i 17197049053 s).put F.tmEvt_INCLIM 1
          else putInc i v.toNat s
        t = notify s (finish w { st := u }))
      ∧ (Does (.tcUnlock w i) s fun t =>
          let u := if s.tcState i = 1 ∧ Tab.get none s.steps i = none then s.put F.tcStat_STATE 0 i else s
          t = notify s (finish w { st := u }))
      ∧ (∀ unlock rel, s.tcState i ≠ 0 → ¬(unlock = true ∧ s.tcState i = 1 ∧ Tab.get none s.steps i = none) → Does (.tcStep w i rel unlock) s fun t =>
          t = notify s (finish w { st := (s.put F.tcStat_SDISP 9 i).put F.tmEvt_SREF 1 }))
      ∧ (let sec := s.fld F.tcStepsec_SEC i
         let ns := s.fld F.tcStepns_NS i
         s.tcState i = 0 → Tab.get none s.steps i = none → s.servoOn i = false → ns ≤ 999999999 → sec * 1000000000 + ns ≤ (2 ^ 48 - 1) * 1000000000 →
         Does (.tcStep w i false false) s fun t =>
          let u : State := { s with steps := Tab.set none s.steps i (some (s.tick + 2, false, ⟨sec, ns, 0⟩, toSigned 48 sec * 1000000000 + ns)) }
          t = notify s (finish w { st := (u.put F.tcStat_STATE 1 i).put F.tcStat_SDISP 0 i })))
    ∧ (Tab.get none s.steps i = none → Does (.tcStepApply i) s fun t => t = notify s s)
    ∧ (∀ x rel c am, Tab.get none s.steps i = some (x, rel, c, am) → x ≤ s.tick → Does (.tcStepApply i) s fun t =>
        t.ctr i = (if rel then tcntOf ((s.total i : Int) + am * 2 ^ 32).toNat else c) ∧ Tab.get none t.steps i = none
          ∧ t.fld F.tcStat_SCNT i = (s.fld F.tcStat_SCNT i + 1) % 2 ^ F.tcStat_SCNT.width ∧ t.fld F.tmEvt_STEP = 1
          ∧ (i.val = 0 → t.jumpDue = true) ∧ (∀ j, j ≠ i.val → t.ctr j = s.ctr j) ∧ t.eng = s.eng)
    ∧ (s.supervisor w = true → Does (.captureNow w) s fun t =>
        let x := s.ctr (s.fld F.tmCapctl_SEL)
        let u := ((s.put F.tmCaptk_SEQ (s.fld F.tmCaptk_SEQ + 1)).put F.tmCaptk_TK s.tk).put F.tmCapsec_SEC x.sec
        t = notify s (finish w { st := u.put F.tmCapns_NSF (x.ns * 2 ^ 16 + x.frac / 2 ^ 16) }))

/-- References, servos and pulse generators (R248 to R255).
Rests on the model's choices of log entries 56, 57, 58.
Completion is stated of: refOfsWrite, ppsEdge, frefSample, refTimeout, rampEnd, pulseRise, pulseFall. -/
def Obligations.ReferencesAndPulses : Prop :=
  Stated.ReferencesSteerTheServos ∧ Stated.PulsesRiseAndFall

/-- The Paddock bus (R265 to R275).
Rests on the model's choices of log entries 60, 106, 107.
Completion is stated of: paddockSlotSend, paddockSlotReceive, paddockBackoffEnd, paddockListenTimeout, paddockReferenceSearch. -/
def Obligations.PaddockNodesSendListenAndAlign : Prop :=
  Stated.PaddockSlotsAreSent ∧ Stated.PaddockWindowsAreRecorded ∧ Stated.PaddockListensAndAligns

/-- CAN buffers, transmission, reception and errors (R280 to R292).
Rests on the model's choices of log entries 61, 62.
Completion is stated of: canTxRequest, canTxAbort, canTxBufferWrite, canFifoPop, canFrameStart, canFrameEnd, canReceiveFrame, canError,
canBusOffRecovery, canIntegrate. -/
def Obligations.CanControllersSendAndReceive : Prop :=
  Stated.CanBuffersAreRequestedAndWithdrawn ∧ Stated.CanFramesAreSent ∧ Stated.CanFramesAndErrorsAreReceived

/-- The instructions of a pin machine but those of its waits, and illegal ones (R298 to R301).
Rests on the model's choices of log entry 63.
Completion is stated of: pmNop, pmGoto, pmLoop, pmSkip, pmSetc, pmEmit, pmTake, pmFetch, pmDeliver, pmPins, pmGmov, pmGput, pmWaitp,
pmStamp, pmMark. -/
def Obligations.PinMachinesRunTheirProgram : Prop :=
  Stated.IllegalPinInstructionsStop ∧ Stated.PinProgramsGoOn ∧ Stated.PinMachinesMoveWordsAndPins ∧ Stated.PinMachinesShiftWords

/-- WAITP waits for a level, STAMP for TK, MARK raises, lowers and awaits flags; a stalled instruction is released when its condition holds.
Rests on the model's choices of log entry 63.
Completion is stated of: pmWaitp, pmStamp, pmMark, pmStallRelease. -/
def Obligations.PinMachinesWait : Prop :=
  (∀ (s : State) (b : Fin 4) (m : Fin 8) (op i : Nat), PmSteps s b m op i →
    let u := pmAt b m op s
    let q := (s.pmInj b m).isSome
    let x := u.mach b m
    let r := readPins b ((s.pmStop b m - u.stepLen b m) / 256) u
    (∀ lvl : Bool, op = 12 → (bits i 4 2 = 0 ∧ lvl = r.1.testBit ((u.fld F.pmCfg1_SENSEB b m + i % 16) % 16))
          ∨ (bits i 4 2 = 1 ∧ lvl = r.1.testBit (i % 16)) ∨ (bits i 4 2 = 2 ∧ lvl = (u.fld F.piFlags_FLAG b).testBit (i % 8)) →
        (lvl = i.testBit 6 → Does (.pmWaitp b m) s fun t => t = notify s (pmDone b m i q (r.2.setMach b m { x with chg := none })))
        ∧ (lvl ≠ i.testBit 6 → Does (.pmWaitp b m) s fun t => t = notify s (pmStalled b m i 3 q r.2)))
    ∧ (∀ sense : Bool, sense = r.1.testBit ((u.fld F.pmCfg1_SENSEB b m + i % 16) % 16) → op = 12 → bits i 4 2 = 3 →
        (x.chg = none → Does (.pmWaitp b m) s fun t => t = notify s (pmStalled b m i 3 q (r.2.setMach b m { x with chg := some sense })))
        ∧ (x.chg = some (!sense) → Does (.pmWaitp b m) s fun t => t = notify s (pmDone b m i q (r.2.setMach b m { x with chg := none }))))
    ∧ (op = 13 → bits i 5 2 = 1 → x.tgt = none → u.txNone b m = true → Does (.pmStamp b m) s fun t => t = notify s (pmStalled b m i 1 q u))
    ∧ (op = 13 → x.tgt = none → (bits i 5 2 = 1 → u.txNone b m = false) →
        let t0 : BitVec 32 := if bits i 5 2 = 0 then x.g.setWidth 32 else if bits i 5 2 = 1 then (x.txf.headD 0).setWidth 32 else x.lst + x.g.setWidth 32
        let y := if bits i 5 2 = 1 then { x with txf := x.txf.drop 1 } else x
        (past32 u.tk t0.toNat < 0 → Does (.pmStamp b m) s fun t => t = notify s (pmStalled b m i 5 q (u.setMach b m { y with tgt := some t0 })))
        ∧ (0 ≤ past32 u.tk t0.toNat → Does (.pmStamp b m) s fun t =>
          t.fld F.pmStat_TKLATE b m = 1 ∧ t.fld F.pmCnt_LATE b m = min (u.fld F.pmCnt_LATE b m + 1) (2 ^ F.pmCnt_LATE.width - 1)
            ∧ (t.mach b m).lst = t0 ∧ t.tick = u.tick + 1))
    ∧ (op = 14 → bits i 5 2 = 0 → Does (.pmMark b m) s fun t => (t.fld F.piFlags_FLAG b).testBit (i % 8) = true)
    ∧ (op = 14 → bits i 5 2 = 1 → Does (.pmMark b m) s fun t => t = notify s (pmDone b m i q (lowerFlag b (i % 8) u)))
    ∧ (op = 14 → bits i 5 2 = 2 → x.marked = false → Does (.pmMark b m) s fun t =>
        (t.fld F.piFlags_FLAG b).testBit (i % 8) = true
          ∧ (x.halting = false → x.inj = none ∨ q = true → (t.mach b m).stall = 4 ∧ (t.mach b m).marked = true))
    ∧ (op = 14 → bits i 5 2 = 2 → x.marked = true → (u.fld F.piFlags_FLAG b).testBit (i % 8) = false → Does (.pmMark b m) s fun t =>
        t = notify s (pmDone b m i q (u.setMach b m { x with marked := false })))
    ∧ (op = 14 → bits i 5 2 = 3 → (u.fld F.piFlags_FLAG b).testBit (i % 8) = true → Does (.pmMark b m) s fun t =>
        t = notify s (pmDone b m i q (lowerFlag b (i % 8) u)))
    ∧ (op = 14 → bits i 5 2 = 3 → (u.fld F.piFlags_FLAG b).testBit (i % 8) = false → Does (.pmMark b m) s fun t =>
        t = notify s (pmStalled b m i 4 q u)))
  ∧ ∀ (s : State) (b : Fin 4) (m : Fin 8),
    let x := s.mach b m
    let i := (x.cur.map BitVec.toNat).getD (s.pmInsn b m)
    let q := x.inj.isSome
    let u := pmAgain b m s
    (s.pmActive b m = false ∨ x.stall = 0 ∨ 5 < x.stall → Does (.pmStallRelease b m) s fun t => t = notify s s)
    ∧ (s.pmActive b m = true → x.stalled = true → s.pmLegal b m i = false → Does (.pmStallRelease b m) s fun t =>
        t.fld F.pmCtl_RUN b m = 0 ∧ t.fld F.pmStat_FAULT b m = 1 ∧ (t.mach b m).stall = 7)
    ∧ (s.pmActive b m = true → s.pmLegal b m i = true → x.stall = 1 → bits i 20 4 = 7 → (i.testBit 0 = true → x.tn = 0) →
        (∀ v rest, u.txNone b m = false → x.txf = v :: rest → Does (.pmStallRelease b m) s fun t =>
          t = notify s (pmDone b m i q (u.setMach b m { u.mach b m with th := v, tn := u.tlen b m, txf := rest })))
        ∧ (u.txNone b m = true → Does (.pmStallRelease b m) s fun t => t = notify s s))
    ∧ (∀ t0 : BitVec 32, s.pmActive b m = true → s.pmLegal b m i = true → x.stall = 5 → bits i 20 4 = 13 → x.tgt = some t0 → s.tkBase ≤ s.tick →
        Does (.pmStallRelease b m) s fun t => (past32 s.tk t0.toNat ≤ 0 → t.tk = t0.toNat) ∧ (0 ≤ past32 s.tk t0.toNat → t.tick = s.tick)
          ∧ (t.mach b m).lst = t0 ∧ (t.mach b m).tgt = none ∧ (t.mach b m).stall = (if s.on F.pmCtl_RUN b m then 0 else 6))

/-- Firmware writes PTX, reads PRX, injects an instruction, starts, stops, restarts and clears a machine, and lowers the block's flags, where
R295 lets it.
Rests on the model's choices of log entry 63.
Completion is stated of: pmPtxWrite, pmPrxRead, pmInject, pmRun, pmStop, pmRestart, pmFifoClear, pmFlagLower. -/
def Obligations.FirmwareDrivesPinMachines : Prop :=
  ∀ (s : State) (w : Who) (b : Fin 4) (m : Fin 8), s.heard w = true → s.applied = true →
    let x := s.mach b m
    (s.mayPm w b m = false → ∀ v i, Does (.pmPtxWrite w b m v) s (fun t => t = notify s (finish w (denied s)))
      ∧ Does (.pmPrxRead w b m) s (fun t => t = notify s (finishRead w (denied s) 0 false))
      ∧ Does (.pmInject w b m i) s (fun t => t = notify s (finish w (denied s)))
      ∧ ∀ c ∈ [Instr.pmRun, Instr.pmStop, Instr.pmRestart, Instr.pmFifoClear], Does (c w b m) s fun t => t = notify s (finish w (denied s)))
    ∧ (s.mayPm w b m = true →
      (∀ v, x.txf.length < s.txCap b m → Does (.pmPtxWrite w b m v) s fun t =>
        t = notify s (finish w { st := (s.setMach b m { x with txf := x.txf ++ [v], txAt := if x.txf = [] then s.tick + 1 else x.txAt }).put F.pmStat_TDISP 0 b m }))
      ∧ (∀ v, s.txCap b m ≤ x.txf.length → Does (.pmPtxWrite w b m v) s fun t =>
        t = notify s (finish w { st := (s.put F.pmStat_TDISP 5 b m).bump F.pmCnt_TXDROP b m }))
      ∧ (x.rxf = [] → Does (.pmPrxRead w b m) s fun t => t = notify s (finishRead w { st := s.put F.pmStat_RXV 0 b m } 0 false))
      ∧ (∀ v rest, x.rxf = v :: rest → Does (.pmPrxRead w b m) s fun t =>
        t = notify s (finishRead w { st := (s.setMach b m { x with rxf := rest }).put F.pmStat_RXV 1 b m } v false))
      ∧ (∀ v, x.inj ≠ none → Does (.pmInject w b m v) s fun t => t = notify s (finish w { st := s.put F.pmStat_IDISP 5 b m }))
      ∧ (∀ v, x.inj = none → Does (.pmInject w b m v) s fun t =>
        let y := { x with tgt := none, chg := none, marked := false, cur := none, stall := if x.stalled then 0 else x.stall }
        ∃ edge, t = notify s (finish w { st := (s.setMach b m { y with inj := some v, injAt := s.tick, held := false, at256 := edge }).put F.pmStat_IDISP 0 b m })
          ∧ (x.stalled = false → edge = if s.fld F.pmCtl_RUN b m = 0 ∧ x.halting = false then s.tick * 256 else x.at256)
          ∧ (x.stalled = true → 0 < s.stepLen b m → s.tick * 256 ≤ edge ∧ s.stepLen b m ∣ edge - x.at256 ∧ edge < max (x.at256 + 1) (s.tick * 256) + s.stepLen b m))
      ∧ (s.fld F.pmCtl_RUN b m = 0 → Does (.pmRun w b m) s (fun t =>
          t = notify s (finish w { st := (s.setMach b m { x with tgt := none, chg := none, marked := false, cur := none, stall := 0, held := false, halting := false, haltAt := 0, at256 := if x.halting then x.at256 else s.tick * 256 }).put F.pmCtl_RUN 1 b m }))
        ∧ Does (.pmStop w b m) s fun t => t = notify s (finish w { st := s }))
      ∧ (s.fld F.pmCtl_RUN b m ≠ 0 → Does (.pmStop w b m) s (fun t => t.fld F.pmCtl_RUN b m = 0 ∧ (t.mach b m).cur = none
          ∧ (t.mach b m).pc = x.pc ∧ (t.mach b m).g = x.g ∧ (t.mach b m).txf = x.txf ∧ (t.mach b m).rxf = x.rxf
          ∧ (x.stalled = true → (t.mach b m).stall = 6 ∧ (t.mach b m).inj = x.inj ∧ (t.mach b m).held = x.inj.isSome)
          ∧ (x.stalled = false → s.tick * 256 < x.at256 → (t.mach b m).stall = 6 ∧ (t.mach b m).at256 = s.tick * 256)
          ∧ (x.stalled = false → x.at256 ≤ s.tick * 256 → ¬s.stepLen b m ∣ s.tick * 256 - x.at256 → (t.mach b m).halting = true ∧ (t.mach b m).stall = x.stall))
        ∧ Does (.pmRun w b m) s fun t => t = notify s (finish w { st := s }))
      ∧ (Does (.pmRestart w b m) s fun t =>
          (t.mach b m).pc = s.fld F.pmCfg2_START b m ∧ (t.mach b m).c0 = 0 ∧ (t.mach b m).c1 = 0 ∧ (t.mach b m).g = 0 ∧ (t.mach b m).th = 0
            ∧ (t.mach b m).tn = 0 ∧ (t.mach b m).rg = 0 ∧ (t.mach b m).rn = 0 ∧ (t.mach b m).txf = x.txf ∧ (t.mach b m).rxf = x.rxf ∧ t.act = s.act)
      ∧ Does (.pmFifoClear w b m) s fun t => t = notify s (finish w { st := s.setMach b m { x with txf := [], rxf := [] } }))
    ∧ ∀ v : BitVec 8, s.supervisor w = true → s.fld F.piFlags_FLAG b < 256 → Does (.pmFlagLower w b v) s fun t =>
        ∀ f < 8, (t.fld F.piFlags_FLAG b).testBit f =
          ((s.fld F.piFlags_FLAG b).testBit f && !(v.getLsbD f && !(Tab.get 0 s.flagAt (8 * b.val + f) == s.tick + 1)))

/-- Roles, STATUS, self-tests and the duplicate discard of a pair (R308 to R323).
Rests on the model's choices of log entries 64, 89.
Completion is stated of: twinLinkChange, twinStatusSend, twinStatusReceive, twinStatusTimeout, twinListenTimeout, twinHoldoffExpire,
twinStest, twinSelftestEnd, ddEntryAgeOut. -/
def Obligations.RedundantPairsAgreeAndTest : Prop :=
  Stated.PairsAgreeOnRoles ∧ Stated.SelfTestsAndDuplicateEntriesEnd

/-- The supply moves to the best good source when the one in use fails, and to none when there is no other; a better source that stays good for
20 ms is handed back to; the time on VBAK forces REST and KEEP; what the supply shows follows.
Rests on the model's choices of log entry 77.
Completion is stated of: pdDetection, overloadDetect, sourceFail, handoverEnd, handbackEnd, sourceGood, handbackStart, vbakLow, rideExpire,
keepdlyExpire. -/
def Obligations.SourcesCarryTheSupply : Prop :=
  ∀ (s : State),
    (∀ (a c : Fin 8), Does (.pdDetection ⟨a, c⟩) s fun t =>
        t = notify s { (s.put F.pwSrc_ACLS a).put F.pwSrc_SCLS (if c.val = 0 ∨ 4 < c.val then 1 else c) with pw := { s.pw with detected := true } })
    ∧ (Does .overloadDetect s fun t => t = notify s (if s.clocksOn then s.put F.pwEvt_OVLD 1 else s))
    ∧ (∀ k : Fin 3, let u := s.put (srcFlag k) 0
        (s.boot.phase = .off ∨ s.pw.overtemp = true → Does (.sourceFail k) s fun t => t = notify s u)
        ∧ (s.boot.phase ≠ .off → s.pw.overtemp = false → s.fld F.pwSrc_HSM = 0 → s.fld F.pwSrc_ON = k.val + 1 →
          (u.bestSource = 0 → Does (.sourceFail k) s fun t => t.boot.phase = .off ∧ t.fld F.pwSrc_ON = 0 ∧ t.loft = [] ∧ t.flash = (cutFlash u).flash)
          ∧ (u.bestSource ≠ 0 → Does (.sourceFail k) s fun t =>
            t.fld F.pwSrc_ON = u.bestSource ∧ t.fld F.pwSrc_HSM = 1 ∧ t.fld F.pwSrc_DEB = 0
              ∧ t.fld F.pwCnt_HANDOVER = min (s.fld F.pwCnt_HANDOVER + 1) (2 ^ F.pwCnt_HANDOVER.width - 1)
              ∧ t.fld F.pwSrc_PFAIL = (if u.bestSource = 3 then 1 else 0) ∧ (u.bestSource = 3 → t.fld F.pwEvt_ONBAK = 1 ∧ t.pw.bakFrom = some s.tick)
              ∧ t.eng = s.eng))
        ∧ (s.boot.phase ≠ .off → s.pw.overtemp = false → s.fld F.pwSrc_HSM ≠ 0 ∨ s.fld F.pwSrc_ON ≠ k.val + 1 →
          (s.fld F.pwSrc_DEB ≠ 0 → k.val + 1 ∈ s.better → Does (.sourceFail k) s fun t =>
            t.fld F.pwCnt_BOUNCE = min (s.fld F.pwCnt_BOUNCE + 1) (2 ^ F.pwCnt_BOUNCE.width - 1) ∧ t.fld F.pwEvt_BOUNCE = 1
              ∧ t.fld F.pwSrc_ON = s.fld F.pwSrc_ON ∧ t.fld (srcFlag k) = 0)
          ∧ (s.fld F.pwSrc_DEB = 0 → Does (.sourceFail k) s fun t => t = notify s u)))
    ∧ (s.fld F.pwSrc_HSM = 0 → Does .handoverEnd s (fun t => t = notify s s) ∧ Does .handbackEnd s fun t => t = notify s s)
    ∧ (s.fld F.pwSrc_HSM ≠ 0 → s.pw.handback = false → s.onGood = true → Does .handoverEnd s fun t => t = notify s (showCount { s.put F.pwSrc_HSM 0 with pw := { s.pw with hsmEnd := s.tick } }))
    ∧ (∀ k : Fin 3, s.boot.phase ≠ .off → s.pw.overtemp = false → s.pw.latched = 0 → s.fld F.pwCfg1_WAKEMASK = 0 → s.fld F.pwSrc_HSM = 0 → s.fld (srcFlag k) = 0 →
        let u : State := { s.put (srcFlag k) 1 with pw := { s.pw with goodAt := Tab.set 0 s.pw.goodAt k s.tick } }
        (u.better = [] → Does (.sourceGood k) s fun t => t = notify s (u.put F.pwSrc_DEB 0))
        ∧ (u.better ≠ [] → Does (.sourceGood k) s fun t => t = notify s (u.put F.pwSrc_DEB 1)))
    ∧ (s.fld F.pwSrc_DEB = 0 ∨ s.fld F.pwSrc_HSM ≠ 0 → Does .handbackStart s fun t => t = notify s s)
    ∧ (s.fld F.pwSrc_DEB ≠ 0 → s.fld F.pwSrc_HSM = 0 → ∀ c, s.better.find? (fun c => s.countEnd c ≤ s.tick) = some c → Does .handbackStart s fun t =>
        (s.better.headD 0 = c → t.fld F.pwSrc_DEB = 0) ∧ t.fld F.pwSrc_HSM = 1 ∧ t.pw.handback = true ∧ t.pw.moveTo = c ∧ t.eng = s.eng)
    ∧ (s.fld F.pwSrc_HSM ≠ 0 → s.pw.handback = true → s.pw.moveTo < 4 →
        s.on (srcFlag (s.pw.moveTo - 1)) = true → Does .handbackEnd s fun t =>
          t.fld F.pwSrc_ON = s.pw.moveTo ∧ t.fld F.pwSrc_HSM = 0 ∧ t.pw.handback = false ∧ t.fld F.pwEvt_HANDBACK = 1 ∧ t.eng = s.eng)
    ∧ (∀ mv : Fin 4096, ¬(s.fld F.pwSrc_ON = 3 ∧ mv.val < s.fld F.pwCfg0_VBAKLO ∧ s.fld F.pwPstat_STATE ≠ 4) → Does (.vbakLow mv) s fun t =>
        t = notify s (s.put F.pwSrc_VBAK mv))
    ∧ (∀ mv : Fin 4096, s.fld F.pwSrc_ON = 3 → mv.val < s.fld F.pwCfg0_VBAKLO → s.fld F.pwPstat_STATE ≠ 4 → s.fld F.pwPstat_TRANS = 0 → s.pw.forcedRun = false → s.pw.forcedHeld = false → Does (.vbakLow mv) s fun t =>
        t.fld F.pwSrc_VBAK = mv ∧ t.fld F.pwEvt_VBAKLOW = 1 ∧ t.fld F.pwPstat_TRANS = 1 ∧ t.fld F.pwPstat_TO = 4 ∧ t.fld F.pwPstat_FORCED = 1)
    ∧ (s.pw.bakFrom = none → Does .rideExpire s (fun t => t = notify s s) ∧ Does .keepdlyExpire s fun t => t = notify s s)
    ∧ ∀ x, s.pw.bakFrom = some x → s.fld F.pwPstat_TRANS = 0 →
      (s.fld F.pwCfg0_RIDE ≠ 0 → s.pw.forcedRun = false → s.pw.forcedHeld = false → s.fld F.pwPstat_STATE < 3 → x + s.fld F.pwCfg0_RIDE * 250000 ≤ s.tick →
        Does .rideExpire s fun t => t.fld F.pwPstat_TRANS = 1 ∧ t.fld F.pwPstat_TO = 3 ∧ t.fld F.pwPstat_FORCED = 1 ∧ t.pw.forcedRun = true ∧ t.eng = s.eng)
      ∧ (s.fld F.pwCfg0_KEEPDLY ≠ 0 → s.fld F.pwPstat_STATE ≠ 4 → s.pw.forcedRun = false → s.pw.forcedHeld = false →
        x + s.fld F.pwCfg0_RIDE * 250000 + s.fld F.pwCfg0_KEEPDLY * 250000000 ≤ s.tick → Does .keepdlyExpire s fun t =>
          t.fld F.pwPstat_TRANS = 1 ∧ t.fld F.pwPstat_TO = 4 ∧ t.fld F.pwPstat_FORCED = 1)

/-- A written power state is refused behind a forced one, held behind a transition, displacing what is held, and else begun; a transition ends
in its state; a wake source that WAKEMASK names ends DOZE, and is latched while DOZE, REST or KEEP is being entered.
Rests on the model's choices of log entry 76.
Completion is stated of: powerStateRequest, powerTransitionComplete, dozeEntryTimeout, wakeEvent, ksecAlarm. -/
def Obligations.PowerStatesFollowRequests : Prop :=
  ∀ (s : State), s.clocksOn = true →
    (∀ (w : Who) (r : Fin 8), s.heard w = true → (s.supervisor w = false → w ≠ .jtag → Does (.powerStateRequest w r) s fun t => t = notify s (finish w { st := s }))
      ∧ (s.supervisor w = true → r.val < 5 →
        (s.pw.forcedRun = true ∨ s.pw.forcedHeld = true → Does (.powerStateRequest w r) s fun t => t = notify s (finish w { st := s.put F.pwPstat_LDISP 3 }))
        ∧ (s.pw.forcedRun = false → s.pw.forcedHeld = false →
          (s.fld F.pwPstat_TRANS ≠ 0 → Does (.powerStateRequest w r) s fun t =>
            t.fld F.pwPstat_LDISP = 1 ∧ t.fld F.pwPstat_HV = 1 ∧ t.fld F.pwPstat_HELD = r
              ∧ (s.fld F.pwPstat_HV ≠ 0 → t.fld F.pwPstat_HDISP = 10 ∧ t.fld F.pwEvt_PREEMPT = 1
                  ∧ t.fld F.pwCnt_PREEMPT = min (s.fld F.pwCnt_PREEMPT + 1) (2 ^ F.pwCnt_PREEMPT.width - 1)))
          ∧ (s.fld F.pwPstat_TRANS = 0 → s.fld F.pwPstat_STATE = r → Does (.powerStateRequest w r) s fun t =>
            t = notify s (finish w { st := s.put F.pwPstat_LDISP 0 }))
          ∧ (s.fld F.pwPstat_TRANS = 0 → s.fld F.pwPstat_STATE ≠ r → Does (.powerStateRequest w r) s fun t =>
            t.fld F.pwPstat_LDISP = 0 ∧ t.fld F.pwPstat_TRANS = 1 ∧ t.fld F.pwPstat_TO = r ∧ t.pw.transFrom = s.tick ∧ t.fld F.pwPstat_STATE = s.fld F.pwPstat_STATE))))
    ∧ (s.fld F.pwPstat_TRANS = 0 → Does .powerTransitionComplete s (fun t => t = notify s s) ∧ Does .dozeEntryTimeout s fun t => t = notify s s)
    ∧ (s.fld F.pwPstat_TRANS ≠ 0 → s.fld F.pwPstat_TO < 2 → s.fld F.pwPstat_STATE < 2 → s.fld F.pwPstat_HV = 0 → s.pw.transFrom + 2500 ≤ s.tick →
        Does .powerTransitionComplete s fun t =>
          t.fld F.pwPstat_STATE = s.fld F.pwPstat_TO ∧ t.fld F.pwPstat_TRANS = 0 ∧ t.fld F.pwEvt_PSDONE = 1 ∧ t.pw.forcedRun = false ∧ t.eng = s.eng)
    ∧ (s.fld F.pwPstat_TRANS ≠ 0 → s.fld F.pwPstat_TO = 3 → s.fld F.pwPstat_HV = 0 → s.pw.latched = 0 → s.pw.transFrom + 50000 ≤ s.tick →
        Does .powerTransitionComplete s fun t => t.boot.phase = .rest ∧ t.fld F.pwPstat_STATE = 3 ∧ t.fld F.pwPstat_TRANS = 0 ∧ t.loft = s.loft ∧ t.eng = [])
    ∧ (s.fld F.pwPstat_TRANS ≠ 0 → s.fld F.pwPstat_TO = 2 → s.fld F.pwPstat_HV = 0 → s.pw.latched = 0 → s.pw.transFrom + 250000 ≤ s.tick →
        Does .dozeEntryTimeout s fun t => t.fld F.pwPstat_STATE = 2 ∧ t.fld F.pwPstat_TRANS = 0 ∧ t.fld F.pwEvt_PSDONE = 1)
    ∧ (∀ k : Fin 6, (s.fld F.pwCfg1_WAKEMASK).testBit k = false → Does (.wakeEvent k) s fun t => t = notify s s)
    ∧ (∀ k : Fin 6, (s.fld F.pwCfg1_WAKEMASK).testBit k = true → (k.val = 5 → s.u0Waits = true) →
        (s.fld F.pwPstat_TRANS ≠ 0 → 2 ≤ s.fld F.pwPstat_TO → Does (.wakeEvent k) s fun t =>
          t = notify s { s with pw := { s.pw with latched := s.pw.latched ||| BitVec.ofNat 6 (2 ^ k.val) } })
        ∧ (s.fld F.pwPstat_TRANS = 0 → s.fld F.pwPstat_STATE < 2 → Does (.wakeEvent k) s fun t => t = notify s s)
        ∧ (s.fld F.pwPstat_TRANS = 0 → s.fld F.pwPstat_STATE = 2 → Does (.wakeEvent k) s fun t =>
          t.fld F.pwPstat_TRANS = 1 ∧ t.fld F.pwPstat_TO = 0 ∧ t.fld F.pwPstat_WCAUSE = 2 ^ k.val ∧ t.fld F.pwEvt_WAKE = 1 ∧ t.eng = s.eng))
    ∧ (s.pw.alarmAt = none → Does .ksecAlarm s fun t => t = notify s s)
    ∧ ∀ x, s.pw.alarmAt = some x → x ≤ s.tick → (s.fld F.pwCfg1_WAKEMASK).testBit 3 = false → Does .ksecAlarm s fun t =>
        t = notify s { s with pw := { s.pw with alarmAt := none } }

/-- A lease is granted where the function's budget and the cap allow, refused for the budget otherwise, and released by its holder or a
supervisor; a request that waits longer than WAITMAX is refused; waiting requests are reconsidered in order.
Rests on the model's choices of log entry 78.
Completion is stated of: leaseRequest, leaseRelease, ostlerWaitTimeout, ostlerReconsider. -/
def Obligations.LeasesAreGrantedWithinBudget : Prop :=
  ∀ (s : State), s.clocksOn = true →
    (∀ (e : Fin 128) (i : Fin 256) (cnt : Fin 16),
      let w := Who.engine e
      let f := s.reqFn w
      let c := s.unitCost 5 * (if cnt.val = 0 then 16 else cnt.val)
      (s.fld F.pwLease_STATE i ≠ 0 → s.fld F.pwLease_FN i = f → Does (.leaseRequest w i cnt) s fun t =>
        t = notify s ((s.bump F.pwOcnt_REFF).put F.pwLease_DISP 5 i))
      ∧ (s.fld F.pwLease_STATE i ≠ 0 → s.fld F.pwLease_FN i ≠ f → Does (.leaseRequest w i cnt) s fun t => t = notify s (faultAt e 5 2 s))
      ∧ (s.fld F.pwLease_STATE i = 0 → s.fnState f = 2 → s.reqInc w = s.inc f → f < 512 →
        (s.fld F.fnBudget_BUDGET f < s.useTokens f + c ∨ s.fld F.pwOctl_CAP < s.fld F.pwOstat_BASE + c → Does (.leaseRequest w i cnt) s fun t =>
          t.fld F.pwLease_DISP i = 3 ∧ t.fld F.pwLease_STATE i = 0 ∧ t.pw.grants = s.pw.grants
            ∧ t.fld F.pwOcnt_REFB = min (s.fld F.pwOcnt_REFB + 1) (2 ^ F.pwOcnt_REFB.width - 1))
        ∧ (s.useTokens f + c ≤ s.fld F.fnBudget_BUDGET f → s.est + c ≤ s.fld F.pwOctl_CAP → s.pw.queue = [] → Does (.leaseRequest w i cnt) s fun t =>
          t.fld F.pwLease_DISP i = 0 ∧ t.fld F.pwLease_STATE i = 2 ∧ t.fld F.pwLease_FN i = f ∧ t.est = s.est + c
            ∧ (t.fld F.eirq_PEND (e.val / 8) (e.val % 8)).testBit 6 = true ∧ t.pw.queue = []
            ∧ t.fld F.pwOcnt_GRANT = min (s.fld F.pwOcnt_GRANT + 1) (2 ^ F.pwOcnt_GRANT.width - 1))))
    ∧ (∀ (w : Who) (i : Fin 256), s.heard w = true → (∀ r, w ≠ .vf r) → w ≠ .jtag →
      (s.fld F.pwLease_STATE i = 0 → Does (.leaseRelease w i) s fun t => t = notify s (finish w { st := s }))
      ∧ (s.fld F.pwLease_STATE i ≠ 0 → s.supervisor w = true ∨ s.fld F.pwLease_FN i = s.reqFn w → Does (.leaseRelease w i) s fun t =>
        t.fld F.pwLease_STATE i = 0 ∧ (∀ r ∈ t.pw.grants ++ t.pw.queue, ∀ g, r.use ≠ .lease i g) ∧ t.eng = s.eng)
      ∧ (s.fld F.pwLease_STATE i ≠ 0 → s.supervisor w = false → s.fld F.pwLease_FN i ≠ s.reqFn w → Does (.leaseRelease w i) s fun t =>
        t = notify s (finish w { disp := 9, st := s })))
    ∧ (∀ id, ((∀ r ∈ s.pw.queue, r.id ≠ id) ∨ s.fld F.pwOctl_WAITMAX = 0) → Does (.ostlerWaitTimeout id) s fun t => t = notify s s)
    ∧ (∀ (r : OReq) (i : Nat) (g : Option Nat), s.pw.queue = [r] → r.hw = false → r.use = .lease i g → s.fld F.pwOctl_WAITMAX ≠ 0 →
        r.t0 + s.fld F.pwOctl_WAITMAX * 250 ≤ s.tick → Does (.ostlerWaitTimeout r.id) s fun t =>
          t = notify s ((({ s with pw := { s.pw with queue := [] } }.bump F.pwOcnt_REFB).put F.pwLease_STATE 0 i).put F.pwLease_DISP 3 i))
    ∧ (s.pw.queue = [] → Does .ostlerReconsider s fun t => t = notify s s)
    ∧ (∀ (r : OReq) (rest : List OReq), s.pw.queue = r :: rest → s.fld F.pwOctl_CAP < s.est + r.cost → Does .ostlerReconsider s fun t =>
        t = notify s { s with pw := { s.pw with queue := { r with byCap := true } :: rest } })
    ∧ ∀ (r : OReq) (i : Nat), s.pw.queue = [r] → r.use = .lease i none → i < 256 → s.est + r.cost ≤ s.fld F.pwOctl_CAP → Does .ostlerReconsider s fun t =>
        t.pw.queue = [] ∧ t.pw.grants = s.pw.grants ++ [r] ∧ t.fld F.pwLease_STATE i = 2 ∧ t.fld F.pwLease_DISP i = 0
          ∧ t.fld F.pwOcnt_GRANT = min (s.fld F.pwOcnt_GRANT + 1) (2 ^ F.pwOcnt_GRANT.width - 1) ∧ t.eng = s.eng

/-- A flash command that is allowed while none runs starts and shows BUSY; its end fills the buffer, or stores it once leave is granted; the
power model, the calibration, the readings and the telemetry are taken as the Farrier brings them.
Rests on the model's choices of log entries 42, 73, 74, 75.
Completion is stated of: flashRead, flashEraseProgram, flashErase, flashCommandComplete, powerModelUpdate, calibration, thermalUpdate,
telemetryRecord, lposcTrim. -/
def Obligations.TheFarrierKeepsThePartUp : Prop :=
  ∀ (s : State), s.clocksOn = true →
    (∀ (w : Who) (sec : Fin 8192) (u : Bool), s.heard w = true → s.supervisor w = true →
      (s.fld F.faFlstat_BUSY ≠ 0 → Does (.flashRead w sec u) s fun t => t = notify s (finish w { st := s.put F.faFlstat_DISP 5 }))
      ∧ (s.fld F.faFlstat_BUSY = 0 → Does (.flashRead w sec u) s fun t =>
        let v : State := { s with boot := { s.boot with flOp := some (1, sec.val) } }
        t = notify s (finish w { st := (v.put F.faFlstat_BUSY 1).put F.faFlstat_DISP 0 }))
      ∧ ∀ (c : Who → Fin 8192 → Bool → Instr) (op : Nat), (c, op) ∈ [(Instr.flashEraseProgram, 2), (Instr.flashErase, 3)] →
        (flashAllowed sec (u && unprotFrom w) = false → Does (c w sec u) s fun t => t = notify s (finish w { st := s.put F.faFlstat_DISP 9 }))
        ∧ (flashAllowed sec (u && unprotFrom w) = true → s.fld F.faFlstat_BUSY = 0 → s.inc 0 = 0 → s.pw.queue = [] →
          s.est + s.unitCost 3 ≤ s.fld F.pwOctl_CAP → Does (c w sec u) s fun t =>
            t.fld F.faFlstat_BUSY = 1 ∧ t.fld F.faFlstat_DISP = 0 ∧ t.boot.flOp = some (op, sec.val) ∧ (t.pw.grants.any (·.use == .flash)) = true
              ∧ t.flash = s.flash ∧ t.eng = s.eng))
    ∧ (s.boot.flOp = none → Does .flashCommandComplete s fun t => t = notify s s)
    ∧ (∀ sec, s.boot.flOp = some (1, sec) → Does .flashCommandComplete s fun t =>
        (∀ i < 512, t.fld F.faFlbuf_DATA i = (s.flashAt (512 * sec + i)).toNat % 2 ^ F.faFlbuf_DATA.width)
          ∧ t.fld F.faFlstat_BUSY = 0 ∧ t.fld F.faFlstat_DONE = 1 ∧ t.flash = s.flash ∧ t.eng = s.eng)
    ∧ (∀ op sec, s.boot.flOp = some (op, sec) → op = 2 ∨ op = 3 →
        ((s.pw.grants.any (·.use == .flash)) = false → Does .flashCommandComplete s fun t => t = notify s s)
        ∧ ((s.pw.grants.any (·.use == .flash)) = true → Does .flashCommandComplete s fun t =>
          (∀ i < 512, t.flashAt (512 * sec + i) = if op = 2 then BitVec.ofNat 64 (s.fld F.faFlbuf_DATA i) else BitVec.allOnes 64)
            ∧ (∀ k, k < 512 * sec ∨ 512 * sec + 512 ≤ k → t.flashAt k = s.flashAt k)
            ∧ t.fld F.faFlstat_BUSY = 0 ∧ t.fld F.faFlstat_DONE = 1 ∧ t.boot.flOp = none ∧ (t.pw.grants.any (·.use == .flash)) = false ∧ t.eng = s.eng))
    ∧ (∀ (base : Fin 4096) (calv : List Nat), Does (.powerModelUpdate base calv) s fun t =>
        t.fld F.pwOstat_BASE = base.val % 2 ^ F.pwOstat_BASE.width ∧ t.fld F.pwOstat_CAL = 1 ∧ t.fld F.faHealth_CALDONE = 1
          ∧ (∀ k < 6, t.fld F.pwOcost_CALV k = calv.getD k 0 % 2 ^ F.pwOcost_CALV.width) ∧ t.pw = s.pw ∧ t.eng = s.eng)
    ∧ (∀ p : Fin 12, s.fld F.faHealth_CALSKIP < 4096 →
        let idle := s.fld F.epStat_LPITX p ≠ 0
          ∨ s.portFree p = true
        (¬idle → Does (.calibration p true) s fun t => t = notify s s)
        ∧ (idle → Does (.calibration p true) s fun t =>
          (t.fld F.faHealth_CALSKIP).testBit p = false ∧ (t.port p).cals = (s.port p).cals + 1
            ∧ ∀ q < 12, q ≠ p.val → (t.fld F.faHealth_CALSKIP).testBit q = (s.fld F.faHealth_CALSKIP).testBit q)
        ∧ Does (.calibration p false) s fun t => (t.fld F.faHealth_CALSKIP).testBit p = true)
    ∧ (∀ (temp : BitVec 12) (v : Fin 4096) (tj freq : List Nat), Does (.thermalUpdate temp v tj freq) s fun t =>
        t.fld F.faHealth_TEMP = temp.toNat ∧ (∀ n < 16,
            let hot := (BitVec.ofNat 12 (tj.getD n temp.toNat)).toInt
            let year := 31557600 * 2 ^ 64
            Tab.get 0 t.boot.ageAcc n = Tab.get 0 s.boot.ageAcc n + 256 * stressF (s.on F.faCfg0_AVSEN) hot
            ∧ (hot ≤ 1000 → Tab.get 0 t.boot.ageAcc n = Tab.get 0 s.boot.ageAcc n + 256 * 2 ^ 64 * (if s.fld F.faCfg0_AVSEN ≠ 0 then 1 else 2))
            ∧ t.fld F.faAge_AGE n = min 65535 (Tab.get 0 t.boot.ageAcc n / year)
            ∧ t.fld F.faAge_FREQ n = freq.getD n 0 % 2 ^ F.faAge_FREQ.width)
          ∧ (1100 < temp.toInt → t.tw.hot = true) ∧ (temp.toInt < 1050 → t.tw.hot = false) ∧ t.eng = s.eng)
    ∧ (∀ vint pin, s.eff F.faCfg0_TELDST (· == 3) = 0 → Does (.telemetryRecord vint pin) s fun t => t = notify s s)
    ∧ (∀ vint pin, s.eff F.faCfg0_TELDST (· == 3) = 1 → Does (.telemetryRecord vint pin) s fun t =>
        t.boot.telN = (s.boot.telN + 1) % 2 ^ 32 ∧ t.boot.telCe = 0 ∧ t.boot.telUe = 0
          ∧ t.fld F.faTelrec_WORD 0 = (s.boot.sdn * 2 ^ 38 + s.boot.telN % 2 ^ 32) % 2 ^ 48 ∧ t.eng = s.eng)
    ∧ Does .lposcTrim s fun t => t = notify s s

/-- A reset of the logic die clears every register but those of R344, ends what runs there and leaves the boot to the PLL's lock; BOOTCAUSE
tells its source; a power-on also samples the straps; over-temperature of the path die turns the part off, and no power-on follows until it has cooled.
Rests on the model's choices of log entries 66, 71.
Completion is stated of: rstNReset, lossOfLock, farrierWatchdogReset, softwareReset, clrtry, powerOnReset, ppdOvertemp, ppdCooled. -/
def Obligations.ResetsLeaveWhatR344Keeps : Prop :=
  ∀ (s : State),
    let kept := fun (src : Nat) (fs : List Fld) (t : State) =>
      t.boot.phase = .pll ∧ t.fld F.gcBootcause_RSTSRC = src ∧ (∀ f ∈ survivors, f ∉ F.gcBootcause_RSTSRC :: fs → ∀ i j, t.fld f i j = s.fld f i j)
        ∧ (∀ f i j, f.id ∉ survivors.map (·.id) → t.fld f i j = f.reset) ∧ t.eng = [] ∧ t.loft = s.loft ∧ t.tick = s.tick
        ∧ (s.boot.flOp = none → t.flash = s.flash)
    (∀ us, us < 10 ∨ s.boot.phase = .off → Does (.rstNReset us) s fun t => t = notify s s)
    ∧ (∀ us, 10 ≤ us → s.boot.phase ≠ .off → Does (.rstNReset us) s (kept 1 []))
    ∧ (s.fld F.ckStat_LOCK = 0 → Does .lossOfLock s fun t => t = notify s s)
    ∧ (s.fld F.ckStat_LOCK ≠ 0 → Does .lossOfLock s fun t => kept 2 [F.ckStat_LOLCNT] t
        ∧ t.fld F.ckStat_LOLCNT = min (s.fld F.ckStat_LOLCNT + 1) (2 ^ F.ckStat_LOLCNT.width - 1))
    ∧ (∀ code : Byte, s.clocksOn = true → Does (.farrierWatchdogReset code) s fun t => kept 3 [F.gcBootcause_CODE, F.gcBootcause_ERR, F.gcBootcause_SECT, F.gcBootcause_DETAIL] t
        ∧ t.fld F.gcBootcause_CODE = 7 ∧ t.fld F.gcBootcause_DETAIL = code.toNat)
    ∧ (∀ (w : Who) (key : Byte) (clr : Bool), s.heard w = true →
      (w ≠ .jtag → notVf w = false ∨ key ≠ 0xA5 → Does (.softwareReset w key clr) s (fun t => t = notify s (finish w { st := s }))
        ∧ Does (.clrtry w key) s fun t => t = notify s (finish w { st := s }))
      ∧ (w ≠ .jtag → notVf w = true → key = 0xA5 → Does (.softwareReset w key clr) s (fun t =>
          kept 5 [F.gcBootcause_TRIES] t ∧ t.fld F.gcBootcause_TRIES = (if clr then 0 else s.fld F.gcBootcause_TRIES))
        ∧ Does (.clrtry w key) s fun t => t = notify s (finish w { st := s.put F.gcBootcause_TRIES 0 })))
    ∧ (∀ st : Straps, s.pw.overtemp = true → Does (.powerOnReset st) s fun t => t = notify s s)
    ∧ (∀ st : Straps, s.pw.overtemp = false → s.boot.phase = .off ∨ s.fld F.pwSrc_ON = 0 → Does (.powerOnReset st) s fun t =>
        t.boot.phase = .pll ∧ t.boot.straps = st ∧ t.fld F.pwSrc_ON = s.bestSource ∧ t.fld F.gcBootcause_RSTSRC = 0 ∧ t.fld F.ckStat_BOOTSRC = st.bootsrc
          ∧ t.fld F.pwSrc_PDPORT = st.pdsel ∧ t.loft = [] ∧ t.eng = [] ∧ t.flash = s.flash
          ∧ (∀ k, t.fld F.gcKeyslot_WRITTEN k = s.fld F.gcKeyslot_WRITTEN k)
          ∧ (s.pw.detected = false → t.fld F.pwSrc_SCLS = if st.pdcls.val = 0 ∨ 4 < st.pdcls.val then 1 else st.pdcls)
          ∧ (∀ f i j, f.id ∉ survivors.map (·.id) → f.id ≠ F.pwEvt_ONBAK.id → t.fld f i j = f.reset))
    ∧ (∀ st : Straps, s.boot.phase ≠ .off → s.fld F.pwSrc_ON ≠ 0 → Does (.powerOnReset st) s fun t => t = notify s s)
    ∧ (Does .ppdOvertemp s fun t => t.boot.phase = .off ∧ t.pw.overtemp = true ∧ t.fld F.pwSrc_ON = 0 ∧ t.eng = [] ∧ t.loft = [])
    ∧ (s.pw.overtemp = false → Does .ppdCooled s fun t => t = notify s s)
    ∧ (s.pw.overtemp = true → Does .ppdCooled s fun t => t = notify s { s with pw := { s.pw with overtemp := false } })

/-- The PLL's lock clears the memories and starts a try: the third failed try in a row ends in Halter mode, a host image is waited for word by
word, and what is not complete in time is a boot failure that BOOTCAUSE names; BOOTCPL stops the watchdog.
Rests on the model's choices of log entries 71, 72.
Completion is stated of: pllLock, pllLockTimeout, pllRetry, hostImageWord, hostImageRestart, bootcauseClear, hostImageTimeout, bootComplete,
bootWatchdogExpire. -/
def Obligations.BootTriesAreCounted : Prop :=
  ∀ (s : State) (w : Who),
    (s.boot.phase ≠ .pll → Does .pllLock s (fun t => t = notify s s) ∧ Does .pllLockTimeout s fun t => t = notify s s)
    ∧ (s.boot.phase = .pll → s.fld F.gcBootcause_RSTSRC ≠ 6 →
      (s.fld F.gcBootcause_TRIES = 3 → Does .pllLock s fun t =>
        t.boot.phase = .halter ∧ t.fld F.gcLaystat_HALTER = 1 ∧ t.fld F.ckStat_LOCK = 1 ∧ t.loft = [] ∧ t.code = [] ∧ t.priv = [] ∧ t.mg = [] ∧ t.tk = 0)
      ∧ (s.fld F.gcBootcause_TRIES < 3 → s.fld F.ckStat_BOOTSRC = 1 ∨ s.fld F.ckStat_BOOTSRC = 2 → Does .pllLock s fun t =>
        t.boot.phase = .hostWait ∧ t.fld F.gcBootcause_TRIES = s.fld F.gcBootcause_TRIES + 1 ∧ t.boot.hostFrom = s.tick ∧ t.loft = [] ∧ t.tk = 0))
    ∧ (s.boot.phase = .pll → s.tkBase + 250000 ≤ s.tick → Does .pllLockTimeout s fun t =>
        t.boot.phase = .retry ∧ t.fld F.gcBootcause_CODE = 8 ∧ t.fld F.gcBootcause_RSTSRC = 4
          ∧ t.fld F.gcBootcause_TRIES = min 3 (s.fld F.gcBootcause_TRIES + 1))
    ∧ (s.boot.phase ≠ .retry → Does .pllRetry s fun t => t = notify s s)
    ∧ (s.boot.phase = .retry → s.tkBase + 2500000 ≤ s.tick → Does .pllRetry s fun t =>
        t = notify s { s with tkBase := s.tick, boot := { s.boot with phase := .pll } })
    ∧ (∀ v : Word, s.heard w = true → w ≠ .jtag →
      (s.boot.phase ≠ .hostWait ∨ s.himgPort w = false → Does (.hostImageWord w v) s fun t => t = notify s (finish w { st := s }))
      ∧ (s.boot.phase = .hostWait → s.himgPort w = true → s.fld F.gcBootctl_HICNT < 5 → Does (.hostImageWord w v) s fun t =>
        let k := s.fld F.gcBootctl_HICNT
        t = notify s (finish w { st := (memWrite (himgPlace k) v s).put F.gcBootctl_HICNT (k + 1) })))
    ∧ (s.heard w = true → notVf w = true → w ≠ .jtag →
      (Does (.hostImageRestart w) s fun t =>
        t = notify s (finish w { st := if s.boot.phase = .hostWait then s.put F.gcBootctl_HICNT 0 else s }))
      ∧ Does (.bootcauseClear w) s fun t =>
        (∀ f ∈ [F.gcBootcause_CODE, F.gcBootcause_ERR, F.gcBootcause_SECT, F.gcBootcause_DETAIL], t.fld f = 0)
          ∧ t.fld F.gcBootcause_RSTSRC = s.fld F.gcBootcause_RSTSRC ∧ t.fld F.gcBootcause_TRIES = s.fld F.gcBootcause_TRIES ∧ t.eng = s.eng)
    ∧ (s.boot.phase ≠ .hostWait → Does .hostImageTimeout s fun t => t = notify s s)
    ∧ (s.boot.phase = .hostWait → s.boot.hostFrom + 2500000000 ≤ s.tick → Does .hostImageTimeout s fun t =>
        t.boot.phase = .pll ∧ t.fld F.gcBootcause_CODE = 5 ∧ t.fld F.gcBootcause_RSTSRC = 4 ∧ t.fld F.gcBootcause_DETAIL = s.fld F.gcBootctl_HICNT % 256)
    ∧ (s.heard w = true → s.supervisor w = true → s.boot.phase = .running → s.applied = true → Does (.bootComplete w) s fun t =>
        t = notify s (finish w { st := { s with boot := { s.boot with wdEnd := none } }.put F.gcBootcause_TRIES 0 }))
    ∧ (s.heard w = true → s.supervisor w = true → s.boot.phase ≠ .running ∨ s.applied = false → Does (.bootComplete w) s fun t =>
        t = notify s (finish w { st := s }))
    ∧ (s.boot.wdEnd = none → Does .bootWatchdogExpire s fun t => t = notify s s)
    ∧ ∀ x, s.boot.wdEnd = some x → x ≤ s.tick → Does .bootWatchdogExpire s fun t =>
        t.boot.phase = .pll ∧ t.fld F.gcBootcause_CODE = 6 ∧ t.fld F.gcBootcause_RSTSRC = 4 ∧ t.eng = []

/-- PCIe functions and vectors, the serial ports and the JTAG port (R359 to R370).
Rests on the model's choices of log entries 53, 79, 80, 84, 87, 89.
Completion is stated of: functionLevelReset, pcieLinkDown, pcieLinkUp, msixUnmask, qspiReadSingle, qspiReadQuadData, qspiReadQuad,
qspiWriteSingle, qspiWriteQuadData, qspiWriteQuad, qspiStatus, i2cWrite, i2cRead, jtagBypass, jtagIdcode, jtagExtest, jtagSamplePreload,
dbgacc. -/
def Obligations.HostPortsAnswer : Prop :=
  Stated.PcieFunctionsAndVectors ∧ Stated.SerialPortsReadAndWrite ∧ Stated.JtagInstructions

/-- While the logic die has no power no ball of it is driven or pulled; in reset and before a layout the PIO pins are pulled down and nothing is
driven; Halter mode drives P0 and P1 alone; under a layout CAN TXD carries what modes 1 and 3 send and is recessive in the others. A loss of lock
brings the reset column, and so does RST_N.
Rests on the model's choices of log entries 90, 108, 109.
Completion is stated of: lossOfLock, rstNReset. -/
def Obligations.BallsFollowTheColumn : Prop :=
  let silent := fun (s : State) => (∀ p < 64, (s.pinOut p).1 = false) ∧ (∀ n < 4, s.canTxd n = .undriven) ∧ s.twinOn = false ∧ s.paddockOn = false
  (∀ s : State,
    (s.boot.phase ∈ [.off, .rest, .keep] → silent s ∧ (∀ p, s.pioPull p = .none ∧ s.phyOn p = false) ∧ s.clkOut = .undriven)
    ∧ (s.boot.phase ∈ [.pll, .retry] ∨ (s.boot.phase ∈ [.hostWait, .running] ∧ s.applied = false) →
        silent s ∧ (∀ p, s.pioPull p = .down ∧ s.phyOn p = false) ∧ s.clkOut = .low)
    ∧ (s.boot.phase = .halter → silent s ∧ ∀ p, s.pioPull p = .down ∧ s.phyOn p = decide (p < 2))
    ∧ (s.boot.phase = .running → s.applied = true → ∀ n,
        (s.canMode n = 1 ∨ s.canMode n = 3 → s.canTxd n = .driven) ∧ (s.canMode n ≠ 1 → s.canMode n ≠ 3 → s.canTxd n = .recessive)))
  ∧ ∀ s : State,
    (s.fld F.ckStat_LOCK ≠ 0 → Does .lossOfLock s fun t => t.column = .reset ∧ silent t)
    ∧ ∀ us, 10 ≤ us → s.boot.phase ≠ .off → Does (.rstNReset us) s fun t => t.column = .reset ∧ silent t

/-- On every read the syndrome, the stored check byte XOR the check byte of the stored data (the columns of its ones, column i the i-th smallest
value of eight bits with three set), decides: 0 uses the data as stored; 0xFF, the poison mark, is uncorrectable, with MEMLOG.POIS 1; one bit set is
a check bit in error, the data as stored; column i has data bit i inverted; any other value is uncorrectable. The corrected are counted in CE and
the uncorrectable in UE, and no read writes anything back. -/
def Obligations.ReadsFollowTheSyndrome : Prop :=
  ∀ (s : State) (a : SramWord),
    let three := (List.range 256).filter fun v => ((List.range 8).filter v.testBit).length == 3
    let d := (s.raw a).extractLsb' 0 48
    let own := (List.range 48).foldl (fun c i => if d.getLsbD i then c ^^^ three.getD i 0 else c) 0
    let syn := ((s.raw a).extractLsb' 48 8).toNat ^^^ own
    let r := (memRead a s).1
    let t := (memRead a s).2
    let up := fun (f : Fld) (i : Nat) => t.fld f i = min (s.fld f i + 1) (max (s.fld f i) (2 ^ f.width - 1))
    let counted := fun (stable : Fld) (mg mb : Fld) =>
      (∀ n c e k, memPlace a = some (n, c, e, k) → up stable n) ∧ (∀ k, a = .mg k → up mg 0) ∧ ∀ m sd k, a = .mbq m sd k → up mb 0
    let corrected := fun (v : Word) => r = .ce v ∧ counted F.stMemerr_CE F.mgMemerr_CE F.mbMemerr_CE
    let lost := r = .ue d (BitVec.ofNat 8 syn) ∧ counted F.stMemerr_UE F.mgMemerr_UE F.mbMemerr_UE
      ∧ ∀ n c e k, memPlace a = some (n, c, e, k) → t.fld F.stMemlog_POIS n = if syn = 0xFF then 1 else 0
    (syn = 0 → r = .ok d ∧ t = s) ∧ (syn = 0xFF → lost)
      ∧ (∀ i < 8, syn = 2 ^ i → corrected d)
      ∧ (∀ i < 48, syn = three.getD i 0 → corrected (d ^^^ BitVec.twoPow 48 i))
      ∧ (syn ≠ 0 → (∀ i < 8, syn ≠ 2 ^ i) → (∀ i < 48, syn ≠ three.getD i 0) → lost)
      ∧ ∀ b, t.raw b = s.raw b

end
end

