-- ==== Sys2Proof/Laws/Tab.lean ====
section
/-! SUPPORT. The sparse tables of State: reading after writing, and the canonical form that writing keeps. -/

namespace Sys2Proof.Tab
variable {α : Type}

/-- An absent key reads as the default. -/
theorem get_del_same (d : α) (t : Tab α) (n : Nat) : get d (del t n) n = d := by
  induction t with
  | nil => rfl
  | cons p t ih =>
    by_cases h : p.1 = n
    · simpa [del, List.filter, h] using ih
    · simpa [del, List.filter, h, get] using ih

theorem get_del_ne (d : α) (t : Tab α) (n m : Nat) (h : m ≠ n) : get d (del t n) m = get d t m := by
  induction t with
  | nil => rfl
  | cons p t ih =>
    obtain ⟨k, v⟩ := p
    by_cases hk : k = n
    · simpa [del, List.filter, hk, get, Ne.symm h] using ih
    · by_cases hm : k = m
      · simp [del, List.filter, hk, get, hm, h]
      · simpa [del, List.filter, hk, get, hm] using ih

theorem get_ins_same (d : α) (t : Tab α) (n : Nat) (v : α) (h : ∀ e ∈ t, e.1 ≠ n) : get d (ins t n v) n = v := by
  induction t with
  | nil => simp [ins, get]
  | cons p t ih =>
    obtain ⟨k, u⟩ := p
    have hk : k ≠ n := h (k, u) (by simp)
    simp only [ins]
    split
    · simp [get]
    · simpa [get, hk] using ih fun e he => h e (by simp [he])

theorem get_ins_ne (d : α) (t : Tab α) (n m : Nat) (v : α) (h : m ≠ n) : get d (ins t n v) m = get d t m := by
  induction t with
  | nil => simp [ins, get, Ne.symm h]
  | cons p t ih =>
    obtain ⟨k, u⟩ := p
    simp only [ins]
    split
    · simp [get, Ne.symm h]
    · by_cases hk : k = m <;> simp [get, hk, ih]

theorem mem_del {t : Tab α} {n : Nat} {e : Nat × α} : e ∈ del t n ↔ e ∈ t ∧ e.1 ≠ n := by
  simp [del, List.mem_filter]

/-- A key reads as what was written. -/
theorem get_set_same [DecidableEq α] (d : α) (t : Tab α) (n : Nat) (v : α) : get d (set d t n v) n = v := by
  unfold set
  split
  · rename_i h
    rw [get_del_same, h]
  · exact get_ins_same _ _ _ _ fun e he => (mem_del.1 he).2

/-- Other keys keep what they read as, whatever default they have. -/
theorem get_set_ne [DecidableEq α] (d c : α) (t : Tab α) (n m : Nat) (v : α) (h : m ≠ n) :
    get c (set d t n v) m = get c t m := by
  unfold set
  split
  · exact get_del_ne _ _ _ _ h
  · rw [get_ins_ne _ _ _ _ _ h, get_del_ne _ _ _ _ h]

/-- The last of two writes of a key is the one that counts. -/
theorem set_set [DecidableEq α] (d : α) (t : Tab α) (n : Nat) (u v : α) : set d (set d t n u) n v = set d t n v := by
  have hi : ∀ t : Tab α, del (ins t n u) n = del t n := by
    intro t
    induction t with
    | nil => simp [ins, del]
    | cons p t ih =>
      obtain ⟨k, w⟩ := p
      simp only [ins]
      split
      · simp [del, List.filter]
      · by_cases hk : k = n
        · simpa [del, List.filter, hk] using ih
        · simpa [del, List.filter, hk] using ih
  have hd : del (set d t n u) n = del t n := by
    unfold set
    split
    · simp [del]
    · rw [hi]
      simp [del]
  unfold set at hd ⊢
  rw [hd]

/-! ### The canonical form -/

theorem wf_cons [DecidableEq α] (d : α) (k : Nat) (v : α) (t : Tab α) :
    wf d ((k, v) :: t) = true ↔ v ≠ d ∧ (∀ e ∈ t, k < e.1) ∧ wf d t = true := by
  simp [wf, and_assoc]

/-- Taking entries out keeps the form. -/
theorem wf_filter [DecidableEq α] (d : α) (t : Tab α) (p : Nat × α → Bool) (h : wf d t = true) :
    wf d (t.filter p) = true := by
  induction t with
  | nil => rfl
  | cons e t ih =>
    obtain ⟨k, v⟩ := e
    obtain ⟨hv, hk, ht⟩ := (wf_cons d k v t).1 h
    by_cases hp : p (k, v)
    · simp only [List.filter, hp]
      exact (wf_cons d k v _).2 ⟨hv, fun e he => hk e (List.mem_filter.1 he).1, ih ht⟩
    · simpa [List.filter, hp] using ih ht

theorem mem_ins {t : Tab α} {n : Nat} {v : α} {e : Nat × α} (h : e ∈ ins t n v) : e = (n, v) ∨ e ∈ t := by
  induction t with
  | nil => simpa [ins] using h
  | cons p t ih =>
    obtain ⟨k, u⟩ := p
    simp only [ins] at h
    split at h
    · simpa using h
    · rcases List.mem_cons.1 h with h | h
      · simp [h]
      · rcases ih h with h | h <;> simp [h]

/-- An entry put in at an absent key keeps the form. -/
theorem wf_ins [DecidableEq α] (d : α) (t : Tab α) (n : Nat) (v : α) (hv : v ≠ d) (hn : ∀ e ∈ t, e.1 ≠ n)
    (h : wf d t = true) : wf d (ins t n v) = true := by
  induction t with
  | nil => simp [ins, wf, hv]
  | cons p t ih =>
    obtain ⟨k, u⟩ := p
    obtain ⟨hu, hk, ht⟩ := (wf_cons d k u t).1 h
    have hne : k ≠ n := hn (k, u) (by simp)
    simp only [ins]
    split
    · rename_i hlt
      refine (wf_cons d n v _).2 ⟨hv, fun e he => ?_, h⟩
      rcases List.mem_cons.1 he with he | he
      · simpa [he] using hlt
      · exact Nat.lt_trans hlt (hk e he)
    · rename_i hlt
      refine (wf_cons d k u _).2 ⟨hu, fun e he => ?_, ih (fun e he => hn e (by simp [he])) ht⟩
      rcases mem_ins he with he | he
      · subst he
        show k < n
        omega
      · exact hk e he

/-- A write keeps the canonical form. -/
theorem wf_set [DecidableEq α] (d : α) (t : Tab α) (n : Nat) (v : α) (h : wf d t = true) : wf d (set d t n v) = true := by
  unfold set
  split
  · exact wf_filter _ _ _ h
  · exact wf_ins _ _ _ _ ‹_› (fun e he => (mem_del.1 he).2) (wf_filter _ _ _ h)

end Sys2Proof.Tab
end

