-- ==== Sys2Proof/Laws/State.lean ====
section
/-! SUPPORT. What each named update of State leaves as it was: one lemma per field and update, and per accessor. -/

namespace Sys2Proof.Machine

@[simp] theorem State.put_pending (s : State) (f : Fld) (v i j : Nat) : (s.put f v i j).pending = s.pending := rfl
@[simp] theorem State.put_tick (s : State) (f : Fld) (v i j : Nat) : (s.put f v i j).tick = s.tick := rfl
@[simp] theorem State.put_tkBase (s : State) (f : Fld) (v i j : Nat) : (s.put f v i j).tkBase = s.tkBase := rfl
@[simp] theorem State.put_period (s : State) (f : Fld) (v i j : Nat) : (s.put f v i j).period = s.period := rfl
@[simp] theorem State.put_fresh (s : State) (f : Fld) (v i j : Nat) : (s.put f v i j).fresh = s.fresh := rfl
@[simp] theorem State.put_shd (s : State) (f : Fld) (v i j : Nat) : (s.put f v i j).shd = s.shd := rfl
@[simp] theorem State.put_cap (s : State) (f : Fld) (v i j : Nat) : (s.put f v i j).cap = s.cap := rfl
@[simp] theorem State.put_lay (s : State) (f : Fld) (v i j : Nat) : (s.put f v i j).lay = s.lay := rfl
@[simp] theorem State.put_heldGo (s : State) (f : Fld) (v i j : Nat) : (s.put f v i j).heldGo = s.heldGo := rfl
@[simp] theorem State.put_loft (s : State) (f : Fld) (v i j : Nat) : (s.put f v i j).loft = s.loft := rfl
@[simp] theorem State.put_code (s : State) (f : Fld) (v i j : Nat) : (s.put f v i j).code = s.code := rfl
@[simp] theorem State.put_priv (s : State) (f : Fld) (v i j : Nat) : (s.put f v i j).priv = s.priv := rfl
@[simp] theorem State.put_mg (s : State) (f : Fld) (v i j : Nat) : (s.put f v i j).mg = s.mg := rfl
@[simp] theorem State.put_stage (s : State) (f : Fld) (v i j : Nat) : (s.put f v i j).stage = s.stage := rfl
@[simp] theorem State.put_scrub (s : State) (f : Fld) (v i j : Nat) : (s.put f v i j).scrub = s.scrub := rfl
@[simp] theorem State.put_lost (s : State) (f : Fld) (v i j : Nat) : (s.put f v i j).lost = s.lost := rfl
@[simp] theorem State.put_flash (s : State) (f : Fld) (v i j : Nat) : (s.put f v i j).flash = s.flash := rfl
@[simp] theorem State.put_eng (s : State) (f : Fld) (v i j : Nat) : (s.put f v i j).eng = s.eng := rfl
@[simp] theorem State.put_stb (s : State) (f : Fld) (v i j : Nat) : (s.put f v i j).stb = s.stb := rfl
@[simp] theorem State.put_fns (s : State) (f : Fld) (v i j : Nat) : (s.put f v i j).fns = s.fns := rfl
@[simp] theorem State.put_pairs (s : State) (f : Fld) (v i j : Nat) : (s.put f v i j).pairs = s.pairs := rfl
@[simp] theorem State.put_ic (s : State) (f : Fld) (v i j : Nat) : (s.put f v i j).ic = s.ic := rfl
@[simp] theorem State.put_rgn (s : State) (f : Fld) (v i j : Nat) : (s.put f v i j).rgn = s.rgn := rfl
@[simp] theorem State.put_lastInst (s : State) (f : Fld) (v i j : Nat) : (s.put f v i j).lastInst = s.lastInst := rfl
@[simp] theorem State.put_seenInst (s : State) (f : Fld) (v i j : Nat) : (s.put f v i j).seenInst = s.seenInst := rfl
@[simp] theorem State.put_jumpDue (s : State) (f : Fld) (v i j : Nat) : (s.put f v i j).jumpDue = s.jumpDue := rfl
@[simp] theorem State.put_ports (s : State) (f : Fld) (v i j : Nat) : (s.put f v i j).ports = s.ports := rfl
@[simp] theorem State.put_dirs (s : State) (f : Fld) (v i j : Nat) : (s.put f v i j).dirs = s.dirs := rfl
@[simp] theorem State.put_yard (s : State) (f : Fld) (v i j : Nat) : (s.put f v i j).yard = s.yard := rfl
@[simp] theorem State.put_tc (s : State) (f : Fld) (v i j : Nat) : (s.put f v i j).tc = s.tc := rfl
@[simp] theorem State.put_steps (s : State) (f : Fld) (v i j : Nat) : (s.put f v i j).steps = s.steps := rfl
@[simp] theorem State.put_steppedAt (s : State) (f : Fld) (v i j : Nat) : (s.put f v i j).steppedAt = s.steppedAt := rfl
@[simp] theorem State.put_sv (s : State) (f : Fld) (v i j : Nat) : (s.put f v i j).sv = s.sv := rfl
@[simp] theorem State.put_refs (s : State) (f : Fld) (v i j : Nat) : (s.put f v i j).refs = s.refs := rfl
@[simp] theorem State.put_pg (s : State) (f : Fld) (v i j : Nat) : (s.put f v i j).pg = s.pg := rfl
@[simp] theorem State.put_pd (s : State) (f : Fld) (v i j : Nat) : (s.put f v i j).pd = s.pd := rfl
@[simp] theorem State.put_can (s : State) (f : Fld) (v i j : Nat) : (s.put f v i j).can = s.can := rfl
@[simp] theorem State.put_pm (s : State) (f : Fld) (v i j : Nat) : (s.put f v i j).pm = s.pm := rfl
@[simp] theorem State.put_pins (s : State) (f : Fld) (v i j : Nat) : (s.put f v i j).pins = s.pins := rfl
@[simp] theorem State.put_pinPast (s : State) (f : Fld) (v i j : Nat) : (s.put f v i j).pinPast = s.pinPast := rfl
@[simp] theorem State.put_flagAt (s : State) (f : Fld) (v i j : Nat) : (s.put f v i j).flagAt = s.flagAt := rfl
@[simp] theorem State.put_tw (s : State) (f : Fld) (v i j : Nat) : (s.put f v i j).tw = s.tw := rfl
@[simp] theorem State.put_pw (s : State) (f : Fld) (v i j : Nat) : (s.put f v i j).pw = s.pw := rfl
@[simp] theorem State.put_boot (s : State) (f : Fld) (v i j : Nat) : (s.put f v i j).boot = s.boot := rfl
@[simp] theorem State.put_host (s : State) (f : Fld) (v i j : Nat) : (s.put f v i j).host = s.host := rfl
@[simp] theorem State.put_out (s : State) (f : Fld) (v i j : Nat) : (s.put f v i j).out = s.out := rfl
@[simp] theorem State.put_shadow_get (s : State) (f : Fld) (v i j : Nat) (g : Fld) (a b : Nat) : (s.put f v i j).shadow g a b = s.shadow g a b := rfl
@[simp] theorem State.put_e_get (s : State) (f : Fld) (v i j : Nat) (a : Nat) : (s.put f v i j).e a = s.e a := rfl
@[simp] theorem State.put_st_get (s : State) (f : Fld) (v i j : Nat) (a : Nat) : (s.put f v i j).st a = s.st a := rfl
@[simp] theorem State.put_fn_get (s : State) (f : Fld) (v i j : Nat) (a : Nat) : (s.put f v i j).fn a = s.fn a := rfl
@[simp] theorem State.put_pair_get (s : State) (f : Fld) (v i j : Nat) (a : Nat) : (s.put f v i j).pair a = s.pair a := rfl
@[simp] theorem State.put_icT_get (s : State) (f : Fld) (v i j : Nat) (a : Nat) : (s.put f v i j).icT a = s.icT a := rfl
@[simp] theorem State.put_rg_get (s : State) (f : Fld) (v i j : Nat) (a : Nat) : (s.put f v i j).rg a = s.rg a := rfl
@[simp] theorem State.put_port_get (s : State) (f : Fld) (v i j : Nat) (a : Nat) : (s.put f v i j).port a = s.port a := rfl
@[simp] theorem State.put_dir_get (s : State) (f : Fld) (v i j : Nat) (a b : Nat) : (s.put f v i j).dir a b = s.dir a b := rfl
@[simp] theorem State.put_ctr_get (s : State) (f : Fld) (v i j : Nat) (a : Nat) : (s.put f v i j).ctr a = s.ctr a := rfl
@[simp] theorem State.put_servo_get (s : State) (f : Fld) (v i j : Nat) (a : Nat) : (s.put f v i j).servo a = s.servo a := rfl
@[simp] theorem State.put_pulse_get (s : State) (f : Fld) (v i j : Nat) (a : Nat) : (s.put f v i j).pulse a = s.pulse a := rfl
@[simp] theorem State.put_cn_get (s : State) (f : Fld) (v i j : Nat) (a : Nat) : (s.put f v i j).cn a = s.cn a := rfl
@[simp] theorem State.put_mach_get (s : State) (f : Fld) (v i j : Nat) (a b : Nat) : (s.put f v i j).mach a b = s.mach a b := rfl
@[simp] theorem State.put_pin_get (s : State) (f : Fld) (v i j : Nat) (a : Nat) : (s.put f v i j).pin a = s.pin a := rfl
@[simp] theorem State.put_clocksOn_get (s : State) (f : Fld) (v i j : Nat)  : (s.put f v i j).clocksOn = s.clocksOn := rfl
@[simp] theorem State.put_awake_get (s : State) (f : Fld) (v i j : Nat) (a : Nat) : (s.put f v i j).awake a = s.awake a := rfl
@[simp] theorem State.put_tk_get (s : State) (f : Fld) (v i j : Nat)  : (s.put f v i j).tk = s.tk := rfl
@[simp] theorem State.put_flashAt_get (s : State) (f : Fld) (v i j : Nat) (a : Nat) : (s.put f v i j).flashAt a = s.flashAt a := rfl

@[simp] theorem State.putInt_pending (s : State) (f : Fld) (v : Int) (i j : Nat) : (s.putInt f v i j).pending = s.pending := rfl
@[simp] theorem State.putInt_tick (s : State) (f : Fld) (v : Int) (i j : Nat) : (s.putInt f v i j).tick = s.tick := rfl
@[simp] theorem State.putInt_tkBase (s : State) (f : Fld) (v : Int) (i j : Nat) : (s.putInt f v i j).tkBase = s.tkBase := rfl
@[simp] theorem State.putInt_period (s : State) (f : Fld) (v : Int) (i j : Nat) : (s.putInt f v i j).period = s.period := rfl
@[simp] theorem State.putInt_fresh (s : State) (f : Fld) (v : Int) (i j : Nat) : (s.putInt f v i j).fresh = s.fresh := rfl
@[simp] theorem State.putInt_shd (s : State) (f : Fld) (v : Int) (i j : Nat) : (s.putInt f v i j).shd = s.shd := rfl
@[simp] theorem State.putInt_cap (s : State) (f : Fld) (v : Int) (i j : Nat) : (s.putInt f v i j).cap = s.cap := rfl
@[simp] theorem State.putInt_lay (s : State) (f : Fld) (v : Int) (i j : Nat) : (s.putInt f v i j).lay = s.lay := rfl
@[simp] theorem State.putInt_heldGo (s : State) (f : Fld) (v : Int) (i j : Nat) : (s.putInt f v i j).heldGo = s.heldGo := rfl
@[simp] theorem State.putInt_loft (s : State) (f : Fld) (v : Int) (i j : Nat) : (s.putInt f v i j).loft = s.loft := rfl
@[simp] theorem State.putInt_code (s : State) (f : Fld) (v : Int) (i j : Nat) : (s.putInt f v i j).code = s.code := rfl
@[simp] theorem State.putInt_priv (s : State) (f : Fld) (v : Int) (i j : Nat) : (s.putInt f v i j).priv = s.priv := rfl
@[simp] theorem State.putInt_mg (s : State) (f : Fld) (v : Int) (i j : Nat) : (s.putInt f v i j).mg = s.mg := rfl
@[simp] theorem State.putInt_stage (s : State) (f : Fld) (v : Int) (i j : Nat) : (s.putInt f v i j).stage = s.stage := rfl
@[simp] theorem State.putInt_scrub (s : State) (f : Fld) (v : Int) (i j : Nat) : (s.putInt f v i j).scrub = s.scrub := rfl
@[simp] theorem State.putInt_lost (s : State) (f : Fld) (v : Int) (i j : Nat) : (s.putInt f v i j).lost = s.lost := rfl
@[simp] theorem State.putInt_flash (s : State) (f : Fld) (v : Int) (i j : Nat) : (s.putInt f v i j).flash = s.flash := rfl
@[simp] theorem State.putInt_eng (s : State) (f : Fld) (v : Int) (i j : Nat) : (s.putInt f v i j).eng = s.eng := rfl
@[simp] theorem State.putInt_stb (s : State) (f : Fld) (v : Int) (i j : Nat) : (s.putInt f v i j).stb = s.stb := rfl
@[simp] theorem State.putInt_fns (s : State) (f : Fld) (v : Int) (i j : Nat) : (s.putInt f v i j).fns = s.fns := rfl
@[simp] theorem State.putInt_pairs (s : State) (f : Fld) (v : Int) (i j : Nat) : (s.putInt f v i j).pairs = s.pairs := rfl
@[simp] theorem State.putInt_ic (s : State) (f : Fld) (v : Int) (i j : Nat) : (s.putInt f v i j).ic = s.ic := rfl
@[simp] theorem State.putInt_rgn (s : State) (f : Fld) (v : Int) (i j : Nat) : (s.putInt f v i j).rgn = s.rgn := rfl
@[simp] theorem State.putInt_lastInst (s : State) (f : Fld) (v : Int) (i j : Nat) : (s.putInt f v i j).lastInst = s.lastInst := rfl
@[simp] theorem State.putInt_seenInst (s : State) (f : Fld) (v : Int) (i j : Nat) : (s.putInt f v i j).seenInst = s.seenInst := rfl
@[simp] theorem State.putInt_jumpDue (s : State) (f : Fld) (v : Int) (i j : Nat) : (s.putInt f v i j).jumpDue = s.jumpDue := rfl
@[simp] theorem State.putInt_ports (s : State) (f : Fld) (v : Int) (i j : Nat) : (s.putInt f v i j).ports = s.ports := rfl
@[simp] theorem State.putInt_dirs (s : State) (f : Fld) (v : Int) (i j : Nat) : (s.putInt f v i j).dirs = s.dirs := rfl
@[simp] theorem State.putInt_yard (s : State) (f : Fld) (v : Int) (i j : Nat) : (s.putInt f v i j).yard = s.yard := rfl
@[simp] theorem State.putInt_tc (s : State) (f : Fld) (v : Int) (i j : Nat) : (s.putInt f v i j).tc = s.tc := rfl
@[simp] theorem State.putInt_steps (s : State) (f : Fld) (v : Int) (i j : Nat) : (s.putInt f v i j).steps = s.steps := rfl
@[simp] theorem State.putInt_steppedAt (s : State) (f : Fld) (v : Int) (i j : Nat) : (s.putInt f v i j).steppedAt = s.steppedAt := rfl
@[simp] theorem State.putInt_sv (s : State) (f : Fld) (v : Int) (i j : Nat) : (s.putInt f v i j).sv = s.sv := rfl
@[simp] theorem State.putInt_refs (s : State) (f : Fld) (v : Int) (i j : Nat) : (s.putInt f v i j).refs = s.refs := rfl
@[simp] theorem State.putInt_pg (s : State) (f : Fld) (v : Int) (i j : Nat) : (s.putInt f v i j).pg = s.pg := rfl
@[simp] theorem State.putInt_pd (s : State) (f : Fld) (v : Int) (i j : Nat) : (s.putInt f v i j).pd = s.pd := rfl
@[simp] theorem State.putInt_can (s : State) (f : Fld) (v : Int) (i j : Nat) : (s.putInt f v i j).can = s.can := rfl
@[simp] theorem State.putInt_pm (s : State) (f : Fld) (v : Int) (i j : Nat) : (s.putInt f v i j).pm = s.pm := rfl
@[simp] theorem State.putInt_pins (s : State) (f : Fld) (v : Int) (i j : Nat) : (s.putInt f v i j).pins = s.pins := rfl
@[simp] theorem State.putInt_pinPast (s : State) (f : Fld) (v : Int) (i j : Nat) : (s.putInt f v i j).pinPast = s.pinPast := rfl
@[simp] theorem State.putInt_flagAt (s : State) (f : Fld) (v : Int) (i j : Nat) : (s.putInt f v i j).flagAt = s.flagAt := rfl
@[simp] theorem State.putInt_tw (s : State) (f : Fld) (v : Int) (i j : Nat) : (s.putInt f v i j).tw = s.tw := rfl
@[simp] theorem State.putInt_pw (s : State) (f : Fld) (v : Int) (i j : Nat) : (s.putInt f v i j).pw = s.pw := rfl
@[simp] theorem State.putInt_boot (s : State) (f : Fld) (v : Int) (i j : Nat) : (s.putInt f v i j).boot = s.boot := rfl
@[simp] theorem State.putInt_host (s : State) (f : Fld) (v : Int) (i j : Nat) : (s.putInt f v i j).host = s.host := rfl
@[simp] theorem State.putInt_out (s : State) (f : Fld) (v : Int) (i j : Nat) : (s.putInt f v i j).out = s.out := rfl
@[simp] theorem State.putInt_shadow_get (s : State) (f : Fld) (v : Int) (i j : Nat) (g : Fld) (a b : Nat) : (s.putInt f v i j).shadow g a b = s.shadow g a b := rfl
@[simp] theorem State.putInt_e_get (s : State) (f : Fld) (v : Int) (i j : Nat) (a : Nat) : (s.putInt f v i j).e a = s.e a := rfl
@[simp] theorem State.putInt_st_get (s : State) (f : Fld) (v : Int) (i j : Nat) (a : Nat) : (s.putInt f v i j).st a = s.st a := rfl
@[simp] theorem State.putInt_fn_get (s : State) (f : Fld) (v : Int) (i j : Nat) (a : Nat) : (s.putInt f v i j).fn a = s.fn a := rfl
@[simp] theorem State.putInt_pair_get (s : State) (f : Fld) (v : Int) (i j : Nat) (a : Nat) : (s.putInt f v i j).pair a = s.pair a := rfl
@[simp] theorem State.putInt_icT_get (s : State) (f : Fld) (v : Int) (i j : Nat) (a : Nat) : (s.putInt f v i j).icT a = s.icT a := rfl
@[simp] theorem State.putInt_rg_get (s : State) (f : Fld) (v : Int) (i j : Nat) (a : Nat) : (s.putInt f v i j).rg a = s.rg a := rfl
@[simp] theorem State.putInt_port_get (s : State) (f : Fld) (v : Int) (i j : Nat) (a : Nat) : (s.putInt f v i j).port a = s.port a := rfl
@[simp] theorem State.putInt_dir_get (s : State) (f : Fld) (v : Int) (i j : Nat) (a b : Nat) : (s.putInt f v i j).dir a b = s.dir a b := rfl
@[simp] theorem State.putInt_ctr_get (s : State) (f : Fld) (v : Int) (i j : Nat) (a : Nat) : (s.putInt f v i j).ctr a = s.ctr a := rfl
@[simp] theorem State.putInt_servo_get (s : State) (f : Fld) (v : Int) (i j : Nat) (a : Nat) : (s.putInt f v i j).servo a = s.servo a := rfl
@[simp] theorem State.putInt_pulse_get (s : State) (f : Fld) (v : Int) (i j : Nat) (a : Nat) : (s.putInt f v i j).pulse a = s.pulse a := rfl
@[simp] theorem State.putInt_cn_get (s : State) (f : Fld) (v : Int) (i j : Nat) (a : Nat) : (s.putInt f v i j).cn a = s.cn a := rfl
@[simp] theorem State.putInt_mach_get (s : State) (f : Fld) (v : Int) (i j : Nat) (a b : Nat) : (s.putInt f v i j).mach a b = s.mach a b := rfl
@[simp] theorem State.putInt_pin_get (s : State) (f : Fld) (v : Int) (i j : Nat) (a : Nat) : (s.putInt f v i j).pin a = s.pin a := rfl
@[simp] theorem State.putInt_clocksOn_get (s : State) (f : Fld) (v : Int) (i j : Nat)  : (s.putInt f v i j).clocksOn = s.clocksOn := rfl
@[simp] theorem State.putInt_awake_get (s : State) (f : Fld) (v : Int) (i j : Nat) (a : Nat) : (s.putInt f v i j).awake a = s.awake a := rfl
@[simp] theorem State.putInt_tk_get (s : State) (f : Fld) (v : Int) (i j : Nat)  : (s.putInt f v i j).tk = s.tk := rfl
@[simp] theorem State.putInt_flashAt_get (s : State) (f : Fld) (v : Int) (i j : Nat) (a : Nat) : (s.putInt f v i j).flashAt a = s.flashAt a := rfl

@[simp] theorem State.bump_pending (s : State) (f : Fld) (i j n : Nat) : (s.bump f i j n).pending = s.pending := rfl
@[simp] theorem State.bump_tick (s : State) (f : Fld) (i j n : Nat) : (s.bump f i j n).tick = s.tick := rfl
@[simp] theorem State.bump_tkBase (s : State) (f : Fld) (i j n : Nat) : (s.bump f i j n).tkBase = s.tkBase := rfl
@[simp] theorem State.bump_period (s : State) (f : Fld) (i j n : Nat) : (s.bump f i j n).period = s.period := rfl
@[simp] theorem State.bump_fresh (s : State) (f : Fld) (i j n : Nat) : (s.bump f i j n).fresh = s.fresh := rfl
@[simp] theorem State.bump_shd (s : State) (f : Fld) (i j n : Nat) : (s.bump f i j n).shd = s.shd := rfl
@[simp] theorem State.bump_cap (s : State) (f : Fld) (i j n : Nat) : (s.bump f i j n).cap = s.cap := rfl
@[simp] theorem State.bump_lay (s : State) (f : Fld) (i j n : Nat) : (s.bump f i j n).lay = s.lay := rfl
@[simp] theorem State.bump_heldGo (s : State) (f : Fld) (i j n : Nat) : (s.bump f i j n).heldGo = s.heldGo := rfl
@[simp] theorem State.bump_loft (s : State) (f : Fld) (i j n : Nat) : (s.bump f i j n).loft = s.loft := rfl
@[simp] theorem State.bump_code (s : State) (f : Fld) (i j n : Nat) : (s.bump f i j n).code = s.code := rfl
@[simp] theorem State.bump_priv (s : State) (f : Fld) (i j n : Nat) : (s.bump f i j n).priv = s.priv := rfl
@[simp] theorem State.bump_mg (s : State) (f : Fld) (i j n : Nat) : (s.bump f i j n).mg = s.mg := rfl
@[simp] theorem State.bump_stage (s : State) (f : Fld) (i j n : Nat) : (s.bump f i j n).stage = s.stage := rfl
@[simp] theorem State.bump_scrub (s : State) (f : Fld) (i j n : Nat) : (s.bump f i j n).scrub = s.scrub := rfl
@[simp] theorem State.bump_lost (s : State) (f : Fld) (i j n : Nat) : (s.bump f i j n).lost = s.lost := rfl
@[simp] theorem State.bump_flash (s : State) (f : Fld) (i j n : Nat) : (s.bump f i j n).flash = s.flash := rfl
@[simp] theorem State.bump_eng (s : State) (f : Fld) (i j n : Nat) : (s.bump f i j n).eng = s.eng := rfl
@[simp] theorem State.bump_stb (s : State) (f : Fld) (i j n : Nat) : (s.bump f i j n).stb = s.stb := rfl
@[simp] theorem State.bump_fns (s : State) (f : Fld) (i j n : Nat) : (s.bump f i j n).fns = s.fns := rfl
@[simp] theorem State.bump_pairs (s : State) (f : Fld) (i j n : Nat) : (s.bump f i j n).pairs = s.pairs := rfl
@[simp] theorem State.bump_ic (s : State) (f : Fld) (i j n : Nat) : (s.bump f i j n).ic = s.ic := rfl
@[simp] theorem State.bump_rgn (s : State) (f : Fld) (i j n : Nat) : (s.bump f i j n).rgn = s.rgn := rfl
@[simp] theorem State.bump_lastInst (s : State) (f : Fld) (i j n : Nat) : (s.bump f i j n).lastInst = s.lastInst := rfl
@[simp] theorem State.bump_seenInst (s : State) (f : Fld) (i j n : Nat) : (s.bump f i j n).seenInst = s.seenInst := rfl
@[simp] theorem State.bump_jumpDue (s : State) (f : Fld) (i j n : Nat) : (s.bump f i j n).jumpDue = s.jumpDue := rfl
@[simp] theorem State.bump_ports (s : State) (f : Fld) (i j n : Nat) : (s.bump f i j n).ports = s.ports := rfl
@[simp] theorem State.bump_dirs (s : State) (f : Fld) (i j n : Nat) : (s.bump f i j n).dirs = s.dirs := rfl
@[simp] theorem State.bump_yard (s : State) (f : Fld) (i j n : Nat) : (s.bump f i j n).yard = s.yard := rfl
@[simp] theorem State.bump_tc (s : State) (f : Fld) (i j n : Nat) : (s.bump f i j n).tc = s.tc := rfl
@[simp] theorem State.bump_steps (s : State) (f : Fld) (i j n : Nat) : (s.bump f i j n).steps = s.steps := rfl
@[simp] theorem State.bump_steppedAt (s : State) (f : Fld) (i j n : Nat) : (s.bump f i j n).steppedAt = s.steppedAt := rfl
@[simp] theorem State.bump_sv (s : State) (f : Fld) (i j n : Nat) : (s.bump f i j n).sv = s.sv := rfl
@[simp] theorem State.bump_refs (s : State) (f : Fld) (i j n : Nat) : (s.bump f i j n).refs = s.refs := rfl
@[simp] theorem State.bump_pg (s : State) (f : Fld) (i j n : Nat) : (s.bump f i j n).pg = s.pg := rfl
@[simp] theorem State.bump_pd (s : State) (f : Fld) (i j n : Nat) : (s.bump f i j n).pd = s.pd := rfl
@[simp] theorem State.bump_can (s : State) (f : Fld) (i j n : Nat) : (s.bump f i j n).can = s.can := rfl
@[simp] theorem State.bump_pm (s : State) (f : Fld) (i j n : Nat) : (s.bump f i j n).pm = s.pm := rfl
@[simp] theorem State.bump_pins (s : State) (f : Fld) (i j n : Nat) : (s.bump f i j n).pins = s.pins := rfl
@[simp] theorem State.bump_pinPast (s : State) (f : Fld) (i j n : Nat) : (s.bump f i j n).pinPast = s.pinPast := rfl
@[simp] theorem State.bump_flagAt (s : State) (f : Fld) (i j n : Nat) : (s.bump f i j n).flagAt = s.flagAt := rfl
@[simp] theorem State.bump_tw (s : State) (f : Fld) (i j n : Nat) : (s.bump f i j n).tw = s.tw := rfl
@[simp] theorem State.bump_pw (s : State) (f : Fld) (i j n : Nat) : (s.bump f i j n).pw = s.pw := rfl
@[simp] theorem State.bump_boot (s : State) (f : Fld) (i j n : Nat) : (s.bump f i j n).boot = s.boot := rfl
@[simp] theorem State.bump_host (s : State) (f : Fld) (i j n : Nat) : (s.bump f i j n).host = s.host := rfl
@[simp] theorem State.bump_out (s : State) (f : Fld) (i j n : Nat) : (s.bump f i j n).out = s.out := rfl
@[simp] theorem State.bump_shadow_get (s : State) (f : Fld) (i j n : Nat) (g : Fld) (a b : Nat) : (s.bump f i j n).shadow g a b = s.shadow g a b := rfl
@[simp] theorem State.bump_e_get (s : State) (f : Fld) (i j n : Nat) (a : Nat) : (s.bump f i j n).e a = s.e a := rfl
@[simp] theorem State.bump_st_get (s : State) (f : Fld) (i j n : Nat) (a : Nat) : (s.bump f i j n).st a = s.st a := rfl
@[simp] theorem State.bump_fn_get (s : State) (f : Fld) (i j n : Nat) (a : Nat) : (s.bump f i j n).fn a = s.fn a := rfl
@[simp] theorem State.bump_pair_get (s : State) (f : Fld) (i j n : Nat) (a : Nat) : (s.bump f i j n).pair a = s.pair a := rfl
@[simp] theorem State.bump_icT_get (s : State) (f : Fld) (i j n : Nat) (a : Nat) : (s.bump f i j n).icT a = s.icT a := rfl
@[simp] theorem State.bump_rg_get (s : State) (f : Fld) (i j n : Nat) (a : Nat) : (s.bump f i j n).rg a = s.rg a := rfl
@[simp] theorem State.bump_port_get (s : State) (f : Fld) (i j n : Nat) (a : Nat) : (s.bump f i j n).port a = s.port a := rfl
@[simp] theorem State.bump_dir_get (s : State) (f : Fld) (i j n : Nat) (a b : Nat) : (s.bump f i j n).dir a b = s.dir a b := rfl
@[simp] theorem State.bump_ctr_get (s : State) (f : Fld) (i j n : Nat) (a : Nat) : (s.bump f i j n).ctr a = s.ctr a := rfl
@[simp] theorem State.bump_servo_get (s : State) (f : Fld) (i j n : Nat) (a : Nat) : (s.bump f i j n).servo a = s.servo a := rfl
@[simp] theorem State.bump_pulse_get (s : State) (f : Fld) (i j n : Nat) (a : Nat) : (s.bump f i j n).pulse a = s.pulse a := rfl
@[simp] theorem State.bump_cn_get (s : State) (f : Fld) (i j n : Nat) (a : Nat) : (s.bump f i j n).cn a = s.cn a := rfl
@[simp] theorem State.bump_mach_get (s : State) (f : Fld) (i j n : Nat) (a b : Nat) : (s.bump f i j n).mach a b = s.mach a b := rfl
@[simp] theorem State.bump_pin_get (s : State) (f : Fld) (i j n : Nat) (a : Nat) : (s.bump f i j n).pin a = s.pin a := rfl
@[simp] theorem State.bump_clocksOn_get (s : State) (f : Fld) (i j n : Nat)  : (s.bump f i j n).clocksOn = s.clocksOn := rfl
@[simp] theorem State.bump_awake_get (s : State) (f : Fld) (i j n : Nat) (a : Nat) : (s.bump f i j n).awake a = s.awake a := rfl
@[simp] theorem State.bump_tk_get (s : State) (f : Fld) (i j n : Nat)  : (s.bump f i j n).tk = s.tk := rfl
@[simp] theorem State.bump_flashAt_get (s : State) (f : Fld) (i j n : Nat) (a : Nat) : (s.bump f i j n).flashAt a = s.flashAt a := rfl

@[simp] theorem State.putShadow_pending (s : State) (f : Fld) (v i j : Nat) : (s.putShadow f v i j).pending = s.pending := rfl
@[simp] theorem State.putShadow_tick (s : State) (f : Fld) (v i j : Nat) : (s.putShadow f v i j).tick = s.tick := rfl
@[simp] theorem State.putShadow_tkBase (s : State) (f : Fld) (v i j : Nat) : (s.putShadow f v i j).tkBase = s.tkBase := rfl
@[simp] theorem State.putShadow_period (s : State) (f : Fld) (v i j : Nat) : (s.putShadow f v i j).period = s.period := rfl
@[simp] theorem State.putShadow_fresh (s : State) (f : Fld) (v i j : Nat) : (s.putShadow f v i j).fresh = s.fresh := rfl
@[simp] theorem State.putShadow_act (s : State) (f : Fld) (v i j : Nat) : (s.putShadow f v i j).act = s.act := rfl
@[simp] theorem State.putShadow_cap (s : State) (f : Fld) (v i j : Nat) : (s.putShadow f v i j).cap = s.cap := rfl
@[simp] theorem State.putShadow_lay (s : State) (f : Fld) (v i j : Nat) : (s.putShadow f v i j).lay = s.lay := rfl
@[simp] theorem State.putShadow_heldGo (s : State) (f : Fld) (v i j : Nat) : (s.putShadow f v i j).heldGo = s.heldGo := rfl
@[simp] theorem State.putShadow_loft (s : State) (f : Fld) (v i j : Nat) : (s.putShadow f v i j).loft = s.loft := rfl
@[simp] theorem State.putShadow_code (s : State) (f : Fld) (v i j : Nat) : (s.putShadow f v i j).code = s.code := rfl
@[simp] theorem State.putShadow_priv (s : State) (f : Fld) (v i j : Nat) : (s.putShadow f v i j).priv = s.priv := rfl
@[simp] theorem State.putShadow_mg (s : State) (f : Fld) (v i j : Nat) : (s.putShadow f v i j).mg = s.mg := rfl
@[simp] theorem State.putShadow_stage (s : State) (f : Fld) (v i j : Nat) : (s.putShadow f v i j).stage = s.stage := rfl
@[simp] theorem State.putShadow_scrub (s : State) (f : Fld) (v i j : Nat) : (s.putShadow f v i j).scrub = s.scrub := rfl
@[simp] theorem State.putShadow_lost (s : State) (f : Fld) (v i j : Nat) : (s.putShadow f v i j).lost = s.lost := rfl
@[simp] theorem State.putShadow_flash (s : State) (f : Fld) (v i j : Nat) : (s.putShadow f v i j).flash = s.flash := rfl
@[simp] theorem State.putShadow_eng (s : State) (f : Fld) (v i j : Nat) : (s.putShadow f v i j).eng = s.eng := rfl
@[simp] theorem State.putShadow_stb (s : State) (f : Fld) (v i j : Nat) : (s.putShadow f v i j).stb = s.stb := rfl
@[simp] theorem State.putShadow_fns (s : State) (f : Fld) (v i j : Nat) : (s.putShadow f v i j).fns = s.fns := rfl
@[simp] theorem State.putShadow_pairs (s : State) (f : Fld) (v i j : Nat) : (s.putShadow f v i j).pairs = s.pairs := rfl
@[simp] theorem State.putShadow_ic (s : State) (f : Fld) (v i j : Nat) : (s.putShadow f v i j).ic = s.ic := rfl
@[simp] theorem State.putShadow_rgn (s : State) (f : Fld) (v i j : Nat) : (s.putShadow f v i j).rgn = s.rgn := rfl
@[simp] theorem State.putShadow_lastInst (s : State) (f : Fld) (v i j : Nat) : (s.putShadow f v i j).lastInst = s.lastInst := rfl
@[simp] theorem State.putShadow_seenInst (s : State) (f : Fld) (v i j : Nat) : (s.putShadow f v i j).seenInst = s.seenInst := rfl
@[simp] theorem State.putShadow_jumpDue (s : State) (f : Fld) (v i j : Nat) : (s.putShadow f v i j).jumpDue = s.jumpDue := rfl
@[simp] theorem State.putShadow_ports (s : State) (f : Fld) (v i j : Nat) : (s.putShadow f v i j).ports = s.ports := rfl
@[simp] theorem State.putShadow_dirs (s : State) (f : Fld) (v i j : Nat) : (s.putShadow f v i j).dirs = s.dirs := rfl
@[simp] theorem State.putShadow_yard (s : State) (f : Fld) (v i j : Nat) : (s.putShadow f v i j).yard = s.yard := rfl
@[simp] theorem State.putShadow_tc (s : State) (f : Fld) (v i j : Nat) : (s.putShadow f v i j).tc = s.tc := rfl
@[simp] theorem State.putShadow_steps (s : State) (f : Fld) (v i j : Nat) : (s.putShadow f v i j).steps = s.steps := rfl
@[simp] theorem State.putShadow_steppedAt (s : State) (f : Fld) (v i j : Nat) : (s.putShadow f v i j).steppedAt = s.steppedAt := rfl
@[simp] theorem State.putShadow_sv (s : State) (f : Fld) (v i j : Nat) : (s.putShadow f v i j).sv = s.sv := rfl
@[simp] theorem State.putShadow_refs (s : State) (f : Fld) (v i j : Nat) : (s.putShadow f v i j).refs = s.refs := rfl
@[simp] theorem State.putShadow_pg (s : State) (f : Fld) (v i j : Nat) : (s.putShadow f v i j).pg = s.pg := rfl
@[simp] theorem State.putShadow_pd (s : State) (f : Fld) (v i j : Nat) : (s.putShadow f v i j).pd = s.pd := rfl
@[simp] theorem State.putShadow_can (s : State) (f : Fld) (v i j : Nat) : (s.putShadow f v i j).can = s.can := rfl
@[simp] theorem State.putShadow_pm (s : State) (f : Fld) (v i j : Nat) : (s.putShadow f v i j).pm = s.pm := rfl
@[simp] theorem State.putShadow_pins (s : State) (f : Fld) (v i j : Nat) : (s.putShadow f v i j).pins = s.pins := rfl
@[simp] theorem State.putShadow_pinPast (s : State) (f : Fld) (v i j : Nat) : (s.putShadow f v i j).pinPast = s.pinPast := rfl
@[simp] theorem State.putShadow_flagAt (s : State) (f : Fld) (v i j : Nat) : (s.putShadow f v i j).flagAt = s.flagAt := rfl
@[simp] theorem State.putShadow_tw (s : State) (f : Fld) (v i j : Nat) : (s.putShadow f v i j).tw = s.tw := rfl
@[simp] theorem State.putShadow_pw (s : State) (f : Fld) (v i j : Nat) : (s.putShadow f v i j).pw = s.pw := rfl
@[simp] theorem State.putShadow_boot (s : State) (f : Fld) (v i j : Nat) : (s.putShadow f v i j).boot = s.boot := rfl
@[simp] theorem State.putShadow_host (s : State) (f : Fld) (v i j : Nat) : (s.putShadow f v i j).host = s.host := rfl
@[simp] theorem State.putShadow_out (s : State) (f : Fld) (v i j : Nat) : (s.putShadow f v i j).out = s.out := rfl
@[simp] theorem State.putShadow_fld_get (s : State) (f : Fld) (v i j : Nat) (g : Fld) (a b : Nat) : (s.putShadow f v i j).fld g a b = s.fld g a b := rfl
@[simp] theorem State.putShadow_on_get (s : State) (f : Fld) (v i j : Nat) (g : Fld) (a b : Nat) : (s.putShadow f v i j).on g a b = s.on g a b := rfl
@[simp] theorem State.putShadow_e_get (s : State) (f : Fld) (v i j : Nat) (a : Nat) : (s.putShadow f v i j).e a = s.e a := rfl
@[simp] theorem State.putShadow_st_get (s : State) (f : Fld) (v i j : Nat) (a : Nat) : (s.putShadow f v i j).st a = s.st a := rfl
@[simp] theorem State.putShadow_fn_get (s : State) (f : Fld) (v i j : Nat) (a : Nat) : (s.putShadow f v i j).fn a = s.fn a := rfl
@[simp] theorem State.putShadow_pair_get (s : State) (f : Fld) (v i j : Nat) (a : Nat) : (s.putShadow f v i j).pair a = s.pair a := rfl
@[simp] theorem State.putShadow_icT_get (s : State) (f : Fld) (v i j : Nat) (a : Nat) : (s.putShadow f v i j).icT a = s.icT a := rfl
@[simp] theorem State.putShadow_rg_get (s : State) (f : Fld) (v i j : Nat) (a : Nat) : (s.putShadow f v i j).rg a = s.rg a := rfl
@[simp] theorem State.putShadow_port_get (s : State) (f : Fld) (v i j : Nat) (a : Nat) : (s.putShadow f v i j).port a = s.port a := rfl
@[simp] theorem State.putShadow_dir_get (s : State) (f : Fld) (v i j : Nat) (a b : Nat) : (s.putShadow f v i j).dir a b = s.dir a b := rfl
@[simp] theorem State.putShadow_ctr_get (s : State) (f : Fld) (v i j : Nat) (a : Nat) : (s.putShadow f v i j).ctr a = s.ctr a := rfl
@[simp] theorem State.putShadow_servo_get (s : State) (f : Fld) (v i j : Nat) (a : Nat) : (s.putShadow f v i j).servo a = s.servo a := rfl
@[simp] theorem State.putShadow_pulse_get (s : State) (f : Fld) (v i j : Nat) (a : Nat) : (s.putShadow f v i j).pulse a = s.pulse a := rfl
@[simp] theorem State.putShadow_cn_get (s : State) (f : Fld) (v i j : Nat) (a : Nat) : (s.putShadow f v i j).cn a = s.cn a := rfl
@[simp] theorem State.putShadow_mach_get (s : State) (f : Fld) (v i j : Nat) (a b : Nat) : (s.putShadow f v i j).mach a b = s.mach a b := rfl
@[simp] theorem State.putShadow_pin_get (s : State) (f : Fld) (v i j : Nat) (a : Nat) : (s.putShadow f v i j).pin a = s.pin a := rfl
@[simp] theorem State.putShadow_clocksOn_get (s : State) (f : Fld) (v i j : Nat)  : (s.putShadow f v i j).clocksOn = s.clocksOn := rfl
@[simp] theorem State.putShadow_awake_get (s : State) (f : Fld) (v i j : Nat) (a : Nat) : (s.putShadow f v i j).awake a = s.awake a := rfl
@[simp] theorem State.putShadow_tk_get (s : State) (f : Fld) (v i j : Nat)  : (s.putShadow f v i j).tk = s.tk := rfl
@[simp] theorem State.putShadow_flashAt_get (s : State) (f : Fld) (v i j : Nat) (a : Nat) : (s.putShadow f v i j).flashAt a = s.flashAt a := rfl

@[simp] theorem State.setE_pending (s : State) (n : Nat) (x : Eng) : (s.setE n x).pending = s.pending := rfl
@[simp] theorem State.setE_tick (s : State) (n : Nat) (x : Eng) : (s.setE n x).tick = s.tick := rfl
@[simp] theorem State.setE_tkBase (s : State) (n : Nat) (x : Eng) : (s.setE n x).tkBase = s.tkBase := rfl
@[simp] theorem State.setE_period (s : State) (n : Nat) (x : Eng) : (s.setE n x).period = s.period := rfl
@[simp] theorem State.setE_fresh (s : State) (n : Nat) (x : Eng) : (s.setE n x).fresh = s.fresh := rfl
@[simp] theorem State.setE_act (s : State) (n : Nat) (x : Eng) : (s.setE n x).act = s.act := rfl
@[simp] theorem State.setE_shd (s : State) (n : Nat) (x : Eng) : (s.setE n x).shd = s.shd := rfl
@[simp] theorem State.setE_cap (s : State) (n : Nat) (x : Eng) : (s.setE n x).cap = s.cap := rfl
@[simp] theorem State.setE_lay (s : State) (n : Nat) (x : Eng) : (s.setE n x).lay = s.lay := rfl
@[simp] theorem State.setE_heldGo (s : State) (n : Nat) (x : Eng) : (s.setE n x).heldGo = s.heldGo := rfl
@[simp] theorem State.setE_loft (s : State) (n : Nat) (x : Eng) : (s.setE n x).loft = s.loft := rfl
@[simp] theorem State.setE_code (s : State) (n : Nat) (x : Eng) : (s.setE n x).code = s.code := rfl
@[simp] theorem State.setE_priv (s : State) (n : Nat) (x : Eng) : (s.setE n x).priv = s.priv := rfl
@[simp] theorem State.setE_mg (s : State) (n : Nat) (x : Eng) : (s.setE n x).mg = s.mg := rfl
@[simp] theorem State.setE_stage (s : State) (n : Nat) (x : Eng) : (s.setE n x).stage = s.stage := rfl
@[simp] theorem State.setE_scrub (s : State) (n : Nat) (x : Eng) : (s.setE n x).scrub = s.scrub := rfl
@[simp] theorem State.setE_lost (s : State) (n : Nat) (x : Eng) : (s.setE n x).lost = s.lost := rfl
@[simp] theorem State.setE_flash (s : State) (n : Nat) (x : Eng) : (s.setE n x).flash = s.flash := rfl
@[simp] theorem State.setE_stb (s : State) (n : Nat) (x : Eng) : (s.setE n x).stb = s.stb := rfl
@[simp] theorem State.setE_fns (s : State) (n : Nat) (x : Eng) : (s.setE n x).fns = s.fns := rfl
@[simp] theorem State.setE_pairs (s : State) (n : Nat) (x : Eng) : (s.setE n x).pairs = s.pairs := rfl
@[simp] theorem State.setE_ic (s : State) (n : Nat) (x : Eng) : (s.setE n x).ic = s.ic := rfl
@[simp] theorem State.setE_rgn (s : State) (n : Nat) (x : Eng) : (s.setE n x).rgn = s.rgn := rfl
@[simp] theorem State.setE_lastInst (s : State) (n : Nat) (x : Eng) : (s.setE n x).lastInst = s.lastInst := rfl
@[simp] theorem State.setE_seenInst (s : State) (n : Nat) (x : Eng) : (s.setE n x).seenInst = s.seenInst := rfl
@[simp] theorem State.setE_jumpDue (s : State) (n : Nat) (x : Eng) : (s.setE n x).jumpDue = s.jumpDue := rfl
@[simp] theorem State.setE_ports (s : State) (n : Nat) (x : Eng) : (s.setE n x).ports = s.ports := rfl
@[simp] theorem State.setE_dirs (s : State) (n : Nat) (x : Eng) : (s.setE n x).dirs = s.dirs := rfl
@[simp] theorem State.setE_yard (s : State) (n : Nat) (x : Eng) : (s.setE n x).yard = s.yard := rfl
@[simp] theorem State.setE_tc (s : State) (n : Nat) (x : Eng) : (s.setE n x).tc = s.tc := rfl
@[simp] theorem State.setE_steps (s : State) (n : Nat) (x : Eng) : (s.setE n x).steps = s.steps := rfl
@[simp] theorem State.setE_steppedAt (s : State) (n : Nat) (x : Eng) : (s.setE n x).steppedAt = s.steppedAt := rfl
@[simp] theorem State.setE_sv (s : State) (n : Nat) (x : Eng) : (s.setE n x).sv = s.sv := rfl
@[simp] theorem State.setE_refs (s : State) (n : Nat) (x : Eng) : (s.setE n x).refs = s.refs := rfl
@[simp] theorem State.setE_pg (s : State) (n : Nat) (x : Eng) : (s.setE n x).pg = s.pg := rfl
@[simp] theorem State.setE_pd (s : State) (n : Nat) (x : Eng) : (s.setE n x).pd = s.pd := rfl
@[simp] theorem State.setE_can (s : State) (n : Nat) (x : Eng) : (s.setE n x).can = s.can := rfl
@[simp] theorem State.setE_pm (s : State) (n : Nat) (x : Eng) : (s.setE n x).pm = s.pm := rfl
@[simp] theorem State.setE_pins (s : State) (n : Nat) (x : Eng) : (s.setE n x).pins = s.pins := rfl
@[simp] theorem State.setE_pinPast (s : State) (n : Nat) (x : Eng) : (s.setE n x).pinPast = s.pinPast := rfl
@[simp] theorem State.setE_flagAt (s : State) (n : Nat) (x : Eng) : (s.setE n x).flagAt = s.flagAt := rfl
@[simp] theorem State.setE_tw (s : State) (n : Nat) (x : Eng) : (s.setE n x).tw = s.tw := rfl
@[simp] theorem State.setE_pw (s : State) (n : Nat) (x : Eng) : (s.setE n x).pw = s.pw := rfl
@[simp] theorem State.setE_boot (s : State) (n : Nat) (x : Eng) : (s.setE n x).boot = s.boot := rfl
@[simp] theorem State.setE_host (s : State) (n : Nat) (x : Eng) : (s.setE n x).host = s.host := rfl
@[simp] theorem State.setE_out (s : State) (n : Nat) (x : Eng) : (s.setE n x).out = s.out := rfl
@[simp] theorem State.setE_fld_get (s : State) (n : Nat) (x : Eng) (g : Fld) (a b : Nat) : (s.setE n x).fld g a b = s.fld g a b := rfl
@[simp] theorem State.setE_on_get (s : State) (n : Nat) (x : Eng) (g : Fld) (a b : Nat) : (s.setE n x).on g a b = s.on g a b := rfl
@[simp] theorem State.setE_shadow_get (s : State) (n : Nat) (x : Eng) (g : Fld) (a b : Nat) : (s.setE n x).shadow g a b = s.shadow g a b := rfl
@[simp] theorem State.setE_st_get (s : State) (n : Nat) (x : Eng) (a : Nat) : (s.setE n x).st a = s.st a := rfl
@[simp] theorem State.setE_fn_get (s : State) (n : Nat) (x : Eng) (a : Nat) : (s.setE n x).fn a = s.fn a := rfl
@[simp] theorem State.setE_pair_get (s : State) (n : Nat) (x : Eng) (a : Nat) : (s.setE n x).pair a = s.pair a := rfl
@[simp] theorem State.setE_icT_get (s : State) (n : Nat) (x : Eng) (a : Nat) : (s.setE n x).icT a = s.icT a := rfl
@[simp] theorem State.setE_rg_get (s : State) (n : Nat) (x : Eng) (a : Nat) : (s.setE n x).rg a = s.rg a := rfl
@[simp] theorem State.setE_port_get (s : State) (n : Nat) (x : Eng) (a : Nat) : (s.setE n x).port a = s.port a := rfl
@[simp] theorem State.setE_dir_get (s : State) (n : Nat) (x : Eng) (a b : Nat) : (s.setE n x).dir a b = s.dir a b := rfl
@[simp] theorem State.setE_ctr_get (s : State) (n : Nat) (x : Eng) (a : Nat) : (s.setE n x).ctr a = s.ctr a := rfl
@[simp] theorem State.setE_servo_get (s : State) (n : Nat) (x : Eng) (a : Nat) : (s.setE n x).servo a = s.servo a := rfl
@[simp] theorem State.setE_pulse_get (s : State) (n : Nat) (x : Eng) (a : Nat) : (s.setE n x).pulse a = s.pulse a := rfl
@[simp] theorem State.setE_cn_get (s : State) (n : Nat) (x : Eng) (a : Nat) : (s.setE n x).cn a = s.cn a := rfl
@[simp] theorem State.setE_mach_get (s : State) (n : Nat) (x : Eng) (a b : Nat) : (s.setE n x).mach a b = s.mach a b := rfl
@[simp] theorem State.setE_pin_get (s : State) (n : Nat) (x : Eng) (a : Nat) : (s.setE n x).pin a = s.pin a := rfl
@[simp] theorem State.setE_clocksOn_get (s : State) (n : Nat) (x : Eng)  : (s.setE n x).clocksOn = s.clocksOn := rfl
@[simp] theorem State.setE_awake_get (s : State) (n : Nat) (x : Eng) (a : Nat) : (s.setE n x).awake a = s.awake a := rfl
@[simp] theorem State.setE_tk_get (s : State) (n : Nat) (x : Eng)  : (s.setE n x).tk = s.tk := rfl
@[simp] theorem State.setE_flashAt_get (s : State) (n : Nat) (x : Eng) (a : Nat) : (s.setE n x).flashAt a = s.flashAt a := rfl

@[simp] theorem State.setSt_pending (s : State) (n : Nat) (x : Stb) : (s.setSt n x).pending = s.pending := rfl
@[simp] theorem State.setSt_tick (s : State) (n : Nat) (x : Stb) : (s.setSt n x).tick = s.tick := rfl
@[simp] theorem State.setSt_tkBase (s : State) (n : Nat) (x : Stb) : (s.setSt n x).tkBase = s.tkBase := rfl
@[simp] theorem State.setSt_period (s : State) (n : Nat) (x : Stb) : (s.setSt n x).period = s.period := rfl
@[simp] theorem State.setSt_fresh (s : State) (n : Nat) (x : Stb) : (s.setSt n x).fresh = s.fresh := rfl
@[simp] theorem State.setSt_act (s : State) (n : Nat) (x : Stb) : (s.setSt n x).act = s.act := rfl
@[simp] theorem State.setSt_shd (s : State) (n : Nat) (x : Stb) : (s.setSt n x).shd = s.shd := rfl
@[simp] theorem State.setSt_cap (s : State) (n : Nat) (x : Stb) : (s.setSt n x).cap = s.cap := rfl
@[simp] theorem State.setSt_lay (s : State) (n : Nat) (x : Stb) : (s.setSt n x).lay = s.lay := rfl
@[simp] theorem State.setSt_heldGo (s : State) (n : Nat) (x : Stb) : (s.setSt n x).heldGo = s.heldGo := rfl
@[simp] theorem State.setSt_loft (s : State) (n : Nat) (x : Stb) : (s.setSt n x).loft = s.loft := rfl
@[simp] theorem State.setSt_code (s : State) (n : Nat) (x : Stb) : (s.setSt n x).code = s.code := rfl
@[simp] theorem State.setSt_priv (s : State) (n : Nat) (x : Stb) : (s.setSt n x).priv = s.priv := rfl
@[simp] theorem State.setSt_mg (s : State) (n : Nat) (x : Stb) : (s.setSt n x).mg = s.mg := rfl
@[simp] theorem State.setSt_stage (s : State) (n : Nat) (x : Stb) : (s.setSt n x).stage = s.stage := rfl
@[simp] theorem State.setSt_scrub (s : State) (n : Nat) (x : Stb) : (s.setSt n x).scrub = s.scrub := rfl
@[simp] theorem State.setSt_lost (s : State) (n : Nat) (x : Stb) : (s.setSt n x).lost = s.lost := rfl
@[simp] theorem State.setSt_flash (s : State) (n : Nat) (x : Stb) : (s.setSt n x).flash = s.flash := rfl
@[simp] theorem State.setSt_eng (s : State) (n : Nat) (x : Stb) : (s.setSt n x).eng = s.eng := rfl
@[simp] theorem State.setSt_fns (s : State) (n : Nat) (x : Stb) : (s.setSt n x).fns = s.fns := rfl
@[simp] theorem State.setSt_pairs (s : State) (n : Nat) (x : Stb) : (s.setSt n x).pairs = s.pairs := rfl
@[simp] theorem State.setSt_ic (s : State) (n : Nat) (x : Stb) : (s.setSt n x).ic = s.ic := rfl
@[simp] theorem State.setSt_rgn (s : State) (n : Nat) (x : Stb) : (s.setSt n x).rgn = s.rgn := rfl
@[simp] theorem State.setSt_lastInst (s : State) (n : Nat) (x : Stb) : (s.setSt n x).lastInst = s.lastInst := rfl
@[simp] theorem State.setSt_seenInst (s : State) (n : Nat) (x : Stb) : (s.setSt n x).seenInst = s.seenInst := rfl
@[simp] theorem State.setSt_jumpDue (s : State) (n : Nat) (x : Stb) : (s.setSt n x).jumpDue = s.jumpDue := rfl
@[simp] theorem State.setSt_ports (s : State) (n : Nat) (x : Stb) : (s.setSt n x).ports = s.ports := rfl
@[simp] theorem State.setSt_dirs (s : State) (n : Nat) (x : Stb) : (s.setSt n x).dirs = s.dirs := rfl
@[simp] theorem State.setSt_yard (s : State) (n : Nat) (x : Stb) : (s.setSt n x).yard = s.yard := rfl
@[simp] theorem State.setSt_tc (s : State) (n : Nat) (x : Stb) : (s.setSt n x).tc = s.tc := rfl
@[simp] theorem State.setSt_steps (s : State) (n : Nat) (x : Stb) : (s.setSt n x).steps = s.steps := rfl
@[simp] theorem State.setSt_steppedAt (s : State) (n : Nat) (x : Stb) : (s.setSt n x).steppedAt = s.steppedAt := rfl
@[simp] theorem State.setSt_sv (s : State) (n : Nat) (x : Stb) : (s.setSt n x).sv = s.sv := rfl
@[simp] theorem State.setSt_refs (s : State) (n : Nat) (x : Stb) : (s.setSt n x).refs = s.refs := rfl
@[simp] theorem State.setSt_pg (s : State) (n : Nat) (x : Stb) : (s.setSt n x).pg = s.pg := rfl
@[simp] theorem State.setSt_pd (s : State) (n : Nat) (x : Stb) : (s.setSt n x).pd = s.pd := rfl
@[simp] theorem State.setSt_can (s : State) (n : Nat) (x : Stb) : (s.setSt n x).can = s.can := rfl
@[simp] theorem State.setSt_pm (s : State) (n : Nat) (x : Stb) : (s.setSt n x).pm = s.pm := rfl
@[simp] theorem State.setSt_pins (s : State) (n : Nat) (x : Stb) : (s.setSt n x).pins = s.pins := rfl
@[simp] theorem State.setSt_pinPast (s : State) (n : Nat) (x : Stb) : (s.setSt n x).pinPast = s.pinPast := rfl
@[simp] theorem State.setSt_flagAt (s : State) (n : Nat) (x : Stb) : (s.setSt n x).flagAt = s.flagAt := rfl
@[simp] theorem State.setSt_tw (s : State) (n : Nat) (x : Stb) : (s.setSt n x).tw = s.tw := rfl
@[simp] theorem State.setSt_pw (s : State) (n : Nat) (x : Stb) : (s.setSt n x).pw = s.pw := rfl
@[simp] theorem State.setSt_boot (s : State) (n : Nat) (x : Stb) : (s.setSt n x).boot = s.boot := rfl
@[simp] theorem State.setSt_host (s : State) (n : Nat) (x : Stb) : (s.setSt n x).host = s.host := rfl
@[simp] theorem State.setSt_out (s : State) (n : Nat) (x : Stb) : (s.setSt n x).out = s.out := rfl
@[simp] theorem State.setSt_fld_get (s : State) (n : Nat) (x : Stb) (g : Fld) (a b : Nat) : (s.setSt n x).fld g a b = s.fld g a b := rfl
@[simp] theorem State.setSt_on_get (s : State) (n : Nat) (x : Stb) (g : Fld) (a b : Nat) : (s.setSt n x).on g a b = s.on g a b := rfl
@[simp] theorem State.setSt_shadow_get (s : State) (n : Nat) (x : Stb) (g : Fld) (a b : Nat) : (s.setSt n x).shadow g a b = s.shadow g a b := rfl
@[simp] theorem State.setSt_e_get (s : State) (n : Nat) (x : Stb) (a : Nat) : (s.setSt n x).e a = s.e a := rfl
@[simp] theorem State.setSt_fn_get (s : State) (n : Nat) (x : Stb) (a : Nat) : (s.setSt n x).fn a = s.fn a := rfl
@[simp] theorem State.setSt_pair_get (s : State) (n : Nat) (x : Stb) (a : Nat) : (s.setSt n x).pair a = s.pair a := rfl
@[simp] theorem State.setSt_icT_get (s : State) (n : Nat) (x : Stb) (a : Nat) : (s.setSt n x).icT a = s.icT a := rfl
@[simp] theorem State.setSt_rg_get (s : State) (n : Nat) (x : Stb) (a : Nat) : (s.setSt n x).rg a = s.rg a := rfl
@[simp] theorem State.setSt_port_get (s : State) (n : Nat) (x : Stb) (a : Nat) : (s.setSt n x).port a = s.port a := rfl
@[simp] theorem State.setSt_dir_get (s : State) (n : Nat) (x : Stb) (a b : Nat) : (s.setSt n x).dir a b = s.dir a b := rfl
@[simp] theorem State.setSt_ctr_get (s : State) (n : Nat) (x : Stb) (a : Nat) : (s.setSt n x).ctr a = s.ctr a := rfl
@[simp] theorem State.setSt_servo_get (s : State) (n : Nat) (x : Stb) (a : Nat) : (s.setSt n x).servo a = s.servo a := rfl
@[simp] theorem State.setSt_pulse_get (s : State) (n : Nat) (x : Stb) (a : Nat) : (s.setSt n x).pulse a = s.pulse a := rfl
@[simp] theorem State.setSt_cn_get (s : State) (n : Nat) (x : Stb) (a : Nat) : (s.setSt n x).cn a = s.cn a := rfl
@[simp] theorem State.setSt_mach_get (s : State) (n : Nat) (x : Stb) (a b : Nat) : (s.setSt n x).mach a b = s.mach a b := rfl
@[simp] theorem State.setSt_pin_get (s : State) (n : Nat) (x : Stb) (a : Nat) : (s.setSt n x).pin a = s.pin a := rfl
@[simp] theorem State.setSt_clocksOn_get (s : State) (n : Nat) (x : Stb)  : (s.setSt n x).clocksOn = s.clocksOn := rfl
@[simp] theorem State.setSt_tk_get (s : State) (n : Nat) (x : Stb)  : (s.setSt n x).tk = s.tk := rfl
@[simp] theorem State.setSt_flashAt_get (s : State) (n : Nat) (x : Stb) (a : Nat) : (s.setSt n x).flashAt a = s.flashAt a := rfl

@[simp] theorem State.setFn_pending (s : State) (n : Nat) (x : FnS) : (s.setFn n x).pending = s.pending := rfl
@[simp] theorem State.setFn_tick (s : State) (n : Nat) (x : FnS) : (s.setFn n x).tick = s.tick := rfl
@[simp] theorem State.setFn_tkBase (s : State) (n : Nat) (x : FnS) : (s.setFn n x).tkBase = s.tkBase := rfl
@[simp] theorem State.setFn_period (s : State) (n : Nat) (x : FnS) : (s.setFn n x).period = s.period := rfl
@[simp] theorem State.setFn_fresh (s : State) (n : Nat) (x : FnS) : (s.setFn n x).fresh = s.fresh := rfl
@[simp] theorem State.setFn_act (s : State) (n : Nat) (x : FnS) : (s.setFn n x).act = s.act := rfl
@[simp] theorem State.setFn_shd (s : State) (n : Nat) (x : FnS) : (s.setFn n x).shd = s.shd := rfl
@[simp] theorem State.setFn_cap (s : State) (n : Nat) (x : FnS) : (s.setFn n x).cap = s.cap := rfl
@[simp] theorem State.setFn_lay (s : State) (n : Nat) (x : FnS) : (s.setFn n x).lay = s.lay := rfl
@[simp] theorem State.setFn_heldGo (s : State) (n : Nat) (x : FnS) : (s.setFn n x).heldGo = s.heldGo := rfl
@[simp] theorem State.setFn_loft (s : State) (n : Nat) (x : FnS) : (s.setFn n x).loft = s.loft := rfl
@[simp] theorem State.setFn_code (s : State) (n : Nat) (x : FnS) : (s.setFn n x).code = s.code := rfl
@[simp] theorem State.setFn_priv (s : State) (n : Nat) (x : FnS) : (s.setFn n x).priv = s.priv := rfl
@[simp] theorem State.setFn_mg (s : State) (n : Nat) (x : FnS) : (s.setFn n x).mg = s.mg := rfl
@[simp] theorem State.setFn_stage (s : State) (n : Nat) (x : FnS) : (s.setFn n x).stage = s.stage := rfl
@[simp] theorem State.setFn_scrub (s : State) (n : Nat) (x : FnS) : (s.setFn n x).scrub = s.scrub := rfl
@[simp] theorem State.setFn_lost (s : State) (n : Nat) (x : FnS) : (s.setFn n x).lost = s.lost := rfl
@[simp] theorem State.setFn_flash (s : State) (n : Nat) (x : FnS) : (s.setFn n x).flash = s.flash := rfl
@[simp] theorem State.setFn_eng (s : State) (n : Nat) (x : FnS) : (s.setFn n x).eng = s.eng := rfl
@[simp] theorem State.setFn_stb (s : State) (n : Nat) (x : FnS) : (s.setFn n x).stb = s.stb := rfl
@[simp] theorem State.setFn_pairs (s : State) (n : Nat) (x : FnS) : (s.setFn n x).pairs = s.pairs := rfl
@[simp] theorem State.setFn_ic (s : State) (n : Nat) (x : FnS) : (s.setFn n x).ic = s.ic := rfl
@[simp] theorem State.setFn_rgn (s : State) (n : Nat) (x : FnS) : (s.setFn n x).rgn = s.rgn := rfl
@[simp] theorem State.setFn_lastInst (s : State) (n : Nat) (x : FnS) : (s.setFn n x).lastInst = s.lastInst := rfl
@[simp] theorem State.setFn_seenInst (s : State) (n : Nat) (x : FnS) : (s.setFn n x).seenInst = s.seenInst := rfl
@[simp] theorem State.setFn_jumpDue (s : State) (n : Nat) (x : FnS) : (s.setFn n x).jumpDue = s.jumpDue := rfl
@[simp] theorem State.setFn_ports (s : State) (n : Nat) (x : FnS) : (s.setFn n x).ports = s.ports := rfl
@[simp] theorem State.setFn_dirs (s : State) (n : Nat) (x : FnS) : (s.setFn n x).dirs = s.dirs := rfl
@[simp] theorem State.setFn_yard (s : State) (n : Nat) (x : FnS) : (s.setFn n x).yard = s.yard := rfl
@[simp] theorem State.setFn_tc (s : State) (n : Nat) (x : FnS) : (s.setFn n x).tc = s.tc := rfl
@[simp] theorem State.setFn_steps (s : State) (n : Nat) (x : FnS) : (s.setFn n x).steps = s.steps := rfl
@[simp] theorem State.setFn_steppedAt (s : State) (n : Nat) (x : FnS) : (s.setFn n x).steppedAt = s.steppedAt := rfl
@[simp] theorem State.setFn_sv (s : State) (n : Nat) (x : FnS) : (s.setFn n x).sv = s.sv := rfl
@[simp] theorem State.setFn_refs (s : State) (n : Nat) (x : FnS) : (s.setFn n x).refs = s.refs := rfl
@[simp] theorem State.setFn_pg (s : State) (n : Nat) (x : FnS) : (s.setFn n x).pg = s.pg := rfl
@[simp] theorem State.setFn_pd (s : State) (n : Nat) (x : FnS) : (s.setFn n x).pd = s.pd := rfl
@[simp] theorem State.setFn_can (s : State) (n : Nat) (x : FnS) : (s.setFn n x).can = s.can := rfl
@[simp] theorem State.setFn_pm (s : State) (n : Nat) (x : FnS) : (s.setFn n x).pm = s.pm := rfl
@[simp] theorem State.setFn_pins (s : State) (n : Nat) (x : FnS) : (s.setFn n x).pins = s.pins := rfl
@[simp] theorem State.setFn_pinPast (s : State) (n : Nat) (x : FnS) : (s.setFn n x).pinPast = s.pinPast := rfl
@[simp] theorem State.setFn_flagAt (s : State) (n : Nat) (x : FnS) : (s.setFn n x).flagAt = s.flagAt := rfl
@[simp] theorem State.setFn_tw (s : State) (n : Nat) (x : FnS) : (s.setFn n x).tw = s.tw := rfl
@[simp] theorem State.setFn_pw (s : State) (n : Nat) (x : FnS) : (s.setFn n x).pw = s.pw := rfl
@[simp] theorem State.setFn_boot (s : State) (n : Nat) (x : FnS) : (s.setFn n x).boot = s.boot := rfl
@[simp] theorem State.setFn_host (s : State) (n : Nat) (x : FnS) : (s.setFn n x).host = s.host := rfl
@[simp] theorem State.setFn_out (s : State) (n : Nat) (x : FnS) : (s.setFn n x).out = s.out := rfl
@[simp] theorem State.setFn_fld_get (s : State) (n : Nat) (x : FnS) (g : Fld) (a b : Nat) : (s.setFn n x).fld g a b = s.fld g a b := rfl
@[simp] theorem State.setFn_on_get (s : State) (n : Nat) (x : FnS) (g : Fld) (a b : Nat) : (s.setFn n x).on g a b = s.on g a b := rfl
@[simp] theorem State.setFn_shadow_get (s : State) (n : Nat) (x : FnS) (g : Fld) (a b : Nat) : (s.setFn n x).shadow g a b = s.shadow g a b := rfl
@[simp] theorem State.setFn_e_get (s : State) (n : Nat) (x : FnS) (a : Nat) : (s.setFn n x).e a = s.e a := rfl
@[simp] theorem State.setFn_st_get (s : State) (n : Nat) (x : FnS) (a : Nat) : (s.setFn n x).st a = s.st a := rfl
@[simp] theorem State.setFn_pair_get (s : State) (n : Nat) (x : FnS) (a : Nat) : (s.setFn n x).pair a = s.pair a := rfl
@[simp] theorem State.setFn_icT_get (s : State) (n : Nat) (x : FnS) (a : Nat) : (s.setFn n x).icT a = s.icT a := rfl
@[simp] theorem State.setFn_rg_get (s : State) (n : Nat) (x : FnS) (a : Nat) : (s.setFn n x).rg a = s.rg a := rfl
@[simp] theorem State.setFn_port_get (s : State) (n : Nat) (x : FnS) (a : Nat) : (s.setFn n x).port a = s.port a := rfl
@[simp] theorem State.setFn_dir_get (s : State) (n : Nat) (x : FnS) (a b : Nat) : (s.setFn n x).dir a b = s.dir a b := rfl
@[simp] theorem State.setFn_ctr_get (s : State) (n : Nat) (x : FnS) (a : Nat) : (s.setFn n x).ctr a = s.ctr a := rfl
@[simp] theorem State.setFn_servo_get (s : State) (n : Nat) (x : FnS) (a : Nat) : (s.setFn n x).servo a = s.servo a := rfl
@[simp] theorem State.setFn_pulse_get (s : State) (n : Nat) (x : FnS) (a : Nat) : (s.setFn n x).pulse a = s.pulse a := rfl
@[simp] theorem State.setFn_cn_get (s : State) (n : Nat) (x : FnS) (a : Nat) : (s.setFn n x).cn a = s.cn a := rfl
@[simp] theorem State.setFn_mach_get (s : State) (n : Nat) (x : FnS) (a b : Nat) : (s.setFn n x).mach a b = s.mach a b := rfl
@[simp] theorem State.setFn_pin_get (s : State) (n : Nat) (x : FnS) (a : Nat) : (s.setFn n x).pin a = s.pin a := rfl
@[simp] theorem State.setFn_clocksOn_get (s : State) (n : Nat) (x : FnS)  : (s.setFn n x).clocksOn = s.clocksOn := rfl
@[simp] theorem State.setFn_awake_get (s : State) (n : Nat) (x : FnS) (a : Nat) : (s.setFn n x).awake a = s.awake a := rfl
@[simp] theorem State.setFn_tk_get (s : State) (n : Nat) (x : FnS)  : (s.setFn n x).tk = s.tk := rfl
@[simp] theorem State.setFn_flashAt_get (s : State) (n : Nat) (x : FnS) (a : Nat) : (s.setFn n x).flashAt a = s.flashAt a := rfl

@[simp] theorem State.setPair_pending (s : State) (n : Nat) (x : PairS) : (s.setPair n x).pending = s.pending := rfl
@[simp] theorem State.setPair_tick (s : State) (n : Nat) (x : PairS) : (s.setPair n x).tick = s.tick := rfl
@[simp] theorem State.setPair_tkBase (s : State) (n : Nat) (x : PairS) : (s.setPair n x).tkBase = s.tkBase := rfl
@[simp] theorem State.setPair_period (s : State) (n : Nat) (x : PairS) : (s.setPair n x).period = s.period := rfl
@[simp] theorem State.setPair_fresh (s : State) (n : Nat) (x : PairS) : (s.setPair n x).fresh = s.fresh := rfl
@[simp] theorem State.setPair_act (s : State) (n : Nat) (x : PairS) : (s.setPair n x).act = s.act := rfl
@[simp] theorem State.setPair_shd (s : State) (n : Nat) (x : PairS) : (s.setPair n x).shd = s.shd := rfl
@[simp] theorem State.setPair_cap (s : State) (n : Nat) (x : PairS) : (s.setPair n x).cap = s.cap := rfl
@[simp] theorem State.setPair_lay (s : State) (n : Nat) (x : PairS) : (s.setPair n x).lay = s.lay := rfl
@[simp] theorem State.setPair_heldGo (s : State) (n : Nat) (x : PairS) : (s.setPair n x).heldGo = s.heldGo := rfl
@[simp] theorem State.setPair_loft (s : State) (n : Nat) (x : PairS) : (s.setPair n x).loft = s.loft := rfl
@[simp] theorem State.setPair_code (s : State) (n : Nat) (x : PairS) : (s.setPair n x).code = s.code := rfl
@[simp] theorem State.setPair_priv (s : State) (n : Nat) (x : PairS) : (s.setPair n x).priv = s.priv := rfl
@[simp] theorem State.setPair_mg (s : State) (n : Nat) (x : PairS) : (s.setPair n x).mg = s.mg := rfl
@[simp] theorem State.setPair_stage (s : State) (n : Nat) (x : PairS) : (s.setPair n x).stage = s.stage := rfl
@[simp] theorem State.setPair_scrub (s : State) (n : Nat) (x : PairS) : (s.setPair n x).scrub = s.scrub := rfl
@[simp] theorem State.setPair_lost (s : State) (n : Nat) (x : PairS) : (s.setPair n x).lost = s.lost := rfl
@[simp] theorem State.setPair_flash (s : State) (n : Nat) (x : PairS) : (s.setPair n x).flash = s.flash := rfl
@[simp] theorem State.setPair_eng (s : State) (n : Nat) (x : PairS) : (s.setPair n x).eng = s.eng := rfl
@[simp] theorem State.setPair_stb (s : State) (n : Nat) (x : PairS) : (s.setPair n x).stb = s.stb := rfl
@[simp] theorem State.setPair_fns (s : State) (n : Nat) (x : PairS) : (s.setPair n x).fns = s.fns := rfl
@[simp] theorem State.setPair_ic (s : State) (n : Nat) (x : PairS) : (s.setPair n x).ic = s.ic := rfl
@[simp] theorem State.setPair_rgn (s : State) (n : Nat) (x : PairS) : (s.setPair n x).rgn = s.rgn := rfl
@[simp] theorem State.setPair_lastInst (s : State) (n : Nat) (x : PairS) : (s.setPair n x).lastInst = s.lastInst := rfl
@[simp] theorem State.setPair_seenInst (s : State) (n : Nat) (x : PairS) : (s.setPair n x).seenInst = s.seenInst := rfl
@[simp] theorem State.setPair_jumpDue (s : State) (n : Nat) (x : PairS) : (s.setPair n x).jumpDue = s.jumpDue := rfl
@[simp] theorem State.setPair_ports (s : State) (n : Nat) (x : PairS) : (s.setPair n x).ports = s.ports := rfl
@[simp] theorem State.setPair_dirs (s : State) (n : Nat) (x : PairS) : (s.setPair n x).dirs = s.dirs := rfl
@[simp] theorem State.setPair_yard (s : State) (n : Nat) (x : PairS) : (s.setPair n x).yard = s.yard := rfl
@[simp] theorem State.setPair_tc (s : State) (n : Nat) (x : PairS) : (s.setPair n x).tc = s.tc := rfl
@[simp] theorem State.setPair_steps (s : State) (n : Nat) (x : PairS) : (s.setPair n x).steps = s.steps := rfl
@[simp] theorem State.setPair_steppedAt (s : State) (n : Nat) (x : PairS) : (s.setPair n x).steppedAt = s.steppedAt := rfl
@[simp] theorem State.setPair_sv (s : State) (n : Nat) (x : PairS) : (s.setPair n x).sv = s.sv := rfl
@[simp] theorem State.setPair_refs (s : State) (n : Nat) (x : PairS) : (s.setPair n x).refs = s.refs := rfl
@[simp] theorem State.setPair_pg (s : State) (n : Nat) (x : PairS) : (s.setPair n x).pg = s.pg := rfl
@[simp] theorem State.setPair_pd (s : State) (n : Nat) (x : PairS) : (s.setPair n x).pd = s.pd := rfl
@[simp] theorem State.setPair_can (s : State) (n : Nat) (x : PairS) : (s.setPair n x).can = s.can := rfl
@[simp] theorem State.setPair_pm (s : State) (n : Nat) (x : PairS) : (s.setPair n x).pm = s.pm := rfl
@[simp] theorem State.setPair_pins (s : State) (n : Nat) (x : PairS) : (s.setPair n x).pins = s.pins := rfl
@[simp] theorem State.setPair_pinPast (s : State) (n : Nat) (x : PairS) : (s.setPair n x).pinPast = s.pinPast := rfl
@[simp] theorem State.setPair_flagAt (s : State) (n : Nat) (x : PairS) : (s.setPair n x).flagAt = s.flagAt := rfl
@[simp] theorem State.setPair_tw (s : State) (n : Nat) (x : PairS) : (s.setPair n x).tw = s.tw := rfl
@[simp] theorem State.setPair_pw (s : State) (n : Nat) (x : PairS) : (s.setPair n x).pw = s.pw := rfl
@[simp] theorem State.setPair_boot (s : State) (n : Nat) (x : PairS) : (s.setPair n x).boot = s.boot := rfl
@[simp] theorem State.setPair_host (s : State) (n : Nat) (x : PairS) : (s.setPair n x).host = s.host := rfl
@[simp] theorem State.setPair_out (s : State) (n : Nat) (x : PairS) : (s.setPair n x).out = s.out := rfl
@[simp] theorem State.setPair_fld_get (s : State) (n : Nat) (x : PairS) (g : Fld) (a b : Nat) : (s.setPair n x).fld g a b = s.fld g a b := rfl
@[simp] theorem State.setPair_on_get (s : State) (n : Nat) (x : PairS) (g : Fld) (a b : Nat) : (s.setPair n x).on g a b = s.on g a b := rfl
@[simp] theorem State.setPair_shadow_get (s : State) (n : Nat) (x : PairS) (g : Fld) (a b : Nat) : (s.setPair n x).shadow g a b = s.shadow g a b := rfl
@[simp] theorem State.setPair_e_get (s : State) (n : Nat) (x : PairS) (a : Nat) : (s.setPair n x).e a = s.e a := rfl
@[simp] theorem State.setPair_st_get (s : State) (n : Nat) (x : PairS) (a : Nat) : (s.setPair n x).st a = s.st a := rfl
@[simp] theorem State.setPair_fn_get (s : State) (n : Nat) (x : PairS) (a : Nat) : (s.setPair n x).fn a = s.fn a := rfl
@[simp] theorem State.setPair_icT_get (s : State) (n : Nat) (x : PairS) (a : Nat) : (s.setPair n x).icT a = s.icT a := rfl
@[simp] theorem State.setPair_rg_get (s : State) (n : Nat) (x : PairS) (a : Nat) : (s.setPair n x).rg a = s.rg a := rfl
@[simp] theorem State.setPair_port_get (s : State) (n : Nat) (x : PairS) (a : Nat) : (s.setPair n x).port a = s.port a := rfl
@[simp] theorem State.setPair_dir_get (s : State) (n : Nat) (x : PairS) (a b : Nat) : (s.setPair n x).dir a b = s.dir a b := rfl
@[simp] theorem State.setPair_ctr_get (s : State) (n : Nat) (x : PairS) (a : Nat) : (s.setPair n x).ctr a = s.ctr a := rfl
@[simp] theorem State.setPair_servo_get (s : State) (n : Nat) (x : PairS) (a : Nat) : (s.setPair n x).servo a = s.servo a := rfl
@[simp] theorem State.setPair_pulse_get (s : State) (n : Nat) (x : PairS) (a : Nat) : (s.setPair n x).pulse a = s.pulse a := rfl
@[simp] theorem State.setPair_cn_get (s : State) (n : Nat) (x : PairS) (a : Nat) : (s.setPair n x).cn a = s.cn a := rfl
@[simp] theorem State.setPair_mach_get (s : State) (n : Nat) (x : PairS) (a b : Nat) : (s.setPair n x).mach a b = s.mach a b := rfl
@[simp] theorem State.setPair_pin_get (s : State) (n : Nat) (x : PairS) (a : Nat) : (s.setPair n x).pin a = s.pin a := rfl
@[simp] theorem State.setPair_clocksOn_get (s : State) (n : Nat) (x : PairS)  : (s.setPair n x).clocksOn = s.clocksOn := rfl
@[simp] theorem State.setPair_awake_get (s : State) (n : Nat) (x : PairS) (a : Nat) : (s.setPair n x).awake a = s.awake a := rfl
@[simp] theorem State.setPair_tk_get (s : State) (n : Nat) (x : PairS)  : (s.setPair n x).tk = s.tk := rfl
@[simp] theorem State.setPair_flashAt_get (s : State) (n : Nat) (x : PairS) (a : Nat) : (s.setPair n x).flashAt a = s.flashAt a := rfl

@[simp] theorem State.setIc_pending (s : State) (n : Nat) (x : IcS) : (s.setIc n x).pending = s.pending := rfl
@[simp] theorem State.setIc_tick (s : State) (n : Nat) (x : IcS) : (s.setIc n x).tick = s.tick := rfl
@[simp] theorem State.setIc_tkBase (s : State) (n : Nat) (x : IcS) : (s.setIc n x).tkBase = s.tkBase := rfl
@[simp] theorem State.setIc_period (s : State) (n : Nat) (x : IcS) : (s.setIc n x).period = s.period := rfl
@[simp] theorem State.setIc_fresh (s : State) (n : Nat) (x : IcS) : (s.setIc n x).fresh = s.fresh := rfl
@[simp] theorem State.setIc_act (s : State) (n : Nat) (x : IcS) : (s.setIc n x).act = s.act := rfl
@[simp] theorem State.setIc_shd (s : State) (n : Nat) (x : IcS) : (s.setIc n x).shd = s.shd := rfl
@[simp] theorem State.setIc_cap (s : State) (n : Nat) (x : IcS) : (s.setIc n x).cap = s.cap := rfl
@[simp] theorem State.setIc_lay (s : State) (n : Nat) (x : IcS) : (s.setIc n x).lay = s.lay := rfl
@[simp] theorem State.setIc_heldGo (s : State) (n : Nat) (x : IcS) : (s.setIc n x).heldGo = s.heldGo := rfl
@[simp] theorem State.setIc_loft (s : State) (n : Nat) (x : IcS) : (s.setIc n x).loft = s.loft := rfl
@[simp] theorem State.setIc_code (s : State) (n : Nat) (x : IcS) : (s.setIc n x).code = s.code := rfl
@[simp] theorem State.setIc_priv (s : State) (n : Nat) (x : IcS) : (s.setIc n x).priv = s.priv := rfl
@[simp] theorem State.setIc_mg (s : State) (n : Nat) (x : IcS) : (s.setIc n x).mg = s.mg := rfl
@[simp] theorem State.setIc_stage (s : State) (n : Nat) (x : IcS) : (s.setIc n x).stage = s.stage := rfl
@[simp] theorem State.setIc_scrub (s : State) (n : Nat) (x : IcS) : (s.setIc n x).scrub = s.scrub := rfl
@[simp] theorem State.setIc_lost (s : State) (n : Nat) (x : IcS) : (s.setIc n x).lost = s.lost := rfl
@[simp] theorem State.setIc_flash (s : State) (n : Nat) (x : IcS) : (s.setIc n x).flash = s.flash := rfl
@[simp] theorem State.setIc_eng (s : State) (n : Nat) (x : IcS) : (s.setIc n x).eng = s.eng := rfl
@[simp] theorem State.setIc_stb (s : State) (n : Nat) (x : IcS) : (s.setIc n x).stb = s.stb := rfl
@[simp] theorem State.setIc_fns (s : State) (n : Nat) (x : IcS) : (s.setIc n x).fns = s.fns := rfl
@[simp] theorem State.setIc_pairs (s : State) (n : Nat) (x : IcS) : (s.setIc n x).pairs = s.pairs := rfl
@[simp] theorem State.setIc_rgn (s : State) (n : Nat) (x : IcS) : (s.setIc n x).rgn = s.rgn := rfl
@[simp] theorem State.setIc_lastInst (s : State) (n : Nat) (x : IcS) : (s.setIc n x).lastInst = s.lastInst := rfl
@[simp] theorem State.setIc_seenInst (s : State) (n : Nat) (x : IcS) : (s.setIc n x).seenInst = s.seenInst := rfl
@[simp] theorem State.setIc_jumpDue (s : State) (n : Nat) (x : IcS) : (s.setIc n x).jumpDue = s.jumpDue := rfl
@[simp] theorem State.setIc_ports (s : State) (n : Nat) (x : IcS) : (s.setIc n x).ports = s.ports := rfl
@[simp] theorem State.setIc_dirs (s : State) (n : Nat) (x : IcS) : (s.setIc n x).dirs = s.dirs := rfl
@[simp] theorem State.setIc_yard (s : State) (n : Nat) (x : IcS) : (s.setIc n x).yard = s.yard := rfl
@[simp] theorem State.setIc_tc (s : State) (n : Nat) (x : IcS) : (s.setIc n x).tc = s.tc := rfl
@[simp] theorem State.setIc_steps (s : State) (n : Nat) (x : IcS) : (s.setIc n x).steps = s.steps := rfl
@[simp] theorem State.setIc_steppedAt (s : State) (n : Nat) (x : IcS) : (s.setIc n x).steppedAt = s.steppedAt := rfl
@[simp] theorem State.setIc_sv (s : State) (n : Nat) (x : IcS) : (s.setIc n x).sv = s.sv := rfl
@[simp] theorem State.setIc_refs (s : State) (n : Nat) (x : IcS) : (s.setIc n x).refs = s.refs := rfl
@[simp] theorem State.setIc_pg (s : State) (n : Nat) (x : IcS) : (s.setIc n x).pg = s.pg := rfl
@[simp] theorem State.setIc_pd (s : State) (n : Nat) (x : IcS) : (s.setIc n x).pd = s.pd := rfl
@[simp] theorem State.setIc_can (s : State) (n : Nat) (x : IcS) : (s.setIc n x).can = s.can := rfl
@[simp] theorem State.setIc_pm (s : State) (n : Nat) (x : IcS) : (s.setIc n x).pm = s.pm := rfl
@[simp] theorem State.setIc_pins (s : State) (n : Nat) (x : IcS) : (s.setIc n x).pins = s.pins := rfl
@[simp] theorem State.setIc_pinPast (s : State) (n : Nat) (x : IcS) : (s.setIc n x).pinPast = s.pinPast := rfl
@[simp] theorem State.setIc_flagAt (s : State) (n : Nat) (x : IcS) : (s.setIc n x).flagAt = s.flagAt := rfl
@[simp] theorem State.setIc_tw (s : State) (n : Nat) (x : IcS) : (s.setIc n x).tw = s.tw := rfl
@[simp] theorem State.setIc_pw (s : State) (n : Nat) (x : IcS) : (s.setIc n x).pw = s.pw := rfl
@[simp] theorem State.setIc_boot (s : State) (n : Nat) (x : IcS) : (s.setIc n x).boot = s.boot := rfl
@[simp] theorem State.setIc_host (s : State) (n : Nat) (x : IcS) : (s.setIc n x).host = s.host := rfl
@[simp] theorem State.setIc_out (s : State) (n : Nat) (x : IcS) : (s.setIc n x).out = s.out := rfl
@[simp] theorem State.setIc_fld_get (s : State) (n : Nat) (x : IcS) (g : Fld) (a b : Nat) : (s.setIc n x).fld g a b = s.fld g a b := rfl
@[simp] theorem State.setIc_on_get (s : State) (n : Nat) (x : IcS) (g : Fld) (a b : Nat) : (s.setIc n x).on g a b = s.on g a b := rfl
@[simp] theorem State.setIc_shadow_get (s : State) (n : Nat) (x : IcS) (g : Fld) (a b : Nat) : (s.setIc n x).shadow g a b = s.shadow g a b := rfl
@[simp] theorem State.setIc_e_get (s : State) (n : Nat) (x : IcS) (a : Nat) : (s.setIc n x).e a = s.e a := rfl
@[simp] theorem State.setIc_st_get (s : State) (n : Nat) (x : IcS) (a : Nat) : (s.setIc n x).st a = s.st a := rfl
@[simp] theorem State.setIc_fn_get (s : State) (n : Nat) (x : IcS) (a : Nat) : (s.setIc n x).fn a = s.fn a := rfl
@[simp] theorem State.setIc_pair_get (s : State) (n : Nat) (x : IcS) (a : Nat) : (s.setIc n x).pair a = s.pair a := rfl
@[simp] theorem State.setIc_rg_get (s : State) (n : Nat) (x : IcS) (a : Nat) : (s.setIc n x).rg a = s.rg a := rfl
@[simp] theorem State.setIc_port_get (s : State) (n : Nat) (x : IcS) (a : Nat) : (s.setIc n x).port a = s.port a := rfl
@[simp] theorem State.setIc_dir_get (s : State) (n : Nat) (x : IcS) (a b : Nat) : (s.setIc n x).dir a b = s.dir a b := rfl
@[simp] theorem State.setIc_ctr_get (s : State) (n : Nat) (x : IcS) (a : Nat) : (s.setIc n x).ctr a = s.ctr a := rfl
@[simp] theorem State.setIc_servo_get (s : State) (n : Nat) (x : IcS) (a : Nat) : (s.setIc n x).servo a = s.servo a := rfl
@[simp] theorem State.setIc_pulse_get (s : State) (n : Nat) (x : IcS) (a : Nat) : (s.setIc n x).pulse a = s.pulse a := rfl
@[simp] theorem State.setIc_cn_get (s : State) (n : Nat) (x : IcS) (a : Nat) : (s.setIc n x).cn a = s.cn a := rfl
@[simp] theorem State.setIc_mach_get (s : State) (n : Nat) (x : IcS) (a b : Nat) : (s.setIc n x).mach a b = s.mach a b := rfl
@[simp] theorem State.setIc_pin_get (s : State) (n : Nat) (x : IcS) (a : Nat) : (s.setIc n x).pin a = s.pin a := rfl
@[simp] theorem State.setIc_clocksOn_get (s : State) (n : Nat) (x : IcS)  : (s.setIc n x).clocksOn = s.clocksOn := rfl
@[simp] theorem State.setIc_awake_get (s : State) (n : Nat) (x : IcS) (a : Nat) : (s.setIc n x).awake a = s.awake a := rfl
@[simp] theorem State.setIc_tk_get (s : State) (n : Nat) (x : IcS)  : (s.setIc n x).tk = s.tk := rfl
@[simp] theorem State.setIc_flashAt_get (s : State) (n : Nat) (x : IcS) (a : Nat) : (s.setIc n x).flashAt a = s.flashAt a := rfl

@[simp] theorem State.setRg_pending (s : State) (n : Nat) (x : RgnS) : (s.setRg n x).pending = s.pending := rfl
@[simp] theorem State.setRg_tick (s : State) (n : Nat) (x : RgnS) : (s.setRg n x).tick = s.tick := rfl
@[simp] theorem State.setRg_tkBase (s : State) (n : Nat) (x : RgnS) : (s.setRg n x).tkBase = s.tkBase := rfl
@[simp] theorem State.setRg_period (s : State) (n : Nat) (x : RgnS) : (s.setRg n x).period = s.period := rfl
@[simp] theorem State.setRg_fresh (s : State) (n : Nat) (x : RgnS) : (s.setRg n x).fresh = s.fresh := rfl
@[simp] theorem State.setRg_act (s : State) (n : Nat) (x : RgnS) : (s.setRg n x).act = s.act := rfl
@[simp] theorem State.setRg_shd (s : State) (n : Nat) (x : RgnS) : (s.setRg n x).shd = s.shd := rfl
@[simp] theorem State.setRg_cap (s : State) (n : Nat) (x : RgnS) : (s.setRg n x).cap = s.cap := rfl
@[simp] theorem State.setRg_lay (s : State) (n : Nat) (x : RgnS) : (s.setRg n x).lay = s.lay := rfl
@[simp] theorem State.setRg_heldGo (s : State) (n : Nat) (x : RgnS) : (s.setRg n x).heldGo = s.heldGo := rfl
@[simp] theorem State.setRg_loft (s : State) (n : Nat) (x : RgnS) : (s.setRg n x).loft = s.loft := rfl
@[simp] theorem State.setRg_code (s : State) (n : Nat) (x : RgnS) : (s.setRg n x).code = s.code := rfl
@[simp] theorem State.setRg_priv (s : State) (n : Nat) (x : RgnS) : (s.setRg n x).priv = s.priv := rfl
@[simp] theorem State.setRg_mg (s : State) (n : Nat) (x : RgnS) : (s.setRg n x).mg = s.mg := rfl
@[simp] theorem State.setRg_stage (s : State) (n : Nat) (x : RgnS) : (s.setRg n x).stage = s.stage := rfl
@[simp] theorem State.setRg_scrub (s : State) (n : Nat) (x : RgnS) : (s.setRg n x).scrub = s.scrub := rfl
@[simp] theorem State.setRg_lost (s : State) (n : Nat) (x : RgnS) : (s.setRg n x).lost = s.lost := rfl
@[simp] theorem State.setRg_flash (s : State) (n : Nat) (x : RgnS) : (s.setRg n x).flash = s.flash := rfl
@[simp] theorem State.setRg_eng (s : State) (n : Nat) (x : RgnS) : (s.setRg n x).eng = s.eng := rfl
@[simp] theorem State.setRg_stb (s : State) (n : Nat) (x : RgnS) : (s.setRg n x).stb = s.stb := rfl
@[simp] theorem State.setRg_fns (s : State) (n : Nat) (x : RgnS) : (s.setRg n x).fns = s.fns := rfl
@[simp] theorem State.setRg_pairs (s : State) (n : Nat) (x : RgnS) : (s.setRg n x).pairs = s.pairs := rfl
@[simp] theorem State.setRg_ic (s : State) (n : Nat) (x : RgnS) : (s.setRg n x).ic = s.ic := rfl
@[simp] theorem State.setRg_lastInst (s : State) (n : Nat) (x : RgnS) : (s.setRg n x).lastInst = s.lastInst := rfl
@[simp] theorem State.setRg_seenInst (s : State) (n : Nat) (x : RgnS) : (s.setRg n x).seenInst = s.seenInst := rfl
@[simp] theorem State.setRg_jumpDue (s : State) (n : Nat) (x : RgnS) : (s.setRg n x).jumpDue = s.jumpDue := rfl
@[simp] theorem State.setRg_ports (s : State) (n : Nat) (x : RgnS) : (s.setRg n x).ports = s.ports := rfl
@[simp] theorem State.setRg_dirs (s : State) (n : Nat) (x : RgnS) : (s.setRg n x).dirs = s.dirs := rfl
@[simp] theorem State.setRg_yard (s : State) (n : Nat) (x : RgnS) : (s.setRg n x).yard = s.yard := rfl
@[simp] theorem State.setRg_tc (s : State) (n : Nat) (x : RgnS) : (s.setRg n x).tc = s.tc := rfl
@[simp] theorem State.setRg_steps (s : State) (n : Nat) (x : RgnS) : (s.setRg n x).steps = s.steps := rfl
@[simp] theorem State.setRg_steppedAt (s : State) (n : Nat) (x : RgnS) : (s.setRg n x).steppedAt = s.steppedAt := rfl
@[simp] theorem State.setRg_sv (s : State) (n : Nat) (x : RgnS) : (s.setRg n x).sv = s.sv := rfl
@[simp] theorem State.setRg_refs (s : State) (n : Nat) (x : RgnS) : (s.setRg n x).refs = s.refs := rfl
@[simp] theorem State.setRg_pg (s : State) (n : Nat) (x : RgnS) : (s.setRg n x).pg = s.pg := rfl
@[simp] theorem State.setRg_pd (s : State) (n : Nat) (x : RgnS) : (s.setRg n x).pd = s.pd := rfl
@[simp] theorem State.setRg_can (s : State) (n : Nat) (x : RgnS) : (s.setRg n x).can = s.can := rfl
@[simp] theorem State.setRg_pm (s : State) (n : Nat) (x : RgnS) : (s.setRg n x).pm = s.pm := rfl
@[simp] theorem State.setRg_pins (s : State) (n : Nat) (x : RgnS) : (s.setRg n x).pins = s.pins := rfl
@[simp] theorem State.setRg_pinPast (s : State) (n : Nat) (x : RgnS) : (s.setRg n x).pinPast = s.pinPast := rfl
@[simp] theorem State.setRg_flagAt (s : State) (n : Nat) (x : RgnS) : (s.setRg n x).flagAt = s.flagAt := rfl
@[simp] theorem State.setRg_tw (s : State) (n : Nat) (x : RgnS) : (s.setRg n x).tw = s.tw := rfl
@[simp] theorem State.setRg_pw (s : State) (n : Nat) (x : RgnS) : (s.setRg n x).pw = s.pw := rfl
@[simp] theorem State.setRg_boot (s : State) (n : Nat) (x : RgnS) : (s.setRg n x).boot = s.boot := rfl
@[simp] theorem State.setRg_host (s : State) (n : Nat) (x : RgnS) : (s.setRg n x).host = s.host := rfl
@[simp] theorem State.setRg_out (s : State) (n : Nat) (x : RgnS) : (s.setRg n x).out = s.out := rfl
@[simp] theorem State.setRg_fld_get (s : State) (n : Nat) (x : RgnS) (g : Fld) (a b : Nat) : (s.setRg n x).fld g a b = s.fld g a b := rfl
@[simp] theorem State.setRg_on_get (s : State) (n : Nat) (x : RgnS) (g : Fld) (a b : Nat) : (s.setRg n x).on g a b = s.on g a b := rfl
@[simp] theorem State.setRg_shadow_get (s : State) (n : Nat) (x : RgnS) (g : Fld) (a b : Nat) : (s.setRg n x).shadow g a b = s.shadow g a b := rfl
@[simp] theorem State.setRg_e_get (s : State) (n : Nat) (x : RgnS) (a : Nat) : (s.setRg n x).e a = s.e a := rfl
@[simp] theorem State.setRg_st_get (s : State) (n : Nat) (x : RgnS) (a : Nat) : (s.setRg n x).st a = s.st a := rfl
@[simp] theorem State.setRg_fn_get (s : State) (n : Nat) (x : RgnS) (a : Nat) : (s.setRg n x).fn a = s.fn a := rfl
@[simp] theorem State.setRg_pair_get (s : State) (n : Nat) (x : RgnS) (a : Nat) : (s.setRg n x).pair a = s.pair a := rfl
@[simp] theorem State.setRg_icT_get (s : State) (n : Nat) (x : RgnS) (a : Nat) : (s.setRg n x).icT a = s.icT a := rfl
@[simp] theorem State.setRg_port_get (s : State) (n : Nat) (x : RgnS) (a : Nat) : (s.setRg n x).port a = s.port a := rfl
@[simp] theorem State.setRg_dir_get (s : State) (n : Nat) (x : RgnS) (a b : Nat) : (s.setRg n x).dir a b = s.dir a b := rfl
@[simp] theorem State.setRg_ctr_get (s : State) (n : Nat) (x : RgnS) (a : Nat) : (s.setRg n x).ctr a = s.ctr a := rfl
@[simp] theorem State.setRg_servo_get (s : State) (n : Nat) (x : RgnS) (a : Nat) : (s.setRg n x).servo a = s.servo a := rfl
@[simp] theorem State.setRg_pulse_get (s : State) (n : Nat) (x : RgnS) (a : Nat) : (s.setRg n x).pulse a = s.pulse a := rfl
@[simp] theorem State.setRg_cn_get (s : State) (n : Nat) (x : RgnS) (a : Nat) : (s.setRg n x).cn a = s.cn a := rfl
@[simp] theorem State.setRg_mach_get (s : State) (n : Nat) (x : RgnS) (a b : Nat) : (s.setRg n x).mach a b = s.mach a b := rfl
@[simp] theorem State.setRg_pin_get (s : State) (n : Nat) (x : RgnS) (a : Nat) : (s.setRg n x).pin a = s.pin a := rfl
@[simp] theorem State.setRg_clocksOn_get (s : State) (n : Nat) (x : RgnS)  : (s.setRg n x).clocksOn = s.clocksOn := rfl
@[simp] theorem State.setRg_awake_get (s : State) (n : Nat) (x : RgnS) (a : Nat) : (s.setRg n x).awake a = s.awake a := rfl
@[simp] theorem State.setRg_tk_get (s : State) (n : Nat) (x : RgnS)  : (s.setRg n x).tk = s.tk := rfl
@[simp] theorem State.setRg_flashAt_get (s : State) (n : Nat) (x : RgnS) (a : Nat) : (s.setRg n x).flashAt a = s.flashAt a := rfl

@[simp] theorem State.setPort_pending (s : State) (n : Nat) (x : PortS) : (s.setPort n x).pending = s.pending := rfl
@[simp] theorem State.setPort_tick (s : State) (n : Nat) (x : PortS) : (s.setPort n x).tick = s.tick := rfl
@[simp] theorem State.setPort_tkBase (s : State) (n : Nat) (x : PortS) : (s.setPort n x).tkBase = s.tkBase := rfl
@[simp] theorem State.setPort_period (s : State) (n : Nat) (x : PortS) : (s.setPort n x).period = s.period := rfl
@[simp] theorem State.setPort_fresh (s : State) (n : Nat) (x : PortS) : (s.setPort n x).fresh = s.fresh := rfl
@[simp] theorem State.setPort_act (s : State) (n : Nat) (x : PortS) : (s.setPort n x).act = s.act := rfl
@[simp] theorem State.setPort_shd (s : State) (n : Nat) (x : PortS) : (s.setPort n x).shd = s.shd := rfl
@[simp] theorem State.setPort_cap (s : State) (n : Nat) (x : PortS) : (s.setPort n x).cap = s.cap := rfl
@[simp] theorem State.setPort_lay (s : State) (n : Nat) (x : PortS) : (s.setPort n x).lay = s.lay := rfl
@[simp] theorem State.setPort_heldGo (s : State) (n : Nat) (x : PortS) : (s.setPort n x).heldGo = s.heldGo := rfl
@[simp] theorem State.setPort_loft (s : State) (n : Nat) (x : PortS) : (s.setPort n x).loft = s.loft := rfl
@[simp] theorem State.setPort_code (s : State) (n : Nat) (x : PortS) : (s.setPort n x).code = s.code := rfl
@[simp] theorem State.setPort_priv (s : State) (n : Nat) (x : PortS) : (s.setPort n x).priv = s.priv := rfl
@[simp] theorem State.setPort_mg (s : State) (n : Nat) (x : PortS) : (s.setPort n x).mg = s.mg := rfl
@[simp] theorem State.setPort_stage (s : State) (n : Nat) (x : PortS) : (s.setPort n x).stage = s.stage := rfl
@[simp] theorem State.setPort_scrub (s : State) (n : Nat) (x : PortS) : (s.setPort n x).scrub = s.scrub := rfl
@[simp] theorem State.setPort_lost (s : State) (n : Nat) (x : PortS) : (s.setPort n x).lost = s.lost := rfl
@[simp] theorem State.setPort_flash (s : State) (n : Nat) (x : PortS) : (s.setPort n x).flash = s.flash := rfl
@[simp] theorem State.setPort_eng (s : State) (n : Nat) (x : PortS) : (s.setPort n x).eng = s.eng := rfl
@[simp] theorem State.setPort_stb (s : State) (n : Nat) (x : PortS) : (s.setPort n x).stb = s.stb := rfl
@[simp] theorem State.setPort_fns (s : State) (n : Nat) (x : PortS) : (s.setPort n x).fns = s.fns := rfl
@[simp] theorem State.setPort_pairs (s : State) (n : Nat) (x : PortS) : (s.setPort n x).pairs = s.pairs := rfl
@[simp] theorem State.setPort_ic (s : State) (n : Nat) (x : PortS) : (s.setPort n x).ic = s.ic := rfl
@[simp] theorem State.setPort_rgn (s : State) (n : Nat) (x : PortS) : (s.setPort n x).rgn = s.rgn := rfl
@[simp] theorem State.setPort_lastInst (s : State) (n : Nat) (x : PortS) : (s.setPort n x).lastInst = s.lastInst := rfl
@[simp] theorem State.setPort_seenInst (s : State) (n : Nat) (x : PortS) : (s.setPort n x).seenInst = s.seenInst := rfl
@[simp] theorem State.setPort_jumpDue (s : State) (n : Nat) (x : PortS) : (s.setPort n x).jumpDue = s.jumpDue := rfl
@[simp] theorem State.setPort_dirs (s : State) (n : Nat) (x : PortS) : (s.setPort n x).dirs = s.dirs := rfl
@[simp] theorem State.setPort_yard (s : State) (n : Nat) (x : PortS) : (s.setPort n x).yard = s.yard := rfl
@[simp] theorem State.setPort_tc (s : State) (n : Nat) (x : PortS) : (s.setPort n x).tc = s.tc := rfl
@[simp] theorem State.setPort_steps (s : State) (n : Nat) (x : PortS) : (s.setPort n x).steps = s.steps := rfl
@[simp] theorem State.setPort_steppedAt (s : State) (n : Nat) (x : PortS) : (s.setPort n x).steppedAt = s.steppedAt := rfl
@[simp] theorem State.setPort_sv (s : State) (n : Nat) (x : PortS) : (s.setPort n x).sv = s.sv := rfl
@[simp] theorem State.setPort_refs (s : State) (n : Nat) (x : PortS) : (s.setPort n x).refs = s.refs := rfl
@[simp] theorem State.setPort_pg (s : State) (n : Nat) (x : PortS) : (s.setPort n x).pg = s.pg := rfl
@[simp] theorem State.setPort_pd (s : State) (n : Nat) (x : PortS) : (s.setPort n x).pd = s.pd := rfl
@[simp] theorem State.setPort_can (s : State) (n : Nat) (x : PortS) : (s.setPort n x).can = s.can := rfl
@[simp] theorem State.setPort_pm (s : State) (n : Nat) (x : PortS) : (s.setPort n x).pm = s.pm := rfl
@[simp] theorem State.setPort_pins (s : State) (n : Nat) (x : PortS) : (s.setPort n x).pins = s.pins := rfl
@[simp] theorem State.setPort_pinPast (s : State) (n : Nat) (x : PortS) : (s.setPort n x).pinPast = s.pinPast := rfl
@[simp] theorem State.setPort_flagAt (s : State) (n : Nat) (x : PortS) : (s.setPort n x).flagAt = s.flagAt := rfl
@[simp] theorem State.setPort_tw (s : State) (n : Nat) (x : PortS) : (s.setPort n x).tw = s.tw := rfl
@[simp] theorem State.setPort_pw (s : State) (n : Nat) (x : PortS) : (s.setPort n x).pw = s.pw := rfl
@[simp] theorem State.setPort_boot (s : State) (n : Nat) (x : PortS) : (s.setPort n x).boot = s.boot := rfl
@[simp] theorem State.setPort_host (s : State) (n : Nat) (x : PortS) : (s.setPort n x).host = s.host := rfl
@[simp] theorem State.setPort_out (s : State) (n : Nat) (x : PortS) : (s.setPort n x).out = s.out := rfl
@[simp] theorem State.setPort_fld_get (s : State) (n : Nat) (x : PortS) (g : Fld) (a b : Nat) : (s.setPort n x).fld g a b = s.fld g a b := rfl
@[simp] theorem State.setPort_on_get (s : State) (n : Nat) (x : PortS) (g : Fld) (a b : Nat) : (s.setPort n x).on g a b = s.on g a b := rfl
@[simp] theorem State.setPort_shadow_get (s : State) (n : Nat) (x : PortS) (g : Fld) (a b : Nat) : (s.setPort n x).shadow g a b = s.shadow g a b := rfl
@[simp] theorem State.setPort_e_get (s : State) (n : Nat) (x : PortS) (a : Nat) : (s.setPort n x).e a = s.e a := rfl
@[simp] theorem State.setPort_st_get (s : State) (n : Nat) (x : PortS) (a : Nat) : (s.setPort n x).st a = s.st a := rfl
@[simp] theorem State.setPort_fn_get (s : State) (n : Nat) (x : PortS) (a : Nat) : (s.setPort n x).fn a = s.fn a := rfl
@[simp] theorem State.setPort_pair_get (s : State) (n : Nat) (x : PortS) (a : Nat) : (s.setPort n x).pair a = s.pair a := rfl
@[simp] theorem State.setPort_icT_get (s : State) (n : Nat) (x : PortS) (a : Nat) : (s.setPort n x).icT a = s.icT a := rfl
@[simp] theorem State.setPort_rg_get (s : State) (n : Nat) (x : PortS) (a : Nat) : (s.setPort n x).rg a = s.rg a := rfl
@[simp] theorem State.setPort_dir_get (s : State) (n : Nat) (x : PortS) (a b : Nat) : (s.setPort n x).dir a b = s.dir a b := rfl
@[simp] theorem State.setPort_ctr_get (s : State) (n : Nat) (x : PortS) (a : Nat) : (s.setPort n x).ctr a = s.ctr a := rfl
@[simp] theorem State.setPort_servo_get (s : State) (n : Nat) (x : PortS) (a : Nat) : (s.setPort n x).servo a = s.servo a := rfl
@[simp] theorem State.setPort_pulse_get (s : State) (n : Nat) (x : PortS) (a : Nat) : (s.setPort n x).pulse a = s.pulse a := rfl
@[simp] theorem State.setPort_cn_get (s : State) (n : Nat) (x : PortS) (a : Nat) : (s.setPort n x).cn a = s.cn a := rfl
@[simp] theorem State.setPort_mach_get (s : State) (n : Nat) (x : PortS) (a b : Nat) : (s.setPort n x).mach a b = s.mach a b := rfl
@[simp] theorem State.setPort_pin_get (s : State) (n : Nat) (x : PortS) (a : Nat) : (s.setPort n x).pin a = s.pin a := rfl
@[simp] theorem State.setPort_clocksOn_get (s : State) (n : Nat) (x : PortS)  : (s.setPort n x).clocksOn = s.clocksOn := rfl
@[simp] theorem State.setPort_awake_get (s : State) (n : Nat) (x : PortS) (a : Nat) : (s.setPort n x).awake a = s.awake a := rfl
@[simp] theorem State.setPort_tk_get (s : State) (n : Nat) (x : PortS)  : (s.setPort n x).tk = s.tk := rfl
@[simp] theorem State.setPort_flashAt_get (s : State) (n : Nat) (x : PortS) (a : Nat) : (s.setPort n x).flashAt a = s.flashAt a := rfl

@[simp] theorem State.setDir_pending (s : State) (k n : Nat) (x : DirS) : (s.setDir k n x).pending = s.pending := rfl
@[simp] theorem State.setDir_tick (s : State) (k n : Nat) (x : DirS) : (s.setDir k n x).tick = s.tick := rfl
@[simp] theorem State.setDir_tkBase (s : State) (k n : Nat) (x : DirS) : (s.setDir k n x).tkBase = s.tkBase := rfl
@[simp] theorem State.setDir_period (s : State) (k n : Nat) (x : DirS) : (s.setDir k n x).period = s.period := rfl
@[simp] theorem State.setDir_fresh (s : State) (k n : Nat) (x : DirS) : (s.setDir k n x).fresh = s.fresh := rfl
@[simp] theorem State.setDir_act (s : State) (k n : Nat) (x : DirS) : (s.setDir k n x).act = s.act := rfl
@[simp] theorem State.setDir_shd (s : State) (k n : Nat) (x : DirS) : (s.setDir k n x).shd = s.shd := rfl
@[simp] theorem State.setDir_cap (s : State) (k n : Nat) (x : DirS) : (s.setDir k n x).cap = s.cap := rfl
@[simp] theorem State.setDir_lay (s : State) (k n : Nat) (x : DirS) : (s.setDir k n x).lay = s.lay := rfl
@[simp] theorem State.setDir_heldGo (s : State) (k n : Nat) (x : DirS) : (s.setDir k n x).heldGo = s.heldGo := rfl
@[simp] theorem State.setDir_loft (s : State) (k n : Nat) (x : DirS) : (s.setDir k n x).loft = s.loft := rfl
@[simp] theorem State.setDir_code (s : State) (k n : Nat) (x : DirS) : (s.setDir k n x).code = s.code := rfl
@[simp] theorem State.setDir_priv (s : State) (k n : Nat) (x : DirS) : (s.setDir k n x).priv = s.priv := rfl
@[simp] theorem State.setDir_mg (s : State) (k n : Nat) (x : DirS) : (s.setDir k n x).mg = s.mg := rfl
@[simp] theorem State.setDir_stage (s : State) (k n : Nat) (x : DirS) : (s.setDir k n x).stage = s.stage := rfl
@[simp] theorem State.setDir_scrub (s : State) (k n : Nat) (x : DirS) : (s.setDir k n x).scrub = s.scrub := rfl
@[simp] theorem State.setDir_lost (s : State) (k n : Nat) (x : DirS) : (s.setDir k n x).lost = s.lost := rfl
@[simp] theorem State.setDir_flash (s : State) (k n : Nat) (x : DirS) : (s.setDir k n x).flash = s.flash := rfl
@[simp] theorem State.setDir_eng (s : State) (k n : Nat) (x : DirS) : (s.setDir k n x).eng = s.eng := rfl
@[simp] theorem State.setDir_stb (s : State) (k n : Nat) (x : DirS) : (s.setDir k n x).stb = s.stb := rfl
@[simp] theorem State.setDir_fns (s : State) (k n : Nat) (x : DirS) : (s.setDir k n x).fns = s.fns := rfl
@[simp] theorem State.setDir_pairs (s : State) (k n : Nat) (x : DirS) : (s.setDir k n x).pairs = s.pairs := rfl
@[simp] theorem State.setDir_ic (s : State) (k n : Nat) (x : DirS) : (s.setDir k n x).ic = s.ic := rfl
@[simp] theorem State.setDir_rgn (s : State) (k n : Nat) (x : DirS) : (s.setDir k n x).rgn = s.rgn := rfl
@[simp] theorem State.setDir_lastInst (s : State) (k n : Nat) (x : DirS) : (s.setDir k n x).lastInst = s.lastInst := rfl
@[simp] theorem State.setDir_seenInst (s : State) (k n : Nat) (x : DirS) : (s.setDir k n x).seenInst = s.seenInst := rfl
@[simp] theorem State.setDir_jumpDue (s : State) (k n : Nat) (x : DirS) : (s.setDir k n x).jumpDue = s.jumpDue := rfl
@[simp] theorem State.setDir_ports (s : State) (k n : Nat) (x : DirS) : (s.setDir k n x).ports = s.ports := rfl
@[simp] theorem State.setDir_yard (s : State) (k n : Nat) (x : DirS) : (s.setDir k n x).yard = s.yard := rfl
@[simp] theorem State.setDir_tc (s : State) (k n : Nat) (x : DirS) : (s.setDir k n x).tc = s.tc := rfl
@[simp] theorem State.setDir_steps (s : State) (k n : Nat) (x : DirS) : (s.setDir k n x).steps = s.steps := rfl
@[simp] theorem State.setDir_steppedAt (s : State) (k n : Nat) (x : DirS) : (s.setDir k n x).steppedAt = s.steppedAt := rfl
@[simp] theorem State.setDir_sv (s : State) (k n : Nat) (x : DirS) : (s.setDir k n x).sv = s.sv := rfl
@[simp] theorem State.setDir_refs (s : State) (k n : Nat) (x : DirS) : (s.setDir k n x).refs = s.refs := rfl
@[simp] theorem State.setDir_pg (s : State) (k n : Nat) (x : DirS) : (s.setDir k n x).pg = s.pg := rfl
@[simp] theorem State.setDir_pd (s : State) (k n : Nat) (x : DirS) : (s.setDir k n x).pd = s.pd := rfl
@[simp] theorem State.setDir_can (s : State) (k n : Nat) (x : DirS) : (s.setDir k n x).can = s.can := rfl
@[simp] theorem State.setDir_pm (s : State) (k n : Nat) (x : DirS) : (s.setDir k n x).pm = s.pm := rfl
@[simp] theorem State.setDir_pins (s : State) (k n : Nat) (x : DirS) : (s.setDir k n x).pins = s.pins := rfl
@[simp] theorem State.setDir_pinPast (s : State) (k n : Nat) (x : DirS) : (s.setDir k n x).pinPast = s.pinPast := rfl
@[simp] theorem State.setDir_flagAt (s : State) (k n : Nat) (x : DirS) : (s.setDir k n x).flagAt = s.flagAt := rfl
@[simp] theorem State.setDir_tw (s : State) (k n : Nat) (x : DirS) : (s.setDir k n x).tw = s.tw := rfl
@[simp] theorem State.setDir_pw (s : State) (k n : Nat) (x : DirS) : (s.setDir k n x).pw = s.pw := rfl
@[simp] theorem State.setDir_boot (s : State) (k n : Nat) (x : DirS) : (s.setDir k n x).boot = s.boot := rfl
@[simp] theorem State.setDir_host (s : State) (k n : Nat) (x : DirS) : (s.setDir k n x).host = s.host := rfl
@[simp] theorem State.setDir_out (s : State) (k n : Nat) (x : DirS) : (s.setDir k n x).out = s.out := rfl
@[simp] theorem State.setDir_fld_get (s : State) (k n : Nat) (x : DirS) (g : Fld) (a b : Nat) : (s.setDir k n x).fld g a b = s.fld g a b := rfl
@[simp] theorem State.setDir_on_get (s : State) (k n : Nat) (x : DirS) (g : Fld) (a b : Nat) : (s.setDir k n x).on g a b = s.on g a b := rfl
@[simp] theorem State.setDir_shadow_get (s : State) (k n : Nat) (x : DirS) (g : Fld) (a b : Nat) : (s.setDir k n x).shadow g a b = s.shadow g a b := rfl
@[simp] theorem State.setDir_e_get (s : State) (k n : Nat) (x : DirS) (a : Nat) : (s.setDir k n x).e a = s.e a := rfl
@[simp] theorem State.setDir_st_get (s : State) (k n : Nat) (x : DirS) (a : Nat) : (s.setDir k n x).st a = s.st a := rfl
@[simp] theorem State.setDir_fn_get (s : State) (k n : Nat) (x : DirS) (a : Nat) : (s.setDir k n x).fn a = s.fn a := rfl
@[simp] theorem State.setDir_pair_get (s : State) (k n : Nat) (x : DirS) (a : Nat) : (s.setDir k n x).pair a = s.pair a := rfl
@[simp] theorem State.setDir_icT_get (s : State) (k n : Nat) (x : DirS) (a : Nat) : (s.setDir k n x).icT a = s.icT a := rfl
@[simp] theorem State.setDir_rg_get (s : State) (k n : Nat) (x : DirS) (a : Nat) : (s.setDir k n x).rg a = s.rg a := rfl
@[simp] theorem State.setDir_port_get (s : State) (k n : Nat) (x : DirS) (a : Nat) : (s.setDir k n x).port a = s.port a := rfl
@[simp] theorem State.setDir_ctr_get (s : State) (k n : Nat) (x : DirS) (a : Nat) : (s.setDir k n x).ctr a = s.ctr a := rfl
@[simp] theorem State.setDir_servo_get (s : State) (k n : Nat) (x : DirS) (a : Nat) : (s.setDir k n x).servo a = s.servo a := rfl
@[simp] theorem State.setDir_pulse_get (s : State) (k n : Nat) (x : DirS) (a : Nat) : (s.setDir k n x).pulse a = s.pulse a := rfl
@[simp] theorem State.setDir_cn_get (s : State) (k n : Nat) (x : DirS) (a : Nat) : (s.setDir k n x).cn a = s.cn a := rfl
@[simp] theorem State.setDir_mach_get (s : State) (k n : Nat) (x : DirS) (a b : Nat) : (s.setDir k n x).mach a b = s.mach a b := rfl
@[simp] theorem State.setDir_pin_get (s : State) (k n : Nat) (x : DirS) (a : Nat) : (s.setDir k n x).pin a = s.pin a := rfl
@[simp] theorem State.setDir_clocksOn_get (s : State) (k n : Nat) (x : DirS)  : (s.setDir k n x).clocksOn = s.clocksOn := rfl
@[simp] theorem State.setDir_awake_get (s : State) (k n : Nat) (x : DirS) (a : Nat) : (s.setDir k n x).awake a = s.awake a := rfl
@[simp] theorem State.setDir_tk_get (s : State) (k n : Nat) (x : DirS)  : (s.setDir k n x).tk = s.tk := rfl
@[simp] theorem State.setDir_flashAt_get (s : State) (k n : Nat) (x : DirS) (a : Nat) : (s.setDir k n x).flashAt a = s.flashAt a := rfl

@[simp] theorem State.setCtr_pending (s : State) (n : Nat) (x : TCnt) : (s.setCtr n x).pending = s.pending := rfl
@[simp] theorem State.setCtr_tick (s : State) (n : Nat) (x : TCnt) : (s.setCtr n x).tick = s.tick := rfl
@[simp] theorem State.setCtr_tkBase (s : State) (n : Nat) (x : TCnt) : (s.setCtr n x).tkBase = s.tkBase := rfl
@[simp] theorem State.setCtr_period (s : State) (n : Nat) (x : TCnt) : (s.setCtr n x).period = s.period := rfl
@[simp] theorem State.setCtr_fresh (s : State) (n : Nat) (x : TCnt) : (s.setCtr n x).fresh = s.fresh := rfl
@[simp] theorem State.setCtr_act (s : State) (n : Nat) (x : TCnt) : (s.setCtr n x).act = s.act := rfl
@[simp] theorem State.setCtr_shd (s : State) (n : Nat) (x : TCnt) : (s.setCtr n x).shd = s.shd := rfl
@[simp] theorem State.setCtr_cap (s : State) (n : Nat) (x : TCnt) : (s.setCtr n x).cap = s.cap := rfl
@[simp] theorem State.setCtr_lay (s : State) (n : Nat) (x : TCnt) : (s.setCtr n x).lay = s.lay := rfl
@[simp] theorem State.setCtr_heldGo (s : State) (n : Nat) (x : TCnt) : (s.setCtr n x).heldGo = s.heldGo := rfl
@[simp] theorem State.setCtr_loft (s : State) (n : Nat) (x : TCnt) : (s.setCtr n x).loft = s.loft := rfl
@[simp] theorem State.setCtr_code (s : State) (n : Nat) (x : TCnt) : (s.setCtr n x).code = s.code := rfl
@[simp] theorem State.setCtr_priv (s : State) (n : Nat) (x : TCnt) : (s.setCtr n x).priv = s.priv := rfl
@[simp] theorem State.setCtr_mg (s : State) (n : Nat) (x : TCnt) : (s.setCtr n x).mg = s.mg := rfl
@[simp] theorem State.setCtr_stage (s : State) (n : Nat) (x : TCnt) : (s.setCtr n x).stage = s.stage := rfl
@[simp] theorem State.setCtr_scrub (s : State) (n : Nat) (x : TCnt) : (s.setCtr n x).scrub = s.scrub := rfl
@[simp] theorem State.setCtr_lost (s : State) (n : Nat) (x : TCnt) : (s.setCtr n x).lost = s.lost := rfl
@[simp] theorem State.setCtr_flash (s : State) (n : Nat) (x : TCnt) : (s.setCtr n x).flash = s.flash := rfl
@[simp] theorem State.setCtr_eng (s : State) (n : Nat) (x : TCnt) : (s.setCtr n x).eng = s.eng := rfl
@[simp] theorem State.setCtr_stb (s : State) (n : Nat) (x : TCnt) : (s.setCtr n x).stb = s.stb := rfl
@[simp] theorem State.setCtr_fns (s : State) (n : Nat) (x : TCnt) : (s.setCtr n x).fns = s.fns := rfl
@[simp] theorem State.setCtr_pairs (s : State) (n : Nat) (x : TCnt) : (s.setCtr n x).pairs = s.pairs := rfl
@[simp] theorem State.setCtr_ic (s : State) (n : Nat) (x : TCnt) : (s.setCtr n x).ic = s.ic := rfl
@[simp] theorem State.setCtr_rgn (s : State) (n : Nat) (x : TCnt) : (s.setCtr n x).rgn = s.rgn := rfl
@[simp] theorem State.setCtr_lastInst (s : State) (n : Nat) (x : TCnt) : (s.setCtr n x).lastInst = s.lastInst := rfl
@[simp] theorem State.setCtr_seenInst (s : State) (n : Nat) (x : TCnt) : (s.setCtr n x).seenInst = s.seenInst := rfl
@[simp] theorem State.setCtr_jumpDue (s : State) (n : Nat) (x : TCnt) : (s.setCtr n x).jumpDue = s.jumpDue := rfl
@[simp] theorem State.setCtr_ports (s : State) (n : Nat) (x : TCnt) : (s.setCtr n x).ports = s.ports := rfl
@[simp] theorem State.setCtr_dirs (s : State) (n : Nat) (x : TCnt) : (s.setCtr n x).dirs = s.dirs := rfl
@[simp] theorem State.setCtr_yard (s : State) (n : Nat) (x : TCnt) : (s.setCtr n x).yard = s.yard := rfl
@[simp] theorem State.setCtr_steps (s : State) (n : Nat) (x : TCnt) : (s.setCtr n x).steps = s.steps := rfl
@[simp] theorem State.setCtr_steppedAt (s : State) (n : Nat) (x : TCnt) : (s.setCtr n x).steppedAt = s.steppedAt := rfl
@[simp] theorem State.setCtr_sv (s : State) (n : Nat) (x : TCnt) : (s.setCtr n x).sv = s.sv := rfl
@[simp] theorem State.setCtr_refs (s : State) (n : Nat) (x : TCnt) : (s.setCtr n x).refs = s.refs := rfl
@[simp] theorem State.setCtr_pg (s : State) (n : Nat) (x : TCnt) : (s.setCtr n x).pg = s.pg := rfl
@[simp] theorem State.setCtr_pd (s : State) (n : Nat) (x : TCnt) : (s.setCtr n x).pd = s.pd := rfl
@[simp] theorem State.setCtr_can (s : State) (n : Nat) (x : TCnt) : (s.setCtr n x).can = s.can := rfl
@[simp] theorem State.setCtr_pm (s : State) (n : Nat) (x : TCnt) : (s.setCtr n x).pm = s.pm := rfl
@[simp] theorem State.setCtr_pins (s : State) (n : Nat) (x : TCnt) : (s.setCtr n x).pins = s.pins := rfl
@[simp] theorem State.setCtr_pinPast (s : State) (n : Nat) (x : TCnt) : (s.setCtr n x).pinPast = s.pinPast := rfl
@[simp] theorem State.setCtr_flagAt (s : State) (n : Nat) (x : TCnt) : (s.setCtr n x).flagAt = s.flagAt := rfl
@[simp] theorem State.setCtr_tw (s : State) (n : Nat) (x : TCnt) : (s.setCtr n x).tw = s.tw := rfl
@[simp] theorem State.setCtr_pw (s : State) (n : Nat) (x : TCnt) : (s.setCtr n x).pw = s.pw := rfl
@[simp] theorem State.setCtr_boot (s : State) (n : Nat) (x : TCnt) : (s.setCtr n x).boot = s.boot := rfl
@[simp] theorem State.setCtr_host (s : State) (n : Nat) (x : TCnt) : (s.setCtr n x).host = s.host := rfl
@[simp] theorem State.setCtr_out (s : State) (n : Nat) (x : TCnt) : (s.setCtr n x).out = s.out := rfl
@[simp] theorem State.setCtr_fld_get (s : State) (n : Nat) (x : TCnt) (g : Fld) (a b : Nat) : (s.setCtr n x).fld g a b = s.fld g a b := rfl
@[simp] theorem State.setCtr_on_get (s : State) (n : Nat) (x : TCnt) (g : Fld) (a b : Nat) : (s.setCtr n x).on g a b = s.on g a b := rfl
@[simp] theorem State.setCtr_shadow_get (s : State) (n : Nat) (x : TCnt) (g : Fld) (a b : Nat) : (s.setCtr n x).shadow g a b = s.shadow g a b := rfl
@[simp] theorem State.setCtr_e_get (s : State) (n : Nat) (x : TCnt) (a : Nat) : (s.setCtr n x).e a = s.e a := rfl
@[simp] theorem State.setCtr_st_get (s : State) (n : Nat) (x : TCnt) (a : Nat) : (s.setCtr n x).st a = s.st a := rfl
@[simp] theorem State.setCtr_fn_get (s : State) (n : Nat) (x : TCnt) (a : Nat) : (s.setCtr n x).fn a = s.fn a := rfl
@[simp] theorem State.setCtr_pair_get (s : State) (n : Nat) (x : TCnt) (a : Nat) : (s.setCtr n x).pair a = s.pair a := rfl
@[simp] theorem State.setCtr_icT_get (s : State) (n : Nat) (x : TCnt) (a : Nat) : (s.setCtr n x).icT a = s.icT a := rfl
@[simp] theorem State.setCtr_rg_get (s : State) (n : Nat) (x : TCnt) (a : Nat) : (s.setCtr n x).rg a = s.rg a := rfl
@[simp] theorem State.setCtr_port_get (s : State) (n : Nat) (x : TCnt) (a : Nat) : (s.setCtr n x).port a = s.port a := rfl
@[simp] theorem State.setCtr_dir_get (s : State) (n : Nat) (x : TCnt) (a b : Nat) : (s.setCtr n x).dir a b = s.dir a b := rfl
@[simp] theorem State.setCtr_servo_get (s : State) (n : Nat) (x : TCnt) (a : Nat) : (s.setCtr n x).servo a = s.servo a := rfl
@[simp] theorem State.setCtr_pulse_get (s : State) (n : Nat) (x : TCnt) (a : Nat) : (s.setCtr n x).pulse a = s.pulse a := rfl
@[simp] theorem State.setCtr_cn_get (s : State) (n : Nat) (x : TCnt) (a : Nat) : (s.setCtr n x).cn a = s.cn a := rfl
@[simp] theorem State.setCtr_mach_get (s : State) (n : Nat) (x : TCnt) (a b : Nat) : (s.setCtr n x).mach a b = s.mach a b := rfl
@[simp] theorem State.setCtr_pin_get (s : State) (n : Nat) (x : TCnt) (a : Nat) : (s.setCtr n x).pin a = s.pin a := rfl
@[simp] theorem State.setCtr_clocksOn_get (s : State) (n : Nat) (x : TCnt)  : (s.setCtr n x).clocksOn = s.clocksOn := rfl
@[simp] theorem State.setCtr_awake_get (s : State) (n : Nat) (x : TCnt) (a : Nat) : (s.setCtr n x).awake a = s.awake a := rfl
@[simp] theorem State.setCtr_tk_get (s : State) (n : Nat) (x : TCnt)  : (s.setCtr n x).tk = s.tk := rfl
@[simp] theorem State.setCtr_flashAt_get (s : State) (n : Nat) (x : TCnt) (a : Nat) : (s.setCtr n x).flashAt a = s.flashAt a := rfl

@[simp] theorem State.setServo_pending (s : State) (n : Nat) (x : SvS) : (s.setServo n x).pending = s.pending := rfl
@[simp] theorem State.setServo_tick (s : State) (n : Nat) (x : SvS) : (s.setServo n x).tick = s.tick := rfl
@[simp] theorem State.setServo_tkBase (s : State) (n : Nat) (x : SvS) : (s.setServo n x).tkBase = s.tkBase := rfl
@[simp] theorem State.setServo_period (s : State) (n : Nat) (x : SvS) : (s.setServo n x).period = s.period := rfl
@[simp] theorem State.setServo_fresh (s : State) (n : Nat) (x : SvS) : (s.setServo n x).fresh = s.fresh := rfl
@[simp] theorem State.setServo_act (s : State) (n : Nat) (x : SvS) : (s.setServo n x).act = s.act := rfl
@[simp] theorem State.setServo_shd (s : State) (n : Nat) (x : SvS) : (s.setServo n x).shd = s.shd := rfl
@[simp] theorem State.setServo_cap (s : State) (n : Nat) (x : SvS) : (s.setServo n x).cap = s.cap := rfl
@[simp] theorem State.setServo_lay (s : State) (n : Nat) (x : SvS) : (s.setServo n x).lay = s.lay := rfl
@[simp] theorem State.setServo_heldGo (s : State) (n : Nat) (x : SvS) : (s.setServo n x).heldGo = s.heldGo := rfl
@[simp] theorem State.setServo_loft (s : State) (n : Nat) (x : SvS) : (s.setServo n x).loft = s.loft := rfl
@[simp] theorem State.setServo_code (s : State) (n : Nat) (x : SvS) : (s.setServo n x).code = s.code := rfl
@[simp] theorem State.setServo_priv (s : State) (n : Nat) (x : SvS) : (s.setServo n x).priv = s.priv := rfl
@[simp] theorem State.setServo_mg (s : State) (n : Nat) (x : SvS) : (s.setServo n x).mg = s.mg := rfl
@[simp] theorem State.setServo_stage (s : State) (n : Nat) (x : SvS) : (s.setServo n x).stage = s.stage := rfl
@[simp] theorem State.setServo_scrub (s : State) (n : Nat) (x : SvS) : (s.setServo n x).scrub = s.scrub := rfl
@[simp] theorem State.setServo_lost (s : State) (n : Nat) (x : SvS) : (s.setServo n x).lost = s.lost := rfl
@[simp] theorem State.setServo_flash (s : State) (n : Nat) (x : SvS) : (s.setServo n x).flash = s.flash := rfl
@[simp] theorem State.setServo_eng (s : State) (n : Nat) (x : SvS) : (s.setServo n x).eng = s.eng := rfl
@[simp] theorem State.setServo_stb (s : State) (n : Nat) (x : SvS) : (s.setServo n x).stb = s.stb := rfl
@[simp] theorem State.setServo_fns (s : State) (n : Nat) (x : SvS) : (s.setServo n x).fns = s.fns := rfl
@[simp] theorem State.setServo_pairs (s : State) (n : Nat) (x : SvS) : (s.setServo n x).pairs = s.pairs := rfl
@[simp] theorem State.setServo_ic (s : State) (n : Nat) (x : SvS) : (s.setServo n x).ic = s.ic := rfl
@[simp] theorem State.setServo_rgn (s : State) (n : Nat) (x : SvS) : (s.setServo n x).rgn = s.rgn := rfl
@[simp] theorem State.setServo_lastInst (s : State) (n : Nat) (x : SvS) : (s.setServo n x).lastInst = s.lastInst := rfl
@[simp] theorem State.setServo_seenInst (s : State) (n : Nat) (x : SvS) : (s.setServo n x).seenInst = s.seenInst := rfl
@[simp] theorem State.setServo_jumpDue (s : State) (n : Nat) (x : SvS) : (s.setServo n x).jumpDue = s.jumpDue := rfl
@[simp] theorem State.setServo_ports (s : State) (n : Nat) (x : SvS) : (s.setServo n x).ports = s.ports := rfl
@[simp] theorem State.setServo_dirs (s : State) (n : Nat) (x : SvS) : (s.setServo n x).dirs = s.dirs := rfl
@[simp] theorem State.setServo_yard (s : State) (n : Nat) (x : SvS) : (s.setServo n x).yard = s.yard := rfl
@[simp] theorem State.setServo_tc (s : State) (n : Nat) (x : SvS) : (s.setServo n x).tc = s.tc := rfl
@[simp] theorem State.setServo_steps (s : State) (n : Nat) (x : SvS) : (s.setServo n x).steps = s.steps := rfl
@[simp] theorem State.setServo_steppedAt (s : State) (n : Nat) (x : SvS) : (s.setServo n x).steppedAt = s.steppedAt := rfl
@[simp] theorem State.setServo_refs (s : State) (n : Nat) (x : SvS) : (s.setServo n x).refs = s.refs := rfl
@[simp] theorem State.setServo_pg (s : State) (n : Nat) (x : SvS) : (s.setServo n x).pg = s.pg := rfl
@[simp] theorem State.setServo_pd (s : State) (n : Nat) (x : SvS) : (s.setServo n x).pd = s.pd := rfl
@[simp] theorem State.setServo_can (s : State) (n : Nat) (x : SvS) : (s.setServo n x).can = s.can := rfl
@[simp] theorem State.setServo_pm (s : State) (n : Nat) (x : SvS) : (s.setServo n x).pm = s.pm := rfl
@[simp] theorem State.setServo_pins (s : State) (n : Nat) (x : SvS) : (s.setServo n x).pins = s.pins := rfl
@[simp] theorem State.setServo_pinPast (s : State) (n : Nat) (x : SvS) : (s.setServo n x).pinPast = s.pinPast := rfl
@[simp] theorem State.setServo_flagAt (s : State) (n : Nat) (x : SvS) : (s.setServo n x).flagAt = s.flagAt := rfl
@[simp] theorem State.setServo_tw (s : State) (n : Nat) (x : SvS) : (s.setServo n x).tw = s.tw := rfl
@[simp] theorem State.setServo_pw (s : State) (n : Nat) (x : SvS) : (s.setServo n x).pw = s.pw := rfl
@[simp] theorem State.setServo_boot (s : State) (n : Nat) (x : SvS) : (s.setServo n x).boot = s.boot := rfl
@[simp] theorem State.setServo_host (s : State) (n : Nat) (x : SvS) : (s.setServo n x).host = s.host := rfl
@[simp] theorem State.setServo_out (s : State) (n : Nat) (x : SvS) : (s.setServo n x).out = s.out := rfl
@[simp] theorem State.setServo_fld_get (s : State) (n : Nat) (x : SvS) (g : Fld) (a b : Nat) : (s.setServo n x).fld g a b = s.fld g a b := rfl
@[simp] theorem State.setServo_on_get (s : State) (n : Nat) (x : SvS) (g : Fld) (a b : Nat) : (s.setServo n x).on g a b = s.on g a b := rfl
@[simp] theorem State.setServo_shadow_get (s : State) (n : Nat) (x : SvS) (g : Fld) (a b : Nat) : (s.setServo n x).shadow g a b = s.shadow g a b := rfl
@[simp] theorem State.setServo_e_get (s : State) (n : Nat) (x : SvS) (a : Nat) : (s.setServo n x).e a = s.e a := rfl
@[simp] theorem State.setServo_st_get (s : State) (n : Nat) (x : SvS) (a : Nat) : (s.setServo n x).st a = s.st a := rfl
@[simp] theorem State.setServo_fn_get (s : State) (n : Nat) (x : SvS) (a : Nat) : (s.setServo n x).fn a = s.fn a := rfl
@[simp] theorem State.setServo_pair_get (s : State) (n : Nat) (x : SvS) (a : Nat) : (s.setServo n x).pair a = s.pair a := rfl
@[simp] theorem State.setServo_icT_get (s : State) (n : Nat) (x : SvS) (a : Nat) : (s.setServo n x).icT a = s.icT a := rfl
@[simp] theorem State.setServo_rg_get (s : State) (n : Nat) (x : SvS) (a : Nat) : (s.setServo n x).rg a = s.rg a := rfl
@[simp] theorem State.setServo_port_get (s : State) (n : Nat) (x : SvS) (a : Nat) : (s.setServo n x).port a = s.port a := rfl
@[simp] theorem State.setServo_dir_get (s : State) (n : Nat) (x : SvS) (a b : Nat) : (s.setServo n x).dir a b = s.dir a b := rfl
@[simp] theorem State.setServo_ctr_get (s : State) (n : Nat) (x : SvS) (a : Nat) : (s.setServo n x).ctr a = s.ctr a := rfl
@[simp] theorem State.setServo_pulse_get (s : State) (n : Nat) (x : SvS) (a : Nat) : (s.setServo n x).pulse a = s.pulse a := rfl
@[simp] theorem State.setServo_cn_get (s : State) (n : Nat) (x : SvS) (a : Nat) : (s.setServo n x).cn a = s.cn a := rfl
@[simp] theorem State.setServo_mach_get (s : State) (n : Nat) (x : SvS) (a b : Nat) : (s.setServo n x).mach a b = s.mach a b := rfl
@[simp] theorem State.setServo_pin_get (s : State) (n : Nat) (x : SvS) (a : Nat) : (s.setServo n x).pin a = s.pin a := rfl
@[simp] theorem State.setServo_clocksOn_get (s : State) (n : Nat) (x : SvS)  : (s.setServo n x).clocksOn = s.clocksOn := rfl
@[simp] theorem State.setServo_awake_get (s : State) (n : Nat) (x : SvS) (a : Nat) : (s.setServo n x).awake a = s.awake a := rfl
@[simp] theorem State.setServo_tk_get (s : State) (n : Nat) (x : SvS)  : (s.setServo n x).tk = s.tk := rfl
@[simp] theorem State.setServo_flashAt_get (s : State) (n : Nat) (x : SvS) (a : Nat) : (s.setServo n x).flashAt a = s.flashAt a := rfl

@[simp] theorem State.setPulse_pending (s : State) (n : Nat) (x : PgS) : (s.setPulse n x).pending = s.pending := rfl
@[simp] theorem State.setPulse_tick (s : State) (n : Nat) (x : PgS) : (s.setPulse n x).tick = s.tick := rfl
@[simp] theorem State.setPulse_tkBase (s : State) (n : Nat) (x : PgS) : (s.setPulse n x).tkBase = s.tkBase := rfl
@[simp] theorem State.setPulse_period (s : State) (n : Nat) (x : PgS) : (s.setPulse n x).period = s.period := rfl
@[simp] theorem State.setPulse_fresh (s : State) (n : Nat) (x : PgS) : (s.setPulse n x).fresh = s.fresh := rfl
@[simp] theorem State.setPulse_act (s : State) (n : Nat) (x : PgS) : (s.setPulse n x).act = s.act := rfl
@[simp] theorem State.setPulse_shd (s : State) (n : Nat) (x : PgS) : (s.setPulse n x).shd = s.shd := rfl
@[simp] theorem State.setPulse_cap (s : State) (n : Nat) (x : PgS) : (s.setPulse n x).cap = s.cap := rfl
@[simp] theorem State.setPulse_lay (s : State) (n : Nat) (x : PgS) : (s.setPulse n x).lay = s.lay := rfl
@[simp] theorem State.setPulse_heldGo (s : State) (n : Nat) (x : PgS) : (s.setPulse n x).heldGo = s.heldGo := rfl
@[simp] theorem State.setPulse_loft (s : State) (n : Nat) (x : PgS) : (s.setPulse n x).loft = s.loft := rfl
@[simp] theorem State.setPulse_code (s : State) (n : Nat) (x : PgS) : (s.setPulse n x).code = s.code := rfl
@[simp] theorem State.setPulse_priv (s : State) (n : Nat) (x : PgS) : (s.setPulse n x).priv = s.priv := rfl
@[simp] theorem State.setPulse_mg (s : State) (n : Nat) (x : PgS) : (s.setPulse n x).mg = s.mg := rfl
@[simp] theorem State.setPulse_stage (s : State) (n : Nat) (x : PgS) : (s.setPulse n x).stage = s.stage := rfl
@[simp] theorem State.setPulse_scrub (s : State) (n : Nat) (x : PgS) : (s.setPulse n x).scrub = s.scrub := rfl
@[simp] theorem State.setPulse_lost (s : State) (n : Nat) (x : PgS) : (s.setPulse n x).lost = s.lost := rfl
@[simp] theorem State.setPulse_flash (s : State) (n : Nat) (x : PgS) : (s.setPulse n x).flash = s.flash := rfl
@[simp] theorem State.setPulse_eng (s : State) (n : Nat) (x : PgS) : (s.setPulse n x).eng = s.eng := rfl
@[simp] theorem State.setPulse_stb (s : State) (n : Nat) (x : PgS) : (s.setPulse n x).stb = s.stb := rfl
@[simp] theorem State.setPulse_fns (s : State) (n : Nat) (x : PgS) : (s.setPulse n x).fns = s.fns := rfl
@[simp] theorem State.setPulse_pairs (s : State) (n : Nat) (x : PgS) : (s.setPulse n x).pairs = s.pairs := rfl
@[simp] theorem State.setPulse_ic (s : State) (n : Nat) (x : PgS) : (s.setPulse n x).ic = s.ic := rfl
@[simp] theorem State.setPulse_rgn (s : State) (n : Nat) (x : PgS) : (s.setPulse n x).rgn = s.rgn := rfl
@[simp] theorem State.setPulse_lastInst (s : State) (n : Nat) (x : PgS) : (s.setPulse n x).lastInst = s.lastInst := rfl
@[simp] theorem State.setPulse_seenInst (s : State) (n : Nat) (x : PgS) : (s.setPulse n x).seenInst = s.seenInst := rfl
@[simp] theorem State.setPulse_jumpDue (s : State) (n : Nat) (x : PgS) : (s.setPulse n x).jumpDue = s.jumpDue := rfl
@[simp] theorem State.setPulse_ports (s : State) (n : Nat) (x : PgS) : (s.setPulse n x).ports = s.ports := rfl
@[simp] theorem State.setPulse_dirs (s : State) (n : Nat) (x : PgS) : (s.setPulse n x).dirs = s.dirs := rfl
@[simp] theorem State.setPulse_yard (s : State) (n : Nat) (x : PgS) : (s.setPulse n x).yard = s.yard := rfl
@[simp] theorem State.setPulse_tc (s : State) (n : Nat) (x : PgS) : (s.setPulse n x).tc = s.tc := rfl
@[simp] theorem State.setPulse_steps (s : State) (n : Nat) (x : PgS) : (s.setPulse n x).steps = s.steps := rfl
@[simp] theorem State.setPulse_steppedAt (s : State) (n : Nat) (x : PgS) : (s.setPulse n x).steppedAt = s.steppedAt := rfl
@[simp] theorem State.setPulse_sv (s : State) (n : Nat) (x : PgS) : (s.setPulse n x).sv = s.sv := rfl
@[simp] theorem State.setPulse_refs (s : State) (n : Nat) (x : PgS) : (s.setPulse n x).refs = s.refs := rfl
@[simp] theorem State.setPulse_pd (s : State) (n : Nat) (x : PgS) : (s.setPulse n x).pd = s.pd := rfl
@[simp] theorem State.setPulse_can (s : State) (n : Nat) (x : PgS) : (s.setPulse n x).can = s.can := rfl
@[simp] theorem State.setPulse_pm (s : State) (n : Nat) (x : PgS) : (s.setPulse n x).pm = s.pm := rfl
@[simp] theorem State.setPulse_pins (s : State) (n : Nat) (x : PgS) : (s.setPulse n x).pins = s.pins := rfl
@[simp] theorem State.setPulse_pinPast (s : State) (n : Nat) (x : PgS) : (s.setPulse n x).pinPast = s.pinPast := rfl
@[simp] theorem State.setPulse_flagAt (s : State) (n : Nat) (x : PgS) : (s.setPulse n x).flagAt = s.flagAt := rfl
@[simp] theorem State.setPulse_tw (s : State) (n : Nat) (x : PgS) : (s.setPulse n x).tw = s.tw := rfl
@[simp] theorem State.setPulse_pw (s : State) (n : Nat) (x : PgS) : (s.setPulse n x).pw = s.pw := rfl
@[simp] theorem State.setPulse_boot (s : State) (n : Nat) (x : PgS) : (s.setPulse n x).boot = s.boot := rfl
@[simp] theorem State.setPulse_host (s : State) (n : Nat) (x : PgS) : (s.setPulse n x).host = s.host := rfl
@[simp] theorem State.setPulse_out (s : State) (n : Nat) (x : PgS) : (s.setPulse n x).out = s.out := rfl
@[simp] theorem State.setPulse_fld_get (s : State) (n : Nat) (x : PgS) (g : Fld) (a b : Nat) : (s.setPulse n x).fld g a b = s.fld g a b := rfl
@[simp] theorem State.setPulse_on_get (s : State) (n : Nat) (x : PgS) (g : Fld) (a b : Nat) : (s.setPulse n x).on g a b = s.on g a b := rfl
@[simp] theorem State.setPulse_shadow_get (s : State) (n : Nat) (x : PgS) (g : Fld) (a b : Nat) : (s.setPulse n x).shadow g a b = s.shadow g a b := rfl
@[simp] theorem State.setPulse_e_get (s : State) (n : Nat) (x : PgS) (a : Nat) : (s.setPulse n x).e a = s.e a := rfl
@[simp] theorem State.setPulse_st_get (s : State) (n : Nat) (x : PgS) (a : Nat) : (s.setPulse n x).st a = s.st a := rfl
@[simp] theorem State.setPulse_fn_get (s : State) (n : Nat) (x : PgS) (a : Nat) : (s.setPulse n x).fn a = s.fn a := rfl
@[simp] theorem State.setPulse_pair_get (s : State) (n : Nat) (x : PgS) (a : Nat) : (s.setPulse n x).pair a = s.pair a := rfl
@[simp] theorem State.setPulse_icT_get (s : State) (n : Nat) (x : PgS) (a : Nat) : (s.setPulse n x).icT a = s.icT a := rfl
@[simp] theorem State.setPulse_rg_get (s : State) (n : Nat) (x : PgS) (a : Nat) : (s.setPulse n x).rg a = s.rg a := rfl
@[simp] theorem State.setPulse_port_get (s : State) (n : Nat) (x : PgS) (a : Nat) : (s.setPulse n x).port a = s.port a := rfl
@[simp] theorem State.setPulse_dir_get (s : State) (n : Nat) (x : PgS) (a b : Nat) : (s.setPulse n x).dir a b = s.dir a b := rfl
@[simp] theorem State.setPulse_ctr_get (s : State) (n : Nat) (x : PgS) (a : Nat) : (s.setPulse n x).ctr a = s.ctr a := rfl
@[simp] theorem State.setPulse_servo_get (s : State) (n : Nat) (x : PgS) (a : Nat) : (s.setPulse n x).servo a = s.servo a := rfl
@[simp] theorem State.setPulse_cn_get (s : State) (n : Nat) (x : PgS) (a : Nat) : (s.setPulse n x).cn a = s.cn a := rfl
@[simp] theorem State.setPulse_mach_get (s : State) (n : Nat) (x : PgS) (a b : Nat) : (s.setPulse n x).mach a b = s.mach a b := rfl
@[simp] theorem State.setPulse_pin_get (s : State) (n : Nat) (x : PgS) (a : Nat) : (s.setPulse n x).pin a = s.pin a := rfl
@[simp] theorem State.setPulse_clocksOn_get (s : State) (n : Nat) (x : PgS)  : (s.setPulse n x).clocksOn = s.clocksOn := rfl
@[simp] theorem State.setPulse_awake_get (s : State) (n : Nat) (x : PgS) (a : Nat) : (s.setPulse n x).awake a = s.awake a := rfl
@[simp] theorem State.setPulse_tk_get (s : State) (n : Nat) (x : PgS)  : (s.setPulse n x).tk = s.tk := rfl
@[simp] theorem State.setPulse_flashAt_get (s : State) (n : Nat) (x : PgS) (a : Nat) : (s.setPulse n x).flashAt a = s.flashAt a := rfl

@[simp] theorem State.setCn_pending (s : State) (n : Nat) (x : CanS) : (s.setCn n x).pending = s.pending := rfl
@[simp] theorem State.setCn_tick (s : State) (n : Nat) (x : CanS) : (s.setCn n x).tick = s.tick := rfl
@[simp] theorem State.setCn_tkBase (s : State) (n : Nat) (x : CanS) : (s.setCn n x).tkBase = s.tkBase := rfl
@[simp] theorem State.setCn_period (s : State) (n : Nat) (x : CanS) : (s.setCn n x).period = s.period := rfl
@[simp] theorem State.setCn_fresh (s : State) (n : Nat) (x : CanS) : (s.setCn n x).fresh = s.fresh := rfl
@[simp] theorem State.setCn_act (s : State) (n : Nat) (x : CanS) : (s.setCn n x).act = s.act := rfl
@[simp] theorem State.setCn_shd (s : State) (n : Nat) (x : CanS) : (s.setCn n x).shd = s.shd := rfl
@[simp] theorem State.setCn_cap (s : State) (n : Nat) (x : CanS) : (s.setCn n x).cap = s.cap := rfl
@[simp] theorem State.setCn_lay (s : State) (n : Nat) (x : CanS) : (s.setCn n x).lay = s.lay := rfl
@[simp] theorem State.setCn_heldGo (s : State) (n : Nat) (x : CanS) : (s.setCn n x).heldGo = s.heldGo := rfl
@[simp] theorem State.setCn_loft (s : State) (n : Nat) (x : CanS) : (s.setCn n x).loft = s.loft := rfl
@[simp] theorem State.setCn_code (s : State) (n : Nat) (x : CanS) : (s.setCn n x).code = s.code := rfl
@[simp] theorem State.setCn_priv (s : State) (n : Nat) (x : CanS) : (s.setCn n x).priv = s.priv := rfl
@[simp] theorem State.setCn_mg (s : State) (n : Nat) (x : CanS) : (s.setCn n x).mg = s.mg := rfl
@[simp] theorem State.setCn_stage (s : State) (n : Nat) (x : CanS) : (s.setCn n x).stage = s.stage := rfl
@[simp] theorem State.setCn_scrub (s : State) (n : Nat) (x : CanS) : (s.setCn n x).scrub = s.scrub := rfl
@[simp] theorem State.setCn_lost (s : State) (n : Nat) (x : CanS) : (s.setCn n x).lost = s.lost := rfl
@[simp] theorem State.setCn_flash (s : State) (n : Nat) (x : CanS) : (s.setCn n x).flash = s.flash := rfl
@[simp] theorem State.setCn_eng (s : State) (n : Nat) (x : CanS) : (s.setCn n x).eng = s.eng := rfl
@[simp] theorem State.setCn_stb (s : State) (n : Nat) (x : CanS) : (s.setCn n x).stb = s.stb := rfl
@[simp] theorem State.setCn_fns (s : State) (n : Nat) (x : CanS) : (s.setCn n x).fns = s.fns := rfl
@[simp] theorem State.setCn_pairs (s : State) (n : Nat) (x : CanS) : (s.setCn n x).pairs = s.pairs := rfl
@[simp] theorem State.setCn_ic (s : State) (n : Nat) (x : CanS) : (s.setCn n x).ic = s.ic := rfl
@[simp] theorem State.setCn_rgn (s : State) (n : Nat) (x : CanS) : (s.setCn n x).rgn = s.rgn := rfl
@[simp] theorem State.setCn_lastInst (s : State) (n : Nat) (x : CanS) : (s.setCn n x).lastInst = s.lastInst := rfl
@[simp] theorem State.setCn_seenInst (s : State) (n : Nat) (x : CanS) : (s.setCn n x).seenInst = s.seenInst := rfl
@[simp] theorem State.setCn_jumpDue (s : State) (n : Nat) (x : CanS) : (s.setCn n x).jumpDue = s.jumpDue := rfl
@[simp] theorem State.setCn_ports (s : State) (n : Nat) (x : CanS) : (s.setCn n x).ports = s.ports := rfl
@[simp] theorem State.setCn_dirs (s : State) (n : Nat) (x : CanS) : (s.setCn n x).dirs = s.dirs := rfl
@[simp] theorem State.setCn_yard (s : State) (n : Nat) (x : CanS) : (s.setCn n x).yard = s.yard := rfl
@[simp] theorem State.setCn_tc (s : State) (n : Nat) (x : CanS) : (s.setCn n x).tc = s.tc := rfl
@[simp] theorem State.setCn_steps (s : State) (n : Nat) (x : CanS) : (s.setCn n x).steps = s.steps := rfl
@[simp] theorem State.setCn_steppedAt (s : State) (n : Nat) (x : CanS) : (s.setCn n x).steppedAt = s.steppedAt := rfl
@[simp] theorem State.setCn_sv (s : State) (n : Nat) (x : CanS) : (s.setCn n x).sv = s.sv := rfl
@[simp] theorem State.setCn_refs (s : State) (n : Nat) (x : CanS) : (s.setCn n x).refs = s.refs := rfl
@[simp] theorem State.setCn_pg (s : State) (n : Nat) (x : CanS) : (s.setCn n x).pg = s.pg := rfl
@[simp] theorem State.setCn_pd (s : State) (n : Nat) (x : CanS) : (s.setCn n x).pd = s.pd := rfl
@[simp] theorem State.setCn_pm (s : State) (n : Nat) (x : CanS) : (s.setCn n x).pm = s.pm := rfl
@[simp] theorem State.setCn_pins (s : State) (n : Nat) (x : CanS) : (s.setCn n x).pins = s.pins := rfl
@[simp] theorem State.setCn_pinPast (s : State) (n : Nat) (x : CanS) : (s.setCn n x).pinPast = s.pinPast := rfl
@[simp] theorem State.setCn_flagAt (s : State) (n : Nat) (x : CanS) : (s.setCn n x).flagAt = s.flagAt := rfl
@[simp] theorem State.setCn_tw (s : State) (n : Nat) (x : CanS) : (s.setCn n x).tw = s.tw := rfl
@[simp] theorem State.setCn_pw (s : State) (n : Nat) (x : CanS) : (s.setCn n x).pw = s.pw := rfl
@[simp] theorem State.setCn_boot (s : State) (n : Nat) (x : CanS) : (s.setCn n x).boot = s.boot := rfl
@[simp] theorem State.setCn_host (s : State) (n : Nat) (x : CanS) : (s.setCn n x).host = s.host := rfl
@[simp] theorem State.setCn_out (s : State) (n : Nat) (x : CanS) : (s.setCn n x).out = s.out := rfl
@[simp] theorem State.setCn_fld_get (s : State) (n : Nat) (x : CanS) (g : Fld) (a b : Nat) : (s.setCn n x).fld g a b = s.fld g a b := rfl
@[simp] theorem State.setCn_on_get (s : State) (n : Nat) (x : CanS) (g : Fld) (a b : Nat) : (s.setCn n x).on g a b = s.on g a b := rfl
@[simp] theorem State.setCn_shadow_get (s : State) (n : Nat) (x : CanS) (g : Fld) (a b : Nat) : (s.setCn n x).shadow g a b = s.shadow g a b := rfl
@[simp] theorem State.setCn_e_get (s : State) (n : Nat) (x : CanS) (a : Nat) : (s.setCn n x).e a = s.e a := rfl
@[simp] theorem State.setCn_st_get (s : State) (n : Nat) (x : CanS) (a : Nat) : (s.setCn n x).st a = s.st a := rfl
@[simp] theorem State.setCn_fn_get (s : State) (n : Nat) (x : CanS) (a : Nat) : (s.setCn n x).fn a = s.fn a := rfl
@[simp] theorem State.setCn_pair_get (s : State) (n : Nat) (x : CanS) (a : Nat) : (s.setCn n x).pair a = s.pair a := rfl
@[simp] theorem State.setCn_icT_get (s : State) (n : Nat) (x : CanS) (a : Nat) : (s.setCn n x).icT a = s.icT a := rfl
@[simp] theorem State.setCn_rg_get (s : State) (n : Nat) (x : CanS) (a : Nat) : (s.setCn n x).rg a = s.rg a := rfl
@[simp] theorem State.setCn_port_get (s : State) (n : Nat) (x : CanS) (a : Nat) : (s.setCn n x).port a = s.port a := rfl
@[simp] theorem State.setCn_dir_get (s : State) (n : Nat) (x : CanS) (a b : Nat) : (s.setCn n x).dir a b = s.dir a b := rfl
@[simp] theorem State.setCn_ctr_get (s : State) (n : Nat) (x : CanS) (a : Nat) : (s.setCn n x).ctr a = s.ctr a := rfl
@[simp] theorem State.setCn_servo_get (s : State) (n : Nat) (x : CanS) (a : Nat) : (s.setCn n x).servo a = s.servo a := rfl
@[simp] theorem State.setCn_pulse_get (s : State) (n : Nat) (x : CanS) (a : Nat) : (s.setCn n x).pulse a = s.pulse a := rfl
@[simp] theorem State.setCn_mach_get (s : State) (n : Nat) (x : CanS) (a b : Nat) : (s.setCn n x).mach a b = s.mach a b := rfl
@[simp] theorem State.setCn_pin_get (s : State) (n : Nat) (x : CanS) (a : Nat) : (s.setCn n x).pin a = s.pin a := rfl
@[simp] theorem State.setCn_clocksOn_get (s : State) (n : Nat) (x : CanS)  : (s.setCn n x).clocksOn = s.clocksOn := rfl
@[simp] theorem State.setCn_awake_get (s : State) (n : Nat) (x : CanS) (a : Nat) : (s.setCn n x).awake a = s.awake a := rfl
@[simp] theorem State.setCn_tk_get (s : State) (n : Nat) (x : CanS)  : (s.setCn n x).tk = s.tk := rfl
@[simp] theorem State.setCn_flashAt_get (s : State) (n : Nat) (x : CanS) (a : Nat) : (s.setCn n x).flashAt a = s.flashAt a := rfl

@[simp] theorem State.setMach_pending (s : State) (c n : Nat) (x : PmS) : (s.setMach c n x).pending = s.pending := rfl
@[simp] theorem State.setMach_tick (s : State) (c n : Nat) (x : PmS) : (s.setMach c n x).tick = s.tick := rfl
@[simp] theorem State.setMach_tkBase (s : State) (c n : Nat) (x : PmS) : (s.setMach c n x).tkBase = s.tkBase := rfl
@[simp] theorem State.setMach_period (s : State) (c n : Nat) (x : PmS) : (s.setMach c n x).period = s.period := rfl
@[simp] theorem State.setMach_fresh (s : State) (c n : Nat) (x : PmS) : (s.setMach c n x).fresh = s.fresh := rfl
@[simp] theorem State.setMach_act (s : State) (c n : Nat) (x : PmS) : (s.setMach c n x).act = s.act := rfl
@[simp] theorem State.setMach_shd (s : State) (c n : Nat) (x : PmS) : (s.setMach c n x).shd = s.shd := rfl
@[simp] theorem State.setMach_cap (s : State) (c n : Nat) (x : PmS) : (s.setMach c n x).cap = s.cap := rfl
@[simp] theorem State.setMach_lay (s : State) (c n : Nat) (x : PmS) : (s.setMach c n x).lay = s.lay := rfl
@[simp] theorem State.setMach_heldGo (s : State) (c n : Nat) (x : PmS) : (s.setMach c n x).heldGo = s.heldGo := rfl
@[simp] theorem State.setMach_loft (s : State) (c n : Nat) (x : PmS) : (s.setMach c n x).loft = s.loft := rfl
@[simp] theorem State.setMach_code (s : State) (c n : Nat) (x : PmS) : (s.setMach c n x).code = s.code := rfl
@[simp] theorem State.setMach_priv (s : State) (c n : Nat) (x : PmS) : (s.setMach c n x).priv = s.priv := rfl
@[simp] theorem State.setMach_mg (s : State) (c n : Nat) (x : PmS) : (s.setMach c n x).mg = s.mg := rfl
@[simp] theorem State.setMach_stage (s : State) (c n : Nat) (x : PmS) : (s.setMach c n x).stage = s.stage := rfl
@[simp] theorem State.setMach_scrub (s : State) (c n : Nat) (x : PmS) : (s.setMach c n x).scrub = s.scrub := rfl
@[simp] theorem State.setMach_lost (s : State) (c n : Nat) (x : PmS) : (s.setMach c n x).lost = s.lost := rfl
@[simp] theorem State.setMach_flash (s : State) (c n : Nat) (x : PmS) : (s.setMach c n x).flash = s.flash := rfl
@[simp] theorem State.setMach_eng (s : State) (c n : Nat) (x : PmS) : (s.setMach c n x).eng = s.eng := rfl
@[simp] theorem State.setMach_stb (s : State) (c n : Nat) (x : PmS) : (s.setMach c n x).stb = s.stb := rfl
@[simp] theorem State.setMach_fns (s : State) (c n : Nat) (x : PmS) : (s.setMach c n x).fns = s.fns := rfl
@[simp] theorem State.setMach_pairs (s : State) (c n : Nat) (x : PmS) : (s.setMach c n x).pairs = s.pairs := rfl
@[simp] theorem State.setMach_ic (s : State) (c n : Nat) (x : PmS) : (s.setMach c n x).ic = s.ic := rfl
@[simp] theorem State.setMach_rgn (s : State) (c n : Nat) (x : PmS) : (s.setMach c n x).rgn = s.rgn := rfl
@[simp] theorem State.setMach_lastInst (s : State) (c n : Nat) (x : PmS) : (s.setMach c n x).lastInst = s.lastInst := rfl
@[simp] theorem State.setMach_seenInst (s : State) (c n : Nat) (x : PmS) : (s.setMach c n x).seenInst = s.seenInst := rfl
@[simp] theorem State.setMach_jumpDue (s : State) (c n : Nat) (x : PmS) : (s.setMach c n x).jumpDue = s.jumpDue := rfl
@[simp] theorem State.setMach_ports (s : State) (c n : Nat) (x : PmS) : (s.setMach c n x).ports = s.ports := rfl
@[simp] theorem State.setMach_dirs (s : State) (c n : Nat) (x : PmS) : (s.setMach c n x).dirs = s.dirs := rfl
@[simp] theorem State.setMach_yard (s : State) (c n : Nat) (x : PmS) : (s.setMach c n x).yard = s.yard := rfl
@[simp] theorem State.setMach_tc (s : State) (c n : Nat) (x : PmS) : (s.setMach c n x).tc = s.tc := rfl
@[simp] theorem State.setMach_steps (s : State) (c n : Nat) (x : PmS) : (s.setMach c n x).steps = s.steps := rfl
@[simp] theorem State.setMach_steppedAt (s : State) (c n : Nat) (x : PmS) : (s.setMach c n x).steppedAt = s.steppedAt := rfl
@[simp] theorem State.setMach_sv (s : State) (c n : Nat) (x : PmS) : (s.setMach c n x).sv = s.sv := rfl
@[simp] theorem State.setMach_refs (s : State) (c n : Nat) (x : PmS) : (s.setMach c n x).refs = s.refs := rfl
@[simp] theorem State.setMach_pg (s : State) (c n : Nat) (x : PmS) : (s.setMach c n x).pg = s.pg := rfl
@[simp] theorem State.setMach_pd (s : State) (c n : Nat) (x : PmS) : (s.setMach c n x).pd = s.pd := rfl
@[simp] theorem State.setMach_can (s : State) (c n : Nat) (x : PmS) : (s.setMach c n x).can = s.can := rfl
@[simp] theorem State.setMach_pins (s : State) (c n : Nat) (x : PmS) : (s.setMach c n x).pins = s.pins := rfl
@[simp] theorem State.setMach_pinPast (s : State) (c n : Nat) (x : PmS) : (s.setMach c n x).pinPast = s.pinPast := rfl
@[simp] theorem State.setMach_flagAt (s : State) (c n : Nat) (x : PmS) : (s.setMach c n x).flagAt = s.flagAt := rfl
@[simp] theorem State.setMach_tw (s : State) (c n : Nat) (x : PmS) : (s.setMach c n x).tw = s.tw := rfl
@[simp] theorem State.setMach_pw (s : State) (c n : Nat) (x : PmS) : (s.setMach c n x).pw = s.pw := rfl
@[simp] theorem State.setMach_boot (s : State) (c n : Nat) (x : PmS) : (s.setMach c n x).boot = s.boot := rfl
@[simp] theorem State.setMach_host (s : State) (c n : Nat) (x : PmS) : (s.setMach c n x).host = s.host := rfl
@[simp] theorem State.setMach_out (s : State) (c n : Nat) (x : PmS) : (s.setMach c n x).out = s.out := rfl
@[simp] theorem State.setMach_fld_get (s : State) (c n : Nat) (x : PmS) (g : Fld) (a b : Nat) : (s.setMach c n x).fld g a b = s.fld g a b := rfl
@[simp] theorem State.setMach_on_get (s : State) (c n : Nat) (x : PmS) (g : Fld) (a b : Nat) : (s.setMach c n x).on g a b = s.on g a b := rfl
@[simp] theorem State.setMach_shadow_get (s : State) (c n : Nat) (x : PmS) (g : Fld) (a b : Nat) : (s.setMach c n x).shadow g a b = s.shadow g a b := rfl
@[simp] theorem State.setMach_e_get (s : State) (c n : Nat) (x : PmS) (a : Nat) : (s.setMach c n x).e a = s.e a := rfl
@[simp] theorem State.setMach_st_get (s : State) (c n : Nat) (x : PmS) (a : Nat) : (s.setMach c n x).st a = s.st a := rfl
@[simp] theorem State.setMach_fn_get (s : State) (c n : Nat) (x : PmS) (a : Nat) : (s.setMach c n x).fn a = s.fn a := rfl
@[simp] theorem State.setMach_pair_get (s : State) (c n : Nat) (x : PmS) (a : Nat) : (s.setMach c n x).pair a = s.pair a := rfl
@[simp] theorem State.setMach_icT_get (s : State) (c n : Nat) (x : PmS) (a : Nat) : (s.setMach c n x).icT a = s.icT a := rfl
@[simp] theorem State.setMach_rg_get (s : State) (c n : Nat) (x : PmS) (a : Nat) : (s.setMach c n x).rg a = s.rg a := rfl
@[simp] theorem State.setMach_port_get (s : State) (c n : Nat) (x : PmS) (a : Nat) : (s.setMach c n x).port a = s.port a := rfl
@[simp] theorem State.setMach_dir_get (s : State) (c n : Nat) (x : PmS) (a b : Nat) : (s.setMach c n x).dir a b = s.dir a b := rfl
@[simp] theorem State.setMach_ctr_get (s : State) (c n : Nat) (x : PmS) (a : Nat) : (s.setMach c n x).ctr a = s.ctr a := rfl
@[simp] theorem State.setMach_servo_get (s : State) (c n : Nat) (x : PmS) (a : Nat) : (s.setMach c n x).servo a = s.servo a := rfl
@[simp] theorem State.setMach_pulse_get (s : State) (c n : Nat) (x : PmS) (a : Nat) : (s.setMach c n x).pulse a = s.pulse a := rfl
@[simp] theorem State.setMach_cn_get (s : State) (c n : Nat) (x : PmS) (a : Nat) : (s.setMach c n x).cn a = s.cn a := rfl
@[simp] theorem State.setMach_pin_get (s : State) (c n : Nat) (x : PmS) (a : Nat) : (s.setMach c n x).pin a = s.pin a := rfl
@[simp] theorem State.setMach_clocksOn_get (s : State) (c n : Nat) (x : PmS)  : (s.setMach c n x).clocksOn = s.clocksOn := rfl
@[simp] theorem State.setMach_awake_get (s : State) (c n : Nat) (x : PmS) (a : Nat) : (s.setMach c n x).awake a = s.awake a := rfl
@[simp] theorem State.setMach_tk_get (s : State) (c n : Nat) (x : PmS)  : (s.setMach c n x).tk = s.tk := rfl
@[simp] theorem State.setMach_flashAt_get (s : State) (c n : Nat) (x : PmS) (a : Nat) : (s.setMach c n x).flashAt a = s.flashAt a := rfl

@[simp] theorem State.setPin_pending (s : State) (n : Nat) (x : PinS) : (s.setPin n x).pending = s.pending := rfl
@[simp] theorem State.setPin_tick (s : State) (n : Nat) (x : PinS) : (s.setPin n x).tick = s.tick := rfl
@[simp] theorem State.setPin_tkBase (s : State) (n : Nat) (x : PinS) : (s.setPin n x).tkBase = s.tkBase := rfl
@[simp] theorem State.setPin_period (s : State) (n : Nat) (x : PinS) : (s.setPin n x).period = s.period := rfl
@[simp] theorem State.setPin_fresh (s : State) (n : Nat) (x : PinS) : (s.setPin n x).fresh = s.fresh := rfl
@[simp] theorem State.setPin_act (s : State) (n : Nat) (x : PinS) : (s.setPin n x).act = s.act := rfl
@[simp] theorem State.setPin_shd (s : State) (n : Nat) (x : PinS) : (s.setPin n x).shd = s.shd := rfl
@[simp] theorem State.setPin_cap (s : State) (n : Nat) (x : PinS) : (s.setPin n x).cap = s.cap := rfl
@[simp] theorem State.setPin_lay (s : State) (n : Nat) (x : PinS) : (s.setPin n x).lay = s.lay := rfl
@[simp] theorem State.setPin_heldGo (s : State) (n : Nat) (x : PinS) : (s.setPin n x).heldGo = s.heldGo := rfl
@[simp] theorem State.setPin_loft (s : State) (n : Nat) (x : PinS) : (s.setPin n x).loft = s.loft := rfl
@[simp] theorem State.setPin_code (s : State) (n : Nat) (x : PinS) : (s.setPin n x).code = s.code := rfl
@[simp] theorem State.setPin_priv (s : State) (n : Nat) (x : PinS) : (s.setPin n x).priv = s.priv := rfl
@[simp] theorem State.setPin_mg (s : State) (n : Nat) (x : PinS) : (s.setPin n x).mg = s.mg := rfl
@[simp] theorem State.setPin_stage (s : State) (n : Nat) (x : PinS) : (s.setPin n x).stage = s.stage := rfl
@[simp] theorem State.setPin_scrub (s : State) (n : Nat) (x : PinS) : (s.setPin n x).scrub = s.scrub := rfl
@[simp] theorem State.setPin_lost (s : State) (n : Nat) (x : PinS) : (s.setPin n x).lost = s.lost := rfl
@[simp] theorem State.setPin_flash (s : State) (n : Nat) (x : PinS) : (s.setPin n x).flash = s.flash := rfl
@[simp] theorem State.setPin_eng (s : State) (n : Nat) (x : PinS) : (s.setPin n x).eng = s.eng := rfl
@[simp] theorem State.setPin_stb (s : State) (n : Nat) (x : PinS) : (s.setPin n x).stb = s.stb := rfl
@[simp] theorem State.setPin_fns (s : State) (n : Nat) (x : PinS) : (s.setPin n x).fns = s.fns := rfl
@[simp] theorem State.setPin_pairs (s : State) (n : Nat) (x : PinS) : (s.setPin n x).pairs = s.pairs := rfl
@[simp] theorem State.setPin_ic (s : State) (n : Nat) (x : PinS) : (s.setPin n x).ic = s.ic := rfl
@[simp] theorem State.setPin_rgn (s : State) (n : Nat) (x : PinS) : (s.setPin n x).rgn = s.rgn := rfl
@[simp] theorem State.setPin_lastInst (s : State) (n : Nat) (x : PinS) : (s.setPin n x).lastInst = s.lastInst := rfl
@[simp] theorem State.setPin_seenInst (s : State) (n : Nat) (x : PinS) : (s.setPin n x).seenInst = s.seenInst := rfl
@[simp] theorem State.setPin_jumpDue (s : State) (n : Nat) (x : PinS) : (s.setPin n x).jumpDue = s.jumpDue := rfl
@[simp] theorem State.setPin_ports (s : State) (n : Nat) (x : PinS) : (s.setPin n x).ports = s.ports := rfl
@[simp] theorem State.setPin_dirs (s : State) (n : Nat) (x : PinS) : (s.setPin n x).dirs = s.dirs := rfl
@[simp] theorem State.setPin_yard (s : State) (n : Nat) (x : PinS) : (s.setPin n x).yard = s.yard := rfl
@[simp] theorem State.setPin_tc (s : State) (n : Nat) (x : PinS) : (s.setPin n x).tc = s.tc := rfl
@[simp] theorem State.setPin_steps (s : State) (n : Nat) (x : PinS) : (s.setPin n x).steps = s.steps := rfl
@[simp] theorem State.setPin_steppedAt (s : State) (n : Nat) (x : PinS) : (s.setPin n x).steppedAt = s.steppedAt := rfl
@[simp] theorem State.setPin_sv (s : State) (n : Nat) (x : PinS) : (s.setPin n x).sv = s.sv := rfl
@[simp] theorem State.setPin_refs (s : State) (n : Nat) (x : PinS) : (s.setPin n x).refs = s.refs := rfl
@[simp] theorem State.setPin_pg (s : State) (n : Nat) (x : PinS) : (s.setPin n x).pg = s.pg := rfl
@[simp] theorem State.setPin_pd (s : State) (n : Nat) (x : PinS) : (s.setPin n x).pd = s.pd := rfl
@[simp] theorem State.setPin_can (s : State) (n : Nat) (x : PinS) : (s.setPin n x).can = s.can := rfl
@[simp] theorem State.setPin_pm (s : State) (n : Nat) (x : PinS) : (s.setPin n x).pm = s.pm := rfl
@[simp] theorem State.setPin_pinPast (s : State) (n : Nat) (x : PinS) : (s.setPin n x).pinPast = s.pinPast := rfl
@[simp] theorem State.setPin_flagAt (s : State) (n : Nat) (x : PinS) : (s.setPin n x).flagAt = s.flagAt := rfl
@[simp] theorem State.setPin_tw (s : State) (n : Nat) (x : PinS) : (s.setPin n x).tw = s.tw := rfl
@[simp] theorem State.setPin_pw (s : State) (n : Nat) (x : PinS) : (s.setPin n x).pw = s.pw := rfl
@[simp] theorem State.setPin_boot (s : State) (n : Nat) (x : PinS) : (s.setPin n x).boot = s.boot := rfl
@[simp] theorem State.setPin_host (s : State) (n : Nat) (x : PinS) : (s.setPin n x).host = s.host := rfl
@[simp] theorem State.setPin_out (s : State) (n : Nat) (x : PinS) : (s.setPin n x).out = s.out := rfl
@[simp] theorem State.setPin_fld_get (s : State) (n : Nat) (x : PinS) (g : Fld) (a b : Nat) : (s.setPin n x).fld g a b = s.fld g a b := rfl
@[simp] theorem State.setPin_on_get (s : State) (n : Nat) (x : PinS) (g : Fld) (a b : Nat) : (s.setPin n x).on g a b = s.on g a b := rfl
@[simp] theorem State.setPin_shadow_get (s : State) (n : Nat) (x : PinS) (g : Fld) (a b : Nat) : (s.setPin n x).shadow g a b = s.shadow g a b := rfl
@[simp] theorem State.setPin_e_get (s : State) (n : Nat) (x : PinS) (a : Nat) : (s.setPin n x).e a = s.e a := rfl
@[simp] theorem State.setPin_st_get (s : State) (n : Nat) (x : PinS) (a : Nat) : (s.setPin n x).st a = s.st a := rfl
@[simp] theorem State.setPin_fn_get (s : State) (n : Nat) (x : PinS) (a : Nat) : (s.setPin n x).fn a = s.fn a := rfl
@[simp] theorem State.setPin_pair_get (s : State) (n : Nat) (x : PinS) (a : Nat) : (s.setPin n x).pair a = s.pair a := rfl
@[simp] theorem State.setPin_icT_get (s : State) (n : Nat) (x : PinS) (a : Nat) : (s.setPin n x).icT a = s.icT a := rfl
@[simp] theorem State.setPin_rg_get (s : State) (n : Nat) (x : PinS) (a : Nat) : (s.setPin n x).rg a = s.rg a := rfl
@[simp] theorem State.setPin_port_get (s : State) (n : Nat) (x : PinS) (a : Nat) : (s.setPin n x).port a = s.port a := rfl
@[simp] theorem State.setPin_dir_get (s : State) (n : Nat) (x : PinS) (a b : Nat) : (s.setPin n x).dir a b = s.dir a b := rfl
@[simp] theorem State.setPin_ctr_get (s : State) (n : Nat) (x : PinS) (a : Nat) : (s.setPin n x).ctr a = s.ctr a := rfl
@[simp] theorem State.setPin_servo_get (s : State) (n : Nat) (x : PinS) (a : Nat) : (s.setPin n x).servo a = s.servo a := rfl
@[simp] theorem State.setPin_pulse_get (s : State) (n : Nat) (x : PinS) (a : Nat) : (s.setPin n x).pulse a = s.pulse a := rfl
@[simp] theorem State.setPin_cn_get (s : State) (n : Nat) (x : PinS) (a : Nat) : (s.setPin n x).cn a = s.cn a := rfl
@[simp] theorem State.setPin_mach_get (s : State) (n : Nat) (x : PinS) (a b : Nat) : (s.setPin n x).mach a b = s.mach a b := rfl
@[simp] theorem State.setPin_clocksOn_get (s : State) (n : Nat) (x : PinS)  : (s.setPin n x).clocksOn = s.clocksOn := rfl
@[simp] theorem State.setPin_awake_get (s : State) (n : Nat) (x : PinS) (a : Nat) : (s.setPin n x).awake a = s.awake a := rfl
@[simp] theorem State.setPin_tk_get (s : State) (n : Nat) (x : PinS)  : (s.setPin n x).tk = s.tk := rfl
@[simp] theorem State.setPin_flashAt_get (s : State) (n : Nat) (x : PinS) (a : Nat) : (s.setPin n x).flashAt a = s.flashAt a := rfl

@[simp] theorem State.emit_pending (s : State) (o : Out) : (s.emit o).pending = s.pending := rfl
@[simp] theorem State.emit_tick (s : State) (o : Out) : (s.emit o).tick = s.tick := rfl
@[simp] theorem State.emit_tkBase (s : State) (o : Out) : (s.emit o).tkBase = s.tkBase := rfl
@[simp] theorem State.emit_period (s : State) (o : Out) : (s.emit o).period = s.period := rfl
@[simp] theorem State.emit_fresh (s : State) (o : Out) : (s.emit o).fresh = s.fresh := rfl
@[simp] theorem State.emit_act (s : State) (o : Out) : (s.emit o).act = s.act := rfl
@[simp] theorem State.emit_shd (s : State) (o : Out) : (s.emit o).shd = s.shd := rfl
@[simp] theorem State.emit_cap (s : State) (o : Out) : (s.emit o).cap = s.cap := rfl
@[simp] theorem State.emit_lay (s : State) (o : Out) : (s.emit o).lay = s.lay := rfl
@[simp] theorem State.emit_heldGo (s : State) (o : Out) : (s.emit o).heldGo = s.heldGo := rfl
@[simp] theorem State.emit_loft (s : State) (o : Out) : (s.emit o).loft = s.loft := rfl
@[simp] theorem State.emit_code (s : State) (o : Out) : (s.emit o).code = s.code := rfl
@[simp] theorem State.emit_priv (s : State) (o : Out) : (s.emit o).priv = s.priv := rfl
@[simp] theorem State.emit_mg (s : State) (o : Out) : (s.emit o).mg = s.mg := rfl
@[simp] theorem State.emit_stage (s : State) (o : Out) : (s.emit o).stage = s.stage := rfl
@[simp] theorem State.emit_scrub (s : State) (o : Out) : (s.emit o).scrub = s.scrub := rfl
@[simp] theorem State.emit_lost (s : State) (o : Out) : (s.emit o).lost = s.lost := rfl
@[simp] theorem State.emit_flash (s : State) (o : Out) : (s.emit o).flash = s.flash := rfl
@[simp] theorem State.emit_eng (s : State) (o : Out) : (s.emit o).eng = s.eng := rfl
@[simp] theorem State.emit_stb (s : State) (o : Out) : (s.emit o).stb = s.stb := rfl
@[simp] theorem State.emit_fns (s : State) (o : Out) : (s.emit o).fns = s.fns := rfl
@[simp] theorem State.emit_pairs (s : State) (o : Out) : (s.emit o).pairs = s.pairs := rfl
@[simp] theorem State.emit_ic (s : State) (o : Out) : (s.emit o).ic = s.ic := rfl
@[simp] theorem State.emit_rgn (s : State) (o : Out) : (s.emit o).rgn = s.rgn := rfl
@[simp] theorem State.emit_lastInst (s : State) (o : Out) : (s.emit o).lastInst = s.lastInst := rfl
@[simp] theorem State.emit_seenInst (s : State) (o : Out) : (s.emit o).seenInst = s.seenInst := rfl
@[simp] theorem State.emit_jumpDue (s : State) (o : Out) : (s.emit o).jumpDue = s.jumpDue := rfl
@[simp] theorem State.emit_ports (s : State) (o : Out) : (s.emit o).ports = s.ports := rfl
@[simp] theorem State.emit_dirs (s : State) (o : Out) : (s.emit o).dirs = s.dirs := rfl
@[simp] theorem State.emit_yard (s : State) (o : Out) : (s.emit o).yard = s.yard := rfl
@[simp] theorem State.emit_tc (s : State) (o : Out) : (s.emit o).tc = s.tc := rfl
@[simp] theorem State.emit_steps (s : State) (o : Out) : (s.emit o).steps = s.steps := rfl
@[simp] theorem State.emit_steppedAt (s : State) (o : Out) : (s.emit o).steppedAt = s.steppedAt := rfl
@[simp] theorem State.emit_sv (s : State) (o : Out) : (s.emit o).sv = s.sv := rfl
@[simp] theorem State.emit_refs (s : State) (o : Out) : (s.emit o).refs = s.refs := rfl
@[simp] theorem State.emit_pg (s : State) (o : Out) : (s.emit o).pg = s.pg := rfl
@[simp] theorem State.emit_pd (s : State) (o : Out) : (s.emit o).pd = s.pd := rfl
@[simp] theorem State.emit_can (s : State) (o : Out) : (s.emit o).can = s.can := rfl
@[simp] theorem State.emit_pm (s : State) (o : Out) : (s.emit o).pm = s.pm := rfl
@[simp] theorem State.emit_pins (s : State) (o : Out) : (s.emit o).pins = s.pins := rfl
@[simp] theorem State.emit_pinPast (s : State) (o : Out) : (s.emit o).pinPast = s.pinPast := rfl
@[simp] theorem State.emit_flagAt (s : State) (o : Out) : (s.emit o).flagAt = s.flagAt := rfl
@[simp] theorem State.emit_tw (s : State) (o : Out) : (s.emit o).tw = s.tw := rfl
@[simp] theorem State.emit_pw (s : State) (o : Out) : (s.emit o).pw = s.pw := rfl
@[simp] theorem State.emit_boot (s : State) (o : Out) : (s.emit o).boot = s.boot := rfl
@[simp] theorem State.emit_host (s : State) (o : Out) : (s.emit o).host = s.host := rfl
@[simp] theorem State.emit_fld_get (s : State) (o : Out) (g : Fld) (a b : Nat) : (s.emit o).fld g a b = s.fld g a b := rfl
@[simp] theorem State.emit_on_get (s : State) (o : Out) (g : Fld) (a b : Nat) : (s.emit o).on g a b = s.on g a b := rfl
@[simp] theorem State.emit_shadow_get (s : State) (o : Out) (g : Fld) (a b : Nat) : (s.emit o).shadow g a b = s.shadow g a b := rfl
@[simp] theorem State.emit_e_get (s : State) (o : Out) (a : Nat) : (s.emit o).e a = s.e a := rfl
@[simp] theorem State.emit_st_get (s : State) (o : Out) (a : Nat) : (s.emit o).st a = s.st a := rfl
@[simp] theorem State.emit_fn_get (s : State) (o : Out) (a : Nat) : (s.emit o).fn a = s.fn a := rfl
@[simp] theorem State.emit_pair_get (s : State) (o : Out) (a : Nat) : (s.emit o).pair a = s.pair a := rfl
@[simp] theorem State.emit_icT_get (s : State) (o : Out) (a : Nat) : (s.emit o).icT a = s.icT a := rfl
@[simp] theorem State.emit_rg_get (s : State) (o : Out) (a : Nat) : (s.emit o).rg a = s.rg a := rfl
@[simp] theorem State.emit_port_get (s : State) (o : Out) (a : Nat) : (s.emit o).port a = s.port a := rfl
@[simp] theorem State.emit_dir_get (s : State) (o : Out) (a b : Nat) : (s.emit o).dir a b = s.dir a b := rfl
@[simp] theorem State.emit_ctr_get (s : State) (o : Out) (a : Nat) : (s.emit o).ctr a = s.ctr a := rfl
@[simp] theorem State.emit_servo_get (s : State) (o : Out) (a : Nat) : (s.emit o).servo a = s.servo a := rfl
@[simp] theorem State.emit_pulse_get (s : State) (o : Out) (a : Nat) : (s.emit o).pulse a = s.pulse a := rfl
@[simp] theorem State.emit_cn_get (s : State) (o : Out) (a : Nat) : (s.emit o).cn a = s.cn a := rfl
@[simp] theorem State.emit_mach_get (s : State) (o : Out) (a b : Nat) : (s.emit o).mach a b = s.mach a b := rfl
@[simp] theorem State.emit_pin_get (s : State) (o : Out) (a : Nat) : (s.emit o).pin a = s.pin a := rfl
@[simp] theorem State.emit_clocksOn_get (s : State) (o : Out)  : (s.emit o).clocksOn = s.clocksOn := rfl
@[simp] theorem State.emit_awake_get (s : State) (o : Out) (a : Nat) : (s.emit o).awake a = s.awake a := rfl
@[simp] theorem State.emit_tk_get (s : State) (o : Out)  : (s.emit o).tk = s.tk := rfl
@[simp] theorem State.emit_flashAt_get (s : State) (o : Out) (a : Nat) : (s.emit o).flashAt a = s.flashAt a := rfl

@[simp] theorem State.setFlash_pending (s : State) (k : Nat) (v : BitVec 64) : (s.setFlash k v).pending = s.pending := rfl
@[simp] theorem State.setFlash_tick (s : State) (k : Nat) (v : BitVec 64) : (s.setFlash k v).tick = s.tick := rfl
@[simp] theorem State.setFlash_tkBase (s : State) (k : Nat) (v : BitVec 64) : (s.setFlash k v).tkBase = s.tkBase := rfl
@[simp] theorem State.setFlash_period (s : State) (k : Nat) (v : BitVec 64) : (s.setFlash k v).period = s.period := rfl
@[simp] theorem State.setFlash_fresh (s : State) (k : Nat) (v : BitVec 64) : (s.setFlash k v).fresh = s.fresh := rfl
@[simp] theorem State.setFlash_act (s : State) (k : Nat) (v : BitVec 64) : (s.setFlash k v).act = s.act := rfl
@[simp] theorem State.setFlash_shd (s : State) (k : Nat) (v : BitVec 64) : (s.setFlash k v).shd = s.shd := rfl
@[simp] theorem State.setFlash_cap (s : State) (k : Nat) (v : BitVec 64) : (s.setFlash k v).cap = s.cap := rfl
@[simp] theorem State.setFlash_lay (s : State) (k : Nat) (v : BitVec 64) : (s.setFlash k v).lay = s.lay := rfl
@[simp] theorem State.setFlash_heldGo (s : State) (k : Nat) (v : BitVec 64) : (s.setFlash k v).heldGo = s.heldGo := rfl
@[simp] theorem State.setFlash_loft (s : State) (k : Nat) (v : BitVec 64) : (s.setFlash k v).loft = s.loft := rfl
@[simp] theorem State.setFlash_code (s : State) (k : Nat) (v : BitVec 64) : (s.setFlash k v).code = s.code := rfl
@[simp] theorem State.setFlash_priv (s : State) (k : Nat) (v : BitVec 64) : (s.setFlash k v).priv = s.priv := rfl
@[simp] theorem State.setFlash_mg (s : State) (k : Nat) (v : BitVec 64) : (s.setFlash k v).mg = s.mg := rfl
@[simp] theorem State.setFlash_stage (s : State) (k : Nat) (v : BitVec 64) : (s.setFlash k v).stage = s.stage := rfl
@[simp] theorem State.setFlash_scrub (s : State) (k : Nat) (v : BitVec 64) : (s.setFlash k v).scrub = s.scrub := rfl
@[simp] theorem State.setFlash_lost (s : State) (k : Nat) (v : BitVec 64) : (s.setFlash k v).lost = s.lost := rfl
@[simp] theorem State.setFlash_eng (s : State) (k : Nat) (v : BitVec 64) : (s.setFlash k v).eng = s.eng := rfl
@[simp] theorem State.setFlash_stb (s : State) (k : Nat) (v : BitVec 64) : (s.setFlash k v).stb = s.stb := rfl
@[simp] theorem State.setFlash_fns (s : State) (k : Nat) (v : BitVec 64) : (s.setFlash k v).fns = s.fns := rfl
@[simp] theorem State.setFlash_pairs (s : State) (k : Nat) (v : BitVec 64) : (s.setFlash k v).pairs = s.pairs := rfl
@[simp] theorem State.setFlash_ic (s : State) (k : Nat) (v : BitVec 64) : (s.setFlash k v).ic = s.ic := rfl
@[simp] theorem State.setFlash_rgn (s : State) (k : Nat) (v : BitVec 64) : (s.setFlash k v).rgn = s.rgn := rfl
@[simp] theorem State.setFlash_lastInst (s : State) (k : Nat) (v : BitVec 64) : (s.setFlash k v).lastInst = s.lastInst := rfl
@[simp] theorem State.setFlash_seenInst (s : State) (k : Nat) (v : BitVec 64) : (s.setFlash k v).seenInst = s.seenInst := rfl
@[simp] theorem State.setFlash_jumpDue (s : State) (k : Nat) (v : BitVec 64) : (s.setFlash k v).jumpDue = s.jumpDue := rfl
@[simp] theorem State.setFlash_ports (s : State) (k : Nat) (v : BitVec 64) : (s.setFlash k v).ports = s.ports := rfl
@[simp] theorem State.setFlash_dirs (s : State) (k : Nat) (v : BitVec 64) : (s.setFlash k v).dirs = s.dirs := rfl
@[simp] theorem State.setFlash_yard (s : State) (k : Nat) (v : BitVec 64) : (s.setFlash k v).yard = s.yard := rfl
@[simp] theorem State.setFlash_tc (s : State) (k : Nat) (v : BitVec 64) : (s.setFlash k v).tc = s.tc := rfl
@[simp] theorem State.setFlash_steps (s : State) (k : Nat) (v : BitVec 64) : (s.setFlash k v).steps = s.steps := rfl
@[simp] theorem State.setFlash_steppedAt (s : State) (k : Nat) (v : BitVec 64) : (s.setFlash k v).steppedAt = s.steppedAt := rfl
@[simp] theorem State.setFlash_sv (s : State) (k : Nat) (v : BitVec 64) : (s.setFlash k v).sv = s.sv := rfl
@[simp] theorem State.setFlash_refs (s : State) (k : Nat) (v : BitVec 64) : (s.setFlash k v).refs = s.refs := rfl
@[simp] theorem State.setFlash_pg (s : State) (k : Nat) (v : BitVec 64) : (s.setFlash k v).pg = s.pg := rfl
@[simp] theorem State.setFlash_pd (s : State) (k : Nat) (v : BitVec 64) : (s.setFlash k v).pd = s.pd := rfl
@[simp] theorem State.setFlash_can (s : State) (k : Nat) (v : BitVec 64) : (s.setFlash k v).can = s.can := rfl
@[simp] theorem State.setFlash_pm (s : State) (k : Nat) (v : BitVec 64) : (s.setFlash k v).pm = s.pm := rfl
@[simp] theorem State.setFlash_pins (s : State) (k : Nat) (v : BitVec 64) : (s.setFlash k v).pins = s.pins := rfl
@[simp] theorem State.setFlash_pinPast (s : State) (k : Nat) (v : BitVec 64) : (s.setFlash k v).pinPast = s.pinPast := rfl
@[simp] theorem State.setFlash_flagAt (s : State) (k : Nat) (v : BitVec 64) : (s.setFlash k v).flagAt = s.flagAt := rfl
@[simp] theorem State.setFlash_tw (s : State) (k : Nat) (v : BitVec 64) : (s.setFlash k v).tw = s.tw := rfl
@[simp] theorem State.setFlash_pw (s : State) (k : Nat) (v : BitVec 64) : (s.setFlash k v).pw = s.pw := rfl
@[simp] theorem State.setFlash_boot (s : State) (k : Nat) (v : BitVec 64) : (s.setFlash k v).boot = s.boot := rfl
@[simp] theorem State.setFlash_host (s : State) (k : Nat) (v : BitVec 64) : (s.setFlash k v).host = s.host := rfl
@[simp] theorem State.setFlash_out (s : State) (k : Nat) (v : BitVec 64) : (s.setFlash k v).out = s.out := rfl
@[simp] theorem State.setFlash_fld_get (s : State) (k : Nat) (v : BitVec 64) (g : Fld) (a b : Nat) : (s.setFlash k v).fld g a b = s.fld g a b := rfl
@[simp] theorem State.setFlash_on_get (s : State) (k : Nat) (v : BitVec 64) (g : Fld) (a b : Nat) : (s.setFlash k v).on g a b = s.on g a b := rfl
@[simp] theorem State.setFlash_shadow_get (s : State) (k : Nat) (v : BitVec 64) (g : Fld) (a b : Nat) : (s.setFlash k v).shadow g a b = s.shadow g a b := rfl
@[simp] theorem State.setFlash_e_get (s : State) (k : Nat) (v : BitVec 64) (a : Nat) : (s.setFlash k v).e a = s.e a := rfl
@[simp] theorem State.setFlash_st_get (s : State) (k : Nat) (v : BitVec 64) (a : Nat) : (s.setFlash k v).st a = s.st a := rfl
@[simp] theorem State.setFlash_fn_get (s : State) (k : Nat) (v : BitVec 64) (a : Nat) : (s.setFlash k v).fn a = s.fn a := rfl
@[simp] theorem State.setFlash_pair_get (s : State) (k : Nat) (v : BitVec 64) (a : Nat) : (s.setFlash k v).pair a = s.pair a := rfl
@[simp] theorem State.setFlash_icT_get (s : State) (k : Nat) (v : BitVec 64) (a : Nat) : (s.setFlash k v).icT a = s.icT a := rfl
@[simp] theorem State.setFlash_rg_get (s : State) (k : Nat) (v : BitVec 64) (a : Nat) : (s.setFlash k v).rg a = s.rg a := rfl
@[simp] theorem State.setFlash_port_get (s : State) (k : Nat) (v : BitVec 64) (a : Nat) : (s.setFlash k v).port a = s.port a := rfl
@[simp] theorem State.setFlash_dir_get (s : State) (k : Nat) (v : BitVec 64) (a b : Nat) : (s.setFlash k v).dir a b = s.dir a b := rfl
@[simp] theorem State.setFlash_ctr_get (s : State) (k : Nat) (v : BitVec 64) (a : Nat) : (s.setFlash k v).ctr a = s.ctr a := rfl
@[simp] theorem State.setFlash_servo_get (s : State) (k : Nat) (v : BitVec 64) (a : Nat) : (s.setFlash k v).servo a = s.servo a := rfl
@[simp] theorem State.setFlash_pulse_get (s : State) (k : Nat) (v : BitVec 64) (a : Nat) : (s.setFlash k v).pulse a = s.pulse a := rfl
@[simp] theorem State.setFlash_cn_get (s : State) (k : Nat) (v : BitVec 64) (a : Nat) : (s.setFlash k v).cn a = s.cn a := rfl
@[simp] theorem State.setFlash_mach_get (s : State) (k : Nat) (v : BitVec 64) (a b : Nat) : (s.setFlash k v).mach a b = s.mach a b := rfl
@[simp] theorem State.setFlash_pin_get (s : State) (k : Nat) (v : BitVec 64) (a : Nat) : (s.setFlash k v).pin a = s.pin a := rfl
@[simp] theorem State.setFlash_clocksOn_get (s : State) (k : Nat) (v : BitVec 64)  : (s.setFlash k v).clocksOn = s.clocksOn := rfl
@[simp] theorem State.setFlash_awake_get (s : State) (k : Nat) (v : BitVec 64) (a : Nat) : (s.setFlash k v).awake a = s.awake a := rfl
@[simp] theorem State.setFlash_tk_get (s : State) (k : Nat) (v : BitVec 64)  : (s.setFlash k v).tk = s.tk := rfl

@[simp] theorem State.notify_tick (s : State) (n : State) : (notify s n).tick = n.tick := rfl
@[simp] theorem State.notify_tkBase (s : State) (n : State) : (notify s n).tkBase = n.tkBase := rfl
@[simp] theorem State.notify_period (s : State) (n : State) : (notify s n).period = n.period := rfl
@[simp] theorem State.notify_fresh (s : State) (n : State) : (notify s n).fresh = n.fresh := rfl
@[simp] theorem State.notify_act (s : State) (n : State) : (notify s n).act = n.act := rfl
@[simp] theorem State.notify_shd (s : State) (n : State) : (notify s n).shd = n.shd := rfl
@[simp] theorem State.notify_cap (s : State) (n : State) : (notify s n).cap = n.cap := rfl
@[simp] theorem State.notify_lay (s : State) (n : State) : (notify s n).lay = n.lay := rfl
@[simp] theorem State.notify_heldGo (s : State) (n : State) : (notify s n).heldGo = n.heldGo := rfl
@[simp] theorem State.notify_loft (s : State) (n : State) : (notify s n).loft = n.loft := rfl
@[simp] theorem State.notify_code (s : State) (n : State) : (notify s n).code = n.code := rfl
@[simp] theorem State.notify_priv (s : State) (n : State) : (notify s n).priv = n.priv := rfl
@[simp] theorem State.notify_mg (s : State) (n : State) : (notify s n).mg = n.mg := rfl
@[simp] theorem State.notify_stage (s : State) (n : State) : (notify s n).stage = n.stage := rfl
@[simp] theorem State.notify_scrub (s : State) (n : State) : (notify s n).scrub = n.scrub := rfl
@[simp] theorem State.notify_lost (s : State) (n : State) : (notify s n).lost = n.lost := rfl
@[simp] theorem State.notify_flash (s : State) (n : State) : (notify s n).flash = n.flash := rfl
@[simp] theorem State.notify_eng (s : State) (n : State) : (notify s n).eng = n.eng := rfl
@[simp] theorem State.notify_stb (s : State) (n : State) : (notify s n).stb = n.stb := rfl
@[simp] theorem State.notify_fns (s : State) (n : State) : (notify s n).fns = n.fns := rfl
@[simp] theorem State.notify_pairs (s : State) (n : State) : (notify s n).pairs = n.pairs := rfl
@[simp] theorem State.notify_ic (s : State) (n : State) : (notify s n).ic = n.ic := rfl
@[simp] theorem State.notify_rgn (s : State) (n : State) : (notify s n).rgn = n.rgn := rfl
@[simp] theorem State.notify_lastInst (s : State) (n : State) : (notify s n).lastInst = n.lastInst := rfl
@[simp] theorem State.notify_seenInst (s : State) (n : State) : (notify s n).seenInst = n.seenInst := rfl
@[simp] theorem State.notify_jumpDue (s : State) (n : State) : (notify s n).jumpDue = n.jumpDue := rfl
@[simp] theorem State.notify_ports (s : State) (n : State) : (notify s n).ports = n.ports := rfl
@[simp] theorem State.notify_dirs (s : State) (n : State) : (notify s n).dirs = n.dirs := rfl
@[simp] theorem State.notify_yard (s : State) (n : State) : (notify s n).yard = n.yard := rfl
@[simp] theorem State.notify_tc (s : State) (n : State) : (notify s n).tc = n.tc := rfl
@[simp] theorem State.notify_steps (s : State) (n : State) : (notify s n).steps = n.steps := rfl
@[simp] theorem State.notify_steppedAt (s : State) (n : State) : (notify s n).steppedAt = n.steppedAt := rfl
@[simp] theorem State.notify_sv (s : State) (n : State) : (notify s n).sv = n.sv := rfl
@[simp] theorem State.notify_refs (s : State) (n : State) : (notify s n).refs = n.refs := rfl
@[simp] theorem State.notify_pg (s : State) (n : State) : (notify s n).pg = n.pg := rfl
@[simp] theorem State.notify_pd (s : State) (n : State) : (notify s n).pd = n.pd := rfl
@[simp] theorem State.notify_can (s : State) (n : State) : (notify s n).can = n.can := rfl
@[simp] theorem State.notify_pm (s : State) (n : State) : (notify s n).pm = n.pm := rfl
@[simp] theorem State.notify_pins (s : State) (n : State) : (notify s n).pins = n.pins := rfl
@[simp] theorem State.notify_pinPast (s : State) (n : State) : (notify s n).pinPast = n.pinPast := rfl
@[simp] theorem State.notify_flagAt (s : State) (n : State) : (notify s n).flagAt = n.flagAt := rfl
@[simp] theorem State.notify_tw (s : State) (n : State) : (notify s n).tw = n.tw := rfl
@[simp] theorem State.notify_pw (s : State) (n : State) : (notify s n).pw = n.pw := rfl
@[simp] theorem State.notify_boot (s : State) (n : State) : (notify s n).boot = n.boot := rfl
@[simp] theorem State.notify_pending (s : State) (n : State) : (notify s n).pending = s.pending := rfl
@[simp] theorem State.notify_fld_get (s : State) (n : State) (g : Fld) (a b : Nat) : (notify s n).fld g a b = n.fld g a b := rfl
@[simp] theorem State.notify_on_get (s : State) (n : State) (g : Fld) (a b : Nat) : (notify s n).on g a b = n.on g a b := rfl
@[simp] theorem State.notify_shadow_get (s : State) (n : State) (g : Fld) (a b : Nat) : (notify s n).shadow g a b = n.shadow g a b := rfl
@[simp] theorem State.notify_e_get (s : State) (n : State) (a : Nat) : (notify s n).e a = n.e a := rfl
@[simp] theorem State.notify_st_get (s : State) (n : State) (a : Nat) : (notify s n).st a = n.st a := rfl
@[simp] theorem State.notify_fn_get (s : State) (n : State) (a : Nat) : (notify s n).fn a = n.fn a := rfl
@[simp] theorem State.notify_pair_get (s : State) (n : State) (a : Nat) : (notify s n).pair a = n.pair a := rfl
@[simp] theorem State.notify_icT_get (s : State) (n : State) (a : Nat) : (notify s n).icT a = n.icT a := rfl
@[simp] theorem State.notify_rg_get (s : State) (n : State) (a : Nat) : (notify s n).rg a = n.rg a := rfl
@[simp] theorem State.notify_port_get (s : State) (n : State) (a : Nat) : (notify s n).port a = n.port a := rfl
@[simp] theorem State.notify_dir_get (s : State) (n : State) (a b : Nat) : (notify s n).dir a b = n.dir a b := rfl
@[simp] theorem State.notify_ctr_get (s : State) (n : State) (a : Nat) : (notify s n).ctr a = n.ctr a := rfl
@[simp] theorem State.notify_servo_get (s : State) (n : State) (a : Nat) : (notify s n).servo a = n.servo a := rfl
@[simp] theorem State.notify_pulse_get (s : State) (n : State) (a : Nat) : (notify s n).pulse a = n.pulse a := rfl
@[simp] theorem State.notify_cn_get (s : State) (n : State) (a : Nat) : (notify s n).cn a = n.cn a := rfl
@[simp] theorem State.notify_mach_get (s : State) (n : State) (a b : Nat) : (notify s n).mach a b = n.mach a b := rfl
@[simp] theorem State.notify_pin_get (s : State) (n : State) (a : Nat) : (notify s n).pin a = n.pin a := rfl
@[simp] theorem State.notify_clocksOn_get (s : State) (n : State)  : (notify s n).clocksOn = n.clocksOn := rfl
@[simp] theorem State.notify_awake_get (s : State) (n : State) (a : Nat) : (notify s n).awake a = n.awake a := rfl
@[simp] theorem State.notify_tk_get (s : State) (n : State)  : (notify s n).tk = n.tk := rfl
@[simp] theorem State.notify_flashAt_get (s : State) (n : State) (a : Nat) : (notify s n).flashAt a = n.flashAt a := rfl

@[simp] theorem State.setE_e (s : State) (n : Nat) (x : Eng) : (s.setE n x).e n = x := Tab.get_set_same _ _ _ _
theorem State.setE_e_ne (s : State) (n m : Nat) (x : Eng) (h : m ≠ n) : (s.setE n x).e m = s.e m := Tab.get_set_ne _ _ _ _ _ _ h
@[simp] theorem State.setSt_st (s : State) (n : Nat) (x : Stb) : (s.setSt n x).st n = x := Tab.get_set_same _ _ _ _
theorem State.setSt_st_ne (s : State) (n m : Nat) (x : Stb) (h : m ≠ n) : (s.setSt n x).st m = s.st m := Tab.get_set_ne _ _ _ _ _ _ h
@[simp] theorem State.setFn_fn (s : State) (n : Nat) (x : FnS) : (s.setFn n x).fn n = x := Tab.get_set_same _ _ _ _
theorem State.setFn_fn_ne (s : State) (n m : Nat) (x : FnS) (h : m ≠ n) : (s.setFn n x).fn m = s.fn m := Tab.get_set_ne _ _ _ _ _ _ h
@[simp] theorem State.setPair_pair (s : State) (n : Nat) (x : PairS) : (s.setPair n x).pair n = x := Tab.get_set_same _ _ _ _
theorem State.setPair_pair_ne (s : State) (n m : Nat) (x : PairS) (h : m ≠ n) : (s.setPair n x).pair m = s.pair m := Tab.get_set_ne _ _ _ _ _ _ h
@[simp] theorem State.setIc_icT (s : State) (n : Nat) (x : IcS) : (s.setIc n x).icT n = x := Tab.get_set_same _ _ _ _
theorem State.setIc_icT_ne (s : State) (n m : Nat) (x : IcS) (h : m ≠ n) : (s.setIc n x).icT m = s.icT m := Tab.get_set_ne _ _ _ _ _ _ h
@[simp] theorem State.setRg_rg (s : State) (n : Nat) (x : RgnS) : (s.setRg n x).rg n = x := Tab.get_set_same _ _ _ _
theorem State.setRg_rg_ne (s : State) (n m : Nat) (x : RgnS) (h : m ≠ n) : (s.setRg n x).rg m = s.rg m := Tab.get_set_ne _ _ _ _ _ _ h
@[simp] theorem State.setPort_port (s : State) (n : Nat) (x : PortS) : (s.setPort n x).port n = x := Tab.get_set_same _ _ _ _
theorem State.setPort_port_ne (s : State) (n m : Nat) (x : PortS) (h : m ≠ n) : (s.setPort n x).port m = s.port m := Tab.get_set_ne _ _ _ _ _ _ h
@[simp] theorem State.setCtr_ctr (s : State) (n : Nat) (x : TCnt) : (s.setCtr n x).ctr n = x := Tab.get_set_same _ _ _ _
theorem State.setCtr_ctr_ne (s : State) (n m : Nat) (x : TCnt) (h : m ≠ n) : (s.setCtr n x).ctr m = s.ctr m := Tab.get_set_ne _ _ _ _ _ _ h
@[simp] theorem State.setServo_servo (s : State) (n : Nat) (x : SvS) : (s.setServo n x).servo n = x := Tab.get_set_same _ _ _ _
theorem State.setServo_servo_ne (s : State) (n m : Nat) (x : SvS) (h : m ≠ n) : (s.setServo n x).servo m = s.servo m := Tab.get_set_ne _ _ _ _ _ _ h
@[simp] theorem State.setPulse_pulse (s : State) (n : Nat) (x : PgS) : (s.setPulse n x).pulse n = x := Tab.get_set_same _ _ _ _
theorem State.setPulse_pulse_ne (s : State) (n m : Nat) (x : PgS) (h : m ≠ n) : (s.setPulse n x).pulse m = s.pulse m := Tab.get_set_ne _ _ _ _ _ _ h
@[simp] theorem State.setCn_cn (s : State) (n : Nat) (x : CanS) : (s.setCn n x).cn n = x := Tab.get_set_same _ _ _ _
theorem State.setCn_cn_ne (s : State) (n m : Nat) (x : CanS) (h : m ≠ n) : (s.setCn n x).cn m = s.cn m := Tab.get_set_ne _ _ _ _ _ _ h
@[simp] theorem State.setPin_pin (s : State) (n : Nat) (x : PinS) : (s.setPin n x).pin n = x := Tab.get_set_same _ _ _ _
theorem State.setPin_pin_ne (s : State) (n m : Nat) (x : PinS) (h : m ≠ n) : (s.setPin n x).pin m = s.pin m := Tab.get_set_ne _ _ _ _ _ _ h
@[simp] theorem State.setDir_dir (s : State) (k d : Nat) (x : DirS) : (s.setDir k d x).dir k d = x := Tab.get_set_same _ _ _ _
@[simp] theorem State.setMach_mach (s : State) (b m : Nat) (x : PmS) : (s.setMach b m x).mach b m = x := Tab.get_set_same _ _ _ _

/-! ### Register fields -/

/-- Keys of different fields differ. -/
theorem key_ne {f g : Fld} (h : g.id ≠ f.id) (i j a b : Nat) : g.key a b ≠ f.key i j := by
  unfold Fld.key
  omega

/-- A field reads as what was put, cut to its width. -/
@[simp] theorem State.put_fld (s : State) (f : Fld) (v i j : Nat) : (s.put f v i j).fld f i j = v % 2 ^ f.width :=
  Tab.get_set_same _ _ _ _

/-- Other fields keep their values. -/
theorem State.put_fld_ne (s : State) (f g : Fld) (v i j a b : Nat) (h : g.id ≠ f.id) :
    (s.put f v i j).fld g a b = s.fld g a b := Tab.get_set_ne _ _ _ _ _ _ (key_ne h i j a b)

/-- Another place of the same field keeps its value. -/
theorem State.put_fld_at (s : State) (f : Fld) (v i j a b : Nat) (h : f.key a b ≠ f.key i j) :
    (s.put f v i j).fld f a b = s.fld f a b := Tab.get_set_ne _ _ _ _ _ _ h

@[simp] theorem State.put_on_ne (s : State) (f g : Fld) (v i j a b : Nat) (h : g.id ≠ f.id) :
    (s.put f v i j).on g a b = s.on g a b := by simp [State.on, State.put_fld_ne _ _ _ _ _ _ _ _ h]

/-- A counter that counts (R15). -/
@[simp] theorem State.bump_fld (s : State) (f : Fld) (i j n : Nat) :
    (s.bump f i j n).fld f i j = min (s.fld f i j + n) (2 ^ f.width - 1) := by
  unfold State.bump
  rw [State.put_fld, Nat.mod_eq_of_lt]
  have := Nat.two_pow_pos f.width
  omega

theorem State.bump_fld_ne (s : State) (f g : Fld) (i j n a b : Nat) (h : g.id ≠ f.id) :
    (s.bump f i j n).fld g a b = s.fld g a b := State.put_fld_ne _ _ _ _ _ _ _ _ h

@[simp] theorem State.putShadow_shadow (s : State) (f : Fld) (v i j : Nat) :
    (s.putShadow f v i j).shadow f i j = v % 2 ^ f.width := Tab.get_set_same _ _ _ _

theorem State.putShadow_shadow_ne (s : State) (f g : Fld) (v i j a b : Nat) (h : g.id ≠ f.id) :
    (s.putShadow f v i j).shadow g a b = s.shadow g a b := Tab.get_set_ne _ _ _ _ _ _ (key_ne h i j a b)

@[simp] theorem State.put_put (s : State) (f : Fld) (v u i j : Nat) : (s.put f v i j).put f u i j = s.put f u i j := by
  simp [State.put, Tab.set_set]

@[simp] theorem State.setE_setE (s : State) (n : Nat) (x y : Eng) : (s.setE n x).setE n y = s.setE n y := by
  simp [State.setE, Tab.set_set]
@[simp] theorem State.setSt_setSt (s : State) (n : Nat) (x y : Stb) : (s.setSt n x).setSt n y = s.setSt n y := by
  simp [State.setSt, Tab.set_set]
@[simp] theorem State.setFn_setFn (s : State) (n : Nat) (x y : FnS) : (s.setFn n x).setFn n y = s.setFn n y := by
  simp [State.setFn, Tab.set_set]
@[simp] theorem State.setPair_setPair (s : State) (n : Nat) (x y : PairS) : (s.setPair n x).setPair n y = s.setPair n y := by
  simp [State.setPair, Tab.set_set]
@[simp] theorem State.setIc_setIc (s : State) (n : Nat) (x y : IcS) : (s.setIc n x).setIc n y = s.setIc n y := by
  simp [State.setIc, Tab.set_set]
@[simp] theorem State.setRg_setRg (s : State) (n : Nat) (x y : RgnS) : (s.setRg n x).setRg n y = s.setRg n y := by
  simp [State.setRg, Tab.set_set]
@[simp] theorem State.setPort_setPort (s : State) (n : Nat) (x y : PortS) : (s.setPort n x).setPort n y = s.setPort n y := by
  simp [State.setPort, Tab.set_set]
@[simp] theorem State.setCtr_setCtr (s : State) (n : Nat) (x y : TCnt) : (s.setCtr n x).setCtr n y = s.setCtr n y := by
  simp [State.setCtr, Tab.set_set]
@[simp] theorem State.setServo_setServo (s : State) (n : Nat) (x y : SvS) : (s.setServo n x).setServo n y = s.setServo n y := by
  simp [State.setServo, Tab.set_set]
@[simp] theorem State.setPulse_setPulse (s : State) (n : Nat) (x y : PgS) : (s.setPulse n x).setPulse n y = s.setPulse n y := by
  simp [State.setPulse, Tab.set_set]
@[simp] theorem State.setCn_setCn (s : State) (n : Nat) (x y : CanS) : (s.setCn n x).setCn n y = s.setCn n y := by
  simp [State.setCn, Tab.set_set]
@[simp] theorem State.setPin_setPin (s : State) (n : Nat) (x y : PinS) : (s.setPin n x).setPin n y = s.setPin n y := by
  simp [State.setPin, Tab.set_set]

end Sys2Proof.Machine
end

