-- ==== Sys2Proof/Laws/Engine.lean ====
section
/-! SUPPORT. How an engine's instruction runs: the fetch, the operand, and what a row does where its instruction issues. -/

namespace Sys2Proof.Machine

@[simp] theorem passBreak_e (e : Nat) (s : State) : (passBreak e s).e e = { s.e e with bpPass := false } := by
  simp [passBreak]

@[simp] theorem State.setE_raw (s : State) (n : Nat) (x : Eng) (a : SramWord) : (s.setE n x).raw a = s.raw a := by
  cases a <;> rfl

@[simp] theorem passBreak_raw (e : Nat) (s : State) (a : SramWord) : (passBreak e s).raw a = s.raw a := State.setE_raw ..

@[simp] theorem State.setE_peek (s : State) (n : Nat) (x : Eng) (e a : Nat) : (s.setE n x).peek e a = s.peek e a := by
  simp [State.peek]

@[simp] theorem passBreak_peek (n : Nat) (s : State) (e a : Nat) : (passBreak n s).peek e a = s.peek e a := State.setE_peek ..

/-- A word without an error reads as it stands and nothing is counted (R144). -/
theorem memRead_ok {a : SramWord} {s : State} {w : Word} (h : readCode (s.raw a) = .ok w) : memRead a s = (.ok w, s) := by
  simp [memRead, h]

theorem fetchSlot_ok {s : State} {e a : Nat} {w : Word} (h : readCode (s.raw (codePlace e a)) = .ok w) :
    fetchSlot e a s = (some (s.peek e a), s) := by
  simp [fetchSlot, memRead_ok h, State.peek, h, Rd.bad, Rd.word]

/-- The instruction that an engine issues is the one it fetches. -/
theorem Fetches.fetch {s : State} {e : Fin 128} {i : Insn} (h : Fetches s e i) :
    fetchInsn e (passBreak e s) = (some i, passBreak e s) := by
  obtain ⟨-, hw, hv, hi, -⟩ := h
  have hm : insnMode (s.peek e (s.e e).pc.toNat) = i.mode := by
    conv_rhs => rw [hi]
    rfl
  have h1 := fetchSlot_ok (s := passBreak e s) (e := e) (a := (s.e e).pc.toNat) (by rw [passBreak_raw]; exact hw)
  unfold fetchInsn
  simp only [passBreak_e, h1, passBreak_peek, hm]
  by_cases h7 : i.mode = 7
  · have h2 := fetchSlot_ok (s := passBreak e s) (e := e) (a := (s.e e).pc.toNat + 1)
      (by rw [passBreak_raw]; exact hv h7)
    rw [if_pos h7] at hi
    simp [h7, h2, ← hi]
  · rw [if_neg h7] at hi
    simp [h7, ← hi]

theorem Fetches.opcode {s : State} {e : Fin 128} {i : Insn} (h : Fetches s e i) :
    insnOp (s.peek e (s.e e).pc.toNat) = i.op := by
  obtain ⟨-, -, -, hi, -⟩ := h
  conv_rhs => rw [hi]
  rfl

/-- A row whose instruction is fetched runs that instruction's effect, unless a repeat with LC 0 passes over it. -/
theorem Fetches.issue {s : State} {e : Fin 128} {i : Insn} (h : Fetches s e i) (hr : ((s.e e).ra && (s.e e).lc == 0) = false)
    {op : Nat} (hop : i.op = op) (b : Body) : issue e op b s = settle i e (b i e (passBreak e s)) := by
  have hf := h.fetch
  have hop' := h.opcode
  obtain ⟨hmay, -, -, -, hmis⟩ := h
  have hm : (passBreak e s).misplaced e i = false := by
    unfold State.misplaced at hmis ⊢
    rw [passBreak_e]
    exact hmis
  have hr' : (((passBreak e s).e e).ra && ((passBreak e s).e e).lc == 0) = false := by
    rw [passBreak_e]
    exact hr
  unfold Machine.issue runInsn
  rw [if_pos (by simp [hmay, hop', hop])]
  simp only [hr', Bool.false_eq_true, if_false, runFetched, hf, hm]

/-- A row whose instruction issues runs that instruction's effect. -/
theorem Issues.issue {s : State} {e : Fin 128} {i : Insn} (h : Issues s e i) {op : Nat} (hop : i.op = op) (b : Body) :
    issue e op b s = settle i e (b i e (passBreak e s)) :=
  h.1.issue (by simp [h.2]) hop b

/-- Forming an operand (R68). -/
theorem Operand.form {s : State} {e : Fin 128} {i : Insn} {v : Word} {u : State} (h : Operand s e i v u)
    (k : Word → State → Eff) : withOperand i e s k = k v u := by
  unfold Operand at h
  unfold withOperand
  split at h
  · rw [if_pos ‹_›, h.1, h.2]
  · rw [if_neg ‹_›]
    obtain ⟨h1, h2, h3, h4⟩ := h
    simp [loadThen, h1, h2, h3, h4]

/-- Forming a destination (R79). -/
theorem Target.form {s : State} {e : Fin 128} {i : Insn} {d : BitVec 16} {u : State} (h : Target s e i d u)
    (k : BitVec 16 → State → Eff) : withDest i e s k = k d u := by
  unfold Target at h
  unfold withDest
  split at h
  · rw [if_pos ‹_›, h.1, h.2]
  · rw [if_neg ‹_›]
    obtain ⟨v, hv, rfl⟩ := h
    rw [hv.form]

/-- Before a delay slot no debug step ends (R109). -/
theorem endStep_slot (e : Nat) (s : State) (h : (s.e e).slot.isSome = true) : endStep e s = s := by
  simp only [endStep]
  rw [if_neg (by simp [Option.isSome_iff_ne_none.1 h])]

theorem endStep_free (e : Nat) (s : State) (h : (s.e e).stepReq = false) : endStep e s = s := by
  simp [endStep, h]

@[simp] theorem memWrite_e (a : SramWord) (w : Word) (s : State) (n : Nat) : (memWrite a w s).e n = s.e n := by
  cases a
  case cell =>
    simp only [memWrite, State.setRaw]
    split <;> rfl
  all_goals rfl

end Sys2Proof.Machine
end

