-- ==== Sys2Proof/Laws/Memory.lean ====
section
/-! SUPPORT. The memories: a word reads back as it was written, other words keep what they hold, and every memory operation
keeps the canonical form of the memories. -/

namespace Sys2Proof.Machine

theorem State.setRaw_same (s : State) (a : SramWord) (v : Stored) (h : inMemory a = true) : (s.setRaw a v).raw a = v := by
  cases a
  case loft n k => simp [setRaw, raw, Tab.get_set_same]
  case code n k => simp [setRaw, raw, Tab.get_set_same, lostAt]
  case priv n k => simp [setRaw, raw, Tab.get_set_same, lostAt]
  case mg k => simp [setRaw, raw, Tab.get_set_same]
  case stage k => simp [setRaw, raw, Tab.get_set_same, lostAt]
  all_goals simp [inMemory] at h

theorem State.setRaw_ne (s : State) (a b : SramWord) (v : Stored) (h : b ≠ a) (hm : inMemory a = true) :
    (s.setRaw a v).raw b = s.raw b := by
  cases a
  case loft n k =>
    cases b <;> try rfl
    rename_i m j
    simp only [setRaw, raw]
    refine Tab.get_set_ne _ _ _ _ _ _ fun e => h ?_
    obtain ⟨rfl, rfl⟩ : n = m ∧ k = j := by constructor <;> apply Fin.ext <;> omega
    rfl
  case code n k =>
    cases b <;> try rfl
    rename_i m j
    simp only [setRaw, raw, lostAt]
    rw [Tab.get_set_ne _ _ _ _ _ _ fun e => h ?_]
    obtain ⟨rfl, rfl⟩ : n = m ∧ k = j := by constructor <;> apply Fin.ext <;> omega
    rfl
  case priv n k =>
    cases b <;> try rfl
    rename_i m j
    simp only [setRaw, raw, lostAt]
    rw [Tab.get_set_ne _ _ _ _ _ _ fun e => h ?_]
    obtain ⟨rfl, rfl⟩ : n = m ∧ k = j := by constructor <;> apply Fin.ext <;> omega
    rfl
  case mg k =>
    cases b <;> try rfl
    rename_i j
    simp only [setRaw, raw]
    refine Tab.get_set_ne _ _ _ _ _ _ fun e => h ?_
    obtain rfl : k = j := by apply Fin.ext; omega
    rfl
  case stage k =>
    cases b <;> try rfl
    rename_i j
    simp only [setRaw, raw, lostAt]
    rw [Tab.get_set_ne _ _ _ _ _ _ fun e => h ?_]
    obtain rfl : k = j := by apply Fin.ext; omega
    rfl
  all_goals simp [inMemory] at hm

theorem sealW_data (w : Word) : Stored.data (sealW w) = w := by
  apply BitVec.eq_of_getLsbD_eq
  intro i hi
  rw [Stored.data, BitVec.getLsbD_extractLsb', sealW]
  exact (congrArg _ (BitVec.getLsbD_append (x := checkByte w) (y := w))).trans (by simp [hi])

theorem sealW_check (w : Word) : Stored.check (sealW w) = checkByte w := by
  apply BitVec.eq_of_getLsbD_eq
  intro i hi
  rw [Stored.check, BitVec.getLsbD_extractLsb', sealW]
  exact (congrArg _ (BitVec.getLsbD_append (x := checkByte w) (y := w))).trans (by simp [hi])

@[simp] theorem readCode_sealW (w : Word) : readCode (sealW w) = .ok w := by
  simp [readCode, syndrome, sealW_data, sealW_check]

/-! ### The canonical form -/

/-- Storing a word keeps the form of every memory. -/
theorem State.memOk_setRaw (s : State) (a : SramWord) (v : Stored) (h : s.memOk = true) : (s.setRaw a v).memOk = true := by
  simp only [memOk, Bool.and_eq_true] at h ⊢
  obtain ⟨⟨⟨⟨h1, h2⟩, h3⟩, h4⟩, h5⟩ := h
  unfold Mem.wf at *
  cases a
  case cell id l =>
    simp only [setRaw]
    split <;> exact ⟨⟨⟨⟨h1, h2⟩, h3⟩, h4⟩, h5⟩
  all_goals refine ⟨⟨⟨⟨?_, ?_⟩, ?_⟩, ?_⟩, ?_⟩ <;> first | assumption | exact Tab.wf_set _ _ _ _ ‹_›

/-- Two states with the same memories. -/
theorem State.memOk_congr {s t : State} (h1 : t.loft = s.loft) (h2 : t.code = s.code) (h3 : t.priv = s.priv) (h4 : t.mg = s.mg)
    (h5 : t.stage = s.stage) : t.memOk = s.memOk := by
  simp only [memOk, h1, h2, h3, h4, h5]

theorem State.memOk_memWrite (s : State) (a : SramWord) (w : Word) (h : s.memOk = true) : (memWrite a w s).memOk = true :=
  memOk_setRaw _ _ _ h

theorem eraseSector_memOk (n : Nat) (s : State) : (eraseSector n s).memOk = s.memOk := rfl

theorem foldFlash_memOk (f : Nat → Nat) (g : Nat → BitVec 64) (l : List Nat) (s : State) :
    (l.foldl (fun s i => s.setFlash (f i) (g i)) s).memOk = s.memOk := by
  induction l generalizing s with
  | nil => rfl
  | cons a l ih => rw [List.foldl_cons, ih]; rfl

theorem memOk_boot (s : State) (b : BootS) : ({ s with boot := b }).memOk = s.memOk := rfl

theorem writeRecord_memOk (w : Word) (ws : List Nat) (s : State) : (writeRecord w ws s).memOk = s.memOk := by
  unfold writeRecord
  dsimp only
  rw [memOk_boot, foldFlash_memOk]
  split
  · rw [eraseSector_memOk]; split <;> rfl
  · rfl

theorem logRecord_memOk (n : Nat) (ws : List Nat) (s : State) : (logRecord n ws s).memOk = s.memOk := by
  unfold logRecord
  dsimp only
  split
  · rfl
  · split
    · rw [writeRecord_memOk]; rfl
    · split <;> rfl

@[simp] theorem memOk_put (s : State) (f : Fld) (v i j : Nat) : (s.put f v i j).memOk = s.memOk := rfl
@[simp] theorem memOk_bump (s : State) (f : Fld) (i j n : Nat) : (s.bump f i j n).memOk = s.memOk := rfl
theorem memOk_seen (s : State) (b : BootS) (t : TwS) : ({ s with boot := b, tw := t }).memOk = s.memOk := rfl

theorem countUE_memOk (a : SramWord) (y : BitVec 8) (s : State) : (countUE a y s).memOk = s.memOk := by
  cases a <;> simp only [countUE, mbLoss, memPlace, logRecord_memOk, memLog, memOk_put, memOk_bump, memOk_seen]

theorem countCE_memOk (a : SramWord) (s : State) : (countCE a s).memOk = s.memOk := by
  cases a <;> exact State.memOk_congr rfl rfl rfl rfl rfl

/-- Reading a word changes no memory's form. -/
theorem State.memOk_memRead (s : State) (a : SramWord) : (memRead a s).2.memOk = s.memOk := by
  unfold memRead
  split
  · rfl
  · exact countCE_memOk _ _
  · exact countUE_memOk _ _ _

/-- Replacing a part of a word keeps the form (R147). -/
theorem State.memOk_memUpdate (s : State) (a : SramWord) (f : Word → Word) (h : s.memOk = true) : (memUpdate a f s).2.memOk = true := by
  unfold memUpdate
  have hr := memOk_memRead s a
  generalize memRead a s = r at hr
  obtain ⟨r, t⟩ := r
  simp only at hr
  cases r <;> simp only
  · exact memOk_memWrite _ _ _ (hr.trans h)
  · exact memOk_memWrite _ _ _ (hr.trans h)
  · have : (countPW a t).memOk = t.memOk := by
      cases a <;> exact memOk_congr rfl rfl rfl rfl rfl
    rw [this, hr, h]

/-- Writing some bytes of a word keeps the form (R147). -/
theorem State.memOk_memMerge (s : State) (a : SramWord) (be : BitVec 8) (v : BitVec 64) (h : s.memOk = true) :
    (memMerge a be v s).2.memOk = true := by
  unfold memMerge
  split
  · exact memOk_memWrite _ _ _ h
  · split
    · exact h
    · exact memOk_memUpdate _ _ _ h

end Sys2Proof.Machine
end

