-- ==== Sys2Proof/WellFormed.lean ====
section
/-! DEFINITION. Which commands are well formed: the operands that their types leave too wide stay inside the limits of
the rules. A command that is not well formed is none that the outside can send. -/

namespace Sys2Proof

/-- BAR 0 is 64 MiB (R21). -/
def bar0Bytes : Nat := 0x4000000

/-- A frame brings its addresses and its type or length at least (R190). -/
def EthFrame.wf (f : EthFrame) : Bool := decide (14 ≤ f.bytes.length)

/-- A Paddock frame has at most 176 + 48·240 bits (R261). -/
def PdCopy.wf (c : PdCopy) : Bool := decide (c.line.length ≤ 11696)

/-- A frame in the yard fills 22 lanes a cell; the longest takes 76 cells of 128 bytes (R185, R220). -/
def SramWord.wf : SramWord → Bool
  | .cell _ lane => decide (lane < 1672)
  | .loft .. => true
  | .code .. => true
  | .priv .. => true
  | .mg .. => true
  | .stage .. => true
  | .mbq .. => true

/-- The operands of a command stay inside the limits of its rule: offsets in BAR 0 (R21), frames with a header (R190),
segments of 1 to 64 words (R214), rings of at most 4,096 descriptors (R229), payloads of R261, CAN data of at most 64
bytes (R286), one value for each of R335 and R355, transfers of at most 256 bytes (R366, R367), one value a boundary
cell (R368). -/
def Instr.wf : Instr → Bool
  | .registerWrite _ off _ _ => decide (off < bar0Bytes)
  | .reservedHostAccess _ off _ => decide (off < bar0Bytes)
  | .hostMemoryRead _ x => decide (x.off / 8 + x.more.val < bar0Bytes / 8)
  | .hostMemoryWrite _ off _ _ => decide (off < bar0Bytes)
  | .commitGo _ _ => true
  | .commitActivate _ => true
  | .gcCommitGo _ _ => true
  | .deltaApply _ => true
  | .keyProgram _ _ => true
  | .keyRevoke _ _ => true
  | .fnReset _ _ => true
  | .fnResetHoldExpire _ => true
  | .functionStop _ => true
  | .fnResetDrainEnd _ => true
  | .fnRelease _ _ => true
  | .nop _ => true
  | .ld _ => true
  | .st _ => true
  | .xch _ => true
  | .fadd _ => true
  | .add _ => true
  | .adc _ => true
  | .sub _ => true
  | .sbc _ => true
  | .and_ _ => true
  | .or_ _ => true
  | .xor_ _ => true
  | .mul _ => true
  | .shl _ => true
  | .shr _ => true
  | .sar _ => true
  | .rol _ => true
  | .bfx _ => true
  | .bfi _ => true
  | .bsw _ => true
  | .popc _ => true
  | .cmpeq _ => true
  | .cmpne _ => true
  | .cmplt _ => true
  | .cmpltu _ => true
  | .cmpge _ => true
  | .cmpgeu _ => true
  | .crc32b _ => true
  | .crc32w _ => true
  | .crc16b _ => true
  | .crc16w _ => true
  | .bz _ => true
  | .bnz _ => true
  | .bra _ => true
  | .jsr _ => true
  | .rts _ => true
  | .trap _ => true
  | .rte _ => true
  | .lpb _ => true
  | .rep _ => true
  | .repi _ => true
  | .wfe _ => true
  | .wfeEventMatch _ => true
  | .sev _ => true
  | .wunt _ => true
  | .wuntExpire _ => true
  | .tkr _ => true
  | .tpush _ => true
  | .tnext _ => true
  | .tdone _ => true
  | .mfsr _ => true
  | .mtsr _ => true
  | .interruptEntry _ => true
  | .quantumEntry _ => true
  | .dbgHalt _ _ => true
  | .debugHaltTaken _ => true
  | .dbgRun _ _ => true
  | .dbgStep _ _ => true
  | .breakpointHalt _ => true
  | .dbgdataWrite _ _ _ => true
  | .eirqsSet _ _ _ => true
  | .codeStoreWrite _ _ _ _ => true
  | .stableRelease _ _ => true
  | .stableWake _ _ => true
  | .stableEnginesRun _ => true
  | .stableGate _ => true
  | .taskDispatch _ => true
  | .overflowMove _ => true
  | .u0Withdraw _ => true
  | .lateRecordPop _ _ => true
  | .bankHandoverRequest _ _ _ _ => true
  | .bankHandoverComplete _ _ => true
  | .poisonMark _ _ _ => true
  | .poisonMarkApply _ => true
  | .scrubRead a => a.wf
  | .scrubWriteBack a => a.wf
  | .mailboxSend _ _ _ _ => true
  | .mailboxReceive _ _ _ => true
  | .mailboxResync _ _ _ => true
  | .doorbellRing _ _ _ => true
  | .standoffDetect _ => true
  | .icRequest _ _ _ => true
  | .icGrant _ => true
  | .starvationDetect _ _ => true
  | .regionDone _ _ => true
  | .subscriptionReceive fr => fr.wf
  | .linkChange _ _ => true
  | .macReceiveFrame _ fr _ => fr.frag.isSome || fr.wf
  | .pauseReceive _ _ => true
  | .pauseExpire _ => true
  | .macTransmitStart _ _ => true
  | .macTransmitEnd _ _ => true
  | .txUnderrun _ _ => true
  | .collision _ _ => true
  | .backoffExpire _ => true
  | .preemptVerifySend _ => true
  | .verifyResponse _ => true
  | .preemptFragmentEnd _ _ => true
  | .lpiEnter _ => true
  | .lpiWake _ => true
  | .txTimestampPop _ _ => true
  | .inpassSegmentPost _ _ ws _ => decide (0 < ws.length) && decide (ws.length ≤ 64)
  | .inpassFrameEnd _ _ _ _ => true
  | .inpassEgressStart _ _ => true
  | .inpassWordLatch _ _ _ => true
  | .inpassWindowWrite _ _ _ _ => true
  | .inpassDescriptorClear _ _ _ _ => true
  | .yardReceive _ early => early.all (·.1.wf)
  | .yardSubmit _ _ _ => true
  | .hostTxTailWrite _ _ _ ds => decide (ds.length ≤ 4096)
  | .hostRxTailWrite _ _ _ bufs => decide (bufs.length ≤ 4096)
  | .descriptorCopyComplete _ => true
  | .descriptorWriteback _ => true
  | .frameDeliver _ _ => true
  | .addressAgeOut _ _ => true
  | .atRead _ => true
  | .atWrite _ => true
  | .atDelete _ => true
  | .atFlush _ => true
  | .gateEntryChange _ => true
  | .gateCycleStart _ => true
  | .tcIncWrite _ _ _ => true
  | .tcStep _ _ _ _ => true
  | .tcStepApply _ => true
  | .tcUnlock _ _ => true
  | .captureNow _ => true
  | .refOfsWrite _ _ _ => true
  | .ppsEdge _ => true
  | .frefSample _ => true
  | .refTimeout _ => true
  | .rampEnd _ => true
  | .pulseRise _ => true
  | .pulseFall _ => true
  | .launchEligible _ => true
  | .paddockSlotSend _ => true
  | .paddockSlotReceive _ rx => rx.a.all PdCopy.wf && rx.b.all PdCopy.wf
  | .paddockBackoffEnd _ => true
  | .canTxRequest _ _ _ => true
  | .canTxAbort _ _ _ => true
  | .canTxBufferWrite _ _ _ _ _ => true
  | .canFrameStart _ => true
  | .canFrameEnd _ _ => true
  | .canReceiveFrame _ fr => decide (fr.data.length ≤ 64)
  | .canFifoPop _ _ => true
  | .canError _ _ => true
  | .canBusOffRecovery _ => true
  | .canIntegrate _ => true
  | .pmNop _ _ => true
  | .pmGoto _ _ => true
  | .pmLoop _ _ => true
  | .pmSkip _ _ => true
  | .pmSetc _ _ => true
  | .pmEmit _ _ => true
  | .pmTake _ _ => true
  | .pmFetch _ _ => true
  | .pmDeliver _ _ => true
  | .pmPins _ _ => true
  | .pmGmov _ _ => true
  | .pmGput _ _ => true
  | .pmWaitp _ _ => true
  | .pmStamp _ _ => true
  | .pmMark _ _ => true
  | .pmStallRelease _ _ => true
  | .pmPtxWrite _ _ _ _ => true
  | .pmPrxRead _ _ _ => true
  | .pmInject _ _ _ _ => true
  | .pmRun _ _ _ => true
  | .pmStop _ _ _ => true
  | .pmRestart _ _ _ => true
  | .pmFifoClear _ _ _ => true
  | .pmFlagLower _ _ _ => true
  | .twinLinkChange _ => true
  | .twinStatusReceive _ _ _ => true
  | .twinSelftestEnd _ _ => true
  | .twinStest _ => true
  | .ddEntryAgeOut _ => true
  | .pdDetection _ => true
  | .sourceFail _ => true
  | .sourceGood _ => true
  | .vbakLow _ => true
  | .powerStateRequest _ _ => true
  | .wakeEvent _ => true
  | .ostlerWaitTimeout _ => true
  | .leaseRequest _ _ _ => true
  | .leaseRelease _ _ => true
  | .powerModelUpdate _ calv => decide (calv.length = 6)
  | .powerOnReset _ => true
  | .rstNReset _ => true
  | .farrierWatchdogReset _ => true
  | .softwareReset _ _ _ => true
  | .clrtry _ _ => true
  | .hostImageWord _ _ => true
  | .hostImageRestart _ => true
  | .bootComplete _ => true
  | .bootcauseClear _ => true
  | .flashRead _ _ _ => true
  | .flashEraseProgram _ _ _ => true
  | .flashErase _ _ _ => true
  | .calibration _ _ => true
  | .thermalUpdate _ _ age freq => decide (age.length = 16) && decide (freq.length = 16)
  | .telemetryRecord _ _ => true
  | .functionLevelReset _ => true
  | .msixUnmask _ => true
  | .ringMessageHoldoffEnd _ => true
  | .qspiReadSingle _ _ => true
  | .qspiReadQuadData _ _ => true
  | .qspiReadQuad _ _ => true
  | .qspiWriteSingle _ bs => decide (bs.length ≤ 256)
  | .qspiWriteQuadData _ bs => decide (bs.length ≤ 256)
  | .qspiWriteQuad _ bs => decide (bs.length ≤ 256)
  | .i2cWrite _ _ bs => decide (bs.length ≤ 256)
  | .i2cRead _ _ => true
  | .jtagSamplePreload pins load => decide (pins.length = load.length)
  | .dbgacc _ _ _ => true
  | .illegalOpcode _ => true
  | .receiveLowPowerIdle _ _ => true
  | .paddockReferenceSearch _ line => decide (line.length = 320)
  | .deltaApplyDone => true
  | .keyOperationEnd => true
  | .busyEstimateUpdate => true
  | .accountingPeriodStart => true
  | .commonInstant => true
  | .atCommandComplete => true
  | .paddockListenTimeout => true
  | .twinStatusSend => true
  | .twinListenTimeout => true
  | .twinStatusTimeout => true
  | .twinHoldoffExpire => true
  | .handoverEnd => true
  | .handbackStart => true
  | .handbackEnd => true
  | .overloadDetect => true
  | .rideExpire => true
  | .keepdlyExpire => true
  | .powerTransitionComplete => true
  | .dozeEntryTimeout => true
  | .ksecAlarm => true
  | .ostlerReconsider => true
  | .lossOfLock => true
  | .pllLock => true
  | .pllLockTimeout => true
  | .pllRetry => true
  | .hostImageTimeout => true
  | .bootWatchdogExpire => true
  | .flashCommandComplete => true
  | .pcieLinkDown => true
  | .qspiStatus => true
  | .jtagBypass => true
  | .jtagIdcode => true
  | .jtagExtest => true
  | .ppdOvertemp => true
  | .ppdCooled => true
  | .lposcTrim => true
  | .pcieLinkUp => true

end Sys2Proof
end

