-- ==== Sys2Proof/Tests/Slice0.lean ====
section
/-! SUPPORT. Tests: ill-formed commands that WellFormed refuses, worked values of the spec, and a concrete state and operands
that meet the hypotheses of each statement together: each theorem test_hypotheses_X names them for clauses of X, one group a line. -/

namespace Sys2Proof.Tests
open Sys2Proof.Machine

/-! ### Well-formedness -/

/-- The last slot of BAR 0 and the one past it (R21). -/
theorem test_wf_offset : (Instr.registerWrite .pf 0x3FFFFF8 0xFF 0).wf = true ∧ (Instr.registerWrite .pf 0x4000000 0xFF 0).wf = false
    ∧ (Instr.reservedHostAccess .pf 0x4000000 true).wf = false ∧ (Instr.hostMemoryRead .pf { off := 0x4000000 }).wf = false
    ∧ (Instr.hostMemoryWrite .pf 0x4000000 0xFF 0).wf = false := by decide +kernel
/-- A frame without its header (R190). -/
theorem test_wf_frame : (Instr.macReceiveFrame 0 { bytes := List.replicate 13 0, fcsOk := true } 0).wf = false
    ∧ (Instr.subscriptionReceive { bytes := [], fcsOk := true }).wf = false ∧ (Instr.yardReceive 0 (some ({ bytes := [], fcsOk := true }, 0))).wf = false
    ∧ (Instr.macReceiveFrame 0 { bytes := List.replicate 14 0, fcsOk := true } 0).wf = true := by decide +kernel
/-- A segment has 1 to 64 words (R214). -/
theorem test_wf_segment : (Instr.inpassSegmentPost 0 0 [] 0).wf = false
    ∧ (Instr.inpassSegmentPost 0 0 (List.replicate 65 0) 0).wf = false
    ∧ (Instr.inpassSegmentPost 0 0 (List.replicate 64 0) 0).wf = true := by decide +kernel
/-- A ring has at most 4,096 descriptors (R229). -/
theorem test_wf_rings : (Instr.hostRxTailWrite .pf 0 0 (List.replicate 4097 0)).wf = false
    ∧ (Instr.hostTxTailWrite .pf 0 0 (List.replicate 4097 ⟨0, 0, 0, 0, []⟩)).wf = false := by decide +kernel
/-- A Paddock frame has at most 176 + 48·240 bits (R261). -/
theorem test_wf_paddock : (Instr.paddockSlotReceive 0 ⟨some ⟨List.replicate 11697 true, 0⟩, none, 0, 0⟩).wf = false
    ∧ (Instr.paddockSlotReceive 0 ⟨none, some ⟨List.replicate 11696 true, 0⟩, 0, 0⟩).wf = true := by decide +kernel
/-- CAN FD data have at most 64 bytes (R286). -/
theorem test_wf_can :
    (Instr.canReceiveFrame 0 { ide := false, rtr := false, fdf := true, brs := false, esi := false, dlc := 15, ident := 0, data := List.replicate 65 0 }).wf = false := by
  decide +kernel
/-- One value for each operation of R335 and each stable of R355. -/
theorem test_wf_readings : (Instr.powerModelUpdate 0 []).wf = false ∧ (Instr.thermalUpdate 0 0 [] (List.replicate 16 0)).wf = false
    ∧ (Instr.thermalUpdate 0 0 (List.replicate 16 0) []).wf = false := by decide +kernel
/-- A transfer has at most 256 bytes (R366, R367). -/
theorem test_wf_transfers : (Instr.qspiWriteSingle 0 (List.replicate 257 0)).wf = false
    ∧ (Instr.qspiWriteQuadData 0 (List.replicate 257 0)).wf = false ∧ (Instr.qspiWriteQuad 0 (List.replicate 257 0)).wf = false
    ∧ (Instr.i2cWrite 0 0 (List.replicate 257 0)).wf = false := by decide +kernel
/-- The boundary cells and their new values are as many (R368). -/
theorem test_wf_cells : (Instr.jtagSamplePreload [true] []).wf = false := by decide +kernel
/-- A frame's last lane in the yard (R220). -/
theorem test_wf_lanes : (Instr.scrubRead (.cell 0 1672)).wf = false ∧ (Instr.scrubWriteBack (.cell 0 1672)).wf = false
    ∧ (Instr.scrubRead (.cell 0 1671)).wf = true := by decide +kernel
/-- The CRC-32C of the nine ASCII bytes "123456789" (R385). -/
theorem test_crc32c : crc32c [0x31, 0x32, 0x33, 0x34, 0x35, 0x36, 0x37, 0x38, 0x39] = 0xE3069283 := by decide +kernel

/-! ### States of the witnesses -/

/-- The part running with a layout applied. -/
def on : State := ({ State.reset with boot := { State.reset.boot with phase := .running }, host := { State.reset.host with pcieUp := true } } : State).put F.gcLaystat_APPLIED 1

/-- The 24-bit slot of an instruction. -/
def slot (op mode tgt opnd : Nat) : Nat := op * 2 ^ 18 + mode * 2 ^ 15 + tgt * 2 ^ 12 + opnd

/-- Stable 0 runs, its code store holds the words from word 0 on, and its engine 0 is `x`. -/
def code (s : State) (ws : List Nat) (x : Eng) : State :=
  let s := s.setSt 0 { s.st 0 with clocked := true }
  ((List.range ws.length).foldl (fun s k => memWrite (.code 0 (Fin.ofNat 32768 k)) (wd (ws.getD k 0)) s) s).setE 0 x

/-- One instruction at address 0, followed by NOP. -/
def one (op mode tgt opnd : Nat) (x : Eng) (s : State := on) : State := code s [slot op mode tgt opnd * 2 ^ 24] x

/-- The commands that wait. -/
def queued (s : State) (cs : List Instr) : State := { s with pending := cs }

/-- The state after a command. -/
def after (c : Instr) (s : State) : State := match exec c s with | .next t => t | _ => s

set_option maxRecDepth 100000
set_option Elab.async false

namespace W1

abbrev N : Insn := ⟨0, 0, 0, 0, 0⟩

def insn (op mode tgt opnd : Nat) : Insn := ⟨op, mode, tgt, opnd, 0⟩

/-- Word `w` at loft word 0 of stable 0, which F0 owns. -/

def lofted (s : State) (w : Word) : State := memWrite (loftPlace 0 0) w s

/-- Word `w` at loft word 0, with the error bits `x`. -/

def spoiled (s : State) (w : Word) (x : Stored) : State := s.setRaw (loftPlace 0 0) (sealW w ^^^ x)

/-- Vector word `v` of engine 0 is `w`. -/

def vec (v w : Nat) (s : State) : State := memWrite (privPlace 0 v) (wd w) s

def ueW : Word := (readCode (sealW 5 ^^^ 3)).word

def ueY : BitVec 8 := match readCode (sealW 5 ^^^ 3) with | .ue _ y => y | _ => 0

def relayed : State := ((on.put F.epIpcfg0_EN 1).setRaw (loftPlace 0 0xE000) (sealW 5 ^^^ 3))

theorem test_hypotheses_StepRunsTheFrontCommand :
    ((queued on [Instr.nop (0 : Fin 128), Instr.nop (1 : Fin 128)]).pending = [Instr.nop (0 : Fin 128), Instr.nop (1 : Fin 128)]) := by
  decide +kernel

theorem test_hypotheses_EmptyQueuePassesATick :
    (on.pending = []) := by
  decide +kernel

theorem test_hypotheses_MemoriesStayCanonical :
    ((queued on [Instr.codeStoreWrite Who.pf (0 : Fin 16) (3 : Fin 32768) 7]).memOk = true) := by
  decide +kernel

theorem test_hypotheses_StoredInstructionsReadBack :
    ((({ op := (63 : ℕ), mode := (6 : ℕ), tgt := (7 : ℕ), opnd := (4095 : ℕ), val := (9 : ℕ) } : Insn).fits) ∧ ((2 : ℕ) ^ (24 : ℕ) - (1 : ℕ) < (2 : ℕ) ^ (24 : ℕ)) ∧ (↑(127 : Fin 128) / (8 : ℕ) = ↑(15 : Fin 16)) ∧ ((on.put F.stCtl_LOAD 1 15).heard Who.pf = true) ∧ ((on.put F.stCtl_LOAD 1 15).applied = true) ∧ ((on.put F.stCtl_LOAD 1 15).fld F.stCtl_LOAD ↑(15 : Fin 16) ≠ (0 : ℕ)) ∧ (Who.pf ∈ [Who.pf, Who.qspi, Who.mgmt]) ∧ (({ op := (63 : ℕ), mode := (6 : ℕ), tgt := (7 : ℕ), opnd := (4095 : ℕ), val := (9 : ℕ) } : Insn).mode ≠ (7 : ℕ)))
    ∧ ((({ op := (63 : ℕ), mode := (7 : ℕ), tgt := (7 : ℕ), opnd := (4095 : ℕ), val := (2 : ℕ) ^ (24 : ℕ) - (1 : ℕ) } : Insn).fits) ∧ ((0 : ℕ) < (2 : ℕ) ^ (24 : ℕ)) ∧ (↑(0 : Fin 128) / (8 : ℕ) = ↑(0 : Fin 16)) ∧ ((on.put F.stCtl_LOAD 1).heard Who.mgmt = true) ∧ ((on.put F.stCtl_LOAD 1).applied = true) ∧ ((on.put F.stCtl_LOAD 1).fld F.stCtl_LOAD ↑(0 : Fin 16) ≠ (0 : ℕ)) ∧ (Who.mgmt ∈ [Who.pf, Who.qspi, Who.mgmt]) ∧ (({ op := (63 : ℕ), mode := (7 : ℕ), tgt := (7 : ℕ), opnd := (4095 : ℕ), val := (2 : ℕ) ^ (24 : ℕ) - (1 : ℕ) } : Insn).mode = (7 : ℕ))) := by
  (repeat' apply And.intro) <;> decide +kernel

theorem test_hypotheses_MemoryExceptionsChangeNothing_1 :
    (let s := (one (2 : ℕ) (1 : ℕ) (0 : ℕ) (63 : ℕ) { psw := (0 : BitVec 6) }); let u := (insn (2 : ℕ) (1 : ℕ) (0 : ℕ) (63 : ℕ)); (Issues s (0 : Fin 128) u) ∧ (u.op = (Instr.st, (2 : ℕ)).2) ∧ ((s.e ↑(0 : Fin 128)).psw.getLsbD (3 : ℕ) = false) ∧ (u.addr (s.e ↑(0 : Fin 128)) < (64 : ℕ)))
    ∧ (let s := (one (3 : ℕ) (2 : ℕ) (0 : ℕ) (63 : ℕ) { psw := (0 : BitVec 6) }); let u := (insn (3 : ℕ) (2 : ℕ) (0 : ℕ) (63 : ℕ)); (Issues s (0 : Fin 128) u) ∧ (u.op = (Instr.xch, (3 : ℕ)).2) ∧ ((s.e ↑(0 : Fin 128)).psw.getLsbD (3 : ℕ) = false) ∧ (u.addr (s.e ↑(0 : Fin 128)) < (64 : ℕ)))
    ∧ (let s := (one (4 : ℕ) (2 : ℕ) (0 : ℕ) (0 : ℕ) { psw := (0 : BitVec 6) }); let u := (insn (4 : ℕ) (2 : ℕ) (0 : ℕ) (0 : ℕ)); (Issues s (0 : Fin 128) u) ∧ (u.op = (Instr.fadd, (4 : ℕ)).2) ∧ ((s.e ↑(0 : Fin 128)).psw.getLsbD (3 : ℕ) = false) ∧ (u.addr (s.e ↑(0 : Fin 128)) < (64 : ℕ)))
    ∧ (let s := (one (1 : ℕ) (2 : ℕ) (0 : ℕ) (0 : ℕ) { bk := (16 : BitVec 12), psw := (0 : BitVec 6) } (on.put F.stBank_OWNER 5)); let u := (insn (1 : ℕ) (2 : ℕ) (0 : ℕ) (0 : ℕ)); (Issues s (0 : Fin 128) u) ∧ (u.op = (1 : ℕ)) ∧ (u.mode ∈ [(1 : ℕ), (2 : ℕ), (3 : ℕ), (4 : ℕ), (5 : ℕ)]) ∧ (engPlace (↑(0 : Fin 128)) (u.addr (s.e ↑(0 : Fin 128))) = Place.loft (0 : ℕ) (0 : ℕ)) ∧ (Tab.get (0 : ℕ) (s.st (0 : ℕ)).xfer (0 / 4096 : ℕ) = (0 : ℕ)) ∧ (s.applied = true) ∧ (s.mayLoft (Who.engine (0 : Fin 128)) (0 : ℕ) (0 : ℕ) = false))
    ∧ (let s := (insn (1 : ℕ) (2 : ℕ) (0 : ℕ) (0 : ℕ)); (Issues (one (1 : ℕ) (2 : ℕ) (0 : ℕ) (0 : ℕ) { bk := (1 : BitVec 12) }) (0 : Fin 128) s) ∧ (s.op = (1 : ℕ)) ∧ (s.mode ∈ [(1 : ℕ), (2 : ℕ), (3 : ℕ), (4 : ℕ), (5 : ℕ)]) ∧ (engPlace (↑(0 : Fin 128)) (s.addr ((one (1 : ℕ) (2 : ℕ) (0 : ℕ) (0 : ℕ) { bk := (1 : BitVec 12) }).e ↑(0 : Fin 128))) = Place.hole))
    ∧ (let s := (one (1 : ℕ) (1 : ℕ) (0 : ℕ) (9 : ℕ) { } (on.setRaw (privPlace (0 : ℕ) (9 : ℕ)) (sealW (5 : Word) ^^^ (3 : Stored)))); let u := (insn (1 : ℕ) (1 : ℕ) (0 : ℕ) (9 : ℕ)); (Issues s (0 : Fin 128) u) ∧ (u.op = (1 : ℕ)) ∧ (u.mode ∈ [(1 : ℕ), (2 : ℕ), (3 : ℕ), (4 : ℕ), (5 : ℕ)]) ∧ (engPlace (↑(0 : Fin 128)) (u.addr (s.e ↑(0 : Fin 128))) = Place.priv (9 : ℕ)) ∧ (readCode (s.raw (privPlace ↑(0 : Fin 128) (9 : ℕ))) = Rd.ue (readCode (sealW (5 : Word) ^^^ (3 : Stored))).word (match readCode (sealW (5 : Word) ^^^ (3 : Stored)) with | Rd.ue w y => y | x => (0 : BitVec 8)))) := by
  (repeat' apply And.intro) <;> decide +kernel

theorem test_hypotheses_MemoryExceptionsChangeNothing_2 :
    (let s := (one (1 : ℕ) (2 : ℕ) (0 : ℕ) (0 : ℕ) { bk := (16 : BitVec 12) } (spoiled on (5 : Word) (3 : Stored))); let u := (insn (1 : ℕ) (2 : ℕ) (0 : ℕ) (0 : ℕ)); (Issues s (0 : Fin 128) u) ∧ (u.op = (1 : ℕ)) ∧ (u.mode ∈ [(1 : ℕ), (2 : ℕ), (3 : ℕ), (4 : ℕ), (5 : ℕ)]) ∧ (engPlace (↑(0 : Fin 128)) (u.addr (s.e ↑(0 : Fin 128))) = Place.loft (0 : ℕ) (0 : ℕ)) ∧ (Tab.get (0 : ℕ) (s.st (0 : ℕ)).xfer (0 / 4096 : ℕ) = (0 : ℕ)) ∧ (s.applied = true) ∧ (s.mayLoft (Who.engine (0 : Fin 128)) (0 : ℕ) (0 : ℕ) = true) ∧ (readCode (s.raw (loftPlace (0 : ℕ) (0 : ℕ))) = Rd.ue (readCode (sealW (5 : Word) ^^^ (3 : Stored))).word (match readCode (sealW (5 : Word) ^^^ (3 : Stored)) with | Rd.ue w y => y | x => (0 : BitVec 8))))
    ∧ (let s := (one (3 : ℕ) (2 : ℕ) (0 : ℕ) (0 : ℕ) { bk := (16 : BitVec 12) } (spoiled on (5 : Word) (3 : Stored))); let u := (insn (3 : ℕ) (2 : ℕ) (0 : ℕ) (0 : ℕ)); (Issues s (0 : Fin 128) u) ∧ (u.op = (Instr.xch, (3 : ℕ)).2) ∧ (engPlace (↑(0 : Fin 128)) (u.addr (s.e ↑(0 : Fin 128))) = Place.loft (0 : ℕ) (0 : ℕ)) ∧ (Tab.get (0 : ℕ) (s.st (0 : ℕ)).xfer (0 / 4096 : ℕ) = (0 : ℕ)) ∧ (s.mayLoft (Who.engine (0 : Fin 128)) (0 : ℕ) (0 : ℕ) = true) ∧ (readCode (s.raw (loftPlace (0 : ℕ) (0 : ℕ))) = Rd.ue ueW ueY) ∧ (s.inpassWord (0 : ℕ) (0 : ℕ) = false))
    ∧ (let s := (one (4 : ℕ) (2 : ℕ) (0 : ℕ) (0 : ℕ) { bk := (30 : BitVec 12) } relayed); let u := (insn (4 : ℕ) (2 : ℕ) (0 : ℕ) (0 : ℕ)); (Issues s (0 : Fin 128) u) ∧ (u.op = (Instr.fadd, (4 : ℕ)).2) ∧ (engPlace (↑(0 : Fin 128)) (u.addr (s.e ↑(0 : Fin 128))) = Place.loft (0 : ℕ) (57344 : ℕ)) ∧ (Tab.get (0 : ℕ) (s.st (0 : ℕ)).xfer (57344 / 4096 : ℕ) = (0 : ℕ)) ∧ (s.mayLoft (Who.engine (0 : Fin 128)) (0 : ℕ) (57344 : ℕ) = true) ∧ (readCode (s.raw (loftPlace (0 : ℕ) (57344 : ℕ))) = Rd.ue ueW ueY) ∧ (s.inpassWord (0 : ℕ) (57344 : ℕ) = true))
    ∧ (let s := (one (1 : ℕ) (2 : ℕ) (0 : ℕ) (0 : ℕ) { bk := (16 : BitVec 12), psw := (0 : BitVec 6) } (on.put F.stBank_OWNER 5)); let u := (insn (1 : ℕ) (2 : ℕ) (0 : ℕ) (0 : ℕ)); (Issues s (0 : Fin 128) u) ∧ (u.op = (1 : ℕ)) ∧ (u.mode ∈ [(1 : ℕ), (2 : ℕ), (3 : ℕ), (4 : ℕ), (5 : ℕ)]) ∧ ((busRead (Who.engine (0 : Fin 128)) (0 : ℕ) (engPlace (↑(0 : Fin 128)) (u.addr (s.e ↑(0 : Fin 128)))) (passBreak (↑(0 : Fin 128)) s)).1.disp = (9 : ℕ)))
    ∧ (let s := (one (2 : ℕ) (1 : ℕ) (0 : ℕ) (64 : ℕ) { psw := (0 : BitVec 6) } (on.setRaw (privPlace (0 : ℕ) (64 : ℕ)) (sealW (5 : Word) ^^^ (3 : Stored)))); let u := (insn (2 : ℕ) (1 : ℕ) (0 : ℕ) (64 : ℕ)); (Issues s (0 : Fin 128) u) ∧ (u.op = (2 : ℕ)) ∧ (engPlace (↑(0 : Fin 128)) (u.addr (s.e ↑(0 : Fin 128))) = Place.priv (64 : ℕ)) ∧ ((s.e ↑(0 : Fin 128)).psw.getLsbD (3 : ℕ) = true ∨ (64 : ℕ) ≤ u.addr (s.e ↑(0 : Fin 128))))
    ∧ (let s := (one (2 : ℕ) (2 : ℕ) (0 : ℕ) (0 : ℕ) { bk := (16 : BitVec 12) } (spoiled on (5 : Word) (3 : Stored))); let u := (insn (2 : ℕ) (2 : ℕ) (0 : ℕ) (0 : ℕ)); (Issues s (0 : Fin 128) u) ∧ (u.op = (2 : ℕ)) ∧ (engPlace (↑(0 : Fin 128)) (u.addr (s.e ↑(0 : Fin 128))) = Place.loft (0 : ℕ) (0 : ℕ)) ∧ (Tab.get (0 : ℕ) (s.st (0 : ℕ)).xfer (0 / 4096 : ℕ) = (0 : ℕ)) ∧ (s.applied = true) ∧ (s.mayLoft (Who.engine (0 : Fin 128)) (0 : ℕ) (0 : ℕ) = true) ∧ (s.inpassWord (0 : ℕ) (0 : ℕ) = false)) := by
  (repeat' apply And.intro) <;> decide +kernel

end W1

namespace W2

def insn (op mode tgt opnd : Nat) : Insn := ⟨op, mode, tgt, opnd, 0⟩

/-- Vector word `v` of engine 0 is `w`. -/

def vec (v w : Nat) (s : State) : State := memWrite (privPlace 0 v) (wd w) s

def sSum : State := one 0x09 1 1 8 { x := -1, psw := 9 } (vec 8 0x7FFFFFFFFFFF on)

def draining : State := (on.setSt 0 { on.st 0 with xfer := [(0, 8)] }).put F.stBank_OWNER 5 0 0

def sJsr : State := one 0x2B 0 7 5 { sp := 0x41, splim := 0x40 }

def sRep (n k : Nat) (x : Eng := {}) : State := code on [slot 0x31 0 7 n * 2 ^ 24 + slot 8 0 0 k] x

def sRepi (n : Nat) (x : Eng := {}) : State := code on [slot 0x32 6 7 1 * 2 ^ 24 + slot 8 0 0 1] { x with x := BitVec.ofNat 48 n }

theorem test_hypotheses_SumsAndShiftsWriteResultAndCarry :
    ((Issues sSum (0 : Fin 128) (insn (9 : ℕ) (1 : ℕ) (1 : ℕ) (8 : ℕ))) ∧ (Operand (passBreak (↑(0 : Fin 128)) sSum) (0 : Fin 128) (insn (9 : ℕ) (1 : ℕ) (1 : ℕ) (8 : ℕ)) (140737488355327 : Word) sSum)) := by
  (repeat' apply And.intro) <;> decide +kernel

theorem test_hypotheses_ValueInstructionsWriteTheTarget :
    (let s := (one (26 : ℕ) (0 : ℕ) (0 : ℕ) (4095 : ℕ) { }); (Issues s (0 : Fin 128) (insn (26 : ℕ) (0 : ℕ) (0 : ℕ) (4095 : ℕ))) ∧ (Operand (passBreak (↑(0 : Fin 128)) s) (0 : Fin 128) (insn (26 : ℕ) (0 : ℕ) (0 : ℕ) (4095 : ℕ)) (-1 : Word) s)) := by
  (repeat' apply And.intro) <;> decide +kernel

theorem test_hypotheses_FieldAndByteInstructions :
    (let s := (one (20 : ℕ) (0 : ℕ) (0 : ℕ) (47 : ℕ) { }); (Issues s (0 : Fin 128) (insn (20 : ℕ) (0 : ℕ) (0 : ℕ) (47 : ℕ))) ∧ (Operand (passBreak (↑(0 : Fin 128)) s) (0 : Fin 128) (insn (20 : ℕ) (0 : ℕ) (0 : ℕ) (47 : ℕ)) (47 : Word) s))
    ∧ (let s := (one (20 : ℕ) (0 : ℕ) (0 : ℕ) (111 : ℕ) { a := (-1 : Word) }); (Issues s (0 : Fin 128) (insn (20 : ℕ) (0 : ℕ) (0 : ℕ) (111 : ℕ))) ∧ (Operand (passBreak (↑(0 : Fin 128)) s) (0 : Fin 128) (insn (20 : ℕ) (0 : ℕ) (0 : ℕ) (111 : ℕ)) (111 : Word) s)) := by
  (repeat' apply And.intro) <;> decide +kernel

theorem test_hypotheses_MulWritesTheProduct :
    (let s := (one (15 : ℕ) (6 : ℕ) (1 : ℕ) (0 : ℕ) { a := (-1 : Word), x := (-1 : Word) }); let u := (insn (15 : ℕ) (6 : ℕ) (1 : ℕ) (0 : ℕ)); (Issues s (0 : Fin 128) u) ∧ (u.op = (15 : ℕ)) ∧ (Operand (passBreak (↑(0 : Fin 128)) s) (0 : Fin 128) u (-1 : Word) s)) := by
  (repeat' apply And.intro) <;> decide +kernel

theorem test_hypotheses_NopOnlyGoesOn :
    ((Issues (one 0 0 0 0 { }) (0 : Fin 128) (insn 0 0 0 0)) ∧ ((insn 0 0 0 0).op = 0)) := by
  (repeat' apply And.intro) <;> decide +kernel

theorem test_hypotheses_StoreWritesItsWord :
    (let s := (one (2 : ℕ) (1 : ℕ) (0 : ℕ) (4095 : ℕ) { a := (5 : Word) }); let u := (insn (2 : ℕ) (1 : ℕ) (0 : ℕ) (4095 : ℕ)); (Issues s (0 : Fin 128) u) ∧ (u.op = (2 : ℕ)) ∧ ((busWrite (Who.engine (0 : Fin 128)) (0 : ℕ) (engPlace (↑(0 : Fin 128)) (u.addr ((passBreak (↑(0 : Fin 128)) s).e ↑(0 : Fin 128)))) (255 : BitVec 8) (BitVec.setWidth (64 : ℕ) (((passBreak (↑(0 : Fin 128)) s).e ↑(0 : Fin 128)).reg u.tgt)) (passBreak (↑(0 : Fin 128)) s)).disp ≠ (9 : ℕ)))
    ∧ (let s := (one (2 : ℕ) (2 : ℕ) (0 : ℕ) (4095 : ℕ) { a := (5 : Word), bk := (31 : BitVec 12) }); let u := (insn (2 : ℕ) (2 : ℕ) (0 : ℕ) (4095 : ℕ)); (Issues s (0 : Fin 128) u) ∧ (u.op = (2 : ℕ)) ∧ ((busWrite (Who.engine (0 : Fin 128)) (0 : ℕ) (engPlace (↑(0 : Fin 128)) (u.addr ((passBreak (↑(0 : Fin 128)) s).e ↑(0 : Fin 128)))) (255 : BitVec 8) (BitVec.setWidth (64 : ℕ) (((passBreak (↑(0 : Fin 128)) s).e ↑(0 : Fin 128)).reg u.tgt)) (passBreak (↑(0 : Fin 128)) s)).disp ≠ (9 : ℕ))) := by
  (repeat' apply And.intro) <;> decide +kernel

theorem test_hypotheses_ExchangesSwapALoftWord :
    (let s := (one (4 : ℕ) (2 : ℕ) (0 : ℕ) (0 : ℕ) { a := (5 : Word), bk := (16 : BitVec 12) }); (Issues s (0 : Fin 128) (insn (4 : ℕ) (2 : ℕ) (0 : ℕ) (0 : ℕ))) ∧ (engPlace (↑(0 : Fin 128)) ((insn (4 : ℕ) (2 : ℕ) (0 : ℕ) (0 : ℕ)).addr (s.e ↑(0 : Fin 128))) = Place.loft (0 : ℕ) (0 : ℕ)) ∧ (Tab.get (0 : ℕ) (s.st (0 : ℕ)).xfer (0 / 4096 : ℕ) = (0 : ℕ)) ∧ (readCode (s.raw (loftPlace (0 : ℕ) (0 : ℕ))) = Rd.ok (0 : Word)))
    ∧ (let s := (one (3 : ℕ) (2 : ℕ) (0 : ℕ) (0 : ℕ) { a := (5 : Word), bk := (16 : BitVec 12), psw := (0 : BitVec 6) } (on.put F.stBank_OWNER 5)); (Issues s (0 : Fin 128) (insn (3 : ℕ) (2 : ℕ) (0 : ℕ) (0 : ℕ))) ∧ (engPlace (↑(0 : Fin 128)) ((insn (3 : ℕ) (2 : ℕ) (0 : ℕ) (0 : ℕ)).addr (s.e ↑(0 : Fin 128))) = Place.loft (0 : ℕ) (0 : ℕ)) ∧ (Tab.get (0 : ℕ) (s.st (0 : ℕ)).xfer (0 / 4096 : ℕ) = (0 : ℕ)) ∧ (readCode (s.raw (loftPlace (0 : ℕ) (0 : ℕ))) = Rd.ok (0 : Word)))
    ∧ (let s := (one (3 : ℕ) (2 : ℕ) (0 : ℕ) (0 : ℕ) { a := (5 : Word), bk := (16 : BitVec 12), psw := (0 : BitVec 6), tv := true, fn := (5 : ℕ) } draining); (Issues s (0 : Fin 128) (insn (3 : ℕ) (2 : ℕ) (0 : ℕ) (0 : ℕ))) ∧ (engPlace (↑(0 : Fin 128)) ((insn (3 : ℕ) (2 : ℕ) (0 : ℕ) (0 : ℕ)).addr (s.e ↑(0 : Fin 128))) = Place.loft (0 : ℕ) (0 : ℕ)) ∧ (Tab.get (0 : ℕ) (s.st (0 : ℕ)).xfer (0 / 4096 : ℕ) ≠ (0 : ℕ)) ∧ ((awaitDrain (Who.engine (0 : Fin 128)) (0 : ℕ) (0 : ℕ) (passBreak (↑(0 : Fin 128)) s)).mayLoft (Who.engine (0 : Fin 128)) (0 : ℕ) (0 : ℕ) = false))
    ∧ (let s := (one (4 : ℕ) (2 : ℕ) (0 : ℕ) (0 : ℕ) { a := (5 : Word), bk := (16 : BitVec 12), psw := (0 : BitVec 6), tv := true, fn := (7 : ℕ) } draining); let u := (awaitDrain (Who.engine (0 : Fin 128)) (0 : ℕ) (0 : ℕ) (passBreak (↑(0 : Fin 128)) s)); (Issues s (0 : Fin 128) (insn (4 : ℕ) (2 : ℕ) (0 : ℕ) (0 : ℕ))) ∧ (engPlace (↑(0 : Fin 128)) ((insn (4 : ℕ) (2 : ℕ) (0 : ℕ) (0 : ℕ)).addr (s.e ↑(0 : Fin 128))) = Place.loft (0 : ℕ) (0 : ℕ)) ∧ (Tab.get (0 : ℕ) (s.st (0 : ℕ)).xfer (0 / 4096 : ℕ) ≠ (0 : ℕ)) ∧ (u.mayLoft (Who.engine (0 : Fin 128)) (0 : ℕ) (0 : ℕ) = true) ∧ (u.inpassWord (0 : ℕ) (0 : ℕ) = false) ∧ (readCode (u.raw (loftPlace (0 : ℕ) (0 : ℕ))) = Rd.ok (0 : Word)))
    ∧ (let s := (one (3 : ℕ) (2 : ℕ) (0 : ℕ) (0 : ℕ) { a := (5 : Word) }); (Issues s (0 : Fin 128) (insn (3 : ℕ) (2 : ℕ) (0 : ℕ) (0 : ℕ))) ∧ (engPlace (↑(0 : Fin 128)) ((insn (3 : ℕ) (2 : ℕ) (0 : ℕ) (0 : ℕ)).addr (s.e ↑(0 : Fin 128))) = Place.priv (0 : ℕ)) ∧ ((s.e ↑(0 : Fin 128)).psw.getLsbD (3 : ℕ) = true))
    ∧ ((Issues (one (4 : ℕ) (2 : ℕ) (0 : ℕ) (0 : ℕ) { a := (5 : Word), bk := (2 : BitVec 12) }) (0 : Fin 128) (insn (4 : ℕ) (2 : ℕ) (0 : ℕ) (0 : ℕ))) ∧ (engPlace (↑(0 : Fin 128)) ((insn (4 : ℕ) (2 : ℕ) (0 : ℕ) (0 : ℕ)).addr ((one (4 : ℕ) (2 : ℕ) (0 : ℕ) (0 : ℕ) { a := (5 : Word), bk := (2 : BitVec 12) }).e ↑(0 : Fin 128))) = Place.hole)) := by
  (repeat' apply And.intro) <;> decide +kernel

theorem test_hypotheses_BranchesRunTheirDelaySlot :
    (let s := (one (40 : ℕ) (0 : ℕ) (0 : ℕ) (4094 : ℕ) { }); (Issues s (0 : Fin 128) (insn (40 : ℕ) (0 : ℕ) (0 : ℕ) (4094 : ℕ))) ∧ (Target (passBreak (↑(0 : Fin 128)) s) (0 : Fin 128) (insn (40 : ℕ) (0 : ℕ) (0 : ℕ) (4094 : ℕ)) (65535 : BitVec 16) s))
    ∧ (let s := (one (42 : ℕ) (0 : ℕ) (7 : ℕ) (4094 : ℕ) { psw := (24 : BitVec 6), ls := (5 : BitVec 16), le := (9 : BitVec 16) }); (Issues s (0 : Fin 128) (insn (42 : ℕ) (0 : ℕ) (7 : ℕ) (4094 : ℕ))) ∧ (Target (passBreak (↑(0 : Fin 128)) s) (0 : Fin 128) (insn (42 : ℕ) (0 : ℕ) (7 : ℕ) (4094 : ℕ)) (65535 : BitVec 16) s)) := by
  (repeat' apply And.intro) <;> decide +kernel

theorem test_hypotheses_JsrPushesTheReturnAddress :
    ((Issues (one 43 0 7 5 { }) (0 : Fin 128) (insn 43 0 7 5)) ∧ ((insn 43 0 7 5).op = 43))
    ∧ (let s := (insn (43 : ℕ) (0 : ℕ) (7 : ℕ) (5 : ℕ)); (Issues sJsr (0 : Fin 128) s) ∧ (s.op = (43 : ℕ)) ∧ (Target (passBreak (↑(0 : Fin 128)) sJsr) (0 : Fin 128) s (6 : BitVec 16) sJsr)) := by
  (repeat' apply And.intro) <;> decide +kernel

theorem test_hypotheses_RtsPopsTheReturnAddress :
    (let s := (one (44 : ℕ) (0 : ℕ) (7 : ℕ) (0 : ℕ) { sp := (4095 : BitVec 12) }); (Issues s (0 : Fin 128) (insn (44 : ℕ) (0 : ℕ) (7 : ℕ) (0 : ℕ))) ∧ ((insn (44 : ℕ) (0 : ℕ) (7 : ℕ) (0 : ℕ)).op = (44 : ℕ)) ∧ (readCode (s.raw (privPlace (↑(0 : Fin 128)) (s.e ↑(0 : Fin 128)).sp.toNat)) = Rd.ok (0 : Word)))
    ∧ (let s := (one (44 : ℕ) (0 : ℕ) (7 : ℕ) (0 : ℕ) { sp := (4095 : BitVec 12) } (on.setRaw (privPlace (0 : ℕ) (4095 : ℕ)) (3 : Stored))); (Issues s (0 : Fin 128) (insn (44 : ℕ) (0 : ℕ) (7 : ℕ) (0 : ℕ))) ∧ ((insn (44 : ℕ) (0 : ℕ) (7 : ℕ) (0 : ℕ)).op = (44 : ℕ)) ∧ (readCode (s.raw (privPlace (↑(0 : Fin 128)) (s.e ↑(0 : Fin 128)).sp.toNat)) = Rd.ue (readCode (3 : Stored)).word (match readCode (3 : Stored) with | Rd.ue w y => y | x => (0 : BitVec 8)))) := by
  (repeat' apply And.intro) <;> decide +kernel

theorem test_hypotheses_LpbBeginsALoop :
    ((Issues (one 48 0 0 2047 { a := 3 }) (0 : Fin 128) (insn 48 0 0 2047)) ∧ ((insn 48 0 0 2047).op = 48) ∧ ((insn 48 0 0 2047).opnd < 4096))
    ∧ ((Issues (one 48 0 0 1 { }) (0 : Fin 128) (insn 48 0 0 1)) ∧ ((insn 48 0 0 1).op = 48) ∧ ((insn 48 0 0 1).opnd < 4096))
    ∧ ((Issues (one 48 0 0 2048 { }) (0 : Fin 128) (insn 48 0 0 2048)) ∧ ((insn 48 0 0 2048).op = 48) ∧ ((insn 48 0 0 2048).opnd < 4096)) := by
  (repeat' apply And.intro) <;> decide +kernel

theorem test_hypotheses_LoopDecisionAtLoopEnd :
    (let s := ((one (0 : ℕ) (0 : ℕ) (0 : ℕ) (0 : ℕ) { psw := (24 : BitVec 6), lc := (1 : BitVec 24) }).e ↑(0 : Fin 128)); let u := (insn (0 : ℕ) (0 : ℕ) (0 : ℕ) (0 : ℕ)); (Issues (one (0 : ℕ) (0 : ℕ) (0 : ℕ) (0 : ℕ) { psw := (24 : BitVec 6), lc := (1 : BitVec 24) }) (0 : Fin 128) u) ∧ (u.op = (0 : ℕ)) ∧ (s.stepReq = false) ∧ (s.psw.getLsbD (4 : ℕ) = true ∧ (s.pc = s.le ∨ u.mode = (7 : ℕ) ∧ s.pc + (1 : BitVec 16) = s.le)))
    ∧ (let s := (one (0 : ℕ) (0 : ℕ) (0 : ℕ) (0 : ℕ) { psw := (24 : BitVec 6), lc := (2 : BitVec 24), ls := (7 : BitVec 16) }); let u := (s.e ↑(0 : Fin 128)); let v := (insn (0 : ℕ) (0 : ℕ) (0 : ℕ) (0 : ℕ)); (Issues s (0 : Fin 128) v) ∧ (v.op = (0 : ℕ)) ∧ (u.stepReq = false) ∧ (u.psw.getLsbD (4 : ℕ) = true ∧ (u.pc = u.le ∨ v.mode = (7 : ℕ) ∧ u.pc + (1 : BitVec 16) = u.le)))
    ∧ (let s := (one (0 : ℕ) (0 : ℕ) (0 : ℕ) (0 : ℕ) { nxt := some (9 : BitVec 16), slot := some (7 : BitVec 16) }); let u := (s.e ↑(0 : Fin 128)); let v := (insn (0 : ℕ) (0 : ℕ) (0 : ℕ) (0 : ℕ)); (Issues s (0 : Fin 128) v) ∧ (v.op = (0 : ℕ)) ∧ (u.stepReq = false) ∧ (¬(u.psw.getLsbD (4 : ℕ) = true ∧ (u.pc = u.le ∨ v.mode = (7 : ℕ) ∧ u.pc + (1 : BitVec 16) = u.le)))) := by
  (repeat' apply And.intro) <;> decide +kernel

theorem test_hypotheses_RepRunsTheNextInstruction :
    (let s := (insn (49 : ℕ) (0 : ℕ) (7 : ℕ) (65 : ℕ)); (Issues (sRep (65 : ℕ) (1 : ℕ)) (0 : Fin 128) s) ∧ (s.op = (49 : ℕ)) ∧ (Repeats (sRep (65 : ℕ) (1 : ℕ)) (0 : Fin 128) s (1 : BitVec 16) (insn (8 : ℕ) (0 : ℕ) (0 : ℕ) (1 : ℕ))) ∧ ((64 : ℕ) < BitVec.toNat (s.plain ((sRep (65 : ℕ) (1 : ℕ)).e ↑(0 : Fin 128)))))
    ∧ (let s := (insn (49 : ℕ) (0 : ℕ) (7 : ℕ) (0 : ℕ)); let u := (sRep (0 : ℕ) (1 : ℕ)); (Issues u (0 : Fin 128) s) ∧ (s.op = (49 : ℕ)) ∧ (Repeats u (0 : Fin 128) s (1 : BitVec 16) (insn (8 : ℕ) (0 : ℕ) (0 : ℕ) (1 : ℕ))) ∧ (BitVec.toNat (s.plain (u.e ↑(0 : Fin 128))) = (0 : ℕ)) ∧ (u.repOk (↑(0 : Fin 128)) (insn (8 : ℕ) (0 : ℕ) (0 : ℕ) (1 : ℕ)) = true))
    ∧ (let s := (insn (49 : ℕ) (0 : ℕ) (7 : ℕ) (64 : ℕ)); let u := (insn (8 : ℕ) (0 : ℕ) (0 : ℕ) (4095 : ℕ)); let v := (sRep (64 : ℕ) (4095 : ℕ)); (Issues v (0 : Fin 128) s) ∧ (s.op = (49 : ℕ)) ∧ (Repeats v (0 : Fin 128) s (1 : BitVec 16) u) ∧ ((1 : ℕ) ≤ BitVec.toNat (s.plain (v.e ↑(0 : Fin 128)))) ∧ (BitVec.toNat (s.plain (v.e ↑(0 : Fin 128))) ≤ (64 : ℕ)) ∧ (u.op = (8 : ℕ)) ∧ (u.mode = (0 : ℕ)) ∧ (u.tgt = (0 : ℕ))) := by
  (repeat' apply And.intro) <;> decide +kernel

theorem test_hypotheses_RepiBeginsARepeat :
    ((Issues (sRepi (2 ^ 24)) (0 : Fin 128) (insn 50 6 7 1)) ∧ ((insn 50 6 7 1).op = 50) ∧ (Repeats (sRepi (2 ^ 24)) (0 : Fin 128) (insn 50 6 7 1) 1 (insn 8 0 0 1)) ∧ ((insn 8 0 0 1).repiOk = true))
    ∧ ((Issues (sRepi (2 ^ 24 - 1)) (0 : Fin 128) (insn 50 6 7 1)) ∧ ((insn 50 6 7 1).op = 50) ∧ (Repeats (sRepi (2 ^ 24 - 1)) (0 : Fin 128) (insn 50 6 7 1) 1 (insn 8 0 0 1)) ∧ ((insn 8 0 0 1).repiOk = true))
    ∧ ((Issues (sRepi 0) (0 : Fin 128) (insn 50 6 7 1)) ∧ ((insn 50 6 7 1).op = 50) ∧ (Repeats (sRepi 0) (0 : Fin 128) (insn 50 6 7 1) 1 (insn 8 0 0 1)) ∧ ((insn 8 0 0 1).repiOk = true)) := by
  (repeat' apply And.intro) <;> decide +kernel

theorem test_hypotheses_RepeatedIterationCountsDown :
    (let s := (one (8 : ℕ) (0 : ℕ) (0 : ℕ) (1 : ℕ) { psw := (40 : BitVec 6), lc := (1 : BitVec 24) }); let u := (insn (8 : ℕ) (0 : ℕ) (0 : ℕ) (1 : ℕ)); (Fetches s (0 : Fin 128) u) ∧ ((s.e ↑(0 : Fin 128)).psw.getLsbD (5 : ℕ) = true) ∧ ((s.e ↑(0 : Fin 128)).lc ≠ (0 : BitVec 24)) ∧ ((s.e ↑(0 : Fin 128)).stepReq = false) ∧ (u.op = (8 : ℕ)) ∧ (u.mode = (0 : ℕ)) ∧ (u.tgt = (0 : ℕ)))
    ∧ (let s := (one (8 : ℕ) (0 : ℕ) (0 : ℕ) (1 : ℕ) { psw := (40 : BitVec 6), lc := (2 : BitVec 24) }); let u := (insn (8 : ℕ) (0 : ℕ) (0 : ℕ) (1 : ℕ)); (Fetches s (0 : Fin 128) u) ∧ ((s.e ↑(0 : Fin 128)).psw.getLsbD (5 : ℕ) = true) ∧ ((s.e ↑(0 : Fin 128)).lc ≠ (0 : BitVec 24)) ∧ ((s.e ↑(0 : Fin 128)).stepReq = false) ∧ (u.op = (8 : ℕ)) ∧ (u.mode = (0 : ℕ)) ∧ (u.tgt = (0 : ℕ))) := by
  (repeat' apply And.intro) <;> decide +kernel

end W2

namespace W3

def fnOn (f : Nat) (s : State) : State := (s.put F.fnStatus_STATE 2 f |>.put F.fnCfg_AFFINITY 0xFFFF f |>.put F.fnShare_TASKLIM 8 f |>.setFn f { maxP := 100 })

def insn (op mode tgt opnd : Nat) : Insn := ⟨op, mode, tgt, opnd, 0⟩

def vec (v w : Nat) (s : State) : State := memWrite (privPlace 0 v) (wd w) s

def sIrq (n : Nat) : State := vec (16 + n) 0x500 ((one 0 0 0 0 { psw := 0xC, pc := 9 } on).put F.eirq_PEND (2 ^ n) |>.put F.eirq_EN 0xFFFF)

def u0 : Task := { w0 := wd (1 * 2 ^ 39), w1 := 0 }

def sQuant : State := vec 9 0x500 ((one 0 0 0 0 { psw := 8, tv := true, fn := 1, runt := 1100, cur := some { w0 := wd (2 ^ 29 + 2^39), w1 := 0 }, deque := [u0] } (fnOn 1 on)).put F.stSched_QUANT 1100 0)

def sStop (x : Eng) : State := vec 8 0x500 (one 0 0 0 0 { x with stopPend := true } on)

def sRte (p : BitVec 6) (x : Eng) : State := code on [slot 0x2E 0 7 0 * 2 ^ 24, slot 0x2A 0 7 3 * 2^24] { x with epc := 2, enpc := 7, epsw := p, exl := true }

def rteT : State := after (.rte 0) (sRte 0xC {})

def sDbg : State := (one 0 0 0 0 { haltReq := true } on)

def sBp : State := ((one 0 0 0 0 {} on).put F.dbgCtl_BPEN 1)

def sHalted (k : Nat) : State := (((one 0 0 0 0 {} on).put F.dbgStat_HALTED 1).put F.dbgSel_REG k)

def sWaitIrq : State := vec (16 + 3) 0x500 ((one 0 0 0 0 { psw := 0xC, pc := 9, wait := some (.wfe 1 0) } on).put F.eirq_PEND 8 |>.put F.eirq_EN 0xFFFF)

def desc (f inc u : Nat) : Nat := f * 2 ^ 39 + inc * 2 ^ 31 + u * 2 ^ 29

def sPush (f inc u : Nat) (x : Eng) (s : State) : State := one 0x38 0 0 0 { x with a := wd (desc f inc u), x := wd (2 ^ 47 - 1) } s

def sNext (k : Nat) (x : Eng) : State := one 0x39 0 7 k x (fnOn 1 on)

def t1 : Task := { w0 := wd (desc 1 0 1), w1 := 5 }

def found : Found := ((sNext 1 { deque := [t1] }).findTask 0).getD (.deque 0 0, t1)

theorem test_hypotheses_TrapEntersOrHalts :
    (let s := (one (45 : ℕ) (0 : ℕ) (7 : ℕ) (4095 : ℕ) { } (vec (7 : ℕ) (291 : ℕ) on)); (Issues s (0 : Fin 128) (insn (45 : ℕ) (0 : ℕ) (7 : ℕ) (4095 : ℕ))) ∧ ((insn (45 : ℕ) (0 : ℕ) (7 : ℕ) (4095 : ℕ)).op = (45 : ℕ)) ∧ ((s.e ↑(0 : Fin 128)).exl = false) ∧ (VectorWord s (0 : Fin 128) (7 : ℕ) (0 : ℕ) (291 : Word)))
    ∧ ((Issues (one (45 : ℕ) (0 : ℕ) (7 : ℕ) (4095 : ℕ) { exl := true } (vec (7 : ℕ) (291 : ℕ) on)) (0 : Fin 128) (insn (45 : ℕ) (0 : ℕ) (7 : ℕ) (4095 : ℕ))) ∧ ((insn (45 : ℕ) (0 : ℕ) (7 : ℕ) (4095 : ℕ)).op = (45 : ℕ)) ∧ (((one (45 : ℕ) (0 : ℕ) (7 : ℕ) (4095 : ℕ) { exl := true } (vec (7 : ℕ) (291 : ℕ) on)).e ↑(0 : Fin 128)).exl = true)) := by
  (repeat' apply And.intro) <;> decide +kernel

theorem test_hypotheses_IllegalOpcodeIsTrapped :
    (let s := (one (63 : ℕ) (0 : ℕ) (7 : ℕ) (0 : ℕ) { } (vec (2 : ℕ) (291 : ℕ) on)); let u := (s.e ↑(0 : Fin 128)); let v := (↑(0 : Fin 128)); (s.mayIssue ↑(0 : Fin 128) = true) ∧ (u.ra = false) ∧ (u.exl = false) ∧ (readCode (s.raw (codePlace v u.pc.toNat)) = Rd.ok (readCode (s.raw (codePlace v u.pc.toNat))).word) ∧ (insnMode (s.peek v u.pc.toNat) = (7 : ℕ) → readCode (s.raw (codePlace v (u.pc.toNat + (1 : ℕ)))) = Rd.ok (readCode (s.raw (codePlace v (u.pc.toNat + (1 : ℕ))))).word) ∧ (insnOp (s.peek v u.pc.toNat) ∈ [(5 : ℕ), (6 : ℕ), (7 : ℕ), (30 : ℕ), (31 : ℕ), (36 : ℕ), (37 : ℕ), (38 : ℕ), (39 : ℕ), (47 : ℕ), (51 : ℕ), (59 : ℕ), (62 : ℕ), (63 : ℕ)]) ∧ (VectorWord s (0 : Fin 128) (2 : ℕ) (0 : ℕ) (291 : Word))) := by
  (repeat' apply And.intro) <;> decide +kernel

theorem test_hypotheses_AsynchronousCausesAreTaken :
    (let s := (↑(0 : Fin 128) / (8 : ℕ)); let u := (↑(0 : Fin 128) % (8 : ℕ)); (Samples (sIrq (15 : ℕ)) (0 : Fin 128)) ∧ (VectorWord (sIrq (15 : ℕ)) (0 : Fin 128) (10 : ℕ) ↑(15 : Fin 16) (1280 : Word)) ∧ (((sIrq (15 : ℕ)).e ↑(0 : Fin 128)).stopPend = false) ∧ ((sIrq (15 : ℕ)).quantumDue ↑(0 : Fin 128) = false) ∧ (((sIrq (15 : ℕ)).e ↑(0 : Fin 128)).psw.getLsbD (2 : ℕ) = true) ∧ (((sIrq (15 : ℕ)).fld F.eirq_PEND s u &&& (sIrq (15 : ℕ)).fld F.eirq_EN s u).testBit ↑(15 : Fin 16) = true) ∧ (∀ m < ↑(15 : Fin 16), ((sIrq (15 : ℕ)).fld F.eirq_PEND s u &&& (sIrq (15 : ℕ)).fld F.eirq_EN s u).testBit m = false))
    ∧ (let s := (↑(0 : Fin 128) / (8 : ℕ)); let u := (↑(0 : Fin 128) % (8 : ℕ)); (Samples (sIrq (0 : ℕ)) (0 : Fin 128)) ∧ (VectorWord (sIrq (0 : ℕ)) (0 : Fin 128) (10 : ℕ) ↑(0 : Fin 16) (1280 : Word)) ∧ (((sIrq (0 : ℕ)).e ↑(0 : Fin 128)).stopPend = false) ∧ ((sIrq (0 : ℕ)).quantumDue ↑(0 : Fin 128) = false) ∧ (((sIrq (0 : ℕ)).e ↑(0 : Fin 128)).psw.getLsbD (2 : ℕ) = true) ∧ (((sIrq (0 : ℕ)).fld F.eirq_PEND s u &&& (sIrq (0 : ℕ)).fld F.eirq_EN s u).testBit ↑(0 : Fin 16) = true) ∧ (∀ m < ↑(0 : Fin 16), ((sIrq (0 : ℕ)).fld F.eirq_PEND s u &&& (sIrq (0 : ℕ)).fld F.eirq_EN s u).testBit m = false))
    ∧ ((Samples sQuant (0 : Fin 128)) ∧ (VectorWord sQuant (0 : Fin 128) (9 : ℕ) (0 : ℕ) (1280 : Word)) ∧ ((sQuant.e ↑(0 : Fin 128)).stopPend = false) ∧ (sQuant.quantumDue ↑(0 : Fin 128) = true))
    ∧ (let s := ((sStop { }).e ↑(0 : Fin 128)); (Samples (sStop { }) (0 : Fin 128)) ∧ (VectorWord (sStop { }) (0 : Fin 128) (8 : ℕ) (0 : ℕ) (1280 : Word)) ∧ (s.stopPend = true) ∧ (s.tv = false) ∧ (s.cur = none) ∧ ((sStop { }).fnState s.fn ≠ (3 : ℕ)))
    ∧ (let s := (sStop { tv := true, fn := (1 : ℕ), cur := some u0 }); (Samples s (0 : Fin 128)) ∧ (VectorWord s (0 : Fin 128) (8 : ℕ) (0 : ℕ) (1280 : Word)) ∧ ((s.e ↑(0 : Fin 128)).stopPend = true) ∧ ((s.e ↑(0 : Fin 128)).tv = true) ∧ ((s.e ↑(0 : Fin 128)).cur = some u0)) := by
  (repeat' apply And.intro) <;> decide +kernel

theorem test_hypotheses_RteRestoresTheSavedState :
    ((Issues (sRte 12 { }) (0 : Fin 128) (insn 46 0 7 0)) ∧ ((insn 46 0 7 0).op = 46))
    ∧ ((Issues (sRte 12 { psw := 0 }) (0 : Fin 128) (insn 46 0 7 0)) ∧ ((insn 46 0 7 0).op = 46))
    ∧ (Issues rteT (0 : Fin 128) (insn 42 0 7 3)) := by
  (repeat' apply And.intro) <;> decide +kernel

theorem test_hypotheses_DebugHaltAndRun :
    ((sDbg.engRuns ↑(0 : Fin 128) = true) ∧ ((sDbg.e ↑(0 : Fin 128)).slot = none ∨ (sDbg.e ↑(0 : Fin 128)).wait.isSome = true) ∧ ((sDbg.e ↑(0 : Fin 128)).haltReq = true))
    ∧ (let s := (sBp.e ↑(0 : Fin 128)); (sBp.engRuns ↑(0 : Fin 128) = true) ∧ (sBp.asyncDue ↑(0 : Fin 128) = none) ∧ (s.wait = none) ∧ (s.slot = none) ∧ (s.bpPass = false) ∧ (sBp.fld F.dbgCtl_BPEN (↑(0 : Fin 128) / (8 : ℕ)) (↑(0 : Fin 128) % (8 : ℕ)) ≠ (0 : ℕ)) ∧ (sBp.fld F.dbgBp_ADDR (↑(0 : Fin 128) / (8 : ℕ)) (↑(0 : Fin 128) % (8 : ℕ)) = s.pc.toNat))
    ∧ ((on.heard Who.qspi = true) ∧ (on.applied = true) ∧ (on.mayDebug Who.qspi = true) ∧ (on.fld F.dbgStat_HALTED (↑(127 : Fin 128) / (8 : ℕ)) (↑(127 : Fin 128) % (8 : ℕ)) = (0 : ℕ)))
    ∧ (let s := ((one (0 : ℕ) (0 : ℕ) (0 : ℕ) (0 : ℕ) { }).put F.dbgStat_HALTED 1); (s.heard Who.pf = true) ∧ (s.applied = true) ∧ (s.mayDebug Who.pf = true) ∧ (s.fld F.dbgStat_HALTED (↑(0 : Fin 128) / (8 : ℕ)) (↑(0 : Fin 128) % (8 : ℕ)) ≠ (0 : ℕ)) ∧ (s.fld F.dbgStat_WHY (↑(0 : Fin 128) / (8 : ℕ)) (↑(0 : Fin 128) % (8 : ℕ)) ≠ (3 : ℕ))) := by
  (repeat' apply And.intro) <;> decide +kernel

theorem test_hypotheses_DebugDataAndSoftInterrupts :
    ((on.heard Who.pf = true) ∧ (on.applied = true) ∧ (on.mayDebug Who.pf = true) ∧ (∀ (k : Fin 128), Who.pf ≠ Who.engine k) ∧ (on.fld F.dbgStat_HALTED (↑(0 : Fin 128) / (8 : ℕ)) (↑(0 : Fin 128) % (8 : ℕ)) = (0 : ℕ)))
    ∧ (((sHalted (0 : ℕ)).heard Who.pf = true) ∧ ((sHalted (0 : ℕ)).applied = true) ∧ ((sHalted (0 : ℕ)).mayDebug Who.pf = true) ∧ (∀ (k : Fin 128), Who.pf ≠ Who.engine k) ∧ ((sHalted (0 : ℕ)).fld F.dbgStat_HALTED (↑(0 : Fin 128) / (8 : ℕ)) (↑(0 : Fin 128) % (8 : ℕ)) ≠ (0 : ℕ)))
    ∧ (((sHalted (7 : ℕ)).heard Who.pf = true) ∧ ((sHalted (7 : ℕ)).applied = true) ∧ ((sHalted (7 : ℕ)).mayDebug Who.pf = true) ∧ (∀ (k : Fin 128), Who.pf ≠ Who.engine k) ∧ ((sHalted (7 : ℕ)).fld F.dbgStat_HALTED (↑(0 : Fin 128) / (8 : ℕ)) (↑(0 : Fin 128) % (8 : ℕ)) ≠ (0 : ℕ)))
    ∧ (((sHalted 7).heard Who.pf = true) ∧ ((sHalted 7).applied = true) ∧ ((sHalted 7).mayDebug Who.pf = true) ∧ (∀ (k : Fin 128), Who.pf ≠ Who.engine k)) := by
  (repeat' apply And.intro) <;> decide +kernel

theorem test_hypotheses_MfsrReadsSpecialRegisters :
    ((Issues (one 60 0 0 11 { }) (0 : Fin 128) (insn 60 0 0 11)) ∧ ((insn 60 0 0 11).op = 60))
    ∧ ((Issues (one 60 0 0 12 { }) (0 : Fin 128) (insn 60 0 0 12)) ∧ ((insn 60 0 0 12).op = 60)) := by
  (repeat' apply And.intro) <;> decide +kernel

theorem test_hypotheses_MtsrWritesSpecialRegisters :
    ((Issues (one 61 0 0 0 { a := 63, exl := true }) (0 : Fin 128) (insn 61 0 0 0)) ∧ ((insn 61 0 0 0).op = 61))
    ∧ ((Issues (one 61 0 0 9 { psw := 0 }) (0 : Fin 128) (insn 61 0 0 9)) ∧ ((insn 61 0 0 9).op = 61))
    ∧ ((Issues (one 61 0 0 11 { }) (0 : Fin 128) (insn 61 0 0 11)) ∧ ((insn 61 0 0 11).op = 61)) := by
  (repeat' apply And.intro) <;> decide +kernel

theorem test_hypotheses_WfeConsumesEvents :
    ((Issues (one 52 0 0 0 { }) (0 : Fin 128) (insn 52 0 0 0)) ∧ ((insn 52 0 0 0).op = 52))
    ∧ ((Issues (one 52 0 0 1 { }) (0 : Fin 128) (insn 52 0 0 1)) ∧ ((insn 52 0 0 1).op = 52))
    ∧ ((Issues (one 52 0 0 4095 { ev := 32771, deque := [u0] }) (0 : Fin 128) (insn 52 0 0 4095)) ∧ ((insn 52 0 0 4095).op = 52))
    ∧ (let s := (one (52 : ℕ) (0 : ℕ) (0 : ℕ) (1 : ℕ) { ev := (3 : BitVec 16), wait := some (Wait.wfe (1 : BitVec 16) (0 : ℕ)) }); (s.engRuns ↑(0 : Fin 128) = true) ∧ (s.asyncDue ↑(0 : Fin 128) = none) ∧ ((s.e ↑(0 : Fin 128)).wait = some (Wait.wfe (1 : BitVec 16) (0 : ℕ))) ∧ ((s.e ↑(0 : Fin 128)).ev &&& (1 : BitVec 16) ≠ (0 : BitVec 16)))
    ∧ (let s := (↑(0 : Fin 128) / (8 : ℕ)); let u := (↑(0 : Fin 128) % (8 : ℕ)); (Samples sWaitIrq (0 : Fin 128)) ∧ ((sWaitIrq.e ↑(0 : Fin 128)).wait = some (Wait.wfe (1 : BitVec 16) (0 : ℕ))) ∧ (VectorWord sWaitIrq (0 : Fin 128) (10 : ℕ) ↑(3 : Fin 16) (1280 : Word)) ∧ ((sWaitIrq.e ↑(0 : Fin 128)).stopPend = false) ∧ (sWaitIrq.quantumDue ↑(0 : Fin 128) = false) ∧ ((sWaitIrq.e ↑(0 : Fin 128)).psw.getLsbD (2 : ℕ) = true) ∧ ((sWaitIrq.fld F.eirq_PEND s u &&& sWaitIrq.fld F.eirq_EN s u).testBit ↑(3 : Fin 16) = true) ∧ (∀ m < ↑(3 : Fin 16), (sWaitIrq.fld F.eirq_PEND s u &&& sWaitIrq.fld F.eirq_EN s u).testBit m = false)) := by
  (repeat' apply And.intro) <;> decide +kernel

theorem test_hypotheses_SevSetsEvents :
    ((Issues (one 53 0 7 13 { }) (0 : Fin 128) (insn 53 0 7 13)) ∧ ((insn 53 0 7 13).op = 53))
    ∧ ((Issues (one 53 6 7 1 { x := 2044 }) (0 : Fin 128) (insn 53 6 7 1)) ∧ ((insn 53 6 7 1).op = 53))
    ∧ ((Issues (one 53 6 7 1 { x := 3980, psw := 0 }) (0 : Fin 128) (insn 53 6 7 1)) ∧ ((insn 53 6 7 1).op = 53)) := by
  (repeat' apply And.intro) <;> decide +kernel

theorem test_hypotheses_TickReadsAndWaits :
    ((Issues (one 55 0 0 0 { }) (0 : Fin 128) (insn 55 0 0 0)) ∧ ((insn 55 0 0 0).op = 55))
    ∧ (let s := (one (54 : ℕ) (0 : ℕ) (0 : ℕ) (5 : ℕ) { }); let u := (insn (54 : ℕ) (0 : ℕ) (0 : ℕ) (5 : ℕ)); (Issues s (0 : Fin 128) u) ∧ (u.op = (54 : ℕ)) ∧ (Operand (passBreak (↑(0 : Fin 128)) s) (0 : Fin 128) u (5 : Word) s))
    ∧ (let s := (one (54 : ℕ) (0 : ℕ) (0 : ℕ) (4095 : ℕ) { }); let u := (insn (54 : ℕ) (0 : ℕ) (0 : ℕ) (4095 : ℕ)); (Issues s (0 : Fin 128) u) ∧ (u.op = (54 : ℕ)) ∧ (Operand (passBreak (↑(0 : Fin 128)) s) (0 : Fin 128) u (-1 : Word) s))
    ∧ (let s := (one (54 : ℕ) (0 : ℕ) (0 : ℕ) (0 : ℕ) { wait := some (Wait.wunt (0 : ℕ) (0 : ℕ)) }); (s.engRuns ↑(0 : Fin 128) = true) ∧ (s.asyncDue ↑(0 : Fin 128) = none) ∧ ((s.e ↑(0 : Fin 128)).wait = some (Wait.wunt (0 : ℕ) (0 : ℕ))) ∧ (s.tk = (0 : ℕ))) := by
  (repeat' apply And.intro) <;> decide +kernel

theorem test_hypotheses_TpushReportsRefusals :
    (let s := (sPush (1 : ℕ) (0 : ℕ) (0 : ℕ) { } (on.put F.fnStatus_STATE 3 1)); (Issues s (0 : Fin 128) (insn (56 : ℕ) (0 : ℕ) (0 : ℕ) (0 : ℕ))) ∧ ((insn (56 : ℕ) (0 : ℕ) (0 : ℕ) (0 : ℕ)).op = (56 : ℕ)) ∧ (s.fnState (s.e ↑(0 : Fin 128)).fn ≠ (3 : ℕ)) ∧ (s.fnState (bits (BitVec.toNat (s.e ↑(0 : Fin 128)).a) (39 : ℕ) (9 : ℕ)) = (3 : ℕ)))
    ∧ (let s := (sPush (511 : ℕ) (0 : ℕ) (0 : ℕ) { } on); (Issues s (0 : Fin 128) (insn (56 : ℕ) (0 : ℕ) (0 : ℕ) (0 : ℕ))) ∧ ((insn (56 : ℕ) (0 : ℕ) (0 : ℕ) (0 : ℕ)).op = (56 : ℕ)) ∧ (s.fnState (s.e ↑(0 : Fin 128)).fn ≠ (3 : ℕ)) ∧ (s.fnState (bits (BitVec.toNat (s.e ↑(0 : Fin 128)).a) (39 : ℕ) (9 : ℕ)) = (0 : ℕ) ∨ s.fnState (bits (BitVec.toNat (s.e ↑(0 : Fin 128)).a) (39 : ℕ) (9 : ℕ)) = (1 : ℕ)))
    ∧ (let s := (sPush (1 : ℕ) (0 : ℕ) (0 : ℕ) { psw := (0 : BitVec 6) } (fnOn (1 : ℕ) on)); let u := (s.e ↑(0 : Fin 128)); (Issues s (0 : Fin 128) (insn (56 : ℕ) (0 : ℕ) (0 : ℕ) (0 : ℕ))) ∧ ((insn (56 : ℕ) (0 : ℕ) (0 : ℕ) (0 : ℕ)).op = (56 : ℕ)) ∧ (s.fnState u.fn ≠ (3 : ℕ)) ∧ (s.fnState (bits (BitVec.toNat u.a) (39 : ℕ) (9 : ℕ)) = (2 : ℕ)) ∧ (u.psw.getLsbD (3 : ℕ) = false) ∧ (u.fn ≠ bits (BitVec.toNat u.a) (39 : ℕ) (9 : ℕ)))
    ∧ (let s := (sPush (1 : ℕ) (1 : ℕ) (0 : ℕ) { } (fnOn (1 : ℕ) on)); let u := (s.e ↑(0 : Fin 128)); (Issues s (0 : Fin 128) (insn (56 : ℕ) (0 : ℕ) (0 : ℕ) (0 : ℕ))) ∧ ((insn (56 : ℕ) (0 : ℕ) (0 : ℕ) (0 : ℕ)).op = (56 : ℕ)) ∧ (s.fnState u.fn ≠ (3 : ℕ)) ∧ (s.fnState (bits (BitVec.toNat u.a) (39 : ℕ) (9 : ℕ)) = (2 : ℕ)) ∧ (u.psw.getLsbD (3 : ℕ) = true) ∧ (({ w0 := u.a, w1 := u.x } : Task).rs = false) ∧ (bits (BitVec.toNat u.a) (31 : ℕ) (8 : ℕ) ≠ s.inc (bits (BitVec.toNat u.a) (39 : ℕ) (9 : ℕ))))
    ∧ (let s := (sPush (1 : ℕ) (0 : ℕ) (1 : ℕ) { } ((fnOn (1 : ℕ) on).put F.fnShare_TASKLIM 0 1)); let u := (bits (BitVec.toNat (s.e ↑(0 : Fin 128)).a) (39 : ℕ) (9 : ℕ)); let v := (s.e ↑(0 : Fin 128)); (Issues s (0 : Fin 128) (insn (56 : ℕ) (0 : ℕ) (0 : ℕ) (0 : ℕ))) ∧ ((insn (56 : ℕ) (0 : ℕ) (0 : ℕ) (0 : ℕ)).op = (56 : ℕ)) ∧ (s.fnState v.fn ≠ (3 : ℕ)) ∧ (s.fnState u = (2 : ℕ)) ∧ (v.psw.getLsbD (3 : ℕ) = true) ∧ (({ w0 := v.a, w1 := v.x } : Task).rs = false) ∧ (bits (BitVec.toNat v.a) (31 : ℕ) (8 : ℕ) = s.inc u) ∧ (s.fld F.fnShare_TASKLIM u < (passBreak (↑(0 : Fin 128)) s).useTasks u + (1 : ℕ)))
    ∧ (let s := (sPush (1 : ℕ) (0 : ℕ) (1 : ℕ) { } (fnOn (1 : ℕ) on)); let v := (bits (BitVec.toNat (s.e ↑(0 : Fin 128)).a) (39 : ℕ) (9 : ℕ)); let w := (s.e ↑(0 : Fin 128)); let y := (insn (56 : ℕ) (0 : ℕ) (0 : ℕ) (0 : ℕ)); (Issues s (0 : Fin 128) y) ∧ (y.op = (56 : ℕ)) ∧ (s.fnState w.fn ≠ (3 : ℕ)) ∧ (s.fnState v = (2 : ℕ)) ∧ (w.psw.getLsbD (3 : ℕ) = true) ∧ (({ w0 := w.a, w1 := w.x } : Task).rs = false) ∧ (bits (BitVec.toNat w.a) (31 : ℕ) (8 : ℕ) = s.inc v) ∧ ((passBreak (↑(0 : Fin 128)) s).useTasks v + (1 : ℕ) ≤ s.fld F.fnShare_TASKLIM v) ∧ ((s.fld F.fnCfg_AFFINITY v).testBit (↑(0 : Fin 128) / (8 : ℕ)) = true) ∧ (({ w0 := w.a, w1 := w.x } : Task).u ≠ (0 : ℕ)) ∧ (w.deque.length < (15 : ℕ)) ∧ (s.fld F.stDqstat_GATED (↑(0 : Fin 128) / (8 : ℕ)) = (0 : ℕ)) ∧ (y.tgt = (0 : ℕ))) := by
  (repeat' apply And.intro) <;> decide +kernel

theorem test_hypotheses_EnginesReceiveTasks :
    ((sNext 1 { deque := [t1] }).findTask 0 = some found)
    ∧ (let s := (sNext (1 : ℕ) { ev := (32768 : BitVec 16), deque := [t1] }); (Issues s (0 : Fin 128) (insn (57 : ℕ) (0 : ℕ) (7 : ℕ) (1 : ℕ))) ∧ ((insn (57 : ℕ) (0 : ℕ) (7 : ℕ) (1 : ℕ)).op = (57 : ℕ)) ∧ ((s.e ↑(0 : Fin 128)).tv = false) ∧ (s.fnState (s.e ↑(0 : Fin 128)).fn ≠ (3 : ℕ)) ∧ ((passBreak (↑(0 : Fin 128)) s).purged) ∧ ((passBreak (↑(0 : Fin 128)) s).findTask ↑(0 : Fin 128) = some found))
    ∧ (let s := (sNext (0 : ℕ) { }); let u := (insn (57 : ℕ) (0 : ℕ) (7 : ℕ) (0 : ℕ)); (Issues s (0 : Fin 128) u) ∧ (u.op = (57 : ℕ)) ∧ ((s.e ↑(0 : Fin 128)).tv = false) ∧ (s.fnState (s.e ↑(0 : Fin 128)).fn ≠ (3 : ℕ)) ∧ ((passBreak (↑(0 : Fin 128)) s).purged) ∧ ((passBreak (↑(0 : Fin 128)) s).findTask ↑(0 : Fin 128) = none) ∧ (u.opnd = (0 : ℕ)))
    ∧ (let s := (sNext (1 : ℕ) { }); let u := (insn (57 : ℕ) (0 : ℕ) (7 : ℕ) (1 : ℕ)); (Issues s (0 : Fin 128) u) ∧ (u.op = (57 : ℕ)) ∧ ((s.e ↑(0 : Fin 128)).tv = false) ∧ (s.fnState (s.e ↑(0 : Fin 128)).fn ≠ (3 : ℕ)) ∧ ((passBreak (↑(0 : Fin 128)) s).purged) ∧ ((passBreak (↑(0 : Fin 128)) s).findTask ↑(0 : Fin 128) = none) ∧ (u.opnd = (1 : ℕ)))
    ∧ (let s := (sNext (0 : ℕ) { ev := (32768 : BitVec 16), wait := some Wait.tnext, deque := [t1] }); (s.engRuns ↑(0 : Fin 128) = true) ∧ (s.asyncDue ↑(0 : Fin 128) = none) ∧ (s.idle ↑(0 : Fin 128) = true) ∧ ((s.e ↑(0 : Fin 128)).psw.getLsbD (5 : ℕ) = false) ∧ (s.purged) ∧ (s.findTask ↑(0 : Fin 128) = some found)) := by
  (repeat' apply And.intro) <;> decide +kernel

theorem test_hypotheses_TdoneEndsTheTask :
    ((Issues (one (58 : ℕ) (0 : ℕ) (7 : ℕ) (0 : ℕ) { }) (0 : Fin 128) (insn (58 : ℕ) (0 : ℕ) (7 : ℕ) (0 : ℕ))) ∧ ((insn (58 : ℕ) (0 : ℕ) (7 : ℕ) (0 : ℕ)).op = (58 : ℕ)) ∧ (((one (58 : ℕ) (0 : ℕ) (7 : ℕ) (0 : ℕ) { }).e ↑(0 : Fin 128)).tv = false))
    ∧ ((Issues (one (58 : ℕ) (0 : ℕ) (7 : ℕ) (0 : ℕ) { tv := true, fn := (1 : ℕ), cur := some t1 } (fnOn (1 : ℕ) on)) (0 : Fin 128) (insn (58 : ℕ) (0 : ℕ) (7 : ℕ) (0 : ℕ))) ∧ ((insn (58 : ℕ) (0 : ℕ) (7 : ℕ) (0 : ℕ)).op = (58 : ℕ)) ∧ (((one (58 : ℕ) (0 : ℕ) (7 : ℕ) (0 : ℕ) { tv := true, fn := (1 : ℕ), cur := some t1 } (fnOn (1 : ℕ) on)).e ↑(0 : Fin 128)).tv = true)) := by
  (repeat' apply And.intro) <;> decide +kernel

end W3

namespace W4

def spoiled (s : State) (w : Word) (x : Stored) : State := s.setRaw (loftPlace 0 0) (sealW w ^^^ x)

def fnOn (f : Nat) (s : State) : State := (s.put F.fnStatus_STATE 2 f |>.put F.fnCfg_AFFINITY 0xFFFF f |>.put F.fnShare_TASKLIM 8 f |>.setFn f { maxP := 100 })

def ueW : Word := (readCode (sealW 5 ^^^ 3)).word

def ueY : BitVec 8 := match readCode (sealW 5 ^^^ 3) with | .ue _ y => y | _ => 0

def gone (b : Block) : State := (after (.commitGo .pf b) on)

def delta : State := { on with boot := { on.boot with delta := some 7 } }

def keying : State := { on with pw := { on.pw with grants := [⟨0, .key, 0, 0, 1, true, 0, false⟩] }, boot := { on.boot with keyOp := some (3, some 9) } }

def keying0 : State := { keying with pw := { keying.pw with grants := [] } }

def lately (f x : Nat) (s : State) : State := (s.setFn f { s.fn f with lastDone := some x })

def at15999 : State := { on with tick := 15999 }

def at16000 : State := { on with tick := 16000 }

def held : State := (lately 511 0 (fnOn 511 { on with tick := 16000 })).put F.fnStatus_RSTPEND 1 511

def resetting : State := (fnOn 511 on).put F.fnStatus_STATE 3 511

def stopped : State := (fnOn 511 on).put F.fnStatus_STATE 1 511

def heir : State := { stopped with lay := Tab.set 0 stopped.lay (F.stBank_NEXT.key 15 15) 511 }

def heir2 : State := heir.setSt 15 { heir.st 15 with xfer := Tab.set 0 (heir.st 15).xfer 15 512 }

def starting (b : Bool) : State := { (on.setSt 15 { on.st 15 with starting := some b }).put F.stDqstat_GATED 1 15 with tick := 250 }

def eight : List Nat := List.range 8

def gating : State := { ((List.range 8).foldl (fun s k => s.setE (120 + k) { s.e (120 + k) with wait := some .tnext }) (on.setSt 15 { on.st 15 with clocked := true, idleFrom := some 0 })).put F.stSched_GATEIDLE 1 15 with tick := 250 }

def u1 : Task := { w0 := wd (2 ^ 39 + 2 ^ 29), w1 := 3 }

def ovf (n : Nat) (ts : List Task) (s : State) : State := (s.setSt n { s.st n with ovf := ts })

def dq (e : Nat) (ts : List Task) (s : State) : State := (s.setE e { s.e e with deque := ts })

def full : State := (List.range 8).foldl (fun s k => dq (120 + k) (List.replicate 8 u1) s) (ovf 15 [u1] on)

def late : Task := { w0 := wd (2 ^ 39), w1 := 0 }

def draining : State := after (.bankHandoverRequest .pf 15 15 511) ((fnOn 511 on).put F.fnQuota_BANKS 1 511)

def marked : State := (on.setSt 15 { on.st 15 with pmarks := [65535, 2] })

def oneBit : State := on.setRaw (loftPlace 0 0) (sealW 5 ^^^ 1)

def noted : State := { oneBit with scrub := [loftPlace 0 0] }

def bound (ka kb dbt : Nat) : State := (((fnOn 1 on).put F.mbEnd_KIND ka 1023 0).put F.mbEnd_KIND kb 1023 1).put F.mbEnd_DBT dbt 1023 1

def toFn : State := ((bound 2 1 5).put F.mbEnd_ID 1 1023 1).put F.mbStat_HV 1 1023 0

def ent (w : Stored) : MEntry := ⟨w, none, 0, 0⟩

def withQ (q : List MEntry) : State := (bound 2 2 5).setPair 1023 { (bound 2 2 5).pair 1023 with qa := q }

def standing : State := { ((bound 2 2 5).put F.mbCtl_STO 1 1023).setPair 1023 { qa := [ent (sealW 9)], qb := [ent (sealW 9)], since := some 0 } with tick := 250 }

def rq (i f : Nat) : IcReq := { i := i, f := f, w := .pf, t0 := 0 }

def busy8 : State := on.setIc 18 { q := List.replicate 8 (rq 18 0) }

def icq (q : List IcReq) : State := ((on.setIc 18 { q := q, wait := [rq 4 0] }).put F.icLvl_LVL 6 18).put F.icStarv_LIMIT 2 18

def icq2 : State := ((icq [rq 0 0, rq 1 0]).put F.icLvl_LVL 9 18).put F.icUsef_USEF 0 18

def icOld : State := { icq [rq 18 0] with tick := 2 }

def rgnS : State := ((fnOn 1 on).put F.mgCfg0_SIZE 1 63).put F.mgCfg0_TRIPLE 1 63

def cyc : State := on.put F.mgInst_CYC 8000

def cyc1 : State := { cyc with lastInst := some 0, tick := 1 }

def cyc2 : State := { cyc with lastInst := some 0, tick := 1000 }

def cycR : State := ((cyc.put F.mgCfg0_SIZE 1 63).put F.mgStat_NEW 1 63).put F.mgCfg0_SIZE 1 62

def subS : State := ((rgnS.put F.mgCfg1_SRC 2 63).put F.mgCfg1_SSDN 5 63).put F.mgCfg1_SRGN 7 63

theorem test_hypotheses_RegisterWritesFollowTheAccessType_1 :
    (let s := on.put F.fnStatus_STATE 2 11; (RegId.epCfg0 ∈ plainRegs) ∧ (hostPlace 13303808 = Place.reg RegId.epCfg0 11 0) ∧ (s.heard Who.pf = true) ∧ (isHost Who.pf = true ∨ engReach 13303808 = true) ∧ (s.applied = true) ∧ (s.fld F.gcLaystat_APPLYING = 0) ∧ (s.supervisor Who.pf = true) ∧ (s.fnState 11 ≠ 0))
    ∧ ((hostPlace 2097152 = Place.reg RegId.ckCfg0 0 0) ∧ ((on.put F.gcLaystat_APPLIED 0).heard Who.pf = true) ∧ (Who.pf ∈ [Who.pf, Who.qspi, Who.mgmt]) ∧ (RegId.ckCfg0 ∈ lockedRegs) ∧ ((on.put F.gcLaystat_APPLIED 0).applied = false))
    ∧ ((hostPlace (35782456 : ℕ) = Place.reg RegId.fnCtl (511 : ℕ) (0 : ℕ)) ∧ ((fnOn (511 : ℕ) on).heard Who.pf = true) ∧ (Who.pf ∈ [Who.pf, Who.qspi, Who.mgmt]) ∧ ((fnOn (511 : ℕ) on).applied = true) ∧ (RegId.fnCtl = RegId.fnCtl) ∧ ((511 : ℕ) = ↑(511 : Fin 512)))
    ∧ ((hostPlace (14729736 : ℕ) = Place.reg RegId.canTxCtl (3 : ℕ) (2 : ℕ)) ∧ (on.heard Who.pf = true) ∧ (Who.pf ∈ [Who.pf, Who.qspi, Who.mgmt]) ∧ (on.applied = true) ∧ (RegId.canTxCtl = RegId.canTxCtl) ∧ ((3 : ℕ) = ↑(3 : Fin 4)) ∧ ((2 : ℕ) = ↑(2 : Fin 3)))
    ∧ (let s := (fnOn 511 on).put F.fnCnt_REFQ 7 511; (hostPlace 35782480 = Place.reg RegId.fnCnt 511 0) ∧ (s.heard Who.qspi = true) ∧ (Who.qspi ∈ [Who.pf, Who.qspi, Who.mgmt]) ∧ (s.applied = true) ∧ (RegId.fnCnt ∈ countRegs) ∧ (35782480 % 8 = 0) ∧ (s.fnState 511 ≠ 0))
    ∧ ((hostPlace 8499392 = Place.reg RegId.ydQcnt 11 0) ∧ (on.heard Who.mgmt = true) ∧ (Who.mgmt ∈ [Who.pf, Who.qspi, Who.mgmt]) ∧ (on.applied = true) ∧ (RegId.ydQcnt ∈ countRegs) ∧ (8499392 % 8 = 0)) := by
  (repeat' apply And.intro) <;> decide +kernel

theorem test_hypotheses_RegisterWritesFollowTheAccessType_2 :
    ((hostPlace 2097152 = Place.reg RegId.ckCfg0 0 0) ∧ (on.heard Who.pf = true) ∧ (Who.pf ∈ [Who.pf, Who.qspi, Who.mgmt])) := by
  (repeat' apply And.intro) <;> decide +kernel

theorem test_hypotheses_ReservedAccessesAreCounted :
    ((on.heard Who.pf = true) ∧ (isHost Who.pf = true) ∧ (hostPlace 65544 = Place.hole)) := by
  (repeat' apply And.intro) <;> decide +kernel

theorem test_hypotheses_HostReadsLoftWords :
    ((on.heard Who.qspi = true) ∧ (on.applied = true) ∧ (Who.qspi ∈ [Who.pf, Who.qspi, Who.mgmt]) ∧ (hostPlace 50331648 = Place.loft 0 0) ∧ (loftReserved 0 = false) ∧ (readCode (on.raw (loftPlace 0 0)) = Rd.ok 0))
    ∧ (((spoiled on 5 (3 : Stored)).heard Who.qspi = true) ∧ ((spoiled on 5 (3 : Stored)).applied = true) ∧ (Who.qspi ∈ [Who.pf, Who.qspi, Who.mgmt]) ∧ (hostPlace 50331648 = Place.loft 0 0) ∧ (loftReserved 0 = false) ∧ (readCode ((spoiled on 5 (3 : Stored)).raw (loftPlace 0 0)) = Rd.ue ueW ueY))
    ∧ ((on.heard Who.pf = true) ∧ (on.applied = true) ∧ (Who.pf ∈ [Who.pf, Who.qspi, Who.mgmt]) ∧ (hostPlace 50331648 = Place.loft 0 0) ∧ (loftReserved 0 = false) ∧ (50331648 % 8 = 0) ∧ (hostPlace (50331648 + 8) = Place.loft 0 (0 + 1)) ∧ (loftReserved (0 + 1) = false) ∧ (readCode (on.raw (loftPlace 0 0)) = Rd.ok 0) ∧ (readCode (on.raw (loftPlace 0 (0 + 1))) = Rd.ok 0)) := by
  (repeat' apply And.intro) <;> decide +kernel

theorem test_hypotheses_HostWritesMergeBytes :
    ((on.heard Who.mgmt = true) ∧ (on.applied = true) ∧ (Who.mgmt ∈ [Who.pf, Who.qspi, Who.mgmt]) ∧ (hostPlace 50331648 = Place.loft 0 0) ∧ (loftReserved 0 = false) ∧ (on.inpassWord 0 0 = false) ∧ (BitVec.toNat (63 : BitVec 8) % 64 = 63))
    ∧ ((on.heard Who.mgmt = true) ∧ (on.applied = true) ∧ (Who.mgmt ∈ [Who.pf, Who.qspi, Who.mgmt]) ∧ (hostPlace 50331648 = Place.loft 0 0) ∧ (loftReserved 0 = false) ∧ (on.inpassWord 0 0 = false) ∧ (BitVec.toNat (193 : BitVec 8) % 64 ≠ 63) ∧ (BitVec.toNat (193 : BitVec 8) % 64 ≠ 0) ∧ (readCode (on.raw (loftPlace 0 0)) = Rd.ok 0))
    ∧ (let s := (spoiled on 5 (3 : Stored)); (s.heard Who.mgmt = true) ∧ (s.applied = true) ∧ (Who.mgmt ∈ [Who.pf, Who.qspi, Who.mgmt]) ∧ (hostPlace 50331648 = Place.loft 0 0) ∧ (loftReserved 0 = false) ∧ (s.inpassWord 0 0 = false) ∧ (BitVec.toNat (1 : BitVec 8) % 64 ≠ 63) ∧ (BitVec.toNat (1 : BitVec 8) % 64 ≠ 0) ∧ (readCode (s.raw (loftPlace 0 0)) = Rd.ue ueW ueY)) := by
  (repeat' apply And.intro) <;> decide +kernel

theorem test_hypotheses_CommitCapturesThenActivates :
    (let s := on.putBoth F.icLvl_LVL 1 3; (Block.ic (3 : Fin 19) ≠ Block.gc) ∧ (s.heard Who.pf = true) ∧ (s.applied = true) ∧ (s.supervisor Who.pf = true) ∧ (commitHidden Who.pf (Block.ic (3 : Fin 19)) = false) ∧ (s.cfld F.commit_PEND (Block.ic (3 : Fin 19)) = 0))
    ∧ (let s := (Block.ep (11 : Fin 12)); (Block.ep (11 : Fin 12) ≠ Block.gc) ∧ ((gone s).heard Who.pf = true) ∧ ((gone s).applied = true) ∧ ((gone s).supervisor Who.pf = true) ∧ (commitHidden Who.pf s = false) ∧ ((gone s).cfld F.commit_PEND s = 1))
    ∧ (let s := (Block.ic (18 : Fin 19)); ((gone s).cfld F.commit_PEND s = 1) ∧ ((gone s).heldGo.contains s = false) ∧ ((gone s).boot.gcTrig = [])) := by
  (repeat' apply And.intro) <;> decide +kernel

theorem test_hypotheses_GcCommitTriggersDirtyBlocks :
    (((on.put F.mgInstat_RUN 1).heard Who.pf = true) ∧ (notVf Who.pf = true) ∧ (Who.pf ≠ Who.jtag) ∧ ((on.put F.mgInstat_RUN 1).fld F.mgInstat_RUN ≠ 0))
    ∧ (((writeShadow (Block.ep (3 : Fin 12)) F.epCfg0_HDX 1 3 0 on).heard Who.pf = true) ∧ (notVf Who.pf = true) ∧ (Who.pf ≠ Who.jtag))
    ∧ ((on.heard Who.pf = true) ∧ (notVf Who.pf = true) ∧ (Who.pf ≠ Who.jtag) ∧ (∀ b ∈ allBlocks, on.cfld F.commit_DIRTY b ≠ 1) ∧ (on.boot.gcTrig = [])) := by
  (repeat' apply And.intro) <;> decide +kernel

theorem test_hypotheses_DeltasAreCheckedAndApplied :
    (((on.put F.gcLaystat_APPLYING 1).heard Who.pf = true) ∧ (notVf Who.pf = true) ∧ (Who.pf ≠ Who.jtag) ∧ ((on.put F.gcLaystat_APPLYING 1).fld F.gcLaystat_APPLYING ≠ 0))
    ∧ (let s := on.put F.gcLaystat_APPLIED 0; (s.heard Who.pf = true) ∧ (notVf Who.pf = true) ∧ (Who.pf ≠ Who.jtag) ∧ (s.fld F.gcLaystat_APPLYING = 0) ∧ (s.applied = false ∨ s.fld F.gcLaystat_HALTER ≠ 0))
    ∧ ((delta.boot.delta = some 7) ∧ (delta.boot.deltaWait = false) ∧ (delta.gcPend = false))
    ∧ ((on.heard Who.pf = true) ∧ (notVf Who.pf = true) ∧ (Who.pf ≠ Who.jtag) ∧ (on.fld F.gcLaystat_APPLYING = 0) ∧ (on.applied = true) ∧ (on.fld F.gcLaystat_HALTER = 0) ∧ (∀ k < on.staged.slots.length, on.stageWord k = Rd.ok (on.stageWord k).word)) := by
  (repeat' apply And.intro) <;> decide +kernel

theorem test_hypotheses_KeySlotsAreWrittenOnce_1 :
    (((on.put F.gcKeyslot_BUSY 1 3).heard Who.pf = true) ∧ (Who.pf ∈ [Who.pf, Who.qspi, Who.mgmt]) ∧ (∃ j < 4, (on.put F.gcKeyslot_BUSY 1 3).fld F.gcKeyslot_BUSY j ≠ 0))
    ∧ (let s := on.put F.gcKeyslot_WRITTEN 1 3; (s.heard Who.pf = true) ∧ (Who.pf ∈ [Who.pf, Who.qspi, Who.mgmt]) ∧ (∀ j < (4 : ℕ), s.fld F.gcKeyslot_BUSY j = (0 : ℕ)) ∧ (s.fld F.gcKeyslot_WRITTEN ↑(3 : Fin 4) ≠ (0 : ℕ) ∨ (2 : ℕ) ^ (256 : ℕ) ≤ s.keyData))
    ∧ ((on.heard Who.pf = true) ∧ (Who.pf ∈ [Who.pf, Who.qspi, Who.mgmt]) ∧ (∀ j < (4 : ℕ), on.fld F.gcKeyslot_BUSY j = (0 : ℕ)) ∧ (on.fld F.gcKeyslot_WRITTEN ↑(3 : Fin 4) = (0 : ℕ)) ∧ (on.keyData < (2 : ℕ) ^ (256 : ℕ)))
    ∧ (let s := on.put F.gcKeyslot_REVOKED 1 3; (s.heard Who.pf = true) ∧ (Who.pf ∈ [Who.pf, Who.qspi, Who.mgmt]) ∧ (∀ j < (4 : ℕ), s.fld F.gcKeyslot_BUSY j = (0 : ℕ)) ∧ (s.fld F.gcKeyslot_REVOKED ↑(3 : Fin 4) ≠ (0 : ℕ)))
    ∧ ((on.heard Who.pf = true) ∧ (Who.pf ∈ [Who.pf, Who.qspi, Who.mgmt]) ∧ (∀ j < (4 : ℕ), on.fld F.gcKeyslot_BUSY j = (0 : ℕ)) ∧ (on.fld F.gcKeyslot_REVOKED ↑(3 : Fin 4) = (0 : ℕ)))
    ∧ (keying.boot.keyOp = some (3, some 9)) := by
  (repeat' apply And.intro) <;> decide +kernel

theorem test_hypotheses_KeySlotsAreWrittenOnce_2 :
    (keying0.boot.keyOp = some (3, some 9)) := by
  decide +kernel

theorem test_hypotheses_FunctionResetsBegin :
    ((on.heard Who.pf = true) ∧ (on.applied = true) ∧ (on.supervisor Who.pf = true) ∧ (Who.pf ≠ Who.jtag) ∧ ((0 : Fin 512) = (0 : Fin 512)))
    ∧ (((fnOn (511 : ℕ) on).heard (Who.vf (2 : Fin 15)) = true) ∧ ((fnOn (511 : ℕ) on).applied = true) ∧ (Who.vf (2 : Fin 15) = Who.vf (2 : Fin 15)) ∧ ((fnOn (511 : ℕ) on).vfOf ↑(511 : Fin 512) ≠ ↑(2 : Fin 15) + (1 : ℕ)))
    ∧ (let s := (lately (511 : ℕ) (0 : ℕ) (fnOn (511 : ℕ) at15999)); (s.heard Who.pf = true) ∧ (s.applied = true) ∧ (s.supervisor Who.pf = true) ∧ (Who.pf ≠ Who.jtag) ∧ ((511 : Fin 512) ≠ (0 : Fin 512)) ∧ (s.fnState ↑(511 : Fin 512) ∈ [(1 : ℕ), (2 : ℕ)]) ∧ (s.fld F.fnStatus_RSTPEND ↑(511 : Fin 512) = (0 : ℕ)) ∧ ((s.fn ↑(511 : Fin 512)).lastDone = some (0 : ℕ)) ∧ (s.tick < (0 : ℕ) + (16000 : ℕ)))
    ∧ (let s := (lately (511 : ℕ) (0 : ℕ) (fnOn (511 : ℕ) at16000)); (s.heard Who.pf = true) ∧ (s.applied = true) ∧ (s.supervisor Who.pf = true) ∧ (Who.pf ≠ Who.jtag) ∧ ((511 : Fin 512) ≠ (0 : Fin 512)) ∧ (s.fnState ↑(511 : Fin 512) ∈ [(1 : ℕ), (2 : ℕ)]) ∧ (s.fld F.fnStatus_RSTPEND ↑(511 : Fin 512) = (0 : ℕ)) ∧ ((s.fn ↑(511 : Fin 512)).lastDone = some (0 : ℕ)) ∧ ((0 : ℕ) + (16000 : ℕ) ≤ s.tick))
    ∧ ((held.fld F.fnStatus_RSTPEND ↑(511 : Fin 512) ≠ (0 : ℕ)) ∧ ((held.fn ↑(511 : Fin 512)).lastDone = some (0 : ℕ)) ∧ ((0 : ℕ) + (16000 : ℕ) ≤ held.tick))
    ∧ (on.fld F.fnStatus_RSTPEND ↑(511 : Fin 512) = (0 : ℕ)) := by
  (repeat' apply And.intro) <;> decide +kernel

theorem test_hypotheses_FunctionResetsEndAndRelease :
    (((511 : Fin 512) ≠ (0 : Fin 512)) ∧ (resetting.fnState ↑(511 : Fin 512) = (3 : ℕ)) ∧ (resetting.running ↑(511 : Fin 512) = []) ∧ (resetting.boot.deltaWait = false))
    ∧ (((0 : Fin 512) = (0 : Fin 512)) ∧ (resetting.boot.deltaWait = false))
    ∧ ((stopped.heard Who.pf = true) ∧ (stopped.applied = true) ∧ (stopped.supervisor Who.pf = true) ∧ ((511 : Fin 512) ≠ (0 : Fin 512)) ∧ (stopped.fnState ↑(511 : Fin 512) = (1 : ℕ)) ∧ ((stopped.fn ↑(511 : Fin 512)).releasing = false) ∧ (∀ k < (256 : ℕ), ¬(Tab.get (0 : ℕ) stopped.lay (F.stBank_NEXT.key (k / (16 : ℕ)) (k % (16 : ℕ))) = ↑(511 : Fin 512) ∧ stopped.fld F.stBank_OWNER (k / (16 : ℕ)) (k % (16 : ℕ)) = (0 : ℕ) ∧ Tab.get (0 : ℕ) (stopped.st (k / (16 : ℕ))).xfer (k % (16 : ℕ)) ∈ [(0 : ℕ), ↑(511 : Fin 512) + (1 : ℕ)])))
    ∧ ((on.heard Who.pf = true) ∧ (on.applied = true) ∧ (on.supervisor Who.pf = true) ∧ (on.fnState ↑(511 : Fin 512) ≠ (1 : ℕ)))
    ∧ ((heir.heard Who.pf = true) ∧ (heir.applied = true) ∧ (heir.supervisor Who.pf = true) ∧ ((511 : Fin 512) ≠ (0 : Fin 512)) ∧ (heir.fnState ↑(511 : Fin 512) = (1 : ℕ)) ∧ ((heir.fn ↑(511 : Fin 512)).releasing = false) ∧ ((255 : ℕ) < (256 : ℕ)) ∧ (Tab.get (0 : ℕ) heir.lay (F.stBank_NEXT.key (255 / 16 : ℕ) ((255 : ℕ) % (16 : ℕ))) = ↑(511 : Fin 512) ∧ heir.fld F.stBank_OWNER (255 / 16 : ℕ) ((255 : ℕ) % (16 : ℕ)) = (0 : ℕ) ∧ Tab.get (0 : ℕ) (heir.st (255 / 16 : ℕ)).xfer ((255 : ℕ) % (16 : ℕ)) ∈ [(0 : ℕ), ↑(511 : Fin 512) + (1 : ℕ)]))
    ∧ ((heir2.heard Who.pf = true) ∧ (heir2.applied = true) ∧ (heir2.supervisor Who.pf = true) ∧ ((511 : Fin 512) ≠ (0 : Fin 512)) ∧ (heir2.fnState ↑(511 : Fin 512) = (1 : ℕ)) ∧ ((heir2.fn ↑(511 : Fin 512)).releasing = false) ∧ ((255 : ℕ) < (256 : ℕ)) ∧ (Tab.get (0 : ℕ) heir2.lay (F.stBank_NEXT.key (255 / 16 : ℕ) ((255 : ℕ) % (16 : ℕ))) = ↑(511 : Fin 512) ∧ heir2.fld F.stBank_OWNER (255 / 16 : ℕ) ((255 : ℕ) % (16 : ℕ)) = (0 : ℕ) ∧ Tab.get (0 : ℕ) (heir2.st (255 / 16 : ℕ)).xfer ((255 : ℕ) % (16 : ℕ)) ∈ [(0 : ℕ), ↑(511 : Fin 512) + (1 : ℕ)])) := by
  (repeat' apply And.intro) <;> decide +kernel

theorem test_hypotheses_CodeStoresAreWrittenUnderLoad :
    (((on.put F.stCtl_LOAD 1 15).clocksOn = true) ∧ ((on.put F.stCtl_LOAD 1 15).applied = true) ∧ ((on.put F.stCtl_LOAD 1 15).fld F.stCtl_LOAD ↑(15 : Fin 16) ≠ (0 : ℕ)) ∧ (Who.mgmt ≠ Who.jtag))
    ∧ ((on.clocksOn = true) ∧ (on.applied = true) ∧ (on.fld F.stCtl_LOAD ↑(15 : Fin 16) = (0 : ℕ)) ∧ (Who.mgmt ∈ [Who.pf, Who.qspi, Who.mgmt]))
    ∧ ((on.clocksOn = true) ∧ (on.applied = true) ∧ (on.fld F.stCtl_LOAD ↑(15 : Fin 16) = (0 : ℕ))) := by
  (repeat' apply And.intro) <;> decide +kernel

theorem test_hypotheses_StablesAskForLeave :
    (let s := on.put F.stCfg_EN 1 15; (s.heard Who.pf = true) ∧ (s.applied = true) ∧ (Who.pf ≠ Who.jtag) ∧ (s.fld F.stCfg_EN ↑(15 : Fin 16) ≠ (0 : ℕ) ∧ s.fld F.stCtl_RELD ↑(15 : Fin 16) = (0 : ℕ)))
    ∧ ((on.heard Who.pf = true) ∧ (on.applied = true) ∧ (Who.pf ≠ Who.jtag) ∧ (on.fld F.stCfg_EN 15 = 0 ∨ on.fld F.stCtl_RELD 15 ≠ 0))
    ∧ (let s := (on.put F.stCtl_RELD 1 15).put F.stDqstat_GATED 1 15; (s.heard Who.pf = true) ∧ (s.applied = true) ∧ (Who.pf ≠ Who.jtag) ∧ (s.fld F.stCtl_RELD 15 ≠ 0 ∧ s.fld F.stDqstat_GATED 15 ≠ 0 ∧ (s.st 15).powerGated = false ∧ (s.st 15).waking = none ∧ (s.st 15).starting = none))
    ∧ (((on.put F.stDqstat_GATED 0 15).heard Who.pf = true) ∧ ((on.put F.stDqstat_GATED 0 15).applied = true) ∧ (Who.pf ≠ Who.jtag) ∧ ((on.put F.stDqstat_GATED 0 15).fld F.stDqstat_GATED 15 = 0)) := by
  (repeat' apply And.intro) <;> decide +kernel

theorem test_hypotheses_StablesRunAndGate :
    (let s := starting false; (s.clocksOn = true) ∧ (s.applied = true) ∧ ((s.st 15).starting = some false) ∧ ((s.st 15).powerGated = false) ∧ ((s.st 15).startAt + 250 ≤ s.tick))
    ∧ (((starting true).clocksOn = true) ∧ ((starting true).applied = true) ∧ (((starting true).st 15).starting = some true) ∧ (((starting true).st 15).startAt + 250 ≤ (starting true).tick) ∧ ((starting true).boot.starts = []))
    ∧ ((gating.clocksOn = true) ∧ (gating.applied = true) ∧ (gating.fld F.pwPstat_STATE ≠ 2) ∧ (gating.awake 15 = true) ∧ (gating.fld F.stSched_GATEIDLE 15 ≠ 0) ∧ (gating.gateable 15 = true) ∧ ((gating.st 15).idleFrom = some 0) ∧ (0 + gating.fld F.stSched_GATEIDLE 15 * 250 ≤ gating.tick)) := by
  (repeat' apply And.intro) <;> decide +kernel

theorem test_hypotheses_OverflowTasksMoveToDeques :
    (let s := ovf 15 [u1] on; (s.clocksOn = true) ∧ (s.applied = true) ∧ ((s.st 15).ovf[0]? = some u1) ∧ (∀ j < (s.st 15).ovf.length, u1.u < ((s.st 15).ovf.getD j u1).u ∨ u1.u = ((s.st 15).ovf.getD j u1).u ∧ 0 ≤ j) ∧ (8 * 15 ≤ 120) ∧ (120 < 8 * 15 + 8) ∧ ((s.e 120).deque.length < 8) ∧ (∀ (g : ℕ), 8 * 15 ≤ g → g < 8 * 15 + 8 → (s.e 120).deque.length < (s.e g).deque.length ∨ (s.e 120).deque.length = (s.e g).deque.length ∧ 120 ≤ g))
    ∧ ((full.clocksOn = true) ∧ (full.applied = true) ∧ (∀ k < 8, 8 ≤ (full.e (8 * 15 + k)).deque.length))
    ∧ ((on.clocksOn = true) ∧ (on.applied = true) ∧ ((on.st 0).ovf = []))
    ∧ (let s := dq 120 [u1] (ovf 15 [u1, late, u1] on); (s.clocksOn = true) ∧ (s.applied = true) ∧ ((s.st 15).ovf[1]? = some late) ∧ (∀ j < (s.st 15).ovf.length, late.u < ((s.st 15).ovf.getD j late).u ∨ late.u = ((s.st 15).ovf.getD j late).u ∧ 1 ≤ j) ∧ (8 * 15 ≤ 121) ∧ (121 < 8 * 15 + 8) ∧ ((s.e 121).deque.length < 8) ∧ (∀ (g : ℕ), 8 * 15 ≤ g → g < 8 * 15 + 8 → (s.e 121).deque.length < (s.e g).deque.length ∨ (s.e 121).deque.length = (s.e g).deque.length ∧ 121 ≤ g)) := by
  (repeat' apply And.intro) <;> decide +kernel

theorem test_hypotheses_HopelessTasksAreWithdrawn :
    (let s := dq 120 [late] on; (s.clocksOn = true) ∧ (s.applied = true) ∧ ((s.st 15).ovf = []) ∧ ((s.e (8 * 15)).deque = [late]) ∧ (∀ (k : ℕ), 1 ≤ k → k < 8 → (s.e (8 * 15 + k)).deque = []) ∧ (bits (BitVec.toNat late.w0) 29 2 = 0) ∧ ((0 : ℤ) < toSigned 32 (s.tk + (40 + 32 * bits (BitVec.toNat late.w0) 16 11) / 3 + 2 ^ 32 - bits (BitVec.toNat late.w1) 16 32)) ∧ ((s.st 15).late.length < 16) ∧ (s.fld F.stSched_LATEDST 15 = 0))
    ∧ (((on.setSt 15 (let __src := on.st 15; ({ ovf := __src.ovf, late := [u1, late], rr := __src.rr, doneN := __src.doneN, clocked := __src.clocked, starting := __src.starting, startAt := __src.startAt, waking := __src.waking, powerGated := __src.powerGated, idleFrom := __src.idleFrom, xfer := __src.xfer, xnext := __src.xnext, pmarks := __src.pmarks } : Stb))).heard Who.pf = true) ∧ ((on.setSt 15 (let __src := on.st 15; ({ ovf := __src.ovf, late := [u1, late], rr := __src.rr, doneN := __src.doneN, clocked := __src.clocked, starting := __src.starting, startAt := __src.startAt, waking := __src.waking, powerGated := __src.powerGated, idleFrom := __src.idleFrom, xfer := __src.xfer, xnext := __src.xnext, pmarks := __src.pmarks } : Stb))).applied = true) ∧ (Who.pf ≠ Who.jtag))
    ∧ (((on.setSt 15 (let __src := on.st 15; ({ ovf := __src.ovf, late := [u1, late], rr := __src.rr, doneN := __src.doneN, clocked := __src.clocked, starting := __src.starting, startAt := __src.startAt, waking := __src.waking, powerGated := __src.powerGated, idleFrom := __src.idleFrom, xfer := __src.xfer, xnext := __src.xnext, pmarks := __src.pmarks } : Stb))).heard Who.jtag = true) ∧ ((on.setSt 15 (let __src := on.st 15; ({ ovf := __src.ovf, late := [u1, late], rr := __src.rr, doneN := __src.doneN, clocked := __src.clocked, starting := __src.starting, startAt := __src.startAt, waking := __src.waking, powerGated := __src.powerGated, idleFrom := __src.idleFrom, xfer := __src.xfer, xnext := __src.xnext, pmarks := __src.pmarks } : Stb))).applied = true) ∧ (Who.jtag = Who.jtag))
    ∧ (let s := dq 127 [late, u1] (ovf 15 [u1, late] on); (s.clocksOn = true) ∧ (s.applied = true) ∧ ((s.st 15).late.length ≤ 16)) := by
  (repeat' apply And.intro) <;> decide +kernel

theorem test_hypotheses_EstimatesAndPeriods :
    (((dq 127 [u1] on).clocksOn = true) ∧ ((dq 127 [u1] on).applied = true))
    ∧ ((fnOn 511 on).clocksOn = true) := by
  (repeat' apply And.intro) <;> decide +kernel

theorem test_hypotheses_BanksAreHandedOver_1 :
    (((fnOn 511 on).put F.fnQuota_BANKS 1 511).heard Who.pf = true)
    ∧ ((fnOn 511 on).heard Who.pf = true)
    ∧ (on.heard Who.pf = true)
    ∧ (on.heard Who.pf = true)
    ∧ ((on.put F.stBank_XPEND 1 15 15).heard Who.pf = true)
    ∧ (on.heard (Who.vf (3 : Fin 15)) = true) := by
  (repeat' apply And.intro) <;> decide +kernel

theorem test_hypotheses_BanksAreHandedOver_2 :
    ((Tab.get 0 (draining.st 15).xfer 15 = 511 + 1) ∧ (Tab.get 0 (draining.st 15).xnext 15 = 0) ∧ ((draining.fn 511).releasing = false)) := by
  (repeat' apply And.intro) <;> decide +kernel

theorem test_hypotheses_PoisonMarksInvertTheCheckByte :
    ((on.heard Who.pf = true) ∧ (on.applied = true))
    ∧ ((on.heard (Who.vf (2 : Fin 15)) = true) ∧ (on.applied = true))
    ∧ ((marked.st 15).pmarks = [65535, 2]) := by
  (repeat' apply And.intro) <;> decide +kernel

theorem test_hypotheses_ScrubbingCorrectsWords :
    (readCode (on.raw (SramWord.loft (15 : Fin 16) (65535 : Fin 65536))) = Rd.ok 0)
    ∧ ((readCode (oneBit.raw (loftPlace 0 0)) = Rd.ce 5) ∧ (loftPlace 0 0 ∉ oneBit.scrub))
    ∧ (readCode ((spoiled on 5 (3 : Stored)).raw (loftPlace 0 0)) = Rd.ue ueW ueY)
    ∧ (loftPlace 0 0 ∉ oneBit.scrub)
    ∧ ((readCode (noted.raw (loftPlace 0 0)) = Rd.ce 5) ∧ (loftPlace 0 0 ∈ noted.scrub) ∧ (inMemory (loftPlace 0 0) = true)) := by
  (repeat' apply And.intro) <;> decide +kernel

theorem test_hypotheses_WordsReadBackAsWritten :
    (inMemory (SramWord.stage (8191 : Fin 8192)) = true) := by
  decide +kernel

theorem test_hypotheses_MailboxSendsQueueWords :
    ((on.heard Who.pf = true) ∧ (on.applied = true) ∧ (on.supervisor Who.pf = true) ∧ (on.endKind 1023 1 = 0 ∨ on.endKind (1023) (1 - 1) = 0))
    ∧ (let s := toFn.put F.mbStat_HV 0 1023; (s.heard Who.pf = true) ∧ (s.applied = true) ∧ (s.supervisor Who.pf = true) ∧ (s.endKind 1023 0 ≠ 0) ∧ (s.endFn (1023) (1 - 0) = some 1) ∧ (s.fld F.mbStat_HV 1023 0 = 0 ∨ s.inc 1 ≠ s.fld F.mbStat_HINC 1023 0))
    ∧ (let s := toFn.put F.fnStatus_STATE 3 1; (s.heard Who.pf = true) ∧ (s.applied = true) ∧ (s.supervisor Who.pf = true) ∧ (s.endKind 1023 0 ≠ 0) ∧ (s.endFn (1023) (1 - 0) = some 1) ∧ (s.fld F.mbStat_HV 1023 0 ≠ 0) ∧ (s.inc 1 = s.fld F.mbStat_HINC 1023 0) ∧ (s.fnState 1 = 3))
    ∧ ((toFn.heard Who.pf = true) ∧ (toFn.applied = true) ∧ (toFn.supervisor Who.pf = true) ∧ (toFn.endKind 1023 0 ≠ 0) ∧ (toFn.endKind (1023) (1 - 0) ≠ 0) ∧ (∀ (f : ℕ), toFn.endFn (1023) (1 - 0) = some f → toFn.fld F.mbStat_HV 1023 0 ≠ 0 ∧ toFn.inc f = toFn.fld F.mbStat_HINC 1023 0 ∧ toFn.fnState f ≠ 3) ∧ (toFn.fld F.mbEnd_AUTO (1023) (1 - 0) = 0)) := by
  (repeat' apply And.intro) <;> decide +kernel

theorem test_hypotheses_MailboxReadsTakeTheOldest :
    (((withQ []).heard Who.pf = true) ∧ ((withQ []).applied = true) ∧ ((withQ []).supervisor Who.pf = true) ∧ (∀ (e : Fin 128), Who.pf ≠ Who.engine e) ∧ (((withQ []).pair 1023).queue (1 - 1) = []))
    ∧ (let s := withQ [ent (sealW 9)]; (s.heard Who.pf = true) ∧ (s.applied = true) ∧ (s.supervisor Who.pf = true) ∧ (∀ (e : Fin 128), Who.pf ≠ Who.engine e) ∧ ((s.pair 1023).queue (1 - 1) = [ent (sealW 9)]) ∧ (∀ (f : ℕ), (ent (sealW 9)).sFn = some f → (ent (sealW 9)).sInc = s.inc f) ∧ (∀ (f : ℕ), s.endFn 1023 1 = some f → (ent (sealW 9)).rInc = s.inc f) ∧ (readCode (ent (sealW 9)).w = Rd.ok 9))
    ∧ (let s := (sealW 5 ^^^ (3 : Stored)); ((withQ [ent s]).heard Who.pf = true) ∧ ((withQ [ent s]).applied = true) ∧ ((withQ [ent s]).supervisor Who.pf = true) ∧ (∀ (e : Fin 128), Who.pf ≠ Who.engine e) ∧ (((withQ [ent s]).pair 1023).queue (1 - 1) = [ent s]) ∧ (∀ (f : ℕ), (ent s).sFn = some f → (ent s).sInc = (withQ [ent s]).inc f) ∧ (∀ (f : ℕ), (withQ [ent s]).endFn 1023 1 = some f → (ent s).rInc = (withQ [ent s]).inc f) ∧ (readCode (ent s).w = Rd.ue ueW ueY)) := by
  (repeat' apply And.intro) <;> decide +kernel

theorem test_hypotheses_MailboxSidesSignal :
    ((toFn.heard Who.pf = true) ∧ (toFn.applied = true) ∧ (toFn.supervisor Who.pf = true))
    ∧ ((toFn.heard Who.pf = true) ∧ (toFn.applied = true) ∧ (toFn.supervisor Who.pf = true) ∧ (toFn.endKind (1023) (1 - 0) = 1) ∧ ((toFn.fld F.mbEnd_DBT (1023) (1 - 0)).testBit 7 = false))
    ∧ (((bound 2 2 5).heard Who.pf = true) ∧ ((bound 2 2 5).applied = true) ∧ ((bound 2 2 5).supervisor Who.pf = true) ∧ ((bound 2 2 5).endKind (1023) (1 - 0) = 2))
    ∧ ((standing.clocksOn = true) ∧ (standing.applied = true) ∧ ((standing.pair 1023).since = some 0) ∧ (standing.fld F.mbCtl_STO 1023 ≠ 0) ∧ (0 + standing.fld F.mbCtl_STO 1023 * 250 ≤ standing.tick)) := by
  (repeat' apply And.intro) <;> decide +kernel

theorem test_hypotheses_InterconnectGrantsByLevel :
    ((busy8.clocksOn = true) ∧ (8 ≤ busy8.icOut 18))
    ∧ ((on.clocksOn = true) ∧ (on.icOut 16 < 8))
    ∧ ((on.clocksOn = true) ∧ (on.cfld F.commit_PEND (Block.ic (18 : Fin 19)) = 0) ∧ (on.boot.gcTrig = []) ∧ ((on.icT 18).q = []))
    ∧ (((icq [rq 0 0]).clocksOn = true) ∧ ((icq [rq 0 0]).cfld F.commit_PEND (Block.ic (18 : Fin 19)) = 0) ∧ ((icq [rq 0 0]).boot.gcTrig = []) ∧ (((icq [rq 0 0]).icT 18).q = [rq 0 0]))
    ∧ ((icq2.clocksOn = true) ∧ (icq2.cfld F.commit_PEND (Block.ic (18 : Fin 19)) = 0) ∧ (icq2.boot.gcTrig = []) ∧ ((icq2.icT 18).q ≠ []))
    ∧ ((icOld.clocksOn = true) ∧ ((icOld.icT 18).q = [rq 18 0]) ∧ ((rq 18 0).i = 18) ∧ ((rq 18 0).flagged = false) ∧ (icOld.fld F.icStarv_LIMIT 18 ≠ 0) ∧ ((rq 18 0).t0 + icOld.fld F.icStarv_LIMIT 18 / 2 + 1 ≤ icOld.tick)) := by
  (repeat' apply And.intro) <;> decide +kernel

theorem test_hypotheses_RegionDoneCompletesTheSet :
    ((rgnS.heard (Who.vf (3 : Fin 15)) = true) ∧ (rgnS.applied = true) ∧ (rgnS.supervisor (Who.vf (3 : Fin 15)) = false ∧ rgnS.actsFor (Who.vf (3 : Fin 15)) (rgnS.fld F.mgCfg0_OWNER 63) = false ∨ rgnS.fnState (rgnS.fld F.mgCfg0_OWNER 63) = 3 ∨ rgnS.fnState (rgnS.fld F.mgCfg0_OWNER 63) = 1))
    ∧ ((rgnS.heard Who.pf = true) ∧ (rgnS.applied = true) ∧ (rgnS.supervisor Who.pf = true ∨ rgnS.actsFor Who.pf (rgnS.fld F.mgCfg0_OWNER 63) = true) ∧ (rgnS.fnState (rgnS.fld F.mgCfg0_OWNER 63) ≠ 3) ∧ (rgnS.fnState (rgnS.fld F.mgCfg0_OWNER 63) ≠ 1) ∧ (rgnS.fld F.mgCfg0_SIZE 63 ≠ 0) ∧ (rgnS.rgSrc 63 = 0) ∧ (rgnS.fld F.mgStat_NEW 63 = 0)) := by
  (repeat' apply And.intro) <;> decide +kernel

theorem test_hypotheses_InstantsFlipRegions_1 :
    ((cyc.clocksOn = true) ∧ (cyc.applied = true) ∧ (cyc.fld F.mgInst_CYC ≠ 0) ∧ (cyc.lastInst = none) ∧ ((toInstant cyc).lastInst = none))
    ∧ ((cyc1.clocksOn = true) ∧ (cyc1.applied = true) ∧ (cyc1.fld F.mgInst_CYC ≠ 0) ∧ ((toInstant cyc1).lastInst = some 0) ∧ (((toInstant cyc1).tick - 0) * 8 < (toInstant cyc1).fld F.mgInst_CYC))
    ∧ ((cyc2.clocksOn = true) ∧ (cyc2.applied = true) ∧ (cyc2.fld F.mgInst_CYC ≠ 0) ∧ ((toInstant cyc2).lastInst = some 0) ∧ ((toInstant cyc2).fld F.mgInst_CYC ≤ ((toInstant cyc2).tick - 0) * 8))
    ∧ (((rgnS.put F.mgStat_NEW 1 63).fld F.mgCfg0_SIZE 63 ≠ 0) ∧ ((rgnS.put F.mgStat_NEW 1 63).fld F.mgStat_NEW 63 ≠ 0))
    ∧ ((rgnS.fld F.mgCfg0_SIZE 63 ≠ 0) ∧ (rgnS.fld F.mgStat_NEW 63 = 0))
    ∧ ((rgnS.fld F.mgCfg0_SIZE 63 ≠ 0) ∧ ((0 : ℤ) ≤ Machine.sdiff 32 (7 + 2 ^ 32 - 1) ((flipRegion 7 63 rgnS).fld F.mgStat_TAG 63))) := by
  (repeat' apply And.intro) <;> decide +kernel

theorem test_hypotheses_InstantsFlipRegions_2 :
    (((rgnS.put F.mgStat_TAG 9 63).fld F.mgCfg0_SIZE 63 ≠ 0) ∧ (Machine.sdiff 32 (7 + 2 ^ 32 - 1) ((flipRegion 7 63 (rgnS.put F.mgStat_TAG 9 63)).fld F.mgStat_TAG 63) < (0 : ℤ)))
    ∧ ((cycR.clocksOn = true) ∧ (cycR.applied = true) ∧ (cycR.fld F.mgInst_CYC ≠ 0) ∧ ((toInstant cycR).lastInst = none) ∧ ((toInstant cycR).cfld F.commit_PEND Block.mg = 0) ∧ ((toInstant cycR).boot.gcInst = false) ∧ ((toInstant cycR).twOn = false)) := by
  (repeat' apply And.intro) <;> decide +kernel

theorem test_hypotheses_SubscriptionsFillTheWriteBuffer :
    ((on.clocksOn = true) ∧ (on.applied = true) ∧ ((etherType (List.replicate 60 255)).1 ≠ on.etype))
    ∧ ((subS.clocksOn = true) ∧ (subS.applied = true) ∧ (subS.etype ≠ 33024) ∧ (subS.etype < 65536) ∧ ((List.replicate 12 0).length = 12) ∧ (5 < 1024) ∧ (7 < 64) ∧ (9 < 2 ^ 32) ∧ ([11].length = subS.fld F.mgCfg0_SIZE 63) ∧ (1 ≤ [11].length) ∧ ([11].length ≤ 240) ∧ (subS.fld F.mgCfg0_BASE 63 + 3 * [11].length ≤ 131072) ∧ (subS.fld F.mgCfg0_TRIPLE 63 ≠ 0) ∧ (subS.rgSrc 63 = 2) ∧ (subS.fld F.mgCfg1_SSDN 63 = 5) ∧ (subS.fld F.mgCfg1_SRGN 63 = 7) ∧ (∀ j < 64, j ≠ 63 → subS.rgSrc j ≠ 2 ∨ subS.fld F.mgCfg1_SSDN j ≠ 5 ∨ subS.fld F.mgCfg1_SRGN j ≠ 7) ∧ (subS.fld F.mgStat_TV 63 ≠ 0 → (0 : ℤ) < Machine.sdiff 32 9 (subS.fld F.mgStat_TAG 63)) ∧ ((subS.rg 63).sub = none) ∧ ((subS.rg 63).write < 3) ∧ ((subS.rg 63).write ≠ (subS.rg 63).ready)) := by
  (repeat' apply And.intro) <;> decide +kernel

end W4

namespace W5

def ls (up hdx eee : Bool) : LinkState := ⟨up, 1, hdx, false, eee, true⟩

/-- Port 3 is copper, its link down. -/

def cu : State := ((on.put F.epCfg0_IF 1 3).put F.epCfg0_ADV 7 3).put F.epCfg2_MAXFRM 1518 3

/-- Its link is up at 100 Mb/s. -/

def cuUp : State := (cu.put F.epStat_LINK 1 3).put F.epStat_SPEED 1 3

def fr : YFrame := { bytes := List.replicate 60 1, cells := 1, chg := 0, cls := 0, src := .port 0, vid := 1, tagged := false, ts := {}, wake := false, left := 2 }

def tx : TxSt := ⟨7, 0, false, false, 0, 0, false⟩

def sending (x : TxSt) (f : YFrame) : State := (cuUp.setFrame 7 (some f)).setPort 3 { cuUp.port 3 with tx := some x }

def queued1 : State := (cuUp.setFrame 7 (some fr)).setQueue 3 0 [{ id := 7 }]

def eth (n typ op : Nat) : EthFrame := { fcsOk := true, bytes := List.replicate 12 0 ++ [BitVec.ofNat 8 (typ / 256), BitVec.ofNat 8 typ, BitVec.ofNat 8 (op / 256), BitVec.ofNat 8 op] ++ List.replicate (n - 16) 0 }

def pe : State := cuUp.put F.epCfg0_PREEMPT 1 3

def fg (n : Nat) (fc k : Fin 4) (first last : Bool) : EthFrame := { eth n 0x800 0 with frag := some ⟨first, last, fc, k⟩ }

def inParts : State := pe.setPort 3 { pe.port 3 with parts := some { frameCount := 2, next := 0, bytes := (eth 60 0x800 0).bytes, ts := {}, wake := false } }

def pz : State := cuUp.put F.epCfg0_PAUSEEN 1 3

def pzTx : State := (sending tx fr).put F.epCfg0_PAUSEEN 1 3

def spoilt : YFrame := { fr with lanes := [(4, sealW 5 ^^^ 3)] }

def launching : State := ((cuUp.setFrame 7 (some { fr with ltime := 5 })).setLaunch 3 [{ id := 7 }])

def launching1 : State := { launching with yard := { launching.yard with due := Tab.set 0 launching.yard.due 3 8 } }

def arr : YFrame := { fr with arriving := true }

def stp : TxStamp := ⟨false, false, 1, {}⟩

def half : State := (sending tx fr).put F.epStat_HDXA 1 3

def half15 : State := half.setPort 3 { half.port 3 with attempts := 15 }

def ver (k : Nat) : State := (cuUp.put F.epStat_PVS 1 3).setPort 3 { cuUp.port 3 with verifies := k, verAt := 0 }

def ver0 : State := ver 0

def verT (k : Nat) : State := { ver k with tick := 2500000 }

def big : YFrame := { fr with bytes := List.replicate 200 1, cells := 2 }

def txp : TxSt := ⟨7, 0, true, false, 0, 0, false⟩

def holdS : State := (sending txp big).setGate 3 { (sending txp big).gateS 3 with hold := true }

def ee : State := ((cuUp.put F.epCfg0_EEE 1 3).put F.epCfg2_LPIIDLE 1 3).setPort 3 { cuUp.port 3 with eee := true }

def eeIdle : State := { ee with tick := 250 }

def eeWork : State := (ee.setFrame 7 (some fr)).setQueue 3 0 [{ id := 7 }]

theorem test_hypotheses_LinksComeAndGo_1 :
    ((cu.linked) ∧ ((ls false false false).up = false) ∧ (cu.fld F.epStat_LINK 3 = 0))
    ∧ (((sending tx fr).linked) ∧ ((ls false false false).up = false) ∧ ((sending tx fr).fld F.epStat_LINK 3 ≠ 0))
    ∧ ((queued1.linked) ∧ ((ls false false false).up = false) ∧ (queued1.fld F.epStat_LINK 3 ≠ 0))
    ∧ (let s := ls true false true; (cu.linked) ∧ (s.up = true) ∧ (cu.fld F.epStat_LINK 3 = 0) ∧ (cu.epIf 3 ≠ 0) ∧ ((trainLeave (3) cu).1 = true) ∧ (cu.ifSpeed 3 ↑s.speed = true) ∧ ((if cu.epIf 3 ∈ [2, 3, 7] then cu.epOn F.epCfg0_HDX 3 else s.hdx) = true → cu.epOn F.epCfg0_HDX 3 = true ∧ cu.ifHalf 3 ↑s.speed = true) ∧ (cu.epIf 3 = 5 → (if cu.epIf 3 ∈ [2, 3, 7] then cu.epOn F.epCfg0_HDX 3 else s.hdx) = true → (3 : Fin 12) < (8 : Fin 12)))
    ∧ (let s := (cu.put F.epCfg0_HDX 1 3).put F.epCfg0_PREEMPT 1 3; let u := ls true true true; (s.linked) ∧ (u.up = true) ∧ (s.fld F.epStat_LINK 3 = 0) ∧ (s.epIf 3 ≠ 0) ∧ ((trainLeave (3) s).1 = true) ∧ (s.ifSpeed 3 ↑u.speed = true) ∧ ((if s.epIf 3 ∈ [2, 3, 7] then s.epOn F.epCfg0_HDX 3 else u.hdx) = true → s.epOn F.epCfg0_HDX 3 = true ∧ s.ifHalf 3 ↑u.speed = true) ∧ (s.epIf 3 = 5 → (if s.epIf 3 ∈ [2, 3, 7] then s.epOn F.epCfg0_HDX 3 else u.hdx) = true → (3 : Fin 12) < (8 : Fin 12)))
    ∧ (let s := (cu.put F.epCfg0_IF 2 3).put F.epCfg0_HDX 1 3; (s.linked) ∧ ((let __src := ls true false true; ({ up := __src.up, speed := (0 : Fin 8), hdx := __src.hdx, t1la := __src.t1la, eee := __src.eee, master := __src.master } : LinkState)).up = true) ∧ (s.fld F.epStat_LINK 3 = 0) ∧ (s.epIf 3 ≠ 0) ∧ ((trainLeave (3) s).1 = true) ∧ (s.ifSpeed 3 ↑(let __src := ls true false true; ({ up := __src.up, speed := (0 : Fin 8), hdx := __src.hdx, t1la := __src.t1la, eee := __src.eee, master := __src.master } : LinkState)).speed = true) ∧ ((if s.epIf 3 ∈ [2, 3, 7] then s.epOn F.epCfg0_HDX 3 else (let __src := ls true false true; ({ up := __src.up, speed := (0 : Fin 8), hdx := __src.hdx, t1la := __src.t1la, eee := __src.eee, master := __src.master } : LinkState)).hdx) = true → s.epOn F.epCfg0_HDX 3 = true ∧ s.ifHalf 3 ↑(let __src := ls true false true; ({ up := __src.up, speed := (0 : Fin 8), hdx := __src.hdx, t1la := __src.t1la, eee := __src.eee, master := __src.master } : LinkState)).speed = true) ∧ (s.epIf 3 = 5 → (if s.epIf 3 ∈ [2, 3, 7] then s.epOn F.epCfg0_HDX 3 else (let __src := ls true false true; ({ up := __src.up, speed := (0 : Fin 8), hdx := __src.hdx, t1la := __src.t1la, eee := __src.eee, master := __src.master } : LinkState)).hdx) = true → (3 : Fin 12) < (8 : Fin 12))) := by
  (repeat' apply And.intro) <;> decide +kernel

theorem test_hypotheses_LinksComeAndGo_2 :
    (let s := (cu.put F.epCfg0_IF 5 5).put F.ckCfg0_LANEEN 2; (s.linked) ∧ ((ls true true false).up = true) ∧ (s.fld F.epStat_LINK 5 = 0) ∧ (s.epIf 5 = 5) ∧ ((trainLeave (5) s).1 = true) ∧ ((ls true true false).hdx = true) ∧ (s.epOn F.epCfg0_HDX 5 = false))
    ∧ (((cu.put F.epCfg0_IF 5 5).linked) ∧ ((ls true true false).up = true) ∧ ((cu.put F.epCfg0_IF 5 5).fld F.epStat_LINK 5 = 0) ∧ ((cu.put F.epCfg0_IF 5 5).epIf 5 = 0))
    ∧ (let s := cu.put F.pwOctl_CAP 0; (s.linked) ∧ ((ls true false true).up = true) ∧ (s.fld F.epStat_LINK 3 = 0) ∧ (s.epIf 3 ≠ 0) ∧ ((trainLeave (3) s).1 = false)) := by
  (repeat' apply And.intro) <;> decide +kernel

theorem test_hypotheses_ReceivedFramesAreCheckedAndCounted_1 :
    ((cu.linked) ∧ (cu.fld F.epStat_LINK 3 = 0))
    ∧ ((cuUp.linked) ∧ (cuUp.fld F.epStat_LINK 3 ≠ 0) ∧ (({ bytes := List.replicate 59 0, fcsOk := false } : EthFrame).frag = none) ∧ ((cuUp.port 3).arriving = none) ∧ (({ bytes := List.replicate 59 0, fcsOk := false } : EthFrame).fcsOk = false))
    ∧ ((cuUp.linked) ∧ (cuUp.fld F.epStat_LINK 3 ≠ 0) ∧ ((eth 59 2048 0).frag = none) ∧ ((cuUp.port 3).arriving = none) ∧ ((eth 59 2048 0).fcsOk = true) ∧ ((eth 59 2048 0).bytes.length + 4 < 64 ∨ cuUp.maxFrm 3 < (eth 59 2048 0).bytes.length + 4))
    ∧ ((cuUp.linked) ∧ (cuUp.fld F.epStat_LINK 3 ≠ 0) ∧ ((eth 1515 2048 0).frag = none) ∧ ((cuUp.port 3).arriving = none) ∧ ((eth 1515 2048 0).fcsOk = true) ∧ ((eth 1515 2048 0).bytes.length + 4 < 64 ∨ cuUp.maxFrm 3 < (eth 1515 2048 0).bytes.length + 4))
    ∧ (let s := eth 60 34824 2; (cuUp.linked) ∧ (cuUp.fld F.epStat_LINK 3 ≠ 0) ∧ (s.frag = none) ∧ ((cuUp.port 3).arriving = none) ∧ (s.fcsOk = true) ∧ (64 ≤ s.bytes.length + 4) ∧ (s.bytes.length + 4 ≤ cuUp.maxFrm 3) ∧ (at16 s.bytes 12 = 34824) ∧ (at16 s.bytes 14 ≠ 1))
    ∧ (let s := eth 1514 2048 0; (cuUp.linked) ∧ (cuUp.fld F.epStat_LINK 3 ≠ 0) ∧ (s.frag = none) ∧ ((cuUp.port 3).arriving = none) ∧ (s.fcsOk = true) ∧ (64 ≤ s.bytes.length + 4) ∧ (s.bytes.length + 4 ≤ cuUp.maxFrm 3) ∧ (at16 s.bytes 12 ≠ 34824) ∧ (cuUp.relayIn 3 = false) ∧ (cuUp.fld F.twCfg0_EN = 0)) := by
  (repeat' apply And.intro) <;> decide +kernel

theorem test_hypotheses_ReceivedFramesAreCheckedAndCounted_2 :
    ((cuUp.linked) ∧ (cuUp.fld F.epStat_LINK 3 ≠ 0) ∧ ((fg 60 (2 : Fin 4) (0 : Fin 4) true false).frag = some ({ first := true, last := false, frameCount := (2 : Fin 4), fragCount := (0 : Fin 4) } : Frag)) ∧ (cuUp.epOn F.epCfg0_PREEMPT 3 = false))
    ∧ ((pe.linked) ∧ (pe.fld F.epStat_LINK 3 ≠ 0) ∧ ((fg 60 (2 : Fin 4) (0 : Fin 4) true false).frag = some ({ first := true, last := false, frameCount := (2 : Fin 4), fragCount := (0 : Fin 4) } : Frag)) ∧ (pe.epOn F.epCfg0_PREEMPT 3 = true) ∧ (({ first := true, last := false, frameCount := (2 : Fin 4), fragCount := (0 : Fin 4) } : Frag).first = true) ∧ (({ first := true, last := false, frameCount := (2 : Fin 4), fragCount := (0 : Fin 4) } : Frag).last = false) ∧ ((fg 60 (2 : Fin 4) (0 : Fin 4) true false).fcsOk = true) ∧ ((pe.port 3).parts = none))
    ∧ ((inParts.linked) ∧ (inParts.fld F.epStat_LINK 3 ≠ 0) ∧ ((fg 60 (2 : Fin 4) (1 : Fin 4) false false).frag = some ({ first := false, last := false, frameCount := (2 : Fin 4), fragCount := (1 : Fin 4) } : Frag)) ∧ (inParts.epOn F.epCfg0_PREEMPT 3 = true) ∧ (({ first := false, last := false, frameCount := (2 : Fin 4), fragCount := (1 : Fin 4) } : Frag).first = false) ∧ ((inParts.port 3).parts = some ({ frameCount := 2, next := 0, bytes := (eth 60 2048 0).bytes, ts := { }, wake := false } : Parts)) ∧ ((inParts.port 3).arriving = none) ∧ (({ frameCount := 2, next := 0, bytes := (eth 60 2048 0).bytes, ts := { }, wake := false } : Parts).next ≠ ↑({ first := false, last := false, frameCount := (2 : Fin 4), fragCount := (1 : Fin 4) } : Frag).fragCount))
    ∧ ((inParts.linked) ∧ (inParts.fld F.epStat_LINK 3 ≠ 0) ∧ ((fg 60 (2 : Fin 4) (0 : Fin 4) false false).frag = some ({ first := false, last := false, frameCount := (2 : Fin 4), fragCount := (0 : Fin 4) } : Frag)) ∧ (inParts.epOn F.epCfg0_PREEMPT 3 = true) ∧ (({ first := false, last := false, frameCount := (2 : Fin 4), fragCount := (0 : Fin 4) } : Frag).first = false) ∧ ((inParts.port 3).parts = some ({ frameCount := 2, next := 0, bytes := (eth 60 2048 0).bytes, ts := { }, wake := false } : Parts)) ∧ ((inParts.port 3).arriving = none) ∧ (({ frameCount := 2, next := 0, bytes := (eth 60 2048 0).bytes, ts := { }, wake := false } : Parts).frameCount = ↑({ first := false, last := false, frameCount := (2 : Fin 4), fragCount := (0 : Fin 4) } : Frag).frameCount) ∧ (({ frameCount := 2, next := 0, bytes := (eth 60 2048 0).bytes, ts := { }, wake := false } : Parts).next = ↑({ first := false, last := false, frameCount := (2 : Fin 4), fragCount := (0 : Fin 4) } : Frag).fragCount) ∧ (({ first := false, last := false, frameCount := (2 : Fin 4), fragCount := (0 : Fin 4) } : Frag).last = false) ∧ ((fg 60 (2 : Fin 4) (0 : Fin 4) false false).fcsOk = true))
    ∧ (let s := (({ frameCount := 2, next := 0, bytes := (eth 60 2048 0).bytes, ts := { }, wake := false } : Parts).bytes ++ (fg 60 (2 : Fin 4) (0 : Fin 4) false true).bytes); (inParts.linked) ∧ (inParts.fld F.epStat_LINK 3 ≠ 0) ∧ ((fg 60 (2 : Fin 4) (0 : Fin 4) false true).frag = some ({ first := false, last := true, frameCount := (2 : Fin 4), fragCount := (0 : Fin 4) } : Frag)) ∧ (inParts.epOn F.epCfg0_PREEMPT 3 = true) ∧ (({ first := false, last := true, frameCount := (2 : Fin 4), fragCount := (0 : Fin 4) } : Frag).first = false) ∧ ((inParts.port 3).parts = some ({ frameCount := 2, next := 0, bytes := (eth 60 2048 0).bytes, ts := { }, wake := false } : Parts)) ∧ ((inParts.port 3).arriving = none) ∧ (({ frameCount := 2, next := 0, bytes := (eth 60 2048 0).bytes, ts := { }, wake := false } : Parts).frameCount = ↑({ first := false, last := true, frameCount := (2 : Fin 4), fragCount := (0 : Fin 4) } : Frag).frameCount) ∧ (({ frameCount := 2, next := 0, bytes := (eth 60 2048 0).bytes, ts := { }, wake := false } : Parts).next = ↑({ first := false, last := true, frameCount := (2 : Fin 4), fragCount := (0 : Fin 4) } : Frag).fragCount) ∧ (({ first := false, last := true, frameCount := (2 : Fin 4), fragCount := (0 : Fin 4) } : Frag).last = true) ∧ ((fg 60 (2 : Fin 4) (0 : Fin 4) false true).fcsOk = true) ∧ (60 ≤ s.length) ∧ (s.length + 4 ≤ inParts.maxFrm 3) ∧ (at16 s 12 ≠ 34824) ∧ (inParts.relayIn 3 = false) ∧ (inParts.fld F.twCfg0_EN = 0)) := by
  (repeat' apply And.intro) <;> decide +kernel

theorem test_hypotheses_PauseStopsTransmission :
    ((cuUp.linked) ∧ (cuUp.fld F.epStat_LINK 3 ≠ 0) ∧ (cuUp.epFld F.epCfg0_PAUSEEN 3 = 0 ∨ cuUp.fld F.epStat_HDXA 3 ≠ 0))
    ∧ ((pz.linked) ∧ (pz.fld F.epStat_LINK 3 ≠ 0) ∧ (pz.epFld F.epCfg0_PAUSEEN 3 ≠ 0) ∧ (pz.fld F.epStat_HDXA 3 = 0) ∧ (0 = 0))
    ∧ (let s := pz.put F.epStat_PAUSED 1 3; (s.linked) ∧ (s.fld F.epStat_LINK 3 ≠ 0) ∧ (s.epFld F.epCfg0_PAUSEEN 3 ≠ 0) ∧ (s.fld F.epStat_HDXA 3 = 0) ∧ (1 ≠ 0) ∧ (s.fld F.epStat_PAUSED 3 ≠ 0))
    ∧ ((pz.linked) ∧ (pz.fld F.epStat_LINK 3 ≠ 0) ∧ (pz.epFld F.epCfg0_PAUSEEN 3 ≠ 0) ∧ (pz.fld F.epStat_HDXA 3 = 0) ∧ (65535 ≠ 0) ∧ (pz.fld F.epStat_PAUSED 3 = 0) ∧ ((pz.port 3).tx = none) ∧ ((pz.port 3).held = none))
    ∧ ((pzTx.linked) ∧ (pzTx.fld F.epStat_LINK 3 ≠ 0) ∧ (pzTx.epFld F.epCfg0_PAUSEEN 3 ≠ 0) ∧ (pzTx.fld F.epStat_HDXA 3 = 0) ∧ (65535 ≠ 0) ∧ (pzTx.fld F.epStat_PAUSED 3 = 0) ∧ ((pzTx.port 3).tx ≠ none))
    ∧ (((pz.setPort 3 (let __src := pz.port 3; ({ tx := __src.tx, held := __src.held, attempts := __src.attempts, backoff := __src.backoff, lfsr := __src.lfsr, pauseWait := __src.pauseWait, pauseEnd := some 0, verifies := __src.verifies, verAt := __src.verAt, rxWakeAt := __src.rxWakeAt, txWakeAt := __src.txWakeAt, idleFrom := __src.idleFrom, eee := __src.eee, stamps := __src.stamps, arriving := __src.arriving, parts := __src.parts, master := __src.master, cals := __src.cals } : PortS))).linked) ∧ (((pz.setPort 3 (let __src := pz.port 3; ({ tx := __src.tx, held := __src.held, attempts := __src.attempts, backoff := __src.backoff, lfsr := __src.lfsr, pauseWait := __src.pauseWait, pauseEnd := some 0, verifies := __src.verifies, verAt := __src.verAt, rxWakeAt := __src.rxWakeAt, txWakeAt := __src.txWakeAt, idleFrom := __src.idleFrom, eee := __src.eee, stamps := __src.stamps, arriving := __src.arriving, parts := __src.parts, master := __src.master, cals := __src.cals } : PortS))).port 3).pauseEnd = some 0) ∧ (0 ≤ (pz.setPort 3 (let __src := pz.port 3; ({ tx := __src.tx, held := __src.held, attempts := __src.attempts, backoff := __src.backoff, lfsr := __src.lfsr, pauseWait := __src.pauseWait, pauseEnd := some 0, verifies := __src.verifies, verAt := __src.verAt, rxWakeAt := __src.rxWakeAt, txWakeAt := __src.txWakeAt, idleFrom := __src.idleFrom, eee := __src.eee, stamps := __src.stamps, arriving := __src.arriving, parts := __src.parts, master := __src.master, cals := __src.cals } : PortS))).tick)) := by
  (repeat' apply And.intro) <;> decide +kernel

theorem test_hypotheses_FramesAreSentWhole_1 :
    ((cu.linked) ∧ (cu.fld F.epStat_LINK 3 = 0))
    ∧ (((sending tx fr).linked) ∧ ((sending tx fr).fld F.epStat_LINK 3 ≠ 0) ∧ (dropUnfit (3) (sending tx fr) = sending tx fr) ∧ (((sending tx fr).port 3).tx ≠ none ∨ (sending tx fr).fld F.epStat_PAUSED 3 ≠ 0 ∨ (sending tx fr).fld F.epStat_LPITX 3 ≠ 0 ∨ ((sending tx fr).port 3).backoff ≠ none))
    ∧ ((queued1.linked) ∧ (queued1.fld F.epStat_LINK 3 ≠ 0) ∧ (dropUnfit (3) queued1 = queued1) ∧ ((queued1.port 3).tx = none) ∧ (queued1.fld F.epStat_PAUSED 3 = 0) ∧ (queued1.fld F.epStat_LPITX 3 = 0) ∧ ((queued1.port 3).backoff = none) ∧ ((queued1.port 3).pauseWait = none) ∧ (queued1.pick 3 64 = some (0, ({ id := 7 } : QEnt), false)))
    ∧ (((sending tx fr).linked) ∧ (((sending tx fr).port 3).tx = some tx) ∧ (((sending tx fr).port 3).backoff = none) ∧ ((sending tx fr).frame tx.id = some fr) ∧ (fr.arriving = false) ∧ (fr.tsr = false) ∧ (2 ≤ fr.left) ∧ (fr.ctBad = false) ∧ (fr.badFrom = none))
    ∧ (let s := sending tx spoilt; (s.linked) ∧ ((s.port 3).tx = some tx) ∧ ((s.port 3).backoff = none) ∧ (s.frame tx.id = some spoilt) ∧ (spoilt.arriving = false) ∧ (spoilt.tsr = false) ∧ (2 ≤ spoilt.left) ∧ (spoilt.badFrom = some 24) ∧ (s.untags (3) spoilt = false) ∧ (s.rppOf 3 = none) ∧ (24 = 24))
    ∧ ((launching1.linked) ∧ (launching1.fld F.epStat_LINK 3 ≠ 0) ∧ (dropUnfit (3) launching1 = launching1) ∧ ((launching1.port 3).tx = none) ∧ (launching1.fld F.epStat_PAUSED 3 = 0) ∧ (launching1.fld F.epStat_LPITX 3 = 0) ∧ ((launching1.port 3).backoff = none) ∧ ((launching1.port 3).pauseWait = none) ∧ (launching1.pick 3 64 = some (0, ({ id := 7 } : QEnt), true))) := by
  (repeat' apply And.intro) <;> decide +kernel

theorem test_hypotheses_FramesAreSentWhole_2 :
    (((sending tx arr).linked) ∧ (((sending tx arr).port 3).tx = some tx) ∧ ((sending tx arr).frame tx.id = some arr) ∧ (arr.arriving = true) ∧ (arr.tsr = false) ∧ (2 ≤ arr.left))
    ∧ (((cuUp.setPort 3 (let __src := cuUp.port 3; ({ tx := __src.tx, held := __src.held, attempts := __src.attempts, backoff := __src.backoff, lfsr := __src.lfsr, pauseWait := __src.pauseWait, pauseEnd := __src.pauseEnd, verifies := __src.verifies, verAt := __src.verAt, rxWakeAt := __src.rxWakeAt, txWakeAt := __src.txWakeAt, idleFrom := __src.idleFrom, eee := __src.eee, stamps := [stp], arriving := __src.arriving, parts := __src.parts, master := __src.master, cals := __src.cals } : PortS))).linked) ∧ ((cuUp.setPort 3 (let __src := cuUp.port 3; ({ tx := __src.tx, held := __src.held, attempts := __src.attempts, backoff := __src.backoff, lfsr := __src.lfsr, pauseWait := __src.pauseWait, pauseEnd := __src.pauseEnd, verifies := __src.verifies, verAt := __src.verAt, rxWakeAt := __src.rxWakeAt, txWakeAt := __src.txWakeAt, idleFrom := __src.idleFrom, eee := __src.eee, stamps := [stp], arriving := __src.arriving, parts := __src.parts, master := __src.master, cals := __src.cals } : PortS))).heard Who.mgmt = true) ∧ ((cuUp.setPort 3 (let __src := cuUp.port 3; ({ tx := __src.tx, held := __src.held, attempts := __src.attempts, backoff := __src.backoff, lfsr := __src.lfsr, pauseWait := __src.pauseWait, pauseEnd := __src.pauseEnd, verifies := __src.verifies, verAt := __src.verAt, rxWakeAt := __src.rxWakeAt, txWakeAt := __src.txWakeAt, idleFrom := __src.idleFrom, eee := __src.eee, stamps := [stp], arriving := __src.arriving, parts := __src.parts, master := __src.master, cals := __src.cals } : PortS))).supervisor Who.mgmt = true) ∧ (∀ (e : Fin 128), Who.mgmt ≠ Who.engine e) ∧ (((cuUp.setPort 3 (let __src := cuUp.port 3; ({ tx := __src.tx, held := __src.held, attempts := __src.attempts, backoff := __src.backoff, lfsr := __src.lfsr, pauseWait := __src.pauseWait, pauseEnd := __src.pauseEnd, verifies := __src.verifies, verAt := __src.verAt, rxWakeAt := __src.rxWakeAt, txWakeAt := __src.txWakeAt, idleFrom := __src.idleFrom, eee := __src.eee, stamps := [stp], arriving := __src.arriving, parts := __src.parts, master := __src.master, cals := __src.cals } : PortS))).port 3).stamps = [stp]))
    ∧ ((queued1.linked) ∧ (Tab.get 0 queued1.yard.due 3 = 0))
    ∧ ((launching1.linked) ∧ (Tab.get 0 launching1.yard.due 3 ≠ 0)) := by
  (repeat' apply And.intro) <;> decide +kernel

theorem test_hypotheses_CollisionsBackOff :
    (((sending tx fr).linked) ∧ (((sending tx fr).port 3).tx = some tx) ∧ ((sending tx fr).fld F.epStat_HDXA 3 = 0))
    ∧ ((half.linked) ∧ ((half.port 3).tx = some tx) ∧ (half.fld F.epStat_HDXA 3 ≠ 0) ∧ ((half.port 3).backoff = none))
    ∧ ((half.linked) ∧ ((half.port 3).tx = some tx) ∧ (half.fld F.epStat_HDXA 3 ≠ 0) ∧ ((half.port 3).backoff = none) ∧ ((half.port 3).attempts < 15))
    ∧ ((half15.linked) ∧ ((half15.port 3).tx = some tx) ∧ (half15.fld F.epStat_HDXA 3 ≠ 0) ∧ ((half15.port 3).backoff = none) ∧ (15 ≤ (half15.port 3).attempts))
    ∧ ((half.linked) ∧ ((half.port 3).tx = some tx) ∧ (half.fld F.epStat_HDXA 3 ≠ 0) ∧ ((half.port 3).backoff = none))
    ∧ (((half.setPort 3 (let __src := half.port 3; ({ tx := __src.tx, held := __src.held, attempts := __src.attempts, backoff := some 0, lfsr := __src.lfsr, pauseWait := __src.pauseWait, pauseEnd := __src.pauseEnd, verifies := __src.verifies, verAt := __src.verAt, rxWakeAt := __src.rxWakeAt, txWakeAt := __src.txWakeAt, idleFrom := __src.idleFrom, eee := __src.eee, stamps := __src.stamps, arriving := __src.arriving, parts := __src.parts, master := __src.master, cals := __src.cals } : PortS))).linked) ∧ (((half.setPort 3 (let __src := half.port 3; ({ tx := __src.tx, held := __src.held, attempts := __src.attempts, backoff := some 0, lfsr := __src.lfsr, pauseWait := __src.pauseWait, pauseEnd := __src.pauseEnd, verifies := __src.verifies, verAt := __src.verAt, rxWakeAt := __src.rxWakeAt, txWakeAt := __src.txWakeAt, idleFrom := __src.idleFrom, eee := __src.eee, stamps := __src.stamps, arriving := __src.arriving, parts := __src.parts, master := __src.master, cals := __src.cals } : PortS))).port 3).tx = some tx) ∧ (((half.setPort 3 (let __src := half.port 3; ({ tx := __src.tx, held := __src.held, attempts := __src.attempts, backoff := some 0, lfsr := __src.lfsr, pauseWait := __src.pauseWait, pauseEnd := __src.pauseEnd, verifies := __src.verifies, verAt := __src.verAt, rxWakeAt := __src.rxWakeAt, txWakeAt := __src.txWakeAt, idleFrom := __src.idleFrom, eee := __src.eee, stamps := __src.stamps, arriving := __src.arriving, parts := __src.parts, master := __src.master, cals := __src.cals } : PortS))).port 3).backoff = some 0) ∧ (0 ≤ (half.setPort 3 (let __src := half.port 3; ({ tx := __src.tx, held := __src.held, attempts := __src.attempts, backoff := some 0, lfsr := __src.lfsr, pauseWait := __src.pauseWait, pauseEnd := __src.pauseEnd, verifies := __src.verifies, verAt := __src.verAt, rxWakeAt := __src.rxWakeAt, txWakeAt := __src.txWakeAt, idleFrom := __src.idleFrom, eee := __src.eee, stamps := __src.stamps, arriving := __src.arriving, parts := __src.parts, master := __src.master, cals := __src.cals } : PortS))).tick)) := by
  (repeat' apply And.intro) <;> decide +kernel

theorem test_hypotheses_PreemptionIsVerified_1 :
    ((cuUp.linked) ∧ (cuUp.fld F.epStat_PVS 3 ≠ 1))
    ∧ ((ver0.linked) ∧ (ver0.fld F.epStat_PVS 3 = 1))
    ∧ (((verT 2).linked) ∧ ((verT 2).fld F.epStat_PVS 3 = 1) ∧ (((verT 2).port 3).verifies = 0 ∨ ((verT 2).port 3).verAt + 2500000 ≤ (verT 2).tick) ∧ (((verT 2).port 3).verifies < 3))
    ∧ (((verT 3).linked) ∧ ((verT 3).fld F.epStat_PVS 3 = 1) ∧ (((verT 3).port 3).verifies = 0 ∨ ((verT 3).port 3).verAt + 2500000 ≤ (verT 3).tick) ∧ (3 ≤ ((verT 3).port 3).verifies))
    ∧ (let s := sending txp big; (s.linked) ∧ ((s.port 3).tx = some txp) ∧ (s.frame txp.id = some big) ∧ (txp.pre = false ∨ 59 < txp.sent + 64 * (s.fld F.epCfg0_ADDFRAG 3 + 1) - 4 ∨ s.egressLen (3) big + 4 < 59 + 64))
    ∧ ((holdS.linked) ∧ ((holdS.port 3).tx = some txp) ∧ (holdS.frame txp.id = some big) ∧ (txp.pre = true) ∧ (txp.sent + 64 * (holdS.fld F.epCfg0_ADDFRAG 3 + 1) - 4 ≤ 60) ∧ (60 + 64 ≤ holdS.egressLen (3) big + 4) ∧ ((holdS.setPort (3) (have __src := holdS.port 3; ({ held := some txp, attempts := __src.attempts, backoff := __src.backoff, lfsr := __src.lfsr, pauseWait := __src.pauseWait, pauseEnd := __src.pauseEnd, verifies := __src.verifies, verAt := __src.verAt, rxWakeAt := __src.rxWakeAt, txWakeAt := __src.txWakeAt, idleFrom := __src.idleFrom, eee := __src.eee, stamps := __src.stamps, arriving := __src.arriving, parts := __src.parts, master := __src.master, cals := __src.cals } : PortS))).expressWaits 3 0 = true)) := by
  (repeat' apply And.intro) <;> decide +kernel

theorem test_hypotheses_PreemptionIsVerified_2 :
    ((holdS.linked) ∧ ((holdS.port 3).tx = some txp) ∧ (holdS.frame txp.id = some big) ∧ (txp.pre = true) ∧ (txp.sent + 64 * (holdS.fld F.epCfg0_ADDFRAG 3 + 1) - 4 ≤ 140) ∧ (140 + 64 ≤ holdS.egressLen (3) big + 4) ∧ ((holdS.setPort (3) (have __src := holdS.port 3; ({ held := some txp, attempts := __src.attempts, backoff := __src.backoff, lfsr := __src.lfsr, pauseWait := __src.pauseWait, pauseEnd := __src.pauseEnd, verifies := __src.verifies, verAt := __src.verAt, rxWakeAt := __src.rxWakeAt, txWakeAt := __src.txWakeAt, idleFrom := __src.idleFrom, eee := __src.eee, stamps := __src.stamps, arriving := __src.arriving, parts := __src.parts, master := __src.master, cals := __src.cals } : PortS))).expressWaits 3 0 = true)) := by
  (repeat' apply And.intro) <;> decide +kernel

theorem test_hypotheses_LowPowerIdleFollowsTheWork_1 :
    ((cuUp.linked) ∧ (cuUp.lpiUse 3 = false))
    ∧ ((eeIdle.linked) ∧ (eeIdle.lpiUse 3 = true) ∧ (eeIdle.hasWork 3 = false) ∧ (eeIdle.fld F.epStat_LPITX 3 = 0) ∧ (eeIdle.fld F.pwPstat_STATE = 2 ∨ (eeIdle.port 3).idleFrom + eeIdle.fld F.epCfg2_LPIIDLE 3 * 250 ≤ eeIdle.tick))
    ∧ ((eeWork.linked) ∧ (eeWork.hasWork 3 = true))
    ∧ (((eeWork.put F.epStat_LPITX 1 3).linked) ∧ ((eeWork.put F.epStat_LPITX 1 3).hasWork 3 = true) ∧ ((eeWork.put F.epStat_LPITX 1 3).fld F.epStat_LPITX 3 ≠ 0))
    ∧ ((ee.linked) ∧ (ee.hasWork 3 = false))
    ∧ ((ee.linked) ∧ (ee.lpiUse 3 = true)) := by
  (repeat' apply And.intro) <;> decide +kernel

theorem test_hypotheses_LowPowerIdleFollowsTheWork_2 :
    (((ee.put F.epStat_LPIRX 1 3).linked) ∧ ((ee.put F.epStat_LPIRX 1 3).lpiUse 3 = true) ∧ ((ee.put F.epStat_LPIRX 1 3).fld F.epStat_LPIRX 3 ≠ 0)) := by
  (repeat' apply And.intro) <;> decide +kernel

end W5

namespace W6

def dst : Nat := 0x020202020202

def bytes60 : List Byte := List.replicate 60 2

def it0 : RxItem := { p := 0, bytes := bytes60, ts := {}, wake := false }

/-- Ports 0, 1, 12 and 16 are known and carry VLAN 1. -/

def sw : State :=
  let s := { on with yard := { on.yard with known := [0, 1, 12, 16] } }
  let s := ([0, 1, 12, 16] : List Nat).foldl (fun s p => s.put F.ydPcfg_PVID 1 p) s
  let s := ((s.put F.ydVlan_VALID 1 1).put F.ydVlan_MEMBER 3 1).put F.fnQuota_CELLS 100 0
  (s.put F.epStat_LINK 1 0).put F.epStat_LINK 1 1

def swIn : State := { sw with yard := { sw.yard with inbox := [it0] } }

def entry (mask : Nat) : AtEnt := { mac := dst, vid := 1, static := false, dlv := false, fn := 0, pmask := mask, fresh := 0 }

def swTo (mask : Nat) : State := { swIn with yard := { swIn.yard with table := [entry mask] } }

def swNo : State := swIn.put F.ydVlan_VALID 0 1

def dl : YFrame := { bytes := bytes60, cells := 1, chg := 0, cls := 0, src := .port 0, vid := 1, tagged := false, ts := {}, wake := false, left := 2 }

def dlW : YFrame := { dl with src := .eng 0 0x100 0 0, w0 := wd (2 * 2 ^ 37) }

def dv (x : YFrame) (st kind : Nat) : State :=
  let s := (sw.setFrame 7 (some x)).setQueue 12 0 [{ id := 7, f := some 5 }]
  let s := ((s.put F.fnStatus_STATE st 5).put F.ydFrx0_KIND kind 5).put F.ydFrx0_BASE 0x40 5
  ((s.put F.ydFrx0_SLOTW 1 5).put F.ydFrx0_NSLOT 2 5).put F.stBank_OWNER 5 0 0

def dlU : YFrame := { dl with lanes := [(4, sealW 5 ^^^ 3)] }

def dvT : State := after (.frameDeliver 7 5) (dv dl 2 1)

def dW0 : Word := wd (1 * 2 ^ 37 + 60 * 2 ^ 21)

def dW1 : Word := 1

def dData : List Word := packWords bytes60

def dsc : State := ((List.range 10).foldl (fun s i => memWrite (loftPlace 0 (0x200 + i)) (dData.getD i 0) s)
  (memWrite (loftPlace 0 0x100) dW0 (memWrite (loftPlace 0 0x101) dW1 (memWrite (loftPlace 0 0x103) 0x200 sw))))

def ring3 : State := (on.put F.ydHtxptr_LOGN 1 3).put F.fnCfg_VF 15 7

def hd : HostDesc := ⟨0, wd (7 * 2 ^ 39), 0, 0, []⟩

def ring5 : State := ((sw.put F.ydHtxptr_LOGN 1 3).put F.fnCfg_VF 3 7 |>.put F.fnStatus_STATE 2 7 |>.put F.fnQuota_CELLS 100 7)

def hd5 : HostDesc := ⟨dW0, wd (7 * 2 ^ 39 + 1), 0, 0, bytes60⟩

def cp (x : YFrame) : State := ((sw.setFrame 7 (some x)).setQueue 1 0 [{ id := 7 }]).put F.ydStat_FREE 16383

def cx : YFrame := { dl with src := .eng 0 0x100 0 0, w0 := setW0 dW0 0 1 0, left := 1, arriving := true }

def cxp : YFrame := { cx with pois := true }

def cx0 : YFrame := { cx with left := 0, sent := true, arriving := false, copied := true }

def cpT (c : Instr) (x : YFrame) : State := after c (cp x)

def owed : State := { on with host := { on.host with pcieUp := true, msixEn := 0x8000, unmasked := [2047] }, yard := { on.yard with owed := [2047] } }

def atc (op : Nat) (t : List AtEnt) : State := { ((sw.put F.ydAtkey_MAC dst).put F.ydAtdata_VID 1).put F.ydAtdata_PMASK 2 with yard := { sw.yard with cmd := some (op, 0), table := t } }

def aging : State := { (swTo 2).put F.ydCfg_AGETIME 1 with tick := 250000000 }

def gcl : State := ((((sw.put F.ydGctl_PEND 1 16).put F.ydGctl_LEN 2 16).put F.ydGcl_GATES 5 16 0).put F.ydGcl_INTERVAL 1000 16 0).put F.ydGcyc_CYC 62500 16

def gop (k : Nat) : State := sw.setGate 16 { oper := [(1, 0, 1000), (2, 1, 1000)], cyc := 62500, gates := 1, idx := k }

def lqd (lt now : Nat) : State := ((sw.setFrame 7 (some { dl with ltime := lt })).setLaunch 11 [{ id := 7 }]).setCtr 0 { ns := now }

def sub1 : State := after (.yardSubmit (.engine 0) 0 0x100) dsc

def bad5 (x : Stored) : State := on.setRaw (.loft 0 5) (sealW 5 ^^^ x)

theorem test_hypotheses_YardFiltersAndForwards :
    ((sw.linked) ∧ (sw.halter = false) ∧ (sw.rpps = []) ∧ (sw.yard.inbox = []))
    ∧ ((swNo.linked) ∧ (swNo.halter = false) ∧ (swNo.rpps = []) ∧ (swNo.yard.inbox = [it0]) ∧ (it0.p = 0) ∧ (swNo.classify (0) it0.bytes = none))
    ∧ (((swTo 1).linked) ∧ ((swTo 1).halter = false) ∧ ((swTo 1).rpps = []) ∧ ((swTo 1).yard.inbox = [it0]) ∧ (it0.p = 0) ∧ ((swTo 1).classify (0) it0.bytes = some (1, 0, false)) ∧ ((swTo 1).fld F.ydPcfg_LEARN 0 = 0) ∧ ((swTo 1).atFind (dstOf it0.bytes) 1 = some (entry 1)) ∧ ((entry 1).dlv = false) ∧ (0 < 12) ∧ ((entry 1).pmask = 2 ^ 0) ∧ (0 = 0))
    ∧ (((swTo 2).linked) ∧ ((swTo 2).halter = false) ∧ ((swTo 2).rpps = []) ∧ ((swTo 2).yard.inbox = [it0]) ∧ (it0.p = 0) ∧ ((swTo 2).classify (0) it0.bytes = some (1, 0, false)) ∧ ((swTo 2).fld F.ydPcfg_LEARN 0 = 0) ∧ ((swTo 2).atFind (dstOf it0.bytes) 1 = some (entry 2)) ∧ ((entry 2).dlv = false) ∧ (1 < 12) ∧ ((entry 2).pmask = 2 ^ 1) ∧ (1 ≠ 0) ∧ ((swTo 2).admits 1 ((swTo 2).classOf 0 0) ((swTo 2).fld F.ydPcfg_CHGFN 0) 1 it0.bytes)) := by
  (repeat' apply And.intro) <;> decide +kernel

theorem test_hypotheses_FramesAreDelivered :
    (((dv dlU 2 0).clocksOn = true) ∧ ((dv dlU 2 0).applied = true) ∧ (12 ≤ 12) ∧ (12 ≤ 16) ∧ (∀ (p' : ℕ), 12 ≤ p' → p' ≤ 16 → dropUnfit p' (dv dlU 2 0) = dv dlU 2 0) ∧ ((dv dlU 2 0).nextOf 12 = some (0, ({ id := 7, f := some 5 } : QEnt))) ∧ (∀ (p' : ℕ), 12 ≤ p' → p' < 12 → ∀ (c' : ℕ) (y : QEnt), (dv dlU 2 0).nextOf p' = some (c', y) → y.id ≠ 7) ∧ ((dv dlU 2 0).frame 7 = some dlU) ∧ (dlU.arriving = false) ∧ (dlU.ctBad = false) ∧ (2 ≤ dlU.left) ∧ ((dv dlU 2 0).fnState 5 = 2))
    ∧ (((dv dlW 3 0).clocksOn = true) ∧ ((dv dlW 3 0).applied = true) ∧ (12 ≤ 12) ∧ (12 ≤ 16) ∧ (∀ (p' : ℕ), 12 ≤ p' → p' ≤ 16 → dropUnfit p' (dv dlW 3 0) = dv dlW 3 0) ∧ ((dv dlW 3 0).nextOf 12 = some (0, ({ id := 7, f := some 5 } : QEnt))) ∧ (∀ (p' : ℕ), 12 ≤ p' → p' < 12 → ∀ (c' : ℕ) (y : QEnt), (dv dlW 3 0).nextOf p' = some (c', y) → y.id ≠ 7) ∧ ((dv dlW 3 0).frame 7 = some dlW) ∧ (dlW.arriving = false) ∧ (dlW.ctBad = false) ∧ (2 ≤ dlW.left) ∧ ((dv dlW 3 0).fnState 5 = 3))
    ∧ (((dv dl 2 0).clocksOn = true) ∧ ((dv dl 2 0).applied = true) ∧ (12 ≤ 12) ∧ (12 ≤ 16) ∧ (∀ (p' : ℕ), 12 ≤ p' → p' ≤ 16 → dropUnfit p' (dv dl 2 0) = dv dl 2 0) ∧ ((dv dl 2 0).nextOf 12 = some (0, ({ id := 7, f := some 5 } : QEnt))) ∧ (∀ (p' : ℕ), 12 ≤ p' → p' < 12 → ∀ (c' : ℕ) (y : QEnt), (dv dl 2 0).nextOf p' = some (c', y) → y.id ≠ 7) ∧ ((dv dl 2 0).frame 7 = some dl) ∧ (dl.arriving = false) ∧ (dl.ctBad = false) ∧ (2 ≤ dl.left) ∧ ((dv dl 2 0).fnState 5 = 2) ∧ ((dv dl 2 0).poolKind 5 = 0) ∧ (dl.lanes = []))
    ∧ (let s := (dv dl 2 1).fld F.ydFrx0_STBL 5; ((dv dl 2 1).clocksOn = true) ∧ ((dv dl 2 1).applied = true) ∧ (12 ≤ 12) ∧ (12 ≤ 16) ∧ (∀ (p' : ℕ), 12 ≤ p' → p' ≤ 16 → dropUnfit p' (dv dl 2 1) = dv dl 2 1) ∧ ((dv dl 2 1).nextOf 12 = some (0, ({ id := 7, f := some 5 } : QEnt))) ∧ (∀ (p' : ℕ), 12 ≤ p' → p' < 12 → ∀ (c' : ℕ) (y : QEnt), (dv dl 2 1).nextOf p' = some (c', y) → y.id ≠ 7) ∧ ((dv dl 2 1).frame 7 = some dl) ∧ (dl.arriving = false) ∧ (dl.ctBad = false) ∧ (2 ≤ dl.left) ∧ ((dv dl 2 1).fnState 5 = 2) ∧ ((dv dl 2 1).poolKind 5 = 1) ∧ (dl.lanes = []) ∧ (freeSlot (5) (dv dl 2 1) = (some 0, dv dl 2 1)) ∧ ((dv dl 2 1).fld F.ydFrx0_STBL 5 < 16) ∧ (3 + (packWords dl.bytes).length ≤ 64 * (dv dl 2 1).fld F.ydFrx0_SLOTW 5) ∧ ((dv dl 2 1).ownsLoft (5) s ((dv dl 2 1).fld F.ydFrx0_BASE 5 + 64 * (dv dl 2 1).fld F.ydFrx0_SLOTW 5 * 0) (3 + (packWords dl.bytes).length) = true) ∧ (∀ i < 3 + (packWords dl.bytes).length, (dv dl 2 1).inpassWord s ((dv dl 2 1).fld F.ydFrx0_BASE 5 + 64 * (dv dl 2 1).fld F.ydFrx0_SLOTW 5 * 0 + i) = false) ∧ (∀ i < (packWords dl.bytes).length, (readCode ((dv dl 2 1).raw (loftPlace s ((dv dl 2 1).fld F.ydFrx0_BASE 5 + 64 * (dv dl 2 1).fld F.ydFrx0_SLOTW 5 * 0 + 3 + i)))).bad = false)) := by
  (repeat' apply And.intro) <;> first | decide +kernel | (intros; omega)

theorem test_hypotheses_EnginesSubmitDescriptors :
    ((sw.clocksOn = true) ∧ (sw.applied = true) ∧ (0 / 8 ≠ 1))
    ∧ (let s := sw.setE 0 { tv := true, inc := 3 }; (s.clocksOn = true) ∧ (s.applied = true) ∧ (0 / 8 = 0) ∧ ((s.e 0).tv = true) ∧ ((s.e 0).inc ≠ s.inc (s.engFn 0)) ∧ (s.subIdle (0 / 4)))
    ∧ (let s := BitVec.toNat dW0; (dsc.clocksOn = true) ∧ (dsc.applied = true) ∧ (0 / 8 = 0) ∧ ((dsc.e 0).tv = true → (dsc.e 0).inc = dsc.inc (dsc.engFn 0)) ∧ (dsc.subIdle (0 / 4)) ∧ (dsc.fnState (dsc.engFn 0) ≠ 3) ∧ (dsc.holds 0 256 [dW0, dW1, 0, 512]) ∧ (dData.length = (bits s 21 14 + 5) / 6) ∧ (dsc.holds (0) (bits (BitVec.toNat (512 : Word)) 0 16) dData) ∧ (dsc.ownsLoft (dsc.engFn 0) 0 256 4 = true) ∧ (dsc.ownsLoft (dsc.engFn 0) (0) (bits (BitVec.toNat (512 : Word)) 0 16) dData.length = true) ∧ (dsc.descWord 0 256) ∧ (bits s 37 2 = 1) ∧ (BitVec.getLsbD dW0 35 = false) ∧ (bits (BitVec.toNat dW1) 0 12 = 2 ^ 0) ∧ (0 < 12) ∧ (dsc.rpps = []) ∧ (dsc.classify (12 + 0 / 4) (List.take (bits s 21 14) (List.flatMap wordBytes dData)) = some (1, 0, false)) ∧ (dsc.admits 0 (bits s 39 3) (dsc.engFn 0) 1 (List.take (bits s 21 14) (List.flatMap wordBytes dData))))
    ∧ (let s := (sw.put F.fnStatus_STATE 3 5).setE 0 { tv := true, fn := 5 }; (s.clocksOn = true) ∧ (s.applied = true) ∧ (0 / 8 = 0) ∧ ((s.e 0).tv = true → (s.e 0).inc = s.inc (s.engFn 0)) ∧ (s.subIdle (0 / 4)) ∧ (s.fnState (s.engFn 0) = 3)) := by
  (repeat' apply And.intro) <;> decide +kernel

theorem test_hypotheses_HostRingsTakeTails :
    ((on.heard Who.qspi = true) ∧ (on.applied = true) ∧ (isPcie Who.qspi 3 = false) ∧ (Who.qspi ≠ Who.jtag))
    ∧ ((on.heard (Who.vf (2 : Fin 15)) = true) ∧ (on.applied = true) ∧ (isPcie (Who.vf (2 : Fin 15)) 3 = true))
    ∧ ((ring3.heard (Who.vf (2 : Fin 15)) = true) ∧ (ring3.applied = true) ∧ (isPcie (Who.vf (2 : Fin 15)) 3 = true) ∧ (ring3.fld F.ydHtxptr_LOGN 3 ≠ 0) ∧ (Tab.get 0 ring3.yard.htxNext 3 < 2 ^ ring3.fld F.ydHtxptr_LOGN 3) ∧ (1 < 2 ^ ring3.fld F.ydHtxptr_LOGN 3) ∧ (1 = (Tab.get 0 ring3.yard.htxNext 3 + 1) % 2 ^ ring3.fld F.ydHtxptr_LOGN 3) ∧ (bits (BitVec.toNat hd.w0) 37 2 ≠ 2) ∧ (ring3.fnState (bits (BitVec.toNat hd.w1) 39 9) = 0 ∨ ring3.vfOf (bits (BitVec.toNat hd.w1) 39 9) ≠ 3))
    ∧ (let s := bits (BitVec.toNat hd5.w1) 39 9; let u := BitVec.toNat hd5.w0; (ring5.heard (Who.vf (2 : Fin 15)) = true) ∧ (ring5.applied = true) ∧ (isPcie (Who.vf (2 : Fin 15)) 3 = true) ∧ (ring5.fld F.ydHtxptr_LOGN 3 ≠ 0) ∧ (Tab.get 0 ring5.yard.htxNext 3 < 2 ^ ring5.fld F.ydHtxptr_LOGN 3) ∧ (1 < 2 ^ ring5.fld F.ydHtxptr_LOGN 3) ∧ (1 = (Tab.get 0 ring5.yard.htxNext 3 + 1) % 2 ^ ring5.fld F.ydHtxptr_LOGN 3) ∧ (ring5.fnState s ≠ 0) ∧ (ring5.fnState s ≠ 3) ∧ (ring5.vfOf s = 3) ∧ (bits (BitVec.toNat hd5.w1) 31 8 = ring5.inc s) ∧ (bits u 37 2 = 1) ∧ (BitVec.getLsbD hd5.w0 35 = false) ∧ (bits (BitVec.toNat hd5.w1) 0 12 = 2 ^ 0) ∧ (0 < 12) ∧ (ring5.rpps = []) ∧ (ring5.classify 16 (List.take (bits u 21 14) hd5.data ++ List.replicate (bits u 21 14 - hd5.data.length) 0) = some (1, 0, false)) ∧ (ring5.admits 0 (bits u 39 3) s 1 (List.take (bits u 21 14) hd5.data ++ List.replicate (bits u 21 14 - hd5.data.length) 0)))
    ∧ ((on.heard (Who.vf (2 : Fin 15)) = true) ∧ (on.applied = true) ∧ (isPcie (Who.vf (2 : Fin 15)) 3 = true))
    ∧ (let s := ring5.put F.fnStatus_STATE 3 (bits (BitVec.toNat hd5.w1) 39 9); (s.heard (Who.vf (2 : Fin 15)) = true) ∧ (s.applied = true) ∧ (isPcie (Who.vf (2 : Fin 15)) 3 = true) ∧ (s.fld F.ydHtxptr_LOGN 3 ≠ 0) ∧ (Tab.get 0 s.yard.htxNext 3 < 2 ^ s.fld F.ydHtxptr_LOGN 3) ∧ (1 < 2 ^ s.fld F.ydHtxptr_LOGN 3) ∧ (1 = (Tab.get 0 s.yard.htxNext 3 + 1) % 2 ^ s.fld F.ydHtxptr_LOGN 3) ∧ (s.fnState (bits (BitVec.toNat hd5.w1) 39 9) = 3) ∧ (s.vfOf (bits (BitVec.toNat hd5.w1) 39 9) = 3)) := by
  (repeat' apply And.intro) <;> decide +kernel

theorem test_hypotheses_DescriptorsAreWrittenBack :
    (((cp cx).clocksOn = true) ∧ ((cp cx).applied = true) ∧ ((cp cx).frame 7 = some cx) ∧ (cx.src = FSrc.eng 0 256 0 0) ∧ (cx.closed = false) ∧ ((cp cx).descWord 0 256) ∧ (∀ m < 16, (cp cx).subs m = []) ∧ (cx.copied = false) ∧ (cx.pois = false))
    ∧ (((cp cxp).clocksOn = true) ∧ ((cp cxp).applied = true) ∧ ((cp cxp).frame 7 = some cxp) ∧ (cxp.src = FSrc.eng 0 256 0 0) ∧ (cxp.closed = false) ∧ ((cp cxp).descWord 0 256) ∧ (∀ m < 16, (cp cxp).subs m = []) ∧ (cxp.copied = false) ∧ (cxp.pois = true) ∧ ((cp cxp).sendingCopies 7 = 0))
    ∧ (((cp cx).clocksOn = true) ∧ ((cp cx).applied = true) ∧ ((cp cx).frame 7 = some cx) ∧ (cx.src = FSrc.eng 0 256 0 0) ∧ (cx.closed = false) ∧ ((cp cx).descWord 0 256) ∧ (∀ m < 16, (cp cx).subs m = []) ∧ (cx.left ≠ 0))
    ∧ (((cp cx0).clocksOn = true) ∧ ((cp cx0).applied = true) ∧ ((cp cx0).frame 7 = some cx0) ∧ (cx0.src = FSrc.eng 0 256 0 0) ∧ (cx0.closed = false) ∧ ((cp cx0).descWord 0 256) ∧ (∀ m < 16, (cp cx0).subs m = []) ∧ (cx0.left = 0) ∧ (cx0.disp = none)) := by
  (repeat' apply And.intro) <;> decide +kernel

theorem test_hypotheses_RingMessagesAreHeldOff :
    ((on.clocksOn = true) ∧ (on.applied = true) ∧ (Tab.get 0 on.yard.holdoff 2047 ≤ on.tick) ∧ (on.yard.owed.contains 2047 = false))
    ∧ ((owed.clocksOn = true) ∧ (owed.applied = true) ∧ (Tab.get 0 owed.yard.holdoff 2047 ≤ owed.tick) ∧ (owed.yard.owed.contains 2047 = true) ∧ (owed.host.pcieUp = true) ∧ (owed.host.msixEn.getLsbD (2047 / 128) = true) ∧ (owed.host.unmasked.contains 2047 = true)) := by
  (repeat' apply And.intro) <;> decide +kernel

theorem test_hypotheses_AddressTableCommands_1 :
    ((on.clocksOn = true) ∧ (on.applied = true) ∧ (on.heard Who.pf = true) ∧ (on.supervisor Who.pf = true))
    ∧ (let s := on.put F.ydAtcmd_BUSY 1; (s.clocksOn = true) ∧ (s.applied = true) ∧ (s.heard Who.pf = true) ∧ (Who.pf ≠ Who.jtag) ∧ (s.fld F.ydAtcmd_BUSY ≠ 0))
    ∧ ((on.clocksOn = true) ∧ (on.applied = true) ∧ (on.yard.cmd = none))
    ∧ (let s := atc 1 [entry 2]; (s.clocksOn = true) ∧ (s.applied = true) ∧ (s.yard.cmd = some (1, 0)) ∧ (s.atFind (s.fld F.ydAtkey_MAC) (s.fld F.ydAtdata_VID) = some (entry 2)))
    ∧ (((atc 1 []).clocksOn = true) ∧ ((atc 1 []).applied = true) ∧ ((atc 1 []).yard.cmd = some (1, 0)) ∧ ((atc 1 []).atFind ((atc 1 []).fld F.ydAtkey_MAC) ((atc 1 []).fld F.ydAtdata_VID) = none))
    ∧ (let s := (atc 2 [entry 2]).put F.ydAtdata_VALID 1; (s.clocksOn = true) ∧ (s.applied = true) ∧ (s.yard.cmd = some (2, 0)) ∧ (s.fld F.ydAtdata_VALID ≠ 0)) := by
  (repeat' apply And.intro) <;> decide +kernel

theorem test_hypotheses_AddressTableCommands_2 :
    (((atc 3 [entry 2]).clocksOn = true) ∧ ((atc 3 [entry 2]).applied = true) ∧ ((atc 3 [entry 2]).yard.cmd = some (3, 0)))
    ∧ (((atc 4 [entry 2, let __src := entry 3; { mac := __src.mac, vid := __src.vid, static := true, dlv := __src.dlv, fn := __src.fn, pmask := __src.pmask, fresh := __src.fresh }]).clocksOn = true) ∧ ((atc 4 [entry 2, let __src := entry 3; { mac := __src.mac, vid := __src.vid, static := true, dlv := __src.dlv, fn := __src.fn, pmask := __src.pmask, fresh := __src.fresh }]).applied = true) ∧ ((atc 4 [entry 2, let __src := entry 3; { mac := __src.mac, vid := __src.vid, static := true, dlv := __src.dlv, fn := __src.fn, pmask := __src.pmask, fresh := __src.fresh }]).yard.cmd = some (4, 0)))
    ∧ (((swTo 2).clocksOn = true) ∧ ((swTo 2).applied = true) ∧ ((swTo 2).atFind (BitVec.toNat (wd dst)) 1 = some (entry 2)) ∧ ((entry 2).static = true ∨ (swTo 2).fld F.ydCfg_AGETIME = 0))
    ∧ ((aging.clocksOn = true) ∧ (aging.applied = true) ∧ (aging.atFind (BitVec.toNat (wd dst)) 1 = some (entry 2)) ∧ ((entry 2).static = false) ∧ (aging.fld F.ydCfg_AGETIME ≠ 0) ∧ ((entry 2).fresh + aging.fld F.ydCfg_AGETIME * 250000000 ≤ aging.tick)) := by
  (repeat' apply And.intro) <;> decide +kernel

theorem test_hypotheses_GatesAndLaunchQueuesFollowTheirCounter_1 :
    ((gcl.clocksOn = true) ∧ (gcl.applied = true) ∧ (gcl.fld F.ydGctl_PEND 16 ≠ 0) ∧ ((gcl.gateS 16).oper = []))
    ∧ (((gop 1).clocksOn = true) ∧ ((gop 1).applied = true) ∧ ((gop 1).fld F.ydGctl_PEND 16 = 0) ∧ (((gop 1).gateS 16).oper ≠ []) ∧ (((gop 1).gateS 16).cyc ≠ 0))
    ∧ ((sw.clocksOn = true) ∧ (sw.applied = true) ∧ (sw.fld F.ydGctl_PEND 16 = 0) ∧ ((sw.gateS 16).oper = []))
    ∧ (((gop 0).clocksOn = true) ∧ ((gop 0).applied = true) ∧ (((gop 0).gateS 16).idx + 1 < (gateSegs ((gop 0).gateS 16).oper 0 ((gop 0).gateS 16).cyc).length))
    ∧ (((gop 1).clocksOn = true) ∧ ((gop 1).applied = true) ∧ ((gateSegs ((gop 1).gateS 16).oper 0 ((gop 1).gateS 16).cyc).length ≤ ((gop 1).gateS 16).idx + 1))
    ∧ (((lqd 5 6).clocksOn = true) ∧ ((lqd 5 6).applied = true) ∧ ((lqd 5 6).launchQ 11 = [({ id := 7 } : QEnt)]) ∧ ((lqd 5 6).frame ({ id := 7 } : QEnt).id = some (let __src := dl; ({ bytes := __src.bytes, cells := __src.cells, chg := __src.chg, cls := __src.cls, src := __src.src, vid := __src.vid, tagged := __src.tagged, ts := __src.ts, wake := __src.wake, left := __src.left, sent := __src.sent, pushed := __src.pushed, gone := __src.gone, copied := __src.copied, pois := __src.pois, tsr := __src.tsr, tstag := __src.tstag, ltime := 5, seqNr := __src.seqNr, lan := __src.lan, ct := __src.ct, ctBad := __src.ctBad, arriving := __src.arriving, w0 := __src.w0, closed := __src.closed, disp := __src.disp, lanes := __src.lanes } : YFrame))) ∧ (Tab.get 0 (lqd 5 6).yard.due 11 = 0) ∧ ((0 : ℤ) < Machine.sdiff 48 ((lqd 5 6).launchNow 11) (let __src := dl; ({ bytes := __src.bytes, cells := __src.cells, chg := __src.chg, cls := __src.cls, src := __src.src, vid := __src.vid, tagged := __src.tagged, ts := __src.ts, wake := __src.wake, left := __src.left, sent := __src.sent, pushed := __src.pushed, gone := __src.gone, copied := __src.copied, pois := __src.pois, tsr := __src.tsr, tstag := __src.tstag, ltime := 5, seqNr := __src.seqNr, lan := __src.lan, ct := __src.ct, ctBad := __src.ctBad, arriving := __src.arriving, w0 := __src.w0, closed := __src.closed, disp := __src.disp, lanes := __src.lanes } : YFrame)).ltime)) := by
  (repeat' apply And.intro) <;> decide +kernel

theorem test_hypotheses_GatesAndLaunchQueuesFollowTheirCounter_2 :
    (((lqd 60 6).clocksOn = true) ∧ ((lqd 60 6).applied = true) ∧ ((lqd 60 6).launchQ 11 = [({ id := 7 } : QEnt)]) ∧ ((lqd 60 6).frame ({ id := 7 } : QEnt).id = some (let __src := dl; ({ bytes := __src.bytes, cells := __src.cells, chg := __src.chg, cls := __src.cls, src := __src.src, vid := __src.vid, tagged := __src.tagged, ts := __src.ts, wake := __src.wake, left := __src.left, sent := __src.sent, pushed := __src.pushed, gone := __src.gone, copied := __src.copied, pois := __src.pois, tsr := __src.tsr, tstag := __src.tstag, ltime := 60, seqNr := __src.seqNr, lan := __src.lan, ct := __src.ct, ctBad := __src.ctBad, arriving := __src.arriving, w0 := __src.w0, closed := __src.closed, disp := __src.disp, lanes := __src.lanes } : YFrame))) ∧ (Tab.get 0 (lqd 60 6).yard.due 11 = 0) ∧ (Machine.sdiff 48 ((lqd 60 6).launchNow 11) (let __src := dl; ({ bytes := __src.bytes, cells := __src.cells, chg := __src.chg, cls := __src.cls, src := __src.src, vid := __src.vid, tagged := __src.tagged, ts := __src.ts, wake := __src.wake, left := __src.left, sent := __src.sent, pushed := __src.pushed, gone := __src.gone, copied := __src.copied, pois := __src.pois, tsr := __src.tsr, tstag := __src.tstag, ltime := 60, seqNr := __src.seqNr, lan := __src.lan, ct := __src.ct, ctBad := __src.ctBad, arriving := __src.arriving, w0 := __src.w0, closed := __src.closed, disp := __src.disp, lanes := __src.lanes } : YFrame)).ltime ≤ (0 : ℤ))) := by
  (repeat' apply And.intro) <;> decide +kernel

theorem test_hypotheses_ReadsFollowTheSyndrome :
    (7 < 8)
    ∧ (47 < 48) := by
  (repeat' apply And.intro) <;> decide +kernel

end W6

namespace W7

def fnOn (f : Nat) (s : State) : State := (s.put F.fnStatus_STATE 2 f |>.put F.fnCfg_AFFINITY 0xFFFF f |>.put F.fnShare_TASKLIM 8 f |>.setFn f { maxP := 100 })

def ip : State := ((((((((fnOn 5 on).put F.epIpcfg0_EN 1 3).put F.epIpcfg0_M1 1 3).put F.epIpcfg0_STBL 15 3).put F.epIpcfg0_FN 5 3).put F.epIpcfg0_PA 1 3).put F.epIpcfg0_PB 2 3).put F.epStat_LINK 1 1).put F.epStat_LINK 1 2

def ip1 : State := (((ip.put F.epStat_SPEED 1 1).put F.epStat_SPEED 1 2).put F.epIpcfg1_RG1 4 3).put F.epIpcfg1_DLY 5 3

def rf : RFrame := { seq := 3, ts := {}, tin := 0, xres := 0, slip := false, slots := [4], poss := [some 2], words := [7, 9] }

def withR (x : RFrame) (t : Nat) : State := { ip1.setDir 3 1 { frames := [x], slot := 5, seq := 4 } with tick := t }

def rfS : RFrame := { rf with slip := true }

def rfG : RFrame := { rf with started := true }

def rfE : RFrame := { rf with egress := [7, 9], arrived := 2, fin := some (12, false) }

def rfA : RFrame := { rf with arrived := 2 }

def ueW : Word := (readCode (sealW 5 ^^^ 3)).word

def ueY : BitVec 8 := match readCode (sealW 5 ^^^ 3) with | .ue _ y => y | _ => 0

def st1 : State := (((on.put F.tcStat_STATE 0 7).put F.tcStepsec_SEC (2 ^ 48 - 2) 7).put F.tcStepns_NS 999999999 7)

def stp0 : State := { on with steps := Tab.set none on.steps 0 (some (0, false, ⟨9, 8, 0⟩, 5)) }

def stp7 : State := { on with steps := Tab.set none on.steps 7 (some (0, true, ⟨0, 0, 0⟩, 5)) }

def ref (k : Nat) : State := (on.put F.refCfg_KIND k 7).put F.refCfg_TGT 1 7

def srv (st : Nat) : State := ((((((((ref 1).put F.svCfg0_EN 1 1).put F.tcStat_STATE st 1).put F.svStat_SELV 1 1).put F.svStat_SEL 7 1).put F.svCfg1_LOCKTH 100 1).put F.svCfg0_LOCKN 1 1).put F.svCfg0_KIA 4 1).put F.svCfg0_KPA 2 1

def srv1 (st : Nat) : State := ((srv st).put F.refStat_VALID 1 7).put F.refCtl_RANK 5 7

def seen : State := { ((ref 1).put F.refStat_VALID 1 7) with refs := Tab.set 0 on.refs 7 1, tick := 1 }

def ramping : State := { on.setServo 1 { on.servo 1 with ramp := some ⟨0, 5, 0⟩ } with tick := 5 }

def pg (x : PgS) : State := (((((on.put F.pgCfg_EN 1 7).put F.pgCfg_PIN 255 7).put F.pgCfg_POL 1 7).put F.pgCfg_WID 500 7).put F.piPin_FUNC 3 15 15).setPulse 7 x

def pgT (x : PgS) : State := (pg x).setCtr 0 { sec := 1 }

theorem test_hypotheses_FramesPassThroughTheRing_1 :
    (on.inPassing 3 1 = false)
    ∧ ((ip1.inPassing 3 1 = true) ∧ (ip1.fld F.epStat_LINK (ip1.ingress 3 1) ≠ 0) ∧ (1 ≤ [7, 9].length) ∧ ([7, 9].length ≤ 64) ∧ (∀ x ∈ allDirs, (ip1.dir x.1 x.2).frames = []) ∧ ((ip1.dir 3 1).slot < 31) ∧ ((ip1.dir 3 1).seq < 256))
    ∧ (let s := ip1.put F.fnStatus_STATE 1 5; (s.inPassing 3 1 = true) ∧ (s.fld F.epStat_LINK (s.ingress 3 1) ≠ 0) ∧ (1 ≤ [7, 9].length) ∧ ([7, 9].length ≤ 64) ∧ (∀ x ∈ allDirs, (s.dir x.1 x.2).frames = []) ∧ ((s.dir 3 1).slot < 31) ∧ ((s.dir 3 1).seq < 256))
    ∧ (let s := (withR rf 100).put F.epCfg2_MAXFRM 1518 2; ((s.dir 3 1).frames = [rf]) ∧ (rf.fin = none) ∧ (rf.gone = false) ∧ (rf.started = false) ∧ (rf.slots = [4]) ∧ (4 < 31) ∧ (rf.poss = [some 2]) ∧ (2 < 8) ∧ (rf.ue = false) ∧ (s.fnState (s.fld F.epIpcfg0_FN 3) = 2) ∧ (rf.arrived = 0) ∧ (rf.words.length ≤ 64) ∧ (12 ≤ s.maxFrm (s.ingress 3 1)))
    ∧ (let s := (withR rf 100).put F.epStat_LINK 0 1; (s.egressNext 3 1 = some (0, rf)) ∧ (rf.started = false) ∧ (s.tOut (3) rf ≤ 4000 * s.tick) ∧ (∀ (e : ℕ × Bool), rf.fin = some e → rf.egress.length < egressWords e.1) ∧ (s.fld F.epStat_LINK (s.egress 3 1) = 0))
    ∧ (((withR rf 100).egressNext 3 1 = some (0, rf)) ∧ (rf.started = false) ∧ ((withR rf 100).tOut (3) rf ≤ 4000 * (withR rf 100).tick) ∧ (∀ (e : ℕ × Bool), rf.fin = some e → rf.egress.length < egressWords e.1) ∧ ((withR rf 100).fld F.epStat_LINK ((withR rf 100).egress 3 1) ≠ 0) ∧ (rf.slip = false)) := by
  (repeat' apply And.intro) <;> decide +kernel

theorem test_hypotheses_FramesPassThroughTheRing_2 :
    (((withR rfS 100).egressNext 3 1 = some (0, rfS)) ∧ (rfS.started = false) ∧ ((withR rfS 100).tOut (3) rfS ≤ 4000 * (withR rfS 100).tick) ∧ (∀ (e : ℕ × Bool), rfS.fin = some e → rfS.egress.length < egressWords e.1) ∧ ((withR rfS 100).fld F.epStat_LINK ((withR rfS 100).egress 3 1) ≠ 0) ∧ (rfS.slip = true))
    ∧ (((withR rfG 100).egressNext 3 1 = some (0, rfG)) ∧ (rfG.started = true))
    ∧ (((withR rfE 100).egressNext 3 1 = some (0, rfE)) ∧ (rfE.started = false) ∧ ((withR rfE 100).tOut (3) rfE ≤ 4000 * (withR rfE 100).tick) ∧ ((withR rfE 100).fld F.epStat_LINK ((withR rfE 100).egress 3 1) ≠ 0) ∧ (rfE.slip = false) ∧ (rfE.fin = some (12, false)) ∧ (egressWords 12 ≤ rfE.egress.length) ∧ (((withR rfE 100).dir 3 1).frames = [rfE]))
    ∧ (((withR rfG 100).egressNext 3 1 = some (0, rfG)) ∧ (1 ≠ rfG.egress.length))
    ∧ (((withR rfG 100).egressNext 3 1 = some (0, rfG)) ∧ (0 = rfG.egress.length) ∧ (0 < rfG.words.length) ∧ (rfG.fin = none) ∧ ((withR rfG 100).fld F.epStat_LINK ((withR rfG 100).egress 3 1) ≠ 0) ∧ ((withR rfG 100).latchPs (3) rfG 0 / 4000 ≤ (withR rfG 100).tick) ∧ (readCode ((withR rfG 100).raw ((withR rfG 100).ringPlace (3) (1) (64 * rfG.slots.getD (0 / 64 : ℕ) 0 + 0 % 64))) = Rd.ok 0)) := by
  (repeat' apply And.intro) <;> decide +kernel

theorem test_hypotheses_WindowWritesReachTheRing_1 :
    ((on.heard Who.pf = true) ∧ (on.applied = true) ∧ (on.fld F.epIpcfg0_EN 3 = 0))
    ∧ (let s := (windowWait (Who.engine (0 : Fin 128)) (3) (0) (ip1.setE 0 { psw := 0 })); ((ip1.setE 0 { psw := 0 }).heard (Who.engine (0 : Fin 128)) = true) ∧ ((ip1.setE 0 { psw := 0 }).applied = true) ∧ (Who.engine (0 : Fin 128) = Who.engine (0 : Fin 128)) ∧ (s.fld F.epIpcfg0_EN 3 ≠ 0) ∧ (s.supervisor (Who.engine (0 : Fin 128)) = false) ∧ (0 / 8 ≠ s.fld F.epIpcfg0_STBL 3))
    ∧ (let s := (windowWait (Who.engine (120 : Fin 128)) (3) (0) (ip1.setE 120 { psw := 0, tv := true, fn := 5 })); let u := ip1.setE 120 { psw := 0, tv := true, fn := 5 }; (u.heard (Who.engine (120 : Fin 128)) = true) ∧ (u.applied = true) ∧ (Who.engine (120 : Fin 128) = Who.engine (120 : Fin 128)) ∧ (s.fld F.epIpcfg0_EN 3 ≠ 0) ∧ (s.supervisor (Who.engine (120 : Fin 128)) = false) ∧ (120 / 8 = u.fld F.epIpcfg0_STBL 3) ∧ (s.fld F.epIpcfg0_STBL 3 = u.fld F.epIpcfg0_STBL 3) ∧ (s.engFn 120 = s.fld F.epIpcfg0_FN 3) ∧ (s.mayLoft (Who.engine (120 : Fin 128)) (u.fld F.epIpcfg0_STBL 3) (windowBank 0) = false))
    ∧ (let s := windowWait Who.mgmt (3) (4095) (ip1.put F.fnStatus_STATE 1 5); ((ip1.put F.fnStatus_STATE 1 5).heard Who.mgmt = true) ∧ ((ip1.put F.fnStatus_STATE 1 5).applied = true) ∧ (windowDenied Who.mgmt (3) (4095) s = none) ∧ (s.fnState (s.fld F.epIpcfg0_FN 3) ≠ 2))
    ∧ (let s := windowWait Who.pf (3) (2305) (withR rfA 100); ((withR rfA 100).heard Who.pf = true) ∧ ((withR rfA 100).applied = true) ∧ (windowDenied Who.pf (3) (2305) s = none) ∧ (s.fnState (s.fld F.epIpcfg0_FN 3) = 2) ∧ (2305 = 2048 * 1 + 257) ∧ (257 < 1984) ∧ (s.slotHolder 3 1 (257 / 64 : ℕ) = some (rfA, 0)) ∧ (rfA.egress.length ≤ 64 * 0 + 257 % 64) ∧ (64 * 0 + 257 % 64 < rfA.arrived) ∧ (rfA.arrived ≤ rfA.words.length))
    ∧ (let s := windowWait Who.pf (3) (1983) (withR rfA 100); ((withR rfA 100).heard Who.pf = true) ∧ ((withR rfA 100).applied = true) ∧ (windowDenied Who.pf (3) (1983) s = none) ∧ (s.fnState (s.fld F.epIpcfg0_FN 3) = 2) ∧ (1983 = 2048 * 0 + 1983) ∧ (1983 < 1984) ∧ (s.slotHolder 3 0 (1983 / 64 : ℕ) = none)) := by
  (repeat' apply And.intro) <;> decide +kernel

theorem test_hypotheses_WindowWritesReachTheRing_2 :
    (let s := windowWait Who.pf (3) (2000) (withR rfA 100); ((withR rfA 100).heard Who.pf = true) ∧ ((withR rfA 100).applied = true) ∧ (windowDenied Who.pf (3) (2000) s = none) ∧ (s.fnState (s.fld F.epIpcfg0_FN 3) = 2) ∧ (2000 = 2048 * 0 + 2000) ∧ (2000 = descOff 4) ∧ (readCode (s.raw (s.ringPlace 3 0 2000)) = Rd.ok 0))
    ∧ (let s := ((withR rfA 100).setRaw ((withR rfA 100).ringPlace 3 0 2000) (sealW 5 ^^^ (3 : Stored))); let u := windowWait Who.pf (3) (2000) s; (s.heard Who.pf = true) ∧ (s.applied = true) ∧ (windowDenied Who.pf (3) (2000) u = none) ∧ (u.fnState (u.fld F.epIpcfg0_FN 3) = 2) ∧ (2000 = 2048 * 0 + 2000) ∧ (2000 = descOff 4) ∧ (readCode (u.raw (u.ringPlace 3 0 2000)) = Rd.ue ueW ueY)) := by
  (repeat' apply And.intro) <;> decide +kernel

theorem test_hypotheses_CountersAreSteered_1 :
    (((fnOn 5 on).heard (Who.vf (2 : Fin 15)) = true) ∧ ((fnOn 5 on).applied = true) ∧ ((fnOn 5 on).mayTc (Who.vf (2 : Fin 15)) 7 = false))
    ∧ (((fnOn 5 on).heard (Who.vf (2 : Fin 15)) = true) ∧ ((fnOn 5 on).applied = true) ∧ ((fnOn 5 on).mayTc (Who.vf (2 : Fin 15)) 7 = false))
    ∧ (((fnOn 5 on).heard (Who.vf (2 : Fin 15)) = true) ∧ ((fnOn 5 on).applied = true) ∧ ((fnOn 5 on).mayTc (Who.vf (2 : Fin 15)) 7 = false))
    ∧ ((on.heard Who.pf = true) ∧ (on.applied = true) ∧ (on.mayTc Who.pf 7 = true))
    ∧ ((on.heard Who.pf = true) ∧ (on.applied = true) ∧ (on.mayTc Who.pf 7 = true))
    ∧ ((on.heard Who.pf = true) ∧ (on.applied = true) ∧ (on.mayTc Who.pf 7 = true)) := by
  (repeat' apply And.intro) <;> decide +kernel

theorem test_hypotheses_CountersAreSteered_2 :
    (((on.put F.svCfg0_EN 1 1).heard Who.pf = true) ∧ ((on.put F.svCfg0_EN 1 1).applied = true) ∧ ((on.put F.svCfg0_EN 1 1).mayTc Who.pf 1 = true))
    ∧ (((on.put F.tcStat_STATE 1 7).heard Who.pf = true) ∧ ((on.put F.tcStat_STATE 1 7).applied = true) ∧ ((on.put F.tcStat_STATE 1 7).mayTc Who.pf 7 = true))
    ∧ (let s := on.put F.tcStat_STATE 1 7; (s.heard Who.pf = true) ∧ (s.applied = true) ∧ (s.mayTc Who.pf 7 = true) ∧ (s.tcState 7 ≠ 0) ∧ (¬(false = true ∧ s.tcState 7 = 1 ∧ Tab.get none s.steps 7 = none)))
    ∧ ((st1.heard Who.pf = true) ∧ (st1.applied = true) ∧ (st1.mayTc Who.pf 7 = true) ∧ (st1.tcState 7 = 0) ∧ (Tab.get none st1.steps 7 = none) ∧ (st1.servoOn 7 = false) ∧ (st1.fld F.tcStepns_NS 7 ≤ 999999999) ∧ (st1.fld F.tcStepsec_SEC 7 * 1000000000 + st1.fld F.tcStepns_NS 7 ≤ (2 ^ 48 - 1) * 1000000000))
    ∧ ((on.heard Who.pf = true) ∧ (on.applied = true) ∧ (Tab.get none on.steps 7 = none))
    ∧ ((stp0.heard Who.pf = true) ∧ (stp0.applied = true) ∧ (Tab.get none stp0.steps 0 = some (0, false, ({ sec := 9, ns := 8 } : TCnt), (5 : ℤ))) ∧ (0 ≤ stp0.tick)) := by
  (repeat' apply And.intro) <;> decide +kernel

theorem test_hypotheses_CountersAreSteered_3 :
    ((stp7.heard Who.pf = true) ∧ (stp7.applied = true) ∧ (Tab.get none stp7.steps 7 = some (0, true, { }, (5 : ℤ))) ∧ (0 ≤ stp7.tick))
    ∧ ((on.heard Who.pf = true) ∧ (on.applied = true) ∧ (on.supervisor Who.pf = true)) := by
  (repeat' apply And.intro) <;> decide +kernel

theorem test_hypotheses_ReferencesSteerTheServos_1 :
    ((on.applied = true) ∧ (on.heard Who.pf = true) ∧ (on.mayRef Who.pf 7 = true) ∧ (on.refKind 7 ≠ 1))
    ∧ (let s := ((ref 1).putInt F.refStat_LAST ((toSigned 48 (BitVec.toNat (wd (2 ^ 47)))).fdiv (65536 : ℤ)) 7); ((ref 1).applied = true) ∧ ((ref 1).heard Who.pf = true) ∧ ((ref 1).mayRef Who.pf 7 = true) ∧ ((ref 1).refKind 7 = 1) ∧ ((ref 1).servoOn ((ref 1).fld F.refCfg_TGT 7) = false) ∧ (∀ j < 2, (have u := s.put F.refStat_VALID 1 7; ({ pending := u.pending, tick := u.tick, tkBase := u.tkBase, period := u.period, fresh := u.fresh, act := u.act, shd := u.shd, cap := u.cap, lay := u.lay, heldGo := u.heldGo, loft := u.loft, code := u.code, priv := u.priv, mg := u.mg, stage := u.stage, scrub := u.scrub, lost := u.lost, flash := u.flash, eng := u.eng, stb := u.stb, fns := u.fns, pairs := u.pairs, ic := u.ic, rgn := u.rgn, lastInst := u.lastInst, seenInst := u.seenInst, jumpDue := u.jumpDue, ports := u.ports, dirs := u.dirs, yard := u.yard, tc := u.tc, steps := u.steps, steppedAt := u.steppedAt, sv := u.sv, refs := Tab.set 0 u.refs (7) ((ref 1).tick + 1), pg := u.pg, pd := u.pd, can := u.can, pm := u.pm, pins := u.pins, pinPast := u.pinPast, flagAt := u.flagAt, tw := u.tw, pw := u.pw, boot := u.boot, host := u.host, out := u.out } : State)).servoOn j = true → (have u := s.put F.refStat_VALID 1 7; ({ pending := u.pending, tick := u.tick, tkBase := u.tkBase, period := u.period, fresh := u.fresh, act := u.act, shd := u.shd, cap := u.cap, lay := u.lay, heldGo := u.heldGo, loft := u.loft, code := u.code, priv := u.priv, mg := u.mg, stage := u.stage, scrub := u.scrub, lost := u.lost, flash := u.flash, eng := u.eng, stb := u.stb, fns := u.fns, pairs := u.pairs, ic := u.ic, rgn := u.rgn, lastInst := u.lastInst, seenInst := u.seenInst, jumpDue := u.jumpDue, ports := u.ports, dirs := u.dirs, yard := u.yard, tc := u.tc, steps := u.steps, steppedAt := u.steppedAt, sv := u.sv, refs := Tab.set 0 u.refs (7) ((ref 1).tick + 1), pg := u.pg, pd := u.pd, can := u.can, pm := u.pm, pins := u.pins, pinPast := u.pinPast, flagAt := u.flagAt, tw := u.tw, pw := u.pw, boot := u.boot, host := u.host, out := u.out } : State)).bestRef j = (have u := s.put F.refStat_VALID 1 7; ({ pending := u.pending, tick := u.tick, tkBase := u.tkBase, period := u.period, fresh := u.fresh, act := u.act, shd := u.shd, cap := u.cap, lay := u.lay, heldGo := u.heldGo, loft := u.loft, code := u.code, priv := u.priv, mg := u.mg, stage := u.stage, scrub := u.scrub, lost := u.lost, flash := u.flash, eng := u.eng, stb := u.stb, fns := u.fns, pairs := u.pairs, ic := u.ic, rgn := u.rgn, lastInst := u.lastInst, seenInst := u.seenInst, jumpDue := u.jumpDue, ports := u.ports, dirs := u.dirs, yard := u.yard, tc := u.tc, steps := u.steps, steppedAt := u.steppedAt, sv := u.sv, refs := Tab.set 0 u.refs (7) ((ref 1).tick + 1), pg := u.pg, pd := u.pd, can := u.can, pm := u.pm, pins := u.pins, pinPast := u.pinPast, flagAt := u.flagAt, tw := u.tw, pw := u.pw, boot := u.boot, host := u.host, out := u.out } : State)).selRef j))
    ∧ (let s := (srv1 2).fld F.refCfg_TGT 7; ((srv1 2).applied = true) ∧ ((srv1 2).heard Who.pf = true) ∧ ((srv1 2).mayRef Who.pf 7 = true) ∧ ((srv1 2).refKind 7 = 1) ∧ ((srv1 2).servoOn s = true) ∧ ((srv1 2).selRef s = some 7) ∧ ((have u := ((srv1 2).putInt F.refStat_LAST ((toSigned 48 (BitVec.toNat (6553600 : Word))).fdiv (65536 : ℤ)) 7).put F.refStat_VALID 1 7; ({ pending := u.pending, tick := u.tick, tkBase := u.tkBase, period := u.period, fresh := u.fresh, act := u.act, shd := u.shd, cap := u.cap, lay := u.lay, heldGo := u.heldGo, loft := u.loft, code := u.code, priv := u.priv, mg := u.mg, stage := u.stage, scrub := u.scrub, lost := u.lost, flash := u.flash, eng := u.eng, stb := u.stb, fns := u.fns, pairs := u.pairs, ic := u.ic, rgn := u.rgn, lastInst := u.lastInst, seenInst := u.seenInst, jumpDue := u.jumpDue, ports := u.ports, dirs := u.dirs, yard := u.yard, tc := u.tc, steps := u.steps, steppedAt := u.steppedAt, sv := u.sv, refs := Tab.set 0 u.refs (7) ((srv1 2).tick + 1), pg := u.pg, pd := u.pd, can := u.can, pm := u.pm, pins := u.pins, pinPast := u.pinPast, flagAt := u.flagAt, tw := u.tw, pw := u.pw, boot := u.boot, host := u.host, out := u.out } : State)).bestRef s = some 7) ∧ (((srv1 2).servo s).await = false) ∧ (((srv1 2).servo s).ramp = none) ∧ ((srv1 2).tcState s = 2) ∧ ((srv1 2).fld F.svStat_SEED s = 0) ∧ ((srv1 2).fld F.svCfg0_STEPEN s = 0))
    ∧ (let s := (srv1 3).fld F.refCfg_TGT 7; ((srv1 3).applied = true) ∧ ((srv1 3).heard Who.pf = true) ∧ ((srv1 3).mayRef Who.pf 7 = true) ∧ ((srv1 3).refKind 7 = 1) ∧ ((srv1 3).servoOn s = true) ∧ ((srv1 3).selRef s = some 7) ∧ ((have u := ((srv1 3).putInt F.refStat_LAST ((toSigned 48 (BitVec.toNat (wd (2 ^ 40)))).fdiv (65536 : ℤ)) 7).put F.refStat_VALID 1 7; ({ pending := u.pending, tick := u.tick, tkBase := u.tkBase, period := u.period, fresh := u.fresh, act := u.act, shd := u.shd, cap := u.cap, lay := u.lay, heldGo := u.heldGo, loft := u.loft, code := u.code, priv := u.priv, mg := u.mg, stage := u.stage, scrub := u.scrub, lost := u.lost, flash := u.flash, eng := u.eng, stb := u.stb, fns := u.fns, pairs := u.pairs, ic := u.ic, rgn := u.rgn, lastInst := u.lastInst, seenInst := u.seenInst, jumpDue := u.jumpDue, ports := u.ports, dirs := u.dirs, yard := u.yard, tc := u.tc, steps := u.steps, steppedAt := u.steppedAt, sv := u.sv, refs := Tab.set 0 u.refs (7) ((srv1 3).tick + 1), pg := u.pg, pd := u.pd, can := u.can, pm := u.pm, pins := u.pins, pinPast := u.pinPast, flagAt := u.flagAt, tw := u.tw, pw := u.pw, boot := u.boot, host := u.host, out := u.out } : State)).bestRef s = some 7) ∧ (((srv1 3).servo s).await = false) ∧ (((srv1 3).servo s).ramp = none) ∧ ((srv1 3).tcState s = 3) ∧ ((srv1 3).fld F.svStat_SEED s = 0) ∧ ((srv1 3).fld F.svCfg0_STEPEN s = 0))
    ∧ (on.applied = true)
    ∧ (let s := ((ref 3).putInt F.refStat_LAST ((ppsTheta ((ref 3).timeAt ((ref 3).fld F.refCfg_TGT 7) 31) ((ref 3).fld F.refCfg_PARAM 7)).fdiv (65536 : ℤ)) 7); ((ref 3).applied = true) ∧ ((ref 3).servoOn ((ref 3).fld F.refCfg_TGT 7) = false) ∧ (∀ j < 2, (have u := s.put F.refStat_VALID 1 7; ({ pending := u.pending, tick := u.tick, tkBase := u.tkBase, period := u.period, fresh := u.fresh, act := u.act, shd := u.shd, cap := u.cap, lay := u.lay, heldGo := u.heldGo, loft := u.loft, code := u.code, priv := u.priv, mg := u.mg, stage := u.stage, scrub := u.scrub, lost := u.lost, flash := u.flash, eng := u.eng, stb := u.stb, fns := u.fns, pairs := u.pairs, ic := u.ic, rgn := u.rgn, lastInst := u.lastInst, seenInst := u.seenInst, jumpDue := u.jumpDue, ports := u.ports, dirs := u.dirs, yard := u.yard, tc := u.tc, steps := u.steps, steppedAt := u.steppedAt, sv := u.sv, refs := Tab.set 0 u.refs 7 ((ref 3).tick + 1), pg := u.pg, pd := u.pd, can := u.can, pm := u.pm, pins := u.pins, pinPast := u.pinPast, flagAt := u.flagAt, tw := u.tw, pw := u.pw, boot := u.boot, host := u.host, out := u.out } : State)).servoOn j = true → (have u := s.put F.refStat_VALID 1 7; ({ pending := u.pending, tick := u.tick, tkBase := u.tkBase, period := u.period, fresh := u.fresh, act := u.act, shd := u.shd, cap := u.cap, lay := u.lay, heldGo := u.heldGo, loft := u.loft, code := u.code, priv := u.priv, mg := u.mg, stage := u.stage, scrub := u.scrub, lost := u.lost, flash := u.flash, eng := u.eng, stb := u.stb, fns := u.fns, pairs := u.pairs, ic := u.ic, rgn := u.rgn, lastInst := u.lastInst, seenInst := u.seenInst, jumpDue := u.jumpDue, ports := u.ports, dirs := u.dirs, yard := u.yard, tc := u.tc, steps := u.steps, steppedAt := u.steppedAt, sv := u.sv, refs := Tab.set 0 u.refs 7 ((ref 3).tick + 1), pg := u.pg, pd := u.pd, can := u.can, pm := u.pm, pins := u.pins, pinPast := u.pinPast, flagAt := u.flagAt, tw := u.tw, pw := u.pw, boot := u.boot, host := u.host, out := u.out } : State)).bestRef j = (have u := s.put F.refStat_VALID 1 7; ({ pending := u.pending, tick := u.tick, tkBase := u.tkBase, period := u.period, fresh := u.fresh, act := u.act, shd := u.shd, cap := u.cap, lay := u.lay, heldGo := u.heldGo, loft := u.loft, code := u.code, priv := u.priv, mg := u.mg, stage := u.stage, scrub := u.scrub, lost := u.lost, flash := u.flash, eng := u.eng, stb := u.stb, fns := u.fns, pairs := u.pairs, ic := u.ic, rgn := u.rgn, lastInst := u.lastInst, seenInst := u.seenInst, jumpDue := u.jumpDue, ports := u.ports, dirs := u.dirs, yard := u.yard, tc := u.tc, steps := u.steps, steppedAt := u.steppedAt, sv := u.sv, refs := Tab.set 0 u.refs 7 ((ref 3).tick + 1), pg := u.pg, pd := u.pd, can := u.can, pm := u.pm, pins := u.pins, pinPast := u.pinPast, flagAt := u.flagAt, tw := u.tw, pw := u.pw, boot := u.boot, host := u.host, out := u.out } : State)).selRef j)) := by
  (repeat' apply And.intro) <;> decide +kernel

theorem test_hypotheses_ReferencesSteerTheServos_2 :
    (on.applied = true)
    ∧ (let s := ((ref 4).putInt F.refStat_LAST ((-5).fdiv (65536 : ℤ)) 7); ((ref 4).applied = true) ∧ ((ref 4).servoOn ((ref 4).fld F.refCfg_TGT 7) = false) ∧ (∀ j < 2, (have u := s.put F.refStat_VALID 1 7; ({ pending := u.pending, tick := u.tick, tkBase := u.tkBase, period := u.period, fresh := u.fresh, act := u.act, shd := u.shd, cap := u.cap, lay := u.lay, heldGo := u.heldGo, loft := u.loft, code := u.code, priv := u.priv, mg := u.mg, stage := u.stage, scrub := u.scrub, lost := u.lost, flash := u.flash, eng := u.eng, stb := u.stb, fns := u.fns, pairs := u.pairs, ic := u.ic, rgn := u.rgn, lastInst := u.lastInst, seenInst := u.seenInst, jumpDue := u.jumpDue, ports := u.ports, dirs := u.dirs, yard := u.yard, tc := u.tc, steps := u.steps, steppedAt := u.steppedAt, sv := u.sv, refs := Tab.set 0 u.refs 7 ((ref 4).tick + 1), pg := u.pg, pd := u.pd, can := u.can, pm := u.pm, pins := u.pins, pinPast := u.pinPast, flagAt := u.flagAt, tw := u.tw, pw := u.pw, boot := u.boot, host := u.host, out := u.out } : State)).servoOn j = true → (have u := s.put F.refStat_VALID 1 7; ({ pending := u.pending, tick := u.tick, tkBase := u.tkBase, period := u.period, fresh := u.fresh, act := u.act, shd := u.shd, cap := u.cap, lay := u.lay, heldGo := u.heldGo, loft := u.loft, code := u.code, priv := u.priv, mg := u.mg, stage := u.stage, scrub := u.scrub, lost := u.lost, flash := u.flash, eng := u.eng, stb := u.stb, fns := u.fns, pairs := u.pairs, ic := u.ic, rgn := u.rgn, lastInst := u.lastInst, seenInst := u.seenInst, jumpDue := u.jumpDue, ports := u.ports, dirs := u.dirs, yard := u.yard, tc := u.tc, steps := u.steps, steppedAt := u.steppedAt, sv := u.sv, refs := Tab.set 0 u.refs 7 ((ref 4).tick + 1), pg := u.pg, pd := u.pd, can := u.can, pm := u.pm, pins := u.pins, pinPast := u.pinPast, flagAt := u.flagAt, tw := u.tw, pw := u.pw, boot := u.boot, host := u.host, out := u.out } : State)).bestRef j = (have u := s.put F.refStat_VALID 1 7; ({ pending := u.pending, tick := u.tick, tkBase := u.tkBase, period := u.period, fresh := u.fresh, act := u.act, shd := u.shd, cap := u.cap, lay := u.lay, heldGo := u.heldGo, loft := u.loft, code := u.code, priv := u.priv, mg := u.mg, stage := u.stage, scrub := u.scrub, lost := u.lost, flash := u.flash, eng := u.eng, stb := u.stb, fns := u.fns, pairs := u.pairs, ic := u.ic, rgn := u.rgn, lastInst := u.lastInst, seenInst := u.seenInst, jumpDue := u.jumpDue, ports := u.ports, dirs := u.dirs, yard := u.yard, tc := u.tc, steps := u.steps, steppedAt := u.steppedAt, sv := u.sv, refs := Tab.set 0 u.refs 7 ((ref 4).tick + 1), pg := u.pg, pd := u.pd, can := u.can, pm := u.pm, pins := u.pins, pinPast := u.pinPast, flagAt := u.flagAt, tw := u.tw, pw := u.pw, boot := u.boot, host := u.host, out := u.out } : State)).selRef j))
    ∧ ((seen.applied = true) ∧ (seen.fld F.refStat_VALID 7 ≠ 0) ∧ (Tab.get 0 seen.refs 7 = 0 + 1) ∧ (0 + seen.fld F.refCfg_TIMEOUT 7 * 250000 < seen.tick))
    ∧ ((on.applied = true) ∧ (on.fld F.refStat_VALID 7 = 0))
    ∧ ((ramping.applied = true) ∧ ((ramping.servo 1).ramp = some ({ h0 := (0 : ℤ), t0 := 5, w := 0 } : Ramp)) ∧ (({ h0 := (0 : ℤ), t0 := 5, w := 0 } : Ramp).t0 + ({ h0 := (0 : ℤ), t0 := 5, w := 0 } : Ramp).w ≤ ramping.tick))
    ∧ ((on.applied = true) ∧ ((on.servo 1).ramp = none)) := by
  (repeat' apply And.intro) <;> decide +kernel

theorem test_hypotheses_PulsesRiseAndFall :
    (on.fld F.pgCfg_EN 7 = 0)
    ∧ (((pgT { }).fld F.pgCfg_EN 7 ≠ 0) ∧ (((pgT { }).pulse 7).high = false) ∧ ((pgT { }).fld F.pgPer_PER 7 = 0 → ((pgT { }).pulse 7).spent = false ∧ ((pgT { }).pulse 7).late = false) ∧ (((pgT { }).pgStart 7 + ((pgT { }).pulse 7).k * (pgT { }).fld F.pgPer_PER 7) * 2 ^ 32 ≤ (pgT { }).total ((pgT { }).fld F.pgCfg_TCSEL 7)))
    ∧ (let s := pgT { late := true }; (s.fld F.pgCfg_EN 7 ≠ 0) ∧ ((s.pulse 7).high = false) ∧ (s.fld F.pgPer_PER 7 = 0) ∧ ((s.pulse 7).spent = false) ∧ ((s.pulse 7).late = true) ∧ ((s.pgStart 7 + (s.pulse 7).k * s.fld F.pgPer_PER 7) * 2 ^ 32 ≤ s.total (s.fld F.pgCfg_TCSEL 7)))
    ∧ ((on.pulse 7).high = false)
    ∧ (let s := pgT { high := true, fallAt := 9, pin := 255, pol := true, spent := true, last := true }; ((s.pulse 7).high = true) ∧ ((s.pulse 7).endTick = none ∧ (s.pulse 7).fallAt * 2 ^ 32 ≤ s.total (s.pulse 7).dom) ∧ (s.fld F.pgCfg_PIN 7 = (s.pulse 7).pin → s.on F.pgCfg_POL 7 = (s.pulse 7).pol))
    ∧ (let s := pg { high := true, fallAt := 9, endTick := some 0, pin := 255, pol := true, spent := true, last := true }; ((s.pulse 7).high = true) ∧ (0 ≤ s.tick) ∧ ((s.pulse 7).endTick = some 0) ∧ (s.fld F.pgCfg_PIN 7 = (s.pulse 7).pin → s.on F.pgCfg_POL 7 = (s.pulse 7).pol)) := by
  (repeat' apply And.intro) <;> decide +kernel

end W7

namespace W8

/-- A node of role `r` with 4 slots, a cycle of 100 µs and node number 9. -/

def pdn (r : Nat) : State := (((((on.put F.pdCfg0_ROLE r).put F.pdCfg2_NSLOT 1024).put F.pdCfg0_CYC 100000).put F.pdCfg0_NODE 9).put F.pdCfg0_WIN 4).put F.pdCfg1_LISTEN 1

def kind (k kd len start : Nat) (s : State) : State := ((s.put F.pdSlotA_KIND kd k).put F.pdSlotA_LEN len k).put F.pdSlotA_START start k

def aligned (s : State) : State := s.put F.pdStat_ALIGN 1

def begun (s : State) : State := { s with pd := { s.pd with started := true } }

def quietNow : State := let s := begun (kind 0 1 3 64 (pdn 5)); { s with pd := { s.pd with refFrom := some 1000 } }

def refHeard : State := let s := aligned (kind 3 1 3 64 (pdn 4)); { s with pd := { s.pd with refSeen := true } }

def far : State := let s := aligned (kind 1023 2 1 64 (pdn 1)); { s with pd := { s.pd with theta := 6553601 } }

def spare (c q : Nat) : State := ((aligned (kind 7 4 1 64 (pdn 1))).put F.pdSlotA_CLAIM 1 7 |>.put F.pdSlotst_CLAIM c 7).put F.pdSlotst_QUIET q 7

def spareFar : State := let s := spare 3 0; { s with pd := { s.pd with theta := 6553601 } }

def none2 : PdRx := { a := none, b := none, strayA := 2, strayB := 1 }

def line1 (typ node slot cnum : Nat) (ws : List Word) : List Bool := (scramble (frameBits typ node slot cnum ws) 0).1

def cp1 (typ node slot cnum : Nat) (ws : List Word) : PdCopy := { line := line1 typ node slot cnum ws, ago := 40 * (116 + 48 * ws.length) }

def got (typ node slot cnum : Nat) (ws : List Word) : PdRx := { a := some (cp1 typ node slot cnum ws), b := none, strayA := 0, strayB := 0 }

def fr1 (typ node slot cnum : Nat) (ws : List Word) : PdFrame := { typ := typ, node := node, slot := slot, cnum := cnum, len := ws.length, payload := ws, crcOk := true }

def lonely : State := let s := spare 3 0; { s with pd := { s.pd with sentSlots := [7] }, tick := 1 }

def mapped : State := (((((aligned (kind 1023 3 1 64 (pdn 1))).put F.pdSlotB_MAP 1 1023).put F.pdSlotB_RGN 63 1023).put F.mgCfg0_SIZE 2 63).put F.mgCfg0_TRIPLE 1 63).put F.pdSlotB_WOFS 1 1023

def boffs (k : Nat) (s : State) : State := { s with pd := { s.pd with boff := Tab.set 0 s.pd.boff k 5 }, tick := 5 }

def later (s : State) : State := { s with tick := 250000 }

def cand3 : State := let s := later (pdn 1); { s with pd := { s.pd with cands := [⟨100, 3⟩] } }

def req : State := on.put F.canTxCtl_TXREQ 1 3 2

def onBus (s : State) (k : Nat) : State := s.setCn 3 { s.cn 3 with bus := some k }

def cn (m : Nat) : State := (on.put F.canCfg0_MODE m 3).put F.canStat_SYNCD 1 3

def cnReq (m : Nat) : State := ((cn m).put F.canTxCtl_TXREQ 1 3 2).put F.canTxHdr_DLC 8 3 2

def monS : State := (cn 1).setCn 3 { (cn 1).cn 3 with mon := true }

def onBusA : State := (cnReq 1).setCn 3 { (cnReq 1).cn 3 with bus := some 2, abort := true }

def cf (fdf res : Bool) : CanFrame := { ide := false, rtr := false, fdf := fdf, brs := false, esi := false, dlc := 8, ident := 5, data := List.replicate 8 1, res := res }

def cnFd : State := (cn 1).put F.canCfg0_FDOE 1 3

def cnFlt : State := (cn 1).put F.canFltA_EN 1 3 127

def cnFull : State := cnFlt.setCn 3 { cnFlt.cn 3 with fifo := List.replicate 64 ⟨0, 0, []⟩ }

def ce (tx dp dm : Bool) (c : Fin 8) : CanErr := ⟨tx, dp, c, dm⟩

def bo (k : Nat) : State := ((cn 1).put F.canStat_FCS 2 3).put F.canStat_BOREC k 3

theorem test_hypotheses_PaddockSlotsAreSent_1 :
    (on.pdRole = 0)
    ∧ (let s := kind 1023 2 1 64 (pdn 1); (s.pdRole ≠ 0) ∧ (s.pdMuted = false) ∧ (1023 < s.fld F.pdCfg2_NSLOT) ∧ (s.pdTimed = false) ∧ (s.pdData 1023 = true))
    ∧ (let s := kind 1023 3 1 64 (pdn 1); (s.pdRole ≠ 0) ∧ (s.pdMuted = false) ∧ (1023 < s.fld F.pdCfg2_NSLOT) ∧ (s.pdTimed = false) ∧ (s.pdData 1023 = false))
    ∧ (let s := begun (kind 0 1 3 64 (pdn 5)); (s.pdRole ≠ 0) ∧ (s.pdMuted = false) ∧ (0 < s.fld F.pdCfg2_NSLOT) ∧ (s.pdTimed = true) ∧ ((pdLead (0) s).2.pd.sentSlots.contains 0 = false) ∧ ((pdLead (0) s).2.pd.refFrom = none) ∧ (0 = 0) ∧ (s.pdActs = 5) ∧ (s.fld F.pdStat_ALONE = 0) ∧ (s.pd.started = true) ∧ (s.pdKind 0 = 1))
    ∧ (let s := begun (kind 0 1 3 64 ((pdn 1).put F.pdStat_ALONE 1)); (s.pdRole ≠ 0) ∧ (s.pdMuted = false) ∧ (0 < s.fld F.pdCfg2_NSLOT) ∧ (s.pdTimed = true) ∧ ((pdLead (0) s).2.pd.sentSlots.contains 0 = false) ∧ ((pdLead (0) s).2.pd.refFrom = none) ∧ (0 = 0) ∧ (s.fld F.pdStat_ALONE ≠ 0) ∧ (Tab.get 0 s.pd.boff 0 = 0) ∧ (s.pdKind 0 = 1))
    ∧ ((quietNow.pdRole ≠ 0) ∧ (quietNow.pdMuted = false) ∧ (0 < quietNow.fld F.pdCfg2_NSLOT) ∧ (quietNow.pdTimed = true) ∧ ((pdLead (0) quietNow).2.pd.sentSlots.contains 0 = false) ∧ (quietNow.pdKind 0 = 1) ∧ ((pdLead (0) quietNow).2.pd.refFrom ≠ none)) := by
  (repeat' apply And.intro) <;> decide +kernel

theorem test_hypotheses_PaddockSlotsAreSent_2 :
    (let s := aligned (kind 3 1 3 64 (pdn 4)); (s.pdRole ≠ 0) ∧ (s.pdMuted = false) ∧ (3 < s.fld F.pdCfg2_NSLOT) ∧ (s.pdTimed = true) ∧ ((pdLead (3) s).2.pd.sentSlots.contains 3 = false) ∧ ((pdLead (3) s).2.pd.refFrom = none) ∧ (2 ≤ s.pdActs) ∧ (s.pdActs ≤ 4) ∧ (3 + 1 = s.pdActs) ∧ (s.fld F.pdStat_ALONE = 0) ∧ (s.pdKind 3 = 1) ∧ ((pdLead (3) s).2.pd.refSeen = false) ∧ (s.pd.boff = []))
    ∧ ((refHeard.pdRole ≠ 0) ∧ (refHeard.pdMuted = false) ∧ (3 < refHeard.fld F.pdCfg2_NSLOT) ∧ (refHeard.pdTimed = true) ∧ ((pdLead (3) refHeard).2.pd.sentSlots.contains 3 = false) ∧ ((pdLead (3) refHeard).2.pd.refFrom = none) ∧ (2 ≤ refHeard.pdActs) ∧ (refHeard.pdActs ≤ 4) ∧ (3 + 1 = refHeard.pdActs) ∧ (refHeard.fld F.pdStat_ALONE = 0) ∧ (refHeard.pdKind 3 = 1) ∧ ((pdLead (3) refHeard).2.pd.refSeen = true) ∧ (refHeard.pd.boff = []))
    ∧ ((far.pdRole ≠ 0) ∧ (far.pdMuted = false) ∧ (1023 < far.fld F.pdCfg2_NSLOT) ∧ (far.pdTimed = true) ∧ ((pdLead (1023) far).2.pd.sentSlots.contains 1023 = false) ∧ (far.pdKind 1023 = 2) ∧ (far.pdTxOk = false))
    ∧ (let s := aligned (kind 1023 2 2 64 (pdn 1)); (s.pdRole ≠ 0) ∧ (s.pdMuted = false) ∧ (1023 < s.fld F.pdCfg2_NSLOT) ∧ (s.pdTimed = true) ∧ ((pdLead (1023) s).2.pd.sentSlots.contains 1023 = false) ∧ (s.pdKind 1023 = 2) ∧ (s.pdTxOk = true))
    ∧ (((spare 0 0).pdRole ≠ 0) ∧ ((spare 0 0).pdMuted = false) ∧ (7 < (spare 0 0).fld F.pdCfg2_NSLOT) ∧ ((spare 0 0).pdTimed = true) ∧ ((pdLead (7) (spare 0 0)).2.pd.sentSlots.contains 7 = false) ∧ ((spare 0 0).pdKind 7 = 4) ∧ ((spare 0 0).fld F.pdSlotA_CLAIM 7 ≠ 0) ∧ ((spare 0 0).fld F.pdSlotst_CLAIM 7 = 0))
    ∧ ((spareFar.pdRole ≠ 0) ∧ (spareFar.pdMuted = false) ∧ (7 < spareFar.fld F.pdCfg2_NSLOT) ∧ (spareFar.pdTimed = true) ∧ ((pdLead (7) spareFar).2.pd.sentSlots.contains 7 = false) ∧ (spareFar.pdKind 7 = 4) ∧ (spareFar.fld F.pdSlotA_CLAIM 7 ≠ 0) ∧ (spareFar.fld F.pdSlotst_CLAIM 7 = 3) ∧ (spareFar.pdTxOk = false)) := by
  (repeat' apply And.intro) <;> decide +kernel

theorem test_hypotheses_PaddockSlotsAreSent_3 :
    (((spare 3 0).pdRole ≠ 0) ∧ ((spare 3 0).pdMuted = false) ∧ (7 < (spare 3 0).fld F.pdCfg2_NSLOT) ∧ ((spare 3 0).pdTimed = true) ∧ ((pdLead (7) (spare 3 0)).2.pd.sentSlots.contains 7 = false) ∧ ((spare 3 0).pdKind 7 = 4) ∧ ((spare 3 0).fld F.pdSlotA_CLAIM 7 ≠ 0) ∧ ((spare 3 0).pdTxOk = true) ∧ ((spare 3 0).fld F.pdSlotst_CLAIM 7 = 3))
    ∧ (((spare 1 2).pdRole ≠ 0) ∧ ((spare 1 2).pdMuted = false) ∧ (7 < (spare 1 2).fld F.pdCfg2_NSLOT) ∧ ((spare 1 2).pdTimed = true) ∧ ((pdLead (7) (spare 1 2)).2.pd.sentSlots.contains 7 = false) ∧ ((spare 1 2).pdKind 7 = 4) ∧ ((spare 1 2).fld F.pdSlotA_CLAIM 7 ≠ 0) ∧ ((spare 1 2).pdTxOk = true) ∧ ((spare 1 2).fld F.pdSlotst_CLAIM 7 = 1 ∧ 2 ≤ (spare 1 2).fld F.pdSlotst_QUIET 7)) := by
  (repeat' apply And.intro) <;> decide +kernel

theorem test_hypotheses_PaddockWindowsAreRecorded_1 :
    (on.pdTimed = false)
    ∧ (let s := aligned (kind 1023 3 1 64 (pdn 1)); (s.pdTimed = true) ∧ (1023 < s.fld F.pdCfg2_NSLOT) ∧ (none2.a = none) ∧ (none2.b = none) ∧ (s.pdKind 1023 = 3) ∧ (s.fld F.pdSlotB_MAP 1023 = 0))
    ∧ ((lonely.pdTimed = true) ∧ (7 < lonely.fld F.pdCfg2_NSLOT) ∧ (none2.a = none) ∧ (none2.b = none) ∧ (lonely.pdKind 7 = 4) ∧ (lonely.fld F.pdSlotA_CLAIM 7 ≠ 0) ∧ (lonely.fld F.pdSlotB_MAP 7 = 0) ∧ (7 = 0 → lonely.fld F.pdStat_ALONE = 0) ∧ ((pdPass (5 * (lonely.fld F.pdSlotA_START 7 + lonely.pdBits 7 + lonely.fld F.pdCfg0_WIN)) lonely).2.pd.sentSlots.contains 7 = true) ∧ (0 < lonely.tick))
    ∧ (let s := aligned (kind 1023 2 1 64 (pdn 1)); (s.pdTimed = true) ∧ (1023 < s.fld F.pdCfg2_NSLOT) ∧ (s.pdKind 1023 ≠ 0) ∧ (((pdPass (5 * (s.fld F.pdSlotA_START 1023 + s.pdBits 1023 + s.fld F.pdCfg0_WIN)) s).2.pdHeard (1023) (got 1 9 1023 0 [7]).strayA (got 1 9 1023 0 [7]).a).1 = some (fr1 1 9 1023 0 [7])) ∧ ((pdPass (5 * (s.fld F.pdSlotA_START 1023 + s.pdBits 1023 + s.fld F.pdCfg0_WIN)) s).2.pdValid (1023) (fr1 1 9 1023 0 [7]) = true) ∧ ((fr1 1 9 1023 0 [7]).node = s.fld F.pdCfg0_NODE))
    ∧ (let s := aligned (kind 1023 3 1 64 (pdn 1)); let u := fr1 1 5 1023 0 [7]; (s.pdTimed = true) ∧ (1023 < s.fld F.pdCfg2_NSLOT) ∧ ((got 1 5 1023 0 [7]).a = some (cp1 1 5 1023 0 [7])) ∧ ((got 1 5 1023 0 [7]).b = none) ∧ (readFrame (cp1 1 5 1023 0 [7]).line = some u) ∧ (s.inWindow (1023) (cp1 1 5 1023 0 [7]) = true) ∧ (u.crcOk = true) ∧ (u.slot = 1023) ∧ (u.len = s.fld F.pdSlotA_LEN 1023) ∧ (u.cnum = (pdPass (5 * (s.fld F.pdSlotA_START 1023 + s.pdBits 1023 + s.fld F.pdCfg0_WIN)) s).2.pd.cycle) ∧ (s.pdKind 1023 = 3) ∧ (s.fld F.pdSlotB_MAP 1023 = 0) ∧ (u.typ = 1))
    ∧ (let s := fr1 1 5 1023 0 [7]; (mapped.pdTimed = true) ∧ (1023 < mapped.fld F.pdCfg2_NSLOT) ∧ ((got 1 5 1023 0 [7]).a = some (cp1 1 5 1023 0 [7])) ∧ ((got 1 5 1023 0 [7]).b = none) ∧ (readFrame (cp1 1 5 1023 0 [7]).line = some s) ∧ (mapped.inWindow (1023) (cp1 1 5 1023 0 [7]) = true) ∧ (s.crcOk = true) ∧ (s.slot = 1023) ∧ (s.len = mapped.fld F.pdSlotA_LEN 1023) ∧ (s.cnum = (pdPass (5 * (mapped.fld F.pdSlotA_START 1023 + mapped.pdBits 1023 + mapped.fld F.pdCfg0_WIN)) mapped).2.pd.cycle) ∧ (mapped.pdKind 1023 = 3) ∧ (mapped.fld F.pdSlotB_MAP 1023 ≠ 0) ∧ (s.typ = 1) ∧ (s.len = 1) ∧ (mapped.rgSrc (mapped.fld F.pdSlotB_RGN 1023) ≠ 1)) := by
  (repeat' apply And.intro) <;> decide +kernel

theorem test_hypotheses_PaddockWindowsAreRecorded_2 :
    (let s := aligned (kind 3 1 3 64 (pdn 1)); let u := pdPass (5 * (s.fld F.pdSlotA_START 3 + s.pdBits 3 + s.fld F.pdCfg0_WIN)) s; let v := fr1 0 5 3 0 [7, 8, 9]; (s.pdTimed = true) ∧ (3 < s.fld F.pdCfg2_NSLOT) ∧ ((got 0 5 3 0 [7, 8, 9]).a = some (cp1 0 5 3 0 [7, 8, 9])) ∧ ((got 0 5 3 0 [7, 8, 9]).b = none) ∧ (readFrame (cp1 0 5 3 0 [7, 8, 9]).line = some v) ∧ (s.inWindow (3) (cp1 0 5 3 0 [7, 8, 9]) = true) ∧ (v.crcOk = true) ∧ (v.slot = 3) ∧ (v.len = s.fld F.pdSlotA_LEN 3) ∧ (v.cnum = u.2.pd.cycle) ∧ (s.pdKind 3 = 1) ∧ (3 ≤ 3) ∧ (v.typ = 0) ∧ (u.2.pd.refSeen = false) ∧ (u.2.pd.sentSlots.contains 3 = false)) := by
  (repeat' apply And.intro) <;> decide +kernel

theorem test_hypotheses_PaddockListensAndAligns_1 :
    (Tab.get 0 on.pd.boff 1023 = 0)
    ∧ (let s := boffs 0 ((pdn 1).put F.pdStat_ALONE 1); (Tab.get 0 s.pd.boff 0 ≠ 0) ∧ (Tab.get 0 s.pd.boff 0 ≤ s.tick) ∧ (0 = 0 ∧ s.fld F.pdStat_ALONE ≠ 0))
    ∧ ((Tab.get 0 (boffs 1023 (pdn 1)).pd.boff 1023 ≠ 0) ∧ (Tab.get 0 (boffs 1023 (pdn 1)).pd.boff 1023 ≤ (boffs 1023 (pdn 1)).tick) ∧ (¬(1023 = 0 ∧ (boffs 1023 (pdn 1)).fld F.pdStat_ALONE ≠ 0)))
    ∧ (on.pdActs = 0)
    ∧ (((later (pdn 5)).pdActs = 5) ∧ ((later (pdn 5)).fld F.pdStat_ALONE = 0) ∧ ((later (pdn 5)).pd.started = false) ∧ ((later (pdn 5)).pd.boff = []) ∧ ((later (pdn 5)).pd.enabledAt + (later (pdn 5)).fld F.pdCfg1_LISTEN * 250000 ≤ (later (pdn 5)).tick))
    ∧ (let s := later (aligned (begun (pdn 5))); (s.pdActs = 5) ∧ (s.fld F.pdStat_ALONE = 0) ∧ (s.pd.started = true) ∧ (s.fld F.pdStat_ALIGN ≠ 0) ∧ (max s.pd.enabledAt (s.pd.lastRef.getD 0) + s.fld F.pdCfg1_LISTEN * 250000 ≤ s.tick)) := by
  (repeat' apply And.intro) <;> decide +kernel

theorem test_hypotheses_PaddockListensAndAligns_2 :
    (((later (pdn 2)).pdActs ≠ 0) ∧ ((later (pdn 2)).pdActs ≠ 5) ∧ ((later (pdn 2)).fld F.pdStat_ALONE = 0) ∧ ((later (pdn 2)).pd.boff = []) ∧ (max (later (pdn 2)).pd.enabledAt ((later (pdn 2)).pd.lastRef.getD 0) + (later (pdn 2)).fld F.pdCfg1_LISTEN * 250000 ≤ (later (pdn 2)).tick))
    ∧ (readFrame [true] = none)
    ∧ ((readFrame (line1 1 5 3 0 [7]) = some (fr1 1 5 3 0 [7])) ∧ ((fr1 1 5 3 0 [7]).typ ≠ 0))
    ∧ ((readFrame (line1 0 5 3 0 [7]) = some (fr1 0 5 3 0 [7])) ∧ ((later (pdn 1)).pdActs ≠ 0) ∧ ((later (pdn 1)).fld F.pdStat_ALIGN = 0) ∧ ((fr1 0 5 3 0 [7]).typ = 0) ∧ ((fr1 0 5 3 0 [7]).slot ≤ 3) ∧ ((100 + 256) * 5 / 4 ≤ (later (pdn 1)).tick) ∧ ((later (pdn 1)).pd.cands = []))
    ∧ ((readFrame (line1 0 5 3 9 [7]) = some (fr1 0 5 3 9 [7])) ∧ (cand3.pdActs ≠ 0) ∧ (cand3.fld F.pdStat_ALIGN = 0) ∧ ((fr1 0 5 3 9 [7]).typ = 0) ∧ ((fr1 0 5 3 9 [7]).slot ≤ 3) ∧ ((20100 + 256) * 5 / 4 ≤ cand3.tick) ∧ (cand3.pd.cands = [{ pos := 100, n := 3 }]) ∧ (20100 = 100 + cand3.fld F.pdCfg0_CYC / 5) ∧ ((fr1 0 5 3 9 [7]).crcOk = true) ∧ (cand3.pd.boff = [])) := by
  (repeat' apply And.intro) <;> decide +kernel

theorem test_hypotheses_CanBuffersAreRequestedAndWithdrawn_1 :
    (((on.put F.fnCfg_VF 3 5).heard (Who.vf (2 : Fin 15)) = true) ∧ ((on.put F.fnCfg_VF 3 5).applied = true) ∧ ((on.put F.fnCfg_VF 3 5).mayCan (Who.vf (2 : Fin 15)) 3 = false))
    ∧ (((on.put F.fnCfg_VF 3 5).heard (Who.vf (2 : Fin 15)) = true) ∧ ((on.put F.fnCfg_VF 3 5).applied = true) ∧ ((on.put F.fnCfg_VF 3 5).mayCan (Who.vf (2 : Fin 15)) 3 = false))
    ∧ (((on.put F.fnCfg_VF 3 5).heard (Who.vf (2 : Fin 15)) = true) ∧ ((on.put F.fnCfg_VF 3 5).applied = true) ∧ ((on.put F.fnCfg_VF 3 5).mayCan (Who.vf (2 : Fin 15)) 3 = false))
    ∧ (((on.put F.fnCfg_VF 3 5).heard (Who.vf (2 : Fin 15)) = true) ∧ ((on.put F.fnCfg_VF 3 5).applied = true) ∧ ((on.put F.fnCfg_VF 3 5).mayCan (Who.vf (2 : Fin 15)) 3 = false))
    ∧ ((on.heard Who.pf = true) ∧ (on.applied = true) ∧ (on.mayCan Who.pf 3 = true))
    ∧ ((req.heard Who.pf = true) ∧ (req.applied = true) ∧ (req.mayCan Who.pf 3 = true) ∧ (req.fld F.canTxCtl_TXREQ 3 2 ≠ 0)) := by
  (repeat' apply And.intro) <;> decide +kernel

theorem test_hypotheses_CanBuffersAreRequestedAndWithdrawn_2 :
    ((req.heard Who.pf = true) ∧ (req.applied = true) ∧ (req.mayCan Who.pf 3 = true) ∧ (req.fld F.canTxCtl_TXREQ 3 2 ≠ 0))
    ∧ (((onBus req 2).heard Who.pf = true) ∧ ((onBus req 2).applied = true) ∧ ((onBus req 2).mayCan Who.pf 3 = true) ∧ ((onBus req 2).fld F.canTxCtl_TXREQ 3 2 ≠ 0) ∧ (((onBus req 2).cn 3).bus = some 2))
    ∧ ((req.heard Who.pf = true) ∧ (req.applied = true) ∧ (req.mayCan Who.pf 3 = true) ∧ (req.fld F.canTxCtl_TXREQ 3 2 ≠ 0) ∧ ((req.cn 3).bus ≠ some 2))
    ∧ ((on.heard Who.pf = true) ∧ (on.applied = true) ∧ (on.mayCan Who.pf 3 = true) ∧ (on.fld F.canTxCtl_TXREQ 3 2 = 0) ∧ (11 = 10 + 1))
    ∧ ((on.heard Who.pf = true) ∧ (on.applied = true) ∧ (on.mayCan Who.pf 3 = true) ∧ (on.fld F.canTxCtl_TXREQ 3 2 = 0))
    ∧ ((on.heard Who.pf = true) ∧ (on.applied = true) ∧ (on.mayCan Who.pf 3 = true) ∧ (on.fld F.canTxCtl_TXREQ 3 2 = 0)) := by
  (repeat' apply And.intro) <;> decide +kernel

theorem test_hypotheses_CanBuffersAreRequestedAndWithdrawn_3 :
    ((on.heard Who.pf = true) ∧ (on.applied = true) ∧ (on.mayCan Who.pf 3 = true) ∧ (on.fld F.canTxCtl_TXREQ 3 2 = 0)) := by
  (repeat' apply And.intro) <;> decide +kernel

theorem test_hypotheses_CanFramesAreSent_1 :
    (((on.cn 3).mon = false) ∧ (on.canOn 3 = false))
    ∧ ((monS.cn 3).mon = true)
    ∧ (((cn 1).canOn 3 = true) ∧ ((cn 1).canMode 3 = 1) ∧ (((cn 1).cn 3).bus = none) ∧ (∀ k < 3, (cn 1).fld F.canTxCtl_TXREQ (3) k = 0))
    ∧ (((cnReq 1).canOn 3 = true) ∧ ((cnReq 1).canMode 3 = 1) ∧ (((cnReq 1).cn 3).bus = none) ∧ ((cnReq 1).fld F.canCfg0_TXORD 3 = 0) ∧ (∃ k < 3, (cnReq 1).fld F.canTxCtl_TXREQ (3) k ≠ 0))
    ∧ ((on.cn 3).bus = none)
    ∧ ((2 < 3) ∧ (((onBus (cnReq 1) 2).cn 3).bus = some 2)) := by
  (repeat' apply And.intro) <;> decide +kernel

theorem test_hypotheses_CanFramesAreSent_2 :
    ((2 < 3) ∧ (((onBus (cnReq 4) 2).cn 3).bus = some 2))
    ∧ ((2 < 3) ∧ (((onBus (cnReq 1) 2).cn 3).bus = some 2) ∧ (CanEnd.error ∈ [CanEnd.lostArbitration, CanEnd.error]) ∧ (((onBus (cnReq 1) 2).cn 3).abort = false))
    ∧ ((2 < 3) ∧ ((onBusA.cn 3).bus = some 2) ∧ (CanEnd.lostArbitration ∈ [CanEnd.lostArbitration, CanEnd.error]) ∧ ((onBusA.cn 3).abort = true)) := by
  (repeat' apply And.intro) <;> decide +kernel

theorem test_hypotheses_CanFramesAndErrorsAreReceived_1 :
    (on.canOn 3 = false)
    ∧ (let s := cnFd.put F.canCfg0_PXE 1 3; (s.canOn 3 = true) ∧ (s.canMode 3 ≠ 4) ∧ ((s.cn 3).bus = none) ∧ ((cf true true).fdf = true) ∧ ((cf true true).res = true) ∧ (s.fld F.canCfg0_FDOE 3 ≠ 0) ∧ (s.fld F.canCfg0_PXE 3 ≠ 0))
    ∧ ((cnFd.canOn 3 = true) ∧ (cnFd.canMode 3 ≠ 4) ∧ ((cnFd.cn 3).bus = none) ∧ ((cf true true).fdf = true) ∧ ((cf true true).res = true) ∧ (cnFd.fld F.canCfg0_FDOE 3 ≠ 0) ∧ (cnFd.fld F.canCfg0_PXE 3 = 0) ∧ (cnFd.canMode 3 = 1) ∧ (cnFd.fld F.canStat_FCS 3 = 0) ∧ (cnFd.fld F.canStat_TEC 3 < 120) ∧ (cnFd.fld F.canStat_REC 3 < 119))
    ∧ (let s := cf false false; ((cn 1).canOn 3 = true) ∧ ((cn 1).canMode 3 ≠ 4) ∧ (((cn 1).cn 3).bus = none) ∧ (s.fdf = true → (cn 1).fld F.canCfg0_FDOE 3 ≠ 0 ∧ s.res = false) ∧ (∀ i < 128, (cn 1).canMatch (3) s (if s.ide = true then ↑s.ident else ↑s.ident / 2 ^ 18 * 2 ^ 18) i = false) ∧ ((cn 1).fld F.canCfg0_NOMATCH 3 = 0))
    ∧ (let s := cf false false; ((cn 2).canOn 3 = true) ∧ ((cn 2).canMode 3 ≠ 4) ∧ (((cn 2).cn 3).bus = none) ∧ (s.fdf = true → (cn 2).fld F.canCfg0_FDOE 3 ≠ 0 ∧ s.res = false) ∧ (∀ i < 128, (cn 2).canMatch (3) s (if s.ide = true then ↑s.ident else ↑s.ident / 2 ^ 18 * 2 ^ 18) i = false) ∧ ((cn 2).fld F.canCfg0_NOMATCH 3 = 0))
    ∧ (let s := cf false false; (cnFlt.canOn 3 = true) ∧ (cnFlt.canMode 3 ≠ 4) ∧ ((cnFlt.cn 3).bus = none) ∧ (s.fdf = true → cnFlt.fld F.canCfg0_FDOE 3 ≠ 0 ∧ s.res = false) ∧ (127 < 128) ∧ (cnFlt.canMatch (3) s (if s.ide = true then ↑s.ident else ↑s.ident / 2 ^ 18 * 2 ^ 18) 127 = true) ∧ (∀ j < 127, cnFlt.canMatch (3) s (if s.ide = true then ↑s.ident else ↑s.ident / 2 ^ 18 * 2 ^ 18) j = false) ∧ ((cnFlt.cn 3).fifo.length < 64)) := by
  (repeat' apply And.intro) <;> decide +kernel

theorem test_hypotheses_CanFramesAndErrorsAreReceived_2 :
    (let s := cf false false; (cnFull.canOn 3 = true) ∧ (cnFull.canMode 3 ≠ 4) ∧ ((cnFull.cn 3).bus = none) ∧ (s.fdf = true → cnFull.fld F.canCfg0_FDOE 3 ≠ 0 ∧ s.res = false) ∧ (127 < 128) ∧ (cnFull.canMatch (3) s (if s.ide = true then ↑s.ident else ↑s.ident / 2 ^ 18 * 2 ^ 18) 127 = true) ∧ (∀ j < 127, cnFull.canMatch (3) s (if s.ide = true then ↑s.ident else ↑s.ident / 2 ^ 18 * 2 ^ 18) j = false) ∧ (64 ≤ (cnFull.cn 3).fifo.length))
    ∧ (on.canOn 3 = false)
    ∧ (((cn 1).canOn 3 = true) ∧ ((cn 1).canMode 3 = 1) ∧ (1 ≤ ↑(ce true false false (6 : Fin 8)).code) ∧ (↑(ce true false false (6 : Fin 8)).code ≤ 6) ∧ ((cn 1).fld F.canStat_FCS 3 = 0) ∧ ((cn 1).fld F.canStat_TEC 3 < 120) ∧ ((cn 1).fld F.canStat_REC 3 < 119))
    ∧ (((cn 1).canOn 3 = true) ∧ ((cn 1).canMode 3 = 1) ∧ (1 ≤ ↑(ce false true true (1 : Fin 8)).code) ∧ (↑(ce false true true (1 : Fin 8)).code ≤ 6) ∧ ((cn 1).fld F.canStat_FCS 3 = 0) ∧ ((cn 1).fld F.canStat_TEC 3 < 120) ∧ ((cn 1).fld F.canStat_REC 3 < 119))
    ∧ (((cn 3).canOn 3 = true) ∧ ((cn 3).canMode 3 = 3) ∧ (1 ≤ ↑(ce true false false (3 : Fin 8)).code) ∧ (↑(ce true false false (3 : Fin 8)).code ≤ 6))
    ∧ (let s := onBus ((cnReq 1).put F.canStat_TEC 248 3) 2; let u := (ce true false false (6 : Fin 8)); (s.canOn 3 = true) ∧ (s.canMode 3 = 1) ∧ (1 ≤ ↑u.code) ∧ (↑u.code ≤ 6) ∧ (u.tx = true) ∧ (↑u.code ≠ 1) ∧ (s.fld F.canStat_FCS 3 = 0) ∧ (248 ≤ s.fld F.canStat_TEC 3)) := by
  (repeat' apply And.intro) <;> decide +kernel

theorem test_hypotheses_CanFramesAndErrorsAreReceived_3 :
    ((cn 1).fld F.canStat_FCS 3 ≠ 2)
    ∧ (((bo 100).fld F.canStat_FCS 3 = 2) ∧ ((bo 100).fld F.canStat_SYNCD 3 ≠ 0) ∧ ((bo 100).canMode 3 ≠ 0) ∧ ((bo 100).fld F.canStat_BOREC 3 + 27 < 128))
    ∧ (((bo 100).fld F.canStat_FCS 3 = 2) ∧ ((bo 100).fld F.canStat_SYNCD 3 ≠ 0) ∧ ((bo 100).canMode 3 ≠ 0) ∧ (128 ≤ (bo 100).fld F.canStat_BOREC 3 + 28))
    ∧ (on.canMode 3 = 0)
    ∧ (((on.put F.canCfg0_MODE 1 3).applied = true) ∧ ((on.put F.canCfg0_MODE 1 3).canMode 3 ≠ 0)) := by
  (repeat' apply And.intro) <;> decide +kernel

end W8

namespace W9

/-- Machine 7 of block 3 steps to instruction `i` of opcode `op`, which is injected. -/

def mi (op low : Nat) : Nat := op * 2 ^ 20 + low

def pmOn : State := (((((((on.put F.pmCfg0_EN 1 3 7).put F.pmCtl_RUN 1 3 7).put F.pmCfg0_STEPI 1 3 7).put F.pmCfg1_DN 2 3 7).put F.pmCfg1_CN 2 3 7).put F.pmCfg1_DBASE 15 3 7).put F.pmCfg1_CBASE 15 3 7).put F.piPin_FUNC 1 3 15 |>.put F.piPin_MACH 7 3 15

def pmx (op low : Nat) (x : PmS) (s : State := pmOn) : State := s.setMach 3 7 { x with stall := 0, inj := some (BitVec.ofNat 24 (mi op low)) }

/-- All pins of block 3 are the machine's and driven low. -/

def pmDrv : State := (List.range 16).foldl (fun s j => ((s.put F.piPin_FUNC 1 3 j).put F.piPin_MACH 7 3 j).put F.piPin_OE0 1 3 j) pmOn

def x0 : State := pmx 0 0 {}

def x1 : State := pmx 1 31 {}

def x2 : State := pmx 2 31 {}

def x3 : State := pmx 2 31 { c0 := 5 }

def x4 : State := pmx 2 (64 + 31) {}

def x5 : State := pmx 2 (64 + 31) { c1 := 5 }

def x6 : State := pmx 3 (16 + 0) {} pmDrv

def x7 : State := pmx 3 (16 + 1) {} pmDrv

def x8 : State := pmx 3 (16 + 2) {} pmDrv

def x9 : State := pmx 3 (16 + 3) { tn := 1 } pmDrv

def x10 : State := pmx 3 (16 + 4) { rn := 48 } pmDrv

def x11 : State := pmx 3 (16 + 5) { g := 0 } pmDrv

def x12 : State := pmx 3 (16 + 6) { g := 1 } pmDrv

def x13 : State := pmx 3 (16 + 7) { c0 := 1 } pmDrv

def x14 : State := pmx 3 (16 + 8) {} pmDrv

def x15 : State := pmx 4 (96 + 31) { g := 65535 }

def x16 : State := pmx 4 31 {}

def x17 : State := pmx 10 (1 * 16 + 0 * 4) { c0 := 9 }

def x18 : State := pmx 10 (1 * 16 + 1 * 4) { c0 := 9 }

def x19 : State := pmx 10 (1 * 16 + 2 * 4) { c0 := 9 }

def x20 : State := pmx 10 (1 * 16 + 3 * 4) { c0 := 9 }

def x21 : State := pmx 10 (2 * 16 + 0 * 4) { c1 := 65535 }

def x22 : State := pmx 10 (3 * 16 + 0 * 4) { th := 7 }

def x23 : State := pmx 10 (4 * 16 + 0 * 4) { rg := 7 }

def x24 : State := pmx 10 0 {} pmDrv

def x25 : State := pmx 10 (5 * 16) {}

def x26 : State := pmx 11 0 { g := 7 }

def x27 : State := pmx 11 32 { g := 7 }

def x28 : State := pmx 11 64 { g := 1 }

def x29 : State := pmx 9 (0 * 32 + 1) {}

def x30 : State := pmx 9 (1 * 32 + 1) {}

def x31 : State := pmx 9 (2 * 32 + 1) {}

def x32 : State := pmx 9 (3 * 32 + 1) {}

def pmRef : State := (pmOn.put F.pmCfg2_REFILL 1 3 7).put F.pmCfg2_AUTODLV 1 3 7

def x33 : State := pmx 5 (64 + 48) { tn := 47 } pmRef

def x34 : State := pmx 5 2 { tn := 1, txf := [5] } pmRef

def x35 : State := pmx 5 2 { tn := 1, th := 0xC00000000000 }

def x36 : State := pmx 5 (64 + 48) { tn := 48, th := 7 }

def x37 : State := pmx 6 (64 + 48) { rxf := List.replicate 4 0 } pmRef

def x38 : State := pmx 6 (64 + 48) { g := 5 } pmRef

def x39 : State := pmx 6 16 { rn := 40 }

def x40 : State := pmx 7 1 { tn := 1 }

def x41 : State := pmx 7 0 { tn := 1 }

def x42 : State := pmx 7 1 { txf := [7, 8] }

def x43 : State := pmx 8 1 { rn := 47 }

def x44 : State := pmx 8 0 { rxf := List.replicate 4 0 }

def x45 : State := pmx 8 1 { rn := 48, rg := 9 }

def x46 : State := pmx 0 (2 ^ 19) {} (pmOn.put F.pmCfg2_HEAD 9 3 7)

/-- The same without injection: the instruction stands at PC. -/

def pmAtPc (pc op low : Nat) (x : PmS) (s : State := pmOn) : State := (s.setMach 3 7 { x with stall := 0, pc := pc }).put F.pmProg_IODD (mi op low) 3 (112 + pc / 2)

def x47 : State := pmx 1 31 { pc := 3 }

def x48 : State := pmx 2 31 { c0 := 1 }

def x49 : State := pmx 2 (64 + 31) { c1 := 1 }

def x50 : State := pmx 3 5 { g := 1 }

def x51 : State := pmx 3 (16 + 5) { g := 1 }

def x52 : State := pmx 4 (64 + 31) {}

def x53 : State := pmx 5 (64 + 5) {}

def x54 : State := pmx 7 0 { tn := 3, txf := [7] }

def x55 : State := pmx 8 0 { rg := 5 }

def x56 : State := pmx 9 1 {}

def x57 : State := pmx 10 16 { c0 := 5 }

def x58 : State := pmx 11 0 { g := 5 }

def x59 : State := pmx 12 (32 + 7) {}

def x60 : State := pmx 13 0 { g := 0 }

def x61 : State := pmx 14 7 {}

def x62 : State := pmx 12 0 {} pmDrv

def x63 : State := pmx 12 (16 + 64 + 15) {} pmDrv

def x64 : State := pmx 12 (32 + 64 + 7) {} (pmOn.put F.piFlags_FLAG 128 3)

def x65 : State := pmx 12 (48 + 15) {} pmDrv

def x66 : State := pmx 12 (48 + 15) { chg := some true } pmDrv

def x67 : State := pmx 13 32 {}

def x68 : State := pmx 13 0 { g := 5 }

def x69 : State := pmx 13 32 { txf := [0] }

def x70 : State := pmx 14 (32 + 7) {}

def x71 : State := pmx 14 (64 + 7) {}

def x72 : State := pmx 14 (64 + 7) { marked := true }

def x73 : State := pmx 14 (96 + 7) {} (pmOn.put F.piFlags_FLAG 128 3)

def x74 : State := pmx 14 (96 + 7) {}

def stalled (k op low : Nat) (x : PmS) : State := (pmx op low x).setMach 3 7 { (pmx op low x).mach 3 7 with stall := k }

def mx (x : PmS) : State := on.setMach 3 7 x

theorem test_hypotheses_IllegalPinInstructionsStop :
    (on.pmActive 3 7 = false)
    ∧ (((pmx 0 1 { }).pmActive 3 7 = true) ∧ (((pmx 0 1 { }).mach 3 7).stall = 0) ∧ (bits ((pmx 0 1 { }).pmInsn 3 7) 20 4 = (Instr.pmNop, 0).2) ∧ ((passTo ((pmx 0 1 { }).pmTick 3 7 (Instr.pmNop, 0).2) (pmx 0 1 { })).pmLegal (3) (7) ((pmx 0 1 { }).pmInsn 3 7) = false))
    ∧ (((pmx 15 1 { }).pmActive 3 7 = true) ∧ (((pmx 15 1 { }).mach 3 7).stall = 0) ∧ (bits ((pmx 15 1 { }).pmInsn 3 7) 20 4 = 15) ∧ ((passTo ((pmx 15 1 { }).pmTick 3 7 (Instr.pmMark, 14).2) (pmx 15 1 { })).pmLegal (3) (7) ((pmx 15 1 { }).pmInsn 3 7) = false))
    ∧ (bits ((pmx 0 1 { }).pmInsn 3 7) 20 4 ≠ (Instr.pmGoto, 1).2 ∧ bits ((pmx 0 1 { }).pmInsn 3 7) 20 4 ≠ 15) := by
  (repeat' apply And.intro) <;> decide +kernel

theorem test_hypotheses_PinMachinesMoveWordsAndPins_1 :
    ((PmSteps x0 3 7 0 (mi 0 0)) ∧ (0 = 0))
    ∧ ((PmSteps x1 3 7 1 (mi 1 31)) ∧ (1 = 1))
    ∧ ((PmSteps x2 3 7 2 (mi 2 31)) ∧ (2 = 2) ∧ ((mi 2 31).testBit 6 = false) ∧ (((pmAt 3 7 2 x2).mach 3 7).c0 = 0))
    ∧ ((PmSteps x3 3 7 2 (mi 2 31)) ∧ (2 = 2) ∧ ((mi 2 31).testBit 6 = false) ∧ (((pmAt 3 7 2 x3).mach 3 7).c0 ≠ 0))
    ∧ ((PmSteps x4 3 7 2 (mi 2 (64 + 31))) ∧ (2 = 2) ∧ ((mi 2 (64 + 31)).testBit 6 = true) ∧ (((pmAt 3 7 2 x4).mach 3 7).c1 = 0))
    ∧ ((PmSteps x5 3 7 2 (mi 2 (64 + 31))) ∧ (2 = 2) ∧ ((mi 2 (64 + 31)).testBit 6 = true) ∧ (((pmAt 3 7 2 x5).mach 3 7).c1 ≠ 0)) := by
  (repeat' apply And.intro) <;> decide +kernel

theorem test_hypotheses_PinMachinesMoveWordsAndPins_2 :
    ((PmSteps x6 3 7 3 (mi 3 (16 + 0))) ∧ (3 = 3) ∧ (true = match mi 3 (16 + 0) % 16 with | 0 => (pmAt 3 7 3 x6).pool 3 7 == 2 || ((pmAt 3 7 3 x6).mach 3 7).txf == [] | 1 => decide ((pmAt 3 7 3 x6).rxCap 3 7 ≤ ((pmAt 3 7 3 x6).mach 3 7).rxf.length) | 2 => (readPins (3) ((x6.pmStop 3 7 - (pmAt 3 7 3 x6).stepLen 3 7) / 256) (pmAt 3 7 3 x6)).1.testBit ((pmAt 3 7 3 x6).fld F.pmCfg1_SENSEB 3 7) | 3 => ((pmAt 3 7 3 x6).mach 3 7).tn == 0 | 4 => decide ((pmAt 3 7 3 x6).rth 3 7 ≤ ((pmAt 3 7 3 x6).mach 3 7).rn) | 5 => ((pmAt 3 7 3 x6).mach 3 7).g == 0 | 6 => BitVec.getLsbD ((pmAt 3 7 3 x6).mach 3 7).g 0 | 7 => ((pmAt 3 7 3 x6).mach 3 7).c0 == 0 | x => ((pmAt 3 7 3 x6).mach 3 7).c1 == 0))
    ∧ ((PmSteps x7 3 7 3 (mi 3 (16 + 1))) ∧ (3 = 3) ∧ (false = match mi 3 (16 + 1) % 16 with | 0 => (pmAt 3 7 3 x7).pool 3 7 == 2 || ((pmAt 3 7 3 x7).mach 3 7).txf == [] | 1 => decide ((pmAt 3 7 3 x7).rxCap 3 7 ≤ ((pmAt 3 7 3 x7).mach 3 7).rxf.length) | 2 => (readPins (3) ((x7.pmStop 3 7 - (pmAt 3 7 3 x7).stepLen 3 7) / 256) (pmAt 3 7 3 x7)).1.testBit ((pmAt 3 7 3 x7).fld F.pmCfg1_SENSEB 3 7) | 3 => ((pmAt 3 7 3 x7).mach 3 7).tn == 0 | 4 => decide ((pmAt 3 7 3 x7).rth 3 7 ≤ ((pmAt 3 7 3 x7).mach 3 7).rn) | 5 => ((pmAt 3 7 3 x7).mach 3 7).g == 0 | 6 => BitVec.getLsbD ((pmAt 3 7 3 x7).mach 3 7).g 0 | 7 => ((pmAt 3 7 3 x7).mach 3 7).c0 == 0 | x => ((pmAt 3 7 3 x7).mach 3 7).c1 == 0))
    ∧ ((PmSteps x8 3 7 3 (mi 3 (16 + 2))) ∧ (3 = 3) ∧ (false = match mi 3 (16 + 2) % 16 with | 0 => (pmAt 3 7 3 x8).pool 3 7 == 2 || ((pmAt 3 7 3 x8).mach 3 7).txf == [] | 1 => decide ((pmAt 3 7 3 x8).rxCap 3 7 ≤ ((pmAt 3 7 3 x8).mach 3 7).rxf.length) | 2 => (readPins (3) ((x8.pmStop 3 7 - (pmAt 3 7 3 x8).stepLen 3 7) / 256) (pmAt 3 7 3 x8)).1.testBit ((pmAt 3 7 3 x8).fld F.pmCfg1_SENSEB 3 7) | 3 => ((pmAt 3 7 3 x8).mach 3 7).tn == 0 | 4 => decide ((pmAt 3 7 3 x8).rth 3 7 ≤ ((pmAt 3 7 3 x8).mach 3 7).rn) | 5 => ((pmAt 3 7 3 x8).mach 3 7).g == 0 | 6 => BitVec.getLsbD ((pmAt 3 7 3 x8).mach 3 7).g 0 | 7 => ((pmAt 3 7 3 x8).mach 3 7).c0 == 0 | x => ((pmAt 3 7 3 x8).mach 3 7).c1 == 0))
    ∧ ((PmSteps x9 3 7 3 (mi 3 (16 + 3))) ∧ (3 = 3) ∧ (false = match mi 3 (16 + 3) % 16 with | 0 => (pmAt 3 7 3 x9).pool 3 7 == 2 || ((pmAt 3 7 3 x9).mach 3 7).txf == [] | 1 => decide ((pmAt 3 7 3 x9).rxCap 3 7 ≤ ((pmAt 3 7 3 x9).mach 3 7).rxf.length) | 2 => (readPins (3) ((x9.pmStop 3 7 - (pmAt 3 7 3 x9).stepLen 3 7) / 256) (pmAt 3 7 3 x9)).1.testBit ((pmAt 3 7 3 x9).fld F.pmCfg1_SENSEB 3 7) | 3 => ((pmAt 3 7 3 x9).mach 3 7).tn == 0 | 4 => decide ((pmAt 3 7 3 x9).rth 3 7 ≤ ((pmAt 3 7 3 x9).mach 3 7).rn) | 5 => ((pmAt 3 7 3 x9).mach 3 7).g == 0 | 6 => BitVec.getLsbD ((pmAt 3 7 3 x9).mach 3 7).g 0 | 7 => ((pmAt 3 7 3 x9).mach 3 7).c0 == 0 | x => ((pmAt 3 7 3 x9).mach 3 7).c1 == 0))
    ∧ ((PmSteps x10 3 7 3 (mi 3 (16 + 4))) ∧ (3 = 3) ∧ (true = match mi 3 (16 + 4) % 16 with | 0 => (pmAt 3 7 3 x10).pool 3 7 == 2 || ((pmAt 3 7 3 x10).mach 3 7).txf == [] | 1 => decide ((pmAt 3 7 3 x10).rxCap 3 7 ≤ ((pmAt 3 7 3 x10).mach 3 7).rxf.length) | 2 => (readPins (3) ((x10.pmStop 3 7 - (pmAt 3 7 3 x10).stepLen 3 7) / 256) (pmAt 3 7 3 x10)).1.testBit ((pmAt 3 7 3 x10).fld F.pmCfg1_SENSEB 3 7) | 3 => ((pmAt 3 7 3 x10).mach 3 7).tn == 0 | 4 => decide ((pmAt 3 7 3 x10).rth 3 7 ≤ ((pmAt 3 7 3 x10).mach 3 7).rn) | 5 => ((pmAt 3 7 3 x10).mach 3 7).g == 0 | 6 => BitVec.getLsbD ((pmAt 3 7 3 x10).mach 3 7).g 0 | 7 => ((pmAt 3 7 3 x10).mach 3 7).c0 == 0 | x => ((pmAt 3 7 3 x10).mach 3 7).c1 == 0))
    ∧ ((PmSteps x11 3 7 3 (mi 3 (16 + 5))) ∧ (3 = 3) ∧ (true = match mi 3 (16 + 5) % 16 with | 0 => (pmAt 3 7 3 x11).pool 3 7 == 2 || ((pmAt 3 7 3 x11).mach 3 7).txf == [] | 1 => decide ((pmAt 3 7 3 x11).rxCap 3 7 ≤ ((pmAt 3 7 3 x11).mach 3 7).rxf.length) | 2 => (readPins (3) ((x11.pmStop 3 7 - (pmAt 3 7 3 x11).stepLen 3 7) / 256) (pmAt 3 7 3 x11)).1.testBit ((pmAt 3 7 3 x11).fld F.pmCfg1_SENSEB 3 7) | 3 => ((pmAt 3 7 3 x11).mach 3 7).tn == 0 | 4 => decide ((pmAt 3 7 3 x11).rth 3 7 ≤ ((pmAt 3 7 3 x11).mach 3 7).rn) | 5 => ((pmAt 3 7 3 x11).mach 3 7).g == 0 | 6 => BitVec.getLsbD ((pmAt 3 7 3 x11).mach 3 7).g 0 | 7 => ((pmAt 3 7 3 x11).mach 3 7).c0 == 0 | x => ((pmAt 3 7 3 x11).mach 3 7).c1 == 0)) := by
  (repeat' apply And.intro) <;> decide +kernel

theorem test_hypotheses_PinMachinesMoveWordsAndPins_3 :
    ((PmSteps x12 3 7 3 (mi 3 (16 + 6))) ∧ (3 = 3) ∧ (true = match mi 3 (16 + 6) % 16 with | 0 => (pmAt 3 7 3 x12).pool 3 7 == 2 || ((pmAt 3 7 3 x12).mach 3 7).txf == [] | 1 => decide ((pmAt 3 7 3 x12).rxCap 3 7 ≤ ((pmAt 3 7 3 x12).mach 3 7).rxf.length) | 2 => (readPins (3) ((x12.pmStop 3 7 - (pmAt 3 7 3 x12).stepLen 3 7) / 256) (pmAt 3 7 3 x12)).1.testBit ((pmAt 3 7 3 x12).fld F.pmCfg1_SENSEB 3 7) | 3 => ((pmAt 3 7 3 x12).mach 3 7).tn == 0 | 4 => decide ((pmAt 3 7 3 x12).rth 3 7 ≤ ((pmAt 3 7 3 x12).mach 3 7).rn) | 5 => ((pmAt 3 7 3 x12).mach 3 7).g == 0 | 6 => BitVec.getLsbD ((pmAt 3 7 3 x12).mach 3 7).g 0 | 7 => ((pmAt 3 7 3 x12).mach 3 7).c0 == 0 | x => ((pmAt 3 7 3 x12).mach 3 7).c1 == 0))
    ∧ ((PmSteps x13 3 7 3 (mi 3 (16 + 7))) ∧ (3 = 3) ∧ (false = match mi 3 (16 + 7) % 16 with | 0 => (pmAt 3 7 3 x13).pool 3 7 == 2 || ((pmAt 3 7 3 x13).mach 3 7).txf == [] | 1 => decide ((pmAt 3 7 3 x13).rxCap 3 7 ≤ ((pmAt 3 7 3 x13).mach 3 7).rxf.length) | 2 => (readPins (3) ((x13.pmStop 3 7 - (pmAt 3 7 3 x13).stepLen 3 7) / 256) (pmAt 3 7 3 x13)).1.testBit ((pmAt 3 7 3 x13).fld F.pmCfg1_SENSEB 3 7) | 3 => ((pmAt 3 7 3 x13).mach 3 7).tn == 0 | 4 => decide ((pmAt 3 7 3 x13).rth 3 7 ≤ ((pmAt 3 7 3 x13).mach 3 7).rn) | 5 => ((pmAt 3 7 3 x13).mach 3 7).g == 0 | 6 => BitVec.getLsbD ((pmAt 3 7 3 x13).mach 3 7).g 0 | 7 => ((pmAt 3 7 3 x13).mach 3 7).c0 == 0 | x => ((pmAt 3 7 3 x13).mach 3 7).c1 == 0))
    ∧ ((PmSteps x14 3 7 3 (mi 3 (16 + 8))) ∧ (3 = 3) ∧ (true = match mi 3 (16 + 8) % 16 with | 0 => (pmAt 3 7 3 x14).pool 3 7 == 2 || ((pmAt 3 7 3 x14).mach 3 7).txf == [] | 1 => decide ((pmAt 3 7 3 x14).rxCap 3 7 ≤ ((pmAt 3 7 3 x14).mach 3 7).rxf.length) | 2 => (readPins (3) ((x14.pmStop 3 7 - (pmAt 3 7 3 x14).stepLen 3 7) / 256) (pmAt 3 7 3 x14)).1.testBit ((pmAt 3 7 3 x14).fld F.pmCfg1_SENSEB 3 7) | 3 => ((pmAt 3 7 3 x14).mach 3 7).tn == 0 | 4 => decide ((pmAt 3 7 3 x14).rth 3 7 ≤ ((pmAt 3 7 3 x14).mach 3 7).rn) | 5 => ((pmAt 3 7 3 x14).mach 3 7).g == 0 | 6 => BitVec.getLsbD ((pmAt 3 7 3 x14).mach 3 7).g 0 | 7 => ((pmAt 3 7 3 x14).mach 3 7).c0 == 0 | x => ((pmAt 3 7 3 x14).mach 3 7).c1 == 0))
    ∧ ((PmSteps x15 3 7 4 (mi 4 (96 + 31))) ∧ (4 = 4))
    ∧ ((PmSteps x16 3 7 4 (mi 4 31)) ∧ (4 = 4))
    ∧ (let s := pmAt 3 7 10 x17; let u := x17.pmStop 3 7 - s.stepLen 3 7; (PmSteps x17 3 7 10 (mi 10 (1 * 16 + 0 * 4))) ∧ (10 = 10) ∧ ((bits (mi 10 (1 * 16 + 0 * 4)) 4 3, 9) ∈ [(0, BitVec.ofNat 48 (((readPins (3) (u / 256) s).1 / 2 ^ s.fld F.pmCfg1_SENSEB 3 7 + (readPins (3) (u / 256) s).1 * 2 ^ (16 - s.fld F.pmCfg1_SENSEB 3 7)) % 2 ^ 16)), (1, BitVec.setWidth 48 (s.mach 3 7).c0), (2, BitVec.setWidth 48 (s.mach 3 7).c1), (3, (s.mach 3 7).th), (4, (s.mach 3 7).rg), (5, BitVec.ofNat 48 ((u / 256 + 2 ^ 32 - s.tkBase % 2 ^ 32) % 2 ^ 32))])) := by
  (repeat' apply And.intro) <;> decide +kernel

theorem test_hypotheses_PinMachinesMoveWordsAndPins_4 :
    (let s := pmAt 3 7 10 x18; let u := x18.pmStop 3 7 - s.stepLen 3 7; (PmSteps x18 3 7 10 (mi 10 (1 * 16 + 1 * 4))) ∧ (10 = 10) ∧ ((bits (mi 10 (1 * 16 + 1 * 4)) 4 3, 9) ∈ [(0, BitVec.ofNat 48 (((readPins (3) (u / 256) s).1 / 2 ^ s.fld F.pmCfg1_SENSEB 3 7 + (readPins (3) (u / 256) s).1 * 2 ^ (16 - s.fld F.pmCfg1_SENSEB 3 7)) % 2 ^ 16)), (1, BitVec.setWidth 48 (s.mach 3 7).c0), (2, BitVec.setWidth 48 (s.mach 3 7).c1), (3, (s.mach 3 7).th), (4, (s.mach 3 7).rg), (5, BitVec.ofNat 48 ((u / 256 + 2 ^ 32 - s.tkBase % 2 ^ 32) % 2 ^ 32))]))
    ∧ (let s := pmAt 3 7 10 x19; let u := x19.pmStop 3 7 - s.stepLen 3 7; (PmSteps x19 3 7 10 (mi 10 (1 * 16 + 2 * 4))) ∧ (10 = 10) ∧ ((bits (mi 10 (1 * 16 + 2 * 4)) 4 3, 9) ∈ [(0, BitVec.ofNat 48 (((readPins (3) (u / 256) s).1 / 2 ^ s.fld F.pmCfg1_SENSEB 3 7 + (readPins (3) (u / 256) s).1 * 2 ^ (16 - s.fld F.pmCfg1_SENSEB 3 7)) % 2 ^ 16)), (1, BitVec.setWidth 48 (s.mach 3 7).c0), (2, BitVec.setWidth 48 (s.mach 3 7).c1), (3, (s.mach 3 7).th), (4, (s.mach 3 7).rg), (5, BitVec.ofNat 48 ((u / 256 + 2 ^ 32 - s.tkBase % 2 ^ 32) % 2 ^ 32))]))
    ∧ (let s := pmAt 3 7 10 x20; let u := x20.pmStop 3 7 - s.stepLen 3 7; (PmSteps x20 3 7 10 (mi 10 (1 * 16 + 3 * 4))) ∧ (10 = 10) ∧ ((bits (mi 10 (1 * 16 + 3 * 4)) 4 3, 9) ∈ [(0, BitVec.ofNat 48 (((readPins (3) (u / 256) s).1 / 2 ^ s.fld F.pmCfg1_SENSEB 3 7 + (readPins (3) (u / 256) s).1 * 2 ^ (16 - s.fld F.pmCfg1_SENSEB 3 7)) % 2 ^ 16)), (1, BitVec.setWidth 48 (s.mach 3 7).c0), (2, BitVec.setWidth 48 (s.mach 3 7).c1), (3, (s.mach 3 7).th), (4, (s.mach 3 7).rg), (5, BitVec.ofNat 48 ((u / 256 + 2 ^ 32 - s.tkBase % 2 ^ 32) % 2 ^ 32))]))
    ∧ (let s := pmAt 3 7 10 x21; let u := x21.pmStop 3 7 - s.stepLen 3 7; (PmSteps x21 3 7 10 (mi 10 (2 * 16 + 0 * 4))) ∧ (10 = 10) ∧ ((bits (mi 10 (2 * 16 + 0 * 4)) 4 3, 65535) ∈ [(0, BitVec.ofNat 48 (((readPins (3) (u / 256) s).1 / 2 ^ s.fld F.pmCfg1_SENSEB 3 7 + (readPins (3) (u / 256) s).1 * 2 ^ (16 - s.fld F.pmCfg1_SENSEB 3 7)) % 2 ^ 16)), (1, BitVec.setWidth 48 (s.mach 3 7).c0), (2, BitVec.setWidth 48 (s.mach 3 7).c1), (3, (s.mach 3 7).th), (4, (s.mach 3 7).rg), (5, BitVec.ofNat 48 ((u / 256 + 2 ^ 32 - s.tkBase % 2 ^ 32) % 2 ^ 32))]))
    ∧ (let s := pmAt 3 7 10 x22; let u := x22.pmStop 3 7 - s.stepLen 3 7; (PmSteps x22 3 7 10 (mi 10 (3 * 16 + 0 * 4))) ∧ (10 = 10) ∧ ((bits (mi 10 (3 * 16 + 0 * 4)) 4 3, 7) ∈ [(0, BitVec.ofNat 48 (((readPins (3) (u / 256) s).1 / 2 ^ s.fld F.pmCfg1_SENSEB 3 7 + (readPins (3) (u / 256) s).1 * 2 ^ (16 - s.fld F.pmCfg1_SENSEB 3 7)) % 2 ^ 16)), (1, BitVec.setWidth 48 (s.mach 3 7).c0), (2, BitVec.setWidth 48 (s.mach 3 7).c1), (3, (s.mach 3 7).th), (4, (s.mach 3 7).rg), (5, BitVec.ofNat 48 ((u / 256 + 2 ^ 32 - s.tkBase % 2 ^ 32) % 2 ^ 32))]))
    ∧ (let s := pmAt 3 7 10 x23; let u := x23.pmStop 3 7 - s.stepLen 3 7; (PmSteps x23 3 7 10 (mi 10 (4 * 16 + 0 * 4))) ∧ (10 = 10) ∧ ((bits (mi 10 (4 * 16 + 0 * 4)) 4 3, 7) ∈ [(0, BitVec.ofNat 48 (((readPins (3) (u / 256) s).1 / 2 ^ s.fld F.pmCfg1_SENSEB 3 7 + (readPins (3) (u / 256) s).1 * 2 ^ (16 - s.fld F.pmCfg1_SENSEB 3 7)) % 2 ^ 16)), (1, BitVec.setWidth 48 (s.mach 3 7).c0), (2, BitVec.setWidth 48 (s.mach 3 7).c1), (3, (s.mach 3 7).th), (4, (s.mach 3 7).rg), (5, BitVec.ofNat 48 ((u / 256 + 2 ^ 32 - s.tkBase % 2 ^ 32) % 2 ^ 32))])) := by
  (repeat' apply And.intro) <;> decide +kernel

theorem test_hypotheses_PinMachinesMoveWordsAndPins_5 :
    (let s := pmAt 3 7 10 x24; let u := x24.pmStop 3 7 - s.stepLen 3 7; (PmSteps x24 3 7 10 (mi 10 0)) ∧ (10 = 10) ∧ ((bits (mi 10 0) 4 3, 0) ∈ [(0, BitVec.ofNat 48 (((readPins (3) (u / 256) s).1 / 2 ^ s.fld F.pmCfg1_SENSEB 3 7 + (readPins (3) (u / 256) s).1 * 2 ^ (16 - s.fld F.pmCfg1_SENSEB 3 7)) % 2 ^ 16)), (1, BitVec.setWidth 48 (s.mach 3 7).c0), (2, BitVec.setWidth 48 (s.mach 3 7).c1), (3, (s.mach 3 7).th), (4, (s.mach 3 7).rg), (5, BitVec.ofNat 48 ((u / 256 + 2 ^ 32 - s.tkBase % 2 ^ 32) % 2 ^ 32))]))
    ∧ (let s := pmAt 3 7 10 x25; let u := x25.pmStop 3 7 - s.stepLen 3 7; (PmSteps x25 3 7 10 (mi 10 (5 * 16))) ∧ (10 = 10) ∧ ((bits (mi 10 (5 * 16)) 4 3, 0) ∈ [(0, BitVec.ofNat 48 (((readPins (3) (u / 256) s).1 / 2 ^ s.fld F.pmCfg1_SENSEB 3 7 + (readPins (3) (u / 256) s).1 * 2 ^ (16 - s.fld F.pmCfg1_SENSEB 3 7)) % 2 ^ 16)), (1, BitVec.setWidth 48 (s.mach 3 7).c0), (2, BitVec.setWidth 48 (s.mach 3 7).c1), (3, (s.mach 3 7).th), (4, (s.mach 3 7).rg), (5, BitVec.ofNat 48 ((u / 256 + 2 ^ 32 - s.tkBase % 2 ^ 32) % 2 ^ 32))]))
    ∧ ((PmSteps x26 3 7 11 (mi 11 0)) ∧ (11 = 11) ∧ (bits (mi 11 0) 5 2 = 0))
    ∧ ((PmSteps x27 3 7 11 (mi 11 32)) ∧ (11 = 11) ∧ (bits (mi 11 32) 5 2 = 1))
    ∧ ((PmSteps x28 3 7 11 (mi 11 64)) ∧ (11 = 11) ∧ (bits (mi 11 64) 5 2 = 2) ∧ (bits (mi 11 64) 17 2 = 0) ∧ ((pmAt 3 7 11 x28).fld F.pmCfg1_DN 3 7 ≤ 16))
    ∧ ((PmSteps x29 3 7 9 (mi 9 (0 * 32 + 1))) ∧ (9 = 9) ∧ (bits (mi 9 (0 * 32 + 1)) 17 2 = 0) ∧ ((pmAt 3 7 9 x29).fld F.pmCfg1_CN 3 7 ≤ 16) ∧ (bits (mi 9 (0 * 32 + 1)) 5 2 ≠ 3)) := by
  (repeat' apply And.intro) <;> decide +kernel

theorem test_hypotheses_PinMachinesMoveWordsAndPins_6 :
    ((PmSteps x30 3 7 9 (mi 9 (1 * 32 + 1))) ∧ (9 = 9) ∧ (bits (mi 9 (1 * 32 + 1)) 17 2 = 0) ∧ ((pmAt 3 7 9 x30).fld F.pmCfg1_CN 3 7 ≤ 16) ∧ (bits (mi 9 (1 * 32 + 1)) 5 2 ≠ 3))
    ∧ ((PmSteps x31 3 7 9 (mi 9 (2 * 32 + 1))) ∧ (9 = 9) ∧ (bits (mi 9 (2 * 32 + 1)) 17 2 = 0) ∧ ((pmAt 3 7 9 x31).fld F.pmCfg1_CN 3 7 ≤ 16) ∧ (bits (mi 9 (2 * 32 + 1)) 5 2 ≠ 3))
    ∧ ((PmSteps x32 3 7 9 (mi 9 (3 * 32 + 1))) ∧ (9 = 9) ∧ (bits (mi 9 (3 * 32 + 1)) 17 2 = 0) ∧ ((pmAt 3 7 9 x32).fld F.pmCfg1_DN 3 7 ≤ 16) ∧ (bits (mi 9 (3 * 32 + 1)) 5 2 = 3)) := by
  (repeat' apply And.intro) <;> decide +kernel

theorem test_hypotheses_PinMachinesShiftWords_1 :
    ((PmSteps x33 3 7 5 (mi 5 (64 + 48))) ∧ (5 = 5) ∧ ((pmAt 3 7 5 x33).fld F.pmCfg2_REFILL 3 7 ≠ 0) ∧ (((pmAt 3 7 5 x33).mach 3 7).tn < bits (mi 5 (64 + 48)) 0 6) ∧ ((pmAt 3 7 5 x33).txNone 3 7 = true))
    ∧ ((PmSteps x34 3 7 5 (mi 5 2)) ∧ (5 = 5) ∧ (¬((pmAt 3 7 5 x34).fld F.pmCfg2_REFILL 3 7 ≠ 0 ∧ ((pmAt 3 7 5 x34).mach 3 7).tn < bits (mi 5 2) 0 6 ∧ (pmAt 3 7 5 x34).txNone 3 7 = true)))
    ∧ ((PmSteps x35 3 7 5 (mi 5 2)) ∧ (5 = 5) ∧ (¬((pmAt 3 7 5 x35).fld F.pmCfg2_REFILL 3 7 ≠ 0 ∧ ((pmAt 3 7 5 x35).mach 3 7).tn < bits (mi 5 2) 0 6 ∧ (pmAt 3 7 5 x35).txNone 3 7 = true)))
    ∧ ((PmSteps x36 3 7 5 (mi 5 (64 + 48))) ∧ (5 = 5) ∧ (¬((pmAt 3 7 5 x36).fld F.pmCfg2_REFILL 3 7 ≠ 0 ∧ ((pmAt 3 7 5 x36).mach 3 7).tn < bits (mi 5 (64 + 48)) 0 6 ∧ (pmAt 3 7 5 x36).txNone 3 7 = true)))
    ∧ ((PmSteps x37 3 7 6 (mi 6 (64 + 48))) ∧ (6 = 6) ∧ ((pmAt 3 7 6 x37).fld F.pmCfg2_AUTODLV 3 7 ≠ 0) ∧ ((pmAt 3 7 6 x37).rth 3 7 ≤ min (((pmAt 3 7 6 x37).mach 3 7).rn + bits (mi 6 (64 + 48)) 0 6) 48) ∧ ((pmAt 3 7 6 x37).rxCap 3 7 ≤ ((pmAt 3 7 6 x37).mach 3 7).rxf.length))
    ∧ ((PmSteps x38 3 7 6 (mi 6 (64 + 48))) ∧ (6 = 6) ∧ (¬((pmAt 3 7 6 x38).fld F.pmCfg2_AUTODLV 3 7 ≠ 0 ∧ (pmAt 3 7 6 x38).rth 3 7 ≤ min (((pmAt 3 7 6 x38).mach 3 7).rn + bits (mi 6 (64 + 48)) 0 6) 48 ∧ (pmAt 3 7 6 x38).rxCap 3 7 ≤ ((pmAt 3 7 6 x38).mach 3 7).rxf.length))) := by
  (repeat' apply And.intro) <;> decide +kernel

theorem test_hypotheses_PinMachinesShiftWords_2 :
    ((PmSteps x39 3 7 6 (mi 6 16)) ∧ (6 = 6) ∧ (¬((pmAt 3 7 6 x39).fld F.pmCfg2_AUTODLV 3 7 ≠ 0 ∧ (pmAt 3 7 6 x39).rth 3 7 ≤ min (((pmAt 3 7 6 x39).mach 3 7).rn + bits (mi 6 16) 0 6) 48 ∧ (pmAt 3 7 6 x39).rxCap 3 7 ≤ ((pmAt 3 7 6 x39).mach 3 7).rxf.length)))
    ∧ ((PmSteps x40 3 7 7 (mi 7 1)) ∧ (7 = 7) ∧ ((mi 7 1).testBit 0 = true) ∧ (((pmAt 3 7 7 x40).mach 3 7).tn ≠ 0))
    ∧ ((PmSteps x41 3 7 7 (mi 7 0)) ∧ (7 = 7) ∧ ((mi 7 0).testBit 0 = false) ∧ ((pmAt 3 7 7 x41).txNone 3 7 = true))
    ∧ ((PmSteps x42 3 7 7 (mi 7 1)) ∧ (7 = 7) ∧ (((pmAt 3 7 7 x42).mach 3 7).tn = 0) ∧ ((pmAt 3 7 7 x42).txNone 3 7 = false))
    ∧ ((PmSteps x43 3 7 8 (mi 8 1)) ∧ (8 = 8) ∧ ((mi 8 1).testBit 0 = true) ∧ (((pmAt 3 7 8 x43).mach 3 7).rn < (pmAt 3 7 8 x43).rth 3 7))
    ∧ ((PmSteps x44 3 7 8 (mi 8 0)) ∧ (8 = 8) ∧ ((mi 8 0).testBit 0 = false) ∧ ((pmAt 3 7 8 x44).rxCap 3 7 ≤ ((pmAt 3 7 8 x44).mach 3 7).rxf.length)) := by
  (repeat' apply And.intro) <;> decide +kernel

theorem test_hypotheses_PinMachinesShiftWords_3 :
    ((PmSteps x45 3 7 8 (mi 8 1)) ∧ (8 = 8) ∧ ((pmAt 3 7 8 x45).rth 3 7 ≤ ((pmAt 3 7 8 x45).mach 3 7).rn) ∧ (¬(pmAt 3 7 8 x45).rxCap 3 7 ≤ ((pmAt 3 7 8 x45).mach 3 7).rxf.length)) := by
  (repeat' apply And.intro) <;> decide +kernel

theorem test_hypotheses_PinProgramsGoOn_1 :
    ((PmSteps x0 3 7 0 (mi 0 0)) ∧ (0 = 0))
    ∧ ((PmSteps x46 3 7 0 (mi 0 (2 ^ 19))) ∧ (0 = 0))
    ∧ ((PmSteps x47 3 7 1 (mi 1 31)) ∧ (1 = 1))
    ∧ ((PmSteps (pmAtPc 31 1 30 { }) 3 7 1 (mi 1 30)) ∧ (1 = 1))
    ∧ ((PmSteps (pmAtPc 31 0 0 { }) 3 7 0 (mi 0 0)) ∧ (0 = 0))
    ∧ ((PmSteps x48 3 7 2 (mi 2 31)) ∧ (2 = 2) ∧ ((mi 2 31).testBit 6 = false)) := by
  (repeat' apply And.intro) <;> decide +kernel

theorem test_hypotheses_PinProgramsGoOn_2 :
    ((PmSteps x2 3 7 2 (mi 2 31)) ∧ (2 = 2) ∧ ((mi 2 31).testBit 6 = false))
    ∧ ((PmSteps x49 3 7 2 (mi 2 (64 + 31))) ∧ (2 = 2) ∧ ((mi 2 (64 + 31)).testBit 6 = true))
    ∧ ((PmSteps x50 3 7 3 (mi 3 5)) ∧ (3 = 3) ∧ (mi 3 5 % 16 = 5))
    ∧ ((PmSteps x51 3 7 3 (mi 3 (16 + 5))) ∧ (3 = 3) ∧ (mi 3 (16 + 5) % 16 = 5))
    ∧ ((PmSteps x52 3 7 4 (mi 4 (64 + 31))) ∧ (4 = 4) ∧ ((mi 4 (64 + 31)).testBit 5 = false))
    ∧ ((PmSteps x53 3 7 5 (mi 5 (64 + 5))) ∧ (5 = 5) ∧ ((pmAt 3 7 5 x53).fld F.pmCfg2_REFILL 3 7 = 0)) := by
  (repeat' apply And.intro) <;> decide +kernel

theorem test_hypotheses_PinProgramsGoOn_3 :
    ((PmSteps x39 3 7 6 (mi 6 16)) ∧ (6 = 6) ∧ ((pmAt 3 7 6 x39).fld F.pmCfg2_AUTODLV 3 7 = 0))
    ∧ ((PmSteps x54 3 7 7 (mi 7 0)) ∧ (7 = 7) ∧ ((mi 7 0).testBit 0 = false) ∧ ((pmAt 3 7 7 x54).txNone 3 7 = false))
    ∧ ((PmSteps x55 3 7 8 (mi 8 0)) ∧ (8 = 8) ∧ ((mi 8 0).testBit 0 = false) ∧ (((pmAt 3 7 8 x55).mach 3 7).rxf.length < (pmAt 3 7 8 x55).rxCap 3 7))
    ∧ ((PmSteps x56 3 7 9 (mi 9 1)) ∧ (9 = 9))
    ∧ ((PmSteps x57 3 7 10 (mi 10 16)) ∧ (10 = 10) ∧ (bits (mi 10 16) 2 2 = 0) ∧ (bits (mi 10 16) 4 3 = 1))
    ∧ ((PmSteps x58 3 7 11 (mi 11 0)) ∧ (11 = 11) ∧ (bits (mi 11 0) 5 2 = 0)) := by
  (repeat' apply And.intro) <;> decide +kernel

theorem test_hypotheses_PinProgramsGoOn_4 :
    ((PmSteps x59 3 7 12 (mi 12 (32 + 7))) ∧ (12 = 12) ∧ (bits (mi 12 (32 + 7)) 4 2 = 2) ∧ (((pmAt 3 7 12 x59).fld F.piFlags_FLAG 3).testBit (mi 12 (32 + 7) % 8) = (mi 12 (32 + 7)).testBit 6))
    ∧ ((PmSteps x60 3 7 13 (mi 13 0)) ∧ (13 = 13) ∧ (bits (mi 13 0) 5 2 = 0) ∧ (((pmAt 3 7 13 x60).mach 3 7).tgt = none) ∧ (0 = BitVec.setWidth 32 ((pmAt 3 7 13 x60).mach 3 7).g) ∧ ((0 : ℤ) ≤ past32 (pmAt 3 7 13 x60).tk (BitVec.toNat (0 : BitVec 32))))
    ∧ ((PmSteps x61 3 7 14 (mi 14 7)) ∧ (14 = 14) ∧ (bits (mi 14 7) 5 2 ≤ 1)) := by
  (repeat' apply And.intro) <;> decide +kernel

theorem test_hypotheses_PinMachinesWait_1 :
    ((PmSteps x62 3 7 12 (mi 12 0)) ∧ (12 = 12) ∧ (bits (mi 12 0) 4 2 = 0 ∧ false = (readPins (3) ((x62.pmStop 3 7 - (pmAt 3 7 12 x62).stepLen 3 7) / 256) (pmAt 3 7 12 x62)).1.testBit (((pmAt 3 7 12 x62).fld F.pmCfg1_SENSEB 3 7 + mi 12 0 % 16) % 16)) ∧ (false = (mi 12 0).testBit 6))
    ∧ ((PmSteps x63 3 7 12 (mi 12 (16 + 64 + 15))) ∧ (12 = 12) ∧ (bits (mi 12 (16 + 64 + 15)) 4 2 = 1 ∧ false = (readPins (3) ((x63.pmStop 3 7 - (pmAt 3 7 12 x63).stepLen 3 7) / 256) (pmAt 3 7 12 x63)).1.testBit (mi 12 (16 + 64 + 15) % 16)) ∧ (false ≠ (mi 12 (16 + 64 + 15)).testBit 6))
    ∧ ((PmSteps x64 3 7 12 (mi 12 (32 + 64 + 7))) ∧ (12 = 12) ∧ (bits (mi 12 (32 + 64 + 7)) 4 2 = 2 ∧ true = ((pmAt 3 7 12 x64).fld F.piFlags_FLAG 3).testBit (mi 12 (32 + 64 + 7) % 8)) ∧ (true = (mi 12 (32 + 64 + 7)).testBit 6))
    ∧ ((PmSteps x65 3 7 12 (mi 12 (48 + 15))) ∧ (false = (readPins (3) ((x65.pmStop 3 7 - (pmAt 3 7 12 x65).stepLen 3 7) / 256) (pmAt 3 7 12 x65)).1.testBit (((pmAt 3 7 12 x65).fld F.pmCfg1_SENSEB 3 7 + mi 12 (48 + 15) % 16) % 16)) ∧ (12 = 12) ∧ (bits (mi 12 (48 + 15)) 4 2 = 3) ∧ (((pmAt 3 7 12 x65).mach 3 7).chg = none))
    ∧ ((PmSteps x66 3 7 12 (mi 12 (48 + 15))) ∧ (false = (readPins (3) ((x66.pmStop 3 7 - (pmAt 3 7 12 x66).stepLen 3 7) / 256) (pmAt 3 7 12 x66)).1.testBit (((pmAt 3 7 12 x66).fld F.pmCfg1_SENSEB 3 7 + mi 12 (48 + 15) % 16) % 16)) ∧ (12 = 12) ∧ (bits (mi 12 (48 + 15)) 4 2 = 3) ∧ (((pmAt 3 7 12 x66).mach 3 7).chg = some !false))
    ∧ ((PmSteps x67 3 7 13 (mi 13 32)) ∧ (13 = 13) ∧ (bits (mi 13 32) 5 2 = 1) ∧ (((pmAt 3 7 13 x67).mach 3 7).tgt = none) ∧ ((pmAt 3 7 13 x67).txNone 3 7 = true)) := by
  (repeat' apply And.intro) <;> decide +kernel

theorem test_hypotheses_PinMachinesWait_2 :
    (let s := (pmAt 3 7 13 x68).mach 3 7; (PmSteps x68 3 7 13 (mi 13 0)) ∧ (13 = 13) ∧ (s.tgt = none) ∧ (bits (mi 13 0) 5 2 = 1 → (pmAt 3 7 13 x68).txNone 3 7 = false) ∧ (past32 (pmAt 3 7 13 x68).tk (if bits (mi 13 0) 5 2 = 0 then BitVec.setWidth 32 s.g else if bits (mi 13 0) 5 2 = 1 then BitVec.setWidth 32 (s.txf.headD 0) else s.lst + BitVec.setWidth 32 s.g).toNat < (0 : ℤ)))
    ∧ (let s := (pmAt 3 7 13 x69).mach 3 7; (PmSteps x69 3 7 13 (mi 13 32)) ∧ (13 = 13) ∧ (s.tgt = none) ∧ (bits (mi 13 32) 5 2 = 1 → (pmAt 3 7 13 x69).txNone 3 7 = false) ∧ ((0 : ℤ) ≤ past32 (pmAt 3 7 13 x69).tk (if bits (mi 13 32) 5 2 = 0 then BitVec.setWidth 32 s.g else if bits (mi 13 32) 5 2 = 1 then BitVec.setWidth 32 (s.txf.headD 0) else s.lst + BitVec.setWidth 32 s.g).toNat))
    ∧ ((PmSteps x61 3 7 14 (mi 14 7)) ∧ (14 = 14) ∧ (bits (mi 14 7) 5 2 = 0))
    ∧ ((PmSteps x70 3 7 14 (mi 14 (32 + 7))) ∧ (14 = 14) ∧ (bits (mi 14 (32 + 7)) 5 2 = 1))
    ∧ ((PmSteps x71 3 7 14 (mi 14 (64 + 7))) ∧ (14 = 14) ∧ (bits (mi 14 (64 + 7)) 5 2 = 2) ∧ (((pmAt 3 7 14 x71).mach 3 7).marked = false))
    ∧ ((PmSteps x72 3 7 14 (mi 14 (64 + 7))) ∧ (14 = 14) ∧ (bits (mi 14 (64 + 7)) 5 2 = 2) ∧ (((pmAt 3 7 14 x72).mach 3 7).marked = true) ∧ (((pmAt 3 7 14 x72).fld F.piFlags_FLAG 3).testBit (mi 14 (64 + 7) % 8) = false)) := by
  (repeat' apply And.intro) <;> decide +kernel

theorem test_hypotheses_PinMachinesWait_3 :
    ((PmSteps x73 3 7 14 (mi 14 (96 + 7))) ∧ (14 = 14) ∧ (bits (mi 14 (96 + 7)) 5 2 = 3) ∧ (((pmAt 3 7 14 x73).fld F.piFlags_FLAG 3).testBit (mi 14 (96 + 7) % 8) = true))
    ∧ ((PmSteps x74 3 7 14 (mi 14 (96 + 7))) ∧ (14 = 14) ∧ (bits (mi 14 (96 + 7)) 5 2 = 3) ∧ (((pmAt 3 7 14 x74).fld F.piFlags_FLAG 3).testBit (mi 14 (96 + 7) % 8) = false))
    ∧ (on.pmActive 3 7 = false)
    ∧ (let s := stalled 1 7 1 { txf := [9] }; let u := (Option.map BitVec.toNat (s.mach 3 7).cur).getD (s.pmInsn 3 7); (s.pmActive 3 7 = true) ∧ (s.pmLegal (3) (7) u = true) ∧ ((s.mach 3 7).stall = 1) ∧ (bits u 20 4 = 7) ∧ (u.testBit 0 = true → (s.mach 3 7).tn = 0) ∧ ((pmAgain (3) (7) s).txNone 3 7 = false) ∧ ((s.mach 3 7).txf = [9]))
    ∧ (let s := (Option.map BitVec.toNat ((stalled 1 7 1 { }).mach 3 7).cur).getD ((stalled 1 7 1 { }).pmInsn 3 7); let u := stalled 1 7 1 { }; (u.pmActive 3 7 = true) ∧ (u.pmLegal (3) (7) s = true) ∧ ((u.mach 3 7).stall = 1) ∧ (bits s 20 4 = 7) ∧ (s.testBit 0 = true → (u.mach 3 7).tn = 0) ∧ ((pmAgain (3) (7) u).txNone 3 7 = true))
    ∧ (let s := stalled 3 15 0 { }; (s.pmActive 3 7 = true) ∧ ((s.mach 3 7).stalled = true) ∧ (s.pmLegal (3) (7) ((Option.map BitVec.toNat (s.mach 3 7).cur).getD (s.pmInsn 3 7)) = false)) := by
  (repeat' apply And.intro) <;> decide +kernel

theorem test_hypotheses_PinMachinesWait_4 :
    (let s := stalled 5 13 0 { tgt := some 3 }; (s.pmActive 3 7 = true) ∧ (s.pmLegal (3) (7) ((Option.map BitVec.toNat (s.mach 3 7).cur).getD (s.pmInsn 3 7)) = true) ∧ ((s.mach 3 7).stall = 5) ∧ (bits ((Option.map BitVec.toNat (s.mach 3 7).cur).getD (s.pmInsn 3 7)) 20 4 = 13) ∧ ((s.mach 3 7).tgt = some 3) ∧ (s.tkBase ≤ s.tick)) := by
  (repeat' apply And.intro) <;> decide +kernel

theorem test_hypotheses_FirmwareDrivesPinMachines_1 :
    (((on.put F.fnCfg_VF 3 5).heard (Who.vf (2 : Fin 15)) = true) ∧ ((on.put F.fnCfg_VF 3 5).applied = true) ∧ ((on.put F.fnCfg_VF 3 5).mayPm (Who.vf (2 : Fin 15)) 3 7 = false))
    ∧ (((on.put F.fnCfg_VF 3 5).heard (Who.vf (2 : Fin 15)) = true) ∧ ((on.put F.fnCfg_VF 3 5).applied = true) ∧ ((on.put F.fnCfg_VF 3 5).mayPm (Who.vf (2 : Fin 15)) 3 7 = false))
    ∧ (((on.put F.fnCfg_VF 3 5).heard (Who.vf (2 : Fin 15)) = true) ∧ ((on.put F.fnCfg_VF 3 5).applied = true) ∧ ((on.put F.fnCfg_VF 3 5).mayPm (Who.vf (2 : Fin 15)) 3 7 = false))
    ∧ (((on.put F.fnCfg_VF 3 5).heard (Who.vf (2 : Fin 15)) = true) ∧ ((on.put F.fnCfg_VF 3 5).applied = true) ∧ ((on.put F.fnCfg_VF 3 5).mayPm (Who.vf (2 : Fin 15)) 3 7 = false))
    ∧ ((on.heard Who.pf = true) ∧ (on.applied = true) ∧ (on.mayPm Who.pf 3 7 = true) ∧ ((on.mach 3 7).txf.length < on.txCap 3 7))
    ∧ (let s := mx { txf := List.replicate 4 0 }; (s.heard Who.pf = true) ∧ (s.applied = true) ∧ (s.mayPm Who.pf 3 7 = true) ∧ (s.txCap 3 7 ≤ (s.mach 3 7).txf.length)) := by
  (repeat' apply And.intro) <;> decide +kernel

theorem test_hypotheses_FirmwareDrivesPinMachines_2 :
    ((on.heard Who.pf = true) ∧ (on.applied = true) ∧ (on.mayPm Who.pf 3 7 = true) ∧ ((on.mach 3 7).rxf = []))
    ∧ (let s := mx { rxf := [7, 8] }; (s.heard Who.pf = true) ∧ (s.applied = true) ∧ (s.mayPm Who.pf 3 7 = true) ∧ ((s.mach 3 7).rxf = [7, 8]))
    ∧ (let s := mx { inj := some 3 }; (s.heard Who.pf = true) ∧ (s.applied = true) ∧ (s.mayPm Who.pf 3 7 = true) ∧ ((s.mach 3 7).inj ≠ none))
    ∧ (((mx { stall := 3 }).heard Who.pf = true) ∧ ((mx { stall := 3 }).applied = true) ∧ ((mx { stall := 3 }).mayPm Who.pf 3 7 = true) ∧ (((mx { stall := 3 }).mach 3 7).inj = none))
    ∧ ((on.heard Who.pf = true) ∧ (on.applied = true) ∧ (on.mayPm Who.pf 3 7 = true) ∧ (on.fld F.pmCtl_RUN 3 7 = 0))
    ∧ ((on.heard Who.pf = true) ∧ (on.applied = true) ∧ (on.mayPm Who.pf 3 7 = true) ∧ (on.fld F.pmCtl_RUN 3 7 = 0)) := by
  (repeat' apply And.intro) <;> decide +kernel

theorem test_hypotheses_FirmwareDrivesPinMachines_3 :
    ((pmOn.heard Who.pf = true) ∧ (pmOn.applied = true) ∧ (pmOn.mayPm Who.pf 3 7 = true) ∧ (pmOn.fld F.pmCtl_RUN 3 7 ≠ 0))
    ∧ ((pmOn.heard Who.pf = true) ∧ (pmOn.applied = true) ∧ (pmOn.mayPm Who.pf 3 7 = true) ∧ (pmOn.fld F.pmCtl_RUN 3 7 ≠ 0))
    ∧ ((pmOn.heard Who.pf = true) ∧ (pmOn.applied = true) ∧ (pmOn.mayPm Who.pf 3 7 = true))
    ∧ ((pmOn.heard Who.pf = true) ∧ (pmOn.applied = true) ∧ (pmOn.mayPm Who.pf 3 7 = true))
    ∧ (let s := on.put F.piFlags_FLAG 255 3; (s.heard Who.pf = true) ∧ (s.applied = true) ∧ (s.supervisor Who.pf = true) ∧ (s.fld F.piFlags_FLAG 3 < 256)) := by
  (repeat' apply And.intro) <;> decide +kernel

end W9

namespace W10

def tw (r : Nat) : State := ((on.put F.twCfg0_EN 1).put F.twStat_ROLE r).put F.twStat_LINK 1

def twW (r : Nat) : State := let s := (tw r).put F.twCfg0_WITNESS 1; { s with tw := { s.tw with ownNode := true } }

def sw0 (n health role unit : Nat) : Word := wd (n * 2 ^ 16 + health * 2 ^ 8 + role * 2 ^ 5 + unit * 2 ^ 4)

def sw1 (digest : Nat) : Word := wd (digest * 2 ^ 16)

def sw2 (cfgd sdn : Nat) : Word := wd (cfgd * 2 ^ 16 + sdn * 2 ^ 6)

def twUp : State := ((tw 2).put F.twStat_LINK 0).put F.ckCfg0_LANEEN 64

def lis (s : State) : State := { s with tw := { s.tw with listen := some 0 } }

def heal (r : Nat) : State := let s := (tw r).put F.twStat_CAUSE 4; { s with tw := { s.tw with healthyFrom := some 0, standbyFrom := some 0 } }

def heard0 (s : State) : State := { s with tw := { s.tw with msg := some { n := 0, health := 0, role := 3, unit := 1, yreq := false, swreq := false, tst := 0, digest := 0, cfgd := 0, sdn := 0 } } }

def bisting : State := { (tw 2).put F.twStat_TST 1 with pw := { on.pw with grants := [⟨0, .bist, 0, 0, 1, true, 0, false⟩] } }

def dd1 : State := { on with tw := { on.tw with dd := [⟨7, 0, 0, 0⟩] }, tick := 100000000 }

def src (o : Nat) (pd aux bak : Nat) : State := (((on.put F.pwSrc_ON o).put F.pwSrc_PDG pd).put F.pwSrc_AUXG aux).put F.pwSrc_BAKG bak

def deb : State := { (src 2 1 1 0).put F.pwSrc_DEB 1 with tick := 5000000 }

def hb : State := { (src 2 1 1 0).put F.pwSrc_HSM 1 with pw := { on.pw with handback := true, moveTo := 1 } }

def onBak (st : Nat) : State := { (((src 3 0 0 1).put F.pwCfg0_RIDE 1).put F.pwCfg0_KEEPDLY 1).put F.pwPstat_STATE st with pw := { on.pw with bakFrom := some 0 }, tick := 250250000 }

def forced : State := { on with pw := { on.pw with forcedRun := true } }

def tr (k : Nat) : State := { (on.put F.pwPstat_TRANS 1).put F.pwPstat_TO k with tick := 250000 }

def wk : State := on.put F.pwCfg1_WAKEMASK 63

def alm : State := { on with pw := { on.pw with alarmAt := some 0 } }

def fnOn (f : Nat) (s : State) : State := (s.put F.fnStatus_STATE 2 f |>.put F.fnCfg_AFFINITY 0xFFFF f |>.put F.fnShare_TASKLIM 8 f |>.setFn f { maxP := 100 })

def ls : State := (((fnOn 5 on).put F.fnBudget_BUDGET 500 5).put F.pwOctl_CAP 4000).setE 127 { tv := true, fn := 5 }

def lsN : State := ls.put F.fnBudget_BUDGET 0 5

def lsOn (f : Nat) : State := (ls.put F.pwLease_STATE 2 255).put F.pwLease_FN f 255

def oq : OReq := ⟨9, .lease 255 none, 5, 0, 10, false, 0, false⟩

def waiting : State := { (ls.put F.pwOctl_WAITMAX 1).put F.pwLease_STATE 1 255 with pw := { ls.pw with queue := [oq] }, tick := 250 }

def capped : State := waiting.put F.pwOctl_CAP 0

def capS : State := (on.put F.pwOctl_CAP 4000).put F.faFlstat_BUSY 0

def flo (op : Nat) : State := { on with boot := { on.boot with flOp := some (op, 8191) } }

def flg (op : Nat) : State := { flo op with pw := { on.pw with grants := [⟨0, .flash, 0, 0, 1, true, 0, false⟩] } }

def tx1 : TxSt := ⟨7, 0, false, false, 0, 0, false⟩

theorem test_hypotheses_PairsAgreeOnRoles_1 :
    (on.twOn = false)
    ∧ ((tw 2).on F.twStat_LINK = true)
    ∧ (true = true ∧ ((tw 2).put F.twStat_LINK 0).laneOn 6 = false)
    ∧ ((twUp.twOn = true) ∧ (twUp.fld F.twStat_LINK = 0) ∧ (twUp.laneOn 6 = true) ∧ ((trainLeave 12 twUp).1 = true))
    ∧ (let s := twUp.put F.pwOctl_CAP 0; (s.twOn = true) ∧ (s.fld F.twStat_LINK = 0) ∧ (s.laneOn 6 = true) ∧ ((trainLeave 12 s).1 = false))
    ∧ (((tw 1).twOn = true) ∧ ((tw 1).fld F.twStat_LINK ≠ 0) ∧ ((tw 1).tw.next = none) ∧ ((tw 1).driving = true)) := by
  (repeat' apply And.intro) <;> decide +kernel

theorem test_hypotheses_PairsAgreeOnRoles_2 :
    (((tw 2).twOn = true) ∧ ((tw 2).fld F.twStat_LINK ≠ 0) ∧ ((tw 2).tw.next = none) ∧ ((tw 2).twRole = 2) ∧ ((tw 2).tw.listen = none) ∧ ((tw 2).witness = false))
    ∧ (((twW 2).twOn = true) ∧ ((twW 2).fld F.twStat_LINK ≠ 0) ∧ ((twW 2).tw.next = none) ∧ ((twW 2).twRole = 2) ∧ ((twW 2).tw.listen = none) ∧ ((twW 2).witness = true))
    ∧ (on.twOn = false)
    ∧ (((tw 1).twOn = true) ∧ ((tw 1).fld F.twStat_LINK ≠ 0))
    ∧ (((tw 2).twOn = true) ∧ ((tw 2).fld F.twStat_LINK ≠ 0) ∧ (bits (BitVec.toNat (sw0 5 0 1 0)) 4 1 = (tw 2).fld F.twCfg0_UNIT))
    ∧ (((tw 2).twOn = true) ∧ ((tw 2).fld F.twStat_LINK ≠ 0) ∧ (bits (BitVec.toNat (sw0 5 0 1 1)) 4 1 ≠ (tw 2).fld F.twCfg0_UNIT) ∧ (bits (BitVec.toNat (sw2 7 0)) 16 32 ≠ (tw 2).boot.cfgd)) := by
  (repeat' apply And.intro) <;> decide +kernel

theorem test_hypotheses_PairsAgreeOnRoles_3 :
    (let s := (tw 4).put F.twCfg0_PREF 1; (s.twOn = true) ∧ (s.fld F.twStat_LINK ≠ 0) ∧ (bits (BitVec.toNat (sw0 5 0 1 1)) 4 1 ≠ s.fld F.twCfg0_UNIT) ∧ (bits (BitVec.toNat (sw2 0 1)) 6 10 ≠ s.boot.sdn))
    ∧ (let s := (tw 1).put F.twStat_SUSP 1; (s.twOn = true) ∧ (s.fld F.twStat_LINK ≠ 0) ∧ (bits (BitVec.toNat (sw0 0 0 1 1)) 4 1 ≠ s.fld F.twCfg0_UNIT) ∧ (bits (BitVec.toNat (sw2 0 0)) 16 32 = s.boot.cfgd) ∧ (bits (BitVec.toNat (sw2 0 0)) 6 10 = s.boot.sdn) ∧ (bits (BitVec.toNat (sw0 0 0 1 1)) 16 32 = s.instN) ∧ (bits (BitVec.toNat (sw1 0)) 16 32 = s.fld F.twDig_DIGEST))
    ∧ (((tw 2).twOn = true) ∧ ((tw 2).fld F.twStat_LINK ≠ 0) ∧ (bits (BitVec.toNat (sw0 0 0 1 1)) 4 1 ≠ (tw 2).fld F.twCfg0_UNIT) ∧ (bits (BitVec.toNat (sw2 0 0)) 16 32 = (tw 2).boot.cfgd) ∧ (bits (BitVec.toNat (sw2 0 0)) 6 10 = (tw 2).boot.sdn) ∧ (bits (BitVec.toNat (sw0 0 0 1 1)) 16 32 = (tw 2).instN) ∧ (bits (BitVec.toNat (sw1 9)) 16 32 ≠ (tw 2).fld F.twDig_DIGEST))
    ∧ (let s := (tw 2).put F.twStat_SUSP 1; (s.twOn = true) ∧ (s.fld F.twStat_LINK ≠ 0) ∧ (bits (BitVec.toNat (sw0 0 0 1 1)) 4 1 ≠ s.fld F.twCfg0_UNIT) ∧ (bits (BitVec.toNat (sw2 0 0)) 16 32 = s.boot.cfgd) ∧ (bits (BitVec.toNat (sw2 0 0)) 6 10 = s.boot.sdn) ∧ (bits (BitVec.toNat (sw0 0 0 1 1)) 16 32 = s.instN) ∧ (bits (BitVec.toNat (sw1 9)) 16 32 ≠ s.fld F.twDig_DIGEST))
    ∧ (let s := (tw 2).put F.twStat_TST 1; (s.twOn = true) ∧ (s.fld F.twStat_LINK ≠ 0) ∧ (bits (BitVec.toNat (sw0 0 0 1 1)) 4 1 ≠ s.fld F.twCfg0_UNIT) ∧ (bits (BitVec.toNat (sw2 0 0)) 16 32 = s.boot.cfgd) ∧ (bits (BitVec.toNat (sw2 0 0)) 6 10 = s.boot.sdn) ∧ (bits (BitVec.toNat (sw0 0 0 1 1)) 16 32 = s.instN) ∧ (bits (BitVec.toNat (sw1 9)) 16 32 ≠ s.fld F.twDig_DIGEST))
    ∧ ((tw 1).driving = true) := by
  (repeat' apply And.intro) <;> decide +kernel

theorem test_hypotheses_PairsAgreeOnRoles_4 :
    (((tw 2).twOn = true) ∧ ((tw 2).twRole = 2) ∧ ((tw 2).tw.listen = none) ∧ ((tw 2).tw.next = none) ∧ ((tw 2).lastInst.getD (tw 2).tick + (tw 2).fld F.mgInst_CYC / 8 ≤ (tw 2).tick))
    ∧ (on.tw.listen = none)
    ∧ (((lis (heard0 (tw 2))).tw.listen = some 0) ∧ (0 ≤ (lis (heard0 (tw 2))).tick) ∧ ((lis (heard0 (tw 2))).tw.msg ≠ none))
    ∧ (((lis (tw 2)).tw.listen = some 0) ∧ (0 ≤ (lis (tw 2)).tick) ∧ ((lis (tw 2)).tw.msg = none) ∧ ((lis (tw 2)).tw.next = none))
    ∧ (((heal 3).twRole = 3) ∧ ((heal 3).fld F.twStat_CAUSE = 4) ∧ ((heal 3).tw.healthyFrom = some 0) ∧ (0 + (heal 3).fld F.twCfg0_HOLDOFF * 250000000 ≤ (heal 3).tick) ∧ ((heal 3).tw.next = none))
    ∧ (((heal 2).twRole = 2) ∧ ((heal 2).tw.standbyFrom = some 0) ∧ (0 + (heal 2).fld F.twCfg0_HOLDOFF * 250000000 ≤ (heal 2).tick)) := by
  (repeat' apply And.intro) <;> decide +kernel

theorem test_hypotheses_SelfTestsAndDuplicateEntriesEnd_1 :
    (((tw 2).clocksOn = true) ∧ ((tw 2).applied = true) ∧ ((tw 2).heard Who.pf = true) ∧ ((tw 2).supervisor Who.pf = true) ∧ ((tw 2).twOn = true) ∧ ((tw 2).fld F.twStat_TST ≠ 1))
    ∧ ((on.clocksOn = true) ∧ (on.applied = true) ∧ (on.heard Who.pf = true) ∧ (Who.pf ≠ Who.jtag) ∧ (on.twOn = false))
    ∧ ((on.clocksOn = true) ∧ (on.applied = true) ∧ (on.fld F.twStat_TST ≠ 1))
    ∧ ((((tw 2).put F.twStat_TST 1).clocksOn = true) ∧ (((tw 2).put F.twStat_TST 1).applied = true) ∧ (((tw 2).put F.twStat_TST 1).fld F.twStat_TST = 1) ∧ (true = true))
    ∧ (let s := (tw 2).put F.twStat_TST 1; (s.clocksOn = true) ∧ (s.applied = true) ∧ (s.fld F.twStat_TST = 1) ∧ (s.tick ≤ s.tw.testFrom + 5000000))
    ∧ ((bisting.clocksOn = true) ∧ (bisting.applied = true) ∧ (bisting.fld F.twStat_TST = 1) ∧ (bisting.tick ≤ bisting.tw.testFrom + 5000000) ∧ ((digestOf (readStores bisting)).1 = bisting.fld F.twDig_DIGEST) ∧ ((digestOf (readStores bisting)).2.testFinds = false)) := by
  (repeat' apply And.intro) <;> decide +kernel

theorem test_hypotheses_SelfTestsAndDuplicateEntriesEnd_2 :
    ((on.clocksOn = true) ∧ (on.applied = true) ∧ (∀ e ∈ on.tw.dd, e.src ≠ BitVec.toNat (7 : Word)))
    ∧ ((dd1.clocksOn = true) ∧ (dd1.applied = true) ∧ (({ src := 7, high := 0, seenRec := 0, used := 0 } : DdEnt).used + 100000000 ≤ dd1.tick)) := by
  (repeat' apply And.intro) <;> decide +kernel

theorem test_hypotheses_SourcesCarryTheSupply_1 :
    (let s := on.put F.pwSrc_HSM 1; (s.boot.phase ≠ Phase.off) ∧ (s.pw.overtemp = false) ∧ (s.fld F.pwSrc_HSM ≠ 0) ∧ (s.fld F.pwSrc_DEB = 0))
    ∧ ((let __src := on; ({ pending := __src.pending, tick := __src.tick, tkBase := __src.tkBase, period := __src.period, fresh := __src.fresh, act := __src.act, shd := __src.shd, cap := __src.cap, lay := __src.lay, heldGo := __src.heldGo, loft := __src.loft, code := __src.code, priv := __src.priv, mg := __src.mg, stage := __src.stage, scrub := __src.scrub, lost := __src.lost, flash := __src.flash, eng := __src.eng, stb := __src.stb, fns := __src.fns, pairs := __src.pairs, ic := __src.ic, rgn := __src.rgn, lastInst := __src.lastInst, seenInst := __src.seenInst, jumpDue := __src.jumpDue, ports := __src.ports, dirs := __src.dirs, yard := __src.yard, tc := __src.tc, steps := __src.steps, steppedAt := __src.steppedAt, sv := __src.sv, refs := __src.refs, pg := __src.pg, pd := __src.pd, can := __src.can, pm := __src.pm, pins := __src.pins, pinPast := __src.pinPast, flagAt := __src.flagAt, tw := __src.tw, pw := let __src := on.pw; { grants := __src.grants, queue := __src.queue, nextId := __src.nextId, lastWake := __src.lastWake, bakFrom := __src.bakFrom, goodAt := __src.goodAt, hsmEnd := __src.hsmEnd, moveTo := __src.moveTo, handback := __src.handback, forcedRun := __src.forcedRun, forcedHeld := __src.forcedHeld, latched := __src.latched, overtemp := true, detected := __src.detected, alarmAt := __src.alarmAt, transFrom := __src.transFrom, onAt := __src.onAt }, boot := __src.boot, host := __src.host, out := __src.out } : State)).pw.overtemp = true)
    ∧ (((src 3 0 0 1).boot.phase ≠ Phase.off) ∧ ((src 3 0 0 1).pw.overtemp = false) ∧ ((src 3 0 0 1).fld F.pwSrc_HSM = 0) ∧ ((src 3 0 0 1).fld F.pwSrc_ON = 2 + 1) ∧ (((src 3 0 0 1).put (srcFlag 2) 0).bestSource = 0))
    ∧ (((src 1 1 0 1).boot.phase ≠ Phase.off) ∧ ((src 1 1 0 1).pw.overtemp = false) ∧ ((src 1 1 0 1).fld F.pwSrc_HSM = 0) ∧ ((src 1 1 0 1).fld F.pwSrc_ON = 0 + 1) ∧ (((src 1 1 0 1).put (srcFlag 0) 0).bestSource ≠ 0))
    ∧ (let s := (src 2 1 1 0).put F.pwSrc_DEB 1; (s.boot.phase ≠ Phase.off) ∧ (s.pw.overtemp = false) ∧ (s.fld F.pwSrc_ON ≠ 0 + 1) ∧ (s.fld F.pwSrc_DEB ≠ 0) ∧ (0 + 1 ∈ s.better))
    ∧ (((src 1 1 1 0).boot.phase ≠ Phase.off) ∧ ((src 1 1 1 0).pw.overtemp = false) ∧ ((src 1 1 1 0).fld F.pwSrc_ON ≠ 1 + 1) ∧ ((src 1 1 1 0).fld F.pwSrc_DEB = 0)) := by
  (repeat' apply And.intro) <;> decide +kernel

theorem test_hypotheses_SourcesCarryTheSupply_2 :
    (on.fld F.pwSrc_HSM = 0)
    ∧ (on.fld F.pwSrc_HSM = 0)
    ∧ (let s := (src 1 1 0 0).put F.pwSrc_HSM 1; (s.fld F.pwSrc_HSM ≠ 0) ∧ (s.pw.handback = false) ∧ (s.onGood = true))
    ∧ (((src 1 1 0 0).boot.phase ≠ Phase.off) ∧ ((src 1 1 0 0).pw.overtemp = false) ∧ ((src 1 1 0 0).pw.latched = 0) ∧ ((src 1 1 0 0).fld F.pwCfg1_WAKEMASK = 0) ∧ ((src 1 1 0 0).fld F.pwSrc_HSM = 0) ∧ ((src 1 1 0 0).fld (srcFlag 2) = 0) ∧ ((have __src := (src 1 1 0 0).put (srcFlag 2) 1; ({ pending := __src.pending, tick := __src.tick, tkBase := __src.tkBase, period := __src.period, fresh := __src.fresh, act := __src.act, shd := __src.shd, cap := __src.cap, lay := __src.lay, heldGo := __src.heldGo, loft := __src.loft, code := __src.code, priv := __src.priv, mg := __src.mg, stage := __src.stage, scrub := __src.scrub, lost := __src.lost, flash := __src.flash, eng := __src.eng, stb := __src.stb, fns := __src.fns, pairs := __src.pairs, ic := __src.ic, rgn := __src.rgn, lastInst := __src.lastInst, seenInst := __src.seenInst, jumpDue := __src.jumpDue, ports := __src.ports, dirs := __src.dirs, yard := __src.yard, tc := __src.tc, steps := __src.steps, steppedAt := __src.steppedAt, sv := __src.sv, refs := __src.refs, pg := __src.pg, pd := __src.pd, can := __src.can, pm := __src.pm, pins := __src.pins, pinPast := __src.pinPast, flagAt := __src.flagAt, tw := __src.tw, pw := have __src := (src 1 1 0 0).pw; { grants := __src.grants, queue := __src.queue, nextId := __src.nextId, lastWake := __src.lastWake, bakFrom := __src.bakFrom, goodAt := Tab.set 0 (src 1 1 0 0).pw.goodAt (2) (src 1 1 0 0).tick, hsmEnd := __src.hsmEnd, moveTo := __src.moveTo, handback := __src.handback, forcedRun := __src.forcedRun, forcedHeld := __src.forcedHeld, latched := __src.latched, overtemp := __src.overtemp, detected := __src.detected, alarmAt := __src.alarmAt, transFrom := __src.transFrom, onAt := __src.onAt }, boot := __src.boot, host := __src.host, out := __src.out } : State)).better = []))
    ∧ (((src 2 0 1 0).boot.phase ≠ Phase.off) ∧ ((src 2 0 1 0).pw.overtemp = false) ∧ ((src 2 0 1 0).pw.latched = 0) ∧ ((src 2 0 1 0).fld F.pwCfg1_WAKEMASK = 0) ∧ ((src 2 0 1 0).fld F.pwSrc_HSM = 0) ∧ ((src 2 0 1 0).fld (srcFlag 0) = 0) ∧ ((have __src := (src 2 0 1 0).put (srcFlag 0) 1; ({ pending := __src.pending, tick := __src.tick, tkBase := __src.tkBase, period := __src.period, fresh := __src.fresh, act := __src.act, shd := __src.shd, cap := __src.cap, lay := __src.lay, heldGo := __src.heldGo, loft := __src.loft, code := __src.code, priv := __src.priv, mg := __src.mg, stage := __src.stage, scrub := __src.scrub, lost := __src.lost, flash := __src.flash, eng := __src.eng, stb := __src.stb, fns := __src.fns, pairs := __src.pairs, ic := __src.ic, rgn := __src.rgn, lastInst := __src.lastInst, seenInst := __src.seenInst, jumpDue := __src.jumpDue, ports := __src.ports, dirs := __src.dirs, yard := __src.yard, tc := __src.tc, steps := __src.steps, steppedAt := __src.steppedAt, sv := __src.sv, refs := __src.refs, pg := __src.pg, pd := __src.pd, can := __src.can, pm := __src.pm, pins := __src.pins, pinPast := __src.pinPast, flagAt := __src.flagAt, tw := __src.tw, pw := have __src := (src 2 0 1 0).pw; { grants := __src.grants, queue := __src.queue, nextId := __src.nextId, lastWake := __src.lastWake, bakFrom := __src.bakFrom, goodAt := Tab.set 0 (src 2 0 1 0).pw.goodAt (0) (src 2 0 1 0).tick, hsmEnd := __src.hsmEnd, moveTo := __src.moveTo, handback := __src.handback, forcedRun := __src.forcedRun, forcedHeld := __src.forcedHeld, latched := __src.latched, overtemp := __src.overtemp, detected := __src.detected, alarmAt := __src.alarmAt, transFrom := __src.transFrom, onAt := __src.onAt }, boot := __src.boot, host := __src.host, out := __src.out } : State)).better ≠ []))
    ∧ (on.fld F.pwSrc_DEB = 0) := by
  (repeat' apply And.intro) <;> decide +kernel

theorem test_hypotheses_SourcesCarryTheSupply_3 :
    ((deb.fld F.pwSrc_DEB ≠ 0) ∧ (deb.fld F.pwSrc_HSM = 0))
    ∧ ((hb.fld F.pwSrc_HSM ≠ 0) ∧ (hb.pw.handback = true) ∧ (hb.pw.moveTo < 4) ∧ (hb.on (srcFlag (hb.pw.moveTo - 1)) = true))
    ∧ (¬(on.fld F.pwSrc_ON = 3 ∧ 4095 < on.fld F.pwCfg0_VBAKLO ∧ on.fld F.pwPstat_STATE ≠ 4))
    ∧ (let s := (src 3 0 0 1).put F.pwCfg0_VBAKLO 5; (s.fld F.pwSrc_ON = 3) ∧ (4 < s.fld F.pwCfg0_VBAKLO) ∧ (s.fld F.pwPstat_STATE ≠ 4) ∧ (s.fld F.pwPstat_TRANS = 0) ∧ (s.pw.forcedRun = false) ∧ (s.pw.forcedHeld = false))
    ∧ (on.pw.bakFrom = none)
    ∧ (on.pw.bakFrom = none) := by
  (repeat' apply And.intro) <;> decide +kernel

theorem test_hypotheses_SourcesCarryTheSupply_4 :
    (((onBak 2).pw.bakFrom = some 0) ∧ ((onBak 2).fld F.pwPstat_TRANS = 0) ∧ ((onBak 2).fld F.pwCfg0_RIDE ≠ 0) ∧ ((onBak 2).pw.forcedRun = false) ∧ ((onBak 2).pw.forcedHeld = false) ∧ ((onBak 2).fld F.pwPstat_STATE < 3) ∧ (0 + (onBak 2).fld F.pwCfg0_RIDE * 250000 ≤ (onBak 2).tick))
    ∧ (((onBak 3).pw.bakFrom = some 0) ∧ ((onBak 3).fld F.pwPstat_TRANS = 0) ∧ ((onBak 3).fld F.pwCfg0_KEEPDLY ≠ 0) ∧ ((onBak 3).fld F.pwPstat_STATE ≠ 4) ∧ ((onBak 3).pw.forcedRun = false) ∧ ((onBak 3).pw.forcedHeld = false) ∧ (0 + (onBak 3).fld F.pwCfg0_RIDE * 250000 + (onBak 3).fld F.pwCfg0_KEEPDLY * 250000000 ≤ (onBak 3).tick)) := by
  (repeat' apply And.intro) <;> decide +kernel

theorem test_hypotheses_PowerStatesFollowRequests_1 :
    ((on.clocksOn = true) ∧ (on.heard (Who.vf (2 : Fin 15)) = true) ∧ (on.supervisor (Who.vf (2 : Fin 15)) = false) ∧ (Who.vf (2 : Fin 15) ≠ Who.jtag))
    ∧ ((forced.clocksOn = true) ∧ (forced.heard Who.pf = true) ∧ (forced.supervisor Who.pf = true) ∧ (4 < 5) ∧ (forced.pw.forcedRun = true))
    ∧ (let s := (on.put F.pwPstat_TRANS 1).put F.pwPstat_HV 1; (s.clocksOn = true) ∧ (s.heard Who.pf = true) ∧ (s.supervisor Who.pf = true) ∧ (4 < 5) ∧ (s.pw.forcedRun = false) ∧ (s.pw.forcedHeld = false) ∧ (s.fld F.pwPstat_TRANS ≠ 0))
    ∧ ((on.clocksOn = true) ∧ (on.heard Who.pf = true) ∧ (on.supervisor Who.pf = true) ∧ (0 < 5) ∧ (on.pw.forcedRun = false) ∧ (on.pw.forcedHeld = false) ∧ (on.fld F.pwPstat_TRANS = 0) ∧ (on.fld F.pwPstat_STATE = 0))
    ∧ ((on.clocksOn = true) ∧ (on.heard Who.pf = true) ∧ (on.supervisor Who.pf = true) ∧ (4 < 5) ∧ (on.pw.forcedRun = false) ∧ (on.pw.forcedHeld = false) ∧ (on.fld F.pwPstat_TRANS = 0) ∧ (on.fld F.pwPstat_STATE ≠ 4))
    ∧ ((on.clocksOn = true) ∧ (on.fld F.pwPstat_TRANS = 0)) := by
  (repeat' apply And.intro) <;> decide +kernel

theorem test_hypotheses_PowerStatesFollowRequests_2 :
    ((on.clocksOn = true) ∧ (on.fld F.pwPstat_TRANS = 0))
    ∧ (((tr 1).clocksOn = true) ∧ ((tr 1).fld F.pwPstat_TRANS ≠ 0) ∧ ((tr 1).fld F.pwPstat_TO < 2) ∧ ((tr 1).fld F.pwPstat_STATE < 2) ∧ ((tr 1).fld F.pwPstat_HV = 0) ∧ ((tr 1).pw.transFrom + 2500 ≤ (tr 1).tick))
    ∧ (((tr 3).clocksOn = true) ∧ ((tr 3).fld F.pwPstat_TRANS ≠ 0) ∧ ((tr 3).fld F.pwPstat_TO = 3) ∧ ((tr 3).fld F.pwPstat_HV = 0) ∧ ((tr 3).pw.latched = 0) ∧ ((tr 3).pw.transFrom + 50000 ≤ (tr 3).tick))
    ∧ (((tr 2).clocksOn = true) ∧ ((tr 2).fld F.pwPstat_TRANS ≠ 0) ∧ ((tr 2).fld F.pwPstat_TO = 2) ∧ ((tr 2).fld F.pwPstat_HV = 0) ∧ ((tr 2).pw.latched = 0) ∧ ((tr 2).pw.transFrom + 250000 ≤ (tr 2).tick))
    ∧ ((on.clocksOn = true) ∧ ((on.fld F.pwCfg1_WAKEMASK).testBit 5 = false))
    ∧ (let s := (wk.put F.pwPstat_TRANS 1).put F.pwPstat_TO 2; (s.clocksOn = true) ∧ ((s.fld F.pwCfg1_WAKEMASK).testBit 4 = true) ∧ (4 = 5 → s.u0Waits = true) ∧ (s.fld F.pwPstat_TRANS ≠ 0) ∧ (2 ≤ s.fld F.pwPstat_TO)) := by
  (repeat' apply And.intro) <;> decide +kernel

theorem test_hypotheses_PowerStatesFollowRequests_3 :
    ((wk.clocksOn = true) ∧ ((wk.fld F.pwCfg1_WAKEMASK).testBit 4 = true) ∧ (4 = 5 → wk.u0Waits = true) ∧ (wk.fld F.pwPstat_TRANS = 0) ∧ (wk.fld F.pwPstat_STATE < 2))
    ∧ (let s := wk.put F.pwPstat_STATE 2; (s.clocksOn = true) ∧ ((s.fld F.pwCfg1_WAKEMASK).testBit 4 = true) ∧ (4 = 5 → s.u0Waits = true) ∧ (s.fld F.pwPstat_TRANS = 0) ∧ (s.fld F.pwPstat_STATE = 2))
    ∧ ((on.clocksOn = true) ∧ (on.pw.alarmAt = none))
    ∧ ((alm.clocksOn = true) ∧ (alm.pw.alarmAt = some 0) ∧ (0 ≤ alm.tick) ∧ ((alm.fld F.pwCfg1_WAKEMASK).testBit 3 = false)) := by
  (repeat' apply And.intro) <;> decide +kernel

theorem test_hypotheses_LeasesAreGrantedWithinBudget_1 :
    (((lsOn 5).clocksOn = true) ∧ ((lsOn 5).fld F.pwLease_STATE 255 ≠ 0) ∧ ((lsOn 5).fld F.pwLease_FN 255 = (lsOn 5).reqFn (Who.engine (127 : Fin 128))))
    ∧ (((lsOn 6).clocksOn = true) ∧ ((lsOn 6).fld F.pwLease_STATE 255 ≠ 0) ∧ ((lsOn 6).fld F.pwLease_FN 255 ≠ (lsOn 6).reqFn (Who.engine (127 : Fin 128))))
    ∧ (let s := (Who.engine (127 : Fin 128)); (lsN.clocksOn = true) ∧ (lsN.fld F.pwLease_STATE 255 = 0) ∧ (lsN.fnState (lsN.reqFn s) = 2) ∧ (lsN.reqInc s = lsN.inc (lsN.reqFn s)) ∧ (lsN.reqFn s < 512) ∧ (lsN.fld F.fnBudget_BUDGET (lsN.reqFn s) < lsN.useTokens (lsN.reqFn s) + lsN.unitCost 5 * if 15 = 0 then 16 else 15))
    ∧ (let s := (Who.engine (127 : Fin 128)); (ls.clocksOn = true) ∧ (ls.fld F.pwLease_STATE 255 = 0) ∧ (ls.fnState (ls.reqFn s) = 2) ∧ (ls.reqInc s = ls.inc (ls.reqFn s)) ∧ (ls.reqFn s < 512) ∧ ((ls.useTokens (ls.reqFn s) + ls.unitCost 5 * if 1 = 0 then 16 else 1) ≤ ls.fld F.fnBudget_BUDGET (ls.reqFn s)) ∧ ((ls.est + ls.unitCost 5 * if 1 = 0 then 16 else 1) ≤ ls.fld F.pwOctl_CAP) ∧ (ls.pw.queue = []))
    ∧ ((on.clocksOn = true) ∧ (on.heard Who.pf = true) ∧ (∀ (r : Fin 15), Who.pf ≠ Who.vf r) ∧ (Who.pf ≠ Who.jtag) ∧ (on.fld F.pwLease_STATE 255 = 0))
    ∧ (((lsOn 5).clocksOn = true) ∧ ((lsOn 5).heard Who.pf = true) ∧ (∀ (r : Fin 15), Who.pf ≠ Who.vf r) ∧ (Who.pf ≠ Who.jtag) ∧ ((lsOn 5).fld F.pwLease_STATE 255 ≠ 0) ∧ ((lsOn 5).supervisor Who.pf = true)) := by
  (repeat' apply And.intro) <;> decide +kernel

theorem test_hypotheses_LeasesAreGrantedWithinBudget_2 :
    (((lsOn 6).clocksOn = true) ∧ ((lsOn 6).heard (Who.engine (127 : Fin 128)) = true) ∧ (∀ (r : Fin 15), Who.engine (127 : Fin 128) ≠ Who.vf r) ∧ (Who.engine (127 : Fin 128) ≠ Who.jtag) ∧ ((lsOn 6).fld F.pwLease_STATE 255 ≠ 0) ∧ ((lsOn 6).supervisor (Who.engine (127 : Fin 128)) = false) ∧ ((lsOn 6).fld F.pwLease_FN 255 ≠ (lsOn 6).reqFn (Who.engine (127 : Fin 128))))
    ∧ ((on.clocksOn = true) ∧ (∀ r ∈ on.pw.queue, r.id ≠ 9))
    ∧ ((waiting.clocksOn = true) ∧ (waiting.pw.queue = [oq]) ∧ (oq.hw = false) ∧ (oq.use = OUse.lease 255 none) ∧ (waiting.fld F.pwOctl_WAITMAX ≠ 0) ∧ (oq.t0 + waiting.fld F.pwOctl_WAITMAX * 250 ≤ waiting.tick))
    ∧ ((on.clocksOn = true) ∧ (on.pw.queue = []))
    ∧ ((capped.clocksOn = true) ∧ (capped.pw.queue = [oq]) ∧ (capped.fld F.pwOctl_CAP < capped.est + oq.cost))
    ∧ ((waiting.clocksOn = true) ∧ (waiting.pw.queue = [oq]) ∧ (oq.use = OUse.lease 255 none) ∧ (255 < 256) ∧ (waiting.est + oq.cost ≤ waiting.fld F.pwOctl_CAP)) := by
  (repeat' apply And.intro) <;> decide +kernel

theorem test_hypotheses_TheFarrierKeepsThePartUp_1 :
    (let s := on.put F.faFlstat_BUSY 1; (s.clocksOn = true) ∧ (s.heard Who.pf = true) ∧ (s.supervisor Who.pf = true) ∧ (s.fld F.faFlstat_BUSY ≠ 0))
    ∧ (let s := on.put F.faFlstat_BUSY 0; (s.clocksOn = true) ∧ (s.heard Who.pf = true) ∧ (s.supervisor Who.pf = true) ∧ (s.fld F.faFlstat_BUSY = 0))
    ∧ ((on.clocksOn = true) ∧ (on.heard Who.pf = true) ∧ (on.supervisor Who.pf = true) ∧ (flashAllowed (8191) (true && unprotFrom Who.pf) = false))
    ∧ ((capS.clocksOn = true) ∧ (capS.heard Who.pf = true) ∧ (capS.supervisor Who.pf = true) ∧ (flashAllowed (0) (true && unprotFrom Who.pf) = true) ∧ (capS.fld F.faFlstat_BUSY = 0) ∧ (capS.inc 0 = 0) ∧ (capS.pw.queue = []) ∧ (capS.est + capS.unitCost 3 ≤ capS.fld F.pwOctl_CAP))
    ∧ ((on.clocksOn = true) ∧ (on.boot.flOp = none))
    ∧ (((flo 1).clocksOn = true) ∧ ((flo 1).boot.flOp = some (1, 8191))) := by
  (repeat' apply And.intro) <;> decide +kernel

theorem test_hypotheses_TheFarrierKeepsThePartUp_2 :
    (((flo 3).clocksOn = true) ∧ ((flo 3).boot.flOp = some (3, 8191)) ∧ (3 = 3))
    ∧ (((flg 3).clocksOn = true) ∧ ((flg 3).boot.flOp = some (3, 8191)) ∧ (3 = 3))
    ∧ (on.clocksOn = true)
    ∧ (let s := on.put F.epStat_LINK 1 11; ((s.setPort 11 (let __src := on.port 11; ({ tx := some tx1, held := __src.held, attempts := __src.attempts, backoff := __src.backoff, lfsr := __src.lfsr, pauseWait := __src.pauseWait, pauseEnd := __src.pauseEnd, verifies := __src.verifies, verAt := __src.verAt, rxWakeAt := __src.rxWakeAt, txWakeAt := __src.txWakeAt, idleFrom := __src.idleFrom, eee := __src.eee, stamps := __src.stamps, arriving := __src.arriving, parts := __src.parts, master := __src.master, cals := __src.cals } : PortS))).clocksOn = true) ∧ ((s.setPort 11 (let __src := on.port 11; ({ tx := some tx1, held := __src.held, attempts := __src.attempts, backoff := __src.backoff, lfsr := __src.lfsr, pauseWait := __src.pauseWait, pauseEnd := __src.pauseEnd, verifies := __src.verifies, verAt := __src.verAt, rxWakeAt := __src.rxWakeAt, txWakeAt := __src.txWakeAt, idleFrom := __src.idleFrom, eee := __src.eee, stamps := __src.stamps, arriving := __src.arriving, parts := __src.parts, master := __src.master, cals := __src.cals } : PortS))).fld F.faHealth_CALSKIP < 4096) ∧ (¬((s.setPort 11 (let __src := on.port 11; ({ tx := some tx1, held := __src.held, attempts := __src.attempts, backoff := __src.backoff, lfsr := __src.lfsr, pauseWait := __src.pauseWait, pauseEnd := __src.pauseEnd, verifies := __src.verifies, verAt := __src.verAt, rxWakeAt := __src.rxWakeAt, txWakeAt := __src.txWakeAt, idleFrom := __src.idleFrom, eee := __src.eee, stamps := __src.stamps, arriving := __src.arriving, parts := __src.parts, master := __src.master, cals := __src.cals } : PortS))).fld F.epStat_LPITX 11 ≠ 0 ∨ (s.setPort 11 (let __src := on.port 11; ({ tx := some tx1, held := __src.held, attempts := __src.attempts, backoff := __src.backoff, lfsr := __src.lfsr, pauseWait := __src.pauseWait, pauseEnd := __src.pauseEnd, verifies := __src.verifies, verAt := __src.verAt, rxWakeAt := __src.rxWakeAt, txWakeAt := __src.txWakeAt, idleFrom := __src.idleFrom, eee := __src.eee, stamps := __src.stamps, arriving := __src.arriving, parts := __src.parts, master := __src.master, cals := __src.cals } : PortS))).portFree 11 = true)))
    ∧ (((on.put F.epStat_LPITX 1 11).clocksOn = true) ∧ ((on.put F.epStat_LPITX 1 11).fld F.faHealth_CALSKIP < 4096) ∧ ((on.put F.epStat_LPITX 1 11).fld F.epStat_LPITX 11 ≠ 0))
    ∧ ((on.clocksOn = true) ∧ (on.fld F.faHealth_CALSKIP < 4096)) := by
  (repeat' apply And.intro) <;> decide +kernel

theorem test_hypotheses_TheFarrierKeepsThePartUp_3 :
    (on.clocksOn = true)
    ∧ (on.clocksOn = true)
    ∧ ((on.put F.faCfg0_TELDST 1).clocksOn = true)
    ∧ (on.clocksOn = true) := by
  (repeat' apply And.intro) <;> decide +kernel

end W10

namespace W11

def st0 : Straps := ⟨7, 1, 2, 5⟩

def locked : State := on.put F.ckStat_LOCK 1

def phase (p : Phase) (s : State := on) : State := { s with boot := { s.boot with phase := p } }

def hot : State := let s := (phase .off).put F.pwSrc_PDG 1; { s with pw := { s.pw with overtemp := true } }

def pll (n : Nat) : State := ((phase .pll).put F.gcBootcause_TRIES n).put F.ckStat_BOOTSRC 1

def late (x : Nat) (s : State) : State := { s with tick := x }

def hw (n : Nat) : State := ((phase .hostWait).put F.ckStat_BOOTSRC 1).put F.gcBootctl_HICNT n

def wd1 : State := { on with boot := { on.boot with wdEnd := some 0 } }

def noLink : State := { on with host := { on.host with pcieUp := false } }

def pend : State := { on with host := { on.host with pba := [2047, 3] } }

def lofted : State := memWrite (loftPlace 0 5) 77 on

def wr (k : Nat) (s : State) : State := let s := (s.put F.pwPstat_STATE k).put F.pwCfg1_WAKEMASK 1; { s with host := { s.host with i2cPend := k == 0 } }

def loftAt : State := { lofted with host := { lofted.host with i2cOff := 0x03000028 } }

def off : State := phase .off

def dbgP : State := { on with host := { on.host with dbgPend := true } }

def dbgS : State := { on with boot := { on.boot with sec := 16 } }

def dbgH : State := (dbgS.put F.dbgStat_HALTED 1 15 7).setE 127 { a := 5 }

def aCfg : BitVec 24 := 0x4400A0

def aDbg : BitVec 24 := 0x3E80E3

def cn (m : Nat) : State := on.put F.canCfg0_MODE m 3

theorem test_hypotheses_ResetsLeaveWhatR344Keeps_1 :
    (9 < 10)
    ∧ ((10 ≤ 10) ∧ (locked.boot.phase ≠ Phase.off))
    ∧ ((on.put F.ckStat_LOCK 0).fld F.ckStat_LOCK = 0)
    ∧ (locked.fld F.ckStat_LOCK ≠ 0)
    ∧ (locked.clocksOn = true)
    ∧ ((locked.heard (Who.vf (2 : Fin 15)) = true) ∧ (Who.vf (2 : Fin 15) ≠ Who.jtag) ∧ (notVf (Who.vf (2 : Fin 15)) = false)) := by
  (repeat' apply And.intro) <;> decide +kernel

theorem test_hypotheses_ResetsLeaveWhatR344Keeps_2 :
    ((locked.heard Who.pf = true) ∧ (Who.pf ≠ Who.jtag) ∧ (164 ≠ 165))
    ∧ ((locked.heard Who.pf = true) ∧ (Who.pf ≠ Who.jtag) ∧ (notVf Who.pf = true) ∧ (165 = 165))
    ∧ ((locked.heard (Who.engine (127 : Fin 128)) = true) ∧ (Who.engine (127 : Fin 128) ≠ Who.jtag) ∧ (notVf (Who.engine (127 : Fin 128)) = true) ∧ (165 = 165))
    ∧ (hot.pw.overtemp = true)
    ∧ (((phase Phase.off).pw.overtemp = false) ∧ ((phase Phase.off).boot.phase = Phase.off))
    ∧ (((on.put F.pwSrc_ON 1).boot.phase ≠ Phase.off) ∧ ((on.put F.pwSrc_ON 1).fld F.pwSrc_ON ≠ 0)) := by
  (repeat' apply And.intro) <;> decide +kernel

theorem test_hypotheses_ResetsLeaveWhatR344Keeps_3 :
    (on.pw.overtemp = false)
    ∧ (hot.pw.overtemp = true) := by
  (repeat' apply And.intro) <;> decide +kernel

theorem test_hypotheses_BootTriesAreCounted_1 :
    (on.boot.phase ≠ Phase.pll)
    ∧ (on.boot.phase ≠ Phase.pll)
    ∧ (((pll 3).boot.phase = Phase.pll) ∧ ((pll 3).fld F.gcBootcause_RSTSRC ≠ 6) ∧ ((pll 3).fld F.gcBootcause_TRIES = 3))
    ∧ (((pll 2).boot.phase = Phase.pll) ∧ ((pll 2).fld F.gcBootcause_RSTSRC ≠ 6) ∧ ((pll 2).fld F.gcBootcause_TRIES < 3) ∧ ((pll 2).fld F.ckStat_BOOTSRC = 1))
    ∧ (((late 250000 (pll 2)).boot.phase = Phase.pll) ∧ ((late 250000 (pll 2)).tkBase + 250000 ≤ (late 250000 (pll 2)).tick))
    ∧ (on.boot.phase ≠ Phase.retry) := by
  (repeat' apply And.intro) <;> decide +kernel

theorem test_hypotheses_BootTriesAreCounted_2 :
    (let s := late 2500000 (phase Phase.retry); (s.boot.phase = Phase.retry) ∧ (s.tkBase + 2500000 ≤ s.tick))
    ∧ ((on.heard Who.pf = true) ∧ (Who.pf ≠ Who.jtag) ∧ (on.boot.phase ≠ Phase.hostWait))
    ∧ (((hw 4).heard Who.pf = true) ∧ (Who.pf ≠ Who.jtag) ∧ ((hw 4).boot.phase = Phase.hostWait) ∧ ((hw 4).himgPort Who.pf = true) ∧ ((hw 4).fld F.gcBootctl_HICNT < 5))
    ∧ (((hw 4).heard Who.pf = true) ∧ (notVf Who.pf = true) ∧ (Who.pf ≠ Who.jtag))
    ∧ (((hw 4).heard Who.pf = true) ∧ (notVf Who.pf = true) ∧ (Who.pf ≠ Who.jtag))
    ∧ (on.boot.phase ≠ Phase.hostWait) := by
  (repeat' apply And.intro) <;> decide +kernel

theorem test_hypotheses_BootTriesAreCounted_3 :
    (((late 2500000000 (hw 300)).boot.phase = Phase.hostWait) ∧ ((late 2500000000 (hw 300)).boot.hostFrom + 2500000000 ≤ (late 2500000000 (hw 300)).tick))
    ∧ ((on.heard Who.pf = true) ∧ (on.supervisor Who.pf = true) ∧ (on.boot.phase = Phase.running) ∧ (on.applied = true))
    ∧ (((hw 4).heard Who.pf = true) ∧ ((hw 4).supervisor Who.pf = true) ∧ ((hw 4).boot.phase ≠ Phase.running))
    ∧ (on.boot.wdEnd = none)
    ∧ ((wd1.boot.wdEnd = some 0) ∧ (0 ≤ wd1.tick)) := by
  (repeat' apply And.intro) <;> decide +kernel

theorem test_hypotheses_PcieFunctionsAndVectors_1 :
    (noLink.host.pcieUp = false)
    ∧ (pend.host.pcieUp = true)
    ∧ (on.host.pcieUp = true)
    ∧ ((noLink.clocksOn = true) ∧ (noLink.host.pcieUp = false) ∧ ((trainLeave 13 noLink).1 = true))
    ∧ (((noLink.put F.pwOctl_CAP 0).clocksOn = true) ∧ ((noLink.put F.pwOctl_CAP 0).host.pcieUp = false) ∧ ((trainLeave 13 (noLink.put F.pwOctl_CAP 0)).1 = false))
    ∧ (noLink.host.pcieUp = false) := by
  (repeat' apply And.intro) <;> decide +kernel

theorem test_hypotheses_PcieFunctionsAndVectors_2 :
    (pend.host.pcieUp = true)
    ∧ (pend.host.pcieUp = true)
    ∧ (pend.host.pcieUp = true)
    ∧ (pend.host.pcieUp = true)
    ∧ (pend.host.pcieUp = true) := by
  (repeat' apply And.intro) <;> decide +kernel

theorem test_hypotheses_SerialPortsReadAndWrite_1 :
    (on.clocksOn = true)
    ∧ (lofted.clocksOn = true)
    ∧ ((lofted.clocksOn = true) ∧ ([9] ≠ []) ∧ (BitVec.toNat (50331695 : BitVec 32) % 8 + [9].length ≤ 8))
    ∧ ((lofted.clocksOn = true) ∧ (lofted.host.qspiPend = false) ∧ (lofted.applied = true) ∧ (BitVec.toNat (50331688 : BitVec 32) % 8 = 0) ∧ ([1, 2, 3, 4, 5, 6].length = 6) ∧ (hostPlace (BitVec.toNat (50331688 : BitVec 32)) = Place.loft 0 5) ∧ (loftReserved 5 = false) ∧ (lofted.inpassWord 0 5 = false))
    ∧ (on.clocksOn = true)
    ∧ ((on.clocksOn = true) ∧ (on.host.qspiPend = false)) := by
  (repeat' apply And.intro) <;> decide +kernel

theorem test_hypotheses_SerialPortsReadAndWrite_2 :
    (((wr 2 on).clocksOn = true) ∧ (BitVec.toNat (96 : BitVec 7) = (wr 2 on).i2cAddr) ∧ ((wr 2 on).fld F.pwPstat_STATE = 2) ∧ ((wr 2 on).fld F.pwPstat_TRANS = 0) ∧ (((wr 2 on).fld F.pwCfg1_WAKEMASK).testBit 0 = true) ∧ ((wr 2 on).host.i2cPend = false))
    ∧ (((wr 0 on).clocksOn = true) ∧ (BitVec.toNat (96 : BitVec 7) = (wr 0 on).i2cAddr) ∧ ((wr 0 on).fld F.pwPstat_STATE < 2) ∧ ((wr 0 on).fld F.pwPstat_TRANS = 0) ∧ ((wr 0 on).host.i2cPend = true))
    ∧ (((wr 0 on).clocksOn = true) ∧ (BitVec.toNat (96 : BitVec 7) = (wr 0 on).i2cAddr) ∧ ((wr 0 on).fld F.pwPstat_STATE < 2) ∧ ((wr 0 on).fld F.pwPstat_TRANS = 0) ∧ ((wr 0 on).host.i2cPend = true))
    ∧ ((on.clocksOn = true) ∧ (BitVec.toNat (95 : BitVec 7) ≠ on.i2cAddr))
    ∧ ((on.clocksOn = true) ∧ (BitVec.toNat (95 : BitVec 7) ≠ on.i2cAddr))
    ∧ ((on.clocksOn = true) ∧ (BitVec.toNat (96 : BitVec 7) = on.i2cAddr) ∧ (on.fld F.pwPstat_STATE < 2) ∧ (on.fld F.pwPstat_TRANS = 0) ∧ (on.host.i2cPend = false)) := by
  (repeat' apply And.intro) <;> decide +kernel

theorem test_hypotheses_SerialPortsReadAndWrite_3 :
    ((on.clocksOn = true) ∧ (BitVec.toNat (96 : BitVec 7) = on.i2cAddr) ∧ (on.fld F.pwPstat_STATE < 2) ∧ (on.fld F.pwPstat_TRANS = 0) ∧ (on.host.i2cPend = false) ∧ ([1] ≠ []) ∧ (BitVec.toNat (50331688 : BitVec 32) % 8 + [1].length ≤ 8))
    ∧ ((on.clocksOn = true) ∧ (BitVec.toNat (96 : BitVec 7) = on.i2cAddr) ∧ (on.fld F.pwPstat_STATE < 2) ∧ (on.fld F.pwPstat_TRANS = 0) ∧ (on.host.i2cPend = false) ∧ (on.applied = true) ∧ (BitVec.toNat (50331688 : BitVec 32) % 8 = 0) ∧ ([1, 2, 3, 4, 5, 6].length = 6) ∧ (hostPlace (BitVec.toNat (50331688 : BitVec 32)) = Place.loft 0 5) ∧ (loftReserved 5 = false) ∧ (on.inpassWord 0 5 = false))
    ∧ ((loftAt.clocksOn = true) ∧ (BitVec.toNat (96 : BitVec 7) = loftAt.i2cAddr) ∧ (loftAt.fld F.pwPstat_STATE < 2) ∧ (loftAt.fld F.pwPstat_TRANS = 0) ∧ (loftAt.host.i2cPend = false) ∧ (loftAt.applied = true) ∧ (hostPlace loftAt.host.i2cOff = Place.loft 0 5) ∧ (loftReserved 5 = false) ∧ (1 = 1) ∧ (readCode (loftAt.raw (loftPlace 0 5)) = Rd.ok 77))
    ∧ ((loftAt.clocksOn = true) ∧ (BitVec.toNat (96 : BitVec 7) = loftAt.i2cAddr) ∧ (loftAt.fld F.pwPstat_STATE < 2) ∧ (loftAt.fld F.pwPstat_TRANS = 0) ∧ (loftAt.host.i2cPend = false)) := by
  (repeat' apply And.intro) <;> decide +kernel

theorem test_hypotheses_JtagInstructions_1 :
    (off.tapOn = false)
    ∧ (on.tapOn = true)
    ∧ (on.tapOn = true)
    ∧ (on.tapOn = true)
    ∧ (on.tapOn = true)
    ∧ ((dbgP.tapOn = true) ∧ (dbgP.host.dbgPend = true)) := by
  (repeat' apply And.intro) <;> decide +kernel

theorem test_hypotheses_JtagInstructions_2 :
    ((dbgS.tapOn = true) ∧ (dbgS.host.dbgPend = false) ∧ (hostPlace (8 * aCfg.toNat) = Place.reg RegId.fnCfg 5 0) ∧ (RegId.fnCfg.need 5 ≠ Need.dbg))
    ∧ ((dbgH.tapOn = true) ∧ (dbgH.host.dbgPend = false) ∧ (hostPlace (8 * aDbg.toNat) = Place.reg RegId.dbgData 15 7) ∧ (RegId.dbgData.need 15 = Need.dbg) ∧ (dbgH.mayDebug Who.jtag = true) ∧ (dbgH.clocksOn = true))
    ∧ ((dbgH.tapOn = true) ∧ (dbgH.host.dbgPend = false) ∧ (dbgH.mayDebug Who.jtag = true) ∧ (dbgH.clocksOn = true) ∧ (dbgH.applied = true) ∧ (dbgH.fld F.dbgStat_HALTED (127 / 8) (127 % 8) ≠ 0) ∧ (dbgH.fld F.dbgSel_REG (127 / 8) (127 % 8) = 0) ∧ (hostPlace (8 * aDbg.toNat) = Place.reg RegId.dbgData (127 / 8) (127 % 8)))
    ∧ ((dbgH.tapOn = true) ∧ (dbgH.host.dbgPend = false) ∧ (dbgH.mayDebug Who.jtag = true) ∧ (dbgH.clocksOn = true) ∧ (dbgH.applied = true) ∧ (dbgH.fld F.dbgStat_HALTED (127 / 8) (127 % 8) ≠ 0) ∧ (dbgH.fld F.dbgSel_REG (127 / 8) (127 % 8) = 0) ∧ (hostPlace (8 * aDbg.toNat) = Place.reg RegId.dbgData (127 / 8) (127 % 8))) := by
  (repeat' apply And.intro) <;> decide +kernel

theorem test_hypotheses_BallsFollowTheColumn_1 :
    ((phase Phase.keep).boot.phase ∈ [Phase.off, Phase.rest, Phase.keep])
    ∧ ((phase Phase.retry).boot.phase ∈ [Phase.pll, Phase.retry])
    ∧ (((phase Phase.running).put F.gcLaystat_APPLIED 0).boot.phase ∈ [Phase.hostWait, Phase.running] ∧ ((phase Phase.running).put F.gcLaystat_APPLIED 0).applied = false)
    ∧ ((phase Phase.halter).boot.phase = Phase.halter)
    ∧ (((cn 3).boot.phase = Phase.running) ∧ ((cn 3).applied = true) ∧ ((cn 3).canMode 3 = 3))
    ∧ (((cn 4).boot.phase = Phase.running) ∧ ((cn 4).applied = true) ∧ ((cn 4).canMode 3 ≠ 1) ∧ ((cn 4).canMode 3 ≠ 3)) := by
  (repeat' apply And.intro) <;> decide +kernel

theorem test_hypotheses_BallsFollowTheColumn_2 :
    (locked.fld F.ckStat_LOCK ≠ 0)
    ∧ ((10 ≤ 10) ∧ (locked.boot.phase ≠ Phase.off)) := by
  (repeat' apply And.intro) <;> decide +kernel

end W11

namespace Signed

/-- A key whose hash stands in key slot 0; F0 runs on stable 0 and may own every bank. -/
def keyed : State :=
  let s := (((on.put F.gcKeyslot_WRITTEN 1 0).putBoth F.fnCfg_AFFINITY 1 0 0).put F.stCfg_EN 1 0).putBoth F.fnQuota_BANKS 256 0 0
  let k := Tab.set 0 s.boot.keyHash 0 69257032853451640091274058498420783764000963048906567337947800975238720694850
  { s with boot := { s.boot with keyHash := k } }

/-- The words stand in GC.STAGE. -/
def stagedOf (ws : List Nat) (s : State) : State :=
  ws.zipIdx.foldl (fun s p => memWrite (.stage (Fin.ofNat 8192 p.2)) (wd p.1) s) s

/-- A signed delta with a YARD section of one VLAN record; its signature and checks were computed apart from the model. -/
def vlanDelta : List Nat :=
  [83843554956628, 1168233136129, 65536, 0, 79245116178432, 35, 0, 31970219940148, 273167265172559, 263238711126796,
    139642273060908, 145885778983919, 40877, 185732270914895, 218041073743761, 253098996052173, 213610465178047,
    76375777112290, 1995, 110256041596259, 34301580789587, 25088465049054, 9779241766558, 269480962124086, 41255,
    267786861128482, 104589464369719, 55921418196745, 30246525755630, 221399030821972, 33059, 7146826104832, 5968747249,
    3298618769409, 4096]

/-- A signed delta whose FUNC section deletes F11. -/
def deleteDelta : List Nat :=
  [83843554956628, 1168233136129, 65536, 0, 79245116178432, 40, 0, 31970219940148, 273167265172559, 263238711126796,
    139642273060908, 145885778983919, 40877, 185732270914895, 218041073743761, 253098996052173, 213610465178047,
    76375777112290, 1995, 110256041596259, 34301580789587, 25088465049054, 9779241766558, 269480962124086, 41255,
    255224486245284, 233054123540852, 127452387228206, 63668914303420, 71044180400601, 27811, 3848292532224, 8419280569, 1,
    6322191859712, 0, 0, 0, 0, 0]

def withVlan : State := stagedOf vlanDelta keyed
def withDelete : State := stagedOf deleteDelta (keyed.put F.fnStatus_STATE 2 11)

/-- What the clauses of DeltasAreCheckedAndApplied ask of a delta that may be applied. -/
abbrev Passes (s : State) : Prop :=
  s.heard .pf = true ∧ notVf .pf = true ∧ Who.pf ≠ .jtag ∧ s.fld F.gcLaystat_APPLYING = 0 ∧ s.applied = true ∧ s.fld F.gcLaystat_HALTER = 0
    ∧ (∀ k < s.staged.slots.length, s.stageWord k = .ok (s.stageWord k).word)
    ∧ (validate false s.dirCopy (fun k => (s.stageWord k).bad) s.staged s).1 = 0

theorem test_signed_delta_passes : Passes withVlan ∧ withVlan.staged.dels = [] ∧ withVlan.fns.any (fun p => p.2.delPend) = false := by
  decide +kernel

theorem test_signed_deletion_passes : Passes withDelete ∧ 11 ∈ withDelete.staged.dels ∧ withDelete.fnState 11 ≠ 0 := by decide +kernel

end Signed

theorem test_hypotheses_CountersSaturate : F.epCnt0_RXOK.key 11 0 ≠ F.epCnt0_RXOK.key 10 0 ∧ F.epCnt1_RXFCS.key 11 0 ≠ F.epCnt0_RXOK.key 11 0 := by
  decide +kernel

theorem test_hypotheses_memory_words : inMemory (.loft 15 65535) = true ∧ inMemory (.stage 8191) = true ∧ SramWord.stage 8190 ≠ .stage 8191
    ∧ 55 < 56 ∧ 54 < 55 ∧ (1 : Fin 32768).val = (0 : Fin 32768).val + 1 := by decide +kernel

end Sys2Proof.Tests
end

section
/-! The statements of the scope: what a step runs, reset, words and counters, and two statements about host accesses that the model
contradicts. -/

namespace Sys2Proof.Machine

/-! ### The queue -/

/-- Every command of the table goes on: `exec` raises no fault and refuses nothing. -/
theorem exec_eq_done (c : Instr) (s : State) : ∃ u, exec c s = done s u := by
  cases c <;> exact ⟨_, rfl⟩

theorem step_of_pending_cons {s : State} {c : Instr} {rest : List Instr} (h : s.pending = c :: rest) :
    step s = exec c { s with pending := rest } := by
  simp only [step, h]

/-- Settles O1: the front command runs on the state with the queue's rest, and `done` leaves that queue as it was. -/
theorem stepRunsTheFrontCommand : Obligations.StepRunsTheFrontCommand := by
  intro s c rest h
  rw [step_of_pending_cons h]
  obtain ⟨u, hu⟩ := exec_eq_done c { s with pending := rest }
  exact ⟨rfl, notify { s with pending := rest } u, hu, rfl⟩

/-! ### Reset -/

/-- No memory lists a word after reset, and none came back from REST (R146). -/
theorem reset_raw_eq_zero {a : SramWord} (h : inMemory a = true) : State.reset.raw a = 0 := by
  cases a with
  | mbq => simp [inMemory] at h
  | cell => simp [inMemory] at h
  | loft => rfl
  | mg => rfl
  | code => exact BitVec.xor_self
  | priv => exact BitVec.xor_self
  | stage => exact BitVec.xor_self

theorem readCode_zero : readCode 0 = .ok 0 := by decide +kernel

/-- Settles O3: after reset every table is empty, so each field, word and engine reads as its default. -/
theorem resetLeavesResetValues : Obligations.ResetLeavesResetValues := by
  refine ⟨fun f i j => ⟨rfl, rfl⟩, fun a ha => ?_, rfl, rfl, rfl, fun e f => ⟨rfl, rfl⟩⟩
  rw [reset_raw_eq_zero ha, readCode_zero]

/-! ### Words -/

theorem raw_memWrite_same {a : SramWord} (h : inMemory a = true) (w : Word) (s : State) :
    (memWrite a w s).raw a = sealW w := State.setRaw_same s a _ h

theorem raw_memWrite_ne {a b : SramWord} (h : inMemory a = true) (hb : b ≠ a) (w : Word) (s : State) :
    (memWrite a w s).raw b = s.raw b := State.setRaw_ne s a b _ hb h

/-- What a read finds depends on the stored word alone (R144). -/
theorem memRead_fst (a : SramWord) (s : State) : (memRead a s).1 = readCode (s.raw a) := by
  unfold memRead
  split <;> simp only [*]

theorem wordsReadBackAsWritten : Stated.WordsReadBackAsWritten := by
  intro s a w ha
  refine ⟨memRead_ok ?_, fun b hb => ?_⟩
  · rw [raw_memWrite_same ha, readCode_sealW]
  · rw [memRead_fst, memRead_fst, raw_memWrite_ne ha hb]

/-! ### Fields and counters -/

/-- A field keeps the low bits that fit (R64). -/
theorem fld_put_same (s : State) (f : Fld) (v i j : Nat) : (s.put f v i j).fld f i j = v % 2 ^ f.width :=
  Tab.get_set_same ..

theorem fld_put_of_key_ne {f g : Fld} {i j i' j' : Nat} (h : g.key i' j' ≠ f.key i j) (s : State) (v : Nat) :
    (s.put f v i j).fld g i' j' = s.fld g i' j' := Tab.get_set_ne _ _ _ _ _ _ h

theorem fld_bump_same (s : State) (f : Fld) (i j n : Nat) :
    (s.bump f i j n).fld f i j = min (s.fld f i j + n) (2 ^ f.width - 1) := by
  have hpos : 0 < 2 ^ f.width := Nat.two_pow_pos _
  rw [State.bump, fld_put_same]
  exact Nat.mod_eq_of_lt (by omega)

theorem countersSaturate : Stated.CountersSaturate := by
  intro s f i j n
  refine ⟨fld_bump_same s f i j n, fun g i' j' h => fld_put_of_key_ne h s _, fun m => ?_⟩
  rw [fld_bump_same, fld_bump_same, fld_bump_same]
  omega

/-- Settles O6: a written word carries its own check byte and stands apart from every other; a count is a saturated sum that its
field holds whole. -/
theorem wordsAndCountersKeepWhatTheyTake : Obligations.WordsAndCountersKeepWhatTheyTake :=
  ⟨wordsReadBackAsWritten, countersSaturate⟩

/-! ### FN[f].CTL by its offset and by its own command -/

/-- The part runs with a layout applied. -/
def laidOut : State :=
  ({ State.reset with boot := { State.reset.boot with phase := .running } } : State).put F.gcLaystat_APPLIED 1

/-- FN[0].CTL.RSTIE is set. -/
def rstieSet : State := laidOut.put F.fnCtl_RSTIE 1

/-- A whole write of 1 at the register's offset writes the RW field RSTIE, bit 9, with 0 (R14). -/
theorem registerWrite_fnCtl_clears_rstie :
    Does (.registerWrite .qspi 0x2200038 0xFF 1) rstieSet fun t => t.fld F.fnCtl_RSTIE = 0 :=
  ⟨_, rfl, by decide +kernel⟩

/-- The register's own command asks for the reset alone. -/
theorem fnReset_keeps_rstie : Does (.fnReset .qspi 0) rstieSet fun t => t.fld F.fnCtl_RSTIE = 1 :=
  ⟨_, rfl, by decide +kernel⟩

/-- Refutes O22: with RSTIE set in FN[0].CTL, a write of 1 at the register's offset clears it and FN_RESET keeps it, so the two do not
answer the same state. -/
theorem not_registerWritesFollowTheAccessType : ¬ Obligations.RegisterWritesFollowTheAccessType := by
  rintro ⟨-, h⟩
  obtain ⟨-, happlied, -⟩ := h rstieSet .qspi 0x2200038 0 .fnCtl 0 0 (by decide +kernel) (by decide +kernel) (by decide)
  obtain ⟨hctl, -, -⟩ := happlied (by decide +kernel)
  obtain ⟨hsame, -⟩ := hctl rfl 0 rfl
  obtain ⟨t, ht, hclear⟩ := registerWrite_fnCtl_clears_rstie
  obtain ⟨u, hu, hkeep⟩ := fnReset_keeps_rstie
  obtain rfl : t = u := Host.Outcome.next.inj (ht.symm.trans (hsame.trans hu))
  exact absurd (hclear.symm.trans hkeep) (by decide)

/-! ### The debug port at a reserved address -/

/-- An access of the JTAG port to a reserved address is denied and not counted (R368, log entry 91). -/
theorem exec_reservedHostAccess_jtag {s : State} {off : Nat} (hs : s.heard .jtag = true) (hp : hostPlace off = .hole) :
    exec (.reservedHostAccess .jtag off true) s = done s (s.emit (.resp .jtag 9 [] false)) := by
  change execReservedHostAccess .jtag off true s = _
  simp [execReservedHostAccess, hs, hp, isHost, holeAccess, finish, denied]

/-- Refutes O23: the JTAG port is a host port, but its access to the reserved address 0x3800000 leaves GC.UNMAP.CNT at 0 where the
statement has it counted. -/
theorem not_hostAccessesReachWords : ¬ Obligations.HostAccessesReachWords := by
  rintro ⟨h, -⟩
  obtain ⟨t, ht, hcounted⟩ := h laidOut .jtag 0x3800000 true (by decide +kernel) rfl (by decide +kernel)
  rw [exec_reservedHostAccess_jtag (by decide +kernel) (by decide +kernel)] at ht
  have hkept : t.fld F.gcUnmap_CNT = 0 := by
    rw [← Host.Outcome.next.inj ht]
    decide +kernel
  have hcount : t.fld F.gcUnmap_CNT = 1 := by
    rw [hcounted]
    decide +kernel
  exact absurd (hkept.symm.trans hcount) (by decide)

end Sys2Proof.Machine
end

section
/-! The statement of what the balls show: each column of R373 by the boot phase, and the two resets that bring the reset column. -/

namespace Sys2Proof.Machine

/-! ### The column by the boot phase -/

theorem column_eq_unpowered {s : State} (h : s.boot.phase ∈ [.off, .rest, .keep]) : s.column = .unpowered := by
  simp only [List.mem_cons, List.not_mem_nil, or_false] at h
  rcases h with h | h | h <;> simp only [State.column, h]

theorem column_eq_reset {s : State} (h : s.boot.phase ∈ [.pll, .retry]) : s.column = .reset := by
  simp only [List.mem_cons, List.not_mem_nil, or_false] at h
  rcases h with h | h <;> simp only [State.column, h]

theorem column_eq_beforeLayout {s : State} (h : s.boot.phase ∈ [.hostWait, .running]) (ha : s.applied = false) :
    s.column = .beforeLayout := by
  simp only [List.mem_cons, List.not_mem_nil, or_false] at h
  rcases h with h | h <;> simp [State.column, h, ha]

theorem column_eq_halter {s : State} (h : s.boot.phase = .halter) : s.column = .halter := by
  simp only [State.column, h]

theorem column_eq_running {s : State} (h : s.boot.phase = .running) (ha : s.applied = true) : s.column = .running := by
  simp [State.column, h, ha]

/-! ### The balls by the column -/

/-- No PIO pin, CAN TXD, twin lane or Paddock driver is driven. -/
def State.silent (s : State) : Prop :=
  (∀ p < 64, (s.pinOut p).1 = false) ∧ (∀ n < 4, s.canTxd n = .undriven) ∧ s.twinOn = false ∧ s.paddockOn = false

/-- Only a part that runs under a layout drives these balls (R28, R29). -/
theorem silent_of_column_ne_running {s : State} (h : s.column ≠ .running) : s.silent := by
  refine ⟨fun p _ => ?_, fun n _ => ?_, ?_, ?_⟩
  · simp [State.pinOut, h]
  · simp [State.canTxd, h]
  · simp [State.twinOn, h]
  · simp [State.paddockOn, h]

theorem balls_of_unpowered {s : State} (h : s.column = .unpowered) :
    s.silent ∧ (∀ p, s.pioPull p = .none ∧ s.phyOn p = false) ∧ s.clkOut = .undriven :=
  ⟨silent_of_column_ne_running (by simp [h]), fun p => ⟨by simp only [State.pioPull, h], by simp only [State.phyOn, h]⟩,
    by simp only [State.clkOut, h]⟩

/-- The balls look alike in reset and before a layout, PCIe apart. -/
theorem balls_of_not_yet_applied {s : State} (h : s.column = .reset ∨ s.column = .beforeLayout) :
    s.silent ∧ (∀ p, s.pioPull p = .down ∧ s.phyOn p = false) ∧ s.clkOut = .low := by
  rcases h with h | h <;>
    exact ⟨silent_of_column_ne_running (by simp [h]), fun p => ⟨by simp only [State.pioPull, h], by simp only [State.phyOn, h]⟩,
      by simp only [State.clkOut, h]⟩

theorem balls_of_halter {s : State} (h : s.column = .halter) :
    s.silent ∧ ∀ p, s.pioPull p = .down ∧ s.phyOn p = decide (p < 2) :=
  ⟨silent_of_column_ne_running (by simp [h]), fun p => ⟨by simp only [State.pioPull, h], by simp only [State.phyOn, h]⟩⟩

/-- TXD carries what a controller sends in modes 1 and 3 alone (R280). -/
theorem canTxd_of_running {s : State} (h : s.column = .running) (n : Nat) :
    s.canTxd n = if s.canMode n = 1 ∨ s.canMode n = 3 then .driven else .recessive := by
  simp [State.canTxd, h]

/-! ### The resets -/

/-- A reset of the logic die starts over at the root PLL (R344, R345). -/
theorem logicReset_phase (src : Nat) (s : State) : (logicReset src s).boot.phase = .pll := rfl

/-- The vectors that `notify` sends leave the balls alone. -/
@[simp] theorem notify_column (old new : State) : (notify old new).column = new.column := rfl

/-- Every source of R344 brings the reset column, and with it silent balls. -/
theorem column_reset_of_notify_logicReset (src : Nat) (old s : State) :
    (notify old (logicReset src s)).column = .reset ∧ (notify old (logicReset src s)).silent := by
  have hcol : (notify old (logicReset src s)).column = .reset := by
    rw [notify_column]
    exact column_eq_reset (by simp [logicReset_phase])
  exact ⟨hcol, silent_of_column_ne_running (by simp [hcol])⟩

theorem lossOfLock_of_locked {s : State} (h : s.fld F.ckStat_LOCK ≠ 0) :
    lossOfLock s = logicReset 2 (s.bump F.ckStat_LOLCNT) := if_pos (bne_iff_ne.mpr h)

theorem rstN_of_long_pulse {us : Nat} {s : State} (hus : 10 ≤ us) (h : s.boot.phase ≠ .off) : rstN us s = logicReset 1 s :=
  if_neg (not_or.mpr ⟨Nat.not_lt.mpr hus, h⟩)

/-- A command that ends in a reset of the logic die brings the reset column. -/
theorem does_reset_column {c : Instr} {s : State} (src : Nat) (u : State) (h : exec c s = done s (logicReset src u)) :
    Does c s fun t => t.column = .reset ∧ t.silent :=
  ⟨_, h, column_reset_of_notify_logicReset src s u⟩

/-- Settles O59: the boot phase fixes the column, every column but the running one is silent, and both resets go back to the phase
in which the root PLL is to lock. -/
theorem ballsFollowTheColumn : Obligations.BallsFollowTheColumn := by
  refine ⟨fun s => ⟨fun h => ?_, fun h => ?_, fun h => ?_, fun h ha n => ?_⟩, fun s => ⟨fun hlock => ?_, fun us hus hon => ?_⟩⟩
  · exact balls_of_unpowered (column_eq_unpowered h)
  · exact balls_of_not_yet_applied (h.imp column_eq_reset fun ⟨hp, ha⟩ => column_eq_beforeLayout hp ha)
  · exact balls_of_halter (column_eq_halter h)
  · rw [canTxd_of_running (column_eq_running h ha)]
    exact ⟨fun hm => if_pos hm, fun h1 h3 => if_neg (not_or.mpr ⟨h1, h3⟩)⟩
  · exact does_reset_column 2 _ (congrArg (done s) (lossOfLock_of_locked hlock))
  · exact does_reset_column 1 _ (congrArg (done s) (rstN_of_long_pulse hus hon))

end Sys2Proof.Machine
end

section
/-! The statement of the commits of a block and of all blocks, at their GO and at their boundary. -/

namespace Sys2Proof.Tab
variable {α : Type}

/-! ### Entries of one table put into another -/

theorem get_of_absent (d : α) (t : Tab α) (n : Nat) (h : ∀ e ∈ t, e.1 ≠ n) : get d t n = d := by
  induction t with
  | nil => rfl
  | cons p t ih =>
    obtain ⟨k, u⟩ := p
    have hk : k ≠ n := h (k, u) (by simp)
    simpa [get, hk] using ih fun e he => h e (by simp [he])

/-- Entries are kept or taken out by their key. -/
theorem get_filter_key (d : α) (t : Tab α) (p : Nat → Bool) (n : Nat) :
    get d (t.filter fun e => p e.1) n = if p n then get d t n else d := by
  induction t with
  | nil => simp [get]
  | cons e t ih =>
    obtain ⟨k, u⟩ := e
    by_cases hk : k = n
    · subst hk
      by_cases hp : p k <;> simp [List.filter, hp, get, ih]
    · by_cases hp : p k <;> simp [List.filter, hp, get, hk, ih]

/-- Key `n` is listed, and no greater key stands before its first entry, the one that a read finds. -/
def Settled (n : Nat) : Tab α → Prop
  | [] => False
  | (k, _) :: t => k = n ∨ k < n ∧ Settled n t

theorem settled_ins_same (t : Tab α) (n : Nat) (v : α) : Settled n (ins t n v) := by
  induction t with
  | nil => exact .inl rfl
  | cons p t ih =>
    simp only [ins]
    split
    · exact .inl rfl
    · rename_i hk
      rcases Nat.eq_or_lt_of_le (Nat.le_of_not_lt hk) with h | h
      · exact .inl h
      · exact .inr ⟨h, ih⟩

theorem Settled.ins {n : Nat} {t : Tab α} (h : Settled n t) (m : Nat) (w : α) : Settled n (ins t m w) := by
  induction t with
  | nil => exact h.elim
  | cons p t ih =>
    simp only [Tab.ins]
    split
    · rename_i hm
      have hn : p.1 ≤ n := h.elim Nat.le_of_eq fun h => Nat.le_of_lt h.1
      exact .inr ⟨Nat.lt_of_lt_of_le hm hn, h⟩
    · exact h.imp id fun h => ⟨h.1, ih h.2⟩

/-- An entry put in behind the first of its key is not the one that is read. -/
theorem get_ins_of_settled (d : α) {n : Nat} {t : Tab α} (h : Settled n t) (v : α) : get d (ins t n v) n = get d t n := by
  induction t with
  | nil => exact h.elim
  | cons p t ih =>
    obtain ⟨k, u⟩ := p
    rcases h with h | ⟨h, ht⟩
    · obtain rfl : k = n := h
      simp [ins, get]
    · have hlt : k < n := h
      have hge : ¬ n < k := by omega
      have hne : k ≠ n := by omega
      simpa [ins, get, hge, hne] using ih ht

theorem get_foldl_ins_of_settled (d : α) {n : Nat} {t : Tab α} (l : Tab α) (h : Settled n t) :
    get d (l.foldl (fun t e => ins t e.1 e.2) t) n = get d t n := by
  induction l generalizing t with
  | nil => rfl
  | cons e l ih =>
    rw [List.foldl_cons, ih (h.ins ..)]
    by_cases he : n = e.1
    · subst he
      exact get_ins_of_settled d h _
    · exact get_ins_ne _ _ _ _ _ he

/-- The entries put into a table that lists none of a key read as they did in their own. -/
theorem get_foldl_ins_of_new (d : α) {n : Nat} {t : Tab α} (l : Tab α) (h : ∀ e ∈ t, e.1 ≠ n) :
    get d (l.foldl (fun t e => ins t e.1 e.2) t) n = get d l n := by
  induction l generalizing t with
  | nil => exact get_of_absent d t n h
  | cons e l ih =>
    obtain ⟨k, v⟩ := e
    rw [List.foldl_cons]
    by_cases hk : k = n
    · subst hk
      rw [get_foldl_ins_of_settled d l (settled_ins_same ..), get_ins_same _ _ _ _ h]
      simp [get]
    · rw [ih fun e he => (mem_ins he).elim (fun h => h ▸ hk) (h e)]
      simp [get, hk]

theorem get_foldl_ins_of_absent (d : α) {n : Nat} (t : Tab α) {l : Tab α} (h : ∀ e ∈ l, e.1 ≠ n) :
    get d (l.foldl (fun t e => ins t e.1 e.2) t) n = get d t n := by
  induction l generalizing t with
  | nil => rfl
  | cons e l ih =>
    rw [List.foldl_cons, ih _ fun x hx => h x (List.mem_cons_of_mem _ hx)]
    exact get_ins_ne _ _ _ _ _ (h e List.mem_cons_self).symm

end Sys2Proof.Tab

namespace Sys2Proof.Machine

/-! ### A block's set and its COMMIT register -/

/-- The set of a block is replaced and nothing else of a table is. -/
theorem get_copyBlk (d : Nat) (b : Block) (src dst : Tab Nat) (k : Nat) :
    Tab.get d (copyBlk b src dst) k = if inBlk b k then Tab.get d src k else Tab.get d dst k := by
  unfold copyBlk
  by_cases hk : inBlk b k
  · rw [Tab.get_foldl_ins_of_new, Tab.get_filter_key d src (inBlk b), if_pos hk, if_pos hk]
    rintro e he rfl
    simp [hk] at he
  · rw [Tab.get_foldl_ins_of_absent, Tab.get_filter_key d dst (fun k => !inBlk b k), if_neg hk]
    · simp [hk]
    · rintro e he rfl
      simp [hk] at he

theorem blockOfKind_blkKind (b : Block) : blockOfKind (blkKind b).1 (blkKind b).2 = b := by
  cases b <;> simp [blkKind, blockOfKind]

theorem blkKind_lt (b : Block) : (blkKind b).1 < 12 ∧ (blkKind b).2 < 19 := by
  cases b <;> simp [blkKind] <;> omega

/-- The COMMIT registers of two blocks share no key. -/
theorem commit_key_ne {b c : Block} (h : c ≠ b) (f g : Fld) :
    g.key (blkKind c).1 (blkKind c).2 ≠ f.key (blkKind b).1 (blkKind b).2 := by
  intro e
  obtain ⟨hb1, hb2⟩ := blkKind_lt b
  obtain ⟨hc1, hc2⟩ := blkKind_lt c
  have h1 : (blkKind c).1 = (blkKind b).1 := by unfold Fld.key at e; omega
  have h2 : (blkKind c).2 = (blkKind b).2 := by unfold Fld.key at e; omega
  exact h (by rw [← blockOfKind_blkKind c, ← blockOfKind_blkKind b, h1, h2])

@[simp] theorem cput_cfld (s : State) (f : Fld) (v : Nat) (b : Block) : (s.cput f v b).cfld f b = v % 2 ^ f.width :=
  State.put_fld ..

theorem cput_cfld_of_block_ne {b c : Block} (h : c ≠ b) (s : State) (f g : Fld) (v : Nat) :
    (s.cput f v b).cfld g c = s.cfld g c := Tab.get_set_ne _ _ _ _ _ _ (commit_key_ne h f g)

theorem cput_fld_of_id_ne {f g : Fld} (h : g.id ≠ f.id) (s : State) (v : Nat) (b : Block) (i j : Nat) :
    (s.cput f v b).fld g i j = s.fld g i j := State.put_fld_ne _ _ _ _ _ _ _ _ h

theorem cput_cfld_of_id_ne {f g : Fld} (h : g.id ≠ f.id) (s : State) (v : Nat) (b c : Block) :
    (s.cput f v b).cfld g c = s.cfld g c := cput_fld_of_id_ne h ..

/-- A set holds none of the fields of the COMMIT registers, whose numbers lie above those of every SH field. -/
theorem lt_of_mem_shIds {k n : Nat} (h : n ∈ shIds k) : n < 817 := by
  unfold shIds at h
  split at h <;> revert n <;> decide

theorem keyFld_key (f : Fld) (i j : Nat) : keyFld (f.key i j) = f.id := by
  unfold keyFld Fld.key
  omega

theorem lt_of_inBlk {b : Block} {f : Fld} {i j : Nat} (h : inBlk b (f.key i j) = true) : f.id < 817 := by
  simp only [inBlk, keyFld_key, Bool.and_eq_true, List.contains_iff_mem] at h
  exact lt_of_mem_shIds h.1

/-! ### Capture and activation (R40, R41) -/

@[simp] theorem capture_pend (b : Block) (s : State) : (capture b s).cfld F.commit_PEND b = 1 := cput_cfld ..

@[simp] theorem capture_dirty (b : Block) (s : State) : (capture b s).cfld F.commit_DIRTY b = 0 :=
  (cput_cfld_of_id_ne (by decide) ..).trans (cput_cfld ..)

theorem capture_cfld_of_block_ne {b c : Block} (h : c ≠ b) (g : Fld) (s : State) : (capture b s).cfld g c = s.cfld g c :=
  (cput_cfld_of_block_ne h ..).trans (cput_cfld_of_block_ne h ..)

theorem capture_fld {g : Fld} (hd : g.id ≠ F.commit_DIRTY.id) (hp : g.id ≠ F.commit_PEND.id) (b : Block) (s : State) (i j : Nat) :
    (capture b s).fld g i j = s.fld g i j :=
  (cput_fld_of_id_ne hp ..).trans (cput_fld_of_id_ne hd ..)

theorem commitGo_of_pend {b : Block} {s : State} (h : s.cfld F.commit_PEND b = 1) :
    commitGo b s = if s.heldGo.contains b then s else { s with heldGo := b :: s.heldGo } := if_pos h

theorem commitGo_of_not_pend {b : Block} {s : State} (h : s.cfld F.commit_PEND b ≠ 1) : commitGo b s = capture b s := if_neg h

/-- A GO captures, or is held, or finds one held: only the capture writes a field. -/
theorem commitGo_cases (b : Block) (s : State) :
    (s.cfld F.commit_PEND b ≠ 1 ∧ commitGo b s = capture b s)
      ∨ (s.cfld F.commit_PEND b = 1 ∧ ∃ l, commitGo b s = { s with heldGo := l }) := by
  by_cases h : s.cfld F.commit_PEND b = 1
  · refine .inr ⟨h, ?_⟩
    rw [commitGo_of_pend h]
    split
    · exact ⟨s.heldGo, rfl⟩
    · exact ⟨b :: s.heldGo, rfl⟩
  · exact .inl ⟨h, commitGo_of_not_pend h⟩

/-- The register of a block after GO: PEND reads 1, whether the set was captured now or before. -/
theorem commitGo_pend (b : Block) (s : State) : (commitGo b s).cfld F.commit_PEND b = 1 := by
  rcases commitGo_cases b s with ⟨-, h⟩ | ⟨hp, l, h⟩ <;> rw [h]
  · exact capture_pend b s
  · exact hp

theorem commitGo_dirty {b : Block} {s : State} (h : s.cfld F.commit_PEND b = 0 ∨ s.cfld F.commit_DIRTY b = 0) :
    (commitGo b s).cfld F.commit_DIRTY b = 0 := by
  rcases commitGo_cases b s with ⟨-, e⟩ | ⟨hp, l, e⟩ <;> rw [e]
  · exact capture_dirty b s
  · exact h.resolve_left fun h => absurd (h.symm.trans hp) (by decide)

theorem commitGo_cfld_of_block_ne {b c : Block} (h : c ≠ b) (g : Fld) (s : State) : (commitGo b s).cfld g c = s.cfld g c := by
  rcases commitGo_cases b s with ⟨-, e⟩ | ⟨-, l, e⟩ <;> rw [e]
  · exact capture_cfld_of_block_ne h g s
  · rfl

theorem commitGo_fld {g : Fld} (hd : g.id ≠ F.commit_DIRTY.id) (hp : g.id ≠ F.commit_PEND.id) (b : Block) (s : State) (i j : Nat) :
    (commitGo b s).fld g i j = s.fld g i j := by
  rcases commitGo_cases b s with ⟨-, e⟩ | ⟨-, l, e⟩ <;> rw [e]
  · exact capture_fld hd hp b s i j
  · rfl

/-- The shadows, the layout's values and what the boot keeps are no part of a GO. -/
theorem commitGo_frame (b : Block) (s : State) :
    (commitGo b s).shd = s.shd ∧ (commitGo b s).lay = s.lay ∧ (commitGo b s).boot = s.boot := by
  rcases commitGo_cases b s with ⟨-, e⟩ | ⟨-, l, e⟩ <;> rw [e] <;> exact ⟨rfl, rfl, rfl⟩

/-- A block for which GC.COMMIT does not wait has no part in its completion (R43). -/
theorem gcSettle_of_not_trig {b : Block} {s : State} (h : s.boot.gcTrig = []) : gcSettle b s = s := by
  simp [gcSettle, h]

/-- The captured set of the block stands in the active copies (R40). -/
def takeCaptured (b : Block) (s : State) : State := { s with act := copyBlk b s.cap s.act }

/-- The block after its boundary: the captured set is active, PEND is clear and CSEQ has counted (R40). -/
def activated (b : Block) (s : State) : State :=
  ((takeCaptured b s).cput F.commit_PEND 0 b).cput F.commit_CSEQ ((takeCaptured b s).cfld F.commit_CSEQ b + 1) b

/-- Activation with no commit held and no GC.COMMIT under way. -/
theorem activate_of_not_held {b : Block} {s : State} (hh : s.heldGo.contains b = false) (ht : s.boot.gcTrig = []) :
    activate b s = activated b s := by
  have hnot : ¬ (activated b s).heldGo.contains b = true := fun h => absurd (hh.symm.trans h) Bool.false_ne_true
  calc activate b s = gcSettle b (activated b s) := congrArg (gcSettle b) (if_neg hnot)
    _ = activated b s := gcSettle_of_not_trig ht

theorem takeCaptured_fld (b : Block) (s : State) (f : Fld) (i j : Nat) :
    (takeCaptured b s).fld f i j = if inBlk b (f.key i j) then Tab.get f.reset s.cap (f.key i j) else s.fld f i j := get_copyBlk ..

/-- The COMMIT fields are in no captured set. -/
theorem takeCaptured_cfld (b : Block) (s : State) {f : Fld} (hf : 817 ≤ f.id) : (takeCaptured b s).cfld f b = s.cfld f b :=
  (takeCaptured_fld ..).trans (if_neg fun h => Nat.not_lt.mpr hf (lt_of_inBlk h))

theorem activated_pend (b : Block) (s : State) : (activated b s).cfld F.commit_PEND b = 0 :=
  (cput_cfld_of_id_ne (by decide) ..).trans (cput_cfld ..)

theorem activated_cseq (b : Block) (s : State) :
    (activated b s).cfld F.commit_CSEQ b = (s.cfld F.commit_CSEQ b + 1) % 2 ^ F.commit_CSEQ.width := by
  rw [activated, cput_cfld, takeCaptured_cfld b s (by decide)]

/-- The active set is the captured one. -/
theorem activated_fld_of_inBlk {b : Block} {f : Fld} {i j : Nat} (h : inBlk b (f.key i j) = true) (s : State) :
    (activated b s).fld f i j = Tab.get f.reset s.cap (f.key i j) := by
  have hlt := lt_of_inBlk h
  rw [activated, cput_fld_of_id_ne (Nat.ne_of_lt (Nat.lt_of_lt_of_le hlt (by decide))),
    cput_fld_of_id_ne (Nat.ne_of_lt (Nat.lt_of_lt_of_le hlt (by decide))), takeCaptured_fld, if_pos h]

/-! ### How a command ends -/

/-- A write that nobody refuses answers a host port and notifies: past its own effect only `pending`, `out` and `host` differ. -/
theorem does_served {c : Instr} {s u : State} {w : Who} {P : State → Prop} (he : exec c s = done s (finish w { st := u }))
    (hP : ∀ p o h, P { u with pending := p, out := o, host := h }) : Does c s P := by
  refine ⟨_, he, ?_⟩
  cases w <;> exact hP _ _ _

/-- A register of GC that any port and engine but a virtual function writes. -/
theorem sysWriteQuiet_of_heard {w : Who} {s : State} (hs : s.heard w = true) (hv : notVf w = true) (hj : w ≠ .jtag)
    (f : State → State) :
    sysWriteQuiet w (fun _ => notVf w) f s = finish w { st := f s } := by
  simp [sysWriteQuiet, hs, quiet, hj, hv]

/-! ### GO of a block -/

/-- What writing a COMMIT register needs, by its block. -/
theorem commit_need (i : Nat) : RegId.need .commit i ∈ [Need.sys, .fn, .any, .ic, .tm, .can, .pib, .sup] := by
  unfold RegId.need
  rw [if_neg (by decide), if_neg (by decide), if_neg (by decide)]
  dsimp only
  split <;> decide

/-- A supervisor access may write every COMMIT register. -/
theorem writeVerdict_commit {s : State} {w : Who} (h : s.supervisor w = true) (i j : Nat) : s.writeVerdict w .commit i j = .ok := by
  have hcan : s.mayCan w (canOf .commit i j) = true := by simp [State.mayCan, h]
  have hneed := commit_need i
  have habsent : s.absent .commit i = false := rfl
  unfold State.writeVerdict
  rw [habsent, Bool.false_and, if_neg Bool.false_ne_true]
  simp only [List.mem_cons, List.not_mem_nil, or_false] at hneed
  cases w with
  | vf r => exact absurd h Bool.false_ne_true
  | jtag => exact absurd h Bool.false_ne_true
  | _ => rcases hneed with hn | hn | hn | hn | hn | hn | hn | hn <;> simp only [hn, h, hcan, okOr, if_true]

/-- Full byte enables leave nothing of the word that was there. -/
theorem mergeBytes_full (old old' : Word) (v : BitVec 64) : mergeBytes old 0xFF v = mergeBytes old' 0xFF v := by
  have hset : ∀ k ∈ List.range 6, (0xFF : BitVec 8).getLsbD k = true := by decide
  unfold mergeBytes
  refine congrArg wd (List.foldl_ext _ _ _ fun n k hk => ?_)
  rw [if_pos (hset k hk), if_pos (hset k hk)]

theorem mergeBytes_one_testBit_zero (old : Word) : (mergeBytes old 0xFF (BitVec.ofNat 64 1)).toNat.testBit 0 = true := by
  rw [mergeBytes_full old 0]
  decide

theorem writeReg_commit_go {s : State} {w : Who} {b : Block} (hb : b ≠ .gc) (ha : s.applied = true) (hw : s.supervisor w = true) :
    writeReg w .commit (blkKind b).1 (blkKind b).2 0xFF (BitVec.ofNat 64 1) s = { st := commitGo b s } := by
  have hopen : s.openReg .commit (blkKind b).1 = true := by simp [State.openReg, ha]
  unfold writeReg
  rw [hopen, Bool.not_true, if_neg Bool.false_ne_true, writeVerdict_commit hw]
  simp only [regAct, blockOfKind_blkKind, writeCommit, if_neg hb, onBit, mergeBytes_one_testBit_zero, if_true]

theorem exec_commitGo {s : State} {w : Who} {b : Block} (hb : b ≠ .gc) (hs : s.heard w = true) (ha : s.applied = true)
    (hw : s.supervisor w = true) (hh : commitHidden w b = false) :
    exec (.commitGo w b) s = done s (finish w { st := commitGo b s }) := by
  change execCommitGo w b s = _
  rw [execCommitGo, if_neg hb, commitWrite, if_neg (by simp [hs, hh])]
  exact congrArg (fun a => done s (finish w a)) (writeReg_commit_go hb ha hw)

theorem exec_commitActivate_ic {s : State} {x : Fin 19} (hp : s.cfld F.commit_PEND (.ic x) = 1) :
    exec (.commitActivate (.ic x)) s = done s (activate (.ic x) s) := by
  have hne : ¬ s.cfld F.commit_PEND (.ic x) = 0 := by simp [hp]
  exact congrArg (done s) (if_neg hne)

theorem commitCapturesThenActivates : Stated.CommitCapturesThenActivates := by
  refine ⟨fun s w b hb hs ha hw hh => ⟨fun hp => ?_, fun hp => ?_⟩, fun s x hp hheld htrig => ?_⟩
  · refine does_served (exec_commitGo hb hs ha hw hh) fun _ _ _ => ?_
    rw [commitGo_of_not_pend (by simp [hp])]
    exact ⟨capture_pend b s, capture_dirty b s, rfl, rfl, fun d k => get_copyBlk d b s.shd s.cap k⟩
  · refine ⟨_, exec_commitGo hb hs ha hw hh, ?_⟩
    rw [commitGo_of_pend hp]
  · refine ⟨_, exec_commitActivate_ic hp, ?_⟩
    rw [activate_of_not_held hheld htrig]
    exact ⟨activated_pend _ s, activated_cseq _ s, fun f i j h => activated_fld_of_inBlk h s, rfl, rfl⟩

/-! ### GO of GC.COMMIT (R43) -/

/-- The blocks that GC.COMMIT triggers. -/
def State.dirtyBlocks (s : State) : List Block := allBlocks.filter fun b => s.cfld F.commit_DIRTY b = 1

/-- Every triggered block has its GO, and is noted. -/
def goDirty (s : State) : State :=
  s.dirtyBlocks.foldl (fun s b => commitGo b s)
    { s with boot := { s.boot with gcTrig := (s.boot.gcTrig ++ s.dirtyBlocks).eraseDups, gcInst := false } }

theorem commitAllDirty_eq (s : State) : commitAllDirty s =
    if (goDirty s).boot.gcTrig = [] then (goDirty s).put F.commit_CSEQ ((goDirty s).fld F.commit_CSEQ + 1) else goDirty s := rfl

theorem foldl_commitGo_fld {g : Fld} (hd : g.id ≠ F.commit_DIRTY.id) (hp : g.id ≠ F.commit_PEND.id) (bs : List Block) (s : State)
    (i j : Nat) : (bs.foldl (fun s b => commitGo b s) s).fld g i j = s.fld g i j := by
  induction bs generalizing s with
  | nil => rfl
  | cons c bs ih => rw [List.foldl_cons, ih, commitGo_fld hd hp]

theorem foldl_commitGo_frame (bs : List Block) (s : State) :
    let t := bs.foldl (fun s b => commitGo b s) s
    t.shd = s.shd ∧ t.lay = s.lay ∧ t.boot = s.boot := by
  induction bs generalizing s with
  | nil => exact ⟨rfl, rfl, rfl⟩
  | cons c bs ih =>
    obtain ⟨h1, h2, h3⟩ := ih (commitGo c s)
    obtain ⟨g1, g2, g3⟩ := commitGo_frame c s
    exact ⟨h1.trans g1, h2.trans g2, h3.trans g3⟩

/-- Once PEND reads 1, no GO clears it. -/
theorem foldl_commitGo_pend {b : Block} (bs : List Block) (s : State) (h : b ∈ bs ∨ s.cfld F.commit_PEND b = 1) :
    (bs.foldl (fun s b => commitGo b s) s).cfld F.commit_PEND b = 1 := by
  induction bs generalizing s with
  | nil => exact h.resolve_left List.not_mem_nil
  | cons c bs ih =>
    refine ih _ ?_
    by_cases hc : b = c
    · exact .inr (hc ▸ commitGo_pend b s)
    · exact h.imp (fun h => (List.mem_cons.mp h).resolve_left hc) fun h => (commitGo_cfld_of_block_ne hc _ s).trans h

/-- A block that has been captured is clean, and stays so. -/
theorem foldl_commitGo_dirty {b : Block} (bs : List Block) (s : State)
    (h : b ∈ bs ∧ s.cfld F.commit_PEND b = 0 ∨ s.cfld F.commit_DIRTY b = 0) :
    (bs.foldl (fun s b => commitGo b s) s).cfld F.commit_DIRTY b = 0 := by
  induction bs generalizing s with
  | nil => exact h.resolve_left fun h => List.not_mem_nil h.1
  | cons c bs ih =>
    refine ih _ ?_
    by_cases hc : b = c
    · subst hc
      exact .inr (commitGo_dirty (h.imp And.right id))
    · rw [commitGo_cfld_of_block_ne hc, commitGo_cfld_of_block_ne hc]
      exact h.imp (fun h => ⟨(List.mem_cons.mp h.1).resolve_left hc, h.2⟩) id

theorem commitAllDirty_cfld {g : Fld} (hg : g.id ≠ F.commit_CSEQ.id) (s : State) (b : Block) :
    (commitAllDirty s).cfld g b = (goDirty s).cfld g b := by
  rw [commitAllDirty_eq]
  split
  · exact State.put_fld_ne _ _ _ _ _ _ _ _ hg
  · rfl

theorem commitAllDirty_pend {b : Block} {s : State} (hb : b ∈ allBlocks) (hd : s.cfld F.commit_DIRTY b = 1) :
    (commitAllDirty s).cfld F.commit_PEND b = 1 := by
  rw [commitAllDirty_cfld (by decide)]
  exact foldl_commitGo_pend _ _ (.inl (List.mem_filter.mpr ⟨hb, decide_eq_true hd⟩))

theorem commitAllDirty_dirty {b : Block} {s : State} (hb : b ∈ allBlocks) (hd : s.cfld F.commit_DIRTY b = 1)
    (hp : s.cfld F.commit_PEND b = 0) : (commitAllDirty s).cfld F.commit_DIRTY b = 0 := by
  rw [commitAllDirty_cfld (by decide)]
  exact foldl_commitGo_dirty _ _ (.inl ⟨List.mem_filter.mpr ⟨hb, decide_eq_true hd⟩, hp⟩)

/-- With no block to wait for, the commit is complete at once. -/
theorem commitAllDirty_of_clean {s : State} (hd : ∀ b ∈ allBlocks, s.cfld F.commit_DIRTY b ≠ 1) (ht : s.boot.gcTrig = []) :
    commitAllDirty s
      = ({ s with boot := { s.boot with gcTrig := [], gcInst := false } } : State).put F.commit_CSEQ (s.fld F.commit_CSEQ + 1) := by
  have hnone : s.dirtyBlocks = [] := List.filter_eq_nil_iff.mpr fun b hb => by simpa using hd b hb
  have hgo : goDirty s = { s with boot := { s.boot with gcTrig := [], gcInst := false } } := by
    unfold goDirty
    rw [hnone, ht]
    rfl
  rw [commitAllDirty_eq, hgo]
  rfl

theorem exec_gcCommitGo {s : State} {w : Who} (hs : s.heard w = true) (hv : notVf w = true) (hj : w ≠ .jtag) (inst : Bool) :
    exec (.gcCommitGo w inst) s = done s (finish w { st := gcGo inst s }) :=
  congrArg (done s) (sysWriteQuiet_of_heard hs hv hj _)

/-- With INST clear the blocks are triggered at once. -/
theorem gcGo_false (s : State) : gcGo false s = commitAllDirty (s.put F.commit_INST 0) := rfl

/-- With INST set and instants running, the next one triggers them. -/
theorem gcGo_of_run {s : State} (h : s.fld F.mgInstat_RUN ≠ 0) :
    gcGo true s = { s.put F.commit_INST 1 with boot := { s.boot with gcInst := true } } := by
  have hrun : (s.put F.commit_INST (b2n true)).on F.mgInstat_RUN = true := by
    rw [State.put_on_ne _ _ _ _ _ _ _ _ (by decide)]
    exact bne_iff_ne.mpr h
  unfold gcGo
  dsimp only
  rw [hrun]
  rfl

theorem put_inst_cfld {g : Fld} (hg : g.id ≠ F.commit_INST.id) (s : State) (v : Nat) (b : Block) :
    (s.put F.commit_INST v).cfld g b = s.cfld g b := State.put_fld_ne _ _ _ _ _ _ _ _ hg

theorem gcCommitTriggersDirtyBlocks : Stated.GcCommitTriggersDirtyBlocks := by
  refine fun s w hs hv hj => ⟨fun hrun => ?_, ?_, fun hclean ht => ?_⟩
  · exact ⟨_, exec_gcCommitGo hs hv hj true, by rw [gcGo_of_run hrun]⟩
  · refine does_served (exec_gcCommitGo hs hv hj false) fun _ _ _ b hb hd hp => ?_
    rw [← put_inst_cfld (by decide) s 0] at hd hp
    exact ⟨commitAllDirty_dirty hb hd hp, commitAllDirty_pend hb hd⟩
  · have hclean' : ∀ b ∈ allBlocks, (s.put F.commit_INST 0).cfld F.commit_DIRTY b ≠ 1 := fun b hb => by
      rw [put_inst_cfld (by decide)]
      exact hclean b hb
    have hgo := exec_gcCommitGo hs hv hj false
    rw [gcGo_false, commitAllDirty_of_clean hclean' ht, State.put_fld_ne _ _ _ _ _ _ _ _ (by decide)] at hgo
    exact does_served hgo fun _ _ _ => ⟨State.put_fld .., rfl⟩

/-- Settles O24: a GO captures or is held, and the boundary of an arbiter copies the captured set; GC.COMMIT is a GO to each dirty
block. -/
theorem commitsCaptureAndActivate : Obligations.CommitsCaptureAndActivate :=
  ⟨commitCapturesThenActivates, gcCommitTriggersDirtyBlocks⟩

end Sys2Proof.Machine
end

section
/-! The statement of delta images: the checks of a delta, its shadow writes and its end, and the resets that a deletion asks for
first. -/

namespace Sys2Proof.Tab
variable {α : Type}

/-- What the default lacks, some entry has. -/
theorem any_of_get {d : α} {t : Tab α} {n : Nat} {p : α → Bool} (hd : p d = false) (h : p (get d t n) = true) :
    t.any (fun e => p e.2) = true := by
  induction t with
  | nil => exact absurd (hd.symm.trans h) Bool.false_ne_true
  | cons e t ih =>
    obtain ⟨k, v⟩ := e
    rw [List.any_cons, Bool.or_eq_true]
    by_cases hk : k = n
    · exact .inl (by simpa [get, hk] using h)
    · exact .inr (ih (by simpa [get, hk] using h))

end Sys2Proof.Tab

namespace Sys2Proof.Machine

theorem State.on_eq_true {s : State} {f : Fld} {i j : Nat} : s.on f i j = true ↔ s.fld f i j ≠ 0 := bne_iff_ne

theorem State.on_eq_false {s : State} {f : Fld} {i j : Nat} : s.on f i j = false ↔ s.fld f i j = 0 := by simp [State.on]

/-! ### A delta is refused, fails a check, or begins (R45, R49) -/

theorem deltaApply_of_applying {s : State} (h : s.fld F.gcLaystat_APPLYING ≠ 0) : deltaApply s = layFail 15 0 s :=
  if_pos (State.on_eq_true.mpr h)

theorem deltaApply_of_no_layout {s : State} (h : s.fld F.gcLaystat_APPLYING = 0)
    (hl : s.applied = false ∨ s.fld F.gcLaystat_HALTER ≠ 0) : deltaApply s = layFail 16 0 s := by
  have hcode : (!s.applied || s.on F.gcLaystat_HALTER) = true := by
    rw [Bool.or_eq_true, Bool.not_eq_true', State.on_eq_true]
    exact hl
  unfold deltaApply
  rw [if_neg (by rw [State.on_eq_false.mpr h]; exact Bool.false_ne_true), if_pos hcode]

/-- Words that read without error are read without a trace (R144). -/
theorem readStage_of_ok {s : State} {n : Nat} (h : ∀ k < n, s.stageWord k = .ok (s.stageWord k).word) : readStage n s = s := by
  unfold readStage
  induction n with
  | zero => rfl
  | succ n ih =>
    rw [List.range_succ, List.foldl_append, ih fun k hk => h k (Nat.lt_succ_of_lt hk), List.foldl_cons, List.foldl_nil,
      memRead_ok (h n n.lt_succ_self)]

/-- The checks of a delta, as it stands in GC.STAGE: code and section (R37, R45). -/
def State.deltaCheck (s : State) : Nat × Nat := validate false s.dirCopy (fun k => (s.stageWord k).bad) s.staged s

/-- The delta is under way: APPLYING shows it, its blocks are closed to others, and it waits for the resets it asks for. -/
def deltaBegun (s : State) : State :=
  { s.put F.gcLaystat_APPLYING 1 with
    boot := { s.boot with delta := some s.staged.ver, deltaBlocks := s.staged.blocks, deltaWait := true } }

section
variable {s : State} (happ : s.fld F.gcLaystat_APPLYING = 0) (hlay : s.applied = true) (hhalt : s.fld F.gcLaystat_HALTER = 0)
  (hok : ∀ k < s.staged.slots.length, s.stageWord k = .ok (s.stageWord k).word)
include happ hlay hhalt hok

theorem deltaApply_checked : deltaApply s =
    if s.deltaCheck.1 ≠ 0 then layFail s.deltaCheck.1 s.deltaCheck.2 s else deltaGo (s.staged.dels.foldl deleteFn (deltaBegun s)) := by
  have hcode : ¬ (!s.applied || s.on F.gcLaystat_HALTER) = true := by simp [hlay, State.on_eq_false.mpr hhalt]
  unfold deltaApply
  rw [if_neg (by rw [State.on_eq_false.mpr happ]; exact Bool.false_ne_true), if_neg hcode]
  dsimp only
  rw [readStage_of_ok hok]
  rfl

theorem deltaApply_of_failed (h : s.deltaCheck.1 ≠ 0) : deltaApply s = layFail s.deltaCheck.1 s.deltaCheck.2 s :=
  (deltaApply_checked happ hlay hhalt hok).trans (if_pos h)

theorem deltaApply_of_passed (h : s.deltaCheck.1 = 0) : deltaApply s = deltaGo (s.staged.dels.foldl deleteFn (deltaBegun s)) :=
  (deltaApply_checked happ hlay hhalt hok).trans (if_neg (not_not.mpr h))
end

theorem deltaBegun_fld_eq (s : State) (g : Fld) (i j : Nat) : (deltaBegun s).fld g i j = (s.put F.gcLaystat_APPLYING 1).fld g i j := rfl

theorem deltaBegun_applying (s : State) : (deltaBegun s).fld F.gcLaystat_APPLYING = 1 :=
  (deltaBegun_fld_eq ..).trans (State.put_fld ..)

theorem deltaBegun_fld {g : Fld} (hg : g.id ≠ F.gcLaystat_APPLYING.id) (s : State) (i j : Nat) :
    (deltaBegun s).fld g i j = s.fld g i j := (deltaBegun_fld_eq ..).trans (State.put_fld_ne _ _ _ _ _ _ _ _ hg)

theorem deltaBegun_fnState (s : State) (f : Nat) : (deltaBegun s).fnState f = s.fnState f :=
  congrArg (fun n => if f = 0 then 2 else n) (deltaBegun_fld (by decide) ..)

/-! ### The shadow writes of a delta and their commit (R45 to R47) -/

/-- A field of the delta goes to its shadow, and its block is DIRTY. -/
def writeDelta (s : State) (w : Wr) : State :=
  match blockOf w.1 w.2.1 with
  | some b => (s.putShadow w.1 w.2.2.2 w.2.1 w.2.2.1).cput F.commit_DIRTY 1 b
  | none => s.putShadow w.1 w.2.2.2 w.2.1 w.2.2.1

/-- The functions that the delta defines are noted. -/
def deltaNoted (m : Img) (s : State) : State :=
  { s with boot := { s.boot with news := m.news s, newsHeld := s.cfld F.commit_PEND .fn == 1 } }

/-- The shadows of every section, and the address entries, are written. -/
def deltaLoaded (m : Img) (s : State) : State :=
  let t := m.shWrs.foldl writeDelta (deltaNoted m s)
  if m.has 6 then loadYard (m.body 6) t else t

theorem deltaCommit_eq (s : State) : deltaCommit s =
    gcGo s.staged.inst { deltaLoaded s.staged s with boot := { (deltaLoaded s.staged s).boot with deltaWait := false } } := rfl

/-- A STATIC record changes the address table alone (R237). -/
theorem loadStatic_eq (s : State) (e : Nat × Nat) : ∃ y, loadStatic s e = { s with yard := y } := by
  unfold loadStatic atRoom
  dsimp only
  split
  · split
    · exact ⟨_, rfl⟩
    · split <;> exact ⟨_, rfl⟩
  · exact ⟨_, rfl⟩

theorem foldl_loadStatic_eq (l : List (Nat × Nat)) (s : State) : ∃ y, l.foldl loadStatic s = { s with yard := y } := by
  induction l generalizing s with
  | nil => exact ⟨s.yard, rfl⟩
  | cons e l ih =>
    obtain ⟨y, hy⟩ := loadStatic_eq s e
    obtain ⟨z, hz⟩ := ih { s with yard := y }
    exact ⟨z, by rw [List.foldl_cons, hy, hz]⟩

theorem loadYard_eq (b : List Nat) (s : State) : ∃ y, loadYard b s = { s with yard := y } := by
  obtain ⟨y, hy⟩ := foldl_loadStatic_eq ((recsOf b).flatMap YRec.statics) s
  unfold loadYard
  dsimp only
  rw [hy]
  exact ⟨_, rfl⟩

/-- A field write of a delta: what becomes of the shadows and of the registers. -/
theorem writeDelta_shd (s : State) (w : Wr) :
    (writeDelta s w).shd = Tab.set w.1.reset s.shd (w.1.key w.2.1 w.2.2.1) (w.2.2.2 % 2 ^ w.1.width) := by
  unfold writeDelta
  split <;> rfl

theorem writeDelta_fld {g : Fld} (hg : g.id ≠ F.commit_DIRTY.id) (s : State) (w : Wr) (i j : Nat) :
    (writeDelta s w).fld g i j = s.fld g i j := by
  unfold writeDelta
  split
  · exact cput_fld_of_id_ne hg ..
  · rfl

/-- A block that is DIRTY stays so, and the written one is. -/
theorem writeDelta_dirty {b : Block} {s : State} {w : Wr} (h : blockOf w.1 w.2.1 = some b ∨ s.cfld F.commit_DIRTY b = 1) :
    (writeDelta s w).cfld F.commit_DIRTY b = 1 := by
  unfold writeDelta
  split
  · rename_i c hc
    by_cases hb : b = c
    · subst hb
      exact cput_cfld ..
    · rw [cput_cfld_of_block_ne hb]
      exact h.resolve_left fun h => hb (Option.some.inj (h.symm.trans hc))
  · rename_i hc
    exact h.resolve_left fun h => by simp [h] at hc

theorem writeDelta_frame (s : State) (w : Wr) :
    (writeDelta s w).lay = s.lay ∧ (writeDelta s w).boot = s.boot := by
  unfold writeDelta
  split <;> exact ⟨rfl, rfl⟩

theorem foldl_writeDelta_fld {g : Fld} (hg : g.id ≠ F.commit_DIRTY.id) (l : List Wr) (s : State) (i j : Nat) :
    (l.foldl writeDelta s).fld g i j = s.fld g i j := by
  induction l generalizing s with
  | nil => rfl
  | cons w l ih => rw [List.foldl_cons, ih, writeDelta_fld hg]

theorem foldl_writeDelta_dirty {b : Block} (l : List Wr) (s : State)
    (h : (∃ w ∈ l, blockOf w.1 w.2.1 = some b) ∨ s.cfld F.commit_DIRTY b = 1) :
    (l.foldl writeDelta s).cfld F.commit_DIRTY b = 1 := by
  induction l generalizing s with
  | nil => exact h.resolve_left fun ⟨w, hw, _⟩ => List.not_mem_nil hw
  | cons c l ih =>
    refine ih _ ?_
    rcases h with ⟨w, hw, hb⟩ | h
    · rcases List.mem_cons.mp hw with rfl | hw
      · exact .inr (writeDelta_dirty (.inl hb))
      · exact .inl ⟨w, hw, hb⟩
    · exact .inr (writeDelta_dirty (.inr h))

theorem foldl_writeDelta_frame (l : List Wr) (s : State) :
    (l.foldl writeDelta s).lay = s.lay ∧ (l.foldl writeDelta s).boot = s.boot := by
  induction l generalizing s with
  | nil => exact ⟨rfl, rfl⟩
  | cons w l ih => exact ⟨(ih _).1.trans (writeDelta_frame s w).1, (ih _).2.trans (writeDelta_frame s w).2⟩

/-- Two writes that meet in one key of the register tables. -/
def sameKey (x y : Wr) : Prop := y.1.key y.2.1 y.2.2.1 = x.1.key x.2.1 x.2.2.1

/-- A field that a delta writes once, or always alike, has the value in its shadow. -/
theorem foldl_writeDelta_shadow {x : Wr} (l : List Wr) (s : State) (hone : ∀ y ∈ l, sameKey x y → y = x)
    (h : x ∈ l ∨ s.shadow x.1 x.2.1 x.2.2.1 = x.2.2.2 % 2 ^ x.1.width) :
    (l.foldl writeDelta s).shadow x.1 x.2.1 x.2.2.1 = x.2.2.2 % 2 ^ x.1.width := by
  induction l generalizing s with
  | nil => exact h.resolve_left List.not_mem_nil
  | cons w l ih =>
    refine ih _ (fun y hy => hone y (List.mem_cons_of_mem _ hy)) ?_
    rw [State.shadow, writeDelta_shd]
    by_cases hw : w = x
    · subst hw
      exact .inr (Tab.get_set_same ..)
    · have hkey : x.1.key x.2.1 x.2.2.1 ≠ w.1.key w.2.1 w.2.2.1 := fun e => hw (hone w List.mem_cons_self e.symm)
      rw [Tab.get_set_ne _ _ _ _ _ _ hkey]
      exact h.imp (fun h => (List.mem_cons.mp h).resolve_left (Ne.symm hw)) id

/-- Past the shadow writes, only the address table changes. -/
theorem deltaLoaded_eq (m : Img) (s : State) : ∃ y, deltaLoaded m s = { m.shWrs.foldl writeDelta (deltaNoted m s) with yard := y } := by
  unfold deltaLoaded
  dsimp only
  split
  · exact loadYard_eq ..
  · exact ⟨_, rfl⟩

theorem goDirty_fld {g : Fld} (hd : g.id ≠ F.commit_DIRTY.id) (hp : g.id ≠ F.commit_PEND.id) (s : State) (i j : Nat) :
    (goDirty s).fld g i j = s.fld g i j := foldl_commitGo_fld hd hp ..

/-- GC.COMMIT writes the COMMIT registers and no other field. -/
theorem commitAllDirty_fld {g : Fld} (hg : g.id < 817) (s : State) (i j : Nat) : (commitAllDirty s).fld g i j = s.fld g i j := by
  have hd : g.id ≠ F.commit_DIRTY.id := Nat.ne_of_lt (Nat.lt_of_lt_of_le hg (by decide))
  have hp : g.id ≠ F.commit_PEND.id := Nat.ne_of_lt (Nat.lt_of_lt_of_le hg (by decide))
  have hc : g.id ≠ F.commit_CSEQ.id := Nat.ne_of_lt (Nat.lt_of_lt_of_le hg (by decide))
  rw [commitAllDirty_eq]
  split
  · rw [State.put_fld_ne _ _ _ _ _ _ _ _ hc, goDirty_fld hd hp]
  · exact goDirty_fld hd hp s i j

/-- What GC.COMMIT leaves of a state: the shadows, the layout's values, and all that the boot keeps but the blocks triggered. -/
structure CommitKeeps (s t : State) : Prop where
  shd : t.shd = s.shd
  lay : t.lay = s.lay
  boot : ∃ l i, t.boot = { s.boot with gcTrig := l, gcInst := i }

theorem goDirty_keeps (s : State) : CommitKeeps s (goDirty s) := by
  obtain ⟨h1, h2, h3⟩ := foldl_commitGo_frame s.dirtyBlocks
    { s with boot := { s.boot with gcTrig := (s.boot.gcTrig ++ s.dirtyBlocks).eraseDups, gcInst := false } }
  exact ⟨h1, h2, _, _, h3⟩

theorem commitAllDirty_keeps (s : State) : CommitKeeps s (commitAllDirty s) := by
  obtain ⟨hshd, hlay, hboot⟩ := goDirty_keeps s
  rw [commitAllDirty_eq]
  split <;> exact ⟨hshd, hlay, hboot⟩

/-- GO of GC.COMMIT waits for the common instant, or triggers the blocks. -/
theorem gcGo_cases (inst : Bool) (s : State) :
    (inst = true ∧ gcGo inst s = { s.put F.commit_INST 1 with boot := { s.boot with gcInst := true } })
      ∨ gcGo inst s = commitAllDirty (s.put F.commit_INST (b2n inst)) := by
  unfold gcGo gcCommit
  dsimp only
  split
  · rename_i h
    obtain rfl : inst = true := (Bool.and_eq_true_iff.mp h).1
    exact .inl ⟨rfl, rfl⟩
  · exact .inr rfl

theorem gcGo_keeps (inst : Bool) (s : State) : CommitKeeps s (gcGo inst s) := by
  rcases gcGo_cases inst s with ⟨-, h⟩ | h <;> rw [h]
  · exact ⟨rfl, rfl, s.boot.gcTrig, true, rfl⟩
  · obtain ⟨hshd, hlay, hboot⟩ := commitAllDirty_keeps (s.put F.commit_INST (b2n inst))
    exact ⟨hshd, hlay, hboot⟩

theorem gcGo_fld {g : Fld} (hg : g.id < 817) (inst : Bool) (s : State) (i j : Nat) : (gcGo inst s).fld g i j = s.fld g i j := by
  have hi : g.id ≠ F.commit_INST.id := Nat.ne_of_lt (Nat.lt_of_lt_of_le hg (by decide))
  rcases gcGo_cases inst s with ⟨-, h⟩ | h <;> rw [h]
  · exact State.put_fld_ne s F.commit_INST g 1 0 0 i j hi
  · rw [commitAllDirty_fld hg, State.put_fld_ne _ _ _ _ _ _ _ _ hi]

/-- Without INST every dirty block has its captured set. -/
theorem gcGo_pend {b : Block} {s : State} (hb : b ∈ allBlocks) (hd : s.cfld F.commit_DIRTY b = 1) :
    (gcGo false s).cfld F.commit_PEND b = 1 := by
  rw [gcGo_false]
  exact commitAllDirty_pend hb ((put_inst_cfld (by decide) s 0 b).trans hd)

/-! ### The resets that a deletion asks for (R45, R58) -/

/-- The fields that a reset writes at its request alone, and APPLYING. -/
def deltaFlds : List Nat := [F.fnStatus_STATE.id, F.fnStatus_RSTPEND.id, F.gcLaystat_APPLYING.id]

/-- What the steps of a function's reset leave of a state: the shadows, the layout's values, the boot, the functions marked for
deletion, and the fields above. -/
structure ResetKeeps (s t : State) : Prop where
  shd : t.shd = s.shd
  lay : t.lay = s.lay
  boot : t.boot = s.boot
  delPend : ∀ f, (t.fn f).delPend = (s.fn f).delPend
  fld : ∀ g : Fld, g.id ∈ deltaFlds → ∀ i j, t.fld g i j = s.fld g i j

/-- A task that ends past its deadline is counted (R121). -/
def countOverrun (e : Nat) (s : State) : State :=
  match (s.e e).cur with
  | some t => if t.u = 0 ∧ past32 s.tk t.dl > 0 then s.bump F.stCnt1_OVERRUN (e / 8) else s
  | none => s

/-- The stable has completed one more task (R119). -/
def noteCompleted (n : Nat) (s : State) : State := s.setSt n { s.st n with doneN := min 256 ((s.st n).doneN + 1) }

theorem countDone_eq (e : Nat) (s : State) :
    countDone e s =
      let t := countOverrun e (s.bump F.stCnt0_DONE (e / 8))
      if min 256 ((t.st (e / 8)).doneN + 1) = 256 then (noteCompleted (e / 8) t).put F.stDqstat_HIST 1 (e / 8)
      else noteCompleted (e / 8) t := rfl

namespace ResetKeeps
variable {s t u : State}

theorem refl (s : State) : ResetKeeps s s := ⟨rfl, rfl, rfl, fun _ => rfl, fun _ _ _ _ => rfl⟩

theorem trans (h : ResetKeeps s t) (k : ResetKeeps t u) : ResetKeeps s u :=
  ⟨k.shd.trans h.shd, k.lay.trans h.lay, k.boot.trans h.boot, fun f => (k.delPend f).trans (h.delPend f),
    fun g hg i j => (k.fld g hg i j).trans (h.fld g hg i j)⟩

/-- States that differ in other tables than these. -/
theorem of_tables (ha : t.act = s.act) (hs : t.shd = s.shd) (hl : t.lay = s.lay) (hb : t.boot = s.boot) (hf : t.fns = s.fns) :
    ResetKeeps s t :=
  ⟨hs, hl, hb, fun f => by rw [State.fn, hf]; rfl, fun g _ i j => by rw [State.fld, ha]; rfl⟩

theorem put {f : Fld} (hf : f.id ∉ deltaFlds) (s : State) (v i j : Nat) : ResetKeeps s (s.put f v i j) :=
  ⟨rfl, rfl, rfl, fun _ => rfl, fun _ hg _ _ => State.put_fld_ne _ _ _ _ _ _ _ _ fun e => hf (e ▸ hg)⟩

theorem bump {f : Fld} (hf : f.id ∉ deltaFlds) (s : State) (i j n : Nat) : ResetKeeps s (s.bump f i j n) := put hf ..

theorem setFn (s : State) (f : Nat) {x : FnS} (hx : x.delPend = (s.fn f).delPend) : ResetKeeps s (s.setFn f x) := by
  refine ⟨rfl, rfl, rfl, fun g => ?_, fun _ _ _ _ => rfl⟩
  by_cases hg : g = f
  · subst hg
    rw [State.setFn_fn, hx]
  · rw [State.setFn_fn_ne _ _ _ _ hg]

theorem foldl {α : Type} {f : State → α → State} (hf : ∀ s x, ResetKeeps s (f s x)) (l : List α) (s : State) :
    ResetKeeps s (l.foldl f s) := by
  induction l generalizing s with
  | nil => exact refl s
  | cons x l ih => exact (hf s x).trans (ih _)

theorem setE (s : State) (e : Nat) (x : Eng) : ResetKeeps s (s.setE e x) := of_tables rfl rfl rfl rfl rfl

theorem of_ite {c : Prop} [Decidable c] (ht : ResetKeeps s t) (hu : ResetKeeps s u) : ResetKeeps s (if c then t else u) := by
  split
  · exact ht
  · exact hu

/-! The steps of a reset. -/

theorem cancelLeases (f : Nat) (s : State) : ResetKeeps s (cancelLeases f s) :=
  foldl (fun s i => ((of_tables rfl rfl rfl rfl rfl : ResetKeeps s (returnUse _ s)).trans (put (by decide) ..)).trans
    (put (by decide) ..)) _ _

theorem icWithdraw (p : IcReq → Bool) (s : State) : ResetKeeps s (icWithdraw p s) := by
  refine foldl (fun s t => ?_) _ _
  dsimp only
  split
  · exact (of_tables rfl rfl rfl rfl rfl : ResetKeeps s (s.setIc t _)).trans (bump (by decide) ..)
  · exact of_tables rfl rfl rfl rfl rfl

theorem closeFrames (f : Nat) (s : State) : ResetKeeps s (closeFrames f s) := by
  refine foldl (fun s e => ?_) _ _
  split
  · exact of_tables rfl rfl rfl rfl rfl
  · exact refl s

theorem countOverrun (e : Nat) (s : State) : ResetKeeps s (countOverrun e s) := by
  unfold Machine.countOverrun
  split
  · exact of_ite (bump (by decide) ..) (refl s)
  · exact refl s

theorem countDone (e : Nat) (s : State) : ResetKeeps s (countDone e s) := by
  have hdone := bump (f := F.stCnt0_DONE) (by decide) s (e / 8) 0 1
  have hover := hdone.trans (countOverrun e _)
  have hcount : ResetKeeps s (noteCompleted (e / 8) (Machine.countOverrun e (s.bump F.stCnt0_DONE (e / 8)))) :=
    hover.trans (of_tables rfl rfl rfl rfl rfl)
  rw [countDone_eq]
  exact of_ite (hcount.trans (put (by decide) ..)) hcount

theorem endTask (e : Nat) (keep : Bool) (s : State) : ResetKeeps s (endTask e keep s) :=
  of_ite ((countDone e s).trans (setE ..)) (refl s)

theorem noteStopped (f : Nat) (s : State) : ResetKeeps s (noteStopped f s) := of_ite (setFn s f rfl) (refl s)

theorem discardTask (e : Nat) (s : State) : ResetKeeps s (discardTask e s) :=
  (endTask e true s).trans ((setE ..).trans (noteStopped ..))

theorem requestStops (f : Nat) (s : State) : ResetKeeps s (requestStops f s) :=
  foldl (fun s e => of_ite (discardTask e s) (setE ..)) _ _

/-- Past its marks in STATE and RSTPEND, a reset that begins keeps all of this. -/
theorem startReset (f : Nat) (s : State) : ResetKeeps ((s.put F.fnStatus_STATE 3 f).put F.fnStatus_RSTPEND 0 f) (startReset f s) := by
  have hboth : ∀ (l : List Nat) (s : State), ResetKeeps s (l.foldl (fun s g =>
      (s.bump F.fnCnt_ABANDON f 0 ((s.fn g).cut.filter (· == f)).length).bump
        F.fnCnt_ABANDON g 0 ((s.fn f).cut.filter (· == g)).length) s) :=
    foldl fun s g => (bump (by decide) ..).trans (bump (by decide) ..)
  unfold Machine.startReset
  dsimp only
  refine trans ?_ (requestStops f _)
  refine trans ?_ (closeFrames f _)
  refine trans ?_ (icWithdraw _ _)
  refine trans ?_ (cancelLeases f _)
  refine trans ?_ (hboth _ _)
  exact setFn _ f rfl

end ResetKeeps

/-- A function is being reset, or its reset is held (R55). -/
def Resetting (f : Nat) (s : State) : Prop := s.fnState f = 3 ∨ s.fld F.fnStatus_RSTPEND f ≠ 0

theorem fnState_of_ne_zero {f : Nat} (hf : f ≠ 0) (s : State) : s.fnState f = s.fld F.fnStatus_STATE f := if_neg hf

/-- The three ends of a request for a reset: none is needed, it is held, or it begins. -/
theorem requestReset_cases (f : Nat) (s : State) :
    (requestReset f s = s ∧ (f = 0 ∨ s.fnState f = 0 ∨ Resetting f s)) ∨ requestReset f s = s.put F.fnStatus_RSTPEND 1 f
      ∨ requestReset f s = startReset f s := by
  unfold requestReset
  dsimp only
  split
  · rename_i h
    rw [State.on_eq_true] at h
    exact .inl ⟨rfl, h⟩
  · split
    · split
      · exact .inr (.inl rfl)
      · exact .inr (.inr rfl)
    · exact .inr (.inr rfl)

/-- What a request for a reset of `g` can do: it writes STATE and RSTPEND of `g`, and the steps that follow keep the rest. -/
theorem requestReset_keeps (g : Nat) (s : State) : ∃ u, ResetKeeps u (requestReset g s)
    ∧ (u = s ∨ u = s.put F.fnStatus_RSTPEND 1 g ∨ u = (s.put F.fnStatus_STATE 3 g).put F.fnStatus_RSTPEND 0 g) := by
  rcases requestReset_cases g s with ⟨h, -⟩ | h | h <;> rw [h]
  · exact ⟨s, .refl s, .inl rfl⟩
  · exact ⟨_, .refl _, .inr (.inl rfl)⟩
  · exact ⟨_, .startReset g s, .inr (.inr rfl)⟩

theorem requestReset_frame (g : Nat) (s : State) :
    let t := requestReset g s
    t.shd = s.shd ∧ t.lay = s.lay ∧ t.boot = s.boot ∧ t.fld F.gcLaystat_APPLYING = s.fld F.gcLaystat_APPLYING
      ∧ ∀ f, (t.fn f).delPend = (s.fn f).delPend := by
  obtain ⟨u, ⟨hshd, hlay, hboot, hdel, hfld⟩, hu⟩ := requestReset_keeps g s
  have happ := hfld F.gcLaystat_APPLYING (by decide) 0 0
  dsimp only
  rw [hshd, hlay, hboot, happ]
  simp only [hdel]
  rcases hu with rfl | rfl | rfl
  · exact ⟨rfl, rfl, rfl, rfl, fun _ => rfl⟩
  · exact ⟨rfl, rfl, rfl, State.put_fld_ne _ _ _ _ _ _ _ _ (by decide), fun _ => rfl⟩
  · refine ⟨rfl, rfl, rfl, ?_, fun _ => rfl⟩
    rw [State.put_fld_ne _ _ _ _ _ _ _ _ (by decide), State.put_fld_ne _ _ _ _ _ _ _ _ (by decide)]

/-- A reset of `g` makes `f` RESETTING where it is the same function, and leaves the STATE of another one as it was. -/
theorem requestReset_moves {f : Nat} (hf : f ≠ 0) (g : Nat) (s : State) :
    let t := requestReset g s
    t.fnState f = 3 ∨ t.fnState f = s.fnState f
      ∧ (t.fld F.fnStatus_RSTPEND f = 1 ∨ t.fld F.fnStatus_RSTPEND f = s.fld F.fnStatus_RSTPEND f) := by
  obtain ⟨u, hkeeps, hu⟩ := requestReset_keeps g s
  dsimp only
  simp only [fnState_of_ne_zero hf, hkeeps.fld F.fnStatus_STATE (by decide), hkeeps.fld F.fnStatus_RSTPEND (by decide)]
  by_cases hfg : f % 8192 = g % 8192
  · have hkey : ∀ (t : State) (x : Fld), t.fld x f = t.fld x g := fun t x => by
      rw [State.fld, State.fld, Fld.key, Fld.key, hfg]
    rcases hu with rfl | rfl | rfl
    · exact .inr ⟨rfl, .inr rfl⟩
    · exact .inr ⟨State.put_fld_ne _ _ _ _ _ _ _ _ (by decide), .inl ((hkey ..).trans (State.put_fld ..))⟩
    · left
      rw [State.put_fld_ne _ _ _ _ _ _ _ _ (by decide), hkey]
      exact State.put_fld ..
  · have hkey : ∀ x : Fld, x.key f 0 ≠ x.key g 0 := fun x => by
      unfold Fld.key
      omega
    right
    rcases hu with rfl | rfl | rfl
    · exact ⟨rfl, .inr rfl⟩
    · exact ⟨State.put_fld_ne _ _ _ _ _ _ _ _ (by decide), .inr (State.put_fld_at _ _ _ _ _ _ _ (hkey _))⟩
    · rw [State.put_fld_ne _ _ _ _ _ _ _ _ (by decide), State.put_fld_at _ _ _ _ _ _ _ (hkey _),
        State.put_fld_at _ _ _ _ _ _ _ (hkey _), State.put_fld_ne _ _ _ _ _ _ _ _ (by decide)]
      exact ⟨rfl, .inr rfl⟩

theorem Resetting.requestReset {f : Nat} (hf : f ≠ 0) {s : State} (h : Resetting f s) (g : Nat) : Resetting f (requestReset g s) := by
  rcases requestReset_moves hf g s with h3 | ⟨hst, hp | hp⟩
  · exact .inl h3
  · exact .inr (by rw [hp]; decide)
  · exact h.imp hst.trans fun h => by rwa [hp]

theorem requestReset_fnState_ne_zero {f : Nat} (hf : f ≠ 0) {s : State} (h : s.fnState f ≠ 0) (g : Nat) :
    (requestReset g s).fnState f ≠ 0 := by
  rcases requestReset_moves hf g s with h3 | ⟨hst, -⟩
  · rw [h3]
    decide
  · rwa [hst]

/-- The function whose reset is asked for is being reset, or its reset is held. -/
theorem resetting_of_requestReset {f : Nat} (hf : f ≠ 0) {s : State} (h : s.fnState f ≠ 0) : Resetting f (requestReset f s) := by
  rcases requestReset_cases f s with ⟨hs, h0 | h0 | hr⟩ | hs | hs
  · exact absurd h0 hf
  · exact absurd h0 h
  · rwa [hs]
  · refine .inr ?_
    rw [hs, State.put_fld]
    decide
  · refine .inl ?_
    rw [hs, fnState_of_ne_zero hf, (ResetKeeps.startReset f s).fld F.fnStatus_STATE (by decide),
      State.put_fld_ne _ _ _ _ _ _ _ _ (by decide)]
    exact State.put_fld ..

/-! ### A deletion waits for its resets (R45) -/

/-- The mark that the delta deletes the function. -/
def markDel (f : Nat) (s : State) : State := s.setFn f { s.fn f with delPend := true }

/-- A function to be deleted is marked, and its reset asked for; F0 and undefined functions are left alone. -/
theorem deleteFn_cases (s : State) (g : Nat) :
    ((s.fnState g = 0 ∨ g = 0) ∧ deleteFn s g = s) ∨ deleteFn s g = requestReset g (markDel g s) := by
  unfold deleteFn
  split
  · exact .inl ⟨‹_›, rfl⟩
  · exact .inr rfl

/-- What the resets of a deletion leave of a state. -/
structure DeleteKeeps (s t : State) : Prop where
  shd : t.shd = s.shd
  lay : t.lay = s.lay
  boot : t.boot = s.boot
  applying : t.fld F.gcLaystat_APPLYING = s.fld F.gcLaystat_APPLYING

theorem deleteFn_keeps (s : State) (g : Nat) : DeleteKeeps s (deleteFn s g) := by
  rcases deleteFn_cases s g with ⟨-, h⟩ | h <;> rw [h]
  · exact ⟨rfl, rfl, rfl, rfl⟩
  · obtain ⟨hshd, hlay, hboot, happ, -⟩ := requestReset_frame g (markDel g s)
    exact ⟨hshd, hlay, hboot, happ⟩

theorem foldl_deleteFn_keeps (l : List Nat) (s : State) : DeleteKeeps s (l.foldl deleteFn s) := by
  induction l generalizing s with
  | nil => exact ⟨rfl, rfl, rfl, rfl⟩
  | cons g l ih =>
    obtain ⟨hshd, hlay, hboot, happ⟩ := deleteFn_keeps s g
    obtain ⟨kshd, klay, kboot, kapp⟩ := ih (deleteFn s g)
    exact ⟨kshd.trans hshd, klay.trans hlay, kboot.trans hboot, kapp.trans happ⟩

/-- A function that a delta deletes, on its way through the reset. -/
def Doomed (f : Nat) (s : State) : Prop := Resetting f s ∧ (s.fn f).delPend = true

theorem markDel_delPend (g : Nat) {s : State} {f : Nat} (h : f = g ∨ (s.fn f).delPend = true) :
    ((markDel g s).fn f).delPend = true := by
  by_cases hf : f = g
  · subst hf
    rw [markDel, State.setFn_fn]
  · rw [markDel, State.setFn_fn_ne _ _ _ _ hf]
    exact h.resolve_left hf

theorem Doomed.deleteFn {f : Nat} (hf : f ≠ 0) {s : State} (h : Doomed f s) (g : Nat) : Doomed f (deleteFn s g) := by
  rcases deleteFn_cases s g with ⟨-, e⟩ | e <;> rw [e]
  · exact h
  · obtain ⟨-, -, -, -, hdel⟩ := requestReset_frame g (markDel g s)
    exact ⟨Resetting.requestReset (s := markDel g s) hf h.1 g, (hdel f).trans (markDel_delPend g (.inr h.2))⟩

theorem doomed_of_deleteFn {f : Nat} (hf : f ≠ 0) {s : State} (h : s.fnState f ≠ 0) : Doomed f (deleteFn s f) := by
  rcases deleteFn_cases s f with ⟨h0, -⟩ | e
  · exact absurd h0 (not_or.mpr ⟨h, hf⟩)
  · obtain ⟨-, -, -, -, hdel⟩ := requestReset_frame f (markDel f s)
    rw [e]
    exact ⟨resetting_of_requestReset hf h, (hdel f).trans (markDel_delPend f (.inl rfl))⟩

theorem deleteFn_fnState_ne_zero {f : Nat} (hf : f ≠ 0) {s : State} (h : s.fnState f ≠ 0) (g : Nat) :
    (deleteFn s g).fnState f ≠ 0 := by
  rcases deleteFn_cases s g with ⟨-, e⟩ | e <;> rw [e]
  · exact h
  · exact requestReset_fnState_ne_zero (s := markDel g s) hf h g

theorem foldl_deleteFn_doomed {f : Nat} (hf : f ≠ 0) (l : List Nat) (s : State) (h : f ∈ l ∧ s.fnState f ≠ 0 ∨ Doomed f s) :
    Doomed f (l.foldl deleteFn s) := by
  induction l generalizing s with
  | nil => exact h.resolve_left fun h => List.not_mem_nil h.1
  | cons g l ih =>
    refine ih _ ?_
    rcases h with ⟨hmem, hst⟩ | h
    · rcases List.mem_cons.mp hmem with rfl | hmem
      · exact .inr (doomed_of_deleteFn hf hst)
      · exact .inl ⟨hmem, deleteFn_fnState_ne_zero hf hst g⟩
    · exact .inr (h.deleteFn hf g)

/-- A delta waits while a function marked for deletion is not through its reset. -/
theorem deltaGo_of_delPend {s : State} {f : Nat} (h : (s.fn f).delPend = true) : deltaGo s = s := by
  have hany : (s.fns.any fun p => p.2.delPend) = true := Tab.any_of_get (p := FnS.delPend) rfl h
  exact if_neg (by simp [hany])

theorem deltaGo_of_none {s : State} (hw : s.boot.deltaWait = true) (h : (s.fns.any fun p => p.2.delPend) = false) :
    deltaGo s = deltaCommit s := if_pos (by simp [hw, h])

/-! ### A delta without a deletion is committed at once -/

theorem deltaLoaded_fld {g : Fld} (hg : g.id ≠ F.commit_DIRTY.id) (m : Img) (s : State) (i j : Nat) :
    (deltaLoaded m s).fld g i j = s.fld g i j := by
  obtain ⟨y, hy⟩ := deltaLoaded_eq m s
  rw [hy]
  exact foldl_writeDelta_fld hg m.shWrs (deltaNoted m s) i j

theorem deltaLoaded_frame (m : Img) (s : State) : (deltaLoaded m s).lay = s.lay ∧ (deltaLoaded m s).boot = (deltaNoted m s).boot := by
  obtain ⟨y, hy⟩ := deltaLoaded_eq m s
  rw [hy]
  exact foldl_writeDelta_frame m.shWrs (deltaNoted m s)

theorem deltaLoaded_shadow {m : Img} {x : Wr} (hx : x ∈ m.shWrs) (hone : ∀ y ∈ m.shWrs, sameKey x y → y = x) (s : State) :
    (deltaLoaded m s).shadow x.1 x.2.1 x.2.2.1 = x.2.2.2 % 2 ^ x.1.width := by
  obtain ⟨y, hy⟩ := deltaLoaded_eq m s
  rw [hy]
  exact foldl_writeDelta_shadow m.shWrs (deltaNoted m s) hone (.inl hx)

theorem deltaLoaded_dirty {m : Img} {x : Wr} (hx : x ∈ m.shWrs) {b : Block} (hb : blockOf x.1 x.2.1 = some b) (s : State) :
    (deltaLoaded m s).cfld F.commit_DIRTY b = 1 := by
  obtain ⟨y, hy⟩ := deltaLoaded_eq m s
  rw [hy]
  exact foldl_writeDelta_dirty m.shWrs (deltaNoted m s) (.inl ⟨x, hx, hb⟩)

theorem deltaCommit_fld {g : Fld} (hg : g.id < 817) (s : State) (i j : Nat) : (deltaCommit s).fld g i j = s.fld g i j := by
  rw [deltaCommit_eq, gcGo_fld hg]
  exact deltaLoaded_fld (Nat.ne_of_lt (Nat.lt_of_lt_of_le hg (by decide))) ..

theorem deltaCommit_lay (s : State) : (deltaCommit s).lay = s.lay :=
  (gcGo_keeps ..).lay.trans (deltaLoaded_frame s.staged s).1

/-- The boot after the commit: the delta stands as it did, its new functions are noted, and it waits for no reset. -/
theorem deltaCommit_boot (s : State) : ∃ l i, (deltaCommit s).boot =
    { (deltaNoted s.staged s).boot with deltaWait := false, gcTrig := l, gcInst := i } := by
  obtain ⟨-, -, l, i, h⟩ := gcGo_keeps s.staged.inst
    { deltaLoaded s.staged s with boot := { (deltaLoaded s.staged s).boot with deltaWait := false } }
  refine ⟨l, i, ?_⟩
  rw [deltaCommit_eq, h, (deltaLoaded_frame s.staged s).2]

theorem deltaCommit_shadow {s : State} {x : Wr} (hx : x ∈ s.staged.shWrs) (hone : ∀ y ∈ s.staged.shWrs, sameKey x y → y = x) :
    (deltaCommit s).shadow x.1 x.2.1 x.2.2.1 = x.2.2.2 % 2 ^ x.1.width := by
  rw [deltaCommit_eq, State.shadow, (gcGo_keeps ..).shd]
  exact deltaLoaded_shadow hx hone s

theorem deltaCommit_pend {s : State} {x : Wr} (hi : s.staged.inst = false) (hx : x ∈ s.staged.shWrs) {b : Block} (hb : b ∈ allBlocks)
    (hxb : blockOf x.1 x.2.1 = some b) : (deltaCommit s).cfld F.commit_PEND b = 1 := by
  rw [deltaCommit_eq, hi]
  exact gcGo_pend hb (deltaLoaded_dirty hx hxb s)

theorem deltaBegun_news (s : State) : s.staged.news (deltaBegun s) = s.staged.news s := by
  unfold Img.news
  simp only [deltaBegun_fnState]

/-! ### The end of a delta (R45) -/

theorem foldl_setFlash_eq (f : Nat → Nat) (g : Nat → BitVec 64) (l : List Nat) (s : State) :
    ∃ x, l.foldl (fun s i => s.setFlash (f i) (g i)) s = { s with flash := x } := by
  induction l generalizing s with
  | nil => exact ⟨s.flash, rfl⟩
  | cons i l ih =>
    obtain ⟨x, hx⟩ := ih (s.setFlash (f i) (g i))
    exact ⟨x, hx⟩

/-- The counters of a record that is dropped, written or deferred (R335, R352). -/
def logFlds : List Nat := [F.faHealth_LOGDROP.id, F.pwOcnt_GRANT.id, F.pwOcnt_DEFER.id]

/-- What a log record leaves of a state. -/
structure LogKeeps (s t : State) : Prop where
  shd : t.shd = s.shd
  eng : t.eng = s.eng
  delta : t.boot.delta = s.boot.delta
  deltaBlocks : t.boot.deltaBlocks = s.boot.deltaBlocks
  fld : ∀ g : Fld, g.id ∉ logFlds → ∀ i j, t.fld g i j = s.fld g i j

/-- The log's sectors are erased ahead of the record's place (R352). -/
def logErased (s : State) : State :=
  let sec := 7680 + s.boot.logAt / 64
  if s.boot.logAt % 64 = 0 then
    eraseSector (7680 + (s.boot.logAt / 64 + 1) % 512)
      (if s.boot.logAt = 0 && (s.flash.any fun e => 512 * sec ≤ e.1 && e.1 < 512 * sec + 8) then eraseSector sec s else s)
  else s

namespace LogKeeps
variable {s t u : State}

theorem refl (s : State) : LogKeeps s s := ⟨rfl, rfl, rfl, rfl, fun _ _ _ _ => rfl⟩

theorem trans (h : LogKeeps s t) (k : LogKeeps t u) : LogKeeps s u :=
  ⟨k.shd.trans h.shd, k.eng.trans h.eng, k.delta.trans h.delta, k.deltaBlocks.trans h.deltaBlocks,
    fun g hg i j => (k.fld g hg i j).trans (h.fld g hg i j)⟩

theorem bump {f : Fld} (hf : f.id ∈ logFlds) (s : State) (i j n : Nat) : LogKeeps s (s.bump f i j n) :=
  ⟨rfl, rfl, rfl, rfl, fun _ hg _ _ => State.bump_fld_ne _ _ _ _ _ _ _ _ fun e => hg (e ▸ hf)⟩

theorem eraseSector (n : Nat) (s : State) : LogKeeps s (eraseSector n s) := ⟨rfl, rfl, rfl, rfl, fun _ _ _ _ => rfl⟩

theorem of_ite {c : Prop} [Decidable c] (ht : LogKeeps s t) (hu : LogKeeps s u) : LogKeeps s (if c then t else u) := by
  split
  · exact ht
  · exact hu

theorem logErased (s : State) : LogKeeps s (logErased s) :=
  of_ite (trans (of_ite (eraseSector _ s) (refl s)) (eraseSector _ _)) (refl s)

theorem writeRecord (w : Word) (ws : List Nat) (s : State) : LogKeeps s (writeRecord w ws s) := by
  unfold Machine.writeRecord
  dsimp only
  refine trans (logErased s) ?_
  obtain ⟨x, hx⟩ := foldl_setFlash_eq _ _ (List.range 8) _
  rw [hx]
  exact ⟨rfl, rfl, rfl, rfl, fun _ _ _ _ => rfl⟩

theorem logRecord (n : Nat) (ws : List Nat) (s : State) : LogKeeps s (logRecord n ws s) := by
  unfold Machine.logRecord
  dsimp only
  refine of_ite (bump (by decide) ..) (of_ite ?_ (of_ite ?_ ?_))
  · refine trans ?_ (writeRecord ..)
    refine trans ?_ (bump (by decide) ..)
    exact ⟨rfl, rfl, rfl, rfl, fun _ _ _ _ => rfl⟩
  · exact ⟨rfl, rfl, rfl, rfl, fun _ _ _ _ => rfl⟩
  · refine trans ?_ (bump (by decide) ..)
    exact ⟨rfl, rfl, rfl, rfl, fun _ _ _ _ => rfl⟩

end LogKeeps

/-- The registers of a delta that is applied: its version stands, and DONE is set. -/
def showApplied (v : Nat) (s : State) : State :=
  ((s.put F.gcLayver_VER v).put F.gcLaystat_APPLYING 0).put F.gcLaystat_DONE 1

theorem showApplied_applying (v : Nat) (s : State) : (showApplied v s).fld F.gcLaystat_APPLYING = 0 :=
  (State.put_fld_ne _ _ _ _ _ _ _ _ (by decide)).trans (State.put_fld ..)

theorem showApplied_done (v : Nat) (s : State) : (showApplied v s).fld F.gcLaystat_DONE = 1 := State.put_fld ..

theorem showApplied_ver (v : Nat) (s : State) : (showApplied v s).fld F.gcLayver_VER = v % 2 ^ F.gcLayver_VER.width := by
  rw [showApplied, State.put_fld_ne _ _ _ _ _ _ _ _ (by decide), State.put_fld_ne _ _ _ _ _ _ _ _ (by decide), State.put_fld]

/-- The delta is applied, and the layout's values are `lay`. -/
def deltaEnded (lay : Tab Nat) (v : Nat) (s : State) : State :=
  showApplied v { s with lay := lay, boot := { s.boot with delta := none, deltaBlocks := [] } }

theorem deltaDone_eq {s : State} {v : Nat} (hd : s.boot.delta = some v) (hw : s.boot.deltaWait = false) (hp : s.gcPend = false) :
    ∃ lay ws, deltaDone s = logRecord 6 ws (deltaEnded lay v s) := by
  have hwait : ¬ (s.boot.deltaWait || s.gcPend) = true := by simp [hw, hp]
  unfold deltaDone
  rw [hd]
  dsimp only
  rw [if_neg hwait]
  exact ⟨_, _, rfl⟩

/-! ### The statement of delta images -/

theorem exec_deltaApply {s : State} {w : Who} (hs : s.heard w = true) (hv : notVf w = true) (hj : w ≠ .jtag) :
    exec (.deltaApply w) s = done s (finish w { st := deltaApply s }) :=
  congrArg (done s) (sysWriteQuiet_of_heard hs hv hj _)

/-- A delta that passes its checks and deletes nothing. -/
theorem deltaApply_of_no_deletion {s : State} (h : deltaApply s = deltaGo (s.staged.dels.foldl deleteFn (deltaBegun s)))
    (hd : s.staged.dels = []) (hnone : (s.fns.any fun p => p.2.delPend) = false) : deltaApply s = deltaCommit (deltaBegun s) := by
  rw [h, hd]
  exact deltaGo_of_none rfl hnone

/-- A delta that deletes a function waits for its reset. -/
theorem deltaApply_of_deletion {s : State} (h : deltaApply s = deltaGo (s.staged.dels.foldl deleteFn (deltaBegun s)))
    {f : Nat} (hf : f ∈ s.staged.dels) (h0 : f ≠ 0) (hst : s.fnState f ≠ 0) :
    deltaApply s = s.staged.dels.foldl deleteFn (deltaBegun s) ∧ Doomed f (s.staged.dels.foldl deleteFn (deltaBegun s)) := by
  have hdoomed := foldl_deleteFn_doomed h0 s.staged.dels (deltaBegun s) (.inl ⟨hf, by rwa [deltaBegun_fnState]⟩)
  exact ⟨h.trans (deltaGo_of_delPend hdoomed.2), hdoomed⟩

theorem deltaApplyDone_ends {s : State} {v : Nat} (hd : s.boot.delta = some v) (hw : s.boot.deltaWait = false) (hp : s.gcPend = false) :
    let t := deltaDone s
    t.fld F.gcLaystat_APPLYING = 0 ∧ t.fld F.gcLaystat_DONE = 1 ∧ t.fld F.gcLayver_VER = v % 2 ^ F.gcLayver_VER.width
      ∧ t.boot.delta = none ∧ t.boot.deltaBlocks = [] ∧ t.shd = s.shd ∧ t.eng = s.eng := by
  obtain ⟨lay, ws, h⟩ := deltaDone_eq hd hw hp
  obtain ⟨hshd, heng, hdelta, hblocks, hfld⟩ := LogKeeps.logRecord 6 ws (deltaEnded lay v s)
  dsimp only
  rw [h, hshd, heng, hdelta, hblocks, hfld _ (by decide), hfld _ (by decide), hfld _ (by decide)]
  exact ⟨showApplied_applying .., showApplied_done .., showApplied_ver .., rfl, rfl, rfl, rfl⟩

theorem deltasAreCheckedAndApplied : Stated.DeltasAreCheckedAndApplied := by
  refine ⟨fun s w hs hv hj => ⟨fun happ => ?_, fun happ hlay => ?_, fun happ hlay hhalt hok => ?_⟩, fun s v hd hw hp => ?_⟩
  · exact ⟨_, exec_deltaApply hs hv hj, by rw [deltaApply_of_applying happ]; rfl⟩
  · exact ⟨_, exec_deltaApply hs hv hj, by rw [deltaApply_of_no_layout happ hlay]; rfl⟩
  · have hexec := exec_deltaApply hs hv hj
    refine ⟨fun hfail => ?_, fun hpass => ?_⟩
    · exact ⟨_, hexec, by rw [deltaApply_of_failed happ hlay hhalt hok hfail]; rfl⟩
    have hbegun := deltaApply_of_passed happ hlay hhalt hok hpass
    refine ⟨fun hnodel hnone => ?_, fun f hf h0 _ hst => ?_⟩
    · rw [deltaApply_of_no_deletion hbegun hnodel hnone] at hexec
      obtain ⟨l, i, hboot⟩ := deltaCommit_boot (deltaBegun s)
      have happlying := (deltaCommit_fld (by decide) (deltaBegun s) 0 0).trans (deltaBegun_applying s)
      exact does_served hexec fun _ _ _ => ⟨happlying, congrArg BootS.delta hboot, congrArg BootS.deltaBlocks hboot,
        congrArg BootS.deltaWait hboot, (congrArg BootS.news hboot).trans (deltaBegun_news s), deltaCommit_lay _,
        fun x hx hone => deltaCommit_shadow (s := deltaBegun s) hx hone,
        fun hinst x hx b hb hxb => deltaCommit_pend (s := deltaBegun s) hinst hx hb hxb⟩
    · obtain ⟨heq, hreset, hdel⟩ := deltaApply_of_deletion hbegun hf h0 hst
      obtain ⟨hshd, hlay', hboot, happlying⟩ := foldl_deleteFn_keeps s.staged.dels (deltaBegun s)
      rw [heq] at hexec
      exact does_served hexec fun _ _ _ => ⟨happlying.trans (deltaBegun_applying s), congrArg BootS.delta hboot,
        congrArg BootS.deltaWait hboot, hdel, hreset, hshd, hlay'⟩
  · exact ⟨_, rfl, deltaApplyDone_ends hd hw hp⟩

end Sys2Proof.Machine
end

section
/-! The statement of the key slots: a request and its refusals, the Ostler's leave for it, and the end of the operation. -/

namespace Sys2Proof.Machine

/-! ### A request of a key slot (R48) -/

/-- The operation of a key slot is under way: BUSY shows it. -/
def keyStarted (k : Nat) (h : Option Nat) (s : State) : State :=
  { s with boot := { s.boot with keyOp := some (k, h) } }.put F.gcKeyslot_BUSY 1 k

theorem keyRequest_of_busy {s : State} (h : ∃ j < 4, s.fld F.gcKeyslot_BUSY j ≠ 0) (k op : Nat) :
    keyRequest k op s = s.put F.gcKeyslot_DISP 5 k := by
  obtain ⟨j, hj, hb⟩ := h
  have hany : ([0, 1, 2, 3].any fun j => s.on F.gcKeyslot_BUSY j) = true :=
    List.any_eq_true.mpr ⟨j, by simp only [List.mem_cons, List.not_mem_nil, or_false]; omega, State.on_eq_true.mpr hb⟩
  unfold keyRequest
  rw [if_pos hany]

section
variable {s : State} (hidle : ∀ j < 4, s.fld F.gcKeyslot_BUSY j = 0)
include hidle

theorem keyRequest_of_idle {k op : Nat} (hop : op = 1 ∨ op = 2) : keyRequest k op s =
    if (op = 1 ∧ (s.keyData ≥ 2 ^ 256 ∨ s.on F.gcKeyslot_WRITTEN k)) ∨ (op = 2 ∧ s.on F.gcKeyslot_REVOKED k) then
      s.put F.gcKeyslot_DISP 9 k
    else hwRequest .key (keyStarted k (if op = 1 then some s.keyData else none) s) := by
  have hnone : ¬ ([0, 1, 2, 3].any fun j => s.on F.gcKeyslot_BUSY j) = true := by
    simp [State.on_eq_false.mpr (hidle 0 (by decide)), State.on_eq_false.mpr (hidle 1 (by decide)),
      State.on_eq_false.mpr (hidle 2 (by decide)), State.on_eq_false.mpr (hidle 3 (by decide))]
  unfold keyRequest
  rw [if_neg hnone, if_neg (by omega)]
  rfl

theorem keyRequest_program_denied {k : Nat} (h : s.fld F.gcKeyslot_WRITTEN k ≠ 0 ∨ 2 ^ 256 ≤ s.keyData) :
    keyRequest k 1 s = s.put F.gcKeyslot_DISP 9 k := by
  rw [keyRequest_of_idle hidle (.inl rfl), if_pos]
  exact .inl ⟨rfl, h.symm.imp id State.on_eq_true.mpr⟩

theorem keyRequest_program {k : Nat} (hw : s.fld F.gcKeyslot_WRITTEN k = 0) (hk : s.keyData < 2 ^ 256) :
    keyRequest k 1 s = hwRequest .key (keyStarted k (some s.keyData) s) := by
  rw [keyRequest_of_idle hidle (.inl rfl), if_neg]
  · rfl
  · rintro (⟨-, h | h⟩ | ⟨h, -⟩)
    · exact Nat.not_lt.mpr h hk
    · exact State.on_eq_true.mp h hw
    · exact absurd h (by decide)

theorem keyRequest_revoke_denied {k : Nat} (h : s.fld F.gcKeyslot_REVOKED k ≠ 0) : keyRequest k 2 s = s.put F.gcKeyslot_DISP 9 k := by
  rw [keyRequest_of_idle hidle (.inr rfl), if_pos]
  exact .inr ⟨rfl, State.on_eq_true.mpr h⟩

theorem keyRequest_revoke {k : Nat} (h : s.fld F.gcKeyslot_REVOKED k = 0) : keyRequest k 2 s = hwRequest .key (keyStarted k none s) := by
  rw [keyRequest_of_idle hidle (.inr rfl), if_neg]
  · rfl
  · simp [State.on_eq_false.mpr h]
end

/-! ### The Ostler's leave for it (R336) -/

/-- The request that the Ostler takes for a key slot. -/
def State.keyReq (s : State) : OReq :=
  { id := s.pw.nextId, use := .key, fn := 0, inc := 0, cost := s.unitCost OUse.key.k * 1, hw := true, t0 := s.tick }

/-- The next request has the next number. -/
def State.reqTaken (s : State) : State := { s with pw := { s.pw with nextId := s.pw.nextId + 1 } }

/-- The request waits. -/
def State.keyQueued (s : State) : State :=
  { s.reqTaken with pw := { s.reqTaken.pw with
      queue := s.reqTaken.pw.queue ++ [{ s.keyReq with byCap := s.est + s.unitCost OUse.key.k * 1 > s.fld F.pwOctl_CAP }] } }.bump
    F.pwOcnt_DEFER

/-- Leave for a key slot, which the hardware asks for: refused to a stale incarnation of F0, served, or deferred. -/
theorem hwRequest_key_eq (s : State) : hwRequest .key s =
    if 0 ≠ s.inc 0 then s
    else if s.fits s.keyReq && !s.capWaits then noteOverq 0 s (grant s.keyReq s.reqTaken)
    else deferEffect .key s.keyQueued := by
  have hst : ¬ (s.fnState 0 = 0 ∨ s.fnState 0 = 1) := by simp [State.fnState]
  unfold hwRequest ostlerRequest
  dsimp only
  rw [if_neg hst]
  simp only [Bool.not_true, Bool.false_and, Bool.false_eq_true, if_false]
  rw [apply_ite Prod.snd, apply_ite Prod.snd]
  rfl

theorem id_ne_of_not_mem {l : List Nat} {f g : Fld} (hf : f.id ∈ l) (hg : g.id ∉ l) : g.id ≠ f.id := fun e => hg (e ▸ hf)

/-- The fields that a request for a key slot's leave writes. -/
def keyLeaveFlds : List Nat := [F.fnStatus_OVQEV.id, F.pwOcnt_GRANT.id, F.pwOcnt_DEFER.id, F.gcKeyslot_DISP.id]

theorem noteOverq_cases (f : Nat) (old new : State) : noteOverq f old new = new ∨ noteOverq f old new = new.put F.fnStatus_OVQEV 1 f := by
  unfold noteOverq
  split
  · exact .inr rfl
  · exact .inl rfl

theorem noteOverq_pw (f : Nat) (old new : State) : (noteOverq f old new).pw = new.pw := by
  rcases noteOverq_cases f old new with h | h <;> rw [h]
  rfl

theorem noteOverq_boot (f : Nat) (old new : State) : (noteOverq f old new).boot = new.boot := by
  rcases noteOverq_cases f old new with h | h <;> rw [h]
  rfl

theorem noteOverq_fld {g : Fld} (hg : g.id ≠ F.fnStatus_OVQEV.id) (f : Nat) (old new : State) (i j : Nat) :
    (noteOverq f old new).fld g i j = new.fld g i j := by
  rcases noteOverq_cases f old new with h | h <;> rw [h]
  exact State.put_fld_ne _ _ _ _ _ _ _ _ hg

/-- A deferred request shows in DISP of the slot under way. -/
theorem deferEffect_key_cases (s : State) : deferEffect .key s = s ∨ ∃ k, deferEffect .key s = s.put F.gcKeyslot_DISP 1 k := by
  unfold deferEffect
  dsimp only
  split
  · exact .inr ⟨_, rfl⟩
  · exact .inl rfl

theorem grant_key_eq (s : State) : ∃ p : PwS, p.grants = s.pw.grants ++ [s.keyReq] ∧ p.queue = s.pw.queue
    ∧ grant s.keyReq s.reqTaken = { s with pw := p }.bump F.pwOcnt_GRANT :=
  ⟨(grant s.keyReq s.reqTaken).pw, rfl, rfl, rfl⟩

/-- A request for leave changes nothing of the key slots but DISP. -/
theorem hwRequest_key_keeps (s : State) :
    (hwRequest .key s).boot = s.boot ∧ ∀ g : Fld, g.id ∉ keyLeaveFlds → ∀ i j, (hwRequest .key s).fld g i j = s.fld g i j := by
  rw [hwRequest_key_eq]
  split
  · exact ⟨rfl, fun _ _ _ _ => rfl⟩
  · split
    · obtain ⟨p, -, -, hp⟩ := grant_key_eq s
      rw [hp]
      refine ⟨noteOverq_boot .., fun g hg i j => ?_⟩
      rw [noteOverq_fld (id_ne_of_not_mem (by decide) hg), State.bump_fld_ne _ _ _ _ _ _ _ _ (id_ne_of_not_mem (by decide) hg)]
      rfl
    · have hqueued : ∀ g : Fld, g.id ∉ keyLeaveFlds → ∀ i j, s.keyQueued.fld g i j = s.fld g i j := fun g hg i j =>
        State.bump_fld_ne _ _ _ _ _ _ _ _ (id_ne_of_not_mem (by decide) hg)
      rcases deferEffect_key_cases s.keyQueued with h | ⟨k, h⟩ <;> rw [h]
      · exact ⟨rfl, hqueued⟩
      · refine ⟨rfl, fun g hg i j => ?_⟩
        rw [State.put_fld_ne _ _ _ _ _ _ _ _ (id_ne_of_not_mem (by decide) hg), hqueued g hg]

/-- Where leave is free the request is served at once. -/
theorem hwRequest_key_served {s : State} (h : s.leaveFree OUse.key.k) :
    ((hwRequest .key s).pw.grants.any fun g => g.use == .key) = true ∧ (hwRequest .key s).pw.queue = s.pw.queue := by
  obtain ⟨-, hinc, hest, -, hcap⟩ := h
  have hfits : (s.fits s.keyReq && !s.capWaits) = true := by
    simp [State.fits, State.keyReq, OUse.isWake, hcap, hest]
  obtain ⟨p, hgrants, hqueue, hp⟩ := grant_key_eq s
  rw [hwRequest_key_eq, if_neg (by simp [hinc]), if_pos hfits, noteOverq_pw, hp]
  refine ⟨?_, hqueue⟩
  rw [State.bump_pw, hgrants, List.any_append]
  simp [State.keyReq]

theorem est_put {f : Fld} (hf : F.pwOstat_BASE.id ≠ f.id) (s : State) (v i j : Nat) : (s.put f v i j).est = s.est := by
  rw [State.est, State.put_fld_ne _ _ _ _ _ _ _ _ hf, State.put_pw, State.est]

theorem unitCost_put {f : Fld} (hcal : F.pwOstat_CAL.id ≠ f.id) (hcost : F.pwOcost_CALV.id ≠ f.id) (s : State) (v i j n : Nat) :
    (s.put f v i j).unitCost n = s.unitCost n := by
  rw [State.unitCost, State.put_on_ne _ _ _ _ _ _ _ _ hcal, State.put_fld_ne _ _ _ _ _ _ _ _ hcost, State.unitCost]

theorem capWaits_put {f : Fld} (hbase : F.pwOstat_BASE.id ≠ f.id) (hcap : F.pwOctl_CAP.id ≠ f.id) (s : State) (v i j : Nat) :
    (s.put f v i j).capWaits = s.capWaits := by
  rw [State.capWaits, State.put_pw, est_put hbase, State.put_fld_ne _ _ _ _ _ _ _ _ hcap, State.capWaits]

theorem rampPassed_put {f : Fld} (hf : F.pwOctl_RAMPINT.id ≠ f.id) (s : State) (v i j : Nat) :
    (s.put f v i j).rampPassed = s.rampPassed := by
  unfold State.rampPassed
  rw [State.put_pw, State.put_tick, State.put_fld_ne _ _ _ _ _ _ _ _ hf]

/-- A key slot's BUSY has no part in what leave depends on. -/
theorem leaveFree_put_busy {s : State} {n : Nat} (h : s.leaveFree n) (v k : Nat) : (s.put F.gcKeyslot_BUSY v k).leaveFree n := by
  obtain ⟨-, hinc, hest, hramp, hcap⟩ := h
  refine ⟨rfl, ?_, ?_, fun hn => ?_, ?_⟩
  · rw [State.inc, State.put_fld_ne _ _ _ _ _ _ _ _ (by decide)]
    exact hinc
  · rw [est_put (by decide), unitCost_put (by decide) (by decide), State.put_fld_ne _ _ _ _ _ _ _ _ (by decide)]
    exact hest
  · rw [rampPassed_put (by decide)]
    exact hramp hn
  · rw [capWaits_put (by decide) (by decide)]
    exact hcap

theorem leaveFree_keyStarted {s : State} {n : Nat} (h : s.leaveFree n) (k : Nat) (op : Option Nat) : (keyStarted k op s).leaveFree n :=
  leaveFree_put_busy (s := { s with boot := { s.boot with keyOp := some (k, op) } }) h 1 k

/-- An operation of a key slot that is accepted: BUSY shows it, the slots stand as they did, and free leave is given at once. -/
theorem hwRequest_keyStarted (s : State) (k : Nat) (h : Option Nat) :
    let t := hwRequest .key (keyStarted k h s)
    t.fld F.gcKeyslot_BUSY k = 1 ∧ t.boot.keyOp = some (k, h) ∧ t.boot.keyHash = s.boot.keyHash
      ∧ (∀ j, t.fld F.gcKeyslot_WRITTEN j = s.fld F.gcKeyslot_WRITTEN j ∧ t.fld F.gcKeyslot_REVOKED j = s.fld F.gcKeyslot_REVOKED j)
      ∧ (s.leaveFree OUse.key.k → (t.pw.grants.any fun g => g.use == .key) = true ∧ t.pw.queue = s.pw.queue) := by
  obtain ⟨hboot, hfld⟩ := hwRequest_key_keeps (keyStarted k h s)
  dsimp only
  rw [hboot, hfld F.gcKeyslot_BUSY (by decide)]
  refine ⟨State.put_fld .., rfl, rfl, fun j => ?_, fun hfree => hwRequest_key_served (leaveFree_keyStarted hfree k h)⟩
  rw [hfld F.gcKeyslot_WRITTEN (by decide), hfld F.gcKeyslot_REVOKED (by decide)]
  exact ⟨State.put_fld_ne _ _ _ _ _ _ _ _ (by decide), State.put_fld_ne _ _ _ _ _ _ _ _ (by decide)⟩

/-! ### The end of an operation -/

/-- No operation of a key slot runs any more. -/
def opTaken (s : State) : State := { s with boot := { s.boot with keyOp := none } }

/-- The slot is marked: programmed with its hash, or revoked. -/
def markSlot (k : Nat) (h : Option Nat) (s : State) : State :=
  match h with
  | some v => { s.put F.gcKeyslot_WRITTEN 1 k with boot := { s.boot with keyHash := Tab.set 0 s.boot.keyHash k v } }
  | none => s.put F.gcKeyslot_REVOKED 1 k

/-- The slot is released, and its leave returns. -/
def releaseSlot (k : Nat) (s : State) : State :=
  returnUse (· == .key) ((s.put F.gcKeyslot_BUSY 0 k).put F.gcKeyslot_DISP 0 k)

theorem keyEnd_of_op {s : State} {k : Nat} {h : Option Nat} (hop : s.boot.keyOp = some (k, h)) : keyEnd s =
    if !s.pw.grants.any (·.use == .key) then s
    else releaseSlot k (markSlot k h (opTaken s)) := by
  unfold keyEnd
  rw [hop]
  rfl

theorem releaseSlot_fld_eq (k : Nat) (s : State) (g : Fld) (i j : Nat) :
    (releaseSlot k s).fld g i j = ((s.put F.gcKeyslot_BUSY 0 k).put F.gcKeyslot_DISP 0 k).fld g i j := rfl

theorem releaseSlot_fld {g : Fld} (hb : g.id ≠ F.gcKeyslot_BUSY.id) (hd : g.id ≠ F.gcKeyslot_DISP.id) (k : Nat) (s : State)
    (i j : Nat) : (releaseSlot k s).fld g i j = s.fld g i j := by
  rw [releaseSlot_fld_eq, State.put_fld_ne _ _ _ _ _ _ _ _ hd, State.put_fld_ne _ _ _ _ _ _ _ _ hb]

theorem releaseSlot_busy (k : Nat) (s : State) : (releaseSlot k s).fld F.gcKeyslot_BUSY k = 0 :=
  (releaseSlot_fld_eq ..).trans ((State.put_fld_ne _ _ _ _ _ _ _ _ (by decide)).trans (State.put_fld ..))

theorem releaseSlot_disp (k : Nat) (s : State) : (releaseSlot k s).fld F.gcKeyslot_DISP k = 0 :=
  (releaseSlot_fld_eq ..).trans (State.put_fld ..)

theorem releaseSlot_grants (k : Nat) (s : State) : ((releaseSlot k s).pw.grants.any fun g => g.use == .key) = false := by
  simp [releaseSlot, returnUse]

theorem releaseSlot_frame (k : Nat) (s : State) : (releaseSlot k s).boot = s.boot ∧ (releaseSlot k s).eng = s.eng := ⟨rfl, rfl⟩

theorem markSlot_frame (k : Nat) (h : Option Nat) (s : State) :
    (markSlot k h s).boot.keyOp = s.boot.keyOp ∧ (markSlot k h s).eng = s.eng := by
  cases h <;> exact ⟨rfl, rfl⟩

theorem markSlot_some_fld (k v : Nat) (s : State) (g : Fld) (i j : Nat) :
    (markSlot k (some v) s).fld g i j = (s.put F.gcKeyslot_WRITTEN 1 k).fld g i j := rfl

theorem markSlot_some_keyHash (k v : Nat) (s : State) : (markSlot k (some v) s).boot.keyHash = Tab.set 0 s.boot.keyHash k v := rfl

theorem markSlot_none_eq (k : Nat) (s : State) : markSlot k none s = s.put F.gcKeyslot_REVOKED 1 k := rfl

/-- The slot at the end of its operation. -/
theorem releaseSlot_markSlot (k : Nat) (h : Option Nat) (s : State) :
    let t := releaseSlot k (markSlot k h s)
    (∀ v, h = some v → t.fld F.gcKeyslot_WRITTEN k = 1 ∧ Tab.get 0 t.boot.keyHash k = v)
      ∧ (h = none → t.fld F.gcKeyslot_REVOKED k = 1 ∧ t.boot.keyHash = s.boot.keyHash) := by
  dsimp only
  rw [releaseSlot_fld (by decide) (by decide), releaseSlot_fld (by decide) (by decide), (releaseSlot_frame ..).1]
  constructor
  · rintro v rfl
    rw [markSlot_some_fld, markSlot_some_keyHash]
    exact ⟨State.put_fld .., Tab.get_set_same ..⟩
  · rintro rfl
    rw [markSlot_none_eq]
    exact ⟨State.put_fld .., rfl⟩

/-- The end of an operation that has its leave. -/
theorem keyEnd_ends {s : State} {k : Nat} {h : Option Nat} (hop : s.boot.keyOp = some (k, h))
    (hleave : s.pw.grants.any (·.use == .key) = true) :
    let t := keyEnd s
    t.fld F.gcKeyslot_BUSY k = 0 ∧ t.fld F.gcKeyslot_DISP k = 0 ∧ t.boot.keyOp = none ∧ t.eng = s.eng
      ∧ (t.pw.grants.any fun g => g.use == .key) = false
      ∧ (∀ v, h = some v → t.fld F.gcKeyslot_WRITTEN k = 1 ∧ Tab.get 0 t.boot.keyHash k = v)
      ∧ (h = none → t.fld F.gcKeyslot_REVOKED k = 1 ∧ t.boot.keyHash = s.boot.keyHash) := by
  obtain ⟨hnone, heng⟩ := markSlot_frame k h (opTaken s)
  obtain ⟨hboot, heng'⟩ := releaseSlot_frame k (markSlot k h (opTaken s))
  dsimp only
  rw [keyEnd_of_op hop, hleave, if_neg (by decide), hboot, hnone, heng', heng, ← hboot]
  exact ⟨releaseSlot_busy .., releaseSlot_disp .., rfl, rfl, releaseSlot_grants .., releaseSlot_markSlot ..⟩

/-! ### The statement of key slots -/

theorem exec_keySlot {s : State} {w : Who} {k : Fin 4} (hs : s.heard w = true) (hw : w ∈ [Who.pf, .qspi, .mgmt]) :
    exec (.keyProgram w k) s = done s (finish w { st := keyRequest k 1 s })
      ∧ exec (.keyRevoke w k) s = done s (finish w { st := keyRequest k 2 s }) := by
  have hwrite : ∀ op, sysWrite w (fun _ => w ≠ .jtag) (keyprog w k op) s = finish w { st := keyRequest k op s } := fun op => by
    simp only [List.mem_cons, List.not_mem_nil, or_false] at hw
    rcases hw with rfl | rfl | rfl <;> simp [sysWrite, hs, allow, keyprog]
  exact ⟨congrArg (done s) (hwrite 1), congrArg (done s) (hwrite 2)⟩

theorem keySlotsAreWrittenOnce : Stated.KeySlotsAreWrittenOnce := by
  refine ⟨fun s w k hs hw => ⟨fun hbusy => ?_, fun hidle => ⟨fun h => ?_, fun h0 hk => ?_, fun h => ?_, fun h0 => ?_⟩⟩,
    fun s k h hop => ⟨fun hleave => ?_, fun hleave => ?_⟩⟩
  · obtain ⟨hprog, hrev⟩ := exec_keySlot (k := k) hs hw
    rw [keyRequest_of_busy hbusy] at hprog hrev
    exact ⟨⟨_, hprog, rfl⟩, ⟨_, hrev, rfl⟩⟩
  · exact ⟨_, (exec_keySlot hs hw).1, by rw [keyRequest_program_denied hidle h]⟩
  · refine does_served (exec_keySlot hs hw).1 fun _ _ _ => ?_
    rw [keyRequest_program hidle h0 hk]
    exact hwRequest_keyStarted s k (some s.keyData)
  · exact ⟨_, (exec_keySlot hs hw).2, by rw [keyRequest_revoke_denied hidle h]⟩
  · refine does_served (exec_keySlot hs hw).2 fun _ _ _ => ?_
    rw [keyRequest_revoke hidle h0]
    exact hwRequest_keyStarted s k none
  · exact ⟨_, rfl, by rw [keyEnd_of_op hop, hleave]; rfl⟩
  · exact ⟨_, rfl, keyEnd_ends hop hleave⟩

/-- Settles O25: a delta that is let through is a fold of shadow writes and a GO of GC.COMMIT, unless it first marks the functions to
be reset; a key slot's request is a request to the Ostler, and its end marks the slot. -/
theorem deltasAndKeySlots : Obligations.DeltasAndKeySlots := ⟨deltasAreCheckedAndApplied, keySlotsAreWrittenOnce⟩

end Sys2Proof.Machine
end

section
/-! What a function's reset and its release leave of a state: the steps that empty what the function had in every unit, push a task, or ask
for a stable's wake. -/

namespace Sys2Proof.Machine

/-- The fields that only the reset, the release, the drains and the leases themselves write. -/
def fnKept : List Nat := [F.fnStatus_STATE.id, F.fnStatus_INC.id, F.stBank_OWNER.id, F.pwLease_STATE.id, F.pwLease_FN.id]

/-- What the steps of a reset and of a release leave of a state, past those that are named after it: the functions, the boot, the time,
the lofts, and the fields above. -/
structure FnKeeps (s t : State) : Prop where
  fns : t.fns = s.fns
  boot : t.boot = s.boot
  tick : t.tick = s.tick
  loft : t.loft = s.loft
  fld : ∀ g : Fld, g.id ∈ fnKept → ∀ i j, t.fld g i j = s.fld g i j

namespace FnKeeps
variable {s t u : State}

theorem refl (s : State) : FnKeeps s s := ⟨rfl, rfl, rfl, rfl, fun _ _ _ _ => rfl⟩

theorem trans (h : FnKeeps s t) (k : FnKeeps t u) : FnKeeps s u :=
  ⟨k.fns.trans h.fns, k.boot.trans h.boot, k.tick.trans h.tick, k.loft.trans h.loft,
    fun g hg i j => (k.fld g hg i j).trans (h.fld g hg i j)⟩

/-- States that differ in other tables than these. -/
theorem of_tables (h : (t.act, t.fns, t.boot, t.tick, t.loft) = (s.act, s.fns, s.boot, s.tick, s.loft)) : FnKeeps s t := by
  simp only [Prod.mk.injEq] at h
  obtain ⟨hact, hfns, hboot, htick, hloft⟩ := h
  exact ⟨hfns, hboot, htick, hloft, fun g _ i j => by rw [State.fld, hact]; rfl⟩

theorem put {f : Fld} (h : FnKeeps s t) (hf : f.id ∉ fnKept) (v i j : Nat) : FnKeeps s (t.put f v i j) :=
  h.trans ⟨rfl, rfl, rfl, rfl, fun _ hg _ _ => State.put_fld_ne _ _ _ _ _ _ _ _ fun e => hf (e ▸ hg)⟩

theorem bump {f : Fld} (h : FnKeeps s t) (hf : f.id ∉ fnKept) (i j n : Nat) : FnKeeps s (t.bump f i j n) := h.put hf ..

theorem putShadow (h : FnKeeps s t) (f : Fld) (v i j : Nat) : FnKeeps s (t.putShadow f v i j) := h.trans (of_tables rfl)
theorem setE (h : FnKeeps s t) (n : Nat) (x : Eng) : FnKeeps s (t.setE n x) := h.trans (of_tables rfl)
theorem setSt (h : FnKeeps s t) (n : Nat) (x : Stb) : FnKeeps s (t.setSt n x) := h.trans (of_tables rfl)
theorem setIc (h : FnKeeps s t) (n : Nat) (x : IcS) : FnKeeps s (t.setIc n x) := h.trans (of_tables rfl)
theorem setPair (h : FnKeeps s t) (n : Nat) (x : PairS) : FnKeeps s (t.setPair n x) := h.trans (of_tables rfl)
theorem setPort (h : FnKeeps s t) (n : Nat) (x : PortS) : FnKeeps s (t.setPort n x) := h.trans (of_tables rfl)
theorem setCn (h : FnKeeps s t) (n : Nat) (x : CanS) : FnKeeps s (t.setCn n x) := h.trans (of_tables rfl)
theorem setMach (h : FnKeeps s t) (b m : Nat) (x : PmS) : FnKeeps s (t.setMach b m x) := h.trans (of_tables rfl)
theorem setCtr (h : FnKeeps s t) (i : Nat) (x : TCnt) : FnKeeps s (t.setCtr i x) := h.trans (of_tables rfl)
theorem setFrame (h : FnKeeps s t) (id : Nat) (x : Option YFrame) : FnKeeps s (t.setFrame id x) := h.trans (of_tables rfl)
theorem setQueue (h : FnKeeps s t) (p c : Nat) (q : List QEnt) : FnKeeps s (t.setQueue p c q) := h.trans (of_tables rfl)
theorem with_pw (s : State) (p : PwS) : FnKeeps s { s with pw := p } := of_tables rfl
theorem with_yard (s : State) (y : YardS) : FnKeeps s { s with yard := y } := of_tables rfl

theorem foldl {α : Type} {f : State → α → State} (h : FnKeeps s t) (hf : ∀ s x, FnKeeps s (f s x)) (l : List α) :
    FnKeeps s (l.foldl f t) := by
  induction l generalizing t with
  | nil => exact h
  | cons x l ih => exact ih (h.trans (hf t x))

theorem of_ite {c : Prop} [Decidable c] (ht : FnKeeps s t) (hu : FnKeeps s u) : FnKeeps s (if c then t else u) := by
  split
  · exact ht
  · exact hu

theorem of_ite_snd {α : Type} {c : Prop} [Decidable c] {x y : α × State} (hx : FnKeeps s x.2) (hy : FnKeeps s y.2) :
    FnKeeps s (if c then x else y).2 := by
  split
  · exact hx
  · exact hy

theorem fn (h : FnKeeps s t) (f : Nat) : t.fn f = s.fn f := by rw [State.fn, h.fns, State.fn]

theorem inc (h : FnKeeps s t) (f : Nat) : t.inc f = s.inc f := h.fld F.fnStatus_INC (by decide) ..

end FnKeeps

/-! ### A task is pushed, and its stable wakes (R115, R116, R126, R336) -/

theorem noteOverq_fnKeeps (f : Nat) (old : State) {s t : State} (h : FnKeeps s t) : FnKeeps s (noteOverq f old t) := by
  rcases noteOverq_cases f old t with e | e <;> rw [e]
  · exact h
  · exact h.put (by decide) ..

theorem grantEffect_wake_fnKeeps (n : Nat) (s : State) : FnKeeps s (grantEffect (.wake n) s) :=
  ((FnKeeps.refl s).put (f := F.stDqstat_WAKEP) (by decide) 0 n 0).setSt n _

theorem grant_wake_fnKeeps {n : Nat} {r : OReq} (hr : r.use = .wake n) (s : State) : FnKeeps s (grant r s) := by
  have htaken : ∀ p, FnKeeps s (State.bump { s with pw := p } F.pwOcnt_GRANT) := fun _ =>
    (FnKeeps.with_pw s _).bump (by decide) ..
  unfold grant
  rw [hr]
  exact (htaken _).trans (grantEffect_wake_fnKeeps n _)

theorem deferEffect_wake_fnKeeps (n : Nat) (s : State) : FnKeeps s (deferEffect (.wake n) s) :=
  (FnKeeps.refl s).put (f := F.stDqstat_WAKEP) (by decide) 1 n 0

/-- A request for a wake is refused, granted or deferred. -/
theorem hwRequest_wake_fnKeeps (n : Nat) (s : State) : FnKeeps s (hwRequest (.wake n) s) := by
  have hcount : ∀ {f : Fld}, f.id ∉ fnKept → ∀ i, FnKeeps s (s.bump f i) := fun hf i => (FnKeeps.refl s).bump hf ..
  unfold hwRequest ostlerRequest
  extract_lets
  refine .of_ite_snd (.refl s) (.of_ite_snd (.refl s) (.of_ite_snd (hcount (by decide) _)
    (.of_ite_snd (hcount (by decide) _) ?_)))
  extract_lets
  refine .of_ite_snd (noteOverq_fnKeeps _ _ ((FnKeeps.with_pw s _).trans (grant_wake_fnKeeps rfl _))) ?_
  exact ((FnKeeps.with_pw s _).bump (by decide) ..).trans (deferEffect_wake_fnKeeps n _)

theorem wakeStable_fnKeeps (n : Nat) (s : State) : FnKeeps s (wakeStable n s) :=
  .of_ite (.of_ite (.refl s) (((FnKeeps.refl s).setSt n _).trans (hwRequest_wake_fnKeeps n _))) (.refl s)

theorem deferTask_fnKeeps (f n : Nat) (s : State) : FnKeeps s (deferTask f n s) :=
  .of_ite (noteOverq_fnKeeps f s (((FnKeeps.refl s).bump (by decide) ..).put (f := F.fnStatus_OVERQ) (by decide) ..)) (.refl s)

theorem syncTask_fnKeeps (e : Nat) (s : State) : FnKeeps s (syncTask e s) := (FnKeeps.refl s).setE ..

theorem placeIn_fnKeeps (room e : Nat) (t : Task) (s : State) : FnKeeps s (placeIn room e t s) := by
  unfold placeIn
  extract_lets n
  refine .trans (.of_ite ?_ ?_) (deferTask_fnKeeps ..)
  · exact ((FnKeeps.refl s).setE ..).trans (syncTask_fnKeeps ..)
  · exact (FnKeeps.refl s).setSt ..

theorem place_fnKeeps (e : Nat) (t : Task) (s : State) : FnKeeps s (place e t s) :=
  (((FnKeeps.refl s).setSt (e / 8) _).trans (placeIn_fnKeeps ..)).trans (wakeStable_fnKeeps ..)

theorem pushTask_fnKeeps (src : Option Nat) (t : Task) (s : State) : FnKeeps s (pushTask src t s).2 := by
  have hcount : ∀ {f : Fld}, f.id ∉ fnKept → ∀ i, FnKeeps s (s.bump f i) := fun hf i => (FnKeeps.refl s).bump hf ..
  unfold pushTask
  extract_lets f st
  refine .of_ite_snd (hcount (by decide) _) (.of_ite_snd (.refl s) (.of_ite_snd (.refl s) (.of_ite_snd (.refl s)
    (.of_ite_snd (hcount (by decide) _) (.of_ite_snd (hcount (by decide) _) ?_)))))
  split
  · exact .refl s
  · extract_lets n
    refine .of_ite_snd (hcount (by decide) _) (.of_ite_snd (hcount (by decide) _) (.of_ite_snd ?_ (place_fnKeeps ..)))
    exact (((FnKeeps.refl s).setE ..).bump (by decide) ..).trans (placeIn_fnKeeps ..)

/-- The start task of function `f`, of the layout's word 0 `w` and the incarnation that the function has (R59). -/
def startTask (f : Nat) (s : State) (w : Word) : Task :=
  ⟨wd (bits w.toNat 39 9 * 2 ^ 39 + s.inc f * 2 ^ 31 + 1 * 2 ^ 29 + bits w.toNat 28 1 * 2 ^ 28 + bits w.toNat 0 27), 0⟩

/-- The layout's entry for a function's start task, where it has one, is pushed. The push is a parameter: beside a match that is still to
be reduced, the kernel would evaluate `pushTask` for its second part. -/
def startWith (push : Word → State) (s : State) : Option (Nat × Word) → State
  | none => s
  | some (_, w) => push w

theorem pushStart_eq (f : Nat) (s : State) :
    pushStart f s = startWith (fun w => (pushTask none (startTask f s w) s).2) s (s.boot.starts.find? (·.1 == f)) := rfl

theorem startWith_cases (push : Word → State) (s : State) (o : Option (Nat × Word)) :
    startWith push s o = s ∨ ∃ w, startWith push s o = push w := by
  cases o with
  | none => exact .inl rfl
  | some p => exact .inr ⟨p.2, rfl⟩

theorem pushStart_fnKeeps (f : Nat) (s : State) : FnKeeps s (pushStart f s) := by
  rw [pushStart_eq]
  rcases startWith_cases _ s _ with h | ⟨w, h⟩ <;> rw [h]
  · exact .refl s
  · exact pushTask_fnKeeps ..

/-! ### The engines of a function stop (R58) -/

theorem countOverrun_fnKeeps (e : Nat) (s : State) : FnKeeps s (countOverrun e s) := by
  unfold countOverrun
  split
  · exact .of_ite ((FnKeeps.refl s).bump (by decide) ..) (.refl s)
  · exact .refl s

theorem countDone_fnKeeps (e : Nat) (s : State) : FnKeeps s (countDone e s) := by
  have hcount : FnKeeps s (noteCompleted (e / 8) (countOverrun e (s.bump F.stCnt0_DONE (e / 8)))) :=
    (((FnKeeps.refl s).bump (by decide) ..).trans (countOverrun_fnKeeps e _)).setSt ..
  rw [countDone_eq]
  exact .of_ite (hcount.put (by decide) ..) hcount

theorem endTask_fnKeeps (e : Nat) (keep : Bool) (s : State) : FnKeeps s (endTask e keep s) :=
  .of_ite ((countDone_fnKeeps e s).setE ..) (.refl s)

/-! ### What the function had with others is withdrawn (R58, R63) -/

theorem icWithdraw_fnKeeps (p : IcReq → Bool) (s : State) : FnKeeps s (icWithdraw p s) := by
  refine .foldl (.refl s) (fun s t => ?_) _
  extract_lets x dead q w n u
  have hu : FnKeeps s u := (FnKeeps.refl s).setIc ..
  exact .of_ite (hu.bump (by decide) ..) hu

theorem closeFrames_fnKeeps (f : Nat) (s : State) : FnKeeps s (closeFrames f s) := by
  refine .foldl (.refl s) (fun s e => ?_) _
  split
  · exact (FnKeeps.refl s).setFrame ..
  · exact .refl s

theorem unqueue_fnKeeps (id : Nat) (s : State) : FnKeeps s (unqueue id s) := by
  unfold unqueue
  extract_lets y had cut due
  exact (FnKeeps.with_yard s _).foldl (fun s p => (FnKeeps.refl s).setPort ..) had

theorem dropFrame_fnKeeps (s : State) (id : Nat) : FnKeeps s (dropFrame s id) := by
  unfold dropFrame
  split
  · exact .refl s
  · extract_lets recv u k
    have hu : FnKeeps s u := (unqueue_fnKeeps id s).foldl (fun s _ => (FnKeeps.refl s).bump (by decide) ..) _
    exact .of_ite ((hu.put (f := F.ydStat_FREE) (by decide) ..).setFrame ..) (hu.setFrame ..)

theorem touchPair_fnKeeps (m : Nat) (read : Bool) (s : State) : FnKeeps s (touchPair m read s) :=
  .of_ite ((FnKeeps.refl s).setPair ..) (.of_ite ((FnKeeps.refl s).setPair ..) (.refl s))

theorem finalDisp_fnKeeps (m sd d : Nat) (s : State) : FnKeeps s (finalDisp m sd d s) :=
  .of_ite ((FnKeeps.refl s).put (by decide) ..) (.refl s)

theorem emptyQueue_fnKeeps (m sd : Nat) (f : Option Nat) (s : State) : FnKeeps s (emptyQueue m sd f s) := by
  unfold emptyQueue
  extract_lets q hit u v w x
  have hv : FnKeeps s v := .of_tables rfl
  have hw : FnKeeps s w := hv.bump (by split <;> decide) ..
  refine .of_ite (hv.trans (touchPair_fnKeeps ..)) ?_
  have hx : FnKeeps s x := by
    unfold x
    split
    · exact hw.bump (by decide) ..
    · exact hw
  exact (hx.trans (finalDisp_fnKeeps ..)).trans (touchPair_fnKeeps ..)

theorem mbResetEmpty_fnKeeps (f : Nat) (s : State) : FnKeeps s (mbResetEmpty f s) :=
  .foldl (.refl s) (fun s _ => (emptyQueue_fnKeeps _ 0 _ s).trans (emptyQueue_fnKeeps _ 1 _ _)) _

theorem pmOwnerReset_fnKeeps (f : Nat) (s : State) : FnKeeps s (pmOwnerReset f s) := by
  refine .foldl (.refl s) (fun s k => ?_) _
  extract_lets b m u v
  have hu : FnKeeps s u := .foldl (.refl s) (fun s j => (.of_tables rfl : FnKeeps s (keepPin _ s))) _
  exact ((hu.put (f := F.pmCtl_RUN) (by decide) 0 b m).setMach ..).setMach ..

theorem canAbort_fnKeeps (n k : Nat) (s : State) : FnKeeps s (canAbort n k s) := by
  have hmark : FnKeeps s (s.put F.canTxCtl_ABTD 1 n k) := (FnKeeps.refl s).put (by decide) ..
  exact .of_ite (.refl s) (.of_ite (hmark.setCn ..) (hmark.put (by decide) ..))

theorem canOwnerReset_fnKeeps (f : Nat) (s : State) : FnKeeps s (canOwnerReset f s) := by
  refine .foldl (.refl s) (fun s n => ?_) _
  have hwithdraw : FnKeeps s (canWithdraw n s) := .foldl (.refl s) (fun s k => canAbort_fnKeeps n k s) _
  exact (hwithdraw.setCn ..).foldl (fun s j => ((FnKeeps.refl s).put (by decide) ..).put (by decide) ..) _

theorem purgeStale_fnKeeps (s : State) : FnKeeps s (purgeStale s) := by
  unfold purgeStale
  extract_lets bad gone es u v
  refine .of_ite (.refl s) ?_
  have hu : FnKeeps s u :=
    .foldl (.refl s) (fun s e => .of_ite (((FnKeeps.refl s).setE ..).trans (syncTask_fnKeeps ..)) (.refl s)) _
  exact (hu.foldl (fun s n => (FnKeeps.refl s).setSt ..) _).foldl (fun s _ => (FnKeeps.refl s).bump (by decide) ..) _

theorem mbClearHeld_fnKeeps (f : Nat) (s : State) : FnKeeps s (mbClearHeld f s) :=
  .foldl (.refl s) (fun s _ => .foldl (.refl s) (fun s _ => .of_ite ((FnKeeps.refl s).put (by decide) ..) (.refl s)) _) _

theorem clearNewMarks_fnKeeps (f : Nat) (s : State) : FnKeeps s (clearNewMarks f s) :=
  .foldl (.refl s) (fun s _ => (FnKeeps.refl s).put (by decide) ..) _

theorem icAbandon_fnKeeps (f : Nat) (banks : List Nat) (s : State) : FnKeeps s (icAbandon f banks s) :=
  .foldl (.refl s) (fun s _ => .of_ite (.refl s) (((FnKeeps.refl s).setIc ..).bump (by decide) ..)) _

theorem copyDone_fnKeeps (id : Nat) (how : CopyEnd) (s : State) : FnKeeps s (copyDone id how s) := by
  have hfree : ∀ n, FnKeeps s (freeCells n s) := fun _ => (FnKeeps.refl s).put (by decide) ..
  unfold copyDone
  split
  · exact .refl s
  · exact .of_ite ((FnKeeps.refl s).setFrame ..) (.of_ite ((hfree _).setFrame ..) ((hfree _).setFrame ..))

theorem abandonDelivery_fnKeeps (f p c : Nat) (s : State) (q : QEnt) : FnKeeps s (abandonDelivery f p c s q) := by
  unfold abandonDelivery
  refine .of_ite (.refl s) ?_
  extract_lets u
  have hu : FnKeeps s u := ((FnKeeps.refl s).setQueue ..).bump (by decide) ..
  split
  · exact .trans (.of_ite ((hu.setFrame ..).bump (by decide) ..) hu) (copyDone_fnKeeps ..)
  · exact hu

theorem abandonDeliveries_fnKeeps (f : Nat) (s : State) : FnKeeps s (abandonDeliveries f s) :=
  .foldl (.refl s) (fun s _ => .foldl (.refl s) (abandonDelivery_fnKeeps f _ _) _) _

theorem startDrain_fnKeeps (n b g : Nat) (s : State) : FnKeeps s (startDrain n b g s) :=
  (((FnKeeps.refl s).setSt ..).put (by decide) ..).put (by decide) ..

end Sys2Proof.Machine
end

section
/-! The statement of a reset's request: it is ignored, held, or begins; and a held one begins at its mark. -/

namespace Sys2Proof.Tab
variable {α : Type}

/-- What the default lacks, the entry that the key finds has. -/
theorem mem_keys_of_get {d : α} {t : Tab α} {n : Nat} {p : α → Bool} (hd : p d = false) (h : p (get d t n) = true) :
    n ∈ (t.filter fun e => p e.2).map (·.1) := by
  induction t with
  | nil => exact absurd (hd.symm.trans h) Bool.false_ne_true
  | cons e t ih =>
    obtain ⟨k, v⟩ := e
    rw [List.filter_cons]
    by_cases hk : k = n
    · have hv : p v = true := by simpa [get, hk] using h
      rw [if_pos hv, ← hk]
      exact List.mem_cons_self
    · have htail := ih (by simpa [get, hk] using h)
      split
      · exact List.mem_cons_of_mem _ htail
      · exact htail

end Sys2Proof.Tab

namespace Sys2Proof.Machine

/-! ### What a reset withdraws before it stops the engines (R58) -/

/-- The requests of the function with the functions that are under reset too are counted in either's ABANDON (R60). -/
def countMutual (f : Nat) (s : State) : State :=
  (s.knownFns.filter fun g => g ≠ f && s.fnState g = 3).foldl (fun s g =>
    (s.bump F.fnCnt_ABANDON f 0 ((s.fn g).cut.filter (· == f)).length).bump
      F.fnCnt_ABANDON g 0 ((s.fn f).cut.filter (· == g)).length) s

/-- STATE is RESETTING, no hold pends, and no release awaits a bank. -/
def resetMarked (f : Nat) (s : State) : State :=
  let t := (s.put F.fnStatus_STATE 3 f).put F.fnStatus_RSTPEND 0 f
  t.setFn f { t.fn f with releasing := false, awaits := [], stepAt := t.tick, cut := t.icOwners f }

/-- What the function had outstanding with others is cancelled. -/
def resetWithdrawn (f : Nat) (s : State) : State :=
  closeFrames f (icWithdraw (fun r => r.f == f) (cancelLeases f (countMutual f (resetMarked f s))))

/-- The engine is to stop: halted, it loses its task at once. -/
def requestStop (s : State) (e : Nat) : State :=
  if s.on F.dbgStat_HALTED (e / 8) (e % 8) then discardTask e s else s.setE e { s.e e with stopPend := true }

theorem startReset_eq (f : Nat) (s : State) :
    startReset f s = ((resetWithdrawn f s).running f).foldl requestStop (resetWithdrawn f s) := rfl

theorem countMutual_fnKeeps (f : Nat) (s : State) : FnKeeps s (countMutual f s) :=
  .foldl (.refl s) (fun s _ => ((FnKeeps.refl s).bump (by decide) ..).bump (by decide) ..) _

/-- A fold of steps that leave a part of the state leaves it. -/
theorem foldl_part {α β : Type} {p : State → β} {f : State → α → State} (h : ∀ s x, p (f s x) = p s) (l : List α) (s : State) :
    p (l.foldl f s) = p s := by
  induction l generalizing s with
  | nil => rfl
  | cons x l ih => exact (ih _).trans (h s x)

theorem countMutual_eng (f : Nat) (s : State) : (countMutual f s).eng = s.eng := by
  refine foldl_part (p := State.eng) (fun s g => ?_) _ _
  rw [State.bump_eng, State.bump_eng]

theorem icWithdraw_eng (p : IcReq → Bool) (s : State) : (icWithdraw p s).eng = s.eng := by
  refine foldl_part (p := State.eng) (fun s t => ?_) _ _
  dsimp only
  split <;> rfl

theorem closeFrames_eng (f : Nat) (s : State) : (closeFrames f s).eng = s.eng := by
  refine foldl_part (p := State.eng) (fun s e => ?_) _ _
  split <;> rfl

/-! ### Leases are cancelled (R339) -/

/-- The lease is dropped, and CANC shows it. -/
def cancelLease (s : State) (i : Nat) : State := (dropLease i s).put F.pwLease_CANC 1 i

theorem cancelLease_fld {g : Fld} (hs : g.id ≠ F.pwLease_STATE.id) (hc : g.id ≠ F.pwLease_CANC.id) (s : State) (i a b : Nat) :
    (cancelLease s i).fld g a b = s.fld g a b :=
  (State.put_fld_ne _ _ _ _ _ _ _ _ hc).trans (State.put_fld_ne _ _ _ _ _ _ _ _ hs)

theorem cancelLease_state (s : State) (i k : Nat) :
    (cancelLease s i).fld F.pwLease_STATE k = 0 ∨ F.pwLease_STATE.key k 0 ≠ F.pwLease_STATE.key i 0
      ∧ (cancelLease s i).fld F.pwLease_STATE k = s.fld F.pwLease_STATE k := by
  have hcanc : (cancelLease s i).fld F.pwLease_STATE k = (dropLease i s).fld F.pwLease_STATE k :=
    State.put_fld_ne _ _ _ _ _ _ _ _ (by decide)
  rw [hcanc]
  by_cases hk : F.pwLease_STATE.key k 0 = F.pwLease_STATE.key i 0
  · left
    rw [State.fld, hk]
    exact State.put_fld ..
  · exact .inr ⟨hk, State.put_fld_at _ _ _ _ _ _ _ hk⟩

theorem foldl_cancelLease_state {k : Nat} (l : List Nat) (s : State) (h : k ∈ l ∨ s.fld F.pwLease_STATE k = 0) :
    (l.foldl cancelLease s).fld F.pwLease_STATE k = 0 := by
  induction l generalizing s with
  | nil => exact h.resolve_left List.not_mem_nil
  | cons i l ih =>
    refine ih _ ?_
    rcases cancelLease_state s i k with h0 | ⟨hk, hsame⟩
    · exact .inr h0
    · refine h.imp (fun hm => (List.mem_cons.mp hm).resolve_left fun e => hk (e ▸ rfl)) hsame.trans

theorem cancelLeases_state {f k : Nat} {s : State} (hk : k < 256) (hs : s.fld F.pwLease_STATE k ≠ 0) (hf : s.fld F.pwLease_FN k = f) :
    (cancelLeases f s).fld F.pwLease_STATE k = 0 :=
  foldl_cancelLease_state _ _ (.inl (List.mem_filter.mpr ⟨List.mem_range.mpr hk, by simp [hs, hf]⟩))

theorem cancelLeases_frame (f : Nat) (s : State) :
    (cancelLeases f s).eng = s.eng ∧ (cancelLeases f s).fns = s.fns ∧ (cancelLeases f s).tick = s.tick
      ∧ (cancelLeases f s).loft = s.loft := by
  have hpart : ∀ {β : Type} (p : State → β), (∀ s i, p (cancelLease s i) = p s) → p (cancelLeases f s) = p s := fun p h =>
    foldl_part (f := cancelLease) h _ _
  exact ⟨hpart State.eng fun _ _ => rfl, hpart State.fns fun _ _ => rfl, hpart State.tick fun _ _ => rfl,
    hpart State.loft fun _ _ => rfl⟩

theorem cancelLeases_inc (f g : Nat) (s : State) : (cancelLeases f s).inc g = s.inc g :=
  foldl_part (f := cancelLease) (p := fun s => s.inc g) (fun s i => cancelLease_fld (by decide) (by decide) s i g 0) _ _

/-! ### The function's engines are to stop (R58, R108) -/

/-- What the stops of a function's engines leave: the time, the lofts, the fields above, the releases and the step times of this tick, and
the stops that pend. -/
structure StopKeeps (s t : State) : Prop where
  tick : t.tick = s.tick
  loft : t.loft = s.loft
  fld : ∀ g : Fld, g.id ∈ fnKept → ∀ i j, t.fld g i j = s.fld g i j
  releasing : ∀ f, (t.fn f).releasing = (s.fn f).releasing
  stepAt : ∀ f, (s.fn f).stepAt = s.tick → (t.fn f).stepAt = s.tick
  stopPend : ∀ e, (s.e e).stopPend = true → (t.e e).stopPend = true

theorem StopKeeps.refl (s : State) : StopKeeps s s := ⟨rfl, rfl, fun _ _ _ _ => rfl, fun _ => rfl, fun _ h => h, fun _ h => h⟩

theorem StopKeeps.trans {s t u : State} (h : StopKeeps s t) (k : StopKeeps t u) : StopKeeps s u where
  tick := k.tick.trans h.tick
  loft := k.loft.trans h.loft
  fld := fun g hg i j => (k.fld g hg i j).trans (h.fld g hg i j)
  releasing := fun f => (k.releasing f).trans (h.releasing f)
  stepAt := fun f hf => (k.stepAt f ((h.stepAt f hf).trans h.tick.symm)).trans h.tick
  stopPend := fun e he => k.stopPend e (h.stopPend e he)

theorem FnKeeps.stopKeeps {s t : State} (h : FnKeeps s t) (he : ∀ e, (s.e e).stopPend = true → (t.e e).stopPend = true) :
    StopKeeps s t where
  tick := h.tick
  loft := h.loft
  fld := h.fld
  releasing := fun f => by rw [h.fn]
  stepAt := fun f hf => by rw [h.fn, hf]
  stopPend := he

theorem setE_stopPend {s : State} {e : Nat} {x : Eng} (hx : x.stopPend = true) (k : Nat) (h : k = e ∨ (s.e k).stopPend = true) :
    ((s.setE e x).e k).stopPend = true := by
  by_cases hk : k = e
  · rw [hk, State.setE_e, hx]
  · rw [State.setE_e_ne _ _ _ _ hk]
    exact h.resolve_left hk

theorem countDone_eng (e : Nat) (s : State) : (countDone e s).eng = s.eng := by
  have hover : ∀ s, (countOverrun e s).eng = s.eng := fun s => by
    unfold countOverrun
    split
    · split <;> rfl
    · rfl
  rw [countDone_eq]
  dsimp only
  split <;> exact hover _

/-- A task that ends leaves the other engines. -/
theorem endTask_e_ne {e k : Nat} (h : k ≠ e) (keep : Bool) (s : State) : (endTask e keep s).e k = s.e k := by
  unfold endTask
  split
  · rw [leaveTask, State.setE_e_ne _ _ _ _ h, State.e, countDone_eng, State.e]
  · rfl

theorem noteStopped_stopKeeps (f : Nat) (s : State) : StopKeeps s (noteStopped f s) := by
  unfold noteStopped
  split
  · refine ⟨rfl, rfl, fun _ _ _ _ => rfl, fun g => ?_, fun g hg => ?_, fun _ h => h⟩
    · by_cases h : g = f
      · rw [h, State.setFn_fn]
      · rw [State.setFn_fn_ne _ _ _ _ h]
    · by_cases h : g = f
      · rw [h, State.setFn_fn]
      · rwa [State.setFn_fn_ne _ _ _ _ h]
  · exact .refl s

/-- The task has ended, and the engine keeps its descriptor for A and X. -/
def dropTask (e : Nat) (s : State) : State :=
  (endTask e true s).setE e { (endTask e true s).e e with cur := (s.e e).cur, stopPend := true }

theorem discardTask_eq (e : Nat) (s : State) : discardTask e s = noteStopped (s.e e).fn (dropTask e s) := rfl

theorem dropTask_stopPend {s : State} {e k : Nat} (h : k = e ∨ (s.e k).stopPend = true) : ((dropTask e s).e k).stopPend = true := by
  refine setE_stopPend rfl k ?_
  by_cases hk : k = e
  · exact .inl hk
  · exact .inr (by rw [endTask_e_ne hk]; exact h.resolve_left hk)

theorem dropTask_stopKeeps (e : Nat) (s : State) : StopKeeps s (dropTask e s) :=
  ((endTask_fnKeeps e true s).setE e _).stopKeeps fun _ h => dropTask_stopPend (.inr h)

theorem requestStop_stopKeeps (s : State) (e : Nat) : StopKeeps s (requestStop s e) := by
  unfold requestStop
  split
  · rw [discardTask_eq]
    exact (dropTask_stopKeeps e s).trans (noteStopped_stopKeeps ..)
  · exact ((FnKeeps.refl s).setE ..).stopKeeps fun k h => setE_stopPend rfl k (.inr h)

theorem requestStop_stopPend (s : State) (e : Nat) : ((requestStop s e).e e).stopPend = true := by
  unfold requestStop
  split
  · rw [discardTask_eq]
    exact (noteStopped_stopKeeps ..).stopPend e (dropTask_stopPend (.inl rfl))
  · exact setE_stopPend rfl e (.inl rfl)

theorem foldl_requestStop_stopKeeps (l : List Nat) (s : State) : StopKeeps s (l.foldl requestStop s) := by
  induction l generalizing s with
  | nil => exact .refl s
  | cons e l ih => exact (requestStop_stopKeeps s e).trans (ih _)

theorem foldl_requestStop_stopPend {e : Nat} (l : List Nat) (s : State) (h : e ∈ l) : ((l.foldl requestStop s).e e).stopPend = true := by
  induction l generalizing s with
  | nil => exact absurd h List.not_mem_nil
  | cons k l ih =>
    rcases List.mem_cons.mp h with rfl | h
    · exact (foldl_requestStop_stopKeeps l _).stopPend e (requestStop_stopPend s e)
    · exact ih _ h

theorem mem_running {s : State} {e f : Nat} (ht : (s.e e).tv = true) (hf : (s.e e).fn = f) : e ∈ s.running f := by
  have hruns : ((s.e e).tv && (s.e e).fn == f) = true := by simp [ht, hf]
  exact Tab.mem_keys_of_get (d := ({} : Eng)) (p := fun x => x.tv && x.fn == f) rfl hruns

/-! ### A reset begins (R55, R58) -/

theorem resetMarked_fld {g : Fld} (hs : g.id ≠ F.fnStatus_STATE.id) (hp : g.id ≠ F.fnStatus_RSTPEND.id) (f : Nat) (s : State)
    (i j : Nat) : (resetMarked f s).fld g i j = s.fld g i j := by
  rw [resetMarked, State.setFn_fld_get, State.put_fld_ne _ _ _ _ _ _ _ _ hp, State.put_fld_ne _ _ _ _ _ _ _ _ hs]

theorem resetWithdrawn_frame (f : Nat) (s : State) :
    let t := resetWithdrawn f s
    t.tick = s.tick ∧ t.loft = s.loft ∧ t.eng = s.eng ∧ t.fns = (resetMarked f s).fns ∧ t.inc f = s.inc f := by
  obtain ⟨heng, hfns, htick, hloft⟩ := cancelLeases_frame f (countMutual f (resetMarked f s))
  have hbefore := countMutual_fnKeeps f (resetMarked f s)
  have hafter := (icWithdraw_fnKeeps (fun r => r.f == f) (cancelLeases f (countMutual f (resetMarked f s)))).trans
    (closeFrames_fnKeeps f _)
  refine ⟨hafter.tick.trans (htick.trans hbefore.tick), hafter.loft.trans (hloft.trans hbefore.loft), ?_,
    hafter.fns.trans (hfns.trans hbefore.fns), ?_⟩
  · rw [resetWithdrawn, closeFrames_eng, icWithdraw_eng, heng, countMutual_eng]
    rfl
  · rw [resetWithdrawn, hafter.inc, cancelLeases_inc, hbefore.inc]
    exact resetMarked_fld (by decide) (by decide) f s f 0

theorem resetWithdrawn_lease {f k : Nat} {s : State} (hk : k < 256) (hs : s.fld F.pwLease_STATE k = 2)
    (hf : s.fld F.pwLease_FN k = f) : (resetWithdrawn f s).fld F.pwLease_STATE k = 0 := by
  have hbefore := countMutual_fnKeeps f (resetMarked f s)
  rw [resetWithdrawn, (closeFrames_fnKeeps ..).fld _ (by decide), (icWithdraw_fnKeeps ..).fld _ (by decide)]
  refine cancelLeases_state hk ?_ ?_
  · rw [hbefore.fld _ (by decide), resetMarked_fld (by decide) (by decide), hs]
    decide
  · rw [hbefore.fld _ (by decide), resetMarked_fld (by decide) (by decide), hf]

/-- A reset that has begun: it waits for the stops of its engines, and no lease, hold or release of the function is left. -/
def Begun (f : Fin 512) (s t : State) : Prop :=
  t.fld F.fnStatus_STATE f = 3 ∧ t.fld F.fnStatus_RSTPEND f = 0 ∧ t.inc f = s.inc f ∧ (t.fn f).releasing = false
    ∧ (t.fn f).stepAt = s.tick
    ∧ (∀ e : Fin 128, (s.e e).tv = true → (s.e e).fn = f.val → (t.e e).stopPend = true)
    ∧ (∀ i < 256, s.fld F.pwLease_STATE i = 2 → s.fld F.pwLease_FN i = f.val → t.fld F.pwLease_STATE i = 0) ∧ t.loft = s.loft

theorem startReset_begun (f : Fin 512) (s : State) : Begun f s (startReset f s) := by
  obtain ⟨htick, hloft, heng, hfns, hinc⟩ := resetWithdrawn_frame f s
  have hstop : StopKeeps (resetWithdrawn f s) (startReset f s) := foldl_requestStop_stopKeeps ((resetWithdrawn f s).running f) _
  have hfn : (resetWithdrawn f s).fn f = { s.fn f with
      releasing := false, awaits := [], stepAt := s.tick
      cut := ((s.put F.fnStatus_STATE 3 f).put F.fnStatus_RSTPEND 0 f).icOwners f } := by
    rw [State.fn, hfns]
    exact State.setFn_fn ..
  have he : ∀ e, (resetWithdrawn f s).e e = s.e e := fun e => by rw [State.e, heng, State.e]
  have hmarks := ResetKeeps.startReset f s
  refine ⟨?_, ?_, (hstop.fld F.fnStatus_INC (by decide) _ _).trans hinc, ?_, ?_, fun e ht hf => ?_, fun i hi h2 hf => ?_,
    hstop.loft.trans hloft⟩
  · rw [hmarks.fld _ (by decide), State.put_fld_ne _ _ _ _ _ _ _ _ (by decide)]
    exact State.put_fld ..
  · rw [hmarks.fld _ (by decide)]
    exact State.put_fld ..
  · rw [hstop.releasing, hfn]
  · rw [hstop.stepAt f (by rw [hfn, htick]), htick]
  · rw [startReset_eq]
    exact foldl_requestStop_stopPend _ _ (mem_running (by rwa [he]) (by rwa [he]))
  · rw [hstop.fld _ (by decide)]
    exact resetWithdrawn_lease hi h2 hf

/-! ### The request and the end of a hold (R55, R57) -/

theorem requestReset_of_idle {f : Nat} {s : State} (h : f = 0 ∨ s.fnState f = 0 ∨ s.fnState f = 3 ∨ s.fld F.fnStatus_RSTPEND f ≠ 0) :
    requestReset f s = s := if_pos (by rwa [State.on_eq_true])

section
variable {f : Nat} {s : State} (hf : f ≠ 0) (hs : s.fnState f ∈ [1, 2]) (hp : s.fld F.fnStatus_RSTPEND f = 0)
include hf hs hp

theorem not_idle_of_live : ¬ (f = 0 ∨ s.fnState f = 0 ∨ s.fnState f = 3 ∨ s.on F.fnStatus_RSTPEND f = true) := by
  rw [State.on_eq_true]
  simp only [List.mem_cons, List.not_mem_nil, or_false] at hs
  omega

/-- Within 64 µs of the last reset's end the request is held. -/
theorem requestReset_of_early {x : Nat} (hx : (s.fn f).lastDone = some x) (hearly : s.tick < x + 16000) :
    requestReset f s = s.put F.fnStatus_RSTPEND 1 f := by
  rw [requestReset, if_neg (not_idle_of_live hf hs hp), hx]
  exact if_pos hearly

theorem requestReset_of_due (hdue : (s.fn f).lastDone = none ∨ ∃ x, (s.fn f).lastDone = some x ∧ x + 16000 ≤ s.tick) :
    requestReset f s = startReset f s := by
  rw [requestReset, if_neg (not_idle_of_live hf hs hp)]
  rcases hdue with h | ⟨x, h, hx⟩ <;> rw [h]
  exact if_neg (Nat.not_lt.mpr hx)
end

theorem passTo_of_past {t : Nat} {s : State} (h : t ≤ s.tick) : passTo t s = s := by
  rw [passTo, Nat.sub_eq_zero_of_le h]
  rfl

/-- A write of FN[f].CTL by one who may make it (R57). -/
theorem fnCtlWrite_of_may {w : Who} {f : Nat} {s : State} (hs : s.heard w = true) (ha : s.applied = true) (hm : s.mayFnCtl w f = true)
    (g : State → State) : fnCtlWrite w f g s = finish w { st := g s } := by
  have hjtag : w ≠ .jtag := by
    rintro rfl
    exact absurd hm Bool.false_ne_true
  unfold fnCtlWrite
  rw [if_pos hs, open_, if_pos ha, hm]
  cases w <;> rfl

/-- A virtual function that is not bound to the entry is ignored (R57). -/
theorem fnCtlWrite_of_unbound {r : Fin 15} {f : Nat} {s : State} (hs : s.heard (.vf r) = true) (ha : s.applied = true)
    (hf : s.vfOf f ≠ r.val + 1) (g : State → State) : fnCtlWrite (.vf r) f g s = finish (.vf r) { st := s } := by
  have hm : s.mayFnCtl (.vf r) f = false := by simp [State.mayFnCtl, State.supervisor, hf]
  unfold fnCtlWrite
  rw [if_pos hs, open_, if_pos ha, hm]
  rfl

/-- One who may write FN[f].CTL: a supervisor, or the virtual function that is bound to the entry (R57). -/
theorem mayFnCtl_of_bound {w : Who} {f : Nat} {s : State} (h : s.supervisor w = true ∨ ∃ r, w = .vf r ∧ s.vfOf f = r.val + 1) :
    s.mayFnCtl w f = true := by
  rcases h with h | ⟨r, rfl, h⟩ <;> simp [State.mayFnCtl, h]

/-- The end of a command touches nothing that a reset's beginning is about. -/
theorem Begun.served {f : Fin 512} {s u : State} (h : Begun f s u) (p : List Instr) (o : List Out) (x : HostS) :
    Begun f s { u with pending := p, out := o, host := x } := h

theorem functionResetsBegin : Stated.FunctionResetsBegin := by
  refine ⟨fun s w f hs ha => ⟨fun r hw hr => ?_, fun hm _ => ?_⟩, fun s f => ⟨fun hp => ?_, fun x hp hx hdue => ?_⟩⟩
  · subst hw
    exact ⟨_, congrArg (done s) (fnCtlWrite_of_unbound hs ha hr _), rfl⟩
  · have hexec : exec (.fnReset w f) s = done s (finish w { st := requestReset f s }) :=
      congrArg (done s) (fnCtlWrite_of_may hs ha (mayFnCtl_of_bound hm) _)
    refine ⟨fun hidle => ⟨_, hexec, ?_⟩, fun hf hst hp => ⟨fun x hx hearly => ⟨_, hexec, ?_⟩, fun hlate => ?_⟩⟩
    · rw [requestReset_of_idle (by simpa using hidle)]
    · rw [requestReset_of_early (by simpa using hf) hst hp hx hearly]
    · rw [requestReset_of_due (by simpa using hf) hst hp hlate] at hexec
      exact does_served hexec (startReset_begun f s).served
  · refine ⟨_, rfl, ?_⟩
    rw [holdExpire, if_pos (by rw [State.on_eq_false.mpr hp]; rfl)]
  · have hbegins : holdExpire f s = startReset f s := by
      rw [holdExpire, if_neg (by rw [State.on_eq_true.mpr hp]; exact Bool.false_ne_true), hx]
      dsimp only
      rw [passTo_of_past hdue]
    refine ⟨_, congrArg (done s) hbegins, ?_⟩
    exact (startReset_begun f s).served ..

end Sys2Proof.Machine
end

section
/-! What the end of a reset leaves of a state: the drain of the yard, while time passes, and the drains of the function's banks. -/

namespace Sys2Proof.Machine

/-! ### What the end of a reset keeps -/

/-- What the steps at the end of a reset leave of a state: whether a delta waits, the functions that it deletes, and the fields that `P`
names. -/
structure EndKeeps (P : Fld → Nat → Nat → Prop) (s t : State) : Prop where
  wait : t.boot.deltaWait = s.boot.deltaWait
  delPend : ∀ f, (t.fn f).delPend = (s.fn f).delPend
  fld : ∀ g i j, P g i j → t.fld g i j = s.fld g i j

/-- The fields that a reset's other steps leave. -/
def isKept (g : Fld) (_ _ : Nat) : Prop := g.id ∈ fnKept

namespace EndKeeps
variable {P : Fld → Nat → Nat → Prop} {s t u : State}

theorem refl (s : State) : EndKeeps P s s := ⟨rfl, fun _ => rfl, fun _ _ _ _ => rfl⟩

theorem trans (h : EndKeeps P s t) (k : EndKeeps P t u) : EndKeeps P s u :=
  ⟨k.wait.trans h.wait, fun f => (k.delPend f).trans (h.delPend f), fun g i j hg => (k.fld g i j hg).trans (h.fld g i j hg)⟩

theorem of_keeps (h : FnKeeps s t) (hP : ∀ g i j, P g i j → g.id ∈ fnKept) : EndKeeps P s t :=
  ⟨by rw [h.boot], fun f => by rw [h.fn], fun g i j hg => h.fld g (hP g i j hg) i j⟩

theorem of_tables (h : (t.act, t.fns, t.boot.deltaWait) = (s.act, s.fns, s.boot.deltaWait)) : EndKeeps P s t := by
  simp only [Prod.mk.injEq] at h
  obtain ⟨hact, hfns, hwait⟩ := h
  exact ⟨hwait, fun f => by rw [State.fn, hfns, State.fn], fun g i j _ => by rw [State.fld, hact, State.fld]⟩

theorem mono {Q : Fld → Nat → Nat → Prop} (h : EndKeeps P s t) (hQ : ∀ g i j, Q g i j → P g i j) : EndKeeps Q s t :=
  ⟨h.wait, h.delPend, fun g i j hg => h.fld g i j (hQ g i j hg)⟩

theorem put {f : Fld} {i j : Nat} (h : EndKeeps P s t) (hP : ∀ g a b, P g a b → g.key a b ≠ f.key i j) (v : Nat) :
    EndKeeps P s (t.put f v i j) :=
  h.trans ⟨rfl, fun _ => rfl, fun g a b hg => fld_put_of_key_ne (hP g a b hg) t v⟩

theorem setFn (h : EndKeeps P s t) (f : Nat) {x : FnS} (hx : x.delPend = (t.fn f).delPend) : EndKeeps P s (t.setFn f x) := by
  refine h.trans ⟨rfl, fun g => ?_, fun _ _ _ _ => rfl⟩
  by_cases hg : g = f
  · rw [hg, State.setFn_fn, hx]
  · rw [State.setFn_fn_ne _ _ _ _ hg]

theorem foldl {α : Type} {f : State → α → State} (h : EndKeeps P s t) (hf : ∀ s x, EndKeeps P s (f s x)) (l : List α) :
    EndKeeps P s (l.foldl f t) := by
  induction l generalizing t with
  | nil => exact h
  | cons x l ih => exact ih (h.trans (hf t x))

theorem of_ite {c : Prop} [Decidable c] (ht : EndKeeps P s t) (hu : EndKeeps P s u) : EndKeeps P s (if c then t else u) := by
  split
  · exact ht
  · exact hu

end EndKeeps

theorem FnKeeps.kept {s t : State} (h : FnKeeps s t) : EndKeeps isKept s t := .of_keeps h fun _ _ _ hg => hg

/-! ### Time passes (R124, R144, R212, R352) -/

theorem eraseSector_kept (n : Nat) (s : State) : EndKeeps isKept s (eraseSector n s) := .of_tables rfl

theorem writeRecord_kept (w : Word) (ws : List Nat) (s : State) : EndKeeps isKept s (writeRecord w ws s) := by
  have herased : EndKeeps isKept s (logErased s) :=
    .of_ite (.trans (.of_ite (eraseSector_kept _ s) (.refl s)) (eraseSector_kept ..)) (.refl s)
  unfold writeRecord
  extract_lets r sec nxt t body all u
  obtain ⟨x, hx⟩ := foldl_setFlash_eq (fun i => 512 * sec + 8 * (r % 64) + i) (fun i => BitVec.ofNat 64 (all.getD i 0).toNat)
    (List.range 8) t
  have hu : u = { t with flash := x } := hx
  rw [hu]
  exact herased.trans (.of_tables rfl)

/-- Counters stand apart from what is kept. -/
theorem bump_kept {f : Fld} (hf : f.id ∉ fnKept) (s : State) (i j n : Nat) : EndKeeps isKept s (s.bump f i j n) :=
  ((FnKeeps.refl s).bump hf ..).kept

theorem logRecord_kept (typ : Nat) (ws : List Nat) (s : State) : EndKeeps isKept s (logRecord typ ws s) := by
  have hboot : ∀ b : BootS, b.deltaWait = s.boot.deltaWait → EndKeeps isKept s { s with boot := b } := fun b hb =>
    .of_tables (by rw [hb])
  unfold logRecord
  dsimp only
  refine .of_ite (bump_kept (by decide) ..) (.of_ite ?_ (.of_ite (hboot _ rfl) ?_))
  · refine .trans ?_ (writeRecord_kept ..)
    refine .trans ?_ (bump_kept (by decide) ..)
    exact hboot _ rfl
  · refine .trans ?_ (bump_kept (by decide) ..)
    exact .of_tables rfl

theorem setRaw_kept (a : SramWord) (v : Stored) (s : State) : EndKeeps isKept s (s.setRaw a v) := by
  refine .of_tables ?_
  cases a with
  | cell id l =>
    rw [State.setRaw]
    dsimp only
    split <;> rfl
  | _ => rfl

theorem countCE_kept (a : SramWord) (s : State) : EndKeeps isKept s (countCE a s) := by
  have hboot : EndKeeps isKept s { s with boot := { s.boot with telCe := s.boot.telCe + 1 } } := .of_tables rfl
  refine hboot.trans ?_
  unfold countCE
  dsimp only
  split
  · exact bump_kept (by decide) ..
  · split
    · exact bump_kept (by decide) ..
    · exact bump_kept (by decide) ..
    · exact .refl _

theorem memLog_kept (n wh eng a : Nat) (syn : BitVec 8) (s : State) : EndKeeps isKept s (memLog n wh eng a syn s) :=
  ((((((FnKeeps.refl s).put (by decide) ..).put (by decide) ..).put (by decide) ..).put (by decide) ..).put (by decide) ..
    |>.put (by decide) ..).kept

theorem countUE_kept (a : SramWord) (y : BitVec 8) (s : State) : EndKeeps isKept s (countUE a y s) := by
  unfold countUE
  extract_lets b w t
  have ht : EndKeeps isKept s t := .of_tables rfl
  split
  · exact ht.trans (((bump_kept (by decide) ..).trans (memLog_kept ..)).trans (logRecord_kept ..))
  · split
    · exact ht.trans ((bump_kept (by decide) ..).trans (logRecord_kept ..))
    · exact ht.trans ((bump_kept (by decide) ..).trans (logRecord_kept ..))
    · exact ht.trans (logRecord_kept ..)

theorem countPW_kept (a : SramWord) (s : State) : EndKeeps isKept s (countPW a s) := by
  unfold countPW
  split
  · exact bump_kept (by decide) ..
  · split
    · exact bump_kept (by decide) ..
    · exact bump_kept (by decide) ..
    · exact .refl _

theorem memUpdate_kept (a : SramWord) (f : Word → Word) (s : State) : EndKeeps isKept s (memUpdate a f s).2 := by
  unfold memUpdate memRead
  cases readCode (s.raw a) with
  | ok w => exact setRaw_kept ..
  | ce w => exact (countCE_kept a s).trans (setRaw_kept ..)
  | ue w y => exact (countUE_kept a y s).trans (countPW_kept ..)

theorem arriveWord_kept (k d : Nat) (x : RFrame) (i : Nat) (s : State) : EndKeeps isKept s (arriveWord k d x i s) := by
  unfold arriveWord
  extract_lets t
  have ht : EndKeeps isKept s t := setRaw_kept ..
  refine ht.trans ?_
  unfold onDesc
  split
  · exact .refl t
  · exact .of_ite (memUpdate_kept ..) (.refl t)

theorem settleDir_kept (k d : Nat) (s : State) : EndKeeps isKept s (settleDir k d s) := by
  refine .foldl (.refl s) (fun s n => ?_) _
  split
  · exact .refl s
  · refine .of_ite (.refl s) ?_
    exact .trans (.foldl (.refl s) (fun _ _ => arriveWord_kept ..) _) (.of_tables rfl)

theorem settleAll_kept (s : State) : EndKeeps isKept s (settleAll s) :=
  .of_ite (.refl s) (.foldl (.refl s) (fun _ _ => settleDir_kept ..) _)

theorem noteIdle_kept (s : State) : EndKeeps isKept s (noteIdle s) :=
  FnKeeps.kept (.foldl (.refl s) (fun s _ => .of_ite (.of_ite ((FnKeeps.refl s).setSt ..) (.refl s))
    (.of_ite ((FnKeeps.refl s).setSt ..) (.refl s))) _)

theorem holdCapped_kept (f : Nat) (s : State) : EndKeeps isKept s (holdCapped f s) :=
  FnKeeps.kept (.foldl (.refl s) (fun s n => deferTask_fnKeeps f n s) _)

theorem engineTime_kept (n : Nat) (s : State) : EndKeeps isKept s (engineTime n s) := by
  refine .foldl (.refl s) (fun s e => ?_) _
  extract_lets x was y t
  have ht : EndKeeps isKept s t := (EndKeeps.of_tables rfl : EndKeeps isKept s (s.setE e _)).setFn x.fn rfl
  exact .of_ite (ht.trans (holdCapped_kept ..)) ht

theorem passTicks_kept (n : Nat) (s : State) : EndKeeps isKept s (passTicks n s) := by
  unfold passTicks
  refine .of_ite (.refl s) ?_
  extract_lets t secs b u v
  have ht : EndKeeps isKept s t := .of_ite (noteIdle_kept s) (.refl s)
  have hu : EndKeeps isKept s u := ht.trans (.of_tables rfl)
  have hv : EndKeeps isKept s v := .of_ite hu (hu.trans (bump_kept (by decide) ..))
  refine .of_ite (hv.trans ?_) hv
  refine .trans ?_ (settleAll_kept _)
  refine .trans ?_ (engineTime_kept n _)
  exact FnKeeps.kept (.foldl (.refl v) (fun s _ => (FnKeeps.refl s).setCtr ..) _)

/-! ### A bank passes to F0 (R58, R140, R141) -/

/-- What the drain of bank `b` of stable `n` leaves: the incarnations, and the owners of other banks. -/
def drainKept (n b : Nat) (g : Fld) (i j : Nat) : Prop :=
  g.id = F.fnStatus_INC.id ∨ g.id = F.stBank_OWNER.id ∧ g.key i j ≠ F.stBank_OWNER.key n b

theorem isKept_of_drainKept {n b : Nat} (g : Fld) (i j : Nat) (h : drainKept n b g i j) : g.id ∈ fnKept := by
  rcases h with h | ⟨h, -⟩ <;> rw [h] <;> decide

theorem FnKeeps.drainKept {s t : State} (h : FnKeeps s t) (n b : Nat) : EndKeeps (drainKept n b) s t :=
  .of_keeps h isKept_of_drainKept

theorem put_owner_drainKept (n b v : Nat) (s : State) : EndKeeps (drainKept n b) s (s.put F.stBank_OWNER v n b) := by
  refine (EndKeeps.refl s).put (fun g x y h => ?_) v
  rcases h with h | ⟨-, h⟩
  · exact key_ne (f := F.stBank_OWNER) (by rw [h]; decide) n b x y
  · exact h

theorem put_state_drainKept (n b v g : Nat) (s : State) : EndKeeps (drainKept n b) s (s.put F.fnStatus_STATE v g) := by
  refine (EndKeeps.refl s).put (fun f x y h => key_ne (f := F.fnStatus_STATE) ?_ g 0 x y) v
  rcases h with h | ⟨h, -⟩ <;> rw [h] <;> decide

theorem finishRelease_drainKept (n b g : Nat) (s : State) : EndKeeps (drainKept n b) s (finishRelease g s) := by
  unfold finishRelease
  split
  · refine .trans ?_ ((pushStart_fnKeeps g _).drainKept n b)
    refine .trans ?_ (put_state_drainKept n b 2 g _)
    exact (EndKeeps.refl s).setFn g rfl
  · exact .refl s

theorem endDrain_drainKept (n b : Nat) (s : State) : EndKeeps (drainKept n b) s (endDrain n b s) := by
  unfold endDrain
  split
  · exact .refl s
  · rename_i g hg
    extract_lets old y t0 t1 t2 t
    have hother : FnKeeps (t0.put F.stBank_OWNER g n b) (noteOverq old s (noteOverq g s t2)) := by
      refine noteOverq_fnKeeps _ _ (noteOverq_fnKeeps _ _ ?_)
      exact ((((FnKeeps.refl _).put (by decide) ..).putShadow ..).put (by decide) ..).put (by decide) ..
    have ht : EndKeeps (drainKept n b) s t := by
      refine .trans ?_ (finishRelease_drainKept ..)
      refine .trans ?_ (hother.drainKept n b)
      refine .trans ?_ (put_owner_drainKept ..)
      exact ((FnKeeps.refl s).setSt ..).drainKept n b
    split
    · exact ht
    · exact ht.trans ((((FnKeeps.refl t).setSt ..).trans (startDrain_fnKeeps ..)).drainKept n b)

/-- The hand-overs of the bank that are in flight to or from the function end. -/
def endDrains (f k : Nat) (s : State) : State :=
  (List.range 3).foldl (fun s _ => if Tab.get 0 (s.st (k / 16)).xfer (k % 16) ≠ 0 ∧
      (Tab.get 0 (s.st (k / 16)).xfer (k % 16) = f + 1 ∨ s.fld F.stBank_OWNER (k / 16) (k % 16) = f) then endDrain (k / 16) (k % 16) s
    else s) s

/-- The bank is F0's. -/
def toF0 (k : Nat) (s : State) : State :=
  noteOverq 0 s (((s.put F.stBank_OWNER 0 (k / 16) (k % 16)).put F.stBank_NEXT 0 (k / 16) (k % 16)).putShadow
    F.stBank_NEXT 0 (k / 16) (k % 16))

theorem returnBank_eq (f k : Nat) (s : State) : returnBank f s k =
    if (endDrains f k s).fld F.stBank_OWNER (k / 16) (k % 16) = f then toF0 k (endDrains f k s) else endDrains f k s := rfl

theorem toF0_owner (k : Nat) (s : State) : (toF0 k s).fld F.stBank_OWNER (k / 16) (k % 16) = 0 := by
  rw [toF0, noteOverq_fld (by decide), State.putShadow_fld_get, State.put_fld_ne _ _ _ _ _ _ _ _ (by decide), State.put_fld,
    Nat.zero_mod]

theorem returnBank_drainKept (f : Nat) (s : State) (k : Nat) : EndKeeps (drainKept (k / 16) (k % 16)) s (returnBank f s k) := by
  have hdrains : EndKeeps (drainKept (k / 16) (k % 16)) s (endDrains f k s) :=
    .foldl (.refl s) (fun s _ => .of_ite (endDrain_drainKept (k / 16) (k % 16) s) (.refl s)) _
  have htoF0 : EndKeeps (drainKept (k / 16) (k % 16)) (endDrains f k s) (toF0 k (endDrains f k s)) :=
    .trans (put_owner_drainKept _ _ 0 _) ((noteOverq_fnKeeps 0 _ (((FnKeeps.refl _).put (by decide) ..).putShadow ..)).drainKept ..)
  rw [returnBank_eq]
  exact .of_ite (hdrains.trans htoF0) hdrains

theorem returnBank_owner_ne {f : Nat} (hf : f ≠ 0) (s : State) (k : Nat) :
    (returnBank f s k).fld F.stBank_OWNER (k / 16) (k % 16) ≠ f := by
  rw [returnBank_eq]
  split
  · rw [toF0_owner]
    exact hf.symm
  · assumption

theorem foldl_returnBank_owner_ne {f k : Nat} (hf : f ≠ 0) (l : List Nat) (s : State)
    (h : k ∈ l ∨ s.fld F.stBank_OWNER (k / 16) (k % 16) ≠ f) :
    (l.foldl (returnBank f) s).fld F.stBank_OWNER (k / 16) (k % 16) ≠ f := by
  induction l generalizing s with
  | nil => exact h.resolve_left List.not_mem_nil
  | cons m l ih =>
    refine ih _ ?_
    by_cases hkey : F.stBank_OWNER.key (k / 16) (k % 16) = F.stBank_OWNER.key (m / 16) (m % 16)
    · right
      rw [State.fld, hkey]
      exact returnBank_owner_ne hf s m
    · rw [(returnBank_drainKept f s m).fld _ _ _ (.inr ⟨rfl, hkey⟩)]
      exact h.imp_left fun hm => (List.mem_cons.mp hm).resolve_left fun e => hkey (e ▸ rfl)

/-- The incarnations. -/
def isInc (g : Fld) (_ _ : Nat) : Prop := g.id = F.fnStatus_INC.id

theorem foldl_returnBank_isInc (f : Nat) (l : List Nat) (s : State) : EndKeeps isInc s (l.foldl (returnBank f) s) :=
  .foldl (.refl s) (fun s k => (returnBank_drainKept f s k).mono fun _ _ _ => .inl) l

end Sys2Proof.Machine
end

section
/-! The statement of a reset's end and of a release. -/

namespace Sys2Proof.Machine

/-! ### The end of a reset (R58) -/

/-- Step 3: the yard's frames of the function are dropped, with DRAIN set once the rest of the 500 µs have passed. -/
def drainYard (f : Nat) (s : State) : State :=
  let s := if s.on F.fnCfg_DRAIN f && s.framesOf f ≠ [] then passTo ((s.fn f).stepAt + 125000) s else s
  (s.framesOf f).foldl dropFrame s

/-- The banks that the function owns. -/
def State.ownBanks (s : State) (f : Nat) : List Nat :=
  (List.range 256).filter fun k => s.fld F.stBank_OWNER (k / 16) (k % 16) == f

/-- Step 5: what the function drives and its mailboxes are as after a reset. -/
def resetUnits (f : Nat) (s : State) : State := canOwnerReset f (pmOwnerReset f (mbResetEmpty f s))

/-- Step 6: what the old incarnation left behind is purged. -/
def purgeOld (f : Nat) (s : State) : State := clearNewMarks f (mbClearHeld f (purgeStale s))

/-- Step 4: the function's banks pass to F0. -/
def returnBanks (f : Nat) (s : State) : State := (List.range 256).foldl (returnBank f) s

/-- Step 6: INC counts. -/
def countIncarnation (f : Nat) (s : State) : State := s.put F.fnStatus_INC (s.inc f + 1) f

/-- Steps 3 to 7 of a reset. -/
def emptied (f : Nat) (s : State) : State :=
  abandonDeliveries f (icAbandon f ((drainYard f s).ownBanks f)
    (purgeOld f (countIncarnation f (resetUnits f (returnBanks f (drainYard f s))))))

/-- Step 8: the reset has ended. -/
def resetDone (f : Nat) (s : State) : State :=
  ((s.setFn f { s.fn f with lastDone := some s.tick, delPend := false, cut := [] }).put F.fnStatus_RSTDONE 1 f).put F.fnStatus_STATE
    (if (s.fn f).delPend then 0 else 1) f

theorem drainEnd_eq (f : Nat) (s : State) :
    drainEnd f s = if f = 0 ∨ s.fnState f ≠ 3 ∨ s.running f ≠ [] then s else resetDone f (emptied f s) := rfl

theorem drainYard_kept (f : Nat) (s : State) : EndKeeps isKept s (drainYard f s) := by
  unfold drainYard
  extract_lets t
  have ht : EndKeeps isKept s t := .of_ite (passTicks_kept ..) (.refl s)
  exact ht.trans (FnKeeps.foldl (.refl t) dropFrame_fnKeeps _).kept

theorem resetUnits_fnKeeps (f : Nat) (s : State) : FnKeeps s (resetUnits f s) :=
  ((mbResetEmpty_fnKeeps f s).trans (pmOwnerReset_fnKeeps ..)).trans (canOwnerReset_fnKeeps ..)

theorem purgeOld_fnKeeps (f : Nat) (s : State) : FnKeeps s (purgeOld f s) :=
  ((purgeStale_fnKeeps s).trans (mbClearHeld_fnKeeps ..)).trans (clearNewMarks_fnKeeps ..)

/-- Steps 3 to 5 keep the incarnation and return every bank. -/
theorem units_frame {f : Nat} (hf : f ≠ 0) (s : State) :
    EndKeeps isInc s (resetUnits f (returnBanks f (drainYard f s)))
      ∧ ∀ k < 256, (resetUnits f (returnBanks f (drainYard f s))).fld F.stBank_OWNER (k / 16) (k % 16) ≠ f := by
  have hunits := resetUnits_fnKeeps f (returnBanks f (drainYard f s))
  have hyard : EndKeeps isInc s (drainYard f s) :=
    (drainYard_kept f s).mono fun g _ _ (h : g.id = F.fnStatus_INC.id) => by rw [isKept, h]; decide
  refine ⟨(hyard.trans (foldl_returnBank_isInc ..)).trans (hunits.kept.mono ?_), fun k hk => ?_⟩
  · exact fun g _ _ (h : g.id = F.fnStatus_INC.id) => by rw [isKept, h]; decide
  · rw [hunits.fld _ (by decide)]
    exact foldl_returnBank_owner_ne hf _ _ (.inl (List.mem_range.mpr hk))

theorem emptied_frame {f : Nat} (hf : f ≠ 0) (s : State) :
    (emptied f s).boot.deltaWait = s.boot.deltaWait ∧ ((emptied f s).fn f).delPend = (s.fn f).delPend
      ∧ (emptied f s).inc f = (s.inc f + 1) % 2 ^ F.fnStatus_INC.width
      ∧ ∀ k < 256, (emptied f s).fld F.stBank_OWNER (k / 16) (k % 16) ≠ f := by
  obtain ⟨⟨hwait, hdel, hinc⟩, howner⟩ := units_frame hf s
  have hlast : ∀ t, FnKeeps t (abandonDeliveries f (icAbandon f ((drainYard f s).ownBanks f) (purgeOld f t))) := fun t =>
    ((purgeOld_fnKeeps f t).trans (icAbandon_fnKeeps ..)).trans (abandonDeliveries_fnKeeps ..)
  refine ⟨?_, ?_, ?_, fun k hk => ?_⟩
  · rw [emptied, (hlast _).boot, countIncarnation, State.put_boot, hwait]
  · rw [emptied, (hlast _).fn, countIncarnation, State.put_fn_get, hdel]
  · rw [emptied, (hlast _).inc, countIncarnation, State.inc, State.put_fld, State.inc, hinc F.fnStatus_INC f 0 rfl, State.inc]
  · rw [emptied, (hlast _).fld _ (by decide), countIncarnation, State.put_fld_ne _ _ _ _ _ _ _ _ (by decide)]
    exact howner k hk

theorem resetDone_fld {g : Fld} (hd : g.id ≠ F.fnStatus_RSTDONE.id) (hs : g.id ≠ F.fnStatus_STATE.id) (f : Nat) (s : State) (i j : Nat) :
    (resetDone f s).fld g i j = s.fld g i j := by
  rw [resetDone, State.put_fld_ne _ _ _ _ _ _ _ _ hs, State.put_fld_ne _ _ _ _ _ _ _ _ hd, State.setFn_fld_get]

theorem resetDone_fn (f : Nat) (s : State) :
    (resetDone f s).fn f = { s.fn f with lastDone := some s.tick, delPend := false, cut := [] } := by
  rw [resetDone, State.put_fn_get, State.put_fn_get, State.setFn_fn]

theorem resetDone_boot (f : Nat) (s : State) : (resetDone f s).boot = s.boot := rfl
theorem resetDone_tick (f : Nat) (s : State) : (resetDone f s).tick = s.tick := rfl

theorem resetDone_marks (f : Nat) (s : State) : (resetDone f s).fld F.fnStatus_RSTDONE f = 1
    ∧ (resetDone f s).fld F.fnStatus_STATE f = (if (s.fn f).delPend then 0 else 1) := by
  constructor
  · rw [resetDone, State.put_fld_ne _ _ _ _ _ _ _ _ (by decide), State.put_fld]
    decide
  · rw [resetDone, State.put_fld]
    split <;> decide

/-- Without a delta that waits, nothing follows a reset (R45). -/
theorem deltaGo_of_not_waiting {s : State} (h : s.boot.deltaWait = false) : deltaGo s = s := if_neg (by simp [h])

/-! ### A release (R59) -/

/-- The bank's hand-over, as the function that receives it plus 1; 0: none is under way. -/
def State.drainsTo (s : State) (k : Nat) : Nat := Tab.get 0 (s.st (k / 16)).xfer (k % 16)

/-- The bank is the function's in the layout, and F0's now; no hand-over is under way but one to the function. -/
def State.home (s : State) (f k : Nat) : Prop :=
  Tab.get 0 s.lay (F.stBank_NEXT.key (k / 16) (k % 16)) = f ∧ s.fld F.stBank_OWNER (k / 16) (k % 16) = 0 ∧ s.drainsTo k ∈ [0, f + 1]

/-- The banks that a release awaits. -/
def State.homeBanks (s : State) (f : Nat) : List Nat :=
  (List.range 256).filter fun k => Tab.get 0 s.lay (F.stBank_NEXT.key (k / 16) (k % 16)) == f
    && s.fld F.stBank_OWNER (k / 16) (k % 16) == 0 && (s.drainsTo k == 0 || s.drainsTo k == f + 1)

theorem mem_homeBanks {s : State} {f k : Nat} : k ∈ s.homeBanks f ↔ k < 256 ∧ s.home f k := by
  simp [State.homeBanks, State.home, and_assoc]

/-- The function is released, and awaits its banks. -/
def releaseAwaits (f : Nat) (s : State) : State := s.setFn f { s.fn f with releasing := true, awaits := s.homeBanks f }

/-- A bank starts to drain to the function. -/
def drainTo (f : Nat) (s : State) (k : Nat) : State := startDrain (k / 16) (k % 16) f s

/-- The hand-overs that the release starts: those of the awaited banks that none is under way for. -/
def State.toHandBack (s : State) (f : Nat) : List Nat := (s.homeBanks f).filter fun k => s.drainsTo k == 0

theorem release_eq (f : Nat) (s : State) : release f s =
    if f = 0 ∨ s.fnState f ≠ 1 ∨ (s.fn f).releasing then s
    else finishRelease f ((s.toHandBack f).foldl (drainTo f) (releaseAwaits f s)) := rfl

theorem drainTo_drainsTo (f : Nat) (s : State) (m k : Nat) (h : k = m ∨ s.drainsTo k = f + 1) : (drainTo f s m).drainsTo k = f + 1 := by
  have hst : (drainTo f s m).st (k / 16) = (s.setSt (m / 16) { s.st (m / 16) with
      xfer := Tab.set 0 (s.st (m / 16)).xfer (m % 16) (f + 1) }).st (k / 16) := rfl
  rw [State.drainsTo, hst]
  by_cases hn : k / 16 = m / 16
  · rw [hn, State.setSt_st]
    by_cases hb : k % 16 = m % 16
    · rw [hb, Tab.get_set_same]
    · rw [Tab.get_set_ne _ _ _ _ _ _ hb, ← hn]
      exact h.resolve_left fun e => hb (e ▸ rfl)
  · rw [State.setSt_st_ne _ _ _ _ hn]
    exact h.resolve_left fun e => hn (e ▸ rfl)

/-- A bank shows that it drains. -/
def State.showsDrain (s : State) (k : Nat) : Prop :=
  s.fld F.stBank_XPEND (k / 16) (k % 16) = 1 ∧ s.fld F.stBank_DISP (k / 16) (k % 16) = 1

theorem put_fld_of_eq {s : State} {f : Fld} {v i j a b : Nat} (h : f.key a b = f.key i j ∨ s.fld f a b = v % 2 ^ f.width) :
    (s.put f v i j).fld f a b = v % 2 ^ f.width := by
  by_cases hk : f.key a b = f.key i j
  · rw [State.fld, hk]
    exact State.put_fld ..
  · rw [State.put_fld_at _ _ _ _ _ _ _ hk]
    exact h.resolve_left hk

theorem drainTo_showsDrain (f : Nat) (s : State) (m k : Nat) (h : k = m ∨ s.showsDrain k) : (drainTo f s m).showsDrain k := by
  unfold State.showsDrain drainTo startDrain
  refine ⟨(State.put_fld_ne _ _ _ _ _ _ _ _ (by decide)).trans (put_fld_of_eq (v := 1) ?_), put_fld_of_eq (v := 1) ?_⟩
  · exact h.imp (fun e => by rw [e]) fun h => h.1
  · rw [State.put_fld_ne _ _ _ _ _ _ _ _ (by decide)]
    exact h.imp (fun e => by rw [e]) fun h => h.2

theorem foldl_drainTo_fnKeeps (f : Nat) (l : List Nat) (s : State) : FnKeeps s (l.foldl (drainTo f) s) :=
  .foldl (.refl s) (fun s k => startDrain_fnKeeps (k / 16) (k % 16) f s) l

theorem foldl_drainTo {f k : Nat} {p : State → Prop} (hp : ∀ s m, k = m ∨ p s → p (drainTo f s m)) (l : List Nat) (s : State)
    (h : k ∈ l ∨ p s) : p (l.foldl (drainTo f) s) := by
  induction l generalizing s with
  | nil => exact h.resolve_left List.not_mem_nil
  | cons m l ih =>
    refine ih _ ?_
    rcases h with h | h
    · exact (List.mem_cons.mp h).symm.imp_right fun e => hp s m (.inl e)
    · exact .inr (hp s m (.inr h))

section
variable {f : Nat} {s : State}

/-- A release that awaits no bank ends at once. -/
theorem release_of_no_home (hf : f ≠ 0) (hs : s.fnState f = 1) (hr : (s.fn f).releasing = false) (h : s.homeBanks f = []) :
    release f s = pushStart f (((releaseAwaits f s).setFn f { (releaseAwaits f s).fn f with releasing := false, awaits := [] }).put
      F.fnStatus_STATE 2 f) := by
  have hgo : ¬ (f = 0 ∨ s.fnState f ≠ 1 ∨ (s.fn f).releasing) := by simp [hf, hs, hr]
  have hfn : (releaseAwaits f s).fn f = { s.fn f with releasing := true, awaits := [] } := by rw [releaseAwaits, State.setFn_fn, h]
  rw [release_eq, if_neg hgo, State.toHandBack, h, List.filter_nil, List.foldl_nil, finishRelease, if_pos]
  simp [State.receiving, hfn]

/-- A release that awaits banks waits for their drains. -/
theorem release_of_home (hf : f ≠ 0) (hs : s.fnState f = 1) (hr : (s.fn f).releasing = false) {k : Nat} (hk : k ∈ s.homeBanks f) :
    release f s = (s.toHandBack f).foldl (drainTo f) (releaseAwaits f s)
      ∧ ((s.toHandBack f).foldl (drainTo f) (releaseAwaits f s)).drainsTo k = f + 1 := by
  have hgo : ¬ (f = 0 ∨ s.fnState f ≠ 1 ∨ (s.fn f).releasing) := by simp [hf, hs, hr]
  have hdrains : ((s.toHandBack f).foldl (drainTo f) (releaseAwaits f s)).drainsTo k = f + 1 := by
    refine foldl_drainTo (fun s m => drainTo_drainsTo f s m k) _ _ ?_
    obtain ⟨-, -, -, hx⟩ := mem_homeBanks.mp hk
    simp only [List.mem_cons, List.not_mem_nil, or_false] at hx
    exact hx.imp (fun h0 => List.mem_filter.mpr ⟨hk, by rw [h0]; rfl⟩) id
  refine ⟨?_, hdrains⟩
  rw [release_eq, if_neg hgo, finishRelease, if_neg]
  have hreceives : ((s.toHandBack f).foldl (drainTo f) (releaseAwaits f s)).receiving f = true := by
    refine List.any_eq_true.mpr ⟨k, ?_, beq_iff_eq.mpr hdrains⟩
    rwa [(foldl_drainTo_fnKeeps ..).fn, releaseAwaits, State.setFn_fn]
  rw [hreceives, Bool.not_true, Bool.and_false]
  exact Bool.false_ne_true
end

theorem exec_fnResetDrainEnd (f : Fin 512) (s : State) : exec (.fnResetDrainEnd f) s = done s (deltaGo (drainEnd f s)) := rfl

/-- The reset has ended: the function is STOPPED or UNDEFINED, in its next incarnation, and owns no bank. -/
def Ended (f : Fin 512) (s t : State) : Prop :=
  t.fld F.fnStatus_RSTDONE f = 1 ∧ t.fld F.fnStatus_STATE f = (if (s.fn f).delPend then 0 else 1)
    ∧ t.inc f = (s.inc f + 1) % 2 ^ F.fnStatus_INC.width ∧ (t.fn f).lastDone = some t.tick ∧ (t.fn f).delPend = false
    ∧ ∀ n < 16, ∀ b < 16, t.fld F.stBank_OWNER n b ≠ f.val

theorem Ended.notified {f : Fin 512} {s t : State} (h : Ended f s t) : Ended f s (notify s t) := h

theorem resetDone_ended {f : Fin 512} (hf : f.val ≠ 0) (s : State) : Ended f s (resetDone f (emptied f s)) := by
  obtain ⟨-, hdel, hinc, howner⟩ := emptied_frame hf s
  obtain ⟨hdone, hstate⟩ := resetDone_marks f (emptied f s)
  refine ⟨hdone, hstate.trans (by rw [hdel]), ?_, ?_, ?_, fun n hn b hb => ?_⟩
  · rw [State.inc, resetDone_fld (by decide) (by decide)]
    exact hinc
  · rw [resetDone_fn, resetDone_tick]
  · rw [resetDone_fn]
  · have hbank := howner (16 * n + b) (by omega)
    rw [show (16 * n + b) / 16 = n by omega, show (16 * n + b) % 16 = b by omega] at hbank
    rwa [resetDone_fld (by decide) (by decide)]

theorem drainEnd_ends {f : Fin 512} {s : State} (hf : f.val ≠ 0) (hs : s.fnState f = 3) (hrun : s.running f = [])
    (hw : s.boot.deltaWait = false) : deltaGo (drainEnd f s) = resetDone f (emptied f s) := by
  obtain ⟨hwait, -, -, -⟩ := emptied_frame hf s
  rw [drainEnd_eq, if_neg (by simp [hf, hs, hrun])]
  exact deltaGo_of_not_waiting (by rw [resetDone_boot, hwait, hw])

/-- The function runs in the incarnation that it had. -/
def Runs (f : Fin 512) (s t : State) : Prop :=
  t.fld F.fnStatus_STATE f = 2 ∧ (t.fn f).releasing = false ∧ t.inc f = s.inc f

theorem Runs.served {f : Fin 512} {s u : State} (h : Runs f s u) (p : List Instr) (o : List Out) (x : HostS) :
    Runs f s { u with pending := p, out := o, host := x } := h

theorem release_runs {f : Fin 512} {s : State} (hf : f.val ≠ 0) (hs : s.fnState f = 1) (hr : (s.fn f).releasing = false)
    (h : s.homeBanks f = []) : Runs f s (release f s) := by
  rw [release_of_no_home hf hs hr h]
  have hpush := pushStart_fnKeeps f (((releaseAwaits f s).setFn f { (releaseAwaits f s).fn f with releasing := false, awaits := [] }).put
    F.fnStatus_STATE 2 f)
  refine ⟨?_, ?_, ?_⟩
  · rw [hpush.fld _ (by decide), State.put_fld]
    decide
  · rw [hpush.fn, State.put_fn_get, State.setFn_fn]
  · rw [hpush.inc, State.inc, State.put_fld_ne _ _ _ _ _ _ _ _ (by decide), State.setFn_fld_get, releaseAwaits, State.setFn_fld_get,
      State.inc]

/-- The function is STOPPED, and its release awaits bank `k`, which drains to it. -/
def AwaitsBank (f : Fin 512) (s : State) (k : Nat) (t : State) : Prop :=
  t.fld F.fnStatus_STATE f = 1 ∧ (t.fn f).releasing = true ∧ k ∈ (t.fn f).awaits ∧ t.drainsTo k = f.val + 1
    ∧ (s.drainsTo k = 0 → t.showsDrain k)

theorem AwaitsBank.served {f : Fin 512} {s u : State} {k : Nat} (h : AwaitsBank f s k u) (p : List Instr) (o : List Out) (x : HostS) :
    AwaitsBank f s k { u with pending := p, out := o, host := x } := h

theorem release_awaitsBank {f : Fin 512} {s : State} (hf : f.val ≠ 0) (hs : s.fnState f = 1) (hr : (s.fn f).releasing = false)
    {k : Nat} (hk : k ∈ s.homeBanks f) : AwaitsBank f s k (release f s) := by
  obtain ⟨hrel, hdrains⟩ := release_of_home hf hs hr hk
  rw [hrel]
  have hkeeps := foldl_drainTo_fnKeeps f (s.toHandBack f) (releaseAwaits f s)
  refine ⟨?_, ?_, ?_, hdrains, fun h0 => ?_⟩
  · rw [hkeeps.fld _ (by decide), releaseAwaits, State.setFn_fld_get, ← fnState_of_ne_zero hf, hs]
  · rw [hkeeps.fn, releaseAwaits, State.setFn_fn]
  · rwa [hkeeps.fn, releaseAwaits, State.setFn_fn]
  · exact foldl_drainTo (fun s m => drainTo_showsDrain f s m k) _ _ (.inl (List.mem_filter.mpr ⟨hk, by rw [h0]; rfl⟩))

theorem functionResetsEndAndRelease : Stated.FunctionResetsEndAndRelease := by
  refine ⟨fun s f => ⟨fun hidle hw => ?_, fun hf hs hrun hw => ?_⟩, fun s w f hs ha hsup => ?_⟩
  · have hends : deltaGo (drainEnd f s) = s := by
      rw [drainEnd_eq, if_pos (by simpa using hidle), deltaGo_of_not_waiting hw]
    exact ⟨_, congrArg (done s) hends, rfl⟩
  · have hf0 : f.val ≠ 0 := by simpa using hf
    refine ⟨notify s (resetDone f (emptied f s)), ?_, (resetDone_ended hf0 s).notified⟩
    rw [exec_fnResetDrainEnd, drainEnd_ends hf0 hs hrun hw]
    rfl
  · have hexec : exec (.fnRelease w f) s = done s (finish w { st := release f s }) :=
      congrArg (done s) (fnCtlWrite_of_may hs ha (mayFnCtl_of_bound (.inl hsup)) _)
    refine ⟨fun hidle => ⟨_, hexec, ?_⟩, fun hf hst hrel => ⟨fun hnone => ?_, fun k hk hhome => ?_⟩⟩
    · rw [release_eq, if_pos (by simpa using hidle)]
    · have hbanks : s.homeBanks f = [] := List.eq_nil_iff_forall_not_mem.mpr fun k hk =>
        hnone k (mem_homeBanks.mp hk).1 (mem_homeBanks.mp hk).2
      exact does_served hexec (release_runs (by simpa using hf) hst hrel hbanks).served
    · exact does_served hexec (release_awaitsBank (by simpa using hf) hst hrel (mem_homeBanks.mpr ⟨hk, hhome⟩)).served

/-- Settles O26: a reset begins with the stops of its engines, ends with its banks at F0 whatever drains were under way, and a release
waits for the drains of the banks that the layout gives the function. -/
theorem functionResetsRunToTheirEnd : Obligations.FunctionResetsRunToTheirEnd := ⟨functionResetsBegin, functionResetsEndAndRelease⟩

end Sys2Proof.Machine
end

section
/-! The statements of an engine's exceptions: the asynchronous causes that an interrupt point takes, and the return from an exception. -/

namespace Sys2Proof.Machine

/-! ### A handler is entered (R98) -/

/-- An exception enters its handler unless it is a synchronous one at EXL = 1; its vector word reads without error. -/
theorem takeException_enters {s : State} {e : Fin 128} {cls det : Nat} {sync : Bool} {w : Word} (hx : (sync && (s.e e).exl) = false)
    (hv : VectorWord s e cls det w) (epc enpc : BitVec 16) :
    takeException e cls det sync epc enpc s = entered e cls det epc enpc w s := by
  have hread : ∀ x, memRead (privPlace e (vectorOf cls det)) (s.setE e x) = (.ok w, s.setE e x) := fun x =>
    memRead_ok (by rw [State.setE_raw]; exact hv)
  simp only [takeException, hx, hread, State.setE_e, State.setE_setE, BitVec.ofNat_toNat, Bool.false_eq_true, if_false]
  rfl

@[simp] theorem entered_e (e : Fin 128) (cls det : Nat) (epc enpc : BitVec 16) (w : Word) (s : State) :
    (entered e cls det epc enpc w s).e e = { s.e e with
      epc := epc, enpc := enpc, ebk := (s.e e).bk, epsw := (s.e e).psw, ecause := BitVec.ofNat 12 (256 * cls + det % 256)
      psw := ((s.e e).psw &&& 3) ||| 8, exl := true, pc := w.setWidth 16
      nxt := none, slot := none, wait := none, bpPass := false } := State.setE_e ..

@[simp] theorem entered_fld (e : Fin 128) (cls det : Nat) (epc enpc : BitVec 16) (w : Word) (s : State) (g : Fld) (i j : Nat) :
    (entered e cls det epc enpc w s).fld g i j = s.fld g i j := rfl

/-! ### The causes of an interrupt point (R97, R103) -/

/-- No delay slot is about to run at an interrupt point. -/
theorem noSlotDue_of_samples {s : State} {e : Fin 128} (h : Samples s e) : ((s.e e).slot.isSome && (s.e e).wait.isNone) = false := by
  obtain ⟨-, hslot | hwait, -⟩ := h
  · rw [hslot, Option.isSome_none, Bool.false_and]
  · rw [← Option.not_isSome, hwait, Bool.not_true, Bool.and_false]

/-- At an interrupt point where no halt and no EXL holds them off, the causes come in the order of R97. -/
theorem asyncDue_of_samples {s : State} {e : Fin 128} (h : Samples s e) :
    s.asyncDue e =
      if (s.e e).stopPend then some .stop
      else if s.quantumDue e then some .quantum
      else if (s.e e).psw.getLsbD 2 then ((List.range 16).find? (s.irqs e).testBit).map .irq
      else none := by
  have hpoint := noSlotDue_of_samples h
  obtain ⟨-, -, hhalt, hexl⟩ := h
  simp only [State.asyncDue, hpoint, hhalt, hexl, Bool.false_eq_true, if_false]

/-- The interrupt that is taken is the lowest-numbered one that is pending and enabled. -/
theorem exec_interruptEntry {s : State} {e : Fin 128} {n : Fin 16} {w : Word} (h : Samples s e) (hv : VectorWord s e 10 n w)
    (hstop : (s.e e).stopPend = false) (hquant : s.quantumDue e = false) (hie : (s.e e).psw.getLsbD 2 = true)
    (hn : (s.irqs e).testBit n = true) (hlow : ∀ m < n.val, (s.irqs e).testBit m = false) :
    exec (.interruptEntry e) s = done s (entered e 10 n (s.e e).pc (s.afterPc e) w s) := by
  have hfind : (List.range 16).find? (s.irqs e).testBit = some n.val :=
    List.find?_range_eq_some.mpr ⟨hn, List.mem_range.mpr n.isLt, fun m hm => by rw [hlow m hm, Bool.not_false]⟩
  have hdue : s.asyncDue e = some (.irq n) := by
    simp only [asyncDue_of_samples h, hstop, hquant, hie, hfind, Bool.false_eq_true, if_false, if_true, Option.map_some]
  have hexec : exec (.interruptEntry e) s = execInterruptEntry e s := rfl
  simp only [hexec, execInterruptEntry, h.1, hdue, Bool.not_true, Bool.false_eq_true, if_false,
    takeException_enters (Bool.false_and _) hv]

theorem exec_quantumEntry {s : State} {e : Fin 128} {w : Word} (h : Samples s e) (hv : VectorWord s e 9 0 w)
    (hstop : (s.e e).stopPend = false) (hquant : s.quantumDue e = true) :
    exec (.quantumEntry e) s = done s (entered e 9 0 (s.e e).pc (s.afterPc e) w (s.setE e { s.e e with qTaken := true })) := by
  have hdue : s.asyncDue e = some .quantum := by
    simp only [asyncDue_of_samples h, hstop, hquant, Bool.false_eq_true, if_false, if_true]
  have hv' : VectorWord (s.setE e { s.e e with qTaken := true }) e 9 0 w := by rw [VectorWord, State.setE_raw]; exact hv
  have hexec : exec (.quantumEntry e) s = execQuantumEntry e s := rfl
  simp only [hexec, execQuantumEntry, h.1, hdue, beq_self_eq_true, Bool.and_self, if_true, takeException_enters (Bool.false_and _) hv']

/-! ### A task ends by a function stop (R58, R98, R113) -/

theorem State.bump_raw (s : State) (f : Fld) (i j n : Nat) (a : SramWord) : (s.bump f i j n).raw a = s.raw a := by cases a <;> rfl

theorem countOverrun_raw (e : Nat) (s : State) (a : SramWord) : (countOverrun e s).raw a = s.raw a := by
  unfold countOverrun
  split
  · split
    · exact State.bump_raw ..
    · rfl
  · rfl

theorem countOverrun_fld {g : Fld} (hg : g.id ≠ F.stCnt1_OVERRUN.id) (e : Nat) (s : State) (i j : Nat) :
    (countOverrun e s).fld g i j = s.fld g i j := by
  unfold countOverrun
  split
  · split
    · exact State.bump_fld_ne _ _ _ _ _ _ _ _ hg
    · rfl
  · rfl

theorem countDone_raw (e : Nat) (s : State) (a : SramWord) : (countDone e s).raw a = s.raw a := by
  have hover := (countOverrun_raw e (s.bump F.stCnt0_DONE (e / 8)) a).trans (State.bump_raw ..)
  rw [countDone_eq, ← hover]
  dsimp only
  split <;> cases a <;> rfl

/-- Past OVERRUN and HIST, the end of a task counts in DONE alone. -/
theorem countDone_fld {g : Fld} (ho : g.id ≠ F.stCnt1_OVERRUN.id) (hh : g.id ≠ F.stDqstat_HIST.id) (e : Nat) (s : State) (i j : Nat) :
    (countDone e s).fld g i j = (s.bump F.stCnt0_DONE (e / 8)).fld g i j := by
  rw [countDone_eq, ← countOverrun_fld ho e (s.bump F.stCnt0_DONE (e / 8))]
  dsimp only
  split
  · exact State.put_fld_ne _ _ _ _ _ _ _ _ hh
  · rfl

theorem endTask_of_task {s : State} {e : Nat} (h : (s.e e).tv = true) (keep : Bool) :
    endTask e keep s = leaveTask e keep (countDone e s) := if_pos h

theorem endTask_of_none {s : State} {e : Nat} (h : (s.e e).tv = false) (keep : Bool) : endTask e keep s = s :=
  if_neg (by rw [h]; exact Bool.false_ne_true)

theorem noteStopped_e (f : Nat) (s : State) (k : Nat) : (noteStopped f s).e k = s.e k := by
  unfold noteStopped
  split <;> rfl

theorem noteStopped_fld (f : Nat) (s : State) (g : Fld) (i j : Nat) : (noteStopped f s).fld g i j = s.fld g i j := by
  unfold noteStopped
  split <;> rfl

theorem noteStopped_of_not_resetting {f : Nat} {s : State} (h : s.fnState f ≠ 3) : noteStopped f s = s := by
  simp only [noteStopped, h, decide_false, Bool.false_and, Bool.false_eq_true, if_false]

/-- The descriptor of the current task in A and X, where there is one. -/
def descLoaded (e : Nat) (s : State) : State :=
  match (s.e e).cur with
  | some t => s.setE e { s.e e with a := t.w0, x := t.w1 }
  | none => s

/-- The current task has ended and its function stop pends no more. -/
def stopServed (e : Nat) (s : State) : State :=
  (endTask e true s).setE e { (endTask e true s).e e with stopPend := false, cur := none }

/-- At its interrupt point a function stop ends the task and then enters its handler. -/
theorem functionStop_of_samples {s : State} {e : Fin 128} (h : Samples s e) (hstop : (s.e e).stopPend = true) :
    functionStop e s =
      noteStopped (s.e e).fn (takeException e 8 0 false (s.e e).pc (s.afterPc e) (stopServed e (descLoaded e s))) := by
  have hpoint := noSlotDue_of_samples h
  obtain ⟨hruns, -, hhalt, hexl⟩ := h
  simp only [State.engRuns, Bool.and_eq_true, Bool.not_eq_true'] at hruns
  obtain ⟨⟨-, hawake⟩, hfree⟩ := hruns
  have htaken : (!(s.e e).stopPend || (s.e e).exl || (s.e e).slot.isSome && (s.e e).wait.isNone || (s.e e).haltReq
      || s.on F.dbgStat_HALTED (e / 8) (e % 8) || !s.awake (e / 8)) = false := by
    simp only [hstop, hexl, hpoint, hhalt, hfree, hawake, Bool.not_true, Bool.or_self]
  exact if_neg (by rw [htaken]; exact Bool.false_ne_true)

theorem stopServed_of_none {s : State} {e : Nat} (htv : (s.e e).tv = false) (hcur : (s.e e).cur = none) :
    stopServed e s = s.setE e { s.e e with stopPend := false } := by
  simp only [stopServed, endTask_of_none htv, hcur]

theorem stopServed_e {s : State} {e : Nat} (htv : (s.e e).tv = true) :
    (stopServed e s).e e = { s.e e with tv := false, cur := none, runt := 0, qTaken := false, stopPend := false } := by
  have he : (countDone e s).e e = s.e e := by rw [State.e, countDone_eng, State.e]
  simp only [stopServed, endTask_of_task htv, leaveTask, State.setE_e, he, if_true]

theorem stopServed_raw (e : Nat) (s : State) (a : SramWord) : (stopServed e s).raw a = s.raw a := by
  rw [stopServed, State.setE_raw, endTask]
  split
  · rw [leaveTask, State.setE_raw, countDone_raw]
  · rfl

theorem stopServed_done {s : State} {e : Nat} (htv : (s.e e).tv = true) :
    (stopServed e s).fld F.stCnt0_DONE (e / 8) = min (s.fld F.stCnt0_DONE (e / 8) + 1) (2 ^ F.stCnt0_DONE.width - 1) := by
  rw [stopServed, State.setE_fld_get, endTask_of_task htv, leaveTask, State.setE_fld_get, countDone_fld (by decide) (by decide),
    State.bump_fld]

theorem exec_functionStop_of_none {s : State} {e : Fin 128} {w : Word} (h : Samples s e) (hv : VectorWord s e 8 0 w)
    (hstop : (s.e e).stopPend = true) (htv : (s.e e).tv = false) (hcur : (s.e e).cur = none) (hfn : s.fnState (s.e e).fn ≠ 3) :
    exec (.functionStop e) s =
      done s (entered e 8 0 (s.e e).pc (s.afterPc e) w (s.setE e { s.e e with stopPend := false })) := by
  have hload : descLoaded e s = s := by simp only [descLoaded, hcur]
  have hv' : VectorWord (s.setE e { s.e e with stopPend := false }) e 8 0 w := by rw [VectorWord, State.setE_raw]; exact hv
  refine congrArg (done s) ?_
  rw [functionStop_of_samples h hstop, hload, stopServed_of_none htv hcur, takeException_enters (Bool.false_and _) hv']
  exact noteStopped_of_not_resetting hfn

theorem exec_functionStop_of_task {s : State} {e : Fin 128} {w : Word} {c : Task} (h : Samples s e) (hv : VectorWord s e 8 0 w)
    (hstop : (s.e e).stopPend = true) (hcur : (s.e e).cur = some c) :
    exec (.functionStop e) s = done s (noteStopped (s.e e).fn (entered e 8 0 (s.e e).pc (s.afterPc e) w
      (stopServed e (s.setE e { s.e e with a := c.w0, x := c.w1 })))) := by
  have hload : descLoaded e s = s.setE e { s.e e with a := c.w0, x := c.w1 } := by simp only [descLoaded, hcur]
  have hv' : VectorWord (stopServed e (s.setE e { s.e e with a := c.w0, x := c.w1 })) e 8 0 w := by
    rw [VectorWord, stopServed_raw, State.setE_raw]
    exact hv
  refine congrArg (done s) ?_
  rw [functionStop_of_samples h hstop, hload, takeException_enters (Bool.false_and _) hv']

/-- Settles O15: each cause that is first in the order of R97 enters its handler; a function stop first ends the task, which
counts, and leaves the descriptor in A and X. -/
theorem asynchronousCausesAreTaken : Obligations.AsynchronousCausesAreTaken := by
  refine fun s e w h => ⟨fun n hv hstop hquant hie hn hlow => ?_, fun hv hstop hquant => ?_, fun hv hstop htv hcur hfn => ?_,
    fun c hv hstop htv hcur => ?_⟩
  · exact ⟨_, exec_interruptEntry h hv hstop hquant hie hn hlow, rfl⟩
  · exact ⟨_, exec_quantumEntry h hv hstop hquant, rfl⟩
  · exact ⟨_, exec_functionStop_of_none h hv hstop htv hcur hfn, rfl⟩
  · have htask : ((s.setE e { s.e e with a := c.w0, x := c.w1 }).e e).tv = true := by rw [State.setE_e, htv]
    refine ⟨_, exec_functionStop_of_task h hv hstop hcur, ?_, ?_⟩
    · rw [State.notify_e_get, noteStopped_e, entered_e, stopServed_e htask, State.setE_e]
      rfl
    · rw [State.notify_fld_get, noteStopped_fld, entered_fld, stopServed_done htask, State.setE_fld_get]

/-! ### A debug step that ends halts the engine (R109) -/

theorem discardTask_fld {g : Fld} (hd : g.id ∉ [F.stCnt0_DONE.id, F.stCnt1_OVERRUN.id, F.stDqstat_HIST.id]) (e : Nat) (s : State)
    (i j : Nat) : (discardTask e s).fld g i j = s.fld g i j := by
  simp only [List.mem_cons, List.not_mem_nil, or_false, not_or] at hd
  obtain ⟨hdone, hover, hhist⟩ := hd
  rw [discardTask_eq, noteStopped_fld, dropTask, State.setE_fld_get, endTask]
  split
  · rw [leaveTask, State.setE_fld_get, countDone_fld hover hhist, State.bump_fld_ne _ _ _ _ _ _ _ _ hdone]
  · rfl

theorem haltEngine_halted (e why : Nat) (s : State) : (haltEngine e why s).on F.dbgStat_HALTED (e / 8) (e % 8) = true := by
  have hmark : ∀ u : State, ((u.put F.dbgStat_HALTED 1 (e / 8) (e % 8)).put F.dbgStat_WHY why (e / 8) (e % 8)).fld
      F.dbgStat_HALTED (e / 8) (e % 8) = 1 := fun u => by
    rw [State.put_fld_ne _ _ _ _ _ _ _ _ (by decide), State.put_fld]
    rfl
  rw [State.on_eq_true, haltEngine]
  split
  · rw [discardTask_fld (by decide), hmark]
    exact Nat.one_ne_zero
  · rw [hmark]
    exact Nat.one_ne_zero

/-- An engine that still runs has not ended a debug step. -/
theorem endStep_of_engRuns {e : Nat} {s : State} (h : (endStep e s).engRuns e = true) : endStep e s = s := by
  unfold endStep at h ⊢
  dsimp only at h ⊢
  split
  · next hstep =>
    rw [if_pos hstep, State.engRuns, haltEngine_halted, Bool.not_true, Bool.and_false] at h
    exact absurd h Bool.false_ne_true
  · rfl

/-! ### Control goes on behind an instruction (R81) -/

/-- The end of an instruction outside a repeat passes control as R81 says. -/
theorem endInsn_pc (x : Eng) (i : Insn) : (x.endInsn i.len (x.nxt.getD (x.pc + BitVec.ofNat 16 i.len))).pc = x.goesOn i := by
  have hlen : BitVec.ofNat 16 i.len = if i.mode = 7 then 2 else 1 := by
    unfold Insn.len
    split <;> rfl
  have hle : (x.la && x.occupiesLE i.len) = true ↔
      x.psw.getLsbD 4 = true ∧ (x.pc = x.le ∨ (i.mode = 7 ∧ x.pc + 1 = x.le)) := by
    have htwo : i.len = 2 ↔ i.mode = 7 := by simp [Insn.len]
    simp [Eng.la, Eng.occupiesLE, htwo]
  have hlc : x.lc - 1 ≠ 0 ↔ ¬ x.lc = 1 := by bv_omega
  simp only [Eng.endInsn, Eng.goesOn, hle, hlc, hlen]
  split
  · rw [ite_not]
    split <;> rfl
  · rfl

theorem endInsn_stepReq (x : Eng) (len : Nat) (next : BitVec 16) : (x.endInsn len next).stepReq = x.stepReq := by
  unfold Eng.endInsn
  dsimp only
  split
  · split <;> rfl
  · rfl

theorem finishInsn_of_engRuns {s : State} {e : Nat} (hruns : s.engRuns e = true) (hra : (s.e e).ra = false) (i : Insn) :
    finishInsn e i s = s.setE e ((s.e e).endInsn i.len ((s.e e).nxt.getD ((s.e e).pc + BitVec.ofNat 16 i.len))) := by
  simp only [State.engRuns, Bool.and_eq_true] at hruns
  obtain ⟨⟨hclocks, hawake⟩, -⟩ := hruns
  simp only [finishInsn, hclocks, hawake, hra, Bool.and_self, Bool.not_true, Bool.false_eq_true, if_false]

theorem Issues.engRuns {s : State} {e : Fin 128} {i : Insn} (h : Issues s e i) : s.engRuns e = true := by
  obtain ⟨⟨hmay, -⟩, -⟩ := h
  simp only [State.mayIssue, Bool.and_eq_true] at hmay
  obtain ⟨⟨⟨hruns, -⟩, -⟩, -⟩ := hmay
  exact hruns

theorem passBreak_engRuns (n : Nat) (s : State) (e : Nat) : (passBreak n s).engRuns e = s.engRuns e := rfl

theorem exec_nop {s : State} {e : Fin 128} {i : Insn} (h : Issues s e i) (hop : i.op = 0) :
    exec (.nop e) s = done s (completed e i (passBreak e s)) := congrArg (done s) (Issues.issue h hop effNop)

/-- Outside a debug step, control goes on behind a NOP as R81 says. -/
theorem nop_goesOn {s : State} {e : Fin 128} {i : Insn} (h : Issues s e i) (hfree : (s.e e).stepReq = false) :
    ((completed e i (passBreak e s)).e e).pc = (s.e e).goesOn i := by
  have hra : ((passBreak e s).e e).ra = false := by rw [passBreak_e]; exact h.2
  have hfin := finishInsn_of_engRuns ((passBreak_engRuns ..).trans (Issues.engRuns h)) hra i
  have hstep : ((finishInsn e i (passBreak e s)).e e).stepReq = false := by
    rw [hfin, State.setE_e, endInsn_stepReq, passBreak_e]
    exact hfree
  rw [completed, endStep_free _ _ hstep, hfin, State.setE_e, endInsn_pc, passBreak_e]
  rfl

/-- A BRA is always taken: its delay slot runs next, and then its destination (R79). -/
theorem exec_bra {s u : State} {e : Fin 128} {i : Insn} {d : BitVec 16} (h : Issues s e i) (hop : i.op = 0x2A)
    (hd : Target (passBreak e s) e i d u) : exec (.bra e) s = done s (toSlot i e true d u) := by
  have heff : effBra i e (passBreak e s) = .hold (toSlot i e true d u) := hd.form fun d s => .hold (toSlot i e true d s)
  have hslot : ((toSlot i e true d u).e e).slot.isSome = true := by
    rw [toSlot, State.setE_e]
    rfl
  refine congrArg (done s) ((Issues.issue h hop effBra).trans ?_)
  rw [heff]
  exact endStep_slot _ _ hslot

/-- With an offset the destination counts from the delay slot (R79). -/
theorem bra_offset {s : State} {e : Fin 128} {i : Insn} (h : Issues s e i) (hop : i.op = 0x2A) (hmode : i.mode = 0) :
    Does (.bra e) s fun t => (t.e e).nxt = some ((s.e e).pc + 1 + BitVec.ofInt 16 (toSigned 12 i.opnd)) := by
  have hd : Target (passBreak e s) e i ((s.e e).pc + 1 + BitVec.ofInt 16 (toSigned 12 i.opnd)) (passBreak e s) := by
    rw [Target, if_pos hmode, passBreak_e]
    exact ⟨rfl, rfl⟩
  refine ⟨_, exec_bra h hop hd, ?_⟩
  dsimp only
  rw [State.notify_e_get, toSlot, State.setE_e]
  rfl

/-! ### Return from an exception (R100) -/

theorem returnFrom_e (e : Nat) (s : State) :
    (returnFrom e s).e e = { s.e e with
      psw := (s.e e).epsw, bk := (s.e e).ebk, exl := false, pc := (s.e e).epc, nxt := some (s.e e).enpc, slot := none
      bpPass := false } := State.setE_e ..

theorem returnFrom_passBreak (e : Nat) (s : State) : returnFrom e (passBreak e s) = returnFrom e s := by
  simp only [returnFrom, passBreak, State.setE_e, State.setE_setE]

theorem exec_rte {s : State} {e : Fin 128} {i : Insn} (h : Issues s e i) (hop : i.op = 0x2E) :
    exec (.rte e) s = done s (endStep e (if (s.e e).psw.getLsbD 3 then returnFrom e s else faultAt e 3 0 (passBreak e s))) := by
  have hsup : (passBreak e s).engSup e = (s.e e).psw.getLsbD 3 := by rw [State.engSup, passBreak_e]
  refine congrArg (done s) ((Issues.issue h hop effRte).trans ?_)
  simp only [effRte, hsup, returnFrom_passBreak]
  split <;> rfl

/-- An engine that runs after RTE has its saved state back. -/
theorem returned_e {s : State} {e : Nat} (h : (notify s (endStep e (returnFrom e s))).engRuns e = true) :
    (notify s (endStep e (returnFrom e s))).e e = (returnFrom e s).e e := by
  rw [State.notify_e_get, endStep_of_engRuns h]

/-- Settles O16: RTE puts the saved state back, and the next interrupt point, NOP and BRA of an engine that still runs act on it. -/
theorem rteRestoresTheSavedState : Obligations.RteRestoresTheSavedState := by
  intro s e i h hop
  split
  · next hsup =>
    have hexec := exec_rte h hop
    rw [if_pos hsup] at hexec
    refine ⟨_, hexec, rfl, fun n w hsamp hv hstop hquant hie hn hlow => ?_, fun j hj hfree hnop => ?_, fun j hj hbra hmode => ?_⟩
    · have hback := (returned_e hsamp.1).trans (returnFrom_e ..)
      have hie' : ((notify s (endStep e (returnFrom e s))).e e).psw.getLsbD 2 = true := by rw [hback]; exact hie
      refine ⟨_, exec_interruptEntry hsamp hv hstop hquant hie' hn hlow, ?_⟩
      dsimp only
      rw [State.notify_e_get, entered_e, State.afterPc, hback]
      exact ⟨rfl, rfl, rfl, rfl⟩
    · have hback := (returned_e (Issues.engRuns hj)).trans (returnFrom_e ..)
      exact ⟨_, exec_nop hj hnop, (nop_goesOn hj hfree).trans (by rw [hback]; rfl)⟩
    · have hback := (returned_e (Issues.engRuns hj)).trans (returnFrom_e ..)
      obtain ⟨v, hrun, hnxt⟩ := bra_offset hj hbra hmode
      exact ⟨v, hrun, hnxt.trans (by rw [hback])⟩
  · next htask =>
    have hexec := exec_rte h hop
    rw [if_neg htask] at hexec
    exact ⟨_, hexec, rfl⟩

end Sys2Proof.Machine
end

section
/-! The statement of code stores and banks: what a write to a code store does by LOAD, what each check of a hand-over request answers, and
what the end of a drain leaves. -/

namespace Sys2Proof.Machine

/-! ### A code store is written (R111) -/

/-- The low bytes of a number spell its low bits. -/
theorem foldl_byteOf (x n : Nat) : (List.range n).foldl (fun m k => m + byteOf x k * 2 ^ (8 * k)) 0 = x % 2 ^ (8 * n) := by
  induction n with
  | zero => exact (Nat.mod_one x).symm
  | succ n ih =>
    rw [List.range_succ, List.foldl_append, ih, List.foldl_cons, List.foldl_nil, byteOf, Nat.mul_succ, Nat.pow_add, Nat.mod_mul,
      Nat.mul_comm (2 ^ (8 * n))]

/-- Full byte enables take the whole word from a slot (R9). -/
theorem mergeBytes_setWidth (old v : Word) : mergeBytes old 0xFF (v.setWidth 64) = v := by
  have hset : ∀ k ∈ List.range 6, (0xFF : BitVec 8).getLsbD k = true := by decide
  have hbytes : mergeBytes old 0xFF (v.setWidth 64) = wd ((List.range 6).foldl (fun n k => n + byteOf v.toNat k * 2 ^ (8 * k)) 0) := by
    unfold mergeBytes
    refine congrArg wd (List.foldl_ext _ _ _ fun n k hk => ?_)
    rw [if_pos (hset k hk), BitVec.toNat_setWidth_of_le (by decide)]
  rw [hbytes, foldl_byteOf, Nat.mod_eq_of_lt v.isLt, wd, BitVec.ofNat_toNat, BitVec.setWidth_eq]

/-- A write of a whole slot stores its word (R148). -/
theorem memMerge_setWidth (a : SramWord) (v : Word) (s : State) : memMerge a 0xFF (v.setWidth 64) s = (0, memWrite a v s) := by
  rw [memMerge, if_pos (by decide), mergeBytes_setWidth]

/-- In load mode a supervisor access writes the word, whichever of the two ways it takes. -/
theorem codeWrite_of_load {s : State} {w : Who} (n : Fin 16) (a : Fin 32768) (own : Bool) (v : Word) (hload : s.on F.stCtl_LOAD n = true)
    (hsup : s.supervisor w = true) : codeWrite w n a own 0xFF (v.setWidth 64) s = { st := memWrite (.code n a) v s } := by
  unfold codeWrite
  simp only [memMerge_setWidth, Fin.ofNat_val_eq_self, hload, hsup]
  cases w with
  | engine e =>
    have hmode : s.engSup e = true := (Bool.and_eq_true_iff.mp hsup).2
    simp [hmode]
  | _ => rfl

/-- Outside load mode a host's write is passed over. -/
theorem codeWrite_host_of_not_load {s : State} {w : Who} (hw : w ∈ [Who.pf, .qspi, .mgmt]) (n a : Nat) (own : Bool) (be : BitVec 8)
    (v : BitVec 64) (hload : s.on F.stCtl_LOAD n = false) : codeWrite w n a own be v s = { st := s } := by
  simp only [List.mem_cons, List.not_mem_nil, or_false] at hw
  rcases hw with rfl | rfl | rfl <;> simp only [codeWrite, hload, Bool.false_and, Bool.false_eq_true, if_false]

/-- Outside load mode an engine takes the bus error, in either mode. -/
theorem codeWrite_engine_of_not_load {s : State} (e : Fin 128) (n a : Nat) (own : Bool) (be : BitVec 8) (v : BitVec 64)
    (hload : s.on F.stCtl_LOAD n = false) : codeWrite (.engine e) n a own be v s = busError 2 s := by
  simp only [codeWrite, hload, Bool.not_false, if_true]

theorem busWrite_code {s : State} {w : Who} (ha : s.applied = true) (hj : w ≠ .jtag) (off n a : Nat) (own : Bool) (be : BitVec 8)
    (v : BitVec 64) : busWrite w off (.code n a own) be v s = codeWrite w n a own be v s := by
  have hport : isJtag w = false := by
    cases w with
    | jtag => exact absurd rfl hj
    | _ => rfl
  simp only [busWrite, hport, ha, Bool.not_true, Bool.false_eq_true, if_false]

/-- The command is a write to the stable's code store, through an engine's own words or not. -/
theorem exec_codeStoreWrite {s : State} {w : Who} (hs : s.heard w = true) (ha : s.applied = true) (hj : w ≠ .jtag) (n : Fin 16)
    (a : Fin 32768) (v : Word) :
    ∃ own, exec (.codeStoreWrite w n a v) s = done s (finish w (codeWrite w n a own 0xFF (v.setWidth 64) s)) :=
  ⟨_, congrArg (done s) ((if_pos hs).trans (congrArg (finish w) (busWrite_code ha hj ..)))⟩

/-- The answer to a write that is served leaves the memories. -/
theorem finish_served_raw (w : Who) (s : State) (a : SramWord) : (finish w { st := s }).raw a = s.raw a := by
  cases w <;> cases a <;> rfl

theorem notify_raw (s t : State) (a : SramWord) : (notify s t).raw a = t.raw a := by
  cases a <;> rfl

theorem codeStoresAreWrittenUnderLoad : Stated.CodeStoresAreWrittenUnderLoad := by
  refine fun s n a v hclk ha => ⟨fun hload w hj hs hsup => ?_, fun hload => ?_⟩
  · obtain ⟨own, hexec⟩ := exec_codeStoreWrite hs ha hj n a v
    rw [codeWrite_of_load n a own v (bne_iff_ne.mpr hload) hsup] at hexec
    refine ⟨_, hexec, rfl, ?_, fun b hb => ?_⟩
    · rw [notify_raw, finish_served_raw, raw_memWrite_same rfl, readCode_sealW]
    · rw [notify_raw, finish_served_raw, raw_memWrite_ne rfl hb]
  · have hoff : s.on F.stCtl_LOAD n = false := by rw [State.on, hload]; rfl
    refine ⟨fun w hw hs => ?_, fun e => ?_⟩
    · have hj : w ≠ .jtag := by rintro rfl; simp at hw
      obtain ⟨own, hexec⟩ := exec_codeStoreWrite hs ha hj n a v
      rw [codeWrite_host_of_not_load hw n a own _ _ hoff] at hexec
      exact ⟨_, hexec, rfl⟩
    · have hs : s.heard (.engine e) = true := by simp [State.heard, hclk]
      obtain ⟨own, hexec⟩ := exec_codeStoreWrite hs ha nofun n a v
      rw [codeWrite_engine_of_not_load e n a own _ _ hoff] at hexec
      exact ⟨_, hexec, rfl⟩

/-! ### A hand-over is requested (R139) -/

theorem blockAccess_of_heard {s : State} {w : Who} (hs : s.heard w = true) (ha : s.applied = true) (a : Ans) :
    blockAccess w a s = finish w a := by
  rw [blockAccess, if_pos hs, open_, if_pos ha]

/-- Check 1: the writer neither acts for the owner nor has supervisor access. -/
theorem handoverRequest_of_stranger {s : State} {w : Who} {n b : Nat} (g : Nat) (hsup : s.supervisor w = false)
    (hown : s.actsFor w (s.fld F.stBank_OWNER n b) = false) :
    handoverRequest w n b g s = { disp := 9, det := 1, st := s.put F.stBank_DISP 9 n b } := by
  simp [handoverRequest, hsup, hown]

/-- Checks 2 to 4, once the writer may ask, and the request that names the owner. -/
theorem handoverRequest_of_may {s : State} {w : Who} {n b : Nat} (g : Nat)
    (hmay : ¬ (s.supervisor w = false ∧ s.actsFor w (s.fld F.stBank_OWNER n b) = false)) : handoverRequest w n b g s =
    if s.fnState g = 0 ∨ s.fnState g = 3 then { st := s.put F.stBank_DISP 9 n b }
    else if g ≠ s.fld F.stBank_OWNER n b ∧ s.fld F.fnQuota_BANKS g ≤ s.useBanks g then
      { st := (s.put F.stBank_DISP 2 n b).bump F.fnCnt_REFQ g }
    else if s.fld F.stBank_XPEND n b ≠ 0 then { st := s.put F.stBank_DISP 5 n b }
    else if g = s.fld F.stBank_OWNER n b then { st := s.put F.stBank_DISP 0 n b }
    else { st := startDrain n b g s } := by
  have hask : (!(s.supervisor w || s.actsFor w (s.fld F.stBank_OWNER n b))) = false := by
    simpa [imp_iff_not_or] using hmay
  simp only [handoverRequest, hask, Bool.false_eq_true, if_false, Bool.and_eq_true, decide_eq_true_eq, ge_iff_le, State.on, bne_iff_ne]

theorem exec_bankHandoverRequest {s : State} {w : Who} (hs : s.heard w = true) (ha : s.applied = true) (n b : Fin 16) (g : Fin 512) :
    exec (.bankHandoverRequest w n b g) s = done s (finish w (handoverRequest w n b g s)) :=
  congrArg (done s) (blockAccess_of_heard hs ha _)

/-! ### A drain ends (R140) -/

/-- The bank's registers and its drain once the bank is `g`'s. -/
def bankPassed (n b g : Nat) (s : State) : State :=
  let t := s.setSt n { s.st n with xfer := Tab.set 0 (s.st n).xfer b 0 }
  ((((t.put F.stBank_OWNER g n b).put F.stBank_NEXT g n b).putShadow F.stBank_NEXT g n b).put F.stBank_XPEND 0 n b).put F.stBank_DISP 0 n b

/-- The quotas of both functions are compared once the bank has passed (R51). -/
def bankNoted (n b g : Nat) (s : State) : State :=
  noteOverq (s.fld F.stBank_OWNER n b) s (noteOverq g s (bankPassed n b g s))

theorem State.put_raw (s : State) (f : Fld) (v i j : Nat) (a : SramWord) : (s.put f v i j).raw a = s.raw a := by cases a <;> rfl

theorem State.putShadow_raw (s : State) (f : Fld) (v i j : Nat) (a : SramWord) : (s.putShadow f v i j).raw a = s.raw a := by
  cases a <;> rfl

theorem State.setSt_raw (s : State) (n : Nat) (x : Stb) (a : SramWord) : (s.setSt n x).raw a = s.raw a := by cases a <;> rfl

theorem noteOverq_frame (f : Nat) (old new : State) : (noteOverq f old new).stb = new.stb ∧ (noteOverq f old new).fns = new.fns
    ∧ (noteOverq f old new).eng = new.eng ∧ ∀ a, (noteOverq f old new).raw a = new.raw a := by
  rcases noteOverq_cases f old new with h | h <;> rw [h]
  · exact ⟨rfl, rfl, rfl, fun _ => rfl⟩
  · exact ⟨rfl, rfl, rfl, fun a => State.put_raw ..⟩

theorem bankPassed_raw (n b g : Nat) (s : State) (a : SramWord) : (bankPassed n b g s).raw a = s.raw a := by
  simp only [bankPassed, State.put_raw, State.putShadow_raw, State.setSt_raw]

theorem bankPassed_st (n b g : Nat) (s : State) : (bankPassed n b g s).st n = { s.st n with xfer := Tab.set 0 (s.st n).xfer b 0 } := by
  simp only [bankPassed, State.put_st_get, State.putShadow_st_get, State.setSt_st]

theorem bankPassed_fns (n b g : Nat) (s : State) : (bankPassed n b g s).fns = s.fns := by
  simp only [bankPassed, State.put_fns, State.putShadow_fns, State.setSt_fns]

theorem bankPassed_eng (n b g : Nat) (s : State) : (bankPassed n b g s).eng = s.eng := by
  simp only [bankPassed, State.put_eng, State.putShadow_eng, State.setSt_eng]

/-- The quotas' notes leave the stables as the bank's passing does; the functions' other state, the engines and the memories stay. -/
theorem bankNoted_frame (n b g : Nat) (s : State) : (bankNoted n b g s).stb = (bankPassed n b g s).stb ∧ (bankNoted n b g s).fns = s.fns
    ∧ (bankNoted n b g s).eng = s.eng ∧ ∀ a, (bankNoted n b g s).raw a = s.raw a := by
  obtain ⟨hstb, hfns, heng, hraw⟩ := noteOverq_frame g s (bankPassed n b g s)
  obtain ⟨hstb', hfns', heng', hraw'⟩ := noteOverq_frame (s.fld F.stBank_OWNER n b) s (noteOverq g s (bankPassed n b g s))
  exact ⟨hstb'.trans hstb, hfns'.trans (hfns.trans (bankPassed_fns ..)), heng'.trans (heng.trans (bankPassed_eng ..)),
    fun a => (hraw' a).trans ((hraw a).trans (bankPassed_raw ..))⟩

theorem bankNoted_fld {f : Fld} (hf : f.id ≠ F.fnStatus_OVQEV.id) (n b g : Nat) (s : State) (i j : Nat) :
    (bankNoted n b g s).fld f i j = (bankPassed n b g s).fld f i j := by
  rw [bankNoted, noteOverq_fld hf, noteOverq_fld hf]

theorem bankNoted_st (n b g : Nat) (s : State) :
    (bankNoted n b g s).st n = { s.st n with xfer := Tab.set 0 (s.st n).xfer b 0 } := by
  obtain ⟨hstb, -⟩ := bankNoted_frame n b g s
  rw [← bankPassed_st n b g, State.st, hstb, State.st]

theorem bankNoted_xfer (n b g : Nat) (s : State) : Tab.get 0 ((bankNoted n b g s).st n).xfer b = 0 := by
  simp only [bankNoted_st, Tab.get_set_same]

theorem bankPassed_owner (n b : Nat) (g : Fin 512) (s : State) : (bankPassed n b g s).fld F.stBank_OWNER n b = g := by
  rw [bankPassed, State.put_fld_ne _ _ _ _ _ _ _ _ (by decide), State.put_fld_ne _ _ _ _ _ _ _ _ (by decide), State.putShadow_fld_get,
    State.put_fld_ne _ _ _ _ _ _ _ _ (by decide), State.put_fld]
  exact Nat.mod_eq_of_lt g.isLt

theorem bankPassed_next (n b : Nat) (g : Fin 512) (s : State) : (bankPassed n b g s).fld F.stBank_NEXT n b = g := by
  rw [bankPassed, State.put_fld_ne _ _ _ _ _ _ _ _ (by decide), State.put_fld_ne _ _ _ _ _ _ _ _ (by decide), State.putShadow_fld_get,
    State.put_fld]
  exact Nat.mod_eq_of_lt g.isLt

theorem bankPassed_xpend (n b g : Nat) (s : State) : (bankPassed n b g s).fld F.stBank_XPEND n b = 0 := by
  rw [bankPassed, State.put_fld_ne _ _ _ _ _ _ _ _ (by decide), State.put_fld, Nat.zero_mod]

theorem bankPassed_disp (n b g : Nat) (s : State) : (bankPassed n b g s).fld F.stBank_DISP n b = 0 := by
  rw [bankPassed, State.put_fld, Nat.zero_mod]

theorem finishRelease_of_not_releasing {g : Nat} {s : State} (h : (s.fn g).releasing = false) : finishRelease g s = s := by
  rw [finishRelease, h, Bool.false_and, if_neg Bool.false_ne_true]

/-- A commit's hand-over that waited behind a drain starts (R151). -/
def startNextDrain (n b : Nat) (s : State) : State :=
  match Tab.get 0 (s.st n).xnext b with
  | 0 => s
  | h + 1 => startDrain n b h (s.setSt n { s.st n with xnext := Tab.set 0 (s.st n).xnext b 0 })

theorem endDrain_of_draining {n b g : Nat} {s : State} (h : Tab.get 0 (s.st n).xfer b = g + 1) :
    endDrain n b s = startNextDrain n b (finishRelease g (bankNoted n b g s)) := by
  unfold endDrain
  rw [h]
  rfl

/-- With no release to finish and no other hand-over behind it, the end of a drain passes the bank and does no more. -/
theorem endDrain_of_last {n b g : Nat} {s : State} (hxfer : Tab.get 0 (s.st n).xfer b = g + 1) (hlast : Tab.get 0 (s.st n).xnext b = 0)
    (hrel : (s.fn g).releasing = false) : endDrain n b s = bankNoted n b g s := by
  obtain ⟨-, hfns, -⟩ := bankNoted_frame n b g s
  have hrel' : ((bankNoted n b g s).fn g).releasing = false := by
    rw [State.fn, hfns]
    exact hrel
  have hlast' : Tab.get 0 ((bankNoted n b g s).st n).xnext b = 0 := by
    rw [bankNoted_st]
    exact hlast
  rw [endDrain_of_draining hxfer, finishRelease_of_not_releasing hrel', startNextDrain, hlast']

theorem banksAreHandedOver : Stated.BanksAreHandedOver := by
  refine ⟨fun s w n b g hs ha => ⟨_, exec_bankHandoverRequest hs ha n b g, ?_⟩, fun s n b g hxfer hlast hrel =>
    ⟨_, congrArg (done s) (endDrain_of_last hxfer hlast hrel), ?_⟩⟩
  · split
    · next hstranger =>
      obtain ⟨hsup, hown⟩ := hstranger
      rw [handoverRequest_of_stranger g hsup hown]
    · next hmay =>
      rw [handoverRequest_of_may g hmay]
      split_ifs <;> rfl
  · obtain ⟨-, -, heng, hraw⟩ := bankNoted_frame n b g s
    simp only [State.notify_fld_get, State.notify_st_get, State.notify_eng, notify_raw]
    exact ⟨(bankNoted_fld (by decide) ..).trans (bankPassed_owner n b g s),
      (bankNoted_fld (by decide) ..).trans (bankPassed_next n b g s),
      (bankNoted_fld (by decide) ..).trans (bankPassed_xpend ..), (bankNoted_fld (by decide) ..).trans (bankPassed_disp ..),
      bankNoted_xfer .., hraw, heng⟩

/-- Settles O27: LOAD alone opens a code store, a hand-over request is answered by the first check of R139 that fails, and an accepted one
passes the bank at the end of its drain. -/
theorem codeStoresAndBanksChangeHands : Obligations.CodeStoresAndBanksChangeHands :=
  ⟨codeStoresAreWrittenUnderLoad, banksAreHandedOver⟩

end Sys2Proof.Machine
end

section
/-! The check code (R143, R144, R149): what a reader finds depends on the flipped bits alone; poison marks and scrubbing (R150). -/

namespace Sys2Proof.Machine

/-! ### The code is linear -/

/-- One column of the check byte, over two words at once. -/
theorem column_xor (a b : Bool) (c d k : BitVec 8) :
    (if (a ^^ b) = true then c ^^^ d ^^^ k else c ^^^ d) = (if a = true then c ^^^ k else c) ^^^ (if b = true then d ^^^ k else d) := by
  cases a <;> cases b
  · rfl
  · exact BitVec.xor_assoc ..
  · simp only [Bool.xor_false, if_true, Bool.false_eq_true, if_false]
    ac_rfl
  · have hk : c ^^^ k ^^^ (d ^^^ k) = c ^^^ d ^^^ (k ^^^ k) := by ac_rfl
    simp only [Bool.xor_true, Bool.not_true, Bool.false_eq_true, if_false, if_true, hk, BitVec.xor_self, BitVec.xor_zero]

/-- The check byte of an exclusive OR of words is that of their check bytes (R143). -/
theorem checkByte_xor (v w : Word) : checkByte (v ^^^ w) = checkByte v ^^^ checkByte w := by
  have hfold : ∀ (l : List (Nat × Nat)) (c d : BitVec 8),
      l.foldl (fun c e => if (v ^^^ w).getLsbD e.2 then c ^^^ BitVec.ofNat 8 e.1 else c) (c ^^^ d)
        = l.foldl (fun c e => if v.getLsbD e.2 then c ^^^ BitVec.ofNat 8 e.1 else c) c
          ^^^ l.foldl (fun c e => if w.getLsbD e.2 then c ^^^ BitVec.ofNat 8 e.1 else c) d := by
    intro l
    induction l with
    | nil => exact fun _ _ => rfl
    | cons e l ih => exact fun c d => by rw [List.foldl_cons, List.foldl_cons, List.foldl_cons, BitVec.getLsbD_xor, column_xor, ih]
  exact hfold eccColumns.zipIdx 0 0

theorem data_xor (x y : Stored) : Stored.data (x ^^^ y) = Stored.data x ^^^ Stored.data y := BitVec.extractLsb'_xor ..

theorem check_xor (x y : Stored) : Stored.check (x ^^^ y) = Stored.check x ^^^ Stored.check y := BitVec.extractLsb'_xor ..

theorem data_sealW_xor (w : Word) (e : Stored) : Stored.data (sealW w ^^^ e) = w ^^^ Stored.data e := by
  rw [data_xor, sealW_data]

/-- The syndrome tells of the flipped bits alone, whatever word was stored (R144). -/
theorem syndrome_sealW_xor (w : Word) (e : Stored) : syndrome (sealW w ^^^ e) = syndrome e := by
  have hcancel : checkByte w ^^^ Stored.check e ^^^ (checkByte w ^^^ checkByte (Stored.data e))
      = checkByte w ^^^ checkByte w ^^^ syndrome e := by
    rw [syndrome]
    ac_rfl
  rw [syndrome, data_sealW_xor, check_xor, sealW_check, checkByte_xor, hcancel, BitVec.xor_self, BitVec.zero_xor]

/-- What a read finds, over another word. -/
def Rd.over (w : Word) : Rd → Rd
  | .ok v => .ok (w ^^^ v)
  | .ce v => .ce (w ^^^ v)
  | .ue v y => .ue (w ^^^ v) y

/-- A read of a stored word with the bits of `e` flipped finds what a read of `e` itself finds, over the word. -/
theorem readCode_sealW_xor (w : Word) (e : Stored) : readCode (sealW w ^^^ e) = (readCode e).over w := by
  simp only [readCode, syndrome_sealW_xor, data_sealW_xor]
  by_cases hok : syndrome e = 0
  · simp only [hok, if_true, Rd.over]
  by_cases hmark : syndrome e = 0xFF
  · simp only [hmark, if_true, Rd.over]
    rfl
  by_cases hcheck : [1, 2, 4, 8, 16, 32, 64, 128].contains (syndrome e).toNat = true
  · simp only [if_neg hok, if_neg hmark, if_pos hcheck, Rd.over]
  simp only [if_neg hok, if_neg hmark, if_neg hcheck]
  cases eccColumns.findIdx? (· == (syndrome e).toNat) with
  | none => rfl
  | some i => exact congrArg Rd.ce (BitVec.xor_assoc ..)

/-! ### Single and double errors -/

theorem syndrome_xor (x y : Stored) : syndrome (x ^^^ y) = syndrome x ^^^ syndrome y := by
  rw [syndrome, syndrome, syndrome, data_xor, check_xor, checkByte_xor]
  ac_rfl

/-- The columns of the 56 stored bits: a check bit shows as itself (R143). -/
def bitColumns : List Nat := eccColumns ++ [1, 2, 4, 8, 16, 32, 64, 128]

theorem bitColumns_eq_syndrome : ∀ i < 56, (bitColumns.map (BitVec.ofNat 8))[i]? = some (syndrome (BitVec.twoPow 56 i)) := by
  decide +kernel

/-- Each column stands for one bit, which a read flips back (R144). -/
theorem readCode_twoPow : ∀ i < 56, readCode (BitVec.twoPow 56 i) = .ce 0 := by decide +kernel

/-- An odd number of the bits are 1. -/
def oddBits (y : BitVec 8) : Bool := (List.range 8).foldl (fun b i => b ^^ y.getLsbD i) false

theorem oddBits_xor (x y : BitVec 8) : oddBits (x ^^^ y) = (oddBits x ^^ oddBits y) := by
  have hstep : ∀ b c p q : Bool, ((b ^^ c) ^^ (p ^^ q)) = ((b ^^ p) ^^ (c ^^ q)) := by decide
  have hfold : ∀ (l : List Nat) (b c : Bool), l.foldl (fun b i => b ^^ (x ^^^ y).getLsbD i) (b ^^ c)
      = (l.foldl (fun b i => b ^^ x.getLsbD i) b ^^ l.foldl (fun b i => b ^^ y.getLsbD i) c) := by
    intro l
    induction l with
    | nil => exact fun _ _ => rfl
    | cons i l ih => exact fun b c => by rw [List.foldl_cons, List.foldl_cons, List.foldl_cons, BitVec.getLsbD_xor, hstep, ih]
  exact hfold (List.range 8) false false

/-- The columns have the odd weights 1 and 3, so that two of them give none of them. -/
theorem bitColumns_oddBits : ∀ c ∈ bitColumns, oddBits (BitVec.ofNat 8 c) = true := by decide +kernel

/-- No two columns are equal, and no two give the poison mark. -/
theorem bitColumns_pairwise :
    (bitColumns.map (BitVec.ofNat 8)).Pairwise fun c d => c ^^^ d ≠ 0 ∧ c ^^^ d ≠ 0xFF := by decide +kernel

theorem toNat_notMem_bitColumns {y : BitVec 8} (h : oddBits y = false) : y.toNat ∉ bitColumns := fun hy => by
  have hodd := bitColumns_oddBits _ hy
  rw [BitVec.ofNat_toNat, BitVec.setWidth_eq, h] at hodd
  exact Bool.false_ne_true hodd

/-- An even syndrome that is neither 0 nor the poison mark's is no column, so that a read corrects nothing (R144). -/
theorem readCode_of_even {x : Stored} (hzero : syndrome x ≠ 0) (hmark : syndrome x ≠ 0xFF) (heven : oddBits (syndrome x) = false) :
    readCode x = .ue (Stored.data x) (syndrome x) := by
  have hcol := toNat_notMem_bitColumns heven
  rw [bitColumns, List.mem_append, not_or] at hcol
  obtain ⟨hdata, hcheck⟩ := hcol
  have hnone : eccColumns.findIdx? (· == (syndrome x).toNat) = none :=
    List.findIdx?_eq_none_iff.2 fun c hc => beq_false_of_ne fun h => hdata (h ▸ hc)
  simp only [readCode, if_neg hzero, if_neg hmark, List.contains_iff_mem, if_neg hcheck, hnone]

/-- What a double error shows. -/
theorem syndrome_two_bits {i j : Nat} (hi : i < 56) (hj : j < i) :
    let y := syndrome (BitVec.twoPow 56 i ^^^ BitVec.twoPow 56 j)
    y ≠ 0 ∧ y ≠ 0xFF ∧ oddBits y = false := by
  obtain ⟨hil, hci⟩ := List.getElem?_eq_some_iff.1 (bitColumns_eq_syndrome i hi)
  obtain ⟨hjl, hcj⟩ := List.getElem?_eq_some_iff.1 (bitColumns_eq_syndrome j (hj.trans hi))
  have hodd : ∀ c ∈ bitColumns.map (BitVec.ofNat 8), oddBits c = true := List.forall_mem_map.2 bitColumns_oddBits
  have hpair := List.pairwise_iff_getElem.1 bitColumns_pairwise j i hjl hil hj
  rw [hci, hcj, BitVec.xor_comm] at hpair
  intro y
  have hy : y = syndrome (BitVec.twoPow 56 i) ^^^ syndrome (BitVec.twoPow 56 j) := syndrome_xor ..
  rw [hy, oddBits_xor, ← hci, ← hcj, hodd _ (List.getElem_mem _), hodd _ (List.getElem_mem _), hci, hcj]
  exact ⟨hpair.1, hpair.2, rfl⟩

/-! ### The poison mark -/

theorem data_poison (x : Stored) : Stored.data (poison x) = Stored.data x := by
  apply BitVec.eq_of_getLsbD_eq
  intro i hi
  rw [Stored.data, BitVec.getLsbD_extractLsb', poison]
  exact (congrArg _ (BitVec.getLsbD_append ..)).trans (by simp [hi])

theorem check_poison (x : Stored) : Stored.check (poison x) = checkByte (Stored.data x) ^^^ 0xFF := by
  apply BitVec.eq_of_getLsbD_eq
  intro i hi
  rw [Stored.check, BitVec.getLsbD_extractLsb', poison]
  exact (congrArg _ (BitVec.getLsbD_append ..)).trans (by simp [hi])

theorem syndrome_poison (x : Stored) : syndrome (poison x) = 0xFF := by
  have hcancel : checkByte (Stored.data x) ^^^ 0xFF ^^^ checkByte (Stored.data x)
      = checkByte (Stored.data x) ^^^ checkByte (Stored.data x) ^^^ 0xFF := by ac_rfl
  rw [syndrome, check_poison, data_poison, hcancel, BitVec.xor_self, BitVec.zero_xor]

/-- The poison mark makes any word uncorrectable and keeps its data bits (R149). -/
theorem readCode_poison (x : Stored) : readCode (poison x) = .ue (Stored.data x) 0xFF := by
  simp only [readCode, syndrome_poison, data_poison]
  rfl

/-- Settles O31: by the code's linearity an error reads as it would on the zero word, and there each single and each double error is
one of finitely many. -/
theorem checkCodeCorrectsOneErrorDetectsTwo : Obligations.CheckCodeCorrectsOneErrorDetectsTwo := by
  intro w
  refine ⟨readCode_sealW w, fun i hi => ?_, fun i hi j hj => ?_, ?_⟩
  · rw [readCode_sealW_xor, readCode_twoPow i hi]
    exact congrArg Rd.ce BitVec.xor_zero
  · obtain ⟨hzero, hmark, heven⟩ := syndrome_two_bits hi hj
    have hue := readCode_of_even hzero hmark heven
    exact ⟨_, _, by rw [BitVec.xor_assoc, readCode_sealW_xor, hue, Rd.over], hmark⟩
  · rw [readCode_poison, sealW_data]

/-! ### Marks are requested and placed (R149) -/

theorem awaitDrain_of_no_drain {n a : Nat} {s : State} (w : Who) (h : Tab.get 0 (s.st n).xfer (a / 4096) = 0) : awaitDrain w n a s = s := by
  rw [awaitDrain, h]

theorem poisonRequest_of_no_drain {w : Who} {n a : Nat} {s : State} (h : Tab.get 0 (s.st n).xfer (a / 4096) = 0) :
    poisonRequest w n a s =
      if s.mayLoft w n a = true ∧ s.inpassWord n a = false then
        { st := s.setSt n { s.st n with pmarks := (s.st n).pmarks ++ [a] } }
      else { disp := 9, det := 1, st := s.bump F.stMemerr_DENY n } := by
  rw [poisonRequest, awaitDrain_of_no_drain w h]
  simp only [Bool.and_eq_true, Bool.not_eq_true']
  rfl

theorem placeMark_of_cons {n a : Nat} {rest : List Nat} {s : State} (h : (s.st n).pmarks = a :: rest) :
    placeMark n s = (s.setSt n { s.st n with pmarks := rest }).setRaw (loftPlace n a) (poison (s.raw (loftPlace n a))) := by
  rw [placeMark, h]
  exact congrArg (fun x => State.setRaw _ _ (poison x)) (State.setSt_raw ..)

theorem poisonMarksInvertTheCheckByte : Stated.PoisonMarksInvertTheCheckByte := by
  refine ⟨fun s w n a hs ha hdrain => ⟨_, congrArg (done s) (blockAccess_of_heard hs ha _), ?_⟩,
    fun s n a rest hmarks => ⟨_, congrArg (done s) (placeMark_of_cons hmarks), ?_, fun b hb => ?_, ?_⟩⟩
  · rw [poisonRequest_of_no_drain hdrain]
    split <;> rfl
  · rw [notify_raw, State.setRaw_same _ _ _ rfl, readCode_poison]
  · rw [notify_raw, State.setRaw_ne _ _ _ _ hb rfl, State.setSt_raw]
  · exact congrArg Stb.pmarks (State.setSt_st ..)

/-! ### Scrubbing (R150) -/

theorem memRead_ce {a : SramWord} {s : State} {w : Word} (h : readCode (s.raw a) = .ce w) : memRead a s = (.ce w, countCE a s) := by
  rw [memRead, h]

theorem memRead_ue {a : SramWord} {s : State} {w : Word} {y : BitVec 8} (h : readCode (s.raw a) = .ue w y) :
    memRead a s = (.ue w y, countUE a y s) := by
  rw [memRead, h]

theorem countCE_scrub (a : SramWord) (s : State) : (countCE a s).scrub = s.scrub := by
  cases a <;> rfl

theorem scrubRead_of_ok {a : SramWord} {s : State} {w : Word} (h : readCode (s.raw a) = .ok w) : scrubRead a s = s := by
  rw [scrubRead, memRead_ok h]

/-- A correctable word is due for write-back. -/
theorem scrubRead_of_ce {a : SramWord} {s : State} {w : Word} (h : readCode (s.raw a) = .ce w) (hnew : a ∉ s.scrub) :
    scrubRead a s = { countCE a s with scrub := s.scrub ++ [a] } := by
  have hc : (countCE a s).scrub.contains a = false := by simpa [countCE_scrub] using hnew
  rw [scrubRead, memRead_ce h]
  dsimp only
  rw [hc, countCE_scrub, if_neg Bool.false_ne_true]

theorem scrubRead_of_ue {a : SramWord} {s : State} {w : Word} {y : BitVec 8} (h : readCode (s.raw a) = .ue w y) :
    scrubRead a s = countUE a y s := by
  rw [scrubRead, memRead_ue h]

theorem scrubWriteBack_of_not_due {a : SramWord} {s : State} (h : a ∉ s.scrub) : scrubWriteBack a s = s :=
  if_neg (by simpa using h)

theorem scrubWriteBack_of_ce {a : SramWord} {s : State} {w : Word} (h : readCode (s.raw a) = .ce w) (hdue : a ∈ s.scrub) :
    scrubWriteBack a s = memWrite a w s := by
  rw [scrubWriteBack, if_pos (by simpa using hdue), h]

/-- A whole write drops the write-back that is due to its word. -/
theorem setRaw_scrub {a : SramWord} (h : inMemory a = true) (v : Stored) (s : State) :
    (s.setRaw a v).scrub = s.scrub.filter (· ≠ a) := by
  cases a with
  | mbq => exact absurd h Bool.false_ne_true
  | cell => exact absurd h Bool.false_ne_true
  | _ => rfl

theorem setRaw_act (a : SramWord) (v : Stored) (s : State) : (s.setRaw a v).act = s.act := by
  cases a with
  | cell id l =>
    rw [State.setRaw]
    dsimp only
    split <;> rfl
  | _ => rfl

theorem scrubbingCorrectsWords : Stated.ScrubbingCorrectsWords := by
  intro s a
  refine ⟨fun x h => ⟨_, congrArg (done s) (scrubRead_of_ok h), rfl⟩, fun x h hnew => ⟨_, congrArg (done s) (scrubRead_of_ce h hnew), rfl⟩,
    fun x y h => ⟨_, congrArg (done s) (scrubRead_of_ue h), rfl⟩,
    fun hnew => ⟨_, congrArg (done s) (scrubWriteBack_of_not_due hnew), rfl⟩,
    fun x h hdue ha => ⟨_, congrArg (done s) (scrubWriteBack_of_ce h hdue), ?_, fun b hb => ?_, ?_, setRaw_act ..⟩⟩
  · rw [notify_raw, raw_memWrite_same ha, readCode_sealW]
  · rw [notify_raw, raw_memWrite_ne ha hb]
  · rw [State.notify_scrub, memWrite, setRaw_scrub ha]
    simp

/-- Settles O30: a mark waits and then inverts its word's check byte, and a scrub write-back writes the corrected word whole. -/
theorem poisonAndScrubbing : Obligations.PoisonAndScrubbing := ⟨poisonMarksInvertTheCheckByte, scrubbingCorrectsWords⟩

end Sys2Proof.Machine
end

section
/-! The canonical form of the memories (R143, R146): what each operation of the model leaves of them. An operation that writes no
listed memory leaves all five as they are (`_mems`); one that writes keeps them canonical (`_wf`). -/

namespace Sys2Proof.Machine

/-! ### The five memories -/

/-- The five memories that State lists (R143). -/
abbrev Mems := Mem × Mem × Mem × Mem × Mem

/-- Every one of them is in canonical form. -/
def Mems.wf (m : Mems) : Bool := m.1.wf && m.2.1.wf && m.2.2.1.wf && m.2.2.2.1.wf && m.2.2.2.2.wf

/-- The memories of a state. -/
def State.mems (s : State) : Mems := (s.loft, s.code, s.priv, s.mg, s.stage)

theorem memOk_eq_wf_mems (s : State) : s.memOk = Mems.wf s.mems := rfl

theorem Mems.wf_iff (m : Mems) : m.wf = true ↔
    m.1.wf = true ∧ m.2.1.wf = true ∧ m.2.2.1.wf = true ∧ m.2.2.2.1.wf = true ∧ m.2.2.2.2.wf = true := by
  simp only [Mems.wf, Bool.and_eq_true, and_assoc]

theorem Mems.wf_of_loft_mg_cleared {m : Mems} (h : m.wf = true) : Mems.wf ([], m.2.1, m.2.2.1, [], m.2.2.2.2) = true := by
  obtain ⟨-, hcode, hpriv, -, hstage⟩ := m.wf_iff.1 h
  exact (Mems.wf_iff _).2 ⟨rfl, hcode, hpriv, rfl, hstage⟩

theorem Mems.wf_of_code_priv_stage_cleared {m : Mems} (h : m.wf = true) : Mems.wf (m.1, [], [], m.2.2.2.1, []) = true := by
  obtain ⟨hloft, -, -, hmg, -⟩ := m.wf_iff.1 h
  exact (Mems.wf_iff _).2 ⟨hloft, rfl, rfl, hmg, rfl⟩

/-- A state written with other values in every other field has the same memories. -/
@[simp] theorem mems_mk (s : State) (pending : List Instr) (tick tkBase period fresh lost : Nat)
    (act shd cap lay steppedAt refs flagAt : Tab Nat) (heldGo : List Block) (scrub : List SramWord) (flash : Tab (BitVec 64))
    (eng : Tab Eng) (stb : Tab Stb) (fns : Tab FnS) (pairs : Tab PairS) (ic : Tab IcS) (rgn : Tab RgnS)
    (lastInst seenInst : Option Nat) (jumpDue : Bool) (ports : Tab PortS) (dirs : Tab DirS) (yard : YardS) (tc : Tab TCnt)
    (steps : Tab (Option (Nat × Bool × TCnt × Int))) (sv : Tab SvS) (pg : Tab PgS) (pd : PdS) (can : Tab CanS) (pm : Tab PmS)
    (pins : Tab PinS) (pinPast : Tab (List (Nat × Bool × Bool))) (tw : TwS) (pw : PwS) (boot : BootS) (host : HostS)
    (out : List Out) :
    (State.mk pending tick tkBase period fresh act shd cap lay heldGo s.loft s.code s.priv s.mg s.stage scrub lost flash eng stb fns
      pairs ic rgn lastInst seenInst jumpDue ports dirs yard tc steps steppedAt sv refs pg pd can pm pins pinPast flagAt tw pw boot host
      out).mems = s.mems := (rfl)

/-! ### Through choices, pairs and folds -/

@[simp] theorem mems_ite (c : Prop) [Decidable c] (s t : State) : (if c then s else t).mems = if c then s.mems else t.mems := apply_ite ..

@[simp] theorem wf_ite (c : Prop) [Decidable c] (a b : Mems) : (if c then a else b).wf = if c then a.wf else b.wf := apply_ite ..

@[simp] theorem st_ite (c : Prop) [Decidable c] (a b : Ans) : (if c then a else b).st = if c then a.st else b.st := apply_ite ..

@[simp] theorem snd_ite {α β : Type} (c : Prop) [Decidable c] (a b : α × β) : (if c then a else b).2 = if c then a.2 else b.2 := apply_ite ..

theorem wf_of_snd_eq {α : Type} {r : α × State} {a : α} {t : State} (h : r = (a, t)) (hr : r.2.mems.wf = true) : t.mems.wf = true := by
  subst h
  exact hr

theorem mems_of_snd_eq {α : Type} {r : α × State} {a : α} {s t : State} (h : r = (a, t)) (hr : r.2.mems = s.mems) : t.mems = s.mems := by
  subst h
  exact hr

@[simp] theorem elim_mems {α : Type} {s : State} {f : α → State} (hf : ∀ a, (f a).mems = s.mems) (o : Option α) :
    (o.elim s f).mems = s.mems := by
  cases o with
  | none => rfl
  | some a => exact hf a

section
variable {α σ : Type}

theorem foldl_mems_by (g : σ → State) {f : σ → α → σ} (hf : ∀ a x, (g (f a x)).mems = (g a).mems) (l : List α) (a : σ) :
    (g (l.foldl f a)).mems = (g a).mems := by
  induction l generalizing a with
  | nil => rfl
  | cons x l ih => rw [List.foldl_cons, ih, hf]

@[simp] theorem foldl_mems {f : State → α → State} (hf : ∀ s x, (f s x).mems = s.mems) (l : List α) (s : State) :
    (l.foldl f s).mems = s.mems := foldl_mems_by id hf l s

@[simp] theorem foldl_snd_mems {β : Type} {f : β × State → α → β × State} (hf : ∀ a x, (f a x).2.mems = a.2.mems) (l : List α)
    (a : β × State) : (l.foldl f a).2.mems = a.2.mems := foldl_mems_by Prod.snd hf l a

@[simp] theorem foldl_snd_snd_mems {β γ : Type} {f : β × γ × State → α → β × γ × State} (hf : ∀ a x, (f a x).2.2.mems = a.2.2.mems)
    (l : List α) (a : β × γ × State) : (l.foldl f a).2.2.mems = a.2.2.mems := foldl_mems_by (·.2.2) hf l a

/-- A fold keeps the canonical form when each of its steps does. -/
theorem foldl_wf_by (g : σ → State) {f : σ → α → σ} (hf : ∀ a x, (g a).mems.wf = true → (g (f a x)).mems.wf = true) (l : List α) {a : σ}
    (h : (g a).mems.wf = true) : (g (l.foldl f a)).mems.wf = true := by
  induction l generalizing a with
  | nil => exact h
  | cons x l ih => exact ih (hf a x h)

theorem foldl_wf {f : State → α → State} (hf : ∀ s x, s.mems.wf = true → (f s x).mems.wf = true) (l : List α) {s : State}
    (h : s.mems.wf = true) : (l.foldl f s).mems.wf = true := foldl_wf_by id hf l h

end

/-! ### Writes of fields, and what an instruction leaves -/

@[simp] theorem notify_mems (old new : State) : (notify old new).mems = new.mems := (rfl)

@[simp] theorem State.put_mems (s : State) (f : Fld) (v i j : Nat) : (s.put f v i j).mems = s.mems := (rfl)

@[simp] theorem State.bump_mems (s : State) (f : Fld) (i j n : Nat) : (s.bump f i j n).mems = s.mems := (rfl)

/-- The state that an instruction leaves. -/
def Eff.state : Eff → State
  | .next s => s
  | .goto _ s => s
  | .trap _ _ s => s
  | .hold s => s

/-- The state that a pin machine's instruction leaves. -/
def PmEnd.state : PmEnd → State
  | .go s => s
  | .jump _ s => s
  | .skip s => s
  | .stall _ s => s

@[simp] theorem Eff.state_ite (c : Prop) [Decidable c] (a b : Eff) :
    (if c then a else b).state = if c then a.state else b.state := apply_ite ..

@[simp] theorem PmEnd.state_ite (c : Prop) [Decidable c] (a b : PmEnd) :
    (if c then a else b).state = if c then a.state else b.state := apply_ite ..

@[simp] theorem Eff.state_next (s : State) : (Eff.next s).state = s := rfl

@[simp] theorem Eff.state_goto (a : BitVec 16) (s : State) : (Eff.goto a s).state = s := rfl

@[simp] theorem Eff.state_trap (c d : Nat) (s : State) : (Eff.trap c d s).state = s := rfl

@[simp] theorem Eff.state_hold (s : State) : (Eff.hold s).state = s := rfl

@[simp] theorem PmEnd.state_go (s : State) : (PmEnd.go s).state = s := rfl

@[simp] theorem PmEnd.state_jump (a : Nat) (s : State) : (PmEnd.jump a s).state = s := rfl

@[simp] theorem PmEnd.state_skip (s : State) : (PmEnd.skip s).state = s := rfl

@[simp] theorem PmEnd.state_stall (c : Nat) (s : State) : (PmEnd.stall c s).state = s := rfl

/-- The effect of an instruction keeps the canonical form. -/
def Body.Keeps (b : Body) : Prop := ∀ i e s, s.mems.wf = true → (b i e s).state.mems.wf = true

/-! ### Words, fields and counters -/

@[simp] theorem State.putInt_mems (s : State) (f : Fld) (v : Int) (i j : Nat) : (s.putInt f v i j).mems = s.mems := (rfl)

@[simp] theorem State.putShadow_mems (s : State) (f : Fld) (v i j : Nat) : (s.putShadow f v i j).mems = s.mems := (rfl)

@[simp] theorem State.putBoth_mems (s : State) (f : Fld) (v i j : Nat) : (s.putBoth f v i j).mems = s.mems := (rfl)

@[simp] theorem State.setE_mems (s : State) (n : Nat) (x : Eng) : (s.setE n x).mems = s.mems := (rfl)

@[simp] theorem State.setSt_mems (s : State) (n : Nat) (x : Stb) : (s.setSt n x).mems = s.mems := (rfl)

@[simp] theorem State.setFn_mems (s : State) (f : Nat) (x : FnS) : (s.setFn f x).mems = s.mems := (rfl)

@[simp] theorem State.setPair_mems (s : State) (m : Nat) (x : PairS) : (s.setPair m x).mems = s.mems := (rfl)

@[simp] theorem State.setIc_mems (s : State) (t : Nat) (x : IcS) : (s.setIc t x).mems = s.mems := (rfl)

@[simp] theorem State.setRg_mems (s : State) (k : Nat) (x : RgnS) : (s.setRg k x).mems = s.mems := (rfl)

@[simp] theorem State.setPort_mems (s : State) (p : Nat) (x : PortS) : (s.setPort p x).mems = s.mems := (rfl)

@[simp] theorem State.setDir_mems (s : State) (k d : Nat) (x : DirS) : (s.setDir k d x).mems = s.mems := (rfl)

@[simp] theorem State.setCtr_mems (s : State) (i : Nat) (x : TCnt) : (s.setCtr i x).mems = s.mems := (rfl)

@[simp] theorem State.setServo_mems (s : State) (j : Nat) (x : SvS) : (s.setServo j x).mems = s.mems := (rfl)

@[simp] theorem State.setPulse_mems (s : State) (g : Nat) (x : PgS) : (s.setPulse g x).mems = s.mems := (rfl)

@[simp] theorem State.setCn_mems (s : State) (n : Nat) (x : CanS) : (s.setCn n x).mems = s.mems := (rfl)

@[simp] theorem State.setMach_mems (s : State) (b m : Nat) (x : PmS) : (s.setMach b m x).mems = s.mems := (rfl)

@[simp] theorem State.setPin_mems (s : State) (p : Nat) (x : PinS) : (s.setPin p x).mems = s.mems := (rfl)

@[simp] theorem State.draw_mems (s : State) : s.draw.2.mems = s.mems := (rfl)

@[simp] theorem State.emit_mems (s : State) (o : Out) : (s.emit o).mems = s.mems := (rfl)

@[simp] theorem State.cput_mems (s : State) (f : Fld) (v : Nat) (b : Block) : (s.cput f v b).mems = s.mems := (rfl)

@[simp] theorem capture_mems (b : Block) (s : State) : (capture b s).mems = s.mems := (rfl)

@[simp] theorem commitGo_mems (b : Block) (s : State) : (commitGo b s).mems = s.mems := by simp [commitGo]

@[simp] theorem gcSettle_mems (b : Block) (s : State) : (gcSettle b s).mems = s.mems := by simp [gcSettle]

@[simp] theorem activate_mems (b : Block) (s : State) : (activate b s).mems = s.mems := by simp [activate]

@[simp] theorem commitAllDirty_mems (s : State) : (commitAllDirty s).mems = s.mems := by simp [commitAllDirty]

@[simp] theorem gcCommit_mems (inst : Bool) (s : State) : (gcCommit inst s).mems = s.mems := by simp [gcCommit]

@[simp] theorem writeShadow_mems (b : Block) (f : Fld) (v i j : Nat) (s : State) : (writeShadow b f v i j s).mems = s.mems := by
  simp [writeShadow]

@[simp] theorem State.setFlash_mems (s : State) (k : Nat) (v : BitVec 64) : (s.setFlash k v).mems = s.mems := (rfl)

@[simp] theorem eraseSector_mems (sec : Nat) (s : State) : (eraseSector sec s).mems = s.mems := (rfl)

@[simp] theorem writeRecord_mems (w0 : Word) (ws : List Nat) (s : State) : (writeRecord w0 ws s).mems = s.mems := by simp [writeRecord]

@[simp] theorem logRecord_mems (typ : Nat) (ws : List Nat) (s : State) : (logRecord typ ws s).mems = s.mems := by simp [logRecord]

@[simp] theorem State.setRaw_wf (a : SramWord) (v : Stored) (s : State) (h : s.mems.wf = true) : (s.setRaw a v).mems.wf = true :=
  State.memOk_setRaw s a v h

@[simp] theorem memLog_mems (n wh eng a : Nat) (syn : BitVec 8) (s : State) : (memLog n wh eng a syn s).mems = s.mems := by simp [memLog]

@[simp] theorem countCE_mems (a : SramWord) (s : State) : (countCE a s).mems = s.mems := by
  unfold countCE
  split
  · rfl
  split <;> rfl

@[simp] theorem mbLoss_mems (s : State) : (mbLoss s).mems = s.mems := by simp [mbLoss]

@[simp] theorem countUE_mems (a : SramWord) (syn : BitVec 8) (s : State) : (countUE a syn s).mems = s.mems := by
  unfold countUE
  split
  · simp
  split <;> simp

@[simp] theorem memRead_mems (a : SramWord) (s : State) : (memRead a s).2.mems = s.mems := by
  unfold memRead
  split <;> simp

theorem mems_of_memRead {a : SramWord} {r : Rd} {s t : State} (h : memRead a s = (r, t)) : t.mems = s.mems := by rw [← memRead_mems a s, h]

@[simp] theorem memWrite_wf (a : SramWord) (w : Word) (s : State) (h : s.mems.wf = true) : (memWrite a w s).mems.wf = true :=
  State.memOk_memWrite s a w h

@[simp] theorem memUpdate_wf (a : SramWord) (f : Word → Word) (s : State) (h : s.mems.wf = true) : (memUpdate a f s).2.mems.wf = true :=
  State.memOk_memUpdate s a f h

@[simp] theorem memMerge_wf (a : SramWord) (be : BitVec 8) (v : BitVec 64) (s : State) (h : s.mems.wf = true) :
    (memMerge a be v s).2.mems.wf = true := State.memOk_memMerge s a be v h

@[simp] theorem noteOverq_mems (f : Nat) (old new : State) : (noteOverq f old new).mems = new.mems := by simp [noteOverq]

@[simp] theorem setEv_mems (e b : Nat) (s : State) : (setEv e b s).mems = s.mems := (rfl)

@[simp] theorem setIrq_mems (e n : Nat) (s : State) : (setIrq e n s).mems = s.mems := (rfl)

@[simp] theorem sendMsix_mems (v : Nat) (s : State) : (sendMsix v s).mems = s.mems := by simp [sendMsix]

@[simp] theorem unmapped_mems (off : Nat) (s : State) : (unmapped off s).mems = s.mems := (rfl)

/-! ### The Ostler -/

@[simp] theorem grantEffect_mems (u : OUse) (s : State) : (grantEffect u s).mems = s.mems := by
  unfold grantEffect
  split
  · rfl
  · split <;> rfl
  · simp
  · rfl

@[simp] theorem deferEffect_mems (u : OUse) (s : State) : (deferEffect u s).mems = s.mems := by
  unfold deferEffect
  split
  · rfl
  · rfl
  · split <;> rfl
  · rfl
  · rfl

@[simp] theorem grant_mems (r : OReq) (s : State) : (grant r s).mems = s.mems := by simp [grant]

@[simp] theorem ostlerRequest_mems (u : OUse) (units f inc : Nat) (hw : Bool) (s : State) :
    (ostlerRequest u units f inc hw s).2.mems = s.mems := by
  simp [ostlerRequest]

@[simp] theorem hwRequest_mems (u : OUse) (s : State) : (hwRequest u s).mems = s.mems := by simp [hwRequest]

@[simp] theorem reconsider_mems (l : List OReq) (s : State) : (reconsider l s).mems = s.mems := by
  induction l generalizing s with
  | nil => rfl
  | cons r l ih => simp [reconsider, ih]

@[simp] theorem returnUse_mems (u : OUse → Bool) (s : State) : (returnUse u s).mems = s.mems := (rfl)

@[simp] theorem trainLeave_mems (link : Nat) (s : State) : (trainLeave link s).2.mems = s.mems := by simp [trainLeave]

@[simp] theorem askWake_mems (n : Nat) (rel : Bool) (s : State) : (askWake n rel s).mems = s.mems := by simp [askWake]

@[simp] theorem wakeStable_mems (n : Nat) (s : State) : (wakeStable n s).mems = s.mems := by simp [wakeStable]

@[simp] theorem hwIrq_mems (e n : Nat) (s : State) : (hwIrq e n s).mems = s.mems := by simp [hwIrq]

@[simp] theorem ostlerReconsider_mems (s : State) : (ostlerReconsider s).mems = s.mems := by simp [ostlerReconsider]

@[simp] theorem dropLease_mems (i : Nat) (s : State) : (dropLease i s).mems = s.mems := (rfl)

@[simp] theorem leaseRequest_mems (w : Who) (i cnt : Nat) (s : State) : (leaseRequest w i cnt s).2.mems = s.mems := by
  unfold leaseRequest
  split <;> simp

@[simp] theorem leaseRelease_mems (w : Who) (i : Nat) (s : State) : (leaseRelease w i s).2.mems = s.mems := by
  unfold leaseRelease
  split <;> simp

@[simp] theorem cancelLeases_mems (f : Nat) (s : State) : (cancelLeases f s).mems = s.mems := by simp [cancelLeases]

@[simp] theorem waitTimeout_mems (id : Nat) (s : State) : (waitTimeout id s).mems = s.mems := by
  unfold waitTimeout
  split
  · rfl
  split
  · rfl
  split <;> rfl

@[simp] theorem dropAllLeave_mems (s : State) : (dropAllLeave s).mems = s.mems := by simp [dropAllLeave]

@[simp] theorem powerModel_mems (base : Nat) (calv : List Nat) (s : State) : (powerModel base calv s).mems = s.mems := by simp [powerModel]

end Sys2Proof.Machine
end

section
/-! What the engines, the stables, the lofts, the Manger and the time unit leave of the memories. -/

namespace Sys2Proof.Machine

/-! ### Pushes, dispatch and the overflow queues -/

@[simp] theorem syncTask_mems (e : Nat) (s : State) : (syncTask e s).mems = s.mems := (rfl)

@[simp] theorem clearIdle_mems (n : Nat) (s : State) : (clearIdle n s).mems = s.mems := (rfl)

@[simp] theorem deferTask_mems (f n : Nat) (s : State) : (deferTask f n s).mems = s.mems := by simp [deferTask]

@[simp] theorem countDone_mems (e : Nat) (s : State) : (countDone e s).mems = s.mems := by
  simp only [countDone]
  split <;> simp

@[simp] theorem leaveTask_mems (e : Nat) (keep : Bool) (s : State) : (leaveTask e keep s).mems = s.mems := (rfl)

@[simp] theorem endTask_mems (e : Nat) (keep : Bool) (s : State) : (endTask e keep s).mems = s.mems := by simp [endTask]

@[simp] theorem placeIn_mems (room e : Nat) (t : Task) (s : State) : (placeIn room e t s).mems = s.mems := by simp [placeIn]

@[simp] theorem place_mems (e : Nat) (t : Task) (s : State) : (place e t s).mems = s.mems := by simp [place]

/-- The source decides the first match; every refusal and every placing is then a case of its own for `simp`. -/
@[simp] theorem pushTask_mems (src : Option Nat) (t : Task) (s : State) : (pushTask src t s).2.mems = s.mems := by
  unfold pushTask
  cases src <;> simp <;> split <;> simp

@[simp] theorem pushTo_mems (e : Nat) (t : Task) (s : State) : (pushTo e t s).2.mems = s.mems := by simp [pushTo]

@[simp] theorem overflowMove_mems (n : Nat) (s : State) : (overflowMove n s).mems = s.mems := by
  simp only [overflowMove]
  split
  · rfl
  split <;> rfl

@[simp] theorem purgeStale_mems (s : State) : (purgeStale s).mems = s.mems := by simp [purgeStale]

@[simp] theorem takeOut_mems (x : Src) (s : State) : (takeOut x s).mems = s.mems := by
  unfold takeOut
  split <;> rfl

@[simp] theorem giveTask_mems (e : Nat) (x : Found) (s : State) : (giveTask e x s).mems = s.mems := by
  unfold giveTask
  split <;> simp

@[simp] theorem lateRecord_mems (n : Nat) (t : Task) (s : State) : (lateRecord n t s).mems = s.mems := by simp [lateRecord]

@[simp] theorem withdrawLate_mems (n : Nat) (s : State) : (withdrawLate n s).mems = s.mems := by
  have hl (l : List Task) (s : State) : (l.foldl (fun s t => lateRecord n t s) s).mems = s.mems :=
    foldl_mems (fun s t => lateRecord_mems n t s) l s
  simp only [withdrawLate, hl, State.setSt_mems]
  refine foldl_mems (fun s e => ?_) _ s
  split
  · rfl
  · rw [hl, syncTask_mems, State.setE_mems]

@[simp] theorem latePop_mems (n : Nat) (s : State) : (latePop n s).mems = s.mems := (rfl)

@[simp] theorem busyUpdate_mems (s : State) : (busyUpdate s).mems = s.mems := (rfl)

@[simp] theorem holdCapped_mems (f : Nat) (s : State) : (holdCapped f s).mems = s.mems := by simp [holdCapped]

@[simp] theorem periodStart_mems (s : State) : (periodStart s).mems = s.mems := by simp [periodStart]

@[simp] theorem startEngine_mems (e : Nat) (s : State) : (startEngine e s).mems = s.mems := (rfl)

/-- `pushTask` gets a name of its own: the kernel would otherwise evaluate it at the task word built here. -/
@[simp] theorem pushStart_mems (f : Nat) (s : State) : (pushStart f s).mems = s.mems := by
  obtain ⟨push, hpush⟩ : ∃ p, p = pushTask none := ⟨_, rfl⟩
  have hp (t : Task) : (push t s).2.mems = s.mems := by rw [hpush, pushTask_mems]
  rw [pushStart, ← hpush]
  split
  · rfl
  · exact hp _

@[simp] theorem releaseStable_mems (n : Nat) (s : State) : (releaseStable n s).mems = s.mems := by simp [releaseStable]

@[simp] theorem enginesRun_mems (n : Nat) (s : State) : (enginesRun n s).mems = s.mems := by
  unfold enginesRun
  split <;> simp

@[simp] theorem gateStable_mems (n : Nat) (s : State) : (gateStable n s).mems = s.mems := (rfl)

@[simp] theorem gateIfIdle_mems (n : Nat) (s : State) : (gateIfIdle n s).mems = s.mems := by simp [gateIfIdle]

@[simp] theorem noteStopped_mems (f : Nat) (s : State) : (noteStopped f s).mems = s.mems := by simp [noteStopped]

@[simp] theorem discardTask_mems (e : Nat) (s : State) : (discardTask e s).mems = s.mems := by simp [discardTask]

/-! ### An engine's exceptions, and the end of a command -/

@[simp] theorem haltEngine_mems (e why : Nat) (s : State) : (haltEngine e why s).mems = s.mems := by simp [haltEngine]

@[simp] theorem doubleException_mems (e cls : Nat) (s : State) : (doubleException e cls s).mems = s.mems := by simp [doubleException]

@[simp] theorem takeException_mems (e cls det : Nat) (sync : Bool) (epc enpc : BitVec 16) (s : State) :
    (takeException e cls det sync epc enpc s).mems = s.mems := by
  simp only [takeException]
  split
  · simp
  · split <;> simp [mems_of_memRead ‹_›]

@[simp] theorem faultAt_mems (e cls det : Nat) (s : State) : (faultAt e cls det s).mems = s.mems := by simp [faultAt]

@[simp] theorem returnFrom_mems (e : Nat) (s : State) : (returnFrom e s).mems = s.mems := (rfl)

@[simp] theorem finish_mems (w : Who) (a : Ans) : (finish w a).mems = a.st.mems := by cases w <;> simp [finish]

@[simp] theorem finishRead_mems (w : Who) (a : Ans) (v : Word) (pois : Bool) : (finishRead w a v pois).mems = a.st.mems := by
  cases w <;> simp [finishRead]

@[simp] theorem denied_mems (s : State) (det : Nat) : (denied s det).st.mems = s.mems := (rfl)

@[simp] theorem allow_wf (ok : Bool) {f : State → State} {s : State} (det : Nat) (hf : (f s).mems.wf = true) (h : s.mems.wf = true) :
    (allow ok s f det).st.mems.wf = true := by
  simp [allow, denied, hf, h]

@[simp] theorem open_wf {s : State} {a : Ans} (ha : a.st.mems.wf = true) (h : s.mems.wf = true) : (open_ s a).st.mems.wf = true := by
  simp [open_, ha, h]

@[simp] theorem blockAccess_wf (w : Who) {a : Ans} {s : State} (ha : a.st.mems.wf = true) (h : s.mems.wf = true) :
    (blockAccess w a s).mems.wf = true := by
  simp [blockAccess, ha, h]

@[simp] theorem blockWrite_wf (w : Who) (ok : State → Bool) {f : State → State} {s : State} (hf : (f s).mems.wf = true)
    (h : s.mems.wf = true) :
    (blockWrite w ok f s).mems.wf = true := by
  simp [blockWrite, blockAccess_wf, hf, h]

@[simp] theorem sysWrite_wf (w : Who) (ok : State → Bool) {f : State → State} {s : State} (hf : (f s).mems.wf = true)
    (h : s.mems.wf = true) :
    (sysWrite w ok f s).mems.wf = true := by
  simp [sysWrite, hf, h]

@[simp] theorem quiet_wf (w : Who) (ok : Bool) {f : State → State} {s : State} (hf : (f s).mems.wf = true) (h : s.mems.wf = true) :
    (quiet w ok f s).st.mems.wf = true := by
  simp [quiet, denied, hf, h]

@[simp] theorem blockWriteQuiet_wf (w : Who) (ok : State → Bool) {f : State → State} {s : State} (hf : (f s).mems.wf = true)
    (h : s.mems.wf = true) :
    (blockWriteQuiet w ok f s).mems.wf = true := by
  simp [blockWriteQuiet, hf, h]

@[simp] theorem sysWriteQuiet_wf (w : Who) (ok : State → Bool) {f : State → State} {s : State} (hf : (f s).mems.wf = true)
    (h : s.mems.wf = true) :
    (sysWriteQuiet w ok f s).mems.wf = true := by
  simp [sysWriteQuiet, hf, h]

/-! ### The lofts -/

@[simp] theorem startDrain_mems (n b g : Nat) (s : State) : (startDrain n b g s).mems = s.mems := (rfl)

@[simp] theorem finishRelease_mems (g : Nat) (s : State) : (finishRelease g s).mems = s.mems := by simp [finishRelease]

@[simp] theorem endDrain_mems (n b : Nat) (s : State) : (endDrain n b s).mems = s.mems := by
  simp only [endDrain]
  split
  · rfl
  split <;> simp

@[simp] theorem awaitDrain_mems (w : Who) (n a : Nat) (s : State) : (awaitDrain w n a s).mems = s.mems := by
  unfold awaitDrain
  split <;> simp

@[simp] theorem countDeny_mems (n : Nat) (s : State) : (countDeny n s).mems = s.mems := (rfl)

@[simp] theorem loftRead_mems (w : Who) (n a : Nat) (s : State) : (loftRead w n a s).2.2.mems = s.mems := by simp [loftRead]

@[simp] theorem loftWrite_wf (w : Who) (n a : Nat) (be : BitVec 8) (v : BitVec 64) (s : State) (h : s.mems.wf = true) :
    (loftWrite w n a be v s).2.mems.wf = true := by
  simp [loftWrite, h]

@[simp] theorem handoverRequest_mems (w : Who) (n b g : Nat) (s : State) : (handoverRequest w n b g s).st.mems = s.mems := by
  simp [handoverRequest]

@[simp] theorem activateSt_mems (n : Fin 16) (s : State) : (activateSt n s).mems = s.mems := by simp [activateSt]

@[simp] theorem poisonRequest_mems (w : Who) (n a : Nat) (s : State) : (poisonRequest w n a s).st.mems = s.mems := by simp [poisonRequest]

@[simp] theorem placeMark_wf (n : Nat) (s : State) (h : s.mems.wf = true) : (placeMark n s).mems.wf = true := by
  unfold placeMark
  split <;> simp [h]

@[simp] theorem scrubRead_mems (a : SramWord) (s : State) : (scrubRead a s).mems = s.mems := by
  simp only [scrubRead]
  split <;> simp

@[simp] theorem scrubWriteBack_wf (a : SramWord) (s : State) (h : s.mems.wf = true) : (scrubWriteBack a s).mems.wf = true := by
  unfold scrubWriteBack
  split
  · split <;> simp [h]
  · exact h

/-! ### Mailboxes and the interconnect -/

@[simp] theorem ring_mems (m sd : Nat) (s : State) : (ring m sd s).mems = s.mems := by
  simp only [ring]
  split <;> simp

@[simp] theorem touchPair_mems (m : Nat) (read : Bool) (s : State) : (touchPair m read s).mems = s.mems := by simp [touchPair]

@[simp] theorem mbSend_mems (m sd : Nat) (v : Word) (s : State) : (mbSend m sd v s).mems = s.mems := by
  simp only [mbSend]
  split
  · rfl
  split
  · rename_i hx
    revert hx
    split
    · split
      · rintro ⟨⟩; simp
      · split
        · rintro ⟨⟩; simp
        · rintro ⟨⟩
    · rintro ⟨⟩
  · simp

@[simp] theorem finalDisp_mems (m sd d : Nat) (s : State) : (finalDisp m sd d s).mems = s.mems := by simp [finalDisp]

@[simp] theorem popEntry_mems (m sd : Nat) (s : State) : (popEntry m sd s).mems = s.mems := (rfl)

@[simp] theorem mbTake_mems (m sd k : Nat) (s : State) : (mbTake m sd k s).2.2.mems = s.mems := by
  induction k generalizing s with
  | zero => rfl
  | succ k ih =>
    unfold mbTake
    dsimp only
    split
    · rfl
    split
    · simp [ih]
    split <;> simp [mbTake.good]

@[simp] theorem mbResync_mems (m sd : Nat) (s : State) : (mbResync m sd s).mems = s.mems := (rfl)

@[simp] theorem emptyQueue_mems (m sd : Nat) (f : Option Nat) (s : State) : (emptyQueue m sd f s).mems = s.mems := by
  simp only [emptyQueue]
  split
  · simp
  split
  · simp
  split <;> simp

@[simp] theorem emptyPair_mems (m : Nat) (f : Option Nat) (s : State) : (emptyPair m f s).mems = s.mems := by simp [emptyPair]

@[simp] theorem mbResetEmpty_mems (f : Nat) (s : State) : (mbResetEmpty f s).mems = s.mems := by simp [mbResetEmpty]

@[simp] theorem mbClearHeld_mems (f : Nat) (s : State) : (mbClearHeld f s).mems = s.mems := by simp [mbClearHeld]

@[simp] theorem rebindPair_mems (c : Tab Nat) (m : Nat) (s : State) : (rebindPair c m s).mems = s.mems := by
  simp only [rebindPair]
  split
  · rfl
  split <;> simp

@[simp] theorem activateMb_mems (s : State) : (activateMb s).mems = s.mems := by simp [activateMb]

@[simp] theorem standoff_mems (m : Nat) (s : State) : (standoff m s).mems = s.mems := by
  unfold standoff
  split <;> simp

@[simp] theorem icRequest_mems (t i f : Nat) (w : Who) (bank : Option Nat) (s : State) : (icRequest t i f w bank s).mems = s.mems := by
  simp [icRequest]

@[simp] theorem icGrant_mems (t : Nat) (b : Block) (s : State) : (icGrant t b s).mems = s.mems := by
  simp only [icGrant]
  split <;> simp

@[simp] theorem icWithdraw_mems (p : IcReq → Bool) (s : State) : (icWithdraw p s).mems = s.mems := by simp [icWithdraw]

@[simp] theorem icAbandon_mems (f : Nat) (banks : List Nat) (s : State) : (icAbandon f banks s).mems = s.mems := by simp [icAbandon]

@[simp] theorem starvation_mems (t i : Nat) (s : State) : (starvation t i s).mems = s.mems := by
  simp only [starvation]
  split <;> rfl

/-! ### The Manger -/

@[simp] theorem frontRead_mems (k i : Nat) (s : State) : (frontRead k i s).2.mems = s.mems := by simp [frontRead]

@[simp] theorem mgRead_mems (a : Nat) (s : State) : (mgRead a s).2.mems = s.mems := by
  unfold mgRead
  split <;> simp

@[simp] theorem completeSet_mems (k tag : Nat) (s : State) : (completeSet k tag s).mems = s.mems := by simp [completeSet]

@[simp] theorem regionDone_mems (w : Who) (k : Nat) (s : State) : (regionDone w k s).2.mems = s.mems := by simp [regionDone]

@[simp] theorem flipRegion_mems (n k : Nat) (s : State) : (flipRegion n k s).mems = s.mems := by simp -implicitDefEqProofs [flipRegion]

@[simp] theorem regionIrqs_mems (s : State) : (regionIrqs s).mems = s.mems := by simp [regionIrqs]

@[simp] theorem activateMg_mems (s : State) : (activateMg s).mems = s.mems := by
  unfold activateMg
  extract_lets ks val keep kept ch t t2
  have hk (t : State) (f : Fld) (k : Nat) : (keep t f k).mems = t.mems := mems_mk ..
  clear_value keep
  have hkept : kept.mems = s.mems := by
    refine foldl_mems (fun t k => ?_) _ s
    extract_lets o had t1 t2
    have h1 : t1.mems = t.mems := by simp [t1, hk]
    have h2 : t2.mems = t.mems := by simp [t2]
    split
    · split
      · rw [hk, h1]
      · exact h1
    · simp [h2]
  have ht : t2.mems = s.mems := (foldl_mems (fun s k => by simp) ch t).trans (by simp [t, hkept])
  exact (foldl_mems (fun t o => noteOverq_mems o s t) _ t2).trans ht

@[simp] theorem clearNewMarks_mems (f : Nat) (s : State) : (clearNewMarks f s).mems = s.mems := by simp [clearNewMarks]

@[simp] theorem fragment_mems (k frag : Nat) (s : State) : (fragment k frag s).2.mems = s.mems := by simp [fragment]

@[simp] theorem subscribeRegion_wf (ws : List Word) (s : State) (k : Nat) (h : s.mems.wf = true) :
    (subscribeRegion ws s k).mems.wf = true := by
  unfold subscribeRegion
  extract_lets w frag nf len tag body size good old stale s1 cur s2 cur2 x s3 s4
  have h1 : s1.mems.wf = true := by simp [s1, h]
  have h2 : s2.mems.wf = true := foldl_wf (fun s i hs => memWrite_wf _ _ s hs) _ h1
  split
  · exact h
  split
  · simp [s4, s3, h2]
  · exact h2

@[simp] theorem subscribe_wf (bs : List Byte) (s : State) (h : s.mems.wf = true) : (subscribe bs s).mems.wf = true := by
  simp only [subscribe]
  split
  · exact h
  · exact foldl_wf (fun s k hs => subscribeRegion_wf _ s k hs) _ h

/-! ### The ring of an in-passing direction -/

@[simp] theorem onDesc_wf (k d : Nat) (x : RFrame) (g : Nat) (f : Nat → Nat) (s : State) (h : s.mems.wf = true) :
    (onDesc k d x g f s).mems.wf = true := by
  unfold onDesc
  split <;> simp [h]

@[simp] theorem arriveWord_wf (k d : Nat) (x : RFrame) (i : Nat) (s : State) (h : s.mems.wf = true) :
    (arriveWord k d x i s).mems.wf = true := by
  simp [arriveWord, h]

@[simp] theorem settleDir_wf (k d : Nat) (s : State) (h : s.mems.wf = true) : (settleDir k d s).mems.wf = true := by
  refine foldl_wf (fun s n hs => ?_) _ h
  split
  · exact hs
  · dsimp only
    split
    · exact hs
    · exact foldl_wf (fun s i hs => arriveWord_wf _ _ _ _ s hs) _ hs

@[simp] theorem settleAll_wf (s : State) (h : s.mems.wf = true) : (settleAll s).mems.wf = true := by
  unfold settleAll
  split
  · exact h
  · exact foldl_wf (fun s x hs => settleDir_wf _ _ s hs) _ h

/-! ### The passage of time -/

@[simp] theorem engineTime_mems (n : Nat) (s : State) : (engineTime n s).mems = s.mems := by simp [engineTime]

@[simp] theorem noteIdle_mems (s : State) : (noteIdle s).mems = s.mems := by simp [noteIdle]

@[simp] theorem passTicks_wf (n : Nat) (s : State) (h : s.mems.wf = true) : (passTicks n s).mems.wf = true := by simp [passTicks, h]

@[simp] theorem passTo_wf (t : Nat) (s : State) (h : s.mems.wf = true) : (passTo t s).mems.wf = true := by simp [passTo, h]

@[simp] theorem passUntil_wf (i v : Nat) (s : State) (h : s.mems.wf = true) : (passUntil i v s).mems.wf = true := by simp [passUntil, h]

/-! ### System time -/

@[simp] theorem openTm_wf {s : State} {a : Ans} (ha : a.st.mems.wf = true) (h : s.mems.wf = true) : (openTm s a).st.mems.wf = true := by
  simp [openTm, ha, h]

@[simp] theorem tmWrite_wf (w : Who) (ok : State → Bool) {f : State → State} {s : State} (hf : (f s).mems.wf = true)
    (h : s.mems.wf = true) :
    (tmWrite w ok f s).mems.wf = true := by
  simp [tmWrite, hf, h]

@[simp] theorem putInc_mems (i v : Nat) (s : State) : (putInc i v s).mems = s.mems := (rfl)

@[simp] theorem holdInc_mems (i v : Nat) (s : State) : (holdInc i v s).mems = s.mems := by simp [holdInc]

@[simp] theorem writeInc_mems (i v : Nat) (s : State) : (writeInc i v s).mems = s.mems := by simp [writeInc]

@[simp] theorem keepPin_mems (p : Nat) (s : State) : (keepPin p s).mems = s.mems := (rfl)

@[simp] theorem driveTimePin_mems (p : Nat) (lvl : Bool) (trim : Nat) (s : State) : (driveTimePin p lvl trim s).mems = s.mems := by
  simp [driveTimePin]

@[simp] theorem restPin_mems (p trim : Nat) (s : State) : (restPin p trim s).mems = s.mems := by
  unfold restPin
  split <;> simp

@[simp] theorem stepPulses_mems (i old : Nat) (s : State) : (stepPulses i old s).mems = s.mems := by simp [stepPulses]

@[simp] theorem pulseRise_wf (g : Nat) (s : State) (h : s.mems.wf = true) : (pulseRise g s).mems.wf = true := by simp [pulseRise, h]

@[simp] theorem pulseFall_wf (g : Nat) (s : State) (h : s.mems.wf = true) : (pulseFall g s).mems.wf = true := by
  simp only [pulseFall]
  split
  · exact h
  split <;> (split <;> simp [h])

@[simp] theorem restartPulse_mems (g : Nat) (s : State) : (restartPulse g s).mems = s.mems := (rfl)

@[simp] theorem restartPulses_mems (gs : List Nat) (s : State) : (restartPulses gs s).mems = s.mems := by simp [restartPulses]

@[simp] theorem gateEnter_mems (p k : Nat) (s : State) : (gateEnter p k s).mems = s.mems := by simp [gateEnter]

@[simp] theorem stepGates_mems (i : Nat) (s : State) : (stepGates i s).mems = s.mems := by simp [stepGates]

@[simp] theorem stepCounter_mems (i : Nat) (x : TCnt) (s : State) : (stepCounter i x s).mems = s.mems := by simp [stepCounter]

@[simp] theorem unlockTc_mems (i : Nat) (s : State) : (unlockTc i s).mems = s.mems := by simp [unlockTc]

@[simp] theorem stepTc_mems (i : Nat) (rel : Bool) (s : State) : (stepTc i rel s).mems = s.mems := by simp [stepTc]

@[simp] theorem writeTcCtl_mems (i : Nat) (step rel unlock : Bool) (s : State) : (writeTcCtl i step rel unlock s).mems = s.mems := by
  simp [writeTcCtl]

@[simp] theorem applyStep_wf (i : Nat) (s : State) (h : s.mems.wf = true) : (applyStep i s).mems.wf = true := by
  unfold applyStep
  split <;> simp [h]

@[simp] theorem captureTime_mems (s : State) : (captureTime s).mems = s.mems := by simp [captureTime]

@[simp] theorem showSync_mems (s : State) : (showSync s).mems = s.mems := (rfl)

@[simp] theorem putTcState_mems (j v : Nat) (s : State) : (putTcState j v s).mems = s.mems := by simp [putTcState]

@[simp] theorem putSel_mems (j : Nat) (r : Option Nat) (s : State) : (putSel j r s).mems = s.mems := by
  unfold putSel
  split <;> (split <;> rfl)

@[simp] theorem setRate_mems (j : Nat) (y : Int) (s : State) : (setRate j y s).mems = s.mems := by simp [setRate]

@[simp] theorem enterAcquire_mems (j r : Nat) (s : State) : (enterAcquire j r s).mems = s.mems := by simp [enterAcquire]

@[simp] theorem switchRef_mems (j o r : Nat) (s : State) : (switchRef j o r s).mems = s.mems := by simp [switchRef]

@[simp] theorem loseRef_mems (j : Nat) (s : State) : (loseRef j s).mems = s.mems := by simp [loseRef]

@[simp] theorem reselect_mems (j : Nat) (s : State) : (reselect j s).mems = s.mems := by
  unfold reselect
  split
  · rfl
  split <;> simp

@[simp] theorem reselectAll_mems (s : State) : (reselectAll s).mems = s.mems := by simp [reselectAll]

@[simp] theorem applyRate_mems (j : Nat) (y : Int) (s : State) : (applyRate j y s).mems = s.mems := by simp [applyRate]

@[simp] theorem kindTurn_mems (j : Nat) (freq : Bool) (s : State) : (kindTurn j freq s).mems = s.mems := by simp [kindTurn]

@[simp] theorem freqSample_mems (j : Nat) (ferr : Int) (s : State) : (freqSample j ferr s).mems = s.mems := by simp [freqSample]

@[simp] theorem seedRate_mems (d : Int) (dt : Nat) (s : State) : (seedRate d dt s).2.mems = s.mems := by simp [seedRate]

@[simp] theorem phaseSample_mems (j : Nat) (theta0 : Int) (s : State) : (phaseSample j theta0 s).mems = s.mems := by
  simp only [phaseSample]
  split
  · simp
  split <;> simp

@[simp] theorem servoSample_mems (j kind : Nat) (v : Int) (s : State) : (servoSample j kind v s).mems = s.mems := by simp [servoSample]

@[simp] theorem refSample_mems (r : Nat) (v : Int) (s : State) : (refSample r v s).mems = s.mems := by simp [refSample]

@[simp] theorem writeRefOfs_mems (r : Nat) (v : Word) (s : State) : (writeRefOfs r v s).mems = s.mems := by simp [writeRefOfs]

@[simp] theorem ppsEdge_mems (sub : Nat) (s : State) : (ppsEdge sub s).mems = s.mems := by
  unfold ppsEdge
  split <;> simp

@[simp] theorem frefSample_mems (ferr : Int) (s : State) : (frefSample ferr s).mems = s.mems := by
  unfold frefSample
  split <;> simp

@[simp] theorem refTimeout_wf (r : Nat) (s : State) (h : s.mems.wf = true) : (refTimeout r s).mems.wf = true := by simp [refTimeout, h]

@[simp] theorem rampEnd_wf (j : Nat) (s : State) (h : s.mems.wf = true) : (rampEnd j s).mems.wf = true := by
  unfold rampEnd
  split <;> simp [h]

@[simp] theorem servoSwitch_mems (j : Nat) (on : Bool) (s : State) : (servoSwitch j on s).mems = s.mems := by simp [servoSwitch]

@[simp] theorem activateTm_mems (s : State) : (activateTm s).mems = s.mems := by simp [activateTm]

end Sys2Proof.Machine
end

section
/-! What the yard, the switch and the field buses leave of the memories. -/

namespace Sys2Proof.Machine

/-! ### The yard's queues and buffer -/

@[simp] theorem State.setFrame_mems (s : State) (id : Nat) (f : Option YFrame) : (s.setFrame id f).mems = s.mems := (rfl)

@[simp] theorem State.setQueue_mems (s : State) (p c : Nat) (q : List QEnt) : (s.setQueue p c q).mems = s.mems := (rfl)

@[simp] theorem State.setLaunch_mems (s : State) (p : Nat) (q : List QEnt) : (s.setLaunch p q).mems = s.mems := (rfl)

@[simp] theorem takeCells_mems (n : Nat) (s : State) : (takeCells n s).mems = s.mems := (rfl)

@[simp] theorem freeCells_mems (n : Nat) (s : State) : (freeCells n s).mems = s.mems := (rfl)

@[simp] theorem copyDone_mems (id : Nat) (how : CopyEnd) (s : State) : (copyDone id how s).mems = s.mems := by
  unfold copyDone
  split <;> simp

theorem deadCount_mems {s : State} {p : Nat} {count : State → State} (h : s.deadCount p = some count) (t : State) :
    (count t).mems = t.mems := by
  unfold State.deadCount at h
  split at h
  · cases h; rfl
  · split at h
    · cases h; rfl
    · cases h

@[simp] theorem State.setGate_mems (s : State) (p : Nat) (x : GateS) : (s.setGate p x).mems = s.mems := (rfl)

@[simp] theorem touchIdle_mems (p : Nat) (s : State) : (touchIdle p s).mems = s.mems := (rfl)

@[simp] theorem pushOut_mems (p id : Nat) (s : State) : (pushOut p id s).mems = s.mems := by
  unfold pushOut
  split <;> simp

@[simp] theorem mayTake_mems (p c : Nat) (x : YFrame) (single launch : Bool) (s : State) :
    (mayTake p c x single launch s).2.mems = s.mems := by
  simp only [mayTake]
  split
  · rfl
  split
  · rfl
  split
  · rfl
  split
  · rfl
  split <;> simp

@[simp] theorem enqueue_mems (id p c : Nat) (f : Option Nat) (launch : Bool) (s : State) : (enqueue id p c f launch s).mems = s.mems := by
  unfold enqueue
  split
  · rw [copyDone_mems, deadCount_mems ‹_›]
  · simp

@[simp] theorem storeFrame_mems (x : YFrame) (wants : List Want) (launch : Option Nat) (s : State) :
    (storeFrame x wants launch s).2.2.mems = s.mems := by
  simp [storeFrame]

/-! ### The switch -/

@[simp] theorem ddAccept_mems (src seq : Nat) (s : State) : (ddAccept src seq s).2.mems = s.mems := by
  unfold ddAccept
  split <;> simp

@[simp] theorem ddAge_wf (src : Nat) (s : State) (h : s.mems.wf = true) : (ddAge src s).mems.wf = true := by
  unfold ddAge
  split <;> simp [h]

@[simp] theorem State.setTable_mems (s : State) (t : List AtEnt) : (s.setTable t).mems = s.mems := (rfl)

@[simp] theorem atDrop_mems (mac vid : Nat) (s : State) : (atDrop mac vid s).mems = s.mems := (rfl)

@[simp] theorem atRoom_mems (mac vid : Nat) (s : State) : (atRoom mac vid s).2.mems = s.mems := by
  simp only [atRoom]
  split
  · rfl
  split <;> rfl

@[simp] theorem learn_mems (p mac vid : Nat) (s : State) : (learn p mac vid s).mems = s.mems := by
  unfold learn
  split
  · rfl
  split <;> simp

@[simp] theorem ageOut_wf (mac vid : Nat) (s : State) (h : s.mems.wf = true) : (ageOut mac vid s).mems.wf = true := by
  unfold ageOut
  split <;> simp [h]

@[simp] theorem atStart_mems (op : Nat) (s : State) : (atStart op s).mems = s.mems := by simp [atStart]

@[simp] theorem atRun_mems (op : Nat) (s : State) : (atRun op s).2.mems = s.mems := by
  simp only [atRun]
  split
  · split <;> rfl
  · simp

@[simp] theorem atComplete_mems (s : State) : (atComplete s).mems = s.mems := by
  unfold atComplete
  split <;> simp

@[simp] theorem deliverWant_mems (f c : Nat) (s : State) : (deliverWant f c s).2.mems = s.mems := by simp [deliverWant]

@[simp] theorem lookup_mems (p da vid c : Nat) (s : State) : (lookup p da vid c s).2.mems = s.mems := by
  simp only [lookup]
  split <;> simp

@[simp] theorem forward_mems (p : Nat) (x : YFrame) (ws : List Want) (s : State) : (forward p x ws s).mems = s.mems := by simp [forward]

@[simp] theorem ringReceive_mems (p : Nat) (bs : List Byte) (s : State) : (ringReceive p bs s).2.mems = s.mems := by
  unfold ringReceive
  split
  · rfl
  split
  · split <;> simp
  · split <;> simp

@[simp] theorem yardTake_mems (p : Nat) (it : RxItem) (early ctBad : Bool) (s : State) : (yardTake p it early ctBad s).2.mems = s.mems := by
  simp only [yardTake]
  split
  · simp
  split
  · simp
  split
  · split <;> simp
  · simp

theorem takeInbox_mems {p : Nat} {s t : State} {it : RxItem} (h : takeInbox p s = some (it, t)) : t.mems = s.mems := by
  unfold takeInbox at h
  split at h
  · cases h
  · obtain ⟨_, _, heq⟩ := Option.map_eq_some_iff.1 h
    cases heq
    rfl

@[simp] theorem ringMessage_mems (v : Nat) (s : State) : (ringMessage v s).mems = s.mems := by simp [ringMessage]

@[simp] theorem ringHoldoffEnd_wf (v : Nat) (s : State) (h : s.mems.wf = true) : (ringHoldoffEnd v s).mems.wf = true := by
  simp [ringHoldoffEnd, h]

@[simp] theorem moveHead_mems (r : Nat) (s : State) : (moveHead r s).mems = s.mems := (rfl)

@[simp] theorem writeW0_wf (src : FSrc) (w : Word) (s : State) (h : s.mems.wf = true) : (writeW0 src w s).mems.wf = true := by
  unfold writeW0
  split <;> simp [h]

@[simp] theorem finalW0_wf (src : FSrc) (w0 : Word) (disp cpy : Nat) (s : State) (h : s.mems.wf = true) :
    (finalW0 src w0 disp cpy s).mems.wf = true := by
  unfold finalW0
  split <;> simp [h]

@[simp] theorem submitFrame_mems (x : YFrame) (route dfn pmask : Nat) (launch : Bool) (s : State) :
    (submitFrame x route dfn pmask launch s).2.mems = s.mems := by
  simp only [submitFrame]
  split <;> simp

@[simp] theorem submitDesc_wf (src : FSrc) (chg : Nat) (w0 w1 w2 : Word) (bytes : List Byte) (denied stale : Bool) (bad : List Nat)
    (s : State) (h : s.mems.wf = true) :
    (submitDesc src chg w0 w1 w2 bytes denied stale bad s).mems.wf = true := by
  unfold submitDesc
  split
  · split <;> exact h
  · simp [h]

@[simp] theorem readLoft_mems (n a len : Nat) (s : State) : (readLoft n a len s).2.2.mems = s.mems := by simp [readLoft]

@[simp] theorem awaitBanks_mems (f n a len : Nat) (s : State) : (awaitBanks f n a len s).mems = s.mems := by simp [awaitBanks]

@[simp] theorem stableSubmit_wf (n a f inc : Nat) (s : State) (h : s.mems.wf = true) : (stableSubmit n a f inc s).mems.wf = true := by
  simp [stableSubmit, h]

@[simp] theorem State.setSubs_mems (s : State) (n : Nat) (q : List SubEnt) : (s.setSubs n q).mems = s.mems := (rfl)

@[simp] theorem serveSub_wf (j k : Nat) (s : State) (h : s.mems.wf = true) : (serveSub j k s).mems.wf = true := by
  induction k generalizing s with
  | zero => exact h
  | succ k ih =>
    unfold serveSub
    split
    · exact h
    split
    · exact h
    split
    · exact h
    · exact ih _ (stableSubmit_wf _ _ _ _ _ h)

@[simp] theorem serveSubs_wf (s : State) (h : s.mems.wf = true) : (serveSubs s).mems.wf = true :=
  foldl_wf (fun s _ hs => serveSub_wf _ _ s hs) _ h

@[simp] theorem unqueue_mems (id : Nat) (s : State) : (unqueue id s).mems = s.mems := by simp [unqueue]

@[simp] theorem dropCopies_mems (id : Nat) (x : YFrame) (s : State) : (dropCopies id x s).mems = s.mems := by simp [dropCopies]

@[simp] theorem copyComplete_wf (id : Nat) (s : State) (h : s.mems.wf = true) : (copyComplete id s).mems.wf = true := by
  unfold copyComplete
  split <;> simp [h]

@[simp] theorem subRoom_wf (n k : Nat) (s : State) (h : s.mems.wf = true) : (subRoom n k s).mems.wf = true := by
  induction k generalizing s with
  | zero => exact h
  | succ k ih =>
    unfold subRoom
    split
    · exact h
    split
    · exact ih _ (copyComplete_wf _ s h)
    · exact ih _ (serveSubs_wf s h)

@[simp] theorem writeSub_wf (w : Who) (n a : Nat) (s : State) (h : s.mems.wf = true) : (writeSub w n a s).st.mems.wf = true := by
  unfold writeSub
  split <;> simp [h]

@[simp] theorem ringSubmit_wf (r k : Nat) (d : HostDesc) (s : State) (h : s.mems.wf = true) : (ringSubmit r k d s).mems.wf = true := by
  simp [ringSubmit, h]

@[simp] theorem writeHtxTail_wf (r tail : Nat) (ds : List HostDesc) (s : State) (h : s.mems.wf = true) :
    (writeHtxTail r tail ds s).mems.wf = true := by
  unfold writeHtxTail
  dsimp only
  split
  · exact h
  · refine foldl_wf (fun s i hs => ?_) _ h
    split
    · exact ringSubmit_wf _ _ _ _ hs
    · exact hs

@[simp] theorem writeHrxTail_mems (r tail : Nat) (bufs : List Word) (s : State) : (writeHrxTail r tail bufs s).mems = s.mems := (rfl)

@[simp] theorem writeback_wf (id : Nat) (s : State) (h : s.mems.wf = true) : (writeback id s).mems.wf = true := by
  unfold writeback
  split <;> simp [h]

@[simp] theorem dropUnfit_mems (p : Nat) (s : State) : (dropUnfit p s).mems = s.mems := by
  refine foldl_mems (fun s c => ?_) _ s
  split
  · split
    · simp
    · rfl
  · rfl

@[simp] theorem readCells_mems (id : Nat) (x : YFrame) (s : State) : (readCells id x s).mems = s.mems := by simp [readCells]

@[simp] theorem freeSlot_mems (f : Nat) (s : State) : (freeSlot f s).2.mems = s.mems := by
  simp only [freeSlot]
  refine foldl_mems_by Prod.snd (fun r i => ?_) _ _
  split
  · rfl
  · simp

@[simp] theorem writeFrameWord_wf (n base : Nat) (x : YFrame) (bytes : List Byte) (i : Nat) (s : State) (h : s.mems.wf = true) :
    (writeFrameWord n base x bytes i s).2.mems.wf = true := by
  simp [writeFrameWord, h]

/-- `freeSlot` and `pushTo` get names of their own: the kernel would otherwise evaluate them. -/
@[simp] theorem deliverLoft_wf (f : Nat) (x : YFrame) (bytes : List Byte) (s : State) (h : s.mems.wf = true) :
    (deliverLoft f x bytes s).2.mems.wf = true := by
  obtain ⟨free, hf⟩ : ∃ p, p = freeSlot := ⟨_, rfl⟩
  have hfree : (free f s).2.mems.wf = true := by rw [hf, freeSlot_mems, h]
  obtain ⟨push, hp⟩ : ∃ p, p = pushTo := ⟨_, rfl⟩
  have hpush (e : Nat) (t : Task) (s : State) : (push e t s).2.mems = s.mems := by rw [hp, pushTo_mems]
  unfold deliverLoft
  rw [← hf, ← hp]
  extract_lets n size words deny
  have hdeny (s : State) : (deny s).2.mems = s.mems := by simp [deny]
  clear_value n size words deny
  split
  rename_i slot t hr
  have ht : t.mems.wf = true := wf_of_snd_eq hr hfree
  split
  · simp [ht]
  extract_lets base s1 _ s2
  have h1 : s1.mems.wf = true := by simp [s1, ht]
  have h2 : s2.mems.wf = true := by simp [s2, h1]
  clear_value s1 s2
  split
  · rw [hdeny, ht]
  split
  · simp [ht]
  split
  · rw [hdeny, h1]
  split
  rename_i d s3 hr
  have h3 : s3.mems.wf = true := wf_of_snd_eq hr (foldl_wf_by Prod.snd (fun r i hs => by simp [hs]) _ h2)
  extract_lets s4
  have h4 : s4.mems.wf = true := foldl_wf (fun s i hs => memWrite_wf _ _ s hs) _ h3
  clear_value s4
  split
  · exact h4
  · simp [hpush, h4]

@[simp] theorem deliverHost_mems (f : Nat) (x : YFrame) (bytes : List Byte) (s : State) : (deliverHost f x bytes s).mems = s.mems := by
  simp [deliverHost]

@[simp] theorem deliver_wf (f : Nat) (mark : Bool) (x : YFrame) (s : State) (h : s.mems.wf = true) :
    (deliver f mark x s).2.mems.wf = true := by
  unfold deliver
  split
  · exact h
  split
  · exact h
  split
  · split <;> simp [h]
  · split <;> simp [h]

@[simp] theorem noteDisp_mems (id d : Nat) (s : State) : (noteDisp id d s).mems = s.mems := by
  unfold noteDisp
  split <;> simp

@[simp] theorem frameDeliver_wf (id f : Nat) (s : State) (h : s.mems.wf = true) : (frameDeliver id f s).mems.wf = true := by
  unfold frameDeliver
  extract_lets s1
  have h1 : s1.mems.wf = true := by simp [s1, h]
  split
  · exact h1
  split
  · exact h1
  split
  · exact h1
  extract_lets s2 st s3 r
  have h3 : s3.mems.wf = true := by simp [s3, s2, h1]
  have hr : r.2.mems.wf = true := by simp [r, h3]
  simp [hr]

@[simp] theorem gateCycle_wf (p : Nat) (s : State) (h : s.mems.wf = true) : (gateCycle p s).mems.wf = true := by simp [gateCycle, h]

@[simp] theorem gateChange_wf (p : Nat) (s : State) (h : s.mems.wf = true) : (gateChange p s).mems.wf = true := by simp [gateChange, h]

@[simp] theorem commitGates_mems (old : State) (p : Nat) (s : State) : (commitGates old p s).mems = s.mems := by simp [commitGates]

@[simp] theorem activateYd_mems (s : State) : (activateYd s).mems = s.mems := by simp [activateYd]

@[simp] theorem launchEligible_wf (n : Nat) (s : State) (h : s.mems.wf = true) : (launchEligible n s).mems.wf = true := by
  unfold launchEligible
  split
  · exact h
  split <;> simp [h]

/-! ### The CAN FD controllers -/

@[simp] theorem canMonEnd_mems (n : Nat) (s : State) : (canMonEnd n s).mems = s.mems := by simp [canMonEnd]

@[simp] theorem canSend_mems (n : Nat) (o : Out) (s : State) : (canSend n o s).mems = s.mems := by simp [canSend]

@[simp] theorem canIrq_mems (n : Nat) (s : State) : (canIrq n s).mems = s.mems := by simp [canIrq]

@[simp] theorem canRequest_mems (n k : Nat) (s : State) : (canRequest n k s).mems = s.mems := by simp [canRequest]

@[simp] theorem canAbort_mems (n k : Nat) (s : State) : (canAbort n k s).mems = s.mems := by
  simp only [canAbort]
  split
  · rfl
  split <;> rfl

@[simp] theorem canBufWrite_mems (n k j : Nat) (v : Word) (s : State) : (canBufWrite n k j v s).mems = s.mems := by simp [canBufWrite]

@[simp] theorem canStart_mems (n : Nat) (s : State) : (canStart n s).mems = s.mems := by
  simp only [canStart]
  split
  · simp
  split <;> simp

@[simp] theorem canFifo_mems (n : Nat) (x : CanRx) (s : State) : (canFifo n x s).mems = s.mems := by simp [canFifo]

@[simp] theorem canBuf_mems (n j : Nat) (x : CanRx) (s : State) : (canBuf n j x s).mems = s.mems := by simp [canBuf]

@[simp] theorem canSort_mems (n ts : Nat) (fr : CanFrame) (s : State) : (canSort n ts fr s).mems = s.mems := by
  simp only [canSort]
  split
  · simp
  split <;> simp

@[simp] theorem canHeard_mems (n : Nat) (s : State) : (canHeard n s).mems = s.mems := (rfl)

@[simp] theorem canDrop_mems (n : Nat) (s : State) : (canDrop n s).mems = s.mems := by
  simp only [canDrop]
  split <;> simp

@[simp] theorem canState_mems (n tec : Nat) (s : State) : (canState n tec s).mems = s.mems := by simp [canState]

@[simp] theorem canGoodRx_mems (n : Nat) (s : State) : (canGoodRx n s).mems = s.mems := by simp [canGoodRx]

@[simp] theorem canEnd_mems (n : Nat) (r : CanEnd) (s : State) : (canEnd n r s).mems = s.mems := by
  simp only [canEnd]
  split
  · rfl
  split <;> simp

@[simp] theorem canLone_mems (n : Nat) (s : State) : (canLone n s).mems = s.mems := by simp [canLone]

@[simp] theorem canCount_mems (n m : Nat) (er : CanErr) (s : State) : (canCount n m er s).mems = s.mems := by simp [canCount]

@[simp] theorem canErr_mems (n : Nat) (er : CanErr) (s : State) : (canErr n er s).mems = s.mems := by simp [canErr]

@[simp] theorem canRes_mems (n : Nat) (s : State) : (canRes n s).mems = s.mems := by simp [canRes]

@[simp] theorem canReceive_mems (n : Nat) (fr : CanFrame) (s : State) : (canReceive n fr s).mems = s.mems := by simp [canReceive]

@[simp] theorem canPop_mems (n : Nat) (s : State) : (canPop n s).mems = s.mems := (rfl)

@[simp] theorem canRecover_mems (n k : Nat) (s : State) : (canRecover n k s).mems = s.mems := by simp [canRecover]

@[simp] theorem canIntegrate_mems (n : Nat) (s : State) : (canIntegrate n s).mems = s.mems := by simp [canIntegrate]

@[simp] theorem activateCan_mems (n : Fin 4) (s : State) : (activateCan n s).mems = s.mems := by simp [activateCan]

@[simp] theorem canWithdraw_mems (n : Nat) (s : State) : (canWithdraw n s).mems = s.mems := by simp [canWithdraw]

@[simp] theorem canOwnerReset_mems (f : Nat) (s : State) : (canOwnerReset f s).mems = s.mems := by simp [canOwnerReset]

/-! ### The Paddock bus -/

@[simp] theorem pdShowMode_mems (s : State) : (pdShowMode s).mems = s.mems := (rfl)

@[simp] theorem pdCycle_mems (k : Nat) (s : State) : (pdCycle k s).mems = s.mems := by simp [pdCycle]

@[simp] theorem pdPass_wf (ofs : Nat) (s : State) (h : s.mems.wf = true) : (pdPass ofs s).2.mems.wf = true := by simp [pdPass, h]

@[simp] theorem pdLead_wf (k : Nat) (s : State) (h : s.mems.wf = true) : (pdLead k s).2.mems.wf = true := by simp [pdLead, h]

@[simp] theorem pdAlign_mems (on : Bool) (s : State) : (pdAlign on s).mems = s.mems := by simp [pdAlign]

@[simp] theorem pdShow_mems (s : State) : (pdShow s).mems = s.mems := (rfl)

@[simp] theorem slotWords_mems (k : Nat) (s : State) : (slotWords k s).2.mems = s.mems := by simp [slotWords]

@[simp] theorem pdEmit_mems (k e typ : Nat) (ws : List Word) (s : State) : (pdEmit k e typ ws s).mems = s.mems := (rfl)

@[simp] theorem sendRef_mems (k e : Nat) (s : State) : (sendRef k e s).mems = s.mems := by simp [sendRef]

@[simp] theorem sendData_mems (k e : Nat) (s : State) : (sendData k e s).mems = s.mems := by simp [sendData]

@[simp] theorem sendClaim_mems (k e : Nat) (s : State) : (sendClaim k e s).mems = s.mems := by
  unfold sendClaim
  split
  · rfl
  split <;> simp

@[simp] theorem pdSend_wf (k : Nat) (s : State) (h : s.mems.wf = true) : (pdSend k s).mems.wf = true := by
  simp only [pdSend]
  split
  · exact h
  split
  · simp [h]
  split
  · simp [h]
  split <;> simp [h]

@[simp] theorem pdChannel_mems (ch k : Nat) (x : Option PdFrame × Nat) (s : State) : (pdChannel ch k x s).mems = s.mems := by
  simp only [pdChannel]
  split
  · rfl
  split
  · simp
  split <;> simp

@[simp] theorem pdBackoff_mems (k : Nat) (s : State) : (pdBackoff k s).mems = s.mems := (rfl)

@[simp] theorem pdCollide_mems (k : Nat) (s : State) : (pdCollide k s).mems = s.mems := by simp [pdCollide]

@[simp] theorem endLone_mems (s : State) : (endLone s).mems = s.mems := by simp [endLone]

@[simp] theorem acceptRef_mems (k ago : Nat) (c : PdFrame) (s : State) : (acceptRef k ago c s).mems = s.mems := by simp [acceptRef]

@[simp] theorem regionPut_wf (r i : Nat) (v : Stored) (s : State) (h : s.mems.wf = true) : (regionPut r i v s).mems.wf = true := by
  simp [regionPut, h]

@[simp] theorem mappedSlot_wf (k : Nat) (c : Option PdFrame) (s : State) (h : s.mems.wf = true) : (mappedSlot k c s).mems.wf = true := by
  unfold mappedSlot
  extract_lets r o n each s1
  have h1 : s1.mems.wf = true := by simp [s1, h]
  have he (f : Nat → State → State) (hf : ∀ i s, s.mems.wf = true → (f i s).mems.wf = true) (s : State) (hs : s.mems.wf = true) :
      (each f s).mems.wf = true := foldl_wf (fun s i hs => hf i s hs) _ hs
  clear_value each s1
  split
  rename_i t arrived hr
  have ht : t.mems.wf = true := by
    rw [← congrArg (fun r => Mems.wf (State.mems r.1)) hr]
    split
    · exact he _ (fun i s hs => regionPut_wf _ _ _ s hs) _ h
    · split
      · exact h1
      · exact he _ (fun i s hs => regionPut_wf _ _ _ _ (by simp [hs])) _ h1
      · exact he _ (fun i s hs => regionPut_wf _ _ _ s hs) _ h1
  clear hr
  extract_lets _ s2 all
  have h2 : s2.mems.wf = true := by simp [s2, ht]
  split
  · simp [h2]
  · exact h2

@[simp] theorem pdRecord_mems (k : Nat) (va vb new : Bool) (c : Option PdFrame) (s : State) : (pdRecord k va vb new c s).mems = s.mems := by
  unfold pdRecord
  split <;> simp

@[simp] theorem pdReceive_wf (k : Nat) (rx : PdRx) (s : State) (h : s.mems.wf = true) : (pdReceive k rx s).mems.wf = true := by
  unfold pdReceive
  extract_lets kind
  split
  · exact h
  split
  rename_i lag t hr
  have ht : t.mems.wf = true := wf_of_snd_eq hr (by simp [h])
  clear hr
  extract_lets ha hb s1 va vb s2 useA c begun s3 sent own mine s4 s5 s6
  have h3 : s3.mems.wf = true := by simp [s3, s2, s1, ht]
  have h5 : s5.mems.wf = true := by simp [s5, s4, h3]
  clear_value kind ha hb s1 va vb s2 useA c begun s3 sent own mine s4 s5
  have h6 : s6.mems.wf = true := by
    unfold s6
    split
    · split
      · exact h5
      · simp [h5]
    · exact h5
  split
  · exact mappedSlot_wf _ _ _ h6
  · exact h6

@[simp] theorem pdBackoffEnd_wf (k : Nat) (s : State) (h : s.mems.wf = true) : (pdBackoffEnd k s).mems.wf = true := by
  simp [pdBackoffEnd, h]

@[simp] theorem pdListen_wf (s : State) (h : s.mems.wf = true) : (pdListen s).mems.wf = true := by simp [pdListen, h]

@[simp] theorem pdConfirm_mems (pos : Nat) (c : PdFrame) (s : State) : (pdConfirm pos c s).mems = s.mems := by simp [pdConfirm]

@[simp] theorem pdSearch_wf (pos : Nat) (line : List Bool) (s : State) (h : s.mems.wf = true) : (pdSearch pos line s).mems.wf = true := by
  simp only [pdSearch]
  split
  · exact h
  split
  · exact h
  split <;> simp [h]

@[simp] theorem pdRestart_mems (s : State) : (pdRestart s).mems = s.mems := by simp [pdRestart]

@[simp] theorem endClaims_mems (old s : State) : (endClaims old s).mems = s.mems := by simp [endClaims]

@[simp] theorem activatePd_wf (s : State) (h : s.mems.wf = true) : (activatePd s).mems.wf = true := by simp [activatePd, h]

end Sys2Proof.Machine
end

section
/-! What the pin machines, redundant pairs, functions and resets leave of the memories. -/

namespace Sys2Proof.Machine

/-! ### The pin machines -/

@[simp] theorem readPins_mems (b beg : Nat) (s : State) : (readPins b beg s).2.mems = s.mems := (rfl)

@[simp] theorem pinSet_mems (b m : Nat) (f : PinS → PinS) (j : Nat) (s : State) : (pinSet b m f j s).mems = s.mems := by simp [pinSet]

@[simp] theorem startPin_mems (b j : Nat) (s : State) : (startPin b j s).mems = s.mems := (rfl)

@[simp] theorem takePins_mems (b m : Nat) (s : State) : (takePins b m s).mems = s.mems := by simp [takePins]

@[simp] theorem loadTh_mems (b m : Nat) (s : State) : (loadTh b m s).mems = s.mems := (rfl)

@[simp] theorem deliverRg_mems (b m : Nat) (s : State) : (deliverRg b m s).mems = s.mems := (rfl)

@[simp] theorem pmLoopOp_mems (b m i : Nat) (s : State) : (pmLoopOp b m i s).state.mems = s.mems := by simp [pmLoopOp]

@[simp] theorem pmSkipOp_mems (b m i beg : Nat) (s : State) : (pmSkipOp b m i beg s).state.mems = s.mems := by simp [pmSkipOp]

@[simp] theorem pmSetcOp_mems (b m i : Nat) (s : State) : (pmSetcOp b m i s).state.mems = s.mems := (rfl)

@[simp] theorem pmEmitOp_mems (b m i : Nat) (s : State) : (pmEmitOp b m i s).state.mems = s.mems := by simp [pmEmitOp]

@[simp] theorem pmTakeOp_mems (b m i beg : Nat) (s : State) : (pmTakeOp b m i beg s).state.mems = s.mems := by simp [pmTakeOp]

@[simp] theorem pmFetchOp_mems (b m i : Nat) (s : State) : (pmFetchOp b m i s).state.mems = s.mems := by simp [pmFetchOp]

@[simp] theorem pmDeliverOp_mems (b m i : Nat) (s : State) : (pmDeliverOp b m i s).state.mems = s.mems := by simp [pmDeliverOp]

@[simp] theorem pmPinsOp_mems (b m i : Nat) (s : State) : (pmPinsOp b m i s).state.mems = s.mems := by simp [pmPinsOp]

@[simp] theorem pmGmovOp_mems (b m i beg : Nat) (s : State) : (pmGmovOp b m i beg s).state.mems = s.mems := (rfl)

@[simp] theorem pmGputOp_mems (b m i : Nat) (s : State) : (pmGputOp b m i s).state.mems = s.mems := by
  unfold pmGputOp
  split <;> simp

@[simp] theorem pmWaitpOp_mems (b m i beg : Nat) (s : State) : (pmWaitpOp b m i beg s).state.mems = s.mems := by
  simp only [pmWaitpOp]
  split
  · simp
  · simp
  · simp
  split <;> simp

@[simp] theorem pmStampOp_wf (b m i : Nat) (s : State) (h : s.mems.wf = true) : (pmStampOp b m i s).state.mems.wf = true := by
  simp only [pmStampOp]
  split <;> simp [h]

@[simp] theorem raiseFlag_mems (b m f : Nat) (s : State) : (raiseFlag b m f s).mems = s.mems := by
  simp only [raiseFlag]
  split <;> simp

@[simp] theorem lowerFlag_mems (b f : Nat) (s : State) : (lowerFlag b f s).mems = s.mems := by simp [lowerFlag]

@[simp] theorem pmMarkOp_mems (b m i : Nat) (s : State) : (pmMarkOp b m i s).state.mems = s.mems := by
  unfold pmMarkOp
  split <;> simp

@[simp] theorem pmOp_wf (b m i beg : Nat) (s : State) (h : s.mems.wf = true) : (pmOp b m i beg s).state.mems.wf = true := by
  unfold pmOp
  split <;> simp [h]

@[simp] theorem sideAction_mems (b m i : Nat) (s : State) : (sideAction b m i s).mems = s.mems := by simp [sideAction]

@[simp] theorem pmAfresh_mems (b m : Nat) (s : State) : (pmAfresh b m s).mems = s.mems := (rfl)

@[simp] theorem pmComplete_mems (b m i : Nat) (injd : Bool) (s : State) (jump : Option Nat) (skip : Bool) :
    (pmComplete b m i injd s jump skip).mems = s.mems := by
  simp [pmComplete]

@[simp] theorem pmEnterStall_mems (b m i c was : Nat) (injd : Bool) (s : State) : (pmEnterStall b m i c was injd s).mems = s.mems := by
  simp [pmEnterStall]

@[simp] theorem pmFinish_mems (b m i : Nat) (injd : Bool) (was : Nat) (r : PmEnd) : (pmFinish b m i injd was r).mems = r.state.mems := by
  cases r <;> simp [pmFinish]

@[simp] theorem pmIllegal_mems (b m : Nat) (s : State) : (pmIllegal b m s).mems = s.mems := (rfl)

@[simp] theorem pmStep_wf (b m op : Nat) (s : State) (h : s.mems.wf = true) : (pmStep b m op s).mems.wf = true := by simp [pmStep, h]

@[simp] theorem pmTry_wf (b m i e : Nat) (s : State) (h : s.mems.wf = true) : (pmTry b m i e s).mems.wf = true := by simp [pmTry, h]

@[simp] theorem pmRelease_wf (b m : Nat) (s : State) (h : s.mems.wf = true) : (pmRelease b m s).mems.wf = true := by
  unfold pmRelease
  extract_lets x i e u
  have hu : u.mems.wf = true := by simp [u, h]
  split
  · exact h
  split
  · simp [hu]
  have hop : (pmOp b m i ((e - s.stepLen b m) / 256) u).state.mems.wf = true := by simp [hu]
  revert hop
  generalize pmOp b m i ((e - s.stepLen b m) / 256) u = r
  intro hop
  split
  · split
    · exact h
    · rw [pmEnterStall_mems]
      exact hop
  · simp [hop]

@[simp] theorem ptxWrite_mems (b m : Nat) (v : Word) (s : State) : (ptxWrite b m v s).mems = s.mems := by simp [ptxWrite]

@[simp] theorem prxRead_mems (b m : Nat) (s : State) : (prxRead b m s).2.mems = s.mems := by
  simp only [prxRead]
  split <;> rfl

@[simp] theorem injWrite_mems (b m : Nat) (v : BitVec 24) (s : State) : (injWrite b m v s).mems = s.mems := by simp [injWrite]

@[simp] theorem pmStart_mems (b m : Nat) (s : State) : (pmStart b m s).mems = s.mems := by simp [pmStart]

@[simp] theorem pmHalt_mems (b m : Nat) (s : State) : (pmHalt b m s).mems = s.mems := by simp [pmHalt]

@[simp] theorem pmReload_mems (b m : Nat) (s : State) : (pmReload b m s).mems = s.mems := (rfl)

@[simp] theorem pmClear_mems (b m : Nat) (s : State) : (pmClear b m s).mems = s.mems := (rfl)

@[simp] theorem writePmCtl_mems (b m : Nat) (run restart fclr : Bool) (s : State) : (writePmCtl b m run restart fclr s).mems = s.mems := by
  simp [writePmCtl]

@[simp] theorem pmOwnerReset_mems (f : Nat) (s : State) : (pmOwnerReset f s).mems = s.mems := by simp [pmOwnerReset]

@[simp] theorem activatePi_mems (b : Fin 4) (s : State) : (activatePi b s).mems = s.mems := by simp [activatePi]

/-! ### Redundant pairs -/

@[simp] theorem latchHealth_mems (s : State) : (latchHealth s).2.mems = s.mems := by
  unfold latchHealth
  split <;> rfl

@[simp] theorem startDriving_mems (s : State) : (startDriving s).mems = s.mems := by simp [startDriving]

@[simp] theorem setRole_mems (r cause : Nat) (take : Bool) (s : State) : (setRole r cause take s).mems = s.mems := by simp [setRole]

@[simp] theorem nextRole_mems (r cause : Nat) (take : Bool) (s : State) : (nextRole r cause take s).mems = s.mems := by simp [nextRole]

/-- The fold reads a range of words for each region; under names of their own the kernel leaves it unevaluated. -/
@[simp] theorem digestOf_mems (s : State) : (digestOf s).2.mems = s.mems := by
  obtain ⟨regions, hr⟩ : ∃ r, r = State.outRegions := ⟨_, rfl⟩
  obtain ⟨digest, hd⟩ : ∃ d, d = digestOf := ⟨_, rfl⟩
  rw [← hd]
  delta digestOf at hd
  rw [← hr] at hd
  simp [hd]

@[simp] theorem startTest_mems (alone : Bool) (s : State) : (startTest alone s).mems = s.mems := by simp [startTest]

@[simp] theorem testOutcome_mems (s : State) : (testOutcome s).mems = s.mems := by
  unfold testOutcome
  split <;> simp

@[simp] theorem countHealth_mems (s : State) : (countHealth s).mems = s.mems := (rfl)

@[simp] theorem healthStep_mems (s : State) : (healthStep s).mems = s.mems := by
  unfold healthStep
  extract_lets s1 _ s2 _
  have h2 : s2.mems = s.mems := by simp [s2, s1]
  clear_value s2
  split
  · exact h2
  split
  · simp [h2]
  split
  · simp [h2]
  · exact h2

@[simp] theorem returnStep_mems (n : Nat) (s : State) : (returnStep n s).mems = s.mems := by simp [returnStep]

@[simp] theorem returnAsk_mems (n : Nat) (s : State) : (returnAsk n s).mems = s.mems := by simp [returnAsk]

@[simp] theorem compareDigest_mems (m : TwMsg) (s : State) : (compareDigest m s).mems = s.mems := by simp [compareDigest]

/-- `digestOf` gets a name of its own, as in `digestOf_mems`. -/
@[simp] theorem twinInstant_mems (n : Nat) (s : State) : (twinInstant n s).mems = s.mems := by
  obtain ⟨digest, hd⟩ : ∃ d, d = digestOf := ⟨_, rfl⟩
  have hdig (s : State) : (digest s).2.mems = s.mems := by rw [hd, digestOf_mems]
  rw [twinInstant, ← hd]
  extract_lets _ nx tk s1 s2 s3
  clear_value nx tk
  have h1 : s1.mems = s.mems := by simp [s1]
  have h2 : s2.mems = s.mems := by
    unfold s2
    split <;> simp [h1]
  have h3 : s3.mems = s.mems := by simp [s3, h2]
  clear_value s3
  split
  · simp
  · simp [hdig, h3]

@[simp] theorem twinSend_mems (s : State) : (twinSend s).mems = s.mems := by simp [twinSend]

@[simp] theorem configDiffers_mems (s : State) : (configDiffers s).mems = s.mems := by simp [configDiffers]

@[simp] theorem hearPartner_mems (m : TwMsg) (s : State) : (hearPartner m s).mems = s.mems := by simp [hearPartner]

@[simp] theorem roleFrom_mems (m : TwMsg) (s : State) : (roleFrom m s).mems = s.mems := by simp [roleFrom]

@[simp] theorem swFrom_mems (m : TwMsg) (s : State) : (swFrom m s).mems = s.mems := by simp [swFrom]

@[simp] theorem twinReceive_mems (w0 w1 w2 : Word) (s : State) : (twinReceive w0 w1 w2 s).mems = s.mems := by simp [twinReceive]

@[simp] theorem partnerLost_mems (s : State) : (partnerLost s).mems = s.mems := by simp [partnerLost]

@[simp] theorem twinLink_mems (up : Bool) (s : State) : (twinLink up s).mems = s.mems := by simp [twinLink]

@[simp] theorem twinTimeout_wf (s : State) (h : s.mems.wf = true) : (twinTimeout s).mems.wf = true := by simp [twinTimeout, h]

@[simp] theorem twinListen_wf (s : State) (h : s.mems.wf = true) : (twinListen s).mems.wf = true := by
  unfold twinListen
  split <;> simp [h]

@[simp] theorem twinHoldoff_wf (s : State) (h : s.mems.wf = true) : (twinHoldoff s).mems.wf = true := by
  unfold twinHoldoff
  split
  · split
    · split <;> simp [h]
    · simp [h]
  · split
    · split <;> simp [h]
    · simp [h]

@[simp] theorem readStores_mems (s : State) : (readStores s).mems = s.mems := by simp [readStores]

/-- `digestOf` gets a name of its own, as in `digestOf_mems`. -/
@[simp] theorem selftestEnd_wf (bist late : Bool) (s : State) (h : s.mems.wf = true) : (selftestEnd bist late s).mems.wf = true := by
  obtain ⟨digest, hd⟩ : ∃ d, d = digestOf := ⟨_, rfl⟩
  have hdig (s : State) : (digest s).2.mems = s.mems := by rw [hd, digestOf_mems]
  rw [selftestEnd, ← hd]
  simp [hdig, h]

@[simp] theorem stest_mems (s : State) : (stest s).mems = s.mems := by simp [stest]

/-! ### Functions -/

@[simp] theorem requestStops_mems (f : Nat) (s : State) : (requestStops f s).mems = s.mems := by simp [requestStops]

@[simp] theorem closeFrames_mems (f : Nat) (s : State) : (closeFrames f s).mems = s.mems := by
  refine foldl_mems (fun s e => ?_) _ s
  split <;> simp

@[simp] theorem startReset_mems (f : Nat) (s : State) : (startReset f s).mems = s.mems := by simp [startReset]

@[simp] theorem requestReset_mems (f : Nat) (s : State) : (requestReset f s).mems = s.mems := by
  unfold requestReset
  split <;> simp

@[simp] theorem holdExpire_wf (f : Nat) (s : State) (h : s.mems.wf = true) : (holdExpire f s).mems.wf = true := by
  unfold holdExpire
  split
  · exact h
  split <;> simp [h]

@[simp] theorem functionStop_mems (e : Nat) (s : State) : (functionStop e s).mems = s.mems := by
  simp only [functionStop]
  split
  · rfl
  split <;> simp

@[simp] theorem dropFrame_mems (s : State) (id : Nat) : (dropFrame s id).mems = s.mems := by
  unfold dropFrame
  split <;> simp

@[simp] theorem returnBank_mems (f : Nat) (s : State) (k : Nat) : (returnBank f s k).mems = s.mems := by simp [returnBank]

@[simp] theorem abandonDelivery_mems (f p c : Nat) (s : State) (q : QEnt) : (abandonDelivery f p c s q).mems = s.mems := by
  simp only [abandonDelivery]
  split
  · rfl
  split <;> simp

@[simp] theorem abandonDeliveries_mems (f : Nat) (s : State) : (abandonDeliveries f s).mems = s.mems := by simp [abandonDeliveries]

@[simp] theorem drainEnd_wf (f : Nat) (s : State) (h : s.mems.wf = true) : (drainEnd f s).mems.wf = true := by simp [drainEnd, h]

@[simp] theorem release_mems (f : Nat) (s : State) : (release f s).mems = s.mems := by simp [release]

@[simp] theorem fnCtlWrite_wf (w : Who) (n : Nat) {f : State → State} {s : State} (hf : (f s).mems.wf = true) (h : s.mems.wf = true) :
    (fnCtlWrite w n f s).mems.wf = true := by
  cases w <;> simp [fnCtlWrite, hf, h]

@[simp] theorem defineFn_mems (s : State) (f : Nat) : (defineFn s f).mems = s.mems := by simp [defineFn]

@[simp] theorem activateFn_mems (s : State) : (activateFn s).mems = s.mems := by simp [activateFn]

/-! ### Resets -/

@[simp] theorem cutFlash_mems (s : State) : (cutFlash s).mems = s.mems := by
  unfold cutFlash
  split <;> simp

@[simp] theorem wipe_mems (keep : List Fld) (s : State) : (wipe keep s).mems = s.mems := by simp [wipe]

@[simp] theorem logicReset_mems (src : Nat) (s : State) : (logicReset src s).mems = s.mems := by simp [logicReset]

@[simp] theorem bootEvent_mems (code err sect detail : Nat) (s : State) : (bootEvent code err sect detail s).mems = s.mems := (rfl)

@[simp] theorem logBoot_mems (typ : Nat) (s : State) : (logBoot typ s).mems = s.mems := by simp [logBoot]

@[simp] theorem bootFail_mems (code err sect detail : Nat) (s : State) : (bootFail code err sect detail s).mems = s.mems := by
  simp [bootFail]

@[simp] theorem powerOff_wf (s : State) : (powerOff s).mems.wf = true := rfl

@[simp] theorem showCount_mems (s : State) : (showCount s).mems = s.mems := (rfl)

@[simp] theorem showClass_mems (pdcls : Fin 8) (s : State) : (showClass pdcls s).mems = s.mems := (rfl)

@[simp] theorem pdDetect_mems (aclass pdcls : Fin 8) (s : State) : (pdDetect aclass pdcls s).mems = s.mems := (rfl)

@[simp] theorem powerOn_wf (st : Straps) (s : State) : (powerOn st s).mems.wf = true := by
  simp only [powerOn, State.put_mems, mems_ite, showClass_mems, ite_self]
  rfl

@[simp] theorem powerOnReset_wf (st : Straps) (s : State) (h : s.mems.wf = true) : (powerOnReset st s).mems.wf = true := by
  simp [powerOnReset, h]

@[simp] theorem rstN_mems (us : Nat) (s : State) : (rstN us s).mems = s.mems := by simp [rstN]

@[simp] theorem lossOfLock_mems (s : State) : (lossOfLock s).mems = s.mems := by simp [lossOfLock]

@[simp] theorem farrierWatchdog_mems (code : Nat) (s : State) : (farrierWatchdog code s).mems = s.mems := by simp [farrierWatchdog]

@[simp] theorem rstctl_mems (key : Nat) (clr rst : Bool) (s : State) : (rstctl key clr rst s).mems = s.mems := by simp [rstctl]

@[simp] theorem overtemp_wf (s : State) : (overtemp s).mems.wf = true := by simp [overtemp]

@[simp] theorem cooled_mems (s : State) : (cooled s).mems = s.mems := (rfl)

/-! ### The cross-checks of an image -/

end Sys2Proof.Machine
end

section
/-! What the ports, the boot, in-passing forwarding, commits and the power path leave of the memories. -/

namespace Sys2Proof.Machine

/-! ### The Ethernet ports -/

@[simp] theorem pushStamp_mems (p : Nat) (r : TxStamp) (s : State) : (pushStamp p r s).mems = s.mems := by simp [pushStamp]

@[simp] theorem popStamp_mems (p : Nat) (s : State) : (popStamp p s).2.mems = s.mems := by
  unfold popStamp
  split <;> rfl

@[simp] theorem atBoundary_mems (p : Nat) (s : State) : (atBoundary p s).mems = s.mems := by
  simp only [atBoundary]
  split <;> simp

@[simp] theorem txIdle_mems (p : Nat) (s : State) : (txIdle p s).mems = s.mems := by simp [txIdle]

@[simp] theorem dropOffered_mems (p : Nat) {count : State → State} (hc : ∀ s, (count s).mems = s.mems) (s : State) :
    (dropOffered p count s).mems = s.mems := by
  simp [dropOffered, hc]

@[simp] theorem cutShort_mems (p : Nat) (good : Bool) (s : State) : (cutShort p good s).mems = s.mems := by
  simp only [cutShort]
  split
  · rfl
  split <;> rfl

@[simp] theorem startVerify_mems (p : Nat) (s : State) : (startVerify p s).mems = s.mems := (rfl)

@[simp] theorem linkUp_mems (p : Nat) (l : LinkState) (s : State) : (linkUp p l s).mems = s.mems := by simp [linkUp]

@[simp] theorem clearEgress_mems (k d : Nat) (s : State) : (clearEgress k d s).mems = s.mems := by simp [clearEgress]

@[simp] theorem restartPair_mems (k : Nat) (s : State) : (restartPair k s).mems = s.mems := by simp [restartPair]

@[simp] theorem pauseReceive_mems (p q : Nat) (s : State) : (pauseReceive p q s).mems = s.mems := by simp [pauseReceive]

@[simp] theorem pauseExpire_wf (p : Nat) (s : State) (h : s.mems.wf = true) : (pauseExpire p s).mems.wf = true := by
  unfold pauseExpire
  split <;> simp [h]

@[simp] theorem rxCount_mems (p : Nat) (fr : EthFrame) (s : State) : (rxCount p fr s).mems = s.mems := by
  unfold rxCount
  split <;> simp

@[simp] theorem macFrame_mems (p : Nat) (fr : EthFrame) (ts : Stamp) (wake : Bool) (s : State) :
    (macFrame p fr ts wake s).mems = s.mems := by
  simp [macFrame]

@[simp] theorem partsLost_mems (p : Nat) (s : State) : (partsLost p s).mems = s.mems := by simp [partsLost]

@[simp] theorem fragmentReceive_mems (p : Nat) (fr : EthFrame) (ago : Nat) (g : Frag) (s : State) :
    (fragmentReceive p fr ago g s).mems = s.mems := by
  unfold fragmentReceive
  split
  · simp
  split <;> simp

@[simp] theorem macReceive_mems (p : Nat) (fr : EthFrame) (ago : Nat) (s : State) : (macReceive p fr ago s).mems = s.mems := by
  unfold macReceive
  split
  · rfl
  split <;> simp

@[simp] theorem yardReceive_mems (p : Nat) (early : Option (EthFrame × Nat)) (s : State) : (yardReceive p early s).mems = s.mems := by
  simp only [yardReceive]
  split
  · split
    · simp [takeInbox_mems ‹_›]
    · rfl
  · simp

@[simp] theorem txStart_mems (p have_ : Nat) (s : State) : (txStart p have_ s).mems = s.mems := by
  simp only [txStart]
  split
  · split
    · simp
    split
    · simp
    split <;> simp
  · split
    · rfl
    split
    · simp
    split <;> simp

@[simp] theorem txOut_mems (p : Nat) (t : TxSt) (bytes : List Byte) (good err : Bool) (sub : Nat) (s : State) :
    (txOut p t bytes good err sub s).mems = s.mems := by
  unfold txOut
  split <;> simp

@[simp] theorem txPoisoned_mems (p : Nat) (t : TxSt) (x : YFrame) (from_ : Nat) (s : State) : (txPoisoned p t x from_ s).mems = s.mems := by
  simp [txPoisoned]

@[simp] theorem txEnd_mems (p sub : Nat) (s : State) : (txEnd p sub s).mems = s.mems := by
  unfold txEnd
  split
  · rfl
  split
  · rfl
  split
  · simp
  split
  · rfl
  split <;> simp

@[simp] theorem raiseTxTh_mems (p : Nat) (s : State) : (raiseTxTh p s).mems = s.mems := (rfl)

@[simp] theorem txUnderrun_mems (p : Nat) (pois : Bool) (n : Nat) (s : State) : (txUnderrun p pois n s).mems = s.mems := by
  unfold txUnderrun
  split
  · rfl
  split
  · rfl
  split <;> simp

@[simp] theorem txDiscard_mems (p : Nat) (t : TxSt) (s : State) : (txDiscard p t s).mems = s.mems := by simp [txDiscard]

@[simp] theorem collide_mems (p : Nat) (late : Bool) (s : State) : (collide p late s).mems = s.mems := by
  unfold collide
  split <;> simp

@[simp] theorem backoffEnd_wf (p : Nat) (s : State) (h : s.mems.wf = true) : (backoffEnd p s).mems.wf = true := by
  unfold backoffEnd
  split <;> simp [h]

@[simp] theorem verifySend_wf (p : Nat) (s : State) (h : s.mems.wf = true) : (verifySend p s).mems.wf = true := by simp [verifySend, h]

@[simp] theorem verifyResponse_mems (p : Nat) (s : State) : (verifyResponse p s).mems = s.mems := by simp [verifyResponse]

@[simp] theorem fragmentEnd_mems (p sent have_ : Nat) (s : State) : (fragmentEnd p sent have_ s).mems = s.mems := by
  unfold fragmentEnd
  split
  · rfl
  split <;> simp

@[simp] theorem lpiEnter_wf (p : Nat) (s : State) (h : s.mems.wf = true) : (lpiEnter p s).mems.wf = true := by simp [lpiEnter, h]

@[simp] theorem lpiWake_mems (p : Nat) (s : State) : (lpiWake p s).mems = s.mems := by simp [lpiWake]

@[simp] theorem receiveLpi_mems (p : Nat) (on : Bool) (s : State) : (receiveLpi p on s).mems = s.mems := by simp [receiveLpi]

/-! ### The boot -/

@[simp] theorem load_mems (s : State) (w : Wr) : (load s w).mems = s.mems := by simp [load]

@[simp] theorem loadStatic_mems (s : State) (e : Nat × Nat) : (loadStatic s e).mems = s.mems := by simp [loadStatic]

@[simp] theorem loadYard_mems (b : List Nat) (s : State) : (loadYard b s).mems = s.mems := by simp [loadYard]

@[simp] theorem defineHeld_mems (s : State) (f : Nat) : (defineHeld s f).mems = s.mems := (rfl)

@[simp] theorem startMachine_mems (s : State) (k : Nat) : (startMachine s k).mems = s.mems := by simp [startMachine]

@[simp] theorem startBlocks_mems (old s : State) : (startBlocks old s).mems = s.mems := by simp [startBlocks]

@[simp] theorem syncPairs_mems (s : State) : (syncPairs s).mems = s.mems := by simp [syncPairs]

@[simp] theorem applyFull_mems (m : Img) (src : Nat) (s : State) : (applyFull m src s).mems = s.mems := by simp [applyFull]

@[simp] theorem loadCode_wf (n : Nat) (ws : List Nat) (s : State) (h : s.mems.wf = true) : (loadCode n ws s).mems.wf = true :=
  foldl_wf (fun s _ hs => memWrite_wf _ _ s hs) _ h

@[simp] theorem loadTacks_wf (c : Nat) (s : State) (h : s.mems.wf = true) : (loadTacks c s).mems.wf = true :=
  foldl_wf (fun s _ hs => loadCode_wf _ _ s hs) _ h

@[simp] theorem releaseAll_mems (s : State) : (releaseAll s).mems = s.mems := by simp [releaseAll]

@[simp] theorem bootWith_wf (c : Nat) (m : Img) (src : Nat) (s : State) (h : s.mems.wf = true) : (bootWith c m src s).mems.wf = true := by
  unfold bootWith
  extract_lets s1
  have h1 : s1.mems.wf = true := by simp [s1, h]
  clear_value s1
  split <;> simp [h1]

@[simp] theorem layFail_mems (err sect : Nat) (s : State) : (layFail err sect s).mems = s.mems := (rfl)

@[simp] theorem tryImages_wf (c : Nat) (f : Option (Nat × Nat)) (l : List Nat) (s : State) (h : s.mems.wf = true) :
    (tryImages c f l s).mems.wf = true := by
  induction l generalizing f s with
  | nil => simp [tryImages, h]
  | cons src l ih =>
    simp only [tryImages]
    split
    · refine bootWith_wf _ _ _ _ ?_
      split <;> simp [h]
    · exact ih _ _ (by simp [h])

@[simp] theorem flashBoot_wf (s : State) (h : s.mems.wf = true) : (flashBoot s).mems.wf = true := by
  unfold flashBoot
  split <;> simp [h]

@[simp] theorem enterHalter_mems (s : State) : (enterHalter s).mems = s.mems := (rfl)

@[simp] theorem clearSram_wf (s : State) (h : s.mems.wf = true) : (clearSram s).mems.wf = true := by
  unfold clearSram
  split
  · exact Mems.wf_of_code_priv_stage_cleared h
  · rfl

@[simp] theorem pllLock_wf (s : State) (h : s.mems.wf = true) : (pllLock s).mems.wf = true := by
  simp only [pllLock]
  split
  · exact h
  split
  · simp [h]
  split <;> simp [h]

@[simp] theorem pllTimeout_wf (s : State) (h : s.mems.wf = true) : (pllTimeout s).mems.wf = true := by simp [pllTimeout, h]

@[simp] theorem pllRetry_wf (s : State) (h : s.mems.wf = true) : (pllRetry s).mems.wf = true := by simp [pllRetry, h]

@[simp] theorem readHimg_mems (n : Nat) (s : State) : (readHimg n s).mems = s.mems := by simp [readHimg]

@[simp] theorem hostImageWord_wf (w : Who) (v : Word) (s : State) (h : s.mems.wf = true) : (hostImageWord w v s).mems.wf = true := by
  simp only [hostImageWord]
  split
  · exact h
  split
  · simp [h]
  split
  · simp [h]
  split
  · simp [h]
  split <;> simp [h]

@[simp] theorem hostImageRestart_mems (s : State) : (hostImageRestart s).mems = s.mems := by simp [hostImageRestart]

@[simp] theorem hostImageTimeout_wf (s : State) (h : s.mems.wf = true) : (hostImageTimeout s).mems.wf = true := by
  simp [hostImageTimeout, h]

@[simp] theorem bootComplete_mems (s : State) : (bootComplete s).mems = s.mems := by simp [bootComplete]

@[simp] theorem bootWatchdog_wf (s : State) (h : s.mems.wf = true) : (bootWatchdog s).mems.wf = true := by
  unfold bootWatchdog
  split <;> simp [h]

/-! ### Forwarding in passing -/

@[simp] theorem inpassEvent_mems (k j : Nat) (s : State) : (inpassEvent k j s).mems = s.mems := by simp [inpassEvent]

@[simp] theorem newFrame_mems (k d sub : Nat) (s : State) : (newFrame k d sub s).2.mems = s.mems := (rfl)

@[simp] theorem postDesc_wf (k d : Nat) (x : RFrame) (g slot j : Nat) (s : State) (h : s.mems.wf = true) :
    (postDesc k d x g slot j s).mems.wf = true := by
  simp only [postDesc, inpassEvent_mems]
  refine memWrite_wf _ _ _ (memWrite_wf _ _ _ (memWrite_wf _ _ _ (memWrite_wf _ _ _ ?_)))
  split <;> simp [h]

@[simp] theorem segmentPost_wf (k d : Nat) (ws : List Word) (sub : Nat) (s : State) (h : s.mems.wf = true) :
    (segmentPost k d ws sub s).mems.wf = true := by
  unfold segmentPost
  split
  · exact h
  extract_lets found
  clear_value found
  split
  rename_i x t hr
  have ht : t.mems.wf = true := by
    rw [← congrArg (fun r => Mems.wf (State.mems r.2)) hr]
    split
    · exact h
    · simp [h]
  clear hr
  extract_lets g arr slot j run y ds ds2 s1 s2
  have h1 : s1.mems.wf = true := by simp [s1, ht]
  have h2 : s2.mems.wf = true := by
    unfold s2
    split
    · exact postDesc_wf _ _ _ _ _ _ _ (by simp [h1])
    · exact h1
  split
  · exact ht
  · exact settleDir_wf _ _ _ (by simp [h2])

@[simp] theorem relaySent_mems (k d : Nat) (x : RFrame) (len : Nat) (good : Bool) (s : State) :
    (relaySent k d x len good s).mems = s.mems := by
  simp [relaySent]

@[simp] theorem relayDone_mems (k d n : Nat) (x : RFrame) (s : State) : (relayDone k d n x s).mems = s.mems := (rfl)

@[simp] theorem relayFinish_mems (k d n : Nat) (s : State) : (relayFinish k d n s).mems = s.mems := by
  unfold relayFinish
  split
  · rfl
  split <;> simp

@[simp] theorem relayEnd_wf (k d len : Nat) (bad : Bool) (s : State) (h : s.mems.wf = true) : (relayEnd k d len bad s).mems.wf = true := by
  simp only [relayEnd]
  split
  · exact h
  split
  · exact h
  split
  · split
    · simp [h]
    split <;> simp [h]
  · split
    · simp [h]
    split <;> simp [h]

@[simp] theorem egressStart_wf (k d : Nat) (s : State) (h : s.mems.wf = true) : (egressStart k d s).mems.wf = true := by
  unfold egressStart
  split <;> simp [h]

@[simp] theorem wordLatch_wf (k d i : Nat) (s : State) (h : s.mems.wf = true) : (wordLatch k d i s).mems.wf = true := by
  unfold wordLatch
  split
  · exact h
  extract_lets lim s1 x1 r y _ s2 s3 s4
  split
  · exact h
  have h1 : s1.mems.wf = true := by simp [s1, h]
  have h2 : s2.mems.wf = true := by simp [s2, r, h1]
  split
  · simp [s4, s3, h2]
  · simp [h2]

@[simp] theorem windowWait_mems (w : Who) (k o : Nat) (s : State) : (windowWait w k o s).mems = s.mems := by simp [windowWait]

theorem windowDenied_mems {w : Who} {k o : Nat} {s : State} {a : Ans} (h : windowDenied w k o s = some a) : a.st.mems = s.mems := by
  simp only [windowDenied, denied] at h
  split at h
  · cases h; rfl
  split at h
  · cases h
  split at h
  · split at h
    · split at h
      · cases h
      · cases h; rfl
    · cases h; rfl
  · cases h; rfl

@[simp] theorem windowRead_mems (w : Who) (k o : Nat) (s : State) : (windowRead w k o s).1.st.mems = s.mems := by
  simp only [windowRead]
  split
  · rw [windowDenied_mems ‹_›, windowWait_mems]
  · split <;> simp

@[simp] theorem lateWrite_mems (w : Who) (k d seq i : Nat) (s : State) : (lateWrite w k d seq i s).mems = s.mems := by simp [lateWrite]

@[simp] theorem ringWrite_wf (w : Who) (k d r : Nat) (v : Word) (s : State) (h : s.mems.wf = true) :
    (ringWrite w k d r v s).mems.wf = true := by
  unfold ringWrite
  split <;> simp [h]

@[simp] theorem windowWrite_wf (w : Who) (k o : Nat) (v : Word) (s : State) (h : s.mems.wf = true) :
    (windowWrite w k o v s).st.mems.wf = true := by
  simp only [windowWrite]
  split
  · rw [windowDenied_mems ‹_›, windowWait_mems, h]
  · simp [denied, h]

/-! ### Links -/

@[simp] theorem cutRelay_wf (k d : Nat) (s : State) (h : s.mems.wf = true) : (cutRelay k d s).mems.wf = true := by
  unfold cutRelay
  split
  · exact h
  split <;> simp [h]

@[simp] theorem flushPort_mems (p : Nat) (s : State) : (flushPort p s).mems = s.mems := by
  unfold flushPort
  extract_lets x s1 s2 s3
  have h2 : s2.mems = s.mems := (foldl_mems (fun s t => copyDone_mems ..) _ _).trans (by simp [s1])
  have h3 : s3.mems = s.mems := by
    unfold s3
    split
    · simp [h2]
    · exact h2
  rw [dropOffered_mems _ (fun s => State.bump_mems ..), h3]

@[simp] theorem linkDown_wf (p : Nat) (s : State) (h : s.mems.wf = true) : (linkDown p s).mems.wf = true := by
  simp only [linkDown]
  split
  · exact h
  · simp only [flushPort_mems, State.put_mems]
    exact foldl_wf (fun s x hs => cutRelay_wf _ _ s hs) _ h

@[simp] theorem linkChange_wf (p : Nat) (l : LinkState) (s : State) (h : s.mems.wf = true) : (linkChange p l s).mems.wf = true := by
  simp [linkChange, h]

@[simp] theorem activateEp_wf (n : Fin 12) (s : State) (h : s.mems.wf = true) : (activateEp n s).mems.wf = true := by simp [activateEp, h]

/-! ### Commits and delta images -/

@[simp] theorem gcGo_mems (inst : Bool) (s : State) : (gcGo inst s).mems = s.mems := by simp [gcGo]

@[simp] theorem activateBlock_wf (b : Block) (s : State) (h : s.mems.wf = true) : (activateBlock b s).mems.wf = true := by
  unfold activateBlock
  split
  · exact h
  split <;> simp [h]

@[simp] theorem readStage_mems (n : Nat) (s : State) : (readStage n s).mems = s.mems := by simp [readStage]

@[simp] theorem deleteFn_mems (s : State) (f : Nat) : (deleteFn s f).mems = s.mems := by simp [deleteFn]

@[simp] theorem deltaCommit_mems (s : State) : (deltaCommit s).mems = s.mems := by
  unfold deltaCommit
  extract_lets m _ s1 s2 s3
  have h2 : s2.mems = s.mems := by
    refine (foldl_mems (fun s w => ?_) _ s1).trans (by simp [s1])
    dsimp only
    split <;> simp
  simp [s3, h2]

@[simp] theorem deltaGo_mems (s : State) : (deltaGo s).mems = s.mems := by simp [deltaGo]

@[simp] theorem deltaApply_mems (s : State) : (deltaApply s).mems = s.mems := by simp [deltaApply]

@[simp] theorem deltaDone_mems (s : State) : (deltaDone s).mems = s.mems := by
  unfold deltaDone
  split <;> simp

@[simp] theorem keyRequest_mems (k op : Nat) (s : State) : (keyRequest k op s).mems = s.mems := by simp [keyRequest]

@[simp] theorem keyprog_mems (w : Who) (k op : Nat) (s : State) : (keyprog w k op s).mems = s.mems := by
  unfold keyprog
  split <;> simp

@[simp] theorem keyEnd_mems (s : State) : (keyEnd s).mems = s.mems := by
  unfold keyEnd
  split
  · rfl
  split
  · rfl
  split <;> rfl

/-! ### The Farrier -/

@[simp] theorem flashCommand_mems (w : Who) (op sec : Nat) (unprot : Bool) (s : State) :
    (flashCommand w op sec unprot s).mems = s.mems := by
  simp [flashCommand]

@[simp] theorem programSector_mems (sec : Nat) (s : State) : (programSector sec s).mems = s.mems := by simp [programSector]

@[simp] theorem readSector_mems (sec : Nat) (s : State) : (readSector sec s).mems = s.mems := by simp [readSector]

@[simp] theorem flashComplete_mems (s : State) : (flashComplete s).mems = s.mems := by
  unfold flashComplete
  split <;> simp

@[simp] theorem calibrate_wf (p : Nat) (gap : Bool) (s : State) (h : s.mems.wf = true) : (calibrate p gap s).mems.wf = true := by
  simp [calibrate, h]

@[simp] theorem ageSecond_mems (n : Nat) (t : Int) (s : State) : (ageSecond n t s).mems = s.mems := (rfl)

@[simp] theorem thermal_mems (temp : BitVec 12) (vcore : Nat) (tj freq : List Nat) (s : State) :
    (thermal temp vcore tj freq s).mems = s.mems := by
  simp [thermal]

@[simp] theorem telFrame_mems (ws : List Word) (s : State) : (telFrame ws s).mems = s.mems := by simp [telFrame]

@[simp] theorem telemetry_mems (vint pin : Nat) (s : State) : (telemetry vint pin s).mems = s.mems := by simp [telemetry]

/-! ### The power path and the power states -/

@[simp] theorem logPower_mems (s : State) : (logPower s).mems = s.mems := by simp [logPower]

@[simp] theorem carry_mems (c : Nat) (s : State) : (carry c s).mems = s.mems := (rfl)

@[simp] theorem handOver_wf (s : State) (h : s.mems.wf = true) : (handOver s).mems.wf = true := by simp [handOver, h]

@[simp] theorem sourceFail_wf (k : Nat) (s : State) (h : s.mems.wf = true) : (sourceFail k s).mems.wf = true := by simp [sourceFail, h]

@[simp] theorem hsmDone_wf (t : Nat) (s : State) (h : s.mems.wf = true) : (hsmDone t s).mems.wf = true := by
  simp only [hsmDone]
  split <;> simp [h]

@[simp] theorem handoverEnd_wf (s : State) (h : s.mems.wf = true) : (handoverEnd s).mems.wf = true := by simp [handoverEnd, h]

@[simp] theorem handbackStart_wf (s : State) (h : s.mems.wf = true) : (handbackStart s).mems.wf = true := by
  unfold handbackStart
  split
  · exact h
  split <;> simp [h]

@[simp] theorem handbackEnd_wf (s : State) (h : s.mems.wf = true) : (handbackEnd s).mems.wf = true := by simp [handbackEnd, h]

@[simp] theorem powerGate_mems (n : Nat) (s : State) : (powerGate n s).mems = s.mems := (rfl)

@[simp] theorem dozeGate_mems (s : State) : (dozeGate s).mems = s.mems := by simp [dozeGate]

@[simp] theorem dozeEnd_mems (s : State) : (dozeEnd s).mems = s.mems := by simp [dozeEnd]

@[simp] theorem startTrans_mems (t : Nat) (s : State) : (startTrans t s).mems = s.mems := (rfl)

@[simp] theorem preempt_mems (s : State) : (preempt s).mems = s.mems := by simp [preempt]

@[simp] theorem hold_mems (t : Nat) (s : State) : (hold t s).mems = s.mems := by simp [hold]

@[simp] theorem psRequest_mems (t : Nat) (s : State) : (psRequest t s).mems = s.mems := by simp [psRequest]

@[simp] theorem forceRequest_mems (t : Nat) (s : State) : (forceRequest t s).mems = s.mems := by simp [forceRequest]

@[simp] theorem enterRest_wf (t : Nat) (s : State) (h : s.mems.wf = true) : (enterRest t s).mems.wf = true := by
  unfold enterRest
  extract_lets s1 s2
  have h1 : s1.mems.wf = true := by simp [s1, h]
  have h2 : s2.mems.wf = true := by
    unfold s2
    clear_value s1
    split
    · exact Mems.wf_of_loft_mg_cleared h1
    · exact h1
  simp [h2]

@[simp] theorem leaveRest_mems (ws : BitVec 6) (s : State) : (leaveRest ws s).mems = s.mems := by simp [leaveRest]

@[simp] theorem wakeNow_mems (ws : BitVec 6) (s : State) : (wakeNow ws s).mems = s.mems := by simp [wakeNow]

@[simp] theorem wake_mems (k : Nat) (s : State) : (wake k s).mems = s.mems := by simp [wake]

@[simp] theorem enterState_wf (t : Nat) (s : State) (h : s.mems.wf = true) : (enterState t s).mems.wf = true := by simp [enterState, h]

@[simp] theorem startHeld_mems (s : State) : (startHeld s).mems = s.mems := by simp [startHeld]

@[simp] theorem completeTrans_wf (s : State) (h : s.mems.wf = true) : (completeTrans s).mems.wf = true := by simp [completeTrans, h]

@[simp] theorem transComplete_wf (s : State) (h : s.mems.wf = true) : (transComplete s).mems.wf = true := by simp [transComplete, h]

@[simp] theorem dozeTimeout_wf (s : State) (h : s.mems.wf = true) : (dozeTimeout s).mems.wf = true := by simp [dozeTimeout, h]

@[simp] theorem gateEvent_wf (n : Nat) (s : State) (h : s.mems.wf = true) : (gateEvent n s).mems.wf = true := by simp [gateEvent, h]

@[simp] theorem sourceGood_mems (k : Nat) (s : State) : (sourceGood k s).mems = s.mems := by simp [sourceGood]

@[simp] theorem rideExpire_wf (s : State) (h : s.mems.wf = true) : (rideExpire s).mems.wf = true := by
  unfold rideExpire
  split <;> simp [h]

@[simp] theorem keepdlyExpire_wf (s : State) (h : s.mems.wf = true) : (keepdlyExpire s).mems.wf = true := by
  unfold keepdlyExpire
  split <;> simp [h]

@[simp] theorem vbakLow_mems (mv : Nat) (s : State) : (vbakLow mv s).mems = s.mems := by simp [vbakLow]

@[simp] theorem ksecAlarm_wf (s : State) (h : s.mems.wf = true) : (ksecAlarm s).mems.wf = true := by
  unfold ksecAlarm
  split <;> simp [h]

@[simp] theorem writeAlarm_mems (a : Nat) (s : State) : (writeAlarm a s).mems = s.mems := (rfl)

@[simp] theorem waitExpire_wf (id : Nat) (s : State) (h : s.mems.wf = true) : (waitExpire id s).mems.wf = true := by
  unfold waitExpire
  split <;> simp [h]

@[simp] theorem leaseAccess_wf (w : Who) {f : State → Nat × State} {s : State} (hf : (f s).2.mems.wf = true) (h : s.mems.wf = true) :
    (leaseAccess w f s).mems.wf = true := by
  simp [leaseAccess, hf, h]

end Sys2Proof.Machine
end

section
/-! What register accesses, the common instant and the host ports leave of the memories. -/

namespace Sys2Proof.Machine

/-! ### Commands of the stables and the ports -/

@[simp] theorem whenApplied_wf {f : State → State} {s : State} (hf : (f s).mems.wf = true) (h : s.mems.wf = true) :
    (whenApplied f s).mems.wf = true := by
  simp [whenApplied, hf, h]

@[simp] theorem whenLinked_wf {f : State → State} {s : State} (hf : (f s).mems.wf = true) (h : s.mems.wf = true) :
    (whenLinked f s).mems.wf = true := by
  simp [whenLinked, hf, h]

@[simp] theorem mbAccess_wf (ok : Bool) {f : State → State} {s : State} (hf : (f s).mems.wf = true) (h : s.mems.wf = true) :
    (mbAccess ok f s).st.mems.wf = true := by
  simp [mbAccess, hf, h]

@[simp] theorem sideWrite_wf (w : Who) (m sd : Nat) {f : State → State} {s : State} (hf : (f s).mems.wf = true) (h : s.mems.wf = true) :
    (sideWrite w m sd f s).mems.wf = true := blockAccess_wf w (mbAccess_wf _ hf h) h

/-! ### Register accesses -/

@[simp] theorem refuse_mems (r : RegId) (i det : Nat) (s : State) : (refuse r i det s).st.mems = s.mems := by simp [refuse]

@[simp] theorem clearRc_mems (r : RegId) (i j : Nat) (s : State) : (clearRc r i j s).mems = s.mems := by simp [clearRc]

@[simp] theorem regRead_mems (r : RegId) (i j : Nat) (s : State) : (regRead r i j s).2.mems = s.mems := by
  unfold regRead
  split <;> simp

@[simp] theorem writeFld_mems (f : Fld) (v i j : Nat) (s : State) : (writeFld f v i j s).mems = s.mems := by
  unfold writeFld
  split
  case h_4 => split <;> simp
  all_goals simp

@[simp] theorem writeFlds_mems (r : RegId) (skip : List Fld) (i j v : Nat) (s : State) : (writeFlds r skip i j v s).mems = s.mems := by
  simp [writeFlds]

@[simp] theorem dbgRun_mems (e : Nat) (step : Bool) (s : State) : (dbgRun e step s).mems = s.mems := by simp [dbgRun]

@[simp] theorem dbgHalt_mems (e : Nat) (s : State) : (dbgHalt e s).mems = s.mems := by simp [dbgHalt]

@[simp] theorem dbgWrite_mems (e : Nat) (v : Word) (s : State) : (dbgWrite e v s).mems = s.mems := by simp [dbgWrite]

@[simp] theorem eirqsWrite_mems (e v : Nat) (s : State) : (eirqsWrite e v s).mems = s.mems := (rfl)

@[simp] theorem onBit_mems (v k : Nat) {f : State → State} {s : State} (hf : (f s).mems = s.mems) : (onBit v k f s).mems = s.mems := by
  simp [onBit, hf]

@[simp] theorem writeCommit_mems (b : Block) (v : Nat) (s : State) : (writeCommit b v s).mems = s.mems := by simp [writeCommit]

@[simp] theorem writeLease_mems (w : Who) (i v : Nat) (s : State) : (writeLease w i v s).st.mems = s.mems := by simp [writeLease]

@[simp] theorem regAct_wf (w : Who) (r : RegId) (i j v : Nat) (s : State) (h : s.mems.wf = true) :
    (regAct w r i j v s).st.mems.wf = true := by
  unfold regAct
  split
  case h_4 => split <;> simp [h]
  all_goals simp [h]

@[simp] theorem readReg_mems (w : Who) (r : RegId) (i j : Nat) (s : State) : (readReg w r i j s).1.st.mems = s.mems := by
  unfold readReg
  split
  · rfl
  split <;> simp

@[simp] theorem writeReg_wf (w : Who) (r : RegId) (i j : Nat) (be : BitVec 8) (v : BitVec 64) (s : State) (h : s.mems.wf = true) :
    (writeReg w r i j be v s).st.mems.wf = true := by
  unfold writeReg
  split
  · exact h
  split <;> simp [h]

/-! ### The common instant -/

@[simp] theorem toInstant_wf (s : State) (h : s.mems.wf = true) : (toInstant s).mems.wf = true := by simp [toInstant, h]

@[simp] theorem publishFrom_mems (k n i : Nat) (s : State) : (publishFrom k n i s).mems = s.mems := by
  induction n generalizing i s with
  | zero => rfl
  | succ n ih => simp [publishFrom, ih]

@[simp] theorem publish_mems (s : State) (k : Nat) : (publish s k).mems = s.mems := by simp [publish]

@[simp] theorem instantWork_mems (s : State) : (instantWork s).mems = s.mems := by
  unfold instantWork
  extract_lets n s1 s2 s3 s4 s5 s6 s7 s8 s9
  have h2 : s2.mems = s.mems := by simp [s2, s1]
  have h5 : s5.mems = s.mems := by simp [s5, s4, s3, h2]
  simp [s9, s8, s7, s6, h5]

@[simp] theorem commonInstant_wf (s : State) (h : s.mems.wf = true) : (commonInstant s).mems.wf = true := by
  simp only [commonInstant]
  split
  · exact h
  split <;> simp [h]

/-! ### Accesses by address -/

@[simp] theorem busError_mems (det : Nat) (s : State) : (busError det s).st.mems = s.mems := (rfl)

@[simp] theorem holeAccess_mems (w : Who) (off : Nat) (s : State) : (holeAccess w off s).st.mems = s.mems := by
  unfold holeAccess
  split <;> simp

@[simp] theorem f0HoleAccess_mems (w : Who) (off : Nat) (s : State) : (f0HoleAccess w off s).st.mems = s.mems := by simp [f0HoleAccess]

@[simp] theorem mgDeny_mems (s : State) : (mgDeny s).st.mems = s.mems := (rfl)

@[simp] theorem served_mems (x : Rd × State) : (served x).1.st.mems = x.2.mems := (rfl)

@[simp] theorem busRead_mems (w : Who) (off : Nat) (p : Place) (s : State) : (busRead w off p s).1.st.mems = s.mems := by
  unfold busRead
  split
  · simp
  · simp
  · simp
  · split <;> simp
  · split <;> simp
  · split
    · rfl
    split <;> simp
  · split
    · rfl
    split <;> simp
  · split
    · rfl
    split
    · rfl
    split <;> simp
  · split
    · rfl
    split <;> simp

@[simp] theorem codeWrite_wf (w : Who) (n a : Nat) (own : Bool) (be : BitVec 8) (v : BitVec 64) (s : State) (h : s.mems.wf = true) :
    (codeWrite w n a own be v s).st.mems.wf = true := by
  unfold codeWrite
  split <;> simp [h]

@[simp] theorem busWrite_wf (w : Who) (off : Nat) (p : Place) (be : BitVec 8) (v : BitVec 64) (s : State) (h : s.mems.wf = true) :
    (busWrite w off p be v s).st.mems.wf = true := by
  unfold busWrite
  split
  case h_4 => split <;> simp [h]
  all_goals simp [h]

@[simp] theorem readSpan_mems (w : Who) (off n : Nat) (s : State) : (readSpan w off n s).mems = s.mems := by
  induction n generalizing off s with
  | zero => simp [readSpan]
  | succ n ih => simp [readSpan, ih]

@[simp] theorem commitWrite_wf (w : Who) (b : Block) (v : Nat) (s : State) (h : s.mems.wf = true) :
    (commitWrite w b v s).mems.wf = true := by
  simp [commitWrite, h]

@[simp] theorem debugRegWrite_wf (w : Who) (r : RegId) (e v : Nat) (s : State) (h : s.mems.wf = true) :
    (debugRegWrite w r e v s).mems.wf = true := by
  simp [debugRegWrite, h]

/-! ### The host ports -/

@[simp] theorem orphanFrame_mems (r : Nat) (s : State) (id : Nat) : (orphanFrame r s id).mems = s.mems := by
  unfold orphanFrame
  split
  · split <;> simp
  · rfl

@[simp] theorem resetPcieFn_mems (r : Nat) (s : State) : (resetPcieFn r s).mems = s.mems := by simp [resetPcieFn]

@[simp] theorem pcieDown_mems (s : State) : (pcieDown s).mems = s.mems := by simp [pcieDown]

@[simp] theorem pcieTrain_mems (s : State) : (pcieTrain s).mems = s.mems := by simp [pcieTrain]

@[simp] theorem unmask_mems (v : Nat) (s : State) : (unmask v s).mems = s.mems := by simp [unmask]

@[simp] theorem msixAct_mems (a : MsixAct) (s : State) : (msixAct a s).mems = s.mems := by
  unfold msixAct
  split <;> simp

@[simp] theorem readSlots_mems (w : Who) (a n : Nat) (s : State) : (readSlots w a n s).2.mems = s.mems := by
  induction n generalizing a s with
  | zero => rfl
  | succ n ih => simp [readSlots, ih]

@[simp] theorem writeBytes_wf (w : Who) (a : Nat) (bs : List Byte) (s : State) (h : s.mems.wf = true) :
    (writeBytes w a bs s).2.mems.wf = true := foldl_wf_by Prod.snd (fun p _ hp => busWrite_wf _ _ _ _ _ p.2 hp) _ h

@[simp] theorem stillRuns_mems (pend : Bool) (s : State) : (stillRuns pend s).2.mems = s.mems := by simp [stillRuns]

@[simp] theorem qspiBusy_mems (s : State) : (qspiBusy s).2.mems = s.mems := by simp [qspiBusy]

@[simp] theorem qspiRead_mems (a n : Nat) (s : State) : (qspiRead a n s).mems = s.mems := by simp [qspiRead]

@[simp] theorem qspiWrite_wf (a : Nat) (bs : List Byte) (s : State) (h : s.mems.wf = true) : (qspiWrite a bs s).mems.wf = true := by
  simp [qspiWrite, h]

@[simp] theorem qspiStatus_mems (s : State) : (qspiStatus s).mems = s.mems := by simp [qspiStatus]

@[simp] theorem qspi_wf (c a n : Nat) (bs : List Byte) (s : State) (h : s.mems.wf = true) : (qspi c a n bs s).mems.wf = true := by
  unfold qspi
  split
  · exact h
  split <;> simp [h]

@[simp] theorem i2cStart_wf (a : BitVec 7) {f : State → State} (hf : ∀ s, s.mems.wf = true → (f s).mems.wf = true) {s : State}
    (h : s.mems.wf = true) :
    (i2cStart a f s).mems.wf = true := by
  simp [i2cStart, hf, h]

@[simp] theorem i2cWriteTo_wf (o : Nat) (bs : List Byte) (s : State) (h : s.mems.wf = true) : (i2cWriteTo o bs s).mems.wf = true := by
  simp [i2cWriteTo, h]

@[simp] theorem i2cReadFrom_mems (n : Nat) (s : State) : (i2cReadFrom n s).mems = s.mems := by simp [i2cReadFrom]

@[simp] theorem jtagSelect_wf (ir : Nat) {f : State → State} (hf : ∀ s, s.mems.wf = true → (f s).mems.wf = true) {s : State}
    (h : s.mems.wf = true) :
    (jtagSelect ir f s).mems.wf = true := by
  simp [jtagSelect, hf, h]

@[simp] theorem tdo_mems (v : Nat) (s : State) : (tdo v s).mems = s.mems := by simp [tdo]

@[simp] theorem dbgaccess_wf (wr : Bool) (off : Nat) (v : Word) (s : State) (h : s.mems.wf = true) :
    (dbgaccess wr off v s).mems.wf = true := by
  unfold dbgaccess
  split <;> simp [h]

@[simp] theorem dbgScan_wf (wr : Bool) (a : BitVec 24) (v : Word) (s : State) (h : s.mems.wf = true) :
    (dbgScan wr a v s).mems.wf = true := by
  simp [dbgScan, h]

end Sys2Proof.Machine
end

section
/-! What an engine leaves of the memories, and that every step keeps them canonical. -/

namespace Sys2Proof.Machine

/-! ### Running an engine -/

@[simp] theorem finishInsn_mems (e : Nat) (i : Insn) (s : State) : (finishInsn e i s).mems = s.mems := by simp [finishInsn]

@[simp] theorem endStep_mems (e : Nat) (s : State) : (endStep e s).mems = s.mems := by simp [endStep]

@[simp] theorem settle_mems (i : Insn) (e : Fin 128) (r : Eff) : (settle i e r).mems = r.state.mems := by cases r <;> simp [settle]

@[simp] theorem fetchSlot_mems (e a : Nat) (s : State) : (fetchSlot e a s).2.mems = s.mems := by simp [fetchSlot]

@[simp] theorem fetchInsn_mems (e : Nat) (s : State) : (fetchInsn e s).2.mems = s.mems := by
  simp only [fetchInsn]
  split <;> simp

@[simp] theorem passBreak_mems (e : Nat) (s : State) : (passBreak e s).mems = s.mems := (rfl)

@[simp] theorem skipRepeat_mems (e : Nat) (s : State) : (skipRepeat e s).mems = s.mems := (rfl)

@[simp] theorem putT_mems (i : Insn) (e : Nat) (v : Word) (s : State) : (putT i e v s).mems = s.mems := (rfl)

@[simp] theorem toSlot_mems (i : Insn) (e : Nat) (taken : Bool) (dest : BitVec 16) (s : State) : (toSlot i e taken dest s).mems = s.mems :=
  (rfl)

@[simp] theorem endCurrent_mems (e : Nat) (s : State) : (endCurrent e s).mems = s.mems := by simp [endCurrent]

@[simp] theorem nextTask_mems (e : Nat) (s : State) : (nextTask e s).2.mems = s.mems := by simp [nextTask]

@[simp] theorem waitIn_mems (e : Nat) (w : Wait) (s : State) : (waitIn e w s).mems = s.mems := (rfl)

@[simp] theorem consume_mems (mask : BitVec 16) (tgt e : Nat) (s : State) : (consume mask tgt e s).mems = s.mems := (rfl)

@[simp] theorem endWait_mems (e : Nat) (s : State) : (endWait e s).mems = s.mems := by simp [endWait]

/-! ### The engines' instructions -/

theorem runFetched_wf (e : Fin 128) {b : Body} (hb : b.Keeps) (s : State) (h : s.mems.wf = true) : (runFetched e b s).mems.wf = true := by
  unfold runFetched
  split
  · rename_i t hf
    simp [mems_of_snd_eq hf (fetchInsn_mems ..), h]
  · rename_i i t hf
    have ht : t.mems.wf = true := by simp [mems_of_snd_eq hf (fetchInsn_mems ..), h]
    split
    · simp [ht]
    · rw [settle_mems]
      exact hb i e t ht

@[simp] theorem runInsn_wf (e : Fin 128) {b : Body} (hb : b.Keeps) (s : State) (h : s.mems.wf = true) : (runInsn e b s).mems.wf = true := by
  unfold runInsn
  extract_lets t
  have ht : t.mems.wf = true := by simp [t, h]
  split
  · simp [ht]
  · exact runFetched_wf e hb t ht

/-- An instruction issued keeps the memories canonical when its effect does. -/
@[simp] theorem issue_wf (e : Fin 128) (op : Nat) {b : Body} (hb : b.Keeps) (s : State) (h : s.mems.wf = true) :
    (issue e op b s).mems.wf = true := by
  unfold issue
  split
  · exact runInsn_wf e hb s h
  · exact h

section
variable {e : Fin 128} {s : State} (h : s.mems.wf = true)
include h

theorem loadThen_wf (a : Nat) {k : Word → State → Eff} (hk : ∀ v t, t.mems.wf = true → (k v t).state.mems.wf = true) :
    (loadThen e a s k).state.mems.wf = true := by
  have hr : (busRead (.engine e) 0 (engPlace e a) s).1.st.mems.wf = true := by simp [h]
  unfold loadThen
  extract_lets r
  split
  · exact hr
  split
  · exact hr
  · exact hk _ _ hr

theorem withOperand_wf (i : Insn) {k : Word → State → Eff} (hk : ∀ v t, t.mems.wf = true → (k v t).state.mems.wf = true) :
    (withOperand i e s k).state.mems.wf = true := by
  unfold withOperand
  split
  · exact hk _ _ h
  · exact loadThen_wf h _ hk

theorem storeThen_wf (a : Nat) (v : Word) {k : State → Eff} (hk : ∀ t, t.mems.wf = true → (k t).state.mems.wf = true) :
    (storeThen e a v s k).state.mems.wf = true := by
  have hr : (busWrite (.engine e) 0 (engPlace e a) 0xFF (v.setWidth 64) s).st.mems.wf = true := busWrite_wf _ _ _ _ _ _ h
  unfold storeThen
  extract_lets r
  split
  · exact hr
  · exact hk _ hr

theorem withDest_wf (i : Insn) {k : BitVec 16 → State → Eff} (hk : ∀ d t, t.mems.wf = true → (k d t).state.mems.wf = true) :
    (withDest i e s k).state.mems.wf = true := by
  unfold withDest
  split
  · exact hk _ _ h
  · exact withOperand_wf h i fun v t ht => hk _ t ht

theorem notLoft_wf (a : Nat) : (notLoft e a s).state.mems.wf = true := by
  unfold notLoft
  simp [h]

end

@[simp] theorem valueOp_keeps (f : Word → Word → Word) : Body.Keeps (valueOp f) :=
  fun i _ _ h =>
  withOperand_wf h i fun _ _ ht => by simp [ht]

theorem cmpOp_keeps (f : Word → Word → Bool) : Body.Keeps (cmpOp f) := valueOp_keeps _

@[simp] theorem carryOp_keeps (f : Word → Word → Bool → Res) : Body.Keeps (carryOp f) :=
  fun i _ _ h =>
  withOperand_wf h i fun _ _ ht => by simp [ht]

@[simp] theorem partOp_keeps (f : Eng → Word → Word → Option Word) : Body.Keeps (partOp f) :=
  fun i _ s h =>
  withOperand_wf h i fun _ _ ht => by split <;> simp [ht, h]

@[simp] theorem branchOp_keeps (p : Word → Bool) : Body.Keeps (branchOp p) :=
  fun i _ _ h =>
  withDest_wf h i fun _ _ ht => by simp [ht]

@[simp] theorem atomicOp_keeps (f : Word → Word → Word) : Body.Keeps (atomicOp f) := by
  intro i e s h
  unfold atomicOp
  extract_lets a
  split
  · simp [h]
  · exact notLoft_wf h _

@[simp] theorem effNop_keeps : effNop.Keeps := fun _ _ _ h => h

@[simp] theorem effSt_keeps : effSt.Keeps := fun _ _ _ h => storeThen_wf h _ _ fun _ ht => ht

@[simp] theorem effMul_keeps : effMul.Keeps := fun i _ _ h => withOperand_wf h i fun _ _ ht => by simp [ht]

@[simp] theorem effCrc16b_keeps : effCrc16b.Keeps := fun i _ _ h => withOperand_wf h i fun _ _ ht => by simp [ht]

@[simp] theorem effCrc16w_keeps : effCrc16w.Keeps := fun i _ _ h => withOperand_wf h i fun _ _ ht => by simp [ht]

@[simp] theorem effJsr_keeps : effJsr.Keeps := by
  intro i e s h
  unfold effJsr
  extract_lets sp
  split
  · exact h
  · exact withDest_wf h i fun _ _ ht => by simp [ht]

@[simp] theorem effRts_keeps : effRts.Keeps := by
  intro i e s h
  unfold effRts
  simp [h]

@[simp] theorem effTrap_keeps : effTrap.Keeps := fun i e s h => by simp [effTrap, h]

@[simp] theorem effRte_keeps : effRte.Keeps := fun i e s h => by simp [effRte, h]

@[simp] theorem effLpb_keeps : effLpb.Keeps := fun i e s h => by simp [effLpb, h]

@[simp] theorem effSev_keeps : effSev.Keeps := by
  intro i e s h
  unfold effSev
  extract_lets v
  split <;> simp [h]

@[simp] theorem effTkr_keeps : effTkr.Keeps := fun i e s h => by simp [effTkr, h]

theorem repeatable_keeps (op : Nat) : (repeatable op).Keeps := by
  unfold repeatable
  split <;> simp [effLd, effAdd, effAdc, effSub, effSbc, effAnd, effOr, effXor, effShl, effShr, effSar, effRol, effBfx, effBfi, effBsw,
    effPopc, effCmpeq, effCmpne, effCmplt, effCmpltu, effCmpge, effCmpgeu, cmpOp, effCrc32b, effCrc32w]

theorem repLoop_wf {b : Body} (hb : b.Keeps) (i : Insn) (e : Fin 128) (n : Nat) (s : State) (h : s.mems.wf = true) :
    (repLoop i b e n s).state.mems.wf = true := by
  induction n generalizing s with
  | zero => exact h
  | succ n ih =>
    have hs := hb i e s h
    unfold repLoop
    split
    · rename_i t ht
      rw [ht] at hs
      exact ih _ (by simpa using hs)
    · exact hs

@[simp] theorem effRep_keeps : effRep.Keeps := by
  intro i e s h
  unfold effRep
  extract_lets n r _ t
  have ht : t.mems.wf = true := by simp [t, h]
  split
  · exact h
  split
  · split <;> simp [ht]
  split
  · exact h
  split
  · simp [ht]
  split
  · exact ht
  have hrep := repLoop_wf (repeatable_keeps r.2.op) r.2 e n (fetchSlot e r.1.toNat t).2 (by simp [ht])
  split
  · rename_i u hu
    rw [hu] at hrep
    simpa using hrep
  · exact hrep

@[simp] theorem effRepi_keeps : effRepi.Keeps := fun i e s h => by simp [effRepi, h]

@[simp] theorem effWfe_keeps : effWfe.Keeps := fun i e s h => by simp [effWfe, h]

@[simp] theorem effWunt_keeps : effWunt.Keeps := by
  intro i e s h
  unfold effWunt
  refine withOperand_wf h i fun v t ht => ?_
  obtain ⟨diff, hd⟩ : ∃ f, f = sdiff := ⟨_, rfl⟩
  rw [← hd]
  extract_lets d u
  have hu : u.mems.wf = true := by simp [u, ht]
  split
  · simp [ht]
  · simp [hu]

@[simp] theorem effTpush_keeps : effTpush.Keeps := fun i e s h => by simp [effTpush, h]

@[simp] theorem effTnext_keeps : effTnext.Keeps := by
  intro i e s h
  unfold effTnext
  extract_lets r _ t
  have hr : r.2.mems.wf = true := by simp [r, h]
  have ht : t.mems.wf = true := by simp [t, hr]
  split
  · simp [hr]
  · simp [ht]

@[simp] theorem effTdone_keeps : effTdone.Keeps := fun i e s h => by simp [effTdone, h]

@[simp] theorem effMfsr_keeps : effMfsr.Keeps := by
  intro i e s h
  unfold effMfsr
  split <;> simp [h]

@[simp] theorem effMtsr_keeps : effMtsr.Keeps := fun i e s h => by simp [effMtsr, h]

/-! ### Every step -/

/-- What a command leaves is canonical. -/
def KeepsWf (o : Host.Outcome State Fault Refusal) : Prop := ∀ t, o = .next t → t.mems.wf = true

theorem done_keepsWf {s t : State} (h : t.mems.wf = true) : KeepsWf (done s t) := by
  rintro _ ⟨⟩
  exact h

/-- Every command keeps the memories canonical. The engines' instructions go by the form of their effect; where the arm is a
match on the state, by its cases; every other arm is one operation of the model, whose lemma above says so. -/
theorem exec_keepsWf (c : Instr) (s : State) (h : s.mems.wf = true) : KeepsWf (exec c s) := by
  cases c with
  | ld | and_ | or_ | xor_ | popc | crc32b | crc32w =>
    exact done_keepsWf (issue_wf _ _ (valueOp_keeps _) s h)
  | cmpeq | cmpne | cmplt | cmpltu | cmpge | cmpgeu => exact done_keepsWf (issue_wf _ _ (cmpOp_keeps _) s h)
  | add | adc | sub | sbc | shl | shr | sar | rol => exact done_keepsWf (issue_wf _ _ (carryOp_keeps _) s h)
  | bfx | bfi | bsw => exact done_keepsWf (issue_wf _ _ (partOp_keeps _) s h)
  | bz | bnz | bra => exact done_keepsWf (issue_wf _ _ (branchOp_keeps _) s h)
  | xch | fadd => exact done_keepsWf (issue_wf _ _ (atomicOp_keeps _) s h)
  | registerWrite | reservedHostAccess | wfeEventMatch | wuntExpire | interruptEntry | starvationDetect =>
    refine done_keepsWf ?_
    split
    · exact h
    · split <;> simp [h]
  | taskDispatch e =>
    have hn : (nextTask e s).2.mems.wf = true := by simp [h]
    refine done_keepsWf ?_
    split
    · exact h
    · dsimp only
      split
      · split
        · exact hn
        · simp [h]
      · exact hn
  | standoffDetect =>
    refine done_keepsWf (whenApplied_wf ?_ h)
    split <;> simp [h]
  | i2cWrite => exact done_keepsWf (i2cStart_wf _ (fun s hs => i2cWriteTo_wf _ _ s hs) h)
  | dbgacc => exact done_keepsWf (jtagSelect_wf _ (fun s hs => dbgScan_wf _ _ _ s hs) h)
  | _ => exact done_keepsWf (by simp [h])

/-- Settles O4: a step runs the command at the front of the queue, or lets a tick pass; neither leaves a memory that is not
canonical. -/
theorem memoriesStayCanonical : Obligations.MemoriesStayCanonical := by
  intro s t h hstep
  rw [memOk_eq_wf_mems] at h ⊢
  unfold step at hstep
  split at hstep
  · cases hstep
    simp [h]
  · exact exec_keepsWf _ _ (by simpa using h) t hstep

end Sys2Proof.Machine
end

section
/-! The statement of the mailbox pairs: what a send answers and where its word goes, what a read takes, and how RESYNC, a doorbell and the
standoff detector signal. -/

namespace Sys2Proof.Machine

/-! ### Accesses to a side's registers (R156) -/

theorem State.mbSide_of_supervisor {s : State} {w : Who} (hsup : s.supervisor w = true) (m sd : Nat) : s.mbSide w m sd = true := by
  simp [State.mbSide, hsup]

theorem sideWrite_of_supervisor {s : State} {w : Who} (hs : s.heard w = true) (ha : s.applied = true) (hsup : s.supervisor w = true)
    (m sd : Nat) (f : State → State) : sideWrite w m sd f s = finish w { st := f s } := by
  rw [sideWrite, blockAccess_of_heard hs ha, mbAccess, if_pos (State.mbSide_of_supervisor hsup m sd)]

/-! The answer to a write that is served leaves the registers, the pairs and the engines. -/

theorem finish_served_fld (w : Who) (s : State) (g : Fld) (i j : Nat) : (finish w { st := s }).fld g i j = s.fld g i j := by
  cases w <;> rfl

theorem finish_served_pair (w : Who) (s : State) (k : Nat) : (finish w { st := s }).pair k = s.pair k := by
  cases w <;> rfl

theorem finish_served_eng (w : Who) (s : State) : (finish w { st := s }).eng = s.eng := by
  cases w <;> rfl

theorem exec_mailboxSend {s : State} {w : Who} (hs : s.heard w = true) (ha : s.applied = true) (hsup : s.supervisor w = true)
    (m : Fin 1024) (sd : Fin 2) (v : Word) : exec (.mailboxSend w m sd v) s = done s (finish w { st := mbSend m sd v s }) :=
  congrArg (done s) (sideWrite_of_supervisor hs ha hsup ..)

theorem exec_mailboxResync {s : State} {w : Who} (hs : s.heard w = true) (ha : s.applied = true) (hsup : s.supervisor w = true)
    (m : Fin 1024) (sd : Fin 2) : exec (.mailboxResync w m sd) s = done s (finish w { st := mbResync m sd s }) :=
  congrArg (done s) (sideWrite_of_supervisor hs ha hsup ..)

theorem exec_doorbellRing {s : State} {w : Who} (hs : s.heard w = true) (ha : s.applied = true) (hsup : s.supervisor w = true)
    (m : Fin 1024) (sd : Fin 2) : exec (.doorbellRing w m sd) s = done s (finish w { st := ring m (1 - sd) s }) :=
  congrArg (done s) (sideWrite_of_supervisor hs ha hsup ..)

/-- A host's read shows the word, and whether it is poisoned. -/
theorem exec_mailboxReceive {s t : State} {w : Who} {m : Fin 1024} {sd : Fin 2} {v : Word} {pois : Bool} (hs : s.heard w = true)
    (ha : s.applied = true) (hsup : s.supervisor w = true) (hw : ∀ e, w ≠ .engine e) (hr : mbTake m sd 8 s = (v, pois, t)) :
    exec (.mailboxReceive w m sd) s = done s (t.emit (.resp w (if pois then 8 else 0) [v] pois)) := by
  have hread : exec (.mailboxReceive w m sd) s = done s (finishRead w { disp := if pois then 8 else 0, st := t } v pois) := by
    change execMailboxReceive w m sd s = _
    simp [execMailboxReceive, hs, ha, State.mbSide_of_supervisor hsup, hr]
  have hserved : (if pois then 8 else 0) ≠ 9 := by cases pois <;> decide
  rw [hread]
  cases w with
  | engine e => exact absurd rfl (hw e)
  | _ => simp only [finishRead, if_neg hserved]

/-! ### The queues of a pair -/

@[simp] theorem PairS.queue_setQueue (p : PairS) (sd : Nat) (q : List MEntry) : (p.setQueue sd q).queue sd = q := by
  by_cases h : sd = 0 <;> simp [PairS.queue, PairS.setQueue, h]

/-- The two queues of a pair stand apart. -/
theorem PairS.queue_setQueue_of_ne {a b : Nat} (h : a = 0 ↔ b ≠ 0) (p : PairS) (q : List MEntry) :
    (p.setQueue b q).queue a = p.queue a := by
  by_cases hb : b = 0
  · have ha : a ≠ 0 := fun e => h.1 e hb
    simp [PairS.queue, PairS.setQueue, ha, hb]
  · have ha : a = 0 := h.2 hb
    simp [PairS.queue, PairS.setQueue, ha, hb]

theorem PairS.queue_with_since (p : PairS) (x : Option Nat) (sd : Nat) : ({ p with since := x } : PairS).queue sd = p.queue sd := rfl

/-- The standoff time is all that it changes. -/
theorem touchPair_cases (m : Nat) (read : Bool) (s : State) :
    touchPair m read s = s ∨ ∃ x, touchPair m read s = s.setPair m { s.pair m with since := x } := by
  unfold touchPair
  dsimp only
  split
  · exact .inr ⟨_, rfl⟩
  · split
    · exact .inr ⟨_, rfl⟩
    · exact .inl rfl

theorem touchPair_queue (m : Nat) (read : Bool) (s : State) (sd : Nat) :
    ((touchPair m read s).pair m).queue sd = (s.pair m).queue sd := by
  rcases touchPair_cases m read s with h | ⟨x, h⟩ <;> rw [h]
  rw [State.setPair_pair, PairS.queue_with_since]

theorem touchPair_pair_ne {m k : Nat} (hk : k ≠ m) (read : Bool) (s : State) : (touchPair m read s).pair k = s.pair k := by
  rcases touchPair_cases m read s with h | ⟨x, h⟩ <;> rw [h]
  exact State.setPair_pair_ne _ _ _ _ hk

theorem touchPair_fld (m : Nat) (read : Bool) (s : State) (g : Fld) (i j : Nat) : (touchPair m read s).fld g i j = s.fld g i j := by
  rcases touchPair_cases m read s with h | ⟨x, h⟩ <;> rw [h]
  rfl

theorem touchPair_eng (m : Nat) (read : Bool) (s : State) : (touchPair m read s).eng = s.eng := by
  rcases touchPair_cases m read s with h | ⟨x, h⟩ <;> rw [h]
  rfl

/-! ### A word is sent (R157, R158) -/

/-- The entry that a send makes: the word with its check byte, and the incarnations of its sender and of the receiver it is meant for. -/
def mbEntry (m sd : Nat) (v : Word) (s : State) : MEntry :=
  { w := sealW v, sFn := s.endFn m sd, sInc := s.endInc m sd
    rInc := if (s.endFn m (1 - sd)).isSome then s.fld F.mbStat_HINC m sd else 0 }

/-- The counter of a side's words that newer ones have replaced. -/
def replacedCnt (sd : Nat) : Fld := if sd = 0 then F.mbCnt_PREA else F.mbCnt_PREB

/-- The entry goes behind the others, or in the place of the newest of eight, which shows in COL and is counted. -/
def mbEnqueue (m sd : Nat) (x : MEntry) (s : State) : State :=
  let q := (s.pair m).queue sd
  if q.length < 8 then s.setPair m ((s.pair m).setQueue sd (q ++ [x]))
  else ((s.setPair m ((s.pair m).setQueue sd (q.dropLast ++ [x]))).put F.mbStat_COL 1 m sd).bump (replacedCnt sd) m

/-- The queue with the new entry. -/
def withNewest (q : List MEntry) (x : MEntry) : List MEntry := if q.length < 8 then q ++ [x] else q.dropLast ++ [x]

theorem mbSend_of_unbound {s : State} {m sd : Nat} (h : s.endKind m sd = 0 ∨ s.endKind m (1 - sd) = 0) (v : Word) :
    mbSend m sd v s = s.put F.mbStat_WDISP 9 m sd := if_pos h

/-- A function end is bound. -/
theorem State.endKind_of_endFn {s : State} {m sd f : Nat} (h : s.endFn m sd = some f) : s.endKind m sd = 1 := by
  by_contra hk
  rw [State.endFn, if_neg hk] at h
  exact Option.some_ne_none f h.symm

theorem mbSend_of_stale {s : State} {m sd f : Nat} (hb : s.endKind m sd ≠ 0) (hf : s.endFn m (1 - sd) = some f)
    (h : s.fld F.mbStat_HV m sd = 0 ∨ s.inc f ≠ s.fld F.mbStat_HINC m sd) (v : Word) :
    mbSend m sd v s = (s.bump F.fnCnt_STALE f).put F.mbStat_WDISP 7 m sd := by
  have hbound : ¬ (s.endKind m sd = 0 ∨ s.endKind m (1 - sd) = 0) := by simp [hb, State.endKind_of_endFn hf]
  unfold mbSend
  dsimp only
  rw [if_neg hbound, hf]
  dsimp only
  rw [if_pos h]

theorem mbSend_of_resetting {s : State} {m sd f : Nat} (hb : s.endKind m sd ≠ 0) (hf : s.endFn m (1 - sd) = some f)
    (hv : s.fld F.mbStat_HV m sd ≠ 0) (hinc : s.inc f = s.fld F.mbStat_HINC m sd) (hst : s.fnState f = 3) (v : Word) :
    mbSend m sd v s = (s.bump F.fnCnt_ABANDON f).put F.mbStat_WDISP 6 m sd := by
  have hbound : ¬ (s.endKind m sd = 0 ∨ s.endKind m (1 - sd) = 0) := by simp [hb, State.endKind_of_endFn hf]
  unfold mbSend
  dsimp only
  rw [if_neg hbound, hf]
  dsimp only
  rw [if_neg (by simp [hv, hinc]), if_pos hst]

theorem mbEnqueue_pair (m sd : Nat) (x : MEntry) (s : State) (k : Nat) : (mbEnqueue m sd x s).pair k =
    (s.setPair m ((s.pair m).setQueue sd (withNewest ((s.pair m).queue sd) x))).pair k := by
  by_cases h : ((s.pair m).queue sd).length < 8 <;> simp [mbEnqueue, withNewest, h]

theorem mbEnqueue_eng (m sd : Nat) (x : MEntry) (s : State) : (mbEnqueue m sd x s).eng = s.eng := by
  rw [mbEnqueue]
  split <;> rfl

theorem id_ne_replacedCnt {g : Fld} (ha : g.id ≠ F.mbCnt_PREA.id) (hb : g.id ≠ F.mbCnt_PREB.id) (sd : Nat) :
    g.id ≠ (replacedCnt sd).id := by
  unfold replacedCnt
  split
  · exact ha
  · exact hb

/-- The binding of the ends stays. -/
theorem mbEnqueue_auto (m sd : Nat) (x : MEntry) (s : State) (i j : Nat) :
    (mbEnqueue m sd x s).fld F.mbEnd_AUTO i j = s.fld F.mbEnd_AUTO i j := by
  have hcnt : F.mbEnd_AUTO.id ≠ (replacedCnt sd).id := id_ne_replacedCnt (by decide) (by decide) sd
  rw [mbEnqueue]
  split
  · rfl
  · rw [State.bump_fld_ne _ _ _ _ _ _ _ _ hcnt, State.put_fld_ne _ _ _ _ _ _ _ _ (by decide), State.setPair_fld_get]

theorem mbEnqueue_col_of_full {m sd : Nat} {s : State} (h : 8 ≤ ((s.pair m).queue sd).length) (x : MEntry) :
    (mbEnqueue m sd x s).fld F.mbStat_COL m sd = 1 := by
  have hcnt : F.mbStat_COL.id ≠ (replacedCnt sd).id := id_ne_replacedCnt (by decide) (by decide) sd
  rw [mbEnqueue, if_neg (Nat.not_lt.mpr h), State.bump_fld_ne _ _ _ _ _ _ _ _ hcnt, State.put_fld]
  rfl

/-- A word that is queued and not rung for: the queue has it, its write is PENDING, and the pair's standoff time is kept. -/
def mbQueued (m sd : Nat) (x : MEntry) (s : State) : State := touchPair m false ((mbEnqueue m sd x s).put F.mbStat_WDISP 1 m sd)

theorem mbQueued_queue (m sd : Nat) (x : MEntry) (s : State) :
    ((mbQueued m sd x s).pair m).queue sd = withNewest ((s.pair m).queue sd) x := by
  rw [mbQueued, touchPair_queue, State.put_pair_get, mbEnqueue_pair, State.setPair_pair, PairS.queue_setQueue]

theorem mbQueued_queue_of_ne {m sd o : Nat} (h : o = 0 ↔ sd ≠ 0) (x : MEntry) (s : State) :
    ((mbQueued m sd x s).pair m).queue o = (s.pair m).queue o := by
  rw [mbQueued, touchPair_queue, State.put_pair_get, mbEnqueue_pair, State.setPair_pair, PairS.queue_setQueue_of_ne h]

theorem mbQueued_pair_ne {m k : Nat} (hk : k ≠ m) (sd : Nat) (x : MEntry) (s : State) : (mbQueued m sd x s).pair k = s.pair k := by
  rw [mbQueued, touchPair_pair_ne hk, State.put_pair_get, mbEnqueue_pair, State.setPair_pair_ne _ _ _ _ hk]

theorem mbQueued_eng (m sd : Nat) (x : MEntry) (s : State) : (mbQueued m sd x s).eng = s.eng := by
  rw [mbQueued, touchPair_eng, State.put_eng, mbEnqueue_eng]

theorem mbQueued_wdisp (m sd : Nat) (x : MEntry) (s : State) : (mbQueued m sd x s).fld F.mbStat_WDISP m sd = 1 := by
  rw [mbQueued, touchPair_fld, State.put_fld]
  rfl

theorem mbQueued_col_of_full {m sd : Nat} {s : State} (h : 8 ≤ ((s.pair m).queue sd).length) (x : MEntry) :
    (mbQueued m sd x s).fld F.mbStat_COL m sd = 1 := by
  rw [mbQueued, touchPair_fld, State.put_fld_ne _ _ _ _ _ _ _ _ (by decide), mbEnqueue_col_of_full h]

theorem mbQueued_auto (m sd : Nat) (x : MEntry) (s : State) (i j : Nat) :
    (mbQueued m sd x s).fld F.mbEnd_AUTO i j = s.fld F.mbEnd_AUTO i j := by
  rw [mbQueued, touchPair_fld, State.put_fld_ne _ _ _ _ _ _ _ _ (by decide), mbEnqueue_auto]

/-- A word that no check refuses is queued, and rings where the other end asks for it. -/
theorem mbSend_of_held {s : State} {m sd : Nat} (hb : s.endKind m sd ≠ 0) (ho : s.endKind m (1 - sd) ≠ 0)
    (hheld : ∀ f, s.endFn m (1 - sd) = some f → s.fld F.mbStat_HV m sd ≠ 0 ∧ s.inc f = s.fld F.mbStat_HINC m sd ∧ s.fnState f ≠ 3)
    (v : Word) : mbSend m sd v s = if (mbQueued m sd (mbEntry m sd v s) s).on F.mbEnd_AUTO m (1 - sd) then
      ring m (1 - sd) (mbQueued m sd (mbEntry m sd v s) s) else mbQueued m sd (mbEntry m sd v s) s := by
  have hbound : ¬ (s.endKind m sd = 0 ∨ s.endKind m (1 - sd) = 0) := by simp [hb, ho]
  unfold mbSend mbQueued mbEnqueue mbEntry
  dsimp only
  rw [if_neg hbound]
  cases hf : s.endFn m (1 - sd) with
  | none => rfl
  | some f =>
    obtain ⟨hv, hinc, hst⟩ := hheld f hf
    dsimp only
    rw [if_neg (by simp [hv, hinc]), if_neg hst]
    rfl

/-- The side across a pair. -/
theorem other_side (sd : Fin 2) : 1 - sd.val = 0 ↔ sd.val ≠ 0 := by omega

theorem mailboxSendsQueueWords : Stated.MailboxSendsQueueWords := by
  intro s w m sd v hs ha hsup
  have hexec := exec_mailboxSend hs ha hsup m sd v
  refine ⟨fun hunb => ⟨_, hexec, by rw [mbSend_of_unbound hunb]⟩,
    fun f hb hf => ⟨fun hstale => ⟨_, hexec, by rw [mbSend_of_stale hb hf hstale]⟩,
      fun hv hinc hst => ⟨_, hexec, by rw [mbSend_of_resetting hb hf hv hinc hst]⟩⟩,
    fun hb ho hheld hauto => ?_⟩
  have hoff : ¬ (mbQueued m sd (mbEntry m sd v s) s).on F.mbEnd_AUTO m (1 - sd) = true := by
    simp [State.on, mbQueued_auto, hauto]
  refine ⟨mbEntry m sd v s, readCode_sealW v, _, hexec, ?_⟩
  rw [mbSend_of_held hb ho hheld, if_neg hoff]
  simp only [State.notify_fld_get, State.notify_pair_get, State.notify_eng, finish_served_fld, finish_served_pair, finish_served_eng]
  exact ⟨mbQueued_queue .., mbQueued_queue_of_ne (other_side sd) .., mbQueued_wdisp .., fun h => mbQueued_col_of_full h _,
    mbQueued_eng .., fun k hk => mbQueued_pair_ne hk ..⟩

/-! ### A word is read (R159) -/

/-- The entry is of both sides' present incarnations. -/
def MEntry.Fresh (x : MEntry) (m sd : Nat) (s : State) : Prop :=
  (∀ f, x.sFn = some f → x.sInc = s.inc f) ∧ ∀ f, s.endFn m sd = some f → x.rInc = s.inc f

/-- An incarnation `i` carried for function `f`, if there is one, that is not its present one. -/
def State.pastInc (s : State) (f : Option Nat) (i : Nat) : Option Nat :=
  match f with
  | some f => if i ≠ s.inc f then some f else none
  | none => none

/-- The function of a past incarnation for which an entry is stale: its sender, else its receiver. -/
def MEntry.stale (x : MEntry) (m sd : Nat) (s : State) : Option Nat :=
  (s.pastInc x.sFn x.sInc).orElse fun _ => s.pastInc (s.endFn m sd) x.rInc

theorem State.pastInc_eq_none {s : State} {f : Option Nat} {i : Nat} (h : ∀ g, f = some g → i = s.inc g) : s.pastInc f i = none := by
  cases f with
  | none => rfl
  | some g => simp [State.pastInc, h g rfl]

theorem MEntry.Fresh.stale_eq_none {x : MEntry} {m sd : Nat} {s : State} (h : x.Fresh m sd s) : x.stale m sd s = none := by
  obtain ⟨hsender, hreceiver⟩ := h
  rw [MEntry.stale, State.pastInc_eq_none hsender, State.pastInc_eq_none hreceiver]
  rfl

/-- The oldest entry of side `o` leaves with disposition `d`, and the standoff time starts again. -/
def entryTaken (m o d : Nat) (s : State) : State := touchPair m true (finalDisp m o d (popEntry m o s))

theorem finalDisp_cases (m sd d : Nat) (s : State) :
    finalDisp m sd d s = s ∨ finalDisp m sd d s = s.put F.mbStat_WDISP d m sd := by
  unfold finalDisp
  split
  · exact .inr rfl
  · exact .inl rfl

theorem finalDisp_pair (m sd d : Nat) (s : State) (k : Nat) : (finalDisp m sd d s).pair k = s.pair k := by
  rcases finalDisp_cases m sd d s with h | h <;> rw [h]
  rfl

theorem finalDisp_eng (m sd d : Nat) (s : State) : (finalDisp m sd d s).eng = s.eng := by
  rcases finalDisp_cases m sd d s with h | h <;> rw [h]
  rfl

theorem finalDisp_fld {g : Fld} (hg : g.id ≠ F.mbStat_WDISP.id) (m sd d : Nat) (s : State) (i j : Nat) :
    (finalDisp m sd d s).fld g i j = s.fld g i j := by
  rcases finalDisp_cases m sd d s with h | h <;> rw [h]
  exact State.put_fld_ne _ _ _ _ _ _ _ _ hg

theorem popEntry_pair (m o : Nat) (s : State) : (popEntry m o s).pair m = (s.pair m).setQueue o (((s.pair m).queue o).drop 1) :=
  State.setPair_pair ..

theorem entryTaken_queue (m o d : Nat) (s : State) : ((entryTaken m o d s).pair m).queue o = ((s.pair m).queue o).drop 1 := by
  rw [entryTaken, touchPair_queue, finalDisp_pair, popEntry_pair, PairS.queue_setQueue]

theorem entryTaken_queue_of_ne {sd o : Nat} (h : sd = 0 ↔ o ≠ 0) (m d : Nat) (s : State) :
    ((entryTaken m o d s).pair m).queue sd = (s.pair m).queue sd := by
  rw [entryTaken, touchPair_queue, finalDisp_pair, popEntry_pair, PairS.queue_setQueue_of_ne h]

theorem entryTaken_eng (m o d : Nat) (s : State) : (entryTaken m o d s).eng = s.eng := by
  rw [entryTaken, touchPair_eng, finalDisp_eng]
  rfl

theorem entryTaken_fld {g : Fld} (hg : g.id ≠ F.mbStat_WDISP.id) (m o d : Nat) (s : State) (i j : Nat) :
    (entryTaken m o d s).fld g i j = s.fld g i j := by
  rw [entryTaken, touchPair_fld, finalDisp_fld hg]
  rfl

/-- An uncorrectable word is counted and logged. -/
def mbPoisoned (s : State) : State := mbLoss { s with boot := { s.boot with telUe := s.boot.telUe + 1 } }

theorem writeRecord_pairs (w : Word) (ws : List Nat) (s : State) : (writeRecord w ws s).pairs = s.pairs := by
  have herased : (logErased s).pairs = s.pairs := by
    unfold logErased
    dsimp only
    split_ifs <;> rfl
  unfold writeRecord
  dsimp only
  obtain ⟨x, hx⟩ := foldl_setFlash_eq _ _ (List.range 8) _
  rw [hx]
  exact herased

theorem logRecord_pairs (typ : Nat) (ws : List Nat) (s : State) : (logRecord typ ws s).pairs = s.pairs := by
  unfold logRecord
  dsimp only
  split_ifs
  · rfl
  · rw [writeRecord_pairs]
    rfl
  · rfl
  · rfl

theorem mbPoisoned_pair (s : State) (k : Nat) : (mbPoisoned s).pair k = s.pair k := by
  rw [mbPoisoned, mbLoss, State.pair, logRecord_pairs]
  rfl

theorem mbPoisoned_ue (s : State) :
    (mbPoisoned s).fld F.mbMemerr_UE = min (s.fld F.mbMemerr_UE + 1) (2 ^ F.mbMemerr_UE.width - 1) := by
  rw [mbPoisoned, mbLoss, (LogKeeps.logRecord _ _ _).fld _ (by decide), State.bump_fld]
  rfl

/-- What a read of the oldest entry answers, by what its word reads as (R144). -/
def entryRead (m sd : Nat) (x : MEntry) (s : State) : Rd → Word × Bool × State
  | .ue w _ => (w, true, (entryTaken m (1 - sd) 8 (mbPoisoned s)).put F.mbStat_RXV 1 m sd)
  | .ok w => (w, false, mbTake.good m sd x (1 - sd) (entryTaken m (1 - sd) 0 s))
  | .ce w => (w, false, mbTake.good m sd x (1 - sd)
      (entryTaken m (1 - sd) 0 { s.bump F.mbMemerr_CE with boot := { s.boot with telCe := s.boot.telCe + 1 } }))

theorem mbTake_of_empty {s : State} {m sd : Nat} (h : (s.pair m).queue (1 - sd) = []) (n : Nat) :
    mbTake m sd (n + 1) s = (0, false, s.put F.mbStat_RXV 0 m sd) := by
  unfold mbTake
  dsimp only
  rw [h]

section
variable {s : State} {m sd : Nat} {x : MEntry} {rest : List MEntry}

/-- A fresh entry is read at once. -/
theorem mbTake_of_fresh (hq : (s.pair m).queue (1 - sd) = x :: rest) (hx : x.Fresh m sd s) (n : Nat) :
    mbTake m sd (n + 1) s = entryRead m sd x s (readCode x.w) := by
  unfold mbTake
  dsimp only
  rw [hq]
  dsimp only
  split
  · next f hf => exact absurd (hf.symm.trans hx.stale_eq_none) (Option.some_ne_none f)
  · cases readCode x.w <;> rfl

theorem mbTake_of_ok (hq : (s.pair m).queue (1 - sd) = x :: rest) (hx : x.Fresh m sd s) {v : Word} (hw : readCode x.w = .ok v) (n : Nat) :
    mbTake m sd (n + 1) s = (v, false, mbTake.good m sd x (1 - sd) (entryTaken m (1 - sd) 0 s)) := by
  rw [mbTake_of_fresh hq hx, hw, entryRead]

theorem mbTake_of_ue (hq : (s.pair m).queue (1 - sd) = x :: rest) (hx : x.Fresh m sd s) {v : Word} {y : BitVec 8}
    (hw : readCode x.w = .ue v y) (n : Nat) :
    mbTake m sd (n + 1) s = (v, true, (entryTaken m (1 - sd) 8 (mbPoisoned s)).put F.mbStat_RXV 1 m sd) := by
  rw [mbTake_of_fresh hq hx, hw, entryRead]

end

theorem mbTake_good_pair (m sd o : Nat) (x : MEntry) (s : State) (k : Nat) : (mbTake.good m sd x o s).pair k = s.pair k := rfl

theorem mbTake_good_eng (m sd o : Nat) (x : MEntry) (s : State) : (mbTake.good m sd x o s).eng = s.eng := rfl

/-- What a good read shows: RXV, and the sender's incarnation as held. -/
theorem mbTake_good_shows (m sd o : Nat) (x : MEntry) (s : State) : (mbTake.good m sd x o s).fld F.mbStat_RXV m sd = 1
    ∧ (mbTake.good m sd x o s).fld F.mbStat_HINC m sd = x.sInc % 2 ^ F.mbStat_HINC.width
    ∧ (mbTake.good m sd x o s).fld F.mbStat_HV m sd = 1 := by
  refine ⟨?_, ?_, State.put_fld ..⟩
  · rw [mbTake.good, State.put_fld_ne _ _ _ _ _ _ _ _ (by decide), State.put_fld_ne _ _ _ _ _ _ _ _ (by decide), State.put_fld]
    rfl
  · rw [mbTake.good, State.put_fld_ne _ _ _ _ _ _ _ _ (by decide), State.put_fld]

/-- What leaves the part at the end of a command stays among what left it. -/
theorem mem_out_notify_emit (s t : State) (o : Out) : o ∈ (notify s (t.emit o)).out := by
  simp [notify, State.emit]

theorem mailboxReadsTakeTheOldest : Stated.MailboxReadsTakeTheOldest := by
  intro s w m sd hs ha hsup hw
  refine ⟨fun hempty => ⟨_, exec_mailboxReceive hs ha hsup hw (mbTake_of_empty hempty 7), rfl⟩, fun x rest v hq hsender hreceiver =>
    ⟨fun hok => ⟨_, exec_mailboxReceive hs ha hsup hw (mbTake_of_ok hq ⟨hsender, hreceiver⟩ hok 7), ?_⟩,
      fun y hue => ⟨_, exec_mailboxReceive hs ha hsup hw (mbTake_of_ue hq ⟨hsender, hreceiver⟩ hue 7), ?_⟩⟩⟩
  · obtain ⟨hrxv, hhinc, hhv⟩ := mbTake_good_shows m sd (1 - sd) x (entryTaken m (1 - sd) 0 s)
    simp only [State.notify_fld_get, State.notify_pair_get, State.notify_eng, State.emit_fld_get, State.emit_pair_get, State.emit_eng,
      mbTake_good_pair, mbTake_good_eng]
    refine ⟨by rw [entryTaken_queue, hq]; rfl, entryTaken_queue_of_ne (by omega) .., hrxv, hhinc, hhv, ?_, entryTaken_eng ..⟩
    exact mem_out_notify_emit ..
  · simp only [State.notify_fld_get, State.notify_pair_get, State.emit_fld_get, State.emit_pair_get, State.put_pair_get]
    refine ⟨?_, State.put_fld .., mem_out_notify_emit .., ?_⟩
    · rw [entryTaken_queue, mbPoisoned_pair, hq]
      rfl
    · rw [State.put_fld_ne _ _ _ _ _ _ _ _ (by decide), entryTaken_fld (by decide), mbPoisoned_ue]

/-! ### RESYNC, doorbells and standoff (R159, R161, R162) -/

/-- A register past those of the ends leaves their binding. -/
theorem State.put_endKind {f : Fld} (hf : F.mbEnd_KIND.id ≠ f.id) (s : State) (v i j m sd : Nat) :
    (s.put f v i j).endKind m sd = s.endKind m sd := by
  simp only [State.endKind, State.eff, State.put_fld_ne _ _ _ _ _ _ _ _ hf, State.put_lay]

theorem setEv_doorbell (e : Nat) (s : State) : setEv e 14 s = s.setE e { s.e e with ev := (s.e e).ev ||| 0x4000 } := rfl

/-- The doorbell of a function end that names an engine. -/
theorem ring_of_engine {s : State} {m sd : Nat} (hk : s.endKind m sd = 1) (hb : (s.fld F.mbEnd_DBT m sd).testBit 7 = false) :
    ring m sd s = wakeStable (s.fld F.mbEnd_DBT m sd % 128 / 8) (setEv (s.fld F.mbEnd_DBT m sd % 128) 14 (s.put F.mbStat_DB 1 m sd)) := by
  have hdbt : (s.put F.mbStat_DB 1 m sd).fld F.mbEnd_DBT m sd = s.fld F.mbEnd_DBT m sd := State.put_fld_ne _ _ _ _ _ _ _ _ (by decide)
  unfold ring
  dsimp only
  rw [State.put_endKind (by decide), hk, hdbt]
  exact if_neg (Bool.eq_false_iff.mp hb)

/-- The doorbell of a host end. -/
theorem ring_of_host {s : State} {m sd : Nat} (hk : s.endKind m sd = 2) :
    ring m sd s = sendMsix (s.fld F.mbEnd_DBT m sd) (s.put F.mbStat_DB 1 m sd) := by
  have hdbt : (s.put F.mbStat_DB 1 m sd).fld F.mbEnd_DBT m sd = s.fld F.mbEnd_DBT m sd := State.put_fld_ne _ _ _ _ _ _ _ _ (by decide)
  unfold ring
  dsimp only
  rw [State.put_endKind (by decide), hk, hdbt]
  rfl

/-- The fields that a wake's request for leave writes (R126, R336). -/
def wakeFlds : List Nat :=
  [F.stDqstat_WAKEP.id, F.pwOcnt_GRANT.id, F.pwOcnt_DEFER.id, F.pwOcnt_REFB.id, F.pwOcnt_REFF.id, F.fnStatus_OVQEV.id]

section
variable {g : Fld} (hg : g.id ∉ wakeFlds) (n : Nat) (s : State) (i j : Nat)
include hg

theorem hwRequest_wake_fld : (hwRequest (.wake n) s).fld g i j = s.fld g i j := by
  have hcount : ∀ f : Fld, f.id ∈ wakeFlds → ∀ u : State, (u.bump f).fld g i j = u.fld g i j := fun _ hf _ =>
    State.bump_fld_ne _ _ _ _ _ _ _ _ (id_ne_of_not_mem hf hg)
  have hgrant : ∀ u : State, (grantEffect (.wake n) u).fld g i j = u.fld g i j := fun _ =>
    (State.setSt_fld_get ..).trans
      (State.put_fld_ne _ _ _ _ _ _ _ _ (id_ne_of_not_mem (f := F.stDqstat_WAKEP) (by decide) hg))
  have hdefer : ∀ u : State, (deferEffect (.wake n) u).fld g i j = u.fld g i j := fun _ =>
    State.put_fld_ne _ _ _ _ _ _ _ _ (id_ne_of_not_mem (f := F.stDqstat_WAKEP) (by decide) hg)
  unfold hwRequest ostlerRequest
  extract_lets c r t q
  split_ifs
  · rfl
  · rfl
  · exact hcount F.pwOcnt_REFB (by decide) _
  · exact hcount F.pwOcnt_REFF (by decide) _
  · refine (noteOverq_fld (id_ne_of_not_mem (by decide) hg) ..).trans ?_
    unfold grant
    exact (hgrant _).trans (hcount F.pwOcnt_GRANT (by decide) _)
  · exact (hdefer _).trans (hcount F.pwOcnt_DEFER (by decide) _)

theorem wakeStable_fld : (wakeStable n s).fld g i j = s.fld g i j := by
  unfold wakeStable askWake
  split_ifs
  · rfl
  · exact hwRequest_wake_fld hg ..
  · rfl

end

theorem foldl_setEv_fld (l : List Nat) (b : Nat) (s : State) (g : Fld) (i j : Nat) :
    (l.foldl (fun s e => setEv e b s) s).fld g i j = s.fld g i j := by
  induction l generalizing s with
  | nil => rfl
  | cons e l ih => exact ih _

theorem sendMsix_fld (v : Nat) (s : State) (g : Fld) (i j : Nat) : (sendMsix v s).fld g i j = s.fld g i j := by
  unfold sendMsix
  split_ifs <;> rfl

/-- Past the wake of a stable, a doorbell writes DB alone. -/
theorem ring_fld {g : Fld} (hg : g.id ∉ wakeFlds) (m sd : Nat) (s : State) (i j : Nat) :
    (ring m sd s).fld g i j = (s.put F.mbStat_DB 1 m sd).fld g i j := by
  unfold ring
  extract_lets t d e
  split
  · split
    · exact (wakeStable_fld hg ..).trans (foldl_setEv_fld ..)
    · exact wakeStable_fld hg ..
  · exact sendMsix_fld ..
  · rfl

/-- The pair is told of the standoff: its time starts again, and SOFF shows on both sides. -/
def standoffShown (m : Nat) (s : State) : State :=
  ((s.setPair m { s.pair m with since := some s.tick }).put F.mbStat_SOFF 1 m 0).put F.mbStat_SOFF 1 m 1

theorem standoff_of_running {s : State} {m x : Nat} (hsince : (s.pair m).since = some x) (hsto : s.fld F.mbCtl_STO m ≠ 0) :
    standoff m s = ring m 1 (ring m 0 (standoffShown m s)) := by
  unfold standoff
  rw [hsince]
  exact if_neg hsto

theorem exec_standoffDetect {s : State} {m : Fin 1024} {x : Nat} (hclk : s.clocksOn = true) (ha : s.applied = true)
    (hsince : (s.pair m).since = some x) (hsto : s.fld F.mbCtl_STO m ≠ 0) (hdue : x + s.fld F.mbCtl_STO m * 250 ≤ s.tick) :
    exec (.standoffDetect m) s = done s (standoff m s) := by
  change execStandoffDetect m s = _
  have hpast : passTo (x + s.fld F.mbCtl_STO m * tickUs) s = s := passTo_of_past hdue
  simp [execStandoffDetect, whenApplied, hclk, ha, hsince, hsto, hpast]

/-- The keys of the two sides of a pair differ. -/
theorem key_sides_ne (f : Fld) (m : Nat) : f.key m 0 ≠ f.key m 1 := by
  unfold Fld.key
  omega

/-- A pair that stands off shows SOFF and DB on both sides. -/
theorem standoff_marks (m : Nat) (s : State) :
    let t := ring m 1 (ring m 0 (standoffShown m s))
    t.fld F.mbStat_SOFF m 0 = 1 ∧ t.fld F.mbStat_SOFF m 1 = 1 ∧ t.fld F.mbStat_DB m 0 = 1 ∧ t.fld F.mbStat_DB m 1 = 1 := by
  have hsoff : ∀ j, (ring m 1 (ring m 0 (standoffShown m s))).fld F.mbStat_SOFF m j =
      (standoffShown m s).fld F.mbStat_SOFF m j := fun j => by
    rw [ring_fld (by decide), State.put_fld_ne _ _ _ _ _ _ _ _ (by decide), ring_fld (by decide),
      State.put_fld_ne _ _ _ _ _ _ _ _ (by decide)]
  refine ⟨?_, ?_, ?_, ?_⟩
  · rw [hsoff, standoffShown, State.put_fld_at _ _ _ _ _ _ _ (key_sides_ne _ m), State.put_fld]
    rfl
  · rw [hsoff, standoffShown, State.put_fld]
    rfl
  · rw [ring_fld (by decide), State.put_fld_at _ _ _ _ _ _ _ (key_sides_ne _ m), ring_fld (by decide), State.put_fld]
    rfl
  · rw [ring_fld (by decide), State.put_fld]
    rfl

theorem mailboxSidesSignal : Stated.MailboxSidesSignal := by
  refine ⟨fun s w m sd hs ha hsup => ⟨⟨_, exec_mailboxResync hs ha hsup m sd, rfl⟩,
    fun hk hb => ⟨_, exec_doorbellRing hs ha hsup m sd, ?_⟩, fun hk => ⟨_, exec_doorbellRing hs ha hsup m sd, ?_⟩⟩,
    fun s m x hclk ha hsince hsto hdue => ⟨_, exec_standoffDetect hclk ha hsince hsto hdue, ?_⟩⟩
  · rw [ring_of_engine hk hb, setEv_doorbell]
  · rw [ring_of_host hk]
  · simp only [State.notify_fld_get, standoff_of_running hsince hsto]
    exact standoff_marks m s

/-- Settles O32: a send that no check refuses enters its own queue, a read takes the oldest entry of the other, and RESYNC, a doorbell and
the standoff detector write the marks of their sides and wake or message what DBT names. -/
theorem mailboxesCarryWords : Obligations.MailboxesCarryWords :=
  ⟨mailboxSendsQueueWords, mailboxReadsTakeTheOldest, mailboxSidesSignal⟩

end Sys2Proof.Machine
end

section
/-! The statement of the interconnect: a request queues at its target or waits at its initiator, the arbitration point grants the first of
the highest level by round-robin, and a request past LIMIT is flagged. -/

namespace Sys2Proof.Machine

/-! ### Requests (R164) -/

theorem exec_icRequest {s : State} (hclk : s.clocksOn = true) (t i : Fin 19) (f : IcAsk) :
    exec (.icRequest t i f) s = done s (icRequest t i f.fn f.who (f.bank.map (·.val)) s) := congrArg (done s) (if_pos hclk)

/-- The Farrier, and a host port other than a virtual function, act for F0 (R136, R165). -/
theorem icActs_eq (i : Fin 19) (f : Nat) (w : Who) : icActs i f w = if i = 18 ∨ (i = 16 ∧ ∀ k, w ≠ .vf k) then 0 else f := by
  by_cases h18 : i = 18
  · simp [icActs, h18]
  · by_cases h16 : i = 16
    · cases w <;> simp [icActs, h16]
    · have hf : (i : Nat) ≠ 18 := Fin.val_ne_iff.2 h18
      have hp : (i : Nat) ≠ 16 := Fin.val_ne_iff.2 h16
      simp [icActs, h18, h16, hf, hp]

/-! ### The request granted next (R165) -/

/-- How far a request's initiator stands behind the one granted last at its level. -/
def State.icTurn (s : State) (t : Nat) (r : IcReq) : Nat := (r.i + 19 - Tab.get 0 (s.icT t).last (s.icLevel t r)) % 19

/-- The order of the grants: by level, and within a level by turn. -/
def State.icRank (s : State) (t : Nat) (r : IcReq) : ℕ ×ₗ ℕᵒᵈ := toLex (s.icLevel t r, OrderDual.toDual (s.icTurn t r))

/-- The requests of a target's queue, each behind its place. -/
def State.icNumbered (s : State) (t : Nat) : List (Nat × IcReq) := (s.icT t).q.zipIdx.map fun p => (p.2, p.1)

theorem State.icRank_lt_iff (s : State) (t : Nat) (a b : IcReq) : s.icRank t a < s.icRank t b ↔
    s.icLevel t a < s.icLevel t b ∨ (s.icLevel t a = s.icLevel t b ∧ s.icTurn t b < s.icTurn t a) :=
  Prod.Lex.toLex_lt_toLex

theorem State.icRank_eq_iff (s : State) (t : Nat) (a b : IcReq) : s.icRank t a = s.icRank t b ↔
    s.icLevel t a = s.icLevel t b ∧ s.icTurn t a = s.icTurn t b := by
  simp [State.icRank]

theorem State.getElem?_icNumbered (s : State) (t k : Nat) : (s.icNumbered t)[k]? = (s.icT t).q[k]?.map fun r => (k, r) := by
  simp only [State.icNumbered, List.getElem?_map, List.getElem?_zipIdx, Option.map_map, Nat.zero_add, Function.comp_def]

theorem State.mem_icNumbered {s : State} {t k : Nat} {r : IcReq} : (k, r) ∈ s.icNumbered t ↔ (s.icT t).q[k]? = some r := by
  simp [State.icNumbered, List.mem_zipIdx_iff_getElem?]

/-- A request stands at its own number. -/
theorem State.idxOf_icNumbered [eq : BEq (Nat × IcReq)] [LawfulBEq (Nat × IcReq)] {s : State} {t k : Nat} {r : IcReq}
    (h : (s.icT t).q[k]? = some r) : (s.icNumbered t).idxOf (k, r) = k := by
  have hfound := List.getElem?_idxOf (State.mem_icNumbered.2 h)
  rw [s.getElem?_icNumbered, Option.map_eq_some_iff] at hfound
  obtain ⟨x, -, hx⟩ := hfound
  exact congrArg Prod.fst hx

/-- The fold of the arbiter keeps the first request of the highest rank. -/
theorem State.icPick_eq_argmax (s : State) (t : Nat) : s.icPick t = (s.icNumbered t).argmax fun p => s.icRank t p.2 := by
  unfold State.icPick List.argmax
  refine List.foldl_ext _ _ _ fun b c _ => ?_
  cases b with
  | none => rfl
  | some b =>
    simp only [List.argAux, s.icRank_lt_iff, State.icTurn, Bool.or_eq_true, Bool.and_eq_true, decide_eq_true_eq, gt_iff_lt]
    exact if_congr (or_congr_right (and_congr_left fun _ => eq_comm)) rfl rfl

theorem State.icPick_eq_none {s : State} {t : Nat} (h : (s.icT t).q = []) : s.icPick t = none := by
  rw [State.icPick, h]
  rfl

theorem State.exists_icPick {s : State} {t : Nat} (h : (s.icT t).q ≠ []) : ∃ k r, s.icPick t = some (k, r) := by
  obtain ⟨r, rest, hq⟩ := List.exists_cons_of_ne_nil h
  have hsome : s.icPick t ≠ none := by
    rw [s.icPick_eq_argmax, Ne, List.argmax_eq_none, State.icNumbered, hq]
    exact List.cons_ne_nil _ _
  obtain ⟨⟨k, r⟩, hpick⟩ := Option.ne_none_iff_exists'.1 hsome
  exact ⟨k, r, hpick⟩

/-- The request granted next is of the highest level, then of the nearest turn, then the oldest. -/
theorem State.icPick_first {s : State} {t k : Nat} {r : IcReq} (h : s.icPick t = some (k, r)) : (s.icT t).q[k]? = some r
    ∧ ∀ j y, (s.icT t).q[j]? = some y → s.icLevel t y < s.icLevel t r
      ∨ (s.icLevel t y = s.icLevel t r ∧ (s.icTurn t r < s.icTurn t y ∨ (s.icTurn t r = s.icTurn t y ∧ k ≤ j))) := by
  rw [s.icPick_eq_argmax] at h
  obtain ⟨hmem, hmax, hfirst⟩ := List.mem_argmax_iff.1 h
  have hr := State.mem_icNumbered.1 hmem
  refine ⟨hr, fun j y hy => ?_⟩
  have hle := hmax (j, y) (State.mem_icNumbered.2 hy)
  rcases hle.lt_or_eq with hlt | heq
  · exact ((s.icRank_lt_iff ..).1 hlt).imp_right (And.imp_right .inl)
  · have hkj := hfirst (j, y) (State.mem_icNumbered.2 hy) heq.ge
    rw [State.idxOf_icNumbered (eq := instBEqOfDecidableEq) hr, State.idxOf_icNumbered (eq := instBEqOfDecidableEq) hy] at hkj
    obtain ⟨hlevel, hturn⟩ := (s.icRank_eq_iff ..).1 heq
    exact .inr ⟨hlevel, .inr ⟨hturn.symm, hkj⟩⟩

/-! ### The arbitration point (R165, R166) -/

theorem exec_icGrant {s : State} (hclk : s.clocksOn = true) (t : Fin 19) : exec (.icGrant t) s = done s (icGrant t (.ic t) s) :=
  congrArg (done s) (if_pos hclk)

@[simp] theorem State.setIc_cfld (s : State) (t : Nat) (x : IcS) (f : Fld) (b : Block) : (s.setIc t x).cfld f b = s.cfld f b := rfl

/-- The burst under way has no part in the choice. -/
theorem State.icPick_released (s : State) (t : Nat) : (s.setIc t { s.icT t with granted := none }).icPick t = s.icPick t := by
  simp [State.icPick, State.icLevel]

theorem icGrant_of_idle {s : State} {t : Nat} {b : Block} (hpend : s.cfld F.commit_PEND b = 0) (hq : (s.icT t).q = []) :
    icGrant t b s = s.setIc t { s.icT t with granted := none } := by
  simp [icGrant, hpend, State.icPick_released, State.icPick_eq_none hq]

/-- With no set captured, the request picked leaves the queue, and the oldest that waits moves up. -/
theorem icGrant_of_pick {s : State} {t k : Nat} {b : Block} {r : IcReq} (hpend : s.cfld F.commit_PEND b = 0)
    (hpick : s.icPick t = some (k, r)) :
    icGrant t b s = s.setIc t { q := (s.icT t).q.eraseIdx k ++ (s.icT t).wait.take 1, wait := (s.icT t).wait.drop 1, granted := some r,
                                grantedAt := s.tick, last := Tab.set 0 (s.icT t).last (s.icLevel t r) (r.i + 1) } := by
  simp [icGrant, hpend, State.icPick_released, hpick, State.icLevel]

/-! ### Starvation (R169) -/

/-- The flag of an initiator at a target, and its count. -/
def noteStarved (t i : Nat) (s : State) : State :=
  (s.put F.icSflag_SFLAG (s.fld F.icSflag_SFLAG t ||| 2 ^ i) t).bump F.icCnt_STARVN t

theorem starvation_of_single {s : State} {t : Nat} {r : IcReq} (hq : (s.icT t).q = [r]) (hflag : r.flagged = false)
    (hlim : s.fld F.icStarv_LIMIT t ≠ 0) :
    starvation t r.i s = noteStarved t r.i (s.setIc t { s.icT t with q := [{ r with flagged := true }] }) := by
  simp [starvation, hq, hflag, hlim, noteStarved]

theorem exec_starvationDetect {s : State} {t i : Fin 19} {r : IcReq} (hclk : s.clocksOn = true) (hq : (s.icT t).q = [r])
    (hi : r.i = i.val) (hflag : r.flagged = false) (hlim : s.fld F.icStarv_LIMIT t ≠ 0)
    (hdue : r.t0 + s.fld F.icStarv_LIMIT t / 2 + 1 ≤ s.tick) :
    exec (.starvationDetect t i) s = done s (starvation t i s) := by
  have hfind : ((s.icT t).q ++ (s.icT t).wait).find? (fun r => r.i == i.val && !r.flagged) = some r := by
    simp [hq, hi, hflag]
  have hrun : ¬ (!s.clocksOn || s.fld F.icStarv_LIMIT t = 0) = true := by simp [hclk, hlim]
  change done s _ = _
  rw [if_neg hrun, hfind]
  exact congrArg (done s ∘ starvation t i) (passTo_of_past hdue)

/-- Settles O33: a request queues or waits by the room it finds, the arbiter's fold is the first maximum by level and turn, and the one
request past LIMIT is flagged and counted. -/
theorem interconnectGrantsByLevel : Obligations.InterconnectGrantsByLevel := by
  refine fun s x hclk => ⟨fun i f w bank => ⟨fun hfull => ?_, fun hroom => ?_⟩, fun hpend _ => ?_,
    fun i r hq hi hflag hlim hdue => ?_⟩
  · exact ⟨_, exec_icRequest hclk .., congrArg (notify s) (if_pos hfull)⟩
  · refine ⟨_, exec_icRequest hclk .., ?_⟩
    rw [icRequest, if_neg (Nat.not_le.mpr hroom), icActs_eq]
    rfl
  · have hgrant : (s.icT x).q ≠ [] → ∃ k r, s.icPick x = some (k, r) ∧ Does (.icGrant x) s fun t => t.icT x =
        { q := (s.icT x).q.eraseIdx k ++ (s.icT x).wait.take 1, wait := (s.icT x).wait.drop 1, granted := some r,
          grantedAt := s.tick, last := Tab.set 0 (s.icT x).last (s.icLevel x r) (r.i + 1) } := fun hq => by
      obtain ⟨k, r, hpick⟩ := State.exists_icPick hq
      refine ⟨k, r, hpick, _, exec_icGrant hclk x, ?_⟩
      simp only [icGrant_of_pick hpend hpick, State.notify_icT_get, State.setIc_icT]
    refine ⟨fun hq => ⟨_, exec_icGrant hclk x, ?_⟩, fun r hq => ?_, fun hq => ?_⟩
    · rw [icGrant_of_idle hpend hq]
      simp [hq]
    · obtain ⟨k, y, hpick, t, hexec, ht⟩ := hgrant (by simp [hq])
      obtain ⟨hk, -⟩ := State.icPick_first hpick
      rw [hq, List.getElem?_singleton] at hk
      obtain ⟨rfl, rfl⟩ : k = 0 ∧ r = y := by simpa using hk
      exact ⟨t, hexec, by simp [ht, hq]⟩
    · obtain ⟨k, r, hpick, t, hexec, ht⟩ := hgrant hq
      obtain ⟨hk, hfirst⟩ := State.icPick_first hpick
      refine ⟨t, hexec, k, r, hk, hfirst, ?_⟩
      simp [ht, Tab.get_set_same]
  · refine ⟨_, exec_starvationDetect hclk hq hi hflag hlim hdue, ?_⟩
    rw [← hi, starvation_of_single hq hflag hlim]
    refine ⟨rfl, ?_⟩
    rw [State.notify_fld_get, noteStarved, State.bump_fld, State.put_fld_ne _ _ _ _ _ _ _ _ (by decide), State.setIc_fld_get]

end Sys2Proof.Machine
end

section
/-! What stands between two instants (R173, R177, R178): an operation that neither completes a set nor takes an instant leaves the regions'
buffers, the last instant and the fields that show them (`_manger`). -/

namespace Sys2Proof.Machine

/-! ### The Manger's part of a state -/

/-- The fields that show the instants and the sets of the regions. -/
def mangerFlds : List Nat := [F.mgInstat_RUN.id, F.mgInstat_N.id, F.mgCnt_SKIP.id, F.mgStat_TAG.id, F.mgStat_AGE.id, F.mgStat_TV.id,
  F.mgStat_NEW.id]

/-- The regions' buffers, the last instant, and those fields of a register table. -/
def mangerOf (act : Tab Nat) (rgn : Tab RgnS) (last : Option Nat) : Tab RgnS × Option Nat × (Fld → Nat → Nat → Option Nat) :=
  (rgn, last, fun f i j => if f.id ∈ mangerFlds then some (Tab.get f.reset act (f.key i j)) else none)

/-- The Manger's part of a state. -/
def State.manger (s : State) : Tab RgnS × Option Nat × (Fld → Nat → Nat → Option Nat) := mangerOf s.act s.rgn s.lastInst

section
variable {s t : State}

theorem fld_of_manger (h : t.manger = s.manger) {f : Fld} (hf : f.id ∈ mangerFlds) (i j : Nat) : t.fld f i j = s.fld f i j := by
  simp only [State.manger, mangerOf, Prod.mk.injEq] at h
  obtain ⟨-, -, hfld⟩ := h
  simpa [hf, State.fld] using congrFun (congrFun (congrFun hfld f) i) j

theorem lastInst_of_manger (h : t.manger = s.manger) : t.lastInst = s.lastInst := congrArg (·.2.1) h

theorem rg_of_manger (h : t.manger = s.manger) (k : Nat) : t.rg k = s.rg k := by
  have hrgn : t.rgn = s.rgn := congrArg (·.1) h
  rw [State.rg, hrgn, State.rg]

end

/-- A state written whole. -/
@[simp] theorem manger_mk (pending : List Instr) (tick tkBase period fresh lost : Nat)
    (act shd cap lay steppedAt refs flagAt : Tab Nat) (heldGo : List Block) (loft code priv mg stage : Mem) (scrub : List SramWord)
    (flash : Tab (BitVec 64)) (eng : Tab Eng) (stb : Tab Stb) (fns : Tab FnS) (pairs : Tab PairS) (ic : Tab IcS) (rgn : Tab RgnS)
    (lastInst seenInst : Option Nat) (jumpDue : Bool) (ports : Tab PortS) (dirs : Tab DirS) (yard : YardS) (tc : Tab TCnt)
    (steps : Tab (Option (Nat × Bool × TCnt × Int))) (sv : Tab SvS) (pg : Tab PgS) (pd : PdS) (can : Tab CanS) (pm : Tab PmS)
    (pins : Tab PinS) (pinPast : Tab (List (Nat × Bool × Bool))) (tw : TwS) (pw : PwS) (boot : BootS) (host : HostS)
    (out : List Out) :
    (State.mk pending tick tkBase period fresh act shd cap lay heldGo loft code priv mg stage scrub lost flash eng stb fns pairs ic
      rgn lastInst seenInst jumpDue ports dirs yard tc steps steppedAt sv refs pg pd can pm pins pinPast flagAt tw pw boot host
      out).manger = mangerOf act rgn lastInst := (rfl)

@[simp] theorem mangerOf_fields (s : State) : mangerOf s.act s.rgn s.lastInst = s.manger := (rfl)

@[simp] theorem manger_ite (c : Prop) [Decidable c] (s t : State) : (if c then s else t).manger = if c then s.manger else t.manger :=
  apply_ite ..

theorem foldl_manger_by {α σ : Type} (g : σ → State) {f : σ → α → σ} (hf : ∀ a x, (g (f a x)).manger = (g a).manger) (l : List α)
    (a : σ) : (g (l.foldl f a)).manger = (g a).manger := by
  induction l generalizing a with
  | nil => rfl
  | cons x l ih => rw [List.foldl_cons, ih, hf]

@[simp] theorem foldl_manger {α : Type} {f : State → α → State} (hf : ∀ s x, (f s x).manger = s.manger) (l : List α) (s : State) :
    (l.foldl f s).manger = s.manger := foldl_manger_by id hf l s

@[simp] theorem foldl_snd_manger {α β : Type} {f : β × State → α → β × State} (hf : ∀ a x, (f a x).2.manger = a.2.manger) (l : List α)
    (a : β × State) : (l.foldl f a).2.manger = a.2.manger := foldl_manger_by Prod.snd hf l a

@[simp] theorem foldl_snd_snd_manger {α β γ : Type} {f : β × γ × State → α → β × γ × State}
    (hf : ∀ a x, (f a x).2.2.manger = a.2.2.manger) (l : List α) (a : β × γ × State) :
    (l.foldl f a).2.2.manger = a.2.2.manger := foldl_manger_by (·.2.2) hf l a

/-! ### Writes of fields and tables -/

/-- Other fields are no part of it. -/
@[simp] theorem mangerOf_put {f : Fld} (hf : f.id ∉ mangerFlds) (s : State) (v i j : Nat) (r : Tab RgnS) (l : Option Nat) :
    mangerOf (s.put f v i j).act r l = mangerOf s.act r l := by
  unfold mangerOf
  refine congrArg (fun x => (r, l, x)) (funext fun g => funext fun a => funext fun b => ?_)
  by_cases hg : g.id ∈ mangerFlds
  · rw [if_pos hg, if_pos hg]
    exact congrArg some (State.put_fld_ne _ _ _ _ _ _ _ _ fun h => hf (h ▸ hg))
  · rw [if_neg hg, if_neg hg]

@[simp] theorem mangerOf_bump {f : Fld} (hf : f.id ∉ mangerFlds) (s : State) (i j n : Nat) (r : Tab RgnS) (l : Option Nat) :
    mangerOf (s.bump f i j n).act r l = mangerOf s.act r l := mangerOf_put hf ..

@[simp] theorem State.put_manger {f : Fld} (hf : f.id ∉ mangerFlds) (s : State) (v i j : Nat) : (s.put f v i j).manger = s.manger :=
  mangerOf_put hf ..

@[simp] theorem State.bump_manger {f : Fld} (hf : f.id ∉ mangerFlds) (s : State) (i j n : Nat) : (s.bump f i j n).manger = s.manger :=
  mangerOf_put hf ..

@[simp] theorem State.setE_manger (s : State) (n : Nat) (x : Eng) : (s.setE n x).manger = s.manger := (rfl)
@[simp] theorem State.setSt_manger (s : State) (n : Nat) (x : Stb) : (s.setSt n x).manger = s.manger := (rfl)
@[simp] theorem State.setFn_manger (s : State) (f : Nat) (x : FnS) : (s.setFn f x).manger = s.manger := (rfl)
@[simp] theorem State.setDir_manger (s : State) (k d : Nat) (x : DirS) : (s.setDir k d x).manger = s.manger := (rfl)
@[simp] theorem State.setCtr_manger (s : State) (i : Nat) (x : TCnt) : (s.setCtr i x).manger = s.manger := (rfl)
@[simp] theorem State.setCn_manger (s : State) (n : Nat) (x : CanS) : (s.setCn n x).manger = s.manger := (rfl)
@[simp] theorem State.setFlash_manger (s : State) (k : Nat) (v : BitVec 64) : (s.setFlash k v).manger = s.manger := (rfl)
@[simp] theorem State.setFrame_manger (s : State) (id : Nat) (x : Option YFrame) : (s.setFrame id x).manger = s.manger := (rfl)
@[simp] theorem State.setQueue_manger (s : State) (p c : Nat) (q : List QEnt) : (s.setQueue p c q).manger = s.manger := (rfl)
@[simp] theorem State.setLaunch_manger (s : State) (p : Nat) (q : List QEnt) : (s.setLaunch p q).manger = s.manger := (rfl)
@[simp] theorem keepPin_manger (p : Nat) (s : State) : (keepPin p s).manger = s.manger := (rfl)
@[simp] theorem touchIdle_manger (p : Nat) (s : State) : (touchIdle p s).manger = s.manger := (rfl)
@[simp] theorem clearIdle_manger (n : Nat) (s : State) : (clearIdle n s).manger = s.manger := (rfl)
@[simp] theorem eraseSector_manger (n : Nat) (s : State) : (eraseSector n s).manger = s.manger := (rfl)

/-! ### Commits, the log, and what a read counts -/

@[simp] theorem capture_manger (b : Block) (s : State) : (capture b s).manger = s.manger := by
  simp +decide [capture, State.cput]

@[simp] theorem commitGo_manger (b : Block) (s : State) : (commitGo b s).manger = s.manger := by
  simp [commitGo]

@[simp] theorem commitAllDirty_manger (s : State) : (commitAllDirty s).manger = s.manger := by
  simp +decide [commitAllDirty]

@[simp] theorem writeRecord_manger (w : Word) (ws : List Nat) (s : State) : (writeRecord w ws s).manger = s.manger := by
  simp [writeRecord]

@[simp] theorem logRecord_manger (typ : Nat) (ws : List Nat) (s : State) : (logRecord typ ws s).manger = s.manger := by
  simp +decide [logRecord]

@[simp] theorem State.setRaw_manger (a : SramWord) (v : Stored) (s : State) : (s.setRaw a v).manger = s.manger := by
  cases a with
  | cell id l =>
    rw [State.setRaw]
    dsimp only
    split <;> rfl
  | _ => rfl

@[simp] theorem memWrite_manger (a : SramWord) (w : Word) (s : State) : (memWrite a w s).manger = s.manger := State.setRaw_manger ..

@[simp] theorem memLog_manger (n wh eng a : Nat) (syn : BitVec 8) (s : State) : (memLog n wh eng a syn s).manger = s.manger := by
  simp +decide [memLog]

@[simp] theorem countCE_manger (a : SramWord) (s : State) : (countCE a s).manger = s.manger := by
  unfold countCE
  split
  · simp +decide
  · split <;> simp +decide

@[simp] theorem mbLoss_manger (s : State) : (mbLoss s).manger = s.manger := by
  simp +decide [mbLoss]

@[simp] theorem countUE_manger (a : SramWord) (y : BitVec 8) (s : State) : (countUE a y s).manger = s.manger := by
  unfold countUE
  split
  · simp +decide
  · split <;> simp +decide

@[simp] theorem countPW_manger (a : SramWord) (s : State) : (countPW a s).manger = s.manger := by
  unfold countPW
  split
  · simp +decide
  · split <;> simp +decide

@[simp] theorem memRead_manger (a : SramWord) (s : State) : (memRead a s).2.manger = s.manger := by
  unfold memRead
  split <;> simp

@[simp] theorem memUpdate_manger (a : SramWord) (f : Word → Word) (s : State) : (memUpdate a f s).2.manger = s.manger := by
  have hread := memRead_manger a s
  unfold memUpdate
  split
  all_goals
    next h =>
      rw [h] at hread
      simpa using hread

@[simp] theorem noteOverq_manger (f : Nat) (old new : State) : (noteOverq f old new).manger = new.manger := by
  rcases noteOverq_cases f old new with h | h <;> rw [h]
  exact State.put_manger (by decide) ..

@[simp] theorem deferTask_manger (f n : Nat) (s : State) : (deferTask f n s).manger = s.manger := by
  simp +decide [deferTask]

@[simp] theorem holdCapped_manger (f : Nat) (s : State) : (holdCapped f s).manger = s.manger := by simp [holdCapped]

/-! ### The Ostler's leave, and a stable's wake (R126, R336) -/

@[simp] theorem setIrq_manger (e n : Nat) (s : State) : (setIrq e n s).manger = s.manger := State.put_manger (by decide) ..

@[simp] theorem grantEffect_manger (u : OUse) (s : State) : (grantEffect u s).manger = s.manger := by
  unfold grantEffect
  split
  · simp +decide
  · split <;> simp +decide
  · simp [↓manger_mk]
  · rfl

@[simp] theorem deferEffect_manger (u : OUse) (s : State) : (deferEffect u s).manger = s.manger := by
  unfold deferEffect
  split
  case h_3 => split <;> simp +decide
  all_goals simp +decide

@[simp] theorem grant_manger (r : OReq) (s : State) : (grant r s).manger = s.manger := by
  simp +decide [grant]

@[simp] theorem ostlerRequest_manger (u : OUse) (units f inc : Nat) (hw : Bool) (s : State) :
    (ostlerRequest u units f inc hw s).2.manger = s.manger := by
  simp +decide [ostlerRequest]

@[simp] theorem hwRequest_manger (u : OUse) (s : State) : (hwRequest u s).manger = s.manger := by simp [hwRequest]

@[simp] theorem askWake_manger (n : Nat) (rel : Bool) (s : State) : (askWake n rel s).manger = s.manger := by simp [askWake]

@[simp] theorem wakeStable_manger (n : Nat) (s : State) : (wakeStable n s).manger = s.manger := by simp [wakeStable]

@[simp] theorem hwIrq_manger (e n : Nat) (s : State) : (hwIrq e n s).manger = s.manger := by simp [hwIrq]

/-! ### Time passes (R124, R212, R352) -/

@[simp] theorem engineTime_manger (n : Nat) (s : State) : (engineTime n s).manger = s.manger := by simp [engineTime]

@[simp] theorem noteIdle_manger (s : State) : (noteIdle s).manger = s.manger := by simp [noteIdle]

@[simp] theorem onDesc_manger (k d : Nat) (x : RFrame) (g : Nat) (f : Nat → Nat) (s : State) : (onDesc k d x g f s).manger = s.manger := by
  unfold onDesc
  split <;> simp

@[simp] theorem arriveWord_manger (k d : Nat) (x : RFrame) (i : Nat) (s : State) : (arriveWord k d x i s).manger = s.manger := by
  simp [arriveWord]

@[simp] theorem settleDir_manger (k d : Nat) (s : State) : (settleDir k d s).manger = s.manger := by
  refine foldl_manger (fun s n => ?_) _ s
  split
  · rfl
  · simp

@[simp] theorem settleAll_manger (s : State) : (settleAll s).manger = s.manger := by simp [settleAll]

@[simp] theorem passTicks_manger (n : Nat) (s : State) : (passTicks n s).manger = s.manger := by
  simp +decide [passTicks]

@[simp] theorem toInstant_manger (s : State) : (toInstant s).manger = s.manger := by simp [toInstant, passUntil]

/-! ### Publications (R180, R224 to R230) -/

@[simp] theorem copyDone_manger (id : Nat) (how : CopyEnd) (s : State) : (copyDone id how s).manger = s.manger := by
  unfold copyDone
  split <;> simp +decide [freeCells]

@[simp] theorem pushOut_manger (p id : Nat) (s : State) : (pushOut p id s).manger = s.manger := by
  unfold pushOut
  split <;> simp +decide

@[simp] theorem mayTake_manger (p c : Nat) (x : YFrame) (single launch : Bool) (s : State) :
    (mayTake p c x single launch s).2.manger = s.manger := by
  simp only [mayTake, snd_ite, manger_ite]
  split
  · exact State.bump_manger (by decide) ..
  split
  · simp +decide
  split
  · rfl
  split
  · exact State.bump_manger (by decide) ..
  split
  · simp
  · exact State.bump_manger (by decide) ..

theorem deadCount_manger {s : State} {p : Nat} {count : State → State} (h : s.deadCount p = some count) (t : State) :
    (count t).manger = t.manger := by
  unfold State.deadCount at h
  split at h
  · cases h
    exact State.bump_manger (by decide) ..
  · split at h
    · cases h
      exact State.bump_manger (by decide) ..
    · cases h

@[simp] theorem enqueue_manger (id p c : Nat) (f : Option Nat) (launch : Bool) (s : State) :
    (enqueue id p c f launch s).manger = s.manger := by
  unfold enqueue
  split
  · rw [copyDone_manger, deadCount_manger ‹_›]
  · simp +decide

@[simp] theorem takeCells_manger (n : Nat) (s : State) : (takeCells n s).manger = s.manger := by
  simp +decide [takeCells]

@[simp] theorem storeFrame_manger (x : YFrame) (wants : List Want) (launch : Option Nat) (s : State) :
    (storeFrame x wants launch s).2.2.manger = s.manger := by
  simp [storeFrame]

@[simp] theorem deliverWant_manger (f c : Nat) (s : State) : (deliverWant f c s).2.manger = s.manger := by
  simp +decide [deliverWant]

@[simp] theorem lookup_manger (p da vid c : Nat) (s : State) : (lookup p da vid c s).2.manger = s.manger := by
  simp only [lookup]
  split <;> simp +decide

@[simp] theorem submitFrame_manger (x : YFrame) (route dfn pmask : Nat) (launch : Bool) (s : State) :
    (submitFrame x route dfn pmask launch s).2.manger = s.manger := by
  simp only [submitFrame]
  split <;> simp +decide

@[simp] theorem frontRead_manger (k i : Nat) (s : State) : (frontRead k i s).2.manger = s.manger := by simp [frontRead]

@[simp] theorem fragment_manger (k frag : Nat) (s : State) : (fragment k frag s).2.manger = s.manger := by simp [fragment]

@[simp] theorem publishFrom_manger (k n i : Nat) (s : State) : (publishFrom k n i s).manger = s.manger := by
  induction n generalizing i s with
  | zero => rfl
  | succ n ih => simp +decide [publishFrom, ih]

@[simp] theorem publish_manger (s : State) (k : Nat) : (publish s k).manger = s.manger := by simp [publish]

/-! ### What a pair does at an instant (R311 to R318) -/

@[simp] theorem canAbort_manger (n k : Nat) (s : State) : (canAbort n k s).manger = s.manger := by
  simp only [canAbort]
  split
  · rfl
  split <;> simp +decide

@[simp] theorem canWithdraw_manger (n : Nat) (s : State) : (canWithdraw n s).manger = s.manger := by simp [canWithdraw]

@[simp] theorem startDriving_manger (s : State) : (startDriving s).manger = s.manger := by simp [startDriving]

@[simp] theorem setRole_manger (r cause : Nat) (take : Bool) (s : State) : (setRole r cause take s).manger = s.manger := by
  simp +decide [setRole]

@[simp] theorem nextRole_manger (r cause : Nat) (take : Bool) (s : State) : (nextRole r cause take s).manger = s.manger := by
  simp [nextRole]

/-- The fold reads a range of words for each region; under names of their own the kernel leaves it unevaluated. -/
@[simp] theorem digestOf_manger (s : State) : (digestOf s).2.manger = s.manger := by
  obtain ⟨regions, hr⟩ : ∃ r, r = State.outRegions := ⟨_, rfl⟩
  obtain ⟨digest, hd⟩ : ∃ d, d = digestOf := ⟨_, rfl⟩
  rw [← hd]
  delta digestOf at hd
  rw [← hr] at hd
  simp [hd]

@[simp] theorem startTest_manger (alone : Bool) (s : State) : (startTest alone s).manger = s.manger := by
  simp +decide [startTest]

@[simp] theorem testOutcome_manger (s : State) : (testOutcome s).manger = s.manger := by
  unfold testOutcome
  split <;> simp +decide

@[simp] theorem countHealth_manger (s : State) : (countHealth s).manger = s.manger := (rfl)

@[simp] theorem healthStep_manger (s : State) : (healthStep s).manger = s.manger := by
  unfold healthStep
  extract_lets s1 _ s2 _
  have h2 : s2.manger = s.manger := by simp [s2, s1]
  clear_value s2
  split
  · exact h2
  split
  · simp [h2]
  split
  · simp [h2]
  · exact h2

@[simp] theorem returnStep_manger (n : Nat) (s : State) : (returnStep n s).manger = s.manger := by simp [returnStep]

@[simp] theorem returnAsk_manger (n : Nat) (s : State) : (returnAsk n s).manger = s.manger := by simp [returnAsk]

@[simp] theorem compareDigest_manger (m : TwMsg) (s : State) : (compareDigest m s).manger = s.manger := by
  simp +decide [compareDigest]

@[simp] theorem elim_manger {α : Type} {s : State} {f : α → State} (hf : ∀ a, (f a).manger = s.manger) (o : Option α) :
    (o.elim s f).manger = s.manger := by
  cases o with
  | none => rfl
  | some a => exact hf a

/-- `digestOf` gets a name of its own, as in `digestOf_manger`. -/
@[simp] theorem twinInstant_manger (n : Nat) (s : State) : (twinInstant n s).manger = s.manger := by
  obtain ⟨digest, hd⟩ : ∃ d, d = digestOf := ⟨_, rfl⟩
  have hdig (s : State) : (digest s).2.manger = s.manger := by rw [hd, digestOf_manger]
  rw [twinInstant, ← hd]
  extract_lets _ nx tk s1 s2 s3
  clear_value nx tk
  have h1 : s1.manger = s.manger := by simp [s1]
  have h2 : s2.manger = s.manger := by
    unfold s2
    split <;> simp [h1]
  have h3 : s3.manger = s.manger := by simp [s3, h2]
  clear_value s3
  split
  · simp
  · simp +decide [hdig, h3]

/-! ### The rest of an instant -/

@[simp] theorem regionIrqs_manger (s : State) : (regionIrqs s).manger = s.manger := by simp [regionIrqs]

@[simp] theorem captureTime_manger (s : State) : (captureTime s).manger = s.manger := by
  simp +decide [captureTime]

end Sys2Proof.Machine
end

section
/-! The common instant (R173, R178): each region with a new set flips, alone; the rest of the instant's work leaves the sets as they are. -/

namespace Sys2Proof.Machine

/-! ### One region (R178 steps 2 to 4) -/

/-- A counter counts where the flag says so. -/
def countIf (c : Bool) (f : Fld) (s : State) : State := if c then s.bump f else s

section
variable (c : Bool) (f : Fld) (s : State)

@[simp] theorem countIf_rgn : (countIf c f s).rgn = s.rgn := by cases c <;> rfl
@[simp] theorem countIf_lastInst : (countIf c f s).lastInst = s.lastInst := by cases c <;> rfl
@[simp] theorem countIf_loft : (countIf c f s).loft = s.loft := by cases c <;> rfl
@[simp] theorem countIf_mg : (countIf c f s).mg = s.mg := by cases c <;> rfl
@[simp] theorem countIf_eng : (countIf c f s).eng = s.eng := by cases c <;> rfl

theorem countIf_fld : (countIf c f s).fld f = if c then min (s.fld f + 1) (2 ^ f.width - 1) else s.fld f := by
  cases c
  · rfl
  · exact State.bump_fld ..

theorem countIf_fld_ne {g : Fld} (h : g.id ≠ f.id) (i j : Nat) : (countIf c f s).fld g i j = s.fld g i j := by
  cases c
  · rfl
  · exact State.bump_fld_ne _ _ _ _ _ _ _ _ h

end

/-- The buffers' roles after a flip (R175). -/
def flipBuffers (k : Nat) (s : State) : State :=
  if s.rgTriple k then s.setRg k { s.rg k with front := (s.rg k).ready, ready := (s.rg k).front } else s

/-- A set that is new is taken: TAG is the set's tag, TV is set and the mark clears (R178 step 2). -/
def takeSet (k : Nat) (s : State) : State :=
  if s.on F.mgStat_NEW k then
    (((flipBuffers k s).put F.mgStat_TAG (s.rg k).rtag k).put F.mgStat_TV 1 k).put F.mgStat_NEW 0 k
  else s

/-- AGE of a front tagged `tag` at instant `n` (R178 step 3). -/
def ageAt (n tag : Nat) : Nat :=
  if sdiff 32 (n + 2 ^ 32 - 1) tag < 0 then 0 else min 15 (sdiff 32 (n + 2 ^ 32 - 1) tag).toNat

/-- The set that flips at age `age` is late, or the instant before it went without it (R182). -/
def State.lateAt (s : State) (k age : Nat) : Bool :=
  s.on F.mgStat_NEW k && ((s.on F.mgStat_TV k && s.fld F.mgStat_AGE k ≥ 1) || age ≥ 1)

/-- AGE and AGED of a region, with the counts of late sets and of rises of AGED (R178, R182). -/
def showAge (k age : Nat) (late : Bool) (s : State) : State :=
  let s := s.put F.mgStat_AGE age k
  let s := countIf late F.mgCnt_LATE s
  let mx := s.fld F.mgCfg1_MAXAGE k
  let aged := mx ≠ 0 && age > mx
  let s := countIf (aged && !s.on F.mgStat_AGED k) F.mgCnt1_AGEDN s
  s.put F.mgStat_AGED (b2n aged) k

/-- AGE of the region after its flip at instant `n`. -/
def State.ageNow (s : State) (n k : Nat) : Nat := ageAt n ((takeSet k s).fld F.mgStat_TAG k)

theorem flipRegion_of_unused {k : Nat} {s : State} (h : s.fld F.mgCfg0_SIZE k = 0) (n : Nat) : flipRegion n k s = s := if_pos h

theorem flipRegion_of_used {k : Nat} {s : State} (h : s.fld F.mgCfg0_SIZE k ≠ 0) (n : Nat) :
    flipRegion n k s = showAge k (s.ageNow n k) (s.lateAt k (s.ageNow n k)) (takeSet k s) := (if_neg h).trans rfl

/-- The fields of STAT and the counters that an instant writes. -/
def takeFlds : List Nat := [F.mgStat_TAG.id, F.mgStat_TV.id, F.mgStat_NEW.id]
def ageFlds : List Nat := [F.mgStat_AGE.id, F.mgStat_AGED.id, F.mgCnt_LATE.id, F.mgCnt1_AGEDN.id]

section
variable (k : Nat) (s : State)

theorem flipBuffers_act : (flipBuffers k s).act = s.act := by
  unfold flipBuffers
  split <;> rfl

theorem flipBuffers_frame : (flipBuffers k s).lastInst = s.lastInst ∧ (flipBuffers k s).loft = s.loft
    ∧ (flipBuffers k s).mg = s.mg ∧ (flipBuffers k s).eng = s.eng := by
  unfold flipBuffers
  split <;> exact ⟨rfl, rfl, rfl, rfl⟩

theorem flipBuffers_rg : (flipBuffers k s).rg k = { s.rg k with
    front := if s.fld F.mgCfg0_TRIPLE k = 0 then (s.rg k).front else (s.rg k).ready
    ready := if s.fld F.mgCfg0_TRIPLE k = 0 then (s.rg k).ready else (s.rg k).front } := by
  by_cases h : s.fld F.mgCfg0_TRIPLE k = 0 <;> simp [flipBuffers, State.rgTriple, State.on, h]

theorem takeSet_fld {f : Fld} (hf : f.id ∉ takeFlds) (i j : Nat) : (takeSet k s).fld f i j = s.fld f i j := by
  simp only [takeFlds, List.mem_cons, List.not_mem_nil, or_false, not_or] at hf
  obtain ⟨htag, htv, hnew⟩ := hf
  unfold takeSet
  split
  · rw [State.put_fld_ne _ _ _ _ _ _ _ _ hnew, State.put_fld_ne _ _ _ _ _ _ _ _ htv, State.put_fld_ne _ _ _ _ _ _ _ _ htag,
      State.fld, flipBuffers_act, State.fld]
  · rfl

theorem showAge_fld (age : Nat) (late : Bool) {f : Fld} (hf : f.id ∉ ageFlds) (i j : Nat) :
    (showAge k age late s).fld f i j = s.fld f i j := by
  simp only [ageFlds, List.mem_cons, List.not_mem_nil, or_false, not_or] at hf
  obtain ⟨hage, haged, hlate, hagedn⟩ := hf
  rw [showAge, State.put_fld_ne _ _ _ _ _ _ _ _ haged, countIf_fld_ne _ _ _ hagedn, countIf_fld_ne _ _ _ hlate,
    State.put_fld_ne _ _ _ _ _ _ _ _ hage]

/-- Neither the buffers nor another unit's state are part of what a region shows. -/
theorem showAge_frame (age : Nat) (late : Bool) : (showAge k age late s).rgn = s.rgn ∧ (showAge k age late s).lastInst = s.lastInst
    ∧ (showAge k age late s).loft = s.loft ∧ (showAge k age late s).mg = s.mg ∧ (showAge k age late s).eng = s.eng := by
  simp [showAge]

theorem showAge_age {age : Nat} (h : age ≤ 15) (late : Bool) : (showAge k age late s).fld F.mgStat_AGE k = age := by
  simp (disch := decide) only [showAge, State.put_fld_ne, countIf_fld_ne, State.put_fld]
  exact Nat.mod_eq_of_lt (Nat.lt_succ_of_le h)

theorem showAge_aged (age : Nat) (late : Bool) : (showAge k age late s).fld F.mgStat_AGED k
    = b2n (s.fld F.mgCfg1_MAXAGE k ≠ 0 && age > s.fld F.mgCfg1_MAXAGE k) := by
  have hbit (b : Bool) : b2n b % 2 ^ F.mgStat_AGED.width = b2n b := by cases b <;> rfl
  simp (disch := decide) only [showAge, State.put_fld_ne, countIf_fld_ne, State.put_fld, hbit]

theorem showAge_late (age : Nat) (late : Bool) : (showAge k age late s).fld F.mgCnt_LATE
    = if late then min (s.fld F.mgCnt_LATE + 1) (2 ^ F.mgCnt_LATE.width - 1) else s.fld F.mgCnt_LATE := by
  simp (disch := decide) only [showAge, State.put_fld_ne, countIf_fld_ne, countIf_fld]

theorem showAge_agedn (age : Nat) (late : Bool) : (showAge k age late s).fld F.mgCnt1_AGEDN
    = if (showAge k age late s).fld F.mgStat_AGED k ≠ 0 ∧ s.fld F.mgStat_AGED k = 0
      then min (s.fld F.mgCnt1_AGEDN + 1) (2 ^ F.mgCnt1_AGEDN.width - 1) else s.fld F.mgCnt1_AGEDN := by
  rw [showAge_aged]
  simp (disch := decide) only [showAge, State.on, State.put_fld_ne, countIf_fld_ne, countIf_fld]
  simp [b2n]

theorem takeSet_of_new {k : Nat} {s : State} (h : s.fld F.mgStat_NEW k ≠ 0) : takeSet k s
    = (((flipBuffers k s).put F.mgStat_TAG (s.rg k).rtag k).put F.mgStat_TV 1 k).put F.mgStat_NEW 0 k := if_pos (bne_iff_ne.mpr h)

theorem takeSet_of_not_new {k : Nat} {s : State} (h : s.fld F.mgStat_NEW k = 0) : takeSet k s = s :=
  if_neg fun hnew => bne_iff_ne.mp hnew h

/-- Neither a memory nor an engine nor the last instant is part of a flip. -/
theorem takeSet_frame : (takeSet k s).lastInst = s.lastInst ∧ (takeSet k s).loft = s.loft ∧ (takeSet k s).mg = s.mg
    ∧ (takeSet k s).eng = s.eng := by
  unfold takeSet
  split
  · simp only [State.put_lastInst, State.put_loft, State.put_mg, State.put_eng]
    exact flipBuffers_frame k s
  · exact ⟨rfl, rfl, rfl, rfl⟩

theorem ageAt_le (n tag : Nat) : ageAt n tag ≤ 15 := by
  unfold ageAt
  split
  · exact Nat.zero_le _
  · exact Nat.min_le_left ..

theorem State.ageNow_le (s : State) (n k : Nat) : s.ageNow n k ≤ 15 := ageAt_le ..

/-- A negative difference has no natural part, so one expression gives the age either way. -/
theorem ageAt_eq (n tag : Nat) : ageAt n tag = min 15 (sdiff 32 (n + 2 ^ 32 - 1) tag).toNat := by
  unfold ageAt
  split
  · next h => rw [Int.toNat_of_nonpos h.le, Nat.min_zero]
  · rfl

end

section
variable {k : Nat} {s : State} (hsize : s.fld F.mgCfg0_SIZE k ≠ 0) (n : Nat)
include hsize

theorem flipRegion_fld {f : Fld} (hage : f.id ∉ ageFlds) (i j : Nat) : (flipRegion n k s).fld f i j = (takeSet k s).fld f i j := by
  rw [flipRegion_of_used hsize, showAge_fld _ _ _ _ hage]

theorem flipRegion_rgn : (flipRegion n k s).rgn = (takeSet k s).rgn := by
  rw [flipRegion_of_used hsize]
  exact (showAge_frame ..).1

theorem flipRegion_age : (flipRegion n k s).fld F.mgStat_AGE k
    = min 15 (sdiff 32 (n + 2 ^ 32 - 1) ((flipRegion n k s).fld F.mgStat_TAG k)).toNat := by
  rw [flipRegion_fld hsize n (f := F.mgStat_TAG) (by decide), flipRegion_of_used hsize, showAge_age _ _ (s.ageNow_le n k), State.ageNow,
    ageAt_eq]

/-- A new set flips (R178 step 2). -/
theorem flipRegion_of_new (h : s.fld F.mgStat_NEW k ≠ 0) : (flipRegion n k s).fld F.mgStat_NEW k = 0
    ∧ (flipRegion n k s).fld F.mgStat_TV k = 1 ∧ (flipRegion n k s).fld F.mgStat_TAG k = (s.rg k).rtag % 2 ^ F.mgStat_TAG.width
    ∧ (flipRegion n k s).rg k = { s.rg k with
        front := if s.fld F.mgCfg0_TRIPLE k = 0 then (s.rg k).front else (s.rg k).ready
        ready := if s.fld F.mgCfg0_TRIPLE k = 0 then (s.rg k).ready else (s.rg k).front } := by
  have htake := takeSet_of_new h
  refine ⟨?_, ?_, ?_, ?_⟩
  · rw [flipRegion_fld hsize n (by decide), htake, State.put_fld, Nat.zero_mod]
  · rw [flipRegion_fld hsize n (by decide), htake, State.put_fld_ne _ _ _ _ _ _ _ _ (by decide), State.put_fld]
    rfl
  · rw [flipRegion_fld hsize n (by decide), htake, State.put_fld_ne _ _ _ _ _ _ _ _ (by decide),
      State.put_fld_ne _ _ _ _ _ _ _ _ (by decide), State.put_fld]
  · rw [State.rg, flipRegion_rgn hsize, htake, ← flipBuffers_rg]
    rfl

/-- Without a new set the front stays (R178 step 2). -/
theorem flipRegion_of_not_new (h : s.fld F.mgStat_NEW k = 0) :
    (flipRegion n k s).rg k = s.rg k ∧ (flipRegion n k s).fld F.mgStat_TAG k = s.fld F.mgStat_TAG k := by
  refine ⟨?_, ?_⟩
  · rw [State.rg, flipRegion_rgn hsize, takeSet_of_not_new h, State.rg]
  · rw [flipRegion_fld hsize n (by decide), takeSet_of_not_new h]

theorem flipRegion_late : (flipRegion n k s).fld F.mgCnt_LATE
    = if s.fld F.mgStat_NEW k ≠ 0 ∧ ((s.fld F.mgStat_TV k ≠ 0 ∧ 1 ≤ s.fld F.mgStat_AGE k) ∨ 1 ≤ (flipRegion n k s).fld F.mgStat_AGE k)
      then min (s.fld F.mgCnt_LATE + 1) (2 ^ F.mgCnt_LATE.width - 1) else s.fld F.mgCnt_LATE := by
  rw [flipRegion_of_used hsize, showAge_age _ _ (s.ageNow_le n k), showAge_late, takeSet_fld _ _ (by decide)]
  simp [State.lateAt, State.on]

theorem flipRegion_aged : (flipRegion n k s).fld F.mgStat_AGED k = 1 ↔
    s.fld F.mgCfg1_MAXAGE k ≠ 0 ∧ s.fld F.mgCfg1_MAXAGE k < (flipRegion n k s).fld F.mgStat_AGE k := by
  rw [flipRegion_of_used hsize, showAge_age _ _ (s.ageNow_le n k), showAge_aged, takeSet_fld _ _ (by decide)]
  simp [b2n]

theorem flipRegion_agedn : (flipRegion n k s).fld F.mgCnt1_AGEDN
    = if (flipRegion n k s).fld F.mgStat_AGED k ≠ 0 ∧ s.fld F.mgStat_AGED k = 0
      then min (s.fld F.mgCnt1_AGEDN + 1) (2 ^ F.mgCnt1_AGEDN.width - 1) else s.fld F.mgCnt1_AGEDN := by
  rw [flipRegion_of_used hsize, showAge_agedn, takeSet_fld _ _ (f := F.mgStat_AGED) (by decide),
    takeSet_fld _ _ (f := F.mgCnt1_AGEDN) (by decide)]

end

/-- Neither a memory nor an engine nor the last instant is part of a flip. -/
theorem flipRegion_frame (n k : Nat) (s : State) : (flipRegion n k s).lastInst = s.lastInst ∧ (flipRegion n k s).loft = s.loft
    ∧ (flipRegion n k s).mg = s.mg ∧ (flipRegion n k s).eng = s.eng := by
  by_cases h : s.fld F.mgCfg0_SIZE k = 0
  · rw [flipRegion_of_unused h]
    exact ⟨rfl, rfl, rfl, rfl⟩
  · obtain ⟨hlast, hloft, hmg, heng⟩ := takeSet_frame k s
    rw [flipRegion_of_used h]
    obtain ⟨-, hlast', hloft', hmg', heng'⟩ := showAge_frame k (takeSet k s) (s.ageNow n k) (s.lateAt k (s.ageNow n k))
    exact ⟨hlast'.trans hlast, hloft'.trans hloft, hmg'.trans hmg, heng'.trans heng⟩

theorem flipRegion_fld_of_other (n k : Nat) (s : State) {f : Fld} (htake : f.id ∉ takeFlds) (hage : f.id ∉ ageFlds) (i j : Nat) :
    (flipRegion n k s).fld f i j = s.fld f i j := by
  by_cases h : s.fld F.mgCfg0_SIZE k = 0
  · rw [flipRegion_of_unused h]
  · rw [flipRegion_fld h n hage, takeSet_fld _ _ htake]

/-! ### The regions flip apart from each other -/

/-- What a region's flip depends on and shows. -/
def regionFlds : List Nat := [F.mgCfg0_SIZE.id, F.mgCfg0_TRIPLE.id, F.mgStat_TAG.id, F.mgStat_TV.id, F.mgStat_NEW.id, F.mgStat_AGE.id]

/-- Region `k` stands in both states alike. -/
def SameRegion (k : Nat) (s t : State) : Prop := t.rg k = s.rg k ∧ ∀ f : Fld, f.id ∈ regionFlds → t.fld f k = s.fld f k

theorem SameRegion.trans {k : Nat} {s t u : State} (h : SameRegion k s t) (g : SameRegion k t u) : SameRegion k s u :=
  ⟨g.1.trans h.1, fun f hf => (g.2 f hf).trans (h.2 f hf)⟩

theorem key_ne_of_region {j k : Nat} (hj : j < 64) (hk : k < 64) (h : j ≠ k) (f g : Fld) : g.key k 0 ≠ f.key j 0 := by
  unfold Fld.key
  omega

theorem takeSet_region {j k : Nat} (hj : j < 64) (hk : k < 64) (h : j ≠ k) (s : State) : SameRegion k s (takeSet j s) := by
  have hput (t : State) (f : Fld) (v : Nat) (g : Fld) : (t.put f v j).fld g k = t.fld g k :=
    fld_put_of_key_ne (key_ne_of_region hj hk h f g) t v
  unfold takeSet
  split
  · refine ⟨?_, fun f _ => ?_⟩
    · simp only [State.put_rg_get, flipBuffers]
      split
      · exact State.setRg_rg_ne _ _ _ _ h.symm
      · rfl
    · rw [hput, hput, hput, State.fld, flipBuffers_act, State.fld]
  · exact ⟨rfl, fun _ _ => rfl⟩

theorem showAge_region {j k : Nat} (hj : j < 64) (hk : k < 64) (h : j ≠ k) (age : Nat) (late : Bool) (s : State) :
    SameRegion k s (showAge j age late s) := by
  have hput (t : State) (f : Fld) (v : Nat) (g : Fld) : (t.put f v j).fld g k = t.fld g k :=
    fld_put_of_key_ne (key_ne_of_region hj hk h f g) t v
  obtain ⟨hrgn, -⟩ := showAge_frame j s age late
  refine ⟨by rw [State.rg, hrgn, State.rg], fun f hf => ?_⟩
  have hlate : f.id ≠ F.mgCnt_LATE.id := fun e => absurd (e ▸ hf) (by decide)
  have hagedn : f.id ≠ F.mgCnt1_AGEDN.id := fun e => absurd (e ▸ hf) (by decide)
  rw [showAge, hput, countIf_fld_ne _ _ _ hagedn, countIf_fld_ne _ _ _ hlate, hput]

theorem flipRegion_region {j k : Nat} (hj : j < 64) (hk : k < 64) (h : j ≠ k) (n : Nat) (s : State) :
    SameRegion k s (flipRegion n j s) := by
  by_cases hs : s.fld F.mgCfg0_SIZE j = 0
  · rw [flipRegion_of_unused hs]
    exact ⟨rfl, fun _ _ => rfl⟩
  · rw [flipRegion_of_used hs]
    exact (takeSet_region hj hk h s).trans (showAge_region hj hk h ..)

theorem foldl_flipRegion_region {k : Nat} (hk : k < 64) (n : Nat) {l : List Nat} (hl : ∀ j ∈ l, j < 64 ∧ j ≠ k) (s : State) :
    SameRegion k s (l.foldl (fun s j => flipRegion n j s) s) := by
  induction l generalizing s with
  | nil => exact ⟨rfl, fun _ _ => rfl⟩
  | cons j l ih =>
    obtain ⟨hj, hne⟩ := hl j List.mem_cons_self
    exact (flipRegion_region hj hk hne n s).trans (ih (fun i hi => hl i (List.mem_cons_of_mem _ hi)) _)

/-- Every region flips at instant `n` (R178). -/
def flipAll (n : Nat) (s : State) : State := (List.range 64).foldl (fun s k => flipRegion n k s) s

/-- Of all flips a region sees its own. -/
theorem flipAll_region (n : Nat) {k : Nat} (hk : k < 64) (s : State) :
    ∃ t, SameRegion k s t ∧ SameRegion k (flipRegion n k t) (flipAll n s) := by
  obtain ⟨a, b, hab⟩ := List.append_of_mem (List.mem_range.mpr hk)
  have hnodup : (a ++ k :: b).Nodup := hab ▸ List.nodup_range
  have hlt : ∀ j ∈ a ++ k :: b, j < 64 := fun j hj => List.mem_range.mp (hab ▸ hj)
  obtain ⟨-, hkb, hdisj⟩ := List.nodup_append'.mp hnodup
  refine ⟨a.foldl (fun s k => flipRegion n k s) s, foldl_flipRegion_region hk n (fun j hj => ⟨hlt j (by simp [hj]), ?_⟩) s, ?_⟩
  · rintro rfl
    exact hdisj hj List.mem_cons_self
  · rw [flipAll, hab, List.foldl_append, List.foldl_cons]
    refine foldl_flipRegion_region hk n (fun j hj => ⟨hlt j (by simp [hj]), ?_⟩) _
    rintro rfl
    exact (List.nodup_cons.mp hkb).1 hj

theorem foldl_flipRegion_frame (n : Nat) (l : List Nat) (s : State) {f : Fld} (htake : f.id ∉ takeFlds) (hage : f.id ∉ ageFlds)
    (i j : Nat) : (l.foldl (fun s k => flipRegion n k s) s).lastInst = s.lastInst
      ∧ (l.foldl (fun s k => flipRegion n k s) s).fld f i j = s.fld f i j := by
  induction l generalizing s with
  | nil => exact ⟨rfl, rfl⟩
  | cons k l ih =>
    obtain ⟨hlast, -⟩ := flipRegion_frame n k s
    obtain ⟨ihlast, ihfld⟩ := ih (flipRegion n k s)
    exact ⟨ihlast.trans hlast, ihfld.trans (flipRegion_fld_of_other n k s htake hage i j)⟩

theorem flipAll_lastInst (n : Nat) (s : State) : (flipAll n s).lastInst = s.lastInst := by
  obtain ⟨hlast, -⟩ := foldl_flipRegion_frame n (List.range 64) s (f := F.mgInstat_N) (by decide) (by decide) 0 0
  rw [flipAll, hlast]

theorem flipAll_fld (n : Nat) (s : State) {f : Fld} (htake : f.id ∉ takeFlds) (hage : f.id ∉ ageFlds) (i j : Nat) :
    (flipAll n s).fld f i j = s.fld f i j := by
  obtain ⟨-, hfld⟩ := foldl_flipRegion_frame n (List.range 64) s htake hage i j
  rw [flipAll, hfld]

end Sys2Proof.Machine
end

section
/-! The common instant as a whole (R173, R178): it is marked, every region flips, and the work that follows keeps what the regions show. -/

namespace Sys2Proof.Machine

/-! ### The captured set of the Manger becomes active (R178 step 1) -/

/-- The time, and the count of instants that were skipped. -/
def State.skips (s : State) : Nat × Nat := (s.tick, s.fld F.mgCnt_SKIP)

theorem State.put_skips {f : Fld} (hf : F.mgCnt_SKIP.id ≠ f.id) (s : State) (v i j : Nat) : (s.put f v i j).skips = s.skips :=
  congrArg (Prod.mk s.tick) (State.put_fld_ne _ _ _ _ _ _ _ _ hf)

theorem State.bump_skips {f : Fld} (hf : F.mgCnt_SKIP.id ≠ f.id) (s : State) (i j n : Nat) : (s.bump f i j n).skips = s.skips :=
  State.put_skips hf ..

theorem foldl_skips {α : Type} {f : State → α → State} (hf : ∀ s x, (f s x).skips = s.skips) (l : List α) (s : State) :
    (l.foldl f s).skips = s.skips := by
  induction l generalizing s with
  | nil => rfl
  | cons x l ih => exact (ih _).trans (hf s x)

theorem noteOverq_skips (f : Nat) (old new : State) : (noteOverq f old new).skips = new.skips := by
  rcases noteOverq_cases f old new with h | h <;> rw [h]
  exact State.put_skips (by decide) ..

theorem takeCaptured_mg_skips (s : State) : (takeCaptured .mg s).skips = s.skips :=
  congrArg (Prod.mk s.tick) ((takeCaptured_fld ..).trans (if_neg (by decide)))

theorem gcSettle_skips (b : Block) (s : State) : (gcSettle b s).skips = s.skips := by
  unfold gcSettle
  split
  · rfl
  · dsimp only
    split
    · exact State.put_skips (by decide) ..
    · rfl

theorem activate_mg_skips (s : State) : (activate .mg s).skips = s.skips := by
  have hact : (activated .mg s).skips = s.skips := by
    rw [activated, State.cput, State.put_skips (by decide), State.cput, State.put_skips (by decide), takeCaptured_mg_skips]
  refine (gcSettle_skips ..).trans ?_
  split
  · refine (State.put_skips (by decide) ..).trans ((State.put_skips (by decide) ..).trans ?_)
    exact hact
  · exact hact

theorem activateMg_skips (s : State) : (activateMg s).skips = s.skips := by
  unfold activateMg
  extract_lets ks val keep kept ch t t2
  have hk (t : State) (f : Fld) (k : Nat) : (keep t f k).skips = t.skips := rfl
  clear_value keep
  have hkept : kept.skips = s.skips := by
    refine foldl_skips (fun t k => ?_) _ s
    extract_lets o had t1 t2
    have h1 : t1.skips = t.skips := by
      rw [hk, State.bump_skips (by decide), State.put_skips (by decide)]
    have h2 : t2.skips = t.skips := by
      unfold t2
      split
      · rfl
      · exact State.put_skips (by decide) ..
    split
    · split
      · rw [hk, h1]
      · exact h1
    · rw [State.put_skips (by decide), State.put_skips (by decide), h2]
  have ht : t2.skips = s.skips := by
    refine (foldl_skips (fun s k => ?_) ch t).trans ((activate_mg_skips kept).trans hkept)
    rw [State.put_skips (by decide), State.put_skips (by decide)]
    rfl
  exact (foldl_skips (fun t o => noteOverq_skips o s t) _ t2).trans ht

/-! ### An instant's work in its parts -/

/-- JUMP shows a step of the time, and a captured set becomes active (R173, R178 step 1). -/
def noteJump (s : State) : State := if s.jumpDue then { s.put F.mgInstat_JUMP 1 with jumpDue := false } else s
def commitMg (s : State) : State := if s.cfld F.commit_PEND .mg = 1 then activateMg s else s

/-- RUN and N of an instant (R171, R173). -/
def markInstant (n : Nat) (s : State) : State := { (s.put F.mgInstat_RUN 1).put F.mgInstat_N n with lastInst := some s.tick }

/-- What follows the flips: the pair, publications, interrupts, a capture of the time, and a commit of every block (R43, R178, R180). -/
def afterFlips (n : Nat) (s : State) : State :=
  let s := regionIrqs ((List.range 64).foldl publish (twinInstant n s))
  let s := if s.on F.tmCapctl_AUTO then captureTime s else s
  if s.boot.gcInst then commitAllDirty s else s

theorem instantWork_eq (s : State) :
    instantWork s = afterFlips s.instNow (flipAll s.instNow (markInstant s.instNow (commitMg (noteJump s)))) := by
  simp only [instantWork, afterFlips, flipAll, markInstant, commitMg, noteJump]

theorem noteJump_manger (s : State) : (noteJump s).manger = s.manger := by simp +decide [noteJump]

theorem afterFlips_manger (n : Nat) (s : State) : (afterFlips n s).manger = s.manger := by simp [afterFlips]

/-- JUMP apart, a step of the time leaves no mark in a field. -/
theorem noteJump_fld {f : Fld} (hf : f.id ≠ F.mgInstat_JUMP.id) (s : State) (i j : Nat) : (noteJump s).fld f i j = s.fld f i j := by
  unfold noteJump
  split
  · exact State.put_fld_ne s F.mgInstat_JUMP f 1 0 0 i j hf
  · rfl

theorem noteJump_skips (s : State) : (noteJump s).skips = s.skips := by
  have htick : (noteJump s).tick = s.tick := by
    unfold noteJump
    split <;> rfl
  rw [State.skips, htick, noteJump_fld (by decide), State.skips]

theorem commitMg_skips (s : State) : (commitMg s).skips = s.skips := by
  unfold commitMg
  split
  · exact activateMg_skips s
  · rfl

/-- RUN, N, the time of the instant and the count of skipped ones after its work (R173). -/
theorem instantWork_marks (s : State) : (instantWork s).fld F.mgInstat_RUN = 1
    ∧ (instantWork s).fld F.mgInstat_N = s.instNow % 2 ^ F.mgInstat_N.width ∧ (instantWork s).lastInst = some s.tick
    ∧ (instantWork s).fld F.mgCnt_SKIP = s.fld F.mgCnt_SKIP := by
  have hskips : (commitMg (noteJump s)).skips = s.skips := (commitMg_skips _).trans (noteJump_skips s)
  simp only [State.skips, Prod.mk.injEq] at hskips
  obtain ⟨htick, hskip⟩ := hskips
  rw [instantWork_eq]
  generalize commitMg (noteJump s) = t at htick hskip
  have hmanger := afterFlips_manger s.instNow (flipAll s.instNow (markInstant s.instNow t))
  have hfld {f : Fld} (hf : f.id ∈ mangerFlds) (htake : f.id ∉ takeFlds) (hage : f.id ∉ ageFlds) :
      (afterFlips s.instNow (flipAll s.instNow (markInstant s.instNow t))).fld f = (markInstant s.instNow t).fld f :=
    (fld_of_manger hmanger hf 0 0).trans (flipAll_fld _ _ htake hage 0 0)
  refine ⟨?_, ?_, ?_, ?_⟩
  · rw [hfld (by decide) (by decide) (by decide)]
    exact (State.put_fld_ne _ _ _ _ _ _ _ _ (by decide)).trans (State.put_fld ..)
  · rw [hfld (by decide) (by decide) (by decide)]
    exact State.put_fld ..
  · rw [lastInst_of_manger hmanger, flipAll_lastInst, ← htick]
    rfl
  · rw [hfld (by decide) (by decide) (by decide), ← hskip]
    exact (State.put_fld_ne _ _ _ _ _ _ _ _ (by decide)).trans (State.put_fld_ne _ _ _ _ _ _ _ _ (by decide))

theorem markInstant_region (n k : Nat) (s : State) : SameRegion k s (markInstant n s) := by
  refine ⟨rfl, fun f hf => ?_⟩
  have hrun : f.id ≠ F.mgInstat_RUN.id := fun e => absurd (e ▸ hf) (by decide)
  have hn : f.id ≠ F.mgInstat_N.id := fun e => absurd (e ▸ hf) (by decide)
  exact (State.put_fld_ne _ _ _ _ _ _ _ _ hn).trans (State.put_fld_ne _ _ _ _ _ _ _ _ hrun)

/-- With no set to activate the regions come to the flip as they stood. -/
theorem unflipped_region {s : State} (hpend : s.cfld F.commit_PEND .mg = 0) (n k : Nat) :
    SameRegion k s (markInstant n (commitMg (noteJump s))) := by
  have hjump : SameRegion k s (noteJump s) :=
    ⟨rg_of_manger (noteJump_manger s) k, fun f hf => noteJump_fld (fun e => absurd (e ▸ hf) (by decide)) ..⟩
  have hcommit : commitMg (noteJump s) = noteJump s := by
    refine if_neg fun h => ?_
    rw [State.cfld, noteJump_fld (by decide), ← State.cfld, hpend] at h
    exact absurd h (by decide)
  rw [hcommit]
  exact hjump.trans (markInstant_region ..)

/-- What a region shows after an instant (R178 steps 2 and 3): of its own flip, and of nothing that follows. -/
theorem instantWork_region {s : State} (hpend : s.cfld F.commit_PEND .mg = 0) {k : Nat} (hk : k < 64)
    (hsize : s.fld F.mgCfg0_SIZE k ≠ 0) :
    (s.fld F.mgStat_NEW k ≠ 0 → (instantWork s).fld F.mgStat_TAG k = (s.rg k).rtag % 2 ^ F.mgStat_TAG.width
      ∧ (instantWork s).fld F.mgStat_TV k = 1 ∧ (instantWork s).fld F.mgStat_NEW k = 0
      ∧ ((instantWork s).rg k).front = if s.fld F.mgCfg0_TRIPLE k = 0 then (s.rg k).front else (s.rg k).ready)
    ∧ (s.fld F.mgStat_NEW k = 0 → (instantWork s).fld F.mgStat_TAG k = s.fld F.mgStat_TAG k ∧ (instantWork s).rg k = s.rg k)
    ∧ (instantWork s).fld F.mgStat_AGE k
      = min 15 (sdiff 32 (s.instNow + 2 ^ 32 - 1) ((instantWork s).fld F.mgStat_TAG k)).toNat := by
  rw [instantWork_eq]
  have hmanger := afterFlips_manger s.instNow (flipAll s.instNow (markInstant s.instNow (commitMg (noteJump s))))
  obtain ⟨t, ht, hflip⟩ := flipAll_region s.instNow hk (markInstant s.instNow (commitMg (noteJump s)))
  obtain ⟨hrg, hfld⟩ := (unflipped_region hpend s.instNow k).trans ht
  obtain ⟨hrg', hfld'⟩ := hflip
  have hend {f : Fld} (hf : f.id ∈ mangerFlds) (hr : f.id ∈ regionFlds) :=
    (fld_of_manger hmanger hf k 0).trans (hfld' f hr)
  have hused : t.fld F.mgCfg0_SIZE k ≠ 0 := by rwa [hfld F.mgCfg0_SIZE (by decide)]
  rw [hend (f := F.mgStat_TAG) (by decide) (by decide), hend (f := F.mgStat_TV) (by decide) (by decide),
    hend (f := F.mgStat_NEW) (by decide) (by decide), hend (f := F.mgStat_AGE) (by decide) (by decide), rg_of_manger hmanger k, hrg',
    ← hfld F.mgStat_NEW (by decide), ← hfld F.mgStat_TAG (by decide), ← hfld F.mgCfg0_TRIPLE (by decide), ← hrg]
  refine ⟨fun hnew => ?_, fun hold => ?_, flipRegion_age hused s.instNow⟩
  · obtain ⟨hnew', htv, htag, hbuf⟩ := flipRegion_of_new hused s.instNow hnew
    exact ⟨htag, htv, hnew', by rw [hbuf]⟩
  · obtain ⟨hbuf, htag⟩ := flipRegion_of_not_new hused s.instNow hold
    exact ⟨htag, hbuf⟩

/-! ### The instant is taken or skipped (R173) -/

section
variable {s : State} (hclk : s.clocksOn = true) (ha : s.applied = true) (hcyc : s.fld F.mgInst_CYC ≠ 0)
include hclk ha hcyc

/-- The state at the instant, which is seen. -/
def seeInstant (s : State) : State := { toInstant s with seenInst := some (toInstant s).tick }

theorem commonInstant_of_first (h : (toInstant s).lastInst = none) : commonInstant s = instantWork (seeInstant s) := by
  have hrun : ¬ (!s.clocksOn || !s.applied || s.fld F.mgInst_CYC = 0) = true := by simp [hclk, ha, hcyc]
  rw [commonInstant, if_neg hrun]
  dsimp only [seeInstant]
  rw [h]

theorem commonInstant_of_last {x : Nat} (h : (toInstant s).lastInst = some x) : commonInstant s =
    if ((toInstant s).tick - x) * 8 < (toInstant s).fld F.mgInst_CYC then (seeInstant s).bump F.mgCnt_SKIP
    else instantWork (seeInstant s) := by
  have hrun : ¬ (!s.clocksOn || !s.applied || s.fld F.mgInst_CYC = 0) = true := by simp [hclk, ha, hcyc]
  rw [commonInstant, if_neg hrun]
  dsimp only
  split
  · next y hy =>
    obtain rfl : x = y := Option.some.inj (h.symm.trans hy)
    rfl
  · next hnone => exact absurd (h.symm.trans hnone) (Option.some_ne_none x)

end

/-- Time passes to the instant: the regions' sets, N and the count of skipped instants stay. -/
theorem seeInstant_skip (s : State) : (seeInstant s).fld F.mgCnt_SKIP = s.fld F.mgCnt_SKIP :=
  fld_of_manger (toInstant_manger s) (f := F.mgCnt_SKIP) (by decide) 0 0

theorem instantsFlipRegions : Stated.InstantsFlipRegions := by
  refine ⟨fun s hclk ha hcyc _ hu => ?_, fun s hclk ha hcyc x hx hlong => ?_, fun s hclk ha hcyc x hx hshort => ?_,
    fun s hclk ha hcyc hu hpend _ _ => ?_, fun s n k hsize => ?_⟩
  · have hwork := commonInstant_of_first hclk ha hcyc hu
    obtain ⟨hrun, hn, hlast, -⟩ := instantWork_marks (seeInstant s)
    refine ⟨notify s (commonInstant s), rfl, congrArg (notify s) hwork, ?_⟩
    simp only [State.notify_fld_get, State.notify_lastInst, hwork]
    exact ⟨hrun, hn, hlast⟩
  · have hwork := (commonInstant_of_last hclk ha hcyc hx).trans (if_neg (Nat.not_lt.mpr hlong))
    obtain ⟨-, hn, hlast, hskip⟩ := instantWork_marks (seeInstant s)
    refine ⟨notify s (commonInstant s), rfl, ?_⟩
    simp only [State.notify_fld_get, State.notify_lastInst, hwork]
    exact ⟨hn, hlast, hskip.trans (seeInstant_skip s)⟩
  · have hskip := (commonInstant_of_last hclk ha hcyc hx).trans (if_pos hshort)
    exact ⟨notify s (commonInstant s), rfl, congrArg (notify s) hskip⟩
  · have hwork := commonInstant_of_first hclk ha hcyc hu
    refine ⟨notify s (commonInstant s), rfl, fun k hsize => ?_⟩
    simp only [State.notify_fld_get, State.notify_rg_get, hwork]
    exact instantWork_region (s := seeInstant s) hpend k.isLt hsize
  · have hage := flipRegion_age hsize n
    obtain ⟨-, hloft, hmg, heng⟩ := flipRegion_frame n k s
    refine ⟨flipRegion_of_new hsize n, flipRegion_of_not_new hsize n, fun _ => hage, fun hneg => ?_, flipRegion_late hsize n,
      flipRegion_agedn hsize n, flipRegion_aged hsize n, hloft, hmg, heng⟩
    rw [hage, Int.toNat_of_nonpos hneg.le, Nat.min_zero]

end Sys2Proof.Machine
end

section
/-! Sets that complete (R177, R181): by DONE of a region's owner, and by a frame that carries a publication whole. -/

namespace Sys2Proof.Machine

/-! ### DONE (R177) -/

/-- The detail of an answer matters only to a refusal. -/
theorem finish_served_det (w : Who) (d : Nat) (s : State) : finish w { disp := 0, det := d, st := s } = finish w { st := s } := by
  cases w <;> rfl

theorem exec_regionDone {s : State} {w : Who} (hs : s.heard w = true) (ha : s.applied = true) (k : Fin 64) :
    exec (.regionDone w k) s
      = done s (finish w { disp := if (regionDone w k s).1 then 0 else 9, det := 1, st := (regionDone w k s).2 }) :=
  congrArg (done s) (blockAccess_of_heard hs ha _)

/-- A stranger is refused, and everyone while the owner is resetting or held. -/
theorem regionDone_of_refused {s : State} {w : Who} {k : Nat}
    (h : (s.supervisor w = false ∧ s.actsFor w (s.fld F.mgCfg0_OWNER k) = false) ∨ s.fnState (s.fld F.mgCfg0_OWNER k) = 3
      ∨ s.fnState (s.fld F.mgCfg0_OWNER k) = 1) : regionDone w k s = (false, s.bump F.mgMemerr_DENY) := by
  have hcond : (!(s.supervisor w || s.actsFor w (s.rgOwner k)) || s.fnState (s.rgOwner k) == 3 || s.fnState (s.rgOwner k) == 1) = true := by
    simpa [State.rgOwner, or_assoc] using h
  exact if_pos hcond

theorem regionDone_of_owner {s : State} {w : Who} {k : Nat} (hmay : s.supervisor w = true ∨ s.actsFor w (s.fld F.mgCfg0_OWNER k) = true)
    (hreset : s.fnState (s.fld F.mgCfg0_OWNER k) ≠ 3) (hheld : s.fnState (s.fld F.mgCfg0_OWNER k) ≠ 1)
    (hsize : s.fld F.mgCfg0_SIZE k ≠ 0) (hsrc : s.rgSrc k = 0) : regionDone w k s = (true, completeSet k s.instN s) := by
  have hcond : (!(s.supervisor w || s.actsFor w (s.rgOwner k)) || s.fnState (s.rgOwner k) == 3 || s.fnState (s.rgOwner k) == 1) = false := by
    rcases hmay with h | h <;> simp [State.rgOwner, h, hreset, hheld]
  have hused : ¬ (s.rgSize k = 0 ∨ s.rgSrc k ≠ 0) := by simp [State.rgSize, hsize, hsrc]
  simp only [regionDone, hcond, Bool.false_eq_true, if_false, if_neg hused]

theorem completeSet_of_not_new {s : State} {k : Nat} (h : s.fld F.mgStat_NEW k = 0) (tag : Nat) :
    completeSet k tag s = (s.setRg k { s.rg k with
      rtag := tag
      ready := if s.fld F.mgCfg0_TRIPLE k = 0 then (s.rg k).ready else (s.rg k).write
      write := if s.fld F.mgCfg0_TRIPLE k = 0 then (s.rg k).write else (s.rg k).ready }).put F.mgStat_NEW 1 k := by
  by_cases ht : s.fld F.mgCfg0_TRIPLE k = 0 <;> simp [completeSet, State.rgTriple, State.on, h, ht]

theorem regionDoneCompletesTheSet : Stated.RegionDoneCompletesTheSet := by
  refine fun s w k hs ha => ⟨fun hno => ⟨_, exec_regionDone hs ha k, ?_⟩, fun hmay hreset hheld hsize hsrc hnew =>
    ⟨_, exec_regionDone hs ha k, ?_⟩⟩
  · rw [regionDone_of_refused hno]
    rfl
  · rw [regionDone_of_owner hmay hreset hheld hsize hsrc, ← completeSet_of_not_new hnew]
    exact congrArg (notify s) (finish_served_det ..)

/-! ### The words that bytes carry (R180) -/

theorem wd_toNat {v : Nat} (h : v < 2 ^ 48) : (wd v).toNat = v := (BitVec.toNat_ofNat ..).trans (Nat.mod_eq_of_lt h)

/-- One more byte below the leading ones. -/
theorem leading_bytes_succ (v lo : Nat) : 256 * (v / 2 ^ (lo + 8)) + (BitVec.ofNat 8 (bits v lo 8)).toNat = v / 2 ^ lo := by
  have hbyte : (BitVec.ofNat 8 (bits v lo 8)).toNat = v / 2 ^ lo % 256 := (BitVec.toNat_ofNat ..).trans (Nat.mod_mod ..)
  rw [hbyte, pow_add, ← Nat.div_div_eq_div_mul]
  exact Nat.div_add_mod ..

theorem bytesNat_wordBytes (w : Word) : bytesNat (wordBytes w) = w.toNat := by
  have htop : w.toNat / 2 ^ (40 + 8) = 0 := Nat.div_eq_of_lt w.isLt
  have h40 := leading_bytes_succ w.toNat 40
  have h32 := leading_bytes_succ w.toNat 32
  have h24 := leading_bytes_succ w.toNat 24
  have h16 := leading_bytes_succ w.toNat 16
  have h8 := leading_bytes_succ w.toNat 8
  have h0 := leading_bytes_succ w.toNat 0
  rw [htop] at h40
  simp only [bytesNat, wordBytes, List.map_cons, List.map_nil, List.foldl_cons, List.foldl_nil, h40, h32, h24, h16, h8, h0, Nat.pow_zero,
    Nat.div_one]

theorem wordsOf_wordBytes_append (w : Word) (bs : List Byte) : wordsOf (wordBytes w ++ bs) = w :: wordsOf bs := by
  have hlen : (wordBytes w ++ bs).length / 6 = bs.length / 6 + 1 := by
    rw [List.length_append, show (wordBytes w).length = 6 from rfl]
    omega
  have hdrop (k : Nat) : (wordBytes w ++ bs).drop (6 * (k + 1)) = bs.drop (6 * k) := by
    rw [Nat.mul_succ, Nat.add_comm, ← List.drop_drop]
    rfl
  have hfirst : ((wordBytes w ++ bs).drop (6 * 0)).take 6 = wordBytes w := rfl
  simp only [wordsOf, hlen, List.range_succ_eq_map, List.map_cons, List.map_map, hfirst, bytesNat_wordBytes, Function.comp_def,
    Nat.succ_eq_add_one, hdrop]
  rw [wd, BitVec.ofNat_toNat, BitVec.setWidth_eq]

theorem wordsOf_carryWords (ws : List Word) : wordsOf (carryWords ws) = ws := by
  induction ws with
  | nil => rfl
  | cons w ws ih =>
    have hcons : carryWords (w :: ws) = wordBytes w ++ carryWords ws := List.flatMap_cons
    rw [hcons, wordsOf_wordBytes_append, ih]

/-- An untagged frame shows its EtherType behind the two addresses. -/
theorem etherType_untagged {head : List Byte} {e : Nat} (hhead : head.length = 12) (he : e < 65536) (htag : e ≠ 0x8100)
    (rest : List Byte) : etherType (head ++ [BitVec.ofNat 8 (e / 256), BitVec.ofNat 8 e] ++ rest) = (e, 14) := by
  have hat : bytesNat (((head ++ [BitVec.ofNat 8 (e / 256), BitVec.ofNat 8 e] ++ rest).drop 12).take 2) = e := by
    rw [List.append_assoc, List.drop_left' hhead]
    simp only [bytesNat, List.cons_append, List.take_succ_cons, List.take_zero, List.foldl_cons, List.foldl_nil, BitVec.toNat_ofNat]
    omega
  simp only [etherType, hat, if_neg htag]

theorem crcLsbBit_lt {poly c : Nat} (hp : poly < 2 ^ 32) (hc : c < 2 ^ 32) : crcLsbBit poly c < 2 ^ 32 := by
  have hhalf : c / 2 < 2 ^ 32 := (Nat.div_le_self c 2).trans_lt hc
  unfold crcLsbBit
  split
  · exact Nat.xor_lt_two_pow hhalf hp
  · exact hhalf

theorem crcLsbByte_lt {poly c b : Nat} (hp : poly < 2 ^ 32) (hc : c < 2 ^ 32) (hb : b < 2 ^ 32) : crcLsbByte poly c b < 2 ^ 32 :=
  List.foldlRecOn (motive := fun c : Nat => c < 2 ^ 32) _ _ (Nat.xor_lt_two_pow hc hb) fun _ hc _ _ => crcLsbBit_lt hp hc

theorem crc32c_lt (bs : List Byte) : crc32c bs < 2 ^ 32 := by
  refine Nat.xor_lt_two_pow (List.foldlRecOn (motive := fun c : Nat => c < 2 ^ 32) bs _ (by decide) fun c hc b _ => ?_) (by decide)
  exact crcLsbByte_lt (by decide) hc (b.isLt.trans (by decide))

/-! ### The write buffer fills (R181) -/

/-- A word of a region's write buffer (R175). -/
def State.writePlace (s : State) (k i : Nat) : SramWord := mgPlace (s.bufWord k (s.rg k).write i)

/-- The data words of a fragment go into the write buffer. -/
def fillBuffer (k from_ : Nat) (ws : List Word) (len : Nat) (s : State) : State :=
  (List.range len).foldl (fun s i => memWrite (s.writePlace k (from_ + i)) (ws.getD (i + 2) 0) s) s

/-- What the words of a set leave of a state. -/
structure FillKeeps (s t : State) : Prop where
  act : t.act = s.act
  rgn : t.rgn = s.rgn
  loft : t.loft = s.loft
  eng : t.eng = s.eng

namespace FillKeeps
variable {s t : State}

theorem fld (h : FillKeeps s t) (f : Fld) (i j : Nat) : t.fld f i j = s.fld f i j := by rw [State.fld, h.act, State.fld]

theorem rg (h : FillKeeps s t) (k : Nat) : t.rg k = s.rg k := by rw [State.rg, h.rgn, State.rg]

theorem writePlace (h : FillKeeps s t) (k i : Nat) : t.writePlace k i = s.writePlace k i := by
  have htriple : t.rgTriple k = s.rgTriple k := congrArg (· != 0) (h.fld ..)
  have hbase : t.rgBase k = s.rgBase k := h.fld ..
  have hsize : t.rgSize k = s.rgSize k := h.fld ..
  rw [State.writePlace, State.bufWord, htriple, hbase, hsize, h.rg, State.writePlace, State.bufWord]

end FillKeeps

/-- Every word of the fragment reads back, where no two share a place. -/
theorem fillBuffer_spec (s : State) (k from_ : Nat) (ws : List Word) (len : Nat)
    (hplace : ∀ i < len, ∀ j < len, i ≠ j → s.writePlace k (from_ + i) ≠ s.writePlace k (from_ + j)) :
    FillKeeps s (fillBuffer k from_ ws len s)
      ∧ ∀ i < len, (fillBuffer k from_ ws len s).raw (s.writePlace k (from_ + i)) = sealW (ws.getD (i + 2) 0) := by
  induction len with
  | zero => exact ⟨⟨rfl, rfl, rfl, rfl⟩, fun i hi => absurd hi (Nat.not_lt_zero i)⟩
  | succ n ih =>
    obtain ⟨hkeep, hread⟩ := ih fun i hi j hj => hplace i (hi.trans n.lt_succ_self) j (hj.trans n.lt_succ_self)
    have hstep : fillBuffer k from_ ws (n + 1) s
        = memWrite (s.writePlace k (from_ + n)) (ws.getD (n + 2) 0) (fillBuffer k from_ ws n s) := by
      rw [fillBuffer, List.range_succ, List.foldl_append, List.foldl_cons, List.foldl_nil, ← fillBuffer, hkeep.writePlace]
    rw [hstep]
    refine ⟨⟨hkeep.act, hkeep.rgn, hkeep.loft, hkeep.eng⟩, fun i hi => ?_⟩
    rcases Nat.lt_succ_iff_lt_or_eq.mp hi with hlt | rfl
    · rw [raw_memWrite_ne rfl (hplace i hi n n.lt_succ_self hlt.ne), hread i hlt]
    · exact raw_memWrite_same rfl ..

/-- Where the words of a set that lies within the Manger stand, in three buffers (R175). -/
theorem State.writePlace_of_triple {s : State} {k i : Nat} (ht : s.fld F.mgCfg0_TRIPLE k ≠ 0) :
    s.writePlace k i = mgPlace (s.fld F.mgCfg0_BASE k + (s.rg k).write * s.fld F.mgCfg0_SIZE k + i) := by
  have htriple : s.rgTriple k = true := bne_iff_ne.mpr ht
  rw [State.writePlace, State.bufWord, if_pos htriple, mgPlace, mgPlace]
  exact congrArg SramWord.mg (Fin.ext (Nat.mod_mod ..))

theorem State.writePlace_ne {s : State} {k i j : Nat} (ht : s.fld F.mgCfg0_TRIPLE k ≠ 0) (hw : (s.rg k).write < 3)
    (hfit : s.fld F.mgCfg0_BASE k + 3 * s.fld F.mgCfg0_SIZE k ≤ 131072) (hi : i < s.fld F.mgCfg0_SIZE k) (hj : j < s.fld F.mgCfg0_SIZE k)
    (hne : i ≠ j) : s.writePlace k i ≠ s.writePlace k j := by
  have hbuf : (s.rg k).write * s.fld F.mgCfg0_SIZE k ≤ 2 * s.fld F.mgCfg0_SIZE k := Nat.mul_le_mul_right _ (Nat.le_of_lt_succ hw)
  rw [State.writePlace_of_triple ht, State.writePlace_of_triple ht]
  generalize s.fld F.mgCfg0_SIZE k = n at *
  generalize (s.rg k).write * n = buf at *
  generalize s.fld F.mgCfg0_BASE k = base at *
  intro h
  have hmod : (base + buf + i) % 131072 = (base + buf + j) % 131072 := congrArg Fin.val (SramWord.mg.inj h)
  omega

/-! ### A publication in one frame (R180, R181) -/

/-- The words of a publication of one fragment, without its CRC (R180). -/
def wholeSet (sdn rgn tag : Nat) (data : List Word) : List Word :=
  [wd (sdn * 2 ^ 38 + rgn * 2 ^ 32 + data.length), wd (tag * 2 ^ 16)] ++ data

/-- HELD, AGED and SYNC of the completing set (R181). -/
def noteSet (k : Nat) (held aged sync : Bool) (s : State) : State :=
  ((s.put F.mgStat_PHELD (b2n held) k).put F.mgStat_PAGED (b2n aged) k).put F.mgStat_PSYNC (b2n sync) k

/-- A region's set is whole: what it had of one is forgotten, and it completes. -/
def endSet (k : Nat) (held aged sync : Bool) (s : State) : State :=
  let t := noteSet k held aged sync (s.setRg k { s.rg k with sub := none })
  completeSet k t.instN t

/-- A set that another replaces before its instant is counted (R182). -/
def countReplaced (k : Nat) (s : State) : State := countIf (s.on F.mgStat_NEW k) F.mgCnt_OVWR s

/-- With TRIPLE the write buffer becomes the ready one (R177). -/
theorem completeSet_of_triple {s : State} {k : Nat} (h : s.fld F.mgCfg0_TRIPLE k ≠ 0) (tag : Nat) : completeSet k tag s
    = ((countReplaced k s).setRg k { s.rg k with ready := (s.rg k).write, write := (s.rg k).ready, rtag := tag }).put
      F.mgStat_NEW 1 k := by
  have hfld : (countReplaced k s).fld F.mgCfg0_TRIPLE k = s.fld F.mgCfg0_TRIPLE k := countIf_fld_ne _ _ _ (by decide) ..
  have htriple : (countReplaced k s).rgTriple k = true := bne_iff_ne.mpr (hfld ▸ h)
  exact congrArg (fun x => ((countReplaced k s).setRg k x).put F.mgStat_NEW 1 k) (if_pos htriple)

/-- What the last fragment of a set leaves: the set is ready, tagged with the most recent instant, and its words stay. -/
theorem endSet_spec {s : State} {k : Nat} (h : s.fld F.mgCfg0_TRIPLE k ≠ 0) (held aged sync : Bool) :
    (endSet k held aged sync s).fld F.mgStat_NEW k = 1 ∧ ((endSet k held aged sync s).rg k).rtag = s.fld F.mgInstat_N
      ∧ ((endSet k held aged sync s).rg k).ready = (s.rg k).write ∧ ((endSet k held aged sync s).rg k).write = (s.rg k).ready
      ∧ (endSet k held aged sync s).mg = s.mg ∧ (endSet k held aged sync s).loft = s.loft
      ∧ (endSet k held aged sync s).eng = s.eng := by
  have hfld {f : Fld} (hf : f.id ∉ [F.mgStat_PHELD.id, F.mgStat_PAGED.id, F.mgStat_PSYNC.id]) (i : Nat) :
      (noteSet k held aged sync (s.setRg k { s.rg k with sub := none })).fld f i = s.fld f i := by
    simp only [List.mem_cons, List.not_mem_nil, or_false, not_or] at hf
    obtain ⟨hheld, haged, hsync⟩ := hf
    rw [noteSet, State.put_fld_ne _ _ _ _ _ _ _ _ hsync, State.put_fld_ne _ _ _ _ _ _ _ _ haged,
      State.put_fld_ne _ _ _ _ _ _ _ _ hheld]
    rfl
  have hrg : (noteSet k held aged sync (s.setRg k { s.rg k with sub := none })).rg k = { s.rg k with sub := none } :=
    State.setRg_rg ..
  have hend := completeSet_of_triple (s := noteSet k held aged sync (s.setRg k { s.rg k with sub := none })) (k := k)
    (by rwa [hfld (by decide)])
  rw [endSet, hend, State.put_fld, State.put_rg_get, State.setRg_rg, hrg, State.instN, hfld (by decide)]
  simp [countReplaced, noteSet, F.mgStat_NEW]

/-- The conditions of R181 on a fragment for a region: it is whole and its CRC is good, its numbers fit the region, and it is newer
than the front. -/
def State.takesFragment (s : State) (k : Nat) (ws : List Word) : Bool :=
  let w := fun i => (ws.getD i 0).toNat
  let frag := bits (w 0) 28 4
  let nf := bits (w 0) 24 4
  let len := bits (w 0) 0 16
  ws.length ≥ len + 3 && w (len + 2) == crc32c (carryWords (ws.take (len + 2))) && 1 ≤ len && len ≤ 240 && frag ≤ nf
    && 240 * nf < s.rgSize k && s.rgSize k ≤ 240 * (nf + 1) && len == min 240 (s.rgSize k - 240 * frag)
    && (!s.on F.mgStat_TV k || sdiff 32 (bits (w 1) 16 32) (s.fld F.mgStat_TAG k) > 0)

/-- The first fragment of a set that is all of it completes the set. -/
theorem subscribeRegion_of_whole {s : State} {k : Nat} {ws : List Word} (hgood : s.takesFragment k ws = true)
    (hsub : (s.rg k).sub = none) (hwhole : bits (ws.getD 0 0).toNat 0 16 = s.fld F.mgCfg0_SIZE k) :
    subscribeRegion ws s k = endSet k ((ws.getD 0 0).toNat.testBit 17) ((ws.getD 0 0).toNat.testBit 18)
      ((ws.getD 0 0).toNat.testBit 16)
      (fillBuffer k (240 * bits (ws.getD 0 0).toNat 28 4) ws (s.fld F.mgCfg0_SIZE k) s) := by
  unfold subscribeRegion
  extract_lets w frag nf len tag body size good old stale s1 cur s2 cur2 x s3 s4
  have hg : good = true := hgood
  have hold : old = none := hsub
  have hstale : stale = false := by simp only [stale, hold, Option.any_none]
  have hs1 : s1 = s := by simp only [s1, hold, Option.any_none, Bool.false_eq_true, if_false]
  have hlen : cur2.len = size := by
    have hfirst : len = size := hwhole
    simpa [cur2, cur, hold] using hfirst
  have hs2 : s2 = fillBuffer k (240 * frag) ws (s.fld F.mgCfg0_SIZE k) s := by
    rw [← hwhole]
    simp only [s2, hs1]
    rfl
  rw [hg, hstale, if_neg (by decide), if_pos hlen, ← hs2]
  rfl

section
variable {sdn rgn tag : Nat} {data : List Word}

theorem wholeSet_header (hsdn : sdn < 1024) (hrgn : rgn < 64) (hlen : data.length ≤ 240) :
    ((withCrc (wholeSet sdn rgn tag data)).getD 0 0).toNat = sdn * 2 ^ 38 + rgn * 2 ^ 32 + data.length := wd_toNat (by omega)

theorem wholeSet_tag (htag : tag < 2 ^ 32) : ((withCrc (wholeSet sdn rgn tag data)).getD 1 0).toNat = tag * 2 ^ 16 :=
  wd_toNat (by omega)

theorem wholeSet_data {i : Nat} (hi : i < data.length) : (withCrc (wholeSet sdn rgn tag data)).getD (i + 2) 0 = data.getD i 0 := by
  simp only [withCrc, wholeSet, List.cons_append, List.nil_append, List.getD_cons_succ, List.getD_append _ _ _ _ hi]

theorem wholeSet_crc : (withCrc (wholeSet sdn rgn tag data)).getD (data.length + 2) 0
    = wd (crc32c (carryWords (wholeSet sdn rgn tag data))) := by
  simp [withCrc, wholeSet]

theorem wholeSet_body : (withCrc (wholeSet sdn rgn tag data)).take (data.length + 2) = wholeSet sdn rgn tag data :=
  List.take_left' rfl

theorem takesFragment_wholeSet {s : State} {k : Nat} (hsdn : sdn < 1024) (hrgn : rgn < 64) (htag : tag < 2 ^ 32)
    (hsize : data.length = s.fld F.mgCfg0_SIZE k) (hpos : 1 ≤ data.length) (hlen : data.length ≤ 240)
    (hnewer : s.fld F.mgStat_TV k ≠ 0 → 0 < sdiff 32 tag (s.fld F.mgStat_TAG k)) :
    s.takesFragment k (withCrc (wholeSet sdn rgn tag data)) = true := by
  have hfrag : bits (sdn * 2 ^ 38 + rgn * 2 ^ 32 + data.length) 28 4 = 0 := by simp only [bits]; omega
  have hnf : bits (sdn * 2 ^ 38 + rgn * 2 ^ 32 + data.length) 24 4 = 0 := by simp only [bits]; omega
  have hl : bits (sdn * 2 ^ 38 + rgn * 2 ^ 32 + data.length) 0 16 = data.length := by simp only [bits]; omega
  have ht : bits (tag * 2 ^ 16) 16 32 = tag := by simp only [bits]; omega
  have hcrc := wd_toNat ((crc32c_lt (carryWords (wholeSet sdn rgn tag data))).trans (by decide))
  simp only [State.takesFragment, wholeSet_header hsdn hrgn hlen, wholeSet_tag htag, hfrag, hnf, hl, ht, wholeSet_crc, wholeSet_body, hcrc]
  have hnonempty : 0 < data.length := hpos
  have hnew : s.fld F.mgStat_TV k = 0 ∨ 0 < sdiff 32 tag (s.fld F.mgStat_TAG k) := or_iff_not_imp_left.mpr hnewer
  simp [State.rgSize, ← hsize, hpos, hnonempty, hlen, hnew, withCrc, wholeSet, State.on]

/-- The regions that subscribe to the source of a frame whose word 0 is `w0` (R181). -/
def State.subscribers (s : State) (w0 : Nat) : List Nat :=
  (List.range 64).filter fun k =>
    s.rgSize k ≠ 0 && s.rgSrc k == 2 && s.fld F.mgCfg1_SSDN k == bits w0 38 10 && s.fld F.mgCfg1_SRGN k == bits w0 32 6

/-- A frame of another EtherType reaches no region. -/
theorem subscribe_of_type_ne {s : State} {bs : List Byte} (h : (etherType bs).1 ≠ s.etype) : subscribe bs s = s := if_pos h

theorem subscribe_of_type {s : State} {bs : List Byte} {at0 : Nat} (h : etherType bs = (s.etype, at0)) : subscribe bs s
    = (s.subscribers ((wordsOf (bs.drop at0)).getD 0 0).toNat).foldl (subscribeRegion (wordsOf (bs.drop at0))) s := by
  rw [subscribe, h]
  exact if_neg fun hne => hne rfl

theorem State.subscribers_single {s : State} {k w0 : Nat} (hk : k < 64) (hsize : s.fld F.mgCfg0_SIZE k ≠ 0) (hsrc : s.rgSrc k = 2)
    (hssdn : s.fld F.mgCfg1_SSDN k = bits w0 38 10) (hsrgn : s.fld F.mgCfg1_SRGN k = bits w0 32 6)
    (hothers : ∀ j < 64, j ≠ k → s.rgSrc j ≠ 2 ∨ s.fld F.mgCfg1_SSDN j ≠ bits w0 38 10 ∨ s.fld F.mgCfg1_SRGN j ≠ bits w0 32 6) :
    s.subscribers w0 = [k] := by
  have hmatch : ∀ j ∈ List.range 64, (s.rgSize j ≠ 0 && s.rgSrc j == 2 && s.fld F.mgCfg1_SSDN j == bits w0 38 10
      && s.fld F.mgCfg1_SRGN j == bits w0 32 6) = (j == k) := by
    intro j hj
    by_cases hjk : j = k
    · simp [hjk, State.rgSize, hsize, hsrc, hssdn, hsrgn]
    · rw [beq_eq_false_iff_ne.mpr hjk]
      rcases hothers j (List.mem_range.mp hj) hjk with h | h | h <;> simp [h]
  rw [State.subscribers, List.filter_congr hmatch, List.filter_beq, List.count_eq_one_of_mem List.nodup_range (List.mem_range.mpr hk),
    List.replicate_one]

theorem wholeSet_sdn (hsdn : sdn < 1024) (hrgn : rgn < 64) (hlen : data.length ≤ 240) :
    bits ((withCrc (wholeSet sdn rgn tag data)).getD 0 0).toNat 38 10 = sdn := by
  rw [wholeSet_header hsdn hrgn hlen, bits]
  omega

theorem wholeSet_rgn (hsdn : sdn < 1024) (hrgn : rgn < 64) (hlen : data.length ≤ 240) :
    bits ((withCrc (wholeSet sdn rgn tag data)).getD 0 0).toNat 32 6 = rgn := by
  rw [wholeSet_header hsdn hrgn hlen, bits]
  omega

theorem wholeSet_len (hsdn : sdn < 1024) (hrgn : rgn < 64) (hlen : data.length ≤ 240) :
    bits ((withCrc (wholeSet sdn rgn tag data)).getD 0 0).toNat 0 16 = data.length := by
  rw [wholeSet_header hsdn hrgn hlen, bits]
  omega

theorem wholeSet_frag (hsdn : sdn < 1024) (hrgn : rgn < 64) (hlen : data.length ≤ 240) :
    bits ((withCrc (wholeSet sdn rgn tag data)).getD 0 0).toNat 28 4 = 0 := by
  rw [wholeSet_header hsdn hrgn hlen, bits]
  omega

end

/-- A word of the Manger is read from the Manger's table. -/
theorem raw_mgPlace_of_mg {s t : State} (h : t.mg = s.mg) (a : Nat) : t.raw (mgPlace a) = s.raw (mgPlace a) :=
  congrArg (fun m : Mem => Tab.get 0 m (Fin.ofNat 131072 a : Fin 131072).val) h

theorem exec_subscriptionReceive {s : State} (hclk : s.clocksOn = true) (ha : s.applied = true) (bs : List Byte) :
    exec (.subscriptionReceive { bytes := bs, fcsOk := true }) s = done s (subscribe bs s) := by
  have hrun : (s.clocksOn && s.applied && true) = true := by rw [hclk, ha]; rfl
  exact congrArg (done s) (if_pos hrun)

/-- Region `k` has the set `data` ready, which filled its write buffer, under the number of the most recent instant (R177). -/
def SetReady (k : Nat) (data : List Word) (s t : State) : Prop :=
  t.fld F.mgStat_NEW k = 1 ∧ (t.rg k).rtag = s.fld F.mgInstat_N ∧ (t.rg k).ready = (s.rg k).write ∧ (t.rg k).write = (s.rg k).ready
    ∧ (∀ i < data.length, readCode (t.raw (mgPlace (s.fld F.mgCfg0_BASE k + (s.rg k).write * data.length + i))) = .ok (data.getD i 0))
    ∧ t.loft = s.loft ∧ t.eng = s.eng

/-- The fragment that is a whole set fills the write buffer and completes it. -/
theorem endSet_fillBuffer_ready {s : State} {k : Nat} {ws data : List Word} (htriple : s.fld F.mgCfg0_TRIPLE k ≠ 0)
    (hw : (s.rg k).write < 3) (hsize : data.length = s.fld F.mgCfg0_SIZE k)
    (hfit : s.fld F.mgCfg0_BASE k + 3 * data.length ≤ 131072) (hws : ∀ i < data.length, ws.getD (i + 2) 0 = data.getD i 0)
    (held aged sync : Bool) : SetReady k data s (endSet k held aged sync (fillBuffer k 0 ws data.length s)) := by
  have hplace : ∀ i < data.length, ∀ j < data.length, i ≠ j → s.writePlace k (0 + i) ≠ s.writePlace k (0 + j) := by
    rw [hsize] at hfit ⊢
    simp only [Nat.zero_add]
    exact fun i hi j hj => State.writePlace_ne htriple hw hfit hi hj
  obtain ⟨hkeep, hread⟩ := fillBuffer_spec s k 0 ws data.length hplace
  obtain ⟨hnew, hrtag, hready, hwrite, hmg, hloft, heng⟩ := endSet_spec (s := fillBuffer k 0 ws data.length s) (k := k)
    (by rwa [hkeep.fld]) held aged sync
  rw [hkeep.fld] at hrtag
  rw [hkeep.rg] at hready hwrite
  refine ⟨hnew, hrtag, hready, hwrite, fun i hi => ?_, hloft.trans hkeep.loft, heng.trans hkeep.eng⟩
  have hword := hread i hi
  rw [hws i hi, Nat.zero_add, State.writePlace_of_triple htriple, ← hsize] at hword
  rw [raw_mgPlace_of_mg hmg, hword, readCode_sealW]

theorem SetReady.notify {k : Nat} {data : List Word} {s t : State} (h : SetReady k data s t) (old : State) :
    SetReady k data s (notify old t) := h

theorem subscriptionsFillTheWriteBuffer : Stated.SubscriptionsFillTheWriteBuffer := by
  refine fun s hclk ha => ⟨fun bs htype => ⟨_, exec_subscriptionReceive hclk ha bs, by rw [subscribe_of_type_ne htype]⟩, ?_⟩
  intro k head sdn rgn tag data htag8100 hetype hhead hsdn hrgn htag hsize hpos hlen hfit htriple hsrc hssdn hsrgn hothers hnewer hsub hw _
  change Does (.subscriptionReceive
    { bytes := head ++ [BitVec.ofNat 8 (s.etype / 256), BitVec.ofNat 8 s.etype] ++ carryWords (withCrc (wholeSet sdn rgn tag data))
      fcsOk := true }) s (SetReady k data s)
  have hbody : wordsOf (((head ++ [BitVec.ofNat 8 (s.etype / 256), BitVec.ofNat 8 s.etype])
      ++ carryWords (withCrc (wholeSet sdn rgn tag data))).drop 14) = withCrc (wholeSet sdn rgn tag data) := by
    rw [List.drop_left' (by simp [hhead]), wordsOf_carryWords]
  have hs := wholeSet_sdn (tag := tag) hsdn hrgn hlen
  have hr := wholeSet_rgn (tag := tag) hsdn hrgn hlen
  have hone : s.subscribers ((withCrc (wholeSet sdn rgn tag data)).getD 0 0).toNat = [k.val] :=
    State.subscribers_single k.isLt (by omega) hsrc (hssdn.trans hs.symm) (hsrgn.trans hr.symm) (by rwa [hs, hr])
  refine ⟨_, exec_subscriptionReceive hclk ha _, SetReady.notify ?_ s⟩
  rw [subscribe_of_type (etherType_untagged hhead hetype htag8100 _), hbody, hone, List.foldl_cons, List.foldl_nil,
    subscribeRegion_of_whole (takesFragment_wholeSet hsdn hrgn htag hsize hpos hlen hnewer) hsub
      ((wholeSet_len hsdn hrgn hlen).trans hsize), wholeSet_frag hsdn hrgn hlen, ← hsize, Nat.mul_zero]
  exact endSet_fillBuffer_ready htriple hw hsize hfit (fun i hi => wholeSet_data hi) _ _ _

/-- Settles O34: DONE and a whole publication complete a region's set, and at an instant each region flips apart from the others, by its
own set alone; the rest of the instant's work leaves what the regions show. -/
theorem regionsCompleteAndFlip : Obligations.RegionsCompleteAndFlip :=
  ⟨regionDoneCompletesTheSet, instantsFlipRegions, subscriptionsFillTheWriteBuffer⟩

end Sys2Proof.Machine
end

section
/-! What the events of the ports share (R188 to R201): each acts where the ports run, and a time that has come passes no tick. -/

namespace Sys2Proof.Machine

/-! ### The events of a port (R348) -/

theorem whenLinked_of_linked {s : State} (h : s.linked) (f : State → State) : whenLinked f s = f s := by
  obtain ⟨hclk, happ⟩ := h
  unfold whenLinked
  rw [if_pos (by simpa [hclk] using happ)]

/-- What an event does where the ports run. -/
theorem does_of_linked {c : Instr} {s : State} {f : State → State} {P : State → Prop} (he : exec c s = done s (whenLinked f s))
    (h : s.linked) (hP : P (notify s (f s))) : Does c s P :=
  ⟨_, he.trans (by rw [whenLinked_of_linked h, done]), hP⟩

theorem does_eq_of_linked {c : Instr} {s u : State} {f : State → State} (he : exec c s = done s (whenLinked f s)) (h : s.linked)
    (hu : f s = u) : Does c s fun t => t = notify s u :=
  does_of_linked he h (congrArg (notify s) hu)

theorem State.bump_on_ne (s : State) (f g : Fld) (i j n a b : Nat) (h : g.id ≠ f.id) : (s.bump f i j n).on g a b = s.on g a b :=
  State.put_on_ne _ _ _ _ _ _ _ _ h

end Sys2Proof.Machine
end

section
/-! The statement of preemption and of low-power idle: verification, the end of a fragment, and the idle of both directions. -/

namespace Sys2Proof.Machine
variable {s : State} {p : Nat}

/-! ### Verification (R193) -/

theorem verifySend_of_not_verifying (h : s.fld F.epStat_PVS p ≠ 1) : verifySend p s = s := if_pos h

theorem verifySend_of_due (h : s.fld F.epStat_PVS p = 1) (hdue : (s.port p).verifies = 0 ∨ (s.port p).verAt + 2500000 ≤ s.tick) :
    verifySend p s = if (s.port p).verifies < 3 then
        (s.setPort p { s.port p with verifies := (s.port p).verifies + 1, verAt := s.tick }).emit (.mpacket p)
      else (s.put F.epStat_PVS 3 p).put F.epEvt_PVFAIL 1 p := by
  have hnow : (if (s.port p).verifies = 0 then s else passTo ((s.port p).verAt + 2500000) s) = s := by
    rcases hdue with h0 | hlate
    · exact if_pos h0
    · rw [passTo_of_past hlate, ite_self]
  unfold verifySend
  rw [if_neg (not_not_intro h)]
  simp only [hnow]

/-! ### The end of a fragment (R194) -/

theorem fragmentEnd_of_sending {x : TxSt} {f : YFrame} {n have_ : Nat} (hx : (s.port p).tx = some x) (hf : s.frame x.id = some f) :
    fragmentEnd p n have_ s =
      if x.pre && x.sent + 64 * (s.fld F.epCfg0_ADDFRAG p + 1) - 4 ≤ n && n + 64 ≤ s.egressLen p f + 4
          && (s.setPort p { s.port p with held := some x, tx := none }).expressWaits p have_ then
        (s.setPort p { s.port p with tx := none, held := some { x with sent := n } }).bump F.epCnt4_PREEMPT p
      else s := by
  unfold fragmentEnd
  rw [hx]
  dsimp only
  rw [hf]

theorem preemptionIsVerified : Stated.PreemptionIsVerified := by
  refine fun s p hl => ⟨fun hv => ⟨?_, ?_⟩, fun hv => ⟨?_, fun hdue => ⟨fun hn => ?_, fun hn => ?_⟩⟩,
    fun n have_ x f hx hf => ⟨fun h => ?_, fun hpre hmin hrest hexp => ?_⟩⟩
  · exact does_eq_of_linked rfl hl (verifySend_of_not_verifying hv)
  · exact does_eq_of_linked rfl hl (if_neg hv)
  · exact does_eq_of_linked rfl hl (if_pos hv)
  · exact does_eq_of_linked rfl hl ((verifySend_of_due hv hdue).trans (if_pos hn))
  · exact does_eq_of_linked rfl hl ((verifySend_of_due hv hdue).trans (if_neg (Nat.not_lt.2 hn)))
  · refine does_eq_of_linked rfl hl ((fragmentEnd_of_sending hx hf).trans (if_neg ?_))
    simp only [Bool.and_eq_true, decide_eq_true_eq]
    rintro ⟨⟨⟨hpre, hmin⟩, hrest⟩, -⟩
    rcases h with h | h | h
    · exact absurd hpre (by simp [h])
    · omega
    · omega
  · exact does_eq_of_linked rfl hl ((fragmentEnd_of_sending hx hf).trans (if_pos (by simp [hpre, hmin, hrest, hexp])))

/-! ### Low-power idle (R198) -/

theorem lpiEnter_of_unused (h : s.lpiUse p = false) : lpiEnter p s = s := if_pos (by simp [h])

theorem lpiEnter_of_work (h : s.hasWork p = true) : lpiEnter p s = s := if_pos (by simp [h])

theorem lpiEnter_of_due (huse : s.lpiUse p = true) (hwork : s.hasWork p = false) (htx : s.fld F.epStat_LPITX p = 0)
    (hdue : s.fld F.pwPstat_STATE = 2 ∨ (s.port p).idleFrom + s.fld F.epCfg2_LPIIDLE p * 250 ≤ s.tick) :
    lpiEnter p s = s.put F.epStat_LPITX 1 p := by
  have hnow : (if s.fld F.pwPstat_STATE = 2 then s else passTo ((s.port p).idleFrom + s.fld F.epCfg2_LPIIDLE p * tickUs) s) = s := by
    rcases hdue with hdoze | hlate
    · exact if_pos hdoze
    · rw [passTo_of_past (t := (s.port p).idleFrom + s.fld F.epCfg2_LPIIDLE p * tickUs) hlate, ite_self]
  unfold lpiEnter
  rw [if_neg (by simp [huse, hwork, State.on, htx])]
  simp only [hnow]

theorem lpiWake_of_asleep (hwork : s.hasWork p = true) (htx : s.fld F.epStat_LPITX p ≠ 0) :
    lpiWake p s = (s.put F.epStat_LPITX 0 p).setPort p { s.port p with txWakeAt := some s.tick } :=
  if_pos (by simp [State.on, hwork, htx])

theorem lpiWake_of_no_work (h : s.hasWork p = false) : lpiWake p s = s := if_neg (by simp [h])

theorem receiveLpi_of_unused (h : s.lpiUse p = false) (on : Bool) : receiveLpi p on s = s := if_pos (by simp [h])

theorem receiveLpi_of_used (h : s.lpiUse p = true) (on : Bool) : receiveLpi p on s =
    if on then s.put F.epStat_LPIRX 1 p
    else if s.on F.epStat_LPIRX p then (s.put F.epStat_LPIRX 0 p).setPort p { s.port p with rxWakeAt := some s.tick } else s :=
  if_neg (by simp [h])

theorem lowPowerIdleFollowsTheWork : Stated.LowPowerIdleFollowsTheWork := by
  refine fun s p hl => ⟨fun huse => ⟨?_, fun on => ?_⟩, fun huse hwork htx hdue => ?_, fun hwork => ?_, fun hwork htx => ?_,
    fun hwork => ?_, fun huse => ⟨?_, fun hrx => ?_⟩⟩
  · exact does_eq_of_linked rfl hl (lpiEnter_of_unused huse)
  · exact does_eq_of_linked rfl hl (receiveLpi_of_unused huse on)
  · exact does_eq_of_linked rfl hl (lpiEnter_of_due huse hwork htx hdue)
  · exact does_eq_of_linked rfl hl (lpiEnter_of_work hwork)
  · exact does_eq_of_linked rfl hl (lpiWake_of_asleep hwork htx)
  · exact does_eq_of_linked rfl hl (lpiWake_of_no_work hwork)
  · exact does_eq_of_linked rfl hl (receiveLpi_of_used huse true)
  · exact does_eq_of_linked rfl hl ((receiveLpi_of_used huse false).trans (if_pos (State.on_eq_true.2 hrx)))

end Sys2Proof.Machine
end

section
/-! The statement of reception and PAUSE: the checks of a received frame, its fragments, and the stop that a PAUSE frame asks for. -/

namespace Sys2Proof.Machine
variable {s t : State} {p : Nat}

/-! ### What a port's interface and its pairs show while other fields change -/

theorem State.put_halter {f : Fld} (h : F.gcLaystat_HALTER.id ≠ f.id) (s : State) (v i j : Nat) : (s.put f v i j).halter = s.halter :=
  State.put_on_ne _ _ _ _ _ _ _ _ h

theorem State.put_epFld {f g : Fld} (hh : F.gcLaystat_HALTER.id ≠ f.id) (hg : g.id ≠ f.id) (s : State) (v i j p : Nat) :
    (s.put f v i j).epFld g p = s.epFld g p := by
  rw [State.epFld, State.put_halter hh, State.put_fld_ne _ _ _ _ _ _ _ _ hg, State.epFld]

theorem State.put_rate {f : Fld} (h : F.epStat_SPEED.id ≠ f.id) (s : State) (v i j p : Nat) : (s.put f v i j).rate p = s.rate p := by
  rw [State.rate, State.put_fld_ne _ _ _ _ _ _ _ _ h, State.rate]

/-- The fields that say which ports the pairs relay for (R206). -/
def pairFlds : List Nat := [F.epIpcfg0_EN.id, F.epIpcfg0_PA.id, F.epIpcfg0_PB.id, F.epIpcfg0_M0.id, F.epIpcfg0_M1.id]

theorem State.relayIn_congr (h : ∀ g : Fld, g.id ∈ pairFlds → ∀ k, t.fld g k = s.fld g k) (p : Nat) :
    t.relayIn p = s.relayIn p := by
  have hon : ∀ g : Fld, g.id ∈ pairFlds → ∀ k, t.on g k = s.on g k := fun g hg k => by rw [State.on, h g hg, State.on]
  have hin : ∀ k d, t.inPassing k d = s.inPassing k d := fun k d => by
    unfold State.inPassing
    rw [hon F.epIpcfg0_EN (by decide), hon _ (by split <;> decide)]
  have hp : ∀ k d, t.ingress k d = s.ingress k d := fun k d => by
    unfold State.ingress
    rw [h F.epIpcfg0_PA (by decide), h F.epIpcfg0_PB (by decide)]
  simp only [State.relayIn, hin, hp]

theorem State.bump_relayIn {f : Fld} (hf : f.id ∉ pairFlds) (s : State) (i j n p : Nat) : (s.bump f i j n).relayIn p = s.relayIn p :=
  State.relayIn_congr (fun _ hg _ => State.bump_fld_ne _ _ _ _ _ _ _ _ fun e => hf (e ▸ hg)) p

/-! ### The checks of a received frame (R190) -/

theorem rxCheck_of_bad_fcs {fr : EthFrame} (h : fr.fcsOk = false) : s.rxCheck p fr = 1 := if_pos (by simp [h])

theorem rxCheck_of_length {fr : EthFrame} (hfcs : fr.fcsOk = true)
    (h : fr.bytes.length + 4 < 64 ∨ s.maxFrm p < fr.bytes.length + 4) : s.rxCheck p fr = 2 := by
  unfold State.rxCheck
  rw [if_neg (by simp [hfcs]), if_pos (by simpa using h)]

theorem rxCheck_of_fitting {fr : EthFrame} (hfcs : fr.fcsOk = true) (hmin : 64 ≤ fr.bytes.length + 4)
    (hmax : fr.bytes.length + 4 ≤ s.maxFrm p) :
    s.rxCheck p fr = if at16 fr.bytes 12 = 0x8808 then (if at16 fr.bytes 14 = 1 then 3 else 4) else 0 := by
  have hfit : ¬ (decide (fr.bytes.length + 4 < 64) || decide (s.maxFrm p < fr.bytes.length + 4)) = true := by
    simp only [Bool.or_eq_true, decide_eq_true_eq]
    omega
  unfold State.rxCheck
  rw [if_neg (by simp [hfcs]), if_neg hfit]

/-- A frame that fails a check, or is a control frame, is counted only. -/
theorem macFrame_of_bad {fr : EthFrame} {ts : Stamp} {wake : Bool} (hbad : s.rxCheck p fr ≠ 0)
    (harr : ((rxCount p fr s).port p).arriving = none) : macFrame p fr ts wake s = rxCount p fr s := by
  simp [macFrame, hbad, harr]

/-- A frame is handed to the yard, which takes it later (R221). -/
def handToYard (p : Nat) (bytes : List Byte) (ts : Stamp) (wake : Bool) (s : State) : State :=
  { s with yard := { s.yard with inbox := s.yard.inbox ++ [{ p := p, bytes := bytes, ts := ts, wake := wake }] } }

@[simp] theorem handToYard_port (p : Nat) (bytes : List Byte) (ts : Stamp) (wake : Bool) (s : State) (q : Nat) :
    (handToYard p bytes ts wake s).port q = s.port q := rfl

@[simp] theorem handToYard_fld (p : Nat) (bytes : List Byte) (ts : Stamp) (wake : Bool) (s : State) (g : Fld) (i j : Nat) :
    (handToYard p bytes ts wake s).fld g i j = s.fld g i j := rfl

@[simp] theorem handToYard_inbox (p : Nat) (bytes : List Byte) (ts : Stamp) (wake : Bool) (s : State) :
    (handToYard p bytes ts wake s).yard.inbox = s.yard.inbox ++ [{ p := p, bytes := bytes, ts := ts, wake := wake }] := rfl

theorem macFrame_of_good {fr : EthFrame} {ts : Stamp} {wake : Bool} (hgood : s.rxCheck p fr = 0) (harr : (s.port p).arriving = none)
    (hrelay : s.relayIn p = false) (htwin : s.fld F.twCfg0_EN = 0) :
    macFrame p fr ts wake s = handToYard p fr.bytes ts wake (s.bump F.epCnt0_RXOK p) := by
  have hcount : rxCount p fr s = s.bump F.epCnt0_RXOK p := by simp only [rxCount, hgood]
  have halone : (s.bump F.epCnt0_RXOK p).on F.twCfg0_EN = false := by
    rw [State.bump_on_ne _ _ _ _ _ _ _ _ (by decide), State.on_eq_false, htwin]
  have hrelay' : (s.bump F.epCnt0_RXOK p).relayIn p = false := (State.bump_relayIn (by decide) ..).trans hrelay
  simp [macFrame, hgood, hcount, halone, harr, hrelay', handToYard]

theorem macReceive_of_down {fr : EthFrame} {ago : Nat} (h : s.fld F.epStat_LINK p = 0) : macReceive p fr ago s = s :=
  if_pos (by simp [State.on, h])

theorem macReceive_of_whole {fr : EthFrame} {ago : Nat} (h : s.fld F.epStat_LINK p ≠ 0) (hfrag : fr.frag = none) :
    macReceive p fr ago s = macFrame p fr (s.rxStamp p ago) (s.rxWake p ago) s := by
  unfold macReceive
  rw [if_neg (by simp [State.on, h]), hfrag]

theorem macReceive_of_fragment {fr : EthFrame} {ago : Nat} {g : Frag} (h : s.fld F.epStat_LINK p ≠ 0) (hfrag : fr.frag = some g) :
    macReceive p fr ago s = if s.epOn F.epCfg0_PREEMPT p then fragmentReceive p fr ago g s else s := by
  unfold macReceive
  rw [if_neg (by simp [State.on, h]), hfrag]

/-! ### Reassembly (R193) -/

theorem partsLost_of_whole (harr : (s.port p).arriving = none) :
    partsLost p s = (s.setPort p { s.port p with parts := none }).bump F.epCnt1_RXFRAG p :=
  if_neg (by simp [harr])

theorem fragmentReceive_of_first {fr : EthFrame} {ago : Nat} {g : Frag} (hfirst : g.first = true) (hlast : g.last = false)
    (hfcs : fr.fcsOk = true) (hparts : (s.port p).parts = none) : fragmentReceive p fr ago g s = s.setPort p { s.port p with
      parts := some { frameCount := g.frameCount, next := 0, bytes := fr.bytes, ts := s.rxStamp p ago, wake := s.rxWake p ago } } := by
  simp [fragmentReceive, hfirst, hlast, hfcs, hparts]

theorem fragmentReceive_of_parts {fr : EthFrame} {ago : Nat} {g : Frag} {x : Parts} (hfirst : g.first = false)
    (hparts : (s.port p).parts = some x) : fragmentReceive p fr ago g s =
      if x.frameCount ≠ g.frameCount || x.next ≠ g.fragCount || (!g.last && !fr.fcsOk) then partsLost p s
      else if g.last then macFrame p { fr with bytes := x.bytes ++ fr.bytes } x.ts x.wake (s.setPort p { s.port p with parts := none })
      else s.setPort p { s.port p with parts := some { x with next := (x.next + 1) % 4, bytes := x.bytes ++ fr.bytes } } := by
  simp only [fragmentReceive, hfirst, hparts, Bool.false_eq_true, if_false]

/-- A frame without FCS error of a length that is taken, and not a control frame. -/
theorem rxCheck_of_good {fr : EthFrame} (hfcs : fr.fcsOk = true) (hmin : 64 ≤ fr.bytes.length + 4)
    (hmax : fr.bytes.length + 4 ≤ s.maxFrm p) (htype : at16 fr.bytes 12 ≠ 0x8808) : s.rxCheck p fr = 0 :=
  (rxCheck_of_fitting hfcs hmin hmax).trans (if_neg htype)

theorem receivedFramesAreCheckedAndCounted : Stated.ReceivedFramesAreCheckedAndCounted := by
  intro s p fr ago hl len
  refine ⟨fun hlink => ?_, fun hlink hfrag harr => ⟨fun hfcs => ?_, fun hfcs hlen => ?_, fun hfcs hmin hmax htype hop => ?_,
    fun hfcs hmin hmax htype hrelay htwin => ?_⟩, fun g hlink hfrag => ⟨fun hpre => ?_, fun hpre hfirst hlast hfcs hparts => ?_,
    fun x hpre hfirst hparts harr => ?_⟩⟩
  · exact does_eq_of_linked rfl hl (macReceive_of_down hlink)
  · have hcheck : s.rxCheck p fr = 1 := rxCheck_of_bad_fcs hfcs
    have hcount : rxCount p fr s = s.bump F.epCnt1_RXFCS p := by simp only [rxCount, hcheck]
    refine does_eq_of_linked rfl hl ((macReceive_of_whole hlink hfrag).trans ?_)
    rw [macFrame_of_bad (by simp [hcheck]) (by rw [hcount]; exact harr), hcount]
  · have hcheck : s.rxCheck p fr = 2 := rxCheck_of_length hfcs hlen
    have hcount : rxCount p fr s = s.bump F.epCnt1_RXLEN p := by simp only [rxCount, hcheck]
    refine does_eq_of_linked rfl hl ((macReceive_of_whole hlink hfrag).trans ?_)
    rw [macFrame_of_bad (by simp [hcheck]) (by rw [hcount]; exact harr), hcount]
  · have hcheck : s.rxCheck p fr = 4 := by rw [rxCheck_of_fitting hfcs hmin hmax, if_pos htype, if_neg hop]
    have hcount : rxCount p fr s = s.bump F.epCnt4_CTLRX p := by simp only [rxCount, hcheck]
    refine does_eq_of_linked rfl hl ((macReceive_of_whole hlink hfrag).trans ?_)
    rw [macFrame_of_bad (by simp [hcheck]) (by rw [hcount]; exact harr), hcount]
  · exact does_eq_of_linked rfl hl ((macReceive_of_whole hlink hfrag).trans
      (macFrame_of_good (rxCheck_of_good hfcs hmin hmax htype) harr hrelay htwin))
  · exact does_eq_of_linked rfl hl ((macReceive_of_fragment hlink hfrag).trans (if_neg (by simp [hpre])))
  · exact does_eq_of_linked rfl hl ((macReceive_of_fragment hlink hfrag).trans
      ((if_pos hpre).trans (fragmentReceive_of_first hfirst hlast hfcs hparts)))
  · have hgo : macReceive p fr ago s = _ :=
      (macReceive_of_fragment hlink hfrag).trans ((if_pos hpre).trans (fragmentReceive_of_parts hfirst hparts))
    refine ⟨fun hseq => ?_, fun hcount hnext hlast hfcs => ?_, fun hcount hnext hlast hfcs hmin hmax htype hrelay htwin => ?_⟩
    · refine does_eq_of_linked rfl hl (hgo.trans ((if_pos ?_).trans (partsLost_of_whole harr)))
      simp only [Bool.or_eq_true, decide_eq_true_eq]
      exact .inl hseq
    · exact does_eq_of_linked rfl hl (hgo.trans (by simp [hcount, hnext, hlast, hfcs]))
    · have hwhole : macReceive p fr ago s = handToYard p (x.bytes ++ fr.bytes) x.ts x.wake
          ((s.setPort p { s.port p with parts := none }).bump F.epCnt0_RXOK p) := by
        rw [hgo, if_neg (by simp [hcount, hnext, hlast]), if_pos hlast]
        exact macFrame_of_good (rxCheck_of_good hfcs (by simpa using hmin) hmax htype) (by simpa using harr) hrelay htwin
      refine does_of_linked rfl hl ?_
      rw [hwhole]
      exact ⟨by simp, by simp, by simp⟩

/-! ### PAUSE (R195) -/

theorem pauseReceive_of_ignored {q : Nat} (h : s.epFld F.epCfg0_PAUSEEN p = 0 ∨ s.fld F.epStat_HDXA p ≠ 0) :
    pauseReceive p q s = s.bump F.epCnt3_PAUSERX p := by
  refine if_pos ?_
  rw [State.epOn, State.bump, State.put_epFld (by decide) (by decide), State.put_on_ne _ _ _ _ _ _ _ _ (by decide)]
  simpa [State.on] using h

theorem State.bump_pauseTicks (s : State) (p q : Nat) : (s.bump F.epCnt3_PAUSERX p).pauseTicks p q = s.pauseTicks p q := by
  rw [State.pauseTicks, State.bump, State.put_rate (by decide), State.pauseTicks]

theorem pauseReceive_of_obeyed {q : Nat} (hen : s.epFld F.epCfg0_PAUSEEN p ≠ 0) (hdx : s.fld F.epStat_HDXA p = 0) :
    pauseReceive p q s =
      if q = 0 then ((s.bump F.epCnt3_PAUSERX p).setPort p { s.port p with pauseWait := none, pauseEnd := none }).put F.epStat_PAUSED 0 p
      else if s.on F.epStat_PAUSED p then
        (s.bump F.epCnt3_PAUSERX p).setPort p { s.port p with pauseEnd := some (s.tick + s.pauseTicks p q) }
      else atBoundary p ((s.bump F.epCnt3_PAUSERX p).setPort p { s.port p with pauseWait := some (s.pauseTicks p q) }) := by
  have hgo : ¬ (!(s.bump F.epCnt3_PAUSERX p).epOn F.epCfg0_PAUSEEN p || (s.bump F.epCnt3_PAUSERX p).on F.epStat_HDXA p) = true := by
    rw [State.epOn, State.bump, State.put_epFld (by decide) (by decide), State.put_on_ne _ _ _ _ _ _ _ _ (by decide)]
    simp [State.on, hen, hdx]
  unfold pauseReceive
  rw [if_neg hgo, State.bump_pauseTicks, State.bump_on_ne _ _ _ _ _ _ _ _ (by decide)]
  rfl

theorem atBoundary_of_idle {d : Nat} (hwait : (s.port p).pauseWait = some d) (htx : (s.port p).tx = none) (hheld : (s.port p).held = none) :
    atBoundary p s = (s.setPort p { s.port p with pauseWait := none, pauseEnd := some (s.tick + d) }).put F.epStat_PAUSED 1 p := by
  simp [atBoundary, hwait, htx, hheld]

theorem atBoundary_of_busy (htx : (s.port p).tx ≠ none) : atBoundary p s = s := by
  unfold atBoundary
  dsimp only
  split
  · exact if_neg (by simp [htx])
  · rfl

theorem pauseExpire_of_due {x : Nat} (h : (s.port p).pauseEnd = some x) (hx : x ≤ s.tick) :
    pauseExpire p s = (s.setPort p { s.port p with pauseEnd := none }).put F.epStat_PAUSED 0 p := by
  simp only [pauseExpire, h, passTo_of_past hx]

theorem pauseStopsTransmission : Stated.PauseStopsTransmission := by
  refine fun s p hl => ⟨fun q hlink => ?_, fun x hx hdue => does_eq_of_linked rfl hl (pauseExpire_of_due hx hdue)⟩
  have hup : (if s.on F.epStat_LINK p then pauseReceive p q s else s) = pauseReceive p q s := if_pos (State.on_eq_true.2 hlink)
  refine ⟨fun h => does_eq_of_linked rfl hl (hup.trans (pauseReceive_of_ignored h)), fun hen hdx => ?_⟩
  have hgo := hup.trans (pauseReceive_of_obeyed hen hdx)
  refine ⟨fun hq => ?_, fun hq hpaused => ?_, fun hq hpaused htx hheld => ?_, fun hq hpaused htx => ?_⟩
  · exact does_eq_of_linked rfl hl (hgo.trans (if_pos hq))
  · exact does_eq_of_linked rfl hl (hgo.trans ((if_neg hq).trans (if_pos (State.on_eq_true.2 hpaused))))
  · refine does_of_linked rfl hl ?_
    rw [hgo, if_neg hq, if_neg (by simp [State.on, hpaused]),
      atBoundary_of_idle (d := s.pauseTicks p q) (by simp) (by simpa using htx) (by simpa using hheld)]
    exact ⟨by simp [F.epStat_PAUSED], by simp [State.pauseTicks], by simp, by simp⟩
  · refine does_of_linked rfl hl ?_
    rw [hgo, if_neg hq, if_neg (by simp [State.on, hpaused]), atBoundary_of_busy (by simpa using htx)]
    refine ⟨?_, by simp [State.pauseTicks], by simp, by simp, by simp⟩
    rw [State.notify_fld_get, State.setPort_fld_get, State.bump_fld_ne _ _ _ _ _ _ _ _ (by decide), hpaused]

/-- Settles O36: the checks of a frame in their order, reassembly fragment by fragment, and the stop of a PAUSE frame. -/
theorem receivedFramesAreCheckedAndPausesObeyed : Obligations.ReceivedFramesAreCheckedAndPausesObeyed :=
  ⟨receivedFramesAreCheckedAndCounted, pauseStopsTransmission⟩

end Sys2Proof.Machine
end

section
/-! What the ports' services leave of a port: the memories that are read, the log, the Ostler's leave, a stable's wake and the rings of the
pairs change nothing of the ports, of the yard, of what has left the part, and of the fields that say how a port runs (`_line`). -/

namespace Sys2Proof.Machine

/-! ### The ports' part of a state -/

/-- The fields that say how a port runs, which ports a pair relays for, and what a dead link has lost. -/
def lineFlds : List Nat := [F.gcLaystat_HALTER.id, F.ckCfg0_LANEEN.id, F.epCfg0_IF.id, F.epCfg0_HDX.id, F.epCfg0_PREEMPT.id,
  F.epCfg0_ADV.id, F.epStat_LINK.id, F.epCnt2_TXLDN.id, F.epIpcfg0_PA.id, F.epIpcfg0_PB.id]

/-- The ports, the yard, what has left the part, and those fields of a register table. -/
def lineOf (act : Tab Nat) (ports : Tab PortS) (yard : YardS) (out : List Out) :
    Tab PortS × YardS × List Out × (Fld → Nat → Nat → Option Nat) :=
  (ports, yard, out, fun f i j => if f.id ∈ lineFlds then some (Tab.get f.reset act (f.key i j)) else none)

/-- The ports' part of a state. -/
def State.line (s : State) : Tab PortS × YardS × List Out × (Fld → Nat → Nat → Option Nat) := lineOf s.act s.ports s.yard s.out

section
variable {s t : State}

theorem ports_of_line (h : t.line = s.line) : t.ports = s.ports := congrArg (·.1) h

theorem yard_of_line (h : t.line = s.line) : t.yard = s.yard := congrArg (·.2.1) h

theorem out_of_line (h : t.line = s.line) : t.out = s.out := congrArg (·.2.2.1) h

theorem port_of_line (h : t.line = s.line) (p : Nat) : t.port p = s.port p := by rw [State.port, ports_of_line h, State.port]

theorem fld_of_line (h : t.line = s.line) {f : Fld} (hf : f.id ∈ lineFlds) (i j : Nat) : t.fld f i j = s.fld f i j := by
  simp only [State.line, lineOf, Prod.mk.injEq] at h
  obtain ⟨-, -, -, hfld⟩ := h
  simpa [hf, State.fld] using congrFun (congrFun (congrFun hfld f) i) j

end

/-- A state written whole. -/
@[simp] theorem line_mk (pending : List Instr) (tick tkBase period fresh lost : Nat)
    (act shd cap lay steppedAt refs flagAt : Tab Nat) (heldGo : List Block) (loft code priv mg stage : Mem) (scrub : List SramWord)
    (flash : Tab (BitVec 64)) (eng : Tab Eng) (stb : Tab Stb) (fns : Tab FnS) (pairs : Tab PairS) (ic : Tab IcS) (rgn : Tab RgnS)
    (lastInst seenInst : Option Nat) (jumpDue : Bool) (ports : Tab PortS) (dirs : Tab DirS) (yard : YardS) (tc : Tab TCnt)
    (steps : Tab (Option (Nat × Bool × TCnt × Int))) (sv : Tab SvS) (pg : Tab PgS) (pd : PdS) (can : Tab CanS) (pm : Tab PmS)
    (pins : Tab PinS) (pinPast : Tab (List (Nat × Bool × Bool))) (tw : TwS) (pw : PwS) (boot : BootS) (host : HostS)
    (out : List Out) :
    (State.mk pending tick tkBase period fresh act shd cap lay heldGo loft code priv mg stage scrub lost flash eng stb fns pairs ic
      rgn lastInst seenInst jumpDue ports dirs yard tc steps steppedAt sv refs pg pd can pm pins pinPast flagAt tw pw boot host
      out).line = lineOf act ports yard out := (rfl)

@[simp] theorem lineOf_fields (s : State) : lineOf s.act s.ports s.yard s.out = s.line := (rfl)

@[simp] theorem line_ite (c : Prop) [Decidable c] (s t : State) : (if c then s else t).line = if c then s.line else t.line := apply_ite ..

@[simp] theorem foldl_line {α : Type} {f : State → α → State} (hf : ∀ s x, (f s x).line = s.line) (l : List α) (s : State) :
    (l.foldl f s).line = s.line := by
  induction l generalizing s with
  | nil => rfl
  | cons x l ih => rw [List.foldl_cons, ih, hf]

/-! ### Writes of fields and tables -/

/-- Other fields are no part of it. -/
@[simp] theorem lineOf_put {f : Fld} (hf : f.id ∉ lineFlds) (s : State) (v i j : Nat) (ports : Tab PortS) (yard : YardS)
    (out : List Out) : lineOf (s.put f v i j).act ports yard out = lineOf s.act ports yard out := by
  unfold lineOf
  refine congrArg (fun x => (ports, yard, out, x)) (funext fun g => funext fun a => funext fun b => ?_)
  by_cases hg : g.id ∈ lineFlds
  · rw [if_pos hg, if_pos hg]
    exact congrArg some (State.put_fld_ne _ _ _ _ _ _ _ _ fun h => hf (h ▸ hg))
  · rw [if_neg hg, if_neg hg]

@[simp] theorem lineOf_bump {f : Fld} (hf : f.id ∉ lineFlds) (s : State) (i j n : Nat) (ports : Tab PortS) (yard : YardS)
    (out : List Out) : lineOf (s.bump f i j n).act ports yard out = lineOf s.act ports yard out := lineOf_put hf ..

@[simp] theorem State.put_line {f : Fld} (hf : f.id ∉ lineFlds) (s : State) (v i j : Nat) : (s.put f v i j).line = s.line :=
  lineOf_put hf ..

@[simp] theorem State.bump_line {f : Fld} (hf : f.id ∉ lineFlds) (s : State) (i j n : Nat) : (s.bump f i j n).line = s.line :=
  lineOf_put hf ..

@[simp] theorem State.setE_line (s : State) (n : Nat) (x : Eng) : (s.setE n x).line = s.line := (rfl)
@[simp] theorem State.setSt_line (s : State) (n : Nat) (x : Stb) : (s.setSt n x).line = s.line := (rfl)
@[simp] theorem State.setDir_line (s : State) (k d : Nat) (x : DirS) : (s.setDir k d x).line = s.line := (rfl)
@[simp] theorem State.setFlash_line (s : State) (k : Nat) (v : BitVec 64) : (s.setFlash k v).line = s.line := (rfl)
@[simp] theorem eraseSector_line (n : Nat) (s : State) : (eraseSector n s).line = s.line := (rfl)

/-! ### The log, and what a read of a memory counts (R144, R352) -/

@[simp] theorem writeRecord_line (w : Word) (ws : List Nat) (s : State) : (writeRecord w ws s).line = s.line := by simp [writeRecord]

@[simp] theorem logRecord_line (typ : Nat) (ws : List Nat) (s : State) : (logRecord typ ws s).line = s.line := by
  simp +decide [logRecord]

@[simp] theorem memLog_line (n wh eng a : Nat) (syn : BitVec 8) (s : State) : (memLog n wh eng a syn s).line = s.line := by
  simp +decide [memLog]

@[simp] theorem countCE_line (a : SramWord) (s : State) : (countCE a s).line = s.line := by
  unfold countCE
  split
  · simp +decide
  · split <;> simp +decide

@[simp] theorem countUE_line (a : SramWord) (y : BitVec 8) (s : State) : (countUE a y s).line = s.line := by
  unfold countUE mbLoss
  split
  · simp +decide
  · split <;> simp +decide

@[simp] theorem countPW_line (a : SramWord) (s : State) : (countPW a s).line = s.line := by
  unfold countPW
  split
  · simp +decide
  · split <;> simp +decide

@[simp] theorem memRead_line (a : SramWord) (s : State) : (memRead a s).2.line = s.line := by
  unfold memRead
  split <;> simp

/-- A word of a memory stands apart from the yard's cells. -/
theorem memWrite_line {a : SramWord} (ha : inMemory a = true) (w : Word) (s : State) : (memWrite a w s).line = s.line := by
  cases a with
  | mbq => cases ha
  | cell => cases ha
  | _ => rfl

theorem memUpdate_line {a : SramWord} (ha : inMemory a = true) (f : Word → Word) (s : State) : (memUpdate a f s).2.line = s.line := by
  have hread := memRead_line a s
  unfold memUpdate
  split
  all_goals
    next h =>
      rw [h] at hread
      simpa [memWrite_line ha] using hread

/-! ### The Ostler's leave, and a stable's wake (R126, R336) -/

@[simp] theorem noteOverq_line (f : Nat) (old new : State) : (noteOverq f old new).line = new.line := by
  rcases noteOverq_cases f old new with h | h <;> rw [h]
  exact State.put_line (by decide) ..

@[simp] theorem setIrq_line (e n : Nat) (s : State) : (setIrq e n s).line = s.line := State.put_line (by decide) ..

@[simp] theorem grantEffect_line (u : OUse) (s : State) : (grantEffect u s).line = s.line := by
  unfold grantEffect
  split
  · simp +decide
  · split <;> simp +decide
  · simp [↓line_mk]
  · rfl

@[simp] theorem deferEffect_line (u : OUse) (s : State) : (deferEffect u s).line = s.line := by
  unfold deferEffect
  split
  case h_3 => split <;> simp +decide
  all_goals simp +decide

@[simp] theorem grant_line (r : OReq) (s : State) : (grant r s).line = s.line := by simp +decide [grant]

@[simp] theorem hwRequest_line (u : OUse) (s : State) : (hwRequest u s).line = s.line := by
  simp +decide [hwRequest, ostlerRequest]

@[simp] theorem returnUse_line (u : OUse → Bool) (s : State) : (returnUse u s).line = s.line := (rfl)

@[simp] theorem trainLeave_line (p : Nat) (s : State) : (trainLeave p s).2.line = s.line := by simp [trainLeave]

@[simp] theorem wakeStable_line (n : Nat) (s : State) : (wakeStable n s).line = s.line := by simp [wakeStable, askWake]

@[simp] theorem inpassEvent_line (k j : Nat) (s : State) : (inpassEvent k j s).line = s.line := by simp [inpassEvent, setEv]

/-! ### The rings of the pairs (R212, R214) -/

@[simp] theorem onDesc_line (k d : Nat) (x : RFrame) (g : Nat) (f : Nat → Nat) (s : State) : (onDesc k d x g f s).line = s.line := by
  unfold onDesc
  split
  · rfl
  · exact (line_ite ..).trans (by rw [memUpdate_line (by rfl), ite_self])

@[simp] theorem arriveWord_line (k d : Nat) (x : RFrame) (i : Nat) (s : State) : (arriveWord k d x i s).line = s.line := by
  rw [arriveWord, onDesc_line, memWrite_line (by rfl)]

@[simp] theorem settleDir_line (k d : Nat) (s : State) : (settleDir k d s).line = s.line := by
  refine foldl_line (fun s n => ?_) _ s
  split
  · rfl
  · simp

end Sys2Proof.Machine
end

section
/-! The statement of transmission: the entry that a port sends next, the end of its frame, and collisions in half duplex. -/

namespace Sys2Proof.Machine

/-! ### The entry that is sent next (R232, R236) -/

/-- In descending order, the first number that `P` admits and that has a value is the greatest such. -/
theorem findSome?_filter_reverse_range {α : Type} (P : Nat → Bool) (g : Nat → Option α) (n : Nat) (b : α) :
    ((List.range n).reverse.filter P).findSome? g = some b ↔
      ∃ c < n, P c = true ∧ g c = some b ∧ ∀ d, c < d → d < n → P d = true → g d = none := by
  induction n with
  | zero => simp
  | succ n ih =>
    rw [List.range_succ, List.reverse_append, List.reverse_singleton, List.singleton_append, List.filter_cons]
    by_cases hn : P n = true ∧ g n ≠ none
    · obtain ⟨hP, hg⟩ := hn
      obtain ⟨a, ha⟩ := Option.ne_none_iff_exists'.1 hg
      rw [if_pos hP, List.findSome?_cons, ha]
      refine ⟨fun h => ⟨n, n.lt_succ_self, hP, ha.trans h, fun d hd hd' => absurd hd' (by omega)⟩, ?_⟩
      rintro ⟨c, hc, -, hb, hlast⟩
      obtain rfl : c = n := by
        by_contra hne
        exact hg (hlast n (by omega) n.lt_succ_self hP)
      exact ha.symm.trans hb
    · have hskip : (if P n = true then n :: (List.range n).reverse.filter P else (List.range n).reverse.filter P).findSome? g
          = ((List.range n).reverse.filter P).findSome? g := by
        split
        · next hP => rw [List.findSome?_cons, not_ne_iff.1 fun hg => hn ⟨hP, hg⟩]
        · rfl
      rw [hskip, ih]
      constructor
      · rintro ⟨c, hc, hP, hb, hlast⟩
        refine ⟨c, by omega, hP, hb, fun d hd hd' hPd => ?_⟩
        rcases Nat.lt_succ_iff_lt_or_eq.1 hd' with hlt | rfl
        · exact hlast d hd hlt hPd
        · exact not_ne_iff.1 fun hg => hn ⟨hPd, hg⟩
      · rintro ⟨c, hc, hP, hb, hlast⟩
        rcases Nat.lt_succ_iff_lt_or_eq.1 hc with hlt | rfl
        · exact ⟨c, hlt, hP, hb, fun d hd hd' => hlast d hd (by omega)⟩
        · exact absurd ⟨hP, by simp [hb]⟩ hn

variable {s : State} {p : Nat}

/-- The frame of an entry of class `c` has arrived far enough, and fits the gate list where it is gated (R196, R236). -/
def State.fitsNow (s : State) (p n : Nat) (q : QEnt) (c : Nat) (gated : Bool) : Bool :=
  match s.frame q.id with
  | some x => s.buffered p x n && (!gated || s.gateFits p c (s.egressLen p x))
  | none => false

/-- A preempted frame, or a hold, keeps class `c` from starting (R194, R235). -/
def State.keptBack (s : State) (p c : Nat) : Bool := s.preemptable p c && ((s.port p).held.isSome || (s.gateS p).hold)

/-- The head of a queue, where it may start. -/
def State.headReady (s : State) (p n c : Nat) : Option (Nat × QEnt × Bool) :=
  match (s.queue p c).head? with
  | some q => if s.fitsNow p n q c true then some (c, q, false) else none
  | none => none

/-- The head of queue `c` may start, as the statement says it. -/
def State.mayStart (s : State) (p n c : Nat) (q : QEnt) : Prop :=
  ∃ f, s.frame q.id = some f ∧ s.buffered p f n = true ∧ s.gateFits p c (s.egressLen p f) = true
    ∧ ¬(s.preemptable p c = true ∧ ((s.port p).held ≠ none ∨ (s.gateS p).hold = true))

theorem keptBack_eq_true {c : Nat} :
    s.keptBack p c = true ↔ s.preemptable p c = true ∧ ((s.port p).held ≠ none ∨ (s.gateS p).hold = true) := by
  simp [State.keptBack, Option.isSome_iff_ne_none]

theorem mayStart_iff {n c : Nat} {q : QEnt} : s.mayStart p n c q ↔ s.keptBack p c = false ∧ s.fitsNow p n q c true = true := by
  unfold State.mayStart State.fitsNow
  rw [← keptBack_eq_true]
  cases s.frame q.id <;> simp [and_comm, and_assoc]

theorem headReady_eq_some {n c c' : Nat} {q : QEnt} {l : Bool} : s.headReady p n c = some (c', q, l) ↔
    c = c' ∧ l = false ∧ (s.queue p c).head? = some q ∧ s.fitsNow p n q c true = true := by
  unfold State.headReady
  cases (s.queue p c).head? with
  | none => simp
  | some q' =>
    dsimp only
    split
    · next h =>
      simp only [Option.some.injEq, Prod.mk.injEq]
      constructor
      · rintro ⟨rfl, rfl, rfl⟩
        exact ⟨rfl, rfl, rfl, h⟩
      · rintro ⟨rfl, rfl, rfl, -⟩
        exact ⟨rfl, rfl, rfl⟩
    · next h =>
      simp only [reduceCtorEq, Option.some.injEq, false_iff]
      rintro ⟨-, -, rfl, h'⟩
      exact h h'

theorem headReady_eq_none {n c : Nat} : s.headReady p n c = none ↔
    ∀ q, (s.queue p c).head? = some q → s.fitsNow p n q c true = false := by
  unfold State.headReady
  cases (s.queue p c).head? <;> simp

theorem pick_of_no_launch {n : Nat} (h : Tab.get 0 s.yard.due p = 0) :
    s.pick p n = ((List.range 8).reverse.filter fun c => !s.keptBack p c).findSome? (s.headReady p n) :=
  if_neg (not_not_intro h)

/-- Without a due launch frame: the head of the highest class whose head may start. -/
theorem pick_queue_iff {n c : Nat} {q : QEnt} (h : Tab.get 0 s.yard.due p = 0) : s.pick p n = some (c, q, false) ↔
    c < 8 ∧ (s.queue p c).head? = some q ∧ s.mayStart p n c q
      ∧ ∀ c' q', c < c' → c' < 8 → (s.queue p c').head? = some q' → ¬s.mayStart p n c' q' := by
  rw [pick_of_no_launch h, findSome?_filter_reverse_range]
  simp only [mayStart_iff, headReady_eq_some, headReady_eq_none, Bool.not_eq_true', not_and, Bool.not_eq_true, true_and]
  constructor
  · rintro ⟨_, hc, hfree, ⟨rfl, hhead, hfits⟩, hlast⟩
    exact ⟨hc, hhead, ⟨hfree, hfits⟩, fun c' q' hlt hc' hq' hfree' => hlast c' hlt hc' hfree' q' hq'⟩
  · rintro ⟨hc, hhead, ⟨hfree, hfits⟩, hlast⟩
    exact ⟨c, hc, hfree, ⟨rfl, hhead, hfits⟩, fun c' hlt hc' hfree' q' hq' => hlast c' q' hlt hc' hq' hfree'⟩

/-- A due launch frame goes first. -/
theorem pick_launch_iff {n c : Nat} {q : QEnt} (h : Tab.get 0 s.yard.due p ≠ 0) : s.pick p n = some (c, q, true) ↔
    (s.launchQ p).head? = some q ∧ ∃ f, s.frame q.id = some f ∧ f.cls = c ∧ s.buffered p f n = true
      ∧ ¬((s.port p).held ≠ none ∧ s.preemptable p c = true) := by
  unfold State.pick
  dsimp only
  rw [if_pos h]
  cases (s.launchQ p).head? with
  | none => simp
  | some q' =>
    rcases Option.eq_none_or_eq_some (s.frame q'.id) with hf | ⟨f, hf⟩
    · simp only [hf, reduceCtorEq, Option.some.injEq, false_iff]
      rintro ⟨rfl, f, hf', -⟩
      simp [hf] at hf'
    · simp only [hf, Bool.not_false, Bool.true_or, Bool.and_true, Option.ite_none_right_eq_some, Option.some.injEq, Prod.mk.injEq,
        and_true, Bool.and_eq_true, Bool.not_eq_true', Bool.and_eq_false_imp, Option.isSome_iff_ne_none, not_and, Bool.not_eq_true]
      constructor
      · rintro ⟨⟨hbuf, hkept⟩, rfl, rfl⟩
        exact ⟨rfl, f, hf, rfl, hbuf, hkept⟩
      · rintro ⟨rfl, f', hf', rfl, hbuf, hkept⟩
        obtain rfl : f = f' := Option.some.inj (hf.symm.trans hf')
        exact ⟨⟨hbuf, hkept⟩, rfl, rfl⟩

/-! ### A frame starts (R194, R196, R232) -/

/-- The entry leaves its queue. -/
def leaveQueue (p c : Nat) (launch : Bool) (s : State) : State :=
  if launch then
    { s.setLaunch p ((s.launchQ p).drop 1) with
      yard := { (s.setLaunch p ((s.launchQ p).drop 1)).yard with due := Tab.set 0 s.yard.due p 0 } }
  else s.setQueue p c ((s.queue p c).drop 1)

/-- The entry starts on the wire. -/
def startSending (p c : Nat) (q : QEnt) (launch : Bool) (s : State) : State :=
  s.setPort p { s.port p with
    attempts := 0
    tx := some { id := q.id, cls := c, pre := s.preemptable p c, mark := q.mark
                 t0 := if launch then s.timeAt (s.epFld F.epCfg0_TSDOM p) 0 else s.sfdTime p, sent := 0, wake := s.txWake p } }

theorem txStart_of_down {n : Nat} (h : s.fld F.epStat_LINK p = 0) : txStart p n s = s := by
  simp [txStart, State.on, h]

theorem txStart_of_stopped {n : Nat} (hlink : s.fld F.epStat_LINK p ≠ 0) (hfit : dropUnfit p s = s)
    (h : (s.port p).tx ≠ none ∨ s.fld F.epStat_PAUSED p ≠ 0 ∨ s.fld F.epStat_LPITX p ≠ 0 ∨ (s.port p).backoff ≠ none) :
    txStart p n s = s := by
  unfold txStart
  simp only [State.on_eq_true.2 hlink, if_true, hfit]
  refine if_pos ?_
  simpa [State.on, Option.isSome_iff_ne_none, or_assoc] using h

theorem txStart_of_pick {n c : Nat} {q : QEnt} {launch : Bool} (hlink : s.fld F.epStat_LINK p ≠ 0) (hfit : dropUnfit p s = s)
    (htx : (s.port p).tx = none) (hpaused : s.fld F.epStat_PAUSED p = 0) (hlpi : s.fld F.epStat_LPITX p = 0)
    (hback : (s.port p).backoff = none) (hwait : (s.port p).pauseWait = none) (hpick : s.pick p n = some (c, q, launch)) :
    txStart p n s = startSending p c q launch (leaveQueue p c launch s) := by
  unfold txStart
  simp only [State.on_eq_true.2 hlink, if_true, hfit]
  rw [if_neg (by simp [State.on, htx, hpaused, hlpi, hback])]
  simp only [hwait, Option.isSome_none, Bool.false_eq_true, if_false, hpick]
  rfl

theorem startSending_tx (p c : Nat) (q : QEnt) (launch : Bool) (s : State) :
    ((startSending p c q launch s).port p).tx.map (fun x => (x.id, x.cls, x.mark)) = some (q.id, c, q.mark) := by
  rw [startSending, State.setPort_port, Option.map_some]

/-- Queues are the yard's. -/
theorem queue_of_yard {s t : State} (h : t.yard = s.yard) (p c : Nat) : t.queue p c = s.queue p c := by rw [State.queue, h, State.queue]

theorem launchQ_of_yard {s t : State} (h : t.yard = s.yard) (p : Nat) : t.launchQ p = s.launchQ p := by
  rw [State.launchQ, h, State.launchQ]

theorem frame_of_yard {s t : State} (h : t.yard = s.yard) (id : Nat) : t.frame id = s.frame id := by rw [State.frame, h, State.frame]

theorem startSending_frame (p c : Nat) (q : QEnt) (launch : Bool) (s : State) : (startSending p c q launch s).yard = s.yard
    ∧ (startSending p c q launch s).act = s.act ∧ (startSending p c q launch s).eng = s.eng := by
  unfold startSending
  simp

theorem leaveQueue_frame (p c : Nat) (launch : Bool) (s : State) :
    (leaveQueue p c launch s).act = s.act ∧ (leaveQueue p c launch s).eng = s.eng := by
  cases launch <;> exact ⟨rfl, rfl⟩

theorem queue_setQueue_same (s : State) (p c : Nat) (q : List QEnt) : (s.setQueue p c q).queue p c = q := Tab.get_set_same ..

theorem queue_setQueue_ne {p c p' c' : Nat} (h : 8 * p' + c' ≠ 8 * p + c) (s : State) (q : List QEnt) :
    (s.setQueue p c q).queue p' c' = s.queue p' c' := Tab.get_set_ne _ _ _ _ _ _ h

theorem launchQ_setLaunch (s : State) (p : Nat) (q : List QEnt) : (s.setLaunch p q).launchQ p = q := Tab.get_set_same ..

theorem leaveQueue_launchQ (p c : Nat) (s : State) : (leaveQueue p c true s).launchQ p = (s.launchQ p).drop 1 := Tab.get_set_same ..

/-- What stands once an entry has left its queue and started. -/
theorem txStart_notified {n c : Nat} {q : QEnt} {launch : Bool} {old : State}
    (h : txStart p n s = startSending p c q launch (leaveQueue p c launch s)) :
    ((notify old (txStart p n s)).port p).tx.map (fun x => (x.id, x.cls, x.mark)) = some (q.id, c, q.mark)
      ∧ (notify old (txStart p n s)).yard = (leaveQueue p c launch s).yard
      ∧ (notify old (txStart p n s)).act = s.act ∧ (notify old (txStart p n s)).eng = s.eng := by
  obtain ⟨hyard, hact, heng⟩ := startSending_frame p c q launch (leaveQueue p c launch s)
  obtain ⟨hact', heng'⟩ := leaveQueue_frame p c launch s
  rw [h, State.notify_port_get, State.notify_yard, State.notify_act, State.notify_eng]
  exact ⟨startSending_tx .., hyard, hact.trans hact', heng.trans heng'⟩

/-! ### A copy ends, and the port is idle (R197, R198, R224) -/

/-- The end of a copy changes the frames and the free cells alone. -/
theorem copyDone_eq (id : Nat) (how : CopyEnd) (s : State) :
    ∃ act frames, copyDone id how s = { s with act := act, yard := { s.yard with frames := frames } } := by
  unfold copyDone
  split
  · exact ⟨s.act, s.yard.frames, rfl⟩
  · dsimp only
    split_ifs <;> exact ⟨_, _, rfl⟩

theorem copyDone_fld {g : Fld} (hg : g.id ≠ F.ydStat_FREE.id) (id : Nat) (how : CopyEnd) (s : State) (i j : Nat) :
    (copyDone id how s).fld g i j = s.fld g i j := by
  have hfree : ∀ n, (freeCells n s).fld g i j = s.fld g i j := fun _ => State.put_fld_ne _ _ _ _ _ _ _ _ hg
  unfold copyDone
  split
  · rfl
  · dsimp only
    split_ifs
    · rfl
    · exact hfree _
    · exact hfree _

theorem copyDone_port (id : Nat) (how : CopyEnd) (s : State) (q : Nat) : (copyDone id how s).port q = s.port q := by
  obtain ⟨act, frames, h⟩ := copyDone_eq id how s
  rw [h]
  rfl

theorem frame_setFrame (s : State) (id : Nat) (f : Option YFrame) : (s.setFrame id f).frame id = f := Tab.get_set_same ..

/-- A copy that is sent while others are left. -/
theorem copyDone_of_shared {id : Nat} {f : YFrame} (hf : s.frame id = some f) (hleft : 2 ≤ f.left) :
    copyDone id .sent s = s.setFrame id (some { f with left := f.left - 1, sent := true }) := by
  have hpushed : (CopyEnd.sent == .pushed) = false := rfl
  have hgone : (CopyEnd.sent == .gone) = false := rfl
  have hmore : f.left - 1 ≠ 0 := by omega
  simp [copyDone, hf, hpushed, hgone, hmore]

/-- At a frame boundary a stop that waits begins, or nothing does. -/
theorem atBoundary_cases (p : Nat) (s : State) : atBoundary p s = s
    ∨ ∃ d, atBoundary p s = (s.setPort p { s.port p with pauseWait := none, pauseEnd := some d }).put F.epStat_PAUSED 1 p := by
  unfold atBoundary
  dsimp only
  split
  · split_ifs
    · exact .inr ⟨_, rfl⟩
    · exact .inl rfl
  · exact .inl rfl

/-- The port with nothing to send. -/
def toIdle (p : Nat) (s : State) : State :=
  s.setPort p { s.port p with tx := none, attempts := 0, backoff := none, idleFrom := s.tick }

theorem txIdle_cases (p : Nat) (s : State) : txIdle p s = toIdle p s
    ∨ ∃ d, txIdle p s
        = ((toIdle p s).setPort p { (toIdle p s).port p with pauseWait := none, pauseEnd := some d }).put F.epStat_PAUSED 1 p :=
  atBoundary_cases p (toIdle p s)

theorem txIdle_port (p : Nat) (s : State) : ((txIdle p s).port p).tx = none ∧ ((txIdle p s).port p).attempts = 0 := by
  rcases txIdle_cases p s with h | ⟨d, h⟩
  all_goals
    rw [h]
    simp [toIdle]

theorem txIdle_frame (p : Nat) (s : State) :
    (txIdle p s).yard = s.yard ∧ (txIdle p s).out = s.out ∧ (txIdle p s).eng = s.eng ∧ (txIdle p s).loft = s.loft := by
  rcases txIdle_cases p s with h | ⟨d, h⟩
  all_goals
    rw [h]
    simp [toIdle]

theorem txIdle_fld {g : Fld} (hg : g.id ≠ F.epStat_PAUSED.id) (p : Nat) (s : State) (i j : Nat) :
    (txIdle p s).fld g i j = s.fld g i j := by
  rcases txIdle_cases p s with h | ⟨d, h⟩
  all_goals
    rw [h]
    simp [toIdle, State.put_fld_ne _ _ _ _ _ _ _ _ hg]

/-! ### A frame leaves the port (R197, R201) -/

theorem LogKeeps.of_boot {s : State} {b : BootS} (hd : b.delta = s.boot.delta) (hb : b.deltaBlocks = s.boot.deltaBlocks) (t : TwS) :
    LogKeeps s { s with boot := b, tw := t } := ⟨rfl, rfl, hd, hb, fun _ _ _ _ => rfl⟩

/-- A yard's cell has no counter of its own: an uncorrectable one is logged (R144, R352). -/
theorem memRead_cell_keeps (id l : Nat) (s : State) : LogKeeps s (memRead (.cell id l) s).2 := by
  have hce : countCE (.cell id l) s = { s with boot := { s.boot with telCe := s.boot.telCe + 1 }, tw := s.tw } := rfl
  have hue : ∀ y, countUE (.cell id l) y s = logRecord 5 [] { s with
      boot := { s.boot with telUe := s.boot.telUe + 1 }
      tw := { s.tw with ueSeen := s.tw.ueSeen || s.outWord (.cell id l) } } := fun _ => rfl
  unfold memRead
  split
  · exact .refl s
  · exact hce ▸ .of_boot (by rfl) (by rfl) _
  · exact hue _ ▸ .trans (.of_boot (by rfl) (by rfl) _) (.logRecord ..)

theorem readCells_keeps (id : Nat) (x : YFrame) (s : State) : LogKeeps s (readCells id x s) := by
  unfold readCells
  induction x.lanes generalizing s with
  | nil => exact .refl s
  | cons e l ih => exact (memRead_cell_keeps id e.1 s).trans (ih _)

theorem readCells_line (id : Nat) (x : YFrame) (s : State) : (readCells id x s).line = s.line :=
  foldl_line (fun _ _ => memRead_line ..) _ s

/-- The fields that the end of a transmission writes past its own counts. -/
def outFlds : List Nat := F.epStat_PAUSED.id :: logFlds

/-- A frame has left port `p` with these bytes, and its copy is done. -/
structure Leaves (p id : Nat) (bytes : List Byte) (good : Bool) (f : YFrame) (s t : State) : Prop where
  out : t.out = s.out ++ [.frame p bytes good]
  tx : (t.port p).tx = none
  frame : t.frame id = some { f with left := f.left - 1, sent := true }
  fld : ∀ g : Fld, g.id ∉ outFlds → ∀ i j, t.fld g i j = s.fld g i j
  eng : t.eng = s.eng
  loft : t.loft = s.loft

theorem txOut_leaves {x : TxSt} {f : YFrame} (hf : s.frame x.id = some f) (htsr : f.tsr = false) (hleft : 2 ≤ f.left) (p : Nat)
    (bytes : List Byte) (good err : Bool) (sub : Nat) : Leaves p x.id bytes good f s (txOut p x bytes good err sub s) := by
  have hout : txOut p x bytes good err sub s = copyDone x.id .sent (txIdle p ((readCells x.id f s).emit (.frame p bytes good))) := by
    unfold txOut
    rw [hf]
    simp [htsr]
  obtain ⟨-, heng, -, -, hfld⟩ := readCells_keeps x.id f s
  have hline := readCells_line x.id f s
  have hloft : (readCells x.id f s).loft = s.loft := congrArg (·.1) (readCells_mems x.id f s)
  generalize readCells x.id f s = r at *
  obtain ⟨hyard, hsent, heng', hloft'⟩ := txIdle_frame p (r.emit (.frame p bytes good))
  have hframe : (txIdle p (r.emit (.frame p bytes good))).frame x.id = some f := by
    rw [State.frame, hyard, ← hf, State.frame, ← yard_of_line hline]
    rfl
  have hdone := hout.trans (copyDone_of_shared hframe hleft)
  rw [hdone]
  refine ⟨hsent.trans ?_, (txIdle_port p _).1, frame_setFrame .., fun g hg i j => ?_, heng'.trans heng, hloft'.trans hloft⟩
  · rw [← out_of_line hline]
    rfl
  · refine (txIdle_fld (fun h => hg (h ▸ List.mem_cons_self)) ..).trans ?_
    exact hfld g (fun h => hg (List.mem_cons_of_mem _ h)) i j

theorem out_isPrefix_notify (s t : State) : t.out <+: (notify s t).out := List.prefix_append ..

/-- The end of the command adds messages and changes nothing else of it. -/
theorem Leaves.notified {id : Nat} {bytes : List Byte} {good : Bool} {f : YFrame} {t : State} (h : Leaves p id bytes good f s t)
    (old : State) : (s.out ++ [.frame p bytes good]) <+: (notify old t).out ∧ ((notify old t).port p).tx = none
      ∧ (notify old t).frame id = some { f with left := f.left - 1, sent := true } ∧ (notify old t).eng = s.eng
      ∧ (notify old t).loft = s.loft ∧ ∀ g : Fld, g.id ∉ outFlds → ∀ i j, (notify old t).fld g i j = s.fld g i j := by
  obtain ⟨hout, htx, hframe, hfld, heng, hloft⟩ := h
  refine ⟨hout ▸ out_isPrefix_notify old t, ?_, ?_, ?_, ?_, fun g hg i j => ?_⟩
  · rwa [State.notify_port_get]
  · rwa [frame_of_yard (State.notify_yard old t)]
  · rwa [State.notify_eng]
  · rwa [State.notify_loft]
  · rw [State.notify_fld_get, hfld g hg]

theorem txEnd_of_good {sub : Nat} {x : TxSt} {f : YFrame} (hx : (s.port p).tx = some x) (hback : (s.port p).backoff = none)
    (hf : s.frame x.id = some f) (harr : f.arriving = false) (hbad : f.badFrom = none) (hct : f.ctBad = false) :
    txEnd p sub s = txOut p x (s.egressBytes p x.mark f) true false sub (s.bump F.epCnt0_TXOK p) := by
  simp [txEnd, hx, hback, hf, harr, hbad, hct]

theorem txEnd_of_poisoned {sub k : Nat} {x : TxSt} {f : YFrame} (hx : (s.port p).tx = some x) (hback : (s.port p).backoff = none)
    (hf : s.frame x.id = some f) (harr : f.arriving = false) (hbad : f.badFrom = some k) : txEnd p sub s = txPoisoned p x f k s := by
  simp [txEnd, hx, hback, hf, harr, hbad]

/-- Where the frame ends on the wire: an HSR tag before the bad lane moves it by six bytes. -/
theorem txPoisoned_of_tagged {x : TxSt} {f : YFrame} {k j : Nat} (hcut : s.untags p f = false)
    (hj : (s.rppOf p = none ∨ f.seqNr = none) ∧ j = k
      ∨ (∃ a b q, s.rppOf p = some (2, a, b) ∧ f.seqNr = some q ∧ typeAt f.read ≤ k ∧ j = k + 6)) :
    txPoisoned p x f k s
      = txOut p x ((s.egressBytes p x.mark f).take j) false true 0 ((s.bump F.epCnt2_TXPOIS p).put F.epEvt_TXPOIS 1 p) := by
  unfold txPoisoned
  simp only [hcut, Bool.false_and, Bool.false_eq_true, if_false]
  rcases hj with ⟨hplain, rfl⟩ | ⟨a, b, q, hpair, hseq, htype, rfl⟩
  · split
    · next h h' => simp [h, h'] at hplain
    · rfl
  · simp only [hpair, hseq, if_pos htype]

theorem txUnderrun_of_arriving {n : Nat} {x : TxSt} {f : YFrame} (hx : (s.port p).tx = some x) (hf : s.frame x.id = some f)
    (harr : f.arriving = true) : txUnderrun p false n s = txOut p x ((s.egressBytes p x.mark f).take n) false true 0
      (raiseTxTh p ((s.bump F.epCnt2_TXUND p).put F.epEvt_TXUND 1 p)) := by
  simp [txUnderrun, hx, hf, harr]

theorem State.put_maxFrm {f : Fld} (hh : F.gcLaystat_HALTER.id ≠ f.id) (hg : F.epCfg2_MAXFRM.id ≠ f.id) (s : State) (v i j p : Nat) :
    (s.put f v i j).maxFrm p = s.maxFrm p := by
  rw [State.maxFrm, State.put_halter hh, State.put_fld_ne _ _ _ _ _ _ _ _ hg, State.maxFrm]

/-- The threshold goes up by one, to whole frames where it would exceed the longest (R197). -/
theorem raiseTxTh_txth (p : Nat) (s : State) : (raiseTxTh p s).fld F.epTxctl_TXTH p
    = if s.maxFrm p ≤ 128 * (s.txTh p + 1) then 0 else (s.txTh p + 1) % 2 ^ F.epTxctl_TXTH.width := by
  unfold raiseTxTh
  rw [State.put_fld, apply_ite (· % 2 ^ F.epTxctl_TXTH.width), Nat.zero_mod]

theorem raiseTxTh_fld {g : Fld} (hg : g.id ≠ F.epTxctl_TXTH.id) (p : Nat) (s : State) (i j : Nat) :
    (raiseTxTh p s).fld g i j = s.fld g i j := State.put_fld_ne _ _ _ _ _ _ _ _ hg

/-! ### The timestamp FIFO (R201) -/

theorem finishRead_of_host {w : Who} (hw : ∀ e, w ≠ .engine e) (s : State) (v : Word) :
    finishRead w { st := s } v false = s.emit (.resp w 0 [v] false) := by
  cases w with
  | engine e => exact absurd rfl (hw e)
  | _ => rfl

theorem exec_txTimestampPop {w : Who} {p : Fin 12} {r : TxStamp} {rest : List TxStamp} (hl : s.linked) (hs : s.heard w = true)
    (hsup : s.supervisor w = true) (hw : ∀ e, w ≠ .engine e) (hr : (s.port p).stamps = r :: rest) :
    exec (.txTimestampPop w p) s
      = done s ((s.setPort p { s.port p with stamps := rest }).emit (.resp w 0 [wd r.ts.nsf] false)) := by
  have hj : isJtag w = false := by
    cases w with
    | jtag => cases hsup
    | _ => rfl
  obtain ⟨-, happ⟩ := hl
  have hpop : popStamp p s = (wd r.ts.nsf, s.setPort p { s.port p with stamps := rest }) := by
    unfold popStamp
    rw [hr]
  change done s _ = _
  rw [if_neg (by simp [hs]), if_neg (by simp [hj]), if_neg (by simpa [or_iff_not_imp_left] using happ), finishRead_of_host hw, hpop]

/-! ### The statement of transmission -/

theorem framesAreSentWhole : Stated.FramesAreSentWhole := by
  refine fun s p hl => ⟨fun n hlink => does_eq_of_linked rfl hl (txStart_of_down hlink), fun n hlink hfit => ⟨fun h => ?_,
    fun c q htx hpaused hlpi hback hwait hpick => ?_, fun c q htx hpaused hlpi hback hwait hpick => ?_⟩,
    fun n c q => ⟨pick_queue_iff, pick_launch_iff⟩,
    fun sub x f hx hback hf harr htsr hleft => ⟨fun hct hbad => ?_, fun k j hbad hcut hj => ?_⟩,
    fun n x f hx hf harr htsr hleft => ?_, fun w r rest hs hsup hw hr => ⟨_, exec_txTimestampPop hl hs hsup hw hr, rfl⟩⟩
  · exact does_eq_of_linked rfl hl (txStart_of_stopped hlink hfit h)
  · obtain ⟨htx, hyard, hact, heng⟩ := txStart_notified (old := s)
      (txStart_of_pick hlink hfit htx hpaused hlpi hback hwait hpick)
    refine does_of_linked rfl hl ⟨htx, (queue_of_yard hyard ..).trans (queue_setQueue_same ..), fun p' c' hne hc' hc => ?_, hact, heng⟩
    refine (queue_of_yard hyard ..).trans (queue_setQueue_ne (fun heq => hne (Prod.ext ?_ ?_)) ..)
    · dsimp only
      omega
    · dsimp only
      omega
  · obtain ⟨htx, hyard, hact, heng⟩ := txStart_notified (old := s)
      (txStart_of_pick hlink hfit htx hpaused hlpi hback hwait hpick)
    exact does_of_linked rfl hl ⟨htx, (launchQ_of_yard hyard p).trans (leaveQueue_launchQ p c s), hact, heng⟩
  · obtain ⟨hout, htx, hframe, heng, hloft, hfld⟩ := (txOut_leaves (s := s.bump F.epCnt0_TXOK p) hf htsr hleft p
      (s.egressBytes p x.mark f) true false sub).notified s
    rw [← txEnd_of_good hx hback hf harr hbad hct] at *
    refine does_of_linked rfl hl ⟨hout, ?_, htx, hframe, heng, hloft⟩
    rw [hfld _ (by decide), State.bump_fld]
  · obtain ⟨hout, htx, -, -, -, hfld⟩ := (txOut_leaves (s := (s.bump F.epCnt2_TXPOIS p).put F.epEvt_TXPOIS 1 p) hf htsr hleft p
      ((s.egressBytes p x.mark f).take j) false true 0).notified s
    rw [← txPoisoned_of_tagged hcut hj, ← txEnd_of_poisoned (sub := sub) hx hback hf harr hbad] at *
    refine does_of_linked rfl hl ⟨hout, htx, ?_, ?_, ?_⟩
    · rw [hfld _ (by decide), State.put_fld_ne _ _ _ _ _ _ _ _ (by decide), State.bump_fld]
    · rw [hfld _ (by decide), State.put_fld]
      rfl
    · rw [hfld _ (by decide), State.put_fld_ne _ _ _ _ _ _ _ _ (by decide), State.bump_fld_ne _ _ _ _ _ _ _ _ (by decide)]
  · obtain ⟨hout, htx, -, -, -, hfld⟩ := (txOut_leaves (s := raiseTxTh p ((s.bump F.epCnt2_TXUND p).put F.epEvt_TXUND 1 p)) hf htsr
      hleft p ((s.egressBytes p x.mark f).take n) false true 0).notified s
    rw [← txUnderrun_of_arriving hx hf harr] at *
    refine does_of_linked rfl hl ⟨hout, ?_, ?_, ?_, htx⟩
    · rw [hfld _ (by decide), raiseTxTh_txth, State.put_maxFrm (by decide) (by decide), State.txTh,
        State.put_epFld (by decide) (by decide), State.bump, State.put_maxFrm (by decide) (by decide),
        State.put_epFld (by decide) (by decide), State.txTh]
    · rw [hfld _ (by decide), raiseTxTh_fld (by decide), State.put_fld]
      rfl
    · rw [hfld _ (by decide), raiseTxTh_fld (by decide), State.put_fld_ne _ _ _ _ _ _ _ _ (by decide), State.bump_fld]

/-! ### Collisions (R191, R192) -/

theorem collide_of_full_duplex (h : s.fld F.epStat_HDXA p = 0) (late : Bool) : collide p late s = s := by
  unfold collide
  split
  · rfl
  · exact if_pos (by simp [State.on, h])

/-- A collision of an attempt on the wire, in half duplex. -/
theorem collide_of_half_duplex {x : TxSt} (hx : (s.port p).tx = some x) (hdx : s.fld F.epStat_HDXA p ≠ 0)
    (hback : (s.port p).backoff = none) (late : Bool) : collide p late s =
      let u := s.bump F.epCnt3_COL p
      let n := (s.port p).attempts + 1
      if late then txDiscard p x ((u.bump F.epCnt3_LATECOL p).put F.epEvt_LATECOL 1 p)
      else if n ≥ 16 then txDiscard p x ((u.bump F.epCnt3_EXCOL p).put F.epEvt_EXCOL 1 p)
      else
        let g := Config.seed s.fresh
        ({ u with fresh := s.fresh + 1 }).setPort p { s.port p with
          attempts := n, lfsr := g, backoff := some (s.tick + u.pauseTicks p (g.toNat % 2 ^ min n 10)) } := by
  unfold collide
  rw [hx]
  dsimp only
  rw [if_neg (by simp [State.on, hdx, hback])]
  rfl

/-- A discarded frame leaves the port idle. -/
theorem txDiscard_spec (p : Nat) (x : TxSt) (s : State) : ((txDiscard p x s).port p).tx = none ∧ ((txDiscard p x s).port p).attempts = 0
    ∧ ∀ g : Fld, g.id ≠ F.ydStat_FREE.id → g.id ≠ F.epStat_PAUSED.id → ∀ i j, (txDiscard p x s).fld g i j = s.fld g i j := by
  obtain ⟨htx, hatt⟩ := txIdle_port p s
  unfold txDiscard
  rw [copyDone_port]
  exact ⟨htx, hatt, fun g hfree hpaused i j => (copyDone_fld hfree ..).trans (txIdle_fld hpaused ..)⟩

theorem collide_counts {x : TxSt} (hx : (s.port p).tx = some x) (hdx : s.fld F.epStat_HDXA p ≠ 0) (hback : (s.port p).backoff = none)
    (late : Bool) : (collide p late s).fld F.epCnt3_COL p = min (s.fld F.epCnt3_COL p + 1) (2 ^ F.epCnt3_COL.width - 1) := by
  have hdiscard : ∀ f g : Fld, F.epCnt3_COL.id ≠ f.id → F.epCnt3_COL.id ≠ g.id →
      (txDiscard p x (((s.bump F.epCnt3_COL p).bump f p).put g 1 p)).fld F.epCnt3_COL p = (s.bump F.epCnt3_COL p).fld F.epCnt3_COL p := by
    intro f g hf hg
    obtain ⟨-, -, hfld⟩ := txDiscard_spec p x (((s.bump F.epCnt3_COL p).bump f p).put g 1 p)
    rw [hfld _ (by decide) (by decide), State.put_fld_ne _ _ _ _ _ _ _ _ hg, State.bump_fld_ne _ _ _ _ _ _ _ _ hf]
  rw [collide_of_half_duplex hx hdx hback, ← State.bump_fld s F.epCnt3_COL p 0 1]
  dsimp only
  split_ifs
  · exact hdiscard _ _ (by decide) (by decide)
  · exact hdiscard _ _ (by decide) (by decide)
  · rfl

theorem backoffEnd_of_due {x : TxSt} {y : Nat} (hx : (s.port p).tx = some x) (hy : (s.port p).backoff = some y) (hdue : y ≤ s.tick) :
    backoffEnd p s = s.setPort p { s.port p with backoff := none, tx := some { x with t0 := s.sfdTime p } } := by
  simp only [backoffEnd, hx, hy, passTo_of_past hdue]

theorem State.bump_col_pauseTicks (s : State) (p q : Nat) : (s.bump F.epCnt3_COL p).pauseTicks p q = s.pauseTicks p q := by
  rw [State.pauseTicks, State.bump, State.put_rate (by decide), State.pauseTicks]

theorem collisionsBackOff : Stated.CollisionsBackOff := by
  refine fun s p x hl hx => ⟨fun hdx late => does_eq_of_linked rfl hl (collide_of_full_duplex hdx late),
    fun hdx hback => ⟨fun late => ?_, fun hatt => ?_, fun hatt => ?_, ?_⟩,
    fun y hy hdue => does_eq_of_linked rfl hl (backoffEnd_of_due hx hy hdue)⟩
  · exact does_of_linked rfl hl (collide_counts hx hdx hback late)
  · refine does_of_linked rfl hl
      ⟨(Config.seed s.fresh).toNat % 2 ^ min ((s.port p).attempts + 1) 10, Nat.mod_lt _ (Nat.two_pow_pos _), ?_⟩
    rw [collide_of_half_duplex hx hdx hback]
    dsimp only
    rw [if_neg (by decide), if_neg (by omega), State.bump_col_pauseTicks, State.notify_port_get, State.setPort_port]
    exact ⟨rfl, rfl, hx, rfl, rfl⟩
  · refine does_of_linked rfl hl ?_
    rw [collide_of_half_duplex hx hdx hback]
    dsimp only
    rw [if_neg (by decide), if_pos (by omega)]
    obtain ⟨htx, hzero, hfld⟩ := txDiscard_spec p x (((s.bump F.epCnt3_COL p).bump F.epCnt3_EXCOL p).put F.epEvt_EXCOL 1 p)
    exact ⟨htx, (hfld _ (by decide) (by decide) ..).trans (State.put_fld ..), hzero⟩
  · refine does_of_linked rfl hl ?_
    rw [collide_of_half_duplex hx hdx hback]
    dsimp only
    rw [if_pos rfl]
    obtain ⟨htx, -, hfld⟩ := txDiscard_spec p x (((s.bump F.epCnt3_COL p).bump F.epCnt3_LATECOL p).put F.epEvt_LATECOL 1 p)
    exact ⟨htx, (hfld _ (by decide) (by decide) ..).trans (State.put_fld ..)⟩

/-- Settles O37: the pick as the highest head that may start, the end of a frame through one lemma on what leaves the port, and the three
ends of a collision. -/
theorem framesAreSentAndRetried : Obligations.FramesAreSentAndRetried := ⟨framesAreSentWhole, collisionsBackOff⟩

end Sys2Proof.Machine
end

section
/-! The statement of links: what a link that goes down cuts and loses, and what one that comes up shows. -/

namespace Sys2Proof.Machine

/-! ### Relayed frames that a dead link cuts (R216, R218) -/

/-- The fields that the end of a relayed frame leaves: whose link each is, and what dead links have lost. -/
def cutFlds : List Nat := [F.epCnt2_TXLDN.id, F.epIpcfg0_PA.id, F.epIpcfg0_PB.id]

/-- What the end of a relayed frame that came in at port `p` leaves of the ports: the queues, the other ports, and the fields above. -/
structure CutKeeps (p : Nat) (s t : State) : Prop where
  queues : t.yard.queues = s.yard.queues
  launch : t.yard.launch = s.yard.launch
  port : ∀ q, q ≠ p → t.port q = s.port q
  fld : ∀ g : Fld, g.id ∈ cutFlds → ∀ i j, t.fld g i j = s.fld g i j

namespace CutKeeps
variable {p : Nat} {s t u : State}

theorem refl (s : State) : CutKeeps p s s := ⟨rfl, rfl, fun _ _ => rfl, fun _ _ _ _ => rfl⟩

theorem trans (h : CutKeeps p s t) (k : CutKeeps p t u) : CutKeeps p s u :=
  ⟨k.queues.trans h.queues, k.launch.trans h.launch, fun q hq => (k.port q hq).trans (h.port q hq),
    fun g hg i j => (k.fld g hg i j).trans (h.fld g hg i j)⟩

theorem of_line (h : t.line = s.line) : CutKeeps p s t :=
  ⟨by rw [yard_of_line h], by rw [yard_of_line h], fun q _ => port_of_line h q, fun g hg =>
    fld_of_line h ((by decide : ∀ n ∈ cutFlds, n ∈ lineFlds) _ hg)⟩

/-- A frame is handed to the yard, or leaves the part. -/
theorem of_tables (h : (t.act, t.ports, t.yard.queues, t.yard.launch) = (s.act, s.ports, s.yard.queues, s.yard.launch)) :
    CutKeeps p s t := by
  simp only [Prod.mk.injEq] at h
  obtain ⟨hact, hports, hqueues, hlaunch⟩ := h
  exact ⟨hqueues, hlaunch, fun q _ => by rw [State.port, hports, State.port], fun g _ i j => by rw [State.fld, hact, State.fld]⟩

theorem put {f : Fld} (hf : f.id ∉ cutFlds) (s : State) (v i j : Nat) : CutKeeps p s (s.put f v i j) :=
  ⟨rfl, rfl, fun _ _ => rfl, fun _ hg _ _ => State.put_fld_ne _ _ _ _ _ _ _ _ fun e => hf (e ▸ hg)⟩

theorem bump {f : Fld} (hf : f.id ∉ cutFlds) (s : State) (i j n : Nat) : CutKeeps p s (s.bump f i j n) := put hf ..

theorem setPort (s : State) (x : PortS) : CutKeeps p s (s.setPort p x) :=
  ⟨rfl, rfl, fun _ hq => State.setPort_port_ne _ _ _ _ hq, fun _ _ _ _ => rfl⟩

theorem of_ite {c : Prop} [Decidable c] (ht : CutKeeps p s t) (hu : CutKeeps p s u) : CutKeeps p s (if c then t else u) := by
  split
  · exact ht
  · exact hu

theorem ingress (h : CutKeeps p s t) (k d : Nat) : t.ingress k d = s.ingress k d := by
  unfold State.ingress
  rw [h.fld F.epIpcfg0_PA (by decide), h.fld F.epIpcfg0_PB (by decide)]

end CutKeeps

theorem atBoundary_cutKeeps (p : Nat) (s : State) : CutKeeps p s (atBoundary p s) := by
  rcases atBoundary_cases p s with h | ⟨d, h⟩ <;> rw [h]
  · exact .refl s
  · exact .trans (.setPort s _) (.put (by decide) ..)

theorem pauseReceive_cutKeeps (p q : Nat) (s : State) : CutKeeps p s (pauseReceive p q s) := by
  have hcount : CutKeeps p s (s.bump F.epCnt3_PAUSERX p) := .bump (by decide) ..
  unfold pauseReceive
  exact .of_ite hcount (.of_ite (hcount.trans (.trans (.setPort ..) (.put (by decide) ..)))
    (.of_ite (hcount.trans (.setPort ..)) (hcount.trans (.trans (.setPort ..) (atBoundary_cutKeeps ..)))))

theorem rxCount_cutKeeps (p : Nat) (fr : EthFrame) (s : State) : CutKeeps p s (rxCount p fr s) := by
  unfold rxCount
  split
  · exact .bump (by decide) ..
  · exact .bump (by decide) ..
  · exact .bump (by decide) ..
  · exact .of_ite (pauseReceive_cutKeeps ..) (.bump (f := F.epCnt3_PAUSERX) (by decide) ..)
  · exact .bump (by decide) ..

section
variable {s : State} {p k d : Nat}

theorem relaySent_cutKeeps (h : s.ingress k d = p) (x : RFrame) (len : Nat) (good : Bool) :
    CutKeeps p s (relaySent k d x len good s) := by
  unfold relaySent
  extract_lets bytes q ds t u fr
  have ht : CutKeeps p s t := .of_tables rfl
  have hsent : CutKeeps p s (t.emit (.frame (t.egress k d) bytes good)) := ht.trans (.of_tables rfl)
  have hu : CutKeeps p s u := hsent.trans (.bump (f := F.epCnt0_TXOK) (by decide) ..)
  have hq : q = p := h
  rw [hq]
  exact .of_ite hu (.of_ite (hu.trans (.bump (f := F.epCnt1_RXFCS) (by decide) ..))
    (.of_ite (hu.trans (rxCount_cutKeeps ..)) (hu.trans (.of_tables rfl))))

theorem relayFinish_cutKeeps (h : s.ingress k d = p) (n : Nat) : CutKeeps p s (relayFinish k d n s) := by
  have hdone : ∀ x t, CutKeeps p t (relayDone k d n x t) := fun _ _ => .of_tables rfl
  unfold relayFinish
  split
  · exact .refl s
  split
  · exact .refl s
  · exact .of_ite (hdone ..) (.of_ite ((relaySent_cutKeeps h ..).trans (hdone ..)) (.refl s))

theorem relayEnd_cutKeeps (h : s.ingress k d = p) (len : Nat) (bad : Bool) : CutKeeps p s (relayEnd k d len bad s) := by
  unfold relayEnd
  split
  · exact .refl s
  split
  · exact .refl s
  · extract_lets mx l isBad y ds t g u v w
    have ht : t.line = s.line := (settleDir_line ..).trans (State.setDir_line ..)
    have hu : u.line = s.line := (onDesc_line ..).trans ht
    have hv : v.line = s.line := by
      unfold v
      split
      · exact ht
      · split
        · exact (inpassEvent_line ..).trans hu
        · exact hu
    have hw : w.line = s.line := by
      unfold w
      split
      · exact (State.bump_line (f := F.epIpcnt_BAD) (by decide) ..).trans hv
      · exact hv
    clear_value w
    have hin : CutKeeps p s (w.bump F.epCnt0_RXOK (w.ingress k d)) :=
      .of_line ((State.bump_line (f := F.epCnt0_RXOK) (by decide) ..).trans hw)
    exact hin.trans (relayFinish_cutKeeps ((hin.ingress k d).trans h) _)

theorem cutRelay_cutKeeps (h : s.ingress k d = p) : CutKeeps p s (cutRelay k d s) := by
  unfold cutRelay
  split
  · exact .refl s
  split
  · exact .refl s
  · dsimp only
    refine .trans (t := s.setDir k d _) (.of_tables rfl) (relayEnd_cutKeeps ?_ ..)
    exact h

end

/-- The frames that arrive at a port for its pairs are cut. -/
def cutRelays (p : Nat) (s : State) : State :=
  (allDirs.filter fun x => s.inPassing x.1 x.2 && s.ingress x.1 x.2 == p).foldl (fun s x => cutRelay x.1 x.2 s) s

theorem foldl_cutRelay_cutKeeps {p : Nat} (l : List (Nat × Nat)) (s : State) (h : ∀ x ∈ l, s.ingress x.1 x.2 = p) :
    CutKeeps p s (l.foldl (fun s x => cutRelay x.1 x.2 s) s) := by
  induction l generalizing s with
  | nil => exact .refl s
  | cons x l ih =>
    have hx := cutRelay_cutKeeps (h x List.mem_cons_self)
    exact hx.trans (ih _ fun y hy => (hx.ingress ..).trans (h y (List.mem_cons_of_mem _ hy)))

theorem cutRelays_cutKeeps (p : Nat) (s : State) : CutKeeps p s (cutRelays p s) := by
  refine foldl_cutRelay_cutKeeps _ s fun x hx => ?_
  simp only [List.mem_filter, Bool.and_eq_true, beq_iff_eq] at hx
  exact hx.2.2

/-- A port that receives for no pair cuts nothing. -/
theorem cutRelays_of_plain {p : Nat} {s : State} (h : s.relayIn p = false) : cutRelays p s = s := by
  unfold cutRelays
  rw [List.filter_eq_nil_iff.2 (by simpa [State.relayIn] using h)]
  rfl

/-! ### What a dead link shows (R189, R195) -/

/-- The fields of a dead link. -/
def showDown (p : Nat) (s : State) : State :=
  (((((((s.put F.epStat_LINK 0 p).put F.epStat_PAUSED 0 p).put F.epStat_LPIRX 0 p).put F.epStat_LPITX 0 p).put F.epStat_PVS 0 p).put
    F.epStat_T1LA 0 p).put F.epStat_HDXA 0 p).put F.epEvt_LINKCHG 1 p

theorem linkDown_of_up {p : Nat} {s : State} (h : s.fld F.epStat_LINK p ≠ 0) :
    linkDown p s = flushPort p (showDown p (cutRelays p s)) := if_neg (by simp [State.on, h])

theorem linkDown_of_down {p : Nat} {s : State} (h : s.fld F.epStat_LINK p = 0) : linkDown p s = s := if_pos (by simp [State.on, h])

theorem showDown_fld (p : Nat) (s : State) : ∀ f ∈ [F.epStat_LINK, F.epStat_PAUSED, F.epStat_LPIRX, F.epStat_LPITX, F.epStat_PVS,
    F.epStat_T1LA, F.epStat_HDXA], (showDown p s).fld f p = 0 := by
  simp +decide [showDown, State.put_fld_ne]

theorem showDown_changed (p : Nat) (s : State) : (showDown p s).fld F.epEvt_LINKCHG p = 1 := State.put_fld ..

theorem showDown_frame (p : Nat) (s : State) : (showDown p s).eng = s.eng ∧ (showDown p s).loft = s.loft := by
  simp [showDown]

theorem showDown_cutKeeps (p : Nat) (s : State) : CutKeeps p s (showDown p s) :=
  .trans (.put (by decide) ..) (.trans (.put (by decide) ..) (.trans (.put (by decide) ..) (.trans (.put (by decide) ..)
    (.trans (.put (by decide) ..) (.trans (.put (by decide) ..) (.trans (.put (by decide) ..) (.put (by decide) ..)))))))

/-! ### The frames under way (R189, R216) -/

/-- What the end of the frames under way at port `p` leaves: beside what a cut leaves, that nothing is sent or held, the engines, the lofts
and every field but the free cells and the count of relayed frames. -/
structure FlushKeeps (p : Nat) (s t : State) : Prop where
  queues : t.yard.queues = s.yard.queues
  launch : t.yard.launch = s.yard.launch
  port : ∀ q, q ≠ p → t.port q = s.port q
  tx : (s.port p).tx = none → (t.port p).tx = none
  held : (s.port p).held = none → (t.port p).held = none
  eng : t.eng = s.eng
  loft : t.loft = s.loft
  fld : ∀ g : Fld, g.id ≠ F.ydStat_FREE.id → g.id ≠ F.epIpcnt_DROP.id → ∀ i j, t.fld g i j = s.fld g i j

namespace FlushKeeps
variable {p : Nat} {s t u : State}

theorem refl (s : State) : FlushKeeps p s s := ⟨rfl, rfl, fun _ _ => rfl, id, id, rfl, rfl, fun _ _ _ _ _ => rfl⟩

theorem trans (h : FlushKeeps p s t) (k : FlushKeeps p t u) : FlushKeeps p s u :=
  ⟨k.queues.trans h.queues, k.launch.trans h.launch, fun q hq => (k.port q hq).trans (h.port q hq), k.tx ∘ h.tx, k.held ∘ h.held,
    k.eng.trans h.eng, k.loft.trans h.loft, fun g hf hd i j => (k.fld g hf hd i j).trans (h.fld g hf hd i j)⟩

theorem setPort (s : State) {x : PortS} (htx : x.tx = (s.port p).tx) (hheld : x.held = (s.port p).held) :
    FlushKeeps p s (s.setPort p x) :=
  ⟨rfl, rfl, fun _ hq => State.setPort_port_ne _ _ _ _ hq, fun h => by rw [State.setPort_port, htx, h],
    fun h => by rw [State.setPort_port, hheld, h], rfl, rfl, fun _ _ _ _ _ => rfl⟩

theorem setFrame (s : State) (id : Nat) (f : Option YFrame) : FlushKeeps p s (s.setFrame id f) :=
  ⟨rfl, rfl, fun _ _ => rfl, fun h => h, fun h => h, rfl, rfl, fun _ _ _ _ _ => rfl⟩

theorem cut (h : FlushKeeps p s t) : CutKeeps p s t :=
  ⟨h.queues, h.launch, h.port, fun g hg => h.fld g (fun e => absurd (e ▸ hg) (by decide)) (fun e => absurd (e ▸ hg) (by decide))⟩

end FlushKeeps

theorem cutShort_flushKeeps (p : Nat) (good : Bool) (s : State) : FlushKeeps p s (cutShort p good s) := by
  unfold cutShort
  split
  · exact .refl s
  · dsimp only
    split
    · exact .trans (.setPort s (by rfl) (by rfl)) (.setFrame ..)
    · exact .setPort s (by rfl) (by rfl)

theorem copyDone_flushKeeps (p id : Nat) (how : CopyEnd) (s : State) : FlushKeeps p s (copyDone id how s) := by
  have hfld : ∀ g : Fld, g.id ≠ F.ydStat_FREE.id → ∀ i j, (copyDone id how s).fld g i j = s.fld g i j := fun _ hg =>
    copyDone_fld hg id how s
  obtain ⟨act, frames, h⟩ := copyDone_eq id how s
  rw [h] at hfld ⊢
  exact ⟨rfl, rfl, fun _ _ => rfl, fun h => h, fun h => h, rfl, rfl, fun g hg _ => hfld g hg⟩

/-- The frames that a port sends and holds go. -/
def clearPort (p : Nat) (s : State) : State :=
  s.setPort p { s.port p with
    tx := none, held := none, pauseWait := none, pauseEnd := none, backoff := none, attempts := 0, parts := none }

/-- The copies that were sent and held are done. -/
def endCopies (l : List TxSt) (s : State) : State := l.foldl (fun s t => copyDone t.id .sent s) s

/-- A relayed frame that egress has started is lost. -/
def dropRelayed (p : Nat) (s : State) : State :=
  match s.relayOut p with
  | some (k, d) =>
    let n := ((s.dir k d).frames.filter fun y => y.started && !y.gone).length
    let fs := (s.dir k d).frames.filterMap fun y =>
      if !y.started then some y else if y.fin.isSome then none else some { y with gone := true }
    (s.setDir k d { s.dir k d with frames := fs }).bump F.epIpcnt_DROP k d n
  | none => s

/-- The frames under way are lost. -/
def flushed (p : Nat) (s : State) : State :=
  dropRelayed p (endCopies ((s.port p).tx.toList ++ (s.port p).held.toList) (cutShort p false (clearPort p s)))

theorem flushPort_eq (p : Nat) (s : State) : flushPort p s = dropOffered p (·.bump F.epCnt2_TXLDN p) (flushed p s) := rfl

theorem endCopies_flushKeeps (p : Nat) (l : List TxSt) (s : State) : FlushKeeps p s (endCopies l s) := by
  induction l generalizing s with
  | nil => exact .refl s
  | cons x l ih => exact (copyDone_flushKeeps ..).trans (ih _)

theorem dropRelayed_flushKeeps (p : Nat) (s : State) : FlushKeeps p s (dropRelayed p s) := by
  unfold dropRelayed
  split
  · exact ⟨rfl, rfl, fun _ _ => rfl, fun h => h, fun h => h, rfl, rfl, fun _ _ hd _ _ => State.bump_fld_ne _ _ _ _ _ _ _ _ hd⟩
  · exact .refl s

theorem flushed_flushKeeps (p : Nat) (s : State) : FlushKeeps p (clearPort p s) (flushed p s) :=
  ((cutShort_flushKeeps ..).trans (endCopies_flushKeeps ..)).trans (dropRelayed_flushKeeps ..)

theorem flushed_cutKeeps (p : Nat) (s : State) : CutKeeps p s (flushed p s) := .trans (.setPort ..) (flushed_flushKeeps p s).cut

/-- Nothing is under way any more, and the engines, the lofts and the other fields are as they were. -/
theorem flushed_spec (p : Nat) (s : State) : ((flushed p s).port p).tx = none ∧ ((flushed p s).port p).held = none
    ∧ (flushed p s).eng = s.eng ∧ (flushed p s).loft = s.loft
    ∧ ∀ g : Fld, g.id ≠ F.ydStat_FREE.id → g.id ≠ F.epIpcnt_DROP.id → ∀ i j, (flushed p s).fld g i j = s.fld g i j := by
  obtain ⟨-, -, -, htx, hheld, heng, hloft, hfld⟩ := flushed_flushKeeps p s
  exact ⟨htx (by simp [clearPort]), hheld (by simp [clearPort]), heng, hloft, hfld⟩

/-! ### The frames that wait (R189) -/

/-- The copies that wait at a port, launch frames first. -/
def State.offered (s : State) (p : Nat) : List Nat := (s.launchQ p ++ (List.range 8).flatMap fun c => s.queue p c).map (·.id)

theorem offered_length (s : State) (p : Nat) :
    (s.offered p).length = (s.launchQ p).length + ((List.range 8).map fun c => (s.queue p c).length).sum := by
  rw [State.offered, List.length_map, List.length_append, List.length_flatMap]

/-- No launch frame of the port is due. -/
def clearDue (p : Nat) (s : State) : State := { s with yard := { s.yard with due := Tab.set 0 s.yard.due p 0 } }

/-- A port's queues are empty. -/
def clearQueues (p : Nat) (s : State) : State := clearDue p ((List.range 8).foldl (fun s c => s.setQueue p c []) (s.setLaunch p []))

theorem clearDue_queue (p : Nat) (s : State) (q c : Nat) : (clearDue p s).queue q c = s.queue q c := rfl

theorem clearDue_launchQ (p : Nat) (s : State) (q : Nat) : (clearDue p s).launchQ q = s.launchQ q := rfl

/-- The copies that wait at a dead link are done, each counted. -/
def loseCopies (p : Nat) (ids : List Nat) (s : State) : State := ids.foldl (fun s id => copyDone id .sent (s.bump F.epCnt2_TXLDN p)) s

theorem dropOffered_eq (p : Nat) (s : State) :
    dropOffered p (·.bump F.epCnt2_TXLDN p) s = loseCopies p (s.offered p) (clearQueues p s) := rfl

theorem foldl_setQueue_queue (p : Nat) (l : List Nat) (s : State) (c : Nat) (h : c ∈ l ∨ s.queue p c = []) :
    (l.foldl (fun s c => s.setQueue p c []) s).queue p c = [] := by
  induction l generalizing s with
  | nil => exact h.resolve_left List.not_mem_nil
  | cons a l ih =>
    refine ih _ ?_
    by_cases hc : c = a
    · exact .inr (hc ▸ queue_setQueue_same ..)
    · exact (h.imp_left fun hm => (List.mem_cons.1 hm).resolve_left hc).imp_right fun hq => (queue_setQueue_ne (by omega) ..).trans hq

theorem foldl_setQueue_eq (p : Nat) (l : List Nat) (s : State) :
    ∃ qs, l.foldl (fun s c => s.setQueue p c []) s = { s with yard := { s.yard with queues := qs } } := by
  induction l generalizing s with
  | nil => exact ⟨s.yard.queues, rfl⟩
  | cons a l ih =>
    obtain ⟨qs, h⟩ := ih (s.setQueue p a [])
    exact ⟨qs, h⟩

theorem clearQueues_eq (p : Nat) (s : State) : ∃ y, clearQueues p s = { s with yard := y } := by
  obtain ⟨qs, h⟩ := foldl_setQueue_eq p (List.range 8) (s.setLaunch p [])
  rw [clearQueues, h]
  exact ⟨_, rfl⟩

theorem clearQueues_queue (p : Nat) (s : State) {c : Nat} (hc : c < 8) : (clearQueues p s).queue p c = [] := by
  rw [clearQueues, clearDue_queue]
  exact foldl_setQueue_queue _ _ _ _ (.inl (List.mem_range.2 hc))

theorem clearQueues_launchQ (p : Nat) (s : State) : (clearQueues p s).launchQ p = [] := by
  obtain ⟨qs, h⟩ := foldl_setQueue_eq p (List.range 8) (s.setLaunch p [])
  rw [clearQueues, clearDue_launchQ, h]
  exact launchQ_setLaunch s p []

theorem loseCopies_eq (p : Nat) (ids : List Nat) (s : State) :
    ∃ act frames, loseCopies p ids s = { s with act := act, yard := { s.yard with frames := frames } } := by
  induction ids generalizing s with
  | nil => exact ⟨s.act, s.yard.frames, rfl⟩
  | cons id ids ih =>
    obtain ⟨act, frames, h⟩ := copyDone_eq id .sent (s.bump F.epCnt2_TXLDN p)
    obtain ⟨act', frames', h'⟩ := ih (copyDone id .sent (s.bump F.epCnt2_TXLDN p))
    refine ⟨act', frames', h'.trans ?_⟩
    rw [h]
    rfl

theorem loseCopies_fld {g : Fld} (hfree : g.id ≠ F.ydStat_FREE.id) (hlost : g.id ≠ F.epCnt2_TXLDN.id) (p : Nat) (ids : List Nat)
    (s : State) (i j : Nat) : (loseCopies p ids s).fld g i j = s.fld g i j := by
  induction ids generalizing s with
  | nil => rfl
  | cons id ids ih => exact (ih _).trans ((copyDone_fld hfree ..).trans (State.bump_fld_ne _ _ _ _ _ _ _ _ hlost))

theorem loseCopies_txldn (p : Nat) (ids : List Nat) (s : State)
    (h : s.fld F.epCnt2_TXLDN p + ids.length < 2 ^ F.epCnt2_TXLDN.width) :
    (loseCopies p ids s).fld F.epCnt2_TXLDN p = s.fld F.epCnt2_TXLDN p + ids.length := by
  induction ids generalizing s with
  | nil => rfl
  | cons id ids ih =>
    rw [List.length_cons] at h ⊢
    have hone : (copyDone id .sent (s.bump F.epCnt2_TXLDN p)).fld F.epCnt2_TXLDN p = s.fld F.epCnt2_TXLDN p + 1 := by
      rw [copyDone_fld (by decide), State.bump_fld]
      omega
    have hrest := ih (copyDone id .sent (s.bump F.epCnt2_TXLDN p)) (by omega)
    rw [hone] at hrest
    exact hrest.trans (by omega)

/-- The end of the copies leaves the queues, the ports, the engines and the lofts. -/
theorem loseCopies_frame (p : Nat) (ids : List Nat) (s : State) :
    let t := loseCopies p ids s
    t.ports = s.ports ∧ t.eng = s.eng ∧ t.loft = s.loft ∧ t.launchQ p = s.launchQ p ∧ ∀ c, t.queue p c = s.queue p c := by
  obtain ⟨act, frames, h⟩ := loseCopies_eq p ids s
  dsimp only
  rw [h]
  exact ⟨rfl, rfl, rfl, rfl, fun _ => rfl⟩

theorem clearQueues_frame (p : Nat) (s : State) : (clearQueues p s).ports = s.ports ∧ (clearQueues p s).eng = s.eng
    ∧ (clearQueues p s).loft = s.loft ∧ ∀ (g : Fld) (i j : Nat), (clearQueues p s).fld g i j = s.fld g i j := by
  obtain ⟨y, h⟩ := clearQueues_eq p s
  rw [h]
  exact ⟨rfl, rfl, rfl, fun _ _ _ => rfl⟩

/-- What waited is gone and counted, and the rest is as it was. -/
theorem dropOffered_spec (p : Nat) (s : State) :
    let t := dropOffered p (·.bump F.epCnt2_TXLDN p) s
    t.ports = s.ports ∧ t.eng = s.eng ∧ t.loft = s.loft ∧ t.launchQ p = [] ∧ (∀ c < 8, t.queue p c = [])
      ∧ (∀ g : Fld, g.id ≠ F.ydStat_FREE.id → g.id ≠ F.epCnt2_TXLDN.id → ∀ i j, t.fld g i j = s.fld g i j)
      ∧ (s.fld F.epCnt2_TXLDN p + (s.offered p).length < 2 ^ F.epCnt2_TXLDN.width →
          t.fld F.epCnt2_TXLDN p = s.fld F.epCnt2_TXLDN p + (s.offered p).length) := by
  dsimp only
  rw [dropOffered_eq]
  obtain ⟨hports, heng, hloft, hfld⟩ := clearQueues_frame p s
  obtain ⟨hports', heng', hloft', hlaunch, hqueue⟩ := loseCopies_frame p (s.offered p) (clearQueues p s)
  have hcount := loseCopies_txldn p (s.offered p) (clearQueues p s)
  rw [hfld] at hcount
  exact ⟨hports'.trans hports, heng'.trans heng, hloft'.trans hloft, hlaunch.trans (clearQueues_launchQ p s),
    fun c hc => (hqueue c).trans (clearQueues_queue p s hc),
    fun g hfree hlost i j => (loseCopies_fld hfree hlost ..).trans (hfld g i j), hcount⟩

theorem CutKeeps.offered {p : Nat} {s t : State} (h : CutKeeps p s t) : t.offered p = s.offered p := by
  unfold State.offered State.launchQ State.queue
  rw [h.queues, h.launch]

/-- The free cells and the counts are none of the fields that a dead link clears. -/
theorem downFlds_apart : ∀ f ∈ [F.epStat_LINK, F.epStat_PAUSED, F.epStat_LPIRX, F.epStat_LPITX, F.epStat_PVS, F.epStat_T1LA,
    F.epStat_HDXA], f.id ≠ F.ydStat_FREE.id ∧ f.id ≠ F.epIpcnt_DROP.id ∧ f.id ≠ F.epCnt2_TXLDN.id := by
  decide

/-- A link that goes down. -/
theorem linkDown_loses {p : Nat} {s : State} (h : s.fld F.epStat_LINK p ≠ 0) :
    let t := linkDown p s
    (∀ f ∈ [F.epStat_LINK, F.epStat_PAUSED, F.epStat_LPIRX, F.epStat_LPITX, F.epStat_PVS, F.epStat_T1LA, F.epStat_HDXA],
        t.fld f p = 0)
      ∧ t.fld F.epEvt_LINKCHG p = 1 ∧ (t.port p).tx = none ∧ (t.port p).held = none ∧ t.launchQ p = []
      ∧ (∀ c < 8, t.queue p c = [])
      ∧ (s.fld F.epCnt2_TXLDN p + (s.offered p).length < 2 ^ F.epCnt2_TXLDN.width →
          t.fld F.epCnt2_TXLDN p = s.fld F.epCnt2_TXLDN p + (s.offered p).length)
      ∧ (∀ q, q ≠ p → t.port q = s.port q) ∧ (s.relayIn p = false → t.eng = s.eng ∧ t.loft = s.loft) := by
  dsimp only
  rw [linkDown_of_up h, flushPort_eq]
  have hshow := showDown_fld p (cutRelays p s)
  have hchanged := showDown_changed p (cutRelays p s)
  have hcut : CutKeeps p s (showDown p (cutRelays p s)) := (cutRelays_cutKeeps p s).trans (showDown_cutKeeps ..)
  have hplain : s.relayIn p = false → (showDown p (cutRelays p s)).eng = s.eng ∧ (showDown p (cutRelays p s)).loft = s.loft :=
    fun hr => by rw [cutRelays_of_plain hr]; exact showDown_frame p s
  generalize showDown p (cutRelays p s) = u at *
  have hkeep : CutKeeps p s (flushed p u) := hcut.trans (flushed_cutKeeps p u)
  obtain ⟨htx, hheld, heng, hloft, hfld⟩ := flushed_spec p u
  obtain ⟨hports, heng', hloft', hlaunch, hqueue, hfld', hlost⟩ := dropOffered_spec p (flushed p u)
  have hport : ∀ q, (dropOffered p (·.bump F.epCnt2_TXLDN p) (flushed p u)).port q = (flushed p u).port q := fun q => by
    rw [State.port, hports, State.port]
  refine ⟨fun f hf => ?_, ?_, ?_, ?_, hlaunch, hqueue, ?_, fun q hq => (hport q).trans (hkeep.port q hq), fun hr => ?_⟩
  · obtain ⟨hfree, hdrop, htxldn⟩ := downFlds_apart f hf
    rw [hfld' f hfree htxldn, hfld f hfree hdrop]
    exact hshow f hf
  · rw [hfld' _ (by decide) (by decide), hfld _ (by decide) (by decide)]
    exact hchanged
  · rw [hport, htx]
  · rw [hport, hheld]
  · rwa [hkeep.offered, hkeep.fld _ (by decide)] at hlost
  · obtain ⟨he, hl⟩ := hplain hr
    exact ⟨heng'.trans (heng.trans he), hloft'.trans (hloft.trans hl)⟩

/-! ### A link that comes up (R186, R189, R193, R335) -/

section
variable {s t : State}

theorem halter_of_line (h : t.line = s.line) : t.halter = s.halter := by
  rw [State.halter, State.on, fld_of_line h (by decide), State.halter, State.on]

theorem epOn_of_line (h : t.line = s.line) {f : Fld} (hf : f.id ∈ lineFlds) (p : Nat) : t.epOn f p = s.epOn f p := by
  unfold State.epOn State.epFld
  rw [halter_of_line h, fld_of_line h hf]

theorem epIf_of_line (h : t.line = s.line) (p : Nat) : t.epIf p = s.epIf p := by
  unfold State.epIf State.laneOn
  rw [halter_of_line h, fld_of_line h (f := F.epCfg0_IF) (by decide), fld_of_line h (f := F.ckCfg0_LANEEN) (by decide)]

theorem ifSpeed_of_line (h : t.line = s.line) (p c : Nat) : t.ifSpeed p c = s.ifSpeed p c := by
  unfold State.ifSpeed
  rw [epIf_of_line h, halter_of_line h, fld_of_line h (f := F.epCfg0_ADV) (by decide)]

theorem ifHalf_of_line (h : t.line = s.line) (p c : Nat) : t.ifHalf p c = s.ifHalf p c := by
  unfold State.ifHalf
  rw [epIf_of_line h]

end

theorem hwRequest_train_eng (p : Nat) (s : State) : (hwRequest (.train p) s).eng = s.eng := by
  unfold hwRequest ostlerRequest
  extract_lets c r t q
  split_ifs
  · rfl
  · rfl
  · rfl
  · rfl
  · exact (noteOverq_frame _ _ _).2.2.1
  · rfl

theorem trainLeave_eng (p : Nat) (s : State) : (trainLeave p s).2.eng = s.eng := by
  unfold trainLeave
  extract_lets u t
  have ht : t.eng = s.eng := by
    unfold t
    split
    · rfl
    · exact hwRequest_train_eng p s
  split
  · exact ht
  · exact ht

/-- The link runs half duplex: a forced interface by its own setting, another as the partner agreed (R186). -/
def State.halfDuplex (s : State) (p : Nat) (l : LinkState) : Bool := if s.epIf p ∈ [2, 3, 7] then s.epOn F.epCfg0_HDX p else l.hdx

/-- Half duplex where SGMII does not take it (R186). -/
def State.mismatches (s : State) (p : Nat) (l : LinkState) : Bool :=
  s.epIf p = 5 && s.halfDuplex p l && (!s.epOn F.epCfg0_HDX p || p ≥ 8)

/-- The mismatch of SGMII shows. -/
def showMismatch (p : Nat) (l : LinkState) (s : State) : State :=
  if s.epIf p = 5 then s.put F.epStat_MISMATCH (b2n (s.mismatches p l)) p else s

/-- The link shows its speed, its duplex and its amplitude, and the port begins idle. -/
def showUp (p : Nat) (l : LinkState) (half : Bool) (s : State) : State :=
  let u := (({ s with fresh := s.fresh + 1 }.put F.epStat_LINK 1 p).put F.epStat_SPEED l.speed p).put F.epStat_HDXA (b2n half) p
  let v := u.put F.epStat_T1LA (b2n (p ≥ 10 && l.t1la && u.epOn F.epCfg0_T1LHI p)) p
  (v.setPort p { lfsr := Config.seed s.fresh, stamps := (v.port p).stamps, cals := (v.port p).cals, eee := l.eee
                 master := l.master, idleFrom := v.tick }).put F.epEvt_LINKCHG 1 p

theorem linkUp_eq (p : Nat) (l : LinkState) (s : State) : linkUp p l s =
    if s.mismatches p l || !(showMismatch p l s).ifSpeed p l.speed
        || (s.halfDuplex p l && !(s.epOn F.epCfg0_HDX p && (showMismatch p l s).ifHalf p l.speed)) then showMismatch p l s
    else startVerify p (showUp p l (s.halfDuplex p l) (showMismatch p l s)) := by
  have hhalf : (if [2, 3, 7].contains (s.epIf p) then s.epOn F.epCfg0_HDX p else l.hdx) = s.halfDuplex p l := by
    simp [State.halfDuplex]
  unfold linkUp
  simp only [hhalf]
  rfl

theorem showMismatch_line (p : Nat) (l : LinkState) (s : State) : (showMismatch p l s).line = s.line := by
  unfold showMismatch
  split
  · exact State.put_line (by decide) ..
  · rfl

theorem linkUp_of_mismatch {p : Nat} {l : LinkState} {s : State} (hif : s.epIf p = 5) (hhdx : l.hdx = true)
    (hoff : s.epOn F.epCfg0_HDX p = false) : linkUp p l s = s.put F.epStat_MISMATCH 1 p := by
  have hbad : s.mismatches p l = true := by simp [State.mismatches, State.halfDuplex, hif, hhdx, hoff]
  rw [linkUp_eq, if_pos (by simp [hbad]), showMismatch, if_pos hif, hbad]
  rfl

theorem linkUp_of_good {p : Nat} {l : LinkState} {s : State} (hspeed : s.ifSpeed p l.speed = true)
    (hhalf : s.halfDuplex p l = true → s.epOn F.epCfg0_HDX p = true ∧ s.ifHalf p l.speed = true)
    (hsgmii : s.epIf p = 5 → s.halfDuplex p l = true → p < 8) :
    linkUp p l s = startVerify p (showUp p l (s.halfDuplex p l) (showMismatch p l s)) := by
  have hline := showMismatch_line p l s
  have hgood : s.mismatches p l = false := by
    simp only [State.mismatches, Bool.and_eq_false_imp, Bool.and_eq_true, decide_eq_true_eq]
    rintro ⟨hif, hdx⟩
    simp [(hhalf hdx).1, hsgmii hif hdx]
  rw [linkUp_eq, ifSpeed_of_line hline, ifHalf_of_line hline]
  refine if_neg ?_
  cases hdx : s.halfDuplex p l with
  | false => simp [hgood, hspeed]
  | true => simp [hgood, hspeed, hhalf hdx]

theorem State.put_epOn {f g : Fld} (hh : F.gcLaystat_HALTER.id ≠ f.id) (hg : g.id ≠ f.id) (s : State) (v i j p : Nat) :
    (s.put f v i j).epOn g p = s.epOn g p := by rw [State.epOn, State.put_epFld hh hg, State.epOn]

/-- What a link that is up shows. -/
theorem showUp_fld (p : Nat) (l : LinkState) (half : Bool) (s : State) : (showUp p l half s).fld F.epStat_LINK p = 1
    ∧ (showUp p l half s).fld F.epStat_SPEED p = l.speed ∧ (showUp p l half s).fld F.epStat_HDXA p = b2n half
    ∧ (showUp p l half s).fld F.epEvt_LINKCHG p = 1 := by
  have hspeed : l.speed.val % 2 ^ F.epStat_SPEED.width = l.speed := Nat.mod_eq_of_lt l.speed.isLt
  have hhalf : b2n half % 2 ^ F.epStat_HDXA.width = b2n half := by cases half <;> rfl
  unfold showUp
  dsimp only
  refine ⟨?_, ?_, ?_, State.put_fld ..⟩
  all_goals rw [State.put_fld_ne _ _ _ _ _ _ _ _ (by decide), State.setPort_fld_get, State.put_fld_ne _ _ _ _ _ _ _ _ (by decide)]
  · rw [State.put_fld_ne _ _ _ _ _ _ _ _ (by decide), State.put_fld_ne _ _ _ _ _ _ _ _ (by decide), State.put_fld]
    rfl
  · rw [State.put_fld_ne _ _ _ _ _ _ _ _ (by decide), State.put_fld, hspeed]
  · rw [State.put_fld, hhalf]

theorem showUp_preempt (p : Nat) (l : LinkState) (half : Bool) (s : State) :
    (showUp p l half s).epOn F.epCfg0_PREEMPT p = s.epOn F.epCfg0_PREEMPT p := by
  unfold showUp
  dsimp only
  rw [State.put_epOn (by decide) (by decide)]
  change State.epOn (State.put _ F.epStat_T1LA _ _) _ _ = _
  rw [State.put_epOn (by decide) (by decide), State.put_epOn (by decide) (by decide), State.put_epOn (by decide) (by decide),
    State.put_epOn (by decide) (by decide)]
  rfl

theorem showUp_port (p : Nat) (l : LinkState) (half : Bool) (s : State) : ((showUp p l half s).port p).eee = l.eee
    ∧ ((showUp p l half s).port p).master = l.master ∧ ((showUp p l half s).port p).tx = none
    ∧ ∀ q, q ≠ p → (showUp p l half s).port q = s.port q := by
  unfold showUp
  dsimp only
  rw [State.put_port_get, State.setPort_port]
  exact ⟨rfl, rfl, rfl, fun q hq => State.setPort_port_ne _ _ _ _ hq⟩

theorem showUp_frame (p : Nat) (l : LinkState) (half : Bool) (s : State) :
    (showUp p l half s).eng = s.eng ∧ (showUp p l half s).loft = s.loft := by
  simp [showUp]

theorem startVerify_fld {g : Fld} (hg : g.id ≠ F.epStat_PVS.id) (p : Nat) (s : State) (i j : Nat) :
    (startVerify p s).fld g i j = s.fld g i j := State.put_fld_ne _ _ _ _ _ _ _ _ hg

/-- Verification starts where the link is up, in full duplex, with PREEMPT. -/
theorem startVerify_pvs {p : Nat} {s : State} (h : s.fld F.epStat_LINK p = 1) : (startVerify p s).fld F.epStat_PVS p
    = if s.epOn F.epCfg0_PREEMPT p && !s.on F.epStat_HDXA p then 1 else 0 := by
  have hlink : s.on F.epStat_LINK p = true := by simp [State.on, h]
  unfold startVerify
  dsimp only
  rw [State.setPort_fld_get, State.put_fld, hlink, Bool.and_true]
  cases s.epOn F.epCfg0_PREEMPT p && !s.on F.epStat_HDXA p <;> rfl

theorem startVerify_port (p : Nat) (s : State) : ((startVerify p s).port p).eee = (s.port p).eee
    ∧ ((startVerify p s).port p).master = (s.port p).master ∧ ((startVerify p s).port p).tx = (s.port p).tx
    ∧ ∀ q, q ≠ p → (startVerify p s).port q = s.port q := by
  unfold startVerify
  dsimp only
  rw [State.setPort_port]
  exact ⟨rfl, rfl, rfl, fun q hq => State.setPort_port_ne _ _ _ _ hq⟩

theorem startVerify_frame (p : Nat) (s : State) : (startVerify p s).eng = s.eng ∧ (startVerify p s).loft = s.loft := ⟨rfl, rfl⟩

theorem showMismatch_frame (p : Nat) (l : LinkState) (s : State) :
    (showMismatch p l s).eng = s.eng ∧ (showMismatch p l s).loft = s.loft := by
  unfold showMismatch
  split
  · exact ⟨rfl, rfl⟩
  · exact ⟨rfl, rfl⟩

/-- A link that comes up shows what it is, starts verification, and leaves the other ports, the engines and the lofts. -/
theorem linkUp_shows {p : Nat} {l : LinkState} {s : State} (hspeed : s.ifSpeed p l.speed = true)
    (hhalf : s.halfDuplex p l = true → s.epOn F.epCfg0_HDX p = true ∧ s.ifHalf p l.speed = true)
    (hsgmii : s.epIf p = 5 → s.halfDuplex p l = true → p < 8) :
    let t := linkUp p l s
    t.fld F.epStat_LINK p = 1 ∧ t.fld F.epStat_SPEED p = l.speed ∧ t.fld F.epStat_HDXA p = (if s.halfDuplex p l then 1 else 0)
      ∧ t.fld F.epEvt_LINKCHG p = 1 ∧ (t.port p).eee = l.eee ∧ (t.port p).master = l.master ∧ (t.port p).tx = none
      ∧ t.fld F.epStat_PVS p = (if s.epOn F.epCfg0_PREEMPT p && !s.halfDuplex p l then 1 else 0)
      ∧ (∀ q, q ≠ p → t.port q = s.port q) ∧ t.eng = s.eng ∧ t.loft = s.loft := by
  dsimp only
  rw [linkUp_of_good hspeed hhalf hsgmii]
  have hline := showMismatch_line p l s
  have hpre := epOn_of_line hline (f := F.epCfg0_PREEMPT) (by decide) p
  have hother := port_of_line hline
  obtain ⟨heng, hloft⟩ := showMismatch_frame p l s
  generalize showMismatch p l s = u at *
  obtain ⟨hlink, hsp, hdx, hchg⟩ := showUp_fld p l (s.halfDuplex p l) u
  have hpre' := showUp_preempt p l (s.halfDuplex p l) u
  obtain ⟨heee, hmaster, htx, hother'⟩ := showUp_port p l (s.halfDuplex p l) u
  obtain ⟨heng', hloft'⟩ := showUp_frame p l (s.halfDuplex p l) u
  generalize showUp p l (s.halfDuplex p l) u = v at *
  have hpvs := startVerify_pvs hlink
  obtain ⟨heee', hmaster', htx', hother''⟩ := startVerify_port p v
  obtain ⟨heng'', hloft''⟩ := startVerify_frame p v
  have hon : v.on F.epStat_HDXA p = s.halfDuplex p l := by
    rw [State.on, hdx]
    cases s.halfDuplex p l <;> rfl
  rw [hon, hpre', hpre] at hpvs
  exact ⟨(startVerify_fld (by decide) ..).trans hlink, (startVerify_fld (by decide) ..).trans hsp,
    (startVerify_fld (by decide) ..).trans hdx, (startVerify_fld (by decide) ..).trans hchg, heee'.trans heee, hmaster'.trans hmaster,
    htx'.trans htx, hpvs, fun q hq => (hother'' q hq).trans ((hother' q hq).trans (hother q)), heng''.trans (heng'.trans heng),
    hloft''.trans (hloft'.trans hloft)⟩

/-! ### The change of a link -/

section
variable {s t : State} {p : Nat} {l : LinkState}

theorem linkChange_of_down (h : l.up = false) : linkChange p l s = linkDown p s := by simp [linkChange, h]

theorem linkChange_of_off (hlink : s.fld F.epStat_LINK p = 0) (hif : s.epIf p = 0) : linkChange p l s = s := by
  simp [linkChange, linkDown_of_down hlink, hif]

/-- A link that is down comes up where its training has leave (R335). -/
theorem linkChange_of_up (h : l.up = true) (hlink : s.fld F.epStat_LINK p = 0) (hif : s.epIf p ≠ 0) :
    linkChange p l s = if (trainLeave p s).1 then linkUp p l (trainLeave p s).2 else (trainLeave p s).2 := by
  simp [linkChange, linkDown_of_down hlink, h, hif]

theorem halfDuplex_of_line (h : t.line = s.line) : t.halfDuplex p l = s.halfDuplex p l := by
  rw [State.halfDuplex, epIf_of_line h, epOn_of_line h (by decide), State.halfDuplex]

end

theorem linksComeAndGo : Stated.LinksComeAndGo := by
  intro s p l h
  have hline := trainLeave_line p s
  refine ⟨fun hdown hlink => ?_, fun hdown hlink => ?_, fun _ hlink hif => ?_, fun hup hlink hif hno => ?_,
    fun hup hlink hif hleave hspeed hhalf hsgmii => ?_, fun hup hlink hif hleave hhdx hoff => ?_⟩
  · exact does_eq_of_linked rfl h ((linkChange_of_down hdown).trans (linkDown_of_down hlink))
  · refine does_of_linked rfl h ?_
    rw [linkChange_of_down hdown, ← offered_length]
    exact linkDown_loses hlink
  · exact does_eq_of_linked rfl h (linkChange_of_off hlink hif)
  · have hstays : linkChange p l s = (trainLeave p s).2 := by simp [linkChange_of_up hup hlink hif, hno]
    refine does_of_linked rfl h ?_
    rw [hstays]
    exact ⟨rfl, (fld_of_line hline (by decide) ..).trans hlink⟩
  · have hcomes : linkChange p l s = linkUp p l (trainLeave p s).2 := by simp [linkChange_of_up hup hlink hif, hleave]
    have heng := trainLeave_eng p s
    have hloft : (trainLeave p s).2.loft = s.loft := congrArg (·.1) (trainLeave_mems p s)
    rw [← ifSpeed_of_line hline] at hspeed
    change s.halfDuplex p l = true → _ at hhalf
    change _ → s.halfDuplex p l = true → _ at hsgmii
    rw [← halfDuplex_of_line hline, ← epOn_of_line hline (by decide), ← ifHalf_of_line hline] at hhalf
    rw [← halfDuplex_of_line hline, ← epIf_of_line hline] at hsgmii
    have hshows := linkUp_shows hspeed hhalf hsgmii
    simp only [halfDuplex_of_line hline, epOn_of_line hline (show F.epCfg0_PREEMPT.id ∈ lineFlds by decide), heng, hloft,
      port_of_line hline] at hshows
    refine does_of_linked rfl h ?_
    rw [hcomes]
    exact hshows
  · have hrefused : linkChange p l s = linkUp p l (trainLeave p s).2 := by
      simp [linkChange_of_up hup hlink (by omega : s.epIf p ≠ 0), hleave]
    refine does_eq_of_linked rfl h (hrefused.trans (linkUp_of_mismatch ?_ hhdx ?_))
    · rw [epIf_of_line hline, hif]
    · rw [epOn_of_line hline (by decide), hoff]

/-- Settles O35: a link that goes down clears its fields and loses what waits, one that comes up with leave shows what it is and starts
verification, and verification and low-power idle are the lemmas above. -/
theorem linksComeGoAndRest : Obligations.LinksComeGoAndRest := ⟨linksComeAndGo, preemptionIsVerified, lowPowerIdleFollowsTheWork⟩

end Sys2Proof.Machine
end

section
/-! What the statements of the last chapters share: where a command ends, events and writes that reach their block, and a queue without a
command. -/

namespace Sys2Proof.Machine
variable {c : Instr} {s u v : State} {P : State → Prop}

/-! ### Where a command ends -/

theorem does_next (he : exec c s = done s u) (hP : P (notify s u)) : Does c s P := ⟨_, he, hP⟩

theorem does_eq (he : exec c s = done s u) (h : u = v) : Does c s fun t => t = notify s v :=
  does_next he (congrArg (notify s) h)

theorem whenApplied_of_applied {f : State → State} (hclk : s.clocksOn = true) (happ : s.applied = true) : whenApplied f s = f s := by
  unfold whenApplied
  rw [if_pos (by rw [hclk, happ]; rfl)]

/-- What an event of a block that lives under a layout does where one is applied. -/
theorem does_of_applied {f : State → State} (he : exec c s = done s (whenApplied f s)) (hclk : s.clocksOn = true)
    (happ : s.applied = true) (hP : P (notify s (f s))) : Does c s P :=
  does_next he (by rwa [whenApplied_of_applied hclk happ])

theorem does_eq_of_applied {f : State → State} (he : exec c s = done s (whenApplied f s)) (hclk : s.clocksOn = true)
    (happ : s.applied = true) (hu : f s = u) : Does c s fun t => t = notify s u :=
  does_of_applied he hclk happ (congrArg (notify s) hu)

/-! ### An idle step -/

/-- Settles O2: with no command in the queue a step is a tick of the clock. -/
theorem emptyQueuePassesATick : Obligations.EmptyQueuePassesATick := by
  intro s hempty
  unfold step
  rw [hempty]
  rfl

end Sys2Proof.Machine
end

section
/-! The statement of the counters of the time unit: the access to a counter, its rate, its steps and the capture of its time. -/

namespace Sys2Proof.Machine
variable {s : State} {w : Who} {i : Nat}

/-! ### Access (R258) -/

theorem tmWrite_of_refused {ok : State → Bool} {f : State → State} (hheard : s.heard w = true)
    (hopen : s.applied = true ∨ s.halter = true) (hok : ok s = false) : tmWrite w ok f s = finish w (denied s) := by
  have hlive : (s.applied || s.on F.gcLaystat_HALTER) = true := by simpa [State.halter] using hopen
  simp [tmWrite, hheard, openTm, hlive, allow, hok]

theorem tmWrite_of_may {ok : State → Bool} {f : State → State} (hheard : s.heard w = true)
    (hopen : s.applied = true ∨ s.halter = true) (hok : ok s = true) : tmWrite w ok f s = finish w { st := f s } := by
  have hlive : (s.applied || s.on F.gcLaystat_HALTER) = true := by simpa [State.halter] using hopen
  simp [tmWrite, hheard, openTm, hlive, allow, hok]

/-! ### Rate (R240) -/

/-- The limit that a rate exceeds is stored in its place. -/
theorem holdInc_eq (i v : Nat) (s : State) : holdInc i v s =
    if v < 17162689315 then (putInc i 17162689315 s).put F.tmEvt_INCLIM 1
    else if 17197049053 < v then (putInc i 17197049053 s).put F.tmEvt_INCLIM 1 else putInc i v s := by
  unfold holdInc incLow incHigh
  split
  · rw [Nat.max_eq_left (by omega), Nat.min_eq_right (by decide), if_neg (by omega)]
  · split
    · rw [Nat.max_eq_right (by omega), Nat.min_eq_left (by omega), if_neg (by omega)]
    · rw [Nat.max_eq_right (by omega), Nat.min_eq_right (by omega), if_pos rfl]

/-! ### Steps (R242, R243) -/

theorem stepWaits_eq_false : s.stepWaits i = false ↔ Tab.get none s.steps i = none := by simp [State.stepWaits]

theorem unlockTc_eq (i : Nat) (s : State) :
    unlockTc i s = if s.tcState i = 1 ∧ Tab.get none s.steps i = none then s.put F.tcStat_STATE 0 i else s := by
  simp [unlockTc, stepWaits_eq_false]

/-- A step is refused outside FREE. -/
theorem stepTc_of_not_free {rel : Bool} (h : s.tcState i ≠ 0) : stepTc i rel s = (s.put F.tcStat_SDISP 9 i).put F.tmEvt_SREF 1 := by
  simp [stepTc, h]

/-- A high pulse that the stepped counter times is to end at the tick after (R255). -/
def cutPulse (i g : Nat) (s : State) : State :=
  if (s.pulse g).high && (s.pulse g).dom == i then
    (s.setPulse g { s.pulse g with endTick := some (s.tick + 1) }).put F.tmEvt_PGMISS 1
  else s

/-- The edges that a step has passed over are counted (R255). -/
def countMisses (g n : Nat) (s : State) : State :=
  if n ≠ 0 then (s.bump F.pgStat_MISS g 0 n).put F.tmEvt_PGMISS 1 else s.bump F.pgStat_MISS g 0 n

/-- What a generator does when counter `i` steps from `old` ns (R255). -/
def stepPulse (i old : Nat) (s : State) (g : Nat) : State :=
  let x := s.pulse g
  let u := cutPulse i g s
  if !u.on F.pgCfg_EN g || u.fld F.pgCfg_TCSEL g ≠ i then u
  else
    let now := u.nsNow i
    let k := if u.fld F.pgPer_PER g = 0 then x.k else u.pgEdge g now
    let v := countMisses g (k - x.k) u
    v.setPulse g { v.pulse g with
      k := k, late := x.late || (v.fld F.pgPer_PER g = 0 && !x.spent && !x.high && old ≤ v.pgStart g && v.pgStart g < now) }

theorem stepPulses_eq (i old : Nat) (s : State) : stepPulses i old s = (List.range 8).foldl (stepPulse i old) s := rfl

/-- The generators touch neither counters nor engines, and of the fields the counts of misses alone. -/
structure PulseKeeps (s t : State) : Prop where
  tc : t.tc = s.tc
  eng : t.eng = s.eng
  steps : t.steps = s.steps
  jumpDue : t.jumpDue = s.jumpDue
  fld : ∀ f i j, f.id ≠ F.pgStat_MISS.id → f.id ≠ F.tmEvt_PGMISS.id → t.fld f i j = s.fld f i j

theorem PulseKeeps.trans {s t u : State} (h : PulseKeeps s t) (k : PulseKeeps t u) : PulseKeeps s u where
  tc := k.tc.trans h.tc
  eng := k.eng.trans h.eng
  steps := k.steps.trans h.steps
  jumpDue := k.jumpDue.trans h.jumpDue
  fld f i j hmiss hev := (k.fld f i j hmiss hev).trans (h.fld f i j hmiss hev)

theorem PulseKeeps.setPulse (g : Nat) (x : PgS) (s : State) : PulseKeeps s (s.setPulse g x) := ⟨rfl, rfl, rfl, rfl, fun _ _ _ _ _ => rfl⟩

theorem PulseKeeps.putMiss (s : State) : PulseKeeps s (s.put F.tmEvt_PGMISS 1) :=
  ⟨rfl, rfl, rfl, rfl, fun _ _ _ _ hev => State.put_fld_ne _ _ _ _ _ _ _ _ hev⟩

theorem PulseKeeps.bumpMiss (g n : Nat) (s : State) : PulseKeeps s (s.bump F.pgStat_MISS g 0 n) :=
  ⟨rfl, rfl, rfl, rfl, fun _ _ _ hmiss _ => State.bump_fld_ne _ _ _ _ _ _ _ _ hmiss⟩

theorem cutPulse_keeps (i g : Nat) (s : State) : PulseKeeps s (cutPulse i g s) := by
  unfold cutPulse
  split
  · exact (PulseKeeps.setPulse ..).trans (.putMiss _)
  · exact ⟨rfl, rfl, rfl, rfl, fun _ _ _ _ _ => rfl⟩

theorem countMisses_keeps (g n : Nat) (s : State) : PulseKeeps s (countMisses g n s) := by
  unfold countMisses
  split
  · exact (PulseKeeps.bumpMiss ..).trans (.putMiss _)
  · exact .bumpMiss ..

theorem stepPulse_keeps (i old : Nat) (s : State) (g : Nat) : PulseKeeps s (stepPulse i old s g) := by
  unfold stepPulse
  dsimp only
  split
  · exact cutPulse_keeps ..
  · exact ((cutPulse_keeps ..).trans (countMisses_keeps ..)).trans (.setPulse ..)

theorem stepPulses_keeps (i old : Nat) (s : State) : PulseKeeps s (stepPulses i old s) := by
  rw [stepPulses_eq]
  generalize List.range 8 = gs
  induction gs generalizing s with
  | nil => exact ⟨rfl, rfl, rfl, rfl, fun _ _ _ _ _ => rfl⟩
  | cons g gs ih => exact (stepPulse_keeps i old s g).trans (ih _)

theorem gateEnter_fld {f : Fld} (hidx : f.id ≠ F.ydGctl_IDX.id) (p n j k : Nat) (s : State) :
    (gateEnter p n s).fld f j k = s.fld f j k := by
  rw [← State.put_fld_ne s F.ydGctl_IDX f n p 0 j k hidx]
  unfold gateEnter
  dsimp only
  split <;> rfl

/-- What the gate lists of a stepped counter do leaves the counters, the steps and the engines. -/
theorem stepGates_frame (i : Nat) (s : State) :
    let t := stepGates i s
    t.tc = s.tc ∧ t.eng = s.eng ∧ t.steps = s.steps ∧ t.jumpDue = s.jumpDue := by
  have hkeeps := foldl_part (p := fun s : State => (s.tc, s.eng, s.steps, s.jumpDue)) (f := fun s p =>
    let x := Tab.get {} s.yard.gate p
    if x.oper = [] || x.dom ≠ i || x.cyc = 0 then s else gateEnter p (gateIdx x.oper (s.gatePos x) 0) s) (fun s p => by
      dsimp only [gateEnter]
      split_ifs <;> rfl) (List.range 17) s
  simpa [stepGates] using hkeeps

theorem stepGates_fld {f : Fld} (hidx : f.id ≠ F.ydGctl_IDX.id) (i j k : Nat) (s : State) :
    (stepGates i s).fld f j k = s.fld f j k := by
  refine foldl_part (p := fun s : State => s.fld f j k) (fun s p => ?_) _ _
  dsimp only
  split
  · rfl
  · rw [gateEnter_fld hidx]

/-- Counter `i` shows its new time, and the step is counted. -/
def stepShown (i : Nat) (x : TCnt) (s : State) : State :=
  let u : State := { s.setCtr i x with steppedAt := Tab.set 0 s.steppedAt i (s.tick + 1) }
  let u := (u.put F.tcStat_SCNT (u.fld F.tcStat_SCNT i + 1) i).put F.tmEvt_STEP 1
  if i = 0 then { u with jumpDue := true, pd := { u.pd with cutNs := u.nsNow 0, cutTick := u.tick, cut := true } } else u

theorem stepCounter_eq (i : Nat) (x : TCnt) (s : State) :
    stepCounter i x s = stepGates i (stepPulses i (s.nsNow i) (stepShown i x s)) := rfl

theorem stepShown_frame (i : Nat) (x : TCnt) (s : State) :
    let t := stepShown i x s
    t.tc = Tab.set {} s.tc i x ∧ t.eng = s.eng ∧ t.steps = s.steps ∧ (i = 0 → t.jumpDue = true) := by
  unfold stepShown
  dsimp only
  split
  · exact ⟨rfl, rfl, rfl, fun _ => rfl⟩
  · rename_i h
    exact ⟨rfl, rfl, rfl, fun h0 => absurd h0 h⟩

theorem stepShown_act (i : Nat) (x : TCnt) (s : State) :
    (stepShown i x s).act = ((s.put F.tcStat_SCNT (s.fld F.tcStat_SCNT i + 1) i).put F.tmEvt_STEP 1).act := by
  unfold stepShown
  dsimp only
  split <;> rfl

theorem fld_of_act {s t : State} (h : t.act = s.act) (f : Fld) (i j : Nat) : t.fld f i j = s.fld f i j := by
  unfold State.fld
  rw [h]

theorem ctr_of_tc {s t : State} (h : t.tc = s.tc) (j : Nat) : t.ctr j = s.ctr j := by
  unfold State.ctr
  rw [h]

/-- A step that takes effect shows the new time, is counted, and leaves the other counters and the engines. -/
theorem stepCounter_spec (i : Nat) (x : TCnt) (s : State) :
    let t := stepCounter i x s
    t.ctr i = x ∧ t.fld F.tcStat_SCNT i = (s.fld F.tcStat_SCNT i + 1) % 2 ^ F.tcStat_SCNT.width ∧ t.fld F.tmEvt_STEP = 1
      ∧ (i = 0 → t.jumpDue = true) ∧ (∀ j, j ≠ i → t.ctr j = s.ctr j) ∧ t.eng = s.eng ∧ t.steps = s.steps := by
  dsimp only
  rw [stepCounter_eq]
  have hp := stepPulses_keeps i (s.nsNow i) (stepShown i x s)
  obtain ⟨htc, heng, hsteps, hjump⟩ := stepGates_frame i (stepPulses i (s.nsNow i) (stepShown i x s))
  obtain ⟨htc', heng', hsteps', hjump'⟩ := stepShown_frame i x s
  have hfld : ∀ f : Fld, f.id ≠ F.ydGctl_IDX.id → f.id ≠ F.pgStat_MISS.id → f.id ≠ F.tmEvt_PGMISS.id → ∀ j,
      (stepGates i (stepPulses i (s.nsNow i) (stepShown i x s))).fld f j
        = ((s.put F.tcStat_SCNT (s.fld F.tcStat_SCNT i + 1) i).put F.tmEvt_STEP 1).fld f j := fun f h1 h2 h3 j =>
    (stepGates_fld h1 ..).trans ((hp.fld f j 0 h2 h3).trans (fld_of_act (stepShown_act i x s) f j 0))
  have hctr : ∀ j, (stepGates i (stepPulses i (s.nsNow i) (stepShown i x s))).ctr j = (s.setCtr i x).ctr j := fun j =>
    ctr_of_tc (htc.trans (hp.tc.trans htc')) j
  refine ⟨?_, ?_, ?_, fun h => ?_, fun j hj => ?_, heng.trans (hp.eng.trans heng'), hsteps.trans (hp.steps.trans hsteps')⟩
  · rw [hctr, State.setCtr_ctr]
  · rw [hfld _ (by decide) (by decide) (by decide), State.put_fld_ne _ _ _ _ _ _ _ _ (by decide), State.put_fld]
  · rw [hfld _ (by decide) (by decide) (by decide), State.put_fld]
    rfl
  · rw [hjump, hp.jumpDue, hjump' h]
  · rw [hctr, State.setCtr_ctr_ne _ _ _ _ hj]

/-- A step whose tick has come takes effect. -/
theorem applyStep_of_due {x : Nat} {rel : Bool} {c : TCnt} {am : Int} (h : Tab.get none s.steps i = some (x, rel, c, am))
    (hx : x ≤ s.tick) : applyStep i s = stepCounter i (if rel then tcntOf ((s.total i : Int) + am * 2 ^ 32).toNat else c)
      { s with steps := Tab.set none s.steps i none } := by
  unfold applyStep
  simp only [h, passTo_of_past hx]
  rfl

theorem applyStep_of_none (h : Tab.get none s.steps i = none) : applyStep i s = s := by
  unfold applyStep
  simp only [h]

/-- A step to a time is scheduled for the second tick where the counter is free and the time is one it can show. -/
theorem stepTc_of_free (hfree : s.tcState i = 0) (hnone : Tab.get none s.steps i = none) (hservo : s.servoOn i = false)
    (hns : s.fld F.tcStepns_NS i ≤ 999999999)
    (hmax : s.fld F.tcStepsec_SEC i * 1000000000 + s.fld F.tcStepns_NS i ≤ (2 ^ 48 - 1) * 1000000000) :
    stepTc i false s =
      (({ s with steps := Tab.set none s.steps i (some (s.tick + 2, false, ⟨s.fld F.tcStepsec_SEC i, s.fld F.tcStepns_NS i, 0⟩,
          toSigned 48 (s.fld F.tcStepsec_SEC i) * 1000000000 + s.fld F.tcStepns_NS i)) } : State).put F.tcStat_STATE 1 i).put
        F.tcStat_SDISP 0 i := by
  unfold stepTc
  dsimp only
  rw [if_pos]
  simp only [hfree, stepWaits_eq_false.2 hnone, hservo, hns, Bool.and_eq_true, decide_eq_true_eq, Bool.not_false, and_true, true_and,
    Bool.false_eq_true, if_false]
  constructor
  · exact Int.mul_nonneg (Int.natCast_nonneg _) (by norm_num)
  · exact Int.mul_le_mul_of_nonneg_right (Int.ofNat_le.2 hmax) (by norm_num)

/-! ### The statement -/

/-- Settles O44: a write reaches its counter's operation where its writer may steer it; a rate is held to its limits, and a step waits for
its tick and then moves that counter alone. -/
theorem countersAreSteered : Obligations.CountersAreSteered := by
  intro s w i hheard hopen
  refine ⟨fun hmay v a b => ⟨?_, ?_, ?_⟩, fun hmay => ⟨fun v => ?_, ?_, fun unlock rel hbusy hkeep => ?_, ?_⟩, fun hnone => ?_,
    fun x rel c am hdue hx => ?_, fun hsup => ?_⟩
  · exact does_eq rfl (tmWrite_of_refused hheard hopen hmay)
  · exact does_eq rfl (tmWrite_of_refused hheard hopen hmay)
  · exact does_eq rfl (tmWrite_of_refused hheard hopen hmay)
  · refine does_eq rfl ((tmWrite_of_may hheard hopen hmay).trans ?_)
    rw [writeInc, holdInc_eq]
  · refine does_eq rfl ((tmWrite_of_may hheard hopen hmay).trans ?_)
    rw [writeTcCtl, unlockTc_eq]
    rfl
  · refine does_eq rfl ((tmWrite_of_may hheard hopen hmay).trans ?_)
    have hstays : (if unlock then unlockTc i s else s) = s := by
      rw [unlockTc_eq]
      cases unlock
      · rfl
      · rw [if_pos rfl, if_neg fun h => hkeep ⟨rfl, h⟩]
    rw [writeTcCtl, hstays]
    exact congrArg (fun u => finish w { st := u }) (stepTc_of_not_free hbusy)
  · intro sec ns hfree hnone hservo hns hmax
    refine does_eq rfl ((tmWrite_of_may hheard hopen hmay).trans ?_)
    exact congrArg (fun u => finish w { st := u }) (stepTc_of_free hfree hnone hservo hns hmax)
  · exact does_eq rfl (applyStep_of_none hnone)
  · refine does_next rfl ?_
    rw [applyStep_of_due hdue hx]
    generalize (if rel then tcntOf ((s.total i : Int) + am * 2 ^ 32).toNat else c) = y
    obtain ⟨hctr, hcount, hstep, hjump, hother, heng, hsteps⟩ :=
      stepCounter_spec i y { s with steps := Tab.set none s.steps i none }
    simp only [State.notify_ctr_get, State.notify_fld_get, State.notify_jumpDue, State.notify_eng, State.notify_steps, hsteps]
    exact ⟨hctr, Tab.get_set_same .., hcount, hstep, hjump, hother, heng⟩
  · exact does_eq rfl (tmWrite_of_may hheard hopen hsup)

end Sys2Proof.Machine
end

section
/-! What the services of the part leave of a state: the memories that are read and written, the log, the Ostler's leave, a stable's wake, and
the time that passes. They touch neither the yard nor the field buses, the pins or the host ports. -/

namespace Sys2Proof.Machine

/-! ### What the services leave -/

/-- The fields that the services write: the counts of the memories, the log, the Ostler and the deferred tasks, and the second count. -/
def serviceFlds : List Nat :=
  [F.stMemerr_CE.id, F.stMemerr_UE.id, F.stMemerr_PWPOIS.id, F.mgMemerr_CE.id, F.mgMemerr_UE.id, F.mgMemerr_PWPOIS.id,
   F.mbMemerr_CE.id, F.mbMemerr_UE.id, F.mbMemerr_PWPOIS.id, F.stMemlog_WHERE.id, F.stMemlog_ENGINE.id, F.stMemlog_POIS.id,
   F.stMemlog_SYN.id, F.stMemlog_VALID.id, F.stMemlog_ADDR.id, F.faHealth_LOGDROP.id, F.pwOcnt_GRANT.id, F.pwOcnt_DEFER.id,
   F.stCnt2_DEFER.id, F.fnStatus_OVERQ.id, F.fnStatus_OVQEV.id, F.stDqstat_WAKEP.id, F.pwKsec_SEC.id]

/-- What is left of the boot, the twin unit and the power path without what the services count there. -/
def BootS.still (b : BootS) : BootS := { b with telCe := 0, telUe := 0, logAt := 0, logTokens := 0, logWait := [], erCnt := [] }
def TwS.still (x : TwS) : TwS := { x with ueSeen := false }
def PwS.still (x : PwS) : PwS := { x with grants := [], queue := [], nextId := 0, lastWake := none }

/-- The parts of a state that the services leave. -/
def State.still (s : State) :=
  ((s.yard, s.ports, s.pg, s.sv, s.refs, s.steps, s.steppedAt, s.pd, s.can, s.pm, s.pins, s.pinPast, s.flagAt),
   (s.host, s.out, s.shd, s.cap, s.lay, s.heldGo, s.tkBase, s.rgn, s.pairs, s.ic, s.lastInst, s.seenInst, s.jumpDue),
   (s.boot.still, s.tw.still, s.pw.still))

/-- State `t` differs from `s` by the work of services alone. -/
structure Steady (s t : State) : Prop where
  still : t.still = s.still
  fld : ∀ f : Fld, f.id ∉ serviceFlds → ∀ i j, t.fld f i j = s.fld f i j

namespace Steady
variable {s t u : State}

theorem refl (s : State) : Steady s s := ⟨rfl, fun _ _ _ _ => rfl⟩

theorem trans (h : Steady s t) (k : Steady t u) : Steady s u :=
  ⟨k.still.trans h.still, fun f hf i j => (k.fld f hf i j).trans (h.fld f hf i j)⟩

theorem of_still (h : (t.still, t.act) = (s.still, s.act)) : Steady s t :=
  ⟨congrArg (·.1) h, fun f _ i j => fld_of_act (congrArg (·.2) h) f i j⟩

theorem put (h : Steady s t) {f : Fld} (hf : f.id ∈ serviceFlds) (v i j : Nat) : Steady s (t.put f v i j) :=
  h.trans ⟨rfl, fun _ hg _ _ => State.put_fld_ne _ _ _ _ _ _ _ _ fun e => hg (e ▸ hf)⟩

theorem bump (h : Steady s t) {f : Fld} (hf : f.id ∈ serviceFlds) (i j n : Nat) : Steady s (t.bump f i j n) := h.put hf ..

theorem foldl {α : Type} {f : State → α → State} (h : Steady s t) (hf : ∀ s x, Steady s (f s x)) (l : List α) :
    Steady s (l.foldl f t) := by
  induction l generalizing t with
  | nil => exact h
  | cons x l ih => exact ih (h.trans (hf t x))

theorem of_ite {c : Prop} [Decidable c] (ht : Steady s t) (hu : Steady s u) : Steady s (if c then t else u) := by
  split
  · exact ht
  · exact hu

theorem setE (h : Steady s t) (n : Nat) (x : Eng) : Steady s (t.setE n x) := h.trans (of_still rfl)
theorem setSt (h : Steady s t) (n : Nat) (x : Stb) : Steady s (t.setSt n x) := h.trans (of_still rfl)
theorem setFn (h : Steady s t) (n : Nat) (x : FnS) : Steady s (t.setFn n x) := h.trans (of_still rfl)
theorem setCtr (h : Steady s t) (n : Nat) (x : TCnt) : Steady s (t.setCtr n x) := h.trans (of_still rfl)
theorem setDir (h : Steady s t) (k d : Nat) (x : DirS) : Steady s (t.setDir k d x) := h.trans (of_still rfl)

/-! What is left, part by part. -/

theorem yard (h : Steady s t) : t.yard = s.yard := congrArg (·.1.1) h.still
theorem ports (h : Steady s t) : t.ports = s.ports := congrArg (·.1.2.1) h.still
theorem pd (h : Steady s t) : t.pd = s.pd := congrArg (·.1.2.2.2.2.2.2.2.1) h.still
theorem can (h : Steady s t) : t.can = s.can := congrArg (·.1.2.2.2.2.2.2.2.2.1) h.still
theorem pm (h : Steady s t) : t.pm = s.pm := congrArg (·.1.2.2.2.2.2.2.2.2.2.1) h.still
theorem pins (h : Steady s t) : t.pins = s.pins := congrArg (·.1.2.2.2.2.2.2.2.2.2.2.1) h.still
theorem host (h : Steady s t) : t.host = s.host := congrArg (·.2.1.1) h.still
theorem out (h : Steady s t) : t.out = s.out := congrArg (·.2.1.2.1) h.still
theorem lay (h : Steady s t) : t.lay = s.lay := congrArg (·.2.1.2.2.2.2.1) h.still
theorem tkBase (h : Steady s t) : t.tkBase = s.tkBase := congrArg (·.2.1.2.2.2.2.2.2.1) h.still
theorem boot (h : Steady s t) : t.boot.still = s.boot.still := congrArg (·.2.2.1) h.still
theorem tw (h : Steady s t) : t.tw.still = s.tw.still := congrArg (·.2.2.2.1) h.still

theorem on (h : Steady s t) {f : Fld} (hf : f.id ∉ serviceFlds) (i j : Nat) : t.on f i j = s.on f i j := by
  unfold State.on
  rw [h.fld f hf]

theorem clocksOn (h : Steady s t) : t.clocksOn = s.clocksOn := by
  have hphase : t.boot.still.phase = s.boot.still.phase := congrArg BootS.phase h.boot
  change t.boot.phase = s.boot.phase at hphase
  unfold State.clocksOn
  rw [hphase]

end Steady

/-! ### The memories and the log (R144, R147, R352) -/

theorem eraseSector_steady (n : Nat) (s : State) : Steady s (eraseSector n s) := .of_still rfl

theorem writeRecord_steady (w : Word) (ws : List Nat) (s : State) : Steady s (writeRecord w ws s) := by
  have herased : Steady s (logErased s) := .of_ite (.trans (.of_ite (eraseSector_steady _ s) (.refl s)) (eraseSector_steady ..)) (.refl s)
  unfold writeRecord
  extract_lets r sec nxt t body all u
  obtain ⟨x, hx⟩ := foldl_setFlash_eq (fun i => 512 * sec + 8 * (r % 64) + i) (fun i => BitVec.ofNat 64 (all.getD i 0).toNat)
    (List.range 8) t
  have hu : u = { t with flash := x } := hx
  rw [hu]
  exact herased.trans (.of_still rfl)

theorem logRecord_steady (typ : Nat) (ws : List Nat) (s : State) : Steady s (logRecord typ ws s) := by
  unfold logRecord
  dsimp only
  refine .of_ite ((Steady.refl s).bump (by decide) ..) (.of_ite ?_ (.of_ite (.of_still rfl) ?_))
  · refine .trans (Steady.bump ?_ (by decide) ..) (writeRecord_steady ..)
    exact .of_still rfl
  · refine Steady.bump ?_ (by decide) ..
    exact .of_still rfl

theorem setRaw_steady {a : SramWord} (ha : inMemory a = true) (v : Stored) (s : State) : Steady s (s.setRaw a v) := by
  cases a with
  | mbq => cases ha
  | cell => cases ha
  | _ => exact .of_still rfl

theorem countCE_steady (a : SramWord) (s : State) : Steady s (countCE a s) := by
  have hboot : Steady s { s with boot := { s.boot with telCe := s.boot.telCe + 1 } } := .of_still rfl
  unfold countCE
  dsimp only
  split
  · exact hboot.bump (by decide) ..
  · split
    · exact hboot.bump (by decide) ..
    · exact hboot.bump (by decide) ..
    · exact hboot

theorem memLog_steady (n wh eng a : Nat) (syn : BitVec 8) (s : State) : Steady s (memLog n wh eng a syn s) :=
  ((((((Steady.refl s).put (by decide) ..).put (by decide) ..).put (by decide) ..).put (by decide) ..).put (by decide) ..).put
    (by decide) ..

theorem countUE_steady (a : SramWord) (y : BitVec 8) (s : State) : Steady s (countUE a y s) := by
  unfold countUE
  extract_lets b w t
  have ht : Steady s t := .of_still rfl
  split
  · exact ((ht.bump (by decide) ..).trans (memLog_steady ..)).trans (logRecord_steady ..)
  · split
    · exact (ht.bump (by decide) ..).trans (logRecord_steady ..)
    · exact (ht.bump (by decide) ..).trans (logRecord_steady ..)
    · exact ht.trans (logRecord_steady ..)

theorem countPW_steady (a : SramWord) (s : State) : Steady s (countPW a s) := by
  unfold countPW
  split
  · exact (Steady.refl s).bump (by decide) ..
  · split
    · exact (Steady.refl s).bump (by decide) ..
    · exact (Steady.refl s).bump (by decide) ..
    · exact .refl _

theorem memRead_steady (a : SramWord) (s : State) : Steady s (memRead a s).2 := by
  unfold memRead
  split
  · exact .refl s
  · exact countCE_steady ..
  · exact countUE_steady ..

theorem memUpdate_steady {a : SramWord} (ha : inMemory a = true) (f : Word → Word) (s : State) : Steady s (memUpdate a f s).2 := by
  unfold memUpdate memRead
  cases readCode (s.raw a) with
  | ok w => exact setRaw_steady ha ..
  | ce w => exact (countCE_steady a s).trans (setRaw_steady ha ..)
  | ue w y => exact (countUE_steady a y s).trans (countPW_steady ..)

/-! ### Time passes (R124, R144, R212, R352) -/

theorem noteOverq_steady (f : Nat) (s t : State) : Steady t (noteOverq f s t) := by
  rcases noteOverq_cases f s t with h | h <;> rw [h]
  · exact .refl t
  · exact (Steady.refl t).put (by decide) ..

theorem deferTask_steady (f n : Nat) (s : State) : Steady s (deferTask f n s) := by
  unfold deferTask
  exact .of_ite ((((Steady.refl s).bump (by decide) ..).put (by decide) ..).trans (noteOverq_steady ..)) (.refl s)

theorem holdCapped_steady (f : Nat) (s : State) : Steady s (holdCapped f s) :=
  .foldl (.refl s) (fun s n => deferTask_steady f n s) _

theorem engineTime_steady (n : Nat) (s : State) : Steady s (engineTime n s) := by
  refine .foldl (.refl s) (fun s e => ?_) _
  extract_lets x was y t
  have ht : Steady s t := ((Steady.refl s).setE ..).setFn ..
  exact .of_ite (ht.trans (holdCapped_steady ..)) ht

theorem noteIdle_steady (s : State) : Steady s (noteIdle s) :=
  .foldl (.refl s) (fun s _ => .of_ite (.of_ite ((Steady.refl s).setSt ..) (.refl s)) (.of_ite ((Steady.refl s).setSt ..) (.refl s))) _

theorem onDesc_steady (k d : Nat) (x : RFrame) (g : Nat) (f : Nat → Nat) (s : State) : Steady s (onDesc k d x g f s) := by
  unfold onDesc
  split
  · exact .refl s
  · exact .of_ite (memUpdate_steady rfl ..) (.refl s)

theorem arriveWord_steady (k d : Nat) (x : RFrame) (i : Nat) (s : State) : Steady s (arriveWord k d x i s) := by
  unfold arriveWord
  exact Steady.trans (setRaw_steady rfl ..) (onDesc_steady ..)

theorem settleDir_steady (k d : Nat) (s : State) : Steady s (settleDir k d s) := by
  refine .foldl (.refl s) (fun s n => ?_) _
  split
  · exact .refl s
  · exact .of_ite (.refl s) (.trans (.foldl (.refl s) (fun _ _ => arriveWord_steady ..) _) ((Steady.refl _).setDir ..))

theorem settleAll_steady (s : State) : Steady s (settleAll s) :=
  .of_ite (.refl s) (.foldl (.refl s) (fun _ _ => settleDir_steady ..) _)

theorem passTicks_steady (n : Nat) (s : State) : Steady s (passTicks n s) := by
  unfold passTicks
  refine .of_ite (.refl s) ?_
  extract_lets t secs b u v
  have ht : Steady s t := .of_ite (noteIdle_steady s) (.refl s)
  have hu : Steady s u := ht.trans (.of_still rfl)
  have hv : Steady s v := .of_ite hu (hu.bump (by decide) ..)
  refine .of_ite (hv.trans ?_) hv
  refine .trans ?_ (settleAll_steady _)
  refine .trans ?_ (engineTime_steady n _)
  exact .foldl (.refl v) (fun s _ => (Steady.refl s).setCtr ..) _

theorem passTo_steady (n : Nat) (s : State) : Steady s (passTo n s) := passTicks_steady ..

theorem passUntil_steady (i v : Nat) (s : State) : Steady s (passUntil i v s) := passTicks_steady ..

end Sys2Proof.Machine
end

section
/-! The statement of the gate lists and the launch queues. -/

namespace Sys2Proof.Machine
variable {s t : State} {p : Nat}

/-! ### An entry of a gate list takes effect (R235) -/

@[simp] theorem setGate_gateS (s : State) (p : Nat) (x : GateS) : (s.setGate p x).gateS p = x := Tab.get_set_same ..

theorem gateS_of_yard (h : t.yard = s.yard) (p : Nat) : t.gateS p = s.gateS p := by
  unfold State.gateS
  rw [h]

/-- The list of entries of a port is made of fields that are committed (R235). -/
theorem gclOf_of_steady (h : Steady s t) (p : Nat) : t.gclOf p = s.gclOf p := by
  simp only [State.gclOf, State.eff, h.lay, h.fld F.ydGctl_LEN (by decide), h.fld F.ydGcl_GATES (by decide),
    h.fld F.ydGcl_OP (by decide), h.fld F.ydGcl_INTERVAL (by decide)]

/-- What the hold of preemptable traffic becomes with an entry. -/
theorem holdOf_eq (op : Nat) (h : Bool) :
    (if op = 1 then true else if op = 2 then false else h) = (match op with | 1 => true | 2 => false | _ => h) := by
  match op with
  | 0 => rfl
  | 1 => rfl
  | 2 => rfl
  | n + 3 => rfl

/-- The entry that takes effect gives the gates and the hold, and IDX shows it. -/
theorem gateEnter_gateS (p k : Nat) (s : State) : (gateEnter p k s).gateS p =
    { s.gateS p with
      idx := k, gates := ((s.gateS p).oper.getD k (0, 0, 0)).1
      hold := match ((s.gateS p).oper.getD k (0, 0, 0)).2.1 with | 1 => true | 2 => false | _ => (s.gateS p).hold } := by
  rw [← holdOf_eq]
  unfold gateEnter
  exact Tab.get_set_same ..

theorem gateEnter_act (p k : Nat) (s : State) : (gateEnter p k s).act = (s.put F.ydGctl_IDX k p).act := by
  unfold gateEnter
  dsimp only
  split <;> rfl

theorem gateEnter_idx (p k : Nat) (s : State) : (gateEnter p k s).fld F.ydGctl_IDX p = k % 2 ^ F.ydGctl_IDX.width :=
  (fld_of_act (gateEnter_act p k s) ..).trans (State.put_fld ..)

theorem gateEnter_gclOf (p k q : Nat) (s : State) : (gateEnter p k s).gclOf q = s.gclOf q := by
  have hlay : (gateEnter p k s).lay = s.lay := by
    unfold gateEnter
    dsimp only
    split <;> rfl
  simp only [State.gclOf, State.eff, hlay, gateEnter_fld (f := F.ydGctl_LEN) (by decide), gateEnter_fld (f := F.ydGcl_GATES) (by decide),
    gateEnter_fld (f := F.ydGcl_OP) (by decide), gateEnter_fld (f := F.ydGcl_INTERVAL) (by decide)]

/-! ### Cycles (R235) -/

/-- The list that port `p`'s registers hold is the operating one, by counter `dom`. -/
def gateStarts (p dom : Nat) (u : State) : State :=
  gateEnter p 0 (((u.put F.ydGctl_PEND 0 p).put F.ydGctl_OPER 1 p).setGate p
    { u.gateS p with oper := u.gclOf p, base := u.fld F.ydGbase0_SEC p * 1000000000 + u.fld F.ydGbase1_NS p
                     cyc := u.fld F.ydGcyc_CYC p, dom := dom })

theorem gateCycle_of_pending (hpend : s.fld F.ydGctl_PEND p ≠ 0) (hidle : (s.gateS p).oper = [] ∨ (s.gateS p).cyc = 0) :
    ∃ dom u, Steady s u ∧ gateCycle p s = gateStarts p dom u := by
  have hruns : ((s.gateS p).oper != [] && (s.gateS p).cyc != 0) = false := by rcases hidle with h | h <;> simp [h]
  have hon : s.on F.ydGctl_PEND p = true := by simpa [State.on] using hpend
  unfold gateCycle
  simp only [hruns, hon, Bool.false_and, Bool.not_false, Bool.and_self, if_true]
  exact ⟨_, _, passUntil_steady .., rfl⟩

theorem gateCycle_of_running (hpend : s.fld F.ydGctl_PEND p = 0) (hoper : (s.gateS p).oper ≠ []) (hcyc : (s.gateS p).cyc ≠ 0) :
    ∃ u, Steady s u ∧ gateCycle p s = gateEnter p 0 u := by
  have hon : s.on F.ydGctl_PEND p = false := by simp [State.on, hpend]
  have hruns : ((s.gateS p).oper != [] && (s.gateS p).cyc != 0) = true := by simp [hoper, hcyc]
  unfold gateCycle
  simp only [hruns, hon, Bool.false_and, Bool.false_eq_true, if_false, if_true]
  exact ⟨_, passUntil_steady .., rfl⟩

theorem gateCycle_of_none (hpend : s.fld F.ydGctl_PEND p = 0) (hoper : (s.gateS p).oper = []) : gateCycle p s = s := by
  simp [gateCycle, State.on, hpend, hoper]

theorem gateChange_of_last (h : (gateSegs (s.gateS p).oper 0 (s.gateS p).cyc).length ≤ (s.gateS p).idx + 1) : gateChange p s = s := by
  simp [gateChange, h]

theorem gateChange_of_next (h : (s.gateS p).idx + 1 < (gateSegs (s.gateS p).oper 0 (s.gateS p).cyc).length) :
    ∃ u, Steady s u ∧ gateChange p s = gateEnter p ((s.gateS p).idx + 1) u := by
  unfold gateChange
  dsimp only
  rw [if_neg (by omega)]
  exact ⟨_, passUntil_steady .., rfl⟩

/-- The pending list that starts is what the port's registers hold, from its first entry. -/
theorem gateStarts_spec {u : State} (hsteady : Steady s u) (p dom : Nat) :
    let t := gateStarts p dom u
    t.fld F.ydGctl_PEND p = 0 ∧ t.fld F.ydGctl_OPER p = 1 ∧ t.fld F.ydGctl_IDX p = 0 ∧ (t.gateS p).oper = t.gclOf p
      ∧ (t.gateS p).gates = ((t.gclOf p).headD (0, 0, 0)).1 ∧ (t.gateS p).idx = 0 ∧ (t.gateS p).cyc = s.fld F.ydGcyc_CYC p := by
  unfold gateStarts
  dsimp only
  generalize hv : (((u.put F.ydGctl_PEND 0 p).put F.ydGctl_OPER 1 p).setGate p _ : State) = v
  have hgate : v.gateS p = { u.gateS p with
      oper := u.gclOf p, base := u.fld F.ydGbase0_SEC p * 1000000000 + u.fld F.ydGbase1_NS p
      cyc := u.fld F.ydGcyc_CYC p, dom := dom } := by rw [← hv, setGate_gateS]
  have hfld : ∀ f i j, v.fld f i j = ((u.put F.ydGctl_PEND 0 p).put F.ydGctl_OPER 1 p).fld f i j := by
    intro f i j
    rw [← hv]
    rfl
  have hlist : ∀ f i j, f.id ≠ F.ydGctl_PEND.id → f.id ≠ F.ydGctl_OPER.id → v.fld f i j = u.fld f i j := fun f i j h1 h2 => by
    rw [hfld, State.put_fld_ne _ _ _ _ _ _ _ _ h2, State.put_fld_ne _ _ _ _ _ _ _ _ h1]
  have hgcl : v.gclOf p = u.gclOf p := by
    have hlay : v.lay = u.lay := by rw [← hv]; rfl
    simp only [State.gclOf, State.eff, hlay, hlist F.ydGctl_LEN _ _ (by decide) (by decide),
      hlist F.ydGcl_GATES _ _ (by decide) (by decide), hlist F.ydGcl_OP _ _ (by decide) (by decide),
      hlist F.ydGcl_INTERVAL _ _ (by decide) (by decide)]
  have hhead (l : List (Nat × Nat × Nat)) : l.getD 0 (0, 0, 0) = l.headD (0, 0, 0) := by cases l <;> rfl
  refine ⟨?_, ?_, gateEnter_idx p 0 v, ?_, ?_, ?_, ?_⟩
  · rw [gateEnter_fld (by decide), hfld, State.put_fld_ne _ _ _ _ _ _ _ _ (by decide), State.put_fld, Nat.zero_mod]
  · rw [gateEnter_fld (by decide), hfld, State.put_fld]
    decide
  · rw [gateEnter_gateS, gateEnter_gclOf, hgate, hgcl]
  · rw [gateEnter_gateS, gateEnter_gclOf, hgate, hgcl, ← hhead]
  · rw [gateEnter_gateS]
  · rw [gateEnter_gateS, hgate]
    exact hsteady.fld _ (by decide) ..

/-! ### Launch queues (R256) -/

/-- The head of the launch queue may be sent; one that is late is counted (R256). -/
def launched (p id : Nat) (late : Bool) (u : State) : State :=
  let u := if late then (u.bump F.tmLq_LATE p).put F.tmEvt_LQLATE 1 else u
  { u with yard := { u.yard with due := Tab.set 0 u.yard.due p (id + 1) } }

theorem launchEligible_of_head {q : QEnt} {rest : List QEnt} {x : YFrame} (hq : s.launchQ p = q :: rest)
    (hx : s.frame q.id = some x) (hdue : Tab.get 0 s.yard.due p = 0) :
    ∃ u, Steady s u ∧ launchEligible p s = launched p q.id (0 < sdiff 48 (s.launchNow p) x.ltime) u := by
  have hsteady := passUntil_steady (s.fld F.epCfg0_TSDOM p)
    (((s.nsNow (s.fld F.epCfg0_TSDOM p) : Int) - sdiff 48 (s.launchNow p) x.ltime).toNat * 2 ^ 32) s
  unfold launchEligible launched
  simp only [hq, hx, hdue, ne_eq, not_true_eq_false, if_false, decide_eq_true_eq, gt_iff_lt]
  generalize passUntil _ _ s = u at hsteady ⊢
  exact ⟨u, hsteady, rfl⟩

theorem launched_yard {u : State} (h : Steady s u) (p id : Nat) (late : Bool) :
    (launched p id late u).yard = { s.yard with due := Tab.set 0 s.yard.due p (id + 1) } := by
  rw [← h.yard]
  cases late <;> rfl

theorem launched_late {u : State} (h : Steady s u) (p id : Nat) :
    (launched p id true u).fld F.tmLq_LATE p = min (s.fld F.tmLq_LATE p + 1) (2 ^ F.tmLq_LATE.width - 1)
      ∧ (launched p id true u).fld F.tmEvt_LQLATE = 1 := by
  have hact : (launched p id true u).act = ((u.bump F.tmLq_LATE p).put F.tmEvt_LQLATE 1).act := rfl
  rw [fld_of_act hact, fld_of_act hact, State.put_fld_ne _ _ _ _ _ _ _ _ (by decide), State.bump_fld, State.put_fld, h.fld _ (by decide)]
  exact ⟨rfl, by decide⟩

theorem launched_in_time {u : State} (h : Steady s u) (p id : Nat) :
    (launched p id false u).fld F.tmLq_LATE p = s.fld F.tmLq_LATE p := h.fld _ (by decide) ..

/-- The frame that may be sent is noted, and stays in its queue. -/
theorem launched_queue {u : State} (h : Steady s u) (p id : Nat) (late : Bool) :
    Tab.get 0 (launched p id late u).yard.due p = id + 1 ∧ (launched p id late u).launchQ p = s.launchQ p := by
  unfold State.launchQ
  rw [launched_yard h]
  dsimp only
  exact ⟨Tab.get_set_same .., rfl⟩

theorem notify_gateS (s u : State) (p : Nat) : (notify s u).gateS p = u.gateS p := rfl

theorem notify_launchQ (s u : State) (p : Nat) : (notify s u).launchQ p = u.launchQ p := rfl

/-! ### The statement -/

/-- Settles O42: a list that starts, one that begins again and the next entry are all an entry that takes effect after time has passed, which
leaves the lists alone; a launch frame is marked due. -/
theorem gatesAndLaunchQueuesFollowTheirCounter : Obligations.GatesAndLaunchQueuesFollowTheirCounter := by
  intro s hclk happ
  refine ⟨fun p hpend hidle => ?_, fun p hpend hoper hcyc => ?_, fun p hpend hoper => ?_, fun p => ⟨fun hnext => ?_, fun hlast => ?_⟩,
    fun p q rest x hq hx hdue => ⟨fun hd => ?_, fun hd => ?_⟩⟩
  · refine does_of_applied rfl hclk happ ?_
    obtain ⟨dom, u, hu, hstart⟩ := gateCycle_of_pending hpend hidle
    rw [hstart]
    exact gateStarts_spec hu p dom
  · refine does_of_applied rfl hclk happ ?_
    obtain ⟨u, hu, hagain⟩ := gateCycle_of_running hpend hoper hcyc
    have hhead : (s.gateS p).oper.getD 0 (0, 0, 0) = (s.gateS p).oper.headD (0, 0, 0) := by cases (s.gateS p).oper <;> rfl
    dsimp only
    rw [hagain, notify_gateS, State.notify_fld_get, gateEnter_gateS, gateS_of_yard hu.yard, hhead]
    exact ⟨rfl, gateEnter_idx p 0 u, rfl, rfl, rfl⟩
  · exact does_eq_of_applied rfl hclk happ (gateCycle_of_none hpend hoper)
  · refine does_of_applied rfl hclk happ ?_
    obtain ⟨u, hu, hchange⟩ := gateChange_of_next hnext
    rw [hchange, notify_gateS, State.notify_fld_get, gateEnter_gateS, gateS_of_yard hu.yard]
    exact ⟨rfl, rfl, gateEnter_idx .., rfl, rfl⟩
  · exact does_eq_of_applied rfl hclk happ (gateChange_of_last hlast)
  · refine does_of_applied rfl hclk happ ?_
    obtain ⟨u, hu, hlaunch⟩ := launchEligible_of_head hq hx hdue
    rw [hlaunch, decide_eq_true hd, State.notify_fld_get, State.notify_fld_get, State.notify_yard, notify_launchQ]
    exact ⟨(launched_late hu p q.id).1, (launched_late hu p q.id).2, launched_queue hu p q.id true⟩
  · refine does_of_applied rfl hclk happ ?_
    obtain ⟨u, hu, hlaunch⟩ := launchEligible_of_head hq hx hdue
    rw [hlaunch, decide_eq_false (by omega), State.notify_fld_get, State.notify_yard, notify_launchQ]
    exact ⟨(launched_queue hu p q.id false).1, (launched_queue hu p q.id false).2, launched_in_time hu p q.id⟩

end Sys2Proof.Machine
end

section
/-! The statement of the address table: its commands start, and end with what they were for; an entry grows too old. -/

namespace Sys2Proof.Machine
variable {s : State} {w : Who}

/-! ### Writes of a block under a layout -/

theorem blockWriteQuiet_of_may {ok : State → Bool} {f : State → State} (hheard : s.heard w = true) (happ : s.applied = true)
    (hjtag : w ≠ .jtag) (hok : ok s = true) : blockWriteQuiet w ok f s = finish w { st := f s } := by
  simp [blockWriteQuiet, hheard, open_, happ, quiet, hjtag, hok]

/-- A register that ignores a writer stays as it is. -/
theorem blockWriteQuiet_of_not_may {ok : State → Bool} {f : State → State} (hheard : s.heard w = true) (happ : s.applied = true)
    (hjtag : w ≠ .jtag) (hok : ok s = false) : blockWriteQuiet w ok f s = finish w { st := s } := by
  simp [blockWriteQuiet, hheard, open_, happ, quiet, hjtag, hok]

theorem not_jtag_of_supervisor (h : s.supervisor w = true) : w ≠ .jtag := by
  rintro rfl
  exact absurd h Bool.false_ne_true

/-! ### A command starts -/

theorem atStart_of_idle (op : Nat) (h : s.fld F.ydAtcmd_BUSY = 0) :
    atStart op s = { s.put F.ydAtcmd_BUSY 1 with yard := { (s.put F.ydAtcmd_BUSY 1).yard with cmd := some (op, 0) } } := by
  simp [atStart, State.on, h]

theorem atStart_of_busy (op : Nat) (h : s.fld F.ydAtcmd_BUSY ≠ 0) : atStart op s = s := by
  simp [atStart, State.on, h]

/-- Each command's row is a write that starts it. -/
theorem exec_atCommand {c : Who → Instr} {op : Nat}
    (h : (c, op) ∈ [(Instr.atRead, 1), (Instr.atWrite, 2), (Instr.atDelete, 3), (Instr.atFlush, 4)]) (w : Who) (s : State) :
    exec (c w) s = done s (blockWriteQuiet w (·.supervisor w) (atStart op) s) := by
  simp only [List.mem_cons, Prod.mk.injEq, List.not_mem_nil, or_false] at h
  rcases h with ⟨rfl, rfl⟩ | ⟨rfl, rfl⟩ | ⟨rfl, rfl⟩ | ⟨rfl, rfl⟩ <;> rfl

theorem atCommandStarts {c : Who → Instr} {op : Nat}
    (h : (c, op) ∈ [(Instr.atRead, 1), (Instr.atWrite, 2), (Instr.atDelete, 3), (Instr.atFlush, 4)]) (happ : s.applied = true) :
    (s.heard w = true → s.supervisor w = true → s.fld F.ydAtcmd_BUSY = 0 → Does (c w) s fun t =>
        let u := s.put F.ydAtcmd_BUSY 1
        t = notify s (finish w { st := { u with yard := { u.yard with cmd := some (op, 0) } } }))
      ∧ (s.heard w = true → w ≠ .jtag → s.supervisor w = false ∨ s.fld F.ydAtcmd_BUSY ≠ 0 →
        Does (c w) s fun t => t = notify s (finish w { st := s })) := by
  refine ⟨fun hheard hsup hidle => ?_, fun hheard hjtag hno => ?_⟩
  · refine does_eq (exec_atCommand h w s) ?_
    rw [blockWriteQuiet_of_may hheard happ (not_jtag_of_supervisor hsup) hsup, atStart_of_idle op hidle]
  · refine does_eq (exec_atCommand h w s) ?_
    cases hsup : s.supervisor w with
    | false => rw [blockWriteQuiet_of_not_may hheard happ hjtag hsup]
    | true =>
      have hbusy : s.fld F.ydAtcmd_BUSY ≠ 0 := by simpa [hsup] using hno
      rw [blockWriteQuiet_of_may hheard happ hjtag hsup, atStart_of_busy op hbusy]

/-! ### A command ends -/

/-- The command's end, once it has been carried out in `r`. -/
def atEnded (r : Nat × State) : State := (r.2.put F.ydAtcmd_BUSY 0).put F.ydAtcmd_RES r.1

/-- No command runs any more. -/
def cmdTaken (s : State) : State := { s with yard := { s.yard with cmd := none } }

theorem atComplete_of_cmd {op n : Nat} (h : s.yard.cmd = some (op, n)) : atComplete s = atEnded (atRun op (cmdTaken s)) := by
  simp only [atComplete, h]
  rfl

theorem atEnded_busy (r : Nat × State) : (atEnded r).fld F.ydAtcmd_BUSY = 0 := by
  rw [atEnded, State.put_fld_ne _ _ _ _ _ _ _ _ (by decide), State.put_fld, Nat.zero_mod]

theorem atEnded_res (u : State) : (atEnded (0, u)).fld F.ydAtcmd_RES = 0 := by
  rw [atEnded, State.put_fld, Nat.zero_mod]

theorem atEnded_fld {f : Fld} (hbusy : f.id ≠ F.ydAtcmd_BUSY.id) (hres : f.id ≠ F.ydAtcmd_RES.id) (r : Nat × State) :
    (atEnded r).fld f = r.2.fld f := by
  rw [atEnded, State.put_fld_ne _ _ _ _ _ _ _ _ hres, State.put_fld_ne _ _ _ _ _ _ _ _ hbusy]

/-- The key's entry as a read shows it. -/
def atShown (valid : Nat) (static dlv : Bool) (fn pmask : Nat) (u : State) : State :=
  ((((u.put F.ydAtdata_VALID valid).put F.ydAtdata_STATIC (b2n static)).put F.ydAtdata_DLV (b2n dlv)).put F.ydAtdata_FN fn).put
    F.ydAtdata_PMASK pmask

theorem atRun_read_found {e : AtEnt} (h : s.atFind (s.fld F.ydAtkey_MAC) (s.fld F.ydAtdata_VID) = some e) :
    atRun 1 s = (0, atShown 1 e.static e.dlv e.fn e.pmask s) := by
  simp only [atRun, if_true, h]
  rfl

theorem atRun_read_absent (h : s.atFind (s.fld F.ydAtkey_MAC) (s.fld F.ydAtdata_VID) = none) :
    atRun 1 s = (0, atShown 0 false false 0 0 s) := by
  simp only [atRun, if_true, h]
  rfl

theorem b2n_mod_two (b : Bool) : b2n b % 2 ^ 1 = if b then 1 else 0 := by cases b <;> rfl

theorem atShown_fld (valid : Nat) (static dlv : Bool) (fn pmask : Nat) (u : State) :
    let t := atShown valid static dlv fn pmask u
    t.fld F.ydAtdata_VALID = valid % 2 ^ F.ydAtdata_VALID.width ∧ t.fld F.ydAtdata_STATIC = (if static then 1 else 0)
      ∧ t.fld F.ydAtdata_DLV = (if dlv then 1 else 0) ∧ t.fld F.ydAtdata_FN = fn % 2 ^ F.ydAtdata_FN.width
      ∧ t.fld F.ydAtdata_PMASK = pmask % 2 ^ F.ydAtdata_PMASK.width := by
  unfold atShown
  refine ⟨?_, ?_, ?_, ?_, State.put_fld ..⟩
  · simp (disch := decide) only [State.put_fld_ne, State.put_fld]
  · simp (disch := decide) only [State.put_fld_ne, State.put_fld]
    exact b2n_mod_two static
  · simp (disch := decide) only [State.put_fld_ne, State.put_fld]
    exact b2n_mod_two dlv
  · simp (disch := decide) only [State.put_fld_ne, State.put_fld]

/-- A key is stored where its set has room without its old entry. -/
theorem atRun_write (hvalid : s.fld F.ydAtdata_VALID ≠ 0)
    (hroom : ((s.yard.table.filter fun e => !(e.mac == s.fld F.ydAtkey_MAC && e.vid == s.fld F.ydAtdata_VID)).filter fun e =>
      atSet e.mac e.vid == atSet (s.fld F.ydAtkey_MAC) (s.fld F.ydAtdata_VID)).length < 4) :
    atRun 2 s = (0, s.setTable ((s.yard.table.filter fun e => !(e.mac == s.fld F.ydAtkey_MAC && e.vid == s.fld F.ydAtdata_VID)) ++
      [{ mac := s.fld F.ydAtkey_MAC, vid := s.fld F.ydAtdata_VID, static := s.on F.ydAtdata_STATIC, dlv := s.on F.ydAtdata_DLV
         fn := s.fld F.ydAtdata_FN, pmask := s.fld F.ydAtdata_PMASK, fresh := s.tick }])) := by
  have hon : s.on F.ydAtdata_VALID = true := by simpa [State.on] using hvalid
  have hmade : atRoom (s.fld F.ydAtkey_MAC) (s.fld F.ydAtdata_VID) (atDrop (s.fld F.ydAtkey_MAC) (s.fld F.ydAtdata_VID) s)
      = (true, atDrop (s.fld F.ydAtkey_MAC) (s.fld F.ydAtdata_VID) s) := if_pos hroom
  simp only [atRun, hon, hmade]
  rfl

theorem atRun_delete : atRun 3 s = (0, atDrop (s.fld F.ydAtkey_MAC) (s.fld F.ydAtdata_VID) s) := rfl

theorem atRun_write_invalid (h : s.fld F.ydAtdata_VALID = 0) :
    atRun 2 s = (0, atDrop (s.fld F.ydAtkey_MAC) (s.fld F.ydAtdata_VID) s) := by
  simp [atRun, State.on, h]

theorem atRun_flush : atRun 4 s =
    (0, s.setTable (s.yard.table.filter fun e => e.static || e.pmask &&& s.fld F.ydAtdata_PMASK = 0)) := rfl

/-! ### The statement -/

/-- Settles O41: a command's row starts it, its end is the command carried out on the table, and an entry goes when its age is reached. -/
theorem addressTableCommands : Obligations.AddressTableCommands := by
  intro s hclk happ
  refine ⟨fun w c op hc => atCommandStarts hc happ, fun hnone => ?_, fun e hcmd hfind => ?_, fun hcmd hfind => ?_,
    fun hcmd hvalid hroom => ?_, fun hcmd => ?_, fun hcmd => ?_, fun m v e hfind => ⟨fun hkept => ?_, fun hdyn hage hold => ?_⟩⟩
  · refine does_eq_of_applied rfl hclk happ ?_
    simp only [atComplete, hnone]
  · refine does_of_applied rfl hclk happ ?_
    rw [atComplete_of_cmd hcmd, atRun_read_found (s := cmdTaken s) hfind]
    obtain ⟨hvalid, hstatic, hdlv, hfn, hpmask⟩ :=
      atShown_fld 1 e.static e.dlv e.fn e.pmask (cmdTaken s)
    simp only [State.notify_fld_get, State.notify_yard, atEnded_busy, atEnded_res, atEnded_fld (f := F.ydAtdata_VALID) (by decide) (by decide),
      atEnded_fld (f := F.ydAtdata_STATIC) (by decide) (by decide), atEnded_fld (f := F.ydAtdata_DLV) (by decide) (by decide),
      atEnded_fld (f := F.ydAtdata_FN) (by decide) (by decide), atEnded_fld (f := F.ydAtdata_PMASK) (by decide) (by decide)]
    exact ⟨hvalid, hstatic, hdlv, hfn, hpmask, trivial, trivial, rfl⟩
  · refine does_of_applied rfl hclk happ ?_
    rw [atComplete_of_cmd hcmd, atRun_read_absent (s := cmdTaken s) hfind]
    obtain ⟨hvalid, -⟩ := atShown_fld 0 false false 0 0 (cmdTaken s)
    simp only [State.notify_fld_get, State.notify_yard, atEnded_busy, atEnded_fld (f := F.ydAtdata_VALID) (by decide) (by decide)]
    exact ⟨hvalid, trivial, rfl⟩
  · refine does_of_applied rfl hclk happ ?_
    rw [atComplete_of_cmd hcmd, atRun_write (s := cmdTaken s) hvalid hroom]
    exact ⟨rfl, (State.notify_fld_get ..).trans (atEnded_res _), (State.notify_fld_get ..).trans (atEnded_busy _)⟩
  · refine does_of_applied rfl hclk happ ?_
    have hdropped : atComplete s = atEnded (0, atDrop (s.fld F.ydAtkey_MAC) (s.fld F.ydAtdata_VID)
        (cmdTaken s)) := by
      rcases hcmd with hcmd | ⟨hcmd, hvalid⟩
      · rw [atComplete_of_cmd hcmd, atRun_delete]
        rfl
      · rw [atComplete_of_cmd hcmd, atRun_write_invalid (s := cmdTaken s) hvalid]
        rfl
    rw [hdropped]
    exact ⟨rfl, (State.notify_fld_get ..).trans (atEnded_busy _)⟩
  · refine does_of_applied rfl hclk happ ?_
    rw [atComplete_of_cmd hcmd, atRun_flush]
    exact ⟨rfl, (State.notify_fld_get ..).trans (atEnded_busy _)⟩
  · refine does_eq_of_applied rfl hclk happ ?_
    have hstays : (e.static || decide (s.fld F.ydCfg_AGETIME = 0)) = true := by simpa using hkept
    simp [ageOut, hfind, hstays]
  · refine does_eq_of_applied rfl hclk happ ?_
    simp only [ageOut, hfind, hdyn, decide_eq_false hage, Bool.or_self, Bool.false_eq_true, if_false, passTo_of_past hold]
    rfl

end Sys2Proof.Machine
end

section
/-! The statement of references and pulses, which fails in the tick of a step. -/

namespace Sys2Proof.Machine

/-- TC0 has just been stepped past the edge of generator 0, and the first engine runs a task. -/
def steppedPastEdge : State :=
  State.put { boot := { phase := .running }, tc := [(0, { ns := 1 })], steppedAt := [(0, 1)], eng := [(0, { tv := true })] }
    F.pgCfg_EN 1 0

/-- An edge that a step has moved into the past falls in the tick after the step (R245): a tick passes, and engine time with it. -/
theorem pulseRise_steppedPastEdge_runt : ((pulseRise 0 steppedPastEdge).e 0).runt = 3 := by decide

/-- Refutes O45: a pulse whose edge a step of this tick has passed rises a tick later, in which the running task's time goes on, so the engines
are not as they were. -/
theorem not_referencesAndPulses : ¬ Obligations.ReferencesAndPulses := by
  rintro ⟨-, hpulses⟩
  obtain ⟨-, hrises, -⟩ := hpulses steppedPastEdge 0
  have henabled : steppedPastEdge.fld F.pgCfg_EN (0 : Fin 8) ≠ 0 := by decide
  have hidle : (steppedPastEdge.pulse (0 : Fin 8)).high = false := by decide
  have hfresh : (steppedPastEdge.pulse (0 : Fin 8)).spent = false ∧ (steppedPastEdge.pulse (0 : Fin 8)).late = false := by decide
  obtain ⟨t, ht, -, -, -, -, -, heng⟩ := hrises henabled hidle (fun _ => hfresh) (by decide +kernel)
  obtain rfl : t = notify steppedPastEdge (pulseRise 0 steppedPastEdge) := (Host.Outcome.next.inj ht).symm
  have hrunt := congrArg (fun x => (Tab.get {} x 0).runt) heng
  simp only [State.notify_eng] at hrunt
  exact absurd (pulseRise_steppedPastEdge_runt.symm.trans hrunt) (by decide)

end Sys2Proof.Machine
end

section
/-! The statement of the resets: what each leaves of the registers (R344), and the power-path die (R377). -/

namespace Sys2Proof.Machine
variable {s u : State} {w : Who}

/-! ### Registers that are kept -/

theorem get_keepOnly (d : Nat) (fs : List Fld) (t : Tab Nat) (f : Fld) (i j : Nat) :
    Tab.get d (keepOnly fs t) (f.key i j) = if f.id ∈ fs.map (·.id) then Tab.get d t (f.key i j) else d := by
  induction t with
  | nil => exact (ite_self d).symm
  | cons x rest ih =>
    obtain ⟨k, v⟩ := x
    by_cases hk : k = f.key i j
    · subst hk
      by_cases hf : f.id ∈ fs.map (·.id)
      · have hsome : (fs.any fun g => g.id == keyFld (f.key i j)) = true := by
          simpa [keyFld_key, List.any_eq_true] using hf
        simp [keepOnly, hsome, Tab.get, hf]
      · have hnone : (fs.any fun g => g.id == keyFld (f.key i j)) = false := by
          simpa [keyFld_key, List.any_eq_false] using hf
        simpa [keepOnly, hnone, hf] using ih
    · have hskip : Tab.get d (keepOnly fs ((k, v) :: rest)) (f.key i j) = Tab.get d (keepOnly fs rest) (f.key i j) := by
        unfold keepOnly
        rw [List.filter_cons]
        split
        · simp [Tab.get, hk]
        · rfl
      simpa [hskip, Tab.get, hk] using ih

theorem cutFlash_of_idle (h : s.boot.flOp = none) : cutFlash s = s := by simp [cutFlash, h]

/-- Cutting off a flash command changes what flash holds, and draws. -/
theorem cutFlash_eq (s : State) : ∃ k n, cutFlash s = { s with flash := k, fresh := n } := by
  unfold cutFlash
  split
  · split
    · obtain ⟨x, hx⟩ := foldl_setFlash_eq _ _ (List.range 512) s.draw.2
      exact ⟨x, _, hx⟩
    · exact ⟨_, _, rfl⟩
  · exact ⟨_, _, rfl⟩

theorem cutFlash_flash_of_idle (h : s.boot.flOp = none) : (cutFlash s).flash = s.flash := congrArg State.flash (cutFlash_of_idle h)

theorem cutFlash_loft (s : State) : (cutFlash s).loft = s.loft := by
  obtain ⟨k, n, h⟩ := cutFlash_eq s
  rw [h]

theorem cutFlash_tick (s : State) : (cutFlash s).tick = s.tick := by
  obtain ⟨k, n, h⟩ := cutFlash_eq s
  rw [h]

theorem cutFlash_act (s : State) : (cutFlash s).act = s.act := by
  obtain ⟨k, n, h⟩ := cutFlash_eq s
  rw [h]

theorem wipe_act (keep : List Fld) (s : State) : (wipe keep s).act = keepOnly keep s.act := congrArg (keepOnly keep) (cutFlash_act s)

theorem wipe_fld (keep : List Fld) (s : State) (f : Fld) (i j : Nat) :
    (wipe keep s).fld f i j = if f.id ∈ keep.map (·.id) then s.fld f i j else f.reset := by
  unfold State.fld
  rw [wipe_act, get_keepOnly]

/-! ### Resets of the logic die (R344) -/

/-- What a reset from source `src` leaves, with the surviving registers `fs` written beside. -/
def ResetLeaves (src : Nat) (fs : List Fld) (s t : State) : Prop :=
  t.boot.phase = .pll ∧ t.fld F.gcBootcause_RSTSRC = src
    ∧ (∀ f ∈ survivors, f ∉ F.gcBootcause_RSTSRC :: fs → ∀ i j, t.fld f i j = s.fld f i j)
    ∧ (∀ f i j, f.id ∉ survivors.map (·.id) → t.fld f i j = f.reset) ∧ t.eng = [] ∧ t.loft = s.loft ∧ t.tick = s.tick
    ∧ (s.boot.flOp = none → t.flash = s.flash)

/-- A reset of a state that differs from `s` in its registers alone. -/
theorem resetLeaves_logicReset {src : Nat} {fs : List Fld} {a : Tab Nat} (hsrc : src < 2 ^ F.gcBootcause_RSTSRC.width)
    (ha : ∀ f ∈ survivors, f ∉ F.gcBootcause_RSTSRC :: fs → ∀ i j, ({ s with act := a } : State).fld f i j = s.fld f i j)
    (p : List Instr) (o : List Out) (h : HostS) :
    ResetLeaves src fs s { logicReset src { s with act := a } with pending := p, out := o, host := h } := by
  refine ⟨rfl, ?_, fun f hf hne i j => ?_, fun f i j hf => ?_, rfl, ?_, ?_, fun hidle => ?_⟩
  · exact (State.put_fld _ _ _ _ _).trans (Nat.mod_eq_of_lt hsrc)
  · have hid : f.id ≠ F.gcBootcause_RSTSRC.id := by
      have hall : ∀ g ∈ survivors, g ≠ F.gcBootcause_RSTSRC → g.id ≠ F.gcBootcause_RSTSRC.id := by decide
      exact hall f hf fun h => hne (h ▸ List.mem_cons_self)
    have hkept : f.id ∈ keptFlds.map (·.id) := List.mem_map_of_mem hf
    exact ((State.put_fld_ne _ _ _ _ _ _ _ _ hid).trans ((wipe_fld _ _ _ _ _).trans (if_pos hkept))).trans (ha f hf hne i j)
  · have hid : f.id ≠ F.gcBootcause_RSTSRC.id := fun h => hf (h ▸ by decide)
    exact (State.put_fld_ne _ _ _ _ _ _ _ _ hid).trans ((wipe_fld _ _ _ _ _).trans (if_neg hf))
  · exact cutFlash_loft _
  · exact cutFlash_tick _
  · exact cutFlash_flash_of_idle (s := { s with act := a }) hidle

/-- A command that changes registers, but no surviving one outside `fs`, and then resets the logic die. -/
theorem does_reset {c : Instr} {src : Nat} {fs : List Fld} {P : State → Prop} (u : State) (hu : u = { s with act := u.act })
    (hsrc : src < 2 ^ F.gcBootcause_RSTSRC.width) (he : exec c s = done s (logicReset src u))
    (ha : ∀ f ∈ survivors, f ∉ F.gcBootcause_RSTSRC :: fs → ∀ i j, u.fld f i j = s.fld f i j)
    (hP : P (notify s (logicReset src u))) : Does c s fun t => ResetLeaves src fs s t ∧ P t := by
  refine does_next he ⟨?_, hP⟩
  rw [hu] at ha ⊢
  exact resetLeaves_logicReset hsrc ha _ _ _

theorem logicReset_fld_of_kept {src : Nat} {f : Fld} (hne : f.id ≠ F.gcBootcause_RSTSRC.id) (hkept : f.id ∈ keptFlds.map (·.id)) (s : State) :
    (logicReset src s).fld f = s.fld f :=
  (State.put_fld_ne _ _ _ _ _ _ _ _ hne).trans ((wipe_fld _ _ _ _ _).trans (if_pos hkept))

/-! ### The power-path die (R325, R377) -/

theorem bestSource_lt (s : State) : s.bestSource < 4 := by
  have horder : ∀ c ∈ s.srcOrder, c < 4 := by
    unfold State.srcOrder
    split <;> decide
  unfold State.bestSource
  split
  · decide
  · cases h : s.srcOrder.filter fun c => s.on (srcFlag (c - 1)) with
    | nil => decide
    | cons c rest => exact horder c (List.mem_of_mem_filter (h ▸ List.mem_cons_self))

/-- What a power-on leaves. -/
def PowerOnLeaves (st : Straps) (s t : State) : Prop :=
  t.boot.phase = .pll ∧ t.boot.straps = st ∧ t.fld F.pwSrc_ON = s.bestSource ∧ t.fld F.gcBootcause_RSTSRC = 0 ∧ t.fld F.ckStat_BOOTSRC = st.bootsrc
    ∧ t.fld F.pwSrc_PDPORT = st.pdsel ∧ t.loft = [] ∧ t.eng = [] ∧ t.flash = s.flash
    ∧ (∀ k, t.fld F.gcKeyslot_WRITTEN k = s.fld F.gcKeyslot_WRITTEN k)
    ∧ (s.pw.detected = false → t.fld F.pwSrc_SCLS = if st.pdcls.val = 0 ∨ 4 < st.pdcls.val then 1 else st.pdcls)
    ∧ (∀ f i j, f.id ∉ survivors.map (·.id) → f.id ≠ F.pwEvt_ONBAK.id → t.fld f i j = f.reset)

/-- A register that the power-on itself does not set shows what the power-path die keeps, or its reset value. -/
theorem powerOn_fld (st : Straps) (s : State) {f : Fld} (i j : Nat)
    (hf : f.id ∉ [F.pwSrc_ON, F.pwSrc_PFAIL, F.pwEvt_ONBAK, F.pwSrc_SCLS, F.pwSrc_PDPORT, F.ckStat_BOOTSRC].map (·.id)) :
    (powerOn st s).fld f i j = if f.id ∈ ppdFlds.map (·.id) then s.fld f i j else f.reset := by
  simp only [List.map_cons, List.map_nil, List.mem_cons, List.not_mem_nil, not_or, or_false] at hf
  obtain ⟨hon, hpfail, honbak, hscls, hpdport, hbootsrc⟩ := hf
  unfold powerOn showClass
  cases s.pw.detected
  all_goals
    simp only [ne_eq, hon, hpfail, honbak, hscls, hpdport, hbootsrc, not_false_eq_true, State.put_fld_ne, ↓reduceIte, Bool.false_eq_true]
    exact get_keepOnly _ _ _ _ _ _

theorem powerOn_scls (st : Straps) (h : s.pw.detected = false) :
    (powerOn st s).fld F.pwSrc_SCLS = if st.pdcls.val = 0 ∨ 4 < st.pdcls.val then 1 else st.pdcls := by
  unfold powerOn showClass
  simp (disch := decide) only [h, State.put_fld_ne, State.put_fld, ↓reduceIte, Bool.false_eq_true]
  generalize st.pdcls = c
  revert c
  decide

theorem powerOnLeaves_powerOn (st : Straps) (s : State) : PowerOnLeaves st s (powerOn st s) := by
  have hON : (powerOn st s).fld F.pwSrc_ON = s.bestSource := by
    unfold powerOn showClass
    cases s.pw.detected
    all_goals
      simp (disch := decide) only [State.put_fld_ne, State.put_fld, ↓reduceIte, Bool.false_eq_true]
      exact Nat.mod_eq_of_lt (bestSource_lt s)
  have hphase : (powerOn st s).boot.phase = .pll ∧ (powerOn st s).boot.straps = st ∧ (powerOn st s).loft = [] ∧ (powerOn st s).eng = []
      ∧ (powerOn st s).flash = s.flash := by
    unfold powerOn showClass
    cases s.pw.detected <;> exact ⟨rfl, rfl, rfl, rfl, rfl⟩
  obtain ⟨hpll, hstraps, hloft, heng, hflash⟩ := hphase
  refine ⟨hpll, hstraps, hON, powerOn_fld st s 0 0 (by decide), ?_, ?_, hloft, heng, hflash, fun k => ?_, powerOn_scls st, fun f i j hf hne => ?_⟩
  · exact (State.put_fld _ _ _ _ _).trans (Nat.mod_eq_of_lt st.bootsrc.isLt)
  · exact (State.put_fld_ne _ _ _ _ _ _ _ _ (by decide)).trans ((State.put_fld _ _ _ _ _).trans (Nat.mod_eq_of_lt st.pdsel.isLt))
  · exact (powerOn_fld st s k 0 (by decide)).trans (if_pos (by decide))
  · have hppd : f.id ∉ ppdFlds.map (·.id) := fun h => hf (List.map_subset _ (by decide) h)
    refine (powerOn_fld st s i j fun h => ?_).trans (if_neg hppd)
    have hset : ∀ n ∈ [F.pwSrc_ON, F.pwSrc_PFAIL, F.pwEvt_ONBAK, F.pwSrc_SCLS, F.pwSrc_PDPORT, F.ckStat_BOOTSRC].map (·.id),
        n = F.pwEvt_ONBAK.id ∨ n ∈ survivors.map (·.id) := by decide
    exact (hset _ h).elim hne hf

/-- What the loss of the power-path die leaves. -/
theorem overtemp_leaves (s : State) :
    (overtemp s).boot.phase = .off ∧ (overtemp s).pw.overtemp = true ∧ (overtemp s).fld F.pwSrc_ON = 0 ∧ (overtemp s).eng = [] ∧ (overtemp s).loft = [] := by
  refine ⟨rfl, ?_, ?_, rfl, rfl⟩
  · obtain ⟨k, n, h⟩ := cutFlash_eq { s with pw := { s.pw with overtemp := true } }
    exact congrArg (fun x => x.pw.overtemp) h
  · refine (get_keepOnly _ _ _ F.pwSrc_ON 0 0).trans ((if_pos (by decide)).trans ?_)
    refine (State.put_fld_ne _ _ _ _ _ _ _ _ (by decide)).trans ((State.put_fld_ne _ _ _ _ _ _ _ _ (by decide)).trans ?_)
    exact State.put_fld _ _ _ _ _

/-! ### Writes of CK.RSTCTL (R344, R346) -/

theorem sysWriteQuiet_of_refused {f : State → State} (hheard : s.heard w = true) (hj : w ≠ .jtag) {ok : State → Bool} (hok : ok s = false) :
    sysWriteQuiet w ok f s = finish w { st := s } := by simp [sysWriteQuiet, hheard, quiet, hj, hok]

theorem rstctl_of_other_key {key : Byte} (hkey : key ≠ 0xA5) (clr rst : Bool) (s : State) : rstctl key.toNat clr rst s = s :=
  if_pos fun h => hkey (BitVec.eq_of_toNat_eq h)

/-- A write that nobody may make, or that lacks the key, changes nothing. -/
theorem rstctl_ignored {key : Byte} (hheard : s.heard w = true) (hj : w ≠ .jtag) (h : notVf w = false ∨ key ≠ 0xA5) (clr rst : Bool) :
    sysWriteQuiet w (fun _ => notVf w) (rstctl key.toNat clr rst) s = finish w { st := s } := by
  by_cases hv : notVf w = true
  · rw [sysWriteQuiet_of_heard hheard hv hj, rstctl_of_other_key (h.resolve_left (by simp [hv]))]
  · exact sysWriteQuiet_of_refused hheard hj (by simpa using hv)

/-! ### The statement -/

/-- Settles O56: every reset of the logic die wipes the registers but those of R344, which the command changed only where it says so; the
power-path die's own commands start and stop the part. -/
theorem resetsLeaveWhatR344Keeps : Obligations.ResetsLeaveWhatR344Keeps := by
  intro s
  have hsame : ∀ fs, ∀ f ∈ survivors, f ∉ F.gcBootcause_RSTSRC :: fs → ∀ i j, ({ s with act := s.act } : State).fld f i j = s.fld f i j :=
    fun _ _ _ _ _ _ => rfl
  refine ⟨fun us hshort => does_eq rfl (if_pos hshort), fun us hlong hon => ?_, fun hlock => does_eq rfl (if_neg (by simp [State.on, hlock])),
    fun hlock => ?_, fun code hclk => ?_, fun w key clr hheard => ⟨fun hj hno => ?_, fun hj hv hkey => ?_⟩, fun st hhot => ?_, fun st hcool hoff => ?_,
    fun st hon hcarried => ?_, does_next rfl (overtemp_leaves s), fun hcool => ?_, fun hhot => does_eq rfl rfl⟩
  · exact does_next (congrArg (done s) (rstN_of_long_pulse hlong hon)) (resetLeaves_logicReset (a := s.act) (by decide) (hsame []) _ _ _)
  · refine does_reset (s.bump F.ckStat_LOLCNT) rfl (by decide) (congrArg (done s) (lossOfLock_of_locked hlock)) (fun f hf hne i j => ?_) ?_
    · refine State.put_fld_ne _ _ _ _ _ _ _ _ ?_
      have hall : ∀ g ∈ survivors, g ≠ F.ckStat_LOLCNT → g.id ≠ F.ckStat_LOLCNT.id := by decide
      exact hall f hf fun h => hne (h ▸ List.mem_cons_of_mem _ List.mem_cons_self)
    · exact (State.notify_fld_get ..).trans ((logicReset_fld_of_kept (f := F.ckStat_LOLCNT) (by decide) (by decide) _).trans (State.bump_fld ..))
  · refine does_reset (bootEvent 7 0 0 code.toNat s) rfl (by decide) (congrArg (done s) (if_pos hclk)) (fun f hf hne i j => ?_) ⟨?_, ?_⟩
    · have hall : ∀ g ∈ survivors, g ∉ [F.gcBootcause_RSTSRC, F.gcBootcause_CODE, F.gcBootcause_ERR, F.gcBootcause_SECT, F.gcBootcause_DETAIL] →
          g.id ≠ F.gcBootcause_CODE.id ∧ g.id ≠ F.gcBootcause_ERR.id ∧ g.id ≠ F.gcBootcause_SECT.id ∧ g.id ≠ F.gcBootcause_DETAIL.id := by decide
      obtain ⟨hcode, herr, hsect, hdetail⟩ := hall f hf hne
      exact (State.put_fld_ne _ _ _ _ _ _ _ _ hdetail).trans ((State.put_fld_ne _ _ _ _ _ _ _ _ hsect).trans
        ((State.put_fld_ne _ _ _ _ _ _ _ _ herr).trans (State.put_fld_ne _ _ _ _ _ _ _ _ hcode)))
    · refine (State.notify_fld_get ..).trans ((logicReset_fld_of_kept (f := F.gcBootcause_CODE) (by decide) (by decide) _).trans ?_)
      simp (disch := decide) only [bootEvent, State.put_fld_ne]
      exact State.put_fld _ _ _ _ _
    · refine (State.notify_fld_get ..).trans ((logicReset_fld_of_kept (f := F.gcBootcause_DETAIL) (by decide) (by decide) _).trans ?_)
      exact (State.put_fld _ _ _ _ _).trans (Nat.mod_eq_of_lt code.isLt)
  · exact ⟨does_eq (congrArg (done s) (rstctl_ignored hheard hj hno clr true)) rfl, does_eq (congrArg (done s) (rstctl_ignored hheard hj hno true false)) rfl⟩
  · subst hkey
    refine ⟨?_, does_eq (congrArg (done s) (sysWriteQuiet_of_heard hheard hv hj _)) rfl⟩
    cases clr with
    | false =>
      refine does_served (u := logicReset 5 s) (congrArg (done s) (sysWriteQuiet_of_heard hheard hv hj _)) fun p o h => ?_
      exact ⟨resetLeaves_logicReset (a := s.act) (by decide) (hsame [F.gcBootcause_TRIES]) p o h,
        logicReset_fld_of_kept (src := 5) (f := F.gcBootcause_TRIES) (by decide) (by decide) s⟩
    | true =>
      refine does_served (u := logicReset 5 (s.put F.gcBootcause_TRIES 0)) (congrArg (done s) (sysWriteQuiet_of_heard hheard hv hj _)) fun p o h => ?_
      refine ⟨resetLeaves_logicReset (a := (s.put F.gcBootcause_TRIES 0).act) (by decide) (fun f hf hne i j => ?_) p o h,
        (logicReset_fld_of_kept (src := 5) (f := F.gcBootcause_TRIES) (by decide) (by decide) (s.put F.gcBootcause_TRIES 0)).trans (State.put_fld ..)⟩
      have hall : ∀ g ∈ survivors, g ≠ F.gcBootcause_TRIES → g.id ≠ F.gcBootcause_TRIES.id := by decide
      exact State.put_fld_ne s F.gcBootcause_TRIES f 0 0 0 i j (hall f hf fun h => hne (h ▸ List.mem_cons_of_mem _ List.mem_cons_self))
  · exact does_eq rfl (if_neg (by simp [hhot]))
  · refine does_next (congrArg (done s) (if_pos ?_)) (powerOnLeaves_powerOn st s)
    simpa [hcool] using hoff
  · exact does_eq rfl (if_neg (by simp [hon, hcarried]))
  · refine does_eq rfl ?_
    unfold cooled
    rw [← hcool]

end Sys2Proof.Machine
end

section
/-! The statement of the boot's tries: the PLL's lock and its timeout, the host image, and the boot watchdog (R345 to R349). -/

namespace Sys2Proof.Machine
variable {s : State} {w : Who}

/-! ### The log and the clock -/

theorem eraseSector_tick (n : Nat) (s : State) : (eraseSector n s).tick = s.tick := rfl

theorem writeRecord_tick (w : Word) (ws : List Nat) (s : State) : (writeRecord w ws s).tick = s.tick := by
  have herased : (logErased s).tick = s.tick := by simp [logErased, apply_ite State.tick, eraseSector_tick]
  unfold writeRecord
  extract_lets r sec nxt t body all u
  obtain ⟨x, hx⟩ := foldl_setFlash_eq (fun i => 512 * sec + 8 * (r % 64) + i) (fun i => BitVec.ofNat 64 (all.getD i 0).toNat)
    (List.range 8) t
  have hu : u = { t with flash := x } := hx
  rw [hu]
  exact herased

theorem logRecord_tick (typ : Nat) (ws : List Nat) (s : State) : (logRecord typ ws s).tick = s.tick := by
  unfold logRecord
  dsimp only
  split
  · rfl
  · split
    · exact writeRecord_tick ..
    · split <;> rfl

/-! ### A boot failure (R346, R349) -/

theorem bootEvent_fld {f : Fld} (code err sect detail : Nat) (s : State) (i j : Nat)
    (hf : f.id ∉ [F.gcBootcause_CODE, F.gcBootcause_ERR, F.gcBootcause_SECT, F.gcBootcause_DETAIL].map (·.id)) :
    (bootEvent code err sect detail s).fld f i j = s.fld f i j := by
  simp only [List.map_cons, List.map_nil, List.mem_cons, List.not_mem_nil, not_or, or_false] at hf
  obtain ⟨hcode, herr, hsect, hdetail⟩ := hf
  simp only [bootEvent, ne_eq, hcode, herr, hsect, hdetail, not_false_eq_true, State.put_fld_ne]

theorem bootEvent_code (code err sect detail : Nat) (s : State) :
    (bootEvent code err sect detail s).fld F.gcBootcause_CODE = code % 2 ^ F.gcBootcause_CODE.width := by
  simp (disch := decide) only [bootEvent, State.put_fld_ne, State.put_fld]

theorem bootEvent_detail (code err sect detail : Nat) (s : State) :
    (bootEvent code err sect detail s).fld F.gcBootcause_DETAIL = detail % 2 ^ F.gcBootcause_DETAIL.width := State.put_fld ..

theorem logBoot_fld {f : Fld} (hf : f.id ∉ logFlds) (typ : Nat) (s : State) (i j : Nat) : (logBoot typ s).fld f i j = s.fld f i j :=
  (LogKeeps.logRecord ..).fld f hf i j

/-- A boot failure resets the logic die, and BOOTCAUSE keeps the event. -/
theorem bootFail_leaves (code err sect detail : Nat) (s : State) :
    (bootFail code err sect detail s).boot.phase = .pll
      ∧ (bootFail code err sect detail s).fld F.gcBootcause_CODE = code % 2 ^ F.gcBootcause_CODE.width
      ∧ (bootFail code err sect detail s).fld F.gcBootcause_RSTSRC = 4
      ∧ (bootFail code err sect detail s).fld F.gcBootcause_DETAIL = detail % 2 ^ F.gcBootcause_DETAIL.width := by
  refine ⟨rfl, ?_, State.put_fld .., ?_⟩
  · exact (logicReset_fld_of_kept (by decide) (by decide) _).trans ((logBoot_fld (by decide) ..).trans (bootEvent_code ..))
  · exact (logicReset_fld_of_kept (by decide) (by decide) _).trans ((logBoot_fld (by decide) ..).trans (bootEvent_detail ..))

/-! ### The PLL's lock (R345) -/

/-- The part as the PLL locks, its memories cleared. -/
def atLock (s : State) : State := logBoot 2 (clearSram { s.put F.ckStat_LOCK 1 with tkBase := s.tick, period := s.tick })

theorem pllLock_eq (h : s.boot.phase = .pll) : pllLock s =
    if (atLock s).fld F.gcBootcause_TRIES = 3 then enterHalter (atLock s)
    else
      let s := (atLock s).put F.gcBootcause_TRIES ((atLock s).fld F.gcBootcause_TRIES + 1)
      let s := ((s.put F.gcLaystat_ERR 0).put F.gcLaystat_SECT 0).put F.gcLaystat_FAIL 0
      if s.fld F.ckStat_BOOTSRC = 1 ∨ s.fld F.ckStat_BOOTSRC = 2 then { s with boot := { s.boot with phase := .hostWait, hostFrom := s.tick } }
      else flashBoot { s with boot := { s.boot with phase := .running } } := if_neg (not_not_intro h)

/-- The part with its clock begun and its memories cleared. -/
def clearedAtLock (s : State) : State :=
  { s.put F.ckStat_LOCK 1 with tkBase := s.tick, period := s.tick, loft := [], mg := [], code := [], priv := [], stage := [], lost := 0 }

theorem clearedAtLock_fld {f : Fld} (hf : f.id ≠ F.ckStat_LOCK.id) (s : State) (i j : Nat) : (clearedAtLock s).fld f i j = s.fld f i j :=
  State.put_fld_ne s F.ckStat_LOCK f 1 0 0 i j hf

/-- The memories are cleared after any reset but the one that ends REST. -/
theorem atLock_eq (h : s.fld F.gcBootcause_RSTSRC ≠ 6) : atLock s = logBoot 2 (clearedAtLock s) := by
  have hsrc := State.put_fld_ne s F.ckStat_LOCK F.gcBootcause_RSTSRC 1 0 0 0 0 (by decide)
  exact congrArg (logBoot 2) (if_neg fun h6 => h (hsrc.symm.trans h6))

theorem atLock_fld (h : s.fld F.gcBootcause_RSTSRC ≠ 6) {f : Fld} (hlog : f.id ∉ logFlds) (hlock : f.id ≠ F.ckStat_LOCK.id) (i j : Nat) :
    (atLock s).fld f i j = s.fld f i j := by
  rw [atLock_eq h, logBoot_fld hlog, clearedAtLock_fld hlock]

theorem atLock_lock (h : s.fld F.gcBootcause_RSTSRC ≠ 6) : (atLock s).fld F.ckStat_LOCK = 1 := by
  rw [atLock_eq h, logBoot_fld (by decide)]
  exact State.put_fld s F.ckStat_LOCK 1 0 0

theorem atLock_mems (h : s.fld F.gcBootcause_RSTSRC ≠ 6) : (atLock s).mems = ([], [], [], [], []) := by
  rw [atLock_eq h]
  exact logBoot_mems ..

theorem atLock_tick (h : s.fld F.gcBootcause_RSTSRC ≠ 6) : (atLock s).tick = s.tick := by
  rw [atLock_eq h]
  exact logRecord_tick ..

theorem atLock_tkBase (h : s.fld F.gcBootcause_RSTSRC ≠ 6) : (atLock s).tkBase = s.tick := by
  rw [atLock_eq h]
  exact congrArg (·.2.1.2.2.2.2.2.2.1) (logRecord_steady 2 _ (clearedAtLock s)).still

/-- TK begins at the lock. -/
theorem atLock_tk (h : s.fld F.gcBootcause_RSTSRC ≠ 6) : (atLock s).tk = 0 := by
  simp [State.tk, atLock_tick h, atLock_tkBase h]

/-- The third failed try in a row ends in Halter mode. -/
theorem pllLock_of_third_try (hpll : s.boot.phase = .pll) (hsrc : s.fld F.gcBootcause_RSTSRC ≠ 6) (h3 : s.fld F.gcBootcause_TRIES = 3) :
    pllLock s = enterHalter (atLock s) := by
  rw [pllLock_eq hpll, if_pos ((atLock_fld hsrc (by decide) (by decide) 0 0).trans h3)]

/-- A try begins. -/
def tryBegun (s : State) : State :=
  (((s.put F.gcBootcause_TRIES (s.fld F.gcBootcause_TRIES + 1)).put F.gcLaystat_ERR 0).put F.gcLaystat_SECT 0).put F.gcLaystat_FAIL 0

/-- The host image is waited for. -/
def hostAwaited (s : State) : State := { s with boot := { s.boot with phase := .hostWait, hostFrom := s.tick } }

theorem tryBegun_bootsrc (s : State) : (tryBegun s).fld F.ckStat_BOOTSRC = s.fld F.ckStat_BOOTSRC := by
  simp (disch := decide) only [tryBegun, State.put_fld_ne]

theorem tryBegun_tries (s : State) : (tryBegun s).fld F.gcBootcause_TRIES = (s.fld F.gcBootcause_TRIES + 1) % 2 ^ F.gcBootcause_TRIES.width := by
  simp (disch := decide) only [tryBegun, State.put_fld_ne, State.put_fld]

theorem hostAwaited_tryBegun_tk (s : State) : (hostAwaited (tryBegun s)).tk = s.tk := by simp [hostAwaited, tryBegun, State.tk]

theorem pllLock_of_host_source (hpll : s.boot.phase = .pll) (hsrc : s.fld F.gcBootcause_RSTSRC ≠ 6) (h3 : s.fld F.gcBootcause_TRIES < 3)
    (hhost : s.fld F.ckStat_BOOTSRC = 1 ∨ s.fld F.ckStat_BOOTSRC = 2) : pllLock s = hostAwaited (tryBegun (atLock s)) := by
  have htries := atLock_fld hsrc (f := F.gcBootcause_TRIES) (by decide) (by decide) 0 0
  have hboot := (tryBegun_bootsrc (atLock s)).trans (atLock_fld hsrc (f := F.ckStat_BOOTSRC) (by decide) (by decide) 0 0)
  rw [pllLock_eq hpll, if_neg (by omega)]
  exact if_pos (by rwa [← hboot] at hhost)

/-- A try counted as failed for want of the lock. -/
def lockMissed (s : State) : State :=
  (bootEvent 8 0 0 0 s).put F.gcBootcause_TRIES (min 3 ((bootEvent 8 0 0 0 s).fld F.gcBootcause_TRIES + 1))

/-- The next try is waited for. -/
def retryAwaited (s : State) : State := { s with boot := { s.boot with phase := .retry } }

theorem pllTimeout_eq (hpll : s.boot.phase = .pll) (hpast : s.tkBase + 250000 ≤ s.tick) : pllTimeout s = retryAwaited (logicReset 4 (lockMissed s)) := by
  unfold pllTimeout
  rw [if_neg (not_not_intro hpll), passTo_of_past hpast]
  rfl

theorem lockMissed_code (s : State) : (lockMissed s).fld F.gcBootcause_CODE = 8 :=
  (State.put_fld_ne _ _ _ _ _ _ _ _ (by decide)).trans (bootEvent_code ..)

theorem lockMissed_tries (s : State) : (lockMissed s).fld F.gcBootcause_TRIES = min 3 (s.fld F.gcBootcause_TRIES + 1) := by
  rw [lockMissed, State.put_fld, bootEvent_fld _ _ _ _ _ _ _ (by decide)]
  exact Nat.mod_eq_of_lt (show _ < 4 by omega)

/-! ### The host image (R347) -/

theorem sysWrite_of_may {ok : State → Bool} {f : State → State} (hheard : s.heard w = true) (hok : ok s = true) :
    sysWrite w ok f s = finish w { st := f s } := by simp [sysWrite, hheard, allow, hok]

theorem hostImageWord_of_early {v : Word} (hwait : s.boot.phase = .hostWait) (hport : s.himgPort w = true) (hk : s.fld F.gcBootctl_HICNT < 5) :
    hostImageWord w v s = (memWrite (himgPlace (s.fld F.gcBootctl_HICNT)) v s).put F.gcBootctl_HICNT (s.fld F.gcBootctl_HICNT + 1) := by
  unfold hostImageWord
  rw [if_neg (by simp [hwait, hport])]
  exact if_pos hk

theorem sysWriteQuiet_of_supervisor {f : State → State} (hheard : s.heard w = true) (hsup : s.supervisor w = true) :
    sysWriteQuiet w (·.supervisor w) f s = finish w { st := f s } := by
  simp [sysWriteQuiet, hheard, quiet, not_jtag_of_supervisor hsup, hsup]

/-! ### The statement -/

/-- Settles O57: a lock clears the memories and counts a try, every failure is a reset that keeps BOOTCAUSE, and the first five words of a host
image do no more than fill its place. -/
theorem bootTriesAreCounted : Obligations.BootTriesAreCounted := by
  intro s w
  refine ⟨fun hpll => ⟨does_eq rfl (if_pos hpll), does_eq rfl (if_pos hpll)⟩, fun hpll hsrc => ⟨fun h3 => ?_, fun h3 hhost => ?_⟩, fun hpll hpast => ?_,
    fun hretry => does_eq rfl (if_pos hretry), fun hretry hpast => does_eq rfl ?_, fun v hheard hj => ⟨fun hno => ?_, fun hwait hport hk => ?_⟩,
    fun hheard hv hj => ⟨does_eq (congrArg (done s) (sysWriteQuiet_of_heard hheard hv hj _)) rfl, ?_⟩, fun hwait => does_eq rfl (if_pos hwait),
    fun hwait hpast => ?_, fun hheard hsup hrun happ => does_eq (congrArg (done s) ?_) rfl, fun hheard hsup hno => does_eq (congrArg (done s) ?_) rfl,
    fun hend => ?_, fun x hend hpast => ?_⟩
  · refine does_next (congrArg (done s) (pllLock_of_third_try hpll hsrc h3)) ?_
    have hmems := atLock_mems hsrc
    have hlocked := atLock_lock hsrc
    have htk := atLock_tk hsrc
    generalize atLock s = u at hmems hlocked htk ⊢
    have hhalter : (enterHalter u).fld F.gcLaystat_HALTER = 1 := by
      simp (disch := decide) only [enterHalter, State.put_fld_ne, State.put_fld]
      rfl
    have hlock : (enterHalter u).fld F.ckStat_LOCK = 1 := by
      simp (disch := decide) only [enterHalter, State.put_fld_ne]
      exact hlocked
    exact ⟨rfl, hhalter, hlock, congrArg (·.1) hmems, congrArg (·.2.1) hmems, congrArg (·.2.2.1) hmems, congrArg (·.2.2.2.1) hmems, htk⟩
  · refine does_next (congrArg (done s) (pllLock_of_host_source hpll hsrc h3 hhost)) ?_
    have htries := atLock_fld hsrc (f := F.gcBootcause_TRIES) (by decide) (by decide) 0 0
    have hloft := congrArg (·.1) (atLock_mems hsrc)
    have htick := atLock_tick hsrc
    have htk := atLock_tk hsrc
    generalize atLock s = u at htries hloft htick htk ⊢
    have hcount : (tryBegun u).fld F.gcBootcause_TRIES = s.fld F.gcBootcause_TRIES + 1 := by
      rw [tryBegun_tries, htries]
      exact Nat.mod_eq_of_lt (show _ < 4 by omega)
    exact ⟨rfl, hcount, htick, hloft, (State.notify_tk_get ..).trans ((hostAwaited_tryBegun_tk u).trans htk)⟩
  · have hcode := (logicReset_fld_of_kept (f := F.gcBootcause_CODE) (src := 4) (by decide) (by decide) _).trans (lockMissed_code s)
    have htries := (logicReset_fld_of_kept (f := F.gcBootcause_TRIES) (src := 4) (by decide) (by decide) _).trans (lockMissed_tries s)
    have hsrc : (logicReset 4 (lockMissed s)).fld F.gcBootcause_RSTSRC = 4 := State.put_fld ..
    generalize hu : logicReset 4 (lockMissed s) = u at hcode htries hsrc
    exact does_next (congrArg (done s) ((pllTimeout_eq hpll hpast).trans (congrArg retryAwaited hu))) ⟨rfl, hcode, hsrc, htries⟩
  · unfold pllRetry
    rw [if_neg (not_not_intro hretry), passTo_of_past hpast]
  · refine does_eq (congrArg (done s) (sysWrite_of_may hheard (decide_eq_true hj))) (congrArg (fun u => finish w { st := u }) (if_pos ?_))
    simpa using hno
  · exact does_eq (congrArg (done s) (sysWrite_of_may hheard (decide_eq_true hj)))
      (congrArg (fun u => finish w { st := u }) (hostImageWord_of_early hwait hport hk))
  · refine does_served (congrArg (done s) (sysWriteQuiet_of_heard hheard hv hj _)) fun p o h => ⟨?_, ?_, ?_, rfl⟩
    · intro f hf
      have hzero : ∀ f ∈ [F.gcBootcause_CODE, F.gcBootcause_ERR, F.gcBootcause_SECT, F.gcBootcause_DETAIL], (bootEvent 0 0 0 0 s).fld f = 0 := by
        simp (disch := decide) only [bootEvent, List.forall_mem_cons, State.put_fld_ne, State.put_fld, Nat.zero_mod, List.not_mem_nil,
          false_implies, implies_true, and_self]
      exact hzero f hf
    · exact bootEvent_fld (f := F.gcBootcause_RSTSRC) 0 0 0 0 s 0 0 (by decide)
    · exact bootEvent_fld (f := F.gcBootcause_TRIES) 0 0 0 0 s 0 0 (by decide)
  · have hfail : hostImageTimeout s = bootFail 5 0 0 (s.fld F.gcBootctl_HICNT % 256) s := by
      unfold hostImageTimeout
      rw [if_neg (not_not_intro hwait), passTo_of_past hpast]
    obtain ⟨hpll, hcode, hsrc, hdetail⟩ := bootFail_leaves 5 0 0 (s.fld F.gcBootctl_HICNT % 256) s
    exact does_next (congrArg (done s) hfail) ⟨hpll, hcode, hsrc, hdetail.trans (Nat.mod_mod _ 256)⟩
  · rw [sysWriteQuiet_of_supervisor hheard hsup, bootComplete, if_neg (by simp [hrun, happ])]
  · rw [sysWriteQuiet_of_supervisor hheard hsup, bootComplete, if_pos (by simpa using hno)]
  · exact does_eq rfl (by rw [bootWatchdog, hend])
  · have hfail : bootWatchdog s = bootFail 6 0 0 0 s := by
      rw [bootWatchdog, hend]
      exact congrArg (bootFail 6 0 0 0) (passTo_of_past hpast)
    obtain ⟨hpll, hcode, hsrc, -⟩ := bootFail_leaves 6 0 0 0 s
    exact does_next (congrArg (done s) hfail) ⟨hpll, hcode, hsrc, rfl⟩

end Sys2Proof.Machine
end

section
/-! The statement of the leases, which fails where an asked lease is held already. -/

namespace Sys2Proof.Machine

/-- A request of engine 0 for lease 0, which costs more than CAP allows. -/
def costlyAsk : OReq := { id := 0, use := .lease 0 (some 0), fn := 0, inc := 0, cost := 5000, hw := false, t0 := 0 }

/-- The request waits though its lease is shown as held, and the stable of its engine is gated. -/
def heldLeaseAsked : State :=
  State.put (State.put (State.put { boot := { phase := .running }, pw := { queue := [costlyAsk] } } F.pwLease_STATE 2 0) F.stCtl_RELD 1 0)
    F.stDqstat_GATED 1 0

/-- A lease that stands as held after the round wakes the stable of the engine that asked for it (R126). -/
theorem ostlerReconsider_heldLeaseAsked_waking : ((ostlerReconsider heldLeaseAsked).st 0).waking = some false := by decide

/-- Refutes O54: a waiting request that CAP holds back stays, but its lease is held already, so the round wakes the gated stable of its
engine, and the state is not as it was. -/
theorem not_leasesAreGrantedWithinBudget : ¬ Obligations.LeasesAreGrantedWithinBudget := by
  intro h
  obtain ⟨-, -, -, -, -, hcapped, -⟩ := h heldLeaseAsked (by decide)
  obtain ⟨t, ht, hstays⟩ := hcapped costlyAsk [] rfl (by decide)
  obtain rfl : t = notify heldLeaseAsked (ostlerReconsider heldLeaseAsked) := (Host.Outcome.next.inj ht).symm
  have hwaking := congrArg (fun t => (t.st 0).waking) hstays
  simp only [State.notify_st_get] at hwaking
  exact absurd (ostlerReconsider_heldLeaseAsked_waking.symm.trans hwaking) (by decide)

end Sys2Proof.Machine
end

section
/-! The statement of the pin machines' instructions, which fails where EMIT moves its bits into G. -/

namespace Sys2Proof.Machine

/-- EMIT of one bit into G: bit 6 of the instruction is set. -/
def emitToG : Nat := 5 * 2 ^ 20 + 2 ^ 6 + 1

/-- Machine 0 of block 0 runs with TH full of ones, at an EMIT into G. -/
def emitting : State :=
  State.put (State.put (State.put (State.put ({ boot := { phase := .running } } : State) F.gcLaystat_APPLIED 1) F.pmCfg0_EN 1) F.pmCtl_RUN 1)
    F.pmProg_IEVEN emitToG |>.setMach 0 0 { th := BitVec.allOnes 48, tn := 48 }

theorem pmSteps_emitting : PmSteps emitting 0 0 5 emitToG := by decide +kernel

/-- The bit that leaves TH enters G (R301). -/
theorem pmStep_emitting_g : ((pmStep 0 0 5 emitting).mach 0 0).g ≠ ((pmAt 0 0 5 emitting).mach 0 0).g := by decide +kernel

/-- Refutes O48: an EMIT whose bit 6 is set shifts its bits into G, so G is not as it was. -/
theorem not_pinMachinesRunTheirProgram : ¬ Obligations.PinMachinesRunTheirProgram := by
  rintro ⟨-, hgoOn, -⟩
  obtain ⟨-, -, -, -, -, -, hemit, -⟩ := hgoOn emitting 0 0 5 emitToG pmSteps_emitting
  obtain ⟨t, ht, hgoes⟩ := hemit rfl (.inl (by decide +kernel))
  obtain rfl : t = notify emitting (pmStep 0 0 5 emitting) := (Host.Outcome.next.inj ht).symm
  have hg := congrArg PmS.g hgoes
  simp only [State.notify_mach_get] at hg
  exact pmStep_emitting_g hg

end Sys2Proof.Machine
end

section
/-! The statement of the Paddock's node, which fails where a back-off ends in a node that has no role. -/

namespace Sys2Proof.Machine

/-- ALONE and a back-off in slot 0 stand in a node whose ROLE is 0. -/
def loneWithoutRole : State := State.put { tick := 1, pd := { boff := [(0, 1)] } } F.pdStat_ALONE 1

/-- MODE reads 0 in a node without a role, whatever ALONE shows (R269). -/
theorem pdBackoffEnd_loneWithoutRole_mode : (pdBackoffEnd 0 loneWithoutRole).fld F.pdStat_MODE = 0 := by decide +kernel

/-- Refutes O46: the end of the lone master's back-off is said to show MODE 5, but a node without a role shows MODE 0. -/
theorem not_paddockNodesSendListenAndAlign : ¬ Obligations.PaddockNodesSendListenAndAlign := by
  rintro ⟨-, -, hlisten⟩
  obtain ⟨hbackoff, -⟩ := hlisten loneWithoutRole
  obtain ⟨-, hends⟩ := hbackoff 0
  obtain ⟨hlone, -⟩ := hends (by decide) (by decide)
  obtain ⟨t, ht, -, hmode, -⟩ := hlone (by decide)
  obtain rfl : t = notify loneWithoutRole (pdBackoffEnd 0 loneWithoutRole) := (Host.Outcome.next.inj ht).symm
  obtain ⟨hmode, -⟩ := hmode rfl
  rw [State.notify_fld_get] at hmode
  exact absurd (pdBackoffEnd_loneWithoutRole_mode.symm.trans hmode) (by decide)

end Sys2Proof.Machine
end

section
/-! The statement of descriptors, which fails where a descriptor without data names a buffer in a bank that drains to its function. -/

namespace Sys2Proof.Machine

/-- Word 0 of a descriptor of LEN 0 and ROUTE 1, word 1 with P0 in its mask, word 3 with a buffer inside bank 1. -/
def emptyDescriptor : List Word := [wd (2 ^ 37), 1, 0, 4097]

/-- Bank 1 of stable 0 drains to F0, whose release and start task wait for it. -/
def bankDrains : State :=
  let s : State := { boot := { phase := .running, starts := [(0, 0)] }, yard := { known := [12] }
                     fns := [(0, { releasing := true })], stb := [(0, { xfer := [(1, 1)] })] }
  let s := (s.put F.gcLaystat_APPLIED 1).put F.ydVlan_VALID 1
  let s := ((s.put F.ydStat_FREE 100).put F.fnQuota_CELLS 100).put F.epStat_LINK 1
  ((s.put F.fnShare_TASKLIM 5).put F.stCfg_EN 1).put F.fnCfg_AFFINITY 1

/-- The same with the descriptor in the loft, from word 0 on. -/
def emptySubmission : State :=
  emptyDescriptor.zipIdx.foldl (fun s x => memWrite (loftPlace 0 x.2) x.1 s) bankDrains

/-- The bank is handed over before the data are read, and the release pushes the start task (R59, R140). -/
theorem eng_writeSub_emptySubmission :
    (writeSub (.engine 0) 0 0 emptySubmission).st.eng ≠ emptySubmission.eng := by decide +kernel

/-- Refutes O39: a submission whose buffer holds no word is said to leave the engines, but where the buffer's bank drains to the function the
drain ends, and with it the function's release, whose start task an engine takes. -/
theorem not_descriptorsSubmitAndReturn : ¬ Obligations.DescriptorsSubmitAndReturn := by
  rintro ⟨hsubmit, -⟩
  obtain ⟨-, -, -, htaken⟩ := hsubmit emptySubmission 0 0 0 (by decide +kernel) (by decide +kernel)
  obtain ⟨t, ht, -, -, -, -, heng⟩ := htaken rfl (by decide +kernel) (by decide +kernel) (by decide +kernel)
    (wd (2 ^ 37)) 1 0 4097 [] 0 0 0 false (by decide +kernel) (by decide +kernel) (by decide +kernel) (by decide +kernel)
    (by decide +kernel) (by decide +kernel) (by decide +kernel) (by decide +kernel) (by decide +kernel) (by decide) (by decide +kernel)
    (by decide +kernel) (by decide +kernel)
  obtain rfl : t = notify emptySubmission (finish (.engine 0) (writeSub (.engine 0) 0 0 emptySubmission)) := by
    refine (Host.Outcome.next.inj ht).symm.trans (congrArg (notify emptySubmission) ?_)
    rw [if_pos (by decide +kernel), if_pos (by decide +kernel)]; rfl
  rw [State.notify_eng] at heng
  exact eng_writeSub_emptySubmission ((show _ = _ by decide +kernel : (writeSub (.engine 0) 0 0 emptySubmission).st.eng
    = (finish (.engine 0) (writeSub (.engine 0) 0 0 emptySubmission)).eng).trans heng)

end Sys2Proof.Machine
end

section
/-! Firmware's accesses to the pin machines: FIFOs, injection, run, stop, restart and the block's flags (R295, R302, R303, R305). -/

namespace Sys2Proof.Machine

variable {s : State} {w : Who} {b m : Nat}

theorem setMach_setMach (s : State) (b m : Nat) (x y : PmS) : (s.setMach b m x).setMach b m y = s.setMach b m y := by
  simp only [State.setMach, Tab.set_set]

/-- A register whose writers are named refuses everyone else. -/
theorem blockWrite_of_not_may {ok : State → Bool} {f : State → State} (hheard : s.heard w = true) (happ : s.applied = true)
    (h : ok s = false) : blockWrite w ok f s = finish w (denied s) := by
  simp [blockWrite, blockAccess, open_, allow, hheard, happ, h]

theorem blockWrite_of_may {ok : State → Bool} {f : State → State} (hheard : s.heard w = true) (happ : s.applied = true)
    (h : ok s = true) : blockWrite w ok f s = finish w { st := f s } := by
  simp [blockWrite, blockAccess, open_, allow, hheard, happ, h]

theorem finish_served_mach (w : Who) (s : State) (b m : Nat) : (finish w { st := s }).mach b m = s.mach b m := by cases w <;> rfl

theorem finish_served_act (w : Who) (s : State) : (finish w { st := s }).act = s.act := by cases w <;> rfl

/-! ### FIFOs -/

theorem ptxWrite_of_room (v : Word) (h : (s.mach b m).txf.length < s.txCap b m) : ptxWrite b m v s =
    (s.setMach b m { s.mach b m with txf := (s.mach b m).txf ++ [v]
                                     txAt := if (s.mach b m).txf = [] then s.tick + 1 else (s.mach b m).txAt }).put F.pmStat_TDISP 0 b m :=
  if_neg (Nat.not_le.2 h)

theorem ptxWrite_of_full (v : Word) (h : s.txCap b m ≤ (s.mach b m).txf.length) :
    ptxWrite b m v s = (s.put F.pmStat_TDISP 5 b m).bump F.pmCnt_TXDROP b m := if_pos h

theorem prxRead_of_empty (h : (s.mach b m).rxf = []) : prxRead b m s = (0, s.put F.pmStat_RXV 0 b m) := by simp [prxRead, h]

theorem prxRead_of_word {v : Word} {rest : List Word} (h : (s.mach b m).rxf = v :: rest) :
    prxRead b m s = (v, (s.setMach b m { s.mach b m with rxf := rest }).put F.pmStat_RXV 1 b m) := by simp [prxRead, h]

/-! ### Injection, run, stop and restart -/

/-- The machine's state once its stalled instruction is given up (R305). -/
def PmS.afresh (x : PmS) : PmS :=
  { x with tgt := none, chg := none, marked := false, cur := none, stall := if x.stalled then 0 else x.stall }

theorem pmAfresh_eq (b m : Nat) (s : State) : pmAfresh b m s = s.setMach b m (s.mach b m).afresh := rfl

/-- Where the step begins in which an injected instruction runs (R305). -/
def State.injEdge (s : State) (b m : Nat) : Nat :=
  if (s.mach b m).stalled then (if (s.mach b m).at256 < s.tick * 256 then s.pmStop b m else (s.mach b m).at256)
  else if s.on F.pmCtl_RUN b m || (s.mach b m).halting then (s.mach b m).at256
  else s.tick * 256

theorem injWrite_of_pending (v : BitVec 24) (h : (s.mach b m).inj ≠ none) : injWrite b m v s = s.put F.pmStat_IDISP 5 b m :=
  if_pos (Option.isSome_iff_ne_none.2 h)

theorem injWrite_of_none (v : BitVec 24) (h : (s.mach b m).inj = none) : injWrite b m v s =
    (s.setMach b m { (s.mach b m).afresh with inj := some v, injAt := s.tick, held := false, at256 := s.injEdge b m }).put F.pmStat_IDISP 0 b m := by
  simp only [injWrite, h, Option.isSome_none, Bool.false_eq_true, if_false, pmAfresh_eq, State.setMach_mach, setMach_setMach,
    State.setMach_tick]
  rfl

theorem injEdge_of_not_stalled (h : (s.mach b m).stalled = false) :
    s.injEdge b m = if s.fld F.pmCtl_RUN b m = 0 ∧ (s.mach b m).halting = false then s.tick * 256 else (s.mach b m).at256 := by
  by_cases hr : s.fld F.pmCtl_RUN b m = 0 <;> cases hh : (s.mach b m).halting <;> simp [State.injEdge, State.on, h, hr, hh]

/-- The divider's edge of a stalled machine lies within a step of now, a whole number of steps from its last one. -/
theorem injEdge_of_stalled (h : (s.mach b m).stalled = true) (hl : 0 < s.stepLen b m) :
    s.tick * 256 ≤ s.injEdge b m ∧ s.stepLen b m ∣ s.injEdge b m - (s.mach b m).at256
      ∧ s.injEdge b m < max ((s.mach b m).at256 + 1) (s.tick * 256) + s.stepLen b m := by
  simp only [State.injEdge, h, if_true, State.pmStop]
  generalize s.tick * 256 = now, (s.mach b m).at256 = a, s.stepLen b m = l at hl ⊢
  by_cases hlt : a < now
  · rw [if_pos hlt, Nat.add_sub_cancel_left]
    have hq := Nat.div_add_mod (now + l - 1 - a) l
    have hm := Nat.mod_lt (now + l - 1 - a) hl
    have hpos : 1 ≤ (now + l - 1 - a) / l := (Nat.one_le_div_iff hl).2 (by omega)
    rw [max_eq_right hpos, Nat.mul_comm]
    exact ⟨by omega, Dvd.intro _ rfl, by omega⟩
  · rw [if_neg hlt, Nat.sub_self]
    exact ⟨by omega, Nat.dvd_zero _, by omega⟩

theorem pmStart_of_running (h : s.fld F.pmCtl_RUN b m ≠ 0) : pmStart b m s = s := if_pos (State.on_eq_true.2 h)

theorem pmStart_of_stopped (h : s.fld F.pmCtl_RUN b m = 0) : pmStart b m s =
    (s.setMach b m { (s.mach b m).afresh with stall := 0, held := false, halting := false, haltAt := 0
                                              at256 := if (s.mach b m).halting then (s.mach b m).at256 else s.tick * 256 }).put F.pmCtl_RUN 1 b m := by
  have hoff : ¬s.on F.pmCtl_RUN b m = true := by simp [State.on, h]
  rw [pmStart, if_neg hoff]
  exact congrArg (fun u : State => u.put F.pmCtl_RUN 1 b m) ((congrArg _ (by rw [pmAfresh_eq, State.setMach_mach]; rfl)).trans (setMach_setMach s b m _ _))

theorem pmHalt_of_stopped (h : s.fld F.pmCtl_RUN b m = 0) : pmHalt b m s = s := if_pos (by simp [State.on, h])

/-- The machine's state at a stop, `now` in 1/256 ticks and `l` its step (R305). -/
def PmS.stopped (x : PmS) (now l : Nat) : PmS :=
  if x.stalled then { x.afresh with stall := 6, held := x.inj.isSome }
  else if now < x.at256 then { x.afresh with stall := 6, at256 := now, haltAt := x.at256 - (x.at256 - now) / l * l }
  else if (now - x.at256) % l = 0 then { x.afresh with stall := 6 }
  else { x.afresh with halting := true }

theorem pmHalt_of_running (h : s.fld F.pmCtl_RUN b m ≠ 0) :
    pmHalt b m s = (s.put F.pmCtl_RUN 0 b m).setMach b m ((s.mach b m).stopped (s.tick * 256) (s.stepLen b m)) := by
  have hon : (!s.on F.pmCtl_RUN b m) = false := by simp [State.on, h]
  simp only [pmHalt, hon, Bool.false_eq_true, if_false, pmAfresh_eq, State.put_mach_get, State.setMach_mach]
  exact setMach_setMach (s.put F.pmCtl_RUN 0 b m) b m _ _

/-- A stop keeps PC, G and the FIFOs and gives up what a stalled instruction holds. -/
theorem PmS.stopped_keeps (x : PmS) (now l : Nat) : (x.stopped now l).cur = none ∧ (x.stopped now l).pc = x.pc
    ∧ (x.stopped now l).g = x.g ∧ (x.stopped now l).txf = x.txf ∧ (x.stopped now l).rxf = x.rxf := by
  unfold PmS.stopped
  split_ifs <;> exact ⟨rfl, rfl, rfl, rfl, rfl⟩

theorem PmS.stopped_of_stalled {x : PmS} (h : x.stalled = true) (now l : Nat) :
    x.stopped now l = { x.afresh with stall := 6, held := x.inj.isSome } := if_pos h

theorem PmS.stopped_of_idle {x : PmS} {now : Nat} (h : x.stalled = false) (hidle : now < x.at256) (l : Nat) :
    x.stopped now l = { x.afresh with stall := 6, at256 := now, haltAt := x.at256 - (x.at256 - now) / l * l } := by
  rw [PmS.stopped, if_neg (by simp [h]), if_pos hidle]

theorem PmS.stopped_of_step {x : PmS} {now l : Nat} (h : x.stalled = false) (hat : x.at256 ≤ now) (hl : ¬l ∣ now - x.at256) :
    x.stopped now l = { x.afresh with halting := true } := by
  rw [PmS.stopped, if_neg (by simp [h]), if_neg (Nat.not_lt.2 hat), if_neg fun h => hl (Nat.dvd_of_mod_eq_zero h)]

/-- The machine's state after RESTART, PC at `pc`. -/
def PmS.restarted (x : PmS) (pc : Nat) : PmS :=
  { x.afresh with pc := pc, c0 := 0, c1 := 0, g := 0, th := 0, tn := 0, rg := 0, rn := 0, lst := 0 }

theorem pmReload_eq (b m : Nat) (s : State) : pmReload b m s = s.setMach b m ((s.mach b m).restarted (s.fld F.pmCfg2_START b m)) := by
  simp only [pmReload, pmAfresh_eq, State.setMach_mach, setMach_setMach, State.setMach_fld_get]
  rfl

/-! ### The block's flags -/

/-- One bit of a number cleared. -/
theorem testBit_sub_bit (v f k : Nat) : (v - bits v f 1 * 2 ^ f).testBit k = (v.testBit k && !(k == f)) := by
  have hr : v % 2 ^ f < 2 ^ f := Nat.mod_lt _ (Nat.two_pow_pos f)
  have hv : v = 2 ^ f * (v / 2 ^ f) + v % 2 ^ f := (Nat.div_add_mod _ _).symm
  have hc : v - bits v f 1 * 2 ^ f = 2 ^ f * (2 * (v / 2 ^ f / 2)) + v % 2 ^ f := by
    have hq : 2 * (v / 2 ^ f / 2) = v / 2 ^ f - bits v f 1 := by simp only [bits]; omega
    have hle : bits v f 1 ≤ v / 2 ^ f := Nat.mod_le _ _
    rw [hq, Nat.mul_sub, Nat.mul_comm (bits v f 1)]
    have := Nat.mul_le_mul_left (2 ^ f) hle
    omega
  rw [hc, Nat.testBit_two_pow_mul_add _ hr]
  conv_rhs => rw [hv, Nat.testBit_two_pow_mul_add _ hr]
  rcases lt_trichotomy k f with hlt | rfl | hgt
  · simp [hlt, hlt.ne]
  · simp
  · obtain ⟨j, hj⟩ : ∃ j, k - f = j + 1 := ⟨k - f - 1, by omega⟩
    simp [hgt.not_gt, hgt.ne', hj, Nat.testBit_succ]

/-- The flag was raised in this tick, and stays (R302). -/
def State.flagFresh (s : State) (b f : Nat) : Bool := Tab.get 0 s.flagAt (8 * b + f) == s.tick + 1

theorem lowerFlag_testBit (f k : Nat) (h : s.fld F.piFlags_FLAG b < 256) : ((lowerFlag b f s).fld F.piFlags_FLAG b).testBit k =
    ((s.fld F.piFlags_FLAG b).testBit k && !(k == f && !s.flagFresh b f)) := by
  by_cases hf : Tab.get 0 s.flagAt (8 * b + f) = s.tick + 1
  · simp [lowerFlag, State.flagFresh, hf]
  · have hfresh : s.flagFresh b f = false := by simpa [State.flagFresh] using hf
    have hlt : s.fld F.piFlags_FLAG b - bits (s.fld F.piFlags_FLAG b) f 1 * 2 ^ f < 2 ^ F.piFlags_FLAG.width :=
      lt_of_le_of_lt (Nat.sub_le _ _) h
    rw [lowerFlag, if_neg hf, State.put_fld, Nat.mod_eq_of_lt hlt, testBit_sub_bit, hfresh]
    simp

theorem lowerFlag_frame (b f : Nat) (s : State) : (lowerFlag b f s).flagAt = s.flagAt ∧ (lowerFlag b f s).tick = s.tick
    ∧ (s.fld F.piFlags_FLAG b < 256 → (lowerFlag b f s).fld F.piFlags_FLAG b < 256) := by
  unfold lowerFlag
  split_ifs
  · exact ⟨rfl, rfl, id⟩
  · refine ⟨rfl, rfl, fun _ => ?_⟩
    rw [State.put_fld]
    exact Nat.mod_lt _ (by decide)

/-- The flags of a list that a write names are lowered, but for those raised in this tick. -/
def lowerFlags (b : Nat) (v : BitVec 8) (fs : List Nat) (s : State) : State :=
  fs.foldl (fun s f => if v.getLsbD f then lowerFlag b f s else s) s

theorem lowerFlags_testBit (v : BitVec 8) (fs : List Nat) (k : Nat) (h : s.fld F.piFlags_FLAG b < 256) :
    ((lowerFlags b v fs s).fld F.piFlags_FLAG b).testBit k =
      ((s.fld F.piFlags_FLAG b).testBit k && !(decide (k ∈ fs) && (v.getLsbD k && !s.flagFresh b k))) := by
  induction fs generalizing s with
  | nil => simp [lowerFlags]
  | cons f fs ih =>
    rw [lowerFlags, List.foldl_cons]
    by_cases hv : v.getLsbD f = true
    · obtain ⟨hat, htick, hlt⟩ := lowerFlag_frame b f s
      have hfresh : (lowerFlag b f s).flagFresh b k = s.flagFresh b k := by rw [State.flagFresh, State.flagFresh, hat, htick]
      rw [if_pos hv]
      refine (ih (hlt h)).trans ?_
      rw [lowerFlag_testBit _ _ h, hfresh]
      by_cases hk : k = f
      · subst hk
        cases s.flagFresh b k <;> simp [hv]
      · simp [hk, beq_false_of_ne hk]
    · rw [if_neg hv]
      refine (ih h).trans ?_
      by_cases hk : k = f
      · subst hk
        simp [hv]
      · simp [hk]

/-! ### The statement -/

/-- Settles O50: each access is the row's own write of the machine where R295 lets it, and a refusal elsewhere. -/
theorem firmwareDrivesPinMachines : Obligations.FirmwareDrivesPinMachines := by
  intro s w b m hheard happ
  dsimp only
  refine ⟨fun hno v i => ?_, fun hmay => ?_, fun v hsup hflags => ?_⟩
  · refine ⟨does_eq rfl (blockWrite_of_not_may hheard happ hno), does_eq rfl ?_, does_eq rfl (blockWrite_of_not_may hheard happ hno),
      fun c hc => ?_⟩
    · simp [hheard, happ, hno]
    · simp only [List.mem_cons, List.not_mem_nil, or_false] at hc
      obtain rfl | rfl | rfl | rfl := hc <;> exact does_eq rfl (blockWrite_of_not_may hheard happ hno)
  · have hread {r : Word × State} (hr : prxRead b m s = r) : Does (.pmPrxRead w b m) s fun t =>
        t = notify s (finishRead w { st := r.2 } r.1 false) := does_eq rfl (by simp [hheard, happ, hmay, hr])
    have hwrite {f : State → State} {u : State} (hf : f s = u) : blockWrite w (·.mayPm w b m) f s = finish w { st := u } :=
      hf ▸ blockWrite_of_may hheard happ hmay
    refine ⟨fun v hroom => does_eq rfl (hwrite (ptxWrite_of_room v hroom)), fun v hfull => does_eq rfl (hwrite (ptxWrite_of_full v hfull)),
      fun hnil => hread (prxRead_of_empty hnil), fun v rest hcons => hread (prxRead_of_word hcons),
      fun v hinj => does_eq rfl (hwrite (injWrite_of_pending v hinj)), fun v hinj => ?_, fun hstop => ?_, fun hrun => ?_, ?_,
      does_eq rfl (hwrite rfl)⟩
    · exact does_next rfl ⟨s.injEdge b m, congrArg (notify s) (hwrite (injWrite_of_none v hinj)), injEdge_of_not_stalled,
        injEdge_of_stalled⟩
    · exact ⟨does_eq rfl (hwrite (pmStart_of_stopped hstop)), does_eq rfl (hwrite (pmHalt_of_stopped hstop))⟩
    · refine ⟨?_, does_eq rfl (hwrite (pmStart_of_running hrun))⟩
      refine does_next rfl ?_
      rw [hwrite (pmHalt_of_running hrun), State.notify_fld_get, State.notify_mach_get, finish_served_fld, finish_served_mach,
        State.setMach_mach, State.setMach_fld_get, State.put_fld]
      obtain ⟨hcur, hpc, hg, htxf, hrxf⟩ := PmS.stopped_keeps (s.mach b m) (s.tick * 256) (s.stepLen b m)
      refine ⟨rfl, hcur, hpc, hg, htxf, hrxf, fun hst => ?_, fun hst hidle => ?_, fun hst hat hl => ?_⟩
      · rw [PmS.stopped_of_stalled hst]; exact ⟨rfl, rfl, rfl⟩
      · rw [PmS.stopped_of_idle hst hidle]; exact ⟨rfl, rfl⟩
      · rw [PmS.stopped_of_step hst hat hl]
        exact ⟨rfl, if_neg (by simp [hst])⟩
    · refine does_next rfl ?_
      rw [hwrite (pmReload_eq b m s), State.notify_mach_get, State.notify_act, finish_served_mach, finish_served_act, State.setMach_mach]
      exact ⟨rfl, rfl, rfl, rfl, rfl, rfl, rfl, rfl, rfl, rfl, rfl⟩
  · refine does_next rfl fun f hf => ?_
    rw [State.notify_fld_get, blockWrite_of_may hheard happ hsup, finish_served_fld]
    refine (lowerFlags_testBit v (List.range 8) f hflags).trans ?_
    simp [hf, State.flagFresh]

end Sys2Proof.Machine
end

section
/-! What takes no time: the services that run while ticks pass, so that `n` ticks are `n` ticks later. -/

namespace Sys2Proof.Machine

theorem setRaw_tick (a : SramWord) (v : Stored) (s : State) : (s.setRaw a v).tick = s.tick := by
  cases a with
  | mbq m sd k => rfl
  | cell id l =>
    unfold State.setRaw
    dsimp only
    split <;> rfl
  | _ => rfl

theorem countCE_tick (a : SramWord) (s : State) : (countCE a s).tick = s.tick := by
  unfold countCE
  dsimp only
  split
  · rfl
  · split <;> rfl

theorem memLog_tick (n wh eng a : Nat) (syn : BitVec 8) (s : State) : (memLog n wh eng a syn s).tick = s.tick := by
  simp only [memLog, State.put_tick]

theorem countUE_tick (a : SramWord) (y : BitVec 8) (s : State) : (countUE a y s).tick = s.tick := by
  unfold countUE
  extract_lets b w t
  have ht : t.tick = s.tick := rfl
  clear_value t
  split
  · rw [logRecord_tick, memLog_tick, State.bump_tick, ht]
  · split
    · rw [logRecord_tick, State.bump_tick, ht]
    · unfold mbLoss
      rw [logRecord_tick, State.bump_tick, ht]
    · rw [logRecord_tick, ht]

theorem countPW_tick (a : SramWord) (s : State) : (countPW a s).tick = s.tick := by
  unfold countPW
  split
  · rfl
  · split <;> rfl

theorem memRead_tick (a : SramWord) (s : State) : (memRead a s).2.tick = s.tick := by
  unfold memRead
  split
  · rfl
  · exact countCE_tick ..
  · exact countUE_tick ..

theorem memUpdate_tick (a : SramWord) (f : Word → Word) (s : State) : (memUpdate a f s).2.tick = s.tick := by
  have hread := memRead_tick a s
  unfold memUpdate
  split
  · rename_i h; rw [h] at hread; exact (setRaw_tick ..).trans hread
  · rename_i h; rw [h] at hread; exact (setRaw_tick ..).trans hread
  · rename_i h; rw [h] at hread; exact (countPW_tick ..).trans hread

theorem onDesc_tick (k d : Nat) (x : RFrame) (g : Nat) (f : Nat → Nat) (s : State) : (onDesc k d x g f s).tick = s.tick := by
  unfold onDesc
  split
  · rfl
  · dsimp only
    split
    · exact memUpdate_tick ..
    · rfl

theorem arriveWord_tick (k d : Nat) (x : RFrame) (i : Nat) (s : State) : (arriveWord k d x i s).tick = s.tick := by
  unfold arriveWord
  exact (onDesc_tick ..).trans (setRaw_tick ..)

theorem settleDir_tick (k d : Nat) (s : State) : (settleDir k d s).tick = s.tick := by
  refine foldl_part (p := State.tick) (fun s n => ?_) _ _
  split
  · rfl
  · dsimp only
    split
    · rfl
    · exact foldl_part (p := State.tick) (fun s i => arriveWord_tick ..) _ _

theorem settleAll_tick (s : State) : (settleAll s).tick = s.tick := by
  unfold settleAll
  split
  · rfl
  · exact foldl_part (p := State.tick) (fun s x => settleDir_tick ..) _ _

theorem noteIdle_tick (s : State) : (noteIdle s).tick = s.tick := by
  refine foldl_part (p := State.tick) (fun s n => ?_) _ _
  split_ifs <;> rfl

theorem engineTime_tick (n : Nat) (s : State) : (engineTime n s).tick = s.tick := by
  refine foldl_part (p := State.tick) (fun s e => ?_) _ _
  dsimp only
  split
  · exact foldl_part (p := State.tick) (fun s n => (deferTask_fnKeeps _ n s).tick) _ _
  · rfl

theorem passTicks_tick (n : Nat) (s : State) : (passTicks n s).tick = s.tick + n := by
  unfold passTicks
  split
  · next h => rw [h, Nat.add_zero]
  · extract_lets t secs b u v
    have ht : t.tick = s.tick := by
      simp only [t]
      split
      · exact noteIdle_tick s
      · rfl
    have hu : u.tick = t.tick + n := rfl
    clear_value secs u
    have hv : v.tick = t.tick + n := by
      simp only [v]
      split
      · exact hu
      · rw [State.bump_tick, hu]
    rw [← ht, ← hv]
    split
    · rw [settleAll_tick, engineTime_tick]
      exact (FnKeeps.foldl (.refl v) (fun s _ => (FnKeeps.refl s).setCtr ..) _).tick
    · rfl

theorem passTo_tick (n : Nat) (s : State) : (passTo n s).tick = max n s.tick := by
  rw [passTo, passTicks_tick]
  omega

end Sys2Proof.Machine
end

section
/-! The steps of a pin machine that waits: how a step and its release run their instruction, and what a wait, a flag and TK's arrival do
(R298, R301, R302, R304). -/

namespace Sys2Proof.Machine

variable {s : State} {b m : Nat} {op i : Nat}

/-! ### A step runs its instruction (R298, R305) -/

theorem pmEnterStall_eq (c : Nat) (injd : Bool) (u : State) : pmEnterStall b m i c 0 injd u = pmStalled b m i c injd u := by
  have hcond : ((decide (c = 1) || decide (c = 2)) && decide (0 ≠ c)) = true ↔ c = 1 ∨ c = 2 := by
    simp only [Bool.and_eq_true, Bool.or_eq_true, decide_eq_true_eq]
    omega
  unfold pmEnterStall pmStalled
  dsimp only
  have hif (v w : State) : (if ((decide (c = 1) || decide (c = 2)) && decide (0 ≠ c)) = true then v else w) = if c = 1 ∨ c = 2 then v else w :=
    if_congr hcond rfl rfl
  rw [hif]
  generalize (if c = 1 ∨ c = 2 then _ else _ : State) = v
  congr 1
  rw [pmAfresh_eq, State.setMach_mach, setMach_setMach]
  rfl

/-- A step of a machine that comes to a legal instruction is the instruction's own, in the state at the step's end. -/
theorem pmStep_eq (h : PmSteps s b m op i) : pmStep b m op s =
    pmFinish b m i (s.pmInj b m).isSome 0 (pmOp b m i ((s.pmStop b m - (pmAt b m op s).stepLen b m) / 256) (pmAt b m op s)) := by
  obtain ⟨hact, hstall, hi, hop, hlegal⟩ := h
  have hst : (s.mach b m).stalled = false := by
    simp only [PmS.stalled, Bool.and_eq_false_iff, decide_eq_false_iff_not]
    omega
  subst hi
  unfold pmStep
  dsimp only
  rw [if_neg (by simp [hact, hst, hop]), if_neg (by simp [hlegal])]
  rfl

theorem pmStep_of_go {u : State} (h : PmSteps s b m op i)
    (ho : pmOp b m i ((s.pmStop b m - (pmAt b m op s).stepLen b m) / 256) (pmAt b m op s) = .go u) :
    pmStep b m op s = pmDone b m i (s.pmInj b m).isSome u := by
  rw [pmStep_eq h, ho]
  rfl

theorem pmStep_of_stall {c : Nat} {u : State} (h : PmSteps s b m op i)
    (ho : pmOp b m i ((s.pmStop b m - (pmAt b m op s).stepLen b m) / 256) (pmAt b m op s) = .stall c u) :
    pmStep b m op s = pmStalled b m i c (s.pmInj b m).isSome u := by
  rw [pmStep_eq h, ho]
  exact pmEnterStall_eq ..

theorem pmOp_waitp (h : bits i 20 4 = 12) (beg : Nat) : pmOp b m i beg s = pmWaitpOp b m i beg s := by simp only [pmOp, h]
theorem pmOp_stamp (h : bits i 20 4 = 13) (beg : Nat) : pmOp b m i beg s = pmStampOp b m i s := by simp only [pmOp, h]
theorem pmOp_mark (h : bits i 20 4 = 14) (beg : Nat) : pmOp b m i beg s = pmMarkOp b m i s := by simp only [pmOp, h]
theorem pmOp_fetch (h : bits i 20 4 = 7) (beg : Nat) : pmOp b m i beg s = pmFetchOp b m i s := by simp only [pmOp, h]

theorem bits_zero_three (i : Nat) : bits i 0 3 = i % 8 := by simp [bits]
theorem bits_zero_four (i : Nat) : bits i 0 4 = i % 16 := by simp [bits]

/-! ### WAITP (R299, R301) -/

/-- The level that a WAITP of mode 0, 1 or 2 waits for. -/
def waitLevel (b m i : Nat) (pins : Nat) (s : State) : Bool :=
  match bits i 4 2 with
  | 0 => pins.testBit ((s.fld F.pmCfg1_SENSEB b m + i % 16) % 16)
  | 1 => pins.testBit (i % 16)
  | _ => (s.fld F.piFlags_FLAG b).testBit (i % 8)

theorem pmWaitpOp_level (beg : Nat) (h : bits i 4 2 < 3) : pmWaitpOp b m i beg s =
    if waitLevel b m i (readPins b beg s).1 s = i.testBit 6 then
      .go ((readPins b beg s).2.setMach b m { s.mach b m with chg := none })
    else .stall 3 (readPins b beg s).2 := by
  unfold pmWaitpOp waitLevel
  rw [bits_zero_three, bits_zero_four]
  generalize bits i 4 2 = k at h
  interval_cases k <;> simp only [beq_iff_eq] <;> rfl

theorem pmWaitpOp_first (beg : Nat) (h : bits i 4 2 = 3) (hx : (s.mach b m).chg = none) : pmWaitpOp b m i beg s =
    .stall 3 ((readPins b beg s).2.setMach b m { s.mach b m with
      chg := some ((readPins b beg s).1.testBit ((s.fld F.pmCfg1_SENSEB b m + i % 16) % 16)) }) := by
  unfold pmWaitpOp
  rw [bits_zero_four]
  simp only [h, hx]
  rfl

theorem pmWaitpOp_changed (beg : Nat) (h : bits i 4 2 = 3)
    (hx : (s.mach b m).chg = some (!(readPins b beg s).1.testBit ((s.fld F.pmCfg1_SENSEB b m + i % 16) % 16))) :
    pmWaitpOp b m i beg s = .go ((readPins b beg s).2.setMach b m { s.mach b m with chg := none }) := by
  unfold pmWaitpOp
  rw [bits_zero_four]
  simp only [h, hx]
  refine if_pos ?_
  change ((readPins b beg s).1.testBit ((s.fld F.pmCfg1_SENSEB b m + i % 16) % 16) != _) = true
  simp

/-! ### What completion leaves (R298, R300) -/

/-- A side action touches the pins, what they showed, and PINERR. -/
structure SideKeeps (s t : State) : Prop where
  pm : t.pm = s.pm
  tick : t.tick = s.tick
  tkBase : t.tkBase = s.tkBase
  fld : ∀ f : Fld, f.id ≠ F.pmStat_PINERR.id → ∀ i j, t.fld f i j = s.fld f i j

namespace SideKeeps
variable {t u : State}

theorem refl (s : State) : SideKeeps s s := ⟨rfl, rfl, rfl, fun _ _ _ _ => rfl⟩

theorem trans (h : SideKeeps s t) (k : SideKeeps t u) : SideKeeps s u :=
  ⟨k.pm.trans h.pm, k.tick.trans h.tick, k.tkBase.trans h.tkBase, fun f hf i j => (k.fld f hf i j).trans (h.fld f hf i j)⟩

theorem foldl {α : Type} {f : State → α → State} (hf : ∀ s x, SideKeeps s (f s x)) (l : List α) (s : State) : SideKeeps s (l.foldl f s) := by
  induction l generalizing s with
  | nil => exact refl s
  | cons x l ih => exact (hf s x).trans (ih _)

end SideKeeps

theorem pinSet_keeps (b m : Nat) (f : PinS → PinS) (j : Nat) (s : State) : SideKeeps s (pinSet b m f j s) := by
  unfold pinSet
  dsimp only
  split
  · exact ⟨rfl, rfl, rfl, fun _ _ _ _ => rfl⟩
  · exact ⟨rfl, rfl, rfl, fun g hg _ _ => State.put_fld_ne _ _ _ _ _ _ _ _ hg⟩

theorem sideAction_keeps (b m i : Nat) (s : State) : SideKeeps s (sideAction b m i s) := by
  unfold sideAction
  dsimp only
  split
  · exact .refl s
  · refine .foldl (fun s k => ?_) _ _
    split_ifs
    · exact pinSet_keeps ..
    · exact pinSet_keeps ..
    · exact .refl s

theorem SideKeeps.mach {t : State} (h : SideKeeps s t) (b m : Nat) : t.mach b m = s.mach b m := by
  unfold State.mach
  rw [h.pm]

theorem pmDone_fld {f : Fld} (hf : f.id ≠ F.pmStat_PINERR.id) (b m i : Nat) (injd : Bool) (u : State) (j k : Nat) :
    (pmDone b m i injd u).fld f j k = u.fld f j k := (sideAction_keeps b m i u).fld f hf j k

theorem pmDone_tick (b m i : Nat) (injd : Bool) (u : State) : (pmDone b m i injd u).tick = u.tick := (sideAction_keeps b m i u).tick

theorem pmDone_tkBase (b m i : Nat) (injd : Bool) (u : State) : (pmDone b m i injd u).tkBase = u.tkBase := (sideAction_keeps b m i u).tkBase

/-- Completion leaves what a STAMP keeps, and ends the stall. -/
theorem pmDone_mach (b m i : Nat) (injd : Bool) (u : State) : ((pmDone b m i injd u).mach b m).lst = (u.mach b m).lst
    ∧ ((pmDone b m i injd u).mach b m).tgt = (u.mach b m).tgt
    ∧ ((pmDone b m i injd u).mach b m).stall = if u.on F.pmCtl_RUN b m then 0 else 6 := by
  have hkeeps := sideAction_keeps b m i u
  have hmach := hkeeps.mach b m
  have hrun : (sideAction b m i u).on F.pmCtl_RUN b m = u.on F.pmCtl_RUN b m := by
    simp only [State.on]
    rw [hkeeps.fld _ (by decide)]
  unfold pmDone pmComplete
  dsimp only
  rw [State.setMach_mach, hrun, hmach]
  exact ⟨rfl, rfl, rfl⟩

/-! ### A wake of a stable is a service (R126) -/

/-- Where the request for a wake leads: registers, the Ostler's books and the stable's own state. -/
theorem hwRequest_wake_eq (n : Nat) (s : State) : ∃ a p t, hwRequest (.wake n) s = { s with act := a, pw := p, stb := t } := by
  have hover (f : Nat) (old u : State) (h : ∃ a p t, u = { s with act := a, pw := p, stb := t }) :
      ∃ a p t, noteOverq f old u = { s with act := a, pw := p, stb := t } := by
    obtain ⟨a, p, t, rfl⟩ := h
    rcases noteOverq_cases f old _ with h | h <;> rw [h]
    · exact ⟨a, p, t, rfl⟩
    · exact ⟨_, p, t, rfl⟩
  unfold hwRequest ostlerRequest
  extract_lets c c' r s1 r'
  split_ifs
  · exact ⟨s.act, s.pw, s.stb, rfl⟩
  · exact ⟨s.act, s.pw, s.stb, rfl⟩
  · exact ⟨_, s.pw, s.stb, rfl⟩
  · exact ⟨_, s.pw, s.stb, rfl⟩
  · exact hover _ _ _ ⟨_, _, _, rfl⟩
  · exact ⟨_, _, s.stb, rfl⟩

theorem wakeStable_eq (n : Nat) (s : State) : ∃ a p t, wakeStable n s = { s with act := a, pw := p, stb := t } := by
  unfold wakeStable askWake
  split_ifs
  · exact ⟨s.act, s.pw, s.stb, rfl⟩
  · obtain ⟨a, p, t, h⟩ := hwRequest_wake_eq n (s.setSt n { s.st n with waking := some false })
    exact ⟨a, p, t, h⟩
  · exact ⟨s.act, s.pw, s.stb, rfl⟩

theorem wakeStable_pm (n : Nat) (s : State) : (wakeStable n s).pm = s.pm := by
  obtain ⟨a, p, t, h⟩ := wakeStable_eq n s
  rw [h]

/-! ### Flags (R302) -/

theorem raiseFlag_keeps (b m f : Nat) (s : State) : (raiseFlag b m f s).pm = s.pm
    ∧ (raiseFlag b m f s).fld F.piFlags_FLAG b = (s.fld F.piFlags_FLAG b ||| 2 ^ f) % 2 ^ F.piFlags_FLAG.width := by
  unfold raiseFlag
  extract_lets t u
  have ht : t.pm = s.pm ∧ t.fld F.piFlags_FLAG b = (s.fld F.piFlags_FLAG b ||| 2 ^ f) % 2 ^ F.piFlags_FLAG.width := ⟨rfl, State.put_fld ..⟩
  have hu : u.pm = t.pm ∧ u.fld F.piFlags_FLAG b = t.fld F.piFlags_FLAG b := ⟨rfl, rfl⟩
  clear_value t u
  rw [← ht.1, ← ht.2, ← hu.1, ← hu.2]
  split
  · exact ⟨wakeStable_pm .., (wakeStable_fld (by decide) ..).trans (State.put_fld_ne _ _ _ _ _ _ _ _ (by decide))⟩
  · exact ⟨rfl, rfl⟩

theorem raiseFlag_testBit (b m f : Nat) (hf : f < 8) (s : State) : ((raiseFlag b m f s).fld F.piFlags_FLAG b).testBit f = true := by
  rw [(raiseFlag_keeps b m f s).2, Nat.testBit_mod_two_pow, Nat.testBit_or, Nat.testBit_two_pow_self, Bool.or_true, Bool.and_true]
  exact decide_eq_true hf

theorem raiseFlag_mach (b m f b' m' : Nat) (s : State) : (raiseFlag b m f s).mach b' m' = s.mach b' m' := by
  unfold State.mach
  rw [(raiseFlag_keeps b m f s).1]

theorem pmStalled_fld {f : Fld} (hf : f.id ≠ F.pmCnt_STALLS.id) (b m i c : Nat) (injd : Bool) (u : State) (j k : Nat) :
    (pmStalled b m i c injd u).fld f j k = u.fld f j k := by
  unfold pmStalled
  extract_lets x v w y
  have hw : w.fld f j k = u.fld f j k := by
    simp only [w]
    split
    · exact State.put_fld_ne _ _ _ _ _ _ _ _ hf
    · rfl
  clear_value w
  rw [← hw]
  split_ifs <;> rfl

/-- A stall of a machine that goes on waiting shows in STALL. -/
theorem pmStalled_mach (c : Nat) (injd : Bool) (u : State) (hc : ¬(c = 1 ∨ c = 2)) (hgo : (u.mach b m).halting = false)
    (hinj : (u.mach b m).inj = none ∨ injd = true) :
    (pmStalled b m i c injd u).mach b m = { u.mach b m with stall := c, cur := some (BitVec.ofNat 24 i) } := by
  unfold pmStalled
  dsimp only
  rw [if_neg hc, State.setMach_mach, if_neg (by simp [hgo]), if_neg (by rcases hinj with h | h <;> simp [h]), State.setMach_mach]

theorem pmMarkOp_raise (h : bits i 5 2 = 0) : pmMarkOp b m i s = .go (raiseFlag b m (i % 8) s) := by
  unfold pmMarkOp
  rw [bits_zero_three]
  simp only [h]

theorem pmMarkOp_lower (h : bits i 5 2 = 1) : pmMarkOp b m i s = .go (lowerFlag b (i % 8) s) := by
  unfold pmMarkOp
  rw [bits_zero_three]
  simp only [h]

theorem pmMarkOp_offer (h : bits i 5 2 = 2) (hx : (s.mach b m).marked = false) :
    pmMarkOp b m i s = .stall 4 (raiseFlag b m (i % 8) (s.setMach b m { s.mach b m with marked := true })) := by
  unfold pmMarkOp
  rw [bits_zero_three]
  simp only [h, hx]
  rfl

theorem pmMarkOp_taken (h : bits i 5 2 = 2) (hx : (s.mach b m).marked = true) (hf : (s.fld F.piFlags_FLAG b).testBit (i % 8) = false) :
    pmMarkOp b m i s = .go (s.setMach b m { s.mach b m with marked := false }) := by
  unfold pmMarkOp
  rw [bits_zero_three]
  simp only [h, hx, hf]
  rfl

theorem pmMarkOp_await (h : bits i 5 2 = 3) : pmMarkOp b m i s =
    if (s.fld F.piFlags_FLAG b).testBit (i % 8) = true then .go (lowerFlag b (i % 8) s) else .stall 4 s := by
  unfold pmMarkOp
  rw [bits_zero_three]
  simp only [h]

/-! ### STAMP (R245, R304) -/

/-- The target that a STAMP finds when its step begins. -/
def stampTarget (i : Nat) (x : PmS) : BitVec 32 :=
  if bits i 5 2 = 0 then x.g.setWidth 32 else if bits i 5 2 = 1 then (x.txf.headD 0).setWidth 32 else x.lst + x.g.setWidth 32

/-- The machine once a STAMP has taken its target: mode 1 takes it from the transmit FIFO. -/
def stampTaken (i : Nat) (x : PmS) : PmS := if bits i 5 2 = 1 then { x with txf := x.txf.drop 1 } else x

/-- The target is reached: LST keeps it, and the divider restarts `ago` ticks before now. -/
def stamped (b m : Nat) (t : BitVec 32) (ago : Nat) (u : State) : State :=
  u.setMach b m { u.mach b m with tgt := none, lst := t, at256 := (u.tick - ago) * 256 }

theorem stamped_tick (b m : Nat) (t : BitVec 32) (ago : Nat) (u : State) : (stamped b m t ago u).tick = u.tick := rfl

theorem stamped_tkBase (b m : Nat) (t : BitVec 32) (ago : Nat) (u : State) : (stamped b m t ago u).tkBase = u.tkBase := rfl

/-- A target that was past is counted, and the STAMP ends in the next tick. -/
def stampLate (b m : Nat) (u : State) : State := ((passTicks 1 u).put F.pmStat_TKLATE 1 b m).bump F.pmCnt_LATE b m

theorem pmStampOp_empty (hsrc : bits i 5 2 = 1) (hx : (s.mach b m).tgt = none) (hnone : s.txNone b m = true) :
    pmStampOp b m i s = .stall 1 s := by
  simp [pmStampOp, hsrc, hx, hnone]

theorem pmStampOp_first (hx : (s.mach b m).tgt = none) (hword : bits i 5 2 = 1 → s.txNone b m = false) :
    pmStampOp b m i s =
      if 0 ≤ past32 s.tk (stampTarget i (s.mach b m)).toNat then
        .go (stamped b m (stampTarget i (s.mach b m)) 0 (stampLate b m (if bits i 5 2 = 1 then s.setMach b m (stampTaken i (s.mach b m)) else s)))
      else .stall 5 (s.setMach b m { stampTaken i (s.mach b m) with tgt := some (stampTarget i (s.mach b m)) }) := by
  unfold pmStampOp
  simp only [hx]
  rcases hk : bits i 5 2 with _ | _ | k
  · simp [stampTarget, stampTaken, hk, stamped, stampLate]
  · simp [stampTarget, stampTaken, hk, stamped, stampLate, hx, hword hk, setMach_setMach, -BitVec.toNat_setWidth]
  · simp [stampTarget, stampTaken, hk, stamped, stampLate]

/-- A target that was past when the step began: TKLATE, its count, and a tick later. -/
theorem stampLate_spec (b m : Nat) (u : State) : (stampLate b m u).fld F.pmStat_TKLATE b m = 1
    ∧ (stampLate b m u).fld F.pmCnt_LATE b m = min (u.fld F.pmCnt_LATE b m + 1) (2 ^ F.pmCnt_LATE.width - 1)
    ∧ (stampLate b m u).tick = u.tick + 1 := by
  unfold stampLate
  refine ⟨?_, ?_, ?_⟩
  · rw [State.bump_fld_ne _ _ _ _ _ _ _ _ (by decide), State.put_fld]
    rfl
  · rw [State.bump_fld, State.put_fld_ne _ _ _ _ _ _ _ _ (by decide), (passTicks_steady 1 u).fld _ (by decide)]
  · rw [State.bump_tick, State.put_tick, passTicks_tick]

/-- A count that is as far before its target as it still counts comes to it. -/
theorem add_past32_neg {c x : Nat} {d : Int} (hx : x < 2 ^ 32) (hd : past32 (c % 2 ^ 32) x = d) (hneg : d ≤ 0) :
    (c + (-d).toNat) % 2 ^ 32 = x := by
  simp only [past32, sdiff, toSigned] at hd
  norm_num at hd hx ⊢
  split_ifs at hd <;> omega

theorem tk_of_past32_neg {t : BitVec 32} {d : Int} (hd : past32 s.tk t.toNat = d) (hneg : d ≤ 0) {u : State}
    (htick : u.tick = s.tick + (-d).toNat) (hbase : u.tkBase = s.tkBase) (hle : s.tkBase ≤ s.tick) : u.tk = t.toNat := by
  have hc : u.tick - u.tkBase = s.tick - s.tkBase + (-d).toNat := by omega
  rw [State.tk, hc]
  exact add_past32_neg t.isLt hd hneg

theorem pmStampOp_waiting {t : BitVec 32} (hx : (s.mach b m).tgt = some t) : pmStampOp b m i s =
    if 0 ≤ past32 s.tk t.toNat then .go (stamped b m t (past32 s.tk t.toNat).toNat s)
    else .go (stamped b m t 0 (passTicks (-past32 s.tk t.toNat).toNat s)) := by
  unfold pmStampOp
  simp only [hx]
  rfl

/-! ### A stall is released (R298, R303) -/

/-- The instruction that a stalled machine tries again. -/
def State.pmCur (s : State) (b m : Nat) : Nat := ((s.mach b m).cur.map BitVec.toNat).getD (s.pmInsn b m)

/-- What becomes of a stalled machine whose instruction is tried again with outcome `r`. -/
def pmTried (b m i : Nat) (s : State) (r : PmEnd) : State :=
  match r with
  | .stall c t => if c = (s.mach b m).stall then s else pmEnterStall b m i c (s.mach b m).stall (s.mach b m).inj.isSome t
  | r => pmFinish b m i (s.mach b m).inj.isSome (s.mach b m).stall r

theorem pmRelease_eq_ite (b m : Nat) (s : State) : pmRelease b m s =
    if !s.pmActive b m || !(s.mach b m).stalled then s
    else if !s.pmLegal b m (s.pmCur b m) then pmIllegal b m (pmTry b m (s.pmCur b m) (s.pmRetry b m) s)
    else pmTried b m (s.pmCur b m) s
      (pmOp b m (s.pmCur b m) ((s.pmRetry b m - s.stepLen b m) / 256) (pmTry b m (s.pmCur b m) (s.pmRetry b m) s)) := rfl

theorem pmRelease_of_idle (h : s.pmActive b m = false ∨ (s.mach b m).stalled = false) : pmRelease b m s = s := by
  rw [pmRelease_eq_ite]
  refine if_pos ?_
  rcases h with h | h <;> simp [h]

theorem stalled_eq_false {x : PmS} (h : x.stall = 0 ∨ 5 < x.stall) : x.stalled = false := by
  simp only [PmS.stalled, Bool.and_eq_false_iff, decide_eq_false_iff_not]
  omega

theorem pmRelease_of_illegal (hact : s.pmActive b m = true) (hst : (s.mach b m).stalled = true)
    (hlegal : s.pmLegal b m (s.pmCur b m) = false) :
    pmRelease b m s = pmIllegal b m (pmTry b m (s.pmCur b m) (s.pmRetry b m) s) := by
  rw [pmRelease_eq_ite, if_neg (by simp [hact, hst]), if_pos (by simp [hlegal])]

theorem pmIllegal_spec (b m : Nat) (s : State) : (pmIllegal b m s).fld F.pmCtl_RUN b m = 0
    ∧ (pmIllegal b m s).fld F.pmStat_FAULT b m = 1 ∧ ((pmIllegal b m s).mach b m).stall = 7 := by
  unfold pmIllegal
  rw [State.setMach_fld_get, State.setMach_fld_get, State.setMach_mach, State.put_fld_ne _ _ _ _ _ _ _ _ (by decide), State.put_fld,
    State.put_fld]
  exact ⟨rfl, rfl, rfl⟩

/-- A legal instruction that is tried again completes where it does not wait, and leaves the state where it waits as it did. -/
theorem pmRelease_eq (hact : s.pmActive b m = true) (hst : (s.mach b m).stalled = true) (hlegal : s.pmLegal b m (s.pmCur b m) = true)
    {beg : Nat} {u : State} (hu : pmTry b m (s.pmCur b m) (s.pmRetry b m) s = u) (hbeg : (s.pmRetry b m - s.stepLen b m) / 256 = beg) :
    (∀ v, pmOp b m (s.pmCur b m) beg u = .go v → pmRelease b m s = pmDone b m (s.pmCur b m) (s.mach b m).inj.isSome v)
    ∧ (∀ v, pmOp b m (s.pmCur b m) beg u = .stall (s.mach b m).stall v → pmRelease b m s = s) := by
  subst hu hbeg
  refine ⟨fun v hv => ?_, fun v hv => ?_⟩ <;> rw [pmRelease_eq_ite, if_neg (by simp [hact, hst]), if_neg (by simp [hlegal]), hv]
  · rfl
  · exact if_pos rfl

theorem pmTry_of_other (h : bits i 20 4 ≠ 13) : pmTry b m i (s.pmRetry b m) s = pmAgain b m s := if_neg h

theorem pmTry_of_stamp (h : bits i 20 4 = 13) (hst : (s.mach b m).stall ≠ 1) (e : Nat) : pmTry b m i e s = s := by
  simp [pmTry, h, hst]

/-- The machine in the state in which it tries again. -/
theorem pmAgain_mach (b m : Nat) (s : State) : (pmAgain b m s).mach b m = { s.mach b m with at256 := s.pmRetry b m } := by
  have hm : (passTo (s.pmRetry b m / 256) s).mach b m = s.mach b m := by
    unfold State.mach
    rw [(passTo_steady ..).pm]
  unfold pmAgain
  dsimp only
  rw [State.setMach_mach, hm]

theorem pmFetchOp_of_word {v : Word} {rest : List Word} (hcond : i.testBit 0 = true → (s.mach b m).tn = 0)
    (hnone : s.txNone b m = false) (htxf : (s.mach b m).txf = v :: rest) :
    pmFetchOp b m i s = .go (s.setMach b m { s.mach b m with th := v, tn := s.tlen b m, txf := rest }) := by
  have hgo : ¬(i.testBit 0 && decide ((s.mach b m).tn ≠ 0)) = true := by
    simp only [Bool.and_eq_true, decide_eq_true_eq, not_and, not_not]
    exact hcond
  rw [pmFetchOp, if_neg hgo, if_neg (by simp [hnone]), loadTh, htxf]
  rfl

theorem pmFetchOp_of_none (hcond : i.testBit 0 = true → (s.mach b m).tn = 0) (hnone : s.txNone b m = true) :
    pmFetchOp b m i s = .stall 1 s := by
  have hgo : ¬(i.testBit 0 && decide ((s.mach b m).tn ≠ 0)) = true := by
    simp only [Bool.and_eq_true, decide_eq_true_eq, not_and, not_not]
    exact hcond
  rw [pmFetchOp, if_neg hgo, if_pos hnone]

/-- What a STAMP shows that ends its wait. -/
theorem pmDone_stamped (injd : Bool) (t : BitVec 32) (ago : Nat) {u : State} (h : Steady s u) :
    ((pmDone b m i injd (stamped b m t ago u)).mach b m).lst = t
      ∧ ((pmDone b m i injd (stamped b m t ago u)).mach b m).tgt = none
      ∧ ((pmDone b m i injd (stamped b m t ago u)).mach b m).stall = if s.on F.pmCtl_RUN b m then 0 else 6 := by
  obtain ⟨hlst, htgt, hstall⟩ := pmDone_mach b m i injd (stamped b m t ago u)
  rw [hlst, htgt, hstall, stamped, State.setMach_mach, State.setMach_on_get, h.on (by decide)]
  exact ⟨rfl, rfl, rfl⟩

theorem pmStep_stamp (h : PmSteps s b m 13 i) (hx : ((pmAt b m 13 s).mach b m).tgt = none)
    (hword : bits i 5 2 = 1 → (pmAt b m 13 s).txNone b m = false) :
    (past32 (pmAt b m 13 s).tk (stampTarget i ((pmAt b m 13 s).mach b m)).toNat < 0 → pmStep b m 13 s =
      pmStalled b m i 5 (s.pmInj b m).isSome ((pmAt b m 13 s).setMach b m
        { stampTaken i ((pmAt b m 13 s).mach b m) with tgt := some (stampTarget i ((pmAt b m 13 s).mach b m)) }))
    ∧ (0 ≤ past32 (pmAt b m 13 s).tk (stampTarget i ((pmAt b m 13 s).mach b m)).toNat → pmStep b m 13 s =
      pmDone b m i (s.pmInj b m).isSome (stamped b m (stampTarget i ((pmAt b m 13 s).mach b m)) 0 (stampLate b m
        (if bits i 5 2 = 1 then (pmAt b m 13 s).setMach b m (stampTaken i ((pmAt b m 13 s).mach b m)) else pmAt b m 13 s)))) := by
  have hout := (pmOp_stamp (b := b) (m := m) h.2.2.2.1 ((s.pmStop b m - (pmAt b m 13 s).stepLen b m) / 256)).trans (pmStampOp_first hx hword)
  refine ⟨fun hneg => pmStep_of_stall h ?_, fun hpast => pmStep_of_go h ?_⟩
  · rw [hout, if_neg (Int.not_le.2 hneg)]
  · rw [hout, if_pos hpast]

/-- What a STAMP shows whose target was past, from state `u` on, which it has left but for the transmit FIFO. -/
theorem pmDone_stampLate (b m i : Nat) (injd : Bool) (t : BitVec 32) (u : State) (x : PmS) (c : Prop) [Decidable c] :
    (pmDone b m i injd (stamped b m t 0 (stampLate b m (if c then u.setMach b m x else u)))).fld F.pmStat_TKLATE b m = 1
      ∧ (pmDone b m i injd (stamped b m t 0 (stampLate b m (if c then u.setMach b m x else u)))).fld F.pmCnt_LATE b m
        = min (u.fld F.pmCnt_LATE b m + 1) (2 ^ F.pmCnt_LATE.width - 1)
      ∧ ((pmDone b m i injd (stamped b m t 0 (stampLate b m (if c then u.setMach b m x else u)))).mach b m).lst = t
      ∧ (pmDone b m i injd (stamped b m t 0 (stampLate b m (if c then u.setMach b m x else u)))).tick = u.tick + 1 := by
  have hfld : (if c then u.setMach b m x else u).fld F.pmCnt_LATE b m = u.fld F.pmCnt_LATE b m := by split <;> rfl
  have htick : (if c then u.setMach b m x else u).tick = u.tick := by split <;> rfl
  rw [← hfld, ← htick]
  generalize (if c then u.setMach b m x else u) = v
  obtain ⟨hshown, hcount, hnow⟩ := stampLate_spec b m v
  rw [pmDone_fld (by decide), pmDone_fld (by decide), pmDone_tick, (pmDone_mach ..).1]
  refine ⟨hshown, hcount, ?_, hnow⟩
  rw [stamped, State.setMach_mach]

/-! ### The statement -/

/-! ### The statement -/

/-- A STAMP that waits ends when TK comes to its target, at once where TK is past it. -/
theorem pmRelease_stamp {t0 : BitVec 32} (hact : s.pmActive b m = true) (hlegal : s.pmLegal b m (s.pmCur b m) = true)
    (hst : (s.mach b m).stall = 5) (hop : bits (s.pmCur b m) 20 4 = 13) (htgt : (s.mach b m).tgt = some t0) (hbase : s.tkBase ≤ s.tick) :
    (past32 s.tk t0.toNat ≤ 0 → (pmRelease b m s).tk = t0.toNat) ∧ (0 ≤ past32 s.tk t0.toNat → (pmRelease b m s).tick = s.tick)
      ∧ ((pmRelease b m s).mach b m).lst = t0 ∧ ((pmRelease b m s).mach b m).tgt = none
      ∧ ((pmRelease b m s).mach b m).stall = if s.on F.pmCtl_RUN b m then 0 else 6 := by
  have hstalled : (s.mach b m).stalled = true := by simp [PmS.stalled, hst]
  obtain ⟨hgo, -⟩ := pmRelease_eq hact hstalled hlegal (pmTry_of_stamp hop (by omega) _) rfl
  have hout := (pmOp_stamp hop ((s.pmRetry b m - s.stepLen b m) / 256)).trans (pmStampOp_waiting (i := s.pmCur b m) htgt)
  by_cases hpast : 0 ≤ past32 s.tk t0.toNat
  · rw [if_pos hpast] at hout
    rw [hgo _ hout]
    obtain ⟨hlst, htgt, hstall⟩ := pmDone_stamped (b := b) (m := m) (i := s.pmCur b m) (s.mach b m).inj.isSome t0
      (past32 s.tk t0.toNat).toNat (Steady.refl s)
    refine ⟨fun hle => ?_, fun _ => by rw [pmDone_tick, stamped_tick], hlst, htgt, hstall⟩
    exact tk_of_past32_neg (d := 0) (by omega) le_rfl (by rw [pmDone_tick, stamped_tick]; simp) (by rw [pmDone_tkBase, stamped_tkBase]) hbase
  · rw [if_neg hpast] at hout
    rw [hgo _ hout]
    have hsteady := passTicks_steady (-past32 s.tk t0.toNat).toNat s
    obtain ⟨hlst, htgt, hstall⟩ := pmDone_stamped (b := b) (m := m) (i := s.pmCur b m) (s.mach b m).inj.isSome t0 0 hsteady
    refine ⟨fun hle => ?_, fun h => absurd h hpast, hlst, htgt, hstall⟩
    exact tk_of_past32_neg rfl hle (by rw [pmDone_tick, stamped_tick, passTicks_tick]) (by rw [pmDone_tkBase, stamped_tkBase, hsteady.tkBase]) hbase

/-- Settles O49: a step or a release is the instruction's own outcome, which each of the three gives by its condition. -/
theorem pinMachinesWait : Obligations.PinMachinesWait := by
  refine ⟨fun s b m op i h => ?_, fun s b m => ?_⟩
  · dsimp only
    have hop : bits i 20 4 = op := h.2.2.2.1
    refine ⟨fun lvl hw hlvl => ?_, fun sense hsense hw hmode => ?_, fun hs hsrc hx hnone => ?_, fun hs hx hword => ?_, fun hm hmode => ?_,
      fun hm hmode => ?_, fun hm hmode hx => ?_, fun hm hmode hx hf => ?_, fun hm hmode hf => ?_, fun hm hmode hf => ?_⟩
    · subst hw
      have hlt : bits i 4 2 < 3 := by omega
      have hwait : lvl = waitLevel b m i (readPins b ((s.pmStop b m - (pmAt b m 12 s).stepLen b m) / 256) (pmAt b m 12 s)).1 (pmAt b m 12 s) := by
        unfold waitLevel
        rcases hlvl with ⟨hk, hl⟩ | ⟨hk, hl⟩ | ⟨hk, hl⟩ <;> rw [hk] <;> exact hl
      have hout := (pmOp_waitp (b := b) (m := m) hop _).trans
        (pmWaitpOp_level (s := pmAt b m 12 s) ((s.pmStop b m - (pmAt b m 12 s).stepLen b m) / 256) hlt)
      rw [← hwait] at hout
      refine ⟨fun heq => does_eq rfl (pmStep_of_go h ?_), fun hne => does_eq rfl (pmStep_of_stall h ?_)⟩
      · rw [hout, if_pos heq]
      · rw [hout, if_neg hne]
    · subst hw hsense
      exact ⟨fun hx => does_eq rfl (pmStep_of_stall h ((pmOp_waitp hop _).trans (pmWaitpOp_first _ hmode hx))),
        fun hx => does_eq rfl (pmStep_of_go h ((pmOp_waitp hop _).trans (pmWaitpOp_changed _ hmode hx)))⟩
    · subst hs
      exact does_eq rfl (pmStep_of_stall h ((pmOp_stamp hop _).trans (pmStampOp_empty hsrc hx hnone)))
    · subst hs
      obtain ⟨hfuture, hlate⟩ := pmStep_stamp h hx hword
      refine ⟨fun hneg => does_eq rfl (hfuture hneg), fun hpast => does_next rfl ?_⟩
      rw [State.notify_fld_get, State.notify_fld_get, State.notify_mach_get, State.notify_tick, hlate hpast]
      exact pmDone_stampLate ..
    · subst hm
      refine does_next rfl ?_
      rw [State.notify_fld_get, pmStep_of_go h ((pmOp_mark hop _).trans (pmMarkOp_raise hmode)), pmDone_fld (by decide)]
      exact raiseFlag_testBit _ _ _ (Nat.mod_lt _ (by decide)) _
    · subst hm
      exact does_eq rfl (pmStep_of_go h ((pmOp_mark hop _).trans (pmMarkOp_lower hmode)))
    · subst hm
      refine does_next rfl ?_
      rw [State.notify_fld_get, State.notify_mach_get, pmStep_of_stall h ((pmOp_mark hop _).trans (pmMarkOp_offer hmode hx)),
        pmStalled_fld (by decide)]
      refine ⟨raiseFlag_testBit _ _ _ (Nat.mod_lt _ (by decide)) _, fun hgo hinj => ?_⟩
      rw [pmStalled_mach _ _ _ (by decide), raiseFlag_mach, State.setMach_mach]
      · exact ⟨rfl, rfl⟩
      · rw [raiseFlag_mach, State.setMach_mach]
        exact hgo
      · rw [raiseFlag_mach, State.setMach_mach]
        exact hinj
    · subst hm
      exact does_eq rfl (pmStep_of_go h ((pmOp_mark hop _).trans (pmMarkOp_taken hmode hx hf)))
    · subst hm
      exact does_eq rfl (pmStep_of_go h ((pmOp_mark hop _).trans ((pmMarkOp_await hmode).trans (if_pos hf))))
    · subst hm
      exact does_eq rfl (pmStep_of_stall h ((pmOp_mark hop _).trans ((pmMarkOp_await hmode).trans (if_neg (by simp [hf])))))
  · dsimp only
    refine ⟨fun hidle => does_eq rfl (pmRelease_of_idle (hidle.imp_right stalled_eq_false)), fun hact hst hlegal => ?_,
      fun hact hlegal hst hop hcond => ?_, fun t0 hact hlegal hst hop htgt hbase => ?_⟩
    · refine does_next rfl ?_
      rw [State.notify_fld_get, State.notify_fld_get, State.notify_mach_get, pmRelease_of_illegal hact hst hlegal]
      exact pmIllegal_spec ..
    · have hstalled : (s.mach b m).stalled = true := by simp [PmS.stalled, hst]
      obtain ⟨hgo, hstay⟩ := pmRelease_eq hact hstalled hlegal (pmTry_of_other (by rw [State.pmCur, hop]; decide)) rfl
      have hmach := pmAgain_mach b m s
      refine ⟨fun v rest hnone htxf => does_eq rfl (hgo _ ?_), fun hnone => does_eq rfl (hstay (pmAgain b m s) ?_)⟩
      · exact (pmOp_fetch hop _).trans (pmFetchOp_of_word (by rw [hmach]; exact hcond) hnone (by rw [hmach]; exact htxf))
      · rw [hst]
        exact (pmOp_fetch hop _).trans (pmFetchOp_of_none (by rw [hmach]; exact hcond) hnone)
    · refine does_next rfl ?_
      rw [State.notify_tk_get, State.notify_mach_get, State.notify_tick]
      exact pmRelease_stamp hact hlegal hst hop htgt hbase

end Sys2Proof.Machine
end

section
/-! The statement of the power states: requests, transitions and their ends, and the sources that wake the part (R331 to R333). -/

namespace Sys2Proof.Machine

variable {s : State} {w : Who}

/-! ### Requests (R332) -/

theorem psRequest_of_forced {r : Nat} (h : s.pw.forcedRun = true ∨ s.pw.forcedHeld = true) : psRequest r s = s.put F.pwPstat_LDISP 3 :=
  if_pos (by simpa using h)

section
variable {r : Nat} (hr : r < 5) (hrun : s.pw.forcedRun = false) (hheld : s.pw.forcedHeld = false)
include hr hrun hheld

theorem psRequest_of_trans (h : s.fld F.pwPstat_TRANS ≠ 0) : psRequest r s = (hold r s).put F.pwPstat_LDISP 1 := by
  rw [psRequest, if_neg (Nat.not_le.2 hr), if_neg (by simp [hrun, hheld]), if_pos (State.on_eq_true.2 h)]

theorem psRequest_of_same (h : s.fld F.pwPstat_TRANS = 0) (hst : s.fld F.pwPstat_STATE = r) : psRequest r s = s.put F.pwPstat_LDISP 0 := by
  rw [psRequest, if_neg (Nat.not_le.2 hr), if_neg (by simp [hrun, hheld]), if_neg (by simp [State.on, h]), if_pos hst]

theorem psRequest_of_other (h : s.fld F.pwPstat_TRANS = 0) (hst : s.fld F.pwPstat_STATE ≠ r) :
    psRequest r s = (startTrans r s).put F.pwPstat_LDISP 0 := by
  rw [psRequest, if_neg (Nat.not_le.2 hr), if_neg (by simp [hrun, hheld]), if_neg (by simp [State.on, h]), if_neg hst]

end

theorem hold_held (r : Nat) (s : State) : (hold r s).fld F.pwPstat_HV = 1 ∧ (hold r s).fld F.pwPstat_HELD = r % 2 ^ F.pwPstat_HELD.width := by
  unfold hold
  simp (disch := decide) only [State.put_fld_ne, State.put_fld]
  exact ⟨rfl, trivial⟩

/-- A request that is held displaces the one before it (R332). -/
theorem hold_displaces (r : Nat) (h : s.fld F.pwPstat_HV ≠ 0) : (hold r s).fld F.pwPstat_HDISP = 10 ∧ (hold r s).fld F.pwEvt_PREEMPT = 1
    ∧ (hold r s).fld F.pwCnt_PREEMPT = min (s.fld F.pwCnt_PREEMPT + 1) (2 ^ F.pwCnt_PREEMPT.width - 1) := by
  have hp : (hold r s).act = ((((((((s.put F.pwPstat_HDISP 10).bump F.pwCnt_PREEMPT).put F.pwEvt_PREEMPT 1).put F.pwPstat_HV 0).put
      F.pwPstat_HELD 0).put F.pwPstat_HV 1).put F.pwPstat_HELD r)).act := by
    unfold hold preempt
    rw [if_pos (State.on_eq_true.2 h)]
    rfl
  simp only [fld_of_act hp]
  simp (disch := decide) only [State.put_fld_ne, State.put_fld, State.bump_fld, State.bump_fld_ne]
  exact ⟨rfl, rfl, trivial⟩

theorem startTrans_act (r : Nat) (s : State) : (startTrans r s).act = ((s.put F.pwPstat_TRANS 1).put F.pwPstat_TO r).act := rfl

theorem startTrans_shown (r : Nat) (s : State) : ((startTrans r s).put F.pwPstat_LDISP 0).fld F.pwPstat_LDISP = 0
    ∧ ((startTrans r s).put F.pwPstat_LDISP 0).fld F.pwPstat_TRANS = 1
    ∧ ((startTrans r s).put F.pwPstat_LDISP 0).fld F.pwPstat_TO = r % 2 ^ F.pwPstat_TO.width
    ∧ ((startTrans r s).put F.pwPstat_LDISP 0).fld F.pwPstat_STATE = s.fld F.pwPstat_STATE := by
  simp (disch := decide) only [State.put_fld_ne, State.put_fld, fld_of_act (startTrans_act r s)]
  exact ⟨rfl, rfl, trivial, trivial⟩

/-! ### Transitions (R331) -/

/-- The transition's end before what the state entered brings. -/
def transEnded (s : State) : State :=
  let u := (s.put F.pwPstat_TRANS 0).put F.pwPstat_FORCED (b2n s.pw.forcedHeld)
  { u with pw := { u.pw with forcedRun := false } }

/-- The state entered shows. -/
def transShown (t : Nat) (s : State) : State := ((enterState t (transEnded s)).put F.pwPstat_STATE t).put F.pwEvt_PSDONE 1

/-- With no wake latched and no request held a transition ends in its state. -/
theorem completeTrans_of_quiet {t : Nat} (ht : s.fld F.pwPstat_TO = t) (hlatch : (transShown t s).pw.latched = 0 ∨ t < 2)
    (hheld : (transShown t s).fld F.pwPstat_HV = 0) : completeTrans s = transShown t s := by
  subst ht
  have hstart : startHeld (transShown (s.fld F.pwPstat_TO) s) = transShown (s.fld F.pwPstat_TO) s := if_pos (by simp [State.on, hheld])
  refine (if_neg ?_).trans hstart
  change ¬((decide ((transShown (s.fld F.pwPstat_TO) s).pw.latched ≠ 0) && _) = true)
  rcases hlatch with h | h
  · simp [h]
  · simp only [Bool.and_eq_true, Bool.or_eq_true, decide_eq_true_eq]
    omega

theorem transShown_spec (t : Nat) (s : State) : (transShown t s).fld F.pwPstat_STATE = t % 2 ^ F.pwPstat_STATE.width
    ∧ (transShown t s).fld F.pwEvt_PSDONE = 1 := by
  unfold transShown
  simp (disch := decide) only [State.put_fld_ne, State.put_fld]
  exact ⟨trivial, rfl⟩

theorem transShown_fld {f : Fld} (hst : f.id ≠ F.pwPstat_STATE.id) (hdone : f.id ≠ F.pwEvt_PSDONE.id) (t i j : Nat) (s : State) :
    (transShown t s).fld f i j = (enterState t (transEnded s)).fld f i j := by
  unfold transShown
  rw [State.put_fld_ne _ _ _ _ _ _ _ _ hdone, State.put_fld_ne _ _ _ _ _ _ _ _ hst]

theorem transShown_rest (t : Nat) (s : State) : ((transShown t s).pw, (transShown t s).boot, (transShown t s).loft, (transShown t s).eng)
    = ((enterState t (transEnded s)).pw, (enterState t (transEnded s)).boot, (enterState t (transEnded s)).loft,
      (enterState t (transEnded s)).eng) := by
  unfold transShown
  generalize enterState t (transEnded s) = u
  rfl

theorem enterState_doze (s : State) : enterState 2 s = dozeGate s := rfl

theorem enterState_rest (s : State) : enterState 3 s = enterRest 3 s := by
  unfold enterState
  exact (if_neg (by decide)).trans (if_pos (by decide))

theorem transEnded_fld (s : State) : (transEnded s).fld F.pwPstat_TRANS = 0 ∧ (transEnded s).fld F.pwPstat_HV = s.fld F.pwPstat_HV
    ∧ (transEnded s).fld F.pwPstat_STATE = s.fld F.pwPstat_STATE := by
  have hact : (transEnded s).act = ((s.put F.pwPstat_TRANS 0).put F.pwPstat_FORCED (b2n s.pw.forcedHeld)).act := rfl
  simp only [fld_of_act hact]
  simp (disch := decide) only [State.put_fld_ne, State.put_fld]
  exact ⟨rfl, trivial, trivial⟩

/-! What each state brings with it. -/

theorem powerGate_keeps (n : Nat) (s : State) : (powerGate n s).pw.latched = s.pw.latched
    ∧ ∀ f : Fld, f.id ≠ F.stDqstat_GATED.id → ∀ i j, (powerGate n s).fld f i j = s.fld f i j :=
  ⟨rfl, fun f hf i j => State.put_fld_ne (s.setSt n { s.st n with clocked := false, idleFrom := none }) F.stDqstat_GATED f 1 n 0 i j hf⟩

theorem dozeGate_keeps (s : State) : (dozeGate s).pw.latched = s.pw.latched
    ∧ ∀ f : Fld, f.id ≠ F.stDqstat_GATED.id → f.id ≠ F.pwPstat_PART.id → ∀ i j, (dozeGate s).fld f i j = s.fld f i j := by
  unfold dozeGate
  extract_lets ns u
  have hl : u.pw.latched = s.pw.latched :=
    foldl_part (p := fun s : State => s.pw.latched) (f := fun s n => powerGate n s) (fun s n => (powerGate_keeps n s).1) _ _
  have hu (f : Fld) (hf : f.id ≠ F.stDqstat_GATED.id) (i j : Nat) : u.fld f i j = s.fld f i j :=
    foldl_part (p := fun s : State => s.fld f i j) (f := fun s n => powerGate n s) (fun s n => (powerGate_keeps n s).2 f hf i j) _ _
  clear_value u
  exact ⟨hl, fun f hg hp i j => (State.put_fld_ne _ _ _ _ _ _ _ _ hp).trans (hu f hg i j)⟩

theorem dropAllLeave_fld {f : Fld} (hf : f.id ≠ F.pwLease_STATE.id) (i j : Nat) (s : State) : (dropAllLeave s).fld f i j = s.fld f i j := by
  unfold dropAllLeave
  generalize List.range 256 = l
  refine foldl_part (p := fun s : State => s.fld f i j)
    (f := fun s i => if s.fld F.pwLease_STATE i = 0 then s else s.put F.pwLease_STATE 0 i) (fun s n => ?_) l s
  split
  · rfl
  · exact State.put_fld_ne _ _ _ _ _ _ _ _ hf

theorem dropAllLeave_rest (s : State) : ((dropAllLeave s).loft, (dropAllLeave s).pw.latched) = (s.loft, s.pw.latched) := by
  unfold dropAllLeave
  generalize List.range 256 = l
  refine foldl_part (p := fun s : State => (s.loft, s.pw.latched))
    (f := fun s i => if s.fld F.pwLease_STATE i = 0 then s else s.put F.pwLease_STATE 0 i) (fun s n => ?_) l s
  split <;> rfl

theorem enterRest_act (s : State) : (enterRest 3 s).act = (wipe restFlds (dropAllLeave s)).act := by
  unfold enterRest
  generalize dropAllLeave s = u
  rfl

theorem enterRest_fld {f : Fld} (hrest : f.id ∈ restFlds.map (·.id)) (hf : f.id ≠ F.pwLease_STATE.id) (i j : Nat) (s : State) :
    (enterRest 3 s).fld f i j = s.fld f i j := by
  rw [fld_of_act (enterRest_act s), wipe_fld, if_pos hrest, dropAllLeave_fld hf]

theorem wipe_latched (keep : List Fld) (s : State) : (wipe keep s).pw.latched = s.pw.latched := by
  obtain ⟨k, n, h⟩ := cutFlash_eq s
  unfold wipe
  rw [h]

theorem wipe_eng (keep : List Fld) (s : State) : (wipe keep s).eng = [] := rfl

theorem wipe_loft (keep : List Fld) (s : State) : (wipe keep s).loft = s.loft := cutFlash_loft s

theorem enterRest_spec (s : State) : (enterRest 3 s).boot.phase = .rest ∧ (enterRest 3 s).eng = [] ∧ (enterRest 3 s).loft = s.loft
    ∧ (enterRest 3 s).pw.latched = s.pw.latched := by
  obtain ⟨hloft, hlatched⟩ := Prod.mk.inj (dropAllLeave_rest s)
  rw [← hloft, ← hlatched]
  unfold enterRest
  generalize dropAllLeave s = u
  have hl := wipe_loft restFlds u
  have hp := wipe_latched restFlds u
  have he := wipe_eng restFlds u
  generalize wipe restFlds u = v at hl hp he
  exact ⟨rfl, he, hl, hp⟩

theorem transComplete_of_idle (h : s.fld F.pwPstat_TRANS = 0) : transComplete s = s := if_pos (by simp [State.on, h])

theorem dozeTimeout_of_idle (h : s.fld F.pwPstat_TRANS = 0) : dozeTimeout s = s := if_neg (by simp [State.on, h])

theorem transComplete_of_due (h : s.fld F.pwPstat_TRANS ≠ 0) (hto : s.fld F.pwPstat_TO ≠ 2)
    (hdue : s.pw.transFrom + transTicks (s.fld F.pwPstat_STATE) (s.fld F.pwPstat_TO) ≤ s.tick) : transComplete s = completeTrans s := by
  rw [transComplete, if_neg (by simp [State.on, h]), if_neg hto, passTo_of_past hdue]

theorem dozeTimeout_of_due (h : s.fld F.pwPstat_TRANS ≠ 0) (hto : s.fld F.pwPstat_TO = 2) (hdue : s.pw.transFrom + 250000 ≤ s.tick) :
    dozeTimeout s = completeTrans s := by
  rw [dozeTimeout, if_pos (by simp [State.on, h, hto]), passTo_of_past hdue]

/-- A transition among RUN and TRICKLE, which bring nothing with them. -/
theorem transShown_of_awake {t : Nat} (ht : t < 2) (hst : s.fld F.pwPstat_STATE < 2) :
    transShown t s = ((transEnded s).put F.pwPstat_STATE t).put F.pwEvt_PSDONE 1 := by
  have hst' : (transEnded s).fld F.pwPstat_STATE ≠ 2 := by
    rw [(transEnded_fld s).2.2]
    omega
  unfold transShown enterState
  rw [if_neg (by omega), if_neg (by omega), if_neg hst']

/-! ### Wakes (R333) -/

theorem wake_of_masked {k : Nat} (h : (s.fld F.pwCfg1_WAKEMASK).testBit k = false) : wake k s = s := if_pos (by simp [h])

section
variable {k : Nat} (hmask : (s.fld F.pwCfg1_WAKEMASK).testBit k = true) (hu0 : k = 5 → s.u0Waits = true)
include hmask hu0

theorem wake_of_heard : wake k s =
    if s.on F.pwPstat_TRANS then
      if 2 ≤ s.fld F.pwPstat_TO then { s with pw := { s.pw with latched := s.pw.latched ||| BitVec.ofNat 6 (2 ^ k) } } else s
    else if 2 ≤ s.fld F.pwPstat_STATE then wakeNow (BitVec.ofNat 6 (2 ^ k)) s else s := by
  have hgo : ¬(!(s.fld F.pwCfg1_WAKEMASK).testBit k || (k == 5 && !s.u0Waits)) = true := by
    by_cases hk : k = 5
    · simp [hmask, hu0 hk]
    · simp [hmask, hk]
  rw [wake, if_neg hgo]

theorem wake_of_entering (h : s.fld F.pwPstat_TRANS ≠ 0) (hto : 2 ≤ s.fld F.pwPstat_TO) :
    wake k s = { s with pw := { s.pw with latched := s.pw.latched ||| BitVec.ofNat 6 (2 ^ k) } } := by
  rw [wake_of_heard hmask hu0, if_pos (State.on_eq_true.2 h), if_pos hto]

theorem wake_of_awake (h : s.fld F.pwPstat_TRANS = 0) (hst : s.fld F.pwPstat_STATE < 2) : wake k s = s := by
  rw [wake_of_heard hmask hu0, if_neg (by simp [State.on, h]), if_neg (Nat.not_le.2 hst)]

theorem wake_of_doze (h : s.fld F.pwPstat_TRANS = 0) (hst : s.fld F.pwPstat_STATE = 2) :
    wake k s = wakeNow (BitVec.ofNat 6 (2 ^ k)) s := by
  rw [wake_of_heard hmask hu0, if_neg (by simp [State.on, h]), if_pos (by omega)]

end

/-- The end of DOZE begins (R333). -/
theorem wakeNow_of_doze (ws : BitVec 6) (hst : s.fld F.pwPstat_STATE = 2) : (wakeNow ws s).fld F.pwPstat_TRANS = 1
    ∧ (wakeNow ws s).fld F.pwPstat_TO = 0 ∧ (wakeNow ws s).fld F.pwPstat_WCAUSE = ws.toNat ∧ (wakeNow ws s).fld F.pwEvt_WAKE = 1
    ∧ (wakeNow ws s).eng = s.eng := by
  have hact : (wakeNow ws s).act
      = ((((s.put F.pwPstat_TRANS 1).put F.pwPstat_TO 0).put F.pwPstat_WCAUSE ws.toNat).put F.pwEvt_WAKE 1).act := by
    rw [wakeNow, if_pos hst]
    rfl
  simp only [fld_of_act hact]
  simp (disch := decide) only [State.put_fld_ne, State.put_fld]
  refine ⟨rfl, rfl, Nat.mod_eq_of_lt ws.isLt, rfl, ?_⟩
  rw [wakeNow, if_pos hst]
  rfl

theorem ksecAlarm_of_none (h : s.pw.alarmAt = none) : ksecAlarm s = s := by simp [ksecAlarm, h]

theorem ksecAlarm_of_masked {x : Nat} (h : s.pw.alarmAt = some x) (hx : x ≤ s.tick) (hmask : (s.fld F.pwCfg1_WAKEMASK).testBit 3 = false) :
    ksecAlarm s = { s with pw := { s.pw with alarmAt := none } } := by
  simp only [ksecAlarm, h, passTo_of_past hx]
  exact wake_of_masked hmask

/-! ### The statement -/

/-- Settles O53: requests by PSREQ's cases, transitions by what the state entered brings, and wakes by the state of the part. -/
theorem powerStatesFollowRequests : Obligations.PowerStatesFollowRequests := by
  intro s hclk
  refine ⟨fun w r hheard => ⟨fun hsup hj => does_eq rfl (sysWriteQuiet_of_refused hheard hj hsup), fun hsup hr => ?_⟩,
    fun hidle => ⟨does_eq rfl (transComplete_of_idle hidle), does_eq rfl (dozeTimeout_of_idle hidle)⟩,
    fun htrans hto hst hhv hdue => ?_, fun htrans hto hhv hlatch hdue => ?_, fun htrans hto hhv hlatch hdue => ?_,
    fun k hmask => does_eq rfl (wake_of_masked hmask), fun k hmask hu0 => ⟨fun htrans hto => ?_, fun hidle hst => ?_, fun hidle hst => ?_⟩,
    fun hnone => does_eq rfl (ksecAlarm_of_none hnone), fun x hx hpast hmask => does_eq rfl (ksecAlarm_of_masked hx hpast hmask)⟩
  · have hwrite {u : State} (hu : psRequest r s = u) : sysWriteQuiet w (·.supervisor w) (psRequest r) s = finish w { st := u } :=
      hu ▸ sysWriteQuiet_of_supervisor hheard hsup
    refine ⟨fun hforced => does_eq rfl (hwrite (psRequest_of_forced hforced)), fun hrun hheld => ⟨fun htrans => ?_, fun hidle hst => ?_, fun hidle hst => ?_⟩⟩
    · refine does_next rfl ?_
      rw [hwrite (psRequest_of_trans hr hrun hheld htrans)]
      simp only [State.notify_fld_get, finish_served_fld]
      simp (disch := decide) only [State.put_fld_ne, State.put_fld]
      obtain ⟨hhv, hheld⟩ := hold_held r s
      exact ⟨rfl, hhv, hheld.trans (Nat.mod_eq_of_lt (lt_of_lt_of_le r.isLt (by decide))), hold_displaces r⟩
    · exact does_eq rfl (hwrite (psRequest_of_same hr hrun hheld hidle hst))
    · refine does_served (congrArg (done s) (hwrite (psRequest_of_other hr hrun hheld hidle hst))) fun p o h => ?_
      obtain ⟨hdisp, htrans, hto, hstate⟩ := startTrans_shown r s
      exact ⟨hdisp, htrans, hto.trans (Nat.mod_eq_of_lt (lt_of_lt_of_le r.isLt (by decide))), rfl, hstate⟩
  · have hfar : transTicks (s.fld F.pwPstat_STATE) (s.fld F.pwPstat_TO) = 2500 := by
      rw [transTicks, if_neg (by omega), if_neg (by omega), if_neg (by omega)]
    have hend : completeTrans s = ((transEnded s).put F.pwPstat_STATE (s.fld F.pwPstat_TO)).put F.pwEvt_PSDONE 1 := by
      rw [← transShown_of_awake hto hst]
      refine completeTrans_of_quiet rfl (.inr hto) ?_
      rw [transShown_of_awake hto hst]
      simp (disch := decide) only [State.put_fld_ne]
      exact (transEnded_fld s).2.1.trans hhv
    refine does_next (congrArg (done s) ((transComplete_of_due htrans (by omega) (by omega)).trans hend)) ?_
    simp only [State.notify_fld_get]
    simp (disch := decide) only [State.put_fld_ne, State.put_fld]
    exact ⟨Nat.mod_eq_of_lt (lt_of_lt_of_le hto (by decide)), (transEnded_fld s).1, rfl, rfl, rfl⟩
  · have hfar : transTicks (s.fld F.pwPstat_STATE) (s.fld F.pwPstat_TO) = 50000 := by
      rw [transTicks, if_neg (by omega), if_pos hto]
    obtain ⟨hphase, heng, hloft, hlatched⟩ := enterRest_spec (transEnded s)
    have hrest := transShown_rest 3 s
    rw [enterState_rest] at hrest
    obtain ⟨hpw, hrest⟩ := Prod.mk.inj hrest
    obtain ⟨hboot, hrest⟩ := Prod.mk.inj hrest
    obtain ⟨hloft', heng'⟩ := Prod.mk.inj hrest
    have hend : completeTrans s = transShown 3 s := by
      refine completeTrans_of_quiet hto (.inl ?_) ?_
      · rw [hpw, hlatched]
        exact hlatch
      · rw [transShown_fld (by decide) (by decide), enterState_rest, enterRest_fld (by decide) (by decide), (transEnded_fld s).2.1, hhv]
    refine does_next (congrArg (done s) ((transComplete_of_due htrans (by omega) (by omega)).trans hend)) ?_
    simp only [State.notify_fld_get, State.notify_boot, State.notify_loft, State.notify_eng]
    refine ⟨by rw [hboot, hphase], (transShown_spec 3 s).1, ?_, by rw [hloft', hloft]; rfl, by rw [heng', heng]⟩
    rw [transShown_fld (by decide) (by decide), enterState_rest, enterRest_fld (by decide) (by decide), (transEnded_fld s).1]
  · obtain ⟨hlatched, hkeeps⟩ := dozeGate_keeps (transEnded s)
    have hpw := congrArg (·.1) (transShown_rest 2 s)
    have hend : completeTrans s = transShown 2 s := by
      refine completeTrans_of_quiet hto (.inl ?_) ?_
      · exact (congrArg PwS.latched hpw).trans (hlatched.trans hlatch)
      · rw [transShown_fld (by decide) (by decide), enterState_doze, hkeeps _ (by decide) (by decide), (transEnded_fld s).2.1, hhv]
    refine does_next (congrArg (done s) ((dozeTimeout_of_due htrans hto hdue).trans hend)) ?_
    simp only [State.notify_fld_get]
    refine ⟨(transShown_spec 2 s).1, ?_, (transShown_spec 2 s).2⟩
    rw [transShown_fld (by decide) (by decide), enterState_doze, hkeeps _ (by decide) (by decide), (transEnded_fld s).1]
  · exact does_eq rfl (wake_of_entering hmask hu0 htrans hto)
  · exact does_eq rfl (wake_of_awake hmask hu0 hidle hst)
  · refine does_next (congrArg (done s) (wake_of_doze hmask hu0 hidle hst)) ?_
    simp only [State.notify_fld_get, State.notify_eng]
    obtain ⟨htrans, hto, hcause, hwake, heng⟩ := wakeNow_of_doze (BitVec.ofNat 6 (2 ^ k.val)) hst
    refine ⟨htrans, hto, hcause.trans ?_, hwake, heng⟩
    rw [BitVec.toNat_ofNat]
    exact Nat.mod_eq_of_lt (Nat.pow_lt_pow_right (by decide) k.isLt)

end Sys2Proof.Machine
end

section
/-! The statement of the sources of the supply: hand-over and hand-back, the count of a better source, and the time on VBAK (R325 to R330). -/

namespace Sys2Proof.Machine

variable {s t : State}

theorem Steady.pw (h : Steady s t) : t.pw.still = s.pw.still := congrArg (·.2.2.2.2) h.still

theorem Steady.bakFrom (h : Steady s t) : t.pw.bakFrom = s.pw.bakFrom :=
  (congrArg PwS.bakFrom h.pw : t.pw.still.bakFrom = s.pw.still.bakFrom)

theorem Steady.handback (h : Steady s t) : t.pw.handback = s.pw.handback :=
  (congrArg PwS.handback h.pw : t.pw.still.handback = s.pw.still.handback)

theorem logPower_keeps (s : State) : LogKeeps s (logPower s) ∧ Steady s (logPower s) := by
  unfold logPower
  split
  · exact ⟨LogKeeps.logRecord .., logRecord_steady ..⟩
  · exact ⟨.refl s, .refl s⟩

theorem srcFlag_cases (k : Nat) : srcFlag k = F.pwSrc_PDG ∨ srcFlag k = F.pwSrc_AUXG ∨ srcFlag k = F.pwSrc_BAKG := by
  unfold srcFlag
  split_ifs <;> simp

/-- A source's flag is none of the registers that a property of the three flags excludes. -/
theorem srcFlag_id {P : Nat → Prop} (h : ∀ n ∈ [F.pwSrc_PDG, F.pwSrc_AUXG, F.pwSrc_BAKG].map (·.id), P n) (k : Nat) : P (srcFlag k).id := by
  rcases srcFlag_cases k with hk | hk | hk <;> rw [hk] <;> exact h _ (by decide)

theorem srcFlag_width (k : Nat) : (srcFlag k).width = 1 := by
  rcases srcFlag_cases k with hk | hk | hk <;> rw [hk] <;> rfl

/-- SCLS shows the class that is strapped, or class 1's code for one that names none (R372). -/
theorem pdcls_shown (c : Fin 8) : (if 1 ≤ c.val ∧ c.val ≤ 4 then c.val else 1) = if c.val = 0 ∨ 4 < c.val then 1 else c.val := by
  split_ifs <;> omega

/-! ### A source fails (R328) -/

theorem sourceFail_of_off {k : Nat} (h : s.boot.phase = .off ∨ s.pw.overtemp = true) : sourceFail k s = s.put (srcFlag k) 0 := if_pos h

theorem sourceFail_of_used {k : Nat} (hoff : s.boot.phase ≠ .off) (hcool : s.pw.overtemp = false) (hhsm : s.fld F.pwSrc_HSM = 0)
    (hon : s.fld F.pwSrc_ON = k + 1) : sourceFail k s = handOver (s.put (srcFlag k) 0) := by
  have hused : (s.put (srcFlag k) 0).fld F.pwSrc_ON = k + 1 :=
    (State.put_fld_ne _ _ _ _ _ _ _ _ (srcFlag_id (P := fun n => F.pwSrc_ON.id ≠ n) (by decide) k)).trans hon
  refine (if_neg (not_or.2 ⟨hoff, by simp [hcool]⟩)).trans (if_pos ?_)
  simp [hused, State.on, hhsm]

/-- A source that does not carry the supply, or fails while a hand-over runs, counts a bounce where a hand-back to it counted. -/
theorem sourceFail_of_spare {k : Nat} (hoff : s.boot.phase ≠ .off) (hcool : s.pw.overtemp = false)
    (hspare : s.fld F.pwSrc_HSM ≠ 0 ∨ s.fld F.pwSrc_ON ≠ k + 1) : sourceFail k s =
      if s.fld F.pwSrc_DEB ≠ 0 ∧ k + 1 ∈ s.better then
        showCount (((s.put (srcFlag k) 0).bump F.pwCnt_BOUNCE).put F.pwEvt_BOUNCE 1)
      else s.put (srcFlag k) 0 := by
  have hused : (s.put (srcFlag k) 0).fld F.pwSrc_ON = s.fld F.pwSrc_ON :=
    State.put_fld_ne _ _ _ _ _ _ _ _ (srcFlag_id (P := fun n => F.pwSrc_ON.id ≠ n) (by decide) k)
  refine (if_neg (not_or.2 ⟨hoff, by simp [hcool]⟩)).trans ((if_neg ?_).trans (if_congr ?_ rfl rfl))
  · rcases hspare with h | h <;> simp [hused, State.on, h]
  · simp [State.on]

theorem handOver_of_none (h : s.bestSource = 0) : handOver s = powerOff s := if_pos h

/-- The state in which the hand-over to source `c` has begun, before the log's record. -/
def movedTo (c : Nat) (s : State) : State :=
  let u := ((carry c s).put F.pwSrc_HSM 1).put F.pwSrc_DEB 0
  let u := if c = 3 then u.put F.pwEvt_ONBAK 1 else u
  { u.bump F.pwCnt_HANDOVER with pw := { u.pw with moveTo := c, handback := false } }

theorem handOver_of_some (h : s.bestSource ≠ 0) : handOver s = logPower (movedTo s.bestSource s) := if_neg h

theorem movedTo_bakFrom (c : Nat) (s : State) : (movedTo c s).pw.bakFrom = if c = 3 then some s.tick else none := by
  by_cases h : c = 3 <;> simp [movedTo, carry, h]

theorem movedTo_eng (c : Nat) (s : State) : (movedTo c s).eng = s.eng := by
  by_cases h : c = 3 <;> simp [movedTo, carry, h]

theorem movedTo_act (c : Nat) (s : State) : (movedTo c s).act =
    if c = 3 then ((((((s.put F.pwSrc_ON 3).put F.pwSrc_PFAIL 1).put F.pwSrc_HSM 1).put F.pwSrc_DEB 0).put F.pwEvt_ONBAK 1).bump
      F.pwCnt_HANDOVER).act
    else (((((s.put F.pwSrc_ON c).put F.pwSrc_PFAIL 0).put F.pwSrc_HSM 1).put F.pwSrc_DEB 0).bump F.pwCnt_HANDOVER).act := by
  by_cases h : c = 3
  · subst h
    rw [if_pos rfl]
    rfl
  · have hb : (c == 3) = false := beq_false_of_ne h
    rw [if_neg h]
    simp only [movedTo, carry, hb, if_neg h]
    rfl

theorem movedTo_spec (c : Nat) (hc : c < 4) (s : State) : (movedTo c s).fld F.pwSrc_ON = c ∧ (movedTo c s).fld F.pwSrc_HSM = 1
    ∧ (movedTo c s).fld F.pwSrc_DEB = 0
    ∧ (movedTo c s).fld F.pwCnt_HANDOVER = min (s.fld F.pwCnt_HANDOVER + 1) (2 ^ F.pwCnt_HANDOVER.width - 1)
    ∧ (movedTo c s).fld F.pwSrc_PFAIL = (if c = 3 then 1 else 0) ∧ (c = 3 → (movedTo c s).fld F.pwEvt_ONBAK = 1) := by
  have hact := movedTo_act c s
  by_cases h : c = 3
  · rw [if_pos h] at hact
    simp only [fld_of_act hact]
    simp (disch := decide) only [State.put_fld_ne, State.put_fld, State.bump_fld, State.bump_fld_ne]
    subst h
    exact ⟨rfl, rfl, rfl, trivial, rfl, fun _ => rfl⟩
  · rw [if_neg h] at hact
    simp only [fld_of_act hact]
    simp (disch := decide) only [State.put_fld_ne, State.put_fld, State.bump_fld, State.bump_fld_ne]
    exact ⟨Nat.mod_eq_of_lt hc, rfl, rfl, trivial, by rw [if_neg h]; rfl, fun h' => absurd h' h⟩

theorem powerOff_spec (s : State) : (powerOff s).boot.phase = .off ∧ (powerOff s).fld F.pwSrc_ON = 0 ∧ (powerOff s).loft = []
    ∧ (powerOff s).flash = (cutFlash s).flash := by
  refine ⟨rfl, ?_, rfl, rfl⟩
  refine (get_keepOnly _ _ _ F.pwSrc_ON 0 0).trans ((if_pos (by decide)).trans ?_)
  change ((((cutFlash s).put F.pwSrc_ON 0).put F.pwSrc_HSM 0).put F.pwSrc_DEB 0).fld F.pwSrc_ON = 0
  simp (disch := decide) only [State.put_fld_ne, State.put_fld]
  rfl

theorem showCount_fld {f : Fld} (hf : f.id ≠ F.pwSrc_DEB.id) (i j : Nat) (s : State) : (showCount s).fld f i j = s.fld f i j :=
  State.put_fld_ne _ _ _ _ _ _ _ _ hf

/-! ### The state machine of the PPD ends (R328, R329) -/

theorem handoverEnd_of_idle (h : s.fld F.pwSrc_HSM = 0) : handoverEnd s = s := if_pos (by simp [State.on, h])
theorem handbackEnd_of_idle (h : s.fld F.pwSrc_HSM = 0) : handbackEnd s = s := if_pos (by simp [State.on, h])
theorem handbackStart_of_idle (h : s.fld F.pwSrc_DEB = 0 ∨ s.fld F.pwSrc_HSM ≠ 0) : handbackStart s = s :=
  if_pos (by rcases h with h | h <;> simp [State.on, h])

/-- The state machine rests from tick `n` on. -/
def hsmRests (n : Nat) (s : State) : State := { s.put F.pwSrc_HSM 0 with pw := { s.pw with hsmEnd := n } }

theorem hsmRests_spec (n : Nat) (s : State) : (∀ f : Fld, f.id ≠ F.pwSrc_HSM.id → (hsmRests n s).fld f = s.fld f)
    ∧ (showCount (hsmRests n s)).fld F.pwSrc_HSM = 0 ∧ (showCount (hsmRests n s)).pw.handback = s.pw.handback
    ∧ (showCount (hsmRests n s)).eng = s.eng := by
  have hact : (hsmRests n s).act = (s.put F.pwSrc_HSM 0).act := rfl
  refine ⟨fun f hf => (fld_of_act hact f 0 0).trans (State.put_fld_ne _ _ _ _ _ _ _ _ hf), ?_, rfl, rfl⟩
  rw [showCount_fld (by decide), fld_of_act hact, State.put_fld]
  rfl

theorem hsmRests_onGood (n : Nat) (s : State) : (hsmRests n s).onGood = s.onGood := by
  have hact : (hsmRests n s).act = (s.put F.pwSrc_HSM 0).act := rfl
  have hfld (f : Fld) (hf : f.id ≠ F.pwSrc_HSM.id) : (hsmRests n s).fld f = s.fld f :=
    (fld_of_act hact f 0 0).trans (State.put_fld_ne _ _ _ _ _ _ _ _ hf)
  simp only [State.onGood, State.on]
  rw [hfld F.pwSrc_ON (by decide), hfld _ (srcFlag_id (P := fun n => n ≠ F.pwSrc_HSM.id) (by decide) _)]

theorem hsmDone_of_good (n : Nat) (h : s.onGood = true) : hsmDone n s = showCount (hsmRests n s) :=
  if_pos ((hsmRests_onGood n s).trans h)

theorem handoverEnd_of_good (hhsm : s.fld F.pwSrc_HSM ≠ 0) (hback : s.pw.handback = false) (h : s.onGood = true) :
    handoverEnd s = showCount (hsmRests s.tick s) := by
  rw [handoverEnd, if_neg (by simp [State.on, hhsm, hback]), hsmDone_of_good _ h]

/-- The state in which a hand-back has moved the supply, before the log's record. -/
def movedBack (s : State) : State :=
  (carry s.pw.moveTo { s with pw := { s.pw with handback := false } }).put F.pwEvt_HANDBACK 1

theorem movedBack_spec (h : s.pw.moveTo < 4) : (movedBack s).fld F.pwSrc_ON = s.pw.moveTo ∧ (movedBack s).fld F.pwEvt_HANDBACK = 1
    ∧ (movedBack s).pw.handback = false ∧ (movedBack s).eng = s.eng
    ∧ ∀ k, (movedBack s).fld (srcFlag k) = s.fld (srcFlag k) := by
  have hact : (movedBack s).act = (((s.put F.pwSrc_ON s.pw.moveTo).put F.pwSrc_PFAIL (b2n (s.pw.moveTo == 3))).put F.pwEvt_HANDBACK 1).act := rfl
  refine ⟨?_, ?_, rfl, rfl, fun k => ?_⟩
  · simp (disch := decide) only [fld_of_act hact, State.put_fld_ne, State.put_fld]
    exact Nat.mod_eq_of_lt h
  · rw [fld_of_act hact, State.put_fld]
    rfl
  · rw [fld_of_act hact, State.put_fld_ne _ _ _ _ _ _ _ _ (srcFlag_id (P := fun n => n ≠ F.pwEvt_HANDBACK.id) (by decide) k),
      State.put_fld_ne _ _ _ _ _ _ _ _ (srcFlag_id (P := fun n => n ≠ F.pwSrc_PFAIL.id) (by decide) k),
      State.put_fld_ne _ _ _ _ _ _ _ _ (srcFlag_id (P := fun n => n ≠ F.pwSrc_ON.id) (by decide) k)]

theorem handbackEnd_of_good (hhsm : s.fld F.pwSrc_HSM ≠ 0) (hback : s.pw.handback = true) (hto : s.pw.moveTo < 4)
    (hgood : s.on (srcFlag (s.pw.moveTo - 1)) = true) :
    handbackEnd s = showCount (hsmRests s.pw.hsmEnd (logPower (movedBack s))) := by
  obtain ⟨hON, -, -, -, hflag⟩ := movedBack_spec hto
  have hsteady := (logPower_keeps (movedBack s)).2
  have hon : (logPower (movedBack s)).onGood = true := by
    have hON' : (logPower (movedBack s)).fld F.pwSrc_ON = s.pw.moveTo := (hsteady.fld _ (by decide) ..).trans hON
    simp only [State.onGood, State.on]
    rw [hON', hsteady.fld _ (srcFlag_id (P := fun n => n ∉ serviceFlds) (by decide) _), hflag]
    exact hgood
  rw [handbackEnd, if_neg (by simp [State.on, hhsm, hback])]
  exact hsmDone_of_good _ hon

/-! ### A better source (R329) -/

/-- The first of the sources whose count has ended. -/
theorem headD_filter_of_find {α : Type} {p : α → Bool} {l : List α} {c : α} (h : l.find? p = some c) (d : α) : (l.filter p).headD d = c := by
  rw [List.headD_eq_head?_getD, List.head?_filter, h]
  rfl

/-- The hand-back to source `c` begins. -/
def movesBack (c : Nat) (s : State) : State := { s.put F.pwSrc_HSM 1 with pw := { s.pw with moveTo := c, handback := true } }

theorem handbackStart_of_found {c : Nat} (hdeb : s.fld F.pwSrc_DEB ≠ 0) (hhsm : s.fld F.pwSrc_HSM = 0)
    (hfound : s.better.find? (fun c => s.countEnd c ≤ s.tick) = some c) : handbackStart s = showCount (movesBack c s) := by
  have hmem : s.countEnd c ∈ s.better.map s.countEnd := List.mem_map_of_mem (List.mem_of_find?_eq_some hfound)
  have hc : s.countEnd c ≤ s.tick := by simpa using List.find?_some hfound
  obtain ⟨t, ht⟩ : ∃ t, (s.better.map s.countEnd).min? = some t := Option.isSome_iff_exists.1 (by
    rw [List.isSome_min?_iff]
    exact List.ne_nil_of_mem hmem)
  have hpast : t ≤ s.tick := le_trans ((List.min?_eq_some_iff.1 ht).2 _ hmem) hc
  rw [handbackStart, if_neg (by simp [State.on, hdeb, hhsm]), ht]
  dsimp only
  rw [passTo_of_past hpast, headD_filter_of_find hfound]
  rfl

theorem srcFlag_put {g : Fld} (hg : ∀ n ∈ [F.pwSrc_PDG, F.pwSrc_AUXG, F.pwSrc_BAKG].map (·.id), n ≠ g.id) (v k : Nat) :
    (s.put g v).on (srcFlag k) = s.on (srcFlag k) := by
  unfold State.on
  rw [State.put_fld_ne _ _ _ _ _ _ _ _ (srcFlag_id (P := fun n => n ≠ g.id) hg k)]

/-- No source before the best one is good, so none counts while the supply moves to it. -/
theorem filter_takeWhile_eq_nil {p q : Nat → Bool} {l : List Nat} {c : Nat} (h : ((l.takeWhile q).filter p).head? = some c) :
    (l.takeWhile (· ≠ c)).filter p = [] := by
  induction l with
  | nil => rfl
  | cons a l ih =>
    by_cases hac : a = c
    · simp [hac]
    · have hq : q a = true := by
        by_contra hq
        simp [hq] at h
      have hp : p a = false := by
        by_contra hp
        simp only [Bool.not_eq_false] at hp
        simp [hq, hp] at h
        exact hac h
      have hrest : ((l.takeWhile q).filter p).head? = some c := by simpa [List.takeWhile, hq, hp] using h
      simpa [List.takeWhile, hac, hp] using ih hrest

theorem movesBack_better {c : Nat} (hhsm : s.fld F.pwSrc_HSM = 0) (hmem : s.better ≠ []) (hhead : s.better.headD 0 = c) :
    (movesBack c s).better = [] := by
  have hact : (movesBack c s).act = (s.put F.pwSrc_HSM 1).act := rfl
  have hon : (movesBack c s).on F.pwSrc_HSM = true := by
    unfold State.on
    rw [fld_of_act hact, State.put_fld]
    rfl
  have hto : (movesBack c s).pw.moveTo = c ∧ (movesBack c s).pw.handback = true := ⟨rfl, rfl⟩
  have horder : (movesBack c s).srcOrder = s.srcOrder := by
    have hlay : (movesBack c s).lay = s.lay := rfl
    unfold State.srcOrder State.eff
    rw [hlay, fld_of_act hact, State.put_fld_ne _ _ _ _ _ _ _ _ (by decide)]
  have hgood (k : Nat) : (movesBack c s).on (srcFlag k) = s.on (srcFlag k) := by
    unfold State.on
    rw [fld_of_act hact, State.put_fld_ne _ _ _ _ _ _ _ _ (srcFlag_id (P := fun n => n ≠ F.pwSrc_HSM.id) (by decide) k)]
  have hhead' : s.better.head? = some c := by
    cases hb : s.better with
    | nil => exact absurd hb hmem
    | cons a l =>
      rw [hb] at hhead
      exact congrArg some hhead
  have hoff : s.on F.pwSrc_HSM = false := by simp [State.on, hhsm]
  unfold State.better at hhead' ⊢
  simp only [hon, hto.1, hto.2, horder, hgood, Bool.and_self, if_true]
  simp only [hoff, Bool.false_and, Bool.false_eq_true, if_false] at hhead'
  exact filter_takeWhile_eq_nil hhead'

theorem showCount_deb_of_none (h : s.better = []) : (showCount s).fld F.pwSrc_DEB = 0 := by
  rw [showCount, State.put_fld, h, List.isEmpty_nil, Bool.not_true, Bool.and_false]
  rfl

theorem showCount_eq (hhsm : s.fld F.pwSrc_HSM = 0) : showCount s = s.put F.pwSrc_DEB (if s.better = [] then 0 else 1) := by
  have hoff : s.on F.pwSrc_HSM = false := by simp [State.on, hhsm]
  rw [showCount, hoff]
  cases s.better <;> rfl

/-- Source `k` has just become good. -/
def becameGood (k : Nat) (s : State) : State := { s.put (srcFlag k) 1 with pw := { s.pw with goodAt := Tab.set 0 s.pw.goodAt k s.tick } }

/-- What a good source brings once its flag shows it. -/
def sourceSeen (k : Nat) (s : State) : State :=
  if s.boot.phase = .off ∨ s.pw.overtemp then s
  else
    let s := showCount s
    let s := if s.pw.latched ≠ 0 && !s.on F.pwPstat_TRANS && 3 ≤ s.fld F.pwPstat_STATE && k < 2 then leaveRest s.pw.latched s else s
    if k < 2 then wake 4 s else s

theorem sourceGood_eq (k : Nat) (s : State) : sourceGood k s = sourceSeen k (if s.on (srcFlag k) then s else becameGood k s) := rfl

theorem sourceGood_of_new {k : Nat} (hoff : s.boot.phase ≠ .off) (hcool : s.pw.overtemp = false) (hlatch : s.pw.latched = 0)
    (hmask : s.fld F.pwCfg1_WAKEMASK = 0) (hhsm : s.fld F.pwSrc_HSM = 0) (hnew : s.fld (srcFlag k) = 0) :
    sourceGood k s = (becameGood k s).put F.pwSrc_DEB (if (becameGood k s).better = [] then 0 else 1) := by
  have hact : (becameGood k s).act = (s.put (srcFlag k) 1).act := rfl
  have hfld (f : Fld) (hf : ∀ n ∈ [F.pwSrc_PDG, F.pwSrc_AUXG, F.pwSrc_BAKG].map (·.id), f.id ≠ n) : (becameGood k s).fld f = s.fld f :=
    (fld_of_act hact f 0 0).trans (State.put_fld_ne _ _ _ _ _ _ _ _ (srcFlag_id (P := fun n => f.id ≠ n) hf k))
  have hshow := showCount_eq ((hfld F.pwSrc_HSM (by decide)).trans hhsm)
  have hmask' : ∀ v, ((becameGood k s).put F.pwSrc_DEB v).fld F.pwCfg1_WAKEMASK = 0 := fun v => by
    rw [State.put_fld_ne _ _ _ _ _ _ _ _ (by decide), hfld F.pwCfg1_WAKEMASK (by decide), hmask]
  have hbegin : (if s.on (srcFlag k) then s else becameGood k s) = becameGood k s := if_neg (by simp [State.on, hnew])
  have hoff' : ¬((becameGood k s).boot.phase = .off ∨ (becameGood k s).pw.overtemp = true) := not_or.2 ⟨hoff, by simp [becameGood, hcool]⟩
  rw [sourceGood_eq, hbegin, sourceSeen, if_neg hoff', hshow]
  generalize (if (becameGood k s).better = [] then 0 else 1) = v at hmask' ⊢
  have hquiet : ((becameGood k s).put F.pwSrc_DEB v).pw.latched = 0 := hlatch
  simp only [hquiet, ne_eq, not_true_eq_false, decide_false, Bool.false_and, Bool.false_eq_true, if_false]
  split
  · exact wake_of_masked (by rw [hmask' v, Nat.zero_testBit])
  · rfl

/-! ### The time on VBAK (R330) -/

/-- A forced request begins where nothing runs and the part is in another state (R332). -/
theorem forceRequest_of_idle {n : Nat} (hrun : s.pw.forcedRun = false) (hheld : s.pw.forcedHeld = false) (htrans : s.fld F.pwPstat_TRANS = 0)
    (hst : s.fld F.pwPstat_STATE ≠ n) :
    forceRequest n s = { (startTrans n s).put F.pwPstat_FORCED 1 with pw := { s.pw with transFrom := s.tick, forcedRun := true } } := by
  rw [forceRequest, if_neg (by simp [hrun, hheld]), if_neg (by simp [State.on, htrans]), if_neg hst]

theorem forceRequest_spec {n : Nat} (hn : n < 8) (hrun : s.pw.forcedRun = false) (hheld : s.pw.forcedHeld = false)
    (htrans : s.fld F.pwPstat_TRANS = 0) (hst : s.fld F.pwPstat_STATE ≠ n) :
    (forceRequest n s).fld F.pwPstat_TRANS = 1 ∧ (forceRequest n s).fld F.pwPstat_TO = n ∧ (forceRequest n s).fld F.pwPstat_FORCED = 1
      ∧ (forceRequest n s).pw.forcedRun = true ∧ (forceRequest n s).eng = s.eng
      ∧ (forceRequest n s).fld F.pwSrc_VBAK = s.fld F.pwSrc_VBAK ∧ (forceRequest n s).fld F.pwEvt_VBAKLOW = s.fld F.pwEvt_VBAKLOW := by
  rw [forceRequest_of_idle hrun hheld htrans hst]
  generalize hu : ({ (startTrans n s).put F.pwPstat_FORCED 1 with pw := { s.pw with transFrom := s.tick, forcedRun := true } } : State) = u
  have hact : u.act = (((s.put F.pwPstat_TRANS 1).put F.pwPstat_TO n).put F.pwPstat_FORCED 1).act := hu ▸ rfl
  have hforced : u.pw.forcedRun = true := hu ▸ rfl
  have heng : u.eng = s.eng := hu ▸ rfl
  simp only [fld_of_act hact]
  simp (disch := decide) only [State.put_fld_ne, State.put_fld]
  exact ⟨rfl, Nat.mod_eq_of_lt hn, rfl, hforced, heng, trivial, trivial⟩

theorem vbakLow_of_held {mv : Nat}
    (h : ¬(s.fld F.pwSrc_ON = 3 ∧ mv < s.fld F.pwCfg0_VBAKLO ∧ s.fld F.pwPstat_STATE ≠ 4)) : vbakLow mv s = s.put F.pwSrc_VBAK mv := by
  refine if_neg ?_
  rwa [State.put_fld_ne _ _ _ _ _ _ _ _ (by decide), State.put_fld_ne _ _ _ _ _ _ _ _ (by decide),
    State.put_fld_ne _ _ _ _ _ _ _ _ (by decide)]

theorem vbakLow_of_low {mv : Nat} (hon : s.fld F.pwSrc_ON = 3) (hlow : mv < s.fld F.pwCfg0_VBAKLO) (hst : s.fld F.pwPstat_STATE ≠ 4) :
    vbakLow mv s = forceRequest 4 ((s.put F.pwSrc_VBAK mv).put F.pwEvt_VBAKLOW 1) := by
  refine if_pos ?_
  rw [State.put_fld_ne _ _ _ _ _ _ _ _ (by decide), State.put_fld_ne _ _ _ _ _ _ _ _ (by decide),
    State.put_fld_ne _ _ _ _ _ _ _ _ (by decide)]
  exact ⟨hon, hlow, hst⟩

theorem rideExpire_of_none (h : s.pw.bakFrom = none) : rideExpire s = s := by simp [rideExpire, h]
theorem keepdlyExpire_of_none (h : s.pw.bakFrom = none) : keepdlyExpire s = s := by simp [keepdlyExpire, h]

theorem rideExpire_of_due {x : Nat} (h : s.pw.bakFrom = some x) (hride : s.fld F.pwCfg0_RIDE ≠ 0) (hrun : s.pw.forcedRun = false)
    (hheld : s.pw.forcedHeld = false) (hst : s.fld F.pwPstat_STATE < 3) (hdue : x + s.fld F.pwCfg0_RIDE * 250000 ≤ s.tick) :
    rideExpire s = forceRequest 3 s := by
  simp only [rideExpire, h, passTo_of_past hdue]
  exact if_neg (by simp [hride, hrun, hheld, hst])

theorem keepdlyExpire_of_due {x : Nat} (h : s.pw.bakFrom = some x) (hdly : s.fld F.pwCfg0_KEEPDLY ≠ 0) (hst : s.fld F.pwPstat_STATE ≠ 4)
    (hdue : x + s.fld F.pwCfg0_RIDE * 250000 + s.fld F.pwCfg0_KEEPDLY * 250000000 ≤ s.tick) : keepdlyExpire s = forceRequest 4 s := by
  simp only [keepdlyExpire, h, passTo_of_past hdue]
  exact if_neg (by simp [hdly, hst])

/-! ### The statement -/

/-- Settles O52: each event of the power path by the state of its hand-over, its count or its time on VBAK. -/
theorem sourcesCarryTheSupply : Obligations.SourcesCarryTheSupply := by
  intro s
  refine ⟨fun a c => does_eq rfl ?_, does_eq rfl rfl, fun k => ⟨fun hoff => does_eq rfl (sourceFail_of_off hoff),
    fun hoff hcool hhsm hon => ⟨fun hnone => ?_, fun hsome => ?_⟩, fun hoff hcool hspare => ⟨fun hdeb hmem => ?_, fun hdeb => ?_⟩⟩,
    fun hidle => ⟨does_eq rfl (handoverEnd_of_idle hidle), does_eq rfl (handbackEnd_of_idle hidle)⟩,
    fun hhsm hback hgood => does_eq rfl (handoverEnd_of_good hhsm hback hgood), fun k hoff hcool hlatch hmask hhsm hnew => ?_,
    fun hidle => does_eq rfl (handbackStart_of_idle hidle), fun hdeb hhsm c hfound => ?_, fun hhsm hback hto hgood => ?_,
    fun mv hheld => does_eq rfl (vbakLow_of_held hheld), fun mv hon hlow hst htrans hrun hheld => ?_,
    fun hnone => ⟨does_eq rfl (rideExpire_of_none hnone), does_eq rfl (keepdlyExpire_of_none hnone)⟩,
    fun x hx htrans => ⟨fun hride hrun hheld hst hdue => ?_, fun hdly hst hrun hheld hdue => ?_⟩⟩
  · exact congrArg (fun v => { (s.put F.pwSrc_ACLS a).put F.pwSrc_SCLS v with pw := { s.pw with detected := true } }) (pdcls_shown c)
  · refine does_next (congrArg (done s) ((sourceFail_of_used hoff hcool hhsm hon).trans (handOver_of_none hnone))) ?_
    exact powerOff_spec _
  · refine does_next (congrArg (done s) ((sourceFail_of_used hoff hcool hhsm hon).trans (handOver_of_some hsome))) ?_
    obtain ⟨hlog, hsteady⟩ := logPower_keeps (movedTo (s.put (srcFlag k) 0).bestSource (s.put (srcFlag k) 0))
    obtain ⟨hON, hHSM, hDEB, hcount, hPFAIL, hONBAK⟩ := movedTo_spec _ (bestSource_lt (s.put (srcFlag k) 0)) (s.put (srcFlag k) 0)
    simp only [State.notify_fld_get, State.notify_eng, State.notify_pw]
    rw [hsteady.fld _ (by decide), hsteady.fld _ (by decide), hsteady.fld _ (by decide), hsteady.fld _ (by decide), hsteady.fld _ (by decide),
      hsteady.fld _ (by decide), hlog.eng, movedTo_eng]
    refine ⟨hON, hHSM, hDEB, ?_, hPFAIL, fun h3 => ⟨hONBAK h3, ?_⟩, rfl⟩
    · rw [hcount, State.put_fld_ne _ _ _ _ _ _ _ _ (srcFlag_id (P := fun n => F.pwCnt_HANDOVER.id ≠ n) (by decide) k)]
    · exact hsteady.bakFrom.trans ((movedTo_bakFrom ..).trans (if_pos h3))
  · refine does_next (congrArg (done s) ((sourceFail_of_spare hoff hcool hspare).trans (if_pos ⟨hdeb, hmem⟩))) ?_
    have hflag (f : Fld) (hf : ∀ n ∈ [F.pwSrc_PDG, F.pwSrc_AUXG, F.pwSrc_BAKG].map (·.id), f.id ≠ n) : (s.put (srcFlag k) 0).fld f = s.fld f :=
      State.put_fld_ne _ _ _ _ _ _ _ _ (srcFlag_id (P := fun n => f.id ≠ n) hf k)
    simp only [State.notify_fld_get]
    rw [showCount_fld (by decide), showCount_fld (by decide), showCount_fld (by decide),
      showCount_fld (srcFlag_id (P := fun n => n ≠ F.pwSrc_DEB.id) (by decide) k)]
    rw [State.put_fld_ne _ _ _ _ _ _ _ _ (srcFlag_id (P := fun n => n ≠ F.pwEvt_BOUNCE.id) (by decide) k),
      State.bump_fld_ne _ _ _ _ _ _ _ _ (srcFlag_id (P := fun n => n ≠ F.pwCnt_BOUNCE.id) (by decide) k)]
    simp (disch := decide) only [State.put_fld_ne, State.put_fld, State.bump_fld, State.bump_fld_ne]
    rw [hflag F.pwCnt_BOUNCE (by decide), hflag F.pwSrc_ON (by decide)]
    exact ⟨rfl, rfl, rfl, Nat.zero_mod _⟩
  · exact does_eq rfl ((sourceFail_of_spare hoff hcool hspare).trans (if_neg fun h => h.1 hdeb))
  · have hgood := sourceGood_of_new hoff hcool hlatch hmask hhsm hnew
    refine ⟨fun hnil => does_eq rfl ?_, fun hsome => does_eq rfl ?_⟩
    · change (becameGood k s).better = [] at hnil
      rw [hgood, if_pos hnil]
      rfl
    · change (becameGood k s).better ≠ [] at hsome
      rw [hgood, if_neg hsome]
      rfl
  · refine does_next (congrArg (done s) (handbackStart_of_found hdeb hhsm hfound)) ?_
    have hsome : s.better ≠ [] := List.ne_nil_of_mem (List.mem_of_find?_eq_some hfound)
    simp only [State.notify_fld_get, State.notify_eng, State.notify_pw]
    refine ⟨fun hhead => showCount_deb_of_none (movesBack_better hhsm hsome hhead), ?_, rfl, rfl, rfl⟩
    rw [showCount_fld (by decide)]
    exact (fld_of_act (show (movesBack c s).act = (s.put F.pwSrc_HSM 1).act from rfl) F.pwSrc_HSM 0 0).trans (State.put_fld ..)
  · refine does_next (congrArg (done s) (handbackEnd_of_good hhsm hback hto hgood)) ?_
    obtain ⟨hON, hEVT, hback', heng, -⟩ := movedBack_spec hto
    obtain ⟨hlog, hsteady⟩ := logPower_keeps (movedBack s)
    obtain ⟨hfld, hHSM, hpw, heng'⟩ := hsmRests_spec s.pw.hsmEnd (logPower (movedBack s))
    simp only [State.notify_fld_get, State.notify_eng, State.notify_pw]
    rw [showCount_fld (f := F.pwSrc_ON) (by decide), showCount_fld (f := F.pwEvt_HANDBACK) (by decide), hfld F.pwSrc_ON (by decide),
      hfld F.pwEvt_HANDBACK (by decide), hsteady.fld _ (by decide), hsteady.fld _ (by decide)]
    exact ⟨hON, hHSM, hpw.trans (hsteady.handback.trans hback'), hEVT, heng'.trans (hlog.eng.trans heng)⟩
  · refine does_next (congrArg (done s) (vbakLow_of_low hon hlow hst)) ?_
    have hfld (f : Fld) (hv : f.id ≠ F.pwSrc_VBAK.id) (he : f.id ≠ F.pwEvt_VBAKLOW.id) :
        ((s.put F.pwSrc_VBAK mv).put F.pwEvt_VBAKLOW 1).fld f = s.fld f := by
      rw [State.put_fld_ne _ _ _ _ _ _ _ _ he, State.put_fld_ne _ _ _ _ _ _ _ _ hv]
    obtain ⟨hTRANS, hTO, hFORCED, -, -, hVBAK, hLOW⟩ := forceRequest_spec (n := 4) (by decide)
      (s := (s.put F.pwSrc_VBAK mv).put F.pwEvt_VBAKLOW 1) hrun hheld ((hfld _ (by decide) (by decide)).trans htrans)
      (by rw [hfld _ (by decide) (by decide)]; exact hst)
    simp only [State.notify_fld_get]
    refine ⟨hVBAK.trans ?_, hLOW.trans (State.put_fld ..), hTRANS, hTO, hFORCED⟩
    rw [State.put_fld_ne _ _ _ _ _ _ _ _ (by decide), State.put_fld]
    exact Nat.mod_eq_of_lt (lt_of_lt_of_le mv.isLt (by decide))
  · refine does_next (congrArg (done s) (rideExpire_of_due hx hride hrun hheld hst hdue)) ?_
    obtain ⟨hTRANS, hTO, hFORCED, hforced, heng, -⟩ := forceRequest_spec (n := 3) (by decide) hrun hheld htrans (by omega)
    simp only [State.notify_fld_get, State.notify_eng, State.notify_pw]
    exact ⟨hTRANS, hTO, hFORCED, hforced, heng⟩
  · refine does_next (congrArg (done s) (keepdlyExpire_of_due hx hdly hst hdue)) ?_
    obtain ⟨hTRANS, hTO, hFORCED, -⟩ := forceRequest_spec (n := 4) (by decide) hrun hheld htrans hst
    simp only [State.notify_fld_get]
    exact ⟨hTRANS, hTO, hFORCED⟩

end Sys2Proof.Machine
end

section
/-! The statement of the Farrier: the flash service, the calibration, the readings of the sensors, the telemetry and the power model (R338,
R353 to R356). -/

namespace Sys2Proof.Machine

variable {s : State} {w : Who}

/-! ### A fold over indices -/

/-- A fold over the first indices, each of which sets its own part by what no step changes, sets the part of each. -/
theorem foldl_range_each {β γ : Type} {N : Nat} {g : State → Nat → State} {p : State → Nat → β} {k : State → γ} (val : γ → β → Nat → β)
    (hk : ∀ s i, k (g s i) = k s) (hsame : ∀ s, ∀ i < N, p (g s i) i = val (k s) (p s i) i)
    (hother : ∀ s, ∀ i < N, ∀ j < N, j ≠ i → p (g s i) j = p s j) (s : State) :
    ∀ n ≤ N, k ((List.range n).foldl g s) = k s
      ∧ ∀ j < N, p ((List.range n).foldl g s) j = if j < n then val (k s) (p s j) j else p s j
  | 0, _ => ⟨rfl, fun _ _ => rfl⟩
  | n + 1, hn => by
    obtain ⟨hkn, hpn⟩ := foldl_range_each val hk hsame hother s n (by omega)
    rw [List.range_succ, List.foldl_append, List.foldl_cons, List.foldl_nil]
    refine ⟨(hk _ _).trans hkn, fun j hj => ?_⟩
    rcases eq_or_ne j n with rfl | hne
    · rw [hsame _ _ hj, hkn, hpn _ hj, if_neg (lt_irrefl _), if_pos (Nat.lt_succ_self _)]
    · rw [hother _ _ (by omega) _ hj hne, hpn _ hj]
      exact if_congr (by omega) rfl rfl

theorem key_ne_index {i j : Nat} (hi : i < 8192) (hj : j < 8192) (h : j ≠ i) (f g : Fld) : g.key j 0 ≠ f.key i 0 := by
  unfold Fld.key
  omega

theorem put_fld_index (s : State) {f : Fld} {i j : Nat} (v : Nat) (hi : i < 8192) (hj : j < 8192) (h : j ≠ i) :
    (s.put f v i).fld f j = s.fld f j := State.put_fld_at _ _ _ _ _ _ _ (key_ne_index hi hj h f f)

/-! ### The flash service (R353) -/

/-- A command that starts. -/
def flashBegun (op sec : Nat) (s : State) : State :=
  ({ s with boot := { s.boot with flOp := some (op, sec) } }.put F.faFlstat_BUSY 1).put F.faFlstat_DISP 0

theorem flashCommand_read {sec : Nat} (u : Bool) : flashCommand w 1 sec u s =
    if s.fld F.faFlstat_BUSY ≠ 0 then s.put F.faFlstat_DISP 5 else flashBegun 1 sec s := by
  refine (if_neg (by decide)).trans ((if_neg (by simp)).trans (if_congr State.on_eq_true rfl ?_))
  rfl

theorem flashCommand_refused {op sec : Nat} {u : Bool} (hop : op = 2 ∨ op = 3) (h : flashAllowed sec (u && unprotFrom w) = false) :
    flashCommand w op sec u s = s.put F.faFlstat_DISP 9 :=
  (if_neg (by omega)).trans (if_pos (by simp [h]; omega))

theorem flashCommand_begun {op sec : Nat} {u : Bool} (hop : op = 2 ∨ op = 3) (h : flashAllowed sec (u && unprotFrom w) = true)
    (hidle : s.fld F.faFlstat_BUSY = 0) : flashCommand w op sec u s = hwRequest .flash (flashBegun op sec s) :=
  (if_neg (by omega)).trans ((if_neg (by simp [h])).trans ((if_neg (by simp [State.on, hidle])).trans (if_neg (by omega))))

/-- Leave for the flash is served at once where it fits and none waits. -/
theorem hwRequest_flash_served (hinc : s.inc 0 = 0) (hq : s.pw.queue = []) (hest : s.est + s.unitCost 3 ≤ s.fld F.pwOctl_CAP) :
    (hwRequest .flash s).boot = s.boot ∧ (hwRequest .flash s).flash = s.flash ∧ (hwRequest .flash s).eng = s.eng
      ∧ ((hwRequest .flash s).pw.grants.any (·.use == .flash)) = true
      ∧ ∀ f : Fld, f.id ≠ F.fnStatus_OVQEV.id → f.id ≠ F.pwOcnt_GRANT.id → ∀ i j, (hwRequest .flash s).fld f i j = s.fld f i j := by
  let r : OReq := { id := s.pw.nextId, use := .flash, fn := 0, inc := 0, cost := s.unitCost 3 * 1, hw := true, t0 := s.tick }
  have hfits : (s.fits r && !s.capWaits) = true := by
    simp only [State.fits, State.capWaits, OUse.isWake, hq, r, Nat.mul_one]
    simp [hest]
  have heq : hwRequest .flash s = noteOverq 0 s (grant r { s with pw := { s.pw with nextId := s.pw.nextId + 1 } }) := by
    unfold hwRequest ostlerRequest
    dsimp only
    rw [if_neg (by simp [State.fnState]), if_neg (by simp [hinc])]
    simp only [Bool.not_true, Bool.false_and, Bool.false_eq_true, if_false]
    exact congrArg Prod.snd (if_pos hfits)
  rw [heq]
  refine ⟨noteOverq_boot .., ?_, ?_, ?_, fun f hov hgr i j => ?_⟩
  · rcases noteOverq_cases 0 s (grant r { s with pw := { s.pw with nextId := s.pw.nextId + 1 } }) with h | h <;> rw [h] <;> rfl
  · rcases noteOverq_cases 0 s (grant r { s with pw := { s.pw with nextId := s.pw.nextId + 1 } }) with h | h <;> rw [h] <;> rfl
  · rw [noteOverq_pw]
    exact List.any_eq_true.2 ⟨r, List.mem_append_right _ (List.mem_singleton.2 rfl), rfl⟩
  · rw [noteOverq_fld hov]
    exact State.bump_fld_ne _ _ _ _ _ _ _ _ hgr

theorem flashBegun_fld {f : Fld} (hb : f.id ≠ F.faFlstat_BUSY.id) (hd : f.id ≠ F.faFlstat_DISP.id) (op sec i j : Nat) (s : State) :
    (flashBegun op sec s).fld f i j = s.fld f i j := by
  unfold flashBegun
  rw [State.put_fld_ne _ _ _ _ _ _ _ _ hd, State.put_fld_ne _ _ _ _ _ _ _ _ hb]
  rfl

/-- An erase or a program that is granted at once. -/
theorem flashBegun_served {op sec : Nat} (hinc : s.inc 0 = 0) (hq : s.pw.queue = []) (hest : s.est + s.unitCost 3 ≤ s.fld F.pwOctl_CAP) :
    let t := hwRequest .flash (flashBegun op sec s)
    t.fld F.faFlstat_BUSY = 1 ∧ t.fld F.faFlstat_DISP = 0 ∧ t.boot.flOp = some (op, sec)
      ∧ (t.pw.grants.any (·.use == .flash)) = true ∧ t.flash = s.flash ∧ t.eng = s.eng := by
  have hf : ∀ {f : Fld}, f.id ≠ F.faFlstat_BUSY.id → f.id ≠ F.faFlstat_DISP.id → ∀ i j, (flashBegun op sec s).fld f i j = s.fld f i j :=
    fun hb hd i j => flashBegun_fld hb hd op sec i j s
  obtain ⟨hboot, hflash, heng, hgrant, hfld⟩ := hwRequest_flash_served (s := flashBegun op sec s)
    (by rw [State.inc, hf (by decide) (by decide)]; exact hinc) hq
    (by
      have he : (flashBegun op sec s).est = s.est := by rw [State.est, hf (by decide) (by decide)]; rfl
      have hc : (flashBegun op sec s).unitCost 3 = s.unitCost 3 := by
        rw [State.unitCost, State.on, hf (by decide) (by decide), hf (by decide) (by decide)]
        rfl
      rw [he, hc, hf (by decide) (by decide)]
      exact hest)
  refine ⟨?_, ?_, congrArg BootS.flOp hboot, hgrant, hflash, heng⟩
  · rw [hfld _ (by decide) (by decide)]
    unfold flashBegun
    simp (disch := decide) only [State.put_fld_ne, State.put_fld]
    rfl
  · rw [hfld _ (by decide) (by decide)]
    unfold flashBegun
    simp (disch := decide) only [State.put_fld]
    rfl

theorem finish_served_rest (w : Who) (s : State) : (finish w { st := s }).boot = s.boot ∧ (finish w { st := s }).pw = s.pw
    ∧ (finish w { st := s }).flash = s.flash := by
  cases w <;> exact ⟨rfl, rfl, rfl⟩

/-- What a command shows when it ends. -/
def flashEnded (s : State) : State := ((s.put F.faFlstat_BUSY 0).put F.faFlstat_DISP 0).put F.faFlstat_DONE 1

/-- The command is no longer under way. -/
def flashTaken (s : State) : State := { s with boot := { s.boot with flOp := none } }

theorem flashEnded_spec (s : State) : (flashEnded s).fld F.faFlstat_BUSY = 0 ∧ (flashEnded s).fld F.faFlstat_DONE = 1 := by
  unfold flashEnded
  simp (disch := decide) only [State.put_fld_ne, State.put_fld]
  exact ⟨rfl, rfl⟩

theorem flashEnded_rest (s : State) : (flashEnded s).boot = s.boot ∧ (flashEnded s).pw = s.pw ∧ (flashEnded s).flash = s.flash
    ∧ (flashEnded s).eng = s.eng := ⟨rfl, rfl, rfl, rfl⟩

theorem flashEnded_fld {f : Fld} (hb : f.id ≠ F.faFlstat_BUSY.id) (hd : f.id ≠ F.faFlstat_DISP.id) (he : f.id ≠ F.faFlstat_DONE.id)
    (i j : Nat) (s : State) : (flashEnded s).fld f i j = s.fld f i j := by
  unfold flashEnded
  rw [State.put_fld_ne _ _ _ _ _ _ _ _ he, State.put_fld_ne _ _ _ _ _ _ _ _ hd, State.put_fld_ne _ _ _ _ _ _ _ _ hb]

theorem flashAt_of_flash {s t : State} (h : t.flash = s.flash) (k : Nat) : t.flashAt k = s.flashAt k := by
  unfold State.flashAt
  rw [h]

theorem flashComplete_read {sec : Nat} (h : s.boot.flOp = some (1, sec)) :
    flashComplete s = flashEnded (readSector sec (flashTaken s)) := by
  unfold flashComplete
  rw [h]
  exact (if_neg (by simp)).trans rfl

theorem flashComplete_ungranted {op sec : Nat} (h : s.boot.flOp = some (op, sec)) (hop : op ≠ 1)
    (hg : (s.pw.grants.any (·.use == .flash)) = false) : flashComplete s = s := by
  unfold flashComplete
  rw [h]
  exact if_pos ⟨hop, by simp [hg]⟩

/-- The sector as an erase or a program leaves it. -/
def sectorWritten (op sec : Nat) (s : State) : State := if op = 2 then programSector sec (eraseSector sec s) else eraseSector sec s

/-- The erasures of the sector show, and the leave returns. -/
def flashReturned (sec : Nat) (s : State) : State :=
  returnUse (· == .flash) (s.put F.faFlstat_ERCNT (min (2 ^ 24 - 1) (Tab.get 0 s.boot.erCnt sec)))

theorem flashReturned_rest (sec : Nat) (s : State) : (flashReturned sec s).boot = s.boot ∧ (flashReturned sec s).flash = s.flash
    ∧ (flashReturned sec s).eng = s.eng ∧ ((flashReturned sec s).pw.grants.any (·.use == .flash)) = false :=
  ⟨rfl, rfl, rfl, List.any_eq_false.2 fun _ hr => by simpa using (List.mem_filter.1 hr).2⟩

theorem flashComplete_written {op sec : Nat} (h : s.boot.flOp = some (op, sec)) (hop : op ≠ 1)
    (hg : (s.pw.grants.any (·.use == .flash)) = true) :
    flashComplete s = flashEnded (flashReturned sec (sectorWritten op sec (flashTaken s))) := by
  unfold flashComplete
  rw [h]
  refine (if_neg (by simp [hg])).trans (congrArg flashEnded ((if_neg hop).trans rfl))

theorem readSector_spec (sec : Nat) (s : State) :
    (∀ i < 512, (readSector sec s).fld F.faFlbuf_DATA i = (s.flashAt (512 * sec + i)).toNat % 2 ^ F.faFlbuf_DATA.width)
      ∧ (readSector sec s).flash = s.flash ∧ (readSector sec s).eng = s.eng := by
  obtain ⟨hflash, hword⟩ := foldl_range_each (N := 512) (p := fun s i => s.fld F.faFlbuf_DATA i) (k := State.flash)
    (g := fun s i => s.put F.faFlbuf_DATA (s.flashAt (512 * sec + i)).toNat i)
    (fun fl _ i => (Tab.get (BitVec.allOnes 64) fl (512 * sec + i)).toNat % 2 ^ F.faFlbuf_DATA.width)
    (fun _ _ => rfl) (fun s i _ => State.put_fld s _ _ i 0)
    (fun s i hi j hj hne => put_fld_index s _ (by omega) (by omega) hne) s 512 le_rfl
  exact ⟨fun i hi => (hword i hi).trans (if_pos hi), hflash,
    foldl_part (p := State.eng) (f := fun s i => s.put F.faFlbuf_DATA (s.flashAt (512 * sec + i)).toNat i) (fun _ _ => rfl) _ _⟩

/-- A table without the entries that a property of their index excludes. -/
theorem get_filter {α : Type} (d : α) (q : Nat → Bool) (t : Tab α) (k : Nat) :
    Tab.get d (t.filter fun e => q e.1) k = if q k = true then Tab.get d t k else d := by
  induction t with
  | nil => exact (ite_self d).symm
  | cons x rest ih =>
    obtain ⟨j, v⟩ := x
    rw [List.filter_cons]
    by_cases hj : j = k
    · subst hj
      by_cases hq : q j = true
      · simp [hq, Tab.get]
      · simpa [hq] using ih
    · split <;> simpa [Tab.get, hj] using ih

/-- The end of a read: the buffer holds the sector, and the flash what it held. -/
theorem flashComplete_read_spec {sec : Nat} (h : s.boot.flOp = some (1, sec)) :
    (∀ i < 512, (flashComplete s).fld F.faFlbuf_DATA i = (s.flashAt (512 * sec + i)).toNat % 2 ^ F.faFlbuf_DATA.width)
      ∧ (flashComplete s).fld F.faFlstat_BUSY = 0 ∧ (flashComplete s).fld F.faFlstat_DONE = 1 ∧ (flashComplete s).flash = s.flash
      ∧ (flashComplete s).eng = s.eng := by
  rw [flashComplete_read h]
  obtain ⟨hword, hflash, heng⟩ := readSector_spec sec (flashTaken s)
  obtain ⟨hbusy, hdone⟩ := flashEnded_spec (readSector sec (flashTaken s))
  obtain ⟨-, -, hfl, he⟩ := flashEnded_rest (readSector sec (flashTaken s))
  refine ⟨fun i hi => ?_, hbusy, hdone, hfl.trans hflash, he.trans heng⟩
  rw [flashEnded_fld (by decide) (by decide) (by decide)]
  refine (hword i hi).trans (congrArg (fun v : BitVec 64 => v.toNat % 2 ^ F.faFlbuf_DATA.width) ?_)
  exact flashAt_of_flash rfl _

theorem eraseSector_flashAt (sec : Nat) (s : State) (k : Nat) : (eraseSector sec s).flashAt k =
    if 512 * sec ≤ k ∧ k < 512 * sec + 512 then BitVec.allOnes 64 else s.flashAt k := by
  refine (get_filter _ (fun i => !(512 * sec ≤ i && i < 512 * sec + 512)) s.flash k).trans ?_
  by_cases h : 512 * sec ≤ k ∧ k < 512 * sec + 512
  · rw [if_pos h, if_neg (by simp [h])]
  · rw [if_neg h]
    exact if_pos (by simp; omega)

theorem setFlash_flashAt (s : State) (k j : Nat) (v : BitVec 64) : (s.setFlash k v).flashAt j = if j = k then v else s.flashAt j := by
  unfold State.setFlash State.flashAt
  split_ifs with h
  · rw [h]
    exact Tab.get_set_same ..
  · exact Tab.get_set_ne _ _ _ _ _ _ h

/-- A programmed sector holds the words of the buffer, and the others what they held. -/
theorem programSector_spec (sec : Nat) (s : State) :
    (∀ i < 512, (programSector sec s).flashAt (512 * sec + i) = BitVec.ofNat 64 (s.fld F.faFlbuf_DATA i))
      ∧ ∀ k, k < 512 * sec ∨ 512 * sec + 512 ≤ k → (programSector sec s).flashAt k = s.flashAt k := by
  obtain ⟨-, hword⟩ := foldl_range_each (N := 512) (p := fun s i => s.flashAt (512 * sec + i)) (k := State.act)
    (g := fun s i => s.setFlash (512 * sec + i) (BitVec.ofNat 64 (s.fld F.faFlbuf_DATA i)))
    (fun a _ i => BitVec.ofNat 64 (Tab.get F.faFlbuf_DATA.reset a (F.faFlbuf_DATA.key i 0)))
    (fun _ _ => rfl) (fun s i _ => (setFlash_flashAt ..).trans (if_pos rfl))
    (fun s i _ j _ hne => (setFlash_flashAt ..).trans (if_neg (by omega))) s 512 le_rfl
  refine ⟨fun i hi => (hword i hi).trans (if_pos hi), fun k hk => ?_⟩
  have hrest : ∀ l : List Nat, (∀ i ∈ l, i < 512) → ∀ u : State,
      (l.foldl (fun s i => s.setFlash (512 * sec + i) (BitVec.ofNat 64 (s.fld F.faFlbuf_DATA i))) u).flashAt k = u.flashAt k := by
    intro l
    induction l with
    | nil => exact fun _ _ => rfl
    | cons i l ih =>
      intro hl u
      have hi := hl i List.mem_cons_self
      refine (ih (fun j hj => hl j (List.mem_cons_of_mem _ hj)) _).trans ?_
      rw [setFlash_flashAt, if_neg (by omega)]
  exact hrest _ (fun i hi => List.mem_range.1 hi) s

theorem programSector_rest (sec : Nat) (s : State) : ∃ x, programSector sec s = { s with flash := x } := by
  suffices h : ∀ (l : List Nat) (u : State),
      ∃ x, l.foldl (fun s i => s.setFlash (512 * sec + i) (BitVec.ofNat 64 (s.fld F.faFlbuf_DATA i))) u = { u with flash := x } from h _ s
  intro l
  induction l with
  | nil => exact fun u => ⟨u.flash, rfl⟩
  | cons i l ih =>
    intro u
    obtain ⟨x, hx⟩ := ih (u.setFlash (512 * sec + i) (BitVec.ofNat 64 (u.fld F.faFlbuf_DATA i)))
    exact ⟨x, hx⟩

theorem sectorWritten_spec {op : Nat} (sec : Nat) (s : State) :
    (∀ i < 512, (sectorWritten op sec s).flashAt (512 * sec + i) =
        if op = 2 then BitVec.ofNat 64 (s.fld F.faFlbuf_DATA i) else BitVec.allOnes 64)
      ∧ (∀ k, k < 512 * sec ∨ 512 * sec + 512 ≤ k → (sectorWritten op sec s).flashAt k = s.flashAt k)
      ∧ (sectorWritten op sec s).boot.flOp = s.boot.flOp ∧ (sectorWritten op sec s).eng = s.eng := by
  have hout : ∀ k, k < 512 * sec ∨ 512 * sec + 512 ≤ k → (eraseSector sec s).flashAt k = s.flashAt k := fun k hk =>
    (eraseSector_flashAt ..).trans (if_neg (by omega))
  unfold sectorWritten
  by_cases hop : op = 2
  · rw [if_pos hop]
    obtain ⟨hin, hrest⟩ := programSector_spec sec (eraseSector sec s)
    obtain ⟨x, hx⟩ := programSector_rest sec (eraseSector sec s)
    refine ⟨fun i hi => (hin i hi).trans (if_pos hop).symm, fun k hk => (hrest k hk).trans (hout k hk), ?_, ?_⟩ <;> rw [hx] <;> rfl
  · rw [if_neg hop]
    exact ⟨fun i hi => ((eraseSector_flashAt ..).trans (if_pos (by omega))).trans (if_neg hop).symm, hout, rfl, rfl⟩

/-! ### The readings -/

theorem powerModel_spec (base : Nat) (calv : List Nat) (s : State) :
    let t := powerModel base calv s
    t.fld F.pwOstat_BASE = base % 2 ^ F.pwOstat_BASE.width ∧ t.fld F.pwOstat_CAL = 1 ∧ t.fld F.faHealth_CALDONE = 1
      ∧ (∀ k < 6, t.fld F.pwOcost_CALV k = calv.getD k 0 % 2 ^ F.pwOcost_CALV.width) ∧ t.pw = s.pw ∧ t.eng = s.eng := by
  intro t
  have hpart : ∀ {β : Type} (p : State → β), (∀ s k, p (s.put F.pwOcost_CALV (calv.getD k 0) k) = p s) →
      p t = p (((s.put F.pwOstat_BASE base).put F.pwOstat_CAL 1).put F.faHealth_CALDONE 1) := fun p h =>
    foldl_part (p := p) (f := fun s k => s.put F.pwOcost_CALV (calv.getD k 0) k) h _ _
  have hfld : ∀ f : Fld, f.id ≠ F.pwOcost_CALV.id →
      t.fld f = (((s.put F.pwOstat_BASE base).put F.pwOstat_CAL 1).put F.faHealth_CALDONE 1).fld f := fun f hf =>
    hpart (p := fun s => s.fld f) fun s k => State.put_fld_ne s _ _ _ _ _ _ _ hf
  obtain ⟨-, hcost⟩ := foldl_range_each (N := 6) (p := fun s i => s.fld F.pwOcost_CALV i) (k := fun _ => ())
    (g := fun s k => s.put F.pwOcost_CALV (calv.getD k 0) k) (fun _ _ k => calv.getD k 0 % 2 ^ F.pwOcost_CALV.width)
    (fun _ _ => rfl) (fun s i _ => State.put_fld s _ _ i 0) (fun s i hi j hj hne => put_fld_index s _ (by omega) (by omega) hne)
    (((s.put F.pwOstat_BASE base).put F.pwOstat_CAL 1).put F.faHealth_CALDONE 1) 6 le_rfl
  refine ⟨?_, ?_, ?_, fun k hk => (hcost k hk).trans (if_pos hk), hpart State.pw fun _ _ => rfl, hpart State.eng fun _ _ => rfl⟩
  · rw [hfld _ (by decide)]
    simp (disch := decide) only [State.put_fld_ne, State.put_fld]
  · rw [hfld _ (by decide)]
    simp (disch := decide) only [State.put_fld_ne, State.put_fld]
    rfl
  · rw [hfld _ (by decide)]
    simp (disch := decide) only [State.put_fld]
    rfl

/-- CALSKIP without the port's bit. -/
def skipCleared (old p : Nat) : Nat := old - bits old p 1 * 2 ^ p

theorem skipCleared_testBit (old p : Nat) (q : Nat) : (skipCleared old p).testBit q = (old.testBit q && !(q == p)) := testBit_sub_bit ..

theorem calibrate_of_no_gap {p : Nat} (hclk : s.clocksOn = true) (h : ¬(s.fld F.epStat_LPITX p ≠ 0 ∨ s.portFree p = true)) :
    calibrate p true s = s := by
  obtain ⟨hlpi, hfree⟩ := not_or.1 h
  refine (if_neg (by simp [hclk])).trans (if_pos ?_)
  simp [State.on, not_not.1 hlpi, hfree]

theorem calibrate_of_gap {p : Nat} (hclk : s.clocksOn = true) (h : s.fld F.epStat_LPITX p ≠ 0 ∨ s.portFree p = true) :
    ((calibrate p true s).fld F.faHealth_CALSKIP) = skipCleared (s.fld F.faHealth_CALSKIP) p % 2 ^ F.faHealth_CALSKIP.width
      ∧ ((calibrate p true s).port p).cals = (s.port p).cals + 1 := by
  have hgap : calibrate p true s = { (s.setPort p { s.port p with cals := (s.port p).cals + 1 }).put F.faHealth_CALSKIP
        (skipCleared (s.fld F.faHealth_CALSKIP) p) with boot := { s.boot with idleGap := Tab.set 0 s.boot.idleGap p s.tick } } := by
    refine (if_neg (by simp [hclk])).trans ((if_neg ?_).trans (if_pos rfl))
    rcases h with h | h
    · simp [State.on, h]
    · simp [h]
  rw [hgap]
  refine ⟨State.put_fld (s.setPort p { s.port p with cals := (s.port p).cals + 1 }) .., ?_⟩
  exact congrArg PortS.cals (State.setPort_port s p _)

theorem calibrate_of_skip {p : Nat} (hclk : s.clocksOn = true) : (calibrate p false s).fld F.faHealth_CALSKIP =
    (skipCleared (s.fld F.faHealth_CALSKIP) p + 2 ^ p) % 2 ^ F.faHealth_CALSKIP.width := by
  have hskip : calibrate p false s = (passTo (Tab.get 0 s.boot.idleGap p + 2500000000) s).put F.faHealth_CALSKIP
      (skipCleared (s.fld F.faHealth_CALSKIP) p + 2 ^ p) :=
    (if_neg (by simp [hclk])).trans ((if_neg (by simp)).trans (if_neg (by simp)))
  rw [hskip, State.put_fld]

/-- A stable's second at its temperature, and its oscillator's count. -/
def stableRead (tj freq : List Nat) (temp : BitVec 12) (s : State) (n : Nat) : State :=
  (ageSecond n (BitVec.ofNat 12 (tj.getD n temp.toNat)).toInt s).put F.faAge_FREQ (freq.getD n 0) n

/-- The state in which the stables' monitors are read. -/
def sensorsRead (temp : BitVec 12) (vcore : Nat) (s : State) : State := (s.put F.faHealth_VCORE (s.vcore vcore)).put F.faHealth_TEMP temp.toNat

theorem stableRead_fld {f : Fld} (hage : f.id ≠ F.faAge_AGE.id) (hfreq : f.id ≠ F.faAge_FREQ.id) (tj freq : List Nat) (temp : BitVec 12)
    (s : State) (n i j : Nat) : (stableRead tj freq temp s n).fld f i j = s.fld f i j := by
  unfold stableRead ageSecond
  rw [State.put_fld_ne _ _ _ _ _ _ _ _ hfreq, State.put_fld_ne _ _ _ _ _ _ _ _ hage]
  rfl

theorem stableRead_age (tj freq : List Nat) (temp : BitVec 12) (s : State) (n : Nat) :
    Tab.get 0 (stableRead tj freq temp s n).boot.ageAcc n =
        Tab.get 0 s.boot.ageAcc n + 256 * stressF (s.on F.faCfg0_AVSEN) (BitVec.ofNat 12 (tj.getD n temp.toNat)).toInt
      ∧ (stableRead tj freq temp s n).fld F.faAge_AGE n = min 65535 (Tab.get 0 (stableRead tj freq temp s n).boot.ageAcc n / (31557600 * 2 ^ 64))
      ∧ (stableRead tj freq temp s n).fld F.faAge_FREQ n = freq.getD n 0 % 2 ^ F.faAge_FREQ.width := by
  have hacc : Tab.get 0 (stableRead tj freq temp s n).boot.ageAcc n =
      Tab.get 0 s.boot.ageAcc n + 256 * stressF (s.on F.faCfg0_AVSEN) (BitVec.ofNat 12 (tj.getD n temp.toNat)).toInt :=
    Tab.get_set_same ..
  refine ⟨hacc, ?_, State.put_fld ..⟩
  rw [hacc]
  unfold stableRead ageSecond
  rw [State.put_fld_ne _ _ _ _ _ _ _ _ (by decide), State.put_fld]
  exact Nat.mod_eq_of_lt (lt_of_le_of_lt (min_le_left _ _) (by decide))

theorem stableRead_other (tj freq : List Nat) (temp : BitVec 12) (s : State) {n m : Nat} (hn : n < 16) (hm : m < 16) (h : m ≠ n) :
    Tab.get 0 (stableRead tj freq temp s n).boot.ageAcc m = Tab.get 0 s.boot.ageAcc m
      ∧ (stableRead tj freq temp s n).fld F.faAge_AGE m = s.fld F.faAge_AGE m
      ∧ (stableRead tj freq temp s n).fld F.faAge_FREQ m = s.fld F.faAge_FREQ m := by
  refine ⟨Tab.get_set_ne _ _ _ _ _ _ h, ?_, ?_⟩
  · unfold stableRead ageSecond
    rw [State.put_fld_ne _ _ _ _ _ _ _ _ (by decide), put_fld_index _ _ (by omega) (by omega) h]
    rfl
  · unfold stableRead ageSecond
    rw [put_fld_index _ _ (by omega) (by omega) h, State.put_fld_ne _ _ _ _ _ _ _ _ (by decide)]
    rfl

/-- What the state shows of a stable's age. -/
def State.aged (s : State) (n : Nat) : Nat × Nat × Nat := (Tab.get 0 s.boot.ageAcc n, s.fld F.faAge_AGE n, s.fld F.faAge_FREQ n)

theorem stablesRead_spec (tj freq : List Nat) (temp : BitVec 12) (s : State) {n : Nat} (hn : n < 16) :
    let t := (List.range 16).foldl (stableRead tj freq temp) s
    Tab.get 0 t.boot.ageAcc n =
        Tab.get 0 s.boot.ageAcc n + 256 * stressF (s.on F.faCfg0_AVSEN) (BitVec.ofNat 12 (tj.getD n temp.toNat)).toInt
      ∧ t.fld F.faAge_AGE n = min 65535 (Tab.get 0 t.boot.ageAcc n / (31557600 * 2 ^ 64))
      ∧ t.fld F.faAge_FREQ n = freq.getD n 0 % 2 ^ F.faAge_FREQ.width := by
  intro t
  obtain ⟨-, hread⟩ := foldl_range_each (N := 16) (p := State.aged) (k := fun s => s.on F.faCfg0_AVSEN)
    (g := stableRead tj freq temp)
    (fun avs x i => (x.1 + 256 * stressF avs (BitVec.ofNat 12 (tj.getD i temp.toNat)).toInt,
      min 65535 ((x.1 + 256 * stressF avs (BitVec.ofNat 12 (tj.getD i temp.toNat)).toInt) / (31557600 * 2 ^ 64)),
      freq.getD i 0 % 2 ^ F.faAge_FREQ.width))
    (fun s i => by rw [State.on, stableRead_fld (by decide) (by decide), State.on])
    (fun s i _ => by
      obtain ⟨hacc, hage, hfreq⟩ := stableRead_age tj freq temp s i
      rw [hacc] at hage
      unfold State.aged
      rw [hacc, hage, hfreq])
    (fun s i hi j hj hne => by
      obtain ⟨hacc, hage, hfreq⟩ := stableRead_other tj freq temp s hi hj hne
      unfold State.aged
      rw [hacc, hage, hfreq]) s 16 le_rfl
  have h := (hread n hn).trans (if_pos hn)
  have hacc := congrArg Prod.fst h
  refine ⟨hacc, (congrArg (·.2.1) h).trans ?_, congrArg (·.2.2) h⟩
  exact congrArg (fun a => min 65535 (a / (31557600 * 2 ^ 64))) hacc.symm

theorem stressF_of_cool {t : Int} (avs : Bool) (h : t ≤ 1000) : stressF avs t = 2 ^ 64 * (if avs then 1 else 2) := by
  have hk : (t - 1000).toNat = 0 := by omega
  have hone : pow2Frac 0 = 2 ^ 64 := by decide +kernel
  simp only [stressF, hk, Nat.zero_mod, Nat.zero_div, pow_zero, Nat.mul_one, hone]

theorem thermal_eq (temp : BitVec 12) (vcore : Nat) (tj freq : List Nat) (hclk : s.clocksOn = true) : thermal temp vcore tj freq s =
    { (List.range 16).foldl (stableRead tj freq temp) (sensorsRead temp vcore s) with
      tw := { ((List.range 16).foldl (stableRead tj freq temp) (sensorsRead temp vcore s)).tw with
        hot := 1100 < temp.toInt ||
          (((List.range 16).foldl (stableRead tj freq temp) (sensorsRead temp vcore s)).tw.hot && 1050 ≤ temp.toInt) } } :=
  if_neg (by simp [hclk])

theorem thermal_spec (temp : BitVec 12) (vcore : Nat) (tj freq : List Nat) (hclk : s.clocksOn = true) :
    let t := thermal temp vcore tj freq s
    t.fld F.faHealth_TEMP = temp.toNat ∧ (∀ n < 16,
        let hot := (BitVec.ofNat 12 (tj.getD n temp.toNat)).toInt
        Tab.get 0 t.boot.ageAcc n = Tab.get 0 s.boot.ageAcc n + 256 * stressF (s.on F.faCfg0_AVSEN) hot
          ∧ t.fld F.faAge_AGE n = min 65535 (Tab.get 0 t.boot.ageAcc n / (31557600 * 2 ^ 64))
          ∧ t.fld F.faAge_FREQ n = freq.getD n 0 % 2 ^ F.faAge_FREQ.width)
      ∧ (1100 < temp.toInt → t.tw.hot = true) ∧ (temp.toInt < 1050 → t.tw.hot = false) ∧ t.eng = s.eng := by
  have havs : (sensorsRead temp vcore s).on F.faCfg0_AVSEN = s.on F.faCfg0_AVSEN := by
    unfold sensorsRead State.on
    simp (disch := decide) only [State.put_fld_ne]
  have heng : ((List.range 16).foldl (stableRead tj freq temp) (sensorsRead temp vcore s)).eng = s.eng :=
    foldl_part (p := State.eng) (f := stableRead tj freq temp) (fun _ _ => rfl) _ (sensorsRead temp vcore s)
  have htemp : ((List.range 16).foldl (stableRead tj freq temp) (sensorsRead temp vcore s)).fld F.faHealth_TEMP = temp.toNat := by
    refine (foldl_part (p := fun s => s.fld F.faHealth_TEMP) (f := stableRead tj freq temp)
      (fun s n => stableRead_fld (by decide) (by decide) ..) _ _).trans ((State.put_fld ..).trans (Nat.mod_eq_of_lt temp.isLt))
  have hread := fun n (hn : n < 16) => stablesRead_spec tj freq temp (sensorsRead temp vcore s) hn
  rw [thermal_eq temp vcore tj freq hclk]
  generalize (List.range 16).foldl (stableRead tj freq temp) (sensorsRead temp vcore s) = u at heng htemp hread
  refine ⟨htemp, fun n hn => ?_, fun h => ?_, fun h => ?_, heng⟩
  · obtain ⟨hacc, hage, hfreq⟩ := hread n hn
    rw [havs] at hacc
    exact ⟨hacc, hage, hfreq⟩
  · simp [h]
  · have h1 : ¬(1100 < temp.toInt) := by omega
    have h2 : ¬(1050 ≤ temp.toInt) := by omega
    simp [h1, h2]

/-! ### Telemetry (R356) -/

theorem telemetry_of_off {vint pin : Nat} (h : s.eff F.faCfg0_TELDST (· == 3) = 0) : telemetry vint pin s = s :=
  if_pos (by simp [h])

theorem wd_toNat_mod (v : Nat) : (wd v).toNat = v % 2 ^ 48 := BitVec.toNat_ofNat ..

/-- A word of the record is shown. -/
def telPut (s : State) (x : Word × Nat) : State := s.put F.faTelrec_WORD x.1.toNat x.2

/-- The record stands in its registers, and the counts that it reports begin again. -/
def telShown (vint pin : Nat) (s : State) : State :=
  let u := (s.telWords vint pin).zipIdx.foldl telPut s
  { u with boot := { u.boot with telN := (u.boot.telN + 1) % 2 ^ 32, telCe := 0, telUe := 0 } }

/-- The host hears of the record. -/
def telTold (u : State) : State :=
  let s := if u.on F.faFlcmd_TELIE && u.vecPending 0 5 then sendMsix 5 u else u
  { s with boot := { s.boot with telNew := true } }

theorem telemetry_of_host {vint pin : Nat} (hclk : s.clocksOn = true) (h : s.eff F.faCfg0_TELDST (· == 3) = 1) :
    telemetry vint pin s = telTold (telShown vint pin s) :=
  (if_neg (by simp [hclk, h])).trans (if_neg (by simp [h]))

theorem sendMsix_rest (v : Nat) (s : State) : (sendMsix v s).boot = s.boot ∧ (sendMsix v s).eng = s.eng := by
  unfold sendMsix
  split_ifs <;> exact ⟨rfl, rfl⟩

theorem telTold_spec (u : State) : (telTold u).boot = { u.boot with telNew := true } ∧ (telTold u).eng = u.eng
    ∧ ∀ f i j, (telTold u).fld f i j = u.fld f i j := by
  unfold telTold
  split_ifs
  · obtain ⟨hb, he⟩ := sendMsix_rest 5 u
    exact ⟨congrArg (fun b => { b with telNew := true }) hb, he, fun f i j => sendMsix_fld 5 u f i j⟩
  · exact ⟨rfl, rfl, fun _ _ _ => rfl⟩

theorem telPuts_rest (l : List (Word × Nat)) (s : State) : (l.foldl telPut s).boot = s.boot ∧ (l.foldl telPut s).eng = s.eng :=
  ⟨foldl_part (p := State.boot) (f := telPut) (fun _ _ => rfl) l s, foldl_part (p := State.eng) (f := telPut) (fun _ _ => rfl) l s⟩

/-- A list of words put into the registers of the record, from a later one on, leaves the first. -/
theorem telWord_zero_of_later (ws : List Word) (k : Nat) (hk : 1 ≤ k) (hlen : k + ws.length ≤ 8192) (u : State) :
    ((ws.zipIdx k).foldl telPut u).fld F.faTelrec_WORD 0 = u.fld F.faTelrec_WORD 0 := by
  induction ws generalizing k u with
  | nil => rfl
  | cons w ws ih =>
    rw [List.length_cons] at hlen
    rw [List.zipIdx_cons, List.foldl_cons]
    exact (ih (k + 1) (by omega) (by omega) _).trans (put_fld_index _ _ (by omega) (by omega) (by omega))

theorem telWord_zero (w : Word) (ws : List Word) (hlen : ws.length < 8191) (u : State) :
    ((w :: ws).zipIdx.foldl telPut u).fld F.faTelrec_WORD 0 = w.toNat := by
  rw [List.zipIdx_cons, List.foldl_cons, telWord_zero_of_later _ _ (by omega) (by omega)]
  exact (State.put_fld u F.faTelrec_WORD w.toNat 0 0).trans (Nat.mod_eq_of_lt w.isLt)

theorem telWords_head (vint pin : Nat) (s : State) :
    ∃ rest, s.telWords vint pin = wd (s.boot.sdn * 2 ^ 38 + s.boot.telN % 2 ^ 32) :: rest ∧ rest.length < 8191 := by
  unfold State.telWords withCrc
  refine ⟨_, List.cons_append, ?_⟩
  simp only [List.length_append, List.length_cons, List.length_nil]
  decide

theorem boot_replaced (u : State) (b : BootS) : ({ u with boot := b } : State).eng = u.eng ∧ ({ u with boot := b } : State).act = u.act :=
  ⟨rfl, rfl⟩

theorem telShown_spec (vint pin : Nat) (s : State) :
    (telShown vint pin s).boot = { s.boot with telN := (s.boot.telN + 1) % 2 ^ 32, telCe := 0, telUe := 0 }
      ∧ (telShown vint pin s).eng = s.eng
      ∧ (telShown vint pin s).fld F.faTelrec_WORD 0 = (s.boot.sdn * 2 ^ 38 + s.boot.telN % 2 ^ 32) % 2 ^ 48 := by
  obtain ⟨rest, hws, hlen⟩ := telWords_head vint pin s
  obtain ⟨hboot, heng⟩ := telPuts_rest (s.telWords vint pin).zipIdx s
  have hword := telWord_zero (wd (s.boot.sdn * 2 ^ 38 + s.boot.telN % 2 ^ 32)) rest hlen s
  rw [← hws] at hword
  unfold telShown
  generalize (s.telWords vint pin).zipIdx.foldl telPut s = u at hboot heng hword
  rw [← hboot] at hword ⊢
  obtain ⟨heng', hact⟩ := boot_replaced u { u.boot with telN := (u.boot.telN + 1) % 2 ^ 32, telCe := 0, telUe := 0 }
  exact ⟨rfl, heng'.trans heng, (fld_of_act hact F.faTelrec_WORD 0 0).trans (hword.trans (wd_toNat_mod _))⟩

/-! ### The statement -/

/-- Settles O55. -/
theorem theFarrierKeepsThePartUp : Obligations.TheFarrierKeepsThePartUp := by
  unfold Obligations.TheFarrierKeepsThePartUp
  intro s hclk
  refine ⟨fun w sec u hheard hsup => ⟨fun hbusy => ?_, fun hidle => ?_, fun c op hmem => ?_⟩, fun hnone => ?_, fun sec hop => ?_, fun op sec hrun hop => ?_, fun base calv => ?_, fun p hlt => ?_,
    fun temp v tj freq => ?_, fun vint pin hoff => ?_, fun vint pin hon => ?_, does_eq rfl rfl⟩
  · refine does_eq rfl ((sysWriteQuiet_of_supervisor hheard hsup).trans ?_)
    rw [flashCommand_read, if_pos hbusy]
  · refine does_eq rfl ((sysWriteQuiet_of_supervisor hheard hsup).trans ?_)
    rw [flashCommand_read, if_neg (not_not.2 hidle)]
    rfl
  · have hex : exec (c w sec u) s = done s (sysWriteQuiet w (·.supervisor w) (flashCommand w op sec u) s) ∧ (op = 2 ∨ op = 3) := by
      rcases List.mem_cons.1 hmem with h | h
      · cases h
        exact ⟨rfl, .inl rfl⟩
      · cases List.mem_singleton.1 h
        exact ⟨rfl, .inr rfl⟩
    obtain ⟨he, hop⟩ := hex
    refine ⟨fun hno => ?_, fun hyes hidle hinc hq hest => ?_⟩
    · refine does_eq he ((sysWriteQuiet_of_supervisor hheard hsup).trans ?_)
      rw [flashCommand_refused hop hno]
    · refine does_next he ?_
      rw [sysWriteQuiet_of_supervisor hheard hsup, flashCommand_begun hop hyes hidle]
      obtain ⟨hbusy, hdisp, hflop, hgrant, hflash, heng⟩ := flashBegun_served (op := op) (sec := sec) hinc hq hest
      obtain ⟨hb, hp, hf⟩ := finish_served_rest w (hwRequest .flash (flashBegun op sec s))
      simp only [State.notify_fld_get, State.notify_boot, State.notify_pw, State.notify_flash, State.notify_eng, finish_served_fld, hb, hp, hf,
        finish_served_eng]
      exact ⟨hbusy, hdisp, hflop, hgrant, hflash, heng⟩
  · exact does_eq rfl (by simp [flashComplete, hnone])
  · refine does_next rfl ?_
    have hspec := flashComplete_read_spec hop
    generalize flashComplete s = t at hspec
    simpa only [State.notify_fld_get, State.notify_flash, State.notify_eng] using hspec
  · have hne : op ≠ 1 := by omega
    refine ⟨fun hg => does_eq rfl (flashComplete_ungranted hrun hne hg), fun hg => does_next rfl ?_⟩
    rw [flashComplete_written hrun hne hg]
    obtain ⟨hin, hout, hflop, heng⟩ := sectorWritten_spec (op := op) sec (flashTaken s)
    obtain ⟨hbusy, hdone⟩ := flashEnded_spec (flashReturned sec (sectorWritten op sec (flashTaken s)))
    obtain ⟨hb, hp, hfl, he⟩ := flashEnded_rest (flashReturned sec (sectorWritten op sec (flashTaken s)))
    simp only [State.notify_fld_get, State.notify_flashAt_get, State.notify_boot, State.notify_pw, State.notify_eng]
    have hat := flashAt_of_flash (hfl.trans (flashReturned_rest sec _).2.1)
    refine ⟨fun i hi => (hat _).trans (hin i hi), fun k hk => (hat k).trans (hout k hk), hbusy, hdone, ?_, ?_,
      (he.trans (flashReturned_rest sec _).2.2.1).trans heng⟩
    · rw [hb, (flashReturned_rest sec _).1]
      exact hflop
    · rw [hp]
      exact (flashReturned_rest sec _).2.2.2
  · refine does_next rfl ?_
    rw [if_pos hclk]
    have hspec := powerModel_spec base.val calv s
    generalize powerModel base.val calv s = u at hspec
    simpa only [State.notify_fld_get, State.notify_pw, State.notify_eng] using hspec
  · have hmod : ∀ x < 4096, ∀ q, (x % 2 ^ F.faHealth_CALSKIP.width).testBit q = x.testBit q := fun x hx q =>
      congrArg (Nat.testBit · q) (Nat.mod_eq_of_lt hx)
    have hclear : skipCleared (s.fld F.faHealth_CALSKIP) p < 4096 := lt_of_le_of_lt (Nat.sub_le _ _) hlt
    refine ⟨fun hno => does_eq rfl (calibrate_of_no_gap hclk hno), fun hidle => does_next rfl ?_, does_next rfl ?_⟩
    · obtain ⟨hskip, hcals⟩ := calibrate_of_gap hclk hidle
      rw [State.notify_fld_get, State.notify_port_get, hskip]
      refine ⟨?_, hcals, fun q _ hq => ?_⟩
      · rw [hmod _ hclear, skipCleared_testBit]
        simp
      · rw [hmod _ hclear, skipCleared_testBit]
        simp [hq]
    · have hbit : (skipCleared (s.fld F.faHealth_CALSKIP) p).testBit p = false := by
        rw [skipCleared_testBit]
        simp
      rw [State.notify_fld_get, calibrate_of_skip hclk, Nat.testBit_mod_two_pow, Nat.add_comm, Nat.testBit_two_pow_add_eq, hbit]
      exact (Bool.and_true _).trans (decide_eq_true p.isLt)
  · refine does_next rfl ?_
    obtain ⟨htemp, hread, hhot, hcool, heng⟩ := thermal_spec temp v.val tj freq hclk
    refine ⟨htemp, fun n hn => ?_, hhot, hcool, heng⟩
    obtain ⟨hacc, hage, hfreq⟩ := hread n hn
    refine ⟨hacc, fun hle => ?_, hage, hfreq⟩
    refine hacc.trans ?_
    rw [stressF_of_cool _ hle, Nat.mul_assoc]
    simp only [State.on, bne_iff_ne]
  · exact does_eq rfl (telemetry_of_off hoff)
  · refine does_next rfl ?_
    rw [telemetry_of_host hclk hon]
    obtain ⟨hboot, heng, hfld⟩ := telTold_spec (telShown vint.val pin.val s)
    obtain ⟨hb, he, hw⟩ := telShown_spec vint.val pin.val s
    rw [hb] at hboot
    rw [State.notify_boot, State.notify_eng, State.notify_fld_get, hboot, heng, hfld]
    exact ⟨rfl, rfl, rfl, hw, he⟩

end Sys2Proof.Machine
end

section
/-! A frame that one queue takes: what admission, the buffer and the queue do with it (R220, R224, R230, R233). -/

namespace Sys2Proof.Machine

variable {s t : State} {x : YFrame} {q c : Nat}

/-! ### What admission looks at -/

/-- States in which the buffer, the queues and the fields that admission looks at stand alike; the pointers of the host rings may differ. -/
structure SameBuffer (s t : State) : Prop where
  fld : ∀ f : Fld, f.id ∉ [F.ydHtxptr_TAIL.id, F.ydHtxptr_HEAD.id] → ∀ i j, t.fld f i j = s.fld f i j
  frames : t.yard.frames = s.yard.frames
  queues : t.yard.queues = s.yard.queues
  gate : t.yard.gate = s.yard.gate
  known : t.yard.known = s.yard.known
  lay : t.lay = s.lay

namespace SameBuffer

theorem on (h : SameBuffer s t) {f : Fld} (hf : f.id ∉ [F.ydHtxptr_TAIL.id, F.ydHtxptr_HEAD.id]) (i j : Nat) : t.on f i j = s.on f i j := by
  rw [State.on, h.fld f hf, State.on]

theorem halter (h : SameBuffer s t) : t.halter = s.halter := h.on (by decide) 0 0

theorem frame (h : SameBuffer s t) (id : Nat) : t.frame id = s.frame id := congrArg (Tab.get none · id) h.frames

theorem queue (h : SameBuffer s t) (p c : Nat) : t.queue p c = s.queue p c := congrArg (Tab.get [] · (8 * p + c)) h.queues

theorem gateS (h : SameBuffer s t) (p : Nat) : t.gateS p = s.gateS p := congrArg (Tab.get ({} : GateS) · p) h.gate

theorem eff (h : SameBuffer s t) {f : Fld} (hf : f.id ∉ [F.ydHtxptr_TAIL.id, F.ydHtxptr_HEAD.id]) (r : Nat → Bool) (i j : Nat) :
    t.eff f r i j = s.eff f r i j := by
  simp only [State.eff, h.fld f hf, h.lay]

theorem rpps (h : SameBuffer s t) : t.rpps = s.rpps := by
  simp (disch := decide) only [State.rpps, h.fld]

theorem inPassing (h : SameBuffer s t) (k d : Nat) : t.inPassing k d = s.inPassing k d := by
  unfold State.inPassing
  split_ifs <;> simp (disch := decide) only [h.on]

theorem egress (h : SameBuffer s t) (k d : Nat) : t.egress k d = s.egress k d := by
  simp (disch := decide) only [State.egress, h.fld]

theorem relayOut (h : SameBuffer s t) (p : Nat) : t.relayOut p = s.relayOut p := by
  simp only [State.relayOut, h.inPassing, h.egress]

theorem rate (h : SameBuffer s t) (p : Nat) : t.rate p = s.rate p := by
  simp (disch := decide) only [State.rate, h.fld]

theorem egressLen (h : SameBuffer s t) (p : Nat) (x : YFrame) : t.egressLen p x = s.egressLen p x := by
  simp (disch := decide) only [State.egressLen, State.untags, State.rppOf, h.fld, h.halter, h.rpps]
  rfl

theorem neverFits (h : SameBuffer s t) (p c len : Nat) : t.neverFits p c len = s.neverFits p c len := by
  simp (disch := decide) only [State.neverFits, State.longestOpen, State.wireNs, State.fitBytes, State.preemptable, State.preemptive,
    h.gateS, h.rate, h.fld]
  rfl

theorem qLen (h : SameBuffer s t) (p c : Nat) : t.qLen p c = s.qLen p c := by
  simp only [State.qLen, h.queue, h.frame]

theorem useCells (h : SameBuffer s t) (f : Nat) : t.useCells f = s.useCells f := by
  simp only [State.useCells, h.frames]

theorem fitsIn (h : SameBuffer s t) (p c f n : Nat) (v : List Nat) : t.fitsIn p c f n v = s.fitsIn p c f n v := by
  have hfreed : t.freed = s.freed := funext fun id => by simp only [State.freed, h.frame]
  simp (disch := decide) only [State.fitsIn, State.alpha, h.fld, h.frame, h.useCells, h.halter, h.qLen, h.eff, hfreed]
  rfl

theorem classify (h : SameBuffer s t) (p : Nat) (bs : List Byte) : t.classify p bs = s.classify p bs := by
  simp (disch := decide) only [State.classify, h.fld, h.on, h.eff, h.known]

theorem admits (h : SameBuffer s t) {f vid : Nat} {bytes : List Byte} (ha : s.admits q c f vid bytes) : t.admits q c f vid bytes := by
  obtain ⟨hfit, hroom, hmark, hrelay, hlink⟩ := ha
  refine ⟨?_, ?_, ?_, ?_, fun hq => ?_⟩
  · rwa [h.neverFits, h.egressLen]
  · rwa [h.fitsIn]
  · rwa [h.fld _ (by decide)]
  · rwa [h.relayOut]
  · rw [h.fld _ (by decide)]
    exact hlink hq

end SameBuffer

/-! ### A frame is stored, and its copy queued -/

/-- The frame stands in the buffer, with one copy to come. -/
def State.stored (s : State) (x : YFrame) : State :=
  noteOverq x.chg s (takeCells (cellsOf x.bytes.length)
    ({ s with yard := { s.yard with nextId := s.yard.nextId + 1 } }.setFrame s.yard.nextId
      (some { x with cells := cellsOf x.bytes.length, left := 1 })))

/-- The frame stands in the buffer, and its one copy in a queue. -/
def State.storedIn (s : State) (x : YFrame) (q c : Nat) : State := (s.stored x).setQueue q c (s.queue q c ++ [{ id := s.yard.nextId }])

theorem takeCells_eq (n : Nat) (s : State) : ∃ act, takeCells n s = { s with act := act } := ⟨_, rfl⟩

theorem takeCells_fld {f : Fld} (hfree : f.id ≠ F.ydStat_FREE.id) (hmin : f.id ≠ F.ydStat_MINFREE.id) (n i j : Nat) (s : State) :
    (takeCells n s).fld f i j = s.fld f i j :=
  (State.put_fld_ne _ _ _ _ _ _ _ _ hmin).trans (State.put_fld_ne _ _ _ _ _ _ _ _ hfree)

/-- The yard with a frame of one copy more. -/
def YardS.storing (y : YardS) (x : YFrame) : YardS :=
  { y with nextId := y.nextId + 1, frames := Tab.set none y.frames y.nextId (some { x with cells := cellsOf x.bytes.length, left := 1 }) }

theorem stored_eq (s : State) (x : YFrame) : ∃ act, s.stored x = { s with act := act, yard := s.yard.storing x } := by
  unfold State.stored
  rcases noteOverq_cases x.chg s (takeCells (cellsOf x.bytes.length)
    ({ s with yard := { s.yard with nextId := s.yard.nextId + 1 } }.setFrame s.yard.nextId
      (some { x with cells := cellsOf x.bytes.length, left := 1 }))) with h | h <;> exact ⟨_, h⟩

theorem stored_fld {f : Fld} (hfree : f.id ≠ F.ydStat_FREE.id) (hmin : f.id ≠ F.ydStat_MINFREE.id) (hov : f.id ≠ F.fnStatus_OVQEV.id)
    (s : State) (x : YFrame) (i j : Nat) : (s.stored x).fld f i j = s.fld f i j :=
  (noteOverq_fld hov ..).trans (takeCells_fld hfree hmin ..)

theorem stored_free (s : State) (x : YFrame) :
    (s.stored x).fld F.ydStat_FREE = (s.fld F.ydStat_FREE - cellsOf x.bytes.length) % 2 ^ F.ydStat_FREE.width := by
  refine (noteOverq_fld (by decide) ..).trans ?_
  exact (State.put_fld_ne _ _ _ _ _ _ _ _ (by decide)).trans (State.put_fld ..)

theorem stored_queue (s : State) (x : YFrame) (p c : Nat) : (s.stored x).queue p c = s.queue p c := by
  obtain ⟨act, h⟩ := stored_eq s x
  rw [h]
  rfl

theorem stored_relayOut (s : State) (x : YFrame) (p : Nat) : (s.stored x).relayOut p = s.relayOut p := by
  have hin : ∀ k d, (s.stored x).inPassing k d = s.inPassing k d := fun k d => by
    unfold State.inPassing State.on
    split_ifs <;> simp (disch := decide) only [stored_fld]
  have hout : ∀ k d, (s.stored x).egress k d = s.egress k d := fun k d => by
    simp (disch := decide) only [State.egress, stored_fld]
  simp only [State.relayOut, hin, hout]

/-- Where no redundancy pair is, a frame's length on an egress depends on its bytes and VLAN alone. -/
theorem egressLen_plain (h : s.rpps = []) (p : Nat) (x : YFrame) : s.egressLen p x = s.egressLen p (plainFrame x.vid x.bytes) := by
  have hnone : s.rppOf p = none := by simp [State.rppOf, h]
  simp only [State.egressLen, hnone]
  rfl

theorem mayTake_of_admits (h : s.admits q c x.chg x.vid x.bytes) (hr : s.rpps = []) (single : Bool) : mayTake q c x single false s = (0, s) := by
  obtain ⟨hfit, hroom, -⟩ := h
  have hlong : (!false && s.neverFits q c (s.egressLen q x)) = false := by rw [egressLen_plain hr, hfit]; rfl
  unfold mayTake
  dsimp only
  rw [hlong, hroom]
  simp

theorem enqueue_of_held (id q c : Nat) (u : State) (hmark : u.fld F.ydQcfg_MARK q c = 0) (hrelay : u.relayOut q = none)
    (hlink : q < 12 → u.fld F.epStat_LINK q ≠ 0) : enqueue id q c none false u = u.setQueue q c (u.queue q c ++ [{ id := id }]) := by
  have hdead : u.deadCount q = none := by
    simp only [State.deadCount, hrelay]
    refine if_neg ?_
    simp only [State.on, Bool.and_eq_true, decide_eq_true_eq, not_and]
    exact fun hq => by simp [hlink hq]
  simp [enqueue, hdead, hmark]

/-- An admitted frame's one copy stands in the queue. -/
theorem storeFrame_one (h : s.admits q c x.chg x.vid x.bytes) (hr : s.rpps = []) :
    storeFrame x [(q, c, none)] none s = (0, s.yard.nextId, s.storedIn x q c) := by
  have htake := mayTake_of_admits h hr (([(q, c, (none : Option Nat))] : List Want).length == 1)
  obtain ⟨-, -, hmark, hrelay, hlink⟩ := h
  have henq := enqueue_of_held s.yard.nextId q c (s.stored x)
    ((stored_fld (by decide) (by decide) (by decide) s x q c).trans hmark) ((stored_relayOut s x q).trans hrelay)
    (fun hq => by rw [stored_fld (by decide) (by decide) (by decide)]; exact hlink hq)
  rw [stored_queue] at henq
  unfold storeFrame
  simp only [List.foldl_cons, List.foldl_nil]
  rw [show ((none : Option Nat) == some (q, c, (none : Option Nat)).1) = false from rfl, htake]
  simp only [if_true, List.nil_append, if_neg (List.cons_ne_nil _ _)]
  exact congrArg (fun u => (0, s.yard.nextId, u)) henq

/-! What is told of the stored frame. -/

theorem storedIn_queue (s : State) (x : YFrame) (q c : Nat) :
    (s.storedIn x q c).queue q c = s.queue q c ++ [{ id := s.yard.nextId }] := queue_setQueue_same ..

theorem storedIn_frame (s : State) (x : YFrame) (q c : Nat) :
    (s.storedIn x q c).frame s.yard.nextId = some { x with cells := cellsOf x.bytes.length, left := 1 } := by
  obtain ⟨act, h⟩ := stored_eq s x
  unfold State.storedIn
  rw [h]
  exact Tab.get_set_same (none : Option YFrame) s.yard.frames s.yard.nextId
    (some { x with cells := cellsOf x.bytes.length, left := 1 })

theorem storedIn_rest (s : State) (x : YFrame) (q c : Nat) : (s.storedIn x q c).eng = s.eng ∧ (s.storedIn x q c).loft = s.loft
    ∧ (s.storedIn x q c).out = s.out ∧ (s.storedIn x q c).yard.inbox = s.yard.inbox ∧ (s.storedIn x q c).yard.table = s.yard.table
    ∧ (s.storedIn x q c).yard.nextId = s.yard.nextId + 1 ∧ (s.storedIn x q c).yard.htxNext = s.yard.htxNext := by
  obtain ⟨act, h⟩ := stored_eq s x
  unfold State.storedIn
  rw [h]
  exact ⟨rfl, rfl, rfl, rfl, rfl, rfl, rfl⟩

theorem storedIn_fld (s : State) (x : YFrame) (q c : Nat) (f : Fld) (i j : Nat) : (s.storedIn x q c).fld f i j = (s.stored x).fld f i j := rfl

/-- The ports that a mask of one bit names. -/
theorem wantsOf_single (hq : q < 12) (c : Nat) : wantsOf (2 ^ q) c = [(q, c, none)] := by
  have hone : (List.range 12).filter (2 ^ q).testBit = [q] := by
    revert q
    decide
  rw [wantsOf, hone]
  rfl

theorem bothPorts_of_none (h : s.rpps = []) (ws : List Want) : s.bothPorts ws = ws := by
  rw [State.bothPorts, h]
  rfl

end Sys2Proof.Machine
end

section
/-! The statement of the host rings: tails, descriptors and buffers, and the messages that are held off (R229, R363). -/

namespace Sys2Proof.Machine

variable {s t u : State} {q c : Nat}

/-! ### A frame that is submitted to one port (R225, R230) -/

theorem submitFrame_one {x : YFrame} {vid pcp : Nat} {tagged : Bool} (dfn : Nat) (hq : q < 12) (hr : s.rpps = [])
    (hclass : s.classify x.src.ingress x.bytes = some (vid, pcp, tagged)) (ha : s.admits q x.cls x.chg vid x.bytes) :
    submitFrame x 1 dfn (2 ^ q) false s =
      (1, s.storedIn { x with vid := vid, tagged := hasTag x.bytes, seqNr := none } q x.cls) := by
  have hnone : s.rppOf q = none := by simp [State.rppOf, hr]
  have hstore := storeFrame_one (x := { x with vid := vid, tagged := hasTag x.bytes, seqNr := none }) ha hr
  unfold submitFrame
  simp only [hclass, if_true, wantsOf_single hq, bothPorts_of_none hr]
  simp [hnone, hstore]

/-! ### What a write-back to a host ring leaves (R229, R363) -/

/-- What stands through a write-back to a host ring and a move of its HEAD. -/
structure RingKeeps (s t : State) : Prop where
  buffer : SameBuffer s t
  tail : ∀ r, t.fld F.ydHtxptr_TAIL r = s.fld F.ydHtxptr_TAIL r
  htxNext : t.yard.htxNext = s.yard.htxNext
  nextId : t.yard.nextId = s.yard.nextId
  eng : t.eng = s.eng
  loft : t.loft = s.loft
  out : s.out <+: t.out

namespace RingKeeps

theorem refl (s : State) : RingKeeps s s :=
  ⟨⟨fun _ _ _ _ => rfl, rfl, rfl, rfl, rfl, rfl⟩, fun _ => rfl, rfl, rfl, rfl, rfl, List.prefix_rfl⟩

theorem trans (h : RingKeeps s t) (k : RingKeeps t u) : RingKeeps s u where
  buffer := ⟨fun f hf i j => (k.buffer.fld f hf i j).trans (h.buffer.fld f hf i j), k.buffer.frames.trans h.buffer.frames,
    k.buffer.queues.trans h.buffer.queues, k.buffer.gate.trans h.buffer.gate, k.buffer.known.trans h.buffer.known,
    k.buffer.lay.trans h.buffer.lay⟩
  tail r := (k.tail r).trans (h.tail r)
  htxNext := k.htxNext.trans h.htxNext
  nextId := k.nextId.trans h.nextId
  eng := k.eng.trans h.eng
  loft := k.loft.trans h.loft
  out := h.out.trans k.out

theorem emit (s : State) (o : Out) : RingKeeps s (s.emit o) :=
  ⟨⟨fun _ _ _ _ => rfl, rfl, rfl, rfl, rfl, rfl⟩, fun _ => rfl, rfl, rfl, rfl, rfl, List.prefix_append ..⟩

theorem sendMsix (v : Nat) (s : State) : RingKeeps s (sendMsix v s) := by
  unfold Machine.sendMsix
  split_ifs
  · exact refl s
  · exact emit ..
  · exact refl s
  · exact ⟨⟨fun _ _ _ _ => rfl, rfl, rfl, rfl, rfl, rfl⟩, fun _ => rfl, rfl, rfl, rfl, rfl, List.prefix_rfl⟩

theorem ringMessage (v : Nat) (s : State) : RingKeeps s (ringMessage v s) := by
  unfold Machine.ringMessage
  split_ifs
  · exact refl s
  · exact ⟨⟨fun _ _ _ _ => rfl, rfl, rfl, rfl, rfl, rfl⟩, fun _ => rfl, rfl, rfl, rfl, rfl, List.prefix_rfl⟩
  · refine trans ?_ (sendMsix ..)
    exact ⟨⟨fun _ _ _ _ => rfl, rfl, rfl, rfl, rfl, rfl⟩, fun _ => rfl, rfl, rfl, rfl, rfl, List.prefix_rfl⟩

theorem moveHead (r : Nat) (s : State) : RingKeeps s (moveHead r s) :=
  ⟨⟨fun f hf i j => State.put_fld_ne _ _ _ _ _ _ _ _ fun e => hf (by simp [e]), rfl, rfl, rfl, rfl, rfl⟩,
    fun _ => State.put_fld_ne _ _ _ _ _ _ _ _ (by decide), rfl, rfl, rfl, rfl, List.prefix_rfl⟩

/-- The answer of a write that is served. -/
theorem finish {w : Who} {r : Nat} (hw : isPcie w r = true) (s : State) : RingKeeps s (finish w { st := s }) := by
  cases w with
  | pf => exact emit ..
  | vf _ => exact emit ..
  | engine _ => cases hw
  | qspi => cases hw
  | mgmt => cases hw
  | jtag => cases hw
  | farrier => cases hw

end RingKeeps

theorem writeW0_ring {r k f : Nat} (hup : s.host.pcieUp = true) (w : Word) :
    RingKeeps s (writeW0 (.ring r k f) w s) ∧ .dma r k [w] ∈ (writeW0 (.ring r k f) w s).out := by
  have hw : writeW0 (.ring r k f) w s = ringMessage (128 * r + 1) (s.emit (.dma r k [w])) := if_pos hup
  rw [hw]
  have hmsg := RingKeeps.ringMessage (128 * r + 1) (s.emit (.dma r k [w]))
  exact ⟨(RingKeeps.emit s _).trans hmsg, hmsg.out.subset (List.mem_append_right _ (List.mem_singleton.2 rfl))⟩

theorem finalW0_ring {r k f : Nat} (hup : s.host.pcieUp = true) (w0 : Word) (disp cpy : Nat) :
    RingKeeps s (finalW0 (.ring r k f) w0 disp cpy s) ∧ .dma r k [setW0 w0 1 disp cpy] ∈ (finalW0 (.ring r k f) w0 disp cpy s).out := by
  obtain ⟨hkeep, hmem⟩ := writeW0_ring (r := r) (k := k) (f := f) hup (setW0 w0 1 disp cpy)
  exact ⟨hkeep.trans (RingKeeps.moveHead ..), hmem⟩

/-! ### A descriptor of a host ring (R227, R229) -/

theorem fnState_of_fld (h : ∀ f, t.fld F.fnStatus_STATE f = s.fld F.fnStatus_STATE f) (f : Nat) : t.fnState f = s.fnState f := by
  simp only [State.fnState, h]

theorem SameBuffer.fnState (h : SameBuffer s t) (f : Nat) : t.fnState f = s.fnState f := fnState_of_fld (fun _ => h.fld _ (by decide) ..) f

theorem SameBuffer.vfOf (h : SameBuffer s t) (f : Nat) : t.vfOf f = s.vfOf f := by
  simp (disch := decide) only [State.vfOf, h.fnState, h.fld]

theorem SameBuffer.inc (h : SameBuffer s t) (f : Nat) : t.inc f = s.inc f := h.fld _ (by decide) ..

/-- Checks that no receiver of ROUTE 2 has a part in. -/
theorem dfnCheck_of_other_route {w0 w1 : Word} (h : bits w0.toNat 37 2 ≠ 2) (denied stale : Bool) :
    s.dfnCheck w0 w1 denied stale = if denied then 9 else if stale then 7 else 0 := by
  simp [State.dfnCheck, h]

/-- The tail stands, and the ring's next descriptor is the one after the one taken. -/
def ringTaken (r nxt tail : Nat) (s : State) : State :=
  { s.put F.ydHtxptr_TAIL tail r with yard := { s.yard with htxNext := Tab.set 0 s.yard.htxNext r nxt } }

theorem ringTaken_buffer (r nxt tail : Nat) (s : State) : SameBuffer s (ringTaken r nxt tail s) :=
  ⟨fun f hf i j => State.put_fld_ne s F.ydHtxptr_TAIL f tail r 0 i j fun e => hf (by simp [e]), rfl, rfl, rfl, rfl, rfl⟩

theorem writeHtxTail_one {r tail : Nat} (d : HostDesc) (hlog : s.fld F.ydHtxptr_LOGN r ≠ 0)
    (hk : Tab.get 0 s.yard.htxNext r < 2 ^ s.fld F.ydHtxptr_LOGN r)
    (htail : tail = (Tab.get 0 s.yard.htxNext r + 1) % 2 ^ s.fld F.ydHtxptr_LOGN r) :
    writeHtxTail r tail [d] s = ringSubmit r (Tab.get 0 s.yard.htxNext r) d
      (ringTaken r ((Tab.get 0 s.yard.htxNext r + 1) % 2 ^ s.fld F.ydHtxptr_LOGN r) tail s) := by
  have hsize : 2 ≤ 2 ^ s.fld F.ydHtxptr_LOGN r := Nat.le_self_pow hlog 2
  unfold writeHtxTail
  rw [if_neg hlog]
  dsimp only
  rw [show (s.put F.ydHtxptr_TAIL tail r).yard = s.yard from rfl]
  generalize hz : 2 ^ s.fld F.ydHtxptr_LOGN r = size at *
  generalize hn : Tab.get 0 s.yard.htxNext r = k at *
  have hone : (tail + size - k % size) % size = 1 := by
    rw [Nat.mod_eq_of_lt hk, htail]
    rcases Nat.lt_or_ge (k + 1) size with h | h
    · rw [Nat.mod_eq_of_lt h, show k + 1 + size - k = 1 + size by omega, Nat.add_mod_right, Nat.mod_eq_of_lt (by omega)]
    · have hk1 : k + 1 = size := by omega
      rw [hk1, Nat.mod_self, show 0 + size - k = 1 by omega, Nat.mod_eq_of_lt (by omega)]
  rw [hone, show min [d].length 1 = 1 from rfl, List.range_one, List.foldl_cons, List.foldl_nil, Nat.add_zero, Nat.mod_eq_of_lt hk]
  rfl

theorem ringSubmit_denied {r k : Nat} {d : HostDesc} (hroute : bits d.w0.toNat 37 2 ≠ 2)
    (h : s.fnState (bits d.w1.toNat 39 9) = 0 ∨ s.vfOf (bits d.w1.toNat 39 9) ≠ r) :
    ringSubmit r k d s = finalW0 (.ring r k (bits d.w1.toNat 39 9)) d.w0 9 0 s := by
  have hbound : (s.fnState (bits d.w1.toNat 39 9) ≠ 0 && s.vfOf (bits d.w1.toNat 39 9) == r) = false := by
    rcases h with h | h <;> simp [h]
  unfold ringSubmit submitDesc
  simp only [hbound, Bool.not_false, dfnCheck_of_other_route hroute, Bool.not_true, Bool.false_and, Bool.false_eq_true, if_false, if_true]
  simp

theorem ringSubmit_reset {r k : Nat} {d : HostDesc} (h3 : s.fnState (bits d.w1.toNat 39 9) = 3) (hvf : s.vfOf (bits d.w1.toNat 39 9) = r) :
    ringSubmit r k d s = moveHead r s := by
  unfold ringSubmit submitDesc
  simp [h3, hvf]

/-- A descriptor of a function that is bound to the ring is shown DEFERRED, and its frame joins the queue of its port. -/
theorem ringSubmit_accepted {r k vid pcp : Nat} {d : HostDesc} {tagged : Bool} (hup : s.host.pcieUp = true)
    (h0 : s.fnState (bits d.w1.toNat 39 9) ≠ 0) (h3 : s.fnState (bits d.w1.toNat 39 9) ≠ 3) (hvf : s.vfOf (bits d.w1.toNat 39 9) = r)
    (hinc : bits d.w1.toNat 31 8 = s.inc (bits d.w1.toNat 39 9)) (hroute : bits d.w0.toNat 37 2 = 1) (hlaunch : d.w0.getLsbD 35 = false)
    (hmask : bits d.w1.toNat 0 12 = 2 ^ q) (hq : q < 12) (hr : s.rpps = [])
    (hclass : s.classify 16 (d.data.take (bits d.w0.toNat 21 14) ++ List.replicate (bits d.w0.toNat 21 14 - d.data.length) 0) =
      some (vid, pcp, tagged))
    (ha : s.admits q (bits d.w0.toNat 39 3) (bits d.w1.toNat 39 9) vid
      (d.data.take (bits d.w0.toNat 21 14) ++ List.replicate (bits d.w0.toNat 21 14 - d.data.length) 0)) :
    let f := bits d.w1.toNat 39 9
    let bytes := d.data.take (bits d.w0.toNat 21 14) ++ List.replicate (bits d.w0.toNat 21 14 - d.data.length) 0
    ringSubmit r k d s = (writeW0 (.ring r k f) (setW0 d.w0 0 1 0) s).storedIn
      { descFrame (.ring r k f) f d.w0 d.w2 bytes [] with vid := vid, tagged := hasTag bytes, seqNr := none } q (bits d.w0.toNat 39 3) := by
  intro f bytes
  have hbuf := (writeW0_ring (r := r) (k := k) (f := f) hup (setW0 d.w0 0 1 0)).1.buffer
  have hsub := submitFrame_one (x := descFrame (.ring r k f) f d.w0 d.w2 bytes []) (bits d.w1.toNat 22 9) hq
    (hbuf.rpps.trans hr) ((hbuf.classify _ _).trans hclass) (hbuf.admits ha)
  have hbound : (s.fnState (bits d.w1.toNat 39 9) ≠ 0 && s.vfOf (bits d.w1.toNat 39 9) == r) = true := by simp [h0, hvf]
  unfold ringSubmit submitDesc
  simp only [hbound, Bool.not_true, dfnCheck_of_other_route (show bits d.w0.toNat 37 2 ≠ 2 by omega), hinc, hroute, hmask, hlaunch,
    h3, decide_false, Bool.and_false, Bool.false_eq_true, if_false, ne_eq, not_true_eq_false]
  exact (if_pos (congrArg Prod.fst hsub)).trans (congrArg Prod.snd hsub)

/-! ### The statement -/

theorem not_jtag_of_isPcie {w : Who} {r : Nat} (hw : isPcie w r = true) : w ≠ .jtag := fun h => by
  subst h
  cases hw

/-- A write to a ring's tail by its PCIe function. -/
theorem does_ringWrite {c : Instr} {w : Who} {r : Nat} {f : State → State} {P : State → Prop}
    (he : exec c s = done s (blockWriteQuiet w (fun _ => isPcie w r) f s)) (hheard : s.heard w = true) (happ : s.applied = true)
    (hw : isPcie w r = true) (hP : P (notify s (finish w { st := f s }))) : Does c s P := by
  refine does_next he ?_
  rwa [blockWriteQuiet_of_may hheard happ (not_jtag_of_isPcie hw) hw]

theorem pcieUp_of_heard {w : Who} {r : Nat} (hw : isPcie w r = true) (hheard : s.heard w = true) : s.host.pcieUp = true := by
  cases w with
  | pf => exact (Bool.and_eq_true_iff.1 hheard).2
  | vf _ => exact (Bool.and_eq_true_iff.1 hheard).2
  | engine _ => cases hw
  | qspi => cases hw
  | mgmt => cases hw
  | jtag => cases hw
  | farrier => cases hw

/-- What stands of the ring's descriptor that is taken, at the end of the write. -/
theorem ringTaken_kept {w : Who} {r nxt tail : Nat} {t : State} (hw : isPcie w r = true) (htail : tail < 4096)
    (h : RingKeeps (ringTaken r nxt tail s) t) :
    let u := notify s (finish w { st := t })
    u.fld F.ydHtxptr_TAIL r = tail ∧ Tab.get 0 u.yard.htxNext r = nxt ∧ u.yard.frames = s.yard.frames ∧ u.eng = s.eng ∧ u.loft = s.loft := by
  have hall := h.trans (RingKeeps.finish hw t)
  intro u
  rw [State.notify_fld_get, State.notify_yard, State.notify_eng, State.notify_loft, hall.tail, hall.htxNext, hall.buffer.frames, hall.eng,
    hall.loft]
  exact ⟨(State.put_fld s F.ydHtxptr_TAIL tail r 0).trans (Nat.mod_eq_of_lt htail), Tab.get_set_same .., rfl, rfl, rfl⟩

theorem mem_out_finish {w : Who} {r : Nat} {o : Out} (hw : isPcie w r = true) (h : o ∈ t.out) : o ∈ (notify s (finish w { st := t })).out :=
  ((RingKeeps.finish hw t).out.trans (out_isPrefix_notify s _)).subset h

theorem hostRingsTakeTails : Stated.HostRingsTakeTails := by
  intro s w r tail hheard happ
  refine ⟨fun hw hj ds bs => ⟨does_eq rfl (blockWriteQuiet_of_not_may hheard happ hj hw), does_eq rfl (blockWriteQuiet_of_not_may hheard happ hj hw)⟩,
    fun hw => ?_⟩
  have hup := pcieUp_of_heard hw hheard
  have hj := not_jtag_of_isPcie hw
  refine ⟨does_eq rfl ((blockWriteQuiet_of_may hheard happ hj hw).trans ?_), ?_, ?_, ?_, fun bs => does_eq rfl (blockWriteQuiet_of_may hheard happ hj hw)⟩
  · have hnone : writeHtxTail r tail [] s = s.put F.ydHtxptr_TAIL tail r := by
      unfold writeHtxTail
      simp
    rw [hnone]
  · intro d size k hlog hk htail heq hroute hnot
    have hbuf := ringTaken_buffer r ((k + 1) % size) tail s
    refine does_ringWrite rfl hheard happ hw ?_
    rw [writeHtxTail_one d hlog hk heq, ringSubmit_denied hroute (by rwa [hbuf.fnState, hbuf.vfOf])]
    obtain ⟨hkeep, hmem⟩ := finalW0_ring (s := ringTaken r ((k + 1) % size) tail s) (r := r) (k := k) (f := bits d.w1.toNat 39 9) hup d.w0 9 0
    obtain ⟨ht, hn, hf, he, hl⟩ := ringTaken_kept hw tail.isLt hkeep
    exact ⟨mem_out_finish hw hmem, ht, hn, hf, he, hl⟩
  · intro d size k hlog hk htail heq h3 hvf
    have hbuf := ringTaken_buffer r ((k + 1) % size) tail s
    refine does_ringWrite rfl hheard happ hw ?_
    rw [writeHtxTail_one d hlog hk heq, ringSubmit_reset ((hbuf.fnState _).trans h3) ((hbuf.vfOf _).trans hvf)]
    exact (ringTaken_kept hw tail.isLt (RingKeeps.moveHead ..)).2
  · intro d q vid pcp tagged size k f len c bytes hlog hk htail heq h0 h3 hvf hinc hroute hlaunch hmask hq hr hclass ha
    have hbuf := ringTaken_buffer r ((k + 1) % size) tail s
    refine does_ringWrite rfl hheard happ hw ?_
    rw [writeHtxTail_one d hlog hk heq, ringSubmit_accepted (s := ringTaken r ((k + 1) % size) tail s) hup (by rwa [hbuf.fnState])
      (by rwa [hbuf.fnState]) ((hbuf.vfOf _).trans hvf) (hinc.trans (hbuf.inc _).symm) hroute hlaunch hmask hq (hbuf.rpps.trans hr)
      ((hbuf.classify _ _).trans hclass) (hbuf.admits ha)]
    obtain ⟨hkeep, hmem⟩ := writeW0_ring (s := ringTaken r ((k + 1) % size) tail s) (r := r) (k := k) (f := f) hup (setW0 d.w0 0 1 0)
    generalize writeW0 (.ring r k f) (setW0 d.w0 0 1 0) (ringTaken r ((k + 1) % size) tail s) = v at hkeep hmem
    have hid : v.yard.nextId = s.yard.nextId := hkeep.nextId
    obtain ⟨heng, hloft, hout, -, -, -, hnext⟩ := storedIn_rest v
      { descFrame (.ring r k f) f d.w0 d.w2 bytes [] with vid := vid, tagged := hasTag bytes, seqNr := none } q c
    have hqueue := storedIn_queue v
      { descFrame (.ring r k f) f d.w0 d.w2 bytes [] with vid := vid, tagged := hasTag bytes, seqNr := none } q c
    have hframe := storedIn_frame v
      { descFrame (.ring r k f) f d.w0 d.w2 bytes [] with vid := vid, tagged := hasTag bytes, seqNr := none } q c
    rw [hkeep.buffer.queue, hbuf.queue, hid] at hqueue
    rw [hid] at hframe
    generalize v.storedIn { descFrame (.ring r k f) f d.w0 d.w2 bytes [] with vid := vid, tagged := hasTag bytes, seqNr := none } q c = z
      at heng hloft hout hnext hqueue hframe
    have hfin := RingKeeps.finish hw z
    refine ⟨mem_out_finish hw (hout ▸ hmem), (hfin.buffer.queue q c).trans hqueue, ?_, ?_, (hfin.eng.trans heng).trans hkeep.eng,
      (hfin.loft.trans hloft).trans hkeep.loft⟩
    · rw [show (notify s (finish w { st := z })).frame s.yard.nextId = z.frame s.yard.nextId from hfin.buffer.frame _, hframe]
      rfl
    · rw [State.notify_yard, hfin.htxNext, hnext, hkeep.htxNext]
      exact Tab.get_set_same ..

/-- The hold-off of a vector is over at its end, and begins again with a message that is owed. -/
theorem ringMessagesAreHeldOff : Stated.RingMessagesAreHeldOff := by
  intro s v hclk happ hpast
  refine ⟨fun hnot => does_eq_of_applied rfl hclk happ ?_, fun howed hup hen hun => does_eq_of_applied rfl hclk happ ?_⟩
  · unfold ringHoldoffEnd
    rw [passTo_of_past hpast]
    exact if_neg (ne_true_of_eq_false hnot)
  · unfold ringHoldoffEnd
    rw [passTo_of_past hpast]
    have hzero : Tab.get 0 (Tab.set 0 s.yard.holdoff v.val 0) v.val = 0 := Tab.get_set_same ..
    refine (if_pos howed).trans ((if_neg ?_).trans ((if_neg ?_).trans (if_pos hun)))
    · simp [hzero]
    · simp [hup, hen]

/-- Settles O40. -/
theorem hostRingsAndTheirMessages : Obligations.HostRingsAndTheirMessages := ⟨hostRingsTakeTails, ringMessagesAreHeldOff⟩

end Sys2Proof.Machine
end

section
/-! The statement of the yard: frames that are filtered and forwarded, and frames that are delivered (R221, R222, R228, R230). -/

namespace Sys2Proof.Machine

variable {s : State}

/-! ### Filtering and forwarding (R221, R222) -/

theorem yardReceive_of_empty {p : Nat} (h : s.yard.inbox = []) : yardReceive p none s = s := by
  simp [yardReceive, takeInbox, h]

theorem yardReceive_of_first {p : Nat} {it : RxItem} {rest : List RxItem} (h : s.yard.inbox = it :: rest) (hp : it.p = p) :
    yardReceive p none s = (yardTake p it false false { s with yard := { s.yard with inbox := rest } }).2 := by
  have htake : takeInbox p s = some (it, { s with yard := { s.yard with inbox := rest } }) := by
    have hfind : (it :: rest).findIdx? (·.p == p) = some 0 := by simp [List.findIdx?_cons, hp]
    simp only [takeInbox, h, hfind]
    rfl
  simp only [yardReceive, htake]

section
variable {p : Nat} {it : RxItem} (hhalter : s.halter = false) (hr : s.rpps = [])
include hhalter hr

theorem yardTake_of_rejected (h : s.classify p it.bytes = none) : (yardTake p it false false s).2 = s.bump F.ydPcnt_FILT p := by
  have hnone : s.rppOf p = none := by simp [State.rppOf, hr]
  unfold yardTake
  rw [if_neg (by simp [hhalter])]
  simp only [ringReceive, hnone, h]

/-- The frame that the yard makes of what a port received. -/
def rxFrame (s : State) (p : Nat) (it : RxItem) (vid pcp : Nat) : YFrame :=
  { bytes := it.bytes, cells := 0, chg := s.fld F.ydPcfg_CHGFN p, cls := s.classOf p pcp, src := .port p, vid := vid
    tagged := hasTag it.bytes, ts := it.ts, wake := it.wake, left := 0, copied := true }

/-- A frame whose address the table gives one port, on a port that does not learn. -/
theorem yardTake_of_known {vid pcp q : Nat} {tagged : Bool} {e : AtEnt} (h : s.classify p it.bytes = some (vid, pcp, tagged))
    (hlearn : s.fld F.ydPcfg_LEARN p = 0) (he : s.atFind (dstOf it.bytes) vid = some e) (hdlv : e.dlv = false) (hq : q < 12)
    (hmask : e.pmask = 2 ^ q) : (yardTake p it false false s).2 =
      forward p (rxFrame s p it vid pcp) (if q = p then [] else [(q, s.classOf p pcp, none)]) s := by
  have hnone : s.rppOf p = none := by simp [State.rppOf, hr]
  have hlook : lookup p (dstOf it.bytes) vid (s.classOf p pcp) s = (if q = p then [] else [(q, s.classOf p pcp, none)], s) := by
    simp only [lookup, he, hdlv, hmask, wantsOf_single hq]
    by_cases hqp : q = p <;> simp [hqp]
  have hsame : learn p (srcOf it.bytes) vid s = s := if_pos (by simp [State.on, hlearn])
  unfold yardTake
  rw [if_neg (by simp [hhalter])]
  simp only [ringReceive, hnone, h, hlook, hsame, bothPorts_of_none hr]
  rfl

end

theorem forward_none (p : Nat) (x : YFrame) (s : State) : forward p x [] s = s.bump F.ydPcnt_FILT p := if_pos rfl

theorem forward_one {p q c : Nat} {x : YFrame} (h : s.admits q c x.chg x.vid x.bytes) (hr : s.rpps = []) :
    forward p x [(q, c, none)] s = s.storedIn x q c := by
  unfold forward
  rw [if_neg (List.cons_ne_nil _ _), storeFrame_one h hr]
  rfl

theorem yardFiltersAndForwards : Stated.YardFiltersAndForwards := by
  intro s p it rest hlinked hhalter hr
  have hrun : ∀ f : State → State, whenLinked f s = f s := fun f => by
    unfold whenLinked
    rcases hlinked with ⟨hclk, h | h⟩ <;> simp [hclk, h]
  have hdo : ∀ {P : State → Prop}, P (notify s (yardReceive p none s)) → Does (.yardReceive p none) s P := fun hP =>
    does_next rfl (by rwa [hrun])
  refine ⟨fun hempty => hdo (by rw [yardReceive_of_empty hempty]), fun hinbox hp => ?_⟩
  intro u
  have hbuf : SameBuffer s u := ⟨fun _ _ _ _ => rfl, rfl, rfl, rfl, rfl, rfl⟩
  have hu : yardReceive p none s = (yardTake p it false false u).2 := yardReceive_of_first hinbox hp
  refine ⟨fun hclass => hdo ?_, fun vid pcp tagged e q hclass hlearn he hdlv hq hmask => ⟨fun hqp => hdo ?_, fun hqp ha => hdo ?_⟩⟩
  · rw [hu, yardTake_of_rejected (hbuf.halter.trans hhalter) (hbuf.rpps.trans hr) ((hbuf.classify ..).trans hclass)]
  · rw [hu, yardTake_of_known (hbuf.halter.trans hhalter) (hbuf.rpps.trans hr) ((hbuf.classify ..).trans hclass) hlearn he hdlv hq hmask,
      if_pos hqp, forward_none]
  · have ha' : u.admits q (s.classOf p pcp) (s.fld F.ydPcfg_CHGFN p) vid it.bytes := hbuf.admits ha
    have hone := forward_one (p := p) (x := rxFrame u p it vid pcp) ha' (hbuf.rpps.trans hr)
    rw [hu, yardTake_of_known (hbuf.halter.trans hhalter) (hbuf.rpps.trans hr) ((hbuf.classify ..).trans hclass) hlearn he hdlv hq hmask,
      if_neg hqp]
    refine hone.symm ▸ ?_
    intro c id
    obtain ⟨heng, hloft, -, hin, htab, hid, -⟩ := storedIn_rest u (rxFrame u p it vid pcp) q c
    have hqueue := storedIn_queue u (rxFrame u p it vid pcp) q c
    have hframe := storedIn_frame u (rxFrame u p it vid pcp) q c
    have hfree := stored_free u (rxFrame u p it vid pcp)
    rw [← storedIn_fld u _ q c] at hfree
    change let t := notify s (u.storedIn (rxFrame u p it vid pcp) q c); _
    generalize u.storedIn (rxFrame u p it vid pcp) q c = z at heng hloft hin htab hid hqueue hframe hfree
    refine ⟨hqueue, hin, hid, ?_, hfree, htab, hloft, heng⟩
    rw [show (notify s z).frame id = z.frame u.yard.nextId from rfl, hframe]
    rfl

end Sys2Proof.Machine
end

section
/-! What a search for a free slot of a pool and the banks that drain to its function change: where it ends in the state that it began in, no
bank drained and every word that it read was free of errors (R137, R140, R144, R228). -/

namespace Sys2Proof.Machine

variable {s t u : State}

/-! ### What a push leaves of the drains and of the yard (R115, R126) -/

/-- The drains of every stable and the yard stand as they did. -/
structure DrainKeeps (s t : State) : Prop where
  yard : t.yard = s.yard
  xfer : ∀ n, (t.st n).xfer = (s.st n).xfer
  xnext : ∀ n, (t.st n).xnext = (s.st n).xnext

namespace DrainKeeps

theorem refl (s : State) : DrainKeeps s s := ⟨rfl, fun _ => rfl, fun _ => rfl⟩

theorem trans (h : DrainKeeps s t) (k : DrainKeeps t u) : DrainKeeps s u :=
  ⟨k.yard.trans h.yard, fun n => (k.xfer n).trans (h.xfer n), fun n => (k.xnext n).trans (h.xnext n)⟩

theorem of_stb (hy : t.yard = s.yard) (hs : t.stb = s.stb) : DrainKeeps s t :=
  ⟨hy, fun n => by rw [State.st, hs, State.st], fun n => by rw [State.st, hs, State.st]⟩

theorem put (s : State) (f : Fld) (v i j : Nat) : DrainKeeps s (s.put f v i j) := of_stb rfl rfl
theorem bump (s : State) (f : Fld) (i j n : Nat) : DrainKeeps s (s.bump f i j n) := of_stb rfl rfl
theorem setE (s : State) (n : Nat) (x : Eng) : DrainKeeps s (s.setE n x) := of_stb rfl rfl

theorem setSt (s : State) (n : Nat) {x : Stb} (hf : x.xfer = (s.st n).xfer) (hn : x.xnext = (s.st n).xnext) : DrainKeeps s (s.setSt n x) := by
  refine ⟨rfl, fun m => ?_, fun m => ?_⟩ <;> rcases eq_or_ne m n with rfl | h
  · rw [State.setSt_st, hf]
  · rw [State.setSt_st_ne _ _ _ _ h]
  · rw [State.setSt_st, hn]
  · rw [State.setSt_st_ne _ _ _ _ h]

theorem of_ite {c : Prop} [Decidable c] (ht : DrainKeeps s t) (hu : DrainKeeps s u) : DrainKeeps s (if c then t else u) := by
  split
  · exact ht
  · exact hu

theorem of_ite_snd {α : Type} {c : Prop} [Decidable c] {x y : α × State} (hx : DrainKeeps s x.2) (hy : DrainKeeps s y.2) :
    DrainKeeps s (if c then x else y).2 := by
  split
  · exact hx
  · exact hy

end DrainKeeps

theorem noteOverq_drains (f : Nat) (old s : State) : DrainKeeps s (noteOverq f old s) := by
  rcases noteOverq_cases f old s with h | h <;> rw [h]
  · exact .refl s
  · exact .put ..

theorem grantEffect_wake_drains (n : Nat) (s : State) : DrainKeeps s (grantEffect (.wake n) s) :=
  (DrainKeeps.put s F.stDqstat_WAKEP 0 n 0).trans (.setSt _ n rfl rfl)

theorem grant_wake_drains {n : Nat} {r : OReq} (hr : r.use = .wake n) (s : State) : DrainKeeps s (grant r s) := by
  have htaken : ∀ p, DrainKeeps s (State.bump { s with pw := p } F.pwOcnt_GRANT) := fun _ => .of_stb rfl rfl
  unfold grant
  rw [hr]
  exact (htaken _).trans (grantEffect_wake_drains n _)

theorem hwRequest_wake_drains (n : Nat) (s : State) : DrainKeeps s (hwRequest (.wake n) s) := by
  have hpw : ∀ p : PwS, DrainKeeps s { s with pw := p } := fun _ => .of_stb rfl rfl
  unfold hwRequest ostlerRequest
  extract_lets
  refine .of_ite_snd (.refl s) (.of_ite_snd (.refl s) (.of_ite_snd (.bump ..) (.of_ite_snd (.bump ..) ?_)))
  extract_lets
  exact .of_ite_snd (((hpw _).trans (grant_wake_drains rfl _)).trans (noteOverq_drains ..)) (.of_stb rfl rfl)

theorem wakeStable_drains (n : Nat) (s : State) : DrainKeeps s (wakeStable n s) := by
  unfold wakeStable askWake
  split_ifs
  · exact .refl s
  · exact (DrainKeeps.setSt s n (x := { s.st n with waking := some false }) rfl rfl).trans (hwRequest_wake_drains n _)
  · exact .refl s

theorem deferTask_drains (f n : Nat) (s : State) : DrainKeeps s (deferTask f n s) := by
  unfold deferTask
  split_ifs
  · exact ((DrainKeeps.bump s F.stCnt2_DEFER n 0 1).trans (.put _ F.fnStatus_OVERQ _ f 0)).trans (noteOverq_drains f s _)
  · exact .refl s

theorem clearIdle_drains (n : Nat) (s : State) : DrainKeeps s (clearIdle n s) := .setSt s n rfl rfl

theorem placeIn_drains (room e : Nat) (x : Task) (s : State) : DrainKeeps s (placeIn room e x s) := by
  unfold placeIn
  extract_lets n
  refine .trans (.of_ite ?_ ?_) (deferTask_drains ..)
  · exact (DrainKeeps.setE ..).trans (.setE ..)
  · exact .setSt _ _ rfl rfl

theorem place_drains (e : Nat) (x : Task) (s : State) : DrainKeeps s (place e x s) :=
  ((clearIdle_drains (e / 8) s).trans (placeIn_drains 15 e x _)).trans (wakeStable_drains (e / 8) _)

theorem pushTo_drains (e : Nat) (x : Task) (s : State) : DrainKeeps s (pushTo e x s).2 := by
  unfold pushTo
  extract_lets
  exact .of_ite_snd (.bump ..) (.of_ite_snd (.refl s) (.of_ite_snd (.bump ..) (.of_ite_snd (.bump ..) (.of_ite_snd (.bump ..)
    (.of_ite_snd (.bump ..) (place_drains ..))))))

theorem pushTo_fnKeeps (e : Nat) (x : Task) (s : State) : FnKeeps s (pushTo e x s).2 := by
  have hcount : ∀ {f : Fld}, f.id ∉ fnKept → ∀ i, FnKeeps s (s.bump f i) := fun hf i => (FnKeeps.refl s).bump hf ..
  unfold pushTo
  extract_lets
  exact .of_ite_snd (hcount (by decide) _) (.of_ite_snd (.refl s) (.of_ite_snd (hcount (by decide) _) (.of_ite_snd (hcount (by decide) _)
    (.of_ite_snd (hcount (by decide) _) (.of_ite_snd (hcount (by decide) _) (place_fnKeeps ..))))))

theorem pushTask_drains (src : Option Nat) (x : Task) (s : State) : DrainKeeps s (pushTask src x s).2 := by
  unfold pushTask
  extract_lets
  refine .of_ite_snd (.bump ..) (.of_ite_snd (.refl s) (.of_ite_snd (.refl s) (.of_ite_snd (.refl s)
    (.of_ite_snd (.bump ..) (.of_ite_snd (.bump ..) ?_)))))
  split
  · exact .refl s
  · extract_lets
    refine .of_ite_snd (.bump ..) (.of_ite_snd (.bump ..) (.of_ite_snd ?_ (place_drains ..)))
    exact ((DrainKeeps.setE ..).trans (.bump ..)).trans (placeIn_drains ..)

theorem finishRelease_drains (g : Nat) (s : State) : DrainKeeps s (finishRelease g s) ∧ (finishRelease g s).boot = s.boot := by
  unfold finishRelease
  split_ifs
  · have hstart := pushStart_fnKeeps g ((s.setFn g { s.fn g with releasing := false, awaits := [] }).put F.fnStatus_STATE 2 g)
    refine ⟨.trans (t := (s.setFn g { s.fn g with releasing := false, awaits := [] }).put F.fnStatus_STATE 2 g) (.of_stb rfl rfl) ?_,
      hstart.boot.trans rfl⟩
    rw [pushStart_eq]
    rcases startWith_cases _ _ _ with h | ⟨w, h⟩ <;> rw [h]
    · exact .refl _
    · exact pushTask_drains ..
  · exact ⟨.refl s, rfl⟩

theorem logRecord_drains (typ : Nat) (ws : List Nat) (s : State) : DrainKeeps s (logRecord typ ws s)
    ∧ (logRecord typ ws s).boot.telCe = s.boot.telCe ∧ (logRecord typ ws s).boot.telUe = s.boot.telUe := by
  have hwrite : ∀ (w : Word) (u : State), (writeRecord w ws u).yard = u.yard ∧ (writeRecord w ws u).stb = u.stb
      ∧ (writeRecord w ws u).boot.telCe = u.boot.telCe ∧ (writeRecord w ws u).boot.telUe = u.boot.telUe := fun w u => by
    unfold writeRecord
    extract_lets r sec nxt v body all z
    obtain ⟨x, hx⟩ := foldl_setFlash_eq (fun i => 512 * sec + 8 * (r % 64) + i) (fun i => BitVec.ofNat 64 (all.getD i 0).toNat)
      (List.range 8) v
    have hz : z = { v with flash := x } := hx
    have hv : v.yard = u.yard ∧ v.stb = u.stb ∧ v.boot.telCe = u.boot.telCe ∧ v.boot.telUe = u.boot.telUe := by
      unfold v
      split_ifs <;> exact ⟨rfl, rfl, rfl, rfl⟩
    rw [hz]
    exact hv
  unfold logRecord
  split_ifs
  · exact ⟨.bump .., rfl, rfl⟩
  · extract_lets w0 c b s'
    split_ifs
    · obtain ⟨hy, hs, hc, hu⟩ := hwrite w0 (s'.bump F.pwOcnt_GRANT)
      exact ⟨.of_stb hy hs, hc, hu⟩
    · exact ⟨.of_stb rfl rfl, rfl, rfl⟩
    · exact ⟨.of_stb rfl rfl, rfl, rfl⟩

/-! ### Steps that never come back -/

/-- The errors that reads have found. -/
def State.errs (s : State) : Nat := s.boot.telCe + s.boot.telUe

/-- Later than a state: reads have found no fewer errors, and the drains to `f` and the hand-overs that wait are among those that were. -/
structure DrainLe (f : Nat) (s t : State) : Prop where
  errs : s.errs ≤ t.errs
  xfer : ∀ n b, Tab.get 0 (t.st n).xfer b = f + 1 → Tab.get 0 (s.st n).xfer b = f + 1
  xnext : ∀ n b, Tab.get 0 (t.st n).xnext b ≠ 0 → Tab.get 0 (s.st n).xnext b ≠ 0

/-- A step that leads to a later state, and to the same one where it changes nothing of what can only grow or shrink. -/
structure Onward (f : Nat) (s t : State) : Prop where
  le : DrainLe f s t
  same : DrainLe f t s → t = s

variable {f : Nat}

theorem DrainLe.refl (s : State) : DrainLe f s s := ⟨le_rfl, fun _ _ => id, fun _ _ => id⟩

theorem DrainLe.trans (h : DrainLe f s t) (k : DrainLe f t u) : DrainLe f s u :=
  ⟨h.errs.trans k.errs, fun n b => h.xfer n b ∘ k.xfer n b, fun n b => h.xnext n b ∘ k.xnext n b⟩

theorem Onward.refl (s : State) : Onward f s s := ⟨.refl s, fun _ => rfl⟩

theorem Onward.trans (h : Onward f s t) (k : Onward f t u) : Onward f s u := by
  refine ⟨h.le.trans k.le, fun hback => ?_⟩
  have hts : t = s := h.same (k.le.trans hback)
  exact (k.same (hback.trans h.le)).trans hts

/-- Steps that lead back to where they began stood still. -/
theorem Onward.eq_of_back (h : Onward f s t) (k : Onward f t s) : t = s := h.same k.le

theorem Onward.foldl {α : Type} {g : State → α → State} (hg : ∀ s x, Onward f s (g s x)) (l : List α) (s : State) : Onward f s (l.foldl g s) := by
  induction l generalizing s with
  | nil => exact .refl s
  | cons x l ih => exact (hg s x).trans (ih _)

/-- Where a fold of such steps ends where it began, every step of it stands still. -/
theorem Onward.foldl_eq {α : Type} {g : State → α → State} (hg : ∀ s x, Onward f s (g s x)) {l : List α} (h : l.foldl g s = s) :
    ∀ x ∈ l, g s x = s := by
  induction l with
  | nil => exact fun _ hx => absurd hx List.not_mem_nil
  | cons x l ih =>
    have hx : g s x = s := (hg s x).eq_of_back (by
      have hrest := Onward.foldl hg l (g s x)
      rwa [show l.foldl g (g s x) = s from h] at hrest)
    rw [List.foldl_cons, hx] at h
    intro y hy
    rcases List.mem_cons.1 hy with rfl | hy
    · exact hx
    · exact ih h y hy

/-- A hand-over that waited starts to drain. -/
theorem startDrain_st (n b k : Nat) (v : State) (m : Nat) :
    (startDrain n b k (v.setSt n { v.st n with xnext := Tab.set 0 (v.st n).xnext b 0 })).st m =
      if m = n then { v.st n with xfer := Tab.set 0 (v.st n).xfer b (k + 1), xnext := Tab.set 0 (v.st n).xnext b 0 } else v.st m := by
  unfold startDrain
  rw [State.put_st_get, State.put_st_get]
  split_ifs with hm
  · rw [hm, State.setSt_st, State.setSt_st]
  · rw [State.setSt_st_ne _ _ _ _ hm, State.setSt_st_ne _ _ _ _ hm]

theorem bankPassed_boot_yard (n b g : Nat) (s : State) : (bankPassed n b g s).boot = s.boot ∧ (bankPassed n b g s).yard = s.yard := by
  simp only [bankPassed, State.put_boot, State.putShadow_boot, State.setSt_boot, State.put_yard, State.putShadow_yard, State.setSt_yard,
    and_self]

theorem bankNoted_drains (n b g : Nat) (s : State) : (bankNoted n b g s).boot = s.boot ∧ (bankNoted n b g s).yard = s.yard
    ∧ ∀ m, (bankNoted n b g s).st m = if m = n then { s.st n with xfer := Tab.set 0 (s.st n).xfer b 0 } else s.st m := by
  obtain ⟨hboot, hyard⟩ := bankPassed_boot_yard n b g s
  refine ⟨?_, ?_, fun m => ?_⟩
  · rw [bankNoted, noteOverq_boot, noteOverq_boot, hboot]
  · rw [bankNoted, (noteOverq_drains _ _ _).yard, (noteOverq_drains _ _ _).yard, hyard]
  · have hst : (bankNoted n b g s).st m = (bankPassed n b g s).st m := by
      rw [State.st, (bankNoted_frame n b g s).1, State.st]
    rw [hst]
    split_ifs with hm
    · rw [hm, bankPassed_st]
    · simp only [bankPassed, State.put_st_get, State.putShadow_st_get]
      exact State.setSt_st_ne _ _ _ _ hm

/-- The drains as the end of one of them leaves them. -/
theorem endDrain_drains {n b g : Nat} (h : Tab.get 0 (s.st n).xfer b = g + 1) :
    (endDrain n b s).boot = s.boot ∧ (endDrain n b s).yard = s.yard
      ∧ (∀ m c, (m, c) ≠ (n, b) → Tab.get 0 ((endDrain n b s).st m).xfer c = Tab.get 0 (s.st m).xfer c
          ∧ Tab.get 0 ((endDrain n b s).st m).xnext c = Tab.get 0 (s.st m).xnext c)
      ∧ Tab.get 0 ((endDrain n b s).st n).xnext b = 0
      ∧ (Tab.get 0 (s.st n).xnext b = 0 → Tab.get 0 ((endDrain n b s).st n).xfer b = 0) := by
  have hnoted := bankNoted_drains n b g s
  rw [endDrain_of_draining h]
  obtain ⟨hboot, hyard, hst⟩ := hnoted
  obtain ⟨⟨hyard', hxfer, hxnext⟩, hboot'⟩ := finishRelease_drains g (bankNoted n b g s)
  generalize finishRelease g (bankNoted n b g s) = v at hyard' hxfer hxnext hboot'
  have hvx : ∀ m c, Tab.get 0 (v.st m).xfer c = if (m, c) = (n, b) then 0 else Tab.get 0 (s.st m).xfer c := fun m c => by
    rw [hxfer, hst]
    by_cases hm : m = n
    · subst hm
      by_cases hc : c = b
      · subst hc
        rw [if_pos rfl, if_pos rfl]
        exact Tab.get_set_same 0 (s.st m).xfer c 0
      · rw [if_pos rfl, if_neg (by simp [hc])]
        exact Tab.get_set_ne 0 0 (s.st m).xfer b c 0 hc
    · rw [if_neg hm, if_neg (by simp [hm])]
  have hvn : ∀ m c, Tab.get 0 (v.st m).xnext c = Tab.get 0 (s.st m).xnext c := fun m c => by
    rw [hxnext, hst]
    split_ifs with hm
    · rw [hm]
    · rfl
  unfold startNextDrain
  split
  · next h0 =>
    refine ⟨hboot'.trans hboot, hyard'.trans hyard, fun m c hne => ⟨(hvx m c).trans (if_neg hne), hvn m c⟩, h0, fun _ => ?_⟩
    exact (hvx n b).trans (if_pos rfl)
  · next k hk =>
    have hk' : Tab.get 0 (s.st n).xnext b = k + 1 := (hvn n b).symm.trans hk
    have hstart : ∀ m, (startDrain n b k (v.setSt n { v.st n with xnext := Tab.set 0 (v.st n).xnext b 0 })).st m =
        if m = n then { v.st n with xfer := Tab.set 0 (v.st n).xfer b (k + 1), xnext := Tab.set 0 (v.st n).xnext b 0 } else v.st m :=
      startDrain_st n b k v
    refine ⟨hboot'.trans hboot, hyard'.trans hyard, fun m c hne => ?_, ?_, fun h0 => absurd (hk'.symm.trans h0) (Nat.succ_ne_zero _)⟩
    · have hpart := hstart m
      rw [hpart]
      split_ifs with hm
      · subst hm
        have hc : c ≠ b := fun hc => hne (by rw [hc])
        dsimp only
        refine ⟨(Tab.get_set_ne _ _ _ _ _ _ hc).trans ((hvx m c).trans (if_neg hne)), (Tab.get_set_ne _ _ _ _ _ _ hc).trans (hvn m c)⟩
      · exact ⟨(hvx m c).trans (if_neg hne), hvn m c⟩
    · rw [hstart, if_pos rfl]
      dsimp only
      exact Tab.get_set_same ..

theorem endDrain_onward {n b : Nat} (h : Tab.get 0 (s.st n).xfer b = f + 1) : Onward f s (endDrain n b s) ∧ endDrain n b s ≠ s := by
  obtain ⟨hboot, -, hother, hxnext, hxfer⟩ := endDrain_drains h
  have hback : ¬DrainLe f (endDrain n b s) s := fun hb => by
    by_cases h0 : Tab.get 0 (s.st n).xnext b = 0
    · exact absurd ((hxfer h0).symm.trans (hb.xfer n b h)) (Nat.succ_ne_zero f).symm
    · exact hb.xnext n b h0 hxnext
  refine ⟨⟨⟨?_, fun m c hm => ?_, fun m c hm => ?_⟩, fun hb => absurd hb hback⟩, fun heq => hback (by rw [heq]; exact .refl s)⟩
  · rw [State.errs, State.errs, hboot]
  · by_cases hmc : (m, c) = (n, b)
    · cases hmc
      exact h
    · exact (hother m c hmc).1 ▸ hm
  · by_cases hmc : (m, c) = (n, b)
    · cases hmc
      exact absurd hxnext hm
    · exact (hother m c hmc).2 ▸ hm

/-- An uncorrectable word is counted for the telemetry, and noted where an output rests on it (R144, R314). -/
def ueNoted (a : SramWord) (s : State) : State :=
  { s with boot := { s.boot with telUe := s.boot.telUe + 1 }, tw := { s.tw with ueSeen := s.tw.ueSeen || s.outWord a } }

theorem countUE_eq {a : SramWord} {n wh eng k : Nat} {y : BitVec 8} (h : memPlace a = some (n, wh, eng, k)) : countUE a y s =
    logRecord 5 [wh * 2 ^ 44 + eng * 2 ^ 41 + b2n (y == 0xFF) * 2 ^ 40 + y.toNat * 2 ^ 32 + 2 ^ 30 + k, n]
      (memLog n wh eng k y ((ueNoted a s).bump F.stMemerr_UE n)) := by
  unfold countUE
  rw [h]
  rfl

theorem memLog_rest (n wh eng k : Nat) (y : BitVec 8) (s : State) : (memLog n wh eng k y s).boot = s.boot ∧ (memLog n wh eng k y s).stb = s.stb
    ∧ (memLog n wh eng k y s).yard = s.yard := by
  simp only [memLog, State.put_boot, State.put_stb, State.put_yard, and_self]

/-- A read of a loft word changes nothing, or finds an error. -/
theorem memRead_loft_cases (n a : Nat) (s : State) :
    ((∃ w, readCode (s.raw (loftPlace n a)) = .ok w) ∧ (memRead (loftPlace n a) s).2 = s)
      ∨ (memRead (loftPlace n a) s).2.errs = s.errs + 1 ∧ DrainKeeps s (memRead (loftPlace n a) s).2 := by
  have hplace : ∃ wh eng k, memPlace (loftPlace n a) = some ((Fin.ofNat 16 n).val, wh, eng, k) := ⟨_, _, _, rfl⟩
  obtain ⟨wh, eng, k, hplace⟩ := hplace
  cases hr : readCode (s.raw (loftPlace n a)) with
  | ok w => exact .inl ⟨⟨w, rfl⟩, by rw [memRead_ok hr]⟩
  | ce w =>
    right
    rw [memRead_ce hr]
    unfold countCE
    simp only [hplace]
    exact ⟨Nat.add_right_comm .., .of_stb rfl rfl⟩
  | ue w y =>
    right
    rw [memRead_ue hr, countUE_eq hplace]
    obtain ⟨hboot, hstb, hyard⟩ := memLog_rest (Fin.ofNat 16 n) wh eng k y ((ueNoted (loftPlace n a) s).bump F.stMemerr_UE (Fin.ofNat 16 n))
    generalize memLog (Fin.ofNat 16 n) wh eng k y ((ueNoted (loftPlace n a) s).bump F.stMemerr_UE (Fin.ofNat 16 n)) = u at hboot hstb hyard
    obtain ⟨hkeep, hce, hue⟩ := logRecord_drains 5
      [wh * 2 ^ 44 + eng * 2 ^ 41 + b2n (y == 0xFF) * 2 ^ 40 + y.toNat * 2 ^ 32 + 2 ^ 30 + k, (Fin.ofNat 16 n).val] u
    refine ⟨?_, .trans (.of_stb hyard hstb) hkeep⟩
    rw [State.errs, hce, hue, hboot]
    exact (Nat.add_assoc ..).symm

theorem memRead_onward (n a : Nat) (s : State) : Onward f s (memRead (loftPlace n a) s).2 := by
  rcases memRead_loft_cases n a s with ⟨-, h⟩ | ⟨herr, hkeep⟩
  · rw [h]
    exact .refl s
  · refine ⟨⟨by omega, fun m c hm => hkeep.xfer m ▸ hm, fun m c hm => hkeep.xnext m ▸ hm⟩, fun hback => ?_⟩
    have := hback.errs
    omega

/-- The bank is one that a transfer waits at: it overlaps the words, and drains to the function. -/
def waitsAt (f n a len b : Nat) (s : State) : Bool :=
  4096 * b < a + len && a < 4096 * (b + 1) && Tab.get 0 (s.st n).xfer b == f + 1

theorem awaitBanks_def (f n a len : Nat) (s : State) :
    awaitBanks f n a len s = (List.range 16).foldl (fun s b => if waitsAt f n a len b s = true then endDrain n b s else s) s := rfl

theorem awaitStep_onward (n a len b : Nat) (s : State) : Onward f s (if waitsAt f n a len b s = true then endDrain n b s else s) := by
  split_ifs with h
  · simp only [waitsAt, Bool.and_eq_true, beq_iff_eq] at h
    exact (endDrain_onward h.2).1
  · exact .refl s

theorem awaitBanks_onward (n a len : Nat) (s : State) : Onward f s (awaitBanks f n a len s) := by
  rw [awaitBanks_def]
  exact .foldl (fun s b => awaitStep_onward n a len b s) _ s

theorem foldl_eq_self {α : Type} {g : State → α → State} {l : List α} (h : ∀ x ∈ l, g s x = s) : l.foldl g s = s := by
  induction l with
  | nil => rfl
  | cons x l ih =>
    rw [List.foldl_cons, h x List.mem_cons_self]
    exact ih fun y hy => h y (List.mem_cons_of_mem _ hy)

/-- Transfers wait nowhere where no bank drains to their function. -/
theorem awaitBanks_of_none {n a len : Nat} (h : ∀ b < 16, waitsAt f n a len b s = false) : awaitBanks f n a len s = s := by
  rw [awaitBanks_def]
  exact foldl_eq_self fun b hb => if_neg (by simp [h b (List.mem_range.1 hb)])

/-- Where a wait changes nothing, no bank was to be waited for. -/
theorem waitsAt_of_awaitBanks_eq {n a len : Nat} (h : awaitBanks f n a len s = s) (b : Nat) (hb : b < 16) : waitsAt f n a len b s = false := by
  rw [awaitBanks_def] at h
  have hstep := Onward.foldl_eq (f := f) (fun s b => awaitStep_onward n a len b s) h b (List.mem_range.2 hb)
  by_contra hw
  rw [if_pos (Bool.eq_true_of_not_eq_false hw)] at hstep
  simp only [Bool.not_eq_false, waitsAt, Bool.and_eq_true, beq_iff_eq] at hw
  exact (endDrain_onward hw.2).2 hstep

/-! ### The search for a free slot (R228) -/

/-- One slot is looked at. -/
def slotStep (f n k0 : Nat) (r : Option Nat × State) (i : Nat) : Option Nat × State :=
  match r.1 with
  | some _ => r
  | none =>
    let k := (k0 + i) % n
    let m := r.2.fld F.ydFrx0_STBL f
    let a := r.2.fld F.ydFrx0_BASE f + 64 * r.2.fld F.ydFrx0_SLOTW f * k
    let s := awaitBanks f m a 1 r.2
    if !s.ownsLoft f m a 1 then (some k, s)
    else
      let x := memRead (loftPlace m a) s
      (if x.1.bad || x.1.word.getLsbD 47 then none else some k, x.2)

theorem freeSlot_def (f : Nat) (s : State) : freeSlot f s =
    (List.range (s.fld F.ydFrx0_NSLOT f)).foldl (slotStep f (s.fld F.ydFrx0_NSLOT f) (Tab.get 0 s.yard.poolNext f)) (none, s) := rfl

/-- What is looked at in a slot whose words begin at `a`. -/
def slotLook (f m a k : Nat) (s : State) : Option Nat × State :=
  if !s.ownsLoft f m a 1 then (some k, s)
  else (if (memRead (loftPlace m a) s).1.bad || (memRead (loftPlace m a) s).1.word.getLsbD 47 then none else some k, (memRead (loftPlace m a) s).2)

theorem slotStep_none (n k0 i : Nat) (s : State) : slotStep f n k0 (none, s) i =
    let m := s.fld F.ydFrx0_STBL f
    let a := s.fld F.ydFrx0_BASE f + 64 * s.fld F.ydFrx0_SLOTW f * ((k0 + i) % n)
    slotLook f m a ((k0 + i) % n) (awaitBanks f m a 1 s) := rfl

theorem slotLook_onward (m a k : Nat) (s : State) : Onward f s (slotLook f m a k s).2 := by
  unfold slotLook
  split
  · exact .refl s
  · exact memRead_onward m a s

theorem slotStep_onward (n k0 i : Nat) (r : Option Nat × State) : Onward f r.2 (slotStep f n k0 r i).2 := by
  obtain ⟨o, s⟩ := r
  cases o with
  | some k => exact .refl s
  | none =>
    rw [slotStep_none]
    exact (awaitBanks_onward ..).trans (slotLook_onward ..)

theorem slotSteps_onward (n k0 : Nat) (l : List Nat) (r : Option Nat × State) : Onward f r.2 (l.foldl (slotStep f n k0) r).2 := by
  induction l generalizing r with
  | nil => exact .refl _
  | cons i l ih => exact (slotStep_onward n k0 i r).trans (ih _)

theorem slotSteps_of_some (n k0 k : Nat) (l : List Nat) (s : State) : l.foldl (slotStep f n k0) (some k, s) = (some k, s) := by
  induction l with
  | nil => rfl
  | cons i l ih => exact ih

theorem setQueue_raw (s : State) (p c : Nat) (q : List QEnt) (a : SramWord) : (s.setQueue p c q).raw a = s.raw a := by
  cases a <;> rfl

/-- A slot that is looked at without a change looks the same where the queues alone differ. -/
theorem slotStep_setQueue {n k0 i : Nat} {o : Option Nat} (h : slotStep f n k0 (none, s) i = (o, s)) (p c : Nat) (q : List QEnt) :
    slotStep f n k0 (none, s.setQueue p c q) i = (o, s.setQueue p c q) := by
  rw [slotStep_none] at h ⊢
  generalize (k0 + i) % n = k at h ⊢
  have hm : (s.setQueue p c q).fld F.ydFrx0_STBL f = s.fld F.ydFrx0_STBL f := rfl
  have ha : (s.setQueue p c q).fld F.ydFrx0_BASE f + 64 * (s.setQueue p c q).fld F.ydFrx0_SLOTW f * k =
      s.fld F.ydFrx0_BASE f + 64 * s.fld F.ydFrx0_SLOTW f * k := rfl
  rw [hm, ha]
  dsimp only at h ⊢
  generalize s.fld F.ydFrx0_BASE f + 64 * s.fld F.ydFrx0_SLOTW f * k = a at h ⊢
  generalize s.fld F.ydFrx0_STBL f = m at h ⊢
  have hlook := slotLook_onward (f := f) m a k (awaitBanks f m a 1 s)
  rw [h] at hlook
  have hawait : awaitBanks f m a 1 s = s := (awaitBanks_onward m a 1 s).eq_of_back hlook
  have hawait' : awaitBanks f m a 1 (s.setQueue p c q) = s.setQueue p c q :=
    awaitBanks_of_none fun b hb => waitsAt_of_awaitBanks_eq hawait b hb
  rw [hawait] at h
  rw [hawait']
  unfold slotLook at h ⊢
  rw [show (s.setQueue p c q).ownsLoft f m a 1 = s.ownsLoft f m a 1 from rfl]
  by_cases hown : (!s.ownsLoft f m a 1) = true
  · rw [if_pos hown] at h ⊢
    cases h
    rfl
  · rw [if_neg hown] at h ⊢
    have hstate := congrArg Prod.snd h
    rcases memRead_loft_cases m a s with ⟨⟨w, hw⟩, -⟩ | ⟨herr, -⟩
    · have hw' : readCode ((s.setQueue p c q).raw (loftPlace m a)) = .ok w := (congrArg readCode (setQueue_raw ..)).trans hw
      rw [memRead_ok hw] at h
      rw [memRead_ok hw']
      have hfound := congrArg Prod.fst h
      dsimp only at hfound ⊢
      rw [hfound]
    · rw [show (memRead (loftPlace m a) s).2 = s from hstate] at herr
      omega

theorem slotSteps_setQueue {n k0 k : Nat} {l : List Nat} (h : l.foldl (slotStep f n k0) (none, s) = (some k, s)) (p c : Nat) (q : List QEnt) :
    l.foldl (slotStep f n k0) (none, s.setQueue p c q) = (some k, s.setQueue p c q) := by
  induction l with
  | nil => cases h
  | cons i l ih =>
    rw [List.foldl_cons] at h ⊢
    have hrest := slotSteps_onward (f := f) n k0 l (slotStep f n k0 (none, s) i)
    rw [h] at hrest
    have hstep : (slotStep f n k0 (none, s) i).2 = s := (slotStep_onward n k0 i (none, s)).eq_of_back hrest
    obtain ⟨o, ho⟩ : ∃ o, slotStep f n k0 (none, s) i = (o, s) := ⟨_, Prod.ext rfl hstep⟩
    rw [ho] at h
    rw [slotStep_setQueue ho]
    cases o with
    | some k' =>
      rw [slotSteps_of_some] at h ⊢
      cases h
      rfl
    | none => exact ih h

/-- A search that changes nothing finds the same slot where the queues alone differ. -/
theorem freeSlot_setQueue {k : Nat} (h : freeSlot f s = (some k, s)) (p c : Nat) (q : List QEnt) :
    freeSlot f (s.setQueue p c q) = (some k, s.setQueue p c q) := by
  rw [freeSlot_def] at h ⊢
  exact slotSteps_setQueue h p c q

/-! What a search leaves of the yard. -/

theorem awaitBanks_yard (n a len : Nat) (s : State) : (awaitBanks f n a len s).yard = s.yard := by
  rw [awaitBanks_def]
  generalize List.range 16 = l
  induction l generalizing s with
  | nil => rfl
  | cons b l ih =>
    rw [List.foldl_cons, ih]
    split_ifs with h
    · simp only [waitsAt, Bool.and_eq_true, beq_iff_eq] at h
      obtain ⟨-, hyard, -⟩ := endDrain_drains h.2
      exact hyard
    · rfl

theorem freeSlot_yard (f : Nat) (s : State) : (freeSlot f s).2.yard = s.yard := by
  rw [freeSlot_def]
  generalize s.fld F.ydFrx0_NSLOT f = n
  suffices h : ∀ (l : List Nat) (r : Option Nat × State), (l.foldl (slotStep f n (Tab.get 0 s.yard.poolNext f)) r).2.yard = r.2.yard from h _ _
  intro l
  induction l with
  | nil => exact fun _ => rfl
  | cons i l ih =>
    intro r
    refine (ih _).trans ?_
    obtain ⟨o, u⟩ := r
    cases o with
    | some k => rfl
    | none =>
      rw [slotStep_none]
      dsimp only
      unfold slotLook
      split
      · exact awaitBanks_yard ..
      · exact (yard_of_line (memRead_line ..)).trans (awaitBanks_yard ..)

end Sys2Proof.Machine
end

section
/-! The words of a delivered frame in a pool's slot: their bytes, and what a write of them leaves (R147, R228, R385). -/

namespace Sys2Proof.Machine

variable {s : State}

/-! ### The bytes of a word (R385) -/

/-- A sum of bytes, each at its place. -/
def bytesSum (c : Nat → Nat) (n : Nat) : Nat := (List.range n).foldl (fun m k => m + c k * 2 ^ (8 * k)) 0

theorem bytesSum_succ (c : Nat → Nat) (n : Nat) : bytesSum c (n + 1) = bytesSum c n + c n * 2 ^ (8 * n) := by
  unfold bytesSum
  rw [List.range_succ, List.foldl_append, List.foldl_cons, List.foldl_nil]

theorem bytesSum_lt {c : Nat → Nat} (hc : ∀ k, c k < 256) (n : Nat) : bytesSum c n < 2 ^ (8 * n) := by
  induction n with
  | zero => exact Nat.one_pos
  | succ n ih =>
    rw [bytesSum_succ, Nat.mul_succ, Nat.pow_add]
    have := Nat.mul_le_mul_right (2 ^ (8 * n)) (Nat.le_sub_one_of_lt (hc n))
    omega

theorem byteOf_bytesSum {c : Nat → Nat} (hc : ∀ k, c k < 256) (n : Nat) {k : Nat} (hk : k < n) : byteOf (bytesSum c n) k = c k := by
  induction n with
  | zero => omega
  | succ n ih =>
    rw [bytesSum_succ, byteOf]
    rcases Nat.lt_or_ge k n with h | h
    · obtain ⟨d, rfl⟩ : ∃ d, n = k + 1 + d := ⟨n - (k + 1), by omega⟩
      have hdiv : (bytesSum c (k + 1 + d) + c (k + 1 + d) * 2 ^ (8 * (k + 1 + d))) / 2 ^ (8 * k) =
          bytesSum c (k + 1 + d) / 2 ^ (8 * k) + 256 * (c (k + 1 + d) * 2 ^ (8 * d)) := by
        rw [show c (k + 1 + d) * 2 ^ (8 * (k + 1 + d)) = 2 ^ (8 * k) * (256 * (c (k + 1 + d) * 2 ^ (8 * d))) by
          rw [show 8 * (k + 1 + d) = 8 * k + 8 + 8 * d by ring, Nat.pow_add, Nat.pow_add]; ring, Nat.add_mul_div_left _ _ (Nat.two_pow_pos _)]
      rw [hdiv, Nat.add_mul_mod_self_left]
      exact ih h
    · obtain rfl : k = n := by omega
      rw [Nat.add_mul_div_right _ _ (Nat.two_pow_pos _), Nat.div_eq_of_lt (bytesSum_lt hc k), Nat.zero_add, Nat.mod_eq_of_lt (hc k)]

theorem byteOf_lt (v k : Nat) : byteOf v k < 256 := Nat.mod_lt _ (by decide)

/-- A byte of a word, the first byte in bits 47:40. -/
theorem toNat_extractByte (w : Word) {j : Nat} (hj : j < 6) : (w.extractLsb' (40 - 8 * j) 8).toNat = byteOf w.toNat (5 - j) := by
  rw [BitVec.extractLsb'_toNat, Nat.shiftRight_eq_div_pow, byteOf, show 40 - 8 * j = 8 * (5 - j) by omega]

/-- A byte that a merge enables comes from the word written. -/
theorem byteOf_mergeBytes (old v : Word) (be : BitVec 8) {k : Nat} (hk : k < 6) (hbe : be.getLsbD k = true) :
    byteOf (mergeBytes old be (v.setWidth 64)).toNat k = byteOf v.toNat k := by
  have hc : ∀ k, (if be.getLsbD k then byteOf (v.setWidth 64).toNat k else byteOf old.toNat k) < 256 := fun k => by
    split <;> exact byteOf_lt ..
  have hlt := bytesSum_lt hc 6
  have hm : mergeBytes old be (v.setWidth 64) =
      wd (bytesSum (fun k => if be.getLsbD k then byteOf (v.setWidth 64).toNat k else byteOf old.toNat k) 6) := rfl
  rw [hm, wd_toNat_mod, Nat.mod_eq_of_lt hlt, byteOf_bytesSum hc 6 hk, if_pos hbe, BitVec.toNat_setWidth_of_le (by decide)]

/-- The bytes of a packed word are the string's. -/
theorem byteOf_packWords {bs : List Byte} {i j : Nat} (hi : i < (packWords bs).length) (hj : j < 6) :
    byteOf ((packWords bs).getD i 0).toNat (5 - j) = (bs.getD (6 * i + j) 0).toNat := by
  unfold packWords at hi ⊢
  rw [List.length_map, List.length_range] at hi
  rw [List.getD_eq_getElem?_getD, List.getElem?_map, List.getElem?_range hi, Option.map_some, Option.getD_some, wd_toNat_mod]
  have hb : ∀ k, (bs.getD (6 * i + k) 0).toNat < 256 := fun k => (bs.getD (6 * i + k) 0).isLt
  have h0 := hb 0
  have h1 := hb 1
  have h2 := hb 2
  have h3 := hb 3
  have h4 := hb 4
  have h5 := hb 5
  have hrange : List.range 6 = [0, 1, 2, 3, 4, 5] := rfl
  simp only [hrange, List.map_cons, List.map_nil, bytesNat, List.foldl_cons, List.foldl_nil, byteOf]
  interval_cases j <;> omega

theorem length_packWords (bs : List Byte) : (packWords bs).length = (bs.length + 5) / 6 := by
  unfold packWords
  rw [List.length_map, List.length_range]

/-! ### A word is written (R145, R147) -/

/-- A frame in whose buffer no lane is marked has no uncorrectable word. -/
theorem badWord_of_no_lanes {x : YFrame} (h : x.lanes = []) (i : Nat) : x.badWord i = false := by
  have hlane : ∀ l, (readCode (x.lane l)).bad = false := fun l => by
    unfold YFrame.lane
    rw [h]
    exact congrArg Rd.bad (readCode_sealW _)
  simp [YFrame.badWord, hlane]

theorem loftPlace_inMemory (n a : Nat) : inMemory (loftPlace n a) = true := rfl

theorem countCE_loft_raw (n a : Nat) (s : State) (b : SramWord) : (countCE (loftPlace n a) s).raw b = s.raw b := by
  have hcount : countCE (loftPlace n a) s =
      State.bump { s with boot := { s.boot with telCe := s.boot.telCe + 1 } } F.stMemerr_CE (Fin.ofNat 16 n) := rfl
  rw [hcount]
  refine (State.put_raw ..).trans ?_
  cases b <;> rfl

/-- What a write of one word of a delivered frame leaves, and what it stores. -/
structure WordWritten (a : SramWord) (bytes : List Byte) (i : Nat) (s : State) (r : Nat × State) : Prop where
  served : r.1 = 0
  yard : r.2.yard = s.yard
  other : ∀ b, b ≠ a → r.2.raw b = s.raw b
  bytes : ∃ y, readCode (r.2.raw a) = .ok y ∧ ∀ j < 6, 6 * i + j < bytes.length → y.extractLsb' (40 - 8 * j) 8 = bytes.getD (6 * i + j) 0

theorem memWrite_yard {a : SramWord} (ha : inMemory a = true) (w : Word) (s : State) : (memWrite a w s).yard = s.yard :=
  yard_of_line (memWrite_line ha w s)

/-- A word whose bytes are the frame's, stored at a place. -/
theorem wordWritten_of_memWrite {a : SramWord} (ha : inMemory a = true) {bytes : List Byte} {i : Nat} {y : Word} {s u : State}
    (hyard : u.yard = s.yard) (hraw : ∀ b, u.raw b = s.raw b)
    (hy : ∀ j < 6, 6 * i + j < bytes.length → byteOf y.toNat (5 - j) = (bytes.getD (6 * i + j) 0).toNat) :
    WordWritten a bytes i s (0, memWrite a y u) where
  served := rfl
  yard := (memWrite_yard ha y u).trans hyard
  other b hb := (raw_memWrite_ne ha hb y u).trans (hraw b)
  bytes := by
    refine ⟨y, ?_, fun j hj hlen => BitVec.eq_of_toNat_eq ?_⟩
    · rw [raw_memWrite_same ha, readCode_sealW]
    · rw [toNat_extractByte y hj, hy j hj hlen]

/-- The byte enables of a last word that the frame fills in part. -/
theorem partEnables {h j : Nat} (h1 : 1 ≤ h) (h6 : h < 6) (hj : j < h) :
    (BitVec.ofNat 8 (2 ^ 6 - 2 ^ (6 - h))).getLsbD (5 - j) = true ∧ beFull (BitVec.ofNat 8 (2 ^ 6 - 2 ^ (6 - h))) = false
      ∧ (BitVec.ofNat 8 (2 ^ 6 - 2 ^ (6 - h))).toNat % 64 ≠ 0 := by
  interval_cases h <;> interval_cases j <;> decide

theorem writeFrameWord_spec {n base i : Nat} {x : YFrame} {bytes : List Byte} (hlanes : x.lanes = []) (hi : i < (packWords bytes).length)
    (hgood : (readCode (s.raw (loftPlace n (base + 3 + i)))).bad = false) :
    WordWritten (loftPlace n (base + 3 + i)) bytes i s (writeFrameWord n base x bytes i s) := by
  have hlen : 6 * i < bytes.length := by
    rw [length_packWords] at hi
    omega
  unfold writeFrameWord
  rw [badWord_of_no_lanes hlanes]
  simp only [Bool.false_eq_true, if_false]
  split_ifs with hfull
  · exact wordWritten_of_memWrite (loftPlace_inMemory ..) rfl (fun _ => rfl) fun j hj _ => byteOf_packWords hi hj
  · have hpart := fun j hj => partEnables (h := bytes.length - 6 * i) (j := j) (by omega) (by omega) hj
    obtain ⟨-, hnot, hsome⟩ := hpart 0 (by omega)
    have hy : ∀ old : Word, ∀ j < 6, 6 * i + j < bytes.length →
        byteOf (mergeBytes old (BitVec.ofNat 8 (2 ^ 6 - 2 ^ (6 - (bytes.length - 6 * i)))) (((packWords bytes).getD i 0).setWidth 64)).toNat
          (5 - j) = (bytes.getD (6 * i + j) 0).toNat := fun old j hj hjl => by
      rw [byteOf_mergeBytes _ _ _ (by omega) (hpart j (by omega)).1, byteOf_packWords hi hj]
    unfold memMerge
    rw [if_neg (ne_true_of_eq_false hnot), if_neg hsome]
    unfold memUpdate
    cases hr : readCode (s.raw (loftPlace n (base + 3 + i))) with
    | ok w =>
      rw [memRead_ok hr]
      exact wordWritten_of_memWrite (loftPlace_inMemory ..) rfl (fun _ => rfl) (hy w)
    | ce w =>
      rw [memRead_ce hr]
      exact wordWritten_of_memWrite (loftPlace_inMemory ..) (yard_of_line (countCE_line ..)) (countCE_loft_raw _ _ s) (hy w)
    | ue w y =>
      rw [hr] at hgood
      cases hgood

/-- Places of one stable's loft are apart where their words are. -/
theorem loftPlace_ne {n m a b : Nat} (hn : n < 16) (hm : m < 16) (ha : a < 65536) (hb : b < 65536) (h : m ≠ n ∨ b ≠ a) :
    loftPlace m b ≠ loftPlace n a := fun heq => by
  unfold loftPlace at heq
  injection heq with h1 h2
  have h1' := congrArg Fin.val h1
  have h2' := congrArg Fin.val h2
  simp only [Fin.val_ofNat, Nat.mod_eq_of_lt hn, Nat.mod_eq_of_lt hm, Nat.mod_eq_of_lt ha, Nat.mod_eq_of_lt hb] at h1' h2'
  omega

/-- The words of a frame are written one after the other. -/
def writeWords (n base : Nat) (x : YFrame) (bytes : List Byte) (k : Nat) (s : State) : Nat × State :=
  (List.range k).foldl (fun r i => (max r.1 (writeFrameWord n base x bytes i r.2).1, (writeFrameWord n base x bytes i r.2).2)) (0, s)

theorem writeWords_succ (n base : Nat) (x : YFrame) (bytes : List Byte) (k : Nat) (s : State) : writeWords n base x bytes (k + 1) s =
    (max (writeWords n base x bytes k s).1 (writeFrameWord n base x bytes k (writeWords n base x bytes k s).2).1,
      (writeFrameWord n base x bytes k (writeWords n base x bytes k s).2).2) := by
  unfold writeWords
  rw [List.range_succ, List.foldl_append, List.foldl_cons, List.foldl_nil]

theorem writeWords_spec {n base : Nat} {x : YFrame} {bytes : List Byte} (hn : n < 16) (hlanes : x.lanes = [])
    (hfit : base + 3 + (packWords bytes).length ≤ 65536)
    (hgood : ∀ i < (packWords bytes).length, (readCode (s.raw (loftPlace n (base + 3 + i)))).bad = false) :
    ∀ k ≤ (packWords bytes).length, (writeWords n base x bytes k s).1 = 0 ∧ (writeWords n base x bytes k s).2.yard = s.yard
      ∧ (∀ b, (∀ i < k, b ≠ loftPlace n (base + 3 + i)) → (writeWords n base x bytes k s).2.raw b = s.raw b)
      ∧ ∀ i < k, ∃ y, readCode ((writeWords n base x bytes k s).2.raw (loftPlace n (base + 3 + i))) = .ok y
          ∧ ∀ j < 6, 6 * i + j < bytes.length → y.extractLsb' (40 - 8 * j) 8 = bytes.getD (6 * i + j) 0
  | 0, _ => ⟨rfl, rfl, fun _ _ => rfl, fun _ hi => absurd hi (Nat.not_lt_zero _)⟩
  | k + 1, hk => by
    obtain ⟨hzero, hyard, hother, hbytes⟩ := writeWords_spec hn hlanes hfit hgood k (by omega)
    rw [writeWords_succ]
    generalize writeWords n base x bytes k s = r at hzero hyard hother hbytes
    have hapart : ∀ i < k, loftPlace n (base + 3 + i) ≠ loftPlace n (base + 3 + k) := fun i hi =>
      loftPlace_ne hn hn (by omega) (by omega) (.inr (by omega))
    have hraw : r.2.raw (loftPlace n (base + 3 + k)) = s.raw (loftPlace n (base + 3 + k)) := hother _ fun i hi => (hapart i hi).symm
    have hw := writeFrameWord_spec (s := r.2) (base := base) hlanes (Nat.lt_of_succ_le hk) (by rw [hraw]; exact hgood k (by omega))
    refine ⟨by rw [hzero, hw.served]; rfl, hw.yard.trans hyard, fun b hb => ?_, fun i hi => ?_⟩
    · exact (hw.other b (hb k (Nat.lt_succ_self k))).trans (hother b fun i hi => hb i (by omega))
    · rcases Nat.lt_succ_iff_lt_or_eq.1 hi with hlt | rfl
      · obtain ⟨y, hy, hb⟩ := hbytes i hlt
        exact ⟨y, by rw [hw.other _ (hapart i hlt)]; exact hy, hb⟩
      · exact hw.bytes

end Sys2Proof.Machine
end

section
/-! Frames are delivered to the pools of functions (R222, R228). -/

namespace Sys2Proof.Machine

variable {s t u : State}

/-! ### A slot is filled (R228) -/

/-- A function's words that lie in its banks, none of which is being handed over, are waited for nowhere. -/
theorem awaitBanks_of_owned {f n a len : Nat} (hlen : 1 ≤ len) (h : s.ownsLoft f n a len = true) : awaitBanks f n a len s = s := by
  simp only [State.ownsLoft, Bool.and_eq_true, List.all_eq_true, List.mem_range, beq_iff_eq, decide_eq_true_eq] at h
  obtain ⟨-, hown⟩ := h
  refine awaitBanks_of_none fun b _ => ?_
  by_contra hw
  simp only [Bool.not_eq_false, waitsAt, Bool.and_eq_true, beq_iff_eq, decide_eq_true_eq] at hw
  obtain ⟨⟨hlo, hhi⟩, hx⟩ := hw
  obtain ⟨⟨-, hzero⟩, -⟩ := hown (max a (4096 * b) - a) (by omega)
  rw [show (a + (max a (4096 * b) - a)) / 4096 = b by omega, hx] at hzero
  omega

theorem ownsLoft_first {f n a len : Nat} (hlen : 1 ≤ len) (h : s.ownsLoft f n a len = true) : s.ownsLoft f n a 1 = true := by
  simp only [State.ownsLoft, Bool.and_eq_true, List.all_eq_true, List.mem_range, decide_eq_true_eq] at h ⊢
  exact ⟨by omega, fun k hk => h.2 k (by omega)⟩

theorem loft_le_of_owned {f n a len : Nat} (h : s.ownsLoft f n a len = true) : a + len ≤ 65536 := by
  simp only [State.ownsLoft, Bool.and_eq_true, decide_eq_true_eq] at h
  exact h.1

/-- The header of a slot is written. -/
def writeHeader (n base : Nat) (ws : List Word) (s : State) : State :=
  (List.range 3).foldl (fun s i => memWrite (loftPlace n (base + i)) (ws.getD i 0) s) s

theorem writeHeader_yard (n base : Nat) (ws : List Word) (s : State) : (writeHeader n base ws s).yard = s.yard :=
  foldl_part (p := State.yard) (f := fun s i => memWrite (loftPlace n (base + i)) (ws.getD i 0) s)
    (fun s _ => memWrite_yard (loftPlace_inMemory ..) _ s) _ s

theorem writeHeader_raw {n base : Nat} (ws : List Word) (s : State) {b : SramWord} (h : ∀ i < 3, b ≠ loftPlace n (base + i)) :
    (writeHeader n base ws s).raw b = s.raw b := by
  have h0 := h 0 (by omega)
  have h1 := h 1 (by omega)
  have h2 := h 2 (by omega)
  unfold writeHeader
  rw [show List.range 3 = [0, 1, 2] from rfl]
  simp only [List.foldl_cons, List.foldl_nil]
  rw [raw_memWrite_ne (loftPlace_inMemory ..) h2, raw_memWrite_ne (loftPlace_inMemory ..) h1, raw_memWrite_ne (loftPlace_inMemory ..) h0]

/-- A refused push frees the slot again. -/
def pushNoted (f n base : Nat) (x : YFrame) (bytes : List Byte) (r : Nat × State) : State :=
  if r.1 = 0 then r.2 else memWrite (loftPlace n base) ((slotHeader x bytes 0).getD 0 0) (r.2.bump F.ydFrx2_TASKREF f)

/-- The task of a delivered frame is pushed to the engine that is chosen. -/
def pushDelivered (f n base : Nat) (x : YFrame) (bytes : List Byte) (s : State) : Option Nat → State
  | none => s
  | some e => pushNoted f n base x bytes (pushTo e (s.deliverTask f x bytes.length (base + 3)) s)

theorem raw_loft_of_loft (h : t.loft = s.loft) (m : Fin 16) (b : Fin 65536) : t.raw (.loft m b) = s.raw (.loft m b) :=
  congrArg (fun l : Mem => Tab.get 0 l (65536 * m.val + b.val)) h

theorem raw_of_loft (h : t.loft = s.loft) (n a : Nat) : t.raw (loftPlace n a) = s.raw (loftPlace n a) := by
  obtain ⟨m, b, hp⟩ : ∃ m b, loftPlace n a = .loft m b := ⟨_, _, rfl⟩
  rw [hp]
  exact raw_loft_of_loft h m b

theorem pushNoted_spec (f n base : Nat) (x : YFrame) (bytes : List Byte) {r : Nat × State} (hyard : r.2.yard = s.yard) (hloft : r.2.loft = s.loft) :
    (pushNoted f n base x bytes r).yard = s.yard ∧ ∀ m a, loftPlace m a ≠ loftPlace n base →
      (pushNoted f n base x bytes r).raw (loftPlace m a) = s.raw (loftPlace m a) := by
  unfold pushNoted
  split_ifs
  · exact ⟨hyard, fun m a _ => raw_of_loft hloft m a⟩
  · refine ⟨(memWrite_yard (loftPlace_inMemory ..) _ _).trans hyard, fun m a hne => ?_⟩
    rw [raw_memWrite_ne (loftPlace_inMemory ..) hne, State.bump, State.put_raw]
    exact raw_of_loft hloft m a

theorem pushDelivered_spec (f n base : Nat) (x : YFrame) (bytes : List Byte) (s : State) (o : Option Nat) :
    (pushDelivered f n base x bytes s o).yard = s.yard ∧ ∀ m a, loftPlace m a ≠ loftPlace n base →
      (pushDelivered f n base x bytes s o).raw (loftPlace m a) = s.raw (loftPlace m a) := by
  cases o with
  | none => exact ⟨rfl, fun _ _ _ => rfl⟩
  | some e => exact pushNoted_spec f n base x bytes (pushTo_drains e _ s).yard (pushTo_fnKeeps e _ s).loft

theorem pushDelivered_pair (f n base d : Nat) (x : YFrame) (bytes : List Byte) (s : State) (o : Option Nat) :
    (match o with
      | none => (d, s)
      | some e =>
        let r := pushTo e (s.deliverTask f x bytes.length (base + 3)) s
        if r.1 = 0 then (d, r.2)
        else (d, memWrite (loftPlace n base) ((slotHeader x bytes 0).getD 0 0) (r.2.bump F.ydFrx2_TASKREF f))) =
      (d, pushDelivered f n base x bytes s o) := by
  cases o with
  | none => rfl
  | some e => exact (apply_ite (Prod.mk d) ..).symm

/-- The pool's pointer moves past the slot that is taken. -/
def slotTaken (f k : Nat) (s : State) : State :=
  { s with yard := { s.yard with poolNext := Tab.set 0 s.yard.poolNext f ((k + 1) % s.fld F.ydFrx0_NSLOT f) } }

/-- A slot is filled: the frame's words, the header and the task. -/
def slotFilled (f n base k : Nat) (x : YFrame) (bytes : List Byte) (s : State) : Nat × State :=
  let r := writeWords n base x bytes (packWords bytes).length (slotTaken f k s)
  let u := writeHeader n base (slotHeader x bytes 1) r.2
  (r.1, pushDelivered f n base x bytes u (u.leastBusy (enginesOf n)))

theorem slotTaken_raw (f k : Nat) (s : State) (b : SramWord) : (slotTaken f k s).raw b = s.raw b := by
  cases b <;> rfl

/-- A slot that is filled holds the frame's bytes past its header, and no other word of the lofts has changed. -/
theorem slotFilled_spec {f n base k : Nat} {x : YFrame} {bytes : List Byte} (hn : n < 16) (hlanes : x.lanes = [])
    (hfit : base + 3 + (packWords bytes).length ≤ 65536)
    (hgood : ∀ i < (packWords bytes).length, (readCode (s.raw (loftPlace n (base + 3 + i)))).bad = false) :
    (slotFilled f n base k x bytes s).1 = 0 ∧ (slotFilled f n base k x bytes s).2.yard = (slotTaken f k s).yard
      ∧ (∀ i < (packWords bytes).length, ∃ y, readCode ((slotFilled f n base k x bytes s).2.raw (loftPlace n (base + 3 + i))) = .ok y
          ∧ ∀ j < 6, 6 * i + j < bytes.length → y.extractLsb' (40 - 8 * j) 8 = bytes.getD (6 * i + j) 0)
      ∧ ∀ m a, m < 16 → a < 65536 → m ≠ n ∨ a < base ∨ base + 3 + (packWords bytes).length ≤ a →
          (slotFilled f n base k x bytes s).2.raw (loftPlace m a) = s.raw (loftPlace m a) := by
  obtain ⟨hzero, hyard, hother, hbytes⟩ := writeWords_spec (s := slotTaken f k s) (bytes := bytes) hn hlanes hfit
    (fun i hi => by rw [slotTaken_raw]; exact hgood i hi) _ le_rfl
  unfold slotFilled
  dsimp only
  generalize writeWords n base x bytes (packWords bytes).length (slotTaken f k s) = r at hzero hyard hother hbytes
  have hhead := fun (b : SramWord) hb => writeHeader_raw (n := n) (base := base) (slotHeader x bytes 1) r.2 (b := b) hb
  have hheadYard := writeHeader_yard n base (slotHeader x bytes 1) r.2
  generalize writeHeader n base (slotHeader x bytes 1) r.2 = u at hhead hheadYard
  obtain ⟨hpushYard, hpush⟩ := pushDelivered_spec f n base x bytes u (u.leastBusy (enginesOf n))
  refine ⟨hzero, (hpushYard.trans hheadYard).trans hyard, fun i hi => ?_, fun m a hm ha hout => ?_⟩
  · have hapart : ∀ k < 3, loftPlace n (base + 3 + i) ≠ loftPlace n (base + k) := fun k hk =>
      loftPlace_ne hn hn (by omega) (by omega) (.inr (by omega))
    rw [hpush _ _ (hapart 0 (by omega)), hhead _ hapart]
    exact hbytes i hi
  · have hapart : ∀ k < 3 + (packWords bytes).length, loftPlace m a ≠ loftPlace n (base + k) := fun k hk =>
      loftPlace_ne hn hm (by omega) ha (hout.imp_right fun h => by omega)
    rw [hpush _ _ (hapart 0 (by omega)), hhead _ fun i hi => hapart i (by omega), hother _ fun i hi => ?_, slotTaken_raw]
    rw [Nat.add_assoc]
    exact hapart (3 + i) (by omega)

/-! ### What a delivery leaves of the frames and queues -/

/-- The frames and the queues stand as they did. -/
structure FramesKeep (s t : State) : Prop where
  frames : t.yard.frames = s.yard.frames
  queues : t.yard.queues = s.yard.queues

namespace FramesKeep

theorem refl (s : State) : FramesKeep s s := ⟨rfl, rfl⟩
theorem trans (h : FramesKeep s t) (k : FramesKeep t u) : FramesKeep s u := ⟨k.frames.trans h.frames, k.queues.trans h.queues⟩
theorem of_yard (h : t.yard = s.yard) : FramesKeep s t := ⟨by rw [h], by rw [h]⟩

theorem frame (h : FramesKeep s t) (id : Nat) : t.frame id = s.frame id := congrArg (Tab.get none · id) h.frames
theorem queue (h : FramesKeep s t) (p c : Nat) : t.queue p c = s.queue p c := congrArg (Tab.get [] · (8 * p + c)) h.queues

end FramesKeep

theorem writeFrameWord_yard (n base i : Nat) (x : YFrame) (bytes : List Byte) (s : State) : (writeFrameWord n base x bytes i s).2.yard = s.yard := by
  unfold writeFrameWord
  dsimp only
  split_ifs
  · exact (setRaw_steady (loftPlace_inMemory ..) _ s).yard
  · exact memWrite_yard (loftPlace_inMemory ..) _ s
  · unfold memMerge
    split_ifs
    · exact memWrite_yard (loftPlace_inMemory ..) _ s
    · rfl
    · exact (memUpdate_steady (loftPlace_inMemory ..) _ s).yard

theorem writeWords_yard (n base : Nat) (x : YFrame) (bytes : List Byte) (k : Nat) (s : State) : (writeWords n base x bytes k s).2.yard = s.yard := by
  induction k with
  | zero => rfl
  | succ k ih =>
    rw [writeWords_succ]
    exact (writeFrameWord_yard ..).trans ih

/-- A delivery into slot `k` of a loft pool of slots of `size` words. -/
def deliverSlot (f n size k : Nat) (x : YFrame) (bytes : List Byte) (s : State) : Nat × State :=
  let base := s.fld F.ydFrx0_BASE f + size * k
  let words := (packWords bytes).length
  let u := awaitBanks f n base (3 + words) s
  if !s.ownsLoft f n base 1 then (9, countDeny n (s.bump F.ydFrx2_DENY f))
  else if 3 + words > size then (0, s.bump F.ydFrx2_TOOBIG f)
  else if !(u.ownsLoft f n base (3 + words) && (List.range (3 + words)).all fun i => !u.inpassWord n (base + i)) then
    (9, countDeny n (u.bump F.ydFrx2_DENY f))
  else slotFilled f n base k x bytes u

theorem deliverLoft_eq {f : Nat} {x : YFrame} {bytes : List Byte} {o : Option Nat} {v : State} (h : freeSlot f s = (o, v)) :
    deliverLoft f x bytes s = match o with
      | none => (0, v.bump F.ydFrx2_NOSLOT f)
      | some k => deliverSlot f (s.fld F.ydFrx0_STBL f) (64 * s.fld F.ydFrx0_SLOTW f) k x bytes v := by
  unfold deliverLoft
  simp only [h]
  cases o with
  | none => rfl
  | some k =>
    unfold deliverSlot
    dsimp only
    split_ifs
    · rfl
    · rfl
    · rfl
    · exact pushDelivered_pair ..

theorem slotFilled_frames (f n base k : Nat) (x : YFrame) (bytes : List Byte) (s : State) : FramesKeep s (slotFilled f n base k x bytes s).2 := by
  have htaken : FramesKeep s (slotTaken f k s) := ⟨rfl, rfl⟩
  refine htaken.trans (.of_yard ?_)
  unfold slotFilled
  dsimp only
  exact (pushDelivered_spec ..).1.trans ((writeHeader_yard ..).trans (writeWords_yard ..))

theorem deliverSlot_frames (f n size k : Nat) (x : YFrame) (bytes : List Byte) (s : State) :
    FramesKeep s (deliverSlot f n size k x bytes s).2 := by
  unfold deliverSlot
  extract_lets base words u
  have hu : FramesKeep s u := .of_yard (awaitBanks_yard ..)
  split_ifs
  · exact .of_yard rfl
  · exact .of_yard rfl
  · exact hu.trans (.of_yard rfl)
  · exact hu.trans (slotFilled_frames ..)

theorem deliverLoft_frames (f : Nat) (x : YFrame) (bytes : List Byte) (s : State) : FramesKeep s (deliverLoft f x bytes s).2 := by
  have hyard := freeSlot_yard f s
  rcases h : freeSlot f s with ⟨o, v⟩
  rw [h] at hyard
  rw [deliverLoft_eq h]
  cases o with
  | none => exact .of_yard hyard
  | some k => exact FramesKeep.trans (.of_yard hyard) (deliverSlot_frames ..)

theorem deliverHost_frames (f : Nat) (x : YFrame) (bytes : List Byte) (s : State) : FramesKeep s (deliverHost f x bytes s) := by
  have hmsg : ∀ v u, FramesKeep u (ringMessage v u) := fun v u => ⟨(RingKeeps.ringMessage v u).buffer.frames, (RingKeeps.ringMessage v u).buffer.queues⟩
  unfold deliverHost
  dsimp only
  split_ifs
  · exact .of_yard rfl
  · exact .of_yard rfl
  · refine FramesKeep.trans ?_ (hmsg ..)
    exact ⟨rfl, rfl⟩

theorem deliver_frames (f : Nat) (mark : Bool) (x : YFrame) (s : State) : FramesKeep s (deliver f mark x s).2 := by
  unfold deliver
  split_ifs
  · exact .refl s
  · exact .of_yard rfl
  · dsimp only
    split
    · exact deliverLoft_frames ..
    · exact deliverHost_frames ..
    · exact .of_yard rfl
  · dsimp only
    split
    · exact deliverLoft_frames ..
    · exact deliverHost_frames ..
    · exact .of_yard rfl

theorem readCells_frames (id : Nat) (x : YFrame) (s : State) : FramesKeep s (readCells id x s) := .of_yard (yard_of_line (readCells_line ..))

end Sys2Proof.Machine
end

section
/-! Obligation O38: frames are forwarded and delivered (R221, R222, R228, R230). -/

namespace Sys2Proof.Machine

variable {s t u : State}

theorem readCells_steady (id : Nat) (x : YFrame) (s : State) : Steady s (readCells id x s) :=
  (Steady.refl s).foldl (fun s _ => memRead_steady _ s) _

theorem readCells_loft (id : Nat) (x : YFrame) (s : State) : (readCells id x s).loft = s.loft := congrArg (·.1) (readCells_mems id x s)

theorem readCells_of_no_lanes {x : YFrame} (h : x.lanes = []) (id : Nat) (s : State) : readCells id x s = s := by
  rw [readCells, h, List.foldl_nil]

/-! ### A frame is taken from its queue (R222, R228) -/

/-- What the state of its function or its own words make of a frame's delivery. -/
def unserved (id f : Nat) (x : YFrame) (s : State) : State :=
  if s.fnState f = 3 then (if x.src.described then s.bump F.fnCnt_ABANDON f else s).setFrame id (some { x with disp := some 6 })
  else if s.fnState f = 0 || s.fnState f = 1 then s.setFrame id (some { x with disp := some 9 })
  else if x.lanes.any fun e => (readCode e.2).bad then s.setFrame id (some { x with disp := some 8 }) else s

/-- The delivery itself. -/
def handing (id f : Nat) (x : YFrame) (s : State) : Nat × State := deliver f false x (readCells id x (unserved id f x s))

/-- A frame that has left its queue is delivered, and its copy is done. -/
def endDelivery (id f : Nat) (x : YFrame) (s : State) : State :=
  copyDone id .sent (if (handing id f x s).1 ≠ 0 && x.awaits then noteDisp id (handing id f x s).1 (handing id f x s).2 else (handing id f x s).2)

/-- The queue of a port whose next frame is the one that is delivered to `f`. -/
def heldAt (id f : Nat) (s : State) (p : Nat) : Option (Nat × Nat × QEnt) :=
  match s.nextOf p with
  | some (c, q) => if q.id = id && q.f == some f then some (p, c, q) else none
  | none => none

theorem heldAt_of_next {id f p c : Nat} (h : s.nextOf p = some (c, { id := id, f := some f })) :
    heldAt id f s p = some (p, c, { id := id, f := some f }) := by
  simp [heldAt, h]

theorem heldAt_of_others {id f p : Nat} (h : ∀ c y, s.nextOf p = some (c, y) → y.id ≠ id) : heldAt id f s p = none := by
  unfold heldAt
  split
  · next c y hn => simp [h c y hn]
  · rfl

theorem findSome_heldAt {id f p c : Nat} (hlo : 12 ≤ p) (hhi : p ≤ 16) (hn : s.nextOf p = some (c, { id := id, f := some f }))
    (hothers : ∀ p', 12 ≤ p' → p' < p → ∀ c' y, s.nextOf p' = some (c', y) → y.id ≠ id) :
    [12, 13, 14, 15, 16].findSome? (heldAt id f s) = some (p, c, { id := id, f := some f }) := by
  have hnone := fun p' h1 h2 => heldAt_of_others (f := f) (hothers p' h1 h2)
  have hsome := heldAt_of_next hn
  interval_cases p <;> simp [hnone, hsome]

theorem frameDeliver_eq {id f p c : Nat} {x : YFrame} (hlo : 12 ≤ p) (hhi : p ≤ 16) (hfit : ∀ p', 12 ≤ p' → p' ≤ 16 → dropUnfit p' s = s)
    (hn : s.nextOf p = some (c, { id := id, f := some f }))
    (hothers : ∀ p', 12 ≤ p' → p' < p → ∀ c' y, s.nextOf p' = some (c', y) → y.id ≠ id) (hx : s.frame id = some x)
    (hwhole : x.arriving = false) : frameDeliver id f s = endDelivery id f x (s.setQueue p c ((s.queue p c).drop 1)) := by
  have hdrop : [12, 13, 14, 15, 16].foldl (fun s p => dropUnfit p s) s = s := by
    simp only [List.foldl_cons, List.foldl_nil, hfit 12, hfit 13, hfit 14, hfit 15, hfit 16, Nat.reduceLeDiff, Nat.le_refl]
  have hfind := findSome_heldAt hlo hhi hn hothers
  unfold frameDeliver
  rw [hdrop]
  dsimp only
  split
  · next hnone => cases hnone.symm.trans hfind
  · next p' c' q hsome =>
    cases Option.some.inj (hsome.symm.trans hfind)
    simp only [hx]
    exact if_neg (ne_true_of_eq_false hwhole)

theorem unserved_queue (id f : Nat) (x : YFrame) (s : State) : (unserved id f x s).yard.queues = s.yard.queues := by
  unfold unserved
  split_ifs <;> rfl

/-- The copy of a frame of which others are left is done, and its queue stands. -/
theorem endDelivery_eq {id f : Nat} {x y : YFrame} (hy : (unserved id f x s).frame id = some y) (hleft : 2 ≤ y.left)
    (hdisp : y.disp.isSome = true ∨ (handing id f x s).1 = 0) :
    endDelivery id f x s = (handing id f x s).2.setFrame id (some { y with left := y.left - 1, sent := true }) := by
  have hframe : (handing id f x s).2.frame id = some y :=
    ((FramesKeep.trans (readCells_frames id x _) (deliver_frames f false x _)).frame id).trans hy
  unfold endDelivery
  have hnote : (if (handing id f x s).1 ≠ 0 && x.awaits then noteDisp id (handing id f x s).1 (handing id f x s).2 else (handing id f x s).2) =
      (handing id f x s).2 := by
    rcases hdisp with h | h
    · simp [noteDisp, hframe, h]
    · simp [h]
  rw [hnote]
  exact copyDone_of_shared hframe hleft

theorem handing_queue (id f : Nat) (x : YFrame) (s : State) (p c : Nat) : (handing id f x s).2.queue p c = s.queue p c :=
  ((FramesKeep.trans (readCells_frames id x _) (deliver_frames f false x _)).queue p c).trans
    (congrArg (Tab.get [] · (8 * p + c)) (unserved_queue id f x s))

/-! ### The functions' pools -/

theorem deliver_of_loft {f : Nat} {x : YFrame} (hct : x.ctBad = false) (hf : s.fnState f = 2) (hkind : s.poolKind f = 1) (hlanes : x.lanes = []) :
    deliver f false x s = deliverLoft f x x.bytes s := by
  simp [deliver, hct, hf, hkind, YFrame.read, hlanes]

theorem deliver_of_no_pool {f : Nat} {x : YFrame} (hct : x.ctBad = false) (hf : s.fnState f = 2) (hkind : s.poolKind f = 0) :
    deliver f false x s = (0, s.bump F.ydFrx2_NOSLOT f) := by
  simp [deliver, hct, hf, hkind]

theorem deliver_of_not_running {f : Nat} {x : YFrame} (hct : x.ctBad = false) (hf : s.fnState f ≠ 2) :
    deliver f false x s = (0, s.bump F.ydFrx2_TASKREF f) := by
  simp [deliver, hct, hf]

/-- A frame for a function's free slot fills it. -/
theorem deliverLoft_filled {f k : Nat} {x : YFrame} (hfree : freeSlot f s = (some k, s))
    (hfit : 3 + (packWords x.bytes).length ≤ 64 * s.fld F.ydFrx0_SLOTW f)
    (hown : s.ownsLoft f (s.fld F.ydFrx0_STBL f) (s.fld F.ydFrx0_BASE f + 64 * s.fld F.ydFrx0_SLOTW f * k) (3 + (packWords x.bytes).length) = true)
    (hpass : ∀ i < 3 + (packWords x.bytes).length,
      s.inpassWord (s.fld F.ydFrx0_STBL f) (s.fld F.ydFrx0_BASE f + 64 * s.fld F.ydFrx0_SLOTW f * k + i) = false) :
    deliverLoft f x x.bytes s =
      slotFilled f (s.fld F.ydFrx0_STBL f) (s.fld F.ydFrx0_BASE f + 64 * s.fld F.ydFrx0_SLOTW f * k) k x x.bytes s := by
  rw [deliverLoft_eq hfree]
  have hclear : ((List.range (3 + (packWords x.bytes).length)).all fun i =>
      !s.inpassWord (s.fld F.ydFrx0_STBL f) (s.fld F.ydFrx0_BASE f + 64 * s.fld F.ydFrx0_SLOTW f * k + i)) = true := by
    rw [List.all_eq_true]
    intro i hi
    rw [hpass i (List.mem_range.1 hi)]
    rfl
  have hfirst := ownsLoft_first (by omega) hown
  have hawait := awaitBanks_of_owned (by omega) hown
  unfold deliverSlot
  dsimp only
  rw [hawait, hfirst, hown, hclear, if_neg (by decide), if_neg (by omega), if_neg (by decide)]

theorem fnState_zero (s : State) : s.fnState 0 = 2 := rfl

/-- A frame for a running function, without a lane that is uncorrectable, is served. -/
theorem unserved_of_running {f : Nat} {x : YFrame} (id : Nat) (hlanes : x.lanes = []) (hf : s.fnState f = 2) : unserved id f x s = s := by
  simp [unserved, hf, hlanes]

/-- The frame of a function in reset ends ABANDONED; one that a descriptor submitted is counted. -/
theorem unserved_of_reset {f : Nat} {x : YFrame} (id : Nat) (hf : s.fnState f = 3) :
    (unserved id f x s).frame id = some { x with disp := some 6 }
      ∧ (unserved id f x s).fld F.fnCnt_ABANDON f =
          (if x.src.described then min (s.fld F.fnCnt_ABANDON f + 1) (2 ^ F.fnCnt_ABANDON.width - 1) else s.fld F.fnCnt_ABANDON f)
      ∧ (unserved id f x s).loft = s.loft ∧ (unserved id f x s).eng = s.eng := by
  rw [unserved, if_pos hf]
  split_ifs
  · exact ⟨frame_setFrame .., State.bump_fld .., rfl, rfl⟩
  · exact ⟨frame_setFrame .., rfl, rfl, rfl⟩

/-- What stands through the delivery of a frame to a function in reset. -/
structure AbandonKeeps (f : Nat) (s t : State) : Prop where
  fld : t.fld F.fnCnt_ABANDON f = s.fld F.fnCnt_ABANDON f
  loft : t.loft = s.loft
  eng : t.eng = s.eng

theorem handing_of_reset {f : Nat} {x : YFrame} (id : Nat) (hct : x.ctBad = false) (hpos : f ≠ 0) (hf : s.fnState f = 3) :
    AbandonKeeps f (unserved id f x s) (handing id f x s).2 := by
  have hfn : (unserved id f x s).fnState f = 3 := by
    rw [unserved, if_pos hf]
    rw [State.fnState, if_neg hpos] at hf ⊢
    split_ifs
    · exact (State.put_fld_ne _ _ _ _ _ _ _ _ (by decide)).trans hf
    · exact hf
  unfold handing
  generalize unserved id f x s = u at hfn ⊢
  have hsteady := readCells_steady id x u
  obtain ⟨-, heng, -, -, -⟩ := readCells_keeps id x u
  have hloft := readCells_loft id x u
  generalize readCells id x u = r at hsteady heng hloft
  have hr : r.fnState f ≠ 2 := by
    rw [State.fnState, if_neg hpos] at hfn ⊢
    rw [hsteady.fld _ (by decide), hfn]
    decide
  rw [deliver_of_not_running hct hr]
  exact ⟨(State.put_fld_ne _ _ _ _ _ _ _ _ (by decide)).trans (hsteady.fld _ (by decide) ..), hloft, heng⟩

/-! ### The obligation -/

theorem framesAreDelivered : Stated.FramesAreDelivered := by
  intro s id f p c x hclk happ hlo hhi hfit hn hothers hx hwhole hct hleft
  have heq := frameDeliver_eq hlo hhi hfit hn hothers hx hwhole
  have hqueue : (s.setQueue p c ((s.queue p c).drop 1)).queue p c = (s.queue p c).drop 1 := queue_setQueue_same ..
  have hxu : (s.setQueue p c ((s.queue p c).drop 1)).frame id = some x := hx
  have hstate : (s.setQueue p c ((s.queue p c).drop 1)).fnState f = s.fnState f := rfl
  refine ⟨fun hrun hbad => ?_, fun hreset => ?_, fun hrun hkind hlanes => ?_, fun k hrun hkind hlanes hfree => ?_⟩
  · refine does_of_applied rfl hclk happ ?_
    rw [heq]
    generalize s.setQueue p c ((s.queue p c).drop 1) = u at *
    have hun : unserved id f x u = u.setFrame id (some { x with disp := some 8 }) := by
      simp [unserved, hstate, hrun, hbad]
    have hframe : (unserved id f x u).frame id = some { x with disp := some 8 } := by rw [hun, frame_setFrame]
    rw [endDelivery_eq hframe hleft (.inl rfl)]
    simp only [State.notify_yard, State.queue, State.frame]
    exact ⟨(handing_queue id f x u p c).trans hqueue, by rw [State.setFrame, Tab.get_set_same]; rfl⟩
  · refine does_of_applied rfl hclk happ ?_
    rw [heq]
    have hcnt : (s.setQueue p c ((s.queue p c).drop 1)).fld F.fnCnt_ABANDON f = s.fld F.fnCnt_ABANDON f := rfl
    have hloftu : (s.setQueue p c ((s.queue p c).drop 1)).loft = s.loft := rfl
    have hengu : (s.setQueue p c ((s.queue p c).drop 1)).eng = s.eng := rfl
    generalize s.setQueue p c ((s.queue p c).drop 1) = u at *
    have hst := hstate.trans hreset
    obtain ⟨hun, hcount, hloft, heng⟩ := unserved_of_reset id (x := x) hst
    have hhand := handing_of_reset id (x := x) hct (fun h => by rw [h, fnState_zero] at hst; cases hst) hst
    have hq := handing_queue id f x u p c
    rw [endDelivery_eq hun hleft (.inl rfl)]
    simp only [State.notify_yard, State.notify_fld_get, State.notify_loft, State.notify_eng, State.queue, State.frame]
    refine ⟨hq.trans hqueue, ?_, by rw [State.setFrame, Tab.get_set_same]; rfl, ?_, ?_⟩
    · refine (hhand.fld ..).trans (hcount.trans ?_)
      simp only [hcnt]
    · exact hhand.loft.trans (hloft.trans hloftu)
    · exact hhand.eng.trans (heng.trans hengu)
  · refine does_of_applied rfl hclk happ ?_
    rw [heq]
    have hkindu : (s.setQueue p c ((s.queue p c).drop 1)).poolKind f = s.poolKind f := rfl
    have hcnt : (s.setQueue p c ((s.queue p c).drop 1)).fld F.ydFrx2_NOSLOT f = s.fld F.ydFrx2_NOSLOT f := rfl
    have hloftu : (s.setQueue p c ((s.queue p c).drop 1)).loft = s.loft := rfl
    have hengu : (s.setQueue p c ((s.queue p c).drop 1)).eng = s.eng := rfl
    generalize s.setQueue p c ((s.queue p c).drop 1) = u at *
    have hun := unserved_of_running id hlanes (hstate.trans hrun)
    have hhand : handing id f x u = (0, u.bump F.ydFrx2_NOSLOT f) := by
      rw [handing, hun, readCells_of_no_lanes hlanes, deliver_of_no_pool hct (hstate.trans hrun) (hkindu.trans hkind)]
    rw [endDelivery_eq (by rw [hun]; exact hxu) hleft (.inr (by rw [hhand])), hhand]
    simp only [State.notify_yard, State.notify_fld_get, State.notify_loft, State.notify_eng, State.queue, State.frame]
    refine ⟨hqueue, ?_, ?_, hloftu, hengu⟩
    · refine (State.bump_fld ..).trans ?_
      rw [hcnt]
    · rw [State.setFrame, Tab.get_set_same]
  · intro n data base hn hfit hown hpass hgood
    refine does_of_applied rfl hclk happ ?_
    rw [heq]
    have hfreeu := freeSlot_setQueue hfree p c ((s.queue p c).drop 1)
    have hkindu : (s.setQueue p c ((s.queue p c).drop 1)).poolKind f = s.poolKind f := rfl
    have hfilled := deliverLoft_filled (s := s.setQueue p c ((s.queue p c).drop 1)) (x := x) hfreeu hfit hown hpass
    have hnext : Tab.get 0 (slotTaken f k (s.setQueue p c ((s.queue p c).drop 1))).yard.poolNext f = (k + 1) % s.fld F.ydFrx0_NSLOT f :=
      Tab.get_set_same ..
    have hun := unserved_of_running id hlanes (hstate.trans hrun)
    have hraw : ∀ b, (s.setQueue p c ((s.queue p c).drop 1)).raw b = s.raw b := fun b => by cases b <;> rfl
    have hfree' : base + 3 + data.length ≤ 65536 := by
      have := loft_le_of_owned hown
      omega
    have hspec := slotFilled_spec (s := s.setQueue p c ((s.queue p c).drop 1)) (f := f) (n := n) (base := base) (k := k) (x := x) hn hlanes hfree'
      fun i hi => by rw [hraw]; exact hgood i hi
    have hhand : handing id f x (s.setQueue p c ((s.queue p c).drop 1)) =
        slotFilled f n base k x x.bytes (s.setQueue p c ((s.queue p c).drop 1)) := by
      rw [handing, hun, readCells_of_no_lanes hlanes, deliver_of_loft hct (hstate.trans hrun) (hkindu.trans hkind) hlanes]
      exact hfilled
    obtain ⟨hzero, hyard, hbytes, hother⟩ := hspec
    have hq := handing_queue id f x (s.setQueue p c ((s.queue p c).drop 1)) p c
    rw [endDelivery_eq (by rw [hun]; exact hxu) hleft (.inr (by rw [hhand]; exact hzero))]
    rw [hhand] at hq ⊢
    generalize slotFilled f n base k x x.bytes (s.setQueue p c ((s.queue p c).drop 1)) = r at hzero hyard hbytes hother hq ⊢
    simp only [State.notify_yard, notify_raw, State.queue, State.frame]
    refine ⟨hq.trans hqueue, fun i hi => ?_, ?_, fun m a hm ha hout => ?_, by rw [State.setFrame, Tab.get_set_same]⟩
    · exact hbytes i hi
    · exact (congrArg (fun y : YardS => Tab.get 0 y.poolNext f) hyard).trans hnext
    · exact (hother m a hm ha hout).trans (hraw _)

/-- Settles O38: a frame's copy is taken or delivered while others of its copies are left, and what a delivery stores is the pool's. -/
theorem framesAreForwardedAndDelivered : Obligations.FramesAreForwardedAndDelivered := ⟨yardFiltersAndForwards, framesAreDelivered⟩

end Sys2Proof.Machine
end

section
/-! Forwarding in passing: what the services and the passage of time leave of the rings, and how words arrive (R212, R214). -/

namespace Sys2Proof.Machine

variable {s t u : State}

/-! ### Steps that do not reach the rings -/

/-- The rings, the lofts and the events of the engines stand as they did. -/
structure RingsStand (s t : State) : Prop where
  dirs : t.dirs = s.dirs
  loft : t.loft = s.loft
  ev : ∀ e, (t.e e).ev = (s.e e).ev

namespace RingsStand

theorem refl (s : State) : RingsStand s s := ⟨rfl, rfl, fun _ => rfl⟩

theorem trans (h : RingsStand s t) (k : RingsStand t u) : RingsStand s u :=
  ⟨k.dirs.trans h.dirs, k.loft.trans h.loft, fun e => (k.ev e).trans (h.ev e)⟩

theorem of_eng (hd : t.dirs = s.dirs) (hl : t.loft = s.loft) (he : t.eng = s.eng) : RingsStand s t :=
  ⟨hd, hl, fun e => by rw [State.e, he, State.e]⟩

theorem put (s : State) (f : Fld) (v i j : Nat) : RingsStand s (s.put f v i j) := of_eng rfl rfl rfl
theorem bump (s : State) (f : Fld) (i j n : Nat) : RingsStand s (s.bump f i j n) := of_eng rfl rfl rfl
theorem setSt (s : State) (n : Nat) (x : Stb) : RingsStand s (s.setSt n x) := of_eng rfl rfl rfl
theorem setFn (s : State) (n : Nat) (x : FnS) : RingsStand s (s.setFn n x) := of_eng rfl rfl rfl
theorem setCtr (s : State) (n : Nat) (x : TCnt) : RingsStand s (s.setCtr n x) := of_eng rfl rfl rfl

theorem setE {n : Nat} {x : Eng} (hx : x.ev = (s.e n).ev) : RingsStand s (s.setE n x) := by
  refine ⟨rfl, rfl, fun e => ?_⟩
  rcases eq_or_ne e n with rfl | h
  · rw [State.setE_e, hx]
  · rw [State.setE_e_ne _ _ _ _ h]

theorem of_ite {c : Prop} [Decidable c] {a b : State} (ha : RingsStand s a) (hb : RingsStand s b) : RingsStand s (if c then a else b) := by
  split
  · exact ha
  · exact hb

theorem foldl {α : Type} {f : State → α → State} (h : RingsStand s t) (hf : ∀ s x, RingsStand s (f s x)) (l : List α) :
    RingsStand s (l.foldl f t) := by
  induction l generalizing t with
  | nil => exact h
  | cons a l ih => exact ih (h.trans (hf t a))

theorem dir (h : RingsStand s t) (k d : Nat) : t.dir k d = s.dir k d := by
  rw [State.dir, h.dirs, State.dir]

end RingsStand

theorem writeRecord_rings (w : Word) (ws : List Nat) (s : State) : RingsStand s (writeRecord w ws s) := by
  unfold writeRecord
  extract_lets r sec nxt v body all z
  obtain ⟨x, hx⟩ := foldl_setFlash_eq (fun i => 512 * sec + 8 * (r % 64) + i) (fun i => BitVec.ofNat 64 (all.getD i 0).toNat)
    (List.range 8) v
  have hz : z = { v with flash := x } := hx
  have hv : RingsStand s v := by
    unfold v
    split_ifs <;> exact .of_eng rfl rfl rfl
  rw [hz]
  exact hv.trans (.of_eng rfl rfl rfl)

theorem logRecord_rings (typ : Nat) (ws : List Nat) (s : State) : RingsStand s (logRecord typ ws s) := by
  unfold logRecord
  dsimp only
  refine .of_ite (.bump ..) (.of_ite ?_ (.of_ite (.of_eng rfl rfl rfl) ?_))
  · refine .trans ?_ (writeRecord_rings ..)
    refine .trans ?_ (.bump ..)
    exact .of_eng rfl rfl rfl
  · refine .trans ?_ (.bump ..)
    exact .of_eng rfl rfl rfl

theorem memLog_rings (n wh eng a : Nat) (syn : BitVec 8) (s : State) : RingsStand s (memLog n wh eng a syn s) :=
  (((((RingsStand.put s F.stMemlog_WHERE wh n 0).trans (.put ..)).trans (.put ..)).trans (.put ..)).trans (.put ..)).trans (.put ..)

theorem countUE_loft_rings (n a : Nat) (y : BitVec 8) (s : State) : RingsStand s (countUE (loftPlace n a) y s) := by
  unfold countUE
  extract_lets b w t
  have ht : RingsStand s t := .of_eng rfl rfl rfl
  split
  · exact ht.trans (((RingsStand.bump ..).trans (memLog_rings ..)).trans (logRecord_rings ..))
  · next hnone => cases hnone

theorem memRead_loft_rings (n a : Nat) (s : State) : RingsStand s (memRead (loftPlace n a) s).2 := by
  unfold memRead
  split
  · exact .refl s
  · exact .of_eng rfl rfl rfl
  · exact countUE_loft_rings ..

theorem wakeStable_rings (n : Nat) (s : State) : RingsStand s (wakeStable n s) := by
  obtain ⟨a, p, t, h⟩ := wakeStable_eq n s
  rw [h]
  exact .of_eng rfl rfl rfl

theorem noteIdle_rings (s : State) : RingsStand s (noteIdle s) :=
  .foldl (.refl s) (fun _ _ => .of_ite (.of_ite (.setSt ..) (.refl _)) (.of_ite (.setSt ..) (.refl _))) _

theorem deferTask_rings (f n : Nat) (s : State) : RingsStand s (deferTask f n s) := by
  unfold deferTask
  split_ifs
  · have ht : RingsStand s ((s.bump F.stCnt2_DEFER n).put F.fnStatus_OVERQ (s.fld F.fnStatus_OVERQ f % 64 + 64) f) := .of_eng rfl rfl rfl
    rcases noteOverq_cases f s ((s.bump F.stCnt2_DEFER n).put F.fnStatus_OVERQ (s.fld F.fnStatus_OVERQ f % 64 + 64) f) with h | h <;>
      simp only [h]
    · exact ht
    · exact ht.trans (.put ..)
  · exact .refl s

theorem engineTime_rings (n : Nat) (s : State) : RingsStand s (engineTime n s) := by
  refine .foldl (.refl s) (fun s e => ?_) _
  extract_lets x was y t
  have ht : RingsStand s t := RingsStand.trans (t := s.setE e { x with runt := min 65535 (x.runt + 3 * n) }) (.setE rfl) (.setFn ..)
  exact .of_ite (ht.trans (.foldl (.refl _) (fun _ _ => deferTask_rings ..) _)) ht

end Sys2Proof.Machine
end

section
/-! The ring of an in-passing direction: its words, its descriptors, and how a frame's words arrive there (R210, R212, R214). -/

namespace Sys2Proof.Machine

variable {s t u : State} {k d : Nat}

/-! ### The words of a ring -/

theorem ringPlace_eq (s : State) (k d o : Nat) : s.ringPlace k d o = loftPlace (s.fld F.epIpcfg0_STBL k) ((14 + d) * 4096 + o) := rfl

theorem ringPlace_ne {o p : Nat} (ho : o < 4096) (hp : p < 4096) (h : o ≠ p) : s.ringPlace k d o ≠ s.ringPlace k d p := fun heq => by
  unfold State.ringPlace at heq
  injection heq with _ h2
  have h2' := congrArg Fin.val h2
  simp only [Fin.val_ofNat] at h2'
  omega

theorem Steady.ringPlace (h : Steady s t) (k d o : Nat) : t.ringPlace k d o = s.ringPlace k d o := by
  rw [ringPlace_eq, h.fld _ (by decide), ringPlace_eq]

theorem descOff_bounds {j : Nat} (hj : j < 8) : 0x7C0 ≤ descOff j ∧ descOff j + 3 < 0x7E0 := by
  unfold descOff
  omega

/-! ### A step that writes words of a ring -/

/-- The rings' frames and the events stand, and so do the words of the lofts outside those that `a` tells. -/
structure WordsMove (a : SramWord → Prop) (s t : State) : Prop where
  dirs : t.dirs = s.dirs
  ev : ∀ e, (t.e e).ev = (s.e e).ev
  raw : ∀ m b, ¬ a (loftPlace m b) → t.raw (loftPlace m b) = s.raw (loftPlace m b)

namespace WordsMove
variable {a : SramWord → Prop}

theorem trans (h : WordsMove a s t) (k : WordsMove a t u) : WordsMove a s u :=
  ⟨k.dirs.trans h.dirs, fun e => (k.ev e).trans (h.ev e), fun m b hb => (k.raw m b hb).trans (h.raw m b hb)⟩

theorem of_rings (h : RingsStand s t) : WordsMove a s t := ⟨h.dirs, h.ev, fun m b _ => raw_of_loft h.loft m b⟩

theorem refl (s : State) : WordsMove a s s := .of_rings (.refl s)

theorem memWrite {n b : Nat} (h : a (loftPlace n b)) (w : Word) (s : State) : WordsMove a s (memWrite (loftPlace n b) w s) :=
  ⟨rfl, fun _ => rfl, fun _ _ hm => raw_memWrite_ne (a := loftPlace n b) rfl (fun e => hm (by rw [e]; exact h)) w s⟩

theorem dir (h : WordsMove a s t) (k d : Nat) : t.dir k d = s.dir k d := by rw [State.dir, h.dirs, State.dir]

theorem ring (h : WordsMove a s t) {r : State} {o : Nat} (hn : ¬ a (r.ringPlace k d o)) : t.raw (r.ringPlace k d o) = s.raw (r.ringPlace k d o) :=
  h.raw _ _ hn

end WordsMove

theorem memUpdate_words {a : SramWord → Prop} {n b : Nat} (h : a (loftPlace n b)) (f : Word → Word) (s : State) :
    WordsMove a s (memUpdate (loftPlace n b) f s).2 := by
  have hread := memRead_loft_rings n b s
  unfold memUpdate
  split
  · next hr =>
    rw [hr] at hread
    exact .trans (.of_rings hread) (.memWrite h ..)
  · next hr =>
    rw [hr] at hread
    exact .trans (.of_rings hread) (.memWrite h ..)
  · next hr =>
    rw [hr] at hread
    exact .of_rings (hread.trans (.of_eng rfl rfl rfl))

/-- The descriptor of segment `g` of a frame, where it has one. -/
def isDesc (s : State) (k d : Nat) (x : RFrame) (g : Nat) (a : SramWord) : Prop := ∃ j, x.poss.getD g none = some j ∧ a = s.ringPlace k d (descOff j)

theorem onDesc_words (k d : Nat) (x : RFrame) (g : Nat) (f : Nat → Nat) (s : State) : WordsMove (isDesc s k d x g) s (onDesc k d x g f s) := by
  unfold onDesc
  split
  · exact .refl s
  · next j hj =>
    dsimp only
    split_ifs
    · exact memUpdate_words ⟨j, hj, rfl⟩ ..
    · exact .refl s

/-- The word of the ring that word `i` of a frame takes. -/
def wordOff (x : RFrame) (i : Nat) : Nat := 64 * x.slots.getD (i / 64) 0 + i % 64

theorem arriveWord_words (k d : Nat) (x : RFrame) (i : Nat) (s : State) :
    WordsMove (fun a => a = s.ringPlace k d (wordOff x i) ∨ isDesc s k d x (i / 64) a) s (arriveWord k d x i s) := by
  have hwrite : WordsMove (fun a => a = s.ringPlace k d (wordOff x i) ∨ isDesc s k d x (i / 64) a) s
      (memWrite (s.ringPlace k d (wordOff x i)) (x.words.getD i 0) s) := .memWrite (.inl rfl) ..
  obtain ⟨hd, he, hr⟩ := onDesc_words k d x (i / 64) (fun w => setBits w 15 7 (i % 64 + 1))
    (memWrite (s.ringPlace k d (wordOff x i)) (x.words.getD i 0) s)
  exact hwrite.trans ⟨hd, he, fun m b hb => hr m b fun h => hb (.inr h)⟩

/-- The words of a frame with one segment: all in one slot, its descriptor at position `j`. -/
structure OneSegment (x : RFrame) (g : Nat) (o : Option Nat) : Prop where
  slots : x.slots = [g]
  poss : x.poss = [o]
  words : x.words.length ≤ 64
  slot : g < 31
  place : ∀ j, o = some j → j < 8

namespace OneSegment
variable {x : RFrame} {g : Nat} {o : Option Nat}

theorem wordOff_eq (h : OneSegment x g o) {i : Nat} (hi : i < x.words.length) : wordOff x i = 64 * g + i := by
  have := h.words
  rw [wordOff, h.slots, Nat.div_eq_of_lt (by omega), Nat.mod_eq_of_lt (by omega)]
  rfl

theorem desc_eq (h : OneSegment x g o) {i : Nat} (hi : i < x.words.length) : x.poss.getD (i / 64) none = o := by
  have := h.words
  rw [h.poss, Nat.div_eq_of_lt (by omega)]
  rfl

/-- A word of the ring outside the descriptor. -/
theorem not_desc (h : OneSegment x g o) {p i : Nat} (hp : p < 0x7C0) (hi : i < x.words.length) (s : State) :
    ¬ isDesc s k d x (i / 64) (s.ringPlace k d p) := fun ⟨j, hj, he⟩ => by
  rw [h.desc_eq hi] at hj
  have := descOff_bounds (h.place j hj)
  exact ringPlace_ne (by omega) (by omega) (by omega) he

end OneSegment

/-- Words `a` to `a + n − 1` of a frame arrive. -/
def arrivals (k d : Nat) (x : RFrame) (a n : Nat) (s : State) : State := (List.range n).foldl (fun s i => arriveWord k d x (a + i) s) s

theorem arrivals_succ (k d : Nat) (x : RFrame) (a n : Nat) (s : State) :
    arrivals k d x a (n + 1) s = arriveWord k d x (a + n) (arrivals k d x a n s) := by
  rw [arrivals, List.range_succ, List.foldl_append, List.foldl_cons, List.foldl_nil, arrivals]

theorem arrivals_steady (k d : Nat) (x : RFrame) (a n : Nat) (s : State) : Steady s (arrivals k d x a n s) :=
  .foldl (.refl s) (fun _ _ => arriveWord_steady ..) _

theorem arrivals_stand (k d : Nat) (x : RFrame) (a n : Nat) (s : State) :
    (arrivals k d x a n s).dirs = s.dirs ∧ ∀ e, ((arrivals k d x a n s).e e).ev = (s.e e).ev := by
  induction n with
  | zero => exact ⟨rfl, fun _ => rfl⟩
  | succ n ih =>
    rw [arrivals_succ]
    have hw := arriveWord_words k d x (a + n) (arrivals k d x a n s)
    exact ⟨hw.dirs.trans ih.1, fun e => (hw.ev e).trans (ih.2 e)⟩

/-- The words of a frame that arrive are in its slot. -/
theorem arrivals_stored {x : RFrame} {g : Nat} {o : Option Nat} (h : OneSegment x g o) (n : Nat) (hn : n ≤ x.words.length) :
    ∀ i < n, readCode ((arrivals k d x 0 n s).raw (s.ringPlace k d (64 * g + i))) = .ok (x.words.getD i 0) := by
  have hslot := h.slot
  have hwords := h.words
  induction n with
  | zero => exact fun i hi => absurd hi (Nat.not_lt_zero i)
  | succ n ih =>
    intro i hi
    rw [arrivals_succ, Nat.zero_add]
    have hplace := (arrivals_steady k d x 0 n s).ringPlace k d
    have hoff := h.wordOff_eq (i := n) (by omega)
    have hnot := fun u : State => h.not_desc (d := d) (k := k) (p := 64 * g + i) (i := n) (by omega) (by omega) u
    replace ih := ih (by omega)
    generalize arrivals k d x 0 n s = u at hplace ih ⊢
    simp only [← hplace] at ih ⊢
    rcases Nat.lt_succ_iff_lt_or_eq.1 hi with hlt | rfl
    · rw [(arriveWord_words k d x n u).ring]
      · exact ih i hlt
      · rintro (he | he)
        · exact ringPlace_ne (by omega) (by rw [hoff]; omega) (by rw [hoff]; omega) he
        · exact hnot u he
    · have hdesc := onDesc_words k d x (i / 64) (fun w => setBits w 15 7 (i % 64 + 1))
        (memWrite (u.ringPlace k d (wordOff x i)) (x.words.getD i 0) u)
      have harr : arriveWord k d x i u = onDesc k d x (i / 64) (fun w => setBits w 15 7 (i % 64 + 1))
        (memWrite (u.ringPlace k d (wordOff x i)) (x.words.getD i 0) u) := rfl
      rw [harr]
      rw [hoff] at hdesc ⊢
      rw [hdesc.ring (r := u) (hnot _), raw_memWrite_same rfl, readCode_sealW]

/-! ### What has arrived is settled -/

theorem settleDir_of_none (h : (s.dir k d).frames = []) : settleDir k d s = s := by
  rw [settleDir, h]
  rfl

theorem settleDir_of_one {x : RFrame} (h : (s.dir k d).frames = [x]) : settleDir k d s =
    if s.arrivedBy k x ≤ x.arrived then s
    else (arrivals k d x x.arrived (s.arrivedBy k x - x.arrived) s).setDir k d
      { s.dir k d with frames := [{ x with arrived := s.arrivedBy k x }] } := by
  have hdir' : (arrivals k d x x.arrived (s.arrivedBy k x - x.arrived) s).dir k d = s.dir k d := by
    rw [State.dir, (arrivals_stand ..).1, State.dir]
  unfold settleDir
  rw [h]
  simp only [List.length_singleton, List.range_one, List.foldl_cons, List.foldl_nil, h, List.getElem?_cons_zero]
  split_ifs
  · rfl
  · unfold arrivals at hdir' ⊢
    rw [hdir', h]
    rfl

end Sys2Proof.Machine
end

section
/-! The end of a frame that passes, and its egress (R211, R212, R214, R216). -/

namespace Sys2Proof.Machine

variable {s t u : State} {k d : Nat}

/-! ### What the services leave -/

theorem Steady.fnState (h : Steady s t) (f : Nat) : t.fnState f = s.fnState f := by
  unfold State.fnState
  rw [h.fld _ (by decide)]

theorem Steady.pairRuns (h : Steady s t) (k : Nat) : t.pairRuns k = s.pairRuns k := by
  rw [State.pairRuns, h.fld _ (by decide), h.fnState, State.pairRuns]

theorem Steady.inPassing (h : Steady s t) (k d : Nat) : t.inPassing k d = s.inPassing k d := by
  unfold State.inPassing State.on
  split <;> rw [h.fld _ (by decide), h.fld _ (by decide)]

theorem inpassEvent_rest (k j : Nat) (s : State) : (inpassEvent k j s).dirs = s.dirs ∧ (inpassEvent k j s).loft = s.loft := by
  unfold inpassEvent
  obtain ⟨a, p, t, h⟩ := wakeStable_eq (s.fld F.epIpcfg0_STBL k) (setEv (8 * s.fld F.epIpcfg0_STBL k + j) 13 s)
  simp only [h]
  exact ⟨rfl, rfl⟩

/-- The event of a position is set, and no other event changes. -/
theorem inpassEvent_ev (k j : Nat) (s : State) (e : Nat) : ((inpassEvent k j s).e e).ev =
    if e = 8 * s.fld F.epIpcfg0_STBL k + j then (s.e e).ev ||| BitVec.ofNat 16 (2 ^ 13) else (s.e e).ev := by
  unfold inpassEvent
  simp only [(wakeStable_rings _ _).ev]
  unfold setEv
  split_ifs with h
  · rw [← h, State.setE_e]
  · rw [State.setE_e_ne _ _ _ _ h]

theorem inpassEvent_ev_same (k j : Nat) (s : State) : ((inpassEvent k j s).e (8 * s.fld F.epIpcfg0_STBL k + j)).ev.getLsbD 13 = true := by
  rw [inpassEvent_ev, if_pos rfl, BitVec.getLsbD_or]
  simp

/-! ### The end of a frame (R209, R214, R216) -/

theorem frames_setDir (s : State) (k d : Nat) (x : DirS) : (s.setDir k d x).dir k d = x := Tab.get_set_same ..

/-- A frame that egress has not begun stays in the ring when it ends. -/
theorem relayFinish_of_waiting {n : Nat} {x : RFrame} (hx : (s.dir k d).frames[n]? = some x) (hs : x.started = false) (hg : x.gone = false) :
    relayFinish k d n s = s := by
  unfold relayFinish
  rw [hx]
  cases hf : x.fin <;> simp [hf, hs, hg]

theorem relayEnd_of_ended (len : Nat) (bad : Bool) (h : (s.dir k d).frames.all (·.fin.isSome) = true) : relayEnd k d len bad s = s := by
  have hnone : (s.dir k d).frames.findIdx? (·.fin.isNone) = none := by
    rw [List.findIdx?_eq_none_iff]
    intro x hx
    have := List.all_eq_true.1 h x hx
    cases hf : x.fin <;> simp_all
  rw [relayEnd, hnone]

/-- The ring with the words of a frame that has ended. -/
def ended (k d : Nat) (x : RFrame) (s : State) : State := settleDir k d (s.setDir k d { s.dir k d with frames := [x] })

/-- The descriptor and the event of a frame that has ended. -/
def endTold (k d j : Nat) (x : RFrame) (len : Nat) (s : State) : State :=
  inpassEvent k j (onDesc k d x 0 (fun w => setBits (setBits (setBits w 45 1 1) 44 1 (b2n false)) 0 15 len) s)

/-- A frame at place `n` ends with `l` bytes. -/
def endAt (k d n : Nat) (x : RFrame) (l : Nat) (isBad : Bool) (s : State) : State :=
  let u := settleDir k d (s.setDir k d { s.dir k d with frames := (s.dir k d).frames.set n { x with fin := some (l, isBad) } })
  let g := x.slots.length - 1
  let v := if !u.pairRuns k then u
    else
      let v := onDesc k d x g (fun w => setBits (setBits (setBits w 45 1 1) 44 1 (b2n (isBad || x.ue))) 0 15 l) u
      match x.poss.getD g none with
      | some j => inpassEvent k j v
      | none => v
  let v := if isBad && !x.ue then v.bump F.epIpcnt_BAD k d else v
  relayFinish k d n (v.bump F.epCnt0_RXOK (v.ingress k d))

theorem relayEnd_eq {n : Nat} {x : RFrame} (hfind : (s.dir k d).frames.findIdx? (·.fin.isNone) = some n) (hx : (s.dir k d).frames[n]? = some x)
    (len : Nat) (bad : Bool) : relayEnd k d len bad s =
      endAt k d n x (min (min len (s.maxFrm (s.ingress k d))) (6 * x.words.length)) (bad || len > s.maxFrm (s.ingress k d)) s := by
  unfold relayEnd
  rw [hfind]
  dsimp only
  rw [hx]
  rfl

theorem relayEnd_of_one {x : RFrame} {g j len : Nat} (hframes : (s.dir k d).frames = [x]) (hfin : x.fin = none)
    (hone : OneSegment x g (some j)) (hue : x.ue = false) (hrun : s.fnState (s.fld F.epIpcfg0_FN k) = 2) (hlen : len ≤ s.maxFrm (s.ingress k d)) :
    ∃ u v, u = ended k d { x with fin := some (min len (6 * x.words.length), false) } s
      ∧ v = endTold k d j x (min len (6 * x.words.length)) u
      ∧ relayEnd k d len false s = relayFinish k d 0 (v.bump F.epCnt0_RXOK (v.ingress k d)) := by
  refine ⟨_, _, rfl, rfl, ?_⟩
  have hbad : (false || decide (len > s.maxFrm (s.ingress k d))) = false := by simpa using hlen
  have hfind : (s.dir k d).frames.findIdx? (·.fin.isNone) = some 0 := by simp [hframes, hfin]
  have hrun' : (ended k d { x with fin := some (min len (6 * x.words.length), false) } s).pairRuns k = true := by
    rw [ended, (settleDir_steady ..).pairRuns]
    exact beq_iff_eq.2 hrun
  have hset : ∀ y, (s.dir k d).frames.set 0 y = [y] := fun y => by rw [hframes, List.set_cons_zero]
  have hpos : x.poss.getD (x.slots.length - 1) none = some j := by
    rw [hone.slots, hone.poss]
    rfl
  have hzero : x.slots.length - 1 = 0 := by rw [hone.slots, List.length_singleton]
  rw [relayEnd_eq hfind (by rw [hframes, List.getElem?_cons_zero]), hbad, Nat.min_eq_left hlen]
  unfold endAt
  rw [hset]
  change relayFinish k d 0 _ = _
  dsimp only
  rw [← ended, hrun', hpos, hue, hzero]
  rfl

/-- What a frame's end leaves: its words in the ring. -/
structure EndsIn (k d g : Nat) (y : RFrame) (s u : State) : Prop where
  frames : (u.dir k d).frames = [{ y with arrived := y.words.length }]
  stored : ∀ i < y.words.length, readCode (u.raw (s.ringPlace k d (64 * g + i))) = .ok (y.words.getD i 0)
  steady : Steady s u

theorem ended_spec {y : RFrame} {g : Nat} {o : Option Nat} (hone : OneSegment y g o) (hfin : y.fin.isSome = true) (harr : y.arrived = 0) (s : State) :
    EndsIn k d g y s (ended k d y s) := by
  have hsteady : Steady s (s.setDir k d { s.dir k d with frames := [y] }) := (Steady.refl s).setDir ..
  have hall : ∀ v : State, v.arrivedBy k y = y.words.length := fun v => if_pos hfin
  have hframes : ((s.setDir k d { s.dir k d with frames := [y] }).dir k d).frames = [y] := congrArg DirS.frames (frames_setDir ..)
  have hplace := hsteady.ringPlace k d
  unfold ended
  generalize s.setDir k d { s.dir k d with frames := [y] } = v at hsteady hframes hplace
  refine ⟨?_, fun i hi => ?_, hsteady.trans (settleDir_steady ..)⟩
  all_goals rw [settleDir_of_one hframes, hall, harr, Nat.sub_zero]
  · split_ifs with h
    · have harr' : y.arrived = y.words.length := by omega
      rw [hframes, ← harr']
    · rw [frames_setDir]
  · rw [if_neg (by omega)]
    have hw := arrivals_stored (s := v) (k := k) (d := d) hone y.words.length le_rfl i hi
    rw [hplace] at hw
    exact hw

theorem frameEnds {x : RFrame} {g j len : Nat} (hframes : (s.dir k d).frames = [x]) (hfin : x.fin = none) (hgone : x.gone = false)
    (hstarted : x.started = false) (hone : OneSegment x g (some j)) (hue : x.ue = false) (harr : x.arrived = 0)
    (hrun : s.fnState (s.fld F.epIpcfg0_FN k) = 2) (hlen : len ≤ s.maxFrm (s.ingress k d)) :
    ((relayEnd k d len false s).dir k d).frames = [{ x with arrived := x.words.length, fin := some (min len (6 * x.words.length), false) }]
      ∧ (∀ i < x.words.length, readCode ((relayEnd k d len false s).raw (s.ringPlace k d (64 * g + i))) = .ok (x.words.getD i 0))
      ∧ ((relayEnd k d len false s).e (8 * s.fld F.epIpcfg0_STBL k + j)).ev.getLsbD 13 = true := by
  obtain ⟨u, v, hu, hv, heq⟩ := relayEnd_of_one hframes hfin hone hue hrun hlen
  obtain ⟨huframes, hustored, husteady⟩ := ended_spec (k := k) (d := d) (y := { x with fin := some (min len (6 * x.words.length), false) })
    ⟨hone.slots, hone.poss, hone.words, hone.slot, hone.place⟩ rfl harr s
  rw [← hu] at huframes hustored husteady
  have hmoved := onDesc_words k d x 0 (fun w => setBits (setBits (setBits w 45 1 1) 44 1 (b2n false)) 0 15 (min len (6 * x.words.length))) u
  have hstbl : ∀ f i, (onDesc k d x 0 f u).fld F.epIpcfg0_STBL i = s.fld F.epIpcfg0_STBL i := fun f i =>
    (husteady.trans (onDesc_steady ..)).fld _ (by decide) ..
  have hev := inpassEvent_ev_same k j
    (onDesc k d x 0 (fun w => setBits (setBits (setBits w 45 1 1) 44 1 (b2n false)) 0 15 (min len (6 * x.words.length))) u)
  have hrest := inpassEvent_rest k j
    (onDesc k d x 0 (fun w => setBits (setBits (setBits w 45 1 1) 44 1 (b2n false)) 0 15 (min len (6 * x.words.length))) u)
  rw [hstbl] at hev
  unfold endTold at hv
  rw [← hv] at hev hrest
  have hvframes : (v.dir k d).frames = [{ x with arrived := x.words.length, fin := some (min len (6 * x.words.length), false) }] := by
    rw [State.dir, hrest.1, hmoved.dirs]
    exact huframes
  rw [heq, relayFinish_of_waiting (x := { x with arrived := x.words.length, fin := some (min len (6 * x.words.length), false) })
    (by rw [show (v.bump F.epCnt0_RXOK (v.ingress k d)).dir k d = v.dir k d from rfl, hvframes]; rfl) hstarted hgone]
  refine ⟨hvframes, fun i hi => ?_, hev⟩
  have hslot := hone.slot
  have hwords := hone.words
  simp only [← husteady.ringPlace] at hustored ⊢
  have hnot : ¬ isDesc u k d x 0 (u.ringPlace k d (64 * g + i)) := by
    have h0 := hone.not_desc (k := k) (d := d) (p := 64 * g + i) (i := 0) (by omega) (by omega) u
    exact h0
  have hraw : (v.bump F.epCnt0_RXOK (v.ingress k d)).raw (u.ringPlace k d (64 * g + i)) = u.raw (u.ringPlace k d (64 * g + i)) :=
    (raw_of_loft hrest.2 _ _).trans (hmoved.ring hnot)
  rw [hraw]
  exact hustored i hi

/-! ### Egress (R211, R212, R216) -/

/-- The frame whose turn it is stands at its place and is not gone. -/
theorem egressNext_spec {n : Nat} {x : RFrame} (h : s.egressNext k d = some (n, x)) : (s.dir k d).frames[n]? = some x ∧ x.gone = false := by
  unfold State.egressNext at h
  rw [Option.map_eq_some_iff] at h
  obtain ⟨e, he, heq⟩ := h
  obtain ⟨rfl, rfl⟩ := Prod.mk.inj heq
  have hmem := List.mem_of_find?_eq_some he
  have hgone := List.find?_some he
  refine ⟨List.mk_mem_zipIdx_iff_getElem?.1 hmem, by simpa using hgone⟩

/-- A frame that has not all its words is not sent. -/
theorem relayFinish_of_short {n : Nat} {x : RFrame} (hx : (s.dir k d).frames[n]? = some x) (hg : x.gone = false)
    (hshort : ∀ e, x.fin = some e → x.egress.length < egressWords e.1) : relayFinish k d n s = s := by
  unfold relayFinish
  rw [hx]
  cases hf : x.fin with
  | none => simp [hf]
  | some e =>
    have := hshort e hf
    simp [hf, hg, Nat.not_le.2 this]

theorem egressStart_of_due {n : Nat} {x : RFrame} (h : s.egressNext k d = some (n, x)) (hs : x.started = false) (hdue : s.tOut k x ≤ 4000 * s.tick) :
    egressStart k d s =
      let u := if x.slip then (s.bump F.epIpcnt_SLIP k d).put F.epIpstat_SLEV 1 k else s
      if !u.on F.epStat_LINK (u.egress k d) then relayDone k d n x (u.bump F.epIpcnt_DROP k d)
      else relayFinish k d n (u.setDir k d { u.dir k d with frames := (u.dir k d).frames.set n { x with started := true } }) := by
  have hx : (s.dir k d).frames.getD n x = x := by
    rw [List.getD_eq_getElem?_getD, (egressNext_spec h).1, Option.getD_some]
  unfold egressStart
  rw [h]
  dsimp only
  rw [hs, passTo_of_past (by omega), hx]
  rfl

/-- What a count of a received frame leaves: what has been sent, the rings, the engines and the lofts. -/
structure CountKeeps (s t : State) : Prop where
  out : t.out = s.out
  dirs : t.dirs = s.dirs
  eng : t.eng = s.eng
  loft : t.loft = s.loft

theorem CountKeeps.trans (h : CountKeeps s t) (g : CountKeeps t u) : CountKeeps s u :=
  ⟨g.out.trans h.out, g.dirs.trans h.dirs, g.eng.trans h.eng, g.loft.trans h.loft⟩

theorem CountKeeps.of_ite {c : Prop} [Decidable c] {a b : State} (ha : CountKeeps s a) (hb : CountKeeps s b) : CountKeeps s (if c then a else b) := by
  split
  · exact ha
  · exact hb

theorem atBoundary_counts (p : Nat) (s : State) : CountKeeps s (atBoundary p s) := by
  rcases atBoundary_cases p s with h | ⟨d, h⟩ <;> rw [h] <;> exact ⟨rfl, rfl, rfl, rfl⟩

theorem pauseReceive_counts (p q : Nat) (s : State) : CountKeeps s (pauseReceive p q s) := by
  have hcount : CountKeeps s (s.bump F.epCnt3_PAUSERX p) := ⟨rfl, rfl, rfl, rfl⟩
  unfold pauseReceive
  refine .of_ite hcount (.of_ite ⟨rfl, rfl, rfl, rfl⟩ (.of_ite ⟨rfl, rfl, rfl, rfl⟩ ?_))
  refine .trans ?_ (atBoundary_counts ..)
  exact ⟨rfl, rfl, rfl, rfl⟩

theorem rxCount_counts (p : Nat) (fr : EthFrame) (s : State) : CountKeeps s (rxCount p fr s) := by
  unfold rxCount
  split
  · exact ⟨rfl, rfl, rfl, rfl⟩
  · exact ⟨rfl, rfl, rfl, rfl⟩
  · exact ⟨rfl, rfl, rfl, rfl⟩
  · split_ifs
    · exact pauseReceive_counts ..
    · exact ⟨rfl, rfl, rfl, rfl⟩
  · exact ⟨rfl, rfl, rfl, rfl⟩

/-- A frame has left by egress; the frames of its direction stand. -/
structure SentOut (k d : Nat) (o : Out) (s t : State) : Prop where
  out : s.out ++ [o] <+: t.out
  frames : (t.dir k d).frames = (s.dir k d).frames
  eng : t.eng = s.eng
  loft : t.loft = s.loft

namespace SentOut
variable {o : Out}

theorem count (h : SentOut k d o s t) (g : CountKeeps t u) : SentOut k d o s u :=
  ⟨g.out ▸ h.out, by rw [State.dir, g.dirs]; exact h.frames, g.eng.trans h.eng, g.loft.trans h.loft⟩

theorem of_ite {c : Prop} [Decidable c] {a b : State} (ha : SentOut k d o s a) (hb : SentOut k d o s b) : SentOut k d o s (if c then a else b) := by
  split
  · exact ha
  · exact hb

end SentOut

theorem relaySent_out (k d : Nat) (x : RFrame) (len : Nat) (good : Bool) (s : State) :
    SentOut k d (.frame (s.egress k d) ((x.egress.flatMap wordBytes).take (len - 4)) good) s (relaySent k d x len good s) := by
  unfold relaySent
  extract_lets bytes q ds t u fr
  have hframes : (t.dir k d).frames = (s.dir k d).frames := by
    unfold t
    rw [frames_setDir]
  have hu : SentOut k d (.frame (s.egress k d) bytes good) s u := ⟨List.prefix_rfl, hframes, rfl, rfl⟩
  exact .of_ite hu (.of_ite (hu.count ⟨rfl, rfl, rfl, rfl⟩) (.of_ite (hu.count (rxCount_counts ..)) (hu.count ⟨rfl, rfl, rfl, rfl⟩)))

/-- A slipped start is counted. -/
def slipped (k d : Nat) (s : State) : State := (s.bump F.epIpcnt_SLIP k d).put F.epIpstat_SLEV 1 k

theorem slipped_fld {f : Fld} (h1 : f.id ≠ F.epIpcnt_SLIP.id) (h2 : f.id ≠ F.epIpstat_SLEV.id) (k d : Nat) (s : State) (i j : Nat) :
    (slipped k d s).fld f i j = s.fld f i j :=
  (State.put_fld_ne _ _ _ _ _ _ _ _ h2).trans (State.bump_fld_ne _ _ _ _ _ _ _ _ h1)

theorem slipped_egress (k d : Nat) (s : State) : (slipped k d s).egress k d = s.egress k d := by
  unfold State.egress
  split <;> exact slipped_fld (by decide) (by decide) ..

/-- With the egress link down the frame is discarded and counted. -/
theorem egressStart_of_down {n : Nat} {x : RFrame} (h : s.egressNext k d = some (n, x)) (hs : x.started = false) (hdue : s.tOut k x ≤ 4000 * s.tick)
    (hdown : s.fld F.epStat_LINK (s.egress k d) = 0) :
    (egressStart k d s).fld F.epIpcnt_DROP k d = min (s.fld F.epIpcnt_DROP k d + 1) (2 ^ F.epIpcnt_DROP.width - 1)
      ∧ (egressStart k d s).eng = s.eng ∧ (egressStart k d s).loft = s.loft := by
  rw [egressStart_of_due h hs hdue]
  extract_lets u
  have hu : u = s ∨ u = slipped k d s := by
    unfold u
    split
    · exact .inr rfl
    · exact .inl rfl
  clear_value u
  have hlink : u.on F.epStat_LINK (u.egress k d) = false := by
    rcases hu with rfl | rfl
    · exact State.on_eq_false.2 hdown
    · rw [slipped_egress, State.on_eq_false, slipped_fld (by decide) (by decide)]
      exact hdown
  have hcount : u.fld F.epIpcnt_DROP k d = s.fld F.epIpcnt_DROP k d := by
    rcases hu with rfl | rfl
    · rfl
    · exact slipped_fld (by decide) (by decide) ..
  have hrest : u.eng = s.eng ∧ u.loft = s.loft := by
    rcases hu with rfl | rfl <;> exact ⟨rfl, rfl⟩
  rw [hlink]
  refine ⟨?_, hrest⟩
  refine (State.bump_fld ..).trans ?_
  rw [hcount]

/-- A frame that is not late begins, and egress takes its words from then on. -/
theorem egressStart_of_up {n : Nat} {x : RFrame} (h : s.egressNext k d = some (n, x)) (hs : x.started = false) (hdue : s.tOut k x ≤ 4000 * s.tick)
    (hup : s.fld F.epStat_LINK (s.egress k d) ≠ 0) (hslip : x.slip = false) : egressStart k d s =
      relayFinish k d n (s.setDir k d { s.dir k d with frames := (s.dir k d).frames.set n { x with started := true } }) := by
  have hlink : s.on F.epStat_LINK (s.egress k d) = true := State.on_eq_true.2 hup
  rw [egressStart_of_due h hs hdue, hslip]
  simp [hlink]

theorem getElem_set_started {n : Nat} {x : RFrame} (h : (s.dir k d).frames[n]? = some x) (y : RFrame) (v : State)
    (hv : (v.dir k d).frames = (s.dir k d).frames.set n y) : (v.dir k d).frames[n]? = some y := by
  rw [hv, List.getElem?_set_self (List.getElem?_eq_some_iff.1 h).1]

theorem egressStart_of_slip {n : Nat} {x : RFrame} (h : s.egressNext k d = some (n, x)) (hs : x.started = false) (hdue : s.tOut k x ≤ 4000 * s.tick)
    (hup : s.fld F.epStat_LINK (s.egress k d) ≠ 0) (hslip : x.slip = true)
    (hshort : ∀ e, x.fin = some e → x.egress.length < egressWords e.1) :
    egressStart k d s = (slipped k d s).setDir k d { s.dir k d with frames := (s.dir k d).frames.set n { x with started := true } } := by
  have hlink : (slipped k d s).on F.epStat_LINK ((slipped k d s).egress k d) = true := by
    rw [slipped_egress, State.on_eq_true, slipped_fld (by decide) (by decide)]
    exact hup
  obtain ⟨hx, hgone⟩ := egressNext_spec h
  rw [egressStart_of_due h hs hdue]
  dsimp only
  rw [if_pos hslip, ← slipped, hlink, if_neg (by decide)]
  exact relayFinish_of_short (x := { x with started := true })
    (getElem_set_started hx _ _ (by rw [frames_setDir]; rfl)) hgone hshort

/-- A frame that has ended with all its words latched is sent as it starts. -/
theorem egressStart_of_whole {x : RFrame} {len : Nat} (h : s.egressNext k d = some (0, x)) (hs : x.started = false)
    (hdue : s.tOut k x ≤ 4000 * s.tick) (hup : s.fld F.epStat_LINK (s.egress k d) ≠ 0) (hslip : x.slip = false) (hfin : x.fin = some (len, false))
    (hall : egressWords len ≤ x.egress.length) (hframes : (s.dir k d).frames = [x]) :
    (s.out ++ [.frame (s.egress k d) ((x.egress.flatMap wordBytes).take (len - 4)) true]) <+: (egressStart k d s).out
      ∧ ((egressStart k d s).dir k d).frames = [] ∧ (egressStart k d s).eng = s.eng ∧ (egressStart k d s).loft = s.loft := by
  obtain ⟨-, hgone⟩ := egressNext_spec h
  rw [egressStart_of_up h hs hdue hup hslip, hframes, List.set_cons_zero]
  have hout := relaySent_out k d { x with started := true } len true (s.setDir k d { s.dir k d with frames := [{ x with started := true }] })
  have hfr : ((s.setDir k d { s.dir k d with frames := [{ x with started := true }] }).dir k d).frames = [{ x with started := true }] :=
    congrArg DirS.frames (frames_setDir ..)
  have hfinish : relayFinish k d 0 (s.setDir k d { s.dir k d with frames := [{ x with started := true }] }) =
      relayDone k d 0 { x with started := true }
        (relaySent k d { x with started := true } len true (s.setDir k d { s.dir k d with frames := [{ x with started := true }] })) := by
    unfold relayFinish
    rw [hfr]
    simp [hfin, hgone, hall]
  rw [hfinish]
  have hegress : (s.setDir k d { s.dir k d with frames := [{ x with started := true }] }).egress k d = s.egress k d := rfl
  have hsout : (s.setDir k d { s.dir k d with frames := [{ x with started := true }] }).out = s.out := rfl
  have heng : (s.setDir k d { s.dir k d with frames := [{ x with started := true }] }).eng = s.eng := rfl
  have hloft : (s.setDir k d { s.dir k d with frames := [{ x with started := true }] }).loft = s.loft := rfl
  generalize s.setDir k d { s.dir k d with frames := [{ x with started := true }] } = u at *
  generalize relaySent k d { x with started := true } len true u = v at hout ⊢
  obtain ⟨ho, hf, he, hl⟩ := hout
  rw [hegress, hsout] at ho
  refine ⟨ho, ?_, he.trans heng, hl.trans hloft⟩
  unfold relayDone
  rw [frames_setDir, hf, hfr]
  simp [hfin]

/-- Egress takes what it has read. -/
def latchRead (k d n i : Nat) (x : RFrame) (r : Rd × State) : State :=
  let y := { x with egress := x.egress ++ [r.1.word] }
  let s := r.2.setDir k d { r.2.dir k d with frames := (r.2.dir k d).frames.set n y }
  if r.1.bad then
    let s := if x.fin.any (·.2) then s else s.bump F.epIpcnt_BAD k d
    let s := onDesc k d x (i / 64) (fun w => setBits w 44 1 1) s
    relayDone k d n { y with ue := true } (relaySent k d x (6 * x.egress.length + 4) false s)
  else relayFinish k d n s

/-- The words that egress may latch of a frame. -/
def latchLimit (x : RFrame) : Nat :=
  match x.fin with
  | some (len, _) => egressWords len
  | none => x.words.length

theorem wordLatch_eq {n i : Nat} {x : RFrame} (h : s.egressNext k d = some (n, x)) : wordLatch k d i s =
    if i ≠ x.egress.length || i ≥ latchLimit x || !s.on F.epStat_LINK (s.egress k d) then s
    else
      let u := passTo (s.latchPs k x i / 4000) s
      let y := (u.dir k d).frames.getD n x
      latchRead k d n i y (memRead (u.ringPlace k d (64 * y.slots.getD (i / 64) 0 + i % 64)) u) := by
  unfold wordLatch
  rw [h]
  rfl

theorem wordLatch_of_other {n i : Nat} {x : RFrame} (h : s.egressNext k d = some (n, x)) (hi : i ≠ x.egress.length) : wordLatch k d i s = s := by
  rw [wordLatch_eq h, if_pos (by simp [hi])]

theorem wordLatch_of_arriving {n i : Nat} {x : RFrame} {v : Word} (h : s.egressNext k d = some (n, x)) (hi : i = x.egress.length)
    (hlt : i < x.words.length) (hfin : x.fin = none) (hup : s.fld F.epStat_LINK (s.egress k d) ≠ 0) (hdue : s.latchPs k x i / 4000 ≤ s.tick)
    (hword : readCode (s.raw (s.ringPlace k d (64 * x.slots.getD (i / 64) 0 + i % 64))) = .ok v) :
    wordLatch k d i s = s.setDir k d { s.dir k d with frames := (s.dir k d).frames.set n { x with egress := x.egress ++ [v] } } := by
  obtain ⟨hx, hgone⟩ := egressNext_spec h
  have hget : (s.dir k d).frames.getD n x = x := by
    rw [List.getD_eq_getElem?_getD, hx, Option.getD_some]
  have hlink : s.on F.epStat_LINK (s.egress k d) = true := State.on_eq_true.2 hup
  have hlim : latchLimit x = x.words.length := by
    unfold latchLimit
    rw [hfin]
  have hgo : (decide (i ≠ x.egress.length) || decide (i ≥ latchLimit x) || !s.on F.epStat_LINK (s.egress k d)) = false := by
    simp [hi, hlink, hlim]
    omega
  rw [wordLatch_eq h, hgo, if_neg Bool.false_ne_true]
  dsimp only
  rw [passTo_of_past hdue, hget, memRead_ok hword]
  unfold latchRead
  refine (if_neg Bool.false_ne_true).trans ?_
  exact relayFinish_of_short (x := { x with egress := x.egress ++ [v] }) (getElem_set_started hx _ _ (congrArg DirS.frames (frames_setDir s k d _))) hgone
    (fun e he => by
      rw [hfin] at he
      cases he)

end Sys2Proof.Machine
end

section
/-! The first segment of a frame that passes: its slot, its descriptor and its event (R212, R214, R215). -/

namespace Sys2Proof.Machine

variable {s t u : State} {k d : Nat}

/-! ### What a descriptor shows -/

/-- VALID, the first segment, the ring slot and the frame number in D0 of a descriptor. -/
def descShows (slot seq : Nat) (w : Word) : Prop := bits w.toNat 46 2 = 3 ∧ bits w.toNat 38 5 = slot ∧ bits w.toNat 30 8 = seq

/-- D0 of a first segment. -/
def descWord (missed slot seq g : Nat) : Word := wd (2 ^ 47 + b2n (g = 0) * 2 ^ 46 + missed * 2 ^ 43 + slot * 2 ^ 38 + seq * 2 ^ 30 + g % 256 * 2 ^ 22)

theorem descWord_toNat {missed slot seq : Nat} (hm : missed < 2) (hs : slot < 31) (hq : seq < 256) :
    (descWord missed slot seq 0).toNat = 211106232532992 + missed * 8796093022208 + slot * 274877906944 + seq * 1073741824 := by
  have hsum : 2 ^ 47 + b2n (0 = 0) * 2 ^ 46 + missed * 2 ^ 43 + slot * 2 ^ 38 + seq * 2 ^ 30 + 0 % 256 * 2 ^ 22 =
      211106232532992 + missed * 8796093022208 + slot * 274877906944 + seq * 1073741824 := by
    simp [b2n]
  rw [descWord, hsum, wd_toNat_mod]
  exact Nat.mod_eq_of_lt (by omega)

theorem bits_of_desc {missed slot seq : Nat} (hm : missed < 2) (hs : slot < 31) (hq : seq < 256) :
    bits (211106232532992 + missed * 8796093022208 + slot * 274877906944 + seq * 1073741824) 46 2 = 3
      ∧ bits (211106232532992 + missed * 8796093022208 + slot * 274877906944 + seq * 1073741824) 38 5 = slot
      ∧ bits (211106232532992 + missed * 8796093022208 + slot * 274877906944 + seq * 1073741824) 30 8 = seq := by
  unfold bits
  omega

theorem descWord_shows {missed slot seq : Nat} (hm : missed < 2) (hs : slot < 31) (hq : seq < 256) : descShows slot seq (descWord missed slot seq 0) := by
  rw [descShows, descWord_toNat hm hs hq]
  exact bits_of_desc hm hs hq

/-- ARR of a descriptor changes nothing else of it. -/
theorem descShows_arr {slot seq : Nat} {w : Word} (h : descShows slot seq w) (v : Nat) : descShows slot seq (wd (setBits w.toNat 15 7 v)) := by
  have hw := w.isLt
  unfold descShows bits at *
  rw [wd_toNat_mod]
  unfold setBits bits
  omega

/-- The descriptor of position `j` is readable and shows the frame's first segment. -/
def DescAt (k d j slot seq : Nat) (r s : State) : Prop := ∃ w, readCode (s.raw (r.ringPlace k d (descOff j))) = .ok w ∧ descShows slot seq w

theorem DescAt.of_loft {r : State} {j slot seq : Nat} (h : DescAt k d j slot seq r s) (hl : t.loft = s.loft) : DescAt k d j slot seq r t := by
  obtain ⟨w, hw, hs⟩ := h
  exact ⟨w, by rw [ringPlace_eq, raw_of_loft hl]; exact hw, hs⟩

theorem DescAt.memWrite {r : State} {j o slot seq : Nat} (h : DescAt k d j slot seq r s) (ho : o < 4096) (hj : j < 8) (hne : descOff j ≠ o) (w : Word) :
    DescAt k d j slot seq r (memWrite (r.ringPlace k d o) w s) := by
  obtain ⟨x, hx, hs⟩ := h
  have := descOff_bounds hj
  exact ⟨x, by rw [raw_memWrite_ne rfl (ringPlace_ne (by omega) ho hne)]; exact hx, hs⟩

/-- A segment is posted as its first word arrives: its descriptor and its event. -/
structure DescPosted (k d j slot seq : Nat) (s t : State) : Prop where
  dirs : t.dirs = s.dirs
  desc : DescAt k d j slot seq s t
  event : (t.e (8 * s.fld F.epIpcfg0_STBL k + j)).ev.getLsbD 13 = true
  stbl : t.fld F.epIpcfg0_STBL k = s.fld F.epIpcfg0_STBL k

theorem inpassEvent_stbl (k j : Nat) (s : State) (i : Nat) : (inpassEvent k j s).fld F.epIpcfg0_STBL i = s.fld F.epIpcfg0_STBL i :=
  wakeStable_fld (by decide) ..

/-- The words of a descriptor are written, at the places that `r` gives, and its event is raised. -/
def descWritten (k d j : Nat) (w0 w1 w2 w3 : Word) (r s : State) : State :=
  inpassEvent k j (memWrite (r.ringPlace k d (descOff j + 3)) w3 (memWrite (r.ringPlace k d (descOff j + 2)) w2
    (memWrite (r.ringPlace k d (descOff j + 1)) w1 (memWrite (r.ringPlace k d (descOff j + 0)) w0 s))))

theorem descWritten_spec {j slot seq : Nat} {w0 : Word} (hj : j < 8) (hw : descShows slot seq w0) (w1 w2 w3 : Word) {r : State}
    (hdirs : s.dirs = r.dirs) (hstbl : s.fld F.epIpcfg0_STBL k = r.fld F.epIpcfg0_STBL k) :
    DescPosted k d j slot seq r (descWritten k d j w0 w1 w2 w3 r s) := by
  have hb := descOff_bounds hj
  have h0 : DescAt k d j slot seq r (memWrite (r.ringPlace k d (descOff j + 0)) w0 s) :=
    ⟨w0, by rw [Nat.add_zero, raw_memWrite_same rfl, readCode_sealW], hw⟩
  have h3 := ((h0.memWrite (o := descOff j + 1) (by omega) hj (by omega) w1).memWrite (o := descOff j + 2) (by omega) hj (by omega) w2).memWrite
    (o := descOff j + 3) (by omega) hj (by omega) w3
  unfold descWritten
  have hstbl' : (memWrite (r.ringPlace k d (descOff j + 3)) w3 (memWrite (r.ringPlace k d (descOff j + 2)) w2
    (memWrite (r.ringPlace k d (descOff j + 1)) w1 (memWrite (r.ringPlace k d (descOff j + 0)) w0 s)))).fld F.epIpcfg0_STBL k =
      r.fld F.epIpcfg0_STBL k := hstbl
  have hdirs' : (memWrite (r.ringPlace k d (descOff j + 3)) w3 (memWrite (r.ringPlace k d (descOff j + 2)) w2
    (memWrite (r.ringPlace k d (descOff j + 1)) w1 (memWrite (r.ringPlace k d (descOff j + 0)) w0 s)))).dirs = r.dirs := hdirs
  generalize memWrite (r.ringPlace k d (descOff j + 3)) w3 (memWrite (r.ringPlace k d (descOff j + 2)) w2
    (memWrite (r.ringPlace k d (descOff j + 1)) w1 (memWrite (r.ringPlace k d (descOff j + 0)) w0 s))) = u at h3 hstbl' hdirs' ⊢
  obtain ⟨hd, hl⟩ := inpassEvent_rest k j u
  have hev := inpassEvent_ev_same k j u
  rw [hstbl'] at hev
  exact ⟨hd.trans hdirs', h3.of_loft hl, hev, (inpassEvent_stbl ..).trans hstbl'⟩

/-- Whether the descriptor that is replaced was still VALID. -/
def missedOf (r : Rd × State) : Nat := if r.1.bad then (Config.choice r.2.fresh).toNat % 2 else bits r.1.word.toNat 47 1

/-- A descriptor that was still VALID is counted. -/
def missCounted (k d : Nat) (r : Rd × State) : State := if missedOf r = 1 then r.2.draw.2.bump F.epIpcnt_MISS k d else r.2.draw.2

/-- D1 to D3 and the event, after D0. -/
def descAfter (k d j slot : Nat) (x : RFrame) (r : Rd × State) (s : State) : State :=
  descWritten k d j (descWord (missedOf r) slot x.seq 0)
    (wd ((memWrite (s.ringPlace k d (descOff j + 0)) (descWord (missedOf r) slot x.seq 0) (missCounted k d r)).dueOf k x 0 * 2 ^ 16 + x.xres % 2 ^ 16))
    (wd x.ts.sec) (wd x.ts.nsf) s (missCounted k d r)

theorem postDesc_eq (k d : Nat) (x : RFrame) (slot j : Nat) (s : State) :
    postDesc k d x 0 slot j s = descAfter k d j slot x (memRead (s.ringPlace k d (descOff j + 0)) s) s := rfl

theorem missedOf_lt (r : Rd × State) : missedOf r < 2 := by
  unfold missedOf bits
  split_ifs <;> omega

theorem missCounted_rest (k d : Nat) (r : Rd × State) : (missCounted k d r).dirs = r.2.dirs
    ∧ (missCounted k d r).fld F.epIpcfg0_STBL k = r.2.fld F.epIpcfg0_STBL k := by
  unfold missCounted
  split_ifs
  · exact ⟨rfl, State.bump_fld_ne _ _ _ _ _ _ _ _ (by decide)⟩
  · exact ⟨rfl, rfl⟩

theorem postDesc_spec {x : RFrame} {j slot : Nat} (hj : j < 8) (hs : slot < 31) (hq : x.seq < 256) (s : State) :
    DescPosted k d j slot x.seq s (postDesc k d x 0 slot j s) := by
  rw [postDesc_eq]
  have hread := memRead_loft_rings (s.fld F.epIpcfg0_STBL k) ((14 + d) * 4096 + (descOff j + 0)) s
  have hsteady := memRead_steady (s.ringPlace k d (descOff j + 0)) s
  rw [← ringPlace_eq] at hread
  generalize memRead (s.ringPlace k d (descOff j + 0)) s = r at hread hsteady ⊢
  obtain ⟨hd, hf⟩ := missCounted_rest k d r
  exact descWritten_spec hj (descWord_shows (missedOf_lt r) hs hq) _ _ _ (hd.trans hread.dirs) (hf.trans (hsteady.fld _ (by decide) ..))

end Sys2Proof.Machine
end

section
/-! A segment is posted and time passes until its first word is there (R212, R214). -/

namespace Sys2Proof.Machine

variable {s t u : State} {k d : Nat}

/-! ### What stands while the words of a posted frame arrive -/

/-- The only frame of the rings is `y`, of which some words have arrived; what its descriptor shows and the events stand. -/
structure Arriving (k d : Nat) (y : RFrame) (told : State → Prop) (s t : State) : Prop where
  others : ∀ x ∈ allDirs, x ≠ (k, d) → (t.dir x.1 x.2).frames = []
  own : ∃ m ≤ y.words.length, t.dir k d = { s.dir k d with frames := [{ y with arrived := m }] }
  told : told t
  ev : ∀ e, (t.e e).ev = (s.e e).ev
  steady : Steady s t

/-- What a step that writes nothing of the rings keeps. -/
def LoftProp (told : State → Prop) : Prop := ∀ s t : State, t.loft = s.loft → told s → told t

/-- What the arrival of a word keeps. -/
def ArrivalProp (k d : Nat) (y : RFrame) (told : State → Prop) (s : State) : Prop :=
  ∀ t : State, Steady s t → ∀ i < y.words.length, told t → told (arriveWord k d y i t)

namespace Arriving
variable {y : RFrame} {told : State → Prop}

theorem stand (h : Arriving k d y told s t) (hlofts : LoftProp told) (hr : RingsStand t u) (hs : Steady t u) : Arriving k d y told s u where
  others x hx hne := by rw [hr.dir]; exact h.others x hx hne
  own := by
    obtain ⟨m, hm, he⟩ := h.own
    exact ⟨m, hm, (hr.dir k d).trans he⟩
  told := hlofts t u hr.loft h.told
  ev e := (hr.ev e).trans (h.ev e)
  steady := h.steady.trans hs

theorem dir_ne {x : Nat × Nat} (hx : x ∈ allDirs) (hd : d < 2) (hne : x ≠ (k, d)) : 2 * x.1 + x.2 ≠ 2 * k + d := by
  have hall : ∀ x ∈ allDirs, x.2 < 2 := by decide
  have := hall x hx
  intro h
  exact hne (Prod.ext (by omega) (by omega))

theorem dir_setDir_ne {k' d' : Nat} (h : 2 * k' + d' ≠ 2 * k + d) (s : State) (x : DirS) : (s.setDir k d x).dir k' d' = s.dir k' d' :=
  Tab.get_set_ne _ _ _ _ _ _ h

theorem arrivals_told (harr : ArrivalProp k d y told s) {m : Nat} (ht : Steady s t) (h : told t) (a n : Nat)
    (hn : a + n ≤ y.words.length) : told (arrivals k d { y with arrived := m } a n t) := by
  induction n with
  | zero => exact h
  | succ n ih =>
    rw [arrivals_succ]
    exact harr _ (ht.trans (arrivals_steady ..)) (a + n) (by omega) (ih (by omega))

theorem of_ite {c : Prop} [Decidable c] {a b : State} (ha : Arriving k d y told s a) (hb : Arriving k d y told s b) :
    Arriving k d y told s (if c then a else b) := by
  split
  · exact ha
  · exact hb

/-- The words that have arrived are settled. -/
theorem settle (h : Arriving k d y told s t) (hlofts : LoftProp told) (harr : ArrivalProp k d y told s) (hfin : y.fin = none) (hd : d < 2)
    {x : Nat × Nat} (hx : x ∈ allDirs) : Arriving k d y told s (settleDir x.1 x.2 t) := by
  by_cases hne : x = (k, d)
  · obtain ⟨m, hm, hown⟩ := h.own
    rw [hne]
    dsimp only
    have hframes : (t.dir k d).frames = [{ y with arrived := m }] := by rw [hown]
    rw [settleDir_of_one hframes]
    have hle : t.arrivedBy k { y with arrived := m } ≤ y.words.length := by
      unfold State.arrivedBy
      rw [hfin]
      exact Nat.min_le_left ..
    generalize t.arrivedBy k { y with arrived := m } = n at hle ⊢
    dsimp only
    split_ifs with hmore
    · exact h
    · have hsteady := arrivals_steady k d { y with arrived := m } m (n - m) t
      have htold := arrivals_told harr (m := m) h.steady h.told m (n - m) (by omega)
      obtain ⟨hdirs, hev⟩ := arrivals_stand k d { y with arrived := m } m (n - m) t
      generalize arrivals k d { y with arrived := m } m (n - m) t = v at hsteady htold hdirs hev ⊢
      refine ⟨fun z hz hzne => ?_, ⟨n, hle, ?_⟩, hlofts v _ rfl htold, fun e => (hev e).trans (h.ev e), h.steady.trans (hsteady.setDir ..)⟩
      · rw [dir_setDir_ne (dir_ne hz hd hzne), State.dir, hdirs]
        exact h.others z hz hzne
      · rw [frames_setDir, hown]
  · rw [settleDir_of_none (h.others x hx hne)]
    exact h

theorem settleList (h : Arriving k d y told s t) (hlofts : LoftProp told) (harr : ArrivalProp k d y told s) (hfin : y.fin = none) (hd : d < 2)
    (l : List (Nat × Nat)) (hl : ∀ x ∈ l, x ∈ allDirs) : Arriving k d y told s (l.foldl (fun s x => settleDir x.1 x.2 s) t) := by
  induction l generalizing t with
  | nil => exact h
  | cons x l ih => exact ih (h.settle hlofts harr hfin hd (hl x List.mem_cons_self)) fun z hz => hl z (List.mem_cons_of_mem _ hz)

theorem settleAll (h : Arriving k d y told s t) (hlofts : LoftProp told) (harr : ArrivalProp k d y told s) (hfin : y.fin = none) (hd : d < 2)
    : Arriving k d y told s (settleAll t) := by
  unfold Machine.settleAll
  split_ifs
  · exact h
  · exact settleList h hlofts harr hfin hd allDirs fun _ hx => hx

/-- Time passes. -/
theorem passTicks (h : Arriving k d y told s t) (hlofts : LoftProp told) (harr : ArrivalProp k d y told s) (hfin : y.fin = none) (hd : d < 2)
    (n : Nat) : Arriving k d y told s (passTicks n t) := by
  unfold Machine.passTicks
  refine .of_ite h ?_
  extract_lets v secs b w x
  have hv : Arriving k d y told s v := .of_ite (h.stand hlofts (noteIdle_rings t) (noteIdle_steady t)) h
  have hw : Arriving k d y told s w := hv.stand hlofts (.of_eng rfl rfl rfl) (.of_still rfl)
  have hx : Arriving k d y told s x := .of_ite hw (hw.stand hlofts (.bump ..) ((Steady.refl w).bump (by decide) ..))
  clear_value x
  refine .of_ite ?_ hx
  refine settleAll (stand ?_ hlofts (engineTime_rings n _) (engineTime_steady n _)) hlofts harr hfin hd
  exact stand hx hlofts (.foldl (.refl x) (fun _ _ => .setCtr ..) _) (.foldl (.refl x) (fun s _ => (Steady.refl s).setCtr ..) _)

end Arriving

/-! ### A segment's words leave what its descriptor shows -/

theorem loftProp_true : LoftProp fun _ => True := fun _ _ _ _ => trivial

theorem arrivalProp_true (k d : Nat) (y : RFrame) (s : State) : ArrivalProp k d y (fun _ => True) s := fun _ _ _ _ _ => trivial

theorem loftProp_descAt (k d j slot seq : Nat) (r : State) : LoftProp (DescAt k d j slot seq r) := fun _ _ hl h => h.of_loft hl

/-- The arrival of a word is counted in ARR of the descriptor. -/
theorem arrivalProp_descAt {y : RFrame} {g j seq : Nat} (hone : OneSegment y g (some j)) {r : State}
    (hr : ∀ o, s.ringPlace k d o = r.ringPlace k d o) : ArrivalProp k d y (DescAt k d j g seq r) s := by
  intro t ht i hi h
  have hslot := hone.slot
  have hwords := hone.words
  have hj := hone.place j rfl
  have hb := descOff_bounds hj
  have hoff := hone.wordOff_eq hi
  have hplace : ∀ o, t.ringPlace k d o = r.ringPlace k d o := fun o => (ht.ringPlace k d o).trans (hr o)
  have hput : DescAt k d j g seq r (memWrite (t.ringPlace k d (wordOff y i)) (y.words.getD i 0) t) := by
    rw [hplace, hoff]
    exact h.memWrite (by omega) hj (by omega) _
  have hp : (memWrite (t.ringPlace k d (wordOff y i)) (y.words.getD i 0) t).ringPlace k d (descOff j) = r.ringPlace k d (descOff j) := hplace _
  have harr : arriveWord k d y i t = onDesc k d y (i / 64) (fun w => setBits w 15 7 (i % 64 + 1))
    (memWrite (t.ringPlace k d (wordOff y i)) (y.words.getD i 0) t) := rfl
  rw [harr]
  generalize memWrite (t.ringPlace k d (wordOff y i)) (y.words.getD i 0) t = u at hput hp
  unfold onDesc
  rw [hone.desc_eq hi]
  dsimp only
  rw [hp]
  split_ifs
  · obtain ⟨w, hw, hshow⟩ := hput
    unfold memUpdate
    rw [memRead_ok hw]
    exact ⟨_, by rw [raw_memWrite_same rfl, readCode_sealW], descShows_arr hshow _⟩
  · exact hput

end Sys2Proof.Machine
end

section
/-! Frames pass through the ring of an in-passing pair (R208, R211, R212, R214, R215, R216). -/

namespace Sys2Proof.Machine

variable {s t u : State} {k d : Nat}

/-! ### A new frame -/

/-- A frame of which nothing has been posted. -/
structure Fresh (x : RFrame) (seq : Nat) : Prop where
  slots : x.slots = []
  poss : x.poss = []
  words : x.words = []
  arrived : x.arrived = 0
  fin : x.fin = none
  seq_eq : x.seq = seq

theorem newFrame_fresh (k d sub : Nat) (s : State) : Fresh (newFrame k d sub s).1 (s.dir k d).seq := by
  unfold newFrame
  dsimp only [State.draw]
  split_ifs <;> exact ⟨rfl, rfl, rfl, rfl, rfl, rfl⟩

theorem newFrame_state (k d sub : Nat) (s : State) :
    (newFrame k d sub s).2 = s.draw.2.setDir k d { s.dir k d with seq := ((newFrame k d sub s).1.seq + 1) % 256 } := rfl

/-- The frame with its first segment. -/
def firstSegment (x : RFrame) (ws : List Word) (slot : Nat) (o : Option Nat) : RFrame :=
  { x with slots := x.slots ++ [slot], poss := x.poss ++ [o], words := x.words ++ ws }

/-- The frame takes its slot. -/
def slotPosted (k d : Nat) (x : RFrame) (ws : List Word) (u : State) : State :=
  u.setDir k d { u.dir k d with
    slot := ((u.dir k d).slot + 1) % 31
    frames := (u.dir k d).frames ++ [firstSegment x ws (u.dir k d).slot
      (if u.pairRuns k then some (nextMember (u.relayGroup k d) (u.fld (nextFld d) k)) else none)] }

/-- The next relay position is told. -/
def segmentTold (k d : Nat) (x : RFrame) (ws : List Word) (u : State) : State :=
  let j := nextMember (u.relayGroup k d) (u.fld (nextFld d) k)
  let v := slotPosted k d x ws u
  if u.pairRuns k then postDesc k d x x.slots.length (u.dir k d).slot j (v.put (nextFld d) (nextMember (v.relayGroup k d) (j + 1)) k) else v

/-- The tick at which the first word of a segment is there. -/
def wordTick (k : Nat) (x : RFrame) (u : State) : Nat := (x.tin + (6 * 64 * x.slots.length + 6) * u.bytePs k + 8000 + 3999) / 4000

theorem segmentPost_new {ws : List Word} {sub : Nat} (hin : s.inPassing k d = true) (hlink : s.fld F.epStat_LINK (s.ingress k d) ≠ 0)
    (h1 : 1 ≤ ws.length) (h64 : ws.length ≤ 64) (hframes : (s.dir k d).frames = []) :
    segmentPost k d ws sub s =
      settleDir k d (passTo (wordTick k (newFrame k d sub s).1 (newFrame k d sub s).2)
        (segmentTold k d (newFrame k d sub s).1 ws (newFrame k d sub s).2)) := by
  have hopen : (s.dir k d).frames.findIdx? (·.fin.isNone) = none := by
    rw [hframes]
    rfl
  have hgo : (!s.inPassing k d || decide (ws = []) || decide (ws.length > 64) || !s.on F.epStat_LINK (s.ingress k d)) = false := by
    rw [hin, State.on_eq_true.2 hlink, decide_eq_false (by omega : ¬ ws.length > 64),
      decide_eq_false (by rintro rfl; exact absurd h1 (by decide) : ¬ ws = [])]
    rfl
  have hfresh := newFrame_fresh k d sub s
  unfold segmentPost
  rw [hgo, if_neg Bool.false_ne_true, hopen]
  dsimp only
  rw [if_neg (by rw [hfresh.words, hfresh.slots]; decide)]
  rfl

theorem nextMember_lt (g j : Nat) : nextMember g j < 8 := by
  unfold nextMember
  cases h : ((List.range 8).map fun i => (j + i) % 8).find? g.testBit with
  | none => decide
  | some i =>
    have hmem := List.mem_of_find?_eq_some h
    obtain ⟨m, -, rfl⟩ := List.mem_map.1 hmem
    exact Nat.mod_lt _ (by decide)

theorem firstSegment_one {x : RFrame} {seq : Nat} (hx : Fresh x seq) {ws : List Word} (hws : ws.length ≤ 64) {slot : Nat} (hs : slot < 31)
    {o : Option Nat} (ho : ∀ j, o = some j → j < 8) : OneSegment (firstSegment x ws slot o) slot o where
  slots := by rw [firstSegment, hx.slots]; rfl
  poss := by rw [firstSegment, hx.poss]; rfl
  words := by rw [firstSegment, hx.words]; exact hws
  slot := hs
  place := ho

/-- The rings before a segment's words arrive: one frame in the direction, nothing elsewhere. -/
structure OnlyFrame (k d : Nat) (y : RFrame) (slot seq : Nat) (s t : State) : Prop where
  others : ∀ x ∈ allDirs, x ≠ (k, d) → (t.dir x.1 x.2).frames = []
  own : (t.dir k d).frames = [y]
  slot : (t.dir k d).slot = slot
  seq : (t.dir k d).seq = seq
  place : ∀ o, t.ringPlace k d o = s.ringPlace k d o

/-- Time passes until a segment's first word is there, and what has arrived is settled. -/
theorem onlyFrame_settled {y : RFrame} {slot seq : Nat} {told : State → Prop} (h : OnlyFrame k d y slot seq s t) (hzero : y.arrived = 0)
    (hfin : y.fin = none) (hlofts : LoftProp told) (harr : ArrivalProp k d y told t) (htold : told t) (hk : k < 4) (hd : d < 2) (n : Nat) :
    Arriving k d y told t (settleDir k d (passTo n t)) := by
  have hstart : Arriving k d y told t t := by
    refine ⟨h.others, ⟨0, Nat.zero_le _, ?_⟩, htold, fun _ => rfl, .refl t⟩
    have hy : { y with arrived := 0 } = y := by rw [← hzero]
    rw [hy, ← h.own]
  have hmem : (k, d) ∈ allDirs := by
    interval_cases k <;> interval_cases d <;> decide
  exact (hstart.passTicks hlofts harr hfin hd (n - t.tick)).settle hlofts harr hfin hd hmem

theorem slotPosted_only {ws : List Word} (hnone : ∀ x ∈ allDirs, (s.dir x.1 x.2).frames = []) (hk : k < 4) (hd : d < 2)
    {x : RFrame} {v : State} (hx : x.seq = (s.dir k d).seq) (hv : v = s.draw.2.setDir k d { s.dir k d with seq := (x.seq + 1) % 256 }) :
    OnlyFrame k d (firstSegment x ws (s.dir k d).slot (if s.pairRuns k then some (nextMember (s.relayGroup k d) (s.fld (nextFld d) k)) else none))
      (((s.dir k d).slot + 1) % 31) (((s.dir k d).seq + 1) % 256) s (slotPosted k d x ws v) := by
  have hmem : (k, d) ∈ allDirs := by
    interval_cases k <;> interval_cases d <;> decide
  have hvdir : v.dir k d = { s.dir k d with seq := (x.seq + 1) % 256 } := by rw [hv, frames_setDir]
  have hruns : v.pairRuns k = s.pairRuns k := by rw [hv]; rfl
  have hgroup : v.relayGroup k d = s.relayGroup k d := by rw [hv]; rfl
  have hnext : v.fld (nextFld d) k = s.fld (nextFld d) k := by rw [hv]; rfl
  have hplace : ∀ o, v.ringPlace k d o = s.ringPlace k d o := fun o => by rw [hv]; rfl
  have hother : ∀ z ∈ allDirs, z ≠ (k, d) → (v.dir z.1 z.2).frames = [] := fun z hz hne => by
    rw [hv, Arriving.dir_setDir_ne (Arriving.dir_ne hz hd hne)]
    exact hnone z hz
  unfold slotPosted
  rw [hvdir, hruns, hgroup, hnext]
  refine ⟨fun z hz hne => ?_, ?_, ?_, ?_, fun o => hplace o⟩
  · rw [Arriving.dir_setDir_ne (Arriving.dir_ne hz hd hne)]
    exact hother z hz hne
  · rw [frames_setDir, hnone _ hmem]
    rfl
  · rw [frames_setDir]
  · rw [frames_setDir, hx]

/-- What a first segment leaves of its direction. -/
structure SegmentIn (k d : Nat) (ws : List Word) (s t : State) : Prop where
  words : (t.dir k d).frames.map (·.words) = [ws]
  slot : (t.dir k d).slot = ((s.dir k d).slot + 1) % 31
  seq : (t.dir k d).seq = ((s.dir k d).seq + 1) % 256

theorem segmentIn_of_arriving {y : RFrame} {ws : List Word} {told : State → Prop} (hy : y.words = ws)
    (h : OnlyFrame k d y (((s.dir k d).slot + 1) % 31) (((s.dir k d).seq + 1) % 256) s t) (ha : Arriving k d y told t u) : SegmentIn k d ws s u := by
  obtain ⟨m, -, hown⟩ := ha.own
  exact ⟨by rw [hown]; simp [hy], by rw [hown]; exact h.slot, by rw [hown]; exact h.seq⟩

/-- While the pair's function runs the descriptor shows the segment and the engine has its event. -/
theorem segment_told {ws : List Word} {sub : Nat} (hin : s.inPassing k d = true) (hlink : s.fld F.epStat_LINK (s.ingress k d) ≠ 0)
    (h1 : 1 ≤ ws.length) (h64 : ws.length ≤ 64) (hnone : ∀ x ∈ allDirs, (s.dir x.1 x.2).frames = []) (hk : k < 4) (hd : d < 2)
    (hslot : (s.dir k d).slot < 31) (hseq : (s.dir k d).seq < 256) (hrun : s.pairRuns k = true) :
    SegmentIn k d ws s (segmentPost k d ws sub s)
      ∧ DescAt k d (nextMember (s.relayGroup k d) (s.fld (nextFld d) k)) (s.dir k d).slot (s.dir k d).seq s (segmentPost k d ws sub s)
      ∧ ((segmentPost k d ws sub s).e (8 * s.fld F.epIpcfg0_STBL k + nextMember (s.relayGroup k d) (s.fld (nextFld d) k))).ev.getLsbD 13 = true := by
  have hmem : (k, d) ∈ allDirs := by
    interval_cases k <;> interval_cases d <;> decide
  have hfresh := newFrame_fresh k d sub s
  have hstate := newFrame_state k d sub s
  rw [segmentPost_new hin hlink h1 h64 (hnone _ hmem)]
  generalize wordTick k (newFrame k d sub s).1 (newFrame k d sub s).2 = n
  generalize (newFrame k d sub s).1 = x at hfresh hstate ⊢
  generalize (newFrame k d sub s).2 = v at hstate ⊢
  have honly := slotPosted_only (ws := ws) hnone hk hd hfresh.seq_eq hstate
  have hj := nextMember_lt (s.relayGroup k d) (s.fld (nextFld d) k)
  rw [hrun, if_pos rfl] at honly
  have hone := firstSegment_one hfresh h64 hslot (o := some (nextMember (s.relayGroup k d) (s.fld (nextFld d) k))) (fun j h => by cases h; exact hj)
  have hruns : v.pairRuns k = true := by rw [hstate]; exact hrun
  have hgroup : v.relayGroup k d = s.relayGroup k d := by rw [hstate]; rfl
  have hnext : v.fld (nextFld d) k = s.fld (nextFld d) k := by rw [hstate]; rfl
  have hvslot : (v.dir k d).slot = (s.dir k d).slot := by rw [hstate, frames_setDir]
  unfold segmentTold
  rw [hruns, if_pos rfl, hgroup, hnext, hvslot]
  have hvstbl : v.fld F.epIpcfg0_STBL k = s.fld F.epIpcfg0_STBL k := by rw [hstate]; rfl
  have hlen : x.slots.length = 0 := by rw [hfresh.slots, List.length_nil]
  rw [hlen]
  generalize nextMember (s.relayGroup k d) (s.fld (nextFld d) k) = j at *
  generalize hw : (slotPosted k d x ws v).put (nextFld d) (nextMember ((slotPosted k d x ws v).relayGroup k d) (j + 1)) k = w
  have hwstbl : w.fld F.epIpcfg0_STBL k = s.fld F.epIpcfg0_STBL k := by
    rw [← hw, State.put_fld_ne]
    · exact hvstbl
    · unfold nextFld
      split_ifs <;> decide
  have hwdirs : w.dirs = (slotPosted k d x ws v).dirs := by rw [← hw]; rfl
  have hpost := postDesc_spec (k := k) (d := d) (x := x) (slot := (s.dir k d).slot) hj hslot (by rw [hfresh.seq_eq]; exact hseq) w
  generalize postDesc k d x 0 (s.dir k d).slot j w = p at hpost ⊢
  have hdir : ∀ a b, p.dir a b = (slotPosted k d x ws v).dir a b := fun a b => by
    rw [State.dir, hpost.dirs, hwdirs, State.dir]
  have hplace : ∀ o, p.ringPlace k d o = s.ringPlace k d o := fun o => by
    rw [ringPlace_eq, hpost.stbl, hwstbl, ringPlace_eq]
  have hponly : OnlyFrame k d (firstSegment x ws (s.dir k d).slot (some j)) (((s.dir k d).slot + 1) % 31) (((s.dir k d).seq + 1) % 256) s p :=
    ⟨fun z hz hne => by rw [hdir]; exact honly.others z hz hne, by rw [hdir]; exact honly.own, by rw [hdir]; exact honly.slot,
      by rw [hdir]; exact honly.seq, hplace⟩
  have hdesc : DescAt k d j (s.dir k d).slot (s.dir k d).seq s p := by
    obtain ⟨w0, hw0, hshow⟩ := hpost.desc
    rw [ringPlace_eq, hwstbl, ← ringPlace_eq] at hw0
    rw [hfresh.seq_eq] at hshow
    exact ⟨w0, hw0, hshow⟩
  have harr := onlyFrame_settled hponly hfresh.arrived hfresh.fin (loftProp_descAt k d j _ _ s) (arrivalProp_descAt hone hplace) hdesc hk hd n
  refine ⟨segmentIn_of_arriving ?_ hponly harr, harr.told, ?_⟩
  · rw [firstSegment, hfresh.words, List.nil_append]
  · rw [harr.ev, ← hwstbl]
    exact hpost.event

/-- While the pair's function does not run nothing is told. -/
theorem segment_untold {ws : List Word} {sub : Nat} (hin : s.inPassing k d = true) (hlink : s.fld F.epStat_LINK (s.ingress k d) ≠ 0)
    (h1 : 1 ≤ ws.length) (h64 : ws.length ≤ 64) (hnone : ∀ x ∈ allDirs, (s.dir x.1 x.2).frames = []) (hk : k < 4) (hd : d < 2)
    (hrun : s.pairRuns k = false) :
    SegmentIn k d ws s (segmentPost k d ws sub s)
      ∧ (segmentPost k d ws sub s).fld (nextFld d) k = s.fld (nextFld d) k
      ∧ ∀ e, ((segmentPost k d ws sub s).e e).ev = (s.e e).ev := by
  have hmem : (k, d) ∈ allDirs := by
    interval_cases k <;> interval_cases d <;> decide
  have hfresh := newFrame_fresh k d sub s
  have hstate := newFrame_state k d sub s
  rw [segmentPost_new hin hlink h1 h64 (hnone _ hmem)]
  generalize wordTick k (newFrame k d sub s).1 (newFrame k d sub s).2 = n
  generalize (newFrame k d sub s).1 = x at hfresh hstate ⊢
  generalize (newFrame k d sub s).2 = v at hstate ⊢
  have honly := slotPosted_only (ws := ws) hnone hk hd hfresh.seq_eq hstate
  have hruns : v.pairRuns k = false := by rw [hstate]; exact hrun
  have hfld : ∀ f i, (slotPosted k d x ws v).fld f i = s.fld f i := fun f i => by rw [slotPosted, hstate]; rfl
  have hev : ∀ e, ((slotPosted k d x ws v).e e).ev = (s.e e).ev := fun e => by rw [slotPosted, hstate]; rfl
  unfold segmentTold
  rw [hruns, if_neg Bool.false_ne_true]
  rw [hrun, if_neg Bool.false_ne_true] at honly
  generalize slotPosted k d x ws v = w at honly hfld hev ⊢
  have harr := onlyFrame_settled honly hfresh.arrived hfresh.fin loftProp_true (arrivalProp_true k d _ w) trivial hk hd n
  refine ⟨segmentIn_of_arriving ?_ honly harr, ?_, fun e => (harr.ev e).trans (hev e)⟩
  · rw [firstSegment, hfresh.words, List.nil_append]
  · refine (harr.steady.fld _ ?_ ..).trans (hfld ..)
    unfold nextFld
    split_ifs <;> decide

/-- A direction that is not in passing posts nothing. -/
theorem segmentPost_of_not_passing {ws : List Word} {sub : Nat} (h : s.inPassing k d = false) : segmentPost k d ws sub s = s := by
  unfold segmentPost
  rw [h]
  rfl

theorem egressStart_of_started {n : Nat} {x : RFrame} (h : s.egressNext k d = some (n, x)) (hs : x.started = true) : egressStart k d s = s := by
  unfold egressStart
  rw [h]
  exact if_pos hs

theorem slipped_counted (k d : Nat) (s : State) :
    (slipped k d s).fld F.epIpcnt_SLIP k d = min (s.fld F.epIpcnt_SLIP k d + 1) (2 ^ F.epIpcnt_SLIP.width - 1) :=
  (State.put_fld_ne _ _ _ _ _ _ _ _ (show F.epIpcnt_SLIP.id ≠ F.epIpstat_SLEV.id by decide)).trans (State.bump_fld ..)

theorem slipped_shown (k d : Nat) (s : State) : (slipped k d s).fld F.epIpstat_SLEV k = 1 := (State.put_fld ..).trans (by decide)

theorem framesPassThroughTheRing : Stated.FramesPassThroughTheRing := by
  intro s k d
  refine ⟨fun ws sub hin => ?_, fun ws sub hin hlink h1 h64 hnone hslot hseq => ?_, fun len hall bad => ?_,
    fun len g j x hframes hfin hgone hstarted hslots hg hposs hj hue hrun harr hwords hlen => ?_, fun n x hnext => ⟨fun hs hdue hshort => ?_, ?_, fun hs => ?_, fun i => ?_⟩⟩
  · exact does_eq rfl (segmentPost_of_not_passing hin)
  · refine does_next rfl ?_
    dsimp only
    simp only [notify_raw, State.notify_dir_get, State.notify_fld_get, State.notify_e_get]
    cases hrun : s.pairRuns k with
    | true =>
      obtain ⟨hseg, ⟨w, hw, hvalid, hsl, hsq⟩, hev⟩ := segment_told (ws := ws) (sub := sub) hin hlink h1 h64 hnone k.isLt d.isLt hslot hseq hrun
      refine ⟨hseg.words, hseg.slot, hseg.seq, fun _ => ?_, fun hnot => absurd (beq_iff_eq.1 hrun) hnot⟩
      rw [hw]
      exact ⟨hvalid, hsl, hsq, hev⟩
    | false =>
      obtain ⟨hseg, hfld, hev⟩ := segment_untold (ws := ws) (sub := sub) hin hlink h1 h64 hnone k.isLt d.isLt hrun
      refine ⟨hseg.words, hseg.slot, hseg.seq, fun hyes => ?_, fun _ => ⟨hfld, by rw [hev]⟩⟩
      rw [State.pairRuns, hyes] at hrun
      cases hrun
  · exact does_eq rfl (relayEnd_of_ended len bad hall)
  · refine does_next rfl ?_
    simp only [notify_raw, State.notify_dir_get, State.notify_e_get]
    exact frameEnds hframes hfin hgone hstarted ⟨hslots, hposs, hwords, hg, fun i hi => by cases hi; exact hj⟩ hue harr hrun hlen
  · refine ⟨fun hdown => ?_, fun hup hslip => ?_, fun hup hslip => ?_⟩
    · refine does_next rfl ?_
      simp only [State.notify_fld_get, State.notify_eng, State.notify_loft]
      exact egressStart_of_down hnext hs hdue hdown
    · refine does_eq rfl ((egressStart_of_up hnext hs hdue hup hslip).trans ?_)
      obtain ⟨hx, hgone⟩ := egressNext_spec hnext
      exact relayFinish_of_short (x := { x with started := true }) (getElem_set_started hx _ _ (by rw [frames_setDir])) hgone hshort
    · refine does_next rfl ?_
      simp only [State.notify_fld_get, State.notify_dir_get]
      rw [egressStart_of_slip hnext hs hdue hup hslip hshort]
      exact ⟨slipped_counted k d s, slipped_shown k d s, by rw [frames_setDir]⟩
  · intro len hs hdue hup hslip hfin hall hframes
    have hn : n = 0 := by
      have hx := (egressNext_spec hnext).1
      rw [hframes] at hx
      have := (List.getElem?_eq_some_iff.1 hx).1
      simpa using this
    subst hn
    refine does_next rfl ?_
    simp only [State.notify_dir_get, State.notify_eng, State.notify_loft]
    obtain ⟨hout, hrest⟩ := egressStart_of_whole hnext hs hdue hup hslip hfin hall hframes
    exact ⟨hout.trans (out_isPrefix_notify ..), hrest⟩
  · exact does_eq rfl (egressStart_of_started hnext hs)
  · refine ⟨fun hi => does_eq rfl (wordLatch_of_other hnext hi), fun v hi hlt hfin hup hdue hword => ?_⟩
    exact does_eq rfl (wordLatch_of_arriving hnext hi hlt hfin hup hdue hword)

end Sys2Proof.Machine
end

section
/-! Obligation O43: the window of an in-passing pair (R209, R210, R215, R217), and the obligation. -/

namespace Sys2Proof.Machine

variable {s t u : State} {k d : Nat} {w : Who}

theorem does_window {o : Fin 4096} {k : Fin 4} {v : Word} {P : State → Prop} (hh : s.heard w = true) (ha : s.applied = true)
    (hP : P (notify s (finish w (windowWrite w k o v s)))) : Does (.inpassWindowWrite w k o v) s P :=
  does_next (u := finish w (windowWrite w k o v s)) (congrArg (done s) (blockAccess_of_heard hh ha _)) hP

theorem does_descClear {k : Fin 4} {d : Fin 2} {j : Fin 8} {P : State → Prop} (hh : s.heard w = true) (ha : s.applied = true)
    (hP : P (notify s (finish w (windowWrite w k (0x800 * d + descOff j) 0 s)))) : Does (.inpassDescriptorClear w k d j) s P :=
  does_next (u := finish w (windowWrite w k (0x800 * d + descOff j) 0 s)) (congrArg (done s) (blockAccess_of_heard hh ha _)) hP

/-! ### Accesses that are refused (R137, R140, R209, R210) -/

theorem windowWrite_of_denied {o : Nat} {a : Ans} (h : windowDenied w k o (windowWait w k o s) = some a) (v : Word) : windowWrite w k o v s = a := by
  unfold windowWrite
  dsimp only
  rw [h]

theorem windowWrite_of_stopped {o : Nat} (h : windowDenied w k o (windowWait w k o s) = none)
    (hf : (windowWait w k o s).fnState ((windowWait w k o s).fld F.epIpcfg0_FN k) ≠ 2) (v : Word) :
    windowWrite w k o v s = denied (windowWait w k o s) 1 := by
  unfold windowWrite
  dsimp only
  rw [h]
  exact if_pos hf

theorem windowWait_of_off {o : Nat} (h : s.fld F.epIpcfg0_EN k = 0) : windowWait w k o s = s := by
  rw [windowWait, State.on_eq_false.2 h]
  rfl

theorem windowDenied_of_off {o : Nat} (h : s.fld F.epIpcfg0_EN k = 0) : windowDenied w k o s = some { disp := 9, det := 1, cls := 6, st := s } := by
  unfold windowDenied
  exact if_pos (by rw [State.on_eq_false.2 h]; rfl)

/-- An engine's access: it is the pair's, and its function may use the bank. -/
theorem windowDenied_of_engine {e : Fin 128} {o : Nat} (hon : s.fld F.epIpcfg0_EN k ≠ 0) (hsup : s.supervisor (.engine e) = false) :
    windowDenied (.engine e) k o s =
      if e.val / 8 = s.fld F.epIpcfg0_STBL k ∧ s.engFn e = s.fld F.epIpcfg0_FN k then
        (if s.mayLoft (.engine e) (s.fld F.epIpcfg0_STBL k) (windowBank o) then none else some (denied (countDeny (s.fld F.epIpcfg0_STBL k) s) 1))
      else some (denied s 1) := by
  rw [windowDenied, State.on_eq_true.2 hon, hsup]
  rfl

/-! ### Words of a posted segment (R217) -/

theorem windowWrite_of_ring {o r d' : Nat} (h : windowDenied w k o (windowWait w k o s) = none)
    (hf : (windowWait w k o s).fnState ((windowWait w k o s).fld F.epIpcfg0_FN k) = 2) (ho : o = 2048 * d' + r) (hr : r < 0x7C0) (v : Word) :
    windowWrite w k o v s = { st := ringWrite w k d' r v (windowWait w k o s) } := by
  have hdiv : o / 0x800 = d' := by omega
  have hmod : o % 0x800 = r := by omega
  unfold windowWrite
  dsimp only
  rw [h, hdiv, hmod]
  dsimp only
  rw [if_neg (not_not.2 hf), if_pos hr]

theorem ringWrite_of_arrived {r g : Nat} {x : RFrame} (h : s.slotHolder k d (r / 64) = some (x, g)) (hlate : x.egress.length ≤ 64 * g + r % 64)
    (harr : 64 * g + r % 64 < x.arrived) (hwords : x.arrived ≤ x.words.length) (v : Word) :
    ringWrite w k d r v s = memWrite (s.ringPlace k d r) v s := by
  unfold ringWrite
  rw [h]
  dsimp only
  have hgo : (decide (64 * g + r % 64 < x.egress.length) || decide (64 * g + r % 64 ≥ x.words.length)) = false := by
    simp
    omega
  rw [hgo, if_neg Bool.false_ne_true, if_neg (by omega)]

theorem ringWrite_of_no_holder {r : Nat} (h : s.slotHolder k d (r / 64) = none) (v : Word) : ringWrite w k d r v s = lateWrite w k d 0 (r % 64) s := by
  unfold ringWrite
  rw [h]

/-- A late write is counted and shown. -/
structure LateShown (k d : Nat) (s t : State) : Prop where
  count : t.fld F.epIpcnt_LATEW k d = min (s.fld F.epIpcnt_LATEW k d + 1) (2 ^ F.epIpcnt_LATEW.width - 1)
  event : t.fld F.epIpstat_LWEV k = 1
  loft : t.loft = s.loft
  eng : t.eng = s.eng

theorem LateShown.put (h : LateShown k d s t) {f : Fld} (h1 : F.epIpcnt_LATEW.id ≠ f.id) (h2 : F.epIpstat_LWEV.id ≠ f.id) (v i j : Nat) :
    LateShown k d s (t.put f v i j) :=
  ⟨(State.put_fld_ne _ _ _ _ _ _ _ _ h1).trans h.count, (State.put_fld_ne _ _ _ _ _ _ _ _ h2).trans h.event, h.loft, h.eng⟩

theorem lateCounted (k d : Nat) (s : State) : LateShown k d s ((s.bump F.epIpcnt_LATEW k d).put F.epIpstat_LWEV 1 k) where
  count := (State.put_fld_ne _ _ _ _ _ _ _ _ (show F.epIpcnt_LATEW.id ≠ F.epIpstat_LWEV.id by decide)).trans (State.bump_fld ..)
  event := (State.put_fld ..).trans (by decide)
  loft := rfl
  eng := rfl

theorem lateWrite_shown (w : Who) (k d seq i : Nat) (s : State) : LateShown k d s (lateWrite w k d seq i s) := by
  have h := lateCounted k d s
  unfold lateWrite
  dsimp only
  generalize (s.bump F.epIpcnt_LATEW k d).put F.epIpstat_LWEV 1 k = u at h
  split_ifs
  · exact h
  · exact ((((h.put (by decide) (by decide) ..).put (by decide) (by decide) ..).put (by decide) (by decide) ..).put (by decide) (by decide) ..).put
      (by decide) (by decide) ..

/-! ### VALID of a descriptor (R215) -/

/-- A write of D0 of a descriptor through the window. -/
theorem windowWrite_of_desc {o r d' j : Nat} (h : windowDenied w k o (windowWait w k o s) = none)
    (hf : (windowWait w k o s).fnState ((windowWait w k o s).fld F.epIpcfg0_FN k) = 2) (ho : o = 2048 * d' + r) (hj : j < 8) (hr : r = descOff j)
    (v : Word) : windowWrite w k o v s =
      { disp := (memUpdate ((windowWait w k o s).ringPlace k d' r) (fun u => wd (setBits u.toNat 47 1 (bits v.toNat 47 1))) (windowWait w k o s)).1
        det := 1
        st := (memUpdate ((windowWait w k o s).ringPlace k d' r) (fun u => wd (setBits u.toNat 47 1 (bits v.toNat 47 1))) (windowWait w k o s)).2 } := by
  have hb := descOff_bounds hj
  have hdiv : o / 0x800 = d' := by omega
  have hmod : o % 0x800 = r := by omega
  have hfour : r % 4 = 0 := by
    rw [hr, descOff]
    omega
  unfold windowWrite
  dsimp only
  rw [h, hdiv, hmod]
  dsimp only
  rw [if_neg (not_not.2 hf), if_neg (by omega), if_pos ⟨by omega, hfour⟩]

theorem memUpdate_of_ok {a : SramWord} {x : Word} (h : readCode (s.raw a) = .ok x) (f : Word → Word) : memUpdate a f s = (0, memWrite a (f x) s) := by
  unfold memUpdate
  rw [memRead_ok h]

theorem bump_eng (s : State) (f : Fld) (i j n : Nat) : (s.bump f i j n).eng = s.eng := rfl
theorem memLog_eng (n wh eng a : Nat) (syn : BitVec 8) (s : State) : (memLog n wh eng a syn s).eng = s.eng := rfl

theorem countUE_loft_eng (n a : Nat) (y : BitVec 8) (s : State) : (countUE (loftPlace n a) y s).eng = s.eng := by
  unfold countUE
  extract_lets b w t
  split
  · exact (LogKeeps.logRecord ..).eng.trans ((memLog_eng ..).trans (bump_eng ..))
  · next hnone => cases hnone

/-- A partial write of an uncorrectable word leaves it. -/
theorem memUpdate_of_ue {n a : Nat} {x : Word} {y : BitVec 8} (h : readCode (s.raw (loftPlace n a)) = .ue x y) (f : Word → Word) :
    (memUpdate (loftPlace n a) f s).1 = 8 ∧ (memUpdate (loftPlace n a) f s).2.raw (loftPlace n a) = s.raw (loftPlace n a)
      ∧ (memUpdate (loftPlace n a) f s).2.eng = s.eng := by
  unfold memUpdate
  rw [memRead_ue h]
  dsimp only
  have hloft := (countUE_loft_rings n a y s).loft
  have heng := countUE_loft_eng n a y s
  generalize countUE (loftPlace n a) y s = u at hloft heng
  exact ⟨rfl, raw_of_loft (s := s) (t := countPW (loftPlace n a) u) hloft n a, heng⟩

theorem finish_served_loft (w : Who) (s : State) : (finish w { st := s }).loft = s.loft := by cases w <;> rfl

theorem finish_poisoned (w : Who) (det : Nat) (s : State) : (finish w { disp := 8, det := det, st := s }).loft = s.loft
    ∧ (finish w { disp := 8, det := det, st := s }).eng = s.eng := by
  cases w <;> exact ⟨rfl, rfl⟩

/-! ### The obligation -/

theorem windowWritesReachTheRing : Stated.WindowWritesReachTheRing := by
  intro s w k o v hh ha
  dsimp only
  refine ⟨fun hoff => ?_, fun e he hon hsup => ?_, fun hnone hstop => ?_, fun hnone hrun d r ho => ⟨fun hr => ⟨fun x g hx hlate harr hwords => ?_, fun hno => ?_⟩,
    fun j hj => ⟨fun x hx => ⟨?_, ?_⟩, fun x y hx => ?_⟩⟩⟩
  · refine does_window hh ha ?_
    rw [windowWrite_of_denied (by rw [windowWait_of_off hoff]; exact windowDenied_of_off hoff)]
  · subst he
    have hdenied := windowDenied_of_engine (o := o.val) hon hsup
    refine ⟨fun hother => ?_, fun hn hst hfn hmay => ?_⟩
    · rw [if_neg (by tauto)] at hdenied
      refine does_window hh ha ?_
      rw [windowWrite_of_denied hdenied]
    · rw [if_pos ⟨by rw [hst, hn], hfn⟩, hst, hmay, if_neg Bool.false_ne_true] at hdenied
      refine does_window hh ha ?_
      rw [windowWrite_of_denied hdenied]
  · refine does_window hh ha ?_
    rw [windowWrite_of_stopped hnone hstop]
  · refine does_window hh ha ?_
    rw [windowWrite_of_ring hnone hrun ho hr, ringWrite_of_arrived hx hlate harr hwords]
  · refine does_window hh ha ?_
    rw [windowWrite_of_ring hnone hrun ho hr, ringWrite_of_no_holder hno]
    have hshown := lateWrite_shown w k d 0 (r % 64) (windowWait w k o s)
    generalize lateWrite w k d 0 (r % 64) (windowWait w k o s) = u at hshown
    simp only [State.notify_fld_get, State.notify_loft, State.notify_eng, finish_served_fld, finish_served_eng]
    exact ⟨hshown.count, hshown.event, (finish_served_loft w u).trans hshown.loft, hshown.eng⟩
  · refine does_window hh ha ?_
    rw [windowWrite_of_desc hnone hrun ho j.isLt hj, memUpdate_of_ok hx, finish_served_det]
  · have ho' : o.val = 0x800 * d + descOff j := by omega
    refine does_descClear hh ha ?_
    rw [← ho', windowWrite_of_desc hnone hrun ho j.isLt hj, memUpdate_of_ok hx, finish_served_det]
    rfl
  · have ho' : o.val = 0x800 * d + descOff j := by omega
    refine does_descClear hh ha ?_
    rw [← ho', windowWrite_of_desc hnone hrun ho j.isLt hj]
    obtain ⟨hdisp, hraw, heng⟩ := memUpdate_of_ue hx fun u => wd (setBits u.toNat 47 1 (bits (0 : Word).toNat 47 1))
    rw [← ringPlace_eq] at hdisp hraw heng
    generalize memUpdate ((windowWait w k o s).ringPlace k d r) (fun u => wd (setBits u.toNat 47 1 (bits (0 : Word).toNat 47 1)))
      (windowWait w k o s) = p at hdisp hraw heng ⊢
    rw [hdisp, notify_raw, State.notify_eng]
    obtain ⟨hl, he⟩ := finish_poisoned w 1 p.2
    refine ⟨?_, he.trans heng⟩
    rw [ringPlace_eq, raw_of_loft hl, ← ringPlace_eq]
    exact hraw

/-- Settles O43: the rings' frames by what stands while their words arrive, the window by what the model refuses and writes. -/
theorem passingFramesAndTheirWindow : Obligations.PassingFramesAndTheirWindow := ⟨framesPassThroughTheRing, windowWritesReachTheRing⟩

end Sys2Proof.Machine
end

section
/-! The units of a pair: link, STATUS sent, a lost or silent partner, hold-off (R308, R309, R311, R314, R315, R317). -/

namespace Sys2Proof.Machine

variable {s t u : State}

/-! ### Leave for a training or a test (R335) -/

/-- A use whose leave and whose deferral show nowhere. -/
def OUse.plain (u : OUse) : Prop := (∀ s, grantEffect u s = s) ∧ ∀ s, deferEffect u s = s

theorem plain_train (p : Nat) : OUse.plain (.train p) := ⟨fun _ => rfl, fun _ => rfl⟩
theorem plain_bist : OUse.plain .bist := ⟨fun _ => rfl, fun _ => rfl⟩

/-- What a plain request changes: the Ostler's books and counts. -/
structure AskKeeps (s t : State) : Prop where
  tw : t.tw = s.tw
  loft : t.loft = s.loft
  host : t.host = s.host
  fld : ∀ f : Fld, f.id ∉ serviceFlds → ∀ i j, t.fld f i j = s.fld f i j

namespace AskKeeps

theorem refl (s : State) : AskKeeps s s := ⟨rfl, rfl, rfl, fun _ _ _ _ => rfl⟩

theorem trans (h : AskKeeps s t) (g : AskKeeps t u) : AskKeeps s u :=
  ⟨g.tw.trans h.tw, g.loft.trans h.loft, g.host.trans h.host, fun f hf i j => (g.fld f hf i j).trans (h.fld f hf i j)⟩

theorem with_pw (s : State) (p : PwS) : AskKeeps s { s with pw := p } := ⟨rfl, rfl, rfl, fun _ _ _ _ => rfl⟩

theorem put (s : State) {f : Fld} (hf : f.id ∈ serviceFlds) (v i j : Nat) : AskKeeps s (s.put f v i j) :=
  ⟨rfl, rfl, rfl, fun _ hg _ _ => State.put_fld_ne _ _ _ _ _ _ _ _ fun e => hg (e ▸ hf)⟩

theorem noteOverq (f : Nat) (old s : State) : AskKeeps s (noteOverq f old s) := by
  rcases noteOverq_cases f old s with h | h <;> rw [h]
  · exact refl s
  · exact put s (by decide) ..

theorem hwRequest {x : OUse} (hx : x.plain) (s : State) : AskKeeps s (hwRequest x s) := by
  unfold Machine.hwRequest ostlerRequest
  extract_lets c c' r s1 r'
  split_ifs
  · exact refl s
  · exact refl s
  · next _ _ hfw => simp at hfw
  · next _ _ _ hfw => simp at hfw
  · refine .trans ?_ (noteOverq ..)
    unfold grant
    rw [hx.1]
    refine .trans ?_ (put _ (by decide) ..)
    exact with_pw ..
  · rw [hx.2]
    refine .trans ?_ (put _ (by decide) ..)
    exact with_pw ..

theorem returnUse (x : OUse → Bool) (s : State) : AskKeeps s (returnUse x s) := with_pw ..

theorem trainLeave (p : Nat) (s : State) : AskKeeps s (trainLeave p s).2 := by
  unfold Machine.trainLeave
  extract_lets x t
  have ht : AskKeeps s t := by
    unfold t
    split
    · exact refl s
    · exact hwRequest (plain_train p) s
  clear_value t
  split
  · exact ht.trans (with_pw t _)
  · exact ht

end AskKeeps

/-! ### The link (R308, R315, R335, R343) -/

/-- What a role that the next instant brings changes. -/
def bringing (r c : Nat) (take : Bool) (s : State) : State := { s with tw := { s.tw with next := some (r, c), take := take } }

theorem nextRole_of_none {r c : Nat} {take : Bool} (h : s.tw.next = none) : nextRole r c take s = bringing r c take s := by
  unfold nextRole
  rw [h]
  rfl

theorem nextRole_of_yield {c : Nat} {take : Bool} : nextRole 3 c take s = bringing 3 c take s := by
  unfold nextRole
  simp only [ne_eq, not_true_eq_false, decide_false, Bool.and_false, Bool.false_eq_true, if_false]
  rfl

theorem driving_of_standby (h : s.twRole = 2) : s.driving = false := by
  rw [State.driving, show s.fld F.twStat_ROLE = 2 from h]
  rfl

/-- The link to the partner is up or down, and no STATUS has come over it. -/
def twinLinked (up : Bool) (s : State) : State :=
  { (s.put F.twStat_LINK (b2n up)).put F.twEvt_LINKCHG 1 with tw := { s.tw with msg := none, fresh := false } }

theorem twinLink_of_same {up : Bool} (h : s.twOn = false ∨ s.on F.twStat_LINK = up ∨ (up = true ∧ s.laneOn 6 = false)) : twinLink up s = s := by
  unfold twinLink
  refine if_pos ?_
  rcases h with h | h | ⟨h, hl⟩
  · simp [h]
  · simp [h]
  · simp [h, hl]

theorem twinLink_up (hon : s.twOn = true) (hlink : s.fld F.twStat_LINK = 0) (hlane : s.laneOn 6 = true) :
    twinLink true s = if (trainLeave 12 s).1 then twinLinked true (trainLeave 12 s).2 else (trainLeave 12 s).2 := by
  have hgo : (!s.twOn || decide (s.on F.twStat_LINK = true) || (true && !s.laneOn 6)) = false := by
    rw [hon, State.on_eq_false.2 hlink, hlane]
    rfl
  unfold twinLink
  rw [hgo, if_neg Bool.false_ne_true, if_pos rfl]
  rcases trainLeave 12 s with ⟨ok, v⟩
  cases ok <;> rfl

theorem twinLink_down (hon : s.twOn = true) (hlink : s.fld F.twStat_LINK ≠ 0) : twinLink false s = partnerLost (twinLinked false s) := by
  have hgo : (!s.twOn || decide (s.on F.twStat_LINK = false) || (false && !s.laneOn 6)) = false := by
    rw [hon, State.on_eq_true.2 hlink]
    rfl
  unfold twinLink
  rw [hgo, if_neg Bool.false_ne_true]
  rfl

/-! ### A partner that is lost (R315) -/

/-- No return is under way. -/
def noReturn (s : State) : State := { s with tw := { s.tw with swAt := none, giveAt := none } }

theorem partnerLost_of_driving (h : s.driving = true) (hn : s.tw.next = none) : partnerLost s = bringing 4 0 false (noReturn s) := by
  have hd : (noReturn s).driving = true := h
  unfold partnerLost
  rw [← noReturn]
  dsimp only
  rw [hd]
  exact (if_pos rfl).trans (nextRole_of_none hn)

theorem partnerLost_of_standby (h : s.twRole = 2) (hl : s.tw.listen = none) (hn : s.tw.next = none) : partnerLost s =
    if s.witness then ((noReturn s).put F.twStat_SPLIT 1).put F.twEvt_SPLIT 1 else bringing 4 0 true (noReturn s) := by
  have hd : (noReturn s).driving = false := driving_of_standby h
  have hgo : (decide ((noReturn s).twRole = 2) && (noReturn s).tw.listen.isNone) = true := by
    have h2 : (noReturn s).twRole = 2 := h
    have h3 : (noReturn s).tw.listen = none := hl
    rw [h2, h3]
    rfl
  have hw : (noReturn s).witness = s.witness := rfl
  unfold partnerLost
  rw [← noReturn]
  dsimp only
  rw [hd, hgo, hw, if_neg Bool.false_ne_true, if_pos rfl]
  split
  · rfl
  · exact nextRole_of_none hn

/-! ### STATUS of this unit (R309) -/

/-- Words of STATUS. -/
theorem bits_status {n h r u f t : Nat} (hh : h < 256) (hr : r < 8) (hu : u < 2) (hf : f < 4) (ht : t < 4) :
    bits (wd (n * 2 ^ 16 + h * 2 ^ 8 + r * 2 ^ 5 + u * 2 ^ 4 + f * 4 + t)).toNat 16 32 = n % 2 ^ 32
      ∧ bits (wd (n * 2 ^ 16 + h * 2 ^ 8 + r * 2 ^ 5 + u * 2 ^ 4 + f * 4 + t)).toNat 8 8 = h
      ∧ bits (wd (n * 2 ^ 16 + h * 2 ^ 8 + r * 2 ^ 5 + u * 2 ^ 4 + f * 4 + t)).toNat 5 3 = r
      ∧ bits (wd (n * 2 ^ 16 + h * 2 ^ 8 + r * 2 ^ 5 + u * 2 ^ 4 + f * 4 + t)).toNat 4 1 = u
      ∧ bits (wd (n * 2 ^ 16 + h * 2 ^ 8 + r * 2 ^ 5 + u * 2 ^ 4 + f * 4 + t)).toNat 0 2 = t := by
  rw [wd_toNat_mod]
  unfold bits
  omega

theorem bits_digest (v : Nat) : bits (wd (v * 2 ^ 16)).toNat 16 32 = v % 2 ^ 32 := by
  rw [wd_toNat_mod]
  unfold bits
  omega

theorem latchHealth_cases (s : State) :
    ((∀ x, s.tw.healthAt ≠ some (s.instN, x)) → (latchHealth s).1 = s.twHealth) ∧ ∀ x, s.tw.healthAt = some (s.instN, x) → (latchHealth s).1 = x := by
  unfold latchHealth
  refine ⟨fun hno => ?_, fun x hx => ?_⟩
  · cases hat : s.tw.healthAt with
    | none => rfl
    | some e =>
      have hne : (e.1 == s.instN) = false := by
        rw [beq_eq_false_iff_ne]
        intro he
        exact hno e.2 (by rw [hat, ← he])
      simp [Option.filter, hne]
  · simp [hx, Option.filter]

/-- What is latched of HEALTH touches nothing but the unit's own record. -/
theorem latchHealth_state (s : State) : ∃ w : TwS, (latchHealth s).2 = { s with tw := w } ∧ w.yreq = s.tw.yreq ∧ w.swreq = s.tw.swreq := by
  unfold latchHealth
  split
  · exact ⟨s.tw, rfl, rfl, rfl⟩
  · exact ⟨_, rfl, rfl, rfl⟩

theorem twinSend_of_off (h : s.twOn = false ∨ s.fld F.twStat_LINK = 0) : twinSend s = s := by
  unfold twinSend
  refine if_pos ?_
  rcases h with h | h
  · simp [h]
  · simp [State.on_eq_false.2 h]

/-- STATUS is sent with HEALTH `h` and test state `t`. -/
def statusSent (h t : Nat) (s : State) : State :=
  { s.emit (.twin (wd (s.instN * 2 ^ 16 + h * 2 ^ 8 + s.twRole * 2 ^ 5 + s.fld F.twCfg0_UNIT * 2 ^ 4 + b2n s.tw.yreq * 8 + b2n s.tw.swreq * 4 + t))
      (wd (s.fld F.twDig_DIGEST * 2 ^ 16)) (wd (s.boot.cfgd * 2 ^ 16 + s.boot.sdn * 2 ^ 6))) with
    tw := { s.tw with tstSent := s.tw.tstSent || t ≥ 2, sent := some (s.instN, t), giveAt := if t = 1 then none else s.tw.giveAt } }

theorem twinSend_of_on (hon : s.twOn = true) (hlink : s.fld F.twStat_LINK ≠ 0) :
    twinSend s = statusSent (latchHealth s).1 (s.fld F.twStat_TST) (latchHealth s).2 := by
  have hgo : (!s.twOn || !s.on F.twStat_LINK) = false := by
    rw [hon, State.on_eq_true.2 hlink]
    rfl
  unfold twinSend
  rw [hgo, if_neg Bool.false_ne_true]
  rfl

/-- The words of STATUS as they are sent. -/
theorem twinSend_sent (hon : s.twOn = true) (hlink : s.fld F.twStat_LINK ≠ 0) : ∃ w2, ∃ f < 4, (twinSend s).act = s.act ∧ (twinSend s).eng = s.eng
    ∧ .twin (wd (s.instN * 2 ^ 16 + (latchHealth s).1 * 2 ^ 8 + s.twRole * 2 ^ 5 + s.fld F.twCfg0_UNIT * 2 ^ 4 + f * 4 + s.fld F.twStat_TST))
        (wd (s.fld F.twDig_DIGEST * 2 ^ 16)) w2 ∈ (twinSend s).out := by
  obtain ⟨w, hw, -, -⟩ := latchHealth_state s
  have hlt : ∀ y z : Bool, b2n y * 2 + b2n z < 4 := by decide
  have hsum : ∀ a t : Nat, ∀ y z : Bool, a + b2n y * 8 + b2n z * 4 + t = a + (b2n y * 2 + b2n z) * 4 + t := fun a t y z => by omega
  rw [twinSend_of_on hon hlink, hw]
  refine ⟨wd (s.boot.cfgd * 2 ^ 16 + s.boot.sdn * 2 ^ 6), b2n w.yreq * 2 + b2n w.swreq, hlt .., rfl, rfl, ?_⟩
  rw [← hsum]
  exact List.mem_append_right _ (List.mem_singleton.2 rfl)

end Sys2Proof.Machine
end

section
/-! The units of a pair: the partner's STATUS (R308, R309, R310, R311, R312, R315, R317). -/

namespace Sys2Proof.Machine

variable {s t u : State} {m : TwMsg}

/-! ### A message is noted -/

/-- STATUS as its words say. -/
def msgOf (w0 w1 w2 : Word) : TwMsg :=
  { n := bits w0.toNat 16 32, health := bits w0.toNat 8 8, role := bits w0.toNat 5 3, unit := bits w0.toNat 4 1, yreq := w0.toNat.testBit 3
    swreq := w0.toNat.testBit 2, tst := bits w0.toNat 0 2, digest := bits w1.toNat 16 32, cfgd := bits w2.toNat 16 32
    sdn := bits w2.toNat 6 10 }

/-- The message is kept, with the partner's role. -/
def noted (m : TwMsg) (s : State) : State :=
  let u := ({ s with tw := { s.tw with msg := some m, fresh := true } }.put F.twStat_PROLE m.role).put F.twStat_SPLIT 0
  if m.role = 3 && s.fld F.twStat_PROLE ≠ 3 then u.put F.twEvt_YIELD 1 else u

/-- The unit listens no more. -/
def noListen (s : State) : State := { s with tw := { s.tw with listen := none } }

theorem twinReceive_eq (hon : s.twOn = true) (hlink : s.fld F.twStat_LINK ≠ 0) (w0 w1 w2 : Word) : twinReceive w0 w1 w2 s =
    if (msgOf w0 w1 w2).unit = s.fld F.twCfg0_UNIT then s
    else
      let v := compareDigest (msgOf w0 w1 w2) (noted (msgOf w0 w1 w2) s)
      if (msgOf w0 w1 w2).cfgd ≠ v.boot.cfgd ∨ (msgOf w0 w1 w2).sdn ≠ v.boot.sdn then configDiffers (noListen v)
      else swFrom (msgOf w0 w1 w2) (roleFrom (msgOf w0 w1 w2) v) := by
  have hgo : (!s.twOn || !s.on F.twStat_LINK) = false := by
    rw [hon, State.on_eq_true.2 hlink]
    rfl
  unfold twinReceive
  rw [hgo, if_neg Bool.false_ne_true]
  rfl

theorem noted_fld {f : Fld} (h1 : f.id ≠ F.twStat_PROLE.id) (h2 : f.id ≠ F.twStat_SPLIT.id) (h3 : f.id ≠ F.twEvt_YIELD.id) (m : TwMsg) (s : State)
    (i j : Nat) : (noted m s).fld f i j = s.fld f i j := by
  have hu : ((({ s with tw := { s.tw with msg := some m, fresh := true } } : State).put F.twStat_PROLE m.role).put F.twStat_SPLIT 0).fld f i j = s.fld f i j :=
    (State.put_fld_ne _ _ _ _ _ _ _ _ h2).trans (State.put_fld_ne _ _ _ _ _ _ _ _ h1)
  unfold noted
  dsimp only
  split_ifs
  · exact (State.put_fld_ne _ _ _ _ _ _ _ _ h3).trans hu
  · exact hu

theorem noted_prole (m : TwMsg) (s : State) : (noted m s).fld F.twStat_PROLE = m.role % 2 ^ F.twStat_PROLE.width := by
  have hu : ((({ s with tw := { s.tw with msg := some m, fresh := true } } : State).put F.twStat_PROLE m.role).put F.twStat_SPLIT 0).fld F.twStat_PROLE =
      m.role % 2 ^ F.twStat_PROLE.width :=
    (State.put_fld_ne _ _ _ _ _ _ _ _ (by decide)).trans (State.put_fld ..)
  unfold noted
  dsimp only
  split_ifs
  · exact (State.put_fld_ne _ _ _ _ _ _ _ _ (by decide)).trans hu
  · exact hu

theorem noted_tw (m : TwMsg) (s : State) : (noted m s).tw = { s.tw with msg := some m, fresh := true } := by
  unfold noted
  dsimp only
  split_ifs <;> rfl

theorem noted_boot (m : TwMsg) (s : State) : (noted m s).boot = s.boot := by
  unfold noted
  dsimp only
  split_ifs <;> rfl

/-! ### The digests are compared (R312) -/

/-- What the comparison of digests leaves. -/
structure CompareKeeps (s t : State) : Prop where
  boot : t.boot = s.boot
  msg : t.tw.msg = s.tw.msg
  fld : ∀ f : Fld, f.id ≠ F.twStat_MATCH.id → f.id ≠ F.twStat_SUSP.id → f.id ≠ F.twCnt0_MISM.id → ∀ i j, t.fld f i j = s.fld f i j
  next : s.fld F.twStat_SUSP = 0 → t.tw.next = s.tw.next

theorem CompareKeeps.refl (s : State) : CompareKeeps s s := ⟨rfl, rfl, fun _ _ _ _ _ _ => rfl, fun _ => rfl⟩

/-- The digests are the same: a match is counted. -/
def digestsMatch (s : State) : State :=
  let u := s.bump F.twStat_MATCH
  if u.fld F.twStat_MATCH ≥ u.fld F.twCfg0_MATCHN then { u.put F.twStat_SUSP 0 with tw := { u.tw with herSusp := false } } else u

/-- The digests differ: the count begins again. -/
def mismatchCounted (s : State) : State := (s.put F.twStat_MATCH 0).bump F.twCnt0_MISM

/-- What a mismatch starts. -/
def digestsDiffer (m : TwMsg) (s : State) : State :=
  if s.fld F.twStat_TST = 1 || (s.fld F.twStat_TST ≥ 2 && !s.tw.alone && m.tst ≠ 0) then s
  else if s.on F.twStat_SUSP then (if s.twRole = 2 then nextRole 3 3 false s else s)
  else if s.tw.herSusp && s.driving then s
  else { s with tw := { s.tw with testDue := true } }

theorem compareDigest_eq (m : TwMsg) (s : State) : compareDigest m s =
    if m.n ≠ s.instN then s else if m.digest = s.fld F.twDig_DIGEST then digestsMatch s else digestsDiffer m (mismatchCounted s) := rfl

theorem digestsMatch_keeps (s : State) : CompareKeeps s (digestsMatch s) := by
  have hb : ∀ f : Fld, f.id ≠ F.twStat_MATCH.id → ∀ i j, (s.bump F.twStat_MATCH).fld f i j = s.fld f i j := fun f h i j =>
    State.bump_fld_ne _ _ _ _ _ _ _ _ h
  unfold digestsMatch
  dsimp only
  split_ifs
  · exact ⟨rfl, rfl, fun f h1 h2 _ i j => (State.put_fld_ne (s.bump F.twStat_MATCH) F.twStat_SUSP f 0 0 0 i j h2).trans (hb f h1 i j), fun _ => rfl⟩
  · exact ⟨rfl, rfl, fun f h1 _ _ i j => hb f h1 i j, fun _ => rfl⟩

theorem mismatchCounted_fld {f : Fld} (h1 : f.id ≠ F.twStat_MATCH.id) (h2 : f.id ≠ F.twCnt0_MISM.id) (s : State) (i j : Nat) :
    (mismatchCounted s).fld f i j = s.fld f i j :=
  (State.bump_fld_ne _ _ _ _ _ _ _ _ h2).trans (State.put_fld_ne _ _ _ _ _ _ _ _ h1)

theorem digestsDiffer_act (m : TwMsg) (s : State) : (digestsDiffer m s).act = s.act ∧ (digestsDiffer m s).boot = s.boot
    ∧ (digestsDiffer m s).tw.msg = s.tw.msg := by
  unfold digestsDiffer
  split_ifs
  · exact ⟨rfl, rfl, rfl⟩
  · rw [nextRole_of_yield]
    exact ⟨rfl, rfl, rfl⟩
  · exact ⟨rfl, rfl, rfl⟩
  · exact ⟨rfl, rfl, rfl⟩
  · exact ⟨rfl, rfl, rfl⟩

theorem digestsDiffer_next (m : TwMsg) (h : s.fld F.twStat_SUSP = 0) : (digestsDiffer m s).tw.next = s.tw.next := by
  unfold digestsDiffer
  rw [State.on_eq_false.2 h]
  rw [if_neg (c := (false = true)) Bool.false_ne_true]
  split_ifs <;> rfl

theorem compareDigest_keeps (m : TwMsg) (s : State) : CompareKeeps s (compareDigest m s) := by
  rw [compareDigest_eq]
  split_ifs
  · exact .refl s
  · exact digestsMatch_keeps s
  · obtain ⟨hact, hboot, hmsg⟩ := digestsDiffer_act m (mismatchCounted s)
    exact ⟨hboot, hmsg, fun f h1 _ h3 i j => (fld_of_act hact f i j).trans (mismatchCounted_fld h1 h3 s i j),
      fun h => digestsDiffer_next m ((mismatchCounted_fld (by decide) (by decide) s 0 0).trans h)⟩

/-! ### What the message leads to (R311, R315, R317) -/

/-- What the steps after the comparison leave. -/
structure LeadKeeps (s t : State) : Prop where
  fld : ∀ f : Fld, f.id ≠ F.twCnt0_SWREF.id → ∀ i j, t.fld f i j = s.fld f i j
  testDue : t.tw.testDue = s.tw.testDue
  next : s.tw.next ≠ none → t.tw.next = s.tw.next

namespace LeadKeeps

theorem refl (s : State) : LeadKeeps s s := ⟨fun _ _ _ _ => rfl, rfl, fun _ => rfl⟩

theorem trans (h : LeadKeeps s t) (g : LeadKeeps t u) : LeadKeeps s u :=
  ⟨fun f hf i j => (g.fld f hf i j).trans (h.fld f hf i j), g.testDue.trans h.testDue,
    fun hn => (g.next (by rwa [h.next hn])).trans (h.next hn)⟩

theorem with_tw {w : TwS} (ht : w.testDue = s.tw.testDue) (hn : w.next = s.tw.next) : LeadKeeps s { s with tw := w } := ⟨fun _ _ _ _ => rfl, ht, fun _ => hn⟩

theorem counted (s : State) : LeadKeeps s (s.bump F.twCnt0_SWREF) := ⟨fun _ hf _ _ => State.bump_fld_ne _ _ _ _ _ _ _ _ hf, rfl, fun _ => rfl⟩

theorem refused {w : TwS} (ht : w.testDue = s.tw.testDue) (hn : w.next = s.tw.next) : LeadKeeps s { s.bump F.twCnt0_SWREF with tw := w } :=
  ⟨(counted s).fld, ht, fun _ => hn⟩

theorem of_ite {c : Prop} [Decidable c] {a b : State} (ha : LeadKeeps s a) (hb : LeadKeeps s b) : LeadKeeps s (if c then a else b) := by
  split
  · exact ha
  · exact hb

theorem nextRole {r : Nat} (hr : r ≠ 3) (c : Nat) (take : Bool) (s : State) : LeadKeeps s (nextRole r c take s) := by
  unfold Machine.nextRole
  split_ifs with h
  · exact refl s
  · refine ⟨fun _ _ _ _ => rfl, rfl, fun hn => absurd ?_ h⟩
    simp [hr, Option.isSome_iff_ne_none, hn]

theorem latchHealth (s : State) : LeadKeeps s (latchHealth s).2 := by
  unfold Machine.latchHealth
  split
  · exact refl s
  · exact with_tw rfl rfl

theorem hearPartner (m : TwMsg) (s : State) : LeadKeeps s (hearPartner m s) := by
  unfold Machine.hearPartner
  refine .of_ite (with_tw rfl rfl) (.of_ite ?_ (refl s))
  have hno : LeadKeeps s (noListen s) := with_tw rfl rfl
  have hl := hno.trans (latchHealth (noListen s))
  unfold noListen at hl
  generalize Machine.latchHealth { s with tw := { s.tw with listen := none } } = r at hl ⊢
  exact .of_ite (hl.trans (nextRole (by decide) ..)) hl

theorem roleFrom (m : TwMsg) (s : State) : LeadKeeps s (roleFrom m s) := by
  unfold Machine.roleFrom
  refine .of_ite (nextRole (by decide) ..) (.of_ite (nextRole (by decide) ..) (.of_ite ?_ (refl s)))
  extract_lets v src tws w
  have hv : LeadKeeps s v := .of_ite (hearPartner ..) (refl s)
  have hw : LeadKeeps v w := .of_ite (refused rfl rfl) (refl v)
  clear_value v src tws w
  exact .of_ite ((hv.trans hw).trans (nextRole (by decide) 0 true w)) hv

theorem swFrom (m : TwMsg) (s : State) : LeadKeeps s (swFrom m s) := by
  unfold Machine.swFrom
  exact .of_ite (with_tw rfl rfl) (.of_ite (refused rfl rfl) (refl s))

end LeadKeeps

theorem swFrom_next (m : TwMsg) (s : State) : (swFrom m s).tw.next = s.tw.next := by
  unfold swFrom
  split_ifs <;> rfl

/-- An active unit whose partner is active too, or works alone, gives way. -/
theorem roleFrom_of_active (hr : s.twRole = 1) (hm : m.role = 4 ∨ m.role = 1 ∧ s.fld F.twCfg0_PREF = 0) (hn : s.tw.next = none) :
    roleFrom m s = bringing 2 0 false s := by
  have hgo : (decide (s.twRole = 1) && (decide (m.role = 4) || decide (m.role = 1) && !s.on F.twCfg0_PREF)) = true := by
    rcases hm with h | ⟨h, hp⟩
    · simp [hr, h]
    · simp [hr, h, State.on_eq_false.2 hp]
  unfold roleFrom
  rw [if_neg (by rw [hr]; decide), hgo, if_pos rfl]
  exact nextRole_of_none hn

/-! ### A partner with another configuration (R310) -/

/-- The difference is shown. -/
def diffShown (s : State) : State := s.put F.twEvt_CFGDIFF 1

theorem diffShown_fld {f : Fld} (hf : f.id ≠ F.twEvt_CFGDIFF.id) (s : State) (i j : Nat) : (diffShown s).fld f i j = s.fld f i j :=
  State.put_fld_ne _ _ _ _ _ _ _ _ hf

theorem configDiffers_eq (s : State) : configDiffers s =
    if (diffShown s).on F.twCfg0_PREF then (if (diffShown s).twRole = 1 then diffShown s else nextRole 1 0 false (diffShown s))
    else if (diffShown s).twRole = 3 && (diffShown s).fld F.twStat_CAUSE = 1 then diffShown s else nextRole 3 1 false (diffShown s) := rfl

theorem nextRole_act (r c : Nat) (take : Bool) (s : State) : (nextRole r c take s).act = s.act ∧ (nextRole r c take s).tw.msg = s.tw.msg := by
  unfold nextRole
  split_ifs <;> exact ⟨rfl, rfl⟩

theorem configDiffers_act (s : State) : (configDiffers s).act = (diffShown s).act ∧ (configDiffers s).tw.msg = s.tw.msg := by
  rw [configDiffers_eq]
  split_ifs
  · exact ⟨rfl, rfl⟩
  · exact nextRole_act ..
  · exact ⟨rfl, rfl⟩
  · exact nextRole_act ..

theorem twRole_of_fld (h : t.fld F.twStat_ROLE = s.fld F.twStat_ROLE) : t.twRole = s.twRole := h

theorem driving_of_fld (h : t.fld F.twStat_ROLE = s.fld F.twStat_ROLE) : t.driving = s.driving := by
  rw [State.driving, h, State.driving]

/-- A unit that is not preferred yields. -/
theorem configDiffers_of_other (hp : s.fld F.twCfg0_PREF = 0) (hnot : s.twRole ≠ 3 ∨ s.fld F.twStat_CAUSE ≠ 1) :
    (configDiffers s).tw.next = some (3, 1) := by
  have hpref : (diffShown s).on F.twCfg0_PREF = false := State.on_eq_false.2 ((diffShown_fld (by decide) s 0 0).trans hp)
  have hgo : (decide ((diffShown s).twRole = 3) && decide ((diffShown s).fld F.twStat_CAUSE = 1)) = false := by
    rw [twRole_of_fld (diffShown_fld (by decide) s 0 0), diffShown_fld (by decide)]
    rcases hnot with h | h <;> simp [h]
  rw [configDiffers_eq, hpref, hgo, if_neg Bool.false_ne_true, if_neg Bool.false_ne_true, nextRole_of_yield]
  rfl

/-- The preferred unit drives. -/
theorem configDiffers_of_preferred (hp : s.fld F.twCfg0_PREF ≠ 0) (hn : s.tw.next = none) :
    (configDiffers s).tw.next = if s.twRole = 1 then none else some (1, 0) := by
  have hpref : (diffShown s).on F.twCfg0_PREF = true := State.on_eq_true.2 (by rw [diffShown_fld (by decide)]; exact hp)
  rw [configDiffers_eq, hpref, if_pos rfl, twRole_of_fld (diffShown_fld (by decide) s 0 0)]
  split_ifs
  · exact hn
  · rw [nextRole_of_none (s := diffShown s) hn]
    rfl

end Sys2Proof.Machine
end

section
/-! The units of a pair agree on their roles (R308 to R317). -/

namespace Sys2Proof.Machine

variable {s t u : State} {m : TwMsg}

/-! ### STATUS with another configuration (R310) -/

theorem noListen_fld (s : State) (f : Fld) (i j : Nat) : (noListen s).fld f i j = s.fld f i j := rfl

/-- The state after the message is noted and the digests compared. -/
def compared (m : TwMsg) (s : State) : State := compareDigest m (noted m s)

theorem compared_keeps (m : TwMsg) (s : State) : CompareKeeps (noted m s) (compared m s) := compareDigest_keeps ..

theorem compared_fld {f : Fld} (h1 : f.id ≠ F.twStat_MATCH.id) (h2 : f.id ≠ F.twStat_SUSP.id) (h3 : f.id ≠ F.twCnt0_MISM.id)
    (h4 : f.id ≠ F.twStat_PROLE.id) (h5 : f.id ≠ F.twStat_SPLIT.id) (h6 : f.id ≠ F.twEvt_YIELD.id) (m : TwMsg) (s : State) (i j : Nat) :
    (compared m s).fld f i j = s.fld f i j :=
  ((compared_keeps m s).fld f h1 h2 h3 i j).trans (noted_fld h4 h5 h6 m s i j)

theorem compared_prole (m : TwMsg) (s : State) : (compared m s).fld F.twStat_PROLE = m.role % 2 ^ F.twStat_PROLE.width :=
  ((compared_keeps m s).fld _ (by decide) (by decide) (by decide) 0 0).trans (noted_prole m s)

theorem compared_boot (m : TwMsg) (s : State) : (compared m s).boot = s.boot := (compared_keeps m s).boot.trans (noted_boot m s)

theorem compared_role (m : TwMsg) (s : State) : (compared m s).twRole = s.twRole :=
  twRole_of_fld (compared_fld (by decide) (by decide) (by decide) (by decide) (by decide) (by decide) m s 0 0)

theorem compared_pref (m : TwMsg) (s : State) : (compared m s).fld F.twCfg0_PREF = s.fld F.twCfg0_PREF :=
  compared_fld (by decide) (by decide) (by decide) (by decide) (by decide) (by decide) m s 0 0

theorem compared_next (m : TwMsg) (h : s.fld F.twStat_SUSP = 0) : (compared m s).tw.next = s.tw.next := by
  rw [(compared_keeps m s).next ((noted_fld (by decide) (by decide) (by decide) m s 0 0).trans h), noted_tw]

theorem twinReceive_of_differ {w0 w1 w2 : Word} (hon : s.twOn = true) (hlink : s.fld F.twStat_LINK ≠ 0)
    (hunit : bits w0.toNat 4 1 ≠ s.fld F.twCfg0_UNIT) (hdiff : bits w2.toNat 16 32 ≠ s.boot.cfgd ∨ bits w2.toNat 6 10 ≠ s.boot.sdn) :
    twinReceive w0 w1 w2 s = configDiffers (noListen (compared (msgOf w0 w1 w2) s)) := by
  rw [twinReceive_eq hon hlink]
  refine (if_neg hunit).trans (if_pos ?_)
  have hb := compared_boot (msgOf w0 w1 w2) s
  unfold compared at hb
  rw [hb]
  exact hdiff

/-- What a STATUS with another configuration shows and brings. -/
theorem differing_shown (w0 w1 w2 : Word) (s : State) (hm : m = msgOf w0 w1 w2) :
    (configDiffers (noListen (compared m s))).fld F.twEvt_CFGDIFF = 1
      ∧ (configDiffers (noListen (compared m s))).tw.msg.map TwMsg.n = some (bits w0.toNat 16 32)
      ∧ (configDiffers (noListen (compared m s))).fld F.twStat_PROLE = bits w0.toNat 5 3 := by
  obtain ⟨hact, hmsg⟩ := configDiffers_act (noListen (compared m s))
  have hcmsg : (noListen (compared m s)).tw.msg = some m := by
    refine (compared_keeps m s).msg.trans ?_
    rw [noted_tw]
  refine ⟨(fld_of_act hact _ 0 0).trans ((State.put_fld ..).trans (by decide)), ?_, ?_⟩
  · rw [hmsg, hcmsg, hm]
    rfl
  · refine (fld_of_act hact _ 0 0).trans ((diffShown_fld (by decide) _ 0 0).trans ((noListen_fld ..).trans ((compared_prole m s).trans ?_)))
    rw [hm]
    exact Nat.mod_eq_of_lt (Nat.mod_lt _ (by decide))

/-! ### STATUS of the same instant (R312) -/

theorem twinReceive_of_same {w0 w1 w2 : Word} (hon : s.twOn = true) (hlink : s.fld F.twStat_LINK ≠ 0)
    (hunit : bits w0.toNat 4 1 ≠ s.fld F.twCfg0_UNIT) (hcfg : bits w2.toNat 16 32 = s.boot.cfgd) (hsdn : bits w2.toNat 6 10 = s.boot.sdn) :
    twinReceive w0 w1 w2 s = swFrom (msgOf w0 w1 w2) (roleFrom (msgOf w0 w1 w2) (compared (msgOf w0 w1 w2) s)) := by
  rw [twinReceive_eq hon hlink]
  refine (if_neg hunit).trans (if_neg ?_)
  have hb := compared_boot (msgOf w0 w1 w2) s
  unfold compared at hb
  rw [hb]
  exact not_or.2 ⟨not_not.2 hcfg, not_not.2 hsdn⟩

theorem led_keeps (m : TwMsg) (s : State) : LeadKeeps s (swFrom m (roleFrom m s)) := (LeadKeeps.roleFrom m s).trans (.swFrom ..)

theorem compared_of_match (hn : m.n = s.instN) (hd : m.digest = s.fld F.twDig_DIGEST) : compared m s = digestsMatch (noted m s) := by
  have hn' : (noted m s).instN = s.instN := noted_fld (by decide) (by decide) (by decide) m s 0 0
  have hd' : (noted m s).fld F.twDig_DIGEST = s.fld F.twDig_DIGEST := noted_fld (by decide) (by decide) (by decide) m s 0 0
  rw [compared, compareDigest_eq, hn', hd', if_neg (not_not.2 hn), if_pos hd]

theorem compared_of_mismatch (hn : m.n = s.instN) (hd : m.digest ≠ s.fld F.twDig_DIGEST) :
    compared m s = digestsDiffer m (mismatchCounted (noted m s)) := by
  have hn' : (noted m s).instN = s.instN := noted_fld (by decide) (by decide) (by decide) m s 0 0
  have hd' : (noted m s).fld F.twDig_DIGEST = s.fld F.twDig_DIGEST := noted_fld (by decide) (by decide) (by decide) m s 0 0
  rw [compared, compareDigest_eq, hn', hd', if_neg (not_not.2 hn), if_neg hd]

/-- A match is counted, and MATCHN of them clear the suspicion. -/
theorem digestsMatch_shown (s : State) :
    (digestsMatch s).fld F.twStat_MATCH = min (s.fld F.twStat_MATCH + 1) (2 ^ F.twStat_MATCH.width - 1)
      ∧ (s.fld F.twCfg0_MATCHN ≤ (digestsMatch s).fld F.twStat_MATCH → (digestsMatch s).fld F.twStat_SUSP = 0) := by
  have hcount : (s.bump F.twStat_MATCH).fld F.twStat_MATCH = min (s.fld F.twStat_MATCH + 1) (2 ^ F.twStat_MATCH.width - 1) := State.bump_fld ..
  have hn : (s.bump F.twStat_MATCH).fld F.twCfg0_MATCHN = s.fld F.twCfg0_MATCHN := State.bump_fld_ne _ _ _ _ _ _ _ _ (by decide)
  unfold digestsMatch
  dsimp only
  split_ifs with h
  · exact ⟨(State.put_fld_ne (s.bump F.twStat_MATCH) F.twStat_SUSP F.twStat_MATCH 0 0 0 0 0 (by decide)).trans hcount,
      fun _ => (State.put_fld (s.bump F.twStat_MATCH) F.twStat_SUSP 0 0 0).trans (by decide)⟩
  · exact ⟨hcount, fun hle => absurd (hn ▸ hle) h⟩

/-- A test is due. -/
def testing (s : State) : State := { s with tw := { s.tw with testDue := true } }

theorem digestsDiffer_of_tested (h : s.fld F.twStat_TST = 1 ∨ s.fld F.twStat_TST ≠ 0 ∧ s.tw.alone = false ∧ m.tst ≠ 0) : digestsDiffer m s = s := by
  unfold digestsDiffer
  refine if_pos ?_
  rcases h with h | ⟨h0, ha, hm⟩
  · simp [h]
  · rcases eq_or_ne (s.fld F.twStat_TST) 1 with h1 | h1
    · simp [h1]
    · simp [ha, hm]
      omega

theorem digestsDiffer_of_untested (h1 : s.fld F.twStat_TST ≠ 1) (h : s.fld F.twStat_TST = 0 ∨ s.tw.alone = true ∨ m.tst = 0) : digestsDiffer m s =
    if s.on F.twStat_SUSP then (if s.twRole = 2 then bringing 3 3 false s else s) else if s.tw.herSusp && s.driving then s else testing s := by
  have hgo : (decide (s.fld F.twStat_TST = 1) || (decide (s.fld F.twStat_TST ≥ 2) && !s.tw.alone && decide (m.tst ≠ 0))) = false := by
    rcases h with h | h | h
    · simp [h]
    · simp [h, h1]
    · simp [h, h1]
  unfold digestsDiffer
  rw [hgo, if_neg Bool.false_ne_true, nextRole_of_yield]
  rfl

/-! ### Timeouts (R311, R314, R315) -/

theorem twinTimeout_of_driving (h : s.twOn = false ∨ s.driving = true) : twinTimeout s = s := by
  unfold twinTimeout
  refine if_pos ?_
  rcases h with h | h <;> simp [h]

theorem twinTimeout_of_silent (hon : s.twOn = true) (hr : s.twRole = 2) (hmsg : s.tw.msg.any (fun m => m.n == s.instN) = false)
    (hpast : s.lastInst.getD s.tick + s.fld F.mgInst_CYC / 8 ≤ s.tick) : twinTimeout s = partnerLost s := by
  have hgo : (!s.twOn || s.tw.msg.any (fun m => m.n == s.instN) || s.driving) = false := by
    rw [hon, hmsg, driving_of_standby hr]
    rfl
  unfold twinTimeout
  rw [hgo, if_neg Bool.false_ne_true]
  dsimp only
  rw [passTo_of_past hpast]

theorem twinListen_of_none (h : s.tw.listen = none) : twinListen s = s := by
  rw [twinListen, h]

theorem twinListen_of_due {x : Nat} (h : s.tw.listen = some x) (hx : x ≤ s.tick) : twinListen s =
    if s.tw.msg.isSome then noListen s else if s.witness then s else nextRole 4 0 false (noListen s) := by
  rw [twinListen, h]
  dsimp only
  rw [passTo_of_past hx]
  rfl

theorem twinHoldoff_of_yielded {x : Nat} (hr : s.twRole = 3) (hc : s.fld F.twStat_CAUSE = 4) (hx : s.tw.healthyFrom = some x)
    (hpast : x + s.fld F.twCfg0_HOLDOFF * 250000000 ≤ s.tick) (hn : s.tw.next = none) : twinHoldoff s = bringing 2 0 false s := by
  have hgo : (decide (s.twRole = 3) && (decide (s.fld F.twStat_CAUSE = 2) || decide (s.fld F.twStat_CAUSE = 4))) = true := by
    rw [hr, hc]
    rfl
  unfold twinHoldoff
  dsimp only
  rw [hgo, if_pos rfl, hx]
  dsimp only
  rw [passTo_of_past hpast]
  exact nextRole_of_none hn

theorem twinHoldoff_of_standby {x : Nat} (hr : s.twRole = 2) (hx : s.tw.standbyFrom = some x)
    (hpast : x + s.fld F.twCfg0_HOLDOFF * 250000000 ≤ s.tick) : twinHoldoff s = { s with tw := { s.tw with holdoff := true } } := by
  have hgo : (decide (s.twRole = 3) && (decide (s.fld F.twStat_CAUSE = 2) || decide (s.fld F.twStat_CAUSE = 4))) = false := by
    rw [hr]
    rfl
  unfold twinHoldoff
  dsimp only
  rw [hgo, if_neg Bool.false_ne_true, if_pos hr, hx]
  dsimp only
  rw [passTo_of_past hpast]
  rw [hx]

/-! ### The statement -/

theorem linkUp_leave (s : State) (hlink : s.fld F.twStat_LINK = 0) : (trainLeave 12 s).2.fld F.twStat_LINK = 0 ∧ (trainLeave 12 s).2.tw = s.tw :=
  ⟨((AskKeeps.trainLeave 12 s).fld _ (by decide) 0 0).trans hlink, (AskKeeps.trainLeave 12 s).tw⟩

theorem twinLinked_of_tw (up : Bool) (h : t.tw = s.tw) :
    twinLinked up t = { (t.put F.twStat_LINK (b2n up)).put F.twEvt_LINKCHG 1 with tw := { s.tw with msg := none, fresh := false } } := by
  rw [twinLinked, h]

theorem twinLinked_role (up : Bool) (s : State) : (twinLinked up s).fld F.twStat_ROLE = s.fld F.twStat_ROLE :=
  (State.put_fld_ne (s.put F.twStat_LINK (b2n up)) F.twEvt_LINKCHG F.twStat_ROLE 1 0 0 0 0 (by decide)).trans
    (State.put_fld_ne s F.twStat_LINK F.twStat_ROLE (b2n up) 0 0 0 0 (by decide))

theorem twinLinked_witness (up : Bool) (s : State) : (twinLinked up s).witness = s.witness := by
  have hw : (twinLinked up s).fld F.twCfg0_WITNESS = s.fld F.twCfg0_WITNESS :=
    (State.put_fld_ne (s.put F.twStat_LINK (b2n up)) F.twEvt_LINKCHG F.twCfg0_WITNESS 1 0 0 0 0 (by decide)).trans
      (State.put_fld_ne s F.twStat_LINK F.twCfg0_WITNESS (b2n up) 0 0 0 0 (by decide))
  unfold State.witness State.eff
  rw [hw]
  rfl

/-- What a STATUS of the same instant with the same digest shows and brings. -/
theorem matching_shown (w0 w1 w2 : Word) (s : State) (hm : m = msgOf w0 w1 w2) (hn : m.n = s.instN) (hd : m.digest = s.fld F.twDig_DIGEST) :
    let t := swFrom m (roleFrom m (compared m s))
    t.fld F.twStat_MATCH = min (s.fld F.twStat_MATCH + 1) (2 ^ F.twStat_MATCH.width - 1) ∧ t.fld F.twStat_PROLE = bits w0.toNat 5 3
      ∧ (s.fld F.twCfg0_MATCHN ≤ t.fld F.twStat_MATCH → t.fld F.twStat_SUSP = 0)
      ∧ (s.twRole = 1 → m.role = 1 → s.fld F.twCfg0_PREF = 0 → s.tw.next = none → t.tw.next = some (2, 0))
      ∧ (s.twRole = 1 → m.role = 4 → s.tw.next = none → t.tw.next = some (2, 0)) := by
  have hled := led_keeps m (compared m s)
  obtain ⟨hmatch, hsusp⟩ := digestsMatch_shown (noted m s)
  rw [← compared_of_match hn hd] at hmatch hsusp
  rw [noted_fld (by decide) (by decide) (by decide)] at hmatch hsusp
  have hnext : s.tw.next = none → (compared m s).tw.next = none := fun h => by
    rw [compared_of_match hn hd]
    have htw : (digestsMatch (noted m s)).tw.next = (noted m s).tw.next := by
      unfold digestsMatch
      dsimp only
      split_ifs <;> rfl
    rw [htw, noted_tw]
    exact h
  dsimp only
  refine ⟨?_, ?_, fun hle => ?_, fun hr h1 hp hno => ?_, fun hr h4 hno => ?_⟩
  · rw [hled.fld _ (by decide), hmatch]
  · rw [hled.fld _ (by decide), compared_prole, hm]
    exact Nat.mod_eq_of_lt (Nat.mod_lt _ (by decide))
  · rw [hled.fld _ (by decide)] at hle ⊢
    exact hsusp hle
  · rw [swFrom_next, roleFrom_of_active ((compared_role m s).trans hr) (.inr ⟨h1, (compared_pref m s).trans hp⟩) (hnext hno)]
    rfl
  · rw [swFrom_next, roleFrom_of_active ((compared_role m s).trans hr) (.inl h4) (hnext hno)]
    rfl

/-- What a STATUS of the same instant with another digest shows and starts. -/
theorem differing_digest (s : State) (hn : m.n = s.instN) (hd : m.digest ≠ s.fld F.twDig_DIGEST) :
    let t := swFrom m (roleFrom m (compared m s))
    t.fld F.twStat_MATCH = 0 ∧ t.fld F.twCnt0_MISM = min (s.fld F.twCnt0_MISM + 1) (2 ^ F.twCnt0_MISM.width - 1)
      ∧ (s.fld F.twStat_TST = 1 ∨ s.fld F.twStat_TST ≠ 0 ∧ s.tw.alone = false ∧ m.tst ≠ 0 → t.tw.testDue = s.tw.testDue)
      ∧ (s.fld F.twStat_TST ≠ 1 → s.fld F.twStat_TST = 0 ∨ s.tw.alone = true ∨ m.tst = 0 →
        (s.fld F.twStat_SUSP = 0 → s.tw.herSusp = false ∨ s.driving = false → t.tw.testDue = true)
        ∧ (s.fld F.twStat_SUSP ≠ 0 → t.tw.testDue = s.tw.testDue)
        ∧ (s.fld F.twStat_SUSP ≠ 0 → s.twRole = 2 → t.tw.next = some (3, 3))) := by
  have hled := led_keeps m (compared m s)
  rw [compared_of_mismatch hn hd] at hled
  have hcomp := compared_of_mismatch (s := s) hn hd
  obtain ⟨hact, -, -⟩ := digestsDiffer_act m (mismatchCounted (noted m s))
  have hmc : ∀ f : Fld, f.id ≠ F.twStat_MATCH.id → f.id ≠ F.twCnt0_MISM.id → f.id ≠ F.twStat_PROLE.id → f.id ≠ F.twStat_SPLIT.id →
      f.id ≠ F.twEvt_YIELD.id → (mismatchCounted (noted m s)).fld f = s.fld f := fun f h1 h2 h4 h5 h6 =>
    (mismatchCounted_fld h1 h2 _ 0 0).trans (noted_fld h4 h5 h6 m s 0 0)
  have htst := hmc F.twStat_TST (by decide) (by decide) (by decide) (by decide) (by decide)
  have hsusp := hmc F.twStat_SUSP (by decide) (by decide) (by decide) (by decide) (by decide)
  have hrole := hmc F.twStat_ROLE (by decide) (by decide) (by decide) (by decide) (by decide)
  have hmatch : (mismatchCounted (noted m s)).fld F.twStat_MATCH = 0 :=
    (State.bump_fld_ne _ _ _ _ _ _ _ _ (show F.twStat_MATCH.id ≠ F.twCnt0_MISM.id by decide)).trans ((State.put_fld ..).trans (by decide))
  have hmism : (mismatchCounted (noted m s)).fld F.twCnt0_MISM = min (s.fld F.twCnt0_MISM + 1) (2 ^ F.twCnt0_MISM.width - 1) := by
    refine (State.bump_fld ..).trans ?_
    rw [State.put_fld_ne _ _ _ _ _ _ _ _ (by decide), noted_fld (by decide) (by decide) (by decide)]
  have htw : (mismatchCounted (noted m s)).tw = { s.tw with msg := some m, fresh := true } := noted_tw m s
  rw [hcomp]
  generalize mismatchCounted (noted m s) = v at hled hact htst hsusp hrole hmatch hmism htw ⊢
  have hdue : v.tw.testDue = s.tw.testDue := by rw [htw]
  have halone : v.tw.alone = s.tw.alone := by rw [htw]
  have hher : v.tw.herSusp = s.tw.herSusp := by rw [htw]
  dsimp only
  refine ⟨?_, ?_, fun htested => ?_, fun h1 huntested => ⟨fun hs hh => ?_, fun hs => ?_, fun hs hr => ?_⟩⟩
  · rw [hled.fld _ (by decide), fld_of_act hact, hmatch]
  · rw [hled.fld _ (by decide), fld_of_act hact, hmism]
  · rw [hled.testDue, digestsDiffer_of_tested (by rwa [htst, halone]), hdue]
  all_goals have heq := digestsDiffer_of_untested (m := m) (s := v) (by rwa [htst]) (by rwa [htst, halone])
  · have hgo : (v.tw.herSusp && v.driving) = false := by
      rw [hher, driving_of_fld hrole]
      rcases hh with h | h <;> simp [h]
    rw [State.on_eq_false.2 (hsusp.trans hs), hgo, if_neg Bool.false_ne_true, if_neg Bool.false_ne_true] at heq
    rw [hled.testDue, heq]
    rfl
  · rw [State.on_eq_true.2 (by rwa [hsusp]), if_pos rfl] at heq
    rw [hled.testDue, heq]
    split_ifs
    · exact hdue
    · exact hdue
  · rw [State.on_eq_true.2 (by rwa [hsusp]), if_pos rfl, if_pos ((twRole_of_fld hrole).trans hr)] at heq
    rw [hled.next (by rw [heq]; exact Option.some_ne_none _), heq]
    rfl

theorem status_received (hon : s.twOn = true) (hlink : s.fld F.twStat_LINK ≠ 0) (w0 w1 w2 : Word) :
    (bits w0.toNat 4 1 = s.fld F.twCfg0_UNIT → twinReceive w0 w1 w2 s = s) := fun hu => (twinReceive_eq hon hlink w0 w1 w2).trans (if_pos hu)

theorem pairsAgreeOnRoles : Stated.PairsAgreeOnRoles := by
  intro s
  dsimp only
  refine ⟨fun up h => ?_, fun hon hlink hlane => ⟨fun hno => ?_, fun hyes => ?_⟩, fun hon hlink hnext => ⟨fun hdrv => ?_, fun hr hl hw => ?_, fun hr hl hw => ?_⟩,
    fun h => ?_, fun hon hlink => ?_, fun hon hlink w0 w1 w2 => ⟨fun hu => ?_, fun hu => ⟨fun hdiff => ?_, fun hcfg hsdn hn => ⟨fun hd => ?_, fun hd => ?_⟩⟩⟩,
    fun h => ?_, fun hon hr hmsg hl hnext hpast => ?_, fun hl => ?_, fun x hl hx hmsg => ?_, fun x hl hx hmsg hnext => ?_,
    fun x hr hc hh hpast hnext => ?_, fun x hr hf hpast => ?_⟩
  · exact does_eq rfl (twinLink_of_same h)
  · have hup := twinLink_up hon hlink hlane
    rw [hno, if_neg Bool.false_ne_true] at hup
    exact does_next rfl ⟨congrArg (notify s) hup, by rw [State.notify_fld_get, hup]; exact (linkUp_leave s hlink).1⟩
  · have hup := twinLink_up hon hlink hlane
    rw [hyes, if_pos rfl, twinLinked_of_tw true (linkUp_leave s hlink).2] at hup
    exact does_eq rfl hup
  · have hd : (twinLinked false s).driving = true := (driving_of_fld (twinLinked_role false s)).trans hdrv
    exact does_eq rfl ((twinLink_down hon hlink).trans (partnerLost_of_driving hd hnext))
  · have hlost := partnerLost_of_standby (s := twinLinked false s) ((twinLinked_role false s).trans hr) hl hnext
    rw [twinLinked_witness, hw, if_neg Bool.false_ne_true] at hlost
    exact does_eq rfl ((twinLink_down hon hlink).trans hlost)
  · have hlost := partnerLost_of_standby (s := twinLinked false s) ((twinLinked_role false s).trans hr) hl hnext
    rw [twinLinked_witness, hw, if_pos rfl] at hlost
    exact does_eq rfl ((twinLink_down hon hlink).trans hlost)
  · exact does_eq rfl (twinSend_of_off h)
  · refine does_next rfl ?_
    obtain ⟨hno, hyes⟩ := latchHealth_cases s
    obtain ⟨w2, f, hf, hact, heng, hout⟩ := twinSend_sent hon hlink
    refine ⟨hno, hyes, _, _, w2, (out_isPrefix_notify s _).subset hout, fun hh hr hu ht => bits_status hh hr hu hf ht, bits_digest _, hact, heng⟩
  · exact does_eq rfl (status_received hon hlink w0 w1 w2 hu)
  · refine does_next rfl ?_
    simp only [State.notify_fld_get, State.notify_tw]
    rw [twinReceive_of_differ hon hlink hu hdiff]
    obtain ⟨hshown, hmsg, hprole⟩ := differing_shown w0 w1 w2 s rfl
    refine ⟨hshown, hmsg, hprole, fun hp hnot => configDiffers_of_other ((compared_pref ..).trans hp) ?_, fun hp hs hnext => ?_⟩
    · rcases hnot with h | h
      · exact .inl (by rw [show (noListen (compared (msgOf w0 w1 w2) s)).twRole = s.twRole from compared_role ..]; exact h)
      · refine .inr ?_
        rw [noListen_fld, compared_fld (by decide) (by decide) (by decide) (by decide) (by decide) (by decide)]
        exact h
    · have hpref : (noListen (compared (msgOf w0 w1 w2) s)).fld F.twCfg0_PREF ≠ 0 := by rw [noListen_fld, compared_pref]; exact hp
      rw [configDiffers_of_preferred hpref ((compared_next _ hs).trans hnext)]
      rw [show (noListen (compared (msgOf w0 w1 w2) s)).twRole = s.twRole from compared_role ..]
  · refine does_next rfl ?_
    simp only [State.notify_fld_get, State.notify_tw]
    rw [twinReceive_of_same hon hlink hu hcfg hsdn]
    exact matching_shown w0 w1 w2 s rfl hn hd
  · refine does_next rfl ?_
    simp only [State.notify_fld_get, State.notify_tw]
    rw [twinReceive_of_same hon hlink hu hcfg hsdn]
    exact differing_digest s hn hd
  · exact does_eq rfl (twinTimeout_of_driving h)
  · exact does_eq rfl ((twinTimeout_of_silent hon hr hmsg hpast).trans (partnerLost_of_standby hr hl hnext))
  · exact does_eq rfl (twinListen_of_none hl)
  · refine does_eq rfl ((twinListen_of_due hl hx).trans (if_pos ?_))
    exact Option.isSome_iff_ne_none.2 hmsg
  · refine does_eq rfl ((twinListen_of_due hl hx).trans ?_)
    refine (if_neg (by rw [hmsg]; decide)).trans ?_
    split
    · rfl
    · exact nextRole_of_none (s := noListen s) hnext
  · exact does_eq rfl (twinHoldoff_of_yielded hr hc hh hpast hnext)
  · exact does_eq rfl (twinHoldoff_of_standby hr hf hpast)

end Sys2Proof.Machine
end

section
/-! Obligation O51: self-tests and duplicate entries end (R313, R314, R321), and the obligation. -/

namespace Sys2Proof.Machine

variable {s t u : State}

/-! ### A self-test starts (R314) -/

theorem stest_of_may (hon : s.twOn = true) (htst : s.fld F.twStat_TST ≠ 1) : stest s = startTest true s := by
  unfold stest
  rw [if_pos (by simp [hon, htst])]

theorem stest_of_not (h : s.twOn = false ∨ s.fld F.twStat_TST = 1) : stest s = s := by
  unfold stest
  refine if_neg ?_
  rcases h with h | h <;> simp [h]

theorem startTest_shown (alone : Bool) (s : State) : (startTest alone s).fld F.twStat_TST = 1 ∧ (startTest alone s).tw.alone = alone
    ∧ (startTest alone s).tw.testFrom = s.tick ∧ (startTest alone s).tw.tstSent = false ∧ (startTest alone s).loft = s.loft := by
  have hask := AskKeeps.hwRequest plain_bist
    ({ s with tw := { s.tw with testDue := false, alone := alone, testFrom := s.tick, tstSent := false } }.put F.twStat_TST 1)
  have hput : (({ s with tw := { s.tw with testDue := false, alone := alone, testFrom := s.tick, tstSent := false } } : State).put F.twStat_TST 1).fld
      F.twStat_TST = 1 := (State.put_fld ..).trans (by decide)
  have htw : (({ s with tw := { s.tw with testDue := false, alone := alone, testFrom := s.tick, tstSent := false } } : State).put F.twStat_TST 1).tw =
      { s.tw with testDue := false, alone := alone, testFrom := s.tick, tstSent := false } := rfl
  have hloft : (({ s with tw := { s.tw with testDue := false, alone := alone, testFrom := s.tick, tstSent := false } } : State).put F.twStat_TST 1).loft =
      s.loft := rfl
  unfold startTest
  generalize ({ s with tw := { s.tw with testDue := false, alone := alone, testFrom := s.tick, tstSent := false } } : State).put F.twStat_TST 1 = v at *
  refine ⟨(hask.fld _ (by decide) 0 0).trans hput, ?_, ?_, ?_, hask.loft.trans hloft⟩
  all_goals rw [hask.tw, htw]

theorem finish_served_tw (w : Who) (s : State) : (finish w { st := s }).tw = s.tw := by cases w <;> rfl

/-! ### A self-test ends (R313, R314, R335) -/

/-- The outcome of a test is kept. -/
def testEnded (ok : Bool) (s : State) : State :=
  let u := (returnUse (fun x => x == .bist) s).put F.twStat_TST (if ok then 2 else 3)
  { u with tw := { u.tw with failed := !ok, ueSeen := false } }

theorem testEnded_shown (ok : Bool) (s : State) : (testEnded ok s).fld F.twStat_TST = (if ok then 2 else 3) ∧ (testEnded ok s).tw.failed = !ok
    ∧ (testEnded ok s).tw.ueSeen = false := by
  refine ⟨(State.put_fld (returnUse (fun x => x == .bist) s) F.twStat_TST (if ok then 2 else 3) 0 0).trans ?_, rfl, rfl⟩
  cases ok <;> decide

/-- A test has taken longer than its 20 ms. -/
def State.testLate (s : State) (late : Bool) : Bool := late || s.tw.testFrom + 5000000 < s.tick

theorem selftestEnd_of_waiting {bist late : Bool} (h : s.fld F.twStat_TST ≠ 1 ∨ s.testLate late = false ∧ s.pw.grants.any (·.use == .bist) = false) :
    selftestEnd bist late s = s := by
  unfold selftestEnd
  refine if_pos ?_
  rcases h with h | ⟨hl, hg⟩
  · simp [h]
  · unfold State.testLate at hl
    rw [hl, hg]
    simp

theorem selftestEnd_of_over {bist late : Bool} (htst : s.fld F.twStat_TST = 1) (h : s.testLate late = true ∨ s.pw.grants.any (·.use == .bist) = true)
    {r : Nat × State} (hr : digestOf (readStores (if s.testLate late then passTo (s.tw.testFrom + 5000000) s else s)) = r) :
    selftestEnd bist late s = testEnded (bist && !s.testLate late && !r.2.testFinds && r.1 == r.2.fld F.twDig_DIGEST) r.2 := by
  have hgo : (decide (s.fld F.twStat_TST ≠ 1) || !(s.testLate late || s.pw.grants.any (·.use == .bist))) = false := by
    rcases h with h | h <;> simp [htst, h]
  unfold selftestEnd
  extract_lets limit tooLong v
  have hlate : s.testLate late = tooLong := rfl
  rw [hlate] at hgo hr ⊢
  rw [hgo, if_neg Bool.false_ne_true]
  have hv : (if tooLong then passTo (s.tw.testFrom + 5000000) s else s) = v := rfl
  rw [hv] at hr
  rw [hr]
  obtain ⟨d, w⟩ := r
  rfl

theorem readStores_steady (s : State) : Steady s (readStores s) := (Steady.refl s).foldl (fun s _ => memRead_steady _ s) _

/-- A word of a region is read. -/
def digestWord (k : Nat) (a : List Byte × State) (i : Nat) : List Byte × State :=
  let r := memRead (mgPlace (a.2.bufWord k (a.2.rg k).front i)) a.2
  (a.1 ++ wordBytes r.1.word, r.2)

theorem digestWord_steady (k : Nat) (a : List Byte × State) (i : Nat) : Steady a.2 (digestWord k a i).2 := memRead_steady ..

/-- The words of a region are read. -/
def digestRegion (a : List Byte × State) (k : Nat) : List Byte × State := (List.range (a.2.rgSize k)).foldl (digestWord k) a

theorem steady_foldl_pair {α : Type} {f : List Byte × State → α → List Byte × State} (hf : ∀ a x, Steady a.2 (f a x).2) (l : List α)
    (a : List Byte × State) : Steady a.2 (l.foldl f a).2 := by
  induction l generalizing a with
  | nil => exact .refl _
  | cons x l ih => exact (hf a x).trans (ih _)

theorem steady_foldl_from {α : Type} {f : List Byte × State → α → List Byte × State} (hf : ∀ a x, Steady a.2 (f a x).2) (l : List α)
    (bs : List Byte) (s : State) : Steady s (l.foldl f (bs, s)).2 := steady_foldl_pair hf l (bs, s)

theorem digestRegion_steady (a : List Byte × State) (k : Nat) : Steady a.2 (digestRegion a k).2 := by
  unfold digestRegion
  exact steady_foldl_pair (digestWord_steady k) ..

/-- The regions and the digest get names of their own, as in `digestOf_mems`. -/
theorem digestOf_steady (s : State) : Steady s (digestOf s).2 := by
  obtain ⟨regions, hr⟩ : ∃ r, r = State.outRegions := ⟨_, rfl⟩
  obtain ⟨digest, hd⟩ : ∃ d, d = digestOf := ⟨_, rfl⟩
  have h := steady_foldl_from digestRegion_steady (regions s) [] s
  rw [← hd]
  delta digestOf at hd
  rw [← hr] at hd
  rw [hd]
  exact h

/-! ### Duplicate discard (R321) -/

theorem ddAge_of_none {src : Nat} (h : ∀ e ∈ s.tw.dd, e.src ≠ src) : ddAge src s = s := by
  have hnone : s.tw.dd.find? (·.src == src) = none := List.find?_eq_none.2 fun e he => by simpa using h e he
  rw [ddAge, hnone]

theorem ddAge_of_unused {src : Nat} {e : DdEnt} (h : s.tw.dd.find? (·.src == src) = some e) (hpast : e.used + 100000000 ≤ s.tick) :
    ddAge src s = { s with tw := { s.tw with dd := s.tw.dd.filter (·.src ≠ src) } } := by
  rw [ddAge, h]
  dsimp only
  rw [passTo_of_past hpast]

/-! ### The obligation -/

theorem selfTestsAndDuplicateEntriesEnd : Stated.SelfTestsAndDuplicateEntriesEnd := by
  intro s hclk happ
  refine ⟨fun w hh hsup hon htst => ?_, fun w hh hjtag hnot => ?_, fun a b htst => ?_, fun htst => ⟨fun bist hleave hle => ?_, fun bist late hbad => ?_,
    fun hleave hle hdig hfinds => ?_⟩, fun src => ⟨fun hnone => ?_, fun e he hpast => ?_⟩⟩
  · have hstart := startTest_shown true s
    refine does_next (u := finish w { st := startTest true s }) ?_ ?_
    · refine congrArg (done s) ((blockWriteQuiet_of_may hh happ (not_jtag_of_supervisor hsup) hsup).trans ?_)
      rw [stest_of_may hon htst]
    · simp only [State.notify_fld_get, State.notify_tw, State.notify_loft, finish_served_fld, finish_served_tw, finish_served_loft]
      exact hstart
  · refine does_next (u := finish w { st := s }) (congrArg (done s) ?_) rfl
    cases hsup : s.supervisor w with
    | false => exact blockWriteQuiet_of_not_may hh happ hjtag hsup
    | true =>
      rw [hsup] at hnot
      refine (blockWriteQuiet_of_may hh happ hjtag hsup).trans ?_
      rw [stest_of_not (hnot.resolve_left (by decide))]
  · exact does_eq rfl (selftestEnd_of_waiting (.inl htst))
  · refine does_eq rfl (selftestEnd_of_waiting (.inr ⟨?_, hleave⟩))
    simp only [State.testLate, Bool.false_or, decide_eq_false_iff_not, Nat.not_lt]
    exact hle
  · have hlate : s.testLate late = true ∨ (bist = false ∧ s.pw.grants.any (·.use == .bist) = true) := by
      simp only [State.testLate, Bool.or_eq_true, decide_eq_true_eq]
      tauto
    refine does_next rfl ?_
    simp only [State.notify_fld_get, State.notify_tw]
    have hok : ∀ b c : Bool, (bist && !s.testLate late && b && c) = false := fun b c => by
      rcases hlate with h | ⟨h, -⟩ <;> simp [h]
    rw [selftestEnd_of_over htst (hlate.imp_right And.right) rfl, hok]
    exact testEnded_shown false _
  · have hlate : s.testLate false = false := by
      simp only [State.testLate, Bool.false_or, decide_eq_false_iff_not, Nat.not_lt]
      exact hle
    refine does_next rfl ?_
    simp only [State.notify_fld_get, State.notify_tw]
    have hsame : (digestOf (readStores s)).2.fld F.twDig_DIGEST = s.fld F.twDig_DIGEST :=
      ((readStores_steady s).trans (digestOf_steady _)).fld _ (by decide) 0 0
    have hread : digestOf (readStores (if s.testLate false then passTo (s.tw.testFrom + 5000000) s else s)) = digestOf (readStores s) := by
      rw [hlate, if_neg Bool.false_ne_true]
    rw [selftestEnd_of_over htst (.inr hleave) hread, hlate, hfinds, hdig, hsame]
    have hok : (true && !false && !false && s.fld F.twDig_DIGEST == s.fld F.twDig_DIGEST) = true := by simp
    rw [hok]
    exact testEnded_shown true _
  · exact does_eq rfl (ddAge_of_none hnone)
  · exact does_eq rfl (ddAge_of_unused he hpast)

/-- Settles O51: the link and STATUS by the role that each brings, the self-test by what it finds and how long it takes. -/
theorem redundantPairsAgreeAndTest : Obligations.RedundantPairsAgreeAndTest := ⟨pairsAgreeOnRoles, selfTestsAndDuplicateEntriesEnd⟩

end Sys2Proof.Machine
end

section
/-! CAN transmit buffers are written, requested and withdrawn (R284, R285, R287, R292). -/

namespace Sys2Proof.Machine

variable {s t u : State} {w : Who} {n k : Nat}

/-! ### A buffer's words (R285) -/

/-- The fields of a buffer's header. -/
def canHdrFlds : List Fld := [F.canTxHdr_IDE, F.canTxHdr_RTR, F.canTxHdr_FDF, F.canTxHdr_BRS, F.canTxHdr_DLC, F.canTxHdr_ID]

/-- Fields put one after the other, each from its bits of a word, show those bits. -/
theorem foldl_putBits_fld (v : Nat) (n k : Nat) (l : List Fld) (hl : (l.map Fld.id).Nodup) (s : State) :
    ∀ f ∈ l, (l.foldl (fun s f => s.put f (bits v f.lo f.width) n k) s).fld f n k = bits v f.lo f.width := by
  have hkeep : ∀ (l : List Fld) (s : State) (f : Fld), f.id ∉ l.map Fld.id →
      (l.foldl (fun s f => s.put f (bits v f.lo f.width) n k) s).fld f n k = s.fld f n k := fun l => by
    induction l with
    | nil => exact fun _ _ _ => rfl
    | cons g l ih =>
      intro s f hf
      rw [List.map_cons, List.mem_cons, not_or] at hf
      exact (ih _ f hf.2).trans (State.put_fld_ne _ _ _ _ _ _ _ _ hf.1)
  induction l generalizing s with
  | nil => exact fun f hf => absurd hf List.not_mem_nil
  | cons g l ih =>
    intro f hf
    rw [List.map_cons, List.nodup_cons] at hl
    rcases List.mem_cons.1 hf with rfl | hmem
    · refine (hkeep l _ f hl.1).trans ((State.put_fld ..).trans ?_)
      exact Nat.mod_eq_of_lt (Nat.mod_lt _ (Nat.two_pow_pos _))
    · exact ih hl.2 _ f hmem

theorem canBufWrite_header (v : Word) (h : s.fld F.canTxCtl_TXREQ n k = 0) :
    canBufWrite n k 0 v s = canHdrFlds.foldl (fun s f => s.put f (bits v.toNat f.lo f.width) n k) s := by
  unfold canBufWrite
  rw [State.on_eq_false.2 h, if_neg Bool.false_ne_true]
  rfl

theorem canBufWrite_data {j : Nat} (v : Word) (h : s.fld F.canTxCtl_TXREQ n k = 0) :
    canBufWrite n k (j + 1) v s = s.put F.canTxData_DATA v.toNat n (11 * k + j) := by
  unfold canBufWrite
  rw [State.on_eq_false.2 h, if_neg Bool.false_ne_true]
  rfl

theorem canBufWrite_of_requested (j : Nat) (v : Word) (h : s.fld F.canTxCtl_TXREQ n k ≠ 0) : canBufWrite n k j v s = s.put F.canEvt_TXBUSY 1 n := by
  unfold canBufWrite
  rw [State.on_eq_true.2 h, if_pos rfl]

theorem foldl_putBits_rest (v n k : Nat) (l : List Fld) (s : State) :
    (l.foldl (fun s f => s.put f (bits v f.lo f.width) n k) s).can = s.can ∧ (l.foldl (fun s f => s.put f (bits v f.lo f.width) n k) s).eng = s.eng :=
  ⟨foldl_part (p := State.can) (f := fun s (f : Fld) => s.put f (bits v f.lo f.width) n k) (fun _ _ => rfl) l s,
    foldl_part (p := State.eng) (f := fun s (f : Fld) => s.put f (bits v f.lo f.width) n k) (fun _ _ => rfl) l s⟩

/-! ### Requests (R284, R285) -/

theorem canRequest_of_requested (h : s.fld F.canTxCtl_TXREQ n k ≠ 0) : canRequest n k s = s := by
  unfold canRequest
  rw [State.on_eq_true.2 h, if_pos rfl]

theorem canRequest_of_free (h : s.fld F.canTxCtl_TXREQ n k = 0) :
    canRequest n k s = ((s.put F.canTxCtl_TXREQ 1 n k).put F.canTxCtl_SENT 0 n k).put F.canTxCtl_ABTD 0 n k := by
  unfold canRequest
  rw [State.on_eq_false.2 h, if_neg Bool.false_ne_true]

theorem canAbort_of_free (h : s.fld F.canTxCtl_TXREQ n k = 0) : canAbort n k s = s := by
  unfold canAbort
  rw [State.on_eq_false.2 h]
  rfl

theorem canAbort_of_requested (h : s.fld F.canTxCtl_TXREQ n k ≠ 0) : canAbort n k s =
    if (s.cn n).bus = some k then (s.put F.canTxCtl_ABTD 1 n k).setCn n { s.cn n with abort := true }
    else (s.put F.canTxCtl_ABTD 1 n k).put F.canTxCtl_TXREQ 0 n k := by
  unfold canAbort
  rw [State.on_eq_true.2 h]
  rfl

theorem finish_served_can (w : Who) (s : State) : (finish w { st := s }).can = s.can := by cases w <;> rfl

/-- A write that its writer may make. -/
theorem does_written {c : Instr} {ok : State → Bool} {f : State → State} (he : exec c s = done s (blockWrite w ok f s)) (hh : s.heard w = true)
    (ha : s.applied = true) (hok : ok s = true) (hu : f s = u) : Does c s fun t => t = notify s (finish w { st := u }) :=
  does_next (he.trans (congrArg (done s) (blockWrite_of_may hh ha hok))) (by rw [hu])

/-- A write that its writer may not make. -/
theorem does_unwritten {c : Instr} {ok : State → Bool} {f : State → State} (he : exec c s = done s (blockWrite w ok f s)) (hh : s.heard w = true)
    (ha : s.applied = true) (hok : ok s = false) : Does c s fun t => t = notify s (finish w (denied s)) :=
  does_next (he.trans (congrArg (done s) (blockWrite_of_not_may hh ha hok))) rfl

theorem canBuffersAreRequestedAndWithdrawn : Stated.CanBuffersAreRequestedAndWithdrawn := by
  intro s w n k hh ha
  refine ⟨fun hmay j v => ⟨?_, ?_, ?_, ?_⟩, fun hmay => ⟨?_, fun hreq => ⟨fun j v => ?_, ?_, fun hbus => ?_, fun hbus => ?_⟩,
    fun hreq => ⟨fun j j' v hj => ?_, fun v => ?_, ?_, ?_⟩⟩⟩
  · exact does_unwritten (ok := (·.mayCan w n)) rfl hh ha hmay
  · exact does_unwritten (ok := (·.mayCan w n)) rfl hh ha hmay
  · exact does_unwritten (ok := (·.mayCan w n)) rfl hh ha hmay
  · exact does_unwritten (ok := (·.mayCan w n)) rfl hh ha hmay
  · exact does_written (ok := (·.mayCan w n)) rfl hh ha hmay rfl
  · exact does_written (ok := (·.mayCan w n)) rfl hh ha hmay (canBufWrite_of_requested j v hreq)
  · exact does_written (ok := (·.mayCan w n)) rfl hh ha hmay (canRequest_of_requested hreq)
  · exact does_written (ok := (·.mayCan w n)) rfl hh ha hmay ((canAbort_of_requested hreq).trans (if_pos hbus))
  · exact does_written (ok := (·.mayCan w n)) rfl hh ha hmay ((canAbort_of_requested hreq).trans (if_neg hbus))
  · refine does_written (ok := (·.mayCan w n)) rfl hh ha hmay ?_
    rw [hj]
    exact canBufWrite_data v hreq
  · refine does_next (u := finish w { st := canBufWrite n k 0 v s }) (congrArg (done s) (blockWrite_of_may (ok := (·.mayCan w n)) hh ha hmay)) ?_
    simp only [State.notify_fld_get, State.notify_can, State.notify_eng, finish_served_fld, finish_served_can, finish_served_eng]
    rw [canBufWrite_header v hreq]
    exact ⟨foldl_putBits_fld v.toNat n k canHdrFlds (by decide) s, foldl_putBits_rest v.toNat n k canHdrFlds s⟩
  · exact does_written (ok := (·.mayCan w n)) rfl hh ha hmay (canAbort_of_free hreq)
  · exact does_written (ok := (·.mayCan w n)) rfl hh ha hmay (canRequest_of_free hreq)

end Sys2Proof.Machine
end

section
/-! What the steps of a CAN controller write and leave (R286 to R292). -/

namespace Sys2Proof.Machine

variable {s t u : State} {n k : Nat}

/-! ### The frame of a step -/

/-- A step of controller `n` that sends nothing writes the fields `ids` alone, and leaves the bus, the monitoring and time. -/
structure CanKeeps (n : Nat) (ids : List Nat) (s t : State) : Prop where
  out : t.out = s.out
  time : t.tick = s.tick ∧ t.tkBase = s.tkBase
  lay : t.lay = s.lay
  bus : (t.cn n).bus = (s.cn n).bus
  mon : (t.cn n).mon = (s.cn n).mon
  abort : (t.cn n).abort = (s.cn n).abort
  fld : ∀ f : Fld, f.id ∉ ids → ∀ i j, t.fld f i j = s.fld f i j

namespace CanKeeps
variable {ids more : List Nat}

theorem refl (s : State) : CanKeeps n ids s s := ⟨rfl, ⟨rfl, rfl⟩, rfl, rfl, rfl, rfl, fun _ _ _ _ => rfl⟩

theorem trans (h : CanKeeps n ids s t) (g : CanKeeps n ids t u) : CanKeeps n ids s u :=
  ⟨g.out.trans h.out, ⟨g.time.1.trans h.time.1, g.time.2.trans h.time.2⟩, g.lay.trans h.lay, g.bus.trans h.bus, g.mon.trans h.mon, g.abort.trans h.abort,
    fun f hf i j => (g.fld f hf i j).trans (h.fld f hf i j)⟩

theorem mono (h : CanKeeps n ids s t) (hsub : ids ⊆ more) : CanKeeps n more s t :=
  ⟨h.out, h.time, h.lay, h.bus, h.mon, h.abort, fun f hf i j => h.fld f (fun hm => hf (hsub hm)) i j⟩

theorem put (s : State) {f : Fld} (hf : f.id ∈ ids) (v i j : Nat) : CanKeeps n ids s (s.put f v i j) :=
  ⟨rfl, ⟨rfl, rfl⟩, rfl, rfl, rfl, rfl, fun _ hg _ _ => State.put_fld_ne _ _ _ _ _ _ _ _ fun e => hg (e ▸ hf)⟩

theorem bump (s : State) {f : Fld} (hf : f.id ∈ ids) (i j m : Nat) : CanKeeps n ids s (s.bump f i j m) := put s hf ..

theorem setCn (s : State) {x : CanS} (hb : x.bus = (s.cn n).bus) (hm : x.mon = (s.cn n).mon) (ha : x.abort = (s.cn n).abort) :
    CanKeeps n ids s (s.setCn n x) :=
  ⟨rfl, ⟨rfl, rfl⟩, rfl, by rw [State.setCn_cn, hb], by rw [State.setCn_cn, hm], by rw [State.setCn_cn, ha], fun _ _ _ _ => rfl⟩

theorem of_ite {c : Prop} [Decidable c] {a b : State} (ha : CanKeeps n ids s a) (hb : CanKeeps n ids s b) : CanKeeps n ids s (if c then a else b) := by
  split
  · exact ha
  · exact hb

theorem foldl {α : Type} {f : State → α → State} (hf : ∀ s x, CanKeeps n ids s (f s x)) (l : List α) (s : State) : CanKeeps n ids s (l.foldl f s) := by
  induction l generalizing s with
  | nil => exact refl s
  | cons a l ih => exact (hf s a).trans (ih _)

end CanKeeps

/-- The fields that CAN's modes come from. -/
def canModeFlds : List Nat := [F.twCfg0_EN.id, F.twCfg0_CANMASK.id, F.twStat_ROLE.id, F.canCfg0_MODE.id]

/-- The mode follows the monitoring, the bus, the layout and its fields. -/
theorem canMode_of_same (hm : (t.cn n).mon = (s.cn n).mon) (hb : (t.cn n).bus = (s.cn n).bus) (hl : t.lay = s.lay)
    (hf : ∀ f : Fld, f.id ∈ canModeFlds → ∀ i j, t.fld f i j = s.fld f i j) : t.canMode n = s.canMode n := by
  unfold State.canMode State.canCfgMode State.eff State.on State.driving
  rw [hm, hb, hl, hf F.twCfg0_EN (by decide), hf F.twCfg0_CANMASK (by decide), hf F.twStat_ROLE (by decide), hf F.canCfg0_MODE (by decide)]

theorem CanKeeps.mode {ids : List Nat} (h : CanKeeps n ids s t) (hids : ∀ x ∈ canModeFlds, x ∉ ids) : t.canMode n = s.canMode n :=
  canMode_of_same h.mon h.bus h.lay fun f hf i j => h.fld f (hids _ hf) i j

/-! ### The interrupt and the FIFO (R287, R292) -/

/-- The fields that an interrupt writes. -/
def irqFlds : List Nat := F.eirq_PEND.id :: wakeFlds

theorem canIrq_keeps (n : Nat) (s : State) : CanKeeps n irqFlds s (canIrq n s) ∧ (canIrq n s).can = s.can := by
  have hfld : ∀ f : Fld, f.id ∉ irqFlds → ∀ i j, (canIrq n s).fld f i j = s.fld f i j := fun f hf i j => by
    rw [irqFlds, List.mem_cons, not_or] at hf
    unfold canIrq hwIrq
    exact (wakeStable_fld hf.2 ..).trans (State.put_fld_ne _ _ _ _ _ _ _ _ hf.1)
  obtain ⟨a, p, b, h⟩ := wakeStable_eq (s.fld F.canCfg0_IRQENG n / 8) (setIrq (s.fld F.canCfg0_IRQENG n) 4 s)
  have heq : canIrq n s = { setIrq (s.fld F.canCfg0_IRQENG n) 4 s with act := a, pw := p, stb := b } := h
  have hrest : (canIrq n s).out = s.out ∧ (canIrq n s).tick = s.tick ∧ (canIrq n s).tkBase = s.tkBase ∧ (canIrq n s).lay = s.lay
      ∧ (canIrq n s).can = s.can := by
    rw [heq]
    exact ⟨rfl, rfl, rfl, rfl, rfl⟩
  obtain ⟨ho, ht, hk, hl, hc⟩ := hrest
  have hcn : (canIrq n s).cn n = s.cn n := by rw [State.cn, hc, State.cn]
  exact ⟨⟨ho, ⟨ht, hk⟩, hl, by rw [hcn], by rw [hcn], by rw [hcn], hfld⟩, hc⟩

/-- The fields that a stored frame writes. -/
def canStoreFlds : List Nat :=
  [F.canCnt_RXOVR.id, F.canEvt_RXOVR.id, F.canEvt_RXF.id, F.canCnt_NOMATCH.id, F.canRxbHdr_IDE.id, F.canRxbHdr_RTR.id, F.canRxbHdr_FDF.id,
   F.canRxbHdr_BRS.id, F.canRxbHdr_ESI.id, F.canRxbHdr_DLC.id, F.canRxbHdr_FIDX.id, F.canRxbHdr_ID.id, F.canRxbData_DATA.id, F.canRxbTs_TK.id,
   F.canRxbStat_OVW.id, F.canRxbStat_ND.id, F.canEvt_RXB.id] ++ irqFlds

theorem canFifo_keeps (n : Nat) (x : CanRx) (s : State) : CanKeeps n canStoreFlds s (canFifo n x s) := by
  unfold canFifo
  refine .of_ite ((CanKeeps.bump s (by decide) ..).trans (.put _ (by decide) ..)) ?_
  refine .trans ?_ ((canIrq_keeps ..).1.mono (List.subset_append_right ..))
  refine .trans (.setCn s (x := { s.cn n with fifo := (s.cn n).fifo ++ [x] }) rfl rfl rfl) (.put _ (by decide) ..)

theorem foldl_put_keeps (l : List Fld) (hl : ∀ f ∈ l, f.id ∈ canStoreFlds) (v n j : Nat) (s : State) :
    CanKeeps n canStoreFlds s (l.foldl (fun s f => s.put f (bits v f.lo f.width) n j) s) := by
  induction l generalizing s with
  | nil => exact .refl s
  | cons f l ih => exact (CanKeeps.put s (hl f List.mem_cons_self) ..).trans (ih (fun g hg => hl g (List.mem_cons_of_mem _ hg)) _)

theorem canBuf_keeps (n j : Nat) (x : CanRx) (s : State) : CanKeeps n canStoreFlds s (canBuf n j x s) := by
  unfold canBuf
  extract_lets v w z
  have hv : CanKeeps n canStoreFlds s v := foldl_put_keeps _ (by decide) ..
  have hw : CanKeeps n canStoreFlds s w := hv.trans (.trans (.put v (f := F.canRxbTs_TK) (by decide) ..) (.foldl (fun s _ => .put s (by decide) ..) ..))
  have hz : CanKeeps n canStoreFlds s z := .of_ite (hw.trans (.put w (by decide) ..)) hw
  clear_value z
  refine .trans ?_ ((canIrq_keeps ..).1.mono (List.subset_append_right ..))
  exact hz.trans (.trans (.put z (f := F.canRxbStat_ND) (by decide) ..) (.put _ (by decide) ..))

theorem canSort_keeps (n ts : Nat) (fr : CanFrame) (s : State) : CanKeeps n canStoreFlds s (canSort n ts fr s) := by
  unfold canSort
  extract_lets ident len entry
  split
  · exact .of_ite (canFifo_keeps ..) (.bump s (by decide) ..)
  · split
    · exact canFifo_keeps ..
    · exact canBuf_keeps ..
    · exact .refl s

/-! ### Fault confinement (R290) -/

/-- The fields that the state of fault confinement writes. -/
def canStateFlds : List Nat :=
  [F.canStat_TEC.id, F.canStat_FCS.id, F.canEvt_EPASS.id, F.canEvt_BOFF.id, F.canCnt_BUSOFF.id, F.canStat_BOREC.id]

/-- The state that the counters give. -/
def fcsOf (tec rec : Nat) : Nat := if tec > 255 then 2 else if tec ≥ 128 ∨ rec ≥ 128 then 1 else 0

/-- The counters and the state are shown, before what bus-off brings. -/
def canShown (n tec : Nat) (s : State) : State :=
  let old := s.fld F.canStat_FCS n
  let new := fcsOf tec (s.fld F.canStat_REC n)
  let s := (s.put F.canStat_TEC (min tec 255) n).put F.canStat_FCS new n
  let s := if (old = 1) ≠ (new = 1) then s.put F.canEvt_EPASS 1 n else s
  if old ≠ 1 ∧ new = 1 then s.setCn n { s.cn n with heard := false, lone := false } else s

/-- Bus-off begins. -/
def busOffShown (n : Nat) (s : State) : State := ((s.put F.canEvt_BOFF 1 n).bump F.canCnt_BUSOFF n).put F.canStat_BOREC 0 n

theorem canState_eq (n tec : Nat) (s : State) : canState n tec s =
    if s.fld F.canStat_FCS n ≠ 2 ∧ fcsOf tec (s.fld F.canStat_REC n) = 2 then canDrop n (busOffShown n (canShown n tec s)) else canShown n tec s := rfl

theorem fcsOf_lt (tec rec : Nat) : fcsOf tec rec < 4 := by
  unfold fcsOf
  split_ifs <;> decide

/-- What the shown counters leave of the rest, and the FIFO. -/
theorem canShown_keeps (n tec : Nat) (s : State) : CanKeeps n canStateFlds s (canShown n tec s) ∧ ((canShown n tec s).cn n).fifo = (s.cn n).fifo := by
  unfold canShown
  extract_lets old new v w x
  have hv : CanKeeps n canStateFlds s v := .trans (.put s (f := F.canStat_TEC) (by decide) ..) (.put _ (by decide) ..)
  have hw : CanKeeps n canStateFlds s w := .of_ite (hv.trans (.put v (by decide) ..)) hv
  have hcan : w.can = s.can := by
    unfold w
    split_ifs <;> rfl
  have hcn : w.cn n = s.cn n := by rw [State.cn, hcan, State.cn]
  obtain ⟨hbus, hmon, hab, hfifo⟩ : x.bus = (w.cn n).bus ∧ x.mon = (w.cn n).mon ∧ x.abort = (w.cn n).abort ∧ x.fifo = (s.cn n).fifo := 
    ⟨rfl, rfl, rfl, congrArg CanS.fifo hcn⟩
  clear_value x w
  split_ifs
  · refine ⟨hw.trans (.setCn w hbus hmon hab), ?_⟩
    rw [State.setCn_cn]
    exact hfifo
  · exact ⟨hw, congrArg CanS.fifo hcn⟩

theorem canShown_values (n tec : Nat) (s : State) : (canShown n tec s).fld F.canStat_TEC n = min tec 255 % 2 ^ F.canStat_TEC.width
    ∧ (canShown n tec s).fld F.canStat_FCS n = fcsOf tec (s.fld F.canStat_REC n) := by
  unfold canShown
  extract_lets old new v w
  have hv : v.fld F.canStat_TEC n = min tec 255 % 2 ^ F.canStat_TEC.width ∧ v.fld F.canStat_FCS n = new :=
    ⟨(State.put_fld_ne _ _ _ _ _ _ _ _ (by decide)).trans (State.put_fld ..), (State.put_fld ..).trans (Nat.mod_eq_of_lt (fcsOf_lt ..))⟩
  have hw : w.fld F.canStat_TEC n = v.fld F.canStat_TEC n ∧ w.fld F.canStat_FCS n = v.fld F.canStat_FCS n := by
    unfold w
    split_ifs
    · exact ⟨State.put_fld_ne _ _ _ _ _ _ _ _ (by decide), State.put_fld_ne _ _ _ _ _ _ _ _ (by decide)⟩
    · exact ⟨rfl, rfl⟩
  rw [← hw.1, ← hw.2] at hv
  split_ifs
  · exact hv
  · exact hv

/-- A controller with nothing on the bus drops nothing. -/
theorem canDrop_of_idle (h : (s.cn n).bus = none) : canDrop n s = s := by
  unfold canDrop
  dsimp only
  rw [h]

theorem canDrop_of_sending {k : Nat} (h : (s.cn n).bus = some k) : canDrop n s =
    if (s.cn n).abort then (s.setCn n { s.cn n with bus := none, abort := false }).put F.canTxCtl_TXREQ 0 n k
    else s.setCn n { s.cn n with bus := none, abort := false } := by
  unfold canDrop
  dsimp only
  rw [h]

theorem busOffShown_keeps (n : Nat) (s : State) : CanKeeps n canStateFlds s (busOffShown n s) :=
  .trans (.trans (.put s (f := F.canEvt_BOFF) (by decide) ..) (.bump _ (by decide) ..)) (.put _ (by decide) ..)

/-- The counters of a controller with nothing on the bus. -/
theorem canState_idle (tec : Nat) (h : (s.cn n).bus = none) : CanKeeps n canStateFlds s (canState n tec s)
    ∧ ((canState n tec s).cn n).fifo = (s.cn n).fifo ∧ (canState n tec s).fld F.canStat_TEC n = min tec 255 % 2 ^ F.canStat_TEC.width := by
  obtain ⟨hkeeps, hfifo⟩ := canShown_keeps n tec s
  obtain ⟨htec, -⟩ := canShown_values n tec s
  rw [canState_eq]
  split_ifs
  · have hoff := hkeeps.trans (busOffShown_keeps n _)
    rw [canDrop_of_idle (hoff.bus.trans h)]
    refine ⟨hoff, hfifo, ?_⟩
    exact (State.put_fld_ne _ _ _ _ _ _ _ _ (by decide)).trans ((State.bump_fld_ne _ _ _ _ _ _ _ _ (by decide)).trans
      ((State.put_fld_ne _ _ _ _ _ _ _ _ (by decide)).trans htec))
  · exact ⟨hkeeps, hfifo, htec⟩

/-- Counters that stay below the error-passive state. -/
theorem canState_active {tec : Nat} (h0 : tec < 128) (hrec : s.fld F.canStat_REC n < 128) : canState n tec s = canShown n tec s
    ∧ (canShown n tec s).fld F.canStat_TEC n = tec ∧ (canShown n tec s).fld F.canStat_FCS n = 0 := by
  obtain ⟨htec, hfcs⟩ := canShown_values n tec s
  have hnew : fcsOf tec (s.fld F.canStat_REC n) = 0 := by
    unfold fcsOf
    rw [if_neg (by omega), if_neg (by omega)]
  rw [hnew] at hfcs
  refine ⟨?_, htec.trans ?_, hfcs⟩
  · rw [canState_eq, hnew, if_neg (by omega)]
  · rw [Nat.min_eq_left (by omega)]
    exact Nat.mod_eq_of_lt (Nat.lt_trans h0 (by decide))

end Sys2Proof.Machine
end

section
/-! A CAN controller's frames start and end (R284, R285, R289, R291, R318). -/

namespace Sys2Proof.Machine

variable {s t u : State} {n k : Nat}

/-! ### What a controller sends -/

/-- What a controller sends of `o`, where it drives TXD. -/
def canSent (s : State) (n : Nat) (o : Out) : List Out := if s.canTxd n = .driven then [o] else []

theorem canSend_eq (n : Nat) (o : Out) (s : State) : canSend n o s = { s with out := s.out ++ canSent s n o } := by
  unfold canSend canSent
  split_ifs
  · rfl
  · rw [List.append_nil]

/-- The column of R373 follows the boot and the layout's application. -/
theorem column_of_same (hb : t.boot = s.boot) (ha : t.fld F.gcLaystat_APPLIED 0 0 = s.fld F.gcLaystat_APPLIED 0 0) : t.column = s.column := by
  unfold State.column State.applied State.on
  rw [hb, ha]

theorem canSent_of_running {o : Out} (hcol : s.column = .running) (hm : s.canMode n = 1 ∨ s.canMode n = 3) : canSent s n o = [o] := by
  unfold canSent State.canTxd
  rw [if_neg (not_not.2 hcol), if_pos hm, if_pos rfl]

theorem canSent_of_quiet {o : Out} (hm : ¬(s.canMode n = 1 ∨ s.canMode n = 3)) : canSent s n o = [] := by
  unfold canSent State.canTxd
  split_ifs with hcol hdriven hdriven
  · exact absurd hdriven (by decide)
  · rfl
  · exact absurd hdriven (by decide)
  · rfl

/-- The end of a command sends messages of vectors alone. -/
theorem mem_out_notify {o : Out} (ho : ∀ v, o ≠ .msix v) : o ∈ (notify s t).out ↔ o ∈ t.out := by
  refine ⟨fun h => ?_, fun h => (out_isPrefix_notify s t).subset h⟩
  rcases List.mem_append.1 h with h | h
  · exact h
  · obtain ⟨v, -, rfl⟩ := List.mem_map.1 h
    exact absurd rfl (ho v)

/-! ### The buffer that a start point takes (R284) -/

/-- The better of the buffer taken so far and the next one. -/
def betterKey (s : State) (n : Nat) (b : Option Nat) (k : Nat) : Option Nat :=
  match b with
  | none => some k
  | some b => if s.canKey n k < s.canKey n b then some k else some b

theorem canChoice_eq : s.canChoice n = if s.on F.canCfg0_TXORD n then ((List.range 3).filter fun k => s.on F.canTxCtl_TXREQ n k).head?
    else ((List.range 3).filter fun k => s.on F.canTxCtl_TXREQ n k).foldl (betterKey s n) none := rfl

/-- The buffer that is taken of a list, after `b`, wins over all of them. -/
theorem foldl_betterKey (l : List Nat) (b : Nat) :
    ∃ k ∈ b :: l, l.foldl (betterKey s n) (some b) = some k ∧ ∀ k' ∈ b :: l, s.canKey n k ≤ s.canKey n k' := by
  induction l generalizing b with
  | nil => exact ⟨b, List.mem_cons_self, rfl, fun k' hk => (List.mem_singleton.1 hk).symm ▸ Nat.le_refl _⟩
  | cons a l ih =>
    have hstep : ∃ c, betterKey s n (some b) a = some c ∧ (c = b ∨ c = a) ∧ s.canKey n c ≤ s.canKey n b ∧ s.canKey n c ≤ s.canKey n a := by
      unfold betterKey
      dsimp only
      split_ifs with hlt
      · exact ⟨a, rfl, .inr rfl, Nat.le_of_lt hlt, Nat.le_refl _⟩
      · exact ⟨b, rfl, .inl rfl, Nat.le_refl _, Nat.le_of_not_lt hlt⟩
    obtain ⟨c, hc, hwho, hb, ha⟩ := hstep
    obtain ⟨k, hmem, hk, hmin⟩ := ih c
    refine ⟨k, ?_, ?_, fun k' hk' => ?_⟩
    · rcases List.mem_cons.1 hmem with rfl | hl
      · rcases hwho with rfl | rfl
        · exact List.mem_cons_self
        · exact List.mem_cons_of_mem _ List.mem_cons_self
      · exact List.mem_cons_of_mem _ (List.mem_cons_of_mem _ hl)
    · rw [List.foldl_cons, hc, hk]
    · have hkc := hmin c List.mem_cons_self
      rcases List.mem_cons.1 hk' with rfl | hk'
      · exact hkc.trans hb
      · rcases List.mem_cons.1 hk' with rfl | hl
        · exact hkc.trans ha
        · exact hmin k' (List.mem_cons_of_mem _ hl)

theorem mem_requested : k ∈ ((List.range 3).filter fun k => s.on F.canTxCtl_TXREQ n k) ↔ k < 3 ∧ s.fld F.canTxCtl_TXREQ n k ≠ 0 := by
  rw [List.mem_filter, List.mem_range, State.on_eq_true]

theorem canChoice_of_none (h : ∀ k < 3, s.fld F.canTxCtl_TXREQ n k = 0) : s.canChoice n = none := by
  have hnil : ((List.range 3).filter fun k => s.on F.canTxCtl_TXREQ n k) = [] :=
    List.eq_nil_iff_forall_not_mem.2 fun k hk => (mem_requested.1 hk).2 (h k (mem_requested.1 hk).1)
  rw [canChoice_eq, hnil]
  split_ifs <;> rfl

theorem canChoice_of_some (hord : s.fld F.canCfg0_TXORD n = 0) (h : ∃ k < 3, s.fld F.canTxCtl_TXREQ n k ≠ 0) :
    ∃ k < 3, s.fld F.canTxCtl_TXREQ n k ≠ 0 ∧ (∀ k' < 3, s.fld F.canTxCtl_TXREQ n k' ≠ 0 → s.canKey n k ≤ s.canKey n k') ∧ s.canChoice n = some k := by
  obtain ⟨k0, hk0⟩ := h
  rw [canChoice_eq, State.on_eq_false.2 hord, if_neg Bool.false_ne_true]
  match hks : (List.range 3).filter fun k => s.on F.canTxCtl_TXREQ n k with
  | [] => exact absurd (mem_requested.2 hk0) (by rw [hks]; exact List.not_mem_nil)
  | b :: l =>
    obtain ⟨k, hmem, hk, hmin⟩ := foldl_betterKey (s := s) (n := n) l b
    rw [← hks] at hmem hmin
    obtain ⟨hlt, hreq⟩ := mem_requested.1 hmem
    exact ⟨k, hlt, hreq, fun k' h1 h2 => hmin k' (mem_requested.2 ⟨h1, h2⟩), hk⟩

/-! ### Start points (R284, R318) -/

theorem canMode_of_mon (h : (s.cn n).mon = true) : s.canMode n = 2 := by
  unfold State.canMode
  rw [h, Bool.true_or, if_pos rfl]

theorem mon_of_canMode (h : s.canMode n ≠ 2) : (s.cn n).mon = false := by
  cases hm : (s.cn n).mon with
  | false => rfl
  | true => exact absurd (canMode_of_mon hm) h

theorem canMonEnd_of_not_mon (h : (s.cn n).mon = false) : canMonEnd n s = s := by
  unfold canMonEnd
  rw [h, if_neg Bool.false_ne_true]

theorem canStart_of_away (hmon : (s.cn n).mon = false) (h : s.canOn n = false ∨ (s.cn n).bus ≠ none) : canStart n s = s := by
  unfold canStart
  dsimp only
  rw [canMonEnd_of_not_mon hmon, if_pos]
  rcases h with h | h
  · rw [h]
    rfl
  · rw [Option.isSome_iff_ne_none.2 h, Bool.or_true]

theorem canStart_of_on (hon : s.canOn n = true) (hm : s.canMode n = 1) (hbus : (s.cn n).bus = none) : canStart n s =
    match s.canChoice n with
    | none => s
    | some k => s.setCn n { s.cn n with bus := some k, sof := s.sofTk n, abort := false } := by
  unfold canStart
  dsimp only
  rw [canMonEnd_of_not_mon (mon_of_canMode (by rw [hm]; decide)), hon, hm, hbus]
  rfl

/-- A start point changes the controller's bus alone, after the listening has ended. -/
theorem canStart_cases (n : Nat) (s : State) : canStart n s = canMonEnd n s
    ∨ ∃ k i, canStart n s = (canMonEnd n s).setCn n { (canMonEnd n s).cn n with bus := some k, sof := i, abort := false } := by
  unfold canStart
  dsimp only
  split_ifs
  · exact .inl rfl
  · split
    · exact .inl rfl
    · exact .inr ⟨_, _, rfl⟩

theorem canStart_of_mon (h : (s.cn n).mon = true) : ((canStart n s).cn n).mon = false ∧ ((canStart n s).cn n).fifo = (s.cn n).fifo
    ∧ (canStart n s).eng = s.eng := by
  have hend : canMonEnd n s = s.setCn n { s.cn n with mon := false } := by
    unfold canMonEnd
    rw [h, if_pos rfl]
  rcases canStart_cases n s with hstart | ⟨k, i, hstart⟩
  · rw [hstart, hend, State.setCn_cn]
    exact ⟨rfl, rfl, rfl⟩
  · rw [hstart, hend, State.setCn_cn, State.setCn_cn]
    exact ⟨rfl, rfl, rfl⟩

/-! ### The end of a frame (R284, R285, R289, R291) -/

/-- The frame leaves the bus, and what the controller sends of it leaves the part. -/
def canOffBus (n k : Nat) (s : State) : State :=
  { s with out := s.out ++ canSent s n (.can n k (s.canFrameOf n k)) }.setCn n { s.cn n with bus := none, abort := false }

/-- The frame has been sent: its buffer shows it, and the controller has been heard. -/
def canDone (n k sof : Nat) (t : State) : State :=
  canIrq n (canHeard n ((((t.put F.canTxCtl_TXREQ 0 n k).put F.canTxCtl_SENT 1 n k).put F.canTxCtl_TXTS sof n k).put F.canEvt_TXDONE 1 n))

theorem canEnd_success (h : (s.cn n).bus = some k) : canEnd n .success s =
    let t := canDone n k (s.cn n).sof (canOffBus n k s)
    let t := if s.canMode n = 3 then t else canState n (t.fld F.canStat_TEC n - 1) t
    if s.canMode n = 4 then canSort n (s.cn n).sof (s.canFrameOf n k) t else t := by
  unfold canEnd
  dsimp only
  rw [h]
  dsimp only
  rw [canSend_eq]
  rfl

theorem canHeard_fld {g : Fld} (hg : g.id ≠ F.canStat_LONE.id) (i j : Nat) : (canHeard n s).fld g i j = s.fld g i j :=
  State.put_fld_ne (s.setCn n { s.cn n with heard := true }) _ _ _ _ _ _ _ hg

/-- A hearing leaves the bus, the monitoring and what has left the part. -/
theorem canHeard_keeps (n : Nat) (s : State) : CanKeeps n [F.canStat_LONE.id] s (canHeard n s) ∧ ((canHeard n s).cn n).fifo = (s.cn n).fifo
    ∧ (canHeard n s).fld F.canStat_LONE n = 0 := by
  refine ⟨.trans (.setCn s (x := { s.cn n with heard := true }) rfl rfl rfl) (.put _ (by decide) ..), ?_, State.put_fld ..⟩
  exact (congrArg CanS.fifo (State.setCn_cn s n { s.cn n with heard := true })).trans rfl

/-- The fields that the end of a frame shows. -/
def canDoneFlds : List Nat :=
  [F.canTxCtl_TXREQ.id, F.canTxCtl_SENT.id, F.canTxCtl_TXTS.id, F.canEvt_TXDONE.id, F.canStat_LONE.id] ++ irqFlds

theorem canDone_keeps (n k i : Nat) (t : State) : CanKeeps n canDoneFlds t (canDone n k i t) := by
  refine .trans ?_ ((canIrq_keeps ..).1.mono (List.subset_append_right ..))
  refine .trans ?_ ((canHeard_keeps ..).1.mono (by decide))
  exact .trans (.trans (.trans (.put t (f := F.canTxCtl_TXREQ) (by decide) ..) (.put _ (f := F.canTxCtl_SENT) (by decide) ..))
    (.put _ (f := F.canTxCtl_TXTS) (by decide) ..)) (.put _ (by decide) ..)

theorem canDone_shows (n k i : Nat) (t : State) : (canDone n k i t).fld F.canTxCtl_TXREQ n k = 0 ∧ (canDone n k i t).fld F.canTxCtl_SENT n k = 1
    ∧ (canDone n k i t).fld F.canTxCtl_TXTS n k = i % 2 ^ F.canTxCtl_TXTS.width ∧ (canDone n k i t).fld F.canEvt_TXDONE n = 1
    ∧ (canDone n k i t).fld F.canStat_LONE n = 0 := by
  have hirq : ∀ g : Fld, g.id ∉ irqFlds → ∀ i' j u, (canIrq n u).fld g i' j = u.fld g i' j := fun g hg i' j u => (canIrq_keeps n u).1.fld g hg i' j
  unfold canDone
  refine ⟨?_, ?_, ?_, ?_, ?_⟩
  · rw [hirq _ (by decide), canHeard_fld (by decide), State.put_fld_ne _ _ _ _ _ _ _ _ (by decide), State.put_fld_ne _ _ _ _ _ _ _ _ (by decide),
      State.put_fld_ne _ _ _ _ _ _ _ _ (by decide)]
    exact State.put_fld ..
  · rw [hirq _ (by decide), canHeard_fld (by decide), State.put_fld_ne _ _ _ _ _ _ _ _ (by decide), State.put_fld_ne _ _ _ _ _ _ _ _ (by decide)]
    exact State.put_fld ..
  · rw [hirq _ (by decide), canHeard_fld (by decide), State.put_fld_ne _ _ _ _ _ _ _ _ (by decide)]
    exact State.put_fld ..
  · rw [hirq _ (by decide), canHeard_fld (by decide)]
    exact State.put_fld ..
  · rw [hirq _ (by decide)]
    exact (canHeard_keeps ..).2.2

/-- What follows the showing leaves what is shown. -/
theorem canEnd_keeps (h : (s.cn n).bus = some k) : CanKeeps n (canStateFlds ++ canStoreFlds) (canDone n k (s.cn n).sof (canOffBus n k s)) (canEnd n .success s)
    ∧ (s.canMode n ≠ 3 → (canEnd n .success s).fld F.canStat_TEC n = min (s.fld F.canStat_TEC n - 1) 255 % 2 ^ F.canStat_TEC.width) := by
  have hdone := canDone_keeps n k (s.cn n).sof (canOffBus n k s)
  have hbus := hdone.bus.trans (congrArg CanS.bus (State.setCn_cn ..))
  have htec := hdone.fld F.canStat_TEC (by decide) n 0
  rw [canEnd_success h]
  extract_lets t v
  have hv : CanKeeps n (canStateFlds ++ canStoreFlds) t v ∧ (s.canMode n ≠ 3 → v.fld F.canStat_TEC n = min (s.fld F.canStat_TEC n - 1) 255 % 2 ^ F.canStat_TEC.width) := by
    obtain ⟨hkeeps, -, htec'⟩ := canState_idle (t.fld F.canStat_TEC n - 1) hbus
    unfold v
    split_ifs with hm
    · exact ⟨.refl t, fun h => absurd hm h⟩
    · exact ⟨hkeeps.mono (List.subset_append_left ..), fun _ => htec'.trans (by rw [show t.fld F.canStat_TEC n = s.fld F.canStat_TEC n from htec])⟩
  clear_value v
  have hsort := canSort_keeps n (s.cn n).sof (s.canFrameOf n k) v
  split_ifs
  · exact ⟨hv.1.trans (hsort.mono (List.subset_append_right ..)), fun h => (hsort.fld _ (by decide) ..).trans (hv.2 h)⟩
  · exact hv

theorem canEnd_of_idle (r : CanEnd) (h : (s.cn n).bus = none) : canEnd n r s = s := by
  unfold canEnd
  dsimp only
  rw [h]

theorem canEnd_of_failed {r : CanEnd} (hr : r ∈ [CanEnd.lostArbitration, CanEnd.error]) (h : (s.cn n).bus = some k) : canEnd n r s =
    if (s.cn n).abort then (s.setCn n { s.cn n with bus := none, abort := false }).put F.canTxCtl_TXREQ 0 n k
    else s.setCn n { s.cn n with bus := none, abort := false } := by
  refine Eq.trans ?_ (canDrop_of_sending h)
  have hne : r ≠ .success := by
    rintro rfl
    exact absurd hr (by decide)
  unfold canEnd
  dsimp only
  rw [h]
  cases r with
  | success => exact absurd rfl hne
  | _ => rfl

theorem canFramesAreSent : Stated.CanFramesAreSent := by
  intro s n
  refine ⟨fun hmon hoff => ?_, fun hmon => ⟨canMode_of_mon hmon, ?_⟩, fun hon hm hbus => ⟨fun hnone => ?_, fun hord hsome => ?_⟩,
    fun hbus r => ?_, fun k hk hbus => ⟨?_, fun r hr => ⟨fun hab => ?_, fun hab => ?_⟩⟩⟩
  · exact does_next (congrArg (done s) (canStart_of_away hmon hoff)) rfl
  · refine does_next (u := canStart n s) rfl ?_
    obtain ⟨hend, hfifo, heng⟩ := canStart_of_mon hmon
    rw [State.notify_cn_get, State.notify_eng]
    exact ⟨hend, hfifo, heng⟩
  · refine does_next (u := s) (congrArg (done s) ((canStart_of_on hon hm hbus).trans ?_)) rfl
    rw [canChoice_of_none hnone]
  · obtain ⟨k, hk, hreq, hmin, hch⟩ := canChoice_of_some hord hsome
    refine does_next (congrArg (done s) (canStart_of_on hon hm hbus)) ⟨k, hk, hreq, hmin, ?_⟩
    rw [hch]
  · exact does_next (congrArg (done s) (canEnd_of_idle r hbus)) rfl
  · refine does_next (u := canEnd n .success s) rfl ?_
    obtain ⟨hkeeps, htec⟩ := canEnd_keeps hbus
    obtain ⟨hreq, hsent, hts, hdone, hlone⟩ := canDone_shows n.val k (s.cn n).sof (canOffBus n.val k s)
    have hoff := canDone_keeps n.val k (s.cn n).sof (canOffBus n.val k s)
    have hnone := hoff.bus.trans (congrArg CanS.bus (State.setCn_cn ..))
    have hout : _ = s.out ++ canSent s n (.can n k (s.canFrameOf n k)) := hoff.out
    simp only [State.notify_fld_get, State.notify_cn_get]
    refine ⟨(hkeeps.fld _ (by decide) ..).trans hreq, (hkeeps.fld _ (by decide) ..).trans hsent, (hkeeps.fld _ (by decide) ..).trans hts,
      (hkeeps.fld _ (by decide) ..).trans hdone, (hkeeps.fld _ (by decide) ..).trans hlone, hkeeps.bus.trans hnone, fun hcol hm => ?_, fun hm fr hfr => ?_, htec⟩
    · rw [mem_out_notify (by exact fun _ => nofun), hkeeps.out, hout, canSent_of_running hcol hm]
      exact List.mem_append_right _ (List.mem_singleton_self _)
    · rwa [mem_out_notify (by exact fun _ => nofun), hkeeps.out, hout, canSent_of_quiet (by rw [hm]; decide), List.append_nil] at hfr
  · exact does_next (congrArg (done s) ((canEnd_of_failed hr hbus).trans (by rw [hab, if_neg Bool.false_ne_true]))) rfl
  · exact does_next (congrArg (done s) ((canEnd_of_failed hr hbus).trans (by rw [hab, if_pos rfl]))) rfl

end Sys2Proof.Machine
end

section
/-! CAN errors, bus-off and integration (R279, R283, R290, R291). -/

namespace Sys2Proof.Machine

variable {s t u : State} {n k : Nat} {er : CanErr}

/-! ### Bus-off's end and integration (R283, R290) -/

theorem canRecover_of_away (k : Nat) (h : s.fld F.canStat_FCS n ≠ 2 ∨ s.fld F.canStat_SYNCD n = 0 ∨ s.canMode n = 0) : canRecover n k s = s := by
  unfold canRecover
  dsimp only
  rw [if_pos]
  rcases h with h | h | h
  · rw [decide_eq_true h]
    rfl
  · rw [State.on_eq_false.2 h, Bool.not_false, Bool.or_true, Bool.true_or]
  · rw [h, decide_eq_true rfl, Bool.or_true]

theorem canRecover_of_off (k : Nat) (hoff : s.fld F.canStat_FCS n = 2) (hsync : s.fld F.canStat_SYNCD n ≠ 0) (hm : s.canMode n ≠ 0) : canRecover n k s =
    if s.fld F.canStat_BOREC n + k < 128 then s.put F.canStat_BOREC (s.fld F.canStat_BOREC n + k) n
    else ((((s.put F.canStat_FCS 0 n).put F.canStat_TEC 0 n).put F.canStat_REC 0 n).put F.canStat_BOREC 0 n).put F.canEvt_BOREC 1 n := by
  unfold canRecover
  dsimp only
  rw [hoff, State.on_eq_true.2 hsync, decide_eq_false hm]
  rfl

theorem canIntegrate_of_away (h : s.applied = false ∨ s.canMode n = 0) : canIntegrate n s = s := by
  unfold canIntegrate
  rw [if_neg]
  rcases h with h | h
  · rw [h, Bool.false_and]
    exact Bool.false_ne_true
  · rw [h, decide_eq_false (not_not.2 rfl), Bool.and_false]
    exact Bool.false_ne_true

theorem canIntegrate_of_on (ha : s.applied = true) (hm : s.canMode n ≠ 0) : canIntegrate n s = s.put F.canStat_SYNCD 1 n := by
  unfold canIntegrate
  rw [ha, decide_eq_true hm, Bool.true_and, if_pos rfl]

/-! ### Errors (R290, R291) -/

theorem canMonEnd_rest (n : Nat) (s : State) : (canMonEnd n s).out = s.out ∧ (canMonEnd n s).act = s.act ∧ ((canMonEnd n s).cn n).fifo = (s.cn n).fifo := by
  unfold canMonEnd
  split_ifs
  · exact ⟨rfl, rfl, (congrArg CanS.fifo (State.setCn_cn s n { s.cn n with mon := false })).trans rfl⟩
  · exact ⟨rfl, rfl, rfl⟩

/-- The field that shows an error's code. -/
def errFld (er : CanErr) : Fld := if er.dataPhase then F.canStat_DLEC else F.canStat_LEC

/-- The fields that the showing of an error writes. -/
def errFlds : List Nat := [F.canStat_DLEC.id, F.canStat_LEC.id, F.canCnt_ERRF.id]

theorem errFld_mem (er : CanErr) : (errFld er).id ∈ errFlds := by
  unfold errFld
  split_ifs <;> decide

/-- An error's code is shown, and in MODE 1 the error flag is sent and counted. -/
def canErrShown (n : Nat) (er : CanErr) (s : State) : State :=
  let u := s.put (errFld er) er.code n
  if s.canMode n = 1 then (canSend n (.canFlag n (u.fld F.canStat_FCS n == 0)) u).bump F.canCnt_ERRF n else u

theorem canErr_of_away (er : CanErr) (h : s.canOn n = false) : canErr n er s = s := by
  unfold canErr
  dsimp only
  rw [if_pos]
  rw [h]
  rfl

theorem canErr_of_on (hon : s.canOn n = true) (hm : s.canMode n ≠ 4) (h1 : 1 ≤ er.code.val) (h6 : er.code.val ≤ 6) :
    canErr n er s = canMonEnd n (canCount n (s.canMode n) er (canErrShown n er s)) := by
  unfold canErr
  dsimp only
  rw [hon, decide_eq_false hm, decide_eq_false (show ¬er.code.val = 0 by omega), decide_eq_false (show ¬er.code.val = 7 by omega)]
  rfl

/-- What the showing of an error leaves, what it shows, and the flag that it sends. -/
theorem canErrShown_spec (n : Nat) (er : CanErr) (s : State) :
    (∀ f : Fld, f.id ∉ errFlds → ∀ i j, (canErrShown n er s).fld f i j = s.fld f i j) ∧ (canErrShown n er s).can = s.can
      ∧ (canErrShown n er s).fld (errFld er) n = er.code
      ∧ (s.canMode n = 1 → s.column = .running → s.fld F.canStat_FCS n = 0 → Out.canFlag n true ∈ (canErrShown n er s).out) := by
  have hput : ∀ f : Fld, f.id ∉ errFlds → ∀ i j, (s.put (errFld er) er.code n).fld f i j = s.fld f i j :=
    fun f hf i j => State.put_fld_ne _ _ _ _ _ _ _ _ fun e => hf (e ▸ errFld_mem er)
  have hcode : (s.put (errFld er) er.code n).fld (errFld er) n = er.code := by
    refine (State.put_fld ..).trans (Nat.mod_eq_of_lt ?_)
    unfold errFld
    split_ifs <;> exact er.code.isLt
  have herrf : (errFld er).id ≠ F.canCnt_ERRF.id := by
    unfold errFld
    split_ifs <;> decide
  unfold canErrShown
  dsimp only
  split_ifs with hm
  · rw [canSend_eq]
    refine ⟨fun f hf i j => ?_, rfl, ?_, fun _ hcol hfcs => ?_⟩
    · exact (State.bump_fld_ne _ _ _ _ _ _ _ _ fun e => hf (by rw [e]; decide)).trans (hput f hf i j)
    · exact (State.bump_fld_ne _ _ _ _ _ _ _ _ herrf).trans hcode
    · have hmode : (s.put (errFld er) er.code n).canMode n = 1 :=
        (CanKeeps.mode (.put s (errFld_mem er) ..) (by decide)).trans hm
      have hcolumn : (s.put (errFld er) er.code n).column = s.column :=
        column_of_same rfl (hput _ (by decide) ..)
      change _ ∈ (s.put (errFld er) er.code n).out ++ canSent (s.put (errFld er) er.code n) n _
      rw [canSent_of_running (s := s.put (errFld er) er.code n) (hcolumn.trans hcol) (.inl hmode), hput _ (by decide), hfcs]
      exact List.mem_append_right _ (List.mem_singleton_self _)
  · exact ⟨hput, rfl, hcode, fun h => absurd h hm⟩

/-- The counters of an error that is not an acknowledgement error of an error-passive transmitter, but in MODE 3. -/
theorem canCount_of_counted {m : Nat} (hm : m ≠ 3) (hfcs : u.fld F.canStat_FCS n ≠ 1) : canCount n m er u =
    if er.tx = true ∧ er.code.val = 1 then u
    else if er.tx then canState n (u.fld F.canStat_TEC n + 8) u
    else canState n (u.fld F.canStat_TEC n) (u.bump F.canStat_REC n 0 (if er.dominantAfterFlag then 9 else 1)) := by
  unfold canCount
  dsimp only
  rw [decide_eq_false hfcs, Bool.and_false, if_neg Bool.false_ne_true, decide_eq_false hm, Bool.false_or]
  simp only [Bool.and_eq_true, decide_eq_true_eq]

/-- The counters after an error of an error-active controller that stays so. -/
theorem canCount_active (hfcs : u.fld F.canStat_FCS n = 0) (htec : u.fld F.canStat_TEC n < 120) (hrec : u.fld F.canStat_REC n < 119) :
    CanKeeps n (F.canStat_REC.id :: canStateFlds) u (canCount n 1 er u) ∧ ((canCount n 1 er u).cn n).fifo = (u.cn n).fifo
      ∧ (canCount n 1 er u).fld F.canStat_FCS n = 0
      ∧ (canCount n 1 er u).fld F.canStat_TEC n = u.fld F.canStat_TEC n + (if er.tx && er.code.val ≠ 1 then 8 else 0)
      ∧ (canCount n 1 er u).fld F.canStat_REC n = u.fld F.canStat_REC n + (if er.tx then 0 else if er.dominantAfterFlag then 9 else 1) := by
  rw [canCount_of_counted (by decide) (by rw [hfcs]; decide)]
  cases htx : er.tx with
  | true =>
    by_cases hcode : er.code.val = 1
    · rw [if_pos ⟨rfl, hcode⟩, decide_eq_false (not_not.2 hcode)]
      exact ⟨.refl u, rfl, hfcs, rfl, rfl⟩
    · obtain ⟨hst, htec', hfcs'⟩ := canState_active (s := u) (n := n) (tec := u.fld F.canStat_TEC n + 8) (by omega) (by omega)
      obtain ⟨hkeeps, hfifo⟩ := canShown_keeps n (u.fld F.canStat_TEC n + 8) u
      rw [if_neg fun h => hcode h.2, if_pos rfl, hst, decide_eq_true hcode]
      exact ⟨hkeeps.mono (List.subset_cons_self ..), hfifo, hfcs', htec', hkeeps.fld _ (by decide) ..⟩
  | false =>
    rw [if_neg fun h => Bool.false_ne_true h.1, if_neg Bool.false_ne_true, if_neg Bool.false_ne_true]
    generalize hadd : (if er.dominantAfterFlag then 9 else 1) = d
    have hd : d ≤ 9 := by
      rw [← hadd]
      split_ifs <;> decide
    have hbump : (u.bump F.canStat_REC n 0 d).fld F.canStat_REC n = u.fld F.canStat_REC n + d := by
      have hmax : 2 ^ F.canStat_REC.width = 256 := rfl
      rw [State.bump_fld, hmax]
      omega
    have hkept : (u.bump F.canStat_REC n 0 d).fld F.canStat_TEC n = u.fld F.canStat_TEC n := State.bump_fld_ne _ _ _ _ _ _ _ _ (by decide)
    obtain ⟨hst, htec', hfcs'⟩ := canState_active (s := u.bump F.canStat_REC n 0 d) (n := n) (tec := u.fld F.canStat_TEC n) (by omega) (by omega)
    obtain ⟨hkeeps, hfifo⟩ := canShown_keeps n (u.fld F.canStat_TEC n) (u.bump F.canStat_REC n 0 d)
    rw [hst]
    exact ⟨.trans (.bump u List.mem_cons_self ..) (hkeeps.mono (List.subset_cons_self ..)), hfifo, hfcs', htec', (hkeeps.fld _ (by decide) ..).trans hbump⟩

/-- An error of an error-active controller that stays so, in MODE 1. -/
theorem canErr_active (hon : s.canOn n = true) (hm : s.canMode n = 1) (h1 : 1 ≤ er.code.val) (h6 : er.code.val ≤ 6)
    (hfcs : s.fld F.canStat_FCS n = 0) (htec : s.fld F.canStat_TEC n < 120) (hrec : s.fld F.canStat_REC n < 119) :
    (canErr n er s).fld (errFld er) n = er.code ∧ (canErr n er s).fld F.canStat_FCS n = 0
      ∧ (canErr n er s).fld F.canStat_TEC n = s.fld F.canStat_TEC n + (if er.tx && er.code.val ≠ 1 then 8 else 0)
      ∧ (canErr n er s).fld F.canStat_REC n = s.fld F.canStat_REC n + (if er.tx then 0 else if er.dominantAfterFlag then 9 else 1)
      ∧ ((canErr n er s).cn n).fifo = (s.cn n).fifo ∧ (s.column = .running → Out.canFlag n true ∈ (canErr n er s).out) := by
  obtain ⟨hkept, hcan, hcode, hout⟩ := canErrShown_spec n er s
  have hmon : (s.cn n).mon = false := mon_of_canMode (by rw [hm]; decide)
  have hcn : (canErrShown n er s).cn n = s.cn n := by rw [State.cn, hcan, State.cn]
  rw [canErr_of_on hon (by rw [hm]; decide) h1 h6, hm]
  rw [← hkept _ (by decide)] at hfcs htec hrec
  obtain ⟨hkeeps, hfifo, hf, ht, hr⟩ := canCount_active (er := er) hfcs htec hrec
  rw [canMonEnd_of_not_mon (hkeeps.mon.trans (by rw [hcn, hmon]))]
  rw [hkept _ (by decide)] at ht hr hfcs
  refine ⟨(hkeeps.fld _ ?_ ..).trans hcode, hf, ht, hr, hfifo.trans (by rw [hcn]), fun hcol => ?_⟩
  · unfold errFld
    split_ifs <;> decide
  · rw [hkeeps.out]
    exact hout hm hcol hfcs

/-- In MODE 3 an error leaves the counters. -/
theorem canCount_frozen : CanKeeps n [F.canStat_LONE.id, F.canEvt_LONE.id] u (canCount n 3 er u)
    ∧ (er.tx = true → er.code.val = 3 → u.fld F.canStat_FCS n = 1 → (u.cn n).heard = false → (u.cn n).lone = false →
      (canCount n 3 er u).fld F.canStat_LONE n = 1 ∧ (canCount n 3 er u).fld F.canEvt_LONE n = 1) := by
  have hlone : CanKeeps n [F.canStat_LONE.id, F.canEvt_LONE.id] u (canLone n u) := by
    unfold canLone
    exact .of_ite (.refl u) (.trans (.trans (.setCn u (x := { u.cn n with lone := true }) rfl rfl rfl) (.put _ (f := F.canStat_LONE) (by decide) ..)) (.put _ (by decide) ..))
  unfold canCount
  dsimp only
  split_ifs with hpas hfroz
  · refine ⟨hlone, fun _ _ _ hheard hl => ?_⟩
    unfold canLone
    rw [hheard, hl, Bool.or_false, if_neg Bool.false_ne_true]
    exact ⟨(State.put_fld_ne _ _ _ _ _ _ _ _ (by decide)).trans (State.put_fld ..), State.put_fld ..⟩
  · refine ⟨.refl u, fun htx hc hf => absurd ?_ hpas⟩
    rw [htx, hc, hf]
    rfl
  all_goals exact absurd rfl hfroz

theorem canErr_frozen (hon : s.canOn n = true) (hm : s.canMode n = 3) (h1 : 1 ≤ er.code.val) (h6 : er.code.val ≤ 6) :
    (canErr n er s).fld F.canStat_TEC n = s.fld F.canStat_TEC n ∧ (canErr n er s).fld F.canStat_REC n = s.fld F.canStat_REC n
      ∧ (canErr n er s).fld F.canStat_FCS n = s.fld F.canStat_FCS n
      ∧ (er.tx = true → er.code.val = 3 → s.fld F.canStat_FCS n = 1 → (s.cn n).heard = false → (s.cn n).lone = false →
          (canErr n er s).fld F.canStat_LONE n = 1 ∧ (canErr n er s).fld F.canEvt_LONE n = 1) := by
  obtain ⟨hkept, hcan, -, -⟩ := canErrShown_spec n er s
  have hcn : (canErrShown n er s).cn n = s.cn n := by rw [State.cn, hcan, State.cn]
  obtain ⟨hkeeps, hlone⟩ := canCount_frozen (er := er) (u := canErrShown n er s) (n := n)
  have hmon : (s.cn n).mon = false := mon_of_canMode (by rw [hm]; decide)
  rw [canErr_of_on hon (by rw [hm]; decide) h1 h6, hm, canMonEnd_of_not_mon (hkeeps.mon.trans (by rw [hcn, hmon]))]
  rw [hkept _ (by decide), hcn] at hlone
  exact ⟨(hkeeps.fld _ (by decide) ..).trans (hkept _ (by decide) ..), (hkeeps.fld _ (by decide) ..).trans (hkept _ (by decide) ..),
    (hkeeps.fld _ (by decide) ..).trans (hkept _ (by decide) ..), hlone⟩

/-- What a frame given up leaves: the bus is free, and a withdrawn request is gone. -/
theorem canDrop_spec (n : Nat) (s : State) : (∀ f : Fld, f.id ≠ F.canTxCtl_TXREQ.id → ∀ i j, (canDrop n s).fld f i j = s.fld f i j)
    ∧ ((canDrop n s).cn n).bus = none ∧ ((canDrop n s).cn n).mon = (s.cn n).mon
    ∧ ∀ k, (s.cn n).bus = some k → (canDrop n s).fld F.canTxCtl_TXREQ n k = (if (s.cn n).abort then 0 else s.fld F.canTxCtl_TXREQ n k) := by
  cases hbus : (s.cn n).bus with
  | none =>
    rw [canDrop_of_idle hbus]
    exact ⟨fun _ _ _ _ => rfl, hbus, rfl, nofun⟩
  | some k =>
    rw [canDrop_of_sending hbus]
    have hcn := State.setCn_cn s n { s.cn n with bus := none, abort := false }
    split_ifs
    · refine ⟨fun f hf i j => State.put_fld_ne _ _ _ _ _ _ _ _ hf, (congrArg CanS.bus hcn).trans rfl, (congrArg CanS.mon hcn).trans rfl, fun k' hk => ?_⟩
      obtain rfl := Option.some.inj hk
      exact State.put_fld ..
    · exact ⟨fun _ _ _ _ => rfl, (congrArg CanS.bus hcn).trans rfl, (congrArg CanS.mon hcn).trans rfl, fun _ _ => rfl⟩

/-- An error that turns a controller bus-off. -/
theorem canErr_off (hon : s.canOn n = true) (hm : s.canMode n = 1) (h1 : 1 ≤ er.code.val) (h6 : er.code.val ≤ 6) (htx : er.tx = true)
    (hcode : er.code.val ≠ 1) (hfcs : s.fld F.canStat_FCS n = 0) (htec : 248 ≤ s.fld F.canStat_TEC n) :
    (canErr n er s).fld F.canStat_FCS n = 2 ∧ (canErr n er s).fld F.canEvt_BOFF n = 1 ∧ ((canErr n er s).cn n).bus = none
      ∧ ∀ k, (s.cn n).bus = some k → (canErr n er s).fld F.canTxCtl_TXREQ n k = (if (s.cn n).abort then 0 else s.fld F.canTxCtl_TXREQ n k) := by
  obtain ⟨hkept, hcan, -, -⟩ := canErrShown_spec n er s
  have hcn : (canErrShown n er s).cn n = s.cn n := by rw [State.cn, hcan, State.cn]
  have hmon : (s.cn n).mon = false := mon_of_canMode (by rw [hm]; decide)
  have hfcs' := (hkept F.canStat_FCS (by decide) n 0).trans hfcs
  have htec' := hkept F.canStat_TEC (by decide) n 0
  have hreq := fun k => hkept F.canTxCtl_TXREQ (by decide) n k
  rw [canErr_of_on hon (by rw [hm]; decide) h1 h6, hm]
  generalize canErrShown n er s = u at *
  have hnew : fcsOf (u.fld F.canStat_TEC n + 8) (u.fld F.canStat_REC n) = 2 := if_pos (by omega)
  rw [canCount_of_counted (by decide) (by rw [hfcs']; decide), if_neg fun h => hcode h.2, if_pos htx, canState_eq,
    if_pos ⟨by rw [hfcs']; decide, hnew⟩]
  obtain ⟨hshown, -⟩ := canShown_keeps n (u.fld F.canStat_TEC n + 8) u
  have hoff := busOffShown_keeps n (canShown n (u.fld F.canStat_TEC n + 8) u)
  have hall := hshown.trans hoff
  obtain ⟨-, hfcs2⟩ := canShown_values n (u.fld F.canStat_TEC n + 8) u
  rw [hnew] at hfcs2
  generalize canShown n (u.fld F.canStat_TEC n + 8) u = v at *
  have hvfcs : (busOffShown n v).fld F.canStat_FCS n = 2 :=
    (State.put_fld_ne _ _ _ _ _ _ _ _ (by decide)).trans ((State.bump_fld_ne _ _ _ _ _ _ _ _ (by decide)).trans
      ((State.put_fld_ne _ _ _ _ _ _ _ _ (by decide)).trans hfcs2))
  have hboff : (busOffShown n v).fld F.canEvt_BOFF n = 1 :=
    (State.put_fld_ne _ _ _ _ _ _ _ _ (by decide)).trans ((State.bump_fld_ne _ _ _ _ _ _ _ _ (by decide)).trans (State.put_fld ..))
  generalize busOffShown n v = w at *
  obtain ⟨hf, hb, hmn, hk⟩ := canDrop_spec n w
  rw [canMonEnd_of_not_mon (hmn.trans (hall.mon.trans (by rw [hcn, hmon])))]
  refine ⟨(hf _ (by decide) ..).trans hvfcs, (hf _ (by decide) ..).trans hboff, hb, fun k hbus => ?_⟩
  rw [hk k (hall.bus.trans (by rw [hcn, hbus])), hall.abort, hcn, hall.fld _ (by decide), hreq]

end Sys2Proof.Machine
end

section
/-! CAN frames are received (R286, R287, R289), and what CAN controllers do of their frames (chapter 15). -/

namespace Sys2Proof.Machine

variable {s t u : State} {n k : Nat} {fr : CanFrame}

/-! ### A stored frame's words (R287, R289) -/

theorem dlcBytes_le (fdf : Bool) (dlc : Fin 16) : dlcBytes fdf dlc ≤ 64 := by
  revert fdf dlc
  decide

theorem canWords_length {bs : List Byte} (h : bs.length ≤ 64) : (canWords bs).length = 11 := by
  unfold canWords
  rw [List.length_append, List.length_replicate, length_packWords]
  omega

/-- The identifier that the filters see (R286). -/
def canIdent (fr : CanFrame) : Nat := if fr.ide then fr.ident.val else fr.ident.val / 2 ^ 18 * 2 ^ 18

theorem canIdent_lt (fr : CanFrame) : canIdent fr < 2 ^ 29 := by
  have h := fr.ident.isLt
  unfold canIdent
  split_ifs <;> omega

/-- The entry that filter `i` stores of a frame. -/
def canEntry (ts : Nat) (fr : CanFrame) (i : Nat) : CanRx :=
  let len := if fr.rtr && !fr.fdf then 0 else dlcBytes fr.fdf fr.dlc
  CanRx.mk (wd (b2n fr.ide * 2 ^ 47 + b2n (fr.rtr && !fr.fdf) * 2 ^ 46 + b2n fr.fdf * 2 ^ 45 + b2n (fr.brs && fr.fdf) * 2 ^ 44
    + b2n (fr.esi && fr.fdf) * 2 ^ 43 + fr.dlc * 2 ^ 39 + i * 2 ^ 32 + canIdent fr)) ts
    (canWords (fr.data.take len ++ List.replicate (len - fr.data.length) 0))

theorem canSort_eq (n ts : Nat) (fr : CanFrame) (s : State) : canSort n ts fr s =
    match (List.range 128).find? fun i => s.canMatch n fr (canIdent fr) i with
    | none => if s.on F.canCfg0_NOMATCH n then canFifo n (canEntry ts fr 127) s else s.bump F.canCnt_NOMATCH n
    | some i =>
      match s.eff F.canFltA_DEST (· == 3) n i with
      | 0 => canFifo n (canEntry ts fr i) s
      | 1 => canBuf n (s.fld F.canFltA_RXB n i) (canEntry ts fr i) s
      | _ => s := rfl

theorem b2n_le (b : Bool) : b2n b ≤ 1 := by cases b <;> decide

/-- The fields of a header word of five flags, a length code, a filter's index and an identifier. -/
theorem rxHdr_bits {a b c d e dlc i ident : Nat} (ha : a ≤ 1) (hb : b ≤ 1) (hc : c ≤ 1) (hd : d ≤ 1) (he : e ≤ 1) (hdlc : dlc < 16) (hi : i < 128)
    (hid : ident < 536870912) :
    let v := (a * 140737488355328 + b * 70368744177664 + c * 35184372088832 + d * 17592186044416 + e * 8796093022208 + dlc * 549755813888
      + i * 4294967296 + ident) % 281474976710656
    v / 1 % 536870912 = ident ∧ v / 4294967296 % 128 = i ∧ v / 549755813888 % 16 = dlc := by
  intro v
  have hv : v = a * 140737488355328 + b * 70368744177664 + c * 35184372088832 + d * 17592186044416 + e * 8796093022208 + dlc * 549755813888
      + i * 4294967296 + ident := Nat.mod_eq_of_lt (by omega)
  clear_value v
  refine ⟨?_, ?_, ?_⟩ <;> omega

theorem canEntry_spec (ts : Nat) (fr : CanFrame) {i : Nat} (hi : i < 128) : (canEntry ts fr i).ts = ts
    ∧ bits (canEntry ts fr i).hdr.toNat 0 29 = canIdent fr ∧ bits (canEntry ts fr i).hdr.toNat 32 7 = i
    ∧ bits (canEntry ts fr i).hdr.toNat 39 4 = fr.dlc ∧ (canEntry ts fr i).data.length = 11 := by
  obtain ⟨hid, hidx, hdlc⟩ := rxHdr_bits (b2n_le fr.ide) (b2n_le (fr.rtr && !fr.fdf)) (b2n_le fr.fdf) (b2n_le (fr.brs && fr.fdf))
    (b2n_le (fr.esi && fr.fdf)) fr.dlc.isLt hi (canIdent_lt fr)
  unfold canEntry
  dsimp only
  rw [wd_toNat_mod]
  refine ⟨rfl, hid, hidx, hdlc, canWords_length ?_⟩
  rw [List.length_append, List.length_take, List.length_replicate]
  have hlen : (if fr.rtr && !fr.fdf then 0 else dlcBytes fr.fdf fr.dlc) ≤ 64 := by
    split_ifs
    · exact Nat.zero_le _
    · exact dlcBytes_le ..
  omega

/-! ### The filters (R286) -/

theorem canSort_of_none (ts : Nat) (h : ∀ i < 128, s.canMatch n fr (canIdent fr) i = false) (hno : s.fld F.canCfg0_NOMATCH n = 0) :
    canSort n ts fr s = s.bump F.canCnt_NOMATCH n := by
  have hnone : ((List.range 128).find? fun i => s.canMatch n fr (canIdent fr) i) = none := by
    rw [List.find?_eq_none]
    intro i hi
    rw [h i (List.mem_range.1 hi)]
    exact Bool.false_ne_true
  rw [canSort_eq, hnone, State.on_eq_false.2 hno]
  rfl

theorem canSort_of_first (ts : Nat) {i : Nat} (hi : i < 128) (h : s.canMatch n fr (canIdent fr) i = true)
    (hfirst : ∀ j < i, s.canMatch n fr (canIdent fr) j = false) (hdest : s.eff F.canFltA_DEST (· == 3) n i = 0) :
    canSort n ts fr s = canFifo n (canEntry ts fr i) s := by
  have hsome : ((List.range 128).find? fun i => s.canMatch n fr (canIdent fr) i) = some i := by
    rw [List.find?_range_eq_some]
    exact ⟨h, List.mem_range.2 hi, fun j hj => by rw [hfirst j hj, Bool.not_false]⟩
  rw [canSort_eq, hsome]
  dsimp only
  rw [hdest]
  rfl

theorem canFifo_of_room {x : CanRx} (h : (s.cn n).fifo.length < 64) : ((canFifo n x s).cn n).fifo = (s.cn n).fifo ++ [x]
    ∧ (canFifo n x s).fld F.canEvt_RXF n = 1 := by
  unfold canFifo
  rw [if_neg (by omega)]
  obtain ⟨hirq, hcan⟩ := canIrq_keeps n ((s.setCn n { s.cn n with fifo := (s.cn n).fifo ++ [x] }).put F.canEvt_RXF 1 n)
  refine ⟨?_, (hirq.fld _ (by decide) ..).trans (State.put_fld ..)⟩
  rw [State.cn, hcan]
  exact (congrArg CanS.fifo (State.setCn_cn s n { s.cn n with fifo := (s.cn n).fifo ++ [x] })).trans rfl

theorem canFifo_of_full {x : CanRx} (h : 64 ≤ (s.cn n).fifo.length) : canFifo n x s = (s.bump F.canCnt_RXOVR n).put F.canEvt_RXOVR 1 n :=
  if_pos h

/-! ### Reception (R286, R290, R291) -/

theorem canReceive_of_away (h : s.canOn n = false ∨ s.canMode n = 4 ∨ (s.cn n).bus ≠ none ∨ (fr.fdf = true ∧ s.fld F.canCfg0_FDOE n = 0)) :
    canReceive n fr s = s := by
  unfold canReceive
  dsimp only
  rw [if_pos]
  rcases h with h | h | h | ⟨h, h'⟩
  · rw [h]
    rfl
  · rw [decide_eq_true h, Bool.or_true, Bool.true_or, Bool.true_or]
  · rw [Option.isSome_iff_ne_none.2 h, Bool.or_true, Bool.true_or]
  · rw [h, State.on_eq_false.2 h', Bool.not_false, Bool.and_true, Bool.or_true]

/-- A controller hears a frame whole: it acknowledges the frame and counts. -/
def canTaken (n : Nat) (s : State) : State :=
  if s.canMode n = 3 then canSend n (.canAck n) (canHeard n s) else canGoodRx n (canSend n (.canAck n) (canHeard n s))

theorem canReceive_of_on (hon : s.canOn n = true) (hm : s.canMode n ≠ 4) (hbus : (s.cn n).bus = none)
    (hfd : fr.fdf = true → s.fld F.canCfg0_FDOE n ≠ 0) : canReceive n fr s =
    if fr.fdf = true ∧ fr.res = true then canRes n s else canMonEnd n (canSort n ((canTaken n s).sofTk n) fr (canTaken n s)) := by
  have hopen : (fr.fdf && !s.on F.canCfg0_FDOE n) = false := by
    cases hf : fr.fdf with
    | false => rfl
    | true => rw [State.on_eq_true.2 (hfd hf)]; rfl
  unfold canReceive
  dsimp only
  rw [hon, decide_eq_false hm, hbus, hopen, Option.isSome_none, Bool.not_true, Bool.or_false, Bool.or_false, Bool.or_false, if_neg Bool.false_ne_true]
  simp only [Bool.and_eq_true]
  rfl

/-- The fields that the counting of a good frame writes. -/
def canGoodFlds : List Nat := F.canStat_REC.id :: canStateFlds

theorem canGoodRx_eq (n : Nat) (s : State) : ∃ v, canGoodRx n s = canState n (s.draw.2.fld F.canStat_TEC n) (s.draw.2.put F.canStat_REC v n) := ⟨_, rfl⟩

theorem canGoodRx_keeps (h : (s.cn n).bus = none) : CanKeeps n canGoodFlds s (canGoodRx n s) ∧ ((canGoodRx n s).cn n).fifo = (s.cn n).fifo := by
  obtain ⟨v, hv⟩ := canGoodRx_eq n s
  have hput : CanKeeps n canGoodFlds s (s.draw.2.put F.canStat_REC v n) :=
    ⟨rfl, ⟨rfl, rfl⟩, rfl, rfl, rfl, rfl, fun f hf i j => State.put_fld_ne s.draw.2 _ _ _ _ _ _ _ fun e => hf (by rw [e]; decide)⟩
  obtain ⟨hkeeps, hfifo, -⟩ := canState_idle (s.draw.2.fld F.canStat_TEC n) (hput.bus.trans h)
  rw [hv]
  exact ⟨hput.trans (hkeeps.mono (List.subset_cons_self ..)), hfifo⟩

/-- The fields that the hearing of a frame writes. -/
def canTakenFlds : List Nat := F.canStat_LONE.id :: canGoodFlds

/-- What a hearing leaves, what it shows, and the acknowledgement that it sends. -/
theorem canTaken_spec (h : (s.cn n).bus = none) : CanKeeps n canTakenFlds { s with out := s.out ++ canSent s n (.canAck n) } (canTaken n s)
    ∧ ((canTaken n s).cn n).fifo = (s.cn n).fifo ∧ (canTaken n s).fld F.canStat_LONE n = 0 := by
  obtain ⟨hheard, hfifo, hlone⟩ := canHeard_keeps n s
  have hsent : canSent (canHeard n s) n (.canAck n) = canSent s n (.canAck n) := by
    unfold canSent State.canTxd
    rw [column_of_same (s := s) (t := canHeard n s) rfl (hheard.fld _ (by decide) ..), hheard.mode (by decide)]
  have hout : canSend n (.canAck n) (canHeard n s) = { canHeard n s with out := s.out ++ canSent s n (.canAck n) } := by
    rw [canSend_eq, hsent, hheard.out]
  have hkeeps : CanKeeps n canTakenFlds { s with out := s.out ++ canSent s n (.canAck n) } { canHeard n s with out := s.out ++ canSent s n (.canAck n) } :=
    ⟨rfl, hheard.time, hheard.lay, hheard.bus, hheard.mon, hheard.abort, fun f hf i j => hheard.fld f (fun hm => hf (List.mem_cons.2 (.inl (List.mem_singleton.1 hm)))) i j⟩
  unfold canTaken
  rw [hout]
  split_ifs
  · exact ⟨hkeeps, hfifo, hlone⟩
  · obtain ⟨hgood, hfifo'⟩ := canGoodRx_keeps (s := { canHeard n s with out := s.out ++ canSent s n (.canAck n) }) (hheard.bus.trans h)
    exact ⟨hkeeps.trans (hgood.mono (List.subset_cons_self ..)), hfifo'.trans hfifo, (hgood.fld _ (by decide) ..).trans hlone⟩

/-- What the filters see of a state follows their fields. -/
theorem canMatch_of_keeps {ids : List Nat} (h : CanKeeps n ids s t) (hids : ∀ f ∈ [F.canFltA_EN, F.canFltA_IDE, F.canFltA_ID, F.canFltB_MASK], f.id ∉ ids)
    (ident i : Nat) : t.canMatch n fr ident i = s.canMatch n fr ident i := by
  unfold State.canMatch State.on
  rw [h.fld F.canFltA_EN (hids _ (by decide)), h.fld F.canFltA_IDE (hids _ (by decide)), h.fld F.canFltA_ID (hids _ (by decide)),
    h.fld F.canFltB_MASK (hids _ (by decide))]

theorem sofTk_of_keeps {ids : List Nat} (h : CanKeeps n ids s t) (hids : ∀ f ∈ [F.canNbt_NBRP, F.canNbt_NTSEG1], f.id ∉ ids) : t.sofTk n = s.sofTk n := by
  unfold State.sofTk State.tk
  rw [h.fld F.canNbt_NBRP (hids _ (by decide)), h.fld F.canNbt_NTSEG1 (hids _ (by decide)), h.time.1, h.time.2]

theorem dest_of_keeps {ids : List Nat} (h : CanKeeps n ids s t) (hids : F.canFltA_DEST.id ∉ ids) (i : Nat) :
    t.eff F.canFltA_DEST (· == 3) n i = s.eff F.canFltA_DEST (· == 3) n i := by
  unfold State.eff
  rw [h.fld F.canFltA_DEST hids, h.lay]

/-- The state in which a frame that is heard whole meets the filters. -/
structure Heard (n : Nat) (s t : State) : Prop where
  keeps : CanKeeps n canTakenFlds { s with out := s.out ++ canSent s n (.canAck n) } t
  fifo : (t.cn n).fifo = (s.cn n).fifo
  lone : t.fld F.canStat_LONE n = 0
  sof : t.sofTk n = s.sofTk n
  sees : ∀ fr ident i, t.canMatch n fr ident i = s.canMatch n fr ident i
  dest : ∀ i, t.eff F.canFltA_DEST (· == 3) n i = s.eff F.canFltA_DEST (· == 3) n i

theorem heard_canTaken (h : (s.cn n).bus = none) : Heard n s (canTaken n s) := by
  obtain ⟨hkeeps, hfifo, hlone⟩ := canTaken_spec h
  exact ⟨hkeeps, hfifo, hlone, (sofTk_of_keeps (ids := canTakenFlds) hkeeps (by decide)).trans rfl,
    fun _ ident i => (canMatch_of_keeps (ids := canTakenFlds) hkeeps (by decide) ident i).trans rfl,
    fun i => (dest_of_keeps (ids := canTakenFlds) hkeeps (by decide) i).trans rfl⟩

theorem canReceive_of_whole (hon : s.canOn n = true) (hm : s.canMode n ≠ 4) (hbus : (s.cn n).bus = none)
    (hfd : fr.fdf = true → s.fld F.canCfg0_FDOE n ≠ 0 ∧ fr.res = false) :
    ∃ u, Heard n s u ∧ canReceive n fr s = canMonEnd n (canSort n (s.sofTk n) fr u) := by
  have hheard := heard_canTaken hbus
  refine ⟨canTaken n s, hheard, ?_⟩
  rw [canReceive_of_on hon hm hbus fun h => (hfd h).1, if_neg, hheard.sof]
  exact fun h => absurd (hfd h.1).2 (by rw [h.2]; decide)

/-! ### What the controllers do of received frames and errors -/

theorem canFramesAndErrorsAreReceived : Stated.CanFramesAndErrorsAreReceived := by
  intro s n
  refine ⟨fun fr haway => does_next (congrArg (done s) (canReceive_of_away haway)) rfl,
    fun fr hon hm hbus hfdf hres hfdoe => ?_, fun fr hon hm hbus hfd => ⟨fun hnone hno => ?_, fun i hi hmatch hfirst hdest => ⟨fun hroom => ?_, fun hfull => ?_⟩⟩,
    fun er hoff => does_next (congrArg (done s) (canErr_of_away er hoff)) rfl, fun er hon hm h1 h6 hfcs htec hrec => ?_,
    fun er hon hm h1 h6 => ?_, fun er hon hm h1 h6 htx hcode hfcs htec => ?_, fun k => ⟨fun haway => ?_, fun hoff hsync hm => ⟨fun hlt => ?_, fun hge => ?_⟩⟩,
    fun haway => does_next (congrArg (done s) (canIntegrate_of_away haway)) rfl,
    fun ha hm => does_next (congrArg (done s) (canIntegrate_of_on ha hm)) rfl⟩
  · have hres' : canReceive n fr s = canRes n s := (canReceive_of_on hon hm hbus fun _ => hfdoe).trans (if_pos ⟨hfdf, hres⟩)
    refine ⟨fun hpxe => does_next (congrArg (done s) (hres'.trans (if_pos (State.on_eq_true.2 hpxe)))) rfl, fun hpxe hm1 hfcs htec hrec => ?_⟩
    refine does_next (congrArg (done s) (hres'.trans (if_neg (by rw [State.on_eq_false.2 hpxe]; exact Bool.false_ne_true)))) ?_
    obtain ⟨hcode, -, -, hrec', hfifo, hout⟩ := canErr_active (er := { tx := false, dataPhase := false, code := 2, dominantAfterFlag := false })
      hon hm1 (by decide) (by decide) hfcs htec hrec
    simp only [State.notify_fld_get, State.notify_cn_get]
    exact ⟨hcode, hrec', hfifo, fun hcol => (mem_out_notify (by exact fun _ => nofun)).2 (hout hcol)⟩
  · obtain ⟨u, hu, hrecv⟩ := canReceive_of_whole hon hm hbus hfd
    rw [canSort_of_none _ (fun i hi => (hu.sees ..).trans (hnone i hi)) ((hu.keeps.fld _ (by decide) ..).trans hno)] at hrecv
    obtain ⟨hmout, hmact, hmfifo⟩ := canMonEnd_rest n (u.bump F.canCnt_NOMATCH n)
    have hcount := (fld_of_act hmact F.canCnt_NOMATCH n 0).trans (State.bump_fld u F.canCnt_NOMATCH n 0 1)
    refine does_next (congrArg (done s) hrecv) ?_
    simp only [State.notify_fld_get, State.notify_cn_get]
    refine ⟨hcount.trans (by rw [hu.keeps.fld _ (by decide)]; rfl), hmfifo.trans hu.fifo, fun hcol hm' => ?_, fun hm' hack => ?_⟩
    · rw [mem_out_notify (by exact fun _ => nofun), hmout]
      change _ ∈ u.out
      rw [hu.keeps.out, canSent_of_running hcol hm']
      exact List.mem_append_right _ (List.mem_singleton_self _)
    · rw [mem_out_notify (by exact fun _ => nofun), hmout] at hack
      change _ ∈ u.out at hack
      rwa [hu.keeps.out, canSent_of_quiet (by rw [hm']; decide), List.append_nil] at hack
  · obtain ⟨u, hu, hrecv⟩ := canReceive_of_whole hon hm hbus hfd
    rw [canSort_of_first _ hi ((hu.sees ..).trans hmatch) (fun j hj => (hu.sees ..).trans (hfirst j hj)) ((hu.dest i).trans hdest)] at hrecv
    obtain ⟨hfifo, hrxf⟩ := canFifo_of_room (s := u) (n := n) (x := canEntry (s.sofTk n) fr i) (by rwa [hu.fifo])
    have hkeeps := canFifo_keeps n (canEntry (s.sofTk n) fr i) u
    obtain ⟨-, hmact, hmfifo⟩ := canMonEnd_rest n (canFifo n (canEntry (s.sofTk n) fr i) u)
    obtain ⟨hts, hident, hidx, hdlc, hdata⟩ := canEntry_spec (s.sofTk n) fr hi
    refine does_next (congrArg (done s) hrecv) ⟨canEntry (s.sofTk n) fr i, ?_⟩
    simp only [State.notify_fld_get, State.notify_cn_get]
    exact ⟨hmfifo.trans (hfifo.trans (by rw [hu.fifo])), hts, hident, hidx, hdlc, hdata, (fld_of_act hmact ..).trans hrxf,
      (fld_of_act hmact ..).trans ((hkeeps.fld _ (by decide) ..).trans hu.lone)⟩
  · obtain ⟨u, hu, hrecv⟩ := canReceive_of_whole hon hm hbus hfd
    rw [canSort_of_first _ hi ((hu.sees ..).trans hmatch) (fun j hj => (hu.sees ..).trans (hfirst j hj)) ((hu.dest i).trans hdest),
      canFifo_of_full (by rwa [hu.fifo])] at hrecv
    obtain ⟨-, hmact, hmfifo⟩ := canMonEnd_rest n ((u.bump F.canCnt_RXOVR n).put F.canEvt_RXOVR 1 n)
    refine does_next (congrArg (done s) hrecv) ?_
    simp only [State.notify_fld_get, State.notify_cn_get]
    refine ⟨hmfifo.trans hu.fifo, (fld_of_act hmact ..).trans (State.put_fld ..), (fld_of_act hmact ..).trans ?_⟩
    rw [State.put_fld_ne _ _ _ _ _ _ _ _ (by decide), State.bump_fld, hu.keeps.fld _ (by decide)]
    rfl
  · obtain ⟨hcode, hfcs', htec', hrec', -⟩ := canErr_active (er := er) hon hm h1 h6 hfcs htec hrec
    refine does_next (u := canErr n er s) rfl ?_
    simp only [State.notify_fld_get]
    exact ⟨hcode, hfcs', htec', hrec'⟩
  · obtain ⟨htec, hrec, hfcs, hlone⟩ := canErr_frozen (er := er) hon hm h1 h6
    refine does_next (u := canErr n er s) rfl ?_
    simp only [State.notify_fld_get]
    exact ⟨htec, hrec, hfcs, hlone⟩
  · obtain ⟨hfcs', hboff, hbus, hreq⟩ := canErr_off (er := er) hon hm h1 h6 htx hcode hfcs htec
    refine does_next (u := canErr n er s) rfl ?_
    simp only [State.notify_fld_get, State.notify_cn_get]
    exact ⟨hfcs', hboff, hbus, fun k _ => hreq k⟩
  · exact does_next (congrArg (done s) (canRecover_of_away k haway)) rfl
  · exact does_next (congrArg (done s) ((canRecover_of_off k hoff hsync hm).trans (if_pos hlt))) rfl
  · exact does_next (congrArg (done s) ((canRecover_of_off k hoff hsync hm).trans (if_neg (by omega)))) rfl

/-- Settles O47: the buffers, the start and end of the frames, and reception, errors and bus-off, each through what the steps of the
controller write and leave. -/
theorem canControllersSendAndReceive : Obligations.CanControllersSendAndReceive := by
  unfold Obligations.CanControllersSendAndReceive
  exact ⟨canBuffersAreRequestedAndWithdrawn, canFramesAreSent, canFramesAndErrorsAreReceived⟩

end Sys2Proof.Machine
end

section
/-! PCIe functions and their vectors (R359, R361, R363). -/

namespace Sys2Proof.Machine

variable {s t u : State} {q r v : Nat}

/-! ### The frames of a ring's descriptors (R361) -/

/-- What the loss of a ring's frames leaves: the engines, the lofts, the host's part and every field but the free cells. -/
structure OrphanKeeps (s t : State) : Prop where
  eng : t.eng = s.eng
  loft : t.loft = s.loft
  host : t.host = s.host
  fld : ∀ f : Fld, f.id ≠ F.ydStat_FREE.id → ∀ i j, t.fld f i j = s.fld f i j

namespace OrphanKeeps

theorem refl (s : State) : OrphanKeeps s s := ⟨rfl, rfl, rfl, fun _ _ _ _ => rfl⟩

theorem trans (h : OrphanKeeps s t) (g : OrphanKeeps t u) : OrphanKeeps s u :=
  ⟨g.eng.trans h.eng, g.loft.trans h.loft, g.host.trans h.host, fun f hf i j => (g.fld f hf i j).trans (h.fld f hf i j)⟩

theorem setFrame (s : State) (id : Nat) (x : Option YFrame) : OrphanKeeps s (s.setFrame id x) := ⟨rfl, rfl, rfl, fun _ _ _ _ => rfl⟩

theorem foldl {α : Type} {f : State → α → State} (hf : ∀ s x, OrphanKeeps s (f s x)) (l : List α) (s : State) : OrphanKeeps s (l.foldl f s) := by
  induction l generalizing s with
  | nil => exact refl s
  | cons a l ih => exact (hf s a).trans (ih _)

theorem touchIdle (p : Nat) (s : State) : OrphanKeeps s (touchIdle p s) := ⟨rfl, rfl, rfl, fun _ _ _ _ => rfl⟩

theorem unqueue (id : Nat) (s : State) : OrphanKeeps s (unqueue id s) := by
  unfold Machine.unqueue
  extract_lets y had cut due
  refine .trans ?_ (foldl (fun s p => touchIdle p s) had _)
  exact ⟨rfl, rfl, rfl, fun _ _ _ _ => rfl⟩

theorem freeCells (n : Nat) (s : State) : OrphanKeeps s (freeCells n s) :=
  ⟨rfl, rfl, rfl, fun _ hf _ _ => State.put_fld_ne _ _ _ _ _ _ _ _ hf⟩

theorem orphanFrame (r : Nat) (s : State) (id : Nat) : OrphanKeeps s (orphanFrame r s id) := by
  unfold Machine.orphanFrame
  split
  · split
    · split_ifs
      · exact refl s
      · exact setFrame ..
      · extract_lets v k
        have hv : OrphanKeeps s v := unqueue id s
        split_ifs
        · exact hv.trans ((freeCells ..).trans (setFrame ..))
        · exact hv.trans (setFrame ..)
    · exact refl s
  · exact refl s

end OrphanKeeps

/-! ### A function's rings and table are cleared (R361) -/

/-- The fields of a function's rings that a function-level reset clears. -/
def ringFlds : List Fld := [F.ydHtxptr_LOGN, F.ydHtxptr_HEAD, F.ydHtxptr_TAIL, F.ydHrxptr_LOGN, F.ydHrxptr_HEAD, F.ydHrxptr_TAIL]

/-- The rings of function `r` are empty, and no vector of it is enabled, unmasked or pending. -/
structure FnCleared (r : Nat) (t : State) : Prop where
  rings : ∀ f ∈ ringFlds, t.fld f r = 0
  enable : t.host.msixEn.getLsbD r = false
  unmasked : ∀ v ∈ t.host.unmasked, v / 128 ≠ r
  pba : ∀ v ∈ t.host.pba, v / 128 ≠ r

theorem ringFlds_ids : ∀ f ∈ ringFlds, ∀ g ∈ ringFlds, f.id = g.id → f = g := by decide

/-- A ring's field that reads 0 does so after any of them is put to 0, and the one that is put does. -/
theorem put_zero_fld {f g : Fld} (hf : f ∈ ringFlds) (hg : g ∈ ringFlds) (q r : Nat) (h : s.fld f q = 0 ∨ (f = g ∧ q = r)) :
    (s.put g 0 r).fld f q = 0 := by
  by_cases hid : f.id = g.id
  · obtain rfl := ringFlds_ids f hf g hg hid
    by_cases hkey : f.key q 0 = f.key r 0
    · unfold State.fld
      rw [hkey]
      exact (State.put_fld ..).trans (Nat.zero_mod _)
    · rw [State.put_fld_at _ _ _ _ _ _ _ hkey]
      rcases h with h | ⟨-, rfl⟩
      · exact h
      · exact absurd rfl hkey
  · rw [State.put_fld_ne _ _ _ _ _ _ _ _ hid]
    rcases h with h | ⟨rfl, -⟩
    · exact h
    · exact absurd rfl hid

/-- The fields of function `r`'s rings cleared. -/
def ringsZero (r : Nat) (l : List Fld) (s : State) : State := l.foldl (fun s f => s.put f 0 r) s

theorem ringsZero_fld {l : List Fld} (hl : ∀ f ∈ l, f ∈ ringFlds) {f : Fld} (hf : f ∈ ringFlds) (q r : Nat) (h : s.fld f q = 0 ∨ (f ∈ l ∧ q = r)) :
    (ringsZero r l s).fld f q = 0 := by
  induction l generalizing s with
  | nil =>
    rcases h with h | ⟨h, -⟩
    · exact h
    · exact absurd h List.not_mem_nil
  | cons g l ih =>
    have hg := hl g List.mem_cons_self
    refine ih (fun f hf => hl f (List.mem_cons_of_mem _ hf)) ?_
    rcases h with h | ⟨hmem, hq⟩
    · exact .inl (put_zero_fld hf hg q r (.inl h))
    · rcases List.mem_cons.1 hmem with rfl | hmem
      · exact .inl (put_zero_fld hf hg q r (.inr ⟨rfl, hq⟩))
      · exact .inr ⟨hmem, hq⟩

/-- What is left of the host's enables, masks and pending vectors without function `r`'s. -/
def hostWithout (r : Nat) (h : HostS) : HostS :=
  { h with msixEn := h.msixEn &&& ~~~(BitVec.ofNat 16 (2 ^ r)), unmasked := h.unmasked.filter (fun v => v / 128 != r), pba := h.pba.filter (fun v => v / 128 != r) }

/-- The yard's and the host's part without function `r`'s. -/
def withoutFn (r : Nat) (s : State) : State :=
  { s with
    yard := { s.yard with
      htxNext := Tab.set 0 s.yard.htxNext r 0, hrx := Tab.set [] s.yard.hrx r [], owed := s.yard.owed.filter (fun v => v / 128 != r) }
    host := hostWithout r s.host }

theorem ringsZero_rest (r : Nat) (l : List Fld) (s : State) : (ringsZero r l s).eng = s.eng ∧ (ringsZero r l s).loft = s.loft ∧ (ringsZero r l s).host = s.host :=
  ⟨foldl_part (p := State.eng) (f := fun s (f : Fld) => s.put f 0 r) (fun _ _ => rfl) l s,
    foldl_part (p := State.loft) (f := fun s (f : Fld) => s.put f 0 r) (fun _ _ => rfl) l s,
    foldl_part (p := State.host) (f := fun s (f : Fld) => s.put f 0 r) (fun _ _ => rfl) l s⟩

/-- A function-level reset of `r`: the frames of its descriptors, its rings' fields, the yard's part of them, its vectors. -/
theorem resetPcieFn_eq (r : Nat) (s : State) : ∃ u, OrphanKeeps s u ∧ resetPcieFn r s = withoutFn r (ringsZero r ringFlds u) :=
  ⟨_, .foldl (OrphanKeeps.orphanFrame r) (s.yard.frames.map (·.1)) s, rfl⟩

theorem hostWithout_enable (r q : Nat) (h : HostS) : (hostWithout r h).msixEn.getLsbD q = (h.msixEn.getLsbD q && !decide (q = r)) := by
  unfold hostWithout
  by_cases hq : q < 16
  · rw [BitVec.getLsbD_and, BitVec.getLsbD_not, BitVec.getLsbD_ofNat, Nat.testBit_two_pow, decide_eq_true hq, Bool.true_and, Bool.true_and]
    simp only [eq_comm]
  · rw [BitVec.getLsbD_of_ge _ _ (Nat.le_of_not_lt hq), BitVec.getLsbD_of_ge _ _ (Nat.le_of_not_lt hq), Bool.false_and]

theorem mem_hostWithout {r v : Nat} {h : HostS} : (v ∈ (hostWithout r h).unmasked ↔ v ∈ h.unmasked ∧ v / 128 ≠ r)
    ∧ (v ∈ (hostWithout r h).pba ↔ v ∈ h.pba ∧ v / 128 ≠ r) := by
  unfold hostWithout
  simp only [List.mem_filter, bne_iff_ne, and_self]

theorem resetPcieFn_spec (r : Nat) (s : State) : (resetPcieFn r s).eng = s.eng ∧ (resetPcieFn r s).loft = s.loft
    ∧ (resetPcieFn r s).host = hostWithout r s.host
    ∧ ∀ f ∈ ringFlds, ∀ q, s.fld f q = 0 ∨ q = r → (resetPcieFn r s).fld f q = 0 := by
  obtain ⟨u, hu, h⟩ := resetPcieFn_eq r s
  obtain ⟨heng, hloft, hhost⟩ := ringsZero_rest r ringFlds u
  have hzero : ∀ f ∈ ringFlds, ∀ q, u.fld f q = 0 ∨ q = r → (ringsZero r ringFlds u).fld f q = 0 :=
    fun f hf q hq => ringsZero_fld (fun _ hf => hf) hf q r (hq.imp id fun hq => ⟨hf, hq⟩)
  rw [h]
  generalize ringsZero r ringFlds u = z at *
  refine ⟨heng.trans hu.eng, hloft.trans hu.loft, congrArg (hostWithout r) (hhost.trans hu.host), fun f hf q hq => hzero f hf q ?_⟩
  rcases hq with hq | hq
  · exact .inl ((hu.fld f ((by decide : ∀ f ∈ ringFlds, f.id ≠ F.ydStat_FREE.id) f hf) ..).trans hq)
  · exact .inr hq

theorem fnCleared_resetPcieFn (h : FnCleared q s ∨ q = r) : FnCleared q (resetPcieFn r s) := by
  obtain ⟨-, -, hhost, hfld⟩ := resetPcieFn_spec r s
  refine ⟨fun f hf => hfld f hf q ?_, ?_, fun v hv => ?_, fun v hv => ?_⟩
  · exact h.imp (fun h => h.rings f hf) id
  · rw [hhost, hostWithout_enable]
    rcases h with h | h
    · rw [h.enable, Bool.false_and]
    · rw [decide_eq_true h, Bool.not_true, Bool.and_false]
  · rw [hhost, mem_hostWithout.1] at hv
    rcases h with h | h
    · exact h.unmasked v hv.1
    · exact h ▸ hv.2
  · rw [hhost, mem_hostWithout.2] at hv
    rcases h with h | h
    · exact h.pba v hv.1
    · exact h ▸ hv.2

/-- The end of a command leaves a cleared function cleared: none of its vectors rises. -/
theorem FnCleared.notify (h : FnCleared q t) (s : State) : FnCleared q (notify s t) := by
  refine ⟨h.rings, h.enable, h.unmasked, fun v hv => ?_⟩
  rcases List.mem_append.1 hv with hv | hv
  · exact h.pba v hv
  · have hrisen := (List.mem_filter.1 hv).1
    unfold risen at hrisen
    split_ifs at hrisen
    · exact absurd hrisen List.not_mem_nil
    · intro hq
      have hon := (List.mem_filter.1 hrisen).2
      unfold State.msixOn at hon
      rw [hq, h.enable, Bool.and_false, Bool.false_and, Bool.false_and] at hon
      exact absurd hon Bool.false_ne_true

theorem FnCleared.linkDown (h : FnCleared q t) : FnCleared q { t with host := { t.host with pcieUp := false } } :=
  ⟨h.rings, h.enable, h.unmasked, h.pba⟩

theorem fnCleared_foldl (l : List Nat) (h : FnCleared q s ∨ q ∈ l) : FnCleared q (l.foldl (fun s r => resetPcieFn r s) s) := by
  induction l generalizing s with
  | nil => exact h.resolve_right List.not_mem_nil
  | cons r l ih =>
    rw [List.foldl_cons]
    rcases h with h | h
    · exact ih (.inl (fnCleared_resetPcieFn (.inl h)))
    · rcases List.mem_cons.1 h with h | h
      · exact ih (.inl (fnCleared_resetPcieFn (.inr h)))
      · exact ih (.inr h)

/-! ### What the link and the vectors do (R359, R363) -/

theorem pcieTrain_of_away (h : s.clocksOn = false ∨ s.host.pcieUp = true) : pcieTrain s = s := by
  unfold pcieTrain
  rw [if_pos]
  rcases h with h | h
  · rw [h]
    rfl
  · rw [h, Bool.or_true]

theorem pcieTrain_of_down (hc : s.clocksOn = true) (hd : s.host.pcieUp = false) : pcieTrain s =
    if (trainLeave 13 s).1 then { (trainLeave 13 s).2 with host := { (trainLeave 13 s).2.host with pcieUp := true } } else (trainLeave 13 s).2 := by
  unfold pcieTrain
  rw [hc, hd, Bool.not_true, Bool.false_or, if_neg Bool.false_ne_true]

theorem msixAct_of_down (a : MsixAct) (h : s.host.pcieUp = false) : msixAct a s = s := by
  unfold msixAct unmask
  cases a <;> exact if_pos (by rw [h]; rfl)

/-- The enables with function `r`'s set as `b` says. -/
def enableBit (r : Nat) (b : Bool) (x : BitVec 16) : BitVec 16 := if b then x ||| BitVec.ofNat 16 (2 ^ r) else x &&& ~~~(BitVec.ofNat 16 (2 ^ r))

theorem enableBit_getLsbD (r : Fin 16) (b : Bool) (x : BitVec 16) (q : Nat) :
    (enableBit r b x).getLsbD q = if q = r.val then b else x.getLsbD q := by
  have hr : (BitVec.ofNat 16 (2 ^ r.val)).getLsbD q = decide (q = r.val) := by
    rw [BitVec.getLsbD_ofNat, Nat.testBit_two_pow]
    by_cases hq : q = r.val
    · rw [hq, decide_eq_true r.isLt, decide_eq_true rfl, Bool.true_and]
    · rw [decide_eq_false hq, decide_eq_false (Ne.symm hq), Bool.and_false]
  unfold enableBit
  split_ifs with hb hq hq
  · rw [BitVec.getLsbD_or, hr, decide_eq_true hq, Bool.or_true, hb]
  · rw [BitVec.getLsbD_or, hr, decide_eq_false hq, Bool.or_false]
  · rw [BitVec.getLsbD_and, BitVec.getLsbD_not, hr, decide_eq_true hq, Bool.not_true, Bool.and_false, Bool.and_false]
    exact (Bool.not_eq_true b ▸ hb).symm
  · by_cases hlt : q < 16
    · rw [BitVec.getLsbD_and, BitVec.getLsbD_not, hr, decide_eq_false hq, decide_eq_true hlt, Bool.not_false, Bool.and_true, Bool.and_true]
    · rw [BitVec.getLsbD_of_ge _ _ (Nat.le_of_not_lt hlt), BitVec.getLsbD_of_ge _ _ (Nat.le_of_not_lt hlt)]

theorem msixAct_enable (r : Fin 16) (b : Bool) (h : s.host.pcieUp = true) :
    msixAct (.enable r b) s = { s with host := { s.host with msixEn := enableBit r b s.host.msixEn } } := by
  unfold msixAct
  dsimp only
  rw [h, Bool.not_true, if_neg Bool.false_ne_true]
  rfl

theorem msixAct_mask (v : Fin 2048) (h : s.host.pcieUp = true) :
    msixAct (.mask v) s = { s with host := { s.host with unmasked := s.host.unmasked.filter (· ≠ v.val) } } := by
  unfold msixAct
  dsimp only
  rw [h, Bool.not_true, if_neg Bool.false_ne_true]

theorem pcieFunctionsAndVectors : Stated.PcieFunctionsAndVectors := by
  intro s
  refine ⟨fun hdown r => ?_, fun hup r => ?_, ?_, fun haway => does_next (congrArg (done s) (pcieTrain_of_away haway)) rfl, fun hc hd => ⟨fun hleave => ?_, fun hleave => ?_⟩,
    fun a hdown => does_next (congrArg (done s) (msixAct_of_down a hdown)) rfl, fun hup r b => ?_, fun v hup => ⟨does_next (congrArg (done s) (msixAct_mask v hup)) rfl, ?_⟩⟩
  · exact does_next (congrArg (done s) (if_neg (by rw [hdown]; exact Bool.false_ne_true))) rfl
  · refine does_next (u := resetPcieFn r s) (congrArg (done s) (if_pos hup)) ?_
    have hcl := (fnCleared_resetPcieFn (s := s) (r := r) (.inr rfl)).notify s
    obtain ⟨heng, hloft, hhost, -⟩ := resetPcieFn_spec r.val s
    generalize resetPcieFn r.val s = t at *
    have hkept : (notify s t).host.pcieUp = s.host.pcieUp ∧ ∀ q, q ≠ r.val → (notify s t).host.msixEn.getLsbD q = s.host.msixEn.getLsbD q := by
      change t.host.pcieUp = _ ∧ ∀ q, q ≠ r.val → t.host.msixEn.getLsbD q = _
      rw [hhost]
      refine ⟨rfl, fun q hq => (hostWithout_enable ..).trans ?_⟩
      rw [decide_eq_false hq, Bool.not_false, Bool.and_true]
    exact ⟨⟨hcl.rings, hcl.enable, hcl.unmasked, hcl.pba⟩, heng, hloft, hkept⟩
  · refine does_next (u := pcieDown s) rfl ?_
    have hcl := fun r hr => fnCleared_foldl (q := r) (s := icWithdraw (fun r => r.i == 16 && (r.w == .pf || isVf r.w)) s) (List.range 16) (.inr (List.mem_range.2 hr))
    unfold pcieDown
    dsimp only
    generalize (List.range 16).foldl (fun s r => resetPcieFn r s) (icWithdraw (fun r => r.i == 16 && (r.w == .pf || isVf r.w)) s) = t at *
    refine ⟨fun r hr => ?_, rfl⟩
    have hdown := (hcl r hr).linkDown.notify s
    exact ⟨hdown.rings, hdown.enable, hdown.unmasked, hdown.pba⟩
  · refine does_next (congrArg (done s) ((pcieTrain_of_down hc hd).trans (if_pos hleave))) ⟨rfl, ?_, trainLeave_eng 13 s⟩
    exact (congrArg HostS.msixEn (AskKeeps.trainLeave 13 s).host :)
  · exact does_next (congrArg (done s) ((pcieTrain_of_down hc hd).trans (if_neg (by rw [hleave]; exact Bool.false_ne_true)))) rfl
  · refine does_next (congrArg (done s) (msixAct_enable r b hup)) ⟨?_, fun q hq => ?_, rfl, rfl⟩
    · exact (enableBit_getLsbD ..).trans (if_pos rfl)
    · exact (enableBit_getLsbD ..).trans (if_neg hq)
  · refine does_next (u := unmask v s) rfl ?_
    unfold unmask State.stillHolds
    rw [hup, Bool.not_true, if_neg Bool.false_ne_true]

end Sys2Proof.Machine
end

section
/-! The quad-SPI and the management port (R334, R365, R366, R367). -/

namespace Sys2Proof.Machine

variable {s t u : State} {w : Who} {m k a n : Nat} {bs : List Byte}

/-! ### A supervisor's access to a loft (R137, R147, R148) -/

theorem awaitDrain_of_supervisor (n a : Nat) (h : s.supervisor w = true) : awaitDrain w n a s = s := by
  unfold awaitDrain
  split
  · rfl
  · rw [h]
    rfl

theorem mayLoft_of_supervisor (n : Nat) (h : s.supervisor w = true) (hres : loftReserved a = false) : s.mayLoft w n a = true := by
  unfold State.mayLoft
  rw [h, hres]
  rfl

/-- A supervisor port reads a loft word that is in order. -/
theorem busRead_loft {v : Word} (off : Nat) (hj : isJtag w = false) (h : s.supervisor w = true) (ha : s.applied = true) (hres : loftReserved k = false)
    (hok : readCode (s.raw (loftPlace m k)) = .ok v) : busRead w off (.loft m k) s = ({ disp := 0, det := 1, st := s }, .ok v) := by
  have hread : loftRead w m k s = (0, .ok v, s) := by
    unfold loftRead
    rw [awaitDrain_of_supervisor m k h, if_pos (mayLoft_of_supervisor m h hres), memRead_ok hok]
  unfold busRead
  dsimp only
  rw [hj, ha, hread]
  rfl

/-- A supervisor port writes a whole loft word. -/
theorem busWrite_loft {be : BitVec 8} (off : Nat) (v : BitVec 64) (hj : isJtag w = false) (h : s.supervisor w = true) (ha : s.applied = true)
    (hres : loftReserved k = false) (hin : s.inpassWord m k = false) (hbe : beFull be = true) :
    busWrite w off (.loft m k) be v s = { disp := 0, det := 1, st := memWrite (loftPlace m k) (mergeBytes 0 be v) s } := by
  have hwrite : loftWrite w m k be v s = (0, memWrite (loftPlace m k) (mergeBytes 0 be v) s) := by
    unfold loftWrite
    rw [awaitDrain_of_supervisor m k h, if_pos (by rw [mayLoft_of_supervisor m h hres, hin]; rfl)]
    exact if_pos hbe
  unfold busWrite
  dsimp only
  rw [hj, ha, hwrite]
  rfl

/-! ### Transfers (R366) -/

theorem readSlots_length (w : Who) (a n : Nat) (s : State) : (readSlots w a n s).1.length = n := by
  induction n generalizing a s with
  | zero => rfl
  | succ n ih => exact congrArg (· + 1) (ih ..)

theorem readSlots_head (w : Who) (a n : Nat) (s : State) :
    ((readSlots w a (max n 1) s).1.head?.map (·.1)).getD 0 = (busRead w a (hostPlace a) s).1.disp := by
  obtain ⟨j, hj⟩ : ∃ j, max n 1 = j + 1 := ⟨max n 1 - 1, by omega⟩
  rw [hj]
  rfl

theorem readSlots_take_length (w : Who) (a n : Nat) (s : State) : (((readSlots w a (max n 1) s).1.take n).map (·.2)).length = n := by
  rw [List.length_map, List.length_take, readSlots_length]
  omega

/-- Bytes that lie in one slot are one access. -/
theorem writeBytes_slot (w : Who) (s : State) (hne : bs ≠ []) (h : a % 8 + bs.length ≤ 8) : writeBytes w a bs s =
    (worse 0 (busWrite w (8 * (a / 8)) (hostPlace (8 * (a / 8))) (slotBytesAt a bs (a / 8)).1 (slotBytesAt a bs (a / 8)).2 s).disp,
      (busWrite w (8 * (a / 8)) (hostPlace (8 * (a / 8))) (slotBytesAt a bs (a / 8)).1 (slotBytesAt a bs (a / 8)).2 s).st) := by
  have hlen := List.length_pos_iff.2 hne
  unfold writeBytes
  rw [show (a % 8 + bs.length + 7) / 8 = 1 by omega]
  rfl

/-- The word that six bytes spell, the first least significant. -/
def sixBytes (bs : List Byte) : Nat := ((List.range 6).map fun i => (bs.getD i 0).toNat * 2 ^ (8 * i)).sum

/-- The six bytes of a whole word enable its slot's six bytes. -/
theorem slotBytesAt_word (q : Nat) (h : bs.length = 6) :
    slotBytesAt (8 * q) bs q = (63, BitVec.ofNat 64 (sixBytes bs)) := by
  have hon : ∀ i < 8, (decide (8 * q ≤ 8 * q + i) && decide (8 * q + i < 8 * q + bs.length)) = decide (i < 6) := fun i _ => by
    rw [h, decide_eq_true (Nat.le_add_right ..), Bool.true_and]
    exact decide_eq_decide.2 (by omega)
  have hat : ∀ i, 8 * q + i - 8 * q = i := fun i => Nat.add_sub_cancel_left ..
  unfold slotBytesAt
  dsimp only
  have hsum : ((List.range 8).map fun i => if (decide (8 * q ≤ 8 * q + i) && decide (8 * q + i < 8 * q + bs.length)) = true
      then (bs.getD (8 * q + i - 8 * q) 0).toNat * 2 ^ (8 * i) else 0)
      = (List.range 8).map fun i => if i < 6 then (bs.getD i 0).toNat * 2 ^ (8 * i) else 0 :=
    List.map_congr_left fun i hi => by rw [hon i (List.mem_range.1 hi), hat]; simp only [decide_eq_true_eq]
  have hen : ((List.range 8).map fun i => b2n (decide (8 * q ≤ 8 * q + i) && decide (8 * q + i < 8 * q + bs.length)) * 2 ^ i)
      = (List.range 8).map fun i => b2n (decide (i < 6)) * 2 ^ i :=
    List.map_congr_left fun i hi => by rw [hon i (List.mem_range.1 hi)]
  rw [hsum, hen]
  rfl

/-- The six bytes of a number's low 48 bits, all enabled, are its word. -/
theorem mergeBytes_six (x : Nat) : mergeBytes 0 63 (BitVec.ofNat 64 x) = wd x := by
  have hset : ∀ k ∈ List.range 6, (63 : BitVec 8).getLsbD k = true := by decide
  have hbytes : mergeBytes 0 63 (BitVec.ofNat 64 x) = wd ((List.range 6).foldl (fun n k => n + byteOf (BitVec.ofNat 64 x).toNat k * 2 ^ (8 * k)) 0) := by
    unfold mergeBytes
    refine congrArg wd (List.foldl_ext _ _ _ fun n k hk => ?_)
    rw [if_pos (hset k hk)]
  rw [hbytes, foldl_byteOf, BitVec.toNat_ofNat]
  refine BitVec.eq_of_toNat_eq ?_
  rw [wd_toNat_mod, wd_toNat_mod, Nat.mod_mod_of_dvd _ (Nat.dvd_refl _), Nat.mod_mod_of_dvd _ (Nat.pow_dvd_pow 2 (by decide))]

/-- A port of the host writes a whole word of a loft. -/
theorem writeBytes_loft (hj : isJtag w = false) (hsup : s.supervisor w = true) (ha : s.applied = true) (hal : a % 8 = 0) (hlen : bs.length = 6)
    (hp : hostPlace a = .loft m k) (hres : loftReserved k = false) (hin : s.inpassWord m k = false) :
    writeBytes w a bs s = (0, memWrite (loftPlace m k) (wd (sixBytes bs)) s) := by
  obtain ⟨q, rfl⟩ : ∃ q, a = 8 * q := ⟨a / 8, by omega⟩
  have hq : 8 * q / 8 = q := Nat.mul_div_cancel_left q (by decide)
  rw [writeBytes_slot w s (List.ne_nil_of_length_pos (by omega)) (by omega), hq, hp, slotBytesAt_word q hlen,
    busWrite_loft _ _ hj hsup ha hres hin (show beFull 63 = true by decide), mergeBytes_six]
  rfl

/-! ### The quad-SPI port (R365, R366) -/

theorem host_qspiPend {h : HostS} (hp : h.qspiPend = false) : { h with qspiPend := false } = h := by
  cases h
  cases hp
  rfl

theorem qspiBusy_of_idle (h : s.host.qspiPend = false) : qspiBusy s = (false, s) := by
  unfold qspiBusy stillRuns
  rw [h]
  exact congrArg (fun x => (false, ({ s with host := x } : State))) (host_qspiPend h)

theorem qspiBusy_eq (s : State) : ∃ i h, (qspiBusy s).2 = { s with fresh := i, host := h } := by
  unfold qspiBusy stillRuns
  split_ifs <;> exact ⟨_, _, rfl⟩

theorem exec_qspiRead {c : BitVec 32 → Fin 33 → Instr} (hc : c ∈ [Instr.qspiReadSingle, Instr.qspiReadQuadData, Instr.qspiReadQuad]) (hclk : s.clocksOn = true)
    (a : BitVec 32) (n : Fin 33) : exec (c a n) s = done s (qspiRead a.toNat n s) := by
  have hq : ∀ o, qspiOp o = some (.read, 1, 1) ∨ qspiOp o = some (.read, 1, 4) ∨ qspiOp o = some (.read, 4, 4) → qspi o a.toNat n [] s = qspiRead a.toNat n s := fun o ho => by
    unfold qspi
    rw [hclk]
    rcases ho with ho | ho | ho <;> rw [ho] <;> rfl
  simp only [List.mem_cons, List.not_mem_nil, or_false] at hc
  rcases hc with rfl | rfl | rfl
  · exact congrArg (done s) (hq 0x0B (by decide))
  · exact congrArg (done s) (hq 0x6B (by decide))
  · exact congrArg (done s) (hq 0xEB (by decide))

theorem exec_qspiWrite {c : BitVec 32 → List Byte → Instr} (hc : c ∈ [Instr.qspiWriteSingle, Instr.qspiWriteQuadData, Instr.qspiWriteQuad]) (hclk : s.clocksOn = true)
    (a : BitVec 32) (bs : List Byte) : exec (c a bs) s = done s (qspiWrite a.toNat bs s) := by
  have hq : ∀ o, qspiOp o = some (.write, 1, 1) ∨ qspiOp o = some (.write, 1, 4) ∨ qspiOp o = some (.write, 4, 4) → qspi o a.toNat 0 bs s = qspiWrite a.toNat bs s := fun o ho => by
    unfold qspi
    rw [hclk]
    rcases ho with ho | ho | ho <;> rw [ho] <;> rfl
  simp only [List.mem_cons, List.not_mem_nil, or_false] at hc
  rcases hc with rfl | rfl | rfl
  · exact congrArg (done s) (hq 0x02 (by decide))
  · exact congrArg (done s) (hq 0x32 (by decide))
  · exact congrArg (done s) (hq 0x38 (by decide))

theorem qspiRead_eq (a n : Nat) (s : State) : qspiRead a n s =
    ((readSlots .qspi a (max n 1) (qspiBusy s).2).2.emit
      (.status (statusByte (qspiBusy s).1 (qspiBusy s).2.host.qspiDisp (busRead .qspi a (hostPlace a) (qspiBusy s).2).1.disp))).emit
      (.resp .qspi (busRead .qspi a (hostPlace a) (qspiBusy s).2).1.disp (((readSlots .qspi a (max n 1) (qspiBusy s).2).1.take n).map (·.2)) false) := by
  rw [← readSlots_head .qspi a n (qspiBusy s).2]
  rfl

theorem qspiBusy_disp (s : State) : (qspiBusy s).2.host.qspiDisp = s.host.qspiDisp := by
  unfold qspiBusy stillRuns
  split_ifs <;> rfl

theorem qspiWrite_of_data (a : Nat) (hne : bs ≠ []) : qspiWrite a bs s =
    if (qspiBusy s).1 then (qspiBusy s).2
    else { (writeBytes .qspi a (bs.take 256) (qspiBusy s).2).2 with
      host := { (writeBytes .qspi a (bs.take 256) (qspiBusy s).2).2.host with
        qspiDisp := (writeBytes .qspi a (bs.take 256) (qspiBusy s).2).1, qspiPend := (writeBytes .qspi a (bs.take 256) (qspiBusy s).2).2.clocksOn } } := by
  unfold qspiWrite
  rw [if_neg (by rw [List.isEmpty_iff]; exact hne)]

end Sys2Proof.Machine
end

section
/-! The management port (R333, R334, R367), and what the serial ports read and write. -/

namespace Sys2Proof.Machine

variable {s t u : State} {m k n o : Nat} {bs : List Byte} {a : BitVec 7} {f : State → State}

/-! ### The address byte (R333, R334, R367) -/

theorem i2cStart_of_other (h : a.toNat ≠ s.i2cAddr) : i2cStart a f s = s := if_pos h

theorem phase_of_clocksOn (h : s.clocksOn = true) : ¬(s.boot.phase = .rest ∨ s.boot.phase = .keep) := by
  unfold State.clocksOn at h
  rintro (hp | hp)
  · rw [hp] at h
    exact absurd h Bool.false_ne_true
  · rw [hp] at h
    exact absurd h Bool.false_ne_true

theorem i2cStart_of_clocksOn (ha : a.toNat = s.i2cAddr) (hc : s.clocksOn = true) : i2cStart a f s =
    let r := stillRuns (wake 0 s).host.i2cPend (wake 0 s)
    if r.1 then { r.2 with host := { r.2.host with i2cPend := r.1 } }.emit .i2cNack else f { r.2 with host := { r.2.host with i2cPend := r.1 } } := by
  unfold i2cStart
  rw [if_neg (not_not.2 ha), if_neg (phase_of_clocksOn hc), if_pos hc]

theorem host_i2cPend {h : HostS} {b : Bool} (hp : h.i2cPend = b) : { h with i2cPend := b } = h := by
  cases h
  cases hp
  rfl

/-- The port acknowledges its address while no write is being carried out. -/
theorem i2cStart_of_idle (ha : a.toNat = s.i2cAddr) (hc : s.clocksOn = true) (hp : (wake 0 s).host.i2cPend = false) : i2cStart a f s = f (wake 0 s) := by
  rw [i2cStart_of_clocksOn ha hc, hp]
  exact congrArg (fun h => f { wake 0 s with host := h }) (host_i2cPend hp)

theorem stillRuns_host (b : Bool) (s : State) : (stillRuns b s).2.host = s.host := by
  unfold stillRuns
  split_ifs <;> rfl

/-- The port does not acknowledge its address while its last write is being carried out. -/
theorem i2cStart_of_busy (ha : a.toNat = s.i2cAddr) (hc : s.clocksOn = true) (hw : wake 0 s = s) (hp : s.host.i2cPend = true)
    (hb : (stillRuns true s).1 = true) : i2cStart a f s = (stillRuns true s).2.emit .i2cNack := by
  have hhost := (stillRuns_host true s).trans rfl
  rw [i2cStart_of_clocksOn ha hc, hw, hp]
  dsimp only
  rw [if_pos hb, hb]
  generalize (stillRuns true s).2 = z at *
  exact congrArg (fun h => State.emit { z with host := h } .i2cNack) (host_i2cPend (by rw [hhost, hp]))

theorem wake_zero_of_awake (htrans : s.fld F.pwPstat_TRANS = 0) (hst : s.fld F.pwPstat_STATE < 2) : wake 0 s = s := by
  by_cases hmask : (s.fld F.pwCfg1_WAKEMASK).testBit 0 = true
  · exact wake_of_awake hmask (fun h => absurd h (by decide)) htrans hst
  · exact wake_of_masked (Bool.not_eq_true _ ▸ hmask)

theorem wakeNow_host (ws : BitVec 6) (hst : s.fld F.pwPstat_STATE = 2) : (wakeNow ws s).host = s.host := by
  unfold wakeNow
  rw [if_pos hst]
  rfl

/-! ### Transactions (R367) -/

theorem i2cWriteTo_of_offset (o : Nat) (hp : s.host.i2cPend = false) : i2cWriteTo o [] s = { s with host := { s.host with i2cOff := o } } := by
  have heq : i2cWriteTo o [] s = { s with host := { s.host with i2cOff := o, i2cDisp := s.host.i2cDisp, i2cPend := false } } := rfl
  rw [heq]
  generalize hh : s.host = h at hp ⊢
  cases h
  cases hp
  rfl

theorem i2cWriteTo_of_data (o : Nat) (hne : bs ≠ []) (hlen : bs.length ≤ 256) : i2cWriteTo o bs s =
    { (writeBytes .mgmt o bs s).2 with
      host := { (writeBytes .mgmt o bs s).2.host with
        i2cOff := o / 8 * 8 + 8 * ((o % 8 + bs.length + 7) / 8), i2cDisp := (writeBytes .mgmt o bs s).1, i2cPend := (writeBytes .mgmt o bs s).2.clocksOn } } := by
  have hemp : bs.isEmpty = false := by
    cases bs with
    | nil => exact absurd rfl hne
    | cons b bs => rfl
  unfold i2cWriteTo
  dsimp only
  rw [List.take_of_length_le hlen, hemp, if_neg Bool.false_ne_true, if_neg Bool.false_ne_true]
  rfl

theorem i2cReadFrom_eq (n : Nat) (s : State) : i2cReadFrom n s =
    let t := ((readSlots .mgmt s.host.i2cOff (max n 1) s).2.emit
      (.status (statusByte false s.host.i2cDisp (busRead .mgmt s.host.i2cOff (hostPlace s.host.i2cOff) s).1.disp))).emit
      (.resp .mgmt (busRead .mgmt s.host.i2cOff (hostPlace s.host.i2cOff) s).1.disp
        (((readSlots .mgmt s.host.i2cOff (max n 1) s).1.take n).map (·.2)) false)
    { t with host := { t.host with i2cOff := s.host.i2cOff / 8 * 8 + 8 * n } } := by
  rw [← readSlots_head .mgmt s.host.i2cOff n s]
  rfl

/-! ### What the ports send -/

theorem mem_out_emit_emit (x y : Out) (s : State) : x ∈ ((s.emit x).emit y).out ∧ y ∈ ((s.emit x).emit y).out := by
  unfold State.emit
  exact ⟨List.mem_append_left _ (List.mem_append_right _ (List.mem_singleton_self _)), List.mem_append_right _ (List.mem_singleton_self _)⟩

theorem emit_raw (s : State) (o : Out) (x : SramWord) : (s.emit o).raw x = s.raw x := by cases x <;> rfl

theorem with_host_raw (s : State) (h : HostS) (x : SramWord) : ({ s with host := h } : State).raw x = s.raw x := by cases x <;> rfl

theorem readSlots_one (w : Who) (a : Nat) (s : State) : readSlots w a 1 s =
    ([((busRead w a (hostPlace a) s).1.disp, if (busRead w a (hostPlace a) s).1.disp = 9 then 0 else (busRead w a (hostPlace a) s).2.word)],
      (busRead w a (hostPlace a) s).1.st) := rfl

theorem qspiBusy_raw (s : State) (x : SramWord) : (qspiBusy s).2.raw x = s.raw x := by
  obtain ⟨i, h, heq⟩ := qspiBusy_eq s
  rw [heq]
  cases x <;> rfl

theorem qspiBusy_applied (s : State) : (qspiBusy s).2.applied = s.applied := by
  obtain ⟨i, h, heq⟩ := qspiBusy_eq s
  rw [heq]
  rfl

/-! ### The quad-SPI port's commands -/

theorem qspiReads (hclk : s.clocksOn = true) {c : BitVec 32 → Fin 33 → Instr} (hc : c ∈ [Instr.qspiReadSingle, Instr.qspiReadQuadData, Instr.qspiReadQuad])
    (a : BitVec 32) (n : Fin 33) : Does (c a n) s fun t =>
      let r := busRead .qspi a.toNat (hostPlace a.toNat) (qspiBusy s).2
      ∃ ws : List Word, ws.length = n.val ∧ Out.status (statusByte (qspiBusy s).1 s.host.qspiDisp r.1.disp) ∈ t.out ∧ Out.resp .qspi r.1.disp ws false ∈ t.out
        ∧ (n.val = 1 → ws = [if r.1.disp = 9 then 0 else r.2.word])
        ∧ ∀ m k v, s.applied = true → hostPlace a.toNat = .loft m k → loftReserved k = false → n.val = 1 →
          readCode (s.raw (loftPlace m k)) = .ok v → Out.resp .qspi 0 [v] false ∈ t.out ∧ ∀ x, t.raw x = s.raw x := by
  refine does_next (exec_qspiRead hc hclk a n) ?_
  dsimp only
  rw [qspiRead_eq, qspiBusy_disp]
  generalize hr : busRead .qspi a.toNat (hostPlace a.toNat) (qspiBusy s).2 = r
  obtain ⟨hstatus, hresp⟩ := mem_out_emit_emit (.status (statusByte (qspiBusy s).1 s.host.qspiDisp r.1.disp))
    (.resp .qspi r.1.disp (((readSlots .qspi a.toNat (max n.val 1) (qspiBusy s).2).1.take n.val).map (·.2)) false) (readSlots .qspi a.toNat (max n.val 1) (qspiBusy s).2).2
  have hone : n.val = 1 → (((readSlots .qspi a.toNat (max n.val 1) (qspiBusy s).2).1.take n.val).map (·.2)) = [if r.1.disp = 9 then 0 else r.2.word] := fun hn => by
    rw [hn, Nat.max_self, readSlots_one, hr]
    rfl
  refine ⟨((readSlots .qspi a.toNat (max n.val 1) (qspiBusy s).2).1.take n.val).map (·.2), readSlots_take_length ..,
    (mem_out_notify (by exact fun _ => nofun)).2 hstatus, (mem_out_notify (by exact fun _ => nofun)).2 hresp, hone, fun m k v ha hp hres hn hok => ?_⟩
  have hread : r = ({ disp := 0, det := 1, st := (qspiBusy s).2 }, .ok v) := by
    rw [← hr, hp]
    exact busRead_loft _ rfl rfl ((qspiBusy_applied s).trans ha) hres ((congrArg readCode (qspiBusy_raw ..)).trans hok)
  have hst : (readSlots .qspi a.toNat (max n.val 1) (qspiBusy s).2).2 = (qspiBusy s).2 := by
    rw [hn, Nat.max_self, readSlots_one, hr, hread]
  rw [hone hn, hread] at hresp
  rw [hone hn, hread, hst]
  rw [hst] at hresp
  refine ⟨(mem_out_notify (by exact fun _ => nofun)).2 hresp, fun x => ?_⟩
  rw [notify_raw, emit_raw, emit_raw, qspiBusy_raw]

theorem qspiWrites (hclk : s.clocksOn = true) {c : BitVec 32 → List Byte → Instr}
    (hc : c ∈ [Instr.qspiWriteSingle, Instr.qspiWriteQuadData, Instr.qspiWriteQuad]) (a : BitVec 32) (bs : List Byte) :
    (bs = [] → Does (c a bs) s fun t => t = notify s s)
    ∧ (bs ≠ [] → a.toNat % 8 + bs.length ≤ 8 → Does (c a bs) s fun t =>
      let slot := a.toNat / 8
      let x := slotBytesAt a.toNat bs slot
      let u := (qspiBusy s).2
      let r := busWrite .qspi (8 * slot) (hostPlace (8 * slot)) x.1 x.2 u
      t = notify s (if (qspiBusy s).1 then u
        else { r.st with host := { r.st.host with qspiDisp := worse 0 r.disp, qspiPend := r.st.clocksOn } }))
    ∧ ∀ m k, s.host.qspiPend = false → s.applied = true → a.toNat % 8 = 0 → bs.length = 6 → hostPlace a.toNat = .loft m k → loftReserved k = false →
      s.inpassWord m k = false → Does (c a bs) s fun t =>
        readCode (t.raw (loftPlace m k)) = .ok (wd (sixBytes bs)) ∧ (∀ x, x ≠ loftPlace m k → t.raw x = s.raw x) ∧ t.host.qspiDisp = 0 := by
  have htake : ∀ n, bs.length ≤ n → n ≤ 256 → bs.take 256 = bs := fun n h h' => List.take_of_length_le (h.trans h')
  refine ⟨fun hnil => ?_, fun hne hfit => ?_, fun m k hp ha hal hlen hplace hres hin => ?_⟩
  · refine does_next ((exec_qspiWrite hc hclk a bs).trans ?_) rfl
    rw [hnil]
    rfl
  · refine does_next (exec_qspiWrite hc hclk a bs) ?_
    rw [qspiWrite_of_data _ hne, htake 8 (by omega) (by decide), writeBytes_slot .qspi _ hne hfit]
  · have hne : bs ≠ [] := List.ne_nil_of_length_pos (by omega)
    refine does_next (exec_qspiWrite hc hclk a bs) ?_
    rw [qspiWrite_of_data _ hne, htake 6 (by omega) (by decide), qspiBusy_of_idle hp, if_neg Bool.false_ne_true,
      writeBytes_loft rfl rfl ha hal hlen hplace hres hin]
    refine ⟨?_, fun x hx => ?_, rfl⟩
    · rw [notify_raw, with_host_raw, raw_memWrite_same (loftPlace_inMemory m k), readCode_sealW]
    · rw [notify_raw, with_host_raw, raw_memWrite_ne (loftPlace_inMemory m k) hx]

/-! ### The management port's transactions -/

section
variable (hclk : s.clocksOn = true) (ha : a.toNat = s.i2cAddr) (hst : s.fld F.pwPstat_STATE < 2) (htrans : s.fld F.pwPstat_TRANS = 0)
  (hidle : s.host.i2cPend = false)
include hclk ha hst htrans hidle

theorem i2cStart_of_awake : i2cStart a f s = f s := by
  have hw := wake_zero_of_awake htrans hst
  rw [i2cStart_of_idle ha hclk (by rw [hw, hidle]), hw]

theorem i2cWrites (o : BitVec 32) (bs : List Byte) :
    (bs = [] → Does (.i2cWrite a o bs) s fun t => t = notify s { s with host := { s.host with i2cOff := o.toNat } })
    ∧ (bs ≠ [] → o.toNat % 8 + bs.length ≤ 8 → Does (.i2cWrite a o bs) s fun t =>
      let slot := o.toNat / 8
      let x := slotBytesAt o.toNat bs slot
      let r := busWrite .mgmt (8 * slot) (hostPlace (8 * slot)) x.1 x.2 s
      t = notify s { r.st with host := { r.st.host with i2cDisp := worse 0 r.disp, i2cOff := 8 * slot + 8, i2cPend := r.st.clocksOn } })
    ∧ (∀ m k, s.applied = true → o.toNat % 8 = 0 → bs.length = 6 → hostPlace o.toNat = .loft m k → loftReserved k = false →
      s.inpassWord m k = false → Does (.i2cWrite a o bs) s fun t =>
        readCode (t.raw (loftPlace m k)) = .ok (wd (sixBytes bs))
          ∧ (∀ x, x ≠ loftPlace m k → t.raw x = s.raw x) ∧ t.host.i2cDisp = 0 ∧ t.host.i2cOff = o.toNat + 8) := by
  have hexec : exec (.i2cWrite a o bs) s = done s (i2cWriteTo o.toNat bs s) :=
    congrArg (done s) (i2cStart_of_awake (f := i2cWriteTo o.toNat bs) hclk ha hst htrans hidle)
  refine ⟨fun hnil => ?_, fun hne hfit => ?_, fun m k happ hal hlen hplace hres hin => ?_⟩
  · refine does_next hexec ?_
    rw [hnil, i2cWriteTo_of_offset _ hidle]
  · refine does_next hexec ?_
    have hslots : o.toNat / 8 * 8 + 8 * ((o.toNat % 8 + bs.length + 7) / 8) = 8 * (o.toNat / 8) + 8 := by
      have := List.length_pos_iff.2 hne
      omega
    rw [i2cWriteTo_of_data _ hne (by omega), writeBytes_slot .mgmt _ hne hfit, hslots]
  · have hne : bs ≠ [] := List.ne_nil_of_length_pos (by omega)
    refine does_next hexec ?_
    rw [i2cWriteTo_of_data _ hne (by omega), writeBytes_loft rfl rfl happ hal hlen hplace hres hin]
    refine ⟨?_, fun x hx => ?_, rfl, ?_⟩
    · rw [notify_raw, with_host_raw, raw_memWrite_same (loftPlace_inMemory m k), readCode_sealW]
    · rw [notify_raw, with_host_raw, raw_memWrite_ne (loftPlace_inMemory m k) hx]
    · change o.toNat / 8 * 8 + 8 * ((o.toNat % 8 + bs.length + 7) / 8) = o.toNat + 8
      omega

theorem i2cReads (n : Fin 33) :
    (∀ m k v, s.applied = true → hostPlace s.host.i2cOff = .loft m k → loftReserved k = false → n.val = 1 →
      readCode (s.raw (loftPlace m k)) = .ok v → Does (.i2cRead a n) s fun t => Out.resp .mgmt 0 [v] false ∈ t.out ∧ ∀ x, t.raw x = s.raw x)
    ∧ Does (.i2cRead a n) s fun t =>
      let r := busRead .mgmt s.host.i2cOff (hostPlace s.host.i2cOff) s
      Out.status (statusByte false s.host.i2cDisp r.1.disp) ∈ t.out ∧ t.host.i2cOff = s.host.i2cOff / 8 * 8 + 8 * n.val := by
  have hexec : exec (.i2cRead a n) s = done s (i2cReadFrom n.val s) :=
    congrArg (done s) (i2cStart_of_awake (f := i2cReadFrom n.val) hclk ha hst htrans hidle)
  rw [i2cReadFrom_eq] at hexec
  refine ⟨fun m k v happ hp hres hn hok => does_next hexec ?_, does_next hexec ⟨?_, rfl⟩⟩
  · have hread : busRead .mgmt s.host.i2cOff (hostPlace s.host.i2cOff) s = ({ disp := 0, det := 1, st := s }, .ok v) := by
      rw [hp]
      exact busRead_loft _ rfl rfl happ hres hok
    rw [hn, Nat.max_self, readSlots_one, hread]
    refine ⟨(mem_out_notify (by exact fun _ => nofun)).2 (mem_out_emit_emit ..).2, fun x => ?_⟩
    rw [notify_raw, with_host_raw, emit_raw, emit_raw]
  · exact (mem_out_notify (by exact fun _ => nofun)).2 (mem_out_emit_emit ..).1

end

theorem serialPortsReadAndWrite : Stated.SerialPortsReadAndWrite := by
  intro s hclk
  refine ⟨fun c hc a n => qspiReads hclk hc a n, fun c hc a bs => qspiWrites hclk hc a bs, ?_, fun h => qspiBusy_of_idle h, rfl,
    fun a o bs n => ⟨fun ha => ?_, fun ha hst htrans hmask hnil hidle => ?_, fun ha hst htrans hbusy => ?_, fun ha hst htrans hidle => ?_⟩⟩
  · refine does_next (u := (qspiBusy s).2.emit (.status (statusByte (qspiBusy s).1 s.host.qspiDisp 0))) (congrArg (done s) ?_) rfl
    rw [← qspiBusy_disp s]
    unfold qspi
    rw [hclk]
    rfl
  · exact ⟨does_next (congrArg (done s) (i2cStart_of_other ha)) rfl, does_next (congrArg (done s) (i2cStart_of_other ha)) rfl⟩
  · have hdoze : wake 0 s = wakeNow (BitVec.ofNat 6 (2 ^ 0)) s := wake_of_doze hmask (fun h => absurd h (by decide)) htrans hst
    have hhost := wakeNow_host (BitVec.ofNat 6 (2 ^ 0)) hst
    obtain ⟨hgoing, hto, -⟩ := wakeNow_of_doze (BitVec.ofNat 6 (2 ^ 0)) hst
    rw [← hdoze] at hhost hgoing hto
    have hp : (wake 0 s).host.i2cPend = false := by rw [hhost, hidle]
    refine does_next (congrArg (done s) (i2cStart_of_idle ha hclk hp)) ?_
    rw [hnil, i2cWriteTo_of_offset _ hp]
    exact ⟨hgoing, hto, rfl⟩
  · have hw := wake_zero_of_awake htrans hst
    exact ⟨does_next (u := i2cStart a (i2cReadFrom n) s) rfl fun hb => congrArg (notify s) (i2cStart_of_busy ha hclk hw hbusy hb),
      does_next (u := i2cStart a (i2cWriteTo o.toNat bs) s) rfl fun hb => congrArg (notify s) (i2cStart_of_busy ha hclk hw hbusy hb)⟩
  · obtain ⟨hoff, hslot, hword⟩ := i2cWrites hclk ha hst htrans hidle o bs
    obtain ⟨hloft, hstatus⟩ := i2cReads hclk ha hst htrans hidle n
    exact ⟨hoff, hslot, hword, hloft, hstatus⟩

end Sys2Proof.Machine
end

section
/-! The debug registers as an access reaches them (R104, R107, R108), and the JTAG port (R368). -/

namespace Sys2Proof.Machine

variable {s t u : State} {r : RegId} {i j off : Nat} {v : Word} {wr : Bool}

/-! ### The debug registers send nothing (R107) -/

/-- The debug registers of R107. -/
def dbgRegs : List RegId := [.dbgCtl, .dbgStat, .dbgSel, .dbgData, .dbgBp, .eirq, .eirqs]

theorem mem_dbgRegs_of_need (h : r.need i = .dbg) : r ∈ dbgRegs := by
  have hcommit : r ≠ .commit := by
    rintro rfl
    have hneed := commit_need i
    rw [h] at hneed
    exact absurd hneed (by decide)
  unfold RegId.need at h
  split_ifs at h <;> split at h <;> simp_all [dbgRegs]

theorem writeFld_out (f : Fld) (v i j : Nat) (s : State) : (writeFld f v i j s).out = s.out := by
  unfold writeFld
  split
  · rfl
  · rfl
  · rfl
  · split
    · unfold writeShadow
      split_ifs <;> rfl
    · rfl
  · split_ifs <;> rfl
  · rfl

theorem writeFlds_out (r : RegId) (skip : List Fld) (i j v : Nat) (s : State) : (writeFlds r skip i j v s).out = s.out :=
  foldl_part (p := State.out) (f := fun s (f : Fld) => writeFld f (bits v f.lo f.width) i j s) (fun s f => writeFld_out f _ i j s) _ s

theorem dbgRun_out (e : Nat) (step : Bool) (s : State) : (dbgRun e step s).out = s.out := by
  unfold dbgRun
  dsimp only
  split_ifs <;> rfl

theorem dbgHalt_out (e : Nat) (s : State) : (dbgHalt e s).out = s.out := by
  unfold dbgHalt
  split_ifs <;> rfl

theorem dbgWrite_out (e : Nat) (v : Word) (s : State) : (dbgWrite e v s).out = s.out := by
  unfold dbgWrite
  split_ifs <;> rfl

theorem onBit_out {f : State → State} (hf : ∀ s, (f s).out = s.out) (v k : Nat) (s : State) : (onBit v k f s).out = s.out := by
  unfold onBit
  split_ifs
  · exact hf s
  · rfl

theorem regAct_debug_out (w : Who) (h : r ∈ dbgRegs) (i j v : Nat) (s : State) : (regAct w r i j v s).st.out = s.out := by
  have hplain := writeFlds_out r [] i j v s
  simp only [dbgRegs, List.mem_cons, List.not_mem_nil, or_false] at h
  rcases h with rfl | rfl | rfl | rfl | rfl | rfl | rfl
  · refine (onBit_out (dbgHalt_out _) ..).trans ?_
    split_ifs
    · exact (dbgRun_out ..).trans hplain
    · exact hplain
  · exact hplain
  · exact hplain
  · exact dbgWrite_out ..
  · exact hplain
  · exact hplain
  · rfl

theorem refuse_out (r : RegId) (i det : Nat) (s : State) : (refuse r i det s).st.out = s.out := by
  unfold refuse
  split_ifs <;> rfl

theorem writeReg_debug_out (w : Who) (h : r ∈ dbgRegs) (i j : Nat) (be : BitVec 8) (v : BitVec 64) (s : State) : (writeReg w r i j be v s).st.out = s.out := by
  unfold writeReg
  split_ifs
  · rfl
  · split
    · rfl
    · exact refuse_out ..
    · exact regAct_debug_out w h ..

theorem clearRc_out (r : RegId) (i j : Nat) (s : State) : (clearRc r i j s).out = s.out := by
  unfold clearRc
  split_ifs
  · rfl
  · exact foldl_part (p := State.out) (f := fun s (f : Fld) => s.put f 0 i j) (fun _ _ => rfl) _ s

theorem regRead_debug (h : r ∈ dbgRegs) (i j : Nat) (s : State) : regRead r i j s = (.ok (s.regWord r i j), clearRc r i j s) := by
  simp only [dbgRegs, List.mem_cons, List.not_mem_nil, or_false] at h
  rcases h with rfl | rfl | rfl | rfl | rfl | rfl | rfl <;> rfl

theorem readReg_debug_out (w : Who) (h : r ∈ dbgRegs) (i j : Nat) (s : State) : (readReg w r i j s).1.st.out = s.out := by
  unfold readReg
  split_ifs
  · rfl
  · split
    · rfl
    · exact refuse_out ..
    · rw [regRead_debug h]
      exact clearRc_out ..

/-! ### An access of DBGACC (R368) -/

theorem dbgaccess_of_refused (wr : Bool) (v : Word) (hp : hostPlace off = .reg r i j) (h : r.need i ≠ .dbg ∨ s.mayDebug .jtag = false) :
    dbgaccess wr off v s = { s with host := { s.host with dbgData := 0, dbgDisp := 9 } } := by
  unfold dbgaccess
  rw [hp]
  refine if_neg fun hall => ?_
  obtain ⟨hneed, hmay, -⟩ := hall
  rcases h with h | h
  · exact h hneed
  · rw [hmay] at h
    exact absurd h (by decide)

section
variable (hp : hostPlace off = .reg r i j) (hneed : r.need i = .dbg) (hmay : s.mayDebug .jtag = true) (hclk : s.clocksOn = true)
include hp hneed hmay hclk

theorem dbgaccess_of_read : dbgaccess false off v s =
    { (readReg .jtag r i j s).1.st with host := { (readReg .jtag r i j s).1.st.host with dbgData := (readReg .jtag r i j s).2.word, dbgDisp := 0 } } := by
  unfold dbgaccess
  rw [hp]
  exact (if_pos ⟨hneed, hmay, hclk⟩).trans rfl

theorem dbgaccess_of_write : dbgaccess true off v s =
    { (writeReg .jtag r i j 0xFF (v.setWidth 64) s).st with
      host := { (writeReg .jtag r i j 0xFF (v.setWidth 64) s).st.host with dbgData := v, dbgDisp := 0 } } := by
  unfold dbgaccess
  rw [hp]
  exact (if_pos ⟨hneed, hmay, hclk⟩).trans rfl

end

theorem dbgaccess_out (wr : Bool) (off : Nat) (v : Word) (s : State) : (dbgaccess wr off v s).out = s.out := by
  unfold dbgaccess
  extract_lets fin
  split
  · split_ifs with hall
    · exact writeReg_debug_out .jtag (mem_dbgRegs_of_need hall.1) ..
    · exact readReg_debug_out .jtag (mem_dbgRegs_of_need hall.1) ..
    · rfl
  · rfl

/-! ### DBGDATA of register A (R108) -/

theorem need_dbgData (i : Nat) : RegId.need .dbgData i = .dbg := rfl

theorem place_of_engine (e : Nat) : 8 * (e / 8) + e % 8 = e := Nat.div_add_mod e 8

theorem openReg_of_applied (r : RegId) (i : Nat) (h : s.applied = true) : s.openReg r i = true := by
  unfold State.openReg
  rw [h]
  rfl

theorem writeReg_dbgData (i j : Nat) (ha : s.applied = true) (hmay : s.mayDebug .jtag = true) :
    (writeReg .jtag .dbgData i j 0xFF (v.setWidth 64) s).st = dbgWrite (8 * i + j) v s := by
  have hok : s.writeVerdict .jtag .dbgData i j = .ok := (if_neg Bool.false_ne_true).trans (if_pos hmay)
  have hv : wd v.toNat = v := by rw [wd, BitVec.ofNat_toNat, BitVec.setWidth_eq]
  unfold writeReg
  rw [openReg_of_applied _ _ ha, hok, mergeBytes_setWidth]
  exact congrArg (fun x => dbgWrite (8 * i + j) x s) hv

theorem sel_of_zero (hsel : s.fld F.dbgSel_REG i j = 0) : s.eff F.dbgSel_REG (· ≥ 20) i j = 0 := by
  unfold State.eff
  rw [hsel]
  rfl

theorem dbgWrite_a {e : Nat} (hhalt : s.fld F.dbgStat_HALTED (e / 8) (e % 8) ≠ 0) (hsel : s.fld F.dbgSel_REG (e / 8) (e % 8) = 0) :
    dbgWrite e v s = s.setE e { s.e e with a := v } := by
  unfold dbgWrite
  rw [if_pos (State.on_eq_true.2 hhalt), sel_of_zero hsel]
  rfl

theorem readReg_dbgData {e : Nat} (ha : s.applied = true) (hmay : s.mayDebug .jtag = true) (hhalt : s.fld F.dbgStat_HALTED (e / 8) (e % 8) ≠ 0)
    (hsel : s.fld F.dbgSel_REG (e / 8) (e % 8) = 0) : (readReg .jtag .dbgData (e / 8) (e % 8) s).2.word = (s.e e).a := by
  have hok : s.readVerdict .jtag .dbgData (e / 8) (e % 8) = .ok := (if_neg Bool.false_ne_true).trans (if_pos hmay)
  have hlive : s.live .dbgData (e / 8) (e % 8) = (s.e e).a.toNat := by
    refine (if_pos (State.on_eq_true.2 hhalt)).trans ?_
    rw [sel_of_zero hsel, place_of_engine]
    rfl
  have hword : s.regWord .dbgData (e / 8) (e % 8) = (s.e e).a := by
    unfold State.regWord
    rw [hlive]
    have hzero : ((RegId.flds .dbgData).map fun f => fw f (s.shown f (e / 8) (e % 8))).sum = 0 := rfl
    rw [hzero, Nat.zero_add, wd, BitVec.ofNat_toNat, BitVec.setWidth_eq]
  unfold readReg
  rw [openReg_of_applied _ _ ha, hok]
  exact hword

/-! ### The scan (R368) -/

theorem tdo_eq (v : Nat) (s : State) : ∃ o, tdo v s = { s with out := o } ∧ (s.column ≠ .reset → Out.jtag v ∈ o) := by
  unfold tdo
  split_ifs with hcol
  · exact ⟨s.out, rfl, fun h => absurd hcol h⟩
  · exact ⟨_, rfl, fun _ => List.mem_append_right _ (List.mem_singleton_self _)⟩

theorem host_dbgPend {h : HostS} {b : Bool} (hp : h.dbgPend = b) : { h with dbgPend := b } = h := by
  cases h
  cases hp
  rfl

/-- A scan with DBGACC idle shows the last access and starts one. -/
theorem dbgScan_of_idle (wr : Bool) (a : BitVec 24) (v : Word) (hp : s.host.dbgPend = false) : ∃ b q, dbgScan wr a v s =
    { dbgaccess wr (8 * a.toNat) v (tdo (s.dbgWord false) s) with
      host := { (dbgaccess wr (8 * a.toNat) v (tdo (s.dbgWord false) s)).host with dbgPend := b, dbgReq := q } } := by
  have hrun : stillRuns s.host.dbgPend s = (false, s) := by rw [hp]; rfl
  have hsame : ({ s with host := { s.host with dbgPend := false } } : State) = s := congrArg (fun h => ({ s with host := h } : State)) (host_dbgPend hp)
  unfold dbgScan
  rw [hrun]
  dsimp only
  rw [hsame, if_neg Bool.false_ne_true]
  exact ⟨_, _, rfl⟩

/-- A scan sends what DBGACC captures, whatever it starts. -/
theorem dbgScan_out (wr : Bool) (a : BitVec 24) (v : Word) (hcol : s.column ≠ .reset) :
    Out.jtag (s.dbgWord (stillRuns s.host.dbgPend s).1) ∈ (dbgScan wr a v s).out := by
  obtain ⟨q, hq⟩ : ∃ q, (stillRuns s.host.dbgPend s).2 = { s with fresh := q } := by
    unfold stillRuns
    split_ifs <;> exact ⟨_, rfl⟩
  unfold dbgScan
  generalize stillRuns s.host.dbgPend s = x at *
  obtain ⟨b, z⟩ := x
  dsimp only at hq ⊢
  subst hq
  obtain ⟨o, ho, hmem⟩ := tdo_eq (({ s with fresh := q } : State).dbgWord b) { s with fresh := q, host := { s.host with dbgPend := b } }
  have hcolumn : ({ s with fresh := q, host := { s.host with dbgPend := b } } : State).column = s.column := column_of_same rfl rfl
  rw [ho]
  split_ifs
  · exact hmem (hcolumn ▸ hcol)
  · change _ ∈ (dbgaccess ..).out
    rw [dbgaccess_out]
    exact hmem (hcolumn ▸ hcol)

/-- A scan while the last access is being carried out starts none. -/
theorem dbgScan_of_busy (wr : Bool) (a : BitVec 24) (v : Word) (hp : s.host.dbgPend = true) (hb : (stillRuns true s).1 = true) :
    (dbgScan wr a v s).host = s.host ∧ (dbgScan wr a v s).act = s.act := by
  obtain ⟨q, hq⟩ : ∃ q, (stillRuns true s).2 = { s with fresh := q } := ⟨_, rfl⟩
  unfold dbgScan
  rw [hp]
  generalize stillRuns true s = x at *
  obtain ⟨b, z⟩ := x
  dsimp only at hq hb ⊢
  subst hq hb
  obtain ⟨o, ho, -⟩ := tdo_eq (({ s with fresh := q } : State).dbgWord true) { s with fresh := q, host := { s.host with dbgPend := true } }
  rw [if_pos rfl, ho]
  exact ⟨host_dbgPend hp, rfl⟩

end Sys2Proof.Machine
end

section
/-! The instructions of the JTAG port (R368), and what the ports of the host answer (chapter 20). -/

namespace Sys2Proof.Machine

variable {s t u : State} {r : RegId} {i j : Nat} {a : BitVec 24} {v : Word} {wr : Bool}

/-- The state with a JTAG instruction selected. -/
def jtagSel (ir : Nat) (s : State) : State := { s with host := { s.host with jtagIr := ir, drive := ir == 0 } }

theorem jtagSelect_of_off (ir : Nat) (f : State → State) (h : s.tapOn = false) : jtagSelect ir f s = s := if_pos (by rw [h]; rfl)

theorem jtagSelect_of_on (ir : Nat) (f : State → State) (h : s.tapOn = true) : jtagSelect ir f s = f (jtagSel ir s) :=
  if_neg (by rw [h]; exact Bool.false_ne_true)

theorem jtagSel_column (ir : Nat) (s : State) : (jtagSel ir s).column = s.column := column_of_same rfl rfl

theorem tdo_jtagSel (v ir : Nat) (s : State) : tdo v (jtagSel ir s) = if s.column = .reset then jtagSel ir s else (jtagSel ir s).emit (.jtag v) := by
  unfold tdo
  rw [jtagSel_column]

theorem exec_dbgacc (h : s.tapOn = true) : exec (.dbgacc wr a v) s = done s (dbgScan wr a v (jtagSel 22 s)) :=
  congrArg (done s) (jtagSelect_of_on 22 _ h)

/-- What an access meets: DBGACC selected, and what the scan has sent. -/
def jtagScanned (o : List Out) (s : State) : State := { jtagSel 22 s with out := o }

theorem exists_scanned (s : State) : ∃ o, tdo (s.dbgWord false) (jtagSel 22 s) = jtagScanned o s
    ∧ (s.column ≠ .reset → Out.jtag (s.dbgWord false) ∈ o) := by
  obtain ⟨o, ho, hmem⟩ := tdo_eq (s.dbgWord false) (jtagSel 22 s)
  exact ⟨o, ho, fun h => hmem ((jtagSel_column 22 s).symm ▸ h)⟩

theorem exec_dbgacc_of_idle (h : s.tapOn = true) (hp : s.host.dbgPend = false) : ∃ b q, exec (.dbgacc wr a v) s =
    done s { dbgaccess wr (8 * a.toNat) v (tdo (s.dbgWord false) (jtagSel 22 s)) with
      host := { (dbgaccess wr (8 * a.toNat) v (tdo (s.dbgWord false) (jtagSel 22 s))).host with dbgPend := b, dbgReq := q } } := by
  obtain ⟨b, q, hscan⟩ := dbgScan_of_idle (s := jtagSel 22 s) wr a v hp
  exact ⟨b, q, (exec_dbgacc h).trans (congrArg (done s) hscan)⟩

/-- DBGACC is refused at a register that is none of R107, and while SEC does not let it. -/
theorem dbgacc_refused (h : s.tapOn = true) (hp : s.host.dbgPend = false) (hplace : hostPlace (8 * a.toNat) = .reg r i j)
    (hno : r.need i ≠ .dbg ∨ s.mayDebug .jtag = false) : Does (.dbgacc wr a v) s fun t =>
      t.host.dbgDisp = 9 ∧ t.host.dbgData = 0 ∧ (s.column ≠ .reset → Out.jtag (s.dbgWord false) ∈ t.out) ∧ t.act = s.act ∧ t.eng = s.eng := by
  obtain ⟨b, q, hexec⟩ := exec_dbgacc_of_idle (wr := wr) (a := a) (v := v) h hp
  obtain ⟨o, ho, hmem⟩ := exists_scanned s
  rw [ho, dbgaccess_of_refused (s := jtagScanned o s) wr v hplace hno] at hexec
  exact does_next hexec ⟨rfl, rfl, fun hcol => (mem_out_notify (by exact fun _ => nofun)).2 (hmem hcol), rfl, rfl⟩

theorem dbgacc_read (h : s.tapOn = true) (hp : s.host.dbgPend = false) (hplace : hostPlace (8 * a.toNat) = .reg r i j)
    (hneed : r.need i = .dbg) (hmay : s.mayDebug .jtag = true) (hclk : s.clocksOn = true) : Does (.dbgacc false a v) s fun t =>
      t.host.dbgDisp = 0 ∧ t.host.dbgData = (readReg .jtag r i j (tdo (s.dbgWord false) (jtagSel 22 s))).2.word := by
  obtain ⟨b, q, hexec⟩ := exec_dbgacc_of_idle (wr := false) (a := a) (v := v) h hp
  obtain ⟨o, ho, -⟩ := exists_scanned s
  rw [ho] at hexec ⊢
  have hread := dbgaccess_of_read (s := jtagScanned o s) (v := v) hplace hneed hmay hclk
  rw [hread] at hexec
  exact does_next hexec ⟨rfl, rfl⟩

section
variable {e : Fin 128} (h : s.tapOn = true) (hp : s.host.dbgPend = false) (hmay : s.mayDebug .jtag = true) (hclk : s.clocksOn = true) (ha : s.applied = true)
  (hhalt : s.fld F.dbgStat_HALTED (e / 8) (e % 8) ≠ 0) (hsel : s.fld F.dbgSel_REG (e / 8) (e % 8) = 0)
  (hplace : hostPlace (8 * a.toNat) = .reg .dbgData (e / 8) (e % 8))
include h hp hmay hclk ha hhalt hsel hplace

theorem dbgacc_writes_a : Does (.dbgacc true a v) s fun t => (t.e e).a = v ∧ t.host.dbgData = v ∧ t.host.dbgDisp = 0 ∧ t.act = s.act := by
  obtain ⟨b, q, hexec⟩ := exec_dbgacc_of_idle (wr := true) (a := a) (v := v) h hp
  obtain ⟨o, ho, -⟩ := exists_scanned s
  rw [ho, dbgaccess_of_write (s := jtagScanned o s) hplace (need_dbgData _) hmay hclk,
    writeReg_dbgData (s := jtagScanned o s) _ _ ha hmay, place_of_engine, dbgWrite_a (s := jtagScanned o s) hhalt hsel] at hexec
  have hset := State.setE_e (jtagScanned o s) e.val { (jtagScanned o s).e e with a := v }
  have hact : ((jtagScanned o s).setE e.val { (jtagScanned o s).e e with a := v }).act = s.act := rfl
  generalize (jtagScanned o s).setE e.val { (jtagScanned o s).e e with a := v } = z at *
  exact does_next hexec ⟨(congrArg Eng.a hset).trans rfl, rfl, rfl, hact⟩

theorem dbgacc_reads_a : Does (.dbgacc false a v) s fun t => t.host.dbgData = (s.e e).a ∧ t.host.dbgDisp = 0 := by
  obtain ⟨t, hexec, hdisp, hdata⟩ := dbgacc_read (v := v) h hp hplace (need_dbgData _) hmay hclk
  obtain ⟨o, ho, -⟩ := exists_scanned s
  rw [ho, readReg_dbgData (s := jtagScanned o s) ha hmay hhalt hsel] at hdata
  exact ⟨t, hexec, hdata, hdisp⟩

end

theorem jtagInstructions : Stated.JtagInstructions := by
  intro s pins load wr a v
  refine ⟨fun hoff c hc => ?_, fun hon => ⟨?_, ?_, ?_, ?_, fun hp => ?_, fun r i j hp hplace => ⟨fun hno => dbgacc_refused hon hp hplace hno,
    fun hneed hmay hclk => dbgacc_read hon hp hplace hneed hmay hclk⟩,
    fun e hp hmay hclk ha hhalt hsel hplace => ⟨dbgacc_writes_a hon hp hmay hclk ha hhalt hsel hplace, dbgacc_reads_a hon hp hmay hclk ha hhalt hsel hplace⟩⟩⟩
  · have hstays : exec c s = done s s := by
      simp only [List.mem_cons, List.not_mem_nil, or_false] at hc
      rcases hc with rfl | rfl | rfl | rfl | rfl <;> exact congrArg (done s) (jtagSelect_of_off _ _ hoff)
    exact does_next hstays rfl
  · exact does_next (congrArg (done s) ((jtagSelect_of_on 31 _ hon).trans (tdo_jtagSel ..))) rfl
  · exact does_next (congrArg (done s) ((jtagSelect_of_on 2 _ hon).trans (tdo_jtagSel ..))) rfl
  · exact does_next (congrArg (done s) (jtagSelect_of_on 0 id hon)) rfl
  · exact does_next (congrArg (done s) (jtagSelect_of_on 1 _ hon)) rfl
  · refine does_next (exec_dbgacc hon) ⟨fun hb => ?_, fun hcol => ?_⟩
    · obtain ⟨hhost, hact⟩ := dbgScan_of_busy (s := jtagSel 22 s) wr a v hp hb
      generalize dbgScan wr a v (jtagSel 22 s) = t at *
      have hsame : t.host.dbgData = s.host.dbgData ∧ t.host.dbgDisp = s.host.dbgDisp ∧ t.host.dbgPend = true := by
        rw [hhost]
        exact ⟨rfl, rfl, hp⟩
      exact ⟨hsame.1, hsame.2.1, hsame.2.2, hact⟩
    · have hout := dbgScan_out (s := jtagSel 22 s) wr a v ((jtagSel_column 22 s).symm ▸ hcol)
      rw [show (jtagSel 22 s).host.dbgPend = true from hp] at hout
      exact (mem_out_notify (by exact fun _ => nofun)).2 hout

/-- Settles O58: the PCIe functions and their vectors, the transfers of the quad-SPI and the management port, and the instructions of the
JTAG port. -/
theorem hostPortsAnswer : Obligations.HostPortsAnswer := by
  unfold Obligations.HostPortsAnswer
  exact ⟨pcieFunctionsAndVectors, serialPortsReadAndWrite, jtagInstructions⟩

end Sys2Proof.Machine
end
